-- ==== Sys2Proof/Word.lean ====
section
/-! DEFINITION. The word and byte types of the ZN8100 and their plainest arithmetic. -/

namespace Sys2Proof

/-- One byte of any little-endian structure (R6). -/
abbrev Byte := BitVec 8

/-- A general register, CSR or data address of an Akzil thread (R242, R243). -/
abbrev Word := BitVec 64

/-- The word of a natural number, modulo 2^64. -/
def Word.of (n : Nat) : Word := BitVec.ofNat 64 n

/-- The byte of a natural number, modulo 256. -/
def Byte.of (n : Nat) : Byte := BitVec.ofNat 8 n

end Sys2Proof
end

