-- ==== Sys2Proof/Machine/Maps.lean ====
section
/-! DEFINITION. Finite maps keyed by natural numbers, as lists in one canonical form: keys strictly rising.
A map read with a default (`get`, `put`) lists no entry equal to that default, so that equal contents are equal data. -/

namespace Sys2Proof.Machine

/-- A finite map from natural numbers: a list of pairs with strictly rising keys. -/
abbrev Map (α : Type) := List (Nat × α)

/-- The entry at key `k`, if one is listed. -/
def Map.find {α : Type} : Map α → Nat → Option α
  | [], _ => none
  | (j, v) :: m, k => if k = j then some v else Map.find m k

/-- The map with key `k` carrying `v`, in rising order. -/
def Map.ins {α : Type} : Map α → Nat → α → Map α
  | [], k, v => [(k, v)]
  | (j, w) :: m, k, v =>
    if k < j then (k, v) :: (j, w) :: m
    else if k = j then (k, v) :: m
    else (j, w) :: Map.ins m k v

/-- The map with no entry at key `k`. -/
def Map.del {α : Type} : Map α → Nat → Map α
  | [], _ => []
  | (j, w) :: m, k => if k = j then Map.del m k else (j, w) :: Map.del m k

/-- What key `k` reads as when an unlisted key reads as `d`. -/
def Map.get {α : Type} (m : Map α) (d : α) (k : Nat) : α := (m.find k).getD d

/-- The map after `v` is written at `k`; a value equal to the default `d` leaves no entry. -/
def Map.put {α : Type} [DecidableEq α] (m : Map α) (d : α) (k : Nat) (v : α) : Map α :=
  if v = d then m.del k else m.ins k v

/-- Every key from `lo` on, strictly rising. -/
def Map.rising {α : Type} : Nat → Map α → Bool
  | _, [] => true
  | lo, (k, _) :: m => decide (lo ≤ k) && Map.rising (k + 1) m

/-- The canonical form: strictly rising keys. -/
def Map.wf {α : Type} (m : Map α) : Bool := Map.rising 0 m

/-- No entry equal to the default. -/
def Map.lean {α : Type} [DecidableEq α] (d : α) (m : Map α) : Bool := m.all fun p => decide (p.2 ≠ d)

/-- The map with `f` applied to every listed value. -/
def Map.mapVals {α β : Type} (f : α → β) (m : Map α) : Map β := m.map fun p => (p.1, f p.2)

/-- The listed keys. -/
def Map.keys {α : Type} (m : Map α) : List Nat := m.map (·.1)

/-- The entries whose key and value pass the test. -/
def Map.keep {α : Type} (m : Map α) (p : Nat → α → Bool) : Map α := m.filter fun e => p e.1 e.2

/-- Replaces the `i`-th element of a list. -/
def setAt {α : Type} : List α → Nat → α → List α
  | [], _, _ => []
  | _ :: l, 0, v => v :: l
  | x :: l, n + 1, v => x :: setAt l n v

/-- The first element that passes the test. -/
def firstWhere {α : Type} (p : α → Bool) : List α → Option α
  | [] => none
  | x :: l => if p x then some x else firstWhere p l

/-- `f` applied `n` times. -/
def iter {α : Type} : Nat → (α → α) → α → α
  | 0, _, x => x
  | n + 1, f, x => iter n f (f x)

end Sys2Proof.Machine
end

