-- ==== Sys2Proof/Machine/StIngest.lean ====
section
/-! DEFINITION. The state of the Ingest Pipeline and Meter Directory. -/

namespace Sys2Proof.Machine

/-- Entry states, Table 5-3; `reserved` stands for codes 5 to 7, which are handled as POISONED. -/
inductive DSt where
  | free | fresh | active | exhausted | suspended | reserved
deriving DecidableEq, Repr

/-- STATE code of Table 5-3. -/
def DSt.code : DSt → Nat
  | .free => 0 | .fresh => 1 | .active => 2 | .exhausted => 3 | .suspended => 4 | .reserved => 7

/-- A directory entry (Table 5-2). -/
structure DirEntry where
  ma : BitVec 64 := 0
  fcntHi : BitVec 32 := 0
  rbitmap : BitVec 32 := 0
  async : Bool := false
  afl : BitVec 3 := 0
  ackt : BitVec 28 := 0
  node : BitVec 16 := 0
  link : BitVec 16 := 0
  kepoch : BitVec 8 := 0
  pvalid : Bool := false
  direct : Bool := false
  dkslot : BitVec 6 := 0
  cmdpend : Bool := false
  pdkslot : BitVec 6 := 0
  cslot : BitVec 12 := 0
  wakepend : Bool := false
  delay : BitVec 8 := 0
  st : DSt := .free
  medium : Bool := false
  cls : BitVec 4 := 0
  profile : BitVec 2 := 0
  cal : BitVec 6 := 0
deriving DecidableEq, Repr

/-- A plausibility row (Table 5-6). -/
structure PlRow where
  rolldig : Nat := 0
  ratemax : Nat := 0
  back : Nat := 0
  backlogBack : Nat := 0
  ahead : Nat := 0
deriving DecidableEq, Repr

/-- A frame accepted and not yet taken by plausibility (R28, R147): it holds a staging slot. -/
structure Staged where
  mh : Nat
  src : Nat
  /-- Decision instant, TAI ns. -/
  decided : Nat
  /-- 0 for a frame of this chip, else 1 more than the chip ID it came from: the order of one cycle's decisions (R379). -/
  chip : Nat := 0
  ftype : Nat
  fcnt : BitVec 32
  kepoch : BitVec 8
  unsync : Bool
  payload : List (BitVec 8)
  timeInv : Bool := false
  /-- Accepted during RESTORE or reduced service: its slot is its credit (R147). -/
  buffered : Bool := false
  /-- It waits for the replay of R155 (R156). -/
  held : Bool := false
  ma : BitVec 64 := 0
  /-- The entry as the decision found it: CLASS, PROFILE, CAL and NODE (R150, R154), and the plausibility row in force then (R151). -/
  ent : DirEntry := {}
  row : PlRow := {}
deriving DecidableEq, Repr

/-- A record of the stranger ring (R146). -/
structure Stranger where
  ma : BitVec 64
  src : Nat
  tai : BitVec 32
  unread : Bool
deriving DecidableEq, Repr

/-- A relocation that waits for held frames (R138): MA, old MH, new MH. -/
structure Reloc5 where
  ma : BitVec 64
  old : Nat
  new : Nat
deriving DecidableEq, Repr

/-- An insertion whose relocations are not all done: the new entry and its chain, free end first. -/
structure InsertWait where
  entry : DirEntry
  moves : List Reloc5
  /-- The way the entry takes once the moves are done; `none` while an earlier insertion has not finished. -/
  final : Option Nat
  id : Nat
deriving DecidableEq, Repr

/-- A passing record (R154): KIND (0 import, 1 export, 2 an instantaneous value), TARIFF (15 untariffed), VALUE, and the increase over the
last booked value (0 for KIND 2). -/
structure PassRec where
  kind : Nat
  tariff : Nat
  value : Nat
  delta : Nat
deriving DecidableEq, Repr

/-- A frame whose passing records wait for the Ledger Unit and then the Balance Engine (R154, R194); it keeps its staging slot. -/
structure PassFrame where
  mh : Nat
  cal : Nat
  node : Nat
  cls : Nat
  /-- Meter time in s, decision instant in ns. -/
  m : Nat
  decided : Nat
  unsync : Bool
  /-- STATUS of the UP_DATA (Table 2-8), and the kinds (bit KIND) of which the frame carries an untariffed record, passing or not. -/
  status : Nat := 0
  untar : Nat := 0
  recs : List PassRec
  /-- The Ledger Unit has taken it; LASTBOOK before that booking. -/
  booked : Bool := false
  before : Nat := 0
  buffered : Bool := false
deriving DecidableEq, Repr

/-- The Ingest Pipeline and Meter Directory. -/
structure Ing where
  dir : Map DirEntry
  dirPoison : Map Bool
  cmdSlots : Map (List (BitVec 8))
  strangers : List Stranger
  strangerOvf : Bool
  /-- Frames in staging, in decision order. -/
  staging : List Staged
  restore : Bool
  dirload : Bool
  rows : Map PlRow
  /-- Back-off DELAY per source port 0 to 7. -/
  backoff : Map (BitVec 8)
  inserts : List InsertWait
  nextInsert : Nat
  /-- By MH, SFCODE and SOFS as the last SYNC_ACK of a meter carried them, for its repeats (R142, log 101). -/
  syncSf : Map (Nat × Nat)
  /-- Entries whose DIR_REMOVE waits for held frames (R150). -/
  removes : List Nat
  srcSel : BitVec 9
  codeSel : BitVec 6
  plSel : BitVec 6
deriving DecidableEq, Repr

end Sys2Proof.Machine
end

