-- ==== Sys2Proof/Machine/StLedger.lean ====
section
/-! DEFINITION. The state of the Ledger Unit and Mordant (Ledger Unit, Tariffs and the Mordant Seal). -/

namespace Sys2Proof.Machine

/-- A demand entry (Table 6-4). -/
structure DemandE where
  dval : Nat := 0
  dtime : Nat := 0
  dflags : Nat := 0
  dwrap : Nat := 0
deriving DecidableEq, Repr

/-- A ledger record (Table 6-2); CHECK is computed when it is read out. `totals` holds TOTAL[t][k] at index 2t + k. -/
structure LRec where
  cal : Nat := 0
  cls : Nat := 0
  mh : Nat := 0
  period : Nat := 0
  pstart : Nat := 0
  lastbook : Nat := 0
  status : Nat := 0
  wrap : Nat := 0
  totals : List Nat := []
  demand : List DemandE := []
deriving DecidableEq, Repr

/-- The register shadow (Table 6-5); an invalid LASTVAL is `none`. -/
structure RegShadow where
  lastval : List (Option Nat) := []
  dacc : Nat := 0
  dopen : Nat := 0
  sflags : Nat := 0
deriving DecidableEq, Repr

/-- What the Ledger Unit holds for one MH: open record, shadow, closed records (newest first) and CLOSES, and the BSEQ below which boundaries have been applied. -/
structure Meter where
  opn : Option LRec := none
  sh : RegShadow := {}
  closed : List LRec := []
  closes : Nat := 0
  bnext : Nat := 0
  corrupt : Bool := false
  /-- Closed records lost with their chunk: CLOSES as it stood when each was closed (R159, R222). -/
  lost : List Nat := []
deriving DecidableEq, Repr

/-- A force-schedule entry (R170): a tariff window, END 0 until cancelled, or a commanded period close. -/
inductive ForceE where
  | window (start stop tariff : Nat)
  | close (start : Nat)
deriving DecidableEq, Repr

/-- A boundary record (Table 6-7). -/
structure BRec where
  bseq : Nat
  t : Nat
  imask : BitVec 64 := 0
  smask : BitVec 64 := 0
  pmask : BitVec 64 := 0
  newtar : Nat := 0
  flags : Nat := 0
  count : Nat := 0
  tfirst : Nat := 0
deriving DecidableEq, Repr

/-- What a directory record says of an entry, and where the readings log stood when it was written (R155). -/
structure DirRec where
  jseq : Nat
  mh : Nat
  e : DirEntry
  lsn : Nat
  off : Nat
deriving DecidableEq, Repr

/-- The part of the ledger that journal records change, kept once as it stands and once as it is durable (R183). -/
structure LData where
  meters : Map Meter
  /-- Calendars in force, newest first with the instant each took force, and staged with ACT_T; 2,048 bytes each. -/
  calIn : Map (List (Nat × List (BitVec 8)))
  calSt : Map (List (BitVec 8) × Nat)
  period : Map Nat
  /-- Force schedules, key calendar × 16 + entry. -/
  force : Map ForceE
  /-- Boundary records, newest first. -/
  blog : List BRec
  /-- Directory configuration records and handle moves, newest first (Table 6-8 types 4 and 5). -/
  dirLog : List DirRec
  moveLog : List (Nat × Reloc5)
  /-- BAL_SET records: JSEQ, node, bytes 0 to 11 (R192). -/
  nodeLog : List (Nat × Nat × List (BitVec 8))
  /-- Time-source policy as last written: ALLOWED, STEPROLE, MAXHOLD, MAXSTEP. -/
  policy : Option (Nat × Nat × Nat × Nat)
deriving DecidableEq, Repr

/-- What a journal record changes (Table 6-8). -/
inductive JEff where
  | meter (mh : Nat) (m : Meter)                    -- BOOK, CLOSE, REBASE, and an opening
  | final (mh : Nat) (m : Meter) (t : Nat)          -- FINAL with its instant
  | boundary (b : BRec) (acts : List Nat)           -- BOUNDARY, with the calendars it activates
  | move (r : Reloc5) (e : DirEntry) (lsn off : Nat) -- HANDLE_MOVE, with the entry moved and the log position
  | dir (mh : Nat) (e : DirEntry) (lsn off : Nat)   -- DIR, with the log position
  | node (n : Nat) (bytes : List (BitVec 8))        -- DIR-class record of BAL_SET
  | stage (cal : Nat) (bytes : List (BitVec 8)) (actT : Nat)
  | force (key : Nat) (e : Option ForceE)
  | mordant (isSeal : Bool)
  | policy (p : Nat × Nat × Nat × Nat)
deriving DecidableEq, Repr

/-- A journal record (R183). -/
structure JRec where
  jseq : Nat
  typ : Nat
  eff : JEff
  /-- The standby has acknowledged it, or none is in service (R386). -/
  acked : Bool := true
  /-- It is durable in this chip's Lake. -/
  landed : Bool := false
  /-- Where it begins, counted in bytes over the whole journal, and when it was staged, TAI ns (R222, R224). -/
  pos : Nat := 0
  at_ : Nat := 0
deriving DecidableEq, Repr

/-- A rebase (with its 152 bytes) or a final close that waits for readings decided before it, or for Lake to take ledger writes (R174,
R181, R182). -/
structure Maint where
  id : Nat
  mh : Nat
  /-- The instant of the EXEC, TAI ns. -/
  at_ : Nat
  data : Option (List (BitVec 8))
deriving DecidableEq, Repr

/-- The Ledger Unit and Mordant. -/
structure Ldg where
  live : LData
  dur : LData
  /-- Records not yet complete, oldest first. -/
  jq : List JRec
  /-- Records that the journal ring holds, newest first, and the byte position of the next (R183, R222). -/
  jlog : List JRec
  jpos : Nat
  jseq : Nat
  bseq : Nat
  /-- T of boundary instants already evaluated: no instant at or before it fires again. -/
  evalT : Nat
  sweepNext : Nat
  sweeping : Bool
  replay : Bool
  /-- The last 16 outages, ns, newest first (R172). -/
  outages : List (Nat × Nat)
  pfailAt : Option Nat
  nkeep : Nat
  stepFrom : Nat
  stepTo : Nat
  /-- The repeated span [T_TO, T_FROM) in force (R180). -/
  span : Option (Nat × Nat)
  /-- A set-back whose boundary record is written and not yet applied: T_FROM, T_TO. -/
  stepPending : Option (Nat × Nat × Nat)
  maint : List Maint
  nextMaint : Nat
  /-- The eMRAM protection area, oldest first (R182). -/
  protArea : List BRec
  protect : Bool
  sealed : Bool
  unseals : Nat
  pin : Bool
  sealPending : Option (List (BitVec 8))
  /-- An unseal whose MORDANT_UNSEALED waits for the Host Port: its ATBOOT byte (R188). -/
  unsealDue : Option Nat
  cntSel : BitVec 4
deriving DecidableEq, Repr

end Sys2Proof.Machine
end

