-- ==== Sys2Proof/Machine/StRadio.lean ====
section
/-! DEFINITION. The state of the Radio Lane Array (Radio Lane Array, Zaruno Air Protocol). Instants are TAI nanoseconds. -/

namespace Sys2Proof.Machine

/-- A radio port descriptor (Table 3-10). -/
structure RDesc where
  enable : Bool := false
  role : BitVec 128 := 0
  depth : Nat := 1
  duplex : Bool := false
  ntx : Nat := 1
  rxlat : Nat := 0
  txlat : Nat := 0
  win : Nat := 1
  dutyPort : Nat := 10000
  dutyGrp : List Nat := []
  site : BitVec 32 := 0
  sfcode : Nat := 0
  sofs : Nat := 0
  cslots : Nat := 0
  bflags : Nat := 0
  utcofs : BitVec 16 := 0
deriving DecidableEq, Repr

/-- A queued DN_CMD frame (R272 RLA_QUEUE). -/
structure DnFrame where
  ticket : BitVec 32
  mh : Nat := 0
  ma : BitVec 64 := 0
  fcnt : BitVec 32 := 0
  body : List (BitVec 8) := []
  queuedAt : Nat := 0
deriving DecidableEq, Repr

/-- A transmission on the air or reserved: lane, rate, bytes from the first preamble byte on, air interval in ns with its ramps. -/
structure Air where
  lane : Nat
  rate : Nat := 1
  bytes : List (BitVec 8) := []
  start : Nat
  stop : Nat
deriving DecidableEq, Repr

/-- A frame held in a decoding layer (R76). -/
structure Held where
  syncAt : Nat
  rate : Nat
  ma : BitVec 64
  mh : Option Nat
  /-- Key slot chosen at KEPOCH (R141), the failing key outcome of R314 or 0, and the epoch. -/
  slot : Option Nat := none
  kerr : Nat := 0
  kepoch : Nat := 0
  reproc : Bool := false
  /-- Another held frame overlapped it (RESDEC). -/
  overlapped : Bool := false
  /-- Its key was invalidated before its tag verdict (R148). -/
  orphaned : Bool := false
deriving DecidableEq, Repr

/-- A decided ack in a lane's TX schedule (R32, R81). -/
structure Ack where
  /-- Air instant of its first preamble bit. -/
  at_ : Nat
  rate : Nat
  dup : Bool
  frame : List (BitVec 8)
  ma : BitVec 64 := 0
  /-- WAKE of the AFLAGS it carries (R55). -/
  wake : Bool := false
deriving DecidableEq, Repr

/-- A built beacon waiting for its launch (R85). -/
structure Beacon where
  start : Nat
  recovery : Bool
  frame : List (BitVec 8)
deriving DecidableEq, Repr

/-- A radio port. -/
structure RPort where
  desc : RDesc := {}
  next : Option (RDesc × Nat) := none
  rxlink : Bool := false
  /-- The RX link has been up since the port was enabled (R91, log 108). -/
  linked : Bool := false
  /-- I and Q of the last RX word as it entered the channelizer (R71, R72, R84). -/
  chanIn : BitVec 16 × BitVec 16 := (0, 0)
  txlink : Bool := false
  txstop : Bool := false
  txfault : Bool := false
  bloss : Bool := false
  bmiss : Nat := 0
  /-- BMISS counting has begun (Table 3-11). -/
  counting : Bool := false
  enabledAt : Nat := 0
  linkUpAt : Nat := 0
  goodRun : Nat := 0
  missFrm : Nat := 0
  /-- Word numbers of parity failures among the last 1,600 words. -/
  wordNo : Nat := 0
  parityAt : List Nat := []
  txfRun : Nat := 0
  txfClearAt : Option Nat := none
  /-- Stopped under R14; after relock, the superframe start (TAI ns) from which the port transmits again. -/
  stopR14 : Bool := false
  resumeAt : Option Nat := none
  queue : List DnFrame := []
  nextTicket : BitVec 32 := 0
  beacon : Option Beacon := none
  air : List Air := []
  /-- Duty charges by budget 0 to 7 (groups) and 8 (port): bucket number to airtime ns. -/
  duty : Map (Map Nat) := []
  /-- Per budget: the instant of the denial last posted (R89). -/
  denied : Map Nat := []
  /-- End on the air of the last frame of the slot chain under way, per lane (R54). -/
  chainEnd : Map Nat := []
  /-- After a recovery beacon: the next superframe start, air ns, from which slot and campaign frames go out again (R60). -/
  heldTill : Nat := 0
deriving DecidableEq, Repr

/-- The Radio Lane Array. -/
structure Rla where
  ports : Map RPort
  /-- Held frames, key lane × 4 + layer. -/
  layers : Map Held
  /-- TX schedule per lane: acks in order of their instants. -/
  acks : Map (List Ack)
  /-- Spans of uplink presence that BUSY has counted, per lane, air ns, newest first. -/
  busy : Map (List (Nat × Nat))
  /-- MA and air end of the acks sent with WAKE = 1 (R55). -/
  wakes : List (BitVec 64 × Nat)
  laneSel : BitVec 8
  dutySel : BitVec 6
deriving DecidableEq, Repr

end Sys2Proof.Machine
end

