-- ==== Sys2Proof/Machine/StUpd.lean ====
section
/-! DEFINITION. The state of the update engine, the boot slots and the meter firmware campaigns (Chip Images and Meter Firmware Campaigns). -/

namespace Sys2Proof.Machine

/-- A campaign record (Table 16-7) with its pump. -/
structure Camp where
  st : Nat
  ports : BitVec 8
  imglen : Nat
  group : BitVec 64
  volofs : Nat
  imgcrc : Nat
  gfcnt : BitVec 32 := 0
  nextofs : Nat := 0
  start : Nat := 0
  sendend : Nat := 0
  rep : Nat := 0
  pass : Nat := 0
  actT : Nat := 0
  tally : List Nat := [0, 0, 0, 0]
  /-- Ports on which the block at NEXTOFS has gone out in this step. -/
  sentOn : List Nat := []
  /-- Superframes for which CAMP_ABORT is still sent, per port (R438). -/
  abortLeft : Map Nat := []
  /-- Superframe number in which the last CAMP_ACTIVATE or CAMP_ABORT went out, per port. -/
  lastCtl : Map Nat := []
  /-- Instant of the call that gave the pump its present work (R87). -/
  since : Nat := 0
deriving DecidableEq, Repr

/-- The update engine and the BOOT field of the anchor (Table 16-2). Slot 0 is A, 1 is B. -/
structure Upd where
  aFirst : Nat
  bFirst : Nat
  aNblk : Nat
  bNblk : Nat
  active : Nat
  stA : Nat
  stB : Nat
  tries : Nat
  gen : Bool
  lock : Bool
  confirmBy : Nat
  genck : Nat
  imglen : Nat
  /-- Slot content by 4 KiB unit: key slot × 16384 + unit. -/
  units : Map (List (BitVec 8))
  actT : Nat
  window : Nat
  /-- The volume as recorded at activation (R431). -/
  volGen : Option (Map (List (BitVec 8)))
  lastRef : Nat
  recovery : Bool
  rcrc : BitVec 32
  rstat : BitVec 32
  rwin : Map (BitVec 8)
  runits : Map (List (BitVec 8))
  camps : Map Camp
  /-- UPD_ACTIVATED or UPD_FALLBACK is posted once SERVICE, or the Host Port, comes (R427, R430). -/
  activatedDue : Bool
  fallbackDue : Bool
  cntSel : BitVec 4
deriving DecidableEq, Repr

/-- The BOOT field of the anchor (Table 16-2). -/
def Upd.bootField (u : Upd) : List (BitVec 8) :=
  let n := fun (k v : Nat) => (List.range k).map fun i => BitVec.ofNat 8 (v / 256 ^ i)
  n 4 u.aFirst ++ n 4 u.bFirst ++ n 2 u.aNblk ++ n 2 u.bNblk ++ n 1 u.active ++ n 1 (u.stA + 16 * u.stB) ++ n 1 u.tries
    ++ n 1 ((if u.lock then 1 else 0) + (if u.gen then 2 else 0)) ++ n 4 u.confirmBy ++ n 4 u.genck ++ n 4 u.imglen ++ n 4 0

end Sys2Proof.Machine
end

