-- ==== Sys2Proof/Machine/StLake.lean ====
section
/-! DEFINITION. The state of Lake (Lake Reading Store) and of the Balance Engine's node table that Lake keeps a copy of. -/

namespace Sys2Proof.Machine

/-- A balance node (Table 7-1). -/
structure Node where
  parent : Nat := 0
  cfg : Nat := 0
  chkmh : Nat := 0
  alarm : Nat := 0
  chkcov : Bool := false
  lateseen : Bool := false
  moved : Bool := false
  run : Nat := 0
  thr : Nat := 0
  allow : Nat := 0
  nmeter : Nat := 0
  ncov : Nat := 0
  wlen : Nat := 0
  tamp : Nat := 0
  curIn : Int := 0
  curOut : Int := 0
  nxtIn : Int := 0
  nxtOut : Int := 0
  /-- Window start P and cut C, TAI seconds. -/
  p : Nat := 0
  c : Nat := 0
  /-- Verdict code counted by a non-zero RUN in state 0 (R200). -/
  dir : Nat := 0
  /-- The window runs (R202): P and C are set. -/
  started : Bool := false
  /-- The window ends with RESTART (R204). -/
  restart : Bool := false
  /-- Topology as in force at the last close, while a BAL_SET waits for the next (R202): PARENT, CFG, CHKMH. -/
  old : Option (Nat × Nat × Nat) := none
deriving DecidableEq, Repr

/-- A partial or total of a shared node (R205). -/
structure Partial where
  in_ : Int := 0
  out_ : Int := 0
  nmeter : Nat := 0
  ncov : Nat := 0
  chkcov : Bool := false
  lateseen : Bool := false
  moved : Bool := false
  tamp : Nat := 0
deriving DecidableEq, Repr

/-- A verdict of a close that waits for its turn in node order: the node as it stood, the code, DEADLINE, and the sums
(`none`: the total of the stack) (R199). -/
structure Verdict where
  n : Nat
  x : Node
  code : Nat
  deadline : Bool
  sums : Option Partial
deriving DecidableEq, Repr

/-- The Balance Engine. -/
structure Bal where
  nodes : Map Node
  cfg : Option (Nat × Nat × Nat)
  /-- A configuration whose BINT waits for its grid's first close, and that close (R193). -/
  next : Option (Nat × Nat × Nat × Nat)
  lastClose : Nat
  /-- A close whose stack judgement is open: E, and the partials gathered per shared node with the ports already in (R205). -/
  stackE : Option Nat
  partials : Map Partial
  portsIn : List Nat
  missed : Bool
  hold : Bool
  /-- The first configuration since a restore has not met its grid's first close: restored windows go on there (R204). -/
  fresh : Bool
  /-- Children's partials that came before this chip processed the close itself: port, node, share (R205). -/
  early : List (Nat × Nat × Partial)
  /-- A close whose bitmap came before this chip processed the close itself (R206). -/
  bitmapFor : Nat
  /-- The master's verdicts of the close being judged, kept until the totals are in (R199, R206). -/
  judging : Bool
  verdicts : List Verdict
  /-- HOLDOVER and STEP as they stood at the close being judged (Table 7-5). -/
  closeFlags : Nat
  holdMax : BitVec 32
  /-- TAI second of the last entry to SERVICE that restored the table (R204). -/
  serviceAt : Nat
  cntSel : BitVec 4
deriving DecidableEq, Repr

/-- A NAND block (R217). -/
structure Block where
  st : Nat := 1
  pe : Nat := 0
  pslc : Bool := false
  refresh : Bool := false
  /-- Page reads since the last erase (R215). -/
  reads : Nat := 0
  /-- Drawn from the ledger's quota, and so charged to its private pool when retired (R219). -/
  led : Bool := false
deriving DecidableEq, Repr

/-- A programmed chunk: its tag (Table 8-4) and its 4,096 data bytes. -/
structure CTag where
  space : Nat
  tflags : Nat := 0
  aux : Nat := 0
  stripe : Nat := 0
  wseq : Nat := 0
  dseq : Nat := 0
  laddr : Nat := 0
  data : List (BitVec 8) := []
deriving DecidableEq, Repr

/-- An entry of the map journal (Table 8-13). -/
inductive MjEntry where
  | mapSet (space laddr pca : Nat)
  | trim (space laddr count : Nat)
  | block (lun block st pe : Nat)
  | stripeOpen (n stream next : Nat)
  | stripeClose (n row : Nat)
  | verified (n : Nat)
  | heack (lsn : Nat)
  | landmark (wm : Nat) (rows : List (Nat × Nat))
deriving DecidableEq, Repr

/-- A stripe (R216): one block of each usable LUN of a die group. -/
structure Stripe where
  group : Nat
  stream : Nat
  /-- Block keys LUN × 4096 + block by position; `none` for a failed LUN. -/
  blocks : List (Option Nat)
  ppos : Nat
  /-- Pages programmed so far, counted in write order. -/
  wpos : Nat := 0
  /-- 0 open, 1 closed, 2 verified. -/
  st : Nat := 0
  refresh : Bool := false
deriving DecidableEq, Repr

/-- A readings-log record (Table 8-11) at a byte offset of segment LSN. -/
structure LogRec where
  lsn : Nat
  off : Nat
  rtype : Nat
  src : Nat
  mh : Nat
  flags : Nat
  dtime : Nat
  body : List (BitVec 8)
  landed : Bool := false
  /-- When it was appended, TAI ns (R224). -/
  at_ : Nat := 0
deriving DecidableEq, Repr

/-- A volume write not yet durable: identifier, chunks, when it came, TAI ns (R224, R272). -/
structure VolWrite where
  id : Nat
  chunks : List (Nat × List (BitVec 8))
  at_ : Nat
deriving DecidableEq, Repr

/-- The copy of one directory bank in META (R155): its entries, the JSEQ and the log position at its capture. -/
structure BankCopy where
  entries : List (Nat × DirEntry)
  jseq : Nat
  lsn : Nat
  off : Nat
deriving DecidableEq, Repr

/-- The NAND as the profile and the parameter page describe it (R208, R209). -/
structure Geom where
  dg : Nat := 0
  lunch : Nat := 0
  /-- Targets per channel, and spare bytes of a page. -/
  tgts : Nat := 1
  spare : Nat := 0
  planes : Nat := 0
  bpc : Nat := 0
  tmode : Nat := 0
  pages : Nat := 0
  blocksPerLun : Nat := 0
deriving DecidableEq, Repr

/-- Lake. -/
structure Lake where
  ready : Bool
  rebuild : Bool
  /-- NAND initialised (R211), write protection released. -/
  inited : Bool
  wpHigh : Bool
  geom : Geom
  formatted : Bool
  /-- Blocks the makers marked bad, and LUNs of targets that are missing or do not match, as initialisation finds them (R208, R217). -/
  factoryBad : List Nat
  absent : List Nat
  /-- LUNs: failed mark, and TAI ns of their failed operations (R232). -/
  lunFailed : Map Bool
  lunErrs : Map (List Nat)
  blocks : Map Block
  stripes : Map Stripe
  openStripe : Map Nat
  nextStripe : Nat
  wseq : Nat
  /-- Programmed chunks by PCA, and the maps: key space × 2^40 + LADDR. -/
  chunks : Map CTag
  maps : Map Nat
  /-- Chunks no recovery brought back, by the key of `maps` (R214, R223, R232). -/
  bad : Map Bool
  /-- Collected stripes and the collection stripe that must be verified before their blocks go DIRTY (R228). -/
  victims : Map Nat
  ledgerQuota : Nat
  logQuota : Nat
  pool : Nat
  poolTotal : Nat
  volGiB : Nat
  landGiB : Nat
  nkeepMax : Nat
  fmtid : Nat
  aseq : Nat
  /-- The anchor block in use, 0 or 1, and its next page (R220). -/
  anchorBlk : Nat
  anchorPage : Nat
  /-- Map journal: next MJSEQ, entries staged, newest first, chunks programmed since the last flush, streams that have opened a stripe since and
  whether one has opened a second, TAI ns of the last flush and checkpoint, MJSEQ at the last checkpoint (R229). -/
  mjseq : Nat
  mjStaged : List MjEntry
  mjChunks : Nat
  mjOpened : List Nat
  mjDue : Bool
  lastFlush : Nat
  lastCkpt : Nat
  ckptMj : Nat
  /-- What no flush has made durable yet: HEACK as last flushed, and the volume chunks trimmed since, with their PCA and content. -/
  heackDur : Nat
  trimmed : List (Nat × Option Nat × List (BitVec 8))
  /-- TAI second of the last map checkpoint (R343). -/
  ckptTime : Nat
  /-- The readings log, newest record first; next LSN, write position in the open segment, tail and HEACK. -/
  log : List LogRec
  lsnHead : Nat
  logOff : Nat
  lsnTail : Nat
  heack : Nat
  /-- Credits claimed and not yet landed, in 128-byte units (R225). -/
  creditsUsed : Nat
  logFull : Bool
  protect : Bool
  volFull : Bool
  landFull : Bool
  /-- Landing copies whose block is not erased, oldest first (R224). -/
  landing : List CTag
  /-- The byte-wise XOR of the data pages of the row under way, by stream (R216, R221). -/
  parity : Map (List (BitVec 8))
  gcAct : Bool
  vol : Map (List (BitVec 8))
  volPend : List VolWrite
  nextVol : Nat
  /-- Frames of the bring-up buffer whose records have landed (R408). -/
  bring : List Staged
  banks : Map BankCopy
  /-- RP0 descriptor and cascade configuration (ROLE of each port, PAIR flags) carried by the newest bank copy (R407). -/
  rp0 : Option RDesc
  casCfg : Option (List Nat × Nat)
  /-- The partition map and the campaign records it carries (R378, R435). -/
  partMap : Option (List Nat)
  camps : Map Camp
  nodeCopy : Map Node
  nodeJseq : Nat
  /-- JSEQ up to which each ledger group is written back (Table 8-10). -/
  groupJseq : Map Nat
  lifePosted : Nat × Nat
  spareLow : Bool × Bool
  stepReads : Map Nat
  prog24 : List (Nat × Bool)
  rebuildMs : Nat
  lastZq : Nat
  /-- The patrol's cycle: when it began, TAI ns, and the PCA from which it goes on (R215). -/
  patrolAt : Nat
  patrolPos : Nat
  /-- Ledger chunks whose records the standby has been asked for: key of `maps`, MHs still to come (R223 step 4). -/
  fetch : List (Nat × List Nat)
  lunSel : BitVec 8
  cntSel : BitVec 5
deriving DecidableEq, Repr

end Sys2Proof.Machine
end

