-- ==== Sys2Proof/Machine/StTime.lean ====
section
/-! DEFINITION. The state of the Time Unit and its cycle table (Time Unit and Schedules). -/

namespace Sys2Proof.Machine

/-- STATE of Table 12-1. -/
inductive TmuSt where
  | freerun | acquire | locked | holdover
deriving DecidableEq, Repr

/-- The STATE code of Table 12-1. -/
def TmuSt.code : TmuSt → Nat
  | .freerun => 0 | .acquire => 1 | .locked => 2 | .holdover => 3

/-- A cycle-table row (Table 12-6). -/
structure Row where
  tS : Nat := 0
  tNs : Nat := 0
  perS : Nat := 0
  perNs : Nat := 0
  action : Nat := 0
  flags : Nat := 0
  arg : Nat := 0
  /-- T0, TAI ns: the first instant of the series (R345, R347). -/
  t0 : Nat := 0
deriving DecidableEq, Repr

/-- The time-source policy, ledger object 0x7 (R335). -/
structure Policy where
  allowed : Nat := 0x0F
  stepRole : Nat := 0
  maxHold : Nat := 3600
  maxStep : Nat := 3600
deriving DecidableEq, Repr

/-- The selected source (R349 WR OP 1). -/
structure Source where
  kind : Nat := 0
  domain : Nat := 0
  transport : Nat := 0
  mech : Nat := 0
  clockId : Nat := 0
  port : Nat := 0
deriving DecidableEq, Repr

/-- Stamp latencies of one MAC (R339, R349 WR OP 2). -/
structure MacLat where
  tx : Nat := 0
  rx : Nat := 0
  asym : Int := 0
deriving DecidableEq, Repr

/-- A Sync of the selected parent: sequenceId, its receive stamp, its origin time once known, and its corrections; stamps and times in
units of 2^-16 ns (R336, R337). -/
structure PtpSync where
  seq : Nat
  rx : Int
  origin : Option Int
  corr : Int
  /-- A sample was formed from it. -/
  used : Bool := false
deriving DecidableEq, Repr

/-- What the hardware holds of the PTP messages of the selected parent (R336, R337). -/
structure Ptp where
  /-- Its last Announce carried PTP timescale = 1. -/
  announced : Bool := false
  /-- logMessageInterval of its Sync messages. -/
  every : Int := 0
  sync : Option PtpSync := none
  /-- The last Delay_Req or Pdelay_Req sent: sequenceId, sourcePortIdentity, transmit stamp. -/
  req : Option (Nat × Nat × Int) := none
  /-- A two-step Pdelay_Resp that waits for its follow-up: sequenceId, request receipt time, receive stamp, correction. -/
  resp : Option (Nat × Int × Int × Int) := none
  /-- The last measured path delay. -/
  delay : Option Int := none
deriving DecidableEq, Repr

/-- The Time Unit. -/
structure Tmu where
  /-- TAI seconds, nanoseconds, and the fraction of a nanosecond in units of 2^-48 (R332). -/
  sec : BitVec 64
  ns : Nat
  frac : Nat
  /-- INC less its nominal value, in units of 2^-48 ns, and the mean that HOLDOVER keeps. -/
  adj : Int
  heldAdj : Int
  /-- The adjustments in force and the TAI ns each took effect, newest first, for the 64 s mean (Table 12-1). -/
  hist : List (Nat × Int)
  st : TmuSt
  valid : Bool
  invCause : Nat
  /-- SOURCE field of TMU_STAT: 0 none, 1 MAC0, 2 MAC1, 3 cascade, 4 host set. -/
  source : Nat
  stepReq : Option Int
  clkFault : Bool
  sel : Source
  ptp : Ptp
  offset : Int
  filtered : Int
  rejects : Nat
  good : Nat
  /-- The next sample is taken as measured (Table 12-5). -/
  asMeasured : Bool
  /-- The correction rate that a slew adds to INC, and the correction still to make, in units of 2^-48 ns (R341). -/
  corr : Int
  left : Int
  /-- TAI ns of the last accepted sample, or of TIME_SET, from which MAXHOLD runs (R342, R344). -/
  lastSample : Option Nat
  policy : Policy
  latS : BitVec 32
  latNs : BitVec 32
  rows : Map Row
  /-- Shared row writes awaiting confirmation: index, chips still to confirm, and the instant of the write (R350). -/
  awaiting : List (Nat × List Nat × Nat)
  /-- PULSE_OUT[3:0] levels, and the end of a pulse under way with its idle level. -/
  pulse : BitVec 4
  pulseEnd : Map (Nat × Bool)
  macLat : Map MacLat
  cntSel : BitVec 4
deriving DecidableEq, Repr

end Sys2Proof.Machine
end

