-- ==== Sys2Proof/Machine/StWoad.lean ====
section
/-! DEFINITION. The state of Woad: OTP, lifecycle, keyslots, broadcast state, sealed batches (Woad Key Vault and Trust). -/

namespace Sys2Proof.Machine

/-- STATE of a keyslot (Table 11-5). -/
inductive KeySt where
  | empty | active | orphaned
deriving DecidableEq, Repr

/-- A keyslot record (Table 11-5). TYPE: 0 for an empty slot, 1 DISTRICT, 2 BROADCAST, 3 SEAL, 4 REGION. -/
structure KeySlot where
  st : KeySt := .empty
  typ : Nat := 0
  keyid : BitVec 32 := 0
  parent : Option Nat := none
  depth : Nat := 0
  amask : BitVec 64 := 0
  epmin : Nat := 0
  epmax : Nat := 0
  key : List (BitVec 8) := []
  /-- A tombstone is written and not yet durable (R317). -/
  tomb : Bool := false
  /-- An EPMIN raise that takes effect when durable (R314). -/
  epminNext : Option Nat := none
deriving DecidableEq, Repr

/-- An announced broadcast epoch change (R315). -/
structure BcNext where
  e : Nat
  slot : Nat
  actT : Nat
deriving DecidableEq, Repr

/-- Broadcast state (R315): current epoch and slot, the announced change, the epoch before and until when it is served. -/
structure Bcast where
  valid : Bool := false
  cur : Nat := 0
  slot : Nat := 0
  next : Option BcNext := none
  prev : Option (Nat × Nat × Nat) := none
  /-- Current epochs of the past with the TAI second each became current, newest first (R142). -/
  since : List (Nat × Nat) := []
deriving DecidableEq, Repr

/-- Lifecycle states (R307); `unfixed` until the boot fixes one. -/
inductive Life where
  | unfixed | provisioned | owned | decommissioned
deriving DecidableEq, Repr

/-- LIFE code of WKV_STAT. -/
def Life.code : Life → Nat
  | .unfixed => 0 | .provisioned => 1 | .owned => 2 | .decommissioned => 3

/-- A key-table change that is not yet durable, with the thread and slot of the waiting call (R320). -/
structure KtChange where
  kind : Nat
  slot : Nat
  thread : Option (Nat × Nat)
deriving DecidableEq, Repr

/-- A crypto operation queued under a slot key (R318): the slot, the frame epoch where there is one, and the output it still holds back. -/
structure KeyOp where
  slot : Nat
  epoch : Option Nat
  dst : Nat
  bytes : List (BitVec 8)
deriving DecidableEq, Repr

/-- Woad. The OTP array stands apart, in the state's `otp` field. -/
structure Woad where
  life : Life
  owner : Nat
  debugSub : Bool
  slots : Map KeySlot
  bcast : Bcast
  cfloor : Map (BitVec 32)
  /-- The key table as last made durable: slots, broadcast state, floors, HW. -/
  durSlots : Map KeySlot
  durBcast : Bcast
  durCfloor : Map (BitVec 32)
  durHw : BitVec 64
  bseq : BitVec 64
  hw : BitVec 64
  pending : List KtChange
  /-- Queued operations by thread × 16 + slot of the call. -/
  queued : Map KeyOp
  otpFail : Bool
  otpBusy : Bool
  scrubMax : BitVec 32
  /-- The attestation statement of this power cycle, once built. -/
  statement : Option (List (BitVec 8))
  slotSel : BitVec 6
  cntSel : BitVec 5
deriving DecidableEq, Repr

end Sys2Proof.Machine
end

