-- ==== Sys2Proof/Payload.lean ====
section
/-! DEFINITION. What cascade messages carry (Table 14-2). The spec prints no payload layout, so a message is its content (log 44). -/

namespace Sys2Proof

open Sys2Proof.Machine

/-- What the line receiver measures of one data symbol: a soft value for each bit it carries, in stream order, as a signed byte, positive for
bit 0; the energy of its 64-sample windows (R112); its mean error power over the active carriers (R113). -/
structure LineSym where
  llr : List Byte
  win : List Nat := []
  err : Nat := 0
deriving DecidableEq, Repr

/-- A mirrored state record (Table 14-8). -/
inductive MirRec where
  | dir (mh : Nat) (e : DirEntry)
  | slot (i : Nat) (cmd : Option (List Byte))
  | journal (r : JRec)
  /-- A cycle-table row; with row 9 the confirmation window (R426). -/
  | row (i : Nat) (r : Row) (window : Nat)
  | key (i : Nat) (k : KeySlot)
  | tomb (i : Nat)
  | bcast (b : Bcast)
  | cfloor (role : Nat) (v : BitVec 32)
  | partMap (m : List Nat)
  | camp (i : Nat) (c : Option Camp)
  /-- CONFIRM_BY (R434). -/
  | confirm (by_ : Nat)
  /-- Ledger data with the next JSEQ, BSEQ and last instant evaluated, and an MH's closed records (Table 14-12 phases 2 and 5). -/
  | ledger (d : LData) (jseq bseq evalT : Nat)
  | closed (mh : Nat) (l : List LRec)
  /-- Slot states and the BUILD of each slot, which the units of a pair exchange (R428). -/
  | slots (a b : Nat) (buildA buildB : List Byte)
  /-- CONFIRM or REJECT on the active unit (R429): whether it rejects, and RAISE. -/
  | trialEnd (reject raise : Bool)
deriving DecidableEq, Repr

/-- A cascade message (Table 14-2). -/
inductive Flit where
  /-- SERIAL, OWNER_ID, the sender's port role, PAIR flags [1] PRIMARY [0] PAIRED, its unit state (Table 14-9), its chip ID, BUILD. -/
  | hello (serial owner role pair state id : Nat) (build : List Byte)
  /-- Positions in the sender's subtree and the levels below it. -/
  | topo (size depth : Nat)
  /-- The receiver's chip ID and depth, CHIPS and SDEPTH. -/
  | assign (id depth chips sdepth : Nat)
  | msg (data : List Byte)
  /-- KIND 0 message, 1 stack reset. -/
  | bcast (kind : Nat) (data : List Byte)
  | barrierArrive (bid first tmo : Nat)
  | barrierRelease (bid : Nat) (ok : Bool)
  | snap (no : Nat)
  | part (node : Nat) (p : Partial)
  | bitmap (bits : List Byte)
  /-- The master's Balance Engine configuration in force and waiting, with CUT, as a TAI second, and WLEN of its shared nodes
  for a chip that joins (R193, R206; DESIGN CHOICE, log 124). -/
  | balance (cfg : Option (Nat × Nat × Nat)) (next : Option (Nat × Nat × Nat × Nat)) (cuts : List (Nat × Nat × Nat))
  /-- Row content with its index, and with row 9 the confirmation window; a confirmation of the row from a chip. -/
  | row (i : Nat) (r : Row) (window : Nat)
  | rowOk (i chip : Nat)
  /-- Source as ING_SRC_SEL, frame-end stamp, FCTL to tag; for a line frame DIRECT and the last repeater. -/
  | rframe (src fe : Nat) (direct : Bool) (lsa : Nat) (frame : List Byte)
  /-- MID of the RFRAME, the outcome code, and the ack: rate, DUP, frame. -/
  | rdecide (mid code : Nat) (ack : Option (Nat × Bool × List Byte))
  | mirror (n : Nat) (r : MirRec)
  | mack (n : Nat)
  /-- Phase of Table 14-12, percent done, records carried. -/
  | resync (phase pct : Nat) (recs : List MirRec)
  /-- Step 1 carries t1, step 2 the reply with t2 and t3; TAI ns. -/
  | tsync (step t2 t3 : Nat)
  | partmap (m : List Nat)
  /-- A request for the ledger data of an MH, and its answer. -/
  | lfetch (mh : Nat)
  | lfetched (mh : Nat) (m : Option Meter)
  /-- A reserved TYPE. -/
  | reserved (typ : Nat)
deriving DecidableEq, Repr

/-- The payload bytes of a message: the spec prints no layout, so they are a free value (log 44). -/
opaque Config.flitPayload : Flit → List Byte

/-- How a message reached a port: the port, SRC, DST and MID of its head flit, the LSEQ that its sender's CRC-32C of the head flit covers, and
whether the flits came undamaged and complete (R368). -/
structure CHead where
  port : Fin 4
  src : Nat
  dst : Nat
  mid : Nat
  lseq : BitVec 16
  intact : Bool
deriving DecidableEq, Repr

/-- A copy of a target's ONFI parameter page: whether its CRC is good, manufacturer and model, LUNs, planes, pages per block, blocks per LUN,
data and spare bytes of a page, partial programs a page allows, and a bit per NV-DDR3 timing mode at VCCQ 1.2 V (R208, Table 8-1). -/
structure ParamPage where
  crcOk : Bool
  maker : List Byte
  model : List Byte
  luns : Nat
  planes : Nat
  pages : Nat
  blocks : Nat
  data : Nat
  spare : Nat
  partials : Nat
  modes : Nat
deriving DecidableEq, Repr

/-- A NAND target that answers: its channel and number, the copies of its parameter page, and the blocks its maker marked bad, as LUN of the
target and block (R211, R217). -/
structure NandTarget where
  ch : Fin 8
  tgt : Fin 8
  pages : List ParamPage
  bad : List (Nat × Nat)
deriving DecidableEq, Repr

/-- One try of the read ladder as the NAND and the LDPC decoder leave it: the ones among the 36,096 raw bits of the chunk, the bits corrected
where the decoder converges, and the 4,132 decoded bytes of data, tag and check (R212, R214). -/
structure NandTry where
  ones : Nat
  corrected : Option Nat
  word : List Byte
deriving DecidableEq, Repr

/-- A chunk read: the tries of its ladder, and those of what follows a failed ladder: copy B of a ledger chunk, the page rebuilt from the
stripe's parity, the same for copy B (R214, R216, R223). -/
structure ReadIn where
  tries : List NandTry
  copyB : List NandTry := []
  parA : List NandTry := []
  parB : List NandTry := []
deriving DecidableEq, Repr

/-- A chunk's read at the read-back of a finished stripe, or at the move of a failed block's pages (R218, R231). -/
structure Readback where
  pca : Nat
  r : ReadIn
deriving DecidableEq, Repr

/-- What the boot ROM finds (Table 15-6, Table 17-6): failed self-test items, failed fabric links, shared-SRAM banks that fail a full
test, the NAND targets that answer, and whether MORDANT_SEAL_N is high. -/
structure BootIn where
  fails : BitVec 12
  links : List (Fin 76)
  banks : List (Fin 96)
  nand : List NandTarget
  sealHigh : Bool
deriving DecidableEq, Repr

/-- What meets Ochre's wake latch during the commit into VIGIL (R416): VIGIL_REQ_N rising, a link change or a frame at an armed MAC. -/
inductive CommitEv where
  | rise
  | linkUp (m : Fin 2) (rate : Fin 3)
  | linkDown (m : Fin 2)
  | frame (m : Fin 2) (bytes : List Byte) (fcsOk : Bool)
deriving DecidableEq, Repr

end Sys2Proof
end

