-- ==== Sys2Proof/Syntax.lean ====
section
/-! DEFINITION. The commands of the ZN8100: one constructor per row of spec/opcode_table.json, with what the outside world (or a thread) supplies. -/

namespace Sys2Proof

/-- A command of the block: an event, a register write, an Akzil instruction, an engine call, a host command or a link word. -/
inductive Instr where
  /-- REFCLK_LOSS (R14). -/
  | refclkLoss (unlock : Bool)
  /-- REFCLK_STABLE (R14). -/
  | refclkStable
  /-- PLL_RELOCK (R14). -/
  | pllRelock
  /-- FLIT_RECEIVE (R15). -/
  | flitReceive (link : Fin 76) (body : BitVec 282) (err : BitVec 320) (late : Bool)
  /-- REGISTER_WRITE (R8). -/
  | registerWrite (addr : BitVec 20) (value : BitVec 32)
  /-- GLB_SNAP (R22). -/
  | glbSnap
  /-- SNAP_CAPTURE (R22). -/
  | snapCapture
  /-- NQ_OVF_CLEAR (R8). -/
  | nqOvfClear (bit : Bool) (hwSet : Bool)
  /-- RX_SAMPLE_WORD (R72). -/
  | rxSampleWord (port : Fin 4) (word : BitVec 50) (frm : Bool)
  /-- SYNC_DETECT (R76). -/
  | syncDetect (lane : Fin 256) (rate : Fin 3) (ma : BitVec 64) (kepoch : Nat)
  /-- LAYER_REPROCESS (R76). -/
  | layerReprocess (lane : Fin 256) (layer : Fin 4)
  /-- RADIO_FRAME_RECEIVE (R23). -/
  | radioFrameReceive (lane : Fin 256) (layer : Fin 4) (bytes : List Byte) (est : Nat)
  /-- ACK_LAUNCH (R32). -/
  | ackLaunch (lane : Fin 256)
  /-- BEACON_BUILD (R85). -/
  | beaconBuild (port : Fin 4)
  /-- BEACON_LAUNCH (R85). -/
  | beaconLaunch (port : Fin 4)
  /-- DOWNLINK_LAUNCH (R54). -/
  | downlinkLaunch (port : Fin 4) (lane : Fin 4) (at_ : Nat) (ticket : Option (BitVec 32))
  /-- RX_LINK_UP (R91). -/
  | rxLinkUp (port : Fin 4)
  /-- RADIO_LINK_LOSS (R91). -/
  | radioLinkLoss (port : Fin 4)
  /-- RADIO_LINK_TIMEOUT (R91). -/
  | radioLinkTimeout (port : Fin 4)
  /-- RADIO_LINK_REALIGN (R91). -/
  | radioLinkRealign (port : Fin 4)
  /-- RADIO_TX_STOP (R92). -/
  | radioTxStop (port : Fin 4)
  /-- RADIO_TX_RESUME (R92). -/
  | radioTxResume (port : Fin 4)
  /-- RLA_PORT_CFG (R90). -/
  | rlaPortCfg (t : Fin 256) (pi : Fin 8) (rt : Fin 32) (ra : Fin 32)
  /-- PORT_DESCRIPTOR_APPLY (R90). -/
  | portDescriptorApply (port : Fin 4)
  /-- RLA_QUEUE (R272). -/
  | rlaQueue (t : Fin 256) (pi : Fin 8) (rt : Fin 32) (ra : Fin 32)
  /-- RLA_WITHDRAW (R272). -/
  | rlaWithdraw (t : Fin 256) (pi : Fin 8) (rt : Fin 32) (ra : Fin 32)
  /-- LINE_SAMPLE_WORD (R98). -/
  | lineSampleWord (port : Fin 4) (word : BitVec 16) (frm : Bool)
  /-- LINE_LINK_UP (R98). -/
  | lineLinkUp (port : Fin 4)
  /-- LINE_LINK_LOSS (R98). -/
  | lineLinkLoss (port : Fin 4)
  /-- LINE_LINK_REALIGN (R98). -/
  | lineLinkRealign (port : Fin 4)
  /-- LINE_TX_STOP (R98). -/
  | lineTxStop (port : Fin 4)
  /-- LINE_TX_RESUME (R98). -/
  | lineTxResume (port : Fin 4)
  /-- LINE_PREAMBLE_DETECT (R116). -/
  | linePreambleDetect (port : Fin 4) (pre : Nat)
  /-- LINE_FC_RECEIVE (R101). -/
  | lineFcReceive (port : Fin 4) (soft : List Byte)
  /-- LINE_FRAME_RECEIVE (R27). -/
  | lineFrameReceive (port : Fin 4) (syms : List LineSym) (snr : List Int)
  /-- LINE_NBR_REPORT_RECEIVE (R125). -/
  | lineNbrReportReceive (port : Fin 4) (syms : List LineSym) (snr : List Int)
  /-- LINE_TMAP_RECEIVE (R110). -/
  | lineTmapReceive (port : Fin 4) (syms : List LineSym) (snr : List Int)
  /-- LINE_RESPONSE_LAUNCH (R118). -/
  | lineResponseLaunch (port : Fin 4) (ready : Bool) (sugg : Fin 32)
  /-- LINE_ACK_FRAME_LAUNCH (R118). -/
  | lineAckFrameLaunch (port : Fin 4)
  /-- LINE_BACKOFF_EXPIRE (R116). -/
  | lineBackoffExpire (port : Fin 4)
  /-- LINE_RESPONSE_RECEIVE (R117). -/
  | lineResponseReceive (port : Fin 4)
  /-- LINE_RESPONSE_WINDOW_EXPIRE (R117). -/
  | lineResponseWindowExpire (port : Fin 4)
  /-- LBEACON_SEND (R121). -/
  | lbeaconSend (port : Fin 4)
  /-- TMAP_ISSUE (R110). -/
  | tmapIssue (port : Fin 4) (lsa : Fin 16384) (rate : Bool)
  /-- TMAP_FREE (R110). -/
  | tmapFree (port : Fin 4) (tmi : Fin 32)
  /-- LM_PORT_CFG (R127). -/
  | lmPortCfg (t : Fin 256) (pi : Fin 8) (rt : Fin 32) (ra : Fin 32) (site : BitVec 32) (sfcode : Fin 256) (sofs : Fin 256)
  /-- LINE_DESCRIPTOR_APPLY (R127). -/
  | lineDescriptorApply (port : Fin 4)
  /-- LM_QUEUE (R272). -/
  | lmQueue (t : Fin 256) (pi : Fin 8) (rt : Fin 32) (ra : Fin 32)
  /-- LM_CAL (R272). -/
  | lmCal (t : Fin 256) (pi : Fin 8) (rt : Fin 32) (ra : Fin 32)
  /-- LM_ROUTE_READ (R272). -/
  | lmRouteRead (t : Fin 256) (pi : Fin 8) (rt : Fin 32) (ra : Fin 32)
  /-- LM_ROUTE_SET (R272). -/
  | lmRouteSet (t : Fin 256) (pi : Fin 8) (rt : Fin 32) (ra : Fin 32)
  /-- LM_ROUTE_FREE (R272). -/
  | lmRouteFree (t : Fin 256) (pi : Fin 8) (rt : Fin 32) (ra : Fin 32)
  /-- CALPERIOD_EXPIRE (R128). -/
  | calperiodExpire (port : Fin 4)
  /-- CAL_START (R128). -/
  | calStart (port : Fin 4)
  /-- CAL_END (R128). -/
  | calEnd (port : Fin 4)
  /-- CAL_TIMEOUT (R128). -/
  | calTimeout (port : Fin 4)
  /-- CAMPAIGN_LINE_PUMP (R437). -/
  | campaignLinePump (port : Fin 4)
  /-- DIR_LOOKUP (R136). -/
  | dirLookup (t : Fin 256) (pi : Fin 8) (rt : Fin 32) (ra : Fin 32)
  /-- DIR_READ (R136). -/
  | dirRead (t : Fin 256) (pi : Fin 8) (rt : Fin 32) (ra : Fin 32)
  /-- DIR_INSERT (R137). -/
  | dirInsert (t : Fin 256) (pi : Fin 8) (rt : Fin 32) (ra : Fin 32)
  /-- DIR_SET (R136). -/
  | dirSet (t : Fin 256) (pi : Fin 8) (rt : Fin 32) (ra : Fin 32)
  /-- DIR_EPOCH (R136). -/
  | dirEpoch (t : Fin 256) (pi : Fin 8) (rt : Fin 32) (ra : Fin 32)
  /-- DIR_CMD (R136). -/
  | dirCmd (t : Fin 256) (pi : Fin 8) (rt : Fin 32) (ra : Fin 32)
  /-- DIR_REMOVE (R136). -/
  | dirRemove (t : Fin 256) (pi : Fin 8) (rt : Fin 32) (ra : Fin 32)
  /-- DIR_RELOCATION (R138). -/
  | dirRelocation
  /-- DIR_CHECKPOINT (R155). -/
  | dirCheckpoint (bank : Fin 64)
  /-- RESTORE_REPLAY_DONE (R156). -/
  | restoreReplayDone
  /-- PLAUSIBILITY_CHECK (R152). -/
  | plausibilityCheck (mh : Nat)
  /-- ING_RULES (R151). -/
  | ingRules (t : Fin 256) (pi : Fin 8) (rt : Fin 32) (ra : Fin 32)
  /-- ING_SLOT_FILL (R145). -/
  | ingSlotFill (t : Fin 256) (pi : Fin 8) (rt : Fin 32) (ra : Fin 32)
  /-- ING_SLOT_FREE (R145). -/
  | ingSlotFree (t : Fin 256) (pi : Fin 8) (rt : Fin 32) (ra : Fin 32)
  /-- ING_STRANGER (R272). -/
  | ingStranger (t : Fin 256) (pi : Fin 8) (rt : Fin 32) (ra : Fin 32)
  /-- ING_BACKOFF (R144). -/
  | ingBackoff (t : Fin 256) (pi : Fin 8) (rt : Fin 32) (ra : Fin 32)
  /-- STRANGER_OVF_CLEAR (R157). -/
  | strangerOvfClear (w : BitVec 32)
  /-- LEDGER_BOOKING (R163). -/
  | ledgerBooking (mh : Nat)
  /-- LEDGER_BOUNDARY (R173). -/
  | ledgerBoundary
  /-- LEDGER_CLOSE_SWEEP (R176). -/
  | ledgerCloseSweep
  /-- JOURNAL_DURABLE (R183). -/
  | journalDurable
  /-- LDG_READ (R184). -/
  | ldgRead (t : Fin 256) (pi : Fin 8) (rt : Fin 32) (ra : Fin 32)
  /-- CALENDAR_STAGE (R171). -/
  | calendarStage (t : Fin 256) (pi : Fin 8) (rt : Fin 32) (ra : Fin 32)
  /-- FORCE_SCHEDULE_WRITE (R170). -/
  | forceScheduleWrite (t : Fin 256) (pi : Fin 8) (rt : Fin 32) (ra : Fin 32)
  /-- TIME_POLICY_WRITE (R335). -/
  | timePolicyWrite (t : Fin 256) (pi : Fin 8) (rt : Fin 32) (ra : Fin 32)
  /-- MORDANT_SEAL (R187). -/
  | mordantSeal (t : Fin 256) (pi : Fin 8) (rt : Fin 32) (ra : Fin 32)
  /-- MORDANT_SEAL_EFFECT (R187). -/
  | mordantSealEffect
  /-- MORDANT_UNSEAL (R188). -/
  | mordantUnseal (high : Bool)
  /-- CLOCK_SET_BACK (R179). -/
  | clockSetBack (t : Fin 256) (pi : Fin 8) (rt : Fin 32) (ra : Fin 32)
  /-- CLOCK_STEP_APPLY (R179). -/
  | clockStepApply
  /-- REBASE (R181). -/
  | rebase (t : Fin 256) (pi : Fin 8) (rt : Fin 32) (ra : Fin 32)
  /-- FINAL_CLOSE (R181). -/
  | finalClose (t : Fin 256) (pi : Fin 8) (rt : Fin 32) (ra : Fin 32)
  /-- BAL_SET (R192). -/
  | balSet (t : Fin 256) (pi : Fin 8) (rt : Fin 32) (ra : Fin 32)
  /-- BAL_READ (R192). -/
  | balRead (t : Fin 256) (pi : Fin 8) (rt : Fin 32) (ra : Fin 32)
  /-- BAL_CONFIG (R193). -/
  | balConfig (t : Fin 256) (pi : Fin 8) (rt : Fin 32) (ra : Fin 32)
  /-- BALANCE_BOOKING (R195). -/
  | balanceBooking (mh : Nat)
  /-- BALANCE_CLOSE (R196). -/
  | balanceClose
  /-- BALANCE_NODE_SAVE (R204). -/
  | balanceNodeSave
  /-- BALANCE_PARTIAL_RECEIVE (R205). -/
  | balancePartialReceive (port : Nat) (node : Nat) (in_ : Int) (out_ : Int) (nmeter : Nat) (ncov : Nat) (flags : Nat) (tamp : Nat)
  /-- BALANCE_STACK_JUDGE (R205). -/
  | balanceStackJudge
  /-- BALANCE_PARTIAL_TIMEOUT (R206). -/
  | balancePartialTimeout
  /-- BALANCE_BITMAP_APPLY (R205). -/
  | balanceBitmapApply (bitmap : List Byte)
  /-- DETACHED_BOOKING_RELEASE (R377). -/
  | detachedBookingRelease
  /-- NAND_OP_TIMEOUT (R211). -/
  | nandOpTimeout (lun : Nat) (block : Nat) (kind : Nat) (at_ : Nat) (answers : Bool)
  /-- NAND_READ_COMPLETE (R214). -/
  | nandReadComplete (pca : Nat) (r : ReadIn)
  /-- NAND_PROGRAM_COMPLETE (R216). -/
  | nandProgramComplete (stream : Nat) (keys : List Nat) (pass : Bool) (back : List Readback)
  /-- NAND_ERASE_COMPLETE (R217). -/
  | nandEraseComplete (lun : Nat) (block : Nat) (pass : Bool)
  /-- ZQ_SHORT_CAL (R210). -/
  | zqShortCal
  /-- LAKE_PATROL (R215). -/
  | lakePatrol (r : ReadIn)
  /-- LANDING_DEADLINE (R224). -/
  | landingDeadline (space : Nat)
  /-- LOG_RECLAIM (R227). -/
  | logReclaim
  /-- LAKE_COLLECTION (R228). -/
  | lakeCollection (space : Nat)
  /-- LEDGER_GROUP_WRITEBACK (R222). -/
  | ledgerGroupWriteback
  /-- MAP_JOURNAL_FLUSH (R229). -/
  | mapJournalFlush
  /-- MAP_CHECKPOINT (R229). -/
  | mapCheckpoint
  /-- LAKE_REBUILD (R230). -/
  | lakeRebuild (ms : BitVec 32)
  /-- LAKE_HEACK (R227). -/
  | lakeHeack (t : Fin 256) (pi : Fin 8) (rt : Fin 32) (ra : Fin 32)
  /-- LAKE_HEALTH (R237). -/
  | lakeHealth (t : Fin 256) (pi : Fin 8) (rt : Fin 32) (ra : Fin 32)
  /-- LAKE_MARK (R272). -/
  | lakeMark (t : Fin 256) (pi : Fin 8) (rt : Fin 32) (ra : Fin 32)
  /-- LAKE_LOG_READ (R272). -/
  | lakeLogRead (t : Fin 256) (pi : Fin 8) (rt : Fin 32) (ra : Fin 32)
  /-- LAKE_VOL_READ (R272). -/
  | lakeVolRead (t : Fin 256) (pi : Fin 8) (rt : Fin 32) (ra : Fin 32)
  /-- LAKE_VOL_WRITE (R272). -/
  | lakeVolWrite (t : Fin 256) (pi : Fin 8) (rt : Fin 32) (ra : Fin 32)
  /-- LAKE_VOL_TRIM (R272). -/
  | lakeVolTrim (t : Fin 256) (pi : Fin 8) (rt : Fin 32) (ra : Fin 32)
  /-- LAKE_GRANT (R234). -/
  | lakeGrant (t : Fin 256) (pi : Fin 8) (rt : Fin 32) (ra : Fin 32)
  /-- LAKE_FORMAT (R219). -/
  | lakeFormat (t : Fin 256) (pi : Fin 8) (rt : Fin 32) (ra : Fin 32)
  /-- ADD (R257). -/
  | add (t : Fin 256) (pi : Fin 8) (rd : Fin 32) (ra : Fin 32) (rb : Fin 32)
  /-- SUB (R257). -/
  | sub (t : Fin 256) (pi : Fin 8) (rd : Fin 32) (ra : Fin 32) (rb : Fin 32)
  /-- AND (R257). -/
  | and_ (t : Fin 256) (pi : Fin 8) (rd : Fin 32) (ra : Fin 32) (rb : Fin 32)
  /-- OR (R257). -/
  | or_ (t : Fin 256) (pi : Fin 8) (rd : Fin 32) (ra : Fin 32) (rb : Fin 32)
  /-- XOR (R257). -/
  | xor (t : Fin 256) (pi : Fin 8) (rd : Fin 32) (ra : Fin 32) (rb : Fin 32)
  /-- ANDN (R257). -/
  | andn (t : Fin 256) (pi : Fin 8) (rd : Fin 32) (ra : Fin 32) (rb : Fin 32)
  /-- SHL (R257). -/
  | shl (t : Fin 256) (pi : Fin 8) (rd : Fin 32) (ra : Fin 32) (rb : Fin 32)
  /-- SHR (R257). -/
  | shr (t : Fin 256) (pi : Fin 8) (rd : Fin 32) (ra : Fin 32) (rb : Fin 32)
  /-- SAR (R257). -/
  | sar (t : Fin 256) (pi : Fin 8) (rd : Fin 32) (ra : Fin 32) (rb : Fin 32)
  /-- MUL (R257). -/
  | mul (t : Fin 256) (pi : Fin 8) (rd : Fin 32) (ra : Fin 32) (rb : Fin 32)
  /-- MULH (R257). -/
  | mulh (t : Fin 256) (pi : Fin 8) (rd : Fin 32) (ra : Fin 32) (rb : Fin 32)
  /-- MULHU (R257). -/
  | mulhu (t : Fin 256) (pi : Fin 8) (rd : Fin 32) (ra : Fin 32) (rb : Fin 32)
  /-- DIV (R257). -/
  | div (t : Fin 256) (pi : Fin 8) (rd : Fin 32) (ra : Fin 32) (rb : Fin 32)
  /-- DIVU (R257). -/
  | divu (t : Fin 256) (pi : Fin 8) (rd : Fin 32) (ra : Fin 32) (rb : Fin 32)
  /-- REM (R257). -/
  | rem (t : Fin 256) (pi : Fin 8) (rd : Fin 32) (ra : Fin 32) (rb : Fin 32)
  /-- REMU (R257). -/
  | remu (t : Fin 256) (pi : Fin 8) (rd : Fin 32) (ra : Fin 32) (rb : Fin 32)
  /-- MIN (R257). -/
  | min (t : Fin 256) (pi : Fin 8) (rd : Fin 32) (ra : Fin 32) (rb : Fin 32)
  /-- MAX (R257). -/
  | max (t : Fin 256) (pi : Fin 8) (rd : Fin 32) (ra : Fin 32) (rb : Fin 32)
  /-- MINU (R257). -/
  | minu (t : Fin 256) (pi : Fin 8) (rd : Fin 32) (ra : Fin 32) (rb : Fin 32)
  /-- MAXU (R257). -/
  | maxu (t : Fin 256) (pi : Fin 8) (rd : Fin 32) (ra : Fin 32) (rb : Fin 32)
  /-- CLZ (R257). -/
  | clz (t : Fin 256) (pi : Fin 8) (rd : Fin 32) (ra : Fin 32)
  /-- CTZ (R257). -/
  | ctz (t : Fin 256) (pi : Fin 8) (rd : Fin 32) (ra : Fin 32)
  /-- POPC (R257). -/
  | popc (t : Fin 256) (pi : Fin 8) (rd : Fin 32) (ra : Fin 32)
  /-- BSWAP (R257). -/
  | bswap (t : Fin 256) (pi : Fin 8) (rd : Fin 32) (ra : Fin 32)
  /-- CRCB (R257). -/
  | crcb (t : Fin 256) (pi : Fin 8) (rd : Fin 32) (ra : Fin 32) (rb : Fin 32)
  /-- CRCD (R257). -/
  | crcd (t : Fin 256) (pi : Fin 8) (rd : Fin 32) (ra : Fin 32) (rb : Fin 32)
  /-- ADDI (R256). -/
  | addi (t : Fin 256) (pi : Fin 8) (rd : Fin 32) (ra : Fin 32) (imm : BitVec 13)
  /-- ANDI (R256). -/
  | andi (t : Fin 256) (pi : Fin 8) (rd : Fin 32) (ra : Fin 32) (imm : BitVec 13)
  /-- ORI (R256). -/
  | ori (t : Fin 256) (pi : Fin 8) (rd : Fin 32) (ra : Fin 32) (imm : BitVec 13)
  /-- XORI (R256). -/
  | xori (t : Fin 256) (pi : Fin 8) (rd : Fin 32) (ra : Fin 32) (imm : BitVec 13)
  /-- SHLI (R256). -/
  | shli (t : Fin 256) (pi : Fin 8) (rd : Fin 32) (ra : Fin 32) (imm : BitVec 6)
  /-- SHRI (R256). -/
  | shri (t : Fin 256) (pi : Fin 8) (rd : Fin 32) (ra : Fin 32) (imm : BitVec 6)
  /-- SARI (R256). -/
  | sari (t : Fin 256) (pi : Fin 8) (rd : Fin 32) (ra : Fin 32) (imm : BitVec 6)
  /-- MOVZ (R256). -/
  | movz (t : Fin 256) (pi : Fin 8) (rd : Fin 32) (hw : Fin 4) (imm : BitVec 16)
  /-- MOVK (R256). -/
  | movk (t : Fin 256) (pi : Fin 8) (rd : Fin 32) (hw : Fin 4) (imm : BitVec 16)
  /-- MOVN (R256). -/
  | movn (t : Fin 256) (pi : Fin 8) (rd : Fin 32) (hw : Fin 4) (imm : BitVec 16)
  /-- CMP (R258). -/
  | cmp (t : Fin 256) (pi : Fin 8) (pd : Fin 8) (cm : Fin 6) (ra : Fin 32) (rb : Fin 32) (cond : Fin 7)
  /-- CMPI (R258). -/
  | cmpi (t : Fin 256) (pi : Fin 8) (pd : Fin 8) (cm : Fin 6) (ra : Fin 32) (cond : Fin 7) (imm : BitVec 9)
  /-- PSET (R256). -/
  | pset (t : Fin 256) (pi : Fin 8) (pd : Fin 8) (pa : Fin 8) (pb : Fin 8) (op : Fin 4)
  /-- PGET (R256). -/
  | pget (t : Fin 256) (pi : Fin 8) (rd : Fin 32)
  /-- PPUT (R256). -/
  | pput (t : Fin 256) (pi : Fin 8) (ra : Fin 32)
  /-- LDB (R256). -/
  | ldb (t : Fin 256) (pi : Fin 8) (rd : Fin 32) (ra : Fin 32) (imm : BitVec 13)
  /-- LDH (R256). -/
  | ldh (t : Fin 256) (pi : Fin 8) (rd : Fin 32) (ra : Fin 32) (imm : BitVec 13)
  /-- LDW (R256). -/
  | ldw (t : Fin 256) (pi : Fin 8) (rd : Fin 32) (ra : Fin 32) (imm : BitVec 13)
  /-- LDD (R256). -/
  | ldd (t : Fin 256) (pi : Fin 8) (rd : Fin 32) (ra : Fin 32) (imm : BitVec 13)
  /-- LDBS (R256). -/
  | ldbs (t : Fin 256) (pi : Fin 8) (rd : Fin 32) (ra : Fin 32) (imm : BitVec 13)
  /-- LDHS (R256). -/
  | ldhs (t : Fin 256) (pi : Fin 8) (rd : Fin 32) (ra : Fin 32) (imm : BitVec 13)
  /-- LDWS (R256). -/
  | ldws (t : Fin 256) (pi : Fin 8) (rd : Fin 32) (ra : Fin 32) (imm : BitVec 13)
  /-- STB (R256). -/
  | stb (t : Fin 256) (pi : Fin 8) (rs : Fin 32) (ra : Fin 32) (imm : BitVec 13)
  /-- STH (R256). -/
  | sth (t : Fin 256) (pi : Fin 8) (rs : Fin 32) (ra : Fin 32) (imm : BitVec 13)
  /-- STW (R256). -/
  | stw (t : Fin 256) (pi : Fin 8) (rs : Fin 32) (ra : Fin 32) (imm : BitVec 13)
  /-- STD (R256). -/
  | std (t : Fin 256) (pi : Fin 8) (rs : Fin 32) (ra : Fin 32) (imm : BitVec 13)
  /-- AMO_SWAP (R256). -/
  | amoSwap (t : Fin 256) (pi : Fin 8) (rd : Fin 32) (ra : Fin 32) (rb : Fin 32)
  /-- AMO_ADD (R256). -/
  | amoAdd (t : Fin 256) (pi : Fin 8) (rd : Fin 32) (ra : Fin 32) (rb : Fin 32)
  /-- AMO_AND (R256). -/
  | amoAnd (t : Fin 256) (pi : Fin 8) (rd : Fin 32) (ra : Fin 32) (rb : Fin 32)
  /-- AMO_OR (R256). -/
  | amoOr (t : Fin 256) (pi : Fin 8) (rd : Fin 32) (ra : Fin 32) (rb : Fin 32)
  /-- AMO_CAS (R256). -/
  | amoCas (t : Fin 256) (pi : Fin 8) (rd : Fin 32) (ra : Fin 32) (rb : Fin 32)
  /-- FENCE (R247). -/
  | fence (t : Fin 256) (pi : Fin 8)
  /-- BR (R256). -/
  | br (t : Fin 256) (pi : Fin 8) (disp : BitVec 23)
  /-- CALL (R256). -/
  | call (t : Fin 256) (pi : Fin 8) (disp : BitVec 23)
  /-- JR (R256). -/
  | jr (t : Fin 256) (pi : Fin 8) (ra : Fin 32)
  /-- JALR (R256). -/
  | jalr (t : Fin 256) (pi : Fin 8) (rd : Fin 32) (ra : Fin 32)
  /-- EWAIT (R262). -/
  | ewait (t : Fin 256) (pi : Fin 8) (rd : Fin 32) (ra : Fin 32)
  /-- EPOLL (R256). -/
  | epoll (t : Fin 256) (pi : Fin 8) (rd : Fin 32)
  /-- LCALL (R250). -/
  | lcall (t : Fin 256) (pi : Fin 8) (gate : Fin 64)
  /-- LRET (R250). -/
  | lret (t : Fin 256) (pi : Fin 8)
  /-- NOP (R259). -/
  | nop (t : Fin 256) (pi : Fin 8)
  /-- YIELD (R259). -/
  | yield (t : Fin 256) (pi : Fin 8)
  /-- WAIT (R273). -/
  | wait (t : Fin 256) (pi : Fin 8)
  /-- EXIT (R259). -/
  | exit (t : Fin 256) (pi : Fin 8)
  /-- TRAP (R259). -/
  | trap (t : Fin 256) (pi : Fin 8) (ra : Fin 32)
  /-- ERET (R259). -/
  | eret (t : Fin 256) (pi : Fin 8) (rd : Fin 32) (ra : Fin 32)
  /-- SIGNAL (R259). -/
  | signal (t : Fin 256) (pi : Fin 8) (ra : Fin 32)
  /-- CSRR (R243). -/
  | csrr (t : Fin 256) (pi : Fin 8) (rd : Fin 32) (csr : BitVec 13)
  /-- CSRW (R243). -/
  | csrw (t : Fin 256) (pi : Fin 8) (ra : Fin 32) (csr : BitVec 13)
  /-- FAR_LOAD_RETURN (R248). -/
  | farLoadReturn (t : Fin 256) (slot : Fin 16)
  /-- FAR_STORE_ACK (R247). -/
  | farStoreAck (t : Fin 256) (slot : Fin 16)
  /-- ENGINE_CALL_COMPLETE (R260). -/
  | engineCallComplete (t : Fin 256) (slot : Fin 16)
  /-- EVENT_DELIVER (R273). -/
  | eventDeliver (src : Fin 10) (t : Fin 256)
  /-- WATCHDOG_EXPIRE (R277). -/
  | watchdogExpire (t : Fin 256)
  /-- THREAD_TIMER_FIRE (R243). -/
  | threadTimerFire (t : Fin 256)
  /-- LEGAL_TIMEOUT (R252). -/
  | legalTimeout (t : Fin 256)
  /-- MCC_START (R271). -/
  | mccStart (t : Fin 256) (pi : Fin 8) (rt : Fin 32) (ra : Fin 32)
  /-- MCC_STOP (R271). -/
  | mccStop (t : Fin 256) (pi : Fin 8) (rt : Fin 32) (ra : Fin 32)
  /-- DMA_COPY (R271). -/
  | dmaCopy (t : Fin 256) (pi : Fin 8) (rt : Fin 32) (ra : Fin 32)
  /-- SQ_TAIL_DOORBELL (R286). -/
  | sqTailDoorbell (sq : Fin 16) (v : BitVec 32)
  /-- CQ_HEAD_DOORBELL (R286). -/
  | cqHeadDoorbell (sq : Fin 16) (v : BitVec 32)
  /-- NQ_HEAD_DOORBELL (R299). -/
  | nqHeadDoorbell (v : BitVec 32)
  /-- COMMAND_FETCH (R289). -/
  | commandFetch (sq : Fin 16) (raw : List Byte) (data : List Byte) (ok : Bool) (dataOk : Bool)
  /-- COMMAND_DELIVER (R291). -/
  | commandDeliver (q : Fin 18)
  /-- COMPLETION_WRITE (R287). -/
  | completionWrite (q : Fin 18) (ok : Bool)
  /-- MSIX_COALESCE_EXPIRE (R287). -/
  | msixCoalesceExpire (v : Fin 18)
  /-- COMMAND_TIMEOUT (R296). -/
  | commandTimeout (q : Fin 16)
  /-- QUEUE_ENABLE (R288). -/
  | queueEnable (v : BitVec 32)
  /-- QUEUE_DISABLE (R288). -/
  | queueDisable (v : BitVec 32)
  /-- NQ_ENABLE (R299). -/
  | nqEnable (v : BitVec 32)
  /-- NOTICE_WRITE (R299). -/
  | noticeWrite (ok : Bool)
  /-- HOST_PORT_RESET (R285). -/
  | hostPortReset (up : Bool) (lanes : Fin 3) (gen : Fin 4)
  /-- PCIE_POWER_STATE (R285). -/
  | pciePowerState (d3 : Bool)
  /-- IDENTIFY (R297). -/
  | identify (q : Fin 18)
  /-- STATUS (R297). -/
  | status (q : Fin 18)
  /-- SESSION_OPEN (R321). -/
  | sessionOpen (q : Fin 18)
  /-- SESSION_PROVE (R321). -/
  | sessionProve (q : Fin 18)
  /-- SESSION_CLOSE (R294). -/
  | sessionClose (q : Fin 18)
  /-- NOTICE_MASK (R297). -/
  | noticeMask (q : Fin 18)
  /-- NOTICE_ROUTE (R303). -/
  | noticeRoute (q : Fin 18)
  /-- HOST_LAKE_HEALTH (R297). -/
  | hostLakeHealth (q : Fin 18)
  /-- HOST_LAKE_FORMAT (R297). -/
  | hostLakeFormat (q : Fin 18)
  /-- SESSION_PENDING_EXPIRE (R321). -/
  | sessionPendingExpire (sid : Fin 33)
  /-- PROOF_LOCKOUT_EXPIRE (R322). -/
  | proofLockoutExpire (carrier : Fin 3)
  /-- ETH_COMMAND_DATAGRAM (R301). -/
  | ethCommandDatagram (m : Fin 2) (src : Nat) (bytes : List Byte)
  /-- NOTICE_ROUTE_FLUSH (R303). -/
  | noticeRouteFlush (m : Fin 2)
  /-- HP_COMPLETE (R295). -/
  | hpComplete (t : Fin 256) (pi : Fin 8) (rt : Fin 32) (ra : Fin 32)
  /-- HP_NOTICE (R300). -/
  | hpNotice (t : Fin 256) (pi : Fin 8) (rt : Fin 32) (ra : Fin 32)
  /-- HOST_LDG_READ (R298). -/
  | hostLdgRead (q : Fin 18)
  /-- HOST_LDG_WRITE (R298). -/
  | hostLdgWrite (q : Fin 18)
  /-- HOST_LDG_EXEC (R298). -/
  | hostLdgExec (q : Fin 18)
  /-- HOST_DIR_INSERT (R298). -/
  | hostDirInsert (q : Fin 18)
  /-- HOST_DIR_LOOKUP (R298). -/
  | hostDirLookup (q : Fin 18)
  /-- HOST_DIR_READ (R298). -/
  | hostDirRead (q : Fin 18)
  /-- HOST_DIR_SET (R298). -/
  | hostDirSet (q : Fin 18)
  /-- HOST_DIR_EPOCH (R298). -/
  | hostDirEpoch (q : Fin 18)
  /-- HOST_DIR_CMD (R298). -/
  | hostDirCmd (q : Fin 18)
  /-- HOST_DIR_REMOVE (R298). -/
  | hostDirRemove (q : Fin 18)
  /-- HOST_BAL_SET (R298). -/
  | hostBalSet (q : Fin 18)
  /-- HOST_BAL_READ (R298). -/
  | hostBalRead (q : Fin 18)
  /-- HOST_BAL_CONFIG (R298). -/
  | hostBalConfig (q : Fin 18)
  /-- LOG_READ (R298). -/
  | logRead (q : Fin 18)
  /-- HEACK (R298). -/
  | heack (q : Fin 18)
  /-- HOST_KEY_LOAD (R330). -/
  | hostKeyLoad (q : Fin 18) (bad : Option Nat)
  /-- HOST_KEY_DERIVE (R330). -/
  | hostKeyDerive (q : Fin 18)
  /-- HOST_KEY_INVALIDATE (R330). -/
  | hostKeyInvalidate (q : Fin 18)
  /-- HOST_KEY_EPOCH (R330). -/
  | hostKeyEpoch (q : Fin 18)
  /-- KEY_STATUS (R330). -/
  | keyStatus (q : Fin 18)
  /-- CERT_READ (R330). -/
  | certRead (q : Fin 18)
  /-- ATTEST (R330). -/
  | attest (q : Fin 18)
  /-- IMG_BLOCK (R439). -/
  | imgBlock (q : Fin 18) (bad : List Nat)
  /-- IMG_VERIFY (R439). -/
  | imgVerify (q : Fin 18)
  /-- IMG_ACTIVATE (R439). -/
  | imgActivate (q : Fin 18)
  /-- IMG_CONFIRM (R439). -/
  | imgConfirm (q : Fin 18)
  /-- IMG_STATUS (R439). -/
  | imgStatus (q : Fin 18)
  /-- IMG_LOCK (R425). -/
  | imgLock (q : Fin 18)
  /-- HOST_CAMP_CTL (R439). -/
  | hostCampCtl (q : Fin 18)
  /-- TIME_READ (R352). -/
  | timeRead (q : Fin 18)
  /-- TIME_SET (R344). -/
  | timeSet (q : Fin 18)
  /-- TIME_SOURCE (R352). -/
  | timeSource (q : Fin 18)
  /-- CYCLE_READ (R352). -/
  | cycleRead (q : Fin 18)
  /-- CYCLE_WRITE (R352). -/
  | cycleWrite (q : Fin 18)
  /-- CRY_GCM_SEAL (R325). -/
  | cryGcmSeal (t : Fin 256) (pi : Fin 8) (rt : Fin 32) (ra : Fin 32)
  /-- CRY_GCM_OPEN (R326). -/
  | cryGcmOpen (t : Fin 256) (pi : Fin 8) (rt : Fin 32) (ra : Fin 32)
  /-- CRY_CMAC (R328). -/
  | cryCmac (t : Fin 256) (pi : Fin 8) (rt : Fin 32) (ra : Fin 32)
  /-- CRY_SHA384 (R328). -/
  | crySha384 (t : Fin 256) (pi : Fin 8) (rt : Fin 32) (ra : Fin 32)
  /-- CRY_ECDSA_VERIFY (R328). -/
  | cryEcdsaVerify (t : Fin 256) (pi : Fin 8) (rt : Fin 32) (ra : Fin 32)
  /-- CRY_ATTEST (R324). -/
  | cryAttest (t : Fin 256) (pi : Fin 8) (rt : Fin 32) (ra : Fin 32)
  /-- KEY_LOAD_SLOT (R312). -/
  | keyLoadSlot (t : Fin 256) (pi : Fin 8) (rt : Fin 32) (ra : Fin 32)
  /-- KEY_LOAD_OTP (R306). -/
  | keyLoadOtp (t : Fin 256) (pi : Fin 8) (rt : Fin 32) (ra : Fin 32) (bad : Option Nat)
  /-- KEY_DERIVE (R313). -/
  | keyDerive (t : Fin 256) (pi : Fin 8) (rt : Fin 32) (ra : Fin 32)
  /-- KEY_INVALIDATE (R317). -/
  | keyInvalidate (t : Fin 256) (pi : Fin 8) (rt : Fin 32) (ra : Fin 32)
  /-- KEY_CLEAR (R317). -/
  | keyClear (t : Fin 256) (pi : Fin 8) (rt : Fin 32) (ra : Fin 32)
  /-- INVALIDATION_COMMIT (R317). -/
  | invalidationCommit (slot : Fin 64)
  /-- KEY_EPOCH_DISTRICT (R314). -/
  | keyEpochDistrict (t : Fin 256) (pi : Fin 8) (rt : Fin 32) (ra : Fin 32)
  /-- EPMIN_COMMIT (R314). -/
  | epminCommit (slot : Fin 64)
  /-- KEY_EPOCH_BROADCAST (R315). -/
  | keyEpochBroadcast (t : Fin 256) (pi : Fin 8) (rt : Fin 32) (ra : Fin 32)
  /-- KEY_EPOCH_ROLE_FLOOR (R322). -/
  | keyEpochRoleFloor (t : Fin 256) (pi : Fin 8) (rt : Fin 32) (ra : Fin 32)
  /-- KEY_TABLE_DURABLE (R320). -/
  | keyTableDurable
  /-- BROADCAST_PREVIOUS_EXPIRE (R315). -/
  | broadcastPreviousExpire
  /-- TMU_ROW_WRITE (R349). -/
  | tmuRowWrite (t : Fin 256) (pi : Fin 8) (rt : Fin 32) (ra : Fin 32)
  /-- TMU_SOURCE_SELECT (R349). -/
  | tmuSourceSelect (t : Fin 256) (pi : Fin 8) (rt : Fin 32) (ra : Fin 32)
  /-- TMU_LATENCY (R349). -/
  | tmuLatency (t : Fin 256) (pi : Fin 8) (rt : Fin 32) (ra : Fin 32)
  /-- TMU_ROW_READ (R349). -/
  | tmuRowRead (t : Fin 256) (pi : Fin 8) (rt : Fin 32) (ra : Fin 32)
  /-- TMU_TIME_READ (R349). -/
  | tmuTimeRead (t : Fin 256) (pi : Fin 8) (rt : Fin 32) (ra : Fin 32)
  /-- TIME_LATCH_READ (R333). -/
  | timeLatchRead
  /-- TIME_SAMPLE (R341). -/
  | timeSample (mac : Fin 2)
  /-- TIME_SOURCE_LOSS (R342). -/
  | timeSourceLoss
  /-- HOLDOVER_EXPIRE (R342). -/
  | holdoverExpire
  /-- CYCLE_EVENT (R346). -/
  | cycleEvent (idx : Fin 512)
  /-- PULSE_ROW (R351). -/
  | pulseRow (idx : Fin 512)
  /-- PULSE_END (R351). -/
  | pulseEnd (out : Fin 4)
  /-- TSYNC_START (R372). -/
  | tsyncStart (port : Fin 4)
  /-- TSYNC (R372). -/
  | tsync (h : CHead) (m : Flit)
  /-- MAC_LINK_UP (R355). -/
  | macLinkUp (m : Fin 2) (rate : Fin 3)
  /-- MAC_LINK_DOWN (R356). -/
  | macLinkDown (m : Fin 2) (lock : Bool)
  /-- MAC_FRAME_RECEIVE (R360). -/
  | macFrameReceive (m : Fin 2) (f : List Byte) (fcsOk : Bool) (fill : Fin 131073)
  /-- XOFF_REFRESH (R362). -/
  | xoffRefresh (m : Fin 2) (fill : Fin 131073)
  /-- MAC_PAUSE_EXPIRE (R362). -/
  | macPauseExpire (m : Fin 2)
  /-- MAC_TX_COMPLETE (R358). -/
  | macTxComplete (m : Fin 2)
  /-- MAC_SEND (R358). -/
  | macSend (t : Fin 256) (pi : Fin 8) (rt : Fin 32) (ra : Fin 32)
  /-- MAC_CONFIG (R359). -/
  | macConfig (t : Fin 256) (pi : Fin 8) (rt : Fin 32) (ra : Fin 32)
  /-- MAC_WAKE (R363). -/
  | macWake (t : Fin 256) (pi : Fin 8) (rt : Fin 32) (ra : Fin 32)
  /-- MAC_RXPOST (R361). -/
  | macRxpost (t : Fin 256) (pi : Fin 8) (rt : Fin 32) (ra : Fin 32)
  /-- HELLO (R374). -/
  | hello (h : CHead) (m : Flit) (longer : Bool)
  /-- TOPO (R375). -/
  | topo (h : CHead) (m : Flit)
  /-- ASSIGN (R375). -/
  | assign (h : CHead) (m : Flit)
  /-- MSG (R381). -/
  | msg (h : CHead) (m : Flit)
  /-- BCAST (R382). -/
  | bcast (h : CHead) (m : Flit)
  /-- BARRIER (R382). -/
  | barrier (h : CHead) (m : Flit)
  /-- SNAP (R383). -/
  | snap (h : CHead) (m : Flit)
  /-- ROW (R350). -/
  | row (h : CHead) (m : Flit)
  /-- RFRAME (R379). -/
  | rframe (h : CHead) (m : Flit)
  /-- RDECIDE (R379). -/
  | rdecide (h : CHead) (m : Flit)
  /-- MIRROR (R385). -/
  | mirror (h : CHead) (m : Flit)
  /-- MACK (R386). -/
  | mack (h : CHead) (m : Flit)
  /-- RESYNC (R394). -/
  | resync (h : CHead) (m : Flit)
  /-- PARTMAP (R378). -/
  | partmap (h : CHead) (m : Flit)
  /-- LFETCH (R223). -/
  | lfetch (h : CHead) (m : Flit)
  /-- LINK_ACK (R370). -/
  | linkAck (port : Fin 4) (seq : BitVec 16) (crc : BitVec 16)
  /-- LINK_RETRY (R370). -/
  | linkRetry (port : Fin 4) (seq : BitVec 16) (crc : BitVec 16)
  /-- LINK_CREDIT (R371). -/
  | linkCredit (port : Fin 4) (cls : Fin 4) (n : BitVec 16) (crc : BitVec 16)
  /-- HEARTBEAT_RECEIVE (R387). -/
  | heartbeatReceive (port : Fin 4) (relayed : Bool) (state : Fin 16) (no : BitVec 16) (id : BitVec 16) (longer : Bool) (crc : BitVec 16)
  /-- HEARTBEAT_SEND (R387). -/
  | heartbeatSend
  /-- HEARTBEAT_MISS (R387). -/
  | heartbeatMiss (port : Fin 4)
  /-- FAIL_WORD (R388). -/
  | failWord (port : Fin 4) (cause : Fin 256) (crc : BitVec 16)
  /-- TAKEOVER (R390). -/
  | takeover (port : Fin 4) (crc : BitVec 16)
  /-- CAS_LINK_RETRAIN (R370). -/
  | casLinkRetrain (port : Fin 4)
  /-- REMOTE_DECISION_EXPIRE (R379). -/
  | remoteDecisionExpire (mid : BitVec 16)
  /-- MIRROR_ACK_TIMEOUT (R386). -/
  | mirrorAckTimeout
  /-- AUTO_HANDOVER (R396). -/
  | autoHandover
  /-- BARRIER_TIMEOUT (R382). -/
  | barrierTimeout (bid : Fin 256)
  /-- SNAPSHOT_TIMEOUT (R382). -/
  | snapshotTimeout
  /-- ROW_CONFIRM_TIMEOUT (R350). -/
  | rowConfirmTimeout (idx : Fin 512)
  /-- CLASSB_HOLD_RELEASE (R391). -/
  | classbHoldRelease
  /-- MIRROR_HELLO_TIMEOUT (R407). -/
  | mirrorHelloTimeout
  /-- PEER_LOST (R377). -/
  | peerLost
  /-- CAS_SEND (R381). -/
  | casSend (t : Fin 256) (pi : Fin 8) (rt : Fin 32) (ra : Fin 32) (full : Bool)
  /-- CAS_CONFIG (R373). -/
  | casConfig (t : Fin 256) (pi : Fin 8) (rt : Fin 32) (ra : Fin 32)
  /-- CAS_PARTMAP (R378). -/
  | casPartmap (t : Fin 256) (pi : Fin 8) (rt : Fin 32) (ra : Fin 32) (held : List Nat)
  /-- CAS_HANDOVER (R389). -/
  | casHandover (t : Fin 256) (pi : Fin 8) (rt : Fin 32) (ra : Fin 32)
  /-- CAS_BARRIER (R382). -/
  | casBarrier (t : Fin 256) (pi : Fin 8) (rt : Fin 32) (ra : Fin 32)
  /-- CAS_BCAST (R382). -/
  | casBcast (t : Fin 256) (pi : Fin 8) (rt : Fin 32) (ra : Fin 32)
  /-- STACK_RESET (R382). -/
  | stackReset (t : Fin 256) (pi : Fin 8) (rt : Fin 32) (ra : Fin 32)
  /-- CAS_SNAPSHOT (R382). -/
  | casSnapshot (t : Fin 256) (pi : Fin 8) (rt : Fin 32) (ra : Fin 32)
  /-- STACK_SNAPSHOT (R383). -/
  | stackSnapshot
  /-- POWER_ON (R401). -/
  | powerOn (gpio : BitVec 16) (testN : Bool)
  /-- PGOOD_RISE (R401). -/
  | pgoodRise (ochre : Nat)
  /-- PGOOD_TIMEOUT (R401). -/
  | pgoodTimeout
  /-- PGOOD_RETRY (R401). -/
  | pgoodRetry
  /-- SLOWCLK_FAIL (R401). -/
  | slowclkFail
  /-- PORST_ASSERT (R412). -/
  | porstAssert
  /-- BOOT (R406). -/
  | boot (b : BootIn)
  /-- HOLDUP_ENTRY (R410). -/
  | holdupEntry
  /-- HOLDUP_FLUSH_COMPLETE (R411). -/
  | holdupFlushComplete (high : Bool) (ochre : Nat)
  /-- POWER_RESTORED (R399). -/
  | powerRestored
  /-- VIGIL_REQUEST (R413). -/
  | vigilRequest
  /-- VIGIL_COMMIT (R415). -/
  | vigilCommit (during : List CommitEv) (ochre : Nat)
  /-- VIGIL_WAKE (R415). -/
  | vigilWake (rise : Bool) (ochre : Nat)
  /-- INTERNAL_RESET (R399). -/
  | internalReset (ochre : Nat)
  /-- VID_STEP (R402). -/
  | vidStep (target : BitVec 4)
  /-- OPMIN_TICK (R417). -/
  | opminTick
  /-- THERMAL_SAMPLE (R480). -/
  | thermalSample (t : BitVec 8)
  /-- FREEZE (R454). -/
  | freeze
  /-- REC_WRITE (R444). -/
  | recWrite (t : Fin 256) (pi : Fin 8) (rt : Fin 32) (ra : Fin 32)
  /-- EVENT_STAGING_DRAIN (R442). -/
  | eventStagingDrain
  /-- EVENT_RECORDER_CLEAR (R446). -/
  | eventRecorderClear (t : Fin 256) (pi : Fin 8) (rt : Fin 32) (ra : Fin 32)
  /-- ONLINE_TEST_STEP (R452). -/
  | onlineTestStep (item : Fin 6) (unit : Fin 256) (ok : Bool)
  /-- BANK_COPY_COMPLETE (R20). -/
  | bankCopyComplete
  /-- BANK_TEST_COMPLETE (R453). -/
  | bankTestComplete (ok : Bool)
  /-- FULLNEXT_SET (R451). -/
  | fullnextSet
  /-- TAP_RESET (R476). -/
  | tapReset
  /-- EXTEST (R456). -/
  | extest
  /-- SAMPLE_PRELOAD (R456). -/
  | samplePreload
  /-- IDCODE (R456). -/
  | idcode
  /-- DSTAT (R456). -/
  | dstat
  /-- DADDR (R457). -/
  | daddr (v : BitVec 64)
  /-- DDATA (R457). -/
  | ddata
  /-- DBGEN (R458). -/
  | dbgen (v : BitVec 32)
  /-- FRZRST (R454). -/
  | frzrst (v : BitVec 32)
  /-- BYPASS (R456). -/
  | bypass
  /-- UPD_BLOCK_BEGIN (R422). -/
  | updBlockBegin (t : Fin 256) (pi : Fin 8) (rt : Fin 32) (ra : Fin 32) (bad : List Nat)
  /-- UPD_BLOCK (R422). -/
  | updBlock (t : Fin 256) (pi : Fin 8) (rt : Fin 32) (ra : Fin 32) (bad : List Nat)
  /-- UPD_VERIFY (R424). -/
  | updVerify (t : Fin 256) (pi : Fin 8) (rt : Fin 32) (ra : Fin 32)
  /-- UPD_ACTIVATE (R426). -/
  | updActivate (t : Fin 256) (pi : Fin 8) (rt : Fin 32) (ra : Fin 32)
  /-- UPD_CONFIRM (R429). -/
  | updConfirm (t : Fin 256) (pi : Fin 8) (rt : Fin 32) (ra : Fin 32)
  /-- UPD_REJECT (R430). -/
  | updReject (t : Fin 256) (pi : Fin 8) (rt : Fin 32) (ra : Fin 32)
  /-- UPD_DISCARD (R429). -/
  | updDiscard (t : Fin 256) (pi : Fin 8) (rt : Fin 32) (ra : Fin 32)
  /-- IMAGE_ACTIVATE (R427). -/
  | imageActivate
  /-- ACTIVATION_DRAIN_COMPLETE (R427). -/
  | activationDrainComplete
  /-- TRIAL_TIMEOUT (R430). -/
  | trialTimeout
  /-- RECOVERY_STORE_UNIT (R433). -/
  | recoveryStoreUnit (unit : BitVec 12)
  /-- RECOVERY_VERIFY_START (R433). -/
  | recoveryVerifyStart (unit : BitVec 12)
  /-- CAMP_CTL_CREATE (R436). -/
  | campCtlCreate (t : Fin 256) (pi : Fin 8) (rt : Fin 32) (ra : Fin 32)
  /-- CAMP_CTL_SEND (R436). -/
  | campCtlSend (t : Fin 256) (pi : Fin 8) (rt : Fin 32) (ra : Fin 32)
  /-- CAMP_CTL_ACTIVATE (R436). -/
  | campCtlActivate (t : Fin 256) (pi : Fin 8) (rt : Fin 32) (ra : Fin 32)
  /-- CAMP_CTL_ABORT (R436). -/
  | campCtlAbort (t : Fin 256) (pi : Fin 8) (rt : Fin 32) (ra : Fin 32)
  /-- CAMP_CTL_READ (R436). -/
  | campCtlRead (t : Fin 256) (pi : Fin 8) (rt : Fin 32) (ra : Fin 32)
  /-- CAMP_CTL_CLOSE (R436). -/
  | campCtlClose (t : Fin 256) (pi : Fin 8) (rt : Fin 32) (ra : Fin 32)
  /-- CAMP_CTL_TALLY (R436). -/
  | campCtlTally (t : Fin 256) (pi : Fin 8) (rt : Fin 32) (ra : Fin 32)
  /-- CAMPAIGN_ACT_T (R438). -/
  | campaignActT (id : BitVec 16)
  /-- RESERVED_OPCODE (R255). -/
  | reservedOpcode (t : Fin 256) (w : BitVec 32)
  /-- ECALL_UNASSIGNED_FN (R266). -/
  | ecallUnassignedFn (t : Fin 256) (pi : Fin 8) (rt : Fin 32) (ra : Fin 32) (fn : BitVec 8)
  /-- CASCADE_LINK_DOWN (R367). -/
  | cascadeLinkDown (port : Fin 4)
deriving DecidableEq, Repr

end Sys2Proof
end

