-- ==== Sys2Proof/Decode.lean ====
section
/-! DEFINITION. Words of the opcode table. Its rows are commands and events of a block: none gives bits, so no word spells one. -/

namespace Sys2Proof

/-- The command that a word of `nbits` bits spells by the table's bits: none. -/
def decodeTableWord (_nbits _w : Nat) : Option Instr := none

end Sys2Proof
end

