-- ==== Sys2Proof/Config.lean ====
section
/-! DEFINITION. Free values: what the spec leaves open. None has a body, so nothing can be proved of its value. -/

namespace Sys2Proof.Config

/-- Values from Woad's random source (R321 ND, R323 per-signature value, R219 FMTID), one per counter value (log 5). -/
opaque random : Nat → Nat

/-- The servo's new frequency adjustment in units of 2^-48 ns per TIME_CLK cycle: old adjustment, offset in ns (R341, log 6). -/
opaque servo : Int → Int → Int

/-- The size of the correction rate that the servo adds for a slew, before the 20 ppm limit: adjustment, offset in ns (R341, log 6). -/
opaque slewRate : Int → Int → Nat

/-- The servo's filtered offset in ns: the filtered offset before and the new offset (R341, log 6). -/
opaque filter : Int → Int → Int

/-- The test root TR that debug substitution puts in place of DR: a boot ROM constant the spec does not print (R309, log 7). -/
opaque testRoot : Nat

/-- The public key X ‖ Y of the Thrumox device CA, held in the boot ROM, which the spec does not print (R323, log 7). -/
opaque deviceCa : Nat

/-- The complex sample of one frame's 2-GFSK waveform with its ramps, at a port's full amplitude: local lane, rate, bytes on the air, start of the
ramp and ns since it. R33 and R81 give neither its first phase nor the shape of the ramp (log 106). -/
opaque radioWave : Nat → Nat → List (BitVec 8) → Nat → Nat → Int × Int

/-- log2 W of a meter, by MA and the TAI second of a superframe start: the part needs W to find a meter's wake superframes (R54), and the spec
gives it no register, field or argument that holds W (log 93). -/
opaque wakeLog2 : BitVec 64 → Nat → Nat

/-- A line port's running noise floor after a symbol that is not erased: the floor before, the energies of its windows. R112 names the running
floor and gives no rule for it (log 116). -/
opaque noiseFloor : Nat → List Nat → Nat

/-- The average of a carrier's SNR over up to 8 frames, in tenths of a dB: R109's text gives no rule for it (log 117). -/
opaque snrMean : List Int → Int

/-- A sample of the line signal: TXGAIN, the tones of a symbol, and which of the 1,024 IFFT output samples; the spec fixes neither the rounding
nor the scale within the peak (R99, log 115). -/
opaque lineIfft : Nat → List (Nat × Int × Int × Nat) → Nat → Int

/-- A sample of SYNCP: TXGAIN and the sample's number, 0 to 255 (R100, log 115). -/
opaque lineSync : Nat → Nat → Int

/-- The 380 bytes of LDPC parity of a NAND chunk's data, tag and check; the code is nowhere given (R212, log 126). -/
opaque nandParity : List (BitVec 8) → List (BitVec 8)

/-- The content of a chunk whose layout the spec does not print: META chunks and the ledger's configuration chunks, by space, LADDR and WSEQ
(Table 8-7, R222, log 126). -/
opaque chunkContent : Nat → Nat → Nat → List (BitVec 8)

/-- RRATE of a DN_CMD frame, the rate of the meter's reply, which no field of RLA_QUEUE gives (R272, log 41). -/
opaque dnRrate : Nat

/-- Whether the key that CRY_CMAC KSRC 2 derives has 256 bits or 128: the spec gives neither (R328, log 52). -/
opaque cmacWide : Bool

/-- By how many ns a nonzero ASYM moves a stamp, by direction (true: transmit): R339 gives neither its sign nor its direction (log 71). -/
opaque asymShift : Bool → Int → Int

/-- The routers that a fabric link joins, from and to, as column and row of the 6 × 4 mesh: the spec numbers the links and gives no map (R15, log 78). -/
opaque fabEnds : Nat → (Nat × Nat) × (Nat × Nat)

end Sys2Proof.Config
end

