-- ==== Sys2Proof/Machine/Bits.lean ====
section
/-! DEFINITION. Bit fields, little-endian byte order (R6), sign extension and the CRCs the spec names. -/

namespace Sys2Proof.Machine

/-- Field [hi:lo] of a number (R5). -/
def bits (x hi lo : Nat) : Nat := (x >>> lo) % 2 ^ (hi + 1 - lo)

/-- Bit n of a number. -/
def bitAt (x n : Nat) : Bool := (x >>> n) % 2 == 1

/-- 1 for true, 0 for false. -/
def flag (b : Bool) : Nat := if b then 1 else 0

/-- The number with bit n set. -/
def setBit (x n : Nat) : Nat := if bitAt x n then x else x + 2 ^ n

/-- `n` bytes of `v`, least significant first (R6). -/
def le : Nat → Nat → List Byte
  | 0, _ => []
  | n + 1, v => Byte.of v :: le n (v / 256)

/-- The number that little-endian bytes spell (R6). -/
def ofLe : List Byte → Nat
  | [] => 0
  | b :: l => b.toNat + 256 * ofLe l

/-- `len` bytes from offset `off`; bytes beyond the end read as absent. -/
def slice (l : List Byte) (off len : Nat) : List Byte := (l.drop off).take len

/-- The little-endian field of `len` bytes at `off`. -/
def field (l : List Byte) (off len : Nat) : Nat := ofLe (slice l off len)

/-- Every byte of the span is zero (a reserved span under R9, R264). -/
def zeros (l : List Byte) (off len : Nat) : Bool := (slice l off len).all (· == 0#8)

/-- `n` zero bytes. -/
def zeroBytes (n : Nat) : List Byte := List.replicate n 0#8

/-- A list cut or padded with zero bytes to `n` bytes. -/
def fit (n : Nat) (l : List Byte) : List Byte := l.take n ++ zeroBytes (n - l.length)

/-- The signed value of a `w`-bit two's complement number. -/
def signed (w x : Nat) : Int := if x < 2 ^ (w - 1) then (x : Int) else (x : Int) - 2 ^ w

/-- The `w`-bit two's complement pattern of an integer. -/
def unsigned (w : Nat) (i : Int) : Nat := (i % (2 ^ w : Int)).toNat

/-- One bit step of a reflected CRC. -/
def crcBitR (poly c : Nat) : Nat := if c % 2 = 1 then (c / 2) ^^^ poly else c / 2

/-- A reflected CRC register advanced by one byte, least significant bit first. -/
def crcByteR (poly c b : Nat) : Nat := iter 8 (crcBitR poly) (c ^^^ b)

/-- A reflected CRC register advanced by bytes in order. -/
def crcR (poly : Nat) (c : Nat) (l : List Byte) : Nat := l.foldl (fun c b => crcByteR poly c b.toNat) c

/-- One bit step of a CRC of `w` bits that takes the most significant bit first. -/
def crcBitM (w poly c : Nat) : Nat := if bitAt c (w - 1) then ((c * 2) % 2 ^ w) ^^^ poly else (c * 2) % 2 ^ w

/-- A most-significant-first CRC register of `w` bits advanced by one byte. -/
def crcByteM (w poly c b : Nat) : Nat := iter 8 (crcBitM w poly) (c ^^^ (b <<< (w - 8)))

/-- A most-significant-first CRC register advanced by bytes in order. -/
def crcM (w poly : Nat) (c : Nat) (l : List Byte) : Nat := l.foldl (fun c b => crcByteM w poly c b.toNat) c

/-- The reflected polynomial of CRC-32C. -/
def polyCrc32c : Nat := 0x82F63B78

/-- CRC-32C of bytes, initial value and final XOR all ones (R257 gives its check value). -/
def crc32c (l : List Byte) : Nat := crcR polyCrc32c 0xFFFFFFFF l ^^^ 0xFFFFFFFF

/-- Saturating 32-bit count. -/
def sat32 (n : Nat) : Nat := min n 0xFFFFFFFF

/-- Ceiling division. -/
def ceilDiv (a b : Nat) : Nat := (a + (b - 1)) / b

/-- The greatest multiple of 2^k not above n. -/
def alignDown (n m : Nat) : Nat := n - n % m

end Sys2Proof.Machine
end

