-- ==== Sys2Proof/Machine/Crypto.lean ====
section
/-! DEFINITION. The algorithms of Table 11-12 (R327), as their public standards define them: AES (FIPS 197), CMAC (SP 800-38B),
CCM (SP 800-38C), GCM (SP 800-38D), SHA-384 (FIPS 180-4), ECDSA P-384 (FIPS 186-4), and the KDF of R310. -/

namespace Sys2Proof.Machine

/-- The AES S-box. -/
def aesSbox : List Nat :=
   [0x63, 0x7c, 0x77, 0x7b, 0xf2, 0x6b, 0x6f, 0xc5, 0x30, 0x01, 0x67, 0x2b, 0xfe, 0xd7, 0xab, 0x76]
   ++ [0xca, 0x82, 0xc9, 0x7d, 0xfa, 0x59, 0x47, 0xf0, 0xad, 0xd4, 0xa2, 0xaf, 0x9c, 0xa4, 0x72, 0xc0]
   ++ [0xb7, 0xfd, 0x93, 0x26, 0x36, 0x3f, 0xf7, 0xcc, 0x34, 0xa5, 0xe5, 0xf1, 0x71, 0xd8, 0x31, 0x15]
   ++ [0x04, 0xc7, 0x23, 0xc3, 0x18, 0x96, 0x05, 0x9a, 0x07, 0x12, 0x80, 0xe2, 0xeb, 0x27, 0xb2, 0x75]
   ++ [0x09, 0x83, 0x2c, 0x1a, 0x1b, 0x6e, 0x5a, 0xa0, 0x52, 0x3b, 0xd6, 0xb3, 0x29, 0xe3, 0x2f, 0x84]
   ++ [0x53, 0xd1, 0x00, 0xed, 0x20, 0xfc, 0xb1, 0x5b, 0x6a, 0xcb, 0xbe, 0x39, 0x4a, 0x4c, 0x58, 0xcf]
   ++ [0xd0, 0xef, 0xaa, 0xfb, 0x43, 0x4d, 0x33, 0x85, 0x45, 0xf9, 0x02, 0x7f, 0x50, 0x3c, 0x9f, 0xa8]
   ++ [0x51, 0xa3, 0x40, 0x8f, 0x92, 0x9d, 0x38, 0xf5, 0xbc, 0xb6, 0xda, 0x21, 0x10, 0xff, 0xf3, 0xd2]
   ++ [0xcd, 0x0c, 0x13, 0xec, 0x5f, 0x97, 0x44, 0x17, 0xc4, 0xa7, 0x7e, 0x3d, 0x64, 0x5d, 0x19, 0x73]
   ++ [0x60, 0x81, 0x4f, 0xdc, 0x22, 0x2a, 0x90, 0x88, 0x46, 0xee, 0xb8, 0x14, 0xde, 0x5e, 0x0b, 0xdb]
   ++ [0xe0, 0x32, 0x3a, 0x0a, 0x49, 0x06, 0x24, 0x5c, 0xc2, 0xd3, 0xac, 0x62, 0x91, 0x95, 0xe4, 0x79]
   ++ [0xe7, 0xc8, 0x37, 0x6d, 0x8d, 0xd5, 0x4e, 0xa9, 0x6c, 0x56, 0xf4, 0xea, 0x65, 0x7a, 0xae, 0x08]
   ++ [0xba, 0x78, 0x25, 0x2e, 0x1c, 0xa6, 0xb4, 0xc6, 0xe8, 0xdd, 0x74, 0x1f, 0x4b, 0xbd, 0x8b, 0x8a]
   ++ [0x70, 0x3e, 0xb5, 0x66, 0x48, 0x03, 0xf6, 0x0e, 0x61, 0x35, 0x57, 0xb9, 0x86, 0xc1, 0x1d, 0x9e]
   ++ [0xe1, 0xf8, 0x98, 0x11, 0x69, 0xd9, 0x8e, 0x94, 0x9b, 0x1e, 0x87, 0xe9, 0xce, 0x55, 0x28, 0xdf]
   ++ [0x8c, 0xa1, 0x89, 0x0d, 0xbf, 0xe6, 0x42, 0x68, 0x41, 0x99, 0x2d, 0x0f, 0xb0, 0x54, 0xbb, 0x16]

/-- The S-box value of a byte. -/
def subByte (b : Nat) : Nat := aesSbox.getD b 0

/-- Multiplication by x in the AES field. -/
def xtime (b : Nat) : Nat := if b < 128 then b * 2 else ((b * 2) % 256) ^^^ 0x1b

/-- XOR of two byte lists, position by position. -/
def xorN : List Nat → List Nat → List Nat
  | a :: l, b :: m => (a ^^^ b) :: xorN l m
  | l, [] => l
  | [], m => m

/-- One more word of the AES key schedule; `w` lists the words so far, newest first. -/
def aesNextWord (nk i : Nat) (rcon : Nat) (w : List (List Nat)) : List Nat :=
  let t := w.getD 0 []
  let t' :=
    if i % nk = 0 then
      let r := (t.drop 1 ++ t.take 1).map subByte
      xorN r [rcon]
    else if nk > 6 ∧ i % nk = 4 then t.map subByte else t
  xorN (w.getD (nk - 1) []) t'

/-- `n` more words of the AES key schedule from word number `i`, newest first. -/
def aesExpand (nk : Nat) : Nat → Nat → Nat → List (List Nat) → List (List Nat)
  | 0, _, _, w => w
  | n + 1, i, rcon, w =>
    aesExpand nk n (i + 1) (if i % nk = 0 then xtime rcon else rcon) (aesNextWord nk i rcon w :: w)

/-- The list cut into pieces of `k` elements; `fuel` bounds the pieces. -/
def chunks {α : Type} (k : Nat) : Nat → List α → List (List α)
  | 0, _ => []
  | fuel + 1, l => if l.isEmpty then [] else l.take k :: chunks k fuel (l.drop k)

/-- The round keys of a 16-byte or 32-byte key. -/
def aesKeys (key : List Nat) : List (List Nat) :=
  let nk := key.length / 4
  let words := (aesExpand nk (4 * (nk + 7) - nk) nk 1 ((chunks 4 8 key).reverse)).reverse
  (chunks 4 15 words).map List.flatten

/-- SubBytes and ShiftRows of a state held column by column. -/
def aesSubShift (s : List Nat) : List Nat :=
  (List.range 16).map fun i => subByte (s.getD ((i + 4 * (i % 4)) % 16) 0)

/-- MixColumns of one column. -/
def aesMixCol (c : List Nat) : List Nat :=
  (List.range 4).map fun i =>
    let a := c.getD i 0
    let b := c.getD ((i + 1) % 4) 0
    xtime a ^^^ (xtime b ^^^ b) ^^^ c.getD ((i + 2) % 4) 0 ^^^ c.getD ((i + 3) % 4) 0

/-- The rounds of AES after the first key addition. -/
def aesRounds : List (List Nat) → List Nat → List Nat
  | [], s => s
  | [k], s => xorN (aesSubShift s) k
  | k :: ks, s => aesRounds ks (xorN (((chunks 4 4 (aesSubShift s)).map aesMixCol).flatten) k)

/-- AES encryption of one 16-byte block. -/
def aesBlock (key blk : List Nat) : List Nat :=
  match aesKeys key with
  | [] => blk
  | k :: ks => aesRounds ks (xorN blk k)

/-- Bytes as numbers. -/
def nats (l : List Byte) : List Nat := l.map (·.toNat)

/-- Numbers as bytes. -/
def bytesOf (l : List Nat) : List Byte := l.map Byte.of

/-- AES-128 or AES-256 of one block, over bytes. -/
def aes (key blk : List Byte) : List Byte := bytesOf (aesBlock (nats key) (nats (fit 16 blk)))

/-- XOR of byte lists. -/
def xorB (a b : List Byte) : List Byte := bytesOf (xorN (nats a) (nats b))

/-- Big-endian value of bytes. -/
def ofBe (l : List Byte) : Nat := l.foldl (fun n b => n * 256 + b.toNat) 0

/-- `n` bytes of `v`, most significant first. -/
def be (n v : Nat) : List Byte := (le n v).reverse

/-- Doubling in GF(2^128) with CMAC's byte order. -/
def cmacDouble (l : List Byte) : List Byte :=
  let x := ofBe l
  be 16 (((x * 2) % 2 ^ 128) ^^^ (if bitAt x 127 then 0x87 else 0))

/-- CBC-MAC over whole blocks. -/
def cbcMac (key : List Byte) (iv : List Byte) (blocks : List (List Byte)) : List Byte :=
  blocks.foldl (fun t b => aes key (xorB t b)) iv

/-- AES-CMAC, 16 bytes, under a 128-bit or 256-bit key (R310). -/
def cmac (key msg : List Byte) : List Byte :=
  let k1 := cmacDouble (aes key (zeroBytes 16))
  let k2 := cmacDouble k1
  let bl := chunks 16 (msg.length / 16 + 1) msg
  let init := bl.dropLast
  let last := bl.getLast?.getD []
  if last.length = 16 then cbcMac key (zeroBytes 16) (init ++ [xorB last k1])
  else cbcMac key (zeroBytes 16) (init ++ [xorB (fit 16 (last ++ [0x80#8])) k2])

/-- The counter-mode KDF of R310: label of four bytes, context, and L in bits. -/
def kdf (key label ctx : List Byte) (l : Nat) : List Byte :=
  let one := fun i => cmac key (Byte.of i :: label ++ [0#8] ++ ctx ++ be 2 l)
  (((List.range (ceilDiv l 128)).map fun i => one (i + 1)).flatten).take (l / 8)

/-- The bytes of a four-letter label, in order. -/
def label (a b c d : Nat) : List Byte := bytesOf [a, b, c, d]

/-- Zero-padded to whole blocks of 16 bytes. -/
def pad16 (l : List Byte) : List Byte := fit (16 * ceilDiv l.length 16) l

/-- Blocks of 16 bytes. -/
def blocks16 (l : List Byte) : List (List Byte) := chunks 16 (l.length / 16 + 1) l

/-- CCM counter block `i` for a 13-byte nonce and a 2-byte length field (R39). -/
def ccmCtr (nonce : List Byte) (i : Nat) : List Byte := [1#8] ++ nonce ++ be 2 i

/-- CCM encryption or decryption of the payload by the counter key stream. -/
def ccmCrypt (key nonce data : List Byte) : List Byte :=
  xorB data ((((List.range (ceilDiv data.length 16)).map fun i => aes key (ccmCtr nonce (i + 1))).flatten).take data.length)

/-- The 8-byte CCM tag over associated data and plaintext (R39). -/
def ccmTag (key nonce aad pt : List Byte) : List Byte :=
  let b0 := [Byte.of ((if aad.isEmpty then 0 else 0x40) + 0x19)] ++ nonce ++ be 2 pt.length
  let a := if aad.isEmpty then [] else blocks16 (pad16 (be 2 aad.length ++ aad))
  let t := cbcMac key (zeroBytes 16) ([b0] ++ a ++ blocks16 (pad16 pt))
  (xorB t (aes key (ccmCtr nonce 0))).take 8

/-- Multiplication in GF(2^128) as GCM defines it: `n` bits of `x` left, most significant first. -/
def ghMul : Nat → Nat → Nat → Nat → Nat
  | 0, _, _, z => z
  | n + 1, x, v, z =>
    ghMul n x (if v % 2 = 1 then (v / 2) ^^^ 0xE1000000000000000000000000000000 else v / 2)
      (if bitAt x n then z ^^^ v else z)

/-- GHASH over whole blocks. -/
def ghash (h : Nat) (blks : List (List Byte)) : Nat :=
  blks.foldl (fun y b => ghMul 128 (y ^^^ ofBe b) h 0) 0

/-- GCM counter-mode over data from counter 2, nonce of 12 bytes. -/
def gcmCrypt (key nonce data : List Byte) : List Byte :=
  xorB data ((((List.range (ceilDiv data.length 16)).map fun i => aes key (nonce ++ be 4 (i + 2))).flatten).take data.length)

/-- The 16-byte GCM tag over associated data and ciphertext. -/
def gcmTag (key nonce aad ct : List Byte) : List Byte :=
  let h := ofBe (aes key (zeroBytes 16))
  let s := ghash h (blocks16 (pad16 aad) ++ blocks16 (pad16 ct) ++ [be 8 (8 * aad.length) ++ be 8 (8 * ct.length)])
  xorB (be 16 s) (aes key (nonce ++ be 4 1))

/-- The round constants of SHA-384. -/
def shaK : List Nat :=
   [0x428a2f98d728ae22, 0x7137449123ef65cd, 0xb5c0fbcfec4d3b2f, 0xe9b5dba58189dbbc, 0x3956c25bf348b538, 0x59f111f1b605d019, 0x923f82a4af194f9b, 0xab1c5ed5da6d8118]
   ++ [0xd807aa98a3030242, 0x12835b0145706fbe, 0x243185be4ee4b28c, 0x550c7dc3d5ffb4e2, 0x72be5d74f27b896f, 0x80deb1fe3b1696b1, 0x9bdc06a725c71235, 0xc19bf174cf692694]
   ++ [0xe49b69c19ef14ad2, 0xefbe4786384f25e3, 0x0fc19dc68b8cd5b5, 0x240ca1cc77ac9c65, 0x2de92c6f592b0275, 0x4a7484aa6ea6e483, 0x5cb0a9dcbd41fbd4, 0x76f988da831153b5]
   ++ [0x983e5152ee66dfab, 0xa831c66d2db43210, 0xb00327c898fb213f, 0xbf597fc7beef0ee4, 0xc6e00bf33da88fc2, 0xd5a79147930aa725, 0x06ca6351e003826f, 0x142929670a0e6e70]
   ++ [0x27b70a8546d22ffc, 0x2e1b21385c26c926, 0x4d2c6dfc5ac42aed, 0x53380d139d95b3df, 0x650a73548baf63de, 0x766a0abb3c77b2a8, 0x81c2c92e47edaee6, 0x92722c851482353b]
   ++ [0xa2bfe8a14cf10364, 0xa81a664bbc423001, 0xc24b8b70d0f89791, 0xc76c51a30654be30, 0xd192e819d6ef5218, 0xd69906245565a910, 0xf40e35855771202a, 0x106aa07032bbd1b8]
   ++ [0x19a4c116b8d2d0c8, 0x1e376c085141ab53, 0x2748774cdf8eeb99, 0x34b0bcb5e19b48a8, 0x391c0cb3c5c95a63, 0x4ed8aa4ae3418acb, 0x5b9cca4f7763e373, 0x682e6ff3d6b2b8a3]
   ++ [0x748f82ee5defb2fc, 0x78a5636f43172f60, 0x84c87814a1f0ab72, 0x8cc702081a6439ec, 0x90befffa23631e28, 0xa4506cebde82bde9, 0xbef9a3f7b2c67915, 0xc67178f2e372532b]
   ++ [0xca273eceea26619c, 0xd186b8c721c0c207, 0xeada7dd6cde0eb1e, 0xf57d4f7fee6ed178, 0x06f067aa72176fba, 0x0a637dc5a2c898a6, 0x113f9804bef90dae, 0x1b710b35131c471b]
   ++ [0x28db77f523047d84, 0x32caab7b40c72493, 0x3c9ebe0a15c9bebc, 0x431d67c49c100d4c, 0x4cc5d4becb3e42b6, 0x597f299cfc657e2a, 0x5fcb6fab3ad6faec, 0x6c44198c4a475817]

/-- The initial hash value of SHA-384. -/
def shaH0 : List Nat := [0xcbbb9d5dc1059ed8, 0x629a292a367cd507, 0x9159015a3070dd17, 0x152fecd8f70e5939, 0x67332667ffc00b31, 0x8eb44a8768581511, 0xdb0c2e0d64f98fa7, 0x47b5481dbefa4fa4]

/-- 64-bit rotation to the right. -/
def ror64 (x n : Nat) : Nat := (x >>> n) ||| ((x <<< (64 - n)) % 2 ^ 64)

/-- The message schedule, newest word first, `n` more words. -/
def shaSched : Nat → List Nat → List Nat
  | 0, w => w
  | n + 1, w =>
    let a := w.getD 14 0
    let b := w.getD 1 0
    let s0 := ror64 a 1 ^^^ ror64 a 8 ^^^ (a >>> 7)
    let s1 := ror64 b 19 ^^^ ror64 b 61 ^^^ (b >>> 6)
    shaSched n (((w.getD 15 0 + s0 + w.getD 6 0 + s1) % 2 ^ 64) :: w)

/-- One round of SHA-384 with the round's constant and word. -/
def shaRound (v : List Nat) (kw : Nat) : List Nat :=
  match v with
  | [a, b, c, d, e, f, g, h] =>
    let t1 := h + (ror64 e 14 ^^^ ror64 e 18 ^^^ ror64 e 41) + ((e &&& f) ^^^ ((e ^^^ (2 ^ 64 - 1)) &&& g)) + kw
    let t2 := (ror64 a 28 ^^^ ror64 a 34 ^^^ ror64 a 39) + ((a &&& b) ^^^ (a &&& c) ^^^ (b &&& c))
    [(t1 + t2) % 2 ^ 64, a, b, c, (d + t1) % 2 ^ 64, e, f, g]
  | _ => v

/-- The compression of one 128-byte block. -/
def shaBlock (h : List Nat) (blk : List Byte) : List Nat :=
  let w := (shaSched 64 ((chunks 8 16 blk).map ofBe).reverse).reverse
  let v := (shaK.zip w).foldl (fun v kw => shaRound v (kw.1 + kw.2)) h
  (h.zip v).map fun p => (p.1 + p.2) % 2 ^ 64

/-- SHA-384 of bytes, 48 bytes. -/
def sha384 (m : List Byte) : List Byte :=
  let z := (239 - m.length % 128) % 128
  let p := m ++ [0x80#8] ++ zeroBytes z ++ be 16 (8 * m.length)
  (((chunks 128 (p.length / 128) p).foldl shaBlock shaH0).map (be 8)).flatten.take 48

/-- The prime of P-384. -/
def p384 : Nat := 2 ^ 384 - 2 ^ 128 - 2 ^ 96 + 2 ^ 32 - 1

/-- The order of the group of P-384. -/
def n384 : Nat := 0xffffffffffffffffffffffffffffffffffffffffffffffffc7634d81f4372ddf581a0db248b0a77aecec196accc52973

/-- The coefficient b of P-384. -/
def b384 : Nat := 0xb3312fa7e23ee7e4988e056be3f82d19181d9c6efe8141120314088f5013875ac656398d8a2ed19d2a85c8edd3ec2aef

/-- The base point of P-384. -/
def g384 : Nat × Nat :=
  (0xaa87ca22be8b05378eb1c71ef320ad746e1d3b628ba79b9859f741e082542a385502f25dbf55296c3a545e3872760ab7,
   0x3617de4a96262c6f5d9e98bf9292dc29f8f41dbd289a147ce9da3113b5f0b8c00a60b1ce1d7e819d7a431d7c90ea0e5f)

/-- Modular power by squaring over the `n` low bits of the exponent. -/
def powMod (m : Nat) : Nat → Nat → Nat → Nat → Nat
  | 0, _, _, acc => acc
  | n + 1, b, e, acc => powMod m n (b * b % m) (e / 2) (if e % 2 = 1 then acc * b % m else acc)

/-- The inverse modulo a prime below 2^384. -/
def invMod (m a : Nat) : Nat := powMod m 384 (a % m) (m - 2) 1

/-- A point of P-384 in Jacobian coordinates (X/Z², Y/Z³); Z = 0 is the point at infinity. -/
structure EcPoint where
  x : Nat
  y : Nat
  z : Nat
deriving DecidableEq, Repr

/-- Subtraction modulo the prime of P-384. -/
def subP (a b : Nat) : Nat := (a + p384 - b % p384) % p384

/-- Doubling. -/
def ecDouble (q : EcPoint) : EcPoint :=
  let y2 := q.y * q.y % p384
  let z2 := q.z * q.z % p384
  let s := 4 * q.x * y2 % p384
  let m := 3 * subP q.x z2 * (q.x + z2) % p384
  let x := subP (m * m) (2 * s)
  { x := x, y := subP (m * subP s x) (8 * y2 * y2), z := 2 * q.y * q.z % p384 }

/-- Addition. -/
def ecAdd (q r : EcPoint) : EcPoint :=
  if q.z = 0 then r
  else if r.z = 0 then q
  else
    let zq := q.z * q.z % p384
    let zr := r.z * r.z % p384
    let u := q.x * zr % p384
    let s := q.y * zr * r.z % p384
    let h := subP (r.x * zq) u
    let d := subP (r.y * zq * q.z) s
    if h = 0 then (if d = 0 then ecDouble q else { x := 1, y := 1, z := 0 })
    else
      let h2 := h * h % p384
      let h3 := h2 * h % p384
      let x := subP (d * d) (h3 + 2 * u * h2)
      { x := x, y := subP (d * subP (u * h2) x) (s * h3), z := h * q.z * r.z % p384 }

/-- Scalar multiplication over the `n` low bits of the scalar. -/
def ecMulJ : Nat → Nat → EcPoint → EcPoint → EcPoint
  | 0, _, _, acc => acc
  | n + 1, k, q, acc => ecMulJ n (k / 2) (ecDouble q) (if k % 2 = 1 then ecAdd acc q else acc)

/-- `k` times a point given by its coordinates, for k below 2^384. -/
def ecMul (k : Nat) (q : Nat × Nat) : EcPoint := ecMulJ 384 k { x := q.1, y := q.2, z := 1 } { x := 1, y := 1, z := 0 }

/-- The coordinates of a point; `none` at infinity. -/
def EcPoint.affine (q : EcPoint) : Option (Nat × Nat) :=
  if q.z = 0 then none
  else
    let w := invMod p384 q.z
    let w2 := w * w % p384
    some (q.x * w2 % p384, q.y * w2 * w % p384)

/-- The public key X ‖ Y of a private key (R323: most significant byte first). -/
def ecPub (d : Nat) : List Byte :=
  match (ecMul d g384).affine with
  | some (x, y) => be 48 x ++ be 48 y
  | none => zeroBytes 96

/-- ECDSA verification of r ‖ s over a SHA-384 digest (R328). -/
def ecdsaVerify (pub digest sig : List Byte) : Bool :=
  let r := ofBe (sig.take 48)
  let s := ofBe (slice sig 48 48)
  let x := ofBe (pub.take 48)
  let y := ofBe (slice pub 48 48)
  if r = 0 ∨ n384 ≤ r ∨ s = 0 ∨ n384 ≤ s then false
  else if p384 ≤ x ∨ p384 ≤ y ∨ y * y % p384 ≠ (x * x * x + (p384 - 3) * x + b384) % p384 then false
  else
    let w := invMod n384 s
    match (ecAdd (ecMul (ofBe digest * w % n384) g384) (ecMul (r * w % n384) (x, y))).affine with
    | some (px, _) => px % n384 == r
    | none => false

/-- An ECDSA signature with the per-signature value `k` (R323). -/
def ecdsaSign (d : Nat) (digest : List Byte) (k : Nat) : List Byte :=
  let r := match (ecMul k g384).affine with
    | some (x, _) => x % n384
    | none => 0
  be 48 r ++ be 48 (invMod n384 k * (ofBe digest + r * d) % n384)

/-- The private key of a 448-bit KDF output (R310). -/
def ecPriv (c : List Byte) : Nat := ofBe c % (n384 - 1) + 1

/-- CRC-16 of R38 over bytes. -/
def crc16 (l : List Byte) : Nat := crcR 0x8408 0xFFFF l ^^^ 0xFFFF

/-- CRC-32 of IEEE 802.3 (R54). -/
def crc32 (l : List Byte) : Nat := crcR 0xEDB88320 0xFFFFFFFF l ^^^ 0xFFFFFFFF

end Sys2Proof.Machine
end

