-- ==== Sys2Proof/Machine/StLine.lean ====
section
/-! DEFINITION. The state of the line modems (Zaruno Line Power-Line Modems). Instants are TAI nanoseconds. -/

namespace Sys2Proof.Machine

/-- A line port descriptor (Table 4-19). -/
structure LDesc where
  enable : Bool := false
  mask : BitVec 26 := 0
  txgain : Nat := 0
  rxlat : Nat := 0
  txlat : Nat := 0
  calperiod : Nat := 0
  lbeacon : Bool := false
  site : Nat := 0
  sfcode : Nat := 0
  sofs : Nat := 0
deriving DecidableEq, Repr

/-- A frame in reception (R116, R101): preamble start on the wire, and its FC with f0 the highest bit once that has passed. -/
structure LRx where
  preAt : Nat
  fc : Option (BitVec 64) := none
deriving DecidableEq, Repr

/-- A RESPONSE owed (R117), with the ack frame that follows an ACCEPT or DUP (R118). -/
structure LResp where
  code : Nat
  /-- The sender's LSA, its PATH, and the mode in which the ack goes to it with the link it belongs to. -/
  dst : Nat
  path : List Nat := []
  tmi : Nat := 1
  link : Nat := 0
  /-- First RESPONSE sample on the wire. -/
  at_ : Nat
  /-- The ack frame, where the frame asked for one. -/
  ack : Option (List (BitVec 8)) := none
  ackreq : Bool := false
  /-- The RESPONSE has gone out with ACCEPT or DUP, and the ack frame follows. -/
  sent : Bool := false
  /-- The decision is awaited from another chip (R379). -/
  remote : Bool := false
deriving DecidableEq, Repr

/-- A transmission on the wire: first sample and end on the wire, TXGAIN and tone mask in force, its FC, and for a DATA frame its TMI, negotiated
map and MAC frame (R96 to R108). -/
structure LAir where
  start : Nat
  stop : Nat
  gain : Nat
  mask : BitVec 26
  fc : BitVec 64
  tmi : Nat := 0
  map : List (BitVec 8) := []
  mac : Option (List (BitVec 8)) := none
deriving DecidableEq, Repr

/-- A MAC frame waiting for the wire, or under way (R116, R119). KIND: 0 DN_CMD, 1 ROUTE_SET, 2 TMAP, 3 LBEACON, 4 campaign, 5 ack. -/
structure LTx where
  kind : Nat
  cls : Nat
  mac : List (BitVec 8)
  dst : Nat
  ticket : BitVec 32 := 0
  mh : Nat := 0
  tries : Nat := 0
  cw : Nat := 4
  /-- The draw of its back-off, 0 to CW − 1 slots, and the slots of it that have run down (R116). -/
  slots : Nat := 0
  used : Nat := 0
  tmi : Nat := 1
  /-- The link it uses: the LSA of its first hop, or 65,536 + MH for an end meter. -/
  link : Nat := 0
  /-- For an LBEACON: the superframe start, TAI s. -/
  start : Nat := 0
  /-- For a DN_CMD: the frame counter, and the command bytes kept until it is sent. -/
  fcnt : BitVec 32 := 0
  body : List (BitVec 8) := []
deriving DecidableEq, Repr

/-- Link state of a neighbour (R111): TMI of the current mode, runs of failures and successes, the last 16 attempts, newest first. -/
structure LLink where
  mode : Nat := 1
  fails : Nat := 0
  succs : Nat := 0
  hist : List Bool := []
deriving DecidableEq, Repr

/-- A route entry (Table 4-18). STATE: 0 free, 1 assigned, 2 ACTIVE, 3 retiring. -/
structure Route where
  ma : BitVec 64 := 0
  parent : Nat := 0
  st : Nat := 0
  depth : Nat := 0
  fails : Nat := 0
  ett : Nat := 0
  heard : Nat := 0
  txmap : List (BitVec 8) := []
  txtmi : Nat := 0
deriving DecidableEq, Repr

/-- A line port. -/
structure LPort where
  desc : LDesc := {}
  next : Option (LDesc × Nat) := none
  ever : Bool := false
  rxlink : Bool := false
  txlink : Bool := false
  txstop : Bool := false
  stopR14 : Bool := false
  resumeAt : Option Nat := none
  afef : Bool := false
  /-- CALBUSY in the current RX word, and whether it has been seen in the calibration under way. -/
  calBusy : Bool := false
  calSeen : Bool := false
  wordNo : Nat := 0
  parityAt : List Nat := []
  missFrm : Nat := 0
  goodRun : Nat := 0
  /-- The last RX sample as it entered the receiver; instants on the wire of samples with OVF = 1 (R98, R112). -/
  chanIn : BitVec 12 := 0
  ovfAt : List Nat := []
  /-- The running noise floor; none before a symbol has been measured (R112). -/
  noise : Option Nat := none
  afefRun : Nat := 0
  afefClearAt : Option Nat := none
  linkUpAt : Nat := 0
  /-- The medium counts as busy until here (R116); LM_BUSY has counted up to it. -/
  busyUntil : Nat := 0
  rx : Option LRx := none
  resp : Option LResp := none
  /-- The attempt whose RESPONSE is awaited: frame, and its end on the wire. -/
  tx : Option (LTx × Nat) := none
  queue : List LTx := []
  nextTicket : BitVec 32 := 0
  lseq : BitVec 16 := 0
  mcnt : BitVec 32 := 0
  links : Map LLink := []
  /-- Transmissions on the wire or about to start. -/
  air : List LAir := []
  /-- Per-carrier SNR of the last 8 frames from a repeater, in tenths of a dB, newest first; the index of the map last issued to it (R109, R110). -/
  snr : Map (List (List Int)) := []
  issued : Map Nat := []
  /-- RX tone maps in force by TMI, 10 bytes each, and the superframe number from which an old one may go. -/
  rxmaps : Map (List (BitVec 8)) := []
  freeAt : Map Nat := []
  /-- Indices replaced by a newer map and not yet freed (R110). -/
  oldMaps : List Nat := []
  routes : Map Route := []
  calReqAt : Option Nat := none
  calAt : Option Nat := none
  lastCal : Nat := 0
  calDefer : BitVec 32 := 0
  lastPump : Nat := 0
deriving DecidableEq, Repr

/-- The line modems. -/
structure Lm where
  ports : Map LPort
  portSel : BitVec 2
deriving DecidableEq, Repr

end Sys2Proof.Machine
end

