-- ==== Sys2Proof/Machine/StCas.lean ====
section
/-! DEFINITION. The state of the Cascade Ports, stack and standby pair (Cascade Stacks and Standby Pairs). -/

namespace Sys2Proof.Machine

/-- A message to send or sent on a link: SRC, DST, MID, content; its flits still to send, and the LSEQ of its first flit once sent. -/
structure CMsg where
  src : Nat
  dst : Nat
  mid : Nat
  m : Flit
  left : Nat := 0
  count : Nat := 0
  lseq : Nat := 0
deriving DecidableEq, Repr

/-- A Cascade Port (Table 14-14). ROLE: Table 14-4. STATE: 0 off, 1 training, 2 up, 3 error, 4 failed. -/
structure CPort where
  role : Nat := 0
  st : Nat := 0
  peerId : Nat := 0
  /-- Unit state that the peer's last HELLO gave. -/
  peerState : Nat := 0
  peerStby : Bool := false
  peerBuild : List (BitVec 8) := []
  /-- Next LSEQ to send, next LSEQ expected, messages with flits kept for a retry (newest first), resends of the oldest. -/
  txSeq : BitVec 16 := 0
  rxSeq : BitVec 16 := 0
  unacked : List CMsg := []
  retries : Nat := 0
  retrySeq : Nat := 0
  /-- Messages waiting, oldest first; the message whose flits are under way; turns given to class 2 since class 3 had one. -/
  txq : List CMsg := []
  cur : Option CMsg := none
  turns : Nat := 0
  credit : Map Nat := []
  /-- RETRY was sent: every flit is discarded until the one expected comes (R370). -/
  retrying : Bool := false
  /-- t1 of the TSYNC exchange under way, the start of the last one, and the delays of the last 8 (R372). -/
  tsyncT1 : Option Nat := none
  tsyncAt : Option Nat := none
  delays : List Nat := []
  /-- Subtree size and depth last reported by the child on this port. -/
  subtree : Option (Nat × Nat) := none
  failedAt : Nat := 0
  /-- Unit state of the last heartbeat of the twin heard here, the instant it came, and heartbeats missed since. -/
  hbState : Nat := 0
  hbAt : Option Nat := none
  hbMiss : Nat := 0
deriving DecidableEq, Repr

/-- A remote frame awaiting its owner's decision (R379). -/
structure Remote where
  mid : Nat
  /-- Source as ING_SRC_SEL, decoding layer for radio. -/
  src : Nat
  layer : Nat
  frameEnd : Nat
  rate : Nat
  unsync : Bool
  lsa : Nat := 0
deriving DecidableEq, Repr

/-- A frame that a standby has decided and not answered (R384, R390): its source, the frame from FCTL to tag, its end, and for a line
frame the link it came over and the RESPONSE its active unit owes. -/
structure Shadowed where
  src : Nat
  frame : List (BitVec 8)
  fe : Nat
  line : Option (Bool × Nat × Nat) := none
  resp : Option LResp := none
deriving DecidableEq, Repr

/-- The class B outputs as they stood when their hold began: its instant, PULSE_OUT, GPIO outputs and enables, and the last words of the radio
and line TX sample links (R391). -/
structure ClassB where
  at_ : Nat
  pulse : BitVec 4 := 0
  out : BitVec 16 := 0
  oe : BitVec 16 := 0
  radio : List (Option (BitVec 50)) := []
  line : List (Option (BitVec 16)) := []
deriving DecidableEq, Repr

/-- A barrier under way at this chip (R382): arrivals by down-port, own thread arrived, first arrival, TMO in µs. -/
structure Barrier where
  own : Bool := false
  ports : List Nat := []
  first : Nat := 0
  tmo : Nat := 0
deriving DecidableEq, Repr

/-- A mirror record sent and not yet acknowledged (R386). -/
structure MirOut where
  seq : Nat
  at_ : Nat
  jseq : Option Nat := none
  /-- The tombstone of a key invalidation waits for it (R317). -/
  tomb : Option Nat := none
deriving DecidableEq, Repr

/-- Cascade and redundancy. -/
structure Cas where
  ports : Map CPort
  paired : Bool
  primary : Bool
  /-- Table 14-9: 0 unpaired, 1 active protected, 2 active unprotected, 3 standby, 4 resynchronising. -/
  pair : Nat
  master : Bool
  detached : Bool
  depth : Nat
  chips : Nat
  sdepth : Nat
  chipId : Nat
  hbNo : BitVec 16
  hbSentAt : Nat
  activeSince : Nat
  phase : Nat
  pct : Nat
  resyncAt : Nat
  gap : BitVec 32
  /-- Partition map; `none` is the default PB mod CHIPS (R378). -/
  partMap : Option (List Nat)
  barriers : Map Barrier
  /-- Snapshot under way at the master: SNAPNO, instant in ns, chips still to report (R382). -/
  snapDue : Option (Nat × Nat × List Nat)
  snapNo : BitVec 16
  snapLsn : BitVec 32
  snapBseq : BitVec 64
  nextMid : Nat
  remotes : List Remote
  mirSeq : Nat
  mirOut : List MirOut
  shadow : List Shadowed
  /-- Class B outputs held (R391): since when, and the PULSE_OUT, GPIO output and GPIO enable levels. -/
  holdB : Option ClassB
  /-- The unit sent FAIL for a fault and passes through reset when its hold ends (R388). -/
  failed : Bool
  twinStates : Nat
  twinBuild : List (BitVec 8)
  /-- After a common activation restart (R428): this unit was active at T, or its twin was. -/
  twinRestart : Option Bool
  handoverAt : Option Nat
  helloAt : Nat
  portSel : BitVec 2
  cntSel : BitVec 5
deriving DecidableEq, Repr

end Sys2Proof.Machine
end

