-- ==== Sys2Proof/Machine/StMadder.lean ====
section
/-! DEFINITION. The state of the Madder cores: threads, slots, memories, event queues, the running image (Akzil Instruction Set and Madder Cores). -/

namespace Sys2Proof.Machine

/-- Privilege levels, Table 9-5. -/
inductive Level where
  | rom | legal | system | task
deriving DecidableEq, Repr

/-- The LEVEL code of Table 9-5. -/
def Level.code : Level → Nat
  | .rom => 0 | .legal => 1 | .system => 2 | .task => 3

/-- The level a code of Table 9-5 names. -/
def Level.ofCode : Nat → Level
  | 0 => .rom | 1 => .legal | 2 => .system | _ => .task

/-- Why a thread is in STALL (Table 9-2). `retry` stalls end by issuing the stalled instruction again. -/
inductive Stall where
  | farLoad (slot rd : Nat)      -- R248: a far load's data is awaited
  | ewait (slot rd : Nat)        -- R262: EWAIT on an outstanding slot
  | fence                        -- R247: FENCE, or an ECALL's fence, waits for far stores
  | noSlot                       -- R261, R248: all sixteen slots are outstanding
deriving DecidableEq, Repr

/-- Thread states, Table 9-2. -/
inductive TState where
  | idle | run | wait | stall (why : Stall) | halted
deriving DecidableEq, Repr

/-- What a call that has run still waits for before it may complete. -/
inductive Wait where
  | journal (jseq : Nat)      -- R136, R183: a journal record to become durable
  | keyTable                  -- R320: the key table to become durable
  | tomb (slot : Nat)         -- R317: an invalidation's commit
  | epmin (slot : Nat)        -- R314: a raised EPMIN's commit
  | row (idx : Nat)           -- R350: a shared row's confirmations
  | barrier (id : Nat)        -- R382: a stack barrier
  | snapshot                  -- R383: the stack's snapshot reports
  | macTx (mac n : Nat)       -- R358: a frame's last bit
  | volume (n : Nat)          -- R272: a host-volume write to become durable
  | insert (id : Nat)         -- R138: a DIR_INSERT whose relocations wait
  | remove (mh : Nat)         -- R150: a DIR_REMOVE that waits for held frames
  | maint (id : Nat)          -- R181: a rebase or final close behind earlier readings
  | format                    -- R219: a format to become durable
  | clear (n : Nat)           -- R446: a recorder clear
  | step                      -- R179: a STEP boundary record
  | seal                      -- R187: a Sepia seal record
  | otp                       -- R306: OTP programming
  | handover                  -- R389: a planned switch-over
deriving DecidableEq, Repr

/-- What holds an outstanding slot (R261, R248), with what its completion writes. -/
inductive Pend where
  /-- An engine call: its DMEM block, the bytes it writes back by offset, its status, and the journal or key-table record it waits on. -/
  | call (fn blk : Nat) (out : List (Nat × List (BitVec 8))) (status : Nat) (waits : Option Wait)
  /-- A far load of `size` bytes at `addr`, sign-extended or not; an AMO carries its operation and operands. -/
  | farLoad (addr size : Nat) (sext : Bool)
  /-- An AMO executed at the bank (R247): operation, rb and the old rd. -/
  | farAmo (addr op : Nat) (rb rd : BitVec 64)
  /-- A posted far store awaiting its bank's acknowledgement. -/
  | farStore
deriving DecidableEq, Repr

/-- One of a thread's sixteen slots (R261): what is outstanding, and the status not yet consumed. -/
structure Slot where
  pend : Option Pend := none
  status : Option (BitVec 16) := none
deriving DecidableEq, Repr

/-- The registers a legal call saves (R250) and what is needed to end it. -/
structure Shadow where
  regs : Map (BitVec 64) := []
  preds : BitVec 8 := 1
  level : Level := .system
  ret : BitVec 64 := 0
  gate : Nat := 0
  /-- CYCLE at the entry of the legal call (R252). -/
  started : BitVec 64 := 0
deriving DecidableEq, Repr

/-- A hardware thread (R240 to R243). Registers that read 0 are not listed; bit 0 of `preds` is p0. -/
structure Thread where
  regs : Map (BitVec 64) := []
  preds : BitVec 8 := 1
  pc : BitVec 64 := 0
  st : TState := .idle
  level : Level := .system
  base : Level := .system
  evec : BitVec 64 := 0
  epc : BitVec 64 := 0
  ecause : BitVec 64 := 0
  eval : BitVec 64 := 0
  exc : Bool := false
  evmask : BitVec 16 := 0
  evbuf : BitVec 64 := 0
  dispatch : Bool := false
  rtag : BitVec 64 := 0
  evseq : BitVec 64 := 0
  ecmask : BitVec 16 := 0
  shbase : BitVec 64 := 0
  shlen : BitVec 64 := 0
  /-- The period of WDOG in force, and the one SYSTEM last wrote (Table 9-3). -/
  wdog : BitVec 64 := 0
  /-- CYCLE when the watchdog's count last restarted (R277). -/
  wdogAt : BitVec 64 := 0
  timer : BitVec 64 := 0
  /-- The TIMER event has fired since TIMER was last written. -/
  timerFired : Bool := false
  elost : BitVec 64 := 0
  /-- TAI_NS as latched by the last TAI_S read (R243). -/
  taiNs : BitVec 64 := 0
  slots : Map Slot := []
  shadow : Option Shadow := none
  /-- Level, code and EVAL of the last exception, halts and legal faults included (R282). -/
  faultLevel : Level := .rom
  faultCode : Nat := 0
  faultEval : BitVec 64 := 0
  /-- MCC_STOP has been asked for (R271). -/
  stopAsked : Bool := false
  /-- EXIT has issued and waits for the thread's slots (R259). -/
  exiting : Bool := false
  /-- The pool units of the event the thread last took, released at IDLE or HALTED (R291): the REF of that event. -/
  tookRef : Option (BitVec 64) := none
deriving DecidableEq, Repr

/-- An event ready for delivery (R273, Table 9-15). -/
structure Ev where
  seq : BitVec 32
  ref : BitVec 64
  body : List (BitVec 8)
  rtag : BitVec 64 := 0
deriving DecidableEq, Repr

/-- A row of the image's entry table (R279). -/
structure Entry where
  eno : Nat
  addr : Nat
  level : Level
  src : Nat
deriving DecidableEq, Repr

/-- The loaded image as the part keeps it after boot (R278, R279, R280). -/
structure Image where
  role : Nat
  secver : BitVec 32
  build : List (BitVec 8)
  legdig : List (BitVec 8)
  entries : List Entry
deriving DecidableEq, Repr

/-- The Madder cores. Memories list the bytes that are not zero (R279: memory that no segment covers holds zero). -/
structure Mcc where
  threads : Map Thread
  /-- IMEM bytes, key core × 0x10000 + address. -/
  imem : Map (BitVec 8)
  /-- DMEM bytes, key core × 0x10000 + address. -/
  dmem : Map (BitVec 8)
  /-- Shared Madder SRAM SB92 to SB94, key offset from 0x1000_0000. -/
  shared : Map (BitVec 8)
  /-- Poisoned 64-bit words (R19, R246): of IMEM and DMEM by byte key / 8, of the shared window by offset / 8. -/
  poisonImem : Map Bool
  poisonDmem : Map Bool
  poisonShared : Map Bool
  /-- Words of IMEM and DMEM, by byte key / 8, in which one bit has flipped: SECDED corrects it at the next read (R246). -/
  flipImem : Map Bool
  flipDmem : Map Bool
  /-- CORE_CLK cycles since reset of the cores (R243). -/
  cycle : BitVec 64
  /-- Event queues by source number; TIMER and SIGNAL of thread t at 256 × source + t (Table 9-14). -/
  queues : Map (List Ev)
  /-- Per-source sequence and pending OVF mark (R273). -/
  seqs : Map (BitVec 32)
  ovf : Map Bool
  image : Option Image
  /-- MCC_STAT.LEGAL: 0 absent, 1 loaded, 2 refused (R253). -/
  legal : Nat
  thrSel : BitVec 8
  cntSel : BitVec 5
deriving DecidableEq, Repr

end Sys2Proof.Machine
end

