-- ==== Sys2Proof/Machine/StHost.lean ====
section
/-! DEFINITION. The state of the Host Port: queues, commands in flight, sessions, notices, MSI-X, the Ethernet command channel (Host Port, Commands and Notices). -/

namespace Sys2Proof.Machine

/-- Where a session or a command came from: PCIe, MAC0 or MAC1 (R292). -/
inductive Carrier where
  | pcie | mac0 | mac1
deriving DecidableEq, Repr

/-- CARRIER code of HOST_AUTH_ALARM (Table 10-12). -/
def Carrier.code : Carrier → Nat
  | .pcie => 0 | .mac0 => 1 | .mac1 => 2

/-- One submission and completion queue pair, as written and as latched by EN (R286, R288, R304). -/
structure QPair where
  sqBase : BitVec 64 := 0
  cqBase : BitVec 64 := 0
  /-- HP_Q_CTL as last written: EN[31] VEC[28:24] COAL[23:16] TMO[15:8]. -/
  ctl : BitVec 32 := 0
  en : Bool := false
  sqBaseL : BitVec 64 := 0
  cqBaseL : BitVec 64 := 0
  vec : Nat := 0
  tmo : Nat := 0
  err : Nat := 0
  /-- The queue was stopped by an error and fetches nothing. -/
  stopped : Bool := false
  sqHead : Nat := 0
  tail : Nat := 0
  cqTail : Nat := 0
  cqHead : Nat := 0
  /-- EN was set while DRAIN = 1 and takes effect when DRAIN clears (R288). -/
  enWaits : Bool := false
deriving DecidableEq, Repr

/-- How far a fetched command has come. -/
inductive Stage where
  | judged       -- the checks of R289 passed; waits for delivery or execution
  | delivered    -- delivered as an event to a thread
  | registered   -- its completion is registered and waits to be written
deriving DecidableEq, Repr

/-- A command in flight (R286): as fetched, with its data, and its completion once registered. -/
structure Cmd where
  raw : List (BitVec 8)
  data : List (BitVec 8) := []
  /-- 0 to 15 for submission queues, 16 MAC0, 17 MAC1. -/
  sqid : Nat
  stage : Stage := .judged
  pool : Option (Nat × Nat) := none
  deliveredAt : Nat := 0
  /-- Completions of disabled queues, and of the Host Port before a reset, are discarded and counted. -/
  discard : Bool := false
  /-- The session was closed after delivery (R294). -/
  closed : Bool := false
  status : Nat := 0
  result : BitVec 64 := 0
  resp : Option (List (BitVec 8)) := none
  /-- What the command still waits for before its completion may be registered. -/
  waits : Option Wait := none
  /-- XID and source address of the datagram, for commands over Ethernet. -/
  xid : BitVec 32 := 0
  src : Nat := 0
  /-- K_S of the command's session; empty for SID 0. -/
  ks : List (BitVec 8) := []
  /-- Fetch and registration order. -/
  no : Nat := 0
  regAt : Nat := 0
deriving DecidableEq, Repr

/-- A session, pending or open (R292, R293, R321). -/
structure Session where
  open_ : Bool := false
  role : Nat := 0
  cred : Nat := 0
  carrier : Carrier := .pcie
  nh : List (BitVec 8) := []
  nd : List (BitVec 8) := []
  ks : List (BitVec 8) := []
  hcnt : BitVec 32 := 0
  wbits : BitVec 64 := 0
  empty : Bool := true
  exhausted : Bool := false
  /-- TAI nanoseconds of the AUTH_FAIL answers not yet a second old (R293). -/
  fails : List Nat := []
  src : Nat := 0
  openedAt : Nat := 0
deriving DecidableEq, Repr

/-- A posted notice (Table 10-11). -/
structure Notice where
  code : Nat
  cls : Nat
  nseq : BitVec 32
  timeInv : Bool
  tai : Nat
  args : List (BitVec 8)
  /-- Held in the overflow store (R299). -/
  held : Bool := false
deriving DecidableEq, Repr

/-- The notice queue (R299). -/
structure NoticeQ where
  base : BitVec 64 := 0
  ctl : BitVec 32 := 0
  en : Bool := false
  baseL : BitVec 64 := 0
  size : Nat := 0
  vec : Nat := 0
  err : Nat := 0
  tail : Nat := 0
  head : Nat := 0
  nseq : BitVec 32 := 0
  lostDue : Bool := false
  waiting : List Notice := []
deriving DecidableEq, Repr

/-- One MAC's command channel (R302, R303): answers of the last 256 commands, keyed by SID, CCNT and TAG, and the notice route. -/
structure EthChan where
  cache : List ((Nat × Nat × Nat) × List (BitVec 8)) := []
  /-- SID whose source address takes routed notices. -/
  route : Option Nat := none
  gathered : List Notice := []
  firstAt : Nat := 0
deriving DecidableEq, Repr

/-- The Host Port. -/
structure Hp where
  dlup : Bool
  width : Nat
  speed : Nat
  d3hot : Bool
  qSel : BitVec 4
  queues : Map QPair
  /-- The queue that the last fetch served (R286). -/
  turn : Nat
  cmds : List Cmd
  /-- Commands fetched and completions registered, for their order (R287, R289 FENCE). -/
  fetched : Nat
  regs : Nat
  sessions : Map Session
  /-- Per carrier code: PROOF failures' instants and the end of a lockout (R322). -/
  proofFails : Map (List Nat)
  lockout : Map Nat
  /-- Notice codes suppressed by NOTICE_MASK (R297). -/
  mask : Map Bool
  nq : NoticeQ
  /-- Pool units of 4 KiB in use, of 128 (R291). -/
  poolUsed : Map Bool
  /-- Buffers of commands that timed out, until their threads let go of them: REF, first unit, units (R291, R296). -/
  stale : List (BitVec 64 × Nat × Nat)
  msix : Map (BitVec 8)
  pba : BitVec 18
  /-- Per vector: an entry not yet signalled, and the end of its coalescing time in TAI ns. -/
  coalEnd : Map Nat
  eth : Map EthChan
  cntSel : BitVec 5
deriving DecidableEq, Repr

end Sys2Proof.Machine
end

