-- ==== Sys2Proof/Machine/StMac.lean ====
section
/-! DEFINITION. The state of the Ethernet MACs (Ethernet MACs). -/

namespace Sys2Proof.Machine

/-- A MAC configuration (Table 13-3). -/
structure MacCfg where
  addr : List (BitVec 8) := []
  maxlen : Nat := 1518
  ratepol : Nat := 0
  enable : Bool := false
  wakeLink : Bool := false
  promisc : Bool := false
  txpause : Bool := false
  rxpause : Bool := false
  hiwat : Nat := 0
  lowat : Nat := 0
  pquanta : Nat := 0
  ipv4 : List (BitVec 8) := []
  ipv6 : List (BitVec 8) := []
  cmdport : Nat := 0
  mcast : List (List (BitVec 8)) := []
deriving DecidableEq, Repr

/-- A frame in the transmit queue (R358): the bytes without FCS, STAMP asked for, and the number its call waits on. -/
structure TxFrame where
  bytes : List (BitVec 8)
  stamp : Bool := false
  onestep : Bool := false
  /-- 0 for a datagram of the Host Port. -/
  id : Nat := 0
  /-- The address and port a datagram of the Host Port goes to. -/
  dst : Option Nat := none
  /-- Steps of time counted when the stamp was asked for (Table 12-4, STEPPED). -/
  steps : Nat := 0
deriving DecidableEq, Repr

/-- A posted receive buffer (R361). -/
structure RxBuf where
  thread : Nat
  buf : Nat
  len : Nat
  cookie : Nat
deriving DecidableEq, Repr

/-- One MAC. -/
structure MacSt where
  cfg : Option MacCfg := none
  cfgok : Bool := false
  blockLock : Bool := false
  link : Bool := false
  rate : Nat := 0
  fill : Nat := 0
  peak : Nat := 0
  posted : List RxBuf := []
  txq : List TxFrame := []
  dgrams : List TxFrame := []
  lastWasDgram : Bool := false
  nextId : Nat := 1
  /-- TAI ns until which a received PAUSE holds transmission. -/
  pausedTill : Option Nat := none
  /-- When that PAUSE was received: a frame begun by then goes (R362). -/
  pausedAt : Nat := 0
  xoff : Bool := false
  xoffAt : Nat := 0
  /-- Wake patterns 0 to 7: MASK and VALUE of an enabled one (R363). -/
  pats : Map (Nat × List (BitVec 8)) := []
  armed : Bool := false
  /-- The frame that woke the part, its length on the wire without FCS, and its stamp (R364). -/
  kept : Option (List (BitVec 8) × Nat × List (BitVec 8)) := none
  rxSeq : Nat := 0
  /-- The last Pdelay_Req received: sequenceId and its stamp in 2^-16 ns, from which a one-step Pdelay_Resp takes its turnaround (R338). -/
  pdelay : Option (Nat × Int) := none
  cntSel : BitVec 5 := 0
deriving DecidableEq, Repr

end Sys2Proof.Machine
end

