-- ==== Sys2Proof/Machine/StOut.lean ====
section
/-! DEFINITION. What the part sends, as a record of its outputs, newest first (the model's own field, log 4). -/

namespace Sys2Proof.Machine

/-- One output of the part. -/
inductive Out where
  | host (addr : Nat) (bytes : List (BitVec 8))            -- a write to host memory (R287)
  | msix (addr data : Nat)                                 -- an MSI-X message: address and data of its table entry (R287)
  | radio (port lane rate start : Nat) (frame : List (BitVec 8)) -- a frame on the air from FCTL on; start: first preamble bit, TAI ns
  | line (port : Nat) (frame : List (BitVec 8))            -- a line frame: FC bytes, then body
  | lineResp (port code : Nat) (bytes : List (BitVec 8))   -- a line RESPONSE (R117)
  | calPin (port : Nat) (level : Bool)                     -- LPn_CAL (R128)
  | mac (mac : Nat) (frame : List (BitVec 8))              -- an Ethernet frame
  | udp (mac dst : Nat) (bytes : List (BitVec 8))          -- a channel datagram to an address and port (R301, R303)
  | cas (port src dst mid : Nat) (m : Flit)                -- a Cascade message, its last flit sent
  | casWord (port kind arg seq arg2 : Nat)                 -- a Cascade link word (Table 14-3)
  | retry (link seq : Nat)                                 -- a fabric retry request (R15)
  | nand (ch tgt : Nat) (cmd row : List Nat) (col : Nat) (data : List (BitVec 8)) -- an ONFI command: opcodes, row as LUN, block, page (R210)
  | tap (bits : Nat)                                       -- a value captured for JTAG read-out (R456)
deriving DecidableEq, Repr

end Sys2Proof.Machine
end

