-- ==== Sys2Proof/Machine/StPower.lean ====
section
/-! DEFINITION. The state of the CPM block and Ochre (Operating Modes, Power and Bring-Up; Balls, Electrical and Mechanical Data). -/

namespace Sys2Proof.Machine

/-- A drain in progress (R414, R427, R430), or the commit into VIGIL (R415). -/
inductive Drain where
  | none | vigil | commit | activation | fallback
deriving DecidableEq, Repr

/-- The CPM block and Ochre. -/
structure Cpm where
  lastRst : Nat
  ochreWarm : Bool
  slowFail : Bool
  vreq : Bool
  pfail : Bool
  pgood : Bool
  pwrenNand : Bool
  pwrenCore : Bool
  /-- PORST_N is high and the part is out of its reset: TEST_N was high at the rise (R465). -/
  porstN : Bool
  vidTarget : BitVec 4
  vidCode : BitVec 4
  vidAt : Nat
  opmin : BitVec 32
  pcycle : BitVec 32
  opminPosted : Bool
  pcyclePosted : Bool
  holdup : BitVec 32
  pfailAt : Nat
  replay : Bool
  wakeSrc : Nat
  /-- A wake source latched during commit (R416). -/
  latched : Option Nat
  vigilAt : Nat
  vspan : BitVec 32
  vrefuse : Nat
  cntSel : BitVec 4
  drain : Drain
  /-- An internal reset that is due, with the LASTRST code it leaves (R399). -/
  resetDue : Option Nat
  /-- Junction temperature below 0 °C: forward body bias (Table 15-5). -/
  cold : Bool
  /-- The LASTRST code that the next reset release out of OFF leaves: 0, or with Ochre powered 1 or 2. -/
  cause : Nat
  gpioIn : BitVec 16
  gpioOut : BitVec 16
  gpioOe : BitVec 16
  /-- What the isolation cells hold through OFF: PULSE_OUT, GPIO outputs and their enables (Table 15-6a). -/
  iso : Option (BitVec 4 × BitVec 16 × BitVec 16)
  tempMax : BitVec 8
  tempNow : BitVec 8
  tempTrip : Bool
  /-- A reading has been taken since PORST_N rose. -/
  tempSeen : Bool
  /-- GPIO[0] as sampled at the last PORST_N rise (R464). -/
  strap : Bool
deriving DecidableEq, Repr

end Sys2Proof.Machine
end

