-- ==== Sys2Proof/Machine/StRec.lean ====
section
/-! DEFINITION. The state of the event recorder, Sepia, self-test, freeze, JTAG (Event Recorder, Sepia, Self-Test and Freeze) and of the GLB block and fabric (Architecture and Data Flow). -/

namespace Sys2Proof.Machine

/-- An event record (Table 17-1) with the ring segment it lies in, its byte position over all segments, and whether it has landed. -/
structure EvRec where
  typ : Nat
  opmin : BitVec 32
  pcycle : BitVec 32
  flags : Nat
  eseq : BitVec 64
  tai : Nat
  data : List (BitVec 8)
  seg : Nat := 0
  pos : Nat := 0
  landed : Bool := false
deriving DecidableEq, Repr

/-- A Sepia record (Table 17-4) with its first slot and slot count. -/
structure SepRec where
  typ : Nat
  opmin : BitVec 32
  pcycle : BitVec 32
  sseq : BitVec 32
  tai : Nat
  body : List (BitVec 8)
  slot : Nat
  n : Nat
deriving DecidableEq, Repr

/-- One counter copy of the Sepia header (Table 17-3). -/
structure CtrCopy where
  opmin : BitVec 32 := 0
  pcycle : BitVec 32 := 0
  cseq : BitVec 32 := 0
deriving DecidableEq, Repr

/-- Sepia in eMRAM (R447): records oldest last, in two areas. -/
structure Sepia where
  pinned : List SepRec
  pinnedUsed : Nat
  /-- The slot kept from a seal until its UNSEAL record (R449). -/
  reserved : Bool
  ring : List SepRec
  ringSlot : Nat
  sseq : BitVec 32
  copies : CtrCopy × CtrCopy
deriving DecidableEq, Repr

/-- A clear of the event recorder under way (R446): its number, the ESEQ of its EVENTS_CLEARED record and its COUNT. -/
structure Clearing where
  no : Nat
  eseq : BitVec 64
  n : Nat
deriving DecidableEq, Repr

/-- The event recorder (R441 to R446). -/
structure Recorder where
  /-- Records in the ring, oldest first. -/
  ring : List EvRec
  /-- Byte position of the next record, counted over all segments ever opened. -/
  pos : Nat
  /-- Records waiting for Lake READY, oldest first, and the drops among them. -/
  staged : List EvRec
  dropped : Nat
  eseq : BitVec 64
  /-- Records below this ESEQ were cleared (R446). -/
  clearedBelow : BitVec 64
  wrapped : Bool
  /-- The clear under way, and those that wait for Lake READY or for it, oldest first: number, ROLE and SID (R446). -/
  clearing : Option Clearing
  clears : List (Nat × Nat × Nat)
  /-- Number of the next clear. -/
  clearNo : Nat
deriving DecidableEq, Repr

/-- Self-test, freeze and JTAG state (R450 to R460). -/
structure SelfTest where
  fullNext : Bool
  halt : Bool
  scope : Bool
  result : Bool
  running : Bool
  /-- Bank under online test; 0x7F none. -/
  bank : Nat
  /-- The next bank of the rotation: 95 first, then 0 to 94 (R452). -/
  nextBank : Nat
  failed : BitVec 32
  failedNow : BitVec 32
  /-- No relocation for the rest of the power cycle (R452, R453). -/
  sramStopped : Bool
  /-- TAI ns of the last step of the online test (R452). -/
  testAt : Nat
  /-- DEBUG_ENABLED is to be written once Lake is READY (R458). -/
  debugDue : Bool
  /-- Crypto units taken out of service: item × 256 + unit (R453). -/
  unitsOut : Map Bool
  frozen : Bool
  /-- JTAG instruction register, debug address and TAPUSED (R456, R460). -/
  ir : BitVec 6
  daddr : BitVec 64
  tapUsed : Bool
  /-- The last DDATA capture: status and data. -/
  ddata : BitVec 66
  spPage : BitVec 8
  cntSel : BitVec 4
deriving DecidableEq, Repr

/-- Operating modes (R399); the codes are those of GLB_MODE.MODE, with OFF outside them. -/
inductive Mode where
  | off | bringup | service | standby | holdup | vigil
deriving DecidableEq, Repr

/-- GLB_MODE.MODE; OFF is never read. -/
def Mode.code : Mode → Nat
  | .off => 0 | .bringup => 1 | .service => 2 | .standby => 3 | .holdup => 4 | .vigil => 5

/-- State of a fabric link (GLB_FAB_STATE). -/
inductive LinkSt where
  | up | retrying | failed
deriving DecidableEq, Repr

/-- One unidirectional fabric link (R15): at its sender the next SEQ, the last 32 transmitted flits, oldest first, and the flits to send
again; at its receiver the expected SEQ and the retries of the flit under way. -/
structure FabLink where
  st : LinkSt := .up
  nextSeq : BitVec 6 := 0
  sent : List (BitVec 320) := []
  resend : List (BitVec 320) := []
  expSeq : BitVec 6 := 0
  retries : Nat := 0
deriving DecidableEq, Repr

/-- A bank copy to or from SB95 (R20). -/
inductive Reloc where
  | none | copyOut | active | copyBack
deriving DecidableEq, Repr

/-- The GLB block, clocks and fabric. -/
structure Glb where
  slot : Bool
  clkSrc : Bool
  /-- TAI ns at the switch to the backup oscillator (CLOCK_RESTORED.DURATION). -/
  clkLostAt : Nat
  /-- REFCLK has been stable for 10 ms and the PLL is relocking (R14). -/
  relocking : Bool
  reduced : Bool
  mode : Mode
  nqOvf : Bool
  fabSel : BitVec 7
  links : Map FabLink
  /-- Both paths between two routers cross failed links: service has stopped (R16). -/
  cut : Bool
  /-- FAB_CLK cycles until a pending capture; `none` when none is pending (R22). -/
  snapIn : Option Nat
  snapSeq : BitVec 32
  spareBank : Nat
  reloc : Reloc
  /-- Poisoned words of the shared SRAM: key byte offset / 8 over SB0 to SB95 (R19). -/
  poison : Map Bool
  /-- Flipped bits of a stored word not yet read, by the same key: 1 is correctable, 2 is not (R19). -/
  upsets : Map Nat
deriving DecidableEq, Repr

end Sys2Proof.Machine
end

