-- ==== Sys2Proof/Machine/State.lean ====
section
/-! DEFINITION. The whole state of a ZN8100, the reasons a step can stop, and the state after reset. -/

namespace Sys2Proof.Machine

/-- Reasons a step stops with a fault. No meaning raises one: the part takes every command the spec gives it. -/
inductive Fault where
  /-- Raised by no meaning of this model; safe. -/
  | unused
deriving DecidableEq, Repr

/-- Reasons a command is refused. -/
inductive Refusal where
  /-- The command has no meaning yet; raised by exec's arms alone; safe. -/
  | notModelled (mnemonic : String)
deriving DecidableEq, Repr

/-- The state of one ZN8100 and the commands waiting for it. -/
structure State where
  glb : Glb
  /-- Statistics counters, live and as last captured (R22); the keys are those of Machine/Ops.lean. -/
  ctr : Map (BitVec 64)
  cap : Map (BitVec 64)
  mcc : Mcc
  hp : Hp
  tmu : Tmu
  evr : Recorder
  sepia : Sepia
  stest : SelfTest
  woad : Woad
  /-- The 8 KiB OTP array, bytes that are not zero (Table 11-1). -/
  otp : Map (BitVec 8)
  rla : Rla
  lm : Lm
  ing : Ing
  /-- Frames past plausibility, waiting for the Ledger Unit and the Balance Engine (R154). -/
  pass : List PassFrame
  ldg : Ldg
  bal : Bal
  lake : Lake
  macs : Map MacSt
  cas : Cas
  upd : Upd
  cpm : Cpm
  /-- Outputs, newest first (log 4). -/
  out : List Out
  /-- The number of free values drawn so far (log 5). -/
  free : Nat
  /-- Commands waiting, first in first out (log 1). -/
  pending : List Instr
deriving DecidableEq, Repr

/-! ## Reset (values the spec does not give: log 2) -/

/-- GLB after reset (Table 1-7). -/
def Glb.reset : Glb :=
  { slot := false, clkSrc := false, clkLostAt := 0, relocking := false, reduced := false, mode := .bringup,
    nqOvf := false, fabSel := 0, links := [], cut := false, snapIn := none, snapSeq := 0, spareBank := 0x7F, reloc := .none, poison := [], upsets := [] }

/-- Madder after reset (R241): thread 0 of core 0 runs the boot ROM, every other thread is IDLE. -/
def Mcc.reset : Mcc :=
  { threads := [(0, { st := .run, level := .rom, base := .rom })], imem := [], dmem := [], shared := [],
    poisonImem := [], poisonDmem := [], poisonShared := [], flipImem := [], flipDmem := [], cycle := 0, queues := [], seqs := [], ovf := [],
    image := none, legal := 0, thrSel := 0, cntSel := 0 }

/-- The Host Port after reset (Table 10-14). -/
def Hp.reset : Hp :=
  { dlup := false, width := 0, speed := 0, d3hot := false, qSel := 0, queues := [], cmds := [], fetched := 0, regs := 0, sessions := [],
    turn := 15, proofFails := [], lockout := [], mask := [], nq := {}, poolUsed := [], stale := [], msix := (List.range 18).map (fun i => (16 * i + 12, 1#8)), pba := 0, coalEnd := [],
    eth := [], cntSel := 0 }

/-- The Time Unit after reset (Tables 12-1, 12-2, TMU_STAT). -/
def Tmu.reset : Tmu :=
  { sec := 0, ns := 0, frac := 0, adj := 0, heldAdj := 0, hist := [], st := .freerun, valid := false, invCause := 3, source := 0,
    stepReq := none, clkFault := false, sel := {}, ptp := {}, offset := 0, filtered := 0, rejects := 0, good := 0,
    asMeasured := false, corr := 0, left := 0, lastSample := none, policy := {}, latS := 0, latNs := 0, rows := [],
    awaiting := [], pulse := 0, pulseEnd := [], macLat := [], cntSel := 0 }

/-- The event recorder after reset. -/
def Recorder.reset : Recorder :=
  { ring := [], pos := 0, staged := [], dropped := 0, eseq := 0, clearedBelow := 0, wrapped := false, clearing := none, clears := [], clearNo := 0 }

/-- Sepia as an empty eMRAM holds it. -/
def Sepia.reset : Sepia :=
  { pinned := [], pinnedUsed := 0, reserved := false, ring := [], ringSlot := 0, sseq := 0, copies := ({}, {}) }

/-- Self-test, freeze and JTAG after reset. -/
def SelfTest.reset : SelfTest :=
  { fullNext := false, halt := false, scope := false, result := false, running := false, bank := 0x7F, nextBank := 95,
    failed := 0, failedNow := 0, sramStopped := false, testAt := 0, debugDue := false, unitsOut := [], frozen := false, ir := 0x02,
    daddr := 0, tapUsed := false, ddata := 0, spPage := 0, cntSel := 0 }

/-- Woad after reset: every keyslot EMPTY. -/
def Woad.reset : Woad :=
  { life := .unfixed, owner := 0, debugSub := false, slots := [], bcast := {}, cfloor := [], durSlots := [],
    durBcast := {}, durCfloor := [], durHw := 0, bseq := 0, hw := 0, pending := [], queued := [], otpFail := false, otpBusy := false,
    scrubMax := 0, statement := none, slotSel := 0, cntSel := 0 }

/-- The ingest pipeline after reset: every directory entry FREE. -/
def Ing.reset : Ing :=
  { dir := [], dirPoison := [], cmdSlots := [], strangers := [], strangerOvf := false, staging := [], restore := false,
    dirload := false, rows := [], backoff := [], inserts := [], nextInsert := 0, syncSf := [], removes := [], srcSel := 0, codeSel := 0, plSel := 0 }

/-- An empty ledger. -/
def LData.empty : LData :=
  { meters := [], calIn := [], calSt := [], period := [], force := [], blog := [], dirLog := [],
    moveLog := [], nodeLog := [], policy := none }

/-- The Ledger Unit after reset (Table 6-12). -/
def Ldg.reset : Ldg :=
  { live := .empty, dur := .empty, jq := [], jlog := [], jpos := 0, jseq := 0, bseq := 0, evalT := 0, sweepNext := 0, sweeping := false,
    replay := false, outages := [], pfailAt := none, nkeep := 36, stepFrom := 0, stepTo := 0, span := none,
    stepPending := none, maint := [], nextMaint := 0, protArea := [], protect := false, sealed := false, unseals := 0, pin := false,
    sealPending := none, unsealDue := none, cntSel := 0 }

/-- The Balance Engine after reset (Table 7-9). -/
def Bal.reset : Bal :=
  { nodes := [], cfg := none, next := none, lastClose := 0, stackE := none, partials := [], portsIn := [],
    missed := false, hold := false, fresh := false, early := [], bitmapFor := 0, judging := false, verdicts := [], closeFlags := 0, holdMax := 0, serviceAt := 0, cntSel := 0 }

/-- Lake after reset, on blank media. -/
def Lake.reset : Lake :=
  { ready := false, rebuild := false, inited := false, wpHigh := false, geom := {}, formatted := false, factoryBad := [], absent := [], lunFailed := [],
    lunErrs := [], blocks := [], stripes := [], openStripe := [], nextStripe := 0, wseq := 0, chunks := [], maps := [], bad := [], victims := [],
    ledgerQuota := 0, logQuota := 0, pool := 0, poolTotal := 0, volGiB := 0, landGiB := 0, nkeepMax := 36, fmtid := 0,
    aseq := 0, anchorBlk := 0, anchorPage := 0, mjseq := 0, mjStaged := [], mjChunks := 0, mjOpened := [], mjDue := false,
    lastFlush := 0, lastCkpt := 0, ckptMj := 0, heackDur := 0, trimmed := [], ckptTime := 0, log := [],
    lsnHead := 0, logOff := 0, lsnTail := 0, heack := 0, creditsUsed := 0, logFull := false, protect := false,
    volFull := false, landFull := false, landing := [], parity := [], gcAct := false, vol := [], volPend := [], nextVol := 1,
    bring := [], banks := [], rp0 := none, casCfg := none, partMap := none, camps := [], nodeCopy := [], nodeJseq := 0, groupJseq := [], lifePosted := (0, 0), spareLow := (false, false),
    stepReads := [], prog24 := [], rebuildMs := 0, lastZq := 0, patrolAt := 0, patrolPos := 0, fetch := [], lunSel := 0, cntSel := 0 }

/-- Cascade and redundancy after reset (CAS_STAT 0x8001_0000: a master alone). -/
def Cas.reset : Cas :=
  { ports := [], paired := false, primary := false, pair := 0, master := true, detached := false, depth := 0, chips := 1,
    sdepth := 0, chipId := 0, hbNo := 0, hbSentAt := 0, activeSince := 0, phase := 0, pct := 0, resyncAt := 0,
    gap := 0, partMap := none, barriers := [], snapDue := none, snapNo := 0, snapLsn := 0,
    snapBseq := 0, nextMid := 0, remotes := [], mirSeq := 0, mirOut := [], shadow := [], holdB := none, failed := false, twinStates := 0,
    twinBuild := [], twinRestart := none, handoverAt := none, helloAt := 0, portSel := 0, cntSel := 0 }

/-- The update engine after reset. -/
def Upd.reset : Upd :=
  { aFirst := 0, bFirst := 0, aNblk := 0, bNblk := 0, active := 0, stA := 0, stB := 0, tries := 0, gen := false,
    lock := false, confirmBy := 0, genck := 0, imglen := 0, units := [], actT := 0, window := 0, volGen := none,
    lastRef := 0, recovery := false, rcrc := 0, rstat := 0, rwin := [], runits := [], camps := [],
    activatedDue := false, fallbackDue := false, cntSel := 0 }

/-- CPM and Ochre after reset (CPM_STAT 0x0000_000E, CPM_VID 0x0A0A). -/
def Cpm.reset : Cpm :=
  { lastRst := 0, ochreWarm := false, slowFail := false, vreq := false, pfail := false, pgood := true, pwrenNand := true,
    pwrenCore := true, porstN := true, vidTarget := 10, vidCode := 10, vidAt := 0, opmin := 0, pcycle := 0,
    opminPosted := false, pcyclePosted := false, holdup := 0, pfailAt := 0, replay := false, wakeSrc := 0,
    latched := none, vigilAt := 0, vspan := 0, vrefuse := 0, cntSel := 0, drain := .none,
    cold := false, resetDue := none, cause := 0, gpioIn := 0, gpioOut := 0, gpioOe := 0, iso := none, tempMax := 0, tempNow := 0,
    tempTrip := false, tempSeen := false, strap := false }

/-- The machine right after reset, OTP unprogrammed, NAND and eMRAM blank, no command waiting (log 2). -/
def State.reset : State :=
  { glb := .reset, ctr := [], cap := [], mcc := .reset, hp := .reset, tmu := .reset, evr := .reset, sepia := .reset,
    stest := .reset, woad := .reset, otp := [],
    rla := { ports := [], layers := [], acks := [], busy := [], wakes := [], laneSel := 0, dutySel := 0 },
    lm := { ports := [], portSel := 0 }, ing := .reset, pass := [], ldg := .reset, bal := .reset, lake := .reset,
    macs := [], cas := .reset, upd := .reset, cpm := .reset, out := [], free := 0, pending := [] }

end Sys2Proof.Machine
end

