-- ==== Sys2Proof/Machine/Ops.lean ====
section
/-! DEFINITION. The operations every block shares: time read-out, statistics counters, free values, notices, event records, Sepia, modes. -/

namespace Sys2Proof.Machine

/-- What a meaning answers: always a next state. -/
abbrev Result := Host.Outcome State Fault Refusal

/-! ## Statuses (Tables 9-11, 10-6, 11-13) -/

def stOk : Nat := 0
def stBadFunc : Nat := 1
def stPriv : Nat := 2
def stAccessFault : Nat := 3
def stBadArg : Nat := 4
def stPoisoned : Nat := 5
def stNotFound : Nat := 6
def stExists : Nat := 7
def stNoSlot : Nat := 8
def stLedgerOpen : Nat := 9
def stBadDescriptor : Nat := 0xA
def stBadTopology : Nat := 0xB
def stNoRoute : Nat := 0xC
def stBadLoid : Nat := 0xD
def stAccessDenied : Nat := 0xE
def stSealed : Nat := 0xF
def stBadCalendar : Nat := 0x10
def stCorrupt : Nat := 0x11
def stTooLate : Nat := 0x12
def stNoSpace : Nat := 0x13
def stKeyOrphaned : Nat := 0x14
def stKeyAbsent : Nat := 0x15
def stLegalAbsent : Nat := 0x16
def stLegalFault : Nat := 0x17
def stLegalTimeout : Nat := 0x18
def stNone : Nat := 0xFFFF
def wkSlotState : Nat := 0x200
def wkUnwrapFail : Nat := 0x201
def wkEpoch : Nat := 0x202
def wkDepth : Nat := 0x203
def wkSessionFull : Nat := 0x204
def wkProofFail : Nat := 0x205
def wkDebug : Nat := 0x206
def wkLifecycle : Nat := 0x207
def wkOtpWritten : Nat := 0x208
def wkOtpFail : Nat := 0x209
def wkNotNow : Nat := 0x20A
def wkUsage : Nat := 0x20B
def wkCertFail : Nat := 0x20C
def wkSigFail : Nat := 0x20D
def wkTagFail : Nat := 0x20E
def wkBatchFormat : Nat := 0x20F
def hpUnknownEntry : Nat := 0x300
def hpAuthFail : Nat := 0x301
def hpAuthReplay : Nat := 0x302
def hpAuthNoSession : Nat := 0x303
def hpRoleDenied : Nat := 0x304
def hpBadCommand : Nat := 0x305
def hpBadLen : Nat := 0x306
def hpRbufShort : Nat := 0x307
def hpDmaFault : Nat := 0x308
def hpTimeout : Nat := 0x309
def hpNotReady : Nat := 0x30A
def hpBusy : Nat := 0x30B

/-! ## Time read-out (R332, R333) -/

/-- TAI in nanoseconds. -/
def State.nowNs (s : State) : Nat := s.tmu.sec.toNat * 1000000000 + s.tmu.ns

/-- TAI in microseconds. -/
def State.nowUs (s : State) : Nat := s.nowNs / 1000

/-- TAI in whole seconds. -/
def State.nowS (s : State) : Nat := s.tmu.sec.toNat

/-! ## Statistics counters (R22): one key per counter -/

def kSramCe : Nat := 0
def kSramUe : Nat := 1
def kFab (link : Nat) : Nat := 0x100 + link
def kRla (lane k : Nat) : Nat := 0x100000 + lane * 32 + k
def kRlaPort (port k : Nat) : Nat := 0x110000 + port * 2 + k
def kLm (port k : Nat) : Nat := 0x120000 + port * 32 + k
def kIngCode (src code : Nat) : Nat := 0x200000 + src * 64 + code
def kIngPl (cls reason : Nat) : Nat := 0x210000 + cls * 8 + reason
def kSuspectUnposted : Nat := 0x220000
def kMoves : Nat := 0x220001
def kCmdEmpty : Nat := 0x220002
def kUnkEvent : Nat := 0x220003
def kUnmatched : Nat := 0x220004
def kUnkStatus : Nat := 0x220005
def kUnkCamp : Nat := 0x220006
def kLdg (k : Nat) : Nat := 0x230000 + k
def kBal (k : Nat) : Nat := 0x240000 + k
def kLks (k : Nat) : Nat := 0x250000 + k
def kMcc (t k : Nat) : Nat := 0x300000 + t * 16 + k
def kHp (k : Nat) : Nat := 0x310000 + k
def kWkv (k : Nat) : Nat := 0x320000 + k
def kTmu (k : Nat) : Nat := 0x330000 + k
def kMac (m k : Nat) : Nat := 0x340000 + m * 32 + k
def kCasPort (p k : Nat) : Nat := 0x350000 + p * 32 + k
def kCas (k : Nat) : Nat := 0x351000 + k
def kCpm (k : Nat) : Nat := 0x360000 + k
def kUpd (k : Nat) : Nat := 0x370000 + k
def kRec (k : Nat) : Nat := 0x380000 + k

/-- The live value of a counter. -/
def State.counter (s : State) (k : Nat) : BitVec 64 := s.ctr.get 0 k

/-- Adds `n` to a 64-bit counter, which wraps silently (R22). -/
def countN (k n : Nat) (s : State) : State :=
  { s with ctr := s.ctr.put 0 k (s.ctr.get 0 k + BitVec.ofNat 64 n) }

/-- Increments a counter. -/
def count (k : Nat) (s : State) : State := countN k 1 s

/-- Increments a counter when the condition holds. -/
def countIf (b : Bool) (k : Nat) (s : State) : State := if b then count k s else s

/-- Records an output (log 4). -/
def emit (o : Out) (s : State) : State := { s with out := o :: s.out }

/-- Draws the next free value (log 5). -/
def drawFree (s : State) : Nat × State := (Config.random s.free, { s with free := s.free + 1 })

/-- `n` free bytes (R321 ND, R323). -/
def drawBytes (n : Nat) (s : State) : List Byte × State :=
  let (v, s') := drawFree s
  (le n v, s')

/-! ## Notices (R299, R300, R303) -/

/-- Entries of the notice queue, 2^(SIZE + 6). -/
def NoticeQ.entries (q : NoticeQ) : Nat := 2 ^ (q.size + 6)

/-- Notices written and not yet consumed: pointers run modulo twice the entries. -/
def NoticeQ.used (q : NoticeQ) : Nat := (q.tail + 2 * q.entries - q.head) % (2 * q.entries)

/-- Notices in the overflow store, NOTICE_LOST apart (R299). -/
def NoticeQ.heldCount (q : NoticeQ) : Nat := (q.waiting.filter fun n => n.held && n.code != 0x0F04).length

/-- The queue has a place for one more notice behind those already waiting. -/
def NoticeQ.hasRoom (q : NoticeQ) : Bool := q.en && decide (q.used + q.waiting.length < q.entries)

/-- NQ_DEPTH: notices written but not consumed, plus notices held (R299). -/
def NoticeQ.depth (q : NoticeQ) : Nat := q.used + q.waiting.length

/-- Gathers a posted notice for every MAC whose route is on (R303). -/
def routeNotice (n : Notice) (s : State) : State :=
  let add := fun (e : EthChan) =>
    if e.route.isSome then
      { e with gathered := e.gathered ++ [n], firstAt := if e.gathered.isEmpty then s.nowNs else e.firstAt }
    else e
  { s with hp.eth := s.hp.eth.mapVals add }

/-- Drops a notice: it keeps its NSEQ, sets NQ_OVF, and NOTICE_LOST is posted or counts it (R299). -/
def dropNotice (n : Notice) (s : State) : State :=
  let s1 := count (kHp 13) { s with glb.nqOvf := true, hp.nq.lostDue := true }
  let bump := fun (w : Notice) =>
    if w.code = 0x0F04 then { w with args := le 4 (ofLe (w.args.take 4) + 1) ++ w.args.drop 4 } else w
  if s1.hp.nq.waiting.any (fun w => w.code == 0x0F04) then
    { s1 with hp.nq.waiting := s1.hp.nq.waiting.map bump }
  else
    let l : Notice := { code := 0x0F04, cls := 0, nseq := s1.hp.nq.nseq, timeInv := !s1.tmu.valid, tai := s1.nowUs,
                        args := fit 16 (le 4 1 ++ le 4 n.nseq.toNat), held := true }
    count (kHp 11) (routeNotice l { s1 with hp.nq.waiting := s1.hp.nq.waiting ++ [l], hp.nq.nseq := s1.hp.nq.nseq + 1 })

/-- Whether the overflow store takes a notice of the class (R299). -/
def NoticeQ.mayHold (q : NoticeQ) (cls : Nat) : Bool :=
  match cls with
  | 0 => decide (q.heldCount < 1024)
  | 1 => decide (q.heldCount < 768)
  | _ => false

/-- Whether posting a notice of the class would drop it. -/
def noticeDrops (cls : Nat) (s : State) : Bool := !s.hp.nq.hasRoom && !s.hp.nq.mayHold cls

/-- Posts a notice (R299): suppressed, queued for writing, held, or dropped. -/
def postNotice (code cls : Nat) (args : List Byte) (s : State) : State :=
  if cls ≠ 0 ∧ s.hp.mask.get false code then count (kHp 14) s
  else
    let n : Notice := { code := code, cls := cls, nseq := s.hp.nq.nseq, timeInv := !s.tmu.valid, tai := s.nowUs, args := fit 16 args }
    let s1 := count (kHp 11) (routeNotice n { s with hp.nq.nseq := s.hp.nq.nseq + 1 })
    if s.hp.nq.hasRoom then { s1 with hp.nq.waiting := s1.hp.nq.waiting ++ [n] }
    else if s.hp.nq.mayHold cls then
      count (kHp 12) { s1 with hp.nq.waiting := s1.hp.nq.waiting ++ [{ n with held := true }] }
    else dropNotice n s1

/-! ## Event records (R441, R442) -/

/-- The length of an event record: header, DATA, padding to 8 bytes. -/
def evLen (data : List Byte) : Nat := 32 + 8 * ceilDiv data.length 8

/-- Bytes held in the staging area. -/
def Recorder.stagedBytes (r : Recorder) : Nat := r.staged.foldl (fun n e => n + evLen e.data) 0

/-- The place of a record of `len` bytes: it never crosses a 4 KiB chunk (R441). -/
def evPlace (pos len : Nat) : Nat := if pos % 4096 + len > 4096 then alignDown (pos + 4095) 4096 else pos

/-- Puts a record into the ring, reclaiming the oldest of the 256 segments when a new one opens (R442). -/
def ringAppend (e : EvRec) (s : State) : State :=
  let p := evPlace s.evr.pos (evLen e.data)
  let seg := p / 262144
  let kept := s.evr.ring.filter fun r => decide (seg < r.seg + 256)
  let lost := s.evr.ring.length - kept.length
  countN (kRec 2) lost (count (kRec 0)
    { s with evr.ring := kept ++ [{ e with seg := seg, pos := p }]
             evr.pos := p + evLen e.data
             evr.wrapped := s.evr.wrapped || decide (0 < lost) })

/-- The event record that would be written now. -/
def evMake (typ : Nat) (legal : Bool) (data : List Byte) (s : State) : EvRec :=
  { typ := typ, opmin := s.cpm.opmin, pcycle := s.cpm.pcycle,
    flags := flag (!s.tmu.valid) + 2 * flag legal + 4 * flag (!s.lake.ready) + 8 * flag s.woad.debugSub,
    eseq := s.evr.eseq, tai := s.nowUs, data := data }

/-- Writes an event record: to the ring, or to staging before Lake is READY; a full staging area drops it (R442). -/
def recEventL (typ : Nat) (legal : Bool) (data : List Byte) (s : State) : State :=
  let e := evMake typ legal data s
  if s.lake.ready ∧ s.evr.staged.isEmpty then ringAppend e { s with evr.eseq := s.evr.eseq + 1 }
  else if s.evr.stagedBytes + evLen data ≤ 65536 then
    { s with evr.staged := s.evr.staged ++ [e], evr.eseq := s.evr.eseq + 1 }
  else count (kRec 3) { s with evr.dropped := s.evr.dropped + 1 }

/-- Writes an event record of the part (Table 17-2). -/
def recEvent (typ : Nat) (data : List Byte) (s : State) : State := recEventL typ false data s

/-! ## SECDED of the shared SRAM (R19): words by byte offset / 8 over SB0 to SB95 -/

/-- The entry whose bytes stand at an offset of SB0 to SB63: bank b[5:0] of bucket b, b[17:6] × 128 within it (R132). -/
def dirAt (o : Nat) : Nat := 4 * (o % 0x80000 / 128 * 64 + o / 0x80000) + o % 128 / 32

/-- The offset of an entry's first byte. -/
def dirOffset (mh : Nat) : Nat := mh / 4 % 64 * 0x80000 + mh / 256 * 128 + mh % 4 * 32

/-- A word is poisoned: an entry of the directory as a whole, a word of Madder's shared data, or another word. -/
def poisonWord (w : Nat) (s : State) : State :=
  if w < 0x400000 then { s with ing.dirPoison := s.ing.dirPoison.put false (dirAt (8 * w)) true }
  else if 0x5C0000 ≤ w then { s with mcc.poisonShared := s.mcc.poisonShared.put false (w - 0x5C0000) true }
  else { s with glb.poison := s.glb.poison.put false w true }

/-- A word is read: one flipped bit is corrected in the bank and counted; two poison it, count, post SRAM_UE and write the event record. -/
def readWord (w : Nat) (s : State) : State :=
  match s.glb.upsets.get 0 w with
  | 0 => s
  | 1 => count kSramCe { s with glb.upsets := s.glb.upsets.del w }
  | _ =>
    let b := le 1 (w / 0x10000) ++ zeroBytes 3 ++ le 4 (8 * w % 0x80000)
    recEvent 0x0005 b (postNotice 0x0104 0 b (count kSramUe (poisonWord w { s with glb.upsets := s.glb.upsets.del w })))

/-- The words of `n` bytes from offset `o` are read, in order; without a flipped bit nothing changes. -/
def readWords (o n : Nat) (s : State) : State :=
  if s.glb.upsets.isEmpty then s else (List.range (ceilDiv (o % 8 + n) 8)).foldl (fun s i => readWord (o / 8 + i) s) s

/-- A directory entry is read. -/
def readEntry (mh : Nat) (s : State) : State := readWords (dirOffset mh) 32 s

/-! ## Sepia (R447 to R449) -/

/-- Slots of a Sepia record with a body of `n` bytes. -/
def sepSlots (n : Nat) : Nat := ceilDiv (28 + n) 64

/-- Pinned slots free. -/
def Sepia.pinnedFree (p : Sepia) : Nat := 4032 - p.pinnedUsed

/-- Whether a pinned record fits, the slot reserved for UNSEAL kept back (R449). -/
def Sepia.fitsPinned (p : Sepia) (n : Nat) : Bool := decide (n + flag p.reserved ≤ p.pinnedFree)

/-- The Sepia record that would be written now, at a slot. -/
def sepMake (typ : Nat) (body : List Byte) (slot : Nat) (s : State) : SepRec :=
  { typ := typ, opmin := s.cpm.opmin, pcycle := s.cpm.pcycle, sseq := s.sepia.sseq,
    tai := s.nowUs + (if s.tmu.valid then 0 else 2 ^ 63), body := body, slot := slot, n := sepSlots body.length }

/-- Appends to the pinned area. -/
def sepPin (typ : Nat) (body : List Byte) (s : State) : State :=
  count (kRec 5) { s with sepia.pinned := sepMake typ body s.sepia.pinnedUsed s :: s.sepia.pinned
                          sepia.pinnedUsed := s.sepia.pinnedUsed + sepSlots body.length
                          sepia.sseq := s.sepia.sseq + 1 }

/-- Appends to the ring, over its oldest records (R447): slots run modulo 10,240. -/
def sepRing (typ : Nat) (body : List Byte) (s : State) : State :=
  let n := sepSlots body.length
  let clash := fun (r : SepRec) =>
    (List.range r.n).any fun i => (List.range n).any fun j => (r.slot + i) % 10240 == (s.sepia.ringSlot + j) % 10240
  count (kRec 5) { s with sepia.ring := sepMake typ body s.sepia.ringSlot s :: s.sepia.ring.filter (fun r => !clash r)
                          sepia.ringSlot := (s.sepia.ringSlot + n) % 10240
                          sepia.sseq := s.sepia.sseq + 1 }

/-- Writes a Sepia record of Table 17-5 in its area; LIFECYCLE and DEBUG_ENABLE go to the ring when they do not fit (R449). -/
def sepWrite (typ : Nat) (body : List Byte) (s : State) : State :=
  if typ = 0x0002 ∨ typ = 0x0005 then
    if s.sepia.fitsPinned (sepSlots body.length) then sepPin typ body s else sepRing typ body s
  else if typ < 0x100 then sepPin typ body s
  else sepRing typ body s

/-! ## Modes (R399, R300) -/

/-- Enters a mode; MODE_CHANGE is posted when MODE or REDUCED changes. -/
def setMode (m : Mode) (reduced : Bool) (s : State) : State :=
  if m = s.glb.mode ∧ reduced = s.glb.reduced then s
  else
    postNotice 0x0105 1 (le 1 s.glb.mode.code ++ le 1 m.code ++ le 1 (flag reduced))
      { s with glb.mode := m, glb.reduced := reduced }

/-- The part gives meter service: SERVICE, or the reduced service of bring-up. -/
def State.serving (s : State) : Bool := s.glb.mode == .service || (s.glb.mode == .bringup && s.glb.reduced)

/-- The PLL-derived clocks run and the cores issue: not in OFF, HOLD-UP or VIGIL, and not frozen (R410, R415, R454). -/
def State.coresRun (s : State) : Bool :=
  (s.glb.mode == .bringup || s.glb.mode == .service || s.glb.mode == .standby) && !s.stest.frozen

/-- The switched domains are powered and their PLL-derived clocks run: not in OFF, in VIGIL, or while frozen (R415, R454, Table 15-1). -/
def State.clocked (s : State) : Bool := s.glb.mode != .off && s.glb.mode != .vigil && !s.stest.frozen

/-- An event of a block takes place while its clock runs. -/
def onClock (s r : State) : Result := .next (if s.clocked then r else s)

/-- An event of a block that HOLD-UP gates takes place while the cores run (R410, R411). -/
def onCores (s r : State) : Result := .next (if s.coresRun then r else s)

/-- Decisions are WITHHELD and nothing is transmitted: a drain or HOLD-UP is under way, or a reset is due (R410, R414, R427), and
a chip whose fabric is cut never acks (R16). -/
def State.withholds (s : State) : Bool := s.cpm.drain != .none || s.glb.mode == .holdup || s.cpm.resetDue.isSome || s.glb.cut

/-! ## Time validity (R334) -/

/-- VALID falls to 0 with its cause; TIME_INVALID is posted on the change. -/
def timeInvalid (cause : Nat) (s : State) : State :=
  if s.tmu.valid then postNotice 0x0901 0 (le 1 cause) { s with tmu.valid := false, tmu.invCause := cause }
  else { s with tmu.invCause := cause }

/-- VALID becomes 1; TIME_VALID is posted on the change. -/
def timeValid (s : State) : State :=
  if s.tmu.valid then s else postNotice 0x0902 1 (le 1 s.tmu.source) { s with tmu.valid := true }

end Sys2Proof.Machine
end

