-- ==== Sys2Proof/Machine/Flags.lean ====
section
/-! DEFINITION. Predicates and compares (R254, R258), and the ALU functions of Table 9-8 (R257). -/

namespace Sys2Proof.Machine

/-- Predicate `p` of a predicate byte; p0 reads 1 (R242). -/
def predGet (ps : BitVec 8) (p : Nat) : Bool := p == 0 || bitAt ps.toNat p

/-- The predicate byte after a write; writes to p0 are discarded (R242). -/
def predSet (ps : BitVec 8) (p : Nat) (v : Bool) : BitVec 8 :=
  if p = 0 then ps else if v then ps ||| BitVec.ofNat 8 (2 ^ p) else ps &&& ~~~ BitVec.ofNat 8 (2 ^ p)

/-- The predicates as PGET reads them: p7 to p1 in bits 7:1, 1 in bit 0. -/
def predByte (ps : BitVec 8) : Word := BitVec.ofNat 64 (ps.toNat ||| 1)

/-- Conditions of Table 9-9. -/
def condHolds (c : Nat) (a b : Word) : Bool :=
  match c with
  | 0 => a == b
  | 1 => a != b
  | 2 => a.slt b
  | 3 => !(a.slt b)
  | 4 => a.ult b
  | 5 => !(a.ult b)
  | _ => (a &&& b) != 0

/-- Combine modes of Table 9-9a: the new value of pd from its old value and the outcome. -/
def combine (cm : Nat) (old c : Bool) : Bool :=
  match cm with
  | 0 => c
  | 1 => !c
  | 2 => old && c
  | 3 => old || c
  | 4 => old && !c
  | _ => old || !c

/-- PSET operations (Table 9-7). -/
def psetOp (op : Nat) (a b : Bool) : Bool :=
  match op with
  | 0 => a && b
  | 1 => a || b
  | 2 => xor a b
  | _ => a && !b

/-- Signed division rounding toward zero, with the results R257 defines for zero and overflow. -/
def aluDiv (a b : Word) : Word :=
  if b = 0 then BitVec.ofInt 64 (-1) else BitVec.ofInt 64 (a.toInt.tdiv b.toInt)

/-- Signed remainder; ra when rb = 0, 0 for the overflow case. -/
def aluRem (a b : Word) : Word :=
  if b = 0 then a else BitVec.ofInt 64 (a.toInt.tmod b.toInt)

/-- Unsigned division; all ones when rb = 0. -/
def aluDivu (a b : Word) : Word := if b = 0 then BitVec.allOnes 64 else Word.of (a.toNat / b.toNat)

/-- Unsigned remainder; ra when rb = 0. -/
def aluRemu (a b : Word) : Word := if b = 0 then a else Word.of (a.toNat % b.toNat)

/-- High 64 bits of the signed product. -/
def aluMulh (a b : Word) : Word := BitVec.ofInt 64 ((a.toInt * b.toInt) / (2 ^ 64 : Int))

/-- High 64 bits of the unsigned product. -/
def aluMulhu (a b : Word) : Word := Word.of (a.toNat * b.toNat / 2 ^ 64)

/-- Leading zeros, 0 to 64. -/
def clz64 (x : Nat) : Nat := if x = 0 then 64 else 63 - Nat.log2 x

/-- Trailing zeros over `n` bits. -/
def ctzN : Nat → Nat → Nat
  | 0, _ => 0
  | n + 1, x => if x % 2 = 1 then 0 else 1 + ctzN n (x / 2)

/-- Ones over `n` bits. -/
def popN : Nat → Nat → Nat
  | 0, _ => 0
  | n + 1, x => x % 2 + popN n (x / 2)

/-- The eight bytes in reverse order. -/
def bswap (x : Word) : Word := Word.of (ofLe (le 8 x.toNat).reverse)

/-- The CRC-32C register advanced by bytes, neither initial value nor final XOR (R257). -/
def aluCrc (a : Word) (l : List Byte) : Word := Word.of (crcR polyCrc32c (a.toNat % 2 ^ 32) l)

/-- ALU function FN of Table 9-8. -/
def alu (fn : Nat) (a b : Word) : Word :=
  match fn with
  | 0x00 => a + b
  | 0x01 => a - b
  | 0x02 => a &&& b
  | 0x03 => a ||| b
  | 0x04 => a ^^^ b
  | 0x05 => a &&& ~~~ b
  | 0x06 => a <<< (b.toNat % 64)
  | 0x07 => a >>> (b.toNat % 64)
  | 0x08 => a.sshiftRight (b.toNat % 64)
  | 0x09 => a * b
  | 0x0A => aluMulh a b
  | 0x0B => aluMulhu a b
  | 0x0C => aluDiv a b
  | 0x0D => aluDivu a b
  | 0x0E => aluRem a b
  | 0x0F => aluRemu a b
  | 0x10 => if a.slt b then a else b
  | 0x11 => if a.slt b then b else a
  | 0x12 => if a.ult b then a else b
  | 0x13 => if a.ult b then b else a
  | 0x14 => Word.of (clz64 a.toNat)
  | 0x15 => Word.of (ctzN 64 a.toNat)
  | 0x16 => Word.of (popN 64 a.toNat)
  | 0x17 => bswap a
  | 0x18 => aluCrc a (le 1 b.toNat)
  | _ => aluCrc a (le 8 b.toNat)

/-- Sign extension of a `w`-bit immediate to 64 bits (R254). -/
def sext (w x : Nat) : Word := BitVec.ofInt 64 (signed w (x % 2 ^ w))

end Sys2Proof.Machine
end

