-- ==== Sys2Proof/Machine/Operands.lean ====
section
/-! DEFINITION. Threads, their registers and slots, the data map of Table 9-4, engine buffers, instruction words (Table 9-6). -/

namespace Sys2Proof.Machine

/-! ## Threads -/

/-- Thread `t` (R240). -/
def State.thr (s : State) (t : Nat) : Thread := s.mcc.threads.get {} t

/-- The state with thread `t` replaced. -/
def setThr (t : Nat) (th : Thread) (s : State) : State := { s with mcc.threads := s.mcc.threads.put {} t th }

/-- The state with thread `t` changed by `f`. -/
def updThr (t : Nat) (f : Thread → Thread) (s : State) : State := setThr t (f (s.thr t)) s

/-- General register `r`; m0 reads 0 (R242). -/
def Thread.reg (th : Thread) (r : Nat) : Word := if r = 0 then 0 else th.regs.get 0 r

/-- Writes a general register; writes to m0 are discarded (R242). -/
def Thread.setReg (th : Thread) (r : Nat) (v : Word) : Thread :=
  if r = 0 then th else { th with regs := th.regs.put 0 r v }

/-- The core of a thread (R240). -/
def coreOf (t : Nat) : Nat := t / 4

/-- Whether a level may fetch at an address: word-aligned, in its region (R249, R256). -/
def Level.mayFetch (l : Level) (pc : Nat) : Bool :=
  pc % 4 == 0 &&
  match l with
  | .legal => decide (0xE000 ≤ pc ∧ pc < 0x10000)
  | .rom => decide (pc < 0x10000)
  | _ => decide (pc < 0xE000)

/-! ## Slots (R261) -/

/-- Slot `i` of a thread. -/
def Thread.slot (th : Thread) (i : Nat) : Slot := th.slots.get {} i

/-- Writes slot `i`. -/
def Thread.setSlot (th : Thread) (i : Nat) (x : Slot) : Thread := { th with slots := th.slots.put {} i x }

/-- Slot `i` is outstanding. -/
def Thread.outstanding (th : Thread) (i : Nat) : Bool := (th.slot i).pend.isSome

/-- Some slot is outstanding. -/
def Thread.busy (th : Thread) : Bool := (List.range 16).any th.outstanding

/-- Some far store of the thread awaits its acknowledgement (R247). -/
def Thread.storesOut (th : Thread) : Bool := (List.range 16).any fun i => (th.slot i).pend == some .farStore

/-- The slot an ECALL takes (R261): free and consumed first, else free with its status lost. -/
def Thread.pick (th : Thread) : Option Nat :=
  match firstWhere (fun i => !th.outstanding i && (th.slot i).status.isNone) (List.range 16) with
  | some i => some i
  | none => firstWhere (fun i => !th.outstanding i) (List.range 16)

/-- ESLOTS (Table 9-3): outstanding slots in [15:0], complete and not consumed in [31:16]. -/
def Thread.eslots (th : Thread) : Word :=
  Word.of ((List.range 16).foldl (fun n i =>
    n + (if th.outstanding i then 2 ^ i else 0) + (if (th.slot i).status.isSome then 2 ^ (16 + i) else 0)) 0)

/-! ## Data map (R245, Table 9-4) -/

/-- A place of a data address: DMEM of a core, or shared Madder SRAM. -/
inductive Place where
  | dmem (key : Nat)
  | shared (off : Nat)
deriving DecidableEq, Repr

/-- Where `len` bytes at a load or store address lie for a thread at its level; `none` raises ADDR. -/
def Thread.place (th : Thread) (t addr len : Nat) : Option Place :=
  let win := 0xF000 + 0x400 * (t % 4)
  if addr + len ≤ 0xF000 then some (.dmem (coreOf t * 0x10000 + addr))
  else if win ≤ addr ∧ addr + len ≤ win + 0x400 ∧ th.level = .legal then some (.dmem (coreOf t * 0x10000 + addr))
  else if addr + len ≤ 0x10000 ∧ th.level = .rom then some (.dmem (coreOf t * 0x10000 + addr))
  else if 0x10000000 ≤ addr ∧ addr + len ≤ 0x10180000 then
    if th.level = .task ∧ ¬ (th.shbase.toNat ≤ addr ∧ addr + len ≤ th.shbase.toNat + th.shlen.toNat) then none
    else some (.shared (addr - 0x10000000))
  else none

/-- Where an engine buffer lies (R245, R271): the loads' map without the legal windows, and the DMEM of any core. -/
def Thread.bufPlace (th : Thread) (t addr len : Nat) : Option Place :=
  if 0x80000000 ≤ addr ∧ (addr - 0x80000000) / 0x10000 < 64 ∧ (addr - 0x80000000) % 0x10000 + len ≤ 0xF000 then
    some (.dmem (addr - 0x80000000))
  else if addr + len ≤ 0xF000 ∨ 0x10000000 ≤ addr then th.place t addr len
  else none

/-- `n` bytes of a memory from key `k`. -/
def readBytes (m : Map Byte) (k : Nat) : Nat → List Byte
  | 0 => []
  | n + 1 => m.get 0 k :: readBytes m (k + 1) n

/-- The memory after bytes are written from key `k`. -/
def writeBytes (m : Map Byte) (k : Nat) : List Byte → Map Byte
  | [] => m
  | b :: l => writeBytes (m.put 0 k b) (k + 1) l

/-- Bytes at a place. -/
def State.load (s : State) (p : Place) (n : Nat) : List Byte :=
  match p with
  | .dmem k => readBytes s.mcc.dmem k n
  | .shared o => readBytes s.mcc.shared o n

/-- Stores bytes at a place. -/
def storeAt (p : Place) (l : List Byte) (s : State) : State :=
  match p with
  | .dmem k => { s with mcc.dmem := writeBytes s.mcc.dmem k l }
  | .shared o => { s with mcc.shared := writeBytes s.mcc.shared o l }

/-- Some word of the span is poisoned (R19, R246). -/
def State.poisoned (s : State) (p : Place) (n : Nat) : Bool :=
  let m := match p with | .dmem _ => s.mcc.poisonDmem | .shared _ => s.mcc.poisonShared
  let k := match p with | .dmem k => k | .shared o => o
  (List.range (ceilDiv (k % 8 + n) 8)).any fun i => m.get false (k / 8 + i)

/-- Clears the poison of one aligned word (R246: a store of 8 aligned bytes). -/
def unpoison (p : Place) (s : State) : State :=
  match p with
  | .dmem k => { s with mcc.poisonDmem := s.mcc.poisonDmem.put false (k / 8) false }
  | .shared o => { s with mcc.poisonShared := s.mcc.poisonShared.put false (o / 8) false }

/-- A word of IMEM is fetched: one flipped bit is corrected and counted (R246). -/
def readImem (w : Nat) (s : State) : State :=
  if s.mcc.flipImem.get false w then count kSramCe { s with mcc.flipImem := s.mcc.flipImem.put false w false } else s

/-- A word of DMEM is read: one flipped bit is corrected and counted (R246). -/
def readDmem (w : Nat) (s : State) : State :=
  if s.mcc.flipDmem.get false w then count kSramCe { s with mcc.flipDmem := s.mcc.flipDmem.put false w false } else s

/-- A place's words are read: SECDED of DMEM (R246) and of the shared SRAM (R19). -/
def readPlace (p : Place) (n : Nat) (s : State) : State :=
  match p with
  | .dmem k => if s.mcc.flipDmem.isEmpty then s else (List.range (ceilDiv (k % 8 + n) 8)).foldl (fun s i => readDmem (k / 8 + i) s) s
  | .shared o => readWords (0x2E00000 + o) n s

/-- An engine reads a buffer: its bytes, or the status that refuses it (R18, R19, Table 9-11). -/
def State.readBuf (s : State) (t addr len : Nat) : Except Nat (List Byte) :=
  match (s.thr t).bufPlace t addr len with
  | none => .error stAccessFault
  | some p => if s.poisoned p len then .error stPoisoned else .ok (s.load p len)

/-- Whether an engine may write a buffer. -/
def State.bufOk (s : State) (t addr len : Nat) : Bool := ((s.thr t).bufPlace t addr len).isSome

/-- An engine writes a buffer. -/
def writeBuf (t addr : Nat) (l : List Byte) (s : State) : State :=
  match (s.thr t).bufPlace t addr l.length with
  | none => s
  | some p => storeAt p l s

/-- An IMEM word of a core. -/
def State.imemWord (s : State) (core addr : Nat) : Nat := ofLe (readBytes s.mcc.imem (core * 0x10000 + addr) 4)

/-! ## Instruction words (R254, Table 9-6), for EVAL -/

/-- PI and OPC above the 23 format bits. -/
def encHead (pi opc : Nat) : Nat := pi * 2 ^ 29 + opc * 2 ^ 23

def encR (pi opc rd ra rb fn : Nat) : Word := Word.of (encHead pi opc + rd * 2 ^ 18 + ra * 2 ^ 13 + rb * 2 ^ 8 + fn)
def encI (pi opc rd ra imm : Nat) : Word := Word.of (encHead pi opc + rd * 2 ^ 18 + ra * 2 ^ 13 + imm)
def encG (pi opc gate : Nat) : Word := Word.of (encHead pi opc + gate)
def encZ (pi opc : Nat) : Word := Word.of (encHead pi opc)

/-- An instruction word whose encoding R255 calls reserved: OPC, FN, cond, cm, op, or a field marked 0. -/
def reservedWord (w : Nat) : Bool :=
  let opc := bits w 28 23
  let rd := bits w 22 18
  let ra := bits w 17 13
  let rb := bits w 12 8
  let fn := bits w 7 0
  if opc = 0x00 then decide (0x1A ≤ fn) || (decide (0x14 ≤ fn ∧ fn ≤ 0x17) && rb != 0)
  else if opc ≤ 0x04 then false
  else if opc ≤ 0x07 then bits w 12 6 != 0
  else if opc ≤ 0x0A then false
  else if opc ≤ 0x0F then true
  else if opc = 0x10 then decide (6 ≤ bits w 19 17) || decide (bits w 6 4 = 7) || bits w 3 0 != 0
  else if opc = 0x11 then decide (6 ≤ bits w 19 17) || decide (bits w 11 9 = 7)
  else if opc = 0x12 then bits w 11 0 != 0
  else if opc = 0x13 then ra != 0 || rb != 0 || fn != 0
  else if opc = 0x14 then rd != 0 || rb != 0 || fn != 0
  else if opc ≤ 0x17 then true
  else if opc ≤ 0x1E then false
  else if opc = 0x1F then true
  else if opc ≤ 0x23 then false
  else if opc = 0x24 then decide (5 ≤ fn)
  else if opc = 0x25 then bits w 22 0 != 0
  else if opc ≤ 0x27 then true
  else if opc ≤ 0x29 then false
  else if opc = 0x2A then rd != 0 || rb != 0 || fn != 0
  else if opc = 0x2B then rb != 0 || fn != 0
  else if opc ≤ 0x2F then true
  else if opc = 0x30 then rb != 0
  else if opc = 0x31 then rb != 0 || fn != 0
  else if opc = 0x32 then ra != 0 || rb != 0 || fn != 0
  else if opc = 0x33 then true
  else if opc = 0x34 then bits w 22 6 != 0
  else if opc = 0x35 then bits w 22 0 != 0
  else if opc = 0x36 then rb != 0 || decide (7 ≤ fn)
  else if opc = 0x37 then true
  else if opc = 0x38 then ra != 0
  else if opc = 0x39 then rd != 0
  else true

end Sys2Proof.Machine
end

