-- ==== Sys2Proof/Machine/Thread.lean ====
section
/-! DEFINITION. What every Akzil instruction shares: exceptions (R275, R276, R252), issue (R254), stalls, event queues (R273), and engine calls (R260 to R266). -/

namespace Sys2Proof.Machine

/-! ## Host commands by REF (R291, Table 9-15) -/

/-- REF of a command: [15:0] ENO, [23:16] queue, [63:32] command identifier. -/
def Cmd.ref (c : Cmd) : Word := Word.of (field c.raw 0 2 + c.sqid * 2 ^ 16 + field c.raw 4 4 * 2 ^ 32)

/-- Releases the pool buffer of the commands with this REF (R291). -/
def releasePool (ref : Word) (s : State) : State :=
  let units := ((s.hp.cmds.filter fun c => c.ref == ref).filterMap (·.pool)) ++ ((s.hp.stale.filter fun x => x.1 == ref).map (·.2))
  let free := units.foldl (fun m u => (List.range u.2).foldl (fun m i => m.put false (u.1 + i) false) m) s.hp.poolUsed
  { s with hp.poolUsed := free
           hp.stale := s.hp.stale.filter fun x => x.1 != ref
           hp.cmds := s.hp.cmds.map fun c => if c.ref = ref then { c with pool := none } else c }

/-- Puts a thread into IDLE or HALTED and releases the buffer of the event it took (R291). -/
def parkThread (t : Nat) (st : TState) (s : State) : State :=
  let th := s.thr t
  let s1 := match th.tookRef with
    | some r => releasePool r s
    | none => s
  setThr t { th with st := st, tookRef := none, exiting := false, stopAsked := false } s1

/-- At an instruction boundary: EXIT and MCC_STOP take effect once the thread's slots complete (R259, R271). -/
def settle (t : Nat) (s : State) : State :=
  let th := s.thr t
  if th.busy ∨ ¬ (th.st = .run ∨ th.st = .wait) then s
  else if th.exiting ∨ (th.stopAsked ∧ th.level ≠ .legal) then parkThread t .idle s
  else s

/-! ## Exceptions -/

/-- The watchdog's count after a legal call, whose cycles it leaves out (R277). -/
def Thread.wdogAfter (th : Thread) (sh : Shadow) (cycle : BitVec 64) : BitVec 64 :=
  th.wdogAt + (cycle - if sh.started.toNat ≤ th.wdogAt.toNat then th.wdogAt else sh.started)

/-- A legal call ended by the part (R252): the shadow comes back as by LRET, with m1 the status. -/
def forceLret (t : Nat) (status : Nat) (m2 : Word) (code : Nat) (evalV : Word) (s : State) : State :=
  let th := s.thr t
  let sh := th.shadow.getD {}
  let low := th.regs.keep fun r _ => decide (r ≤ 8)
  let th1 := { th with regs := low ++ sh.regs, preds := sh.preds, level := sh.level, pc := sh.ret, shadow := none, st := .run
                       wdogAt := th.wdogAfter sh s.mcc.cycle }
  let th2 := (th1.setReg 1 (Word.of status)).setReg 2 m2
  settle t (recEvent 0x0007 (le 1 sh.gate ++ le 1 code ++ le 2 th.pc.toNat ++ zeroBytes 4 ++ le 8 evalV.toNat) (setThr t th2 s))

/-- An exception of Table 9-13 (R275); nested it halts the thread (R276); at LEGAL it ends the legal call (R252). -/
def raise (t code : Nat) (evalV : Word) (s : State) : State :=
  let th := s.thr t
  let thf := { th with faultLevel := th.level, faultCode := code, faultEval := evalV }
  let s1 := count (kMcc t 4) (setThr t thf s)
  if th.level = .legal then
    count (kMcc t 6) (forceLret t stLegalFault (Word.of code) code evalV s1)
  else if th.exc then
    let body := le 1 t ++ le 1 code ++ le 2 th.pc.toNat
    postNotice 0x0C01 1 (body ++ zeroBytes 4 ++ le 8 evalV.toNat)
      (recEvent 0x0006 (body ++ zeroBytes 4 ++ le 8 evalV.toNat) (parkThread t .halted s1))
  else
    setThr t { thf with
      epc := th.pc, ecause := Word.of (th.level.code * 16 + code), eval := evalV, exc := true,
      level := .system, pc := th.evec, st := .run } s1

/-- Exception codes (Table 9-13). -/
def exIllegal : Nat := 1
def exPriv : Nat := 2
def exFetch : Nat := 3
def exAlign : Nat := 4
def exAddr : Nat := 5
def exPoison : Nat := 6
def exTrap : Nat := 7
def exWatchdog : Nat := 8
def exGate : Nat := 9

/-! ## Issue (R240, R254) -/

/-- The instruction has completed: it is counted, and the PC moves to the next word. -/
def retire (t : Nat) (s : State) : State :=
  settle t (count (kMcc t 0) (updThr t (fun th => { th with pc := th.pc + 4 }) s))

/-- The thread stalls and keeps its PC at the instruction (Table 9-2). -/
def stallThread (t : Nat) (w : Stall) (s : State) : State := updThr t (fun th => { th with st := .stall w }) s

/-- The thread issues: it must be in RUN and not leaving (R259, R271). -/
def Thread.issues (th : Thread) : Bool :=
  decide (th.st = .run) && !th.exiting && !(th.stopAsked && decide (th.level ≠ .legal))

/-- One instruction of thread `t` under guard `pi`: the fetch is checked, then the guard (R254, R256, R246). -/
def issue (t pi : Nat) (act : Thread → State → State) (s : State) : State :=
  let th := s.thr t
  if !(s.coresRun && th.issues) then s
  else if !th.level.mayFetch th.pc.toNat then raise t exFetch th.pc s
  else if s.mcc.poisonImem.get false ((coreOf t * 0x10000 + th.pc.toNat) / 8) then raise t exPoison th.pc s
  else
    let s1 := readImem ((coreOf t * 0x10000 + th.pc.toNat) / 8) s
    if predGet th.preds pi then act th s1 else retire t s1

/-- An instruction that changes the thread alone and goes on at the next word. -/
def issueReg (t pi : Nat) (f : Thread → Thread) (s : State) : State :=
  issue t pi (fun _ s => retire t (updThr t f s)) s

/-- A jump to `target`, or FETCH on the jump when the level may not fetch there (R256). -/
def jumpTo (t : Nat) (target : Word) (f : Thread → Thread) (th : Thread) (s : State) : State :=
  if th.level.mayFetch target.toNat then
    settle t (count (kMcc t 0) (updThr t (fun th => { f th with pc := target }) s))
  else raise t exFetch target s

/-! ## Slots completing -/

/-- A status is written into a slot, whose completion bit sets; a thread that waits for it goes on (R260, R262). -/
def completeSlot (t i : Nat) (status : Option (BitVec 16)) (s : State) : State :=
  let th := s.thr t
  let th1 := th.setSlot i { pend := none, status := if status.isSome then status else (th.slot i).status }
  let s1 := setThr t th1 s
  match th.st with
  | .stall (.ewait j rd) =>
    if j = i then
      match status with
      | some v =>
        retire t (setThr t { (th1.setReg rd (v.setWidth 64)) with st := .run, slots := (th1.setSlot i {}).slots } s1)
      | none => s1
    else s1
  | .stall .noSlot => setThr t { th1 with st := .run } s1
  | .stall .fence => if th1.storesOut then s1 else setThr t { th1 with st := .run } s1
  | _ => settle t s1

/-! ## Event queues (R273) -/

/-- The queue key of a source; TIMER and SIGNAL have one queue per thread. -/
def evKey (src t : Nat) : Nat := if src = 8 ∨ src = 9 then 256 * src + t else src

/-- Events a source's queue holds (Table 9-14). -/
def evCap (src : Nat) : Nat :=
  match src with
  | 1 => 256 | 2 => 4096 | 3 => 4096 | 4 => 512 | 7 => 1024 | 8 => 1 | 9 => 1
  | _ => 2 ^ 16

/-- An event joins its queue, or is dropped, counted and marked for OVF (R273). -/
def postEvent (src t : Nat) (ref rtag : Word) (body : List Byte) (s : State) : State :=
  let k := evKey src t
  let q := s.mcc.queues.get [] k
  if q.length < evCap src then
    let n := s.mcc.seqs.get 0 k
    { s with mcc.queues := s.mcc.queues.put [] k (q ++ [{ seq := n, ref := ref, body := body, rtag := rtag }])
             mcc.seqs := s.mcc.seqs.put 0 k (n + 1) }
  else count (kMcc (if src = 8 ∨ src = 9 then t else 0) 11) { s with mcc.ovf := s.mcc.ovf.put false k true }

/-- RTAG 7: internal (Table 9-3). -/
def rtagInternal : Word := 7

/-- The entry row of an ENO in the running image (R279). -/
def State.entryOf (s : State) (eno : Nat) : Option Entry :=
  match s.mcc.image with
  | some im => firstWhere (fun e => e.eno == eno) im.entries
  | none => none

/-- The event descriptor of Table 9-15: header and body. -/
def evDesc (src : Nat) (ovf : Bool) (ev : Ev) : List Byte :=
  le 1 src ++ le 1 (flag ovf) ++ le 2 ev.body.length ++ le 4 ev.seq.toNat ++ le 8 ev.ref.toNat ++ fit 112 ev.body

/-- Delivers an event to a waiting thread: descriptor at EVBUF, event shadow, m1 to m3, RTAG, EVSEQ, dispatch (R273, R251, R274). -/
def deliverTo (t src : Nat) (ovf : Bool) (ev : Ev) (row : Option Entry) (s : State) : State :=
  let th := s.thr t
  let core := coreOf t * 0x10000
  let d := evDesc src ovf ev
  let s1 := if th.evbuf.toNat < 0xF000 then { s with mcc.dmem := writeBytes s.mcc.dmem (core + th.evbuf.toNat) d } else s
  let s2 := { s1 with mcc.dmem := writeBytes s1.mcc.dmem (core + 0xF000 + 0x400 * (t % 4) + 0x380) d }
  let th1 := ((th.setReg 1 (Word.of src)).setReg 2 (Word.of ev.body.length)).setReg 3 ev.ref
  let th2 := { th1 with
    st := .run, rtag := ev.rtag, evseq := ev.seq.setWidth 64, wdogAt := s.mcc.cycle,
    tookRef := if src ≤ 1 then some ev.ref else th1.tookRef }
  let th3 := match row with
    | some e => if th.dispatch then { th2 with pc := Word.of e.addr, level := e.level } else th2
    | none => th2
  count (kMcc t 10) (setThr t th3 s2)

/-- The waiting threads whose EVMASK admits a source, lowest THID first; a row's LEVEL must match the base level under DISPATCH (R273, R274). -/
def State.taker (s : State) (src : Nat) (only : Option Nat) (row : Option Entry) : Option Nat :=
  firstWhere (fun t =>
    let th := s.thr t
    decide (th.st = .wait) && bitAt th.evmask.toNat src && (only.isNone || only == some t)
      && (!th.dispatch || match row with | some e => decide (e.level = th.base) | none => true)) (List.range 256)

/-! ## Engine calls -/

/-- What an engine answers: the state after it, the status, result fields by block offset, and what the completion waits for. -/
structure EngOut where
  st : State
  status : Nat
  out : List (Nat × List Byte) := []
  waits : Option Wait := none

/-- An engine answer that changes nothing. -/
def EngOut.fail (s : State) (status : Nat) : EngOut := { st := s, status := status }

/-- An engine answer with a status alone. -/
def EngOut.ok (s : State) : EngOut := { st := s, status := stOk }

/-- Functions permitted at level LEGAL (R265). -/
def legalFns : List Nat := [0x01, 0x02, 0x40, 0x41, 0x42, 0x51, 0x72, 0x73, 0xC0]

/-- Functions marked SYSTEM-only (Table 9-16). -/
def systemOnly (fn : Nat) : Bool :=
  [0x20, 0x30, 0x52, 0x67, 0x68, 0x75, 0x76, 0x77, 0x78, 0x79, 0x80, 0xB3, 0xD0, 0xD1, 0xD2, 0xD3, 0xD4, 0xE0, 0xE1].contains fn

/-- Whether a thread may make an engine call (R265). -/
def Thread.permits (th : Thread) (fn : Nat) : Bool :=
  match th.level with
  | .rom => true
  | .legal => legalFns.contains fn
  | .system => fn != 0x41 && fn != 0x42
  | .task => bitAt th.ecmask.toNat (fn / 16) && !systemOnly fn && fn != 0x41 && fn != 0x42

/-- ECALL rt, ra, fn with a block of `len` bytes (R260): fence, block check, slot, copy, then the engine.
A call that is not permitted, and one that completes at once, has its status in the slot when the ECALL retires (R265, R266). -/
def ecallG (permits : Thread → Bool) (atOnce : Bool) (t pi rt ra fn len : Nat) (eng : Nat → List Byte → State → EngOut) (s : State) : State :=
  issue t pi (fun th s =>
    let a := (th.reg ra).toNat
    let done := fun (i st : Nat) (s : State) =>
      retire t (updThr t (fun th => th.setSlot i { pend := none, status := some (BitVec.ofNat 16 st) }) s)
    if th.storesOut then stallThread t .fence s
    else if a % 8 ≠ 0 then raise t exAlign (th.reg ra) s
    else match (if a < 0x10000 then th.place t a len else none) with
    | none => raise t exAddr (th.reg ra) s
    | some p =>
      match th.pick with
      | none => stallThread t .noSlot s
      | some i =>
        let lost := (th.slot i).status.isSome
        let th1 := (if lost then { th with elost := th.elost + 1 } else th).setReg rt (Word.of i)
        let s1 := count (kMcc t 2) (countIf lost (kMcc t 9) (setThr t (th1.setSlot i {}) s))
        if !permits th then done i stPriv s1
        else
          let s2 := readPlace p len s1
          let r := if s2.poisoned p len then EngOut.fail s2 stPoisoned else eng t (s2.load p len) s2
          if atOnce then done i r.status r.st
          else retire t (updThr t (fun th => th.setSlot i { pend := some (.call fn a r.out r.status r.waits), status := none }) r.st)) s

/-- An engine call of function `fn` under the permissions of R265. -/
def ecall (t pi rt ra fn len : Nat) (eng : Nat → List Byte → State → EngOut) (s : State) : State :=
  ecallG (fun th => th.permits fn) false t pi rt ra fn len eng s

/-- The slot the next engine call of a thread will take, for engines whose completion waits. -/
def State.nextSlot (s : State) (t : Nat) : Nat := ((s.thr t).pick).getD 0

/-- Applies `f` to every outstanding engine call of every thread. -/
def mapCalls (f : Nat → Nat → Pend → Pend) (s : State) : State :=
  let ths := s.mcc.threads.map fun e =>
    (e.1, { e.2 with slots := e.2.slots.map fun x => (x.1, { x.2 with pend := x.2.pend.map (f e.1 x.1) }) })
  { s with mcc.threads := ths }

/-- A host command that waited goes on: another wait, or its completion is registered (R295); a response is the ENTRY at block
offset 32, a RESULT what stands at offset 8. -/
def Cmd.settled (n : Nat) (w' : Option Wait) (status : Option Nat) (out : Option (List (Nat × List Byte))) (c : Cmd) : Cmd :=
  let entry := fun (o : List (Nat × List Byte)) => (firstWhere (fun x => x.1 == 32) o).map (·.2)
  let low := fun (o : List (Nat × List Byte)) => match firstWhere (fun x => x.1 == 8) o with | some x => BitVec.ofNat 64 (ofLe x.2) | none => 0
  { c with
    waits := w', status := status.getD c.status
    result := match out with
      | some o => low o
      | none => c.result
    resp := match out with
      | some o => if c.resp.isSome then entry o else none
      | none => c.resp
    stage := if w'.isSome then c.stage else .registered, regAt := if w'.isSome then c.regAt else n }

/-- The calls and host commands that wait for `w` wait for `w'` instead, or may complete, with another status or results where given. -/
def rewait (w : Wait) (w' : Option Wait) (status : Option Nat) (out : Option (List (Nat × List Byte))) (s : State) : State :=
  let s1 := mapCalls (fun _ _ p =>
    match p with
    | .call fn blk o st (some v) => if v = w then .call fn blk (out.getD o) (status.getD st) w' else p
    | _ => p) s
  { s1 with hp.cmds := s1.hp.cmds.map fun c => if c.waits = some w then c.settled s1.hp.regs w' status out else c
            hp.regs := s1.hp.regs + 1 }

/-- The calls and host commands that wait for `w` may complete. -/
def wake (w : Wait) (status : Option Nat) (out : Option (List (Nat × List Byte))) (s : State) : State := rewait w none status out s

/-! ## Legal windows and threads started by the part -/

/-- Starts a thread at an entry row with m1 (R271, R279): base level is the row's, RTAG internal. -/
def startThread (t : Nat) (e : Entry) (m1 : Word) (s : State) : State :=
  let th := s.thr t
  setThr t { (th.setReg 1 m1) with
    pc := Word.of e.addr, level := e.level, base := e.level, st := .run, rtag := rtagInternal,
    exc := false, exiting := false, stopAsked := false, wdogAt := s.mcc.cycle } s

end Sys2Proof.Machine
end

