-- ==== Sys2Proof/Machine/Akzil.lean ====
section
/-! DEFINITION. The Akzil instructions (Tables 9-7 to 9-10), and what the outside of a thread does to it: far memory, completions, events, watchdog, timers. -/

namespace Sys2Proof.Machine

/-! ## ALU (R257) -/

/-- rd ← FN(ra, rb). -/
def aluInstr (fn : Nat) (t pi rd ra rb : Nat) (s : State) : State :=
  issueReg t pi (fun th => th.setReg rd (alu fn (th.reg ra) (th.reg rb))) s

/-- A one-operand ALU function, whose rb field is 0. -/
def aluInstr1 (fn : Nat) (t pi rd ra : Nat) (s : State) : State :=
  issueReg t pi (fun th => th.setReg rd (alu fn (th.reg ra) 0)) s

/-- rd ← f(ra, immediate). -/
def immInstr (f : Word → Word) (t pi rd ra : Nat) (s : State) : State :=
  issueReg t pi (fun th => th.setReg rd (f (th.reg ra))) s

/-- ADD, FN 0x00. -/
def execAdd (t : Fin 256) (pi : Fin 8) (rd ra rb : Fin 32) (s : State) : Result := .next (aluInstr 0x00 t pi rd ra rb s)

/-- SUB, FN 0x01. -/
def execSub (t : Fin 256) (pi : Fin 8) (rd ra rb : Fin 32) (s : State) : Result := .next (aluInstr 0x01 t pi rd ra rb s)

/-- AND, FN 0x02. -/
def execAnd (t : Fin 256) (pi : Fin 8) (rd ra rb : Fin 32) (s : State) : Result := .next (aluInstr 0x02 t pi rd ra rb s)

/-- OR, FN 0x03. -/
def execOr (t : Fin 256) (pi : Fin 8) (rd ra rb : Fin 32) (s : State) : Result := .next (aluInstr 0x03 t pi rd ra rb s)

/-- XOR, FN 0x04. -/
def execXor (t : Fin 256) (pi : Fin 8) (rd ra rb : Fin 32) (s : State) : Result := .next (aluInstr 0x04 t pi rd ra rb s)

/-- ANDN, FN 0x05. -/
def execAndn (t : Fin 256) (pi : Fin 8) (rd ra rb : Fin 32) (s : State) : Result := .next (aluInstr 0x05 t pi rd ra rb s)

/-- SHL, FN 0x06. -/
def execShl (t : Fin 256) (pi : Fin 8) (rd ra rb : Fin 32) (s : State) : Result := .next (aluInstr 0x06 t pi rd ra rb s)

/-- SHR, FN 0x07. -/
def execShr (t : Fin 256) (pi : Fin 8) (rd ra rb : Fin 32) (s : State) : Result := .next (aluInstr 0x07 t pi rd ra rb s)

/-- SAR, FN 0x08. -/
def execSar (t : Fin 256) (pi : Fin 8) (rd ra rb : Fin 32) (s : State) : Result := .next (aluInstr 0x08 t pi rd ra rb s)

/-- MUL, FN 0x09. -/
def execMul (t : Fin 256) (pi : Fin 8) (rd ra rb : Fin 32) (s : State) : Result := .next (aluInstr 0x09 t pi rd ra rb s)

/-- MULH, FN 0x0A. -/
def execMulh (t : Fin 256) (pi : Fin 8) (rd ra rb : Fin 32) (s : State) : Result := .next (aluInstr 0x0A t pi rd ra rb s)

/-- MULHU, FN 0x0B. -/
def execMulhu (t : Fin 256) (pi : Fin 8) (rd ra rb : Fin 32) (s : State) : Result := .next (aluInstr 0x0B t pi rd ra rb s)

/-- DIV, FN 0x0C. -/
def execDiv (t : Fin 256) (pi : Fin 8) (rd ra rb : Fin 32) (s : State) : Result := .next (aluInstr 0x0C t pi rd ra rb s)

/-- DIVU, FN 0x0D. -/
def execDivu (t : Fin 256) (pi : Fin 8) (rd ra rb : Fin 32) (s : State) : Result := .next (aluInstr 0x0D t pi rd ra rb s)

/-- REM, FN 0x0E. -/
def execRem (t : Fin 256) (pi : Fin 8) (rd ra rb : Fin 32) (s : State) : Result := .next (aluInstr 0x0E t pi rd ra rb s)

/-- REMU, FN 0x0F. -/
def execRemu (t : Fin 256) (pi : Fin 8) (rd ra rb : Fin 32) (s : State) : Result := .next (aluInstr 0x0F t pi rd ra rb s)

/-- MIN, FN 0x10. -/
def execMin (t : Fin 256) (pi : Fin 8) (rd ra rb : Fin 32) (s : State) : Result := .next (aluInstr 0x10 t pi rd ra rb s)

/-- MAX, FN 0x11. -/
def execMax (t : Fin 256) (pi : Fin 8) (rd ra rb : Fin 32) (s : State) : Result := .next (aluInstr 0x11 t pi rd ra rb s)

/-- MINU, FN 0x12. -/
def execMinu (t : Fin 256) (pi : Fin 8) (rd ra rb : Fin 32) (s : State) : Result := .next (aluInstr 0x12 t pi rd ra rb s)

/-- MAXU, FN 0x13. -/
def execMaxu (t : Fin 256) (pi : Fin 8) (rd ra rb : Fin 32) (s : State) : Result := .next (aluInstr 0x13 t pi rd ra rb s)

/-- CLZ, FN 0x14. -/
def execClz (t : Fin 256) (pi : Fin 8) (rd ra : Fin 32) (s : State) : Result := .next (aluInstr1 0x14 t pi rd ra s)

/-- CTZ, FN 0x15. -/
def execCtz (t : Fin 256) (pi : Fin 8) (rd ra : Fin 32) (s : State) : Result := .next (aluInstr1 0x15 t pi rd ra s)

/-- POPC, FN 0x16. -/
def execPopc (t : Fin 256) (pi : Fin 8) (rd ra : Fin 32) (s : State) : Result := .next (aluInstr1 0x16 t pi rd ra s)

/-- BSWAP, FN 0x17. -/
def execBswap (t : Fin 256) (pi : Fin 8) (rd ra : Fin 32) (s : State) : Result := .next (aluInstr1 0x17 t pi rd ra s)

/-- CRCB, FN 0x18. -/
def execCrcb (t : Fin 256) (pi : Fin 8) (rd ra rb : Fin 32) (s : State) : Result := .next (aluInstr 0x18 t pi rd ra rb s)

/-- CRCD, FN 0x19. -/
def execCrcd (t : Fin 256) (pi : Fin 8) (rd ra rb : Fin 32) (s : State) : Result := .next (aluInstr 0x19 t pi rd ra rb s)

/-! ## Immediates and moves (R256) -/

/-- ADDI: rd ← ra + imm13. -/
def execAddi (t : Fin 256) (pi : Fin 8) (rd ra : Fin 32) (imm : BitVec 13) (s : State) : Result :=
  .next (immInstr (fun a => a + sext 13 imm.toNat) t pi rd ra s)

/-- ANDI: rd ← ra AND imm13. -/
def execAndi (t : Fin 256) (pi : Fin 8) (rd ra : Fin 32) (imm : BitVec 13) (s : State) : Result :=
  .next (immInstr (fun a => a &&& sext 13 imm.toNat) t pi rd ra s)

/-- ORI: rd ← ra OR imm13. -/
def execOri (t : Fin 256) (pi : Fin 8) (rd ra : Fin 32) (imm : BitVec 13) (s : State) : Result :=
  .next (immInstr (fun a => a ||| sext 13 imm.toNat) t pi rd ra s)

/-- XORI: rd ← ra XOR imm13. -/
def execXori (t : Fin 256) (pi : Fin 8) (rd ra : Fin 32) (imm : BitVec 13) (s : State) : Result :=
  .next (immInstr (fun a => a ^^^ sext 13 imm.toNat) t pi rd ra s)

/-- SHLI: rd ← ra << imm13[5:0]. -/
def execShli (t : Fin 256) (pi : Fin 8) (rd ra : Fin 32) (imm : BitVec 6) (s : State) : Result :=
  .next (immInstr (fun a => a <<< imm.toNat) t pi rd ra s)

/-- SHRI: rd ← ra >> imm13[5:0], zero fill. -/
def execShri (t : Fin 256) (pi : Fin 8) (rd ra : Fin 32) (imm : BitVec 6) (s : State) : Result :=
  .next (immInstr (fun a => a >>> imm.toNat) t pi rd ra s)

/-- SARI: rd ← ra >> imm13[5:0], sign fill. -/
def execSari (t : Fin 256) (pi : Fin 8) (rd ra : Fin 32) (imm : BitVec 6) (s : State) : Result :=
  .next (immInstr (fun a => a.sshiftRight imm.toNat) t pi rd ra s)

/-- The 16-bit immediate at its quarter. -/
def quarter (hw imm : Nat) : Word := Word.of (imm * 2 ^ (16 * hw))

/-- MOVZ: rd ← imm16 << 16 × hw. -/
def execMovz (t : Fin 256) (pi : Fin 8) (rd : Fin 32) (hw : Fin 4) (imm : BitVec 16) (s : State) : Result :=
  .next (issueReg t pi (fun th => th.setReg rd (quarter hw imm.toNat)) s)

/-- MOVK: rd[16hw+15:16hw] ← imm16, other bits kept. -/
def execMovk (t : Fin 256) (pi : Fin 8) (rd : Fin 32) (hw : Fin 4) (imm : BitVec 16) (s : State) : Result :=
  .next (issueReg t pi (fun th =>
    th.setReg rd ((th.reg rd &&& ~~~ quarter hw 0xFFFF) ||| quarter hw imm.toNat)) s)

/-- MOVN: rd ← NOT (imm16 << 16 × hw). -/
def execMovn (t : Fin 256) (pi : Fin 8) (rd : Fin 32) (hw : Fin 4) (imm : BitVec 16) (s : State) : Result :=
  .next (issueReg t pi (fun th => th.setReg rd (~~~ quarter hw imm.toNat)) s)

/-! ## Compares and predicates (R258) -/

/-- pd ← cm(pd, c). -/
def comparePd (pd cm : Nat) (c : Bool) (th : Thread) : Thread :=
  { th with preds := predSet th.preds pd (combine cm (predGet th.preds pd) c) }

/-- CMP: c ← cond(ra, rb); pd ← cm(pd, c). -/
def execCmp (t : Fin 256) (pi pd : Fin 8) (cm : Fin 6) (ra rb : Fin 32) (cond : Fin 7) (s : State) : Result :=
  .next (issueReg t pi (fun th => comparePd pd cm (condHolds cond (th.reg ra) (th.reg rb)) th) s)

/-- CMPI: c ← cond(ra, imm9); pd ← cm(pd, c). -/
def execCmpi (t : Fin 256) (pi pd : Fin 8) (cm : Fin 6) (ra : Fin 32) (cond : Fin 7) (imm : BitVec 9) (s : State) : Result :=
  .next (issueReg t pi (fun th => comparePd pd cm (condHolds cond (th.reg ra) (sext 9 imm.toNat)) th) s)

/-- PSET: pd ← pa op pb. -/
def execPset (t : Fin 256) (pi pd pa pb : Fin 8) (op : Fin 4) (s : State) : Result :=
  .next (issueReg t pi (fun th =>
    { th with preds := predSet th.preds pd (psetOp op (predGet th.preds pa) (predGet th.preds pb)) }) s)

/-- PGET: rd ← p7…p1 in bits 7:1, 1 in bit 0. -/
def execPget (t : Fin 256) (pi : Fin 8) (rd : Fin 32) (s : State) : Result :=
  .next (issueReg t pi (fun th => th.setReg rd (predByte th.preds)) s)

/-- PPUT: p1…p7 ← ra[7:1]. -/
def execPput (t : Fin 256) (pi : Fin 8) (ra : Fin 32) (s : State) : Result :=
  .next (issueReg t pi (fun th => { th with preds := BitVec.ofNat 8 ((th.reg ra).toNat % 256 ||| 1) }) s)

/-! ## Loads and stores (R245 to R248) -/

/-- The effective address ra + imm13. -/
def effAddr (th : Thread) (ra : Nat) (imm : BitVec 13) : Word := th.reg ra + sext 13 imm.toNat

/-- The loaded bytes as a register value, zero-extended or sign-extended. -/
def loadedWord (sx : Bool) (l : List Byte) : Word :=
  if sx then sext (8 * l.length) (ofLe l) else Word.of (ofLe l)

/-- A far access takes a slot and leaves its unconsumed status alone (R248, log 21). -/
def takeFar (t i : Nat) (p : Pend) (s : State) : State :=
  count (kMcc t 3) (updThr t (fun th => th.setSlot i { (th.slot i) with pend := some p }) s)

/-- A load of `size` bytes. -/
def loadInstr (size : Nat) (sx : Bool) (t pi rd ra : Nat) (imm : BitVec 13) (s : State) : State :=
  issue t pi (fun th s =>
    let a := effAddr th ra imm
    if a.toNat % size ≠ 0 then raise t exAlign a s
    else match th.place t a.toNat size with
    | none => raise t exAddr a s
    | some (.dmem k) =>
      if s.poisoned (.dmem k) size then raise t exPoison a s
      else retire t (updThr t (fun th => th.setReg rd (loadedWord sx (s.load (.dmem k) size))) (readPlace (.dmem k) size s))
    | some (.shared o) =>
      match th.pick with
      | none => stallThread t .noSlot s
      | some i => stallThread t (.farLoad i rd) (takeFar t i (.farLoad (0x10000000 + o) size sx) s)) s

/-- A store of `size` bytes; 8 bytes clear the word's poison (R246). -/
def storeInstr (size : Nat) (t pi rs ra : Nat) (imm : BitVec 13) (s : State) : State :=
  issue t pi (fun th s =>
    let a := effAddr th ra imm
    let fix := fun p s => if size = 8 then unpoison p s else s
    if a.toNat % size ≠ 0 then raise t exAlign a s
    else match th.place t a.toNat size with
    | none => raise t exAddr a s
    | some (.dmem k) => retire t (fix (.dmem k) (storeAt (.dmem k) (le size (th.reg rs).toNat) s))
    | some (.shared o) =>
      match th.pick with
      | none => stallThread t .noSlot s
      | some i => retire t (takeFar t i .farStore (fix (.shared o) (storeAt (.shared o) (le size (th.reg rs).toNat) s)))) s

/-- LDB: rd ← mem[ra + imm13], 1 bytes, zero-extended. -/
def execLdb (t : Fin 256) (pi : Fin 8) (rd ra : Fin 32) (imm : BitVec 13) (s : State) : Result :=
  .next (loadInstr 1 false t pi rd ra imm s)

/-- LDH: rd ← mem[ra + imm13], 2 bytes, zero-extended. -/
def execLdh (t : Fin 256) (pi : Fin 8) (rd ra : Fin 32) (imm : BitVec 13) (s : State) : Result :=
  .next (loadInstr 2 false t pi rd ra imm s)

/-- LDW: rd ← mem[ra + imm13], 4 bytes, zero-extended. -/
def execLdw (t : Fin 256) (pi : Fin 8) (rd ra : Fin 32) (imm : BitVec 13) (s : State) : Result :=
  .next (loadInstr 4 false t pi rd ra imm s)

/-- LDD: rd ← mem[ra + imm13], 8 bytes, zero-extended. -/
def execLdd (t : Fin 256) (pi : Fin 8) (rd ra : Fin 32) (imm : BitVec 13) (s : State) : Result :=
  .next (loadInstr 8 false t pi rd ra imm s)

/-- LDBS: rd ← mem[ra + imm13], 1 bytes, sign-extended. -/
def execLdbs (t : Fin 256) (pi : Fin 8) (rd ra : Fin 32) (imm : BitVec 13) (s : State) : Result :=
  .next (loadInstr 1 true t pi rd ra imm s)

/-- LDHS: rd ← mem[ra + imm13], 2 bytes, sign-extended. -/
def execLdhs (t : Fin 256) (pi : Fin 8) (rd ra : Fin 32) (imm : BitVec 13) (s : State) : Result :=
  .next (loadInstr 2 true t pi rd ra imm s)

/-- LDWS: rd ← mem[ra + imm13], 4 bytes, sign-extended. -/
def execLdws (t : Fin 256) (pi : Fin 8) (rd ra : Fin 32) (imm : BitVec 13) (s : State) : Result :=
  .next (loadInstr 4 true t pi rd ra imm s)

/-- STB: mem[ra + imm13] ← low 1 bytes of rs. -/
def execStb (t : Fin 256) (pi : Fin 8) (rs ra : Fin 32) (imm : BitVec 13) (s : State) : Result :=
  .next (storeInstr 1 t pi rs ra imm s)

/-- STH: mem[ra + imm13] ← low 2 bytes of rs. -/
def execSth (t : Fin 256) (pi : Fin 8) (rs ra : Fin 32) (imm : BitVec 13) (s : State) : Result :=
  .next (storeInstr 2 t pi rs ra imm s)

/-- STW: mem[ra + imm13] ← low 4 bytes of rs. -/
def execStw (t : Fin 256) (pi : Fin 8) (rs ra : Fin 32) (imm : BitVec 13) (s : State) : Result :=
  .next (storeInstr 4 t pi rs ra imm s)

/-- STD: mem[ra + imm13] ← low 8 bytes of rs. -/
def execStd (t : Fin 256) (pi : Fin 8) (rs ra : Fin 32) (imm : BitVec 13) (s : State) : Result :=
  .next (storeInstr 8 t pi rs ra imm s)

/-- What an AMO stores: SWAP, ADD, AND, OR (Table 9-7); CAS stores rb if old equals rd. -/
def amoNew (op : Nat) (old rb rd : Word) : Word :=
  match op with
  | 0 => rb
  | 1 => old + rb
  | 2 => old &&& rb
  | 3 => old ||| rb
  | _ => if old = rd then rb else old

/-- An AMO on 8 aligned bytes at ra: atomic in DMEM, executed at the bank in shared SRAM (R247). -/
def amoInstr (op t pi rd ra rb : Nat) (s : State) : State :=
  issue t pi (fun th s =>
    let a := th.reg ra
    if a.toNat % 8 ≠ 0 then raise t exAlign a s
    else match th.place t a.toNat 8 with
    | none => raise t exAddr a s
    | some (.dmem k) =>
      if s.poisoned (.dmem k) 8 then raise t exPoison a s
      else
        let old := Word.of (ofLe (s.load (.dmem k) 8))
        retire t (updThr t (fun th => th.setReg rd old)
          (storeAt (.dmem k) (le 8 (amoNew op old (th.reg rb) (th.reg rd)).toNat) (readPlace (.dmem k) 8 s)))
    | some (.shared o) =>
      match th.pick with
      | none => stallThread t .noSlot s
      | some i =>
        stallThread t (.farLoad i rd) (takeFar t i (.farAmo (0x10000000 + o) op (th.reg rb) (th.reg rd)) s)) s

/-- AMO SWAP, FN 0. -/
def execAmoSwap (t : Fin 256) (pi : Fin 8) (rd ra rb : Fin 32) (s : State) : Result := .next (amoInstr 0 t pi rd ra rb s)

/-- AMO ADD, FN 1. -/
def execAmoAdd (t : Fin 256) (pi : Fin 8) (rd ra rb : Fin 32) (s : State) : Result := .next (amoInstr 1 t pi rd ra rb s)

/-- AMO AND, FN 2. -/
def execAmoAnd (t : Fin 256) (pi : Fin 8) (rd ra rb : Fin 32) (s : State) : Result := .next (amoInstr 2 t pi rd ra rb s)

/-- AMO OR, FN 3. -/
def execAmoOr (t : Fin 256) (pi : Fin 8) (rd ra rb : Fin 32) (s : State) : Result := .next (amoInstr 3 t pi rd ra rb s)

/-- AMO CAS, FN 4. -/
def execAmoCas (t : Fin 256) (pi : Fin 8) (rd ra rb : Fin 32) (s : State) : Result := .next (amoInstr 4 t pi rd ra rb s)

/-- FENCE: stalls until every earlier far store of the thread is acknowledged (R247). -/
def execFence (t : Fin 256) (pi : Fin 8) (s : State) : Result :=
  .next (issue t pi (fun th s => if th.storesOut then stallThread t .fence s else retire t s) s)

/-- A bank answers a far load or AMO (R248): the register gets the data, poison raises POISON, and STALL ends. -/
def farReturn (t i : Nat) (s : State) : State :=
  let th := s.thr t
  let finish := fun (addr : Nat) (poison : Bool) (v : Word) (s : State) =>
    let s1 := updThr t (fun th => th.setSlot i { (th.slot i) with pend := none }) s
    match th.st with
    | .stall (.farLoad j rd) =>
      if j = i then
        if poison then raise t exPoison (Word.of addr) s1
        else retire t (updThr t (fun th => { (th.setReg rd v) with st := .run }) s1)
      else s1
    | .stall .noSlot => updThr t (fun th => { th with st := .run }) s1
    | _ => settle t s1
  match (th.slot i).pend with
  | some (.farLoad addr size sx) =>
    let p := Place.shared (addr - 0x10000000)
    let s1 := readPlace p size s
    finish addr (s1.poisoned p size) (loadedWord sx (s1.load p size)) s1
  | some (.farAmo addr op rb rd) =>
    let p := Place.shared (addr - 0x10000000)
    let s1 := readPlace p 8 s
    let old := Word.of (ofLe (s1.load p 8))
    if s1.poisoned p 8 then finish addr true 0 s1
    else finish addr false old (storeAt p (le 8 (amoNew op old rb rd).toNat) s1)
  | _ => s

/-- FAR_LOAD_RETURN: the data of the far load or AMO in a slot returns. -/
def execFarLoadReturn (t : Fin 256) (slot : Fin 16) (s : State) : Result := onClock s (farReturn t slot s)

/-- FAR_STORE_ACK: a bank acknowledges the far store in a slot and frees it (R247). -/
def execFarStoreAck (t : Fin 256) (slot : Fin 16) (s : State) : Result :=
  onClock s (if ((s.thr t).slot slot).pend = some .farStore then completeSlot t slot none s else s)

/-! ## Control flow (R256) -/

/-- PC + 4 × disp23. -/
def brTarget (th : Thread) (disp : BitVec 23) : Word := th.pc + sext 25 (4 * disp.toNat)

/-- BR: PC ← PC + 4 × disp23. -/
def execBr (t : Fin 256) (pi : Fin 8) (disp : BitVec 23) (s : State) : Result :=
  .next (issue t pi (fun th s => jumpTo t (brTarget th disp) id th s) s)

/-- CALL: m31 ← PC + 4; PC ← PC + 4 × disp23. -/
def execCall (t : Fin 256) (pi : Fin 8) (disp : BitVec 23) (s : State) : Result :=
  .next (issue t pi (fun th s => jumpTo t (brTarget th disp) (fun h => h.setReg 31 (h.pc + 4)) th s) s)

/-- JR: PC ← ra. -/
def execJr (t : Fin 256) (pi : Fin 8) (ra : Fin 32) (s : State) : Result :=
  .next (issue t pi (fun th s => jumpTo t (th.reg ra) id th s) s)

/-- JALR: rd ← PC + 4; PC ← ra. -/
def execJalr (t : Fin 256) (pi : Fin 8) (rd ra : Fin 32) (s : State) : Result :=
  .next (issue t pi (fun th s => jumpTo t (th.reg ra) (fun h => h.setReg rd (h.pc + 4)) th s) s)

/-! ## Slots (R262) -/

/-- EWAIT: takes the status of the slot ra[3:0], stalling while it is outstanding; NONE when there is none. -/
def execEwait (t : Fin 256) (pi : Fin 8) (rd ra : Fin 32) (s : State) : Result :=
  .next (issue t pi (fun th s =>
    let i := (th.reg ra).toNat % 16
    if th.outstanding i then stallThread t (.ewait i rd) s
    else
      let v := match (th.slot i).status with
        | some x => x.setWidth 64
        | none => Word.of stNone
      retire t (updThr t (fun th => (th.setSlot i {}).setReg rd v) s)) s)

/-- EPOLL: rd ← ESLOTS. -/
def execEpoll (t : Fin 256) (pi : Fin 8) (rd : Fin 32) (s : State) : Result :=
  .next (issueReg t pi (fun th => th.setReg rd th.eslots) s)

/-- A crypto call's output reaches its buffer, and OTP programming ends, as the call completes (R318, R306). -/
def landKeyOp (key fn t : Nat) (s : State) : State :=
  let s1 := if fn = 0x76 then { s with woad.otpBusy := false } else s
  match s1.woad.queued.find key with
  | none => s1
  | some op => writeBuf t op.dst op.bytes { s1 with woad.queued := s1.woad.queued.del key }

/-- ENGINE_CALL_COMPLETE: results, then status, then the completion bit (R260); a call that still waits does not complete. -/
def execEngineCallComplete (t : Fin 256) (slot : Fin 16) (s : State) : Result :=
  onClock s (match ((s.thr t).slot slot).pend with
    | some (.call fn blk out status none) =>
      let put := fun (s : State) (o : Nat × List Byte) => storeAt (.dmem (coreOf t * 0x10000 + blk + o.1)) o.2 s
      completeSlot t slot (some (BitVec.ofNat 16 status)) (out.foldl put (landKeyOp (t * 16 + slot) fn t s))
    | _ => s)

/-! ## Legal calls (R250, R252) -/

/-- LCALL: enters a legal gate at level LEGAL. -/
def execLcall (t : Fin 256) (pi : Fin 8) (gate : Fin 64) (s : State) : Result :=
  .next (issue t pi (fun th s =>
    if th.level = .legal then raise t exPriv (encG pi 0x34 gate) s
    else if s.mcc.legal ≠ 1 then retire t (updThr t (fun th => th.setReg 1 (Word.of stLegalAbsent)) s)
    else
      let g := s.imemWord (coreOf t) (0xE000 + 4 * gate)
      if !bitAt g 31 then raise t exGate (Word.of gate) s
      else
        let sh : Shadow := { regs := th.regs.keep fun r _ => decide (9 ≤ r), preds := th.preds, level := th.level,
                             ret := th.pc + 4, gate := gate, started := s.mcc.cycle }
        let th1 := { th with regs := th.regs.keep fun r _ => decide (r < 9), preds := 1, level := .legal,
                             pc := Word.of (0xE000 + bits g 12 0), shadow := some sh }
        let win := coreOf t * 0x10000 + 0xF000 + 0x400 * (t % 4)
        count (kMcc t 0) (count (kMcc t 5) (setThr t th1 { s with mcc.dmem := writeBytes s.mcc.dmem win (zeroBytes 0x380) }))) s)

/-- LRET: restores m9–m31, p1–p7, the level and the PC after LCALL; PRIV outside LEGAL. -/
def execLret (t : Fin 256) (pi : Fin 8) (s : State) : Result :=
  .next (issue t pi (fun th s =>
    match th.level, th.shadow with
    | .legal, some sh =>
      settle t (count (kMcc t 0) (setThr t { th with
        regs := (th.regs.keep fun r _ => decide (r < 9)) ++ sh.regs, preds := sh.preds, level := sh.level, pc := sh.ret, shadow := none
        wdogAt := th.wdogAfter sh s.mcc.cycle } s))
    | _, _ => raise t exPriv (encZ pi 0x35) s) s)

/-- LEGAL_TIMEOUT: a legal call that has run 2^20 cycles is ended with LEGAL_TIMEOUT; m2 is a free value (log 22). -/
def execLegalTimeout (t : Fin 256) (s : State) : Result :=
  onCores s (match (s.thr t).level, (s.thr t).shadow with
    | .legal, some sh =>
      if (s.mcc.cycle - sh.started).toNat < 2 ^ 20 then s
      else
        let (v, s1) := drawFree s
        count (kMcc t 7) (forceLret t stLegalTimeout (Word.of v) 0xFF 0 s1)
    | _, _ => s)

/-! ## SYS (R259) -/

/-- NOP: no action. -/
def execNop (t : Fin 256) (pi : Fin 8) (s : State) : Result := .next (issueReg t pi id s)

/-- YIELD: skips the next round of the core's round-robin, which the model does not time (log 20). -/
def execYield (t : Fin 256) (pi : Fin 8) (s : State) : Result := .next (issueReg t pi (fun th => th) s)

/-- WAIT: enters WAIT for the next event (R273). -/
def execWait (t : Fin 256) (pi : Fin 8) (s : State) : Result :=
  .next (issueReg t pi (fun th => { th with st := .wait }) s)

/-- EXIT: enters IDLE once the outstanding slots complete. -/
def execExit (t : Fin 256) (pi : Fin 8) (s : State) : Result :=
  .next (issueReg t pi (fun th => { th with exiting := true }) s)

/-- TRAP: raises TRAP with EVAL ← ra. -/
def execTrap (t : Fin 256) (pi : Fin 8) (ra : Fin 32) (s : State) : Result :=
  .next (issue t pi (fun th s => raise t exTrap (th.reg ra) s) s)

/-- ERET: at SYSTEM with EXC = 1, PC ← EPC, level ← ECAUSE[5:4], EXC ← 0; otherwise PRIV. -/
def execEret (t : Fin 256) (pi : Fin 8) (rd ra : Fin 32) (s : State) : Result :=
  .next (issue t pi (fun th s =>
    if th.level = .system ∧ th.exc then
      settle t (count (kMcc t 0) (setThr t { th with pc := th.epc, level := Level.ofCode (bits th.ecause.toNat 5 4), exc := false } s))
    else raise t exPriv (encR pi 0x36 rd ra 0 0x05) s) s)

/-- SIGNAL: posts a SIGNAL event to THID ra[7:0]. -/
def execSignal (t : Fin 256) (pi : Fin 8) (ra : Fin 32) (s : State) : Result :=
  .next (issue t pi (fun th s =>
    retire t (postEvent 9 ((th.reg ra).toNat % 256) (Word.of (0xFFFF + (t : Nat) * 2 ^ 16)) rtagInternal [] s)) s)

/-! ## CSRs (R243, R244) -/

/-- The access Table 9-3 grants: `none` for an unlisted CSR, else (may read, may write). -/
def csrAccess (l : Level) (n : Nat) : Option (Bool × Bool) :=
  let ro := some (true, false)
  let sysOnly := fun (x : Bool × Bool) =>
    match l with
    | .system | .rom => some x
    | _ => some (false, false)
  let sysRwTaskR :=
    match l with
    | .system | .rom => some (true, true)
    | .task => some (true, false)
    | .legal => some (false, false)
  match n with
  | 0x000 | 0x001 | 0x002 | 0x003 | 0x004 | 0x01B | 0x01C | 0x030 | 0x031 => ro
  | 0x010 | 0x011 | 0x014 => sysOnly (true, true)
  | 0x012 | 0x013 => sysOnly (true, false)
  | 0x018 | 0x019 | 0x01A | 0x020 | 0x021 | 0x022 => sysRwTaskR
  | 0x028 =>
    match l with
    | .system | .rom => some (true, true)
    | .task => some (false, true)
    | .legal => some (false, false)
  | 0x029 =>
    match l with
    | .legal => some (false, false)
    | _ => some (true, true)
  | _ => none

/-- TAI_NS as latched: [63] VALID, [45:16] nanoseconds, [15:0] fraction. -/
def taiNsWord (s : State) : Word :=
  Word.of (flag s.tmu.valid * 2 ^ 63 + s.tmu.ns * 2 ^ 16 + s.tmu.frac / 2 ^ 32)

/-- The value of a CSR. -/
def csrValue (t : Nat) (th : Thread) (s : State) (n : Nat) : Word :=
  match n with
  | 0x000 => Word.of t
  | 0x001 => Word.of (th.level.code + 4 * th.base.code)
  | 0x002 => s.mcc.cycle
  | 0x003 => s.tmu.sec
  | 0x004 => th.taiNs
  | 0x010 => th.evec
  | 0x011 => th.epc
  | 0x012 => th.ecause
  | 0x013 => th.eval
  | 0x014 => Word.of (flag th.exc)
  | 0x018 => th.evmask.setWidth 64
  | 0x019 => th.evbuf
  | 0x01A => Word.of (flag th.dispatch)
  | 0x01B => th.rtag
  | 0x01C => th.evseq
  | 0x020 => th.ecmask.setWidth 64
  | 0x021 => th.shbase
  | 0x022 => th.shlen
  | 0x028 => th.wdog
  | 0x029 => th.timer
  | 0x030 => th.eslots
  | _ => th.elost

/-- A permitted CSR write; reserved bits ignore it (R243). -/
def csrSet (th : Thread) (cycle : BitVec 64) (n : Nat) (v : Word) : Thread :=
  match n with
  | 0x010 => { th with evec := v &&& 0xFFFC }
  | 0x011 => { th with epc := v }
  | 0x014 => { th with exc := bitAt v.toNat 0 }
  | 0x018 => { th with evmask := (v &&& 0x3FF).setWidth 16 }
  | 0x019 => { th with evbuf := v &&& 0xFF80 }
  | 0x01A => { th with dispatch := bitAt v.toNat 0 }
  | 0x020 => { th with ecmask := v.setWidth 16 }
  | 0x021 => { th with shbase := v &&& ~~~ 0x3F }
  | 0x022 => { th with shlen := v &&& ~~~ 0x3F }
  | 0x028 => if th.level = .task then { th with wdogAt := cycle } else { th with wdog := v &&& 0xFFFFFFFF, wdogAt := cycle }
  | 0x029 => { th with timer := v, timerFired := false }
  | _ => th

/-- CSRR: rd ← CSR; a TAI_S read latches TAI_NS for the thread. -/
def execCsrr (t : Fin 256) (pi : Fin 8) (rd : Fin 32) (csr : BitVec 13) (s : State) : Result :=
  .next (issue t pi (fun th s =>
    match csrAccess th.level csr.toNat with
    | none => raise t exIllegal (encI pi 0x38 rd 0 csr.toNat) s
    | some (true, _) =>
      let v := csrValue t th s csr.toNat
      let latch := fun (h : Thread) => if csr.toNat = 3 then { h with taiNs := taiNsWord s } else h
      retire t (updThr t (fun h => (latch h).setReg rd v) s)
    | some (false, _) => raise t exPriv (encI pi 0x38 rd 0 csr.toNat) s) s)

/-- CSRW: CSR ← ra. -/
def execCsrw (t : Fin 256) (pi : Fin 8) (ra : Fin 32) (csr : BitVec 13) (s : State) : Result :=
  .next (issue t pi (fun th s =>
    match csrAccess th.level csr.toNat with
    | none => raise t exIllegal (encI pi 0x39 0 ra csr.toNat) s
    | some (_, true) => retire t (updThr t (fun h => csrSet h s.mcc.cycle csr.toNat (th.reg ra)) s)
    | some (_, false) => raise t exPriv (encI pi 0x39 0 ra csr.toNat) s) s)

/-- RESERVED_OPCODE: a word R255 calls reserved raises ILLEGAL whatever its guard, EVAL the word. -/
def execReservedOpcode (t : Fin 256) (w : BitVec 32) (s : State) : Result :=
  .next (
    let th := s.thr t
    if !(reservedWord w.toNat && s.coresRun && th.issues) then s
    else if !th.level.mayFetch th.pc.toNat then raise t exFetch th.pc s
    else if s.mcc.poisonImem.get false ((coreOf t * 0x10000 + th.pc.toNat) / 8) then raise t exPoison th.pc s
    else raise t exIllegal (w.setWidth 64) s)

/-! ## Events, watchdog, timer (R273, R277, R243) -/

/-- EVENT_DELIVER: the oldest event of a source goes to the lowest waiting thread that takes it (R273, R274); a standby delivers no HOST, ETH and CYCLE events (R390). -/
def execEventDeliver (src : Fin 10) (t : Fin 256) (s : State) : Result :=
  .next (
    let k := evKey src t
    if s.glb.mode = .standby ∧ ((src : Nat) = 0 ∨ (src : Nat) = 1 ∨ (src : Nat) = 4) then s
    else match s.mcc.queues.get [] k with
    | [] => s
    | ev :: rest =>
      let eno := ev.ref.toNat % 2 ^ 16
      let named := (src : Nat) = 0 ∨ (src : Nat) = 1 ∨ (src : Nat) = 4
      let row := if named then (s.entryOf eno).bind (fun e => if e.src = src ∨ e.src = 0xFF then some e else none) else none
      match s.taker src (if (src : Nat) = 8 ∨ (src : Nat) = 9 then some t.val else none) row with
      | none => s
      | some u =>
        let s1 := { s with mcc.queues := s.mcc.queues.put [] k rest, mcc.ovf := s.mcc.ovf.put false k false }
        if (src : Nat) = 4 ∧ (s.thr u).dispatch ∧ row.isNone then count (kTmu 9) { s with mcc.queues := s.mcc.queues.put [] k rest }
        else deliverTo u src (s.mcc.ovf.get false k) ev row s1)

/-- WATCHDOG_EXPIRE: the period of WDOG has passed in RUN or STALL outside LEGAL, and the thread raises WATCHDOG (R277). -/
def execWatchdogExpire (t : Fin 256) (s : State) : Result :=
  .next (
    let th := s.thr t
    let counting := match th.st with
      | .run | .stall _ => decide (th.level ≠ .legal)
      | _ => false
    if th.wdog = 0 ∨ !counting ∨ !s.coresRun ∨ (s.mcc.cycle - th.wdogAt).toNat < 1024 * th.wdog.toNat then s
    else raise t exWatchdog s.mcc.cycle (count (kMcc t 8) (updThr t (fun h => { h with wdogAt := s.mcc.cycle }) s)))

/-- THREAD_TIMER_FIRE: CYCLE has reached TIMER, and one TIMER event is posted (R243). -/
def execThreadTimerFire (t : Fin 256) (s : State) : Result :=
  onCores s (
    let th := s.thr t
    if th.timer = 0 ∨ th.timerFired ∨ s.mcc.cycle.toNat < th.timer.toNat then s
    else postEvent 8 t 0xFFFF rtagInternal [] (updThr t (fun h => { h with timerFired := true }) s))

/-! ## MCC engine functions (R271) and unassigned functions (R266) -/

/-- MCC_START. -/
def engMccStart (_t : Nat) (b : List Byte) (s : State) : EngOut :=
  let core := field b 0 1
  let th := field b 1 1
  if !zeros b 4 4 ∨ 64 ≤ core ∨ 4 ≤ th then .fail s stBadArg
  else
    let u := core * 4 + th
    if (s.thr u).st ≠ .idle ∧ (s.thr u).st ≠ .halted then .fail s stBadArg
    else match s.entryOf (field b 2 2) with
    | none => .fail s stNotFound
    | some e => .ok (startThread u e (Word.of (field b 8 8)) s)

/-- MCC_STOP: the target enters IDLE at its next boundary outside LEGAL, once its slots complete. -/
def engMccStop (_t : Nat) (b : List Byte) (s : State) : EngOut :=
  let core := field b 0 1
  let th := field b 1 1
  if !zeros b 2 6 ∨ 64 ≤ core ∨ 4 ≤ th then .fail s stBadArg
  else
    let u := core * 4 + th
    if (s.thr u).st = .idle ∨ (s.thr u).st = .halted then .ok s
    else .ok (settle u (updThr u (fun h => { h with stopAsked := true }) s))

/-- DMA_COPY: copies memory between permitted addresses. -/
def engDmaCopy (t : Nat) (b : List Byte) (s : State) : EngOut :=
  let src := field b 0 8
  let dst := field b 8 8
  let len := field b 16 4
  if !zeros b 20 4 ∨ len % 8 ≠ 0 ∨ 65536 < len then .fail s stBadArg
  else if !s.bufOk t src len ∨ !s.bufOk t dst len then .fail s stAccessFault
  else match s.readBuf t src len with
  | .error e => .fail s e
  | .ok l => .ok (writeBuf t dst l s)

/-- MCC_START as an engine call. -/
def execMccStart (t : Fin 256) (pi : Fin 8) (rt ra : Fin 32) (s : State) : Result := .next (ecall t pi rt ra 0xE0 16 engMccStart s)

/-- MCC_STOP as an engine call. -/
def execMccStop (t : Fin 256) (pi : Fin 8) (rt ra : Fin 32) (s : State) : Result := .next (ecall t pi rt ra 0xE1 8 engMccStop s)

/-- DMA_COPY as an engine call. -/
def execDmaCopy (t : Fin 256) (pi : Fin 8) (rt ra : Fin 32) (s : State) : Result := .next (ecall t pi rt ra 0xE2 24 engDmaCopy s)

/-- Whether Table 9-16 lists a function. -/
def fnAssigned (fn : Nat) : Bool :=
  let last := [7, 4, 2, 5, 2, 2, 8, 9, 1, 1, 1, 3, 0, 4, 2]
  let g := fn / 16
  let k := fn % 16
  if g = 0 then decide (1 ≤ k ∧ k ≤ 7) else decide (g < 15) && decide (k ≤ last.getD g 0)

/-- ECALL_UNASSIGNED_FN: an ECALL of a function Table 9-16 does not list completes at once with BAD_FUNC (R266). -/
def execEcallUnassignedFn (t : Fin 256) (pi : Fin 8) (rt ra : Fin 32) (fn : BitVec 8) (s : State) : Result :=
  .next (if fnAssigned fn.toNat then s
    else ecallG (fun _ => true) true t pi rt ra fn.toNat 0 (fun _ _ s => .fail s stBadFunc) s)

end Sys2Proof.Machine
end

