-- ==== Sys2Proof/Machine/Keys.lean ====
section
/-! DEFINITION. OTP reading and Woad's key hierarchy: lifecycle, roots, frame keys, broadcast keys (R305 to R316). -/

namespace Sys2Proof.Machine

/-! ## OTP (Table 11-1) -/

/-- `n` bytes of OTP from an offset. -/
def State.otpBytes (s : State) (off n : Nat) : List Byte := readBytes s.otp off n

/-- A little-endian OTP field. -/
def State.otpField (s : State) (off n : Nat) : Nat := ofLe (s.otpBytes off n)

/-- SERIAL of MFG. -/
def State.serial (s : State) : Nat := s.otpField 0 8

/-- Bits program from 0 to 1 and never back (R306): the bytes OR-ed into OTP from an offset. -/
def otpProgram (otp : Map Byte) (off : Nat) : List Byte → Map Byte
  | [] => otp
  | b :: l => otpProgram (otp.put 0 off (otp.get 0 off ||| b)) (off + 1) l

/-! ## Roots and derived keys (Table 11-3) -/

/-- DR, or the test root under debug substitution (R309). -/
def State.dr (s : State) : List Byte := if s.woad.debugSub then le 32 Config.testRoot else s.otpBytes 0x40 32

/-- KT. -/
def State.kt (s : State) : List Byte := kdf s.dr (label 0x5A 0x54 0x52 0x4E) (le 8 s.serial) 256

/-- KO(n). -/
def State.ko (s : State) (n : Nat) : List Byte := kdf s.dr (label 0x5A 0x4F 0x57 0x4E) (le 8 n) 256

/-- Offset of OWNER[n]. -/
def ownerOff (n : Nat) : Nat := 0x180 + 64 * n

/-- OWNER[n] is written, not revoked, and its tag verifies under KO(n) (R307). -/
def State.ownerUsable (s : State) (n : Nat) : Bool :=
  let o := s.otpBytes (ownerOff n) 64
  !zeros o 0 64 && !bitAt (s.otpField 0x280 4) n &&
    (gcmTag (s.ko n) (slice o 8 12) (o.take 8) (slice o 20 32)).take 12 == slice o 52 12

/-- OR: the active owner's root, or the test owner root (R309, R310). -/
def State.ownerRoot (s : State) : List Byte :=
  if s.woad.debugSub then kdf s.dr (label 0x5A 0x54 0x4F 0x52) (zeroBytes 8) 256
  else
    let o := s.otpBytes (ownerOff s.woad.owner) 64
    gcmCrypt (s.ko s.woad.owner) (slice o 8 12) (slice o 20 32)

/-- HK, which exists in OWNED only (R308). -/
def State.hk (s : State) : Option (List Byte) :=
  if s.woad.life = .owned then some (kdf s.ownerRoot (label 0x5A 0x44 0x49 0x52) (zeroBytes 8) 128) else none

/-- KW. -/
def State.kw (s : State) : List Byte := kdf s.ownerRoot (label 0x5A 0x57 0x52 0x50) (zeroBytes 8) 256

/-- RK of a role and credential: from OR, or from KT in PROVISIONED. -/
def State.rk (s : State) (role cred : Nat) : List Byte :=
  let parent := if s.woad.life = .owned ∨ s.woad.debugSub then s.ownerRoot else s.kt
  kdf parent (label 0x5A 0x52 0x4F 0x4C) (le 1 role ++ le 4 cred ++ zeroBytes 3) 128

/-- K_S of a session. -/
def sessionKey (rk : List Byte) (sid carrier role cred : Nat) (nh nd : List Byte) : List Byte :=
  kdf rk (label 0x5A 0x53 0x45 0x53) (le 2 sid ++ le 1 carrier ++ le 1 role ++ le 4 cred ++ nh ++ nd) 128

/-- d_ID and d_AK as private keys (R310, R323). -/
def State.dId (s : State) : Nat := ecPriv (kdf s.dr (label 0x5A 0x49 0x44 0x4B) (zeroBytes 8) 448)
def State.dAk (s : State) : Nat := ecPriv (kdf s.dr (label 0x5A 0x41 0x54 0x4B) (le 4 s.cpm.pcycle.toNat ++ zeroBytes 4) 448)

/-- A key-table change waits for the next bank copy; none is written under debug substitution (R320, R309). -/
def keyChanged (i : Nat) (s : State) : State :=
  if s.woad.debugSub then s else { s with woad.pending := { kind := 0, slot := i, thread := none } :: s.woad.pending }

/-- What a call that changed the key table waits for. -/
def State.keyWait (s : State) : Option Wait := if s.woad.debugSub then none else some .keyTable

/-! ## Keyslots (R311, R314, R315) -/

/-- Keyslot `i`. -/
def State.keySlot (s : State) (i : Nat) : KeySlot := s.woad.slots.get {} i

/-- MR of a meter under a slot key. -/
def meterRoot (slotKey : List Byte) (ma : BitVec 64) : List Byte :=
  kdf slotKey (label 0x5A 0x4D 0x52 0x54) (le 8 ma.toNat) 128

/-- FK of a meter root and epoch (R311). -/
def frameKey (mr : List Byte) (kepoch : Nat) : List Byte := kdf mr (label 0x5A 0x46 0x52 0x4D) (le 8 kepoch) 128

/-- The ordered tests of R314 on a district slot and an epoch: the refusing status, or none. -/
def KeySlot.admits (k : KeySlot) (epoch : Nat) : Option Nat :=
  match k.st with
  | .empty => some stKeyAbsent
  | .orphaned => some stKeyOrphaned
  | .active =>
    if k.typ ≠ 1 then some stKeyAbsent
    else if epoch < k.epmin then some stKeyOrphaned
    else if k.epmax < epoch then some stKeyAbsent
    else none

/-- BK(e) of a broadcast slot. -/
def bcastKey (slotKey : List Byte) (e : Nat) : List Byte := kdf slotKey (label 0x5A 0x42 0x43 0x53) (le 8 e) 128

/-- The slot that serves a broadcast epoch now (R315): BKCUR, BKNEXT once announced, the epoch before for 256 s. -/
def State.bcastSlot (s : State) (e : Nat) : Option Nat :=
  let b := s.woad.bcast
  if b.valid ∧ e = b.cur then some b.slot
  else match b.next with
  | some n =>
    if n.e = e then some n.slot
    else match b.prev with
      | some (pe, ps, till) => if pe = e ∧ s.nowS < till then some ps else none
      | none => none
  | none =>
    match b.prev with
    | some (pe, ps, till) => if pe = e ∧ s.nowS < till then some ps else none
    | none => none

/-- The broadcast key Woad serves for an epoch; an epoch whose slot is no longer ACTIVE is not served. -/
def State.servedBk (s : State) (e : Nat) : Option (List Byte) :=
  match s.bcastSlot e with
  | some i => if (s.keySlot i).st = .active then some (bcastKey (s.keySlot i).key e) else none
  | none => none

/-- Woad serves the broadcast key of BKCUR (R43). -/
def State.bkCurServed (s : State) : Bool := s.woad.bcast.valid && (s.servedBk s.woad.bcast.cur).isSome

end Sys2Proof.Machine
end

