-- ==== Sys2Proof/Machine/Calendar.lean ====
section
/-! DEFINITION. Tariff calendars: the layout of Table 6-6, civil time, tariffs, demand boundaries, billing closes (R166 to R171). -/

namespace Sys2Proof.Machine

/-- A calendar as stored, 2,048 bytes. -/
abbrev Cal := List Byte

/-! ## Fields (Table 6-6) -/

def calD (c : Cal) : Nat := field c 1 1
def calPrule (c : Cal) : Nat := field c 2 1
def calPday (c : Cal) : Nat := field c 3 1
def calPmin (c : Cal) : Nat := field c 4 2
def calPn (c : Cal) : Nat := field c 6 2
def calPanchor (c : Cal) : Nat := field c 8 8
def calNseas (c : Cal) : Nat := field c 16 1
def calNweek (c : Cal) : Nat := field c 17 1
def calNday (c : Cal) : Nat := field c 18 1
def calNspec (c : Cal) : Nat := field c 19 1
def calNofs (c : Cal) : Nat := field c 20 1
def calRound (c : Cal) : Nat := field c 1792 1
def calDround (c : Cal) : Nat := field c 1793 1
/-- The rounding section, bytes 1,792 to 1,807. -/
def calRounding (c : Cal) : List Byte := slice c 1792 16
/-- Entry i of the offset table: TAI_FROM and OFS. -/
def calOfs (c : Cal) (i : Nat) : Nat × Int := (field c (1024 + 12 * i) 8, signed 32 (field c (1024 + 12 * i + 8) 4))
/-- Switch point j of day type d: minute and tariff. -/
def calSw (c : Cal) (d j : Nat) : Nat × Nat := (field c (128 + 48 * d + 4 + 3 * j) 2, field c (128 + 48 * d + 6 + 3 * j) 1)
def calNsw (c : Cal) (d : Nat) : Nat := field c (128 + 48 * d) 1

/-! ## Civil time (R166) -/

/-- A civil date. -/
structure Date where
  y : Int
  m : Nat
  d : Nat
deriving DecidableEq, Repr

/-- The proleptic Gregorian date of day `z` counted from 1970-01-01. -/
def civilDate (z : Int) : Date :=
  let z1 := z + 719468
  let era := z1 / 146097
  let doe := (z1 - era * 146097).toNat
  let yoe := (doe - doe / 1460 + doe / 36524 - doe / 146096) / 365
  let doy := doe - (365 * yoe + yoe / 4 - yoe / 100)
  let mp := (5 * doy + 2) / 153
  let m := if mp < 10 then mp + 3 else mp - 9
  { y := (yoe : Int) + era * 400 + (if m ≤ 2 then 1 else 0), m := m, d := doy - (153 * mp + 2) / 5 + 1 }

/-- Gregorian leap years. -/
def leapYear (y : Int) : Bool := y % 4 == 0 && (y % 100 != 0 || y % 400 == 0)

/-- Days of a month; February of a leap year has 29. -/
def monthDays (m : Nat) (leap : Bool) : Nat :=
  if m = 2 then (if leap then 29 else 28) else if m = 4 ∨ m = 6 ∨ m = 9 ∨ m = 11 then 30 else 31

/-- OFS(t): the entry with the largest TAI_FROM not above t, the first entry before that (R166). -/
def ofsAt (c : Cal) (t : Nat) : Int :=
  ((List.range (calNofs c)).foldl (fun o i => if (calOfs c i).1 ≤ t then (calOfs c i).2 else o) (calOfs c 0).2)

/-- Civil seconds c = t + OFS(t). -/
def civil (c : Cal) (t : Nat) : Int := (t : Int) + ofsAt c t

/-- Civil second of the day. -/
def civilSod (c : Cal) (t : Nat) : Nat := (civil c t % 86400).toNat

/-- Civil date of a TAI second. -/
def dateAt (c : Cal) (t : Nat) : Date := civilDate (civil c t / 86400)

/-- Monday = 0; day 0 was a Thursday. -/
def weekdayAt (c : Cal) (t : Nat) : Nat := ((civil c t / 86400 + 3) % 7).toNat

/-! ## Tariffs (R167) -/

/-- SPEC entry i matches a date: with `named`, one for that very year; else one for every year. -/
def specMatches (c : Cal) (i : Nat) (dt : Date) (named : Bool) : Bool :=
  let o := 896 + 4 * i
  let yr := field c (o + 3) 1
  field c o 1 == dt.m && field c (o + 1) 1 == dt.d &&
    (if named then yr != 0xFF && decide ((yr : Int) + 2000 = dt.y) else yr == 0xFF)

/-- The season whose start is the latest on or before the date, the last wrapping across the year end. -/
def seasonAt (c : Cal) (dt : Date) : Nat :=
  (List.range (calNseas c)).foldl (fun s i =>
    if field c (32 + 4 * i) 1 * 32 + field c (33 + 4 * i) 1 ≤ dt.m * 32 + dt.d then i else s) (calNseas c - 1)

/-- The day type of a TAI second. -/
def dayTypeAt (c : Cal) (t : Nat) : Nat :=
  let dt := dateAt c t
  let specs := List.range (calNspec c)
  match firstWhere (fun i => specMatches c i dt true) specs with
  | some i => field c (898 + 4 * i) 1
  | none =>
    match firstWhere (fun i => specMatches c i dt false) specs with
    | some i => field c (898 + 4 * i) 1
    | none => field c (64 + 8 * field c (34 + 4 * seasonAt c dt) 1 + weekdayAt c t) 1

/-- The tariff of the calendar alone at a TAI second. -/
def calTariff (c : Cal) (t : Nat) : Nat :=
  let d := dayTypeAt c t
  let min := civilSod c t / 60
  (List.range (calNsw c d)).foldl (fun r j => if (calSw c d j).1 ≤ min then (calSw c d j).2 else r) 0

/-! ## Billing closes (R169) -/

/-- A period of the calendar closes at t by PRULE 0 or PRULE 1. -/
def calCloses (c : Cal) (t : Nat) : Bool :=
  match calPrule c with
  | 0 => (dateAt c t).d == calPday c && civilSod c t == calPmin c * 60
  | 1 => ((t : Int) - (calPanchor c : Int)) % ((calPn c : Int) * 86400) == 0
  | _ => false

/-! ## Demand boundaries (R166) -/

/-- t is a boundary of the calendar alone: on the civil grid of D, at an offset change, or at a PRULE 1 close. -/
def calBoundary (c : Cal) (t : Nat) : Bool :=
  civil c t % ((60 * calD c : Nat) : Int) == 0 || (List.range (calNofs c)).any (fun i => (calOfs c i).1 == t) || calCloses c t

/-- The least of the candidates above t, `none` when there is none. -/
def leastAbove (t : Nat) (l : List Nat) : Option Nat :=
  l.foldl (fun r x => if t < x then (match r with | none => some x | some y => some (min x y)) else r) none

/-- The next boundary of the calendar alone after t. -/
def calNextBoundary (c : Cal) (t : Nat) : Option Nat :=
  let g : Nat := 60 * calD c
  if g = 0 then none
  else
    let grid := t + (g - (civil c t % (g : Int)).toNat)
    let ofs := (List.range (calNofs c)).map fun i => (calOfs c i).1
    let p := calPn c * 86400
    let rule1 := if calPrule c = 1 ∧ p ≠ 0 then
        [((t : Int) + (p : Int) - (((t : Int) - (calPanchor c : Int)) % (p : Int))).toNat] else []
    leastAbove t (grid :: ofs ++ rule1)

/-! ## Validity (R168) -/

/-- Strictly ascending. -/
def ascending : List Nat → Bool
  | [] => true
  | [_] => true
  | a :: b :: l => decide (a < b) && ascending (b :: l)

/-- A month and day that exist in some year; 29 February only where `leapOk`. -/
def monthDay (m d : Nat) (leapOk : Bool) : Bool := decide (1 ≤ m ∧ m ≤ 12 ∧ 1 ≤ d) && decide (d ≤ monthDays m leapOk)

/-- Day type d of the calendar meets Table 6-6. -/
def dayTypeOk (c : Cal) (d : Nat) : Bool :=
  let n := calNsw c d
  let mins := (List.range n).map fun j => (calSw c d j).1
  decide (1 ≤ n ∧ n ≤ 12) && zeros c (128 + 48 * d + 1) 3 && zeros c (128 + 48 * d + 40) 8 &&
    ascending mins && (calSw c d 0).1 == 0 &&
    (List.range n).all fun j => decide ((calSw c d j).1 < 1440) && (calSw c d j).1 % calD c == 0 && decide ((calSw c d j).2 ≤ 7)

/-- Every rule of Table 6-6; unused entries are not judged. -/
def calValid (c : Cal) : Bool :=
  let d := calD c
  c.length == 2048 && field c 0 1 == 1 && decide (5 ≤ d ∧ d ≤ 60) && 1440 % d == 0 && decide (calPrule c ≤ 2) &&
    (calPrule c != 0 || (decide (1 ≤ calPday c ∧ calPday c ≤ 28) && decide (calPmin c ≤ 1439) && calPmin c % d == 0)) &&
    (calPrule c != 1 || decide (1 ≤ calPn c ∧ calPn c ≤ 366)) &&
    decide (1 ≤ calNseas c ∧ calNseas c ≤ 8) && decide (1 ≤ calNweek c ∧ calNweek c ≤ 8) &&
    decide (1 ≤ calNday c ∧ calNday c ≤ 16) && decide (calNspec c ≤ 32) && decide (1 ≤ calNofs c ∧ calNofs c ≤ 64) &&
    zeros c 21 11 &&
    ascending ((List.range (calNseas c)).map fun i => field c (32 + 4 * i) 1 * 32 + field c (33 + 4 * i) 1) &&
    ((List.range (calNseas c)).all fun i =>
      monthDay (field c (32 + 4 * i) 1) (field c (33 + 4 * i) 1) false && decide (field c (34 + 4 * i) 1 < calNweek c) &&
        zeros c (35 + 4 * i) 1) &&
    ((List.range (calNweek c)).all fun i =>
      ((List.range 7).all fun j => decide (field c (64 + 8 * i + j) 1 < calNday c)) && zeros c (71 + 8 * i) 1) &&
    ((List.range (calNday c)).all fun i => dayTypeOk c i) &&
    ((List.range (calNspec c)).all fun i =>
      let yr := field c (899 + 4 * i) 1
      monthDay (field c (896 + 4 * i) 1) (field c (897 + 4 * i) 1) (yr == 0xFF || leapYear ((yr : Int) + 2000)) &&
        decide (field c (898 + 4 * i) 1 < calNday c)) &&
    ascending ((List.range (calNofs c)).map fun i => (calOfs c i).1) &&
    ((List.range (calNofs c)).all fun i => decide (-86400 ≤ (calOfs c i).2 ∧ (calOfs c i).2 ≤ 86400)) &&
    decide (calRound c ≤ 1) && decide (calDround c ≤ 1) && zeros c 1794 14 && zeros c 1808 236 &&
    field c 2044 4 == crc32c (c.take 2044) &&
    (calPrule c != 1 || (civil c (calPanchor c) % ((60 * d : Nat) : Int) == 0 ||
      (List.range (calNofs c)).any fun i => (calOfs c i).1 == calPanchor c))

end Sys2Proof.Machine
end

