-- ==== Sys2Proof/Machine/Flits.lean ====
section
/-! DEFINITION. Sending on the cascade links: classes, credit, sequence numbers, routes (R367 to R375). -/

namespace Sys2Proof.Machine

/-- TYPE of a message (Table 14-2). -/
def flitType : Flit → Nat
  | .hello .. => 1 | .topo .. => 2 | .assign .. => 3 | .msg .. => 4 | .bcast .. => 5 | .balance .. => 5
  | .barrierArrive .. => 6 | .barrierRelease .. => 6 | .snap .. => 7 | .part .. => 8 | .bitmap .. => 9
  | .row .. => 0xA | .rowOk .. => 0xA | .rframe .. => 0xB | .rdecide .. => 0xC | .mirror .. => 0xD | .mack .. => 0xE
  | .resync .. => 0xF | .tsync .. => 0x10 | .partmap .. => 0x11 | .lfetch .. => 0x12 | .lfetched .. => 0x12
  | .reserved t => t

/-- CLASS of a flit type (Table 14-2). -/
def flitClass (typ : Nat) : Nat :=
  match typ with
  | 4 => 2 | 8 => 2 | 0xB => 1 | 0xC => 1 | 0xD => 1 | 0xE => 1 | 0xF => 3 | 0x12 => 3
  | _ => 0

/-- Payload bytes of a message, from which its flits are counted (layouts are not printed, log 44). -/
def flitBytes : Flit → Nat
  | .msg d => 4 + d.length
  | .bcast _ d => 4 + d.length
  | .bitmap _ => 8192
  | .balance _ _ l => 24 + 12 * l.length
  | .rframe _ _ _ _ f => 16 + f.length
  | .rdecide _ _ a => 8 + (match a with | some (_, _, f) => f.length | none => 0)
  | .mirror _ (.partMap _) => 4096
  | .mirror .. => 64
  | .resync _ _ l => 8 + 64 * l.length
  | .partmap _ => 4096
  | .lfetched .. => 4096
  | _ => 48

/-- Flits of a message: 52 payload bytes in the head, 60 in each continuation (R368). -/
def flitCount (m : Flit) : Nat := 1 + ceilDiv (flitBytes m - 52) 60

/-- CRC-32C of a flit over its LSEQ and its first 60 bytes, at the flit's end (R368). -/
def flitOf (lseq : Nat) (body : List Byte) : List Byte := body ++ le 4 (crc32c (le 2 (lseq % 65536) ++ body))

/-- The 64-byte flits of a message sent: its head, and the continuation flits with what its payload has beyond 52 bytes (Table 14-1). -/
def CMsg.flits (m : CMsg) : List (List Byte) :=
  let n := flitBytes m.m
  let pay := fit n (Config.flitPayload m.m)
  let t := flitType m.m
  let head := le 1 t ++ le 1 (flitClass t * 64 + 32 * flag (decide (52 < n))) ++ le 1 m.src ++ le 1 m.dst ++ le 2 n ++ le 2 m.mid ++ fit 52 pay
  (List.range (flitCount m.m)).map fun i => flitOf (m.lseq + i) (if i = 0 then head else fit 60 (slice pay (60 * i - 8) 60))

/-- The eight bytes of a link word (Table 14-3). -/
def wordBytes (kind arg seq arg2 : Nat) : List Byte :=
  let b := le 1 kind ++ le 1 arg ++ le 2 seq ++ le 2 arg2
  b ++ le 2 (crc16 b)

/-- The CRC-16 with which a link word came is the one of its other bytes (R369). -/
def wordOk (kind arg seq arg2 : Nat) (crc : BitVec 16) : Bool := crc.toNat == crc16 (le 1 kind ++ le 1 arg ++ le 2 seq ++ le 2 arg2)

/-- Port `p` of the cascade. -/
def State.cport (s : State) (p : Nat) : CPort := s.cas.ports.get {} p

/-- The state with cascade port `p` changed by `f`. -/
def updCport (p : Nat) (f : CPort → CPort) (s : State) : State :=
  { s with cas.ports := s.cas.ports.put {} p (f (s.cport p)) }

/-- Whether a waiting message's class holds credit. -/
def CPort.mayStart (c : CPort) (m : CMsg) : Bool := decide (0 < c.credit.get 0 (flitClass (flitType m.m)))

/-- The next message to start: class 0 first, then 1; classes 2 and 3 share 2 : 1 (R371). -/
def CPort.pickMsg (c : CPort) : Option CMsg :=
  let oldest := fun (k : Nat) => firstWhere (fun m => decide (flitClass (flitType m.m) = k) && c.mayStart m) c.txq
  match oldest 0, oldest 1, oldest 2, oldest 3 with
  | some m, _, _, _ => some m
  | none, some m, _, _ => some m
  | none, none, some a, some b => if c.turns < 2 then some a else some b
  | none, none, some a, none => some a
  | none, none, none, b => b

/-- Messages of which some flit is among the last 128 sent (R370). -/
def keepSent (l : List CMsg) : List CMsg :=
  (l.foldl (fun (a : List CMsg × Nat) m => if a.2 < 128 then (a.1 ++ [m], a.2 + m.count) else a) ([], 0)).1

/-- A port's next message enters the link: the chosen one leaves the queue. -/
def CPort.start (c : CPort) : CPort :=
  match c.cur, c.pickMsg with
  | none, some m =>
    let k := flitClass (flitType m.m)
    { c with cur := some { m with lseq := c.txSeq.toNat, count := flitCount m.m, left := flitCount m.m }
             txq := c.txq.erase m, turns := if k = 2 then c.turns + 1 else if k = 3 then 0 else c.turns }
  | _, _ => c

/-- Flits leave a port while credit lasts; a message whose last flit has left is an output (R368, R371). -/
def pumpPort (p : Nat) : Nat → State → State
  | 0, s => s
  | fuel + 1, s =>
    let c := (s.cport p).start
    match c.cur with
    | none => updCport p (fun _ => c) s
    | some m =>
      let k := flitClass (flitType m.m)
      let n := min m.left (c.credit.get 0 k)
      let c1 := { c with credit := c.credit.put 0 k (c.credit.get 0 k - n), txSeq := c.txSeq + BitVec.ofNat 16 n }
      let s1 := countN (kCasPort p 0) n s
      if n < m.left then updCport p (fun _ => { c1 with cur := some { m with left := m.left - n } }) s1
      else
        let done := { m with left := 0 }
        pumpPort p fuel (emit (.cas p m.src m.dst m.mid m.m)
          (updCport p (fun _ => { c1 with cur := none, unacked := keepSent (done :: c1.unacked) }) s1))

/-- Sends what can be sent. -/
def pump (p : Nat) (s : State) : State := pumpPort p ((s.cport p).txq.length + 1) s

/-- A message joins a port's queue; a port that is down sends nothing but HELLO. -/
def sendMsg (p src dst mid : Nat) (m : Flit) (s : State) : State :=
  let c := s.cport p
  if c.st = 2 ∨ (c.st = 1 ∧ flitType m = 1) then
    pump p (updCport p (fun c => { c with txq := c.txq ++ [{ src := src, dst := dst, mid := mid, m := m }] }) s)
  else s

/-- A new message of this chip on one port. -/
def sendOn (p dst : Nat) (m : Flit) (s : State) : State :=
  sendMsg p s.cas.chipId dst s.cas.nextMid m { s with cas.nextMid := (s.cas.nextMid + 1) % 65536 }

/-- A link word (R369). -/
def sendWord (p kind arg seq arg2 : Nat) (s : State) : State := emit (.casWord p kind arg seq arg2) s

/-! ## Routes (R375) -/

/-- DOWN ports that are up. -/
def State.downPorts (s : State) : List Nat := (s.cas.ports.filter fun p => p.2.role == 3 && p.2.st == 2).map (·.1)

/-- The UP port that is up. -/
def State.upPort (s : State) : Option Nat := (firstWhere (fun (p : Nat × CPort) => p.2.role == 1 && p.2.st == 2) s.cas.ports).map (·.1)

/-- The MIRROR ports that are up. -/
def State.mirrorPorts (s : State) : List Nat := (s.cas.ports.filter fun p => p.2.role == 4 && p.2.st == 2).map (·.1)

/-- Children in numbering order: DOWN ports up whose peer is no standby, with the first chip ID and the size of each subtree (R375). -/
def State.children (s : State) : List (Nat × Nat × Nat) :=
  let l := s.cas.ports.filter fun p => p.2.role == 3 && p.2.st == 2 && !p.2.peerStby
  (l.foldl (fun (a : List (Nat × Nat × Nat) × Nat) p =>
    let n := match p.2.subtree with | some (n, _) => n | none => 0
    (a.1 ++ [(p.1, a.2, n)], a.2 + n)) ([], s.cas.chipId + 1)).1

/-- The port toward a chip ID; `none` for this chip itself and for a chip that is absent or unreachable. -/
def State.portTo (s : State) (dst : Nat) : Option Nat :=
  if dst = s.cas.chipId ∨ s.cas.chips ≤ dst then none
  else match firstWhere (fun (c : Nat × Nat × Nat) => decide (c.2.1 ≤ dst ∧ dst < c.2.1 + c.2.2)) s.children with
  | some c => some c.1
  | none => if s.cas.detached then none else s.upPort

/-- A message of this chip to a chip ID, when a route exists. -/
def sendTo (dst : Nat) (m : Flit) (s : State) : State :=
  match s.portTo dst with
  | some p => sendOn p dst m s
  | none => s

/-- A message to the parent. -/
def sendUp (dst : Nat) (m : Flit) (s : State) : State :=
  match s.upPort with
  | some p => sendOn p dst m s
  | none => s

/-- A message to every child (a broadcast on its way down). -/
def sendDown (m : Flit) (s : State) : State := s.downPorts.foldl (fun s p => sendOn p 0xFF m s) s

/-- A broadcast of the master of a stack, counted (Table 14-14). -/
def broadcast (m : Flit) (s : State) : State := sendDown m (countIf (s.cas.master && decide (1 < s.cas.chips)) (kCas 14) s)

end Sys2Proof.Machine
end

