-- ==== Sys2Proof/Machine/Journal.lean ====
section
/-! DEFINITION. The ledger journal (R183), its mirror (R385, R386), and what each record changes. -/

namespace Sys2Proof.Machine

/-! ## What records change -/

/-- BOUNDARY flags (Table 6-7). -/
def bfReplayed : Nat := 0
def bfHoldover : Nat := 1
def bfCollapsed : Nat := 2
def bfForced : Nat := 3
def bfOffset : Nat := 4
def bfCalact : Nat := 5
def bfStep : Nat := 6

/-- Puts a boundary record into the log, newest BSEQ first. -/
def insBoundary (b : BRec) : List BRec → List BRec
  | [] => [b]
  | c :: l => if c.bseq < b.bseq then b :: c :: l else c :: insBoundary b l

/-- A boundary record takes effect: period numbers advance, staged calendars it names come in force (R169, R171). -/
def applyBoundary (b : BRec) (acts : List Nat) (d : LData) : LData :=
  let per := (List.range 64).foldl (fun p c => if b.pmask.getLsbD c then p.put 0 c ((p.get 0 c + 1) % 2 ^ 32) else p) d.period
  let act := fun (x : LData) (c : Nat) =>
    match x.calSt.find c with
    | some (bytes, _) => { x with calIn := x.calIn.put [] c ((b.t, bytes) :: x.calIn.get [] c), calSt := x.calSt.del c }
    | none => x
  acts.foldl act { d with blog := insBoundary b d.blog, period := per }

/-- Rekeys a map from an old MH to a new one. -/
def rekey {α : Type} (m : Map α) (old new : Nat) : Map α :=
  match m.find old with
  | some v => (m.del old).ins new v
  | none => m

/-- The open record names the meter's new MH; closed records keep the one they were written under (R138). -/
def movedTo (mh : Nat) (m : Meter) : Meter := { m with opn := m.opn.map fun r => { r with mh := mh } }

/-- An open record gains UNSEALED (R188). -/
def unsealed (m : Meter) : Meter := { m with opn := m.opn.map fun r => { r with status := setBit r.status 3 } }

/-- A record of a reserved type is skipped by replay and counted (Table 6-8). -/
def JRec.skipped (r : JRec) : Bool := decide (r.typ = 0 ∨ 10 < r.typ)

/-- The last instant that a boundary record covers: T, or T_FROM of a set-back (Table 6-7). -/
def BRec.until (b : BRec) : Nat := if bitAt b.flags bfStep then b.tfirst else b.t

/-- What a journal record does to the ledger's data. -/
def applyRec (r : JRec) (d : LData) : LData :=
  if r.skipped then d
  else match r.eff with
  | .meter mh m => { d with meters := d.meters.put {} mh m }
  | .final mh m _ => { d with meters := d.meters.put {} mh m }
  | .boundary b acts => if d.blog.any (fun x => x.bseq == b.bseq) then d else applyBoundary b acts d
  | .move v e lsn off =>
    { d with meters := rekey (d.meters.put {} v.old (movedTo v.new (d.meters.get {} v.old))) v.old v.new, moveLog := (r.jseq, v) :: d.moveLog
             dirLog := ⟨r.jseq, v.new, e, lsn, off⟩ :: ⟨r.jseq, v.old, {}, lsn, off⟩ :: d.dirLog }
  | .dir mh e lsn off => { d with dirLog := ⟨r.jseq, mh, e, lsn, off⟩ :: d.dirLog }
  | .node n bytes => { d with nodeLog := (r.jseq, n, bytes) :: d.nodeLog }
  | .stage c bytes t => { d with calSt := d.calSt.ins c (bytes, t) }
  | .force k e => { d with force := match e with | some x => d.force.ins k x | none => d.force.del k }
  | .mordant true => d
  | .mordant false => { d with meters := d.meters.mapVals unsealed }
  | .policy p => { d with policy := some p }

/-! ## Mirroring (R385, R386) -/

/-- A standby is in service and acknowledges records (Table 14-9 code 1). -/
def State.mirrored (s : State) : Bool := s.cas.pair == 1

/-- Sends a mirror record on the mirror links while a standby is in service, or resynchronises (R385, R394); `jseq` and `tomb`
name what its acknowledgement completes. -/
def mirror (r : MirRec) (jseq : Option Nat) (tomb : Option Nat) (s : State) : State :=
  if s.cas.pair = 1 ∨ (s.cas.pair = 2 ∧ s.cas.phase ≠ 0) then
    let n := s.cas.mirSeq
    let s1 := s.mirrorPorts.foldl (fun s p => sendOn p s.cas.chipId (.mirror n r) s) s
    let waits : List MirOut := if s.cas.pair = 1 then [{ seq := n, at_ := s.nowNs, jseq := jseq, tomb := tomb }] else []
    count (kCas 17) { s1 with cas.mirSeq := n + 1, cas.mirOut := s1.cas.mirOut ++ waits }
  else s

/-! ## Writing and completing records (R183) -/

/-- LEN of a record's body. Table 6-8 prints the layouts of BOUNDARY, CLOSE and a calendar; the others are the model's (log 125). -/
def JRec.len (r : JRec) : Nat :=
  match r.eff with
  | .meter .. => if r.typ = 3 then 256 else if r.typ = 8 then 160 else 456
  | .final .. => 16
  | .boundary .. => 128
  | .move .. => 16
  | .dir .. => 40
  | .node .. => 16
  | .stage .. => 2064
  | .force .. => 32
  | .mordant .. => 152
  | .policy .. => 16

/-- A record enters the journal at its end and takes effect in the working state. -/
def stageRec (r : JRec) (s : State) : State :=
  let x := { r with pos := s.ldg.jpos, at_ := s.nowNs }
  { s with ldg.jq := s.ldg.jq ++ [x], ldg.jlog := x :: s.ldg.jlog, ldg.jpos := s.ldg.jpos + 16 + r.len, ldg.jseq := r.jseq + 1
           ldg.live := applyRec r s.ldg.live }

/-- Stages a journal record: it takes effect in the working state at once and completes when durable. Answers its JSEQ. -/
def journal (typ : Nat) (eff : JEff) (s : State) : State × Nat :=
  let r : JRec := { jseq := s.ldg.jseq, typ := typ, eff := eff, acked := !s.mirrored }
  (mirror (.journal r) (some r.jseq) none (stageRec r s), r.jseq)

/-- The journal ring of 262,144 chunks has no room left before its oldest record that is not released: bookings wait (R222). -/
def State.journalFull (s : State) : Bool :=
  match s.ldg.jlog.getLast? with
  | some r => decide (r.pos / 4096 * 4096 + 2 ^ 30 < s.ldg.jpos + 8192)
  | none => false

/-- Journal records below the lowest group JSEQ are released (R222). -/
def releaseJournal (s : State) : State :=
  let gs := s.ldg.dur.meters.map fun m => s.lake.groupJseq.get 0 (m.1 / 8)
  match gs with
  | [] => s
  | g :: l => let lo := l.foldl min g; { s with ldg.jlog := s.ldg.jlog.filter fun r => decide (lo ≤ r.jseq) }

/-- The journal still holds the boundary record of a BSEQ (R184). -/
def State.holdsBoundary (s : State) (n : Nat) : Bool :=
  s.ldg.jlog.any fun r => match r.eff with | .boundary b _ => b.bseq == n | _ => false

/-- Stages a journal record whose completion nothing waits for. -/
def journal' (typ : Nat) (eff : JEff) (s : State) : State := (journal typ eff s).1

/-- Marks the oldest record not yet durable as durable in this chip's Lake; its effect joins the durable data. -/
def landFirst : List JRec → LData → List JRec × LData
  | [], d => ([], d)
  | r :: l, d => if r.landed then let (l', d') := landFirst l d; (r :: l', d') else ({ r with landed := true } :: l, applyRec r d)

/-- What completes with a record: the call that waits on it, and a STEP record's clock step becomes applicable (R179). -/
def completeRec (r : JRec) (s : State) : State := wake (.journal r.jseq) none none s

/-- Completes the records at the head that are durable and acknowledged (R183, R386). -/
def completeRecs : List JRec → State → List JRec × State
  | [], s => ([], s)
  | r :: l, s => if r.landed && r.acked then completeRecs l (completeRec r s) else (r :: l, s)

/-- Completes every record that now can complete. -/
def completeJournal (s : State) : State :=
  let (l, s') := completeRecs s.ldg.jq s
  { s' with ldg.jq := l }

/-- One journal record becomes durable (R183, R224); none while Lake refuses ledger writes (R234). -/
def landJournal (s : State) : State :=
  if s.lake.protect then s
  else
    let (q, d) := landFirst s.ldg.jq s.ldg.dur
    completeJournal { s with ldg.jq := q, ldg.dur := d }

/-- Every staged record becomes durable (R236: HOLD-UP and drains land everything). -/
def landAllJournal (s : State) : State := iter s.ldg.jq.length landJournal s

/-- Last durable BSEQ and its T (LDG_BSEQ, LDG_BTIME). -/
def State.lastDurable (s : State) : Option BRec := s.ldg.dur.blog.head?

end Sys2Proof.Machine
end

