-- ==== Sys2Proof/Machine/Ledger.lean ====
section
/-! DEFINITION. The Ledger Unit: tariffs in force, demand, booking, roll-forward, boundaries, sweep, clock steps (R158 to R181, R484). -/

namespace Sys2Proof.Machine

/-! ## STATUS (Table 6-3) and records -/

def lsHoldover : Nat := 2
def lsUnsealed : Nat := 3
def lsReplayed : Nat := 4
def lsWrapsat : Nat := 5
def lsRebased : Nat := 6
def lsLongspan : Nat := 7
def lsShort : Nat := 8
def lsPartial : Nat := 9
def lsCarried : Nat := 10
def lsUnsynced : Nat := 11
def lsRepeated : Nat := 12

/-- STATUS with RSTATE r and its other bits kept. -/
def withRstate (st r : Nat) : Nat := st % 8192 + r * 8192

/-- Sets a bit of STATUS when the condition holds. -/
def setIf (b : Bool) (bit st : Nat) : Nat := if b then setBit st bit else st

/-- Bytes of a demand entry (Table 6-4). -/
def DemandE.bytes (d : DemandE) : List Byte := le 6 d.dval ++ le 4 d.dtime ++ le 1 d.dflags ++ le 1 d.dwrap

/-- The 256 bytes of a ledger record (Table 6-2), CHECK included. -/
def LRec.bytes (r : LRec) : List Byte :=
  let head := le 4 (r.mh + r.cls * 2 ^ 20 + r.cal * 2 ^ 24) ++ le 4 r.period ++ le 8 r.pstart ++ le 8 r.lastbook ++ le 2 r.status ++ le 2 r.wrap
  let tail := fit 128 ((r.totals.map (le 8)).flatten) ++ fit 96 ((r.demand.map DemandE.bytes).flatten)
  head ++ le 4 (crc32c (head ++ tail)) ++ tail

/-- The 192 bytes of a register shadow (Table 6-5). -/
def RegShadow.bytes (r : RegShadow) : List Byte :=
  let b := fit 144 ((r.lastval.map fun v => match v with | some x => le 8 (x + 2 ^ 63) | none => zeroBytes 8).flatten)
    ++ le 8 r.dacc ++ le 8 r.dopen ++ le 4 r.sflags ++ zeroBytes 24
  b ++ le 4 (crc32c b)

/-- The 128 bytes of a boundary record (Table 6-7). -/
def BRec.bytes (b : BRec) : List Byte :=
  let x := le 8 b.bseq ++ le 8 b.t ++ le 8 b.imask.toNat ++ le 8 b.smask.toNat ++ le 8 b.pmask.toNat ++ le 24 b.newtar
    ++ le 4 b.flags ++ le 4 b.count ++ le 8 b.tfirst ++ zeroBytes 44
  x ++ le 4 (crc32c x)

/-- Meter `mh`. -/
def State.meter (s : State) (mh : Nat) : Meter := s.ldg.live.meters.get {} mh

/-- LASTVAL[r] (R161). -/
def RegShadow.last (r : RegShadow) (i : Nat) : Option Nat := (r.lastval[i]?).join

/-- The shadow with LASTVAL[r] set. -/
def RegShadow.setLast (r : RegShadow) (i : Nat) (v : Option Nat) : RegShadow :=
  { r with lastval := setAt (r.lastval ++ List.replicate (18 - r.lastval.length) none) i v }

/-- Register index of a kind and tariff (R161). -/
def regIndex (kind tariff : Nat) : Nat := if tariff = 0xF then 16 + kind else 2 * tariff + kind

/-! ## Calendars in force (R166, R167, R170) -/

/-- The copy of calendar `c` that governs instant t: the latest that took force at or before t, the first one before that. -/
def LData.calAt (d : LData) (c t : Nat) : Option Cal :=
  let h := d.calIn.get [] c
  match firstWhere (fun e => decide (e.1 ≤ t)) h with
  | some e => some e.2
  | none => h.getLast?.map (·.2)

/-- Calendar `c` has a copy in force (R484). -/
def LData.active (d : LData) (c : Nat) : Bool := !(d.calIn.get [] c).isEmpty

/-- First activation instant of calendar `c`. -/
def LData.firstAct (d : LData) (c : Nat) : Option Nat := (d.calIn.get [] c).getLast?.map (·.1)

/-- Force-schedule entries of calendar `c`. -/
def LData.forces (d : LData) (c : Nat) : List ForceE := (List.range 16).filterMap fun i => d.force.find (c * 16 + i)

/-- The forced tariff at t, if a window holds it. -/
def LData.forcedAt (d : LData) (c t : Nat) : Option Nat :=
  (d.forces c).foldl (fun r e => match e with
    | .window a b tar => if a ≤ t ∧ (b = 0 ∨ t < b) then some tar else r
    | .close _ => r) none

/-- The tariff in force at t (R167); 0 for a calendar with no copy in force. -/
def LData.tariffAt (d : LData) (c t : Nat) : Nat :=
  match d.forcedAt c t with
  | some x => x
  | none => match d.calAt c t with
    | some k => calTariff k t
    | none => 0

/-- Instants the force schedule adds to the boundaries (R166). -/
def LData.forceEdges (d : LData) (c : Nat) : List Nat :=
  ((d.forces c).map fun e => match e with
    | .window a b _ => if b = 0 then [a] else [a, b]
    | .close a => [a]).flatten

/-- A commanded close falls at t. -/
def LData.forcedClose (d : LData) (c t : Nat) : Bool := (d.forces c).any fun e => e == .close t

/-- A billing period of calendar `c` closes at t, by the copy in force before t (R169, R171). -/
def LData.closesAt (d : LData) (c t : Nat) : Bool :=
  match d.firstAct c with
  | none => false
  | some f => decide (f < t) && (d.forcedClose c t || match d.calAt c (t - 1) with | some k => calCloses k t | none => false)

/-- The next demand boundary of calendar `c` after t; none before its first activation (R166, R484). -/
def LData.nextBoundary (d : LData) (c t : Nat) : Option Nat :=
  match d.firstAct c with
  | none => none
  | some f =>
    if t < f then some f
    else
      let acts := (d.calIn.get [] c).map (·.1)
      let own := match d.calAt c t with | some k => (calNextBoundary k t).toList | none => []
      leastAbove t (own ++ acts ++ d.forceEdges c)

/-- Boundaries of calendar `c` in (t, m], in order. -/
def LData.boundaries (d : LData) (c : Nat) : Nat → Nat → Nat → List Nat
  | 0, _, _ => []
  | k + 1, t, m =>
    match d.nextBoundary c t with
    | some b => if b ≤ m then b :: d.boundaries c k b m else []
    | none => []

/-- An interval is SHORT (R172): not 60 D long, or overlapping an outage. -/
def State.shortAt (s : State) (c a b : Nat) : Bool :=
  let d := match s.ldg.live.calAt c a with | some k => calD k | none => 0
  b - a != 60 * d || s.ldg.outages.any fun o => decide (o.1 < b * 1000000000 ∧ a * 1000000000 < o.2)

/-! ## Totals and demand -/

/-- Adds to TOTAL[t][k] with the wrap rule of R160; 10^15 is subtracted as often as it takes, each time a step of WRAP (log 102). -/
def addTotal (t k amount : Nat) (r : LRec) (s : State) : LRec × State :=
  let i := 2 * t + k
  let tots := r.totals ++ List.replicate (16 - r.totals.length) 0
  let v := tots.getD i 0 + amount
  if v < 10 ^ 15 then ({ r with totals := setAt tots i v }, s)
  else
    let dm := r.demand ++ List.replicate (8 - r.demand.length) ({} : DemandE)
    let e := dm.getD t ({} : DemandE)
    let n := r.wrap + v / 10 ^ 15
    let r1 := { r with
      totals := setAt tots i (v % 10 ^ 15)
      wrap := min n 0xFFFF
      status := setIf (decide (0xFFFF < n)) lsWrapsat r.status
      demand := setAt dm t { e with dwrap := setBit e.dwrap k } }
    (r1, postNotice 0x0501 1 (le 4 r.mh ++ le 4 r.period ++ le 1 t ++ le 1 k) (count (kLdg 3) s))

/-- The demand of an interval of energy e under D and DROUND (R165). -/
def demandOf (k : Cal) (e : Nat) : Nat :=
  let d := max (calD k) 1
  let v := if calDround k = 1 then (e * 120 + d) / (2 * d) else e * 60 / d
  min v (2 ^ 48 - 1)

/-- Finalises the interval [a, b) with energy e and DFLAGS fl: the candidate replaces DEMAND only if strictly greater (R165). -/
def finalise (s : State) (a b e fl : Nat) (r : LRec) : LRec :=
  match s.ldg.live.calAt r.cal a with
  | none => r
  | some k =>
    let t := s.ldg.live.tariffAt r.cal a
    let dm := r.demand ++ List.replicate (8 - r.demand.length) ({} : DemandE)
    let old := dm.getD t ({} : DemandE)
    let v := demandOf k e
    let st := setIf (bitAt fl 7) lsShort r.status
    if old.dval < v then
      { r with status := st, demand := setAt dm t { old with dval := v, dtime := b - r.pstart, dflags := fl } }
    else { r with status := st, demand := dm }

/-- DFLAGS of an interval from SFLAGS and its SHORT mark: [7] SHORT, [6] PARTIAL, [5] REPEATED, [4] UNSYNCED. -/
def dflagsOf (sfl : Nat) (short : Bool) : Nat :=
  flag (short || bitAt sfl 0) * 128 + flag (bitAt sfl 3) * 64 + flag (bitAt sfl 1) * 32 + flag (bitAt sfl 2) * 16

/-! ## Opening and rolling forward (R176, R484) -/

/-- A new open record under calendar `cal` at T, as R176 step 3 and R484 open one. -/
def openRec (s : State) (mh cls cal period pstart lastbook : Nat) : LRec :=
  { cal := cal, cls := cls, mh := mh, period := period, pstart := pstart, lastbook := lastbook,
    status := setIf (!s.ldg.sealed) lsUnsealed (withRstate 0 1),
    totals := List.replicate 16 0, demand := List.replicate 8 ({} : DemandE) }

/-- Closes the open record with RSTATE r after finalising DACC, to the end of the open demand interval (R176 steps 1 and 2); `t` where its
calendar has no further boundary. -/
def closeRec (s : State) (m : Meter) (o : LRec) (t rst : Nat) : LRec :=
  let stop := (s.ldg.live.nextBoundary o.cal m.sh.dopen).getD t
  let part := decide (o.lastbook < stop)
  let fl := setIf part 6 (dflagsOf m.sh.sflags (s.shortAt o.cal m.sh.dopen stop))
  let o1 := if s.ldg.live.active o.cal then finalise s m.sh.dopen stop m.sh.dacc fl o else o
  { o1 with status := withRstate (setIf (part && s.ldg.live.active o.cal) lsPartial o1.status) rst }

/-- Directory calendar of an MH, which a record takes when it opens (R176). -/
def State.dirCal (s : State) (mh dflt : Nat) : Nat := match s.ing.dir.find mh with | some e => e.cal.toNat | none => dflt

/-- One boundary record acts on a meter (R176, R180): a set-back lowers LASTBOOK; a close of its calendar closes and reopens its record. -/
def rollOne (s : State) (b : BRec) (m : Meter) : Meter :=
  let m1 := { m with bnext := b.bseq + 1 }
  match m.opn with
  | none => m1
  | some o =>
    if bitAt b.flags bfStep then { m1 with opn := some { o with lastbook := min o.lastbook b.t } }
    else
      let mine := b.imask.getLsbD o.cal || b.smask.getLsbD o.cal || b.pmask.getLsbD o.cal
      let hold := mine && bitAt b.flags bfHoldover
      let repl := b.pmask.getLsbD o.cal && bitAt b.flags bfReplayed
      let o0 := { o with status := setIf repl lsReplayed (setIf hold lsHoldover o.status) }
      if b.pmask.getLsbD o.cal then
        let done := closeRec s m o0 b.t 2
        let cal := s.dirCal o.mh o.cal
        let live := s.ldg.live.active cal
        let per := if cal = o.cal then (o.period + 1) % 2 ^ 32 else s.ldg.live.period.get 0 cal
        let nw := openRec s o.mh o.cls cal (if live then per else 0) (if live then b.t else 0) o.lastbook
        { m1 with
          opn := some { nw with status := setIf repl lsReplayed nw.status }
          closed := (done :: m.closed).take s.ldg.nkeep, closes := m.closes + 1
          sh := { m.sh with dacc := 0, dopen := if live then b.t else 0, sflags := 0 } }
      else { m1 with opn := some o0 }

/-- A record opened under a calendar never activated takes PSTART and DOPEN at its first touch after ACT_T (R484). -/
def firstTouch (s : State) (m : Meter) : Meter :=
  match m.opn with
  | some o =>
    if o.pstart = 0 then
      match s.ldg.live.firstAct o.cal with
      | some f => { m with opn := some { o with pstart := f }, sh := { m.sh with dopen := f } }
      | none => m
    else m
  | none => m

/-- A meter rolled forward over boundary records (oldest first). -/
def rollOver (s : State) (bs : List BRec) (m : Meter) : Meter :=
  bs.foldl (fun m b => firstTouch s (rollOne s b m)) (firstTouch s m)

/-- The BSEQ of the newest STEP record whose step has been applied: every record up to it lies in the past (R180). -/
def stepBseq (log : List BRec) (waiting : Option (Nat × Nat × Nat)) : Nat :=
  match firstWhere (fun b => bitAt b.flags bfStep && (waiting.all fun w => decide (b.bseq ≠ w.2.2))) log with
  | some b => b.bseq
  | none => 0

/-- Boundary records of a log not yet applied to the meter, oldest first, with T before the decision instant in ns when one is given (R174). -/
def pendingBoundaries (log : List BRec) (waiting : Option (Nat × Nat × Nat)) (m : Meter) (before : Option Nat) : List BRec :=
  let past := stepBseq log waiting
  (log.filter fun b => decide (m.bnext ≤ b.bseq) && (waiting.all fun w => decide (b.bseq ≠ w.2.2)) &&
    (decide (b.bseq ≤ past) || match before with | some d => decide (b.t * 1000000000 < d) | none => true)).reverse

/-- Rolls meter `mh` forward over the records of a boundary log on a touch, writing CLOSE records; `byCtr` is the counter of closes (R176). -/
def rollForward (log : List BRec) (mh : Nat) (before : Option Nat) (byCtr : Nat) (s : State) : State :=
  let m := s.meter mh
  let bs := pendingBoundaries log s.ldg.stepPending m before
  let m1 := rollOver s bs m
  if m1 = m then s
  else
    let n := m1.closes - m.closes
    countN (kLdg byCtr) n (journal' (if n = 0 then 0x01 else 0x03) (.meter mh m1) s)

/-! ## Booking (R163, R164, R174) -/

/-- Tariff segments of [a, m): lengths with their tariffs, cut where the tariff changes. -/
def segments (d : LData) (c : Nat) (a m : Nat) : List (Nat × Nat) :=
  let cuts := d.boundaries c (m - a) a (m - 1)
  let step := fun (acc : List (Nat × Nat) × Nat × Nat) (b : Nat) =>
    let tar := d.tariffAt c b
    if tar = acc.2.2 then acc else ((b - acc.2.1, acc.2.2) :: acc.1, b, tar)
  let (l, st, tar) := cuts.foldl step ([], a, d.tariffAt c a)
  ((m - st, tar) :: l).reverse

/-- Inserts an index by decreasing key, ties to the earlier index. -/
def insertBy (key : Nat → Nat) (i : Nat) : List Nat → List Nat
  | [] => [i]
  | j :: l => if key j < key i then i :: j :: l else j :: insertBy key i l

/-- Portions of Δ over segments with the remainder placed by ROUND (R163 steps 4 and 5). -/
def portions (round delta s : Nat) (segs : List (Nat × Nat)) : List Nat :=
  let p := segs.map fun x => delta * x.1 / s
  let rem := delta - p.foldl (· + ·) 0
  if round = 0 then
    setAt p (p.length - 1) (p.getD (p.length - 1) 0 + rem)
  else
    let frac := fun i => delta * (segs.getD i (0, 0)).1 % s
    let order := ((List.range segs.length).reverse.foldr (fun i l => l ++ [i]) []).foldl (fun l i => insertBy frac i l) []
    (order.take rem).foldl (fun q i => setAt q i (q.getD i 0 + 1)) p

/-- Adds portions to totals by tariff. -/
def addPortions (kind : Nat) : List ((Nat × Nat) × Nat) → LRec → State → LRec × State
  | [], r, s => (r, s)
  | ((_, tar), p) :: l, r, s =>
    let (r1, s1) := addTotal tar kind p r s
    addPortions kind l r1 (count (kLdg 1) s1)

/-- One import or export record booked into totals (R163). `a` is LASTBOOK before the frame. -/
def bookTotals (p : PassRec) (a m : Nat) (untariffed : Bool) (r : LRec) (s : State) : LRec × State :=
  let carried := decide (a < r.pstart ∧ a < m)
  let r0 := { r with status := setIf carried lsCarried r.status }
  let s0 := countIf carried (kLdg 4) s
  if p.tariff ≠ 0xF then
    if untariffed then (r, s)
    else let (r1, s1) := addTotal p.tariff p.kind p.delta r0 s0; (r1, count (kLdg 1) s1)
  else
    let d := s.ldg.live
    if m ≤ a then let (r1, s1) := addTotal (d.tariffAt r.cal m) p.kind p.delta r0 s0; (r1, count (kLdg 1) s1)
    else
      let segs := segments d r.cal a m
      if 256 < segs.length then
        let (r1, s1) := addTotal (d.tariffAt r.cal m) p.kind p.delta { r0 with status := setIf true lsLongspan r0.status } s0
        (r1, count (kLdg 6) (count (kLdg 1) s1))
      else
        let round := match d.calAt r.cal m with | some k => calRound k | none => 0
        addPortions p.kind (segs.zip (portions round p.delta (m - a) segs)) r0 s0

/-- SFLAGS of an open interval [a, ...) after a booking with flags `fl`, SHORT where the interval is (R172). -/
def openFlags (s : State) (c a fl : Nat) : Nat :=
  match s.ldg.live.nextBoundary c a with
  | some b => setIf (s.shortAt c a b) 0 fl
  | none => fl

/-- Demand of a booking of import energy e over [a, m) (R164): finalises what the span passes and leaves the interval of m open. Each
interval has the D of the copy that governs it (R171). -/
def bookDemand (e a m fl : Nat) (r : LRec) (sh : RegShadow) (s : State) : LRec × RegShadow × State :=
  let d := s.ldg.live
  let len := m - a
  if m ≤ a ∨ m < sh.dopen then (r, { sh with sflags := openFlags s r.cal sh.dopen (sh.sflags ||| fl) }, s)
  else
    let dur := fun (x : Nat) => match d.calAt r.cal x with | some k => 60 * calD k | none => 0
    let cuts := d.boundaries r.cal (m - sh.dopen) sh.dopen m
    let portion := fun (x y : Nat) => if y ≤ a then 0 else if a ≤ x then e * dur x / len else e * (y - a) / len
    let open1 := fun (x : Nat) => e * (m - max x a) / len
    match cuts with
    | [] => (r, { sh with dacc := sh.dacc + open1 sh.dopen, sflags := openFlags s r.cal sh.dopen (sh.sflags ||| fl) }, s)
    | b :: rest =>
      let r1 := finalise s sh.dopen b (sh.dacc + portion sh.dopen b) (dflagsOf (sh.sflags ||| fl) (s.shortAt r.cal sh.dopen b)) r
      let step := fun (acc : LRec × Nat × Nat) (y : Nat) =>
        (finalise s acc.2.1 y (portion acc.2.1 y) (dflagsOf fl (s.shortAt r.cal acc.2.1 y)) acc.1, y, acc.2.2 + 1)
      let (r2, last, n) := rest.foldl step (r1, b, 1)
      (r2, { sh with dopen := last, dacc := open1 last, sflags := openFlags s r.cal last fl }, countN (kLdg 2) n s)

/-- LASTBOOK before a booking of frame f, as R194 hands it on: m itself when nothing has been booked. -/
def bookBefore (o : LRec) (f : PassFrame) : Nat := if o.lastbook = 0 then f.m else o.lastbook

/-- Every record of a frame booked in order (R163): first values set LASTVAL alone, a record of KIND 2 touches nothing. -/
def bookRecs (a m untar : Nat) (plain : Bool) : List PassRec → LRec → RegShadow → State → LRec × RegShadow × State
  | [], r, sh, s => (r, sh, s)
  | p :: l, r, sh, s =>
    let i := regIndex p.kind p.tariff
    let s0 := count (kLdg 0) s
    if p.kind = 2 then bookRecs a m untar plain l r sh s0
    else if plain ∨ (sh.last i).isNone then bookRecs a m untar plain l { r with lastbook := max r.lastbook m } (sh.setLast i (some p.value)) s0
    else
      let (r1, s1) := bookTotals p a m (bitAt untar p.kind) r s0
      bookRecs a m untar plain l { r1 with lastbook := m } (sh.setLast i (some p.value)) s1

/-- Energy of one side of a frame (R164, R194): that of its untariffed record where it carries one, else the sum of its tariffed ones. A record
that did not pass, or whose register had no last value, adds nothing. -/
def sideEnergy (untar : Nat) (recs : List PassRec) (kind : Nat) : Nat :=
  recs.foldl (fun n p => if p.kind = kind ∧ (p.tariff = 0xF ∨ !bitAt untar kind) then n + p.delta else n) 0

/-- Books a frame into the meter's open record, rolled forward already (R163, R164, R180). -/
def bookFrame (f : PassFrame) (s : State) : State :=
  let mt := s.meter f.mh
  match mt.opn with
  | none => s
  | some o =>
    let a := o.lastbook
    let plain := !s.ldg.live.active o.cal
    let rep := match s.ldg.span with | some (t0, t1) => decide (t0 ≤ f.m ∧ f.m < t1 ∧ f.decided < t1 * 1000000000) | none => false
    let old := f.recs.filter fun p => p.kind != 2 && (mt.sh.last (regIndex p.kind p.tariff)).isSome
    let fl := flag rep * 2 + flag f.unsync * 4
    let o0 := { o with status := setIf f.unsync lsUnsynced (setIf rep lsRepeated o.status) }
    let (o1, sh1, s1) := bookRecs a f.m f.untar plain f.recs o0 mt.sh s
    let (o2, sh2, s2) :=
      if plain ∨ old.isEmpty then (o1, { sh1 with sflags := openFlags s o.cal sh1.dopen (sh1.sflags ||| fl) }, s1)
      else bookDemand (sideEnergy f.untar old 0) a f.m fl o1 sh1 s1
    countN (kLdg 5) (if rep then f.recs.length else 0) (journal' 0x01 (.meter f.mh { mt with opn := some o2, sh := sh2 }) s2)

end Sys2Proof.Machine
end

