-- ==== Sys2Proof/Machine/Topology.lean ====
section
/-! DEFINITION. The balance topology: nodes, feed chains, NMETER (R191, R192, R195, R202). -/

namespace Sys2Proof.Machine

/-- Fields of CFG (Table 7-1). -/
def cfgValid (c : Nat) : Bool := bitAt c 8
def cfgChk (c : Nat) : Bool := bitAt c 9
def cfgClass (c : Nat) : Nat := bits c 15 12
def cfgPersist (c : Nat) : Nat := bits c 6 4
def cfgShared (c : Nat) : Bool := bitAt c 3

/-- PARENT, CFG and CHKMH as last written. -/
def Node.written (x : Node) : Nat × Nat × Nat := (x.parent, x.cfg, x.chkmh)

/-- PARENT, CFG and CHKMH as they stood at the last close. -/
def Node.atClose (x : Node) : Nat × Nat × Nat := x.old.getD x.written

/-- PARENT, CFG and CHKMH in force: PARENT, CLASS, HASCHK and CHKMH of the last close while a change waits for the next (R202),
with VALID as last written. A node defined since the last close has its new place at once, and no check meter until the next. -/
def Node.inForce (x : Node) : Nat × Nat × Nat :=
  match x.old with
  | none => x.written
  | some (p, c, k) =>
    if cfgValid c then (p, if cfgValid x.cfg then c else c - 0x100, k)
    else (x.parent, if cfgChk x.cfg then x.cfg - 0x200 else x.cfg, x.chkmh)

/-- Node `n`. -/
def State.node (s : State) (n : Nat) : Node := s.bal.nodes.get {} n

/-- The state with node `n` changed by `f`. -/
def updNode (n : Nat) (f : Node → Node) (s : State) : State :=
  { s with bal.nodes := s.bal.nodes.put {} n (f (s.bal.nodes.get {} n)) }

/-- The feed chain from node `n` by a view of PARENT and CFG: up to and including the first checked node (R192: at most 8). -/
def chainIn (view : Nat → Nat × Nat × Nat) : Nat → Nat → List Nat
  | 0, _ => []
  | k + 1, n =>
    if n = 0xFFFF then []
    else
      let (p, c, _) := view n
      if !cfgValid c then [] else if cfgChk c then [n] else n :: chainIn view k p

/-- The topology in force. -/
def State.topo (s : State) (n : Nat) : Nat × Nat × Nat := (s.node n).inForce

/-- The feed chain of a node in force. -/
def State.chain (s : State) (n : Nat) : List Nat := chainIn s.topo 8 n

/-- The node whose check meter an MH is, by a view of the nodes. -/
def State.checkNodeIn (s : State) (v : Node → Nat × Nat × Nat) (mh : Nat) : Option Nat :=
  (firstWhere (fun (e : Nat × Node) => cfgValid (v e.2).2.1 && cfgChk (v e.2).2.1 && (v e.2).2.2 == mh) s.bal.nodes).map (·.1)

/-- The node whose check meter an MH is, in force. -/
def State.checkNode (s : State) (mh : Nat) : Option Nat := s.checkNodeIn Node.inForce mh

/-- The nodes a meter's energy goes to by a view of the nodes, with `true` for the IN side (R195). -/
def State.feedIn (s : State) (v : Node → Nat × Nat × Nat) (mh node : Nat) : List (Nat × Bool) :=
  let chain := chainIn (fun n => v (s.node n)) 8
  match s.checkNodeIn v mh with
  | some n => (n, true) :: (chain (v (s.node n)).1).map fun x => (x, false)
  | none => (chain node).map fun x => (x, false)

/-- The nodes a meter's energy goes to in force. -/
def State.feed (s : State) (mh node : Nat) : List (Nat × Bool) := s.feedIn Node.inForce mh node

/-- NMETER along the chain of a meter's NODE after the meter joins or leaves; a check meter feeds by its node, not by NODE. -/
def bumpChain (mh node : Nat) (join : Bool) (s : State) : State :=
  if (s.checkNode mh).isSome then s
  else (s.chain node).foldl (fun s n => updNode n (fun x =>
    { x with nmeter := if join then min (x.nmeter + 1) 0xFFFFF else x.nmeter - 1 }) s) s

/-- The checked node at the end of a chain sets MOVED (R202). -/
def markMoved (node : Nat) (s : State) : State :=
  match (s.chain node).getLast? with
  | some n => if cfgChk (s.topo n).2.1 then updNode n (fun x => { x with moved := true }) s else s
  | none => s

/-- A meter's NODE changes: NMETER along both chains, MOVED at both ends (R202). -/
def moveMeter (mh old new : Nat) (s : State) : State :=
  if old = new ∨ (s.checkNode mh).isSome then s
  else markMoved new (markMoved old (bumpChain mh new true (bumpChain mh old false s)))

/-- A handle move rewrites every CHKMH that names the old MH (R202). -/
def Node.rekeyed (old new : Nat) (x : Node) : Node :=
  let f := fun (k : Nat) => if k = old then new else k
  { x with chkmh := if cfgChk x.cfg then f x.chkmh else x.chkmh, old := x.old.map fun o => (o.1, o.2.1, f o.2.2) }

/-- Feeding meters of node `n` by a view of the nodes and a walk of the directory: meters whose chain reaches it and check
meters of its children (R202). -/
def State.feedersIn (s : State) (v : Node → Nat × Nat × Nat) (n : Nat) : List Nat :=
  (s.ing.dir.filter fun e => (s.feedIn v e.1 e.2.node.toNat).contains (n, false)).map (·.1)

/-- Feeding meters of node `n` in force. -/
def State.feeders (s : State) (n : Nat) : List Nat := s.feedersIn Node.inForce n

/-- NMETER of every node recomputed. -/
def recountNodes (s : State) : State :=
  { s with bal.nodes := s.bal.nodes.map fun e => (e.1, { e.2 with nmeter := min (s.feeders e.1).length 0xFFFFF }) }

end Sys2Proof.Machine
end

