-- ==== Sys2Proof/Machine/Directory.lean ====
section
/-! DEFINITION. The Meter Directory: hashing, lookup, insertion, relocation and the operations of Table 5-4 (R132 to R139, R150, R155). -/

namespace Sys2Proof.Machine

/-! ## Entries (Table 5-2) -/

/-- The 32 bytes of an entry. -/
def DirEntry.bytes (e : DirEntry) : List Byte :=
  le 8 e.ma.toNat ++ le 4 e.fcntHi.toNat ++ le 4 e.rbitmap.toNat
    ++ le 4 (e.ackt.toNat + e.afl.toNat * 2 ^ 28 + flag e.async * 2 ^ 31) ++ le 2 e.node.toNat ++ le 2 e.link.toNat
    ++ le 1 e.kepoch.toNat ++ le 1 (e.dkslot.toNat + flag e.direct * 64 + flag e.pvalid * 128)
    ++ le 1 (e.pdkslot.toNat + flag e.cmdpend * 128) ++ le 1 e.cslot.toNat
    ++ le 1 (e.cslot.toNat / 256 * 16 + flag e.wakepend * 8) ++ le 1 e.delay.toNat
    ++ le 1 (e.cls.toNat + flag e.medium * 16 + e.st.code * 32) ++ le 1 (e.cal.toNat + e.profile.toNat * 64)

/-- Entry `mh`. -/
def State.entry (s : State) (mh : Nat) : DirEntry := s.ing.dir.get {} mh

/-- Writes entry `mh`, which a standby mirrors (Table 14-8). -/
def setEntry (mh : Nat) (e : DirEntry) (s : State) : State :=
  mirror (.dir mh e) none none { s with ing.dir := s.ing.dir.put {} mh e }

/-- The entry reads poisoned (R19) or holds a reserved STATE (Table 5-3). -/
def State.entryBad (s : State) (mh : Nat) : Bool := s.ing.dirPoison.get false mh || decide ((s.entry mh).st = .reserved)

/-- The way holds no entry. -/
def State.wayFree (s : State) (mh : Nat) : Bool := !s.ing.dirPoison.get false mh && decide ((s.entry mh).st = .free)

/-! ## Hashing and lookup (R133, R134, R378) -/

/-- Y = AES-128(HK, MA bytes then zeros), bit 0 first. -/
def hashY (hk : List Byte) (ma : BitVec 64) : Nat := ofLe (aes hk (le 8 ma.toNat ++ zeroBytes 8))

/-- The two candidate buckets. -/
def buckets (hk : List Byte) (ma : BitVec 64) : Nat × Nat :=
  let y := hashY hk ma
  let b1 := bits y 17 0
  let d := if bits y 37 32 = 0 then 1 else bits y 37 32
  (b1, bits y 49 38 * 64 + ((b1 % 64) ^^^ d))

/-- Ways of a bucket. -/
def ways (b : Nat) : List Nat := [4 * b, 4 * b + 1, 4 * b + 2, 4 * b + 3]

/-- The MH of an MA. -/
def State.lookup (s : State) (ma : BitVec 64) : Option Nat :=
  match s.hk with
  | none => none
  | some hk =>
    let (b1, b2) := buckets hk ma
    firstWhere (fun mh => decide ((s.entry mh).st ≠ .free) && decide ((s.entry mh).ma = ma)) (ways b1 ++ ways b2)

/-- The chip that owns an MA: its partition block in the map, or PB mod CHIPS (R378). -/
def State.ownerChip (s : State) (ma : BitVec 64) : Nat :=
  match s.hk with
  | none => s.cas.chipId
  | some hk =>
    let pb := bits (hashY hk ma) 61 50
    match s.cas.partMap with
    | some m => m.getD pb 0
    | none => pb % max s.cas.chips 1

/-- The lowest free way of a bucket. -/
def State.freeWay (s : State) (b : Nat) : Option Nat := firstWhere s.wayFree (ways b)

/-- The other candidate bucket of the entry at `mh`. -/
def State.otherBucket (s : State) (hk : List Byte) (mh : Nat) : Nat :=
  let (b1, b2) := buckets hk (s.entry mh).ma
  if mh / 4 = b1 then b2 else b1

/-- Breadth-first search for a chain of relocations, paths newest way first; `fuel` bounds the relocations (R137). -/
def dirSearch (s : State) (hk : List Byte) : Nat → List (List Nat) → Option (List Nat × Nat)
  | 0, _ => none
  | k + 1, paths =>
    let ok := paths.filter fun p => match p with | w :: _ => !s.entryBad w | [] => false
    let hit := firstWhere (fun (p : List Nat) => (s.freeWay (s.otherBucket hk (p.headD 0))).isSome) ok
    match hit with
    | some p => (s.freeWay (s.otherBucket hk (p.headD 0))).map fun f => (p, f)
    | none =>
      let grow := fun (p : List Nat) =>
        let b := s.otherBucket hk (p.headD 0)
        if p.any (fun w => w / 4 == b) then [] else (ways b).map fun w => w :: p
      dirSearch s hk k (ok.map grow).flatten

/-- Where a new entry goes, with the relocations to do first, free end first (R137). -/
def State.plan (s : State) (hk : List Byte) (ma : BitVec 64) : Option (List Reloc5 × Nat) :=
  let (b1, b2) := buckets hk ma
  match s.freeWay b1 with
  | some w => some ([], w)
  | none => match s.freeWay b2 with
    | some w => some ([], w)
    | none => (dirSearch s hk 5 ((ways b1 ++ ways b2).map fun w => [w])).map fun (p, f) =>
        ((p.zip (f :: p)).map fun (a, b) => { ma := (s.entry a).ma, old := a, new := b }, p.getLast?.getD 0)

/-- Some decoding layer holds a frame whose latched MH is the entry (R138). A line frame has no MH before its last codeword is decoded, and its
decision falls in the same command (log 118). -/
def State.heldMh (s : State) (mh : Nat) : Bool := s.rla.layers.any fun e => e.2.mh == some mh

/-! ## Journal records -/

/-- Writes an entry with its directory journal record; answers its JSEQ (R136). -/
def commitEntry (mh : Nat) (e : DirEntry) (s : State) : State × Nat := 
  journal 0x05 (.dir mh e s.lake.lsnHead s.lake.logOff) (setEntry mh e s)

/-- FCNT_EXHAUSTED (R143). -/
def exhaustedNotice (mh : Nat) (e : DirEntry) (s : State) : State :=
  postNotice 0x0401 1 (le 8 e.ma.toNat ++ le 4 mh ++ le 1 e.kepoch.toNat) s

/-- Writes the new entry and opens the meter's first ledger record (R484); answers the JSEQ its call waits on. -/
def placeEntry (mh : Nat) (e : DirEntry) (s : State) : State × Nat :=
  let cal := e.cal.toNat
  let act := s.ldg.live.active cal
  let per := if act then s.ldg.live.period.get 0 cal else 0
  let ps := if act then s.nowS else 0
  let m : Meter := { opn := some (openRec s mh e.cls.toNat cal per ps 0), sh := { dopen := ps }, bnext := s.ldg.bseq + 1 }
  let s1 := (commitEntry mh e s).1
  let s2 := bumpChain mh e.node.toNat true s1
  let s3 := if e.st = .exhausted then exhaustedNotice mh e s2 else s2
  journal 0x01 (.meter mh m) s3

/-- A line port's frames and the link of an end meter under the meter's new MH (R111, R138). -/
def LPort.rekeyed (old new : Nat) (p : LPort) : LPort :=
  let f := fun (k : Nat) => if k = old then new else k
  let g := fun (k : Nat) => if k = 65536 + old then 65536 + new else k
  let tx := fun (q : LTx) => { q with mh := f q.mh, link := g q.link }
  { p with queue := p.queue.map tx, tx := p.tx.map fun x => (tx x.1, x.2), resp := p.resp.map fun r => { r with link := g r.link }
           links := rekey p.links (65536 + old) (65536 + new) }

/-- The frames, queues, nodes and waiting operations that name an old MH take the new one (R138). -/
def rekeyAll (r : Reloc5) (s : State) : State :=
  let f := fun (k : Nat) => if k = r.old then r.new else k
  let s1 := { s with
    ing.staging := s.ing.staging.map fun x => { x with mh := f x.mh }
    ing.removes := s.ing.removes.map f
    ing.syncSf := rekey s.ing.syncSf r.old r.new
    lake.bring := s.lake.bring.map fun x => { x with mh := f x.mh }
    ldg.maint := s.ldg.maint.map fun x => { x with mh := f x.mh }
    pass := s.pass.map fun x => { x with mh := f x.mh }
    bal.nodes := s.bal.nodes.mapVals (Node.rekeyed r.old r.new)
    rla.ports := s.rla.ports.mapVals fun p => { p with queue := p.queue.map fun q => { q with mh := f q.mh } }
    lm.ports := s.lm.ports.mapVals (LPort.rekeyed r.old r.new) }
  rewait (.remove r.old) (some (.remove r.new)) none none s1

/-- One relocation, in one cycle, with its record and its notice (R138). -/
def doMove (r : Reloc5) (s : State) : State :=
  let e := s.entry r.old
  let s1 := rekeyAll r (setEntry r.new e (setEntry r.old {} s))
  let s2 := journal' 0x04 (.move r e s.lake.lsnHead s.lake.logOff) s1
  count kMoves (postNotice 0x0402 1 (le 8 r.ma.toNat ++ le 4 r.old ++ le 4 r.new) s2)

/-! ## Operations (Table 5-4) -/

/-- A failing operation: ENTRY is zero (Table 9-17). -/
def dirFail (s : State) (st : Nat) : EngOut := { st := s, status := st, out := [(32, zeroBytes 32)] }

/-- A durable operation's answer. -/
def dirDone (mh : Nat) (e : DirEntry) (r : State × Nat) : EngOut :=
  { st := r.1, status := stOk, out := [(0, le 8 e.ma.toNat), (8, le 4 mh), (32, e.bytes)], waits := some (.journal r.2) }

/-- The MH of a block, and its reserved bits. -/
def dirMh (b : List Byte) : Nat := bits (field b 8 4) 19 0
def dirReserved (b : List Byte) : Bool :=
  decide (2 ^ 20 ≤ field b 8 4) || bits (field b 15 1) 7 4 != 0 || bits (field b 24 2) 15 12 != 0 ||
    bits (field b 26 1) 7 6 != 0 || !zeros b 27 5

/-- A standby's directory is changed by mirror records alone (R384). -/
def State.dirClosed (s : State) : Bool := s.cas.pair == 3

/-- DIR_LOOKUP. -/
def engDirLookup (_t : Nat) (b : List Byte) (s : State) : EngOut :=
  if dirReserved b then dirFail s stBadArg
  else if s.hk.isNone then dirFail s stKeyAbsent
  else match s.lookup (BitVec.ofNat 64 (field b 0 8)) with
  | none => dirFail s stNotFound
  | some mh =>
    let s := readEntry mh s
    if s.entryBad mh then dirFail s stPoisoned
    else { st := s, status := stOk, out := [(8, le 4 mh), (32, (s.entry mh).bytes)] }

/-- DIR_READ. -/
def engDirRead (_t : Nat) (b : List Byte) (s0 : State) : EngOut :=
  let mh := dirMh b
  let s := readEntry mh s0
  if dirReserved b then dirFail s0 stBadArg
  else if s.entryBad mh then dirFail s stPoisoned
  else if (s.entry mh).st = .free then dirFail s stNotFound
  else { st := s, status := stOk, out := [(0, le 8 (s.entry mh).ma.toNat), (32, (s.entry mh).bytes)] }

/-- The entry a DIR_INSERT block asks for. -/
def insertEntry (b : List Byte) : DirEntry :=
  let has := bitAt (field b 15 1) 0
  let f := field b 16 4
  { ma := BitVec.ofNat 64 (field b 0 8), fcntHi := if has then BitVec.ofNat 32 f else 0, rbitmap := if has then 1 else 0
    node := BitVec.ofNat 16 (field b 20 2), kepoch := BitVec.ofNat 8 (field b 23 1), dkslot := BitVec.ofNat 6 (field b 22 1)
    st := if !has then .fresh else if f = 0xFFFFFFFF then .exhausted else .active
    cls := BitVec.ofNat 4 (field b 12 1), profile := BitVec.ofNat 2 (field b 13 1), cal := BitVec.ofNat 6 (field b 14 1) }

/-- Group addresses have the I/G bit: bit 0 of the MA's most significant byte as R37 numbers it. -/
def groupMa (ma : BitVec 64) : Bool := bitAt ma.toNat 56

/-- Places an entry now, or answers why it cannot (R137). -/
def tryInsert (e : DirEntry) (s : State) : Except Nat (List Reloc5 × Nat) :=
  match s.hk with
  | none => .error stKeyAbsent
  | some hk =>
    if (s.lookup e.ma).isSome then .error stExists
    else match s.plan hk e.ma with
    | none => .error stNoSlot
    | some p => .ok p

/-- DIR_INSERT. -/
def engDirInsert (_t : Nat) (b : List Byte) (s : State) : EngOut :=
  let e := insertEntry b
  if dirReserved b || decide (3 < field b 12 1) || decide (3 < field b 13 1) || decide (63 < field b 14 1)
      || decide (63 < field b 22 1) || groupMa e.ma then dirFail s stBadArg
  else if s.hk.isNone then dirFail s stKeyAbsent
  else if s.dirClosed then dirFail s stAccessDenied
  else if s.ownerChip e.ma ≠ s.cas.chipId then dirFail s stBadArg
  else
    let wait := fun (moves : List Reloc5) (final : Option Nat) =>
      let id := s.ing.nextInsert
      let w : InsertWait := { entry := e, moves := moves, final := final, id := id }
      { st := { s with ing.inserts := s.ing.inserts ++ [w], ing.nextInsert := id + 1 },
        status := stOk, out := [(32, zeroBytes 32)], waits := some (.insert id) : EngOut }
    if !s.ing.inserts.isEmpty then wait [] none
    else match tryInsert e s with
    | .error st => dirFail s st
    | .ok ([], w) => dirDone w e (placeEntry w e s)
    | .ok (ms, w) => wait ms (some w)

/-- The checks that operations on an MH share. -/
def dirOn (b : List Byte) (s0 : State) (f : Nat → DirEntry → State → EngOut) : EngOut :=
  let mh := dirMh b
  let s := readEntry mh s0
  if dirReserved b then dirFail s0 stBadArg
  else if s0.dirClosed then dirFail s0 stAccessDenied
  else if s.entryBad mh then dirFail s stPoisoned
  else if (s.entry mh).st = .free then dirFail s stNotFound
  else f mh (s.entry mh) s

/-- STATE of a resumed entry (Table 5-4). -/
def DirEntry.resumed (e : DirEntry) : DSt :=
  if e.st ≠ .suspended then e.st
  else if !e.rbitmap.getLsbD 0 then .fresh
  else if e.fcntHi = 0xFFFFFFFF then .exhausted else .active

/-- DIR_SET. -/
def engDirSet (_t : Nat) (b : List Byte) (s : State) : EngOut :=
  dirOn b s fun mh e s =>
    let m := field b 26 1
    let fl := field b 15 1
    if (bitAt m 0 && decide (3 < field b 12 1)) || (bitAt m 1 && decide (3 < field b 13 1)) || (bitAt m 2 && decide (63 < field b 14 1)) then
      dirFail s stBadArg
    else
      let e1 := { e with
        cls := if bitAt m 0 then BitVec.ofNat 4 (field b 12 1) else e.cls
        profile := if bitAt m 1 then BitVec.ofNat 2 (field b 13 1) else e.profile
        cal := if bitAt m 2 then BitVec.ofNat 6 (field b 14 1) else e.cal
        node := if bitAt m 3 then BitVec.ofNat 16 (field b 20 2) else e.node
        wakepend := if bitAt m 4 then bitAt fl 2 else e.wakepend
        st := if bitAt m 5 then (if bitAt fl 3 then .suspended else e.resumed) else e.st }
      dirDone mh e1 (commitEntry mh e1 (moveMeter mh e.node.toNat e1.node.toNat s))

/-- DIR_EPOCH. -/
def engDirEpoch (_t : Nat) (b : List Byte) (s : State) : EngOut :=
  dirOn b s fun mh e s =>
    let pd := field b 22 1
    if bitAt (field b 15 1) 1 then
      let e1 := { e with pvalid := false }
      dirDone mh e1 (commitEntry mh e1 s)
    else if 63 < pd ∨ (pd = e.dkslot.toNat ∧ e.kepoch = 255) then dirFail s stBadArg
    else
      let e1 := { e with pvalid := true, pdkslot := BitVec.ofNat 6 pd }
      dirDone mh e1 (commitEntry mh e1 s)

/-- DIR_CMD. -/
def engDirCmd (_t : Nat) (b : List Byte) (s : State) : EngOut :=
  dirOn b s fun mh e s =>
    let sl := field b 24 2
    if e.cmdpend ∨ (s.ing.cmdSlots.find sl).isNone then dirFail s stBadArg
    else
      let e1 := { e with cmdpend := true, cslot := BitVec.ofNat 12 sl }
      dirDone mh e1 (commitEntry mh e1 s)

/-- Frees an entry with its journal record. -/
def freeEntry (mh : Nat) (s : State) : State × Nat :=
  let s1 := bumpChain mh (s.entry mh).node.toNat false s
  commitEntry mh {} { s1 with ing.dirPoison := s1.ing.dirPoison.put false mh false }

/-- DIR_REMOVE. -/
def engDirRemove (_t : Nat) (b : List Byte) (s0 : State) : EngOut :=
  let mh := dirMh b
  let s := readEntry mh s0
  if dirReserved b then dirFail s0 stBadArg
  else if s0.dirClosed then dirFail s stAccessDenied
  else if s.wayFree mh then dirFail s stNotFound
  else if (s.meter mh).opn.isSome then dirFail s stLedgerOpen
  else
    let out := [(0, le 8 (s.entry mh).ma.toNat), (32, zeroBytes 32)]
    if s.heldMh mh then { st := { s with ing.removes := s.ing.removes ++ [mh] }, status := stOk, out := out, waits := some (.remove mh) }
    else
      let r := freeEntry mh s
      { st := r.1, status := stOk, out := out, waits := some (.journal r.2) }

/-! ## Rows -/

/-- DIR_LOOKUP. -/
def execDirLookup (t : Fin 256) (pi : Fin 8) (rt ra : Fin 32) (s : State) : Result := .next (ecall t pi rt ra 0x01 64 engDirLookup s)

/-- DIR_READ. -/
def execDirRead (t : Fin 256) (pi : Fin 8) (rt ra : Fin 32) (s : State) : Result := .next (ecall t pi rt ra 0x02 64 engDirRead s)

/-- DIR_INSERT. -/
def execDirInsert (t : Fin 256) (pi : Fin 8) (rt ra : Fin 32) (s : State) : Result := .next (ecall t pi rt ra 0x03 64 engDirInsert s)

/-- DIR_SET. -/
def execDirSet (t : Fin 256) (pi : Fin 8) (rt ra : Fin 32) (s : State) : Result := .next (ecall t pi rt ra 0x04 64 engDirSet s)

/-- DIR_EPOCH. -/
def execDirEpoch (t : Fin 256) (pi : Fin 8) (rt ra : Fin 32) (s : State) : Result := .next (ecall t pi rt ra 0x05 64 engDirEpoch s)

/-- DIR_CMD. -/
def execDirCmd (t : Fin 256) (pi : Fin 8) (rt ra : Fin 32) (s : State) : Result := .next (ecall t pi rt ra 0x06 64 engDirCmd s)

/-- DIR_REMOVE. -/
def execDirRemove (t : Fin 256) (pi : Fin 8) (rt ra : Fin 32) (s : State) : Result := .next (ecall t pi rt ra 0x07 64 engDirRemove s)

/-- Plans the insertions that waited for an earlier one; `fuel` bounds them. -/
def planInserts : Nat → State → State
  | 0, s => s
  | k + 1, s =>
    match s.ing.inserts with
    | [] => s
    | w :: l =>
      if w.final.isSome then s
      else match tryInsert w.entry s with
      | .error st => planInserts k (rewait (.insert w.id) none (some st) none { s with ing.inserts := l })
      | .ok ([], mh) =>
        let r := placeEntry mh w.entry { s with ing.inserts := l }
        planInserts k (rewait (.insert w.id) (some (.journal r.2)) none (some (dirDone mh w.entry r).out) r.1)
      | .ok (ms, mh) => { s with ing.inserts := { w with moves := ms, final := some mh } :: l }

/-- DIR_RELOCATION: the next relocation of the insertion under way, or a waiting removal, once no held frame names the entry (R138, R150). -/
def execDirRelocation (s : State) : Result :=
  onClock s (
    let remove := match firstWhere (fun mh => !s.heldMh mh) s.ing.removes with
      | none => s
      | some mh =>
        let r := freeEntry mh { s with ing.removes := s.ing.removes.filter fun x => x != mh }
        rewait (.remove mh) (some (.journal r.2)) none none r.1
    match s.ing.inserts with
    | { entry := e, moves := m :: ms, final := some w, id := id } :: l =>
      if s.heldMh m.old then remove
      else
        let s1 := doMove m s
        if ms.isEmpty then
          let r := placeEntry w e { s1 with ing.inserts := l }
          planInserts l.length (rewait (.insert id) (some (.journal r.2)) none (some (dirDone w e r).out) r.1)
        else { s1 with ing.inserts := { entry := e, moves := ms, final := some w, id := id } :: l }
    | _ => remove)

/-- DIR_CHECKPOINT: one bank of the directory goes to its Lake checkpoint, with the journal and log positions of its capture (R155), the RP0 descriptor and the cascade configuration (R407), the partition map (R378) and the campaign records (R435). -/
def execDirCheckpoint (bank : Fin 64) (s : State) : Result :=
  onClock s (
    if !s.lake.ready then s
    else
      let mine := s.ing.dir.filter fun e => e.1 / 4 % 64 == bank.val
      let c : BankCopy := { entries := mine, jseq := s.ldg.jseq, lsn := s.lake.lsnHead, off := s.lake.logOff }
      let roles := (List.range 4).map fun p => (s.cas.ports.get {} p).role
      { s with lake.banks := s.lake.banks.ins bank.val c
               lake.rp0 := (s.rla.ports.find 0).map (·.desc)
               lake.casCfg := some (roles, flag s.cas.paired + 2 * flag s.cas.primary)
               lake.partMap := s.cas.partMap, lake.camps := s.upd.camps })

end Sys2Proof.Machine
end

