-- ==== Sys2Proof/Machine/Cycle.lean ====
section
/-! DEFINITION. Cycle-table rows (R345 to R348), superframes (R53) and the broadcast epoch of each port (R315). -/

namespace Sys2Proof.Machine

/-! ## Superframes -/

/-- Superframe length of an SFCODE, seconds (Table 2-15). -/
def sfLen (code : Nat) : Nat := 16 * 2 ^ code

/-- Slots of a superframe (Table 2-15). -/
def sfSlots (code : Nat) : Nat := 64 * 2 ^ code

/-- The start, in TAI seconds, of the superframe that contains second `t`; none has begun before the first SOFS. -/
def sfStart (code sofs t : Nat) : Nat := t - (t + sfLen code - sofs) % sfLen code

/-- The first superframe start at or after an instant in ns. -/
def sfNext (code sofs ns : Nat) : Nat :=
  let t := ceilDiv ns 1000000000
  let r := t % sfLen code
  if r ≤ sofs then t + (sofs - r) else t + sfLen code - r + sofs

/-- Superframe number of the start at second `t` (R53). -/
def sfNumber (code sofs t : Nat) : Nat := (t - sofs) / sfLen code

/-! ## Broadcast epochs by port (R315) -/

/-- The epoch and slot that a port on this superframe grid uses at second `t`. -/
def State.portEpoch (s : State) (code sofs t : Nat) : Option (Nat × Nat) :=
  let b := s.woad.bcast
  let old := if b.valid then some (b.cur, b.slot) else none
  match b.next with
  | some n => if n.actT ≤ sfStart code sofs t then some (n.e, n.slot) else old
  | none => old

/-- The broadcast key of an epoch and slot, while the slot is ACTIVE. -/
def State.epochKey (s : State) (e slot : Nat) : Option (List Byte) :=
  if (s.keySlot slot).st = .active then some (bcastKey (s.keySlot slot).key e) else none

/-- Superframe grids of the enabled ports. -/
def State.portGrids (s : State) : List (Nat × Nat) :=
  ((s.rla.ports.filter fun p => p.2.desc.enable).map fun p => (p.2.desc.sfcode, p.2.desc.sofs))
    ++ ((s.lm.ports.filter fun p => p.2.desc.enable).map fun p => (p.2.desc.sfcode, p.2.desc.sofs))

/-- Once the last enabled port has changed to the announced epoch, it becomes BKCUR; the one before is served 256 s more (R315). -/
def bcastAdvance (s : State) : State :=
  let b := s.woad.bcast
  match b.next with
  | none => s
  | some n =>
    if n.actT ≤ s.nowS ∧ s.portGrids.all (fun g => decide (n.actT ≤ sfStart g.1 g.2 s.nowS)) then
      let b' : Bcast := { b with
        valid := decide ((s.keySlot n.slot).st = .active), cur := n.e, slot := n.slot, next := none
        prev := if b.valid then some (b.cur, b.slot, s.nowS + 256) else b.prev
        since := (n.e, s.nowS) :: b.since }
      mirror (.bcast b') none none (keyChanged 64 { s with woad.bcast := b' })
    else s

/-! ## Rows (Table 12-6) -/

/-- The instant of a row in TAI ns. -/
def Row.at_ (r : Row) : Nat := r.tS * 1000000000 + r.tNs

/-- The period of a row in ns; 0 for a one-shot row. -/
def Row.per (r : Row) : Nat := r.perS * 1000000000 + r.perNs

/-- The row with another instant. -/
def Row.moved (r : Row) (ns : Nat) : Row := { r with tS := ns / 1000000000, tNs := ns % 1000000000 }

/-- NEEDVALID, REALIGN and SHARED of FLAGS. -/
def Row.needValid (r : Row) : Bool := bitAt r.flags 0
def Row.realign (r : Row) : Bool := bitAt r.flags 1
def Row.shared (r : Row) : Bool := bitAt r.flags 2

/-- Row `i` of the table; an unlisted row is NONE. -/
def State.row (s : State) (i : Nat) : Row := s.tmu.rows.get {} i

/-- Writes row `i`, which a standby mirrors (Table 14-8). -/
def putRow (i : Nat) (r : Row) (s : State) : State :=
  mirror (.row i r s.upd.window) none none { s with tmu.rows := s.tmu.rows.put {} i r }

/-- A row lies at or before a time, `lead` ns early. -/
def Row.due (r : Row) (lead now : Nat) : Bool := r.action != 0 && decide (r.at_ ≤ now + lead)

/-- Instants of a due row up to `now + lead`: at least one (R347). -/
def Row.covered (r : Row) (lead now : Nat) : Nat := if r.per = 0 then 1 else (now + lead - r.at_) / r.per + 1

/-- The row after it fired for `k` instants: a periodic row advances, a one-shot row becomes NONE (R346). -/
def Row.after (r : Row) (k : Nat) : Row := if r.per = 0 then {} else r.moved (r.at_ + k * r.per)

/-- A row fires, or reaches its instant without firing for want of valid time; it advances and is counted (R346 to R348). -/
def passRow (i k : Nat) (fired : Bool) (s : State) : State :=
  countN (kTmu 8) (k - 1) (count (kTmu (if fired then 6 else 7)) (putRow i ((s.row i).after k) s))

/-- A row with REALIGN after the time moved to `ns`: its next instant is the smallest after it; one passed for good ends unfired (R347). -/
def Row.realigned (r : Row) (ns : Nat) : Row :=
  if !r.realign ∨ r.action = 0 ∨ ns < r.at_ then r
  else if r.per = 0 then {}
  else r.moved (r.at_ + ((ns - r.at_) / r.per + 1) * r.per)

/-- One-shot rows with REALIGN that a move of the time to `ns` ends. -/
def endedRows (ns : Nat) (m : Map Row) : Nat :=
  (m.filter fun e => e.2.realign && e.2.action != 0 && e.2.per == 0 && decide (e.2.at_ ≤ ns)).length

/-- Realigns the table to a time reached by a forward step or a VIGIL span (R347). -/
def realignRows (ns : Nat) (s : State) : State :=
  let n := endedRows ns s.tmu.rows
  let rows := (s.tmu.rows.map fun e => (e.1, e.2.realigned ns)).filter fun e => e.2 != {}
  countN (kTmu 7) n { s with tmu.rows := rows }

/-- Realigns the table after a backward step: rows with REALIGN go back to the smallest instant after the new time (R347). -/
def realignBack (ns : Nat) (s : State) : State :=
  let f := fun (r : Row) =>
    if !r.realign ∨ r.action = 0 ∨ r.per = 0 then r
    else if ns < r.t0 then r.moved r.t0
    else r.moved (r.t0 + ((ns - r.t0) / r.per + 1) * r.per)
  { s with tmu.rows := s.tmu.rows.mapVals f }

/-- The time becomes `ns` in one TIME_CLK cycle. Stamps of a PTP exchange under way belong to the time before, and end with it. -/
def setTime (ns : Nat) (s : State) : State :=
  { s with tmu.ptp := { s.tmu.ptp with sync := none, req := none, resp := none }
           tmu.sec := BitVec.ofNat 64 (ns / 1000000000), tmu.ns := ns % 1000000000, tmu.frac := 0 }

end Sys2Proof.Machine
end

