-- ==== Sys2Proof/Machine/Clock.lean ====
section
/-! DEFINITION. Time Unit operations that other blocks call: the 64 s mean, entry to HOLDOVER, withdrawal of a source (R334, R335, R342). -/

namespace Sys2Proof.Machine

/-- Sum of adjustment × ns over [lo, till), from the history newest first. -/
def adjArea (lo : Nat) : Nat → List (Nat × Int) → Int
  | _, [] => 0
  | till, (a, x) :: l =>
    let from_ := max a lo
    x * ((till - from_ : Nat) : Int) + (if a ≤ lo then 0 else adjArea lo (min till a) l)

/-- A repeated span of a backward step is active: time has not passed T_FROM again (R180). -/
def State.inStepSpan (s : State) : Bool := match s.ldg.span with | some (_, t) => decide (s.nowS < t) | none => false

/-- The mean adjustment of the last 64 s (Table 12-1); the adjustment in force where there is no history. -/
def Tmu.mean (t : Tmu) (now : Nat) : Int :=
  match t.hist.getLast? with
  | none => t.adj
  | some (a, _) =>
    let lo := max a (now - 64000000000)
    if now ≤ lo then t.adj else adjArea lo now t.hist / ((now - lo : Nat) : Int)

/-- A new frequency adjustment takes effect now. -/
def setAdj (v : Int) (s : State) : State :=
  let keep := s.tmu.hist.takeWhile fun e => decide (s.nowNs < e.1 + 64000000000)
  let old := (s.tmu.hist.drop keep.length).take 1
  { s with tmu.adj := v, tmu.hist := (s.nowNs, v) :: keep ++ old }

/-- Entry to HOLDOVER: INC is held at the mean of the last 64 s and a slew stops (R342). -/
def enterHoldover (s : State) : State :=
  let m := s.tmu.mean s.nowNs
  let s1 := setAdj m (countIf (decide (s.tmu.st ≠ .holdover)) (kTmu 5) s)
  { s1 with tmu.st := .holdover, tmu.heldAdj := m, tmu.corr := 0, tmu.left := 0, tmu.good := 0 }

/-- The selected source is lost: LOCKED or ACQUIRE ends in HOLDOVER (R342). -/
def sourceLost (s : State) : State :=
  if s.tmu.st = .locked ∨ s.tmu.st = .acquire then enterHoldover { s with tmu.source := 0 } else s

/-- A new policy takes effect; a source in use that it no longer admits ends at once, with cause 4 (R335). -/
def applyPolicy (p : Policy) (s : State) : State :=
  let s1 := { s with tmu.policy := p }
  let gone := fun (k : Nat) => k != 0 && !bitAt p.allowed (k - 1)
  let s2 := if gone s1.tmu.sel.kind then { s1 with tmu.sel := {} } else s1
  if gone s.tmu.source ∨ (gone s.tmu.sel.kind ∧ (s.tmu.st = .locked ∨ s.tmu.st = .acquire)) then
    timeInvalid 4 { sourceLost s2 with tmu.source := 0 }
  else s2

end Sys2Proof.Machine
end

