-- ==== Sys2Proof/Machine/Boundary.lean ====
section
/-! DEFINITION. Boundary records: which instant is next, what its record holds, and how it is committed (R173 to R177, R182). -/

namespace Sys2Proof.Machine

/-! ## The next instant -/

/-- Instants at which staged calendars take force. -/
def LData.actTs (d : LData) : List Nat := d.calSt.map fun e => e.2.2

/-- The next boundary instant of any calendar after the last one evaluated (R173). -/
def State.nextInstant (s : State) : Option Nat :=
  let d := s.ldg.live
  leastAbove s.ldg.evalT ((d.calIn.keys.filterMap fun c => d.nextBoundary c s.ldg.evalT) ++ d.actTs)

/-- A staged calendar may take force: Mordant unsealed, or its ROUNDING as in force (R189). -/
def State.mayActivate (s : State) (c : Nat) (bytes : Cal) : Bool :=
  !s.ldg.sealed || match (s.ldg.live.calIn.get [] c).head? with
    | some e => calRounding e.2 == calRounding bytes
    | none => true

/-- Staged calendars whose ACT_T is T. -/
def State.stagedAt (s : State) (t : Nat) : List Nat := (s.ldg.live.calSt.filter fun e => e.2.2 == t).map (·.1)

/-- Those of them that take force at T. -/
def State.actsAt (s : State) (t : Nat) : List Nat :=
  (s.stagedAt t).filter fun c => match s.ldg.live.calSt.find c with | some e => s.mayActivate c e.1 | none => false

/-! ## The record of an instant (Table 6-7) -/

/-- Calendar bits as a mask. -/
def calMask (l : List Nat) : BitVec 64 := BitVec.ofNat 64 (l.foldl (fun n c => n + 2 ^ c) 0)

/-- The boundary record of instant T with flags `fl`, BSEQ still to be given. -/
def State.boundaryAt (s : State) (t fl : Nat) : BRec :=
  let d := s.ldg.live
  let acts := s.actsAt t
  let on := d.calIn.keys.filter fun c => match d.firstAct c with | some f => decide (f < t) | none => false
  let d' := (applyBoundary { bseq := 0, t := t } acts d)
  let forced := on.any fun c => (d.forceEdges c).contains t
  let offset := on.any fun c => match d.calAt c (t - 1) with
    | some k => (List.range (calNofs k)).any fun i => (calOfs k i).1 == t
    | none => false
  { bseq := 0, t := t
    imask := calMask (on.filter fun c => d.nextBoundary c (t - 1) == some t || acts.contains c)
    smask := calMask (on.filter fun c => d.tariffAt c (t - 1) != d'.tariffAt c t)
    pmask := calMask (on.filter fun c => d.closesAt c t)
    newtar := (d'.calIn.keys.filter d'.active).foldl (fun n c => n + d'.tariffAt c t * 2 ^ (3 * c)) 0
    flags := setIf (!acts.isEmpty) bfCalact (setIf offset bfOffset (setIf forced bfForced
      (setIf (!s.tmu.valid) bfHoldover fl))) }

/-- A record that carries interval closes alone. -/
def BRec.intervalOnly (b : BRec) : Bool :=
  b.smask == 0 && b.pmask == 0 && !bitAt b.flags bfCalact && !bitAt b.flags bfStep

/-- Two consecutive interval-only records as one COLLAPSED record, which keeps the first one's BSEQ. -/
def BRec.merge (a b : BRec) : BRec :=
  { a with
    t := b.t, imask := a.imask ||| b.imask, newtar := b.newtar
    flags := setBit (a.flags ||| b.flags) bfCollapsed
    count := (if bitAt a.flags bfCollapsed then a.count else 1) + (if bitAt b.flags bfCollapsed then b.count else 1)
    tfirst := if bitAt a.flags bfCollapsed then a.tfirst else a.t }

/-! ## Writing -/

/-- Replaces the record of a BSEQ in a boundary log. -/
def replaceB (b : BRec) (l : List BRec) : List BRec := l.map fun c => if c.bseq = b.bseq then b else c

/-- A boundary record joins the eMRAM protection area, where interval-only neighbours merge; a full area takes none (R182). -/
def protectBoundary (b : BRec) (acts : List Nat) (s : State) : State :=
  match s.ldg.protArea.getLast? with
  | some a =>
    if a.intervalOnly && b.intervalOnly then
      let m := a.merge b
      { s with ldg.protArea := s.ldg.protArea.dropLast ++ [m]
               ldg.live.blog := replaceB m s.ldg.live.blog, ldg.dur.blog := replaceB m s.ldg.dur.blog }
    else if 1024 ≤ s.ldg.protArea.length then s
    else
      let n := { b with bseq := s.ldg.bseq + 1 }
      { s with ldg.bseq := n.bseq, ldg.protArea := s.ldg.protArea ++ [n]
               ldg.live := applyBoundary n acts s.ldg.live, ldg.dur := applyBoundary n acts s.ldg.dur }
  | none =>
    let n := { b with bseq := s.ldg.bseq + 1 }
    { s with ldg.bseq := n.bseq, ldg.protArea := [n]
             ldg.live := applyBoundary n acts s.ldg.live, ldg.dur := applyBoundary n acts s.ldg.dur }

/-- Writes a boundary record with the next BSEQ; one that closes periods starts the close sweep (R176). -/
def writeBoundary (b : BRec) (acts : List Nat) (s : State) : State :=
  let s1 := if s.lake.protect then protectBoundary b acts s
    else journal' 0x02 (.boundary { b with bseq := s.ldg.bseq + 1 } acts) { s with ldg.bseq := s.ldg.bseq + 1 }
  if b.pmask = 0 then s1 else { s1 with ldg.sweeping := true, ldg.sweepNext := 0 }

/-- CALENDAR_HELD records of the staged calendars that a seal keeps from taking force at T (R189). -/
def heldEvents (t : Nat) (s : State) : State :=
  ((s.stagedAt t).filter fun c => !(s.actsAt t).contains c).foldl
    (fun s c => recEvent 0x0003 (le 1 c ++ zeroBytes 7 ++ le 8 t) s) s

/-- Commits instant T with one record (R173). -/
def commitInstant (t fl : Nat) (s : State) : State :=
  writeBoundary (s.boundaryAt t fl) (s.actsAt t) { heldEvents t s with ldg.evalT := t }

/-- Evaluates every instant up to `till` in order with REPLAYED, merging consecutive interval-only ones (R177, R178). -/
def replayThrough (till : Nat) : Nat → Option BRec → State → State
  | 0, g, s => match g with | some b => writeBoundary b [] s | none => s
  | n + 1, g, s =>
    match s.nextInstant with
    | some t =>
      if till < t then (match g with | some b => writeBoundary b [] s | none => s)
      else
        let b := s.boundaryAt t (2 ^ bfReplayed)
        let acts := s.actsAt t
        let s1 := { heldEvents t s with ldg.evalT := t }
        if b.intervalOnly then
          replayThrough till n (some (match g with | some a => a.merge b | none => b)) s1
        else
          let s2 := match g with | some a => writeBoundary a [] s1 | none => s1
          replayThrough till n none (writeBoundary b acts s2)
    | none => match g with | some b => writeBoundary b [] s | none => s

/-- The replay of passed instants up to now; its length is bounded by the seconds passed. -/
def replayBoundaries (till : Nat) (s : State) : State := replayThrough till (till - s.ldg.evalT + 1) none s

/-- LAKE_LEDGER_PROTECT ends: the protected records move into the journal in BSEQ order (R182). -/
def moveProtected (s : State) : State :=
  s.ldg.protArea.foldl (fun s b => journal' 0x02 (.boundary b []) s) { s with ldg.protArea := [], ldg.protect := false }

/-! ## Rows of the opcode table -/

/-- The Ledger Unit commits boundaries: SERVICE, Lake READY, no power failure (R177). -/
def State.ledgerRuns (s : State) : Bool := s.glb.mode == .service && s.lake.ready && !s.cpm.pfail && !s.stest.frozen

/-- LEDGER_BOUNDARY: the earliest boundary instant that has come is committed (R173). -/
def execLedgerBoundary (s : State) : Result :=
  .next (match s.nextInstant with
    | some t =>
      if s.ledgerRuns && decide (t ≤ s.nowS) then
        countN (kTmu 6) (popN 64 (s.boundaryAt t 0).imask.toNat) (commitInstant t 0 s)
      else s
    | none => s)

/-- Frames of a meter decided at or before T that have not been booked. -/
def State.owed (s : State) (mh t : Nat) : Bool :=
  s.ing.staging.any (fun f => f.mh == mh && decide (f.decided ≤ t * 1000000000)) ||
    s.pass.any (fun f => f.mh == mh && !f.booked && decide (f.decided ≤ t * 1000000000))

/-- A meter is behind a committed close of its calendar. -/
def State.behind (s : State) (mh : Nat) : Bool :=
  let m := s.meter mh
  match m.opn with
  | none => false
  | some o => (pendingBoundaries s.ldg.dur.blog s.ldg.stepPending m none).any fun b => b.pmask.getLsbD o.cal

/-! ## Rebase and final close (R181) -/

/-- A rebase of the rolled-forward record: the shadow's words and LASTBOOK as given. -/
def rebased (data : List Byte) (m : Meter) (o : LRec) : Meter :=
  let w := fun r => field data (8 * r) 8
  let vals := (List.range 18).map fun r => if bitAt (w r) 63 then some (w r % 2 ^ 56) else none
  { m with sh := { m.sh with lastval := vals }, opn := some { o with lastbook := field data 144 8, status := setBit o.status lsRebased } }

/-- The final close at the TAI second `t`: RSTATE FINAL, no new record. -/
def finalled (s : State) (t : Nat) (m : Meter) (o : LRec) : Meter :=
  { m with opn := none, closed := (closeRec s m o t 3 :: m.closed).take s.ldg.nkeep, closes := m.closes + 1 }

/-- The operation commits: status, and the JSEQ its completion waits for. -/
def commitMaint (x : Maint) (s : State) : State × Except Nat Nat :=
  let s1 := rollForward s.ldg.live.blog x.mh (some x.at_) 10 s
  let m := s1.meter x.mh
  match m.opn with
  | none => (s, .error stNotFound)
  | some o =>
    if m.corrupt then (s, .error stCorrupt)
    else
      let (s2, n) := match x.data with
        | some d => journal 0x08 (.meter x.mh (rebased d m o)) s1
        | none => journal 0x09 (.final x.mh (finalled s1 (x.at_ / 1000000000) m o) (x.at_ / 1000000000)) s1
      (s2, .ok n)

/-- Readings decided by the operation's instant have been booked, and Lake takes ledger writes (R174, R182). -/
def State.maintReady (s : State) (x : Maint) : Bool :=
  !s.lake.protect && !s.ing.staging.any (fun f => f.mh == x.mh && decide (f.decided ≤ x.at_)) &&
    !s.pass.any (fun f => f.mh == x.mh && !f.booked && decide (f.decided ≤ x.at_))

/-- The waiting operations that can commit do. -/
def settleMaint (s : State) : State :=
  s.ldg.maint.foldl (fun s x =>
    if !s.maintReady x then s
    else match commitMaint x { s with ldg.maint := s.ldg.maint.filter fun y => y.id != x.id } with
    | (s1, .ok n) => rewait (.maint x.id) (some (.journal n)) none none s1
    | (s1, .error st) => wake (.maint x.id) (some st) none s1) s

/-! ## The sweep, durability and bookings -/

/-- A close of periods that has not become durable is waiting. -/
def State.closeWaits (s : State) : Bool :=
  s.ldg.jq.any fun r => !r.landed && match r.eff with | .boundary b _ => b.pmask != 0 | _ => false

/-- LEDGER_CLOSE_SWEEP: the sweep rolls forward the next record still behind, or ends and posts LEDGER_SWEEP_DONE once every close is
durable and no record is behind (R176). A meter with a reading decided by then and not yet booked waits for a later turn (R174). -/
def execLedgerCloseSweep (s : State) : Result :=
  .next (
    if !s.ldg.sweeping || s.lake.protect || !s.ledgerRuns then s
    else
      let last := (s.ldg.dur.blog.head?.map (·.t)).getD 0
      let behind := s.ldg.live.meters.keys.filter s.behind
      match firstWhere (fun mh => decide (s.ldg.sweepNext ≤ mh) && !s.owed mh last) behind with
      | some mh => { rollForward s.ldg.dur.blog mh none 9 s with ldg.sweepNext := mh + 1 }
      | none =>
        if !behind.isEmpty || s.closeWaits then { s with ldg.sweepNext := 0 }
        else
          let b := match firstWhere (fun (b : BRec) => b.pmask != 0) s.ldg.live.blog with | some b => b.bseq | none => 0
          postNotice 0x0502 1 (le 8 b) { s with ldg.sweeping := false, ldg.sweepNext := 1048576 })

/-- JOURNAL_DURABLE: the oldest journal record not yet durable becomes so, and what waits on it completes (R183). -/
def execJournalDurable (s : State) : Result := onClock s (landJournal s)

/-- LEDGER_BOOKING: the meter's oldest frame past plausibility is booked, once nothing earlier stands before it (R163, R174 to R176, R181). -/
def execLedgerBooking (mh : Nat) (s : State) : Result :=
  onClock s (match firstWhere (fun (f : PassFrame) => f.mh == mh && !f.booked) s.pass with
    | none => s
    | some f =>
      let due := match s.nextInstant with | some t => decide (t * 1000000000 < f.decided) | none => false
      let waits := s.ldg.maint.any fun x => x.mh == mh && decide (x.at_ < f.decided)
      let put := fun (g : PassFrame) (s : State) =>
        { s with pass := s.pass.map fun h => if h = f then g else h }
      if s.lake.protect || s.journalFull || due || waits then s
      else if (s.meter mh).corrupt then
        settleMaint (put { f with booked := true, before := f.m }
          (recEvent 0x0002 (le 4 (0x10000000 + mh * 256) ++ le 4 mh) s))
      else
        let s1 := rollForward s.ldg.live.blog mh (some f.decided) 10 s
        match (s1.meter mh).opn with
        | none => count (kLdg 11) { s1 with pass := s1.pass.filter fun h => h != f }
        | some o =>
          let s2 := bookFrame f s1
          settleMaint (if f.node = 0xFFFF then { s2 with pass := s2.pass.filter fun h => h != f }
            else put { f with booked := true, before := bookBefore o f } s2))

end Sys2Proof.Machine
end

