-- ==== Sys2Proof/Machine/LedgerIo.lean ====
section
/-! DEFINITION. Ledger objects: LOIDs, the role matrix, reads, writes, executions, Mordant (R184 to R189, R445, R446). -/

namespace Sys2Proof.Machine

/-! ## Objects and access (Tables 6-9, 6-10) -/

/-- Kinds of access. -/
inductive Acc where
  | r | w | x
deriving DecidableEq, Repr

/-- LOID fields. -/
def loidClass (l : Nat) : Nat := bits l 31 28
def loidIndex (l : Nat) : Nat := bits l 27 8
def loidItem (l : Nat) : Nat := bits l 7 0

/-- The LOID names an object of Table 6-9. -/
def loidOk (l : Nat) : Bool :=
  let i := loidIndex l
  let t := loidItem l
  match loidClass l with
  | 1 => decide (t ≤ 1) || decide (0x10 ≤ t ∧ t ≤ 0x27) || t == 0x30
  | 2 => decide (1 ≤ t ∧ t ≤ 36)
  | 3 => decide (i < 64) && decide (t ≤ 2)
  | 4 => decide (i < 64) && decide (t ≤ 15)
  | 5 => t == 0
  | 6 => i == 0 && decide (t ≤ 3)
  | 7 => i == 0 && t == 0
  | 8 => i == 0 && decide (t ≤ 1)
  | 9 => i == 0 && t == 0
  | 10 => decide (t ≤ 1)
  | _ => false

/-- Roles that Table 6-10 grants an access (1 Reader to 6 Auditor). -/
def granted (stepRole : Nat) (acc : Acc) (l : Nat) : List Nat :=
  let t := loidItem l
  match acc, loidClass l with
  | .r, 1 => if t = 0x30 then [2, 4, 5, 6] else [1, 2, 3, 4, 5, 6]
  | .r, 2 => [2, 3, 5, 6]
  | .r, 3 => if t = 1 then [2, 3, 5, 6] else [1, 2, 3, 4, 5, 6]
  | .r, 4 => [1, 2, 3, 5, 6]
  | .r, 5 => [2, 3, 5, 6]
  | .r, 6 => if t = 3 then [] else [1, 2, 3, 4, 5, 6]
  | .r, 7 => [2, 5, 6]
  | .r, 8 => if t = 0 then [2, 4, 5, 6] else []
  | .r, 9 => [6]
  | .r, 10 => [6]
  | .w, 3 => if t = 1 then [3] else []
  | .w, 4 => [2, 3]
  | .w, 7 => [5]
  | .x, 6 => if t = 3 then [5] else []
  | .x, 8 => if t = 1 then [6] else []
  | .x, 9 => if stepRole = 1 then [2, 5] else [5]
  | .x, 10 => if t = 0 then [4, 5] else [2, 4]
  | _, _ => []

/-- The bytes of the policy object (R335). -/
def Policy.bytes (p : Policy) : List Byte :=
  le 1 p.allowed ++ zeroBytes 1 ++ le 1 p.stepRole ++ zeroBytes 1 ++ le 4 p.maxHold ++ le 4 p.maxStep ++ zeroBytes 4

/-- A refused access is counted and recorded (R185). -/
def denied (l role sid : Nat) (s : State) : State :=
  recEvent 0x0001 (le 4 l ++ le 1 role ++ zeroBytes 3 ++ le 4 sid) (count (kLdg 7) s)

/-! ## The event recorder as an object (R445, R446) -/

/-- The bytes of an event record (Table 17-1). -/
def EvRec.bytes (e : EvRec) : List Byte :=
  fit (evLen e.data) (le 2 e.typ ++ le 2 (evLen e.data) ++ le 4 e.opmin.toNat ++ le 4 e.pcycle.toNat ++ le 4 e.flags ++
    le 8 e.eseq.toNat ++ le 8 e.tai ++ e.data)

/-- Records that can be read, oldest first. -/
def Recorder.readable (r : Recorder) : List EvRec := r.ring.filter fun e => decide (r.clearedBelow.toNat ≤ e.eseq.toNat)

/-- Whole records in order while they fit. -/
def takeFit : Nat → List EvRec → List Byte
  | _, [] => []
  | cap, e :: l => if evLen e.data ≤ cap then e.bytes ++ takeFit (cap - evLen e.data) l else []

/-- A clear of the recorder begins: its two records are written, with the span they clear (R446 steps 1 and 2). -/
def clearBegin (no role sid : Nat) (s : State) : State :=
  let old := s.evr.readable
  let eseq := s.evr.eseq
  let first := match old.head? with | some e => e.eseq | none => eseq
  let body := le 8 first.toNat ++ le 8 (eseq - 1).toNat ++ le 8 old.length ++ le 1 role ++ zeroBytes 3 ++ le 4 sid
  let s1 := sepWrite 0x0109 body (recEvent 0x000A body s)
  { s1 with evr.clearing := some { no := no, eseq := eseq, n := old.length } }

/-- The oldest clear that waits begins once Lake is READY, nothing is staged and no clear is under way (R446). -/
def nextClear (s : State) : State :=
  match s.evr.clears with
  | [] => s
  | c :: l =>
    if s.lake.ready ∧ s.evr.staged = [] ∧ s.evr.clearing = none then clearBegin c.1 c.2.1 c.2.2 { s with evr.clears := l } else s

/-- Once its EVENTS_CLEARED record is durable a clear makes the older records unreadable, posts EVENT_CLEARED, completes its EXEC with OK and lets the
next one begin (R446 steps 3 and 4). -/
def clearDone (s : State) : State :=
  match s.evr.clearing with
  | none => s
  | some c =>
    if s.evr.ring.any fun e => e.eseq == c.eseq && e.landed then
      let s1 := count (kRec 4) { s with
        evr.ring := s.evr.ring.filter (fun e => decide (c.eseq.toNat ≤ e.eseq.toNat))
        evr.clearedBelow := c.eseq, evr.clearing := none }
      nextClear (wake (.clear c.no) none none (postNotice 0x0D01 0 (le 8 c.n) s1))
    else s

/-! ## Reads (R184, R270) -/

/-- A read's answer: the object, or the status that refuses it with the length it would need. -/
structure ReadAns where
  status : Nat := stOk
  bytes : List Byte := []
  need : Option Nat := none

/-- The meter rolled forward to the latest committed boundary, as a read shows it (R176). -/
def State.readMeter (s : State) (mh : Nat) : Meter :=
  rollOver s (pendingBoundaries s.ldg.dur.blog s.ldg.stepPending (s.meter mh) none) (s.meter mh)

/-- The last SEAL record's digests (R187). -/
def State.sealDigests (s : State) : Option (List Byte) :=
  (firstWhere (fun (r : SepRec) => r.typ == 3) s.sepia.pinned).map fun r => r.body.take 144

/-- Bytes of a force-schedule entry: KIND, TARIFF, reserved, END, START (log 31). -/
def ForceE.bytes : ForceE → List Byte
  | .window a b t => le 1 1 ++ le 1 t ++ zeroBytes 6 ++ le 8 b ++ le 8 a
  | .close a => le 1 2 ++ zeroBytes 7 ++ zeroBytes 8 ++ le 8 a

/-- An object found or not. -/
def found (o : Option (List Byte)) : ReadAns :=
  match o with
  | some b => { bytes := b }
  | none => { status := stNotFound }

/-- The object a LOID names (Table 6-9). -/
def State.object (s : State) (l arg cap : Nat) : ReadAns :=
  let i := loidIndex l
  let t := loidItem l
  match loidClass l with
  | 1 =>
    if (s.meter i).corrupt then { status := stCorrupt }
    else
      let m := s.readMeter i
      found (m.opn.map fun o =>
        if t = 0 then o.bytes else if t = 1 then o.bytes.take 32
        else if t = 0x30 then m.sh.bytes
        else if t < 0x20 then slice o.bytes (32 + 8 * (t - 0x10)) 8 else slice o.bytes (160 + 12 * (t - 0x20)) 12)
  | 2 =>
    let m := s.readMeter i
    if min m.closes s.ldg.nkeep < t then { status := stNotFound }
    else if m.lost.contains (m.closes - t) then { status := stCorrupt }
    else found ((m.closed[t - 1]?).map LRec.bytes)
  | 3 =>
    if t = 1 then found ((s.ldg.live.calSt.find i).map (·.1))
    else found (((s.ldg.live.calIn.get [] i).head?).map fun e => if t = 2 then calRounding e.2 else e.2)
  | 4 => found ((s.ldg.live.force.find (i * 16 + t)).map ForceE.bytes)
  | 5 => found ((firstWhere (fun (b : BRec) => b.bseq % 2 ^ 20 == i && s.holdsBoundary b.bseq) s.ldg.dur.blog).map BRec.bytes)
  | 6 =>
    if t = 0 then { bytes := le 4 (flag s.ldg.pin + 2 * flag s.ldg.sealed) }
    else if t = 1 then { bytes := le 4 s.ldg.unseals } else found s.sealDigests
  | 7 => { bytes := s.tmu.policy.bytes }
  | 8 =>
    match s.evr.readable.filter fun e => decide (arg ≤ e.eseq.toNat) with
    | [] => { status := stNotFound }
    | e :: r => if cap < evLen e.data then { status := stBadArg, need := some (evLen e.data) } else { bytes := takeFit cap (e :: r) }
  | 9 => if s.ldg.stepFrom = 0 then { status := stNotFound } else { bytes := le 8 s.ldg.stepFrom ++ le 8 s.ldg.stepTo }
  | _ => { status := stNotFound }

/-- The role a thread's RTAG gives, and its session. -/
def rtagRole (rt : Word) : Nat := rt.toNat % 8
def rtagSid (rt : Word) : Nat := bits rt.toNat 31 8

/-- A read under a role: internal reads as Auditor (R270). -/
def ldgRead (role sid l arg cap : Nat) (s : State) : ReadAns × State :=
  let r := if role = 7 then 6 else role
  if !loidOk l then ({ status := stBadLoid }, s)
  else if !(granted s.tmu.policy.stepRole .r l).contains r then ({ status := stAccessDenied }, denied l role sid s)
  else
    let a := s.object l arg cap
    if a.status = stCorrupt then (a, recEvent 0x0002 (le 4 l ++ le 4 (loidIndex l)) s)
    else if a.status = stOk ∧ cap < a.bytes.length then ({ status := stBadArg, need := some a.bytes.length }, s)
    else (a, s)

/-! ## Writes (R168, R170, R171, R335) -/

/-- A change's answer: status and what its completion waits for. -/
structure ChangeAns where
  st : State
  status : Nat
  waits : Option Wait := none

/-- A change journalled: complete when durable (R183). -/
def journalled (typ : Nat) (eff : JEff) (s : State) : ChangeAns :=
  let (s1, n) := journal typ eff s
  { st := s1, status := stOk, waits := some (.journal n) }

/-- t is a demand boundary of calendar `c` under copy `k` (R166). -/
def State.isBoundary (s : State) (c : Nat) (k : Cal) (t : Nat) : Bool := calBoundary k t || (s.ldg.live.forceEdges c).contains t

/-- Less than 2 s ahead (R170, R171). -/
def State.tooSoon (s : State) (t : Nat) : Bool := decide (t * 1000000000 < s.nowNs + 2000000000)

/-- A staged calendar (R171, R189). -/
def stageCalendar (c : Nat) (bytes : Cal) (actT : Nat) (s : State) : ChangeAns :=
  let cur := (s.ldg.live.calIn.get [] c).head?
  if !calValid bytes then { st := s, status := stBadCalendar }
  else if s.tooSoon actT then { st := s, status := stTooLate }
  else if !s.isBoundary c bytes actT || !(cur.all fun e => s.isBoundary c e.2 actT) then { st := s, status := stBadCalendar }
  else journalled 0x06 (.stage c bytes actT) s

/-- Two windows overlap; END 0 is open. -/
def overlap (a b a' b' : Nat) : Bool := (b' == 0 || decide (a < b')) && (b == 0 || decide (a' < b))

/-- A force-schedule write: KIND 0 cancels, 1 is a window, 2 a commanded close (R170, log 31). -/
def forceWrite (c t : Nat) (data : List Byte) (start : Nat) (s : State) : ChangeAns :=
  let key := c * 16 + t
  let kind := field data 0 1
  let tar := field data 1 1
  let stop := field data 8 8
  let soon := ceilDiv (s.nowNs + 2000000000) 1000000000
  let cur := s.ldg.live.force.find key
  let others := (List.range 16).filterMap fun i => if i = t then none else s.ldg.live.force.find (c * 16 + i)
  let clash := others.any fun e => match e with | .window a b _ => overlap start stop a b | .close _ => false
  let active := match cur with | some (.window a b _) => decide (a < soon) && (b == 0 || decide (s.nowS < b)) | _ => false
  if data.length ≠ 16 ∨ !zeros data 2 6 then { st := s, status := stBadArg }
  else if kind = 0 then
    if tar ≠ 0 ∨ stop ≠ 0 then { st := s, status := stBadArg }
    else match cur with
    | none => { st := s, status := stNotFound }
    | some (.close a) => if s.nowS < a then journalled 0x07 (.force key none) s else { st := s, status := stOk }
    | some (.window a b w) =>
      if soon ≤ a then journalled 0x07 (.force key none) s
      else if b = 0 ∨ soon < b then journalled 0x07 (.force key (some (.window a soon w))) s
      else { st := s, status := stOk }
  else if active then { st := s, status := stBadArg }
  else if kind = 1 then
    if 7 < tar ∨ (stop ≠ 0 ∧ stop ≤ start) then { st := s, status := stBadArg }
    else if s.tooSoon start then { st := s, status := stTooLate }
    else if clash then { st := s, status := stBadArg }
    else journalled 0x07 (.force key (some (.window start stop tar))) s
  else if kind = 2 then
    if tar ≠ 0 ∨ stop ≠ 0 then { st := s, status := stBadArg }
    else if s.tooSoon start then { st := s, status := stTooLate }
    else journalled 0x07 (.force key (some (.close start))) s
  else { st := s, status := stBadArg }

/-- A policy object, if its fields are in range (R335). -/
def policyOf (d : List Byte) : Option Policy :=
  let p : Policy := { allowed := field d 0 1, stepRole := field d 2 1, maxHold := field d 4 4, maxStep := field d 8 4 }
  if d.length = 16 ∧ p.allowed < 16 ∧ p.stepRole ≤ 1 ∧ zeros d 1 1 ∧ zeros d 3 1 ∧ zeros d 12 4 ∧
      60 ≤ p.maxHold ∧ p.maxHold ≤ 604800 ∧ 2 ≤ p.maxStep ∧ p.maxStep ≤ 86400 then some p else none

/-- Whether Mordant locks a write (R189). -/
def State.locks (s : State) (l : Nat) (data : Except Nat (List Byte)) : Bool :=
  s.ldg.sealed &&
    match loidClass l with
    | 7 => true
    | 3 => match data with
      | .ok b => loidItem l == 1 && !(s.mayActivate (loidIndex l) b)
      | .error _ => false
    | _ => false

/-- A ledger write under a role (R185, R186, R270). -/
def ldgWrite (role sid l arg : Nat) (data : Except Nat (List Byte)) (s : State) : ChangeAns :=
  if !loidOk l then { st := s, status := stBadLoid }
  else if role = 0 ∨ role = 7 then { st := denied l role sid s, status := stAccessDenied }
  else if s.locks l data then { st := count (kLdg 8) s, status := stSealed }
  else if !(granted s.tmu.policy.stepRole .w l).contains role then { st := denied l role sid s, status := stAccessDenied }
  else match data with
  | .error e => { st := s, status := e }
  | .ok d =>
    match loidClass l with
    | 3 => stageCalendar (loidIndex l) d arg s
    | 4 => forceWrite (loidIndex l) (loidItem l) d arg s
    | _ => match policyOf d with
      | none => { st := s, status := stBadArg }
      | some p => journalled 0x06 (.policy (p.allowed, p.stepRole, p.maxHold, p.maxStep)) (applyPolicy p s)

/-! ## Executions (R179, R181, R187, R446) -/

/-- The Mordant seal: its Sepia record is prepared and takes effect when durable (R187, R449). -/
def sealStart (role sid : Nat) (s : State) : ChangeAns :=
  if s.ldg.pin ∨ s.ldg.sealPending.isSome ∨ s.sepia.pinnedFree < 4 then { st := s, status := stBadArg }
  else
    let legal := match s.mcc.image with | some im => fit 48 im.legdig | none => zeroBytes 48
    let rnd := ((List.range 64).map fun c => match (s.ldg.live.calIn.get [] c).head? with
      | some e => calRounding e.2 | none => zeroBytes 16).flatten
    let body := legal ++ sha384 rnd ++ sha384 s.tmu.policy.bytes ++ le 1 role ++ zeroBytes 3 ++ le 4 sid
    { st := { s with ldg.sealPending := some body }, status := stOk, waits := some .seal }

/-- A set-back from now to T_TO (R179). While Lake takes no ledger writes its record goes to the eMRAM protection area, where it is durable at
once (R182); a full area refuses the set-back with BAD_ARG (DESIGN CHOICE, log 103). -/
def setBack (role tTo : Nat) (s : State) : ChangeAns :=
  let from_ := s.nowS
  let n := s.ldg.bseq + 1
  let b : BRec := { bseq := n, t := tTo, flags := setIf (!s.tmu.valid) bfHoldover (2 ^ bfStep), tfirst := from_ }
  if from_ ≤ tTo + 1 ∨ s.tmu.policy.maxStep < from_ - tTo ∨ s.ldg.stepPending.isSome ∨ (s.lake.protect ∧ 1024 ≤ s.ldg.protArea.length) then
    { st := s, status := stBadArg }
  else
    let body := le 8 from_ ++ le 8 tTo ++ le 1 role ++ zeroBytes 7
    let s1 := sepWrite 0x0104 body (recEvent 0x0004 body { s with ldg.stepPending := some (from_, tTo, n) })
    if s.lake.protect then { st := protectBoundary b [] s1, status := stOk }
    else journalled 0x02 (.boundary b []) { s1 with ldg.bseq := n }

/-- A rebase or a final close: at once, or after the readings decided before it and once Lake takes ledger writes (R174, R181, R182). -/
def maintain (mh : Nat) (data : Option (List Byte)) (s : State) : ChangeAns :=
  let m := s.meter mh
  let x : Maint := { id := s.ldg.nextMaint, mh := mh, at_ := s.nowNs, data := data }
  let s1 := { s with ldg.nextMaint := x.id + 1 }
  if m.opn.isNone then { st := s, status := stNotFound }
  else if m.corrupt then { st := s, status := stCorrupt }
  else if s.ldg.maint.any (fun y => y.mh == mh) || !s.maintReady x then
    { st := { s1 with ldg.maint := s.ldg.maint ++ [x] }, status := stOk, waits := some (.maint x.id) }
  else match commitMaint x s1 with
  | (s2, .ok n) => { st := s2, status := stOk, waits := some (.journal n) }
  | (s2, .error st) => { st := s2, status := st }

/-- The bytes of a rebase are well formed (R181). -/
def rebaseOk (data : List Byte) : Bool :=
  data.length == 152 && (List.range 18).all fun r => bits (field data (8 * r) 8) 62 56 == 0

/-- A clear of the event recorder joins those that wait; its EXEC completes when both its records are durable (R446). -/
def clearStart (role sid : Nat) (s : State) : ChangeAns :=
  let no := s.evr.clearNo
  { st := nextClear { s with evr.clears := s.evr.clears ++ [(no, role, sid)], evr.clearNo := no + 1 }, status := stOk
    waits := some (.clear no) }

/-- A ledger execution under a role (R185, R270). -/
def ldgExec (role sid l arg : Nat) (data : Except Nat (List Byte)) (s : State) : ChangeAns :=
  if !loidOk l then { st := s, status := stBadLoid }
  else if role = 0 ∨ role = 7 ∨ !(granted s.tmu.policy.stepRole .x l).contains role then
    { st := denied l role sid s, status := stAccessDenied }
  else match loidClass l with
  | 6 => sealStart role sid s
  | 8 => clearStart role sid s
  | 9 => setBack role arg s
  | _ =>
    if loidItem l = 1 then maintain (loidIndex l) none s
    else match data with
    | .error e => { st := s, status := e }
    | .ok d => if rebaseOk d then maintain (loidIndex l) (some d) s else { st := s, status := stBadArg }

/-! ## The engine calls LDG_READ, LDG_WRITE, LDG_EXEC (R270) -/

/-- LDG_READ. -/
def engLdgRead (t : Nat) (b : List Byte) (s : State) : EngOut :=
  let rt := (s.thr t).rtag
  let (a, s1) := ldgRead (rtagRole rt) (rtagSid rt) (field b 0 4) (field b 16 8) (field b 4 4) s
  if a.status ≠ stOk then { st := s1, status := a.status, out := match a.need with | some n => [(4, le 4 n)] | none => [] }
  else if !s.bufOk t (field b 8 8) a.bytes.length then .fail s1 stAccessFault
  else { st := writeBuf t (field b 8 8) a.bytes s1, status := stOk, out := [(4, le 4 a.bytes.length)] }

/-- The bytes a WRITE or EXEC supplies. -/
def ldgData (t : Nat) (b : List Byte) (s : State) : Except Nat (List Byte) :=
  if field b 4 4 = 0 then .ok [] else s.readBuf t (field b 8 8) (field b 4 4)

/-- LDG_WRITE. -/
def engLdgWrite (t : Nat) (b : List Byte) (s : State) : EngOut :=
  let rt := (s.thr t).rtag
  let a := ldgWrite (rtagRole rt) (rtagSid rt) (field b 0 4) (field b 16 8) (ldgData t b s) s
  { st := a.st, status := a.status, waits := a.waits }

/-- LDG_EXEC. -/
def engLdgExec (t : Nat) (b : List Byte) (s : State) : EngOut :=
  let rt := (s.thr t).rtag
  let a := ldgExec (rtagRole rt) (rtagSid rt) (field b 0 4) (field b 16 8) (ldgData t b s) s
  { st := a.st, status := a.status, waits := a.waits }

/-- LDG_READ as an engine call. -/
def execLdgRead (t : Fin 256) (pi : Fin 8) (rt ra : Fin 32) (s : State) : Result := .next (ecall t pi rt ra 0x40 24 engLdgRead s)

/-- CALENDAR_STAGE: LDG_WRITE of a staged calendar (R171). -/
def execCalendarStage (t : Fin 256) (pi : Fin 8) (rt ra : Fin 32) (s : State) : Result := .next (ecall t pi rt ra 0x41 24 engLdgWrite s)

/-- FORCE_SCHEDULE_WRITE: LDG_WRITE of a force entry (R170). -/
def execForceScheduleWrite (t : Fin 256) (pi : Fin 8) (rt ra : Fin 32) (s : State) : Result := .next (ecall t pi rt ra 0x41 24 engLdgWrite s)

/-- TIME_POLICY_WRITE: LDG_WRITE of the time-source policy (R335). -/
def execTimePolicyWrite (t : Fin 256) (pi : Fin 8) (rt ra : Fin 32) (s : State) : Result := .next (ecall t pi rt ra 0x41 24 engLdgWrite s)

/-- MORDANT_SEAL: LDG_EXEC of the seal (R187). -/
def execMordantSeal (t : Fin 256) (pi : Fin 8) (rt ra : Fin 32) (s : State) : Result := .next (ecall t pi rt ra 0x42 24 engLdgExec s)

/-- CLOCK_SET_BACK: LDG_EXEC of the clock step (R179). -/
def execClockSetBack (t : Fin 256) (pi : Fin 8) (rt ra : Fin 32) (s : State) : Result := .next (ecall t pi rt ra 0x42 24 engLdgExec s)

/-- REBASE: LDG_EXEC of a rebase (R181). -/
def execRebase (t : Fin 256) (pi : Fin 8) (rt ra : Fin 32) (s : State) : Result := .next (ecall t pi rt ra 0x42 24 engLdgExec s)

/-- FINAL_CLOSE: LDG_EXEC of a final close (R181). -/
def execFinalClose (t : Fin 256) (pi : Fin 8) (rt ra : Fin 32) (s : State) : Result := .next (ecall t pi rt ra 0x42 24 engLdgExec s)

/-- EVENT_RECORDER_CLEAR: LDG_EXEC of a recorder clear (R446). -/
def execEventRecorderClear (t : Fin 256) (pi : Fin 8) (rt ra : Fin 32) (s : State) : Result := .next (ecall t pi rt ra 0x42 24 engLdgExec s)

/-! ## Mordant (R187, R188) -/

/-- The unseal: Sepia's record, the count, and UNSEALED on every open record; `atBoot` is its ATBOOT byte (R188). -/
def unsealNow (atBoot : Nat) (s : State) : State :=
  let n := s.ldg.unseals + 1
  let s1 := sepWrite 0x0004 (le 1 atBoot ++ zeroBytes 3 ++ le 4 n) { s with sepia.reserved := false }
  let s2 := journal' 0x0A (.mordant false) { s1 with ldg.sealed := false, ldg.unseals := n }
  if s2.glb.mode = .service ∨ s2.glb.mode = .standby ∨ s2.glb.mode = .bringup then
    postNotice 0x0505 0 (le 4 n ++ le 1 atBoot) s2
  else { s2 with ldg.unsealDue := some atBoot }

/-- MORDANT_SEAL_EFFECT: the Sepia seal record is durable and the seal takes effect (R187); a pin high by then unseals at once (R188). -/
def execMordantSealEffect (s : State) : Result :=
  .next (match s.ldg.sealPending with
    | none => s
    | some body =>
      let s1 := sepWrite 0x0003 body { s with ldg.sealPending := none }
      let s2 := journal' 0x0A (.mordant true) { s1 with ldg.sealed := true, sepia.reserved := true }
      let s3 := wake .seal none none s2
      if s.ldg.pin then unsealNow 0 s3 else s3)

/-- MORDANT_UNSEAL: the debounced MORDANT_SEAL_N has changed; a high level while sealed unseals, a low one seals nothing by itself (R187,
R188). -/
def execMordantUnseal (high : Bool) (s : State) : Result :=
  .next (
    let s1 := { s with ldg.pin := high }
    if s.glb.mode = .off ∨ !high ∨ !s.ldg.sealed then s1 else unsealNow 0 s1)

end Sys2Proof.Machine
end

