-- ==== Sys2Proof/Machine/LakeFmt.lean ====
section
/-! DEFINITION. What lies on the NAND: journal records, log records, group chunks, event and volume chunks, tags, raw chunks and pages
(R183, R212, R213, R216, R221, R222, R226). -/

namespace Sys2Proof.Machine

/-! ## Journal records (R183, Table 6-8) -/

/-- The body of a journal record. BOUNDARY and CLOSE are printed (Tables 6-7 and 6-2); the others carry the fields that Table 6-8 names in an
order and widths of the model's (DESIGN CHOICE, log 125). -/
def State.recBody (s : State) (r : JRec) : List Byte :=
  let rec_ := fun (m : Meter) => match m.opn with | some o => o.bytes | none => zeroBytes 256
  fit r.len (match r.eff with
  | .meter mh m =>
    if r.typ = 3 then (match m.closed.head? with | some c => c.bytes | none => [])
    else if r.typ = 8 then le 4 mh ++ zeroBytes 4 ++ m.sh.bytes.take 144 ++ le 8 (match m.opn with | some o => o.lastbook | none => 0)
    else le 4 mh ++ zeroBytes 4 ++ rec_ m ++ m.sh.bytes
  | .final mh _ t => le 4 mh ++ zeroBytes 4 ++ le 8 t
  | .boundary b _ => b.bytes
  | .move v e _ _ => le 8 e.ma.toNat ++ le 4 v.old ++ le 4 v.new
  | .dir mh e _ _ => le 4 mh ++ zeroBytes 4 ++ e.bytes
  | .node n b => le 2 n ++ zeroBytes 2 ++ b
  | .stage c b t => le 8 t ++ le 1 c ++ zeroBytes 7 ++ b
  | .force k e => le 1 (k / 16) ++ le 1 (k % 16) ++ zeroBytes 6 ++ (match e with | some x => x.bytes | none => [])
  | .mordant b => le 1 (flag b) ++ zeroBytes 7 ++ (s.sealDigests.getD [])
  | .policy p => ({ allowed := p.1, stepRole := p.2.1, maxHold := p.2.2.1, maxStep := p.2.2.2 } : Policy).bytes)

/-- A journal record: its 16-byte header, whose CRC-32C covers the first 12 bytes and the body, and the body (R183). -/
def State.recBytes (s : State) (r : JRec) : List Byte :=
  let body := s.recBody r
  let head := le 8 r.jseq ++ le 1 r.typ ++ zeroBytes 1 ++ le 2 r.len
  head ++ le 4 (crc32c (head ++ body)) ++ body

/-- Chunk `i` of the journal ring (R222): the records as they lie end to end, of the last pass over the ring. -/
def State.journalChunk (s : State) (i : Nat) : List Byte :=
  let last := (s.ldg.jpos - 1) / 4096
  let c := if last % 262144 < i then last / 262144 * 262144 + i - 262144 else last / 262144 * 262144 + i
  let rs := (s.ldg.jlog.filter fun r => decide (r.pos < c * 4096 + 4096 ∧ c * 4096 < r.pos + 16 + r.len)).reverse
  match rs.head? with
  | none => zeroBytes 4096
  | some r => fit 4096 (((zeroBytes (r.pos - c * 4096)) ++ (rs.map s.recBytes).flatten).drop (c * 4096 - r.pos))

/-! ## The readings log and the event ring (R221, R226) -/

/-- Bytes of a log record. -/
def LogRec.bytes (r : LogRec) : List Byte :=
  let n := 16 + 8 * ceilDiv r.body.length 8
  fit n (le 1 r.rtype ++ le 1 n ++ le 4 (r.mh + r.src * 2 ^ 20) ++ le 2 r.flags ++ le 8 r.dtime ++ r.body)

/-- A PAD record: a header alone, from source none (Table 8-12). -/
def padBytes : List Byte := ({ lsn := 0, off := 0, rtype := 0, src := 511, mh := 0xFFFFF, flags := 0, dtime := 0, body := [] } : LogRec).bytes

/-- The records of a chunk of a log segment that have their bytes in it, oldest first. -/
def Lake.chunkRecs (l : Lake) (lsn c : Nat) : List LogRec := (l.log.filter fun r => r.lsn == lsn && r.off / 4096 == c).reverse

/-- Another record follows the records of this chunk of the log, in a later chunk. -/
def Lake.chunkEnded (l : Lake) (lsn c : Nat) : Bool := decide (lsn + 1 < l.lsnHead) || (lsn + 1 == l.lsnHead && decide ((c + 1) * 4096 ≤ l.logOff))

/-- A chunk of a log segment: its records, and a PAD record after them once the chunk takes no more (R226). -/
def Lake.logChunk (l : Lake) (lsn c : Nat) : List Byte :=
  let b := ((l.chunkRecs lsn c).map LogRec.bytes).flatten
  fit 4096 (if l.chunkEnded lsn c && decide (b.length + 16 ≤ 4096) then b ++ padBytes else b)

/-- A chunk of an event-ring segment: its event records (R442). -/
def Recorder.chunk (r : Recorder) (seg c : Nat) : List Byte :=
  fit 4096 (((r.ring.filter fun e => e.seg % 256 == seg && e.pos % 262144 / 4096 == c).map EvRec.bytes).flatten)

/-! ## Ledger space (R222) -/

/-- First LCA of the closed slots, and of the journal ring. -/
def closedBase : Nat := 131200
def Lake.journalBase (l : Lake) : Nat := closedBase + 65536 * l.nkeepMax

/-- A group chunk (Table 8-10). -/
def State.groupChunk (s : State) (g : Nat) : List Byte :=
  let m := fun (i : Nat) => s.ldg.dur.meters.get {} (8 * g + i)
  let slot := fun (x : Meter) => match x.opn with | some o => o.bytes ++ x.sh.bytes | none => zeroBytes 448
  let b := fit 4092 (le 4 g ++ zeroBytes 4 ++ le 8 (s.lake.groupJseq.get 0 g) ++ ((List.range 8).map fun i => slot (m i)).flatten
    ++ ((List.range 8).map fun i => le 4 (m i).closes).flatten)
  b ++ le 4 (crc32c b)

/-- The closed record in slot `x` (R222): record j × 2^20 + MH, the newest whose CLOSES index is j mod NKEEP_MAX. -/
def State.closedSlot (s : State) (x : Nat) : List Byte :=
  let n := max s.lake.nkeepMax 1
  let m := s.ldg.dur.meters.get {} (x % 1048576)
  let ks := (List.range (min m.closes s.ldg.nkeep)).filter fun k => (m.closes - 1 - k) % n == x / 1048576
  match ks.head?.bind fun k => m.closed[k]? with
  | some r => r.bytes
  | none => zeroBytes 256

/-- A chunk of the ledger space. -/
def State.ledgerChunk (s : State) (lca : Nat) : List Byte :=
  if lca < 131072 then s.groupChunk lca
  else if lca < closedBase then fit 4096 (Config.chunkContent 4 lca s.lake.wseq)
  else if lca < s.lake.journalBase then ((List.range 16).map fun i => s.closedSlot (16 * (lca - closedBase) + i)).flatten
  else s.journalChunk (lca - s.lake.journalBase)

/-- What a volume chunk holds: the newest write to it. -/
def State.volChunk (s : State) (la : Nat) : List Byte :=
  match s.lake.volPend.reverse.findSome? fun w => (firstWhere (fun c => c.1 == la) w.chunks).map (·.2) with
  | some d => d
  | none => s.lake.vol.get (zeroBytes 4096) la

/-- The 4,096 data bytes of a chunk that is programmed now, by its key: space × 2^40 + LADDR. -/
def State.chunkData (s : State) (key : Nat) : List Byte :=
  let la := key % 2 ^ 40
  fit 4096 (match key / 2 ^ 40 with
  | 4 => s.ledgerChunk la
  | 5 => s.lake.logChunk (la / 64) (la % 64)
  | 6 => s.evr.chunk (la / 64 % 256) (la % 64)
  | 7 => s.volChunk la
  | sp => Config.chunkContent sp la s.lake.wseq)

/-- AUX of a log or event chunk: the offset of the first record that starts in it, 0xFFFF for none (Table 8-4). Records never cross a chunk. -/
def State.auxOf (s : State) (key : Nat) : Nat :=
  let la := key % 2 ^ 40
  let first := fun (l : List Nat) => match l with | o :: _ => o % 4096 | [] => 0xFFFF
  match key / 2 ^ 40 with
  | 5 => first ((s.lake.chunkRecs (la / 64) (la % 64)).map (·.off))
  | 6 => first ((s.evr.ring.filter fun e => e.seg % 256 == la / 64 % 256 && e.pos % 262144 / 4096 == la % 64).map (·.pos))
  | _ => 0

/-! ## Raw chunks and pages (R212, R213, R216) -/

/-- The 32 bytes of a chunk tag (Table 8-4). -/
def CTag.tag (t : CTag) : List Byte := le 1 t.space ++ le 1 t.tflags ++ le 2 t.aux ++ le 4 t.stripe ++ le 8 t.wseq ++ le 8 t.dseq ++ le 8 t.laddr

/-- The 4,512 bytes of a chunk as programmed: data, tag, CRC-32C over both, LDPC parity (R212). -/
def CTag.raw (t : CTag) : List Byte :=
  let b := fit 4096 t.data ++ t.tag
  let w := b ++ le 4 (crc32c b)
  w ++ fit 380 (Config.nandParity w)

/-- A page as programmed: its chunks, missing ones and the columns from 18,048 on at 0xFF (R212). -/
def pageImage (spare : Nat) (l : List CTag) : List Byte :=
  let b := (l.map CTag.raw).flatten
  b ++ List.replicate (16384 + spare - b.length) 0xFF#8

/-- Byte-wise XOR of two pages; a row's first page is XORed with nothing (R216). -/
def xorPage : List Byte → List Byte → List Byte
  | [], b => b
  | a, [] => a
  | x :: a, y :: b => (x ^^^ y) :: xorPage a b

/-! ## The NAND profile (Table 8-2) and Table 8-1 -/

/-- A field of the NAND profile in OTP. -/
def State.profile (s : State) (off n : Nat) : Nat := s.otpField (0x480 + off) n
def State.profileBytes (s : State) (off n : Nat) : List Byte := s.otpBytes (0x480 + off) n
def State.peNative (s : State) : Nat := s.profile 68 4
def State.pePslc (s : State) : Nat := s.profile 72 4
def State.readLimit (s : State) : Nat := s.profile 76 4

/-- Longest time of a read, program or erase by the profile, µs; `kind` 0, 1, 2. -/
def State.maxOp (s : State) (kind : Nat) : Nat := s.profile (80 + 4 * min kind 2) 4

/-- The profile's CHECK is good (R209), and its maxima do not exceed Table 8-1. -/
def State.profileOk (s : State) : Bool :=
  s.profile 124 4 == crc32c (s.profileBytes 0 124) && decide (s.maxOp 0 ≤ 200 ∧ s.maxOp 1 ≤ 2000 ∧ s.maxOp 2 ≤ 10000)

/-- A part of the profile that is entered on the NAND: SET FEATURES with an address and 4 parameter bytes, or one command byte followed by 0xFF
(Table 8-2). An address of 0xFF stands for no SET FEATURES (log 127). -/
def featureOps (b : List Byte) : List (List Nat × Nat × List Byte) :=
  if (b.drop 1).all (· == 0xFF#8) then (if b.headD 0xFF#8 == 0xFF#8 then [] else [([(b.headD 0).toNat], 0, [])])
  else ([slice b 0 5, slice b 5 5].filter fun x => x.length == 5 && x.headD 0xFF#8 != 0xFF#8).map fun x => ([0xEF], (x.headD 0).toNat, x.drop 1)

/-- Read retry step `n`, and RETRY_OFF for 8 (Table 8-2). -/
def State.retryOp (s : State) (n : Nat) : List Byte := s.profileBytes (24 + 5 * (n - 1)) 5

/-- A parameter page keeps Table 8-1. -/
def pageOk (p : ParamPage) : Bool :=
  [1, 2, 4].contains p.luns && [1, 2, 4].contains p.planes && p.data == 16384 &&
    decide (1664 ≤ p.spare ∧ 64 ≤ p.pages ∧ p.pages ≤ 1024 ∧ p.blocks ≤ 4096 ∧ 4 ≤ p.partials) && p.modes != 0

/-- A parameter page names the same part and geometry as another (R208). -/
def pageSame (p q : ParamPage) : Bool :=
  p.maker == q.maker && p.model == q.model && p.luns == q.luns && p.planes == q.planes && p.pages == q.pages && p.blocks == q.blocks
    && p.data == q.data && p.spare == q.spare

/-- The first copy with a good CRC (Table 8-3). -/
def targetPage (t : NandTarget) : Option ParamPage := firstWhere (·.crcOk) t.pages

/-- The fastest NV-DDR3 timing mode that the parameter page and TMODE_MAX admit (Table 8-1). -/
def fastestMode (modes top : Nat) : Nat := ((List.range 16).filter fun m => bitAt modes m && decide (m ≤ top)).foldl max 0

/-- The geometry that target 0 of channel 0 gives with the targets of its channel, and that its NAND is one the part supports (R208, R209). -/
def State.geomOf (s : State) (ts : List NandTarget) : Option Geom :=
  match firstWhere (fun (t : NandTarget) => t.ch == 0 && t.tgt == 0) ts with
  | none => none
  | some t0 => match targetPage t0 with
    | none => none
    | some p =>
      let n := (ts.filter fun t => t.ch == 0).length
      let g : Geom := { dg := n * p.luns / 2, lunch := n * p.luns, tgts := n, spare := p.spare, planes := p.planes, bpc := s.profile 67 1
                        tmode := fastestMode p.modes (s.profile 64 1), pages := p.pages, blocksPerLun := p.blocks }
      if pageOk p && g.lunch % 2 == 0 && decide (8 * g.lunch ≤ 256 ∧ 8 * g.lunch * p.blocks ≤ 262144 ∧ 8 * g.lunch * p.blocks * p.pages * 16384 ≤ 2 ^ 42)
        && decide (2 ≤ g.bpc ∧ g.bpc ≤ 4) then some g else none

/-- LUN index of a channel, target and LUN in the target: channel + 8 × position, positions counted target first (R216, log 128). -/
def Geom.lun (g : Geom) (ch tgt lun : Nat) : Nat := ch + 8 * (tgt + g.tgts * lun)

/-- Channel, target and LUN in the target of a LUN index. -/
def Geom.place (g : Geom) (i : Nat) : Nat × Nat × Nat := (i % 8, i / 8 % max g.tgts 1, i / 8 / max g.tgts 1)

/-- LUNs of targets that are missing, have no good parameter page or do not match target 0 of channel 0 (R208). -/
def absentLuns (g : Geom) (ts : List NandTarget) : List Nat :=
  let p0 := (firstWhere (fun (t : NandTarget) => t.ch == 0 && t.tgt == 0) ts).bind targetPage
  (List.range (8 * g.lunch)).filter fun i =>
    let (c, t, _) := g.place i
    match firstWhere (fun (x : NandTarget) => x.ch.val == c && x.tgt.val == t) ts with
    | none => true
    | some x => match targetPage x, p0 with
      | some p, some q => !pageSame p q
      | _, _ => true

/-! ## Commands on a channel (R210, Table 8-3) -/

/-- A command to a target: VOLUME SELECT goes before it where the channel carries more than one (Table 8-3). -/
def nandTo (ch tgt : Nat) (cmd row : List Nat) (col : Nat) (data : List Byte) (s : State) : State :=
  let s1 := if 1 < s.lake.geom.tgts then emit (.nand ch tgt [0xE1] [] 0 []) s else s
  emit (.nand ch tgt cmd row col data) s1

/-- A command to a LUN. -/
def nandLun (i : Nat) (cmd : List Nat) (block page col : Nat) (data : List Byte) (s : State) : State :=
  let (c, t, l) := s.lake.geom.place i
  nandTo c t cmd [l, block, page] col data s

/-- A part of the profile entered on the target of a LUN. -/
def nandEnter (i : Nat) (ops : List (List Nat × Nat × List Byte)) (s : State) : State :=
  ops.foldl (fun s o => nandLun i o.1 0 0 o.2.1 o.2.2 s) s

/-- An operation on a block: pSLC mode is entered before it and left after it where the block is used so, and READ STATUS ENHANCED ends it. -/
def nandOp (i block page : Nat) (pslc : Bool) (cmd : List Nat) (data : List Byte) (s : State) : State :=
  let on := fun (s : State) => if pslc then nandEnter i (featureOps (s.profileBytes 0 12)) s else s
  let off := fun (s : State) => if pslc then nandEnter i (featureOps (s.profileBytes 12 12)) s else s
  off (nandLun i [0x78] block page 0 [] (nandLun i cmd block page 0 data (on s)))

/-- A page program. -/
def nandProgram (k page : Nat) (pslc : Bool) (data : List Byte) (s : State) : State := nandOp (k / 4096) (k % 4096) page pslc [0x80, 0x10] data s

/-- A block erase. -/
def nandErase (k : Nat) (pslc : Bool) (s : State) : State := nandOp (k / 4096) (k % 4096) 0 pslc [0x60, 0xD0] [] s

/-- A chunk read with the ladder's steps 0 to `last`: each step reads again after its RETRY, and the default thresholds come back after step 0
(Table 8-5, log 127). -/
def nandRead (pca last : Nat) (pslc : Bool) (s : State) : State :=
  let i := pca / 2 ^ 24
  let blk := pca / 4096 % 4096
  let one := fun (s : State) (n : Nat) =>
    let s1 := if n = 0 then s else nandEnter i (featureOps (s.retryOp n)) s
    nandLun i [0x06, 0xE0] blk (pca / 4 % 1024) (pca % 4 * 4512) [] (nandOp i blk (pca / 4 % 1024) pslc [0x00, 0x30] [] s1)
  let s1 := (List.range (last + 1)).foldl one s
  if last = 0 then s1 else nandEnter i (featureOps (s1.retryOp 8)) s1

/-- Initialisation of one target (R211): RESET, READ ID, READ PARAMETER PAGE, timing mode, ODT and DRIVE by SET FEATURES, ZQ CALIBRATION LONG. The
feature addresses are those of ONFI 4.1 (PRESUMED, log 127). -/
def nandInitTarget (s : State) (t : NandTarget) : State :=
  let go := fun (cmd : List Nat) (col : Nat) (d : List Byte) (s : State) => nandTo t.ch.val t.tgt.val cmd [] col d s
  go [0xF9] 0 [] (go [0xEF] 0x10 (s.profileBytes 66 1 ++ zeroBytes 3) (go [0xEF] 0x02 (s.profileBytes 65 1 ++ zeroBytes 3)
    (go [0xEF] 0x01 (le 1 s.lake.geom.tmode ++ zeroBytes 3) (go [0xEC] 0 [] (go [0x90] 0 [] (go [0xFF] 0 [] s))))))

/-- The NAND comes up: geometry, modes, write protection released, LUNs that do not count (R208, R211). -/
def nandInit (ts : List NandTarget) (g : Geom) (s : State) : State :=
  let bad := ts.flatMap fun t => t.bad.map fun b => g.lun t.ch.val t.tgt.val b.1 * 4096 + b.2
  ts.foldl nandInitTarget { s with lake.inited := true, lake.wpHigh := true, lake.geom := g, lake.factoryBad := bad, lake.absent := absentLuns g ts }

/-- The NAND is initialised again after its supply was off in VIGIL: the targets that its channels carry (R211, R236). -/
def nandAgain (s : State) : State :=
  let ts : List NandTarget := (List.range 8).flatMap fun c => (List.range s.lake.geom.tgts).map fun t =>
    { ch := Fin.ofNat 8 c, tgt := Fin.ofNat 8 t, pages := [], bad := [] }
  ts.foldl nandInitTarget { s with lake.inited := true, lake.wpHigh := true }

/-! ## The read ladder (R214, Table 8-5) -/

/-- How a ladder ends. -/
inductive Ladder where
  | passed (step corrected : Nat)
  | erased
  | failed
deriving DecidableEq, Repr

/-- A try passes when the decoder converges and the CRC-32C over data and tag matches. -/
def tryPasses (t : NandTry) : Option Nat :=
  match t.corrected with
  | some n => if t.word.length = 4132 ∧ crc32c (t.word.take 4128) = field t.word 4128 4 then some n else none
  | none => none

/-- The ladder from step `n` on: 98 % or more ones is ERASED without decoding; steps go to 7. -/
def ladder (n : Nat) : List NandTry → Ladder
  | [] => .failed
  | t :: l =>
    if 8 ≤ n then .failed
    else if 98 * 36096 ≤ 100 * t.ones then .erased
    else match tryPasses t with
    | some k => .passed n k
    | none => ladder (n + 1) l

/-- The last step that a ladder takes. -/
def lastStep (l : List NandTry) : Nat := match ladder 0 l with | .passed n _ => n | _ => min 7 (l.length - 1)

/-- A ladder brings its chunk back. -/
def recovers (l : List NandTry) : Bool := match ladder 0 l with | .passed .. => true | _ => false

end Sys2Proof.Machine
end

