-- ==== Sys2Proof/Machine/Lake.lean ====
section
/-! DEFINITION. Lake: regions, stripes, page programs, maps, the readings log, credits, retirement (R208 to R235). -/

namespace Sys2Proof.Machine

/-! ## Geometry (R219) -/

/-- LUNs, blocks and chunks per block. -/
def Lake.luns (l : Lake) : Nat := 8 * l.geom.lunch
def Lake.totalBlocks (l : Lake) : Nat := l.luns * l.geom.blocksPerLun
def Lake.cpb (l : Lake) : Nat := 4 * l.geom.pages
/-- Chunks of a block in pSLC mode (log 33). -/
def Lake.cpbP (l : Lake) : Nat := l.cpb / max l.geom.bpc 1

/-- Chunks of the ledger space (R222). -/
def ledgerChunks (nkeep : Nat) : Nat := 131200 + nkeep * 65536 + 262144

/-- Block quotas of a format: ledger, its private pool, and what is left for the log (Table 8-7, log 33). -/
def Lake.quotas (l : Lake) (landing volume nkeep : Nat) : Nat × Nat × Int :=
  let led := ceilDiv (2 * ledgerChunks nkeep * 112) (100 * max l.cpb 1)
  let pool := ceilDiv (2 * led) 100
  let p := max l.cpbP 1
  let fixed := 16 + 16 * ceilDiv (ceilDiv 16384 7) p + ceilDiv 131072 p + ceilDiv (landing * 262144) p
    + ceilDiv 16384 (max l.cpb 1) + 16 + ceilDiv (volume * 262144 * 112) (100 * max l.cpb 1)
  (led, pool, (l.totalBlocks : Int) - ((led + pool + fixed : Nat) : Int))

/-! ## Blocks and stripes (R216, R217) -/

/-- Key of a block. -/
def blockKey (lun block : Nat) : Nat := lun * 4096 + block

/-- A block; one on a failed LUN is RETIRED (R232). -/
def Lake.block (l : Lake) (k : Nat) : Block :=
  let b := l.blocks.get {} k
  if l.lunFailed.get false (k / 4096) then { b with st := 7 } else b

/-- A change of the maps enters the map journal (R229). -/
def mjAdd (e : MjEntry) (s : State) : State := { s with lake.mjStaged := e :: s.lake.mjStaged }

/-- The lake with block `k` changed; a new state or count enters the map journal. -/
def setBlock (k : Nat) (b : Block) (s : State) : State :=
  let a := s.lake.blocks.get {} k
  let s1 := { s with lake.blocks := s.lake.blocks.put {} k b }
  if a.st = b.st ∧ a.pe = b.pe then s1 else mjAdd (.block (k / 4096) (k % 4096) b.st b.pe) s1

/-- PCA of a page position: LUN, BLOCK, PAGE, CHUNK (R221). -/
def pcaOf (bk page chunk : Nat) : Nat := bk * 4096 + page * 4 + chunk

/-- Block key of a PCA. -/
def pcaBlock (pca : Nat) : Nat := pca / 4096

/-- Key of a mapped address. -/
def mapKey (space laddr : Nat) : Nat := space * 2 ^ 40 + laddr

/-- Streams: 3 META, 4 ledger A, 5 log, 6 event, 7 volume, 8 ledger B; collection streams 16 more (R228). -/
def streamSpace (stream : Nat) : Nat := if stream % 16 = 8 then 4 else stream % 16

/-- The FREE block of a LUN with the lowest program/erase count. -/
def Lake.pick (l : Lake) (lun : Nat) : Option Nat :=
  if l.lunFailed.get false lun then none
  else ((List.range l.geom.blocksPerLun).filter fun b => (l.block (blockKey lun b)).st == 1).foldl
    (fun r b => match r with
      | none => some (blockKey lun b)
      | some k => if (l.block (blockKey lun b)).pe < (l.block k).pe then some (blockKey lun b) else r) none

/-- A stream's blocks are in pSLC mode: META (Table 8-7). -/
def pslcStream (stream : Nat) : Bool := stream % 16 == 3

/-- A stripe that the table does not hold. -/
def noStripe : Stripe := { group := 0, stream := 0, blocks := [], ppos := 0 }

/-- The open stripe of a stream. -/
def Lake.opened (l : Lake) (stream : Nat) : Option Stripe := (l.openStripe.find stream).map fun n => l.stripes.get noStripe n

/-- Die group `g` can form a stripe: every LUN of it that is in use holds a FREE block (R216). -/
def Lake.groupReady (l : Lake) (g : Nat) : Bool :=
  let ls := (List.range 16).map fun p => 16 * g + p
  ls.any (fun i => !l.lunFailed.get false i) && ls.all fun i => l.lunFailed.get false i || (l.pick i).isSome

/-- The position at or after `p` whose LUN is in use. -/
def usedFrom (bs : List (Option Nat)) (p : Nat) : Nat :=
  (firstWhere (fun q => (bs.getD q none).isSome) ((List.range 16).map fun i => (p + i) % 16)).getD p

/-- Opens a stripe for a stream on die group `g`. PPOS is the stripe number mod 16, one more than its A stripe's for a B stripe; where that
position's LUN has failed, the next one in use (R216, R222; log 128). -/
def openStripe (stream g : Nat) (s : State) : State :=
  let l := s.lake
  let n := l.nextStripe
  let bs := (List.range 16).map fun p => l.pick (16 * g + p)
  let want := if stream % 16 = 8 then (((l.opened (stream - 4)).getD noStripe).ppos + 1) % 16 else n % 16
  let take := fun (s : State) (b : Option Nat) =>
    match b with
    | some k => setBlock k { s.lake.block k with st := 2, led := streamSpace stream == 4, pslc := pslcStream stream } s
    | none => s
  let s1 := mjAdd (.stripeOpen n stream (n + 1)) (bs.foldl take s)
  { s1 with
    lake.stripes := s1.lake.stripes.ins n { group := g, stream := stream, blocks := bs, ppos := usedFrom bs want }
    lake.openStripe := s1.lake.openStripe.ins stream n
    lake.nextStripe := n + 1
    lake.mjDue := s1.lake.mjDue || s1.lake.mjOpened.contains stream
    lake.mjOpened := stream :: s1.lake.mjOpened.filter (· != stream) }

/-- Data positions of a stripe in order: every used position but the parity one; a B stripe begins at position 1, so that copy B of position p
lies at p + 1 (R216, R222). -/
def Stripe.data (x : Stripe) : List Nat :=
  ((List.range 16).map fun p => if x.stream % 16 = 8 then (p + 1) % 16 else p).filter fun p => p != x.ppos && (x.blocks.getD p none).isSome

/-- The stripe that a stream writes to, opened first where there is none: on the next die group that can form one, and a ledger stripe with its B
stripe on the group after it (R216, R222). -/
def withStripe (stream : Nat) (s : State) : State :=
  if (s.lake.openStripe.find stream).isSome then s
  else
    let l := s.lake
    let dg := max l.geom.dg 1
    let gs := (List.range dg).map fun i => (l.nextStripe + i) % dg
    let ledger := stream % 16 == 4
    match firstWhere (fun g => l.groupReady g && (!ledger || l.groupReady ((g + 1) % dg))) gs with
    | none => s
    | some g =>
      let s1 := openStripe stream g s
      if ledger && s1.lake.groupReady ((g + 1) % dg) then openStripe (stream + 4) ((g + 1) % dg) s1 else s1

/-- A chunk's content is still named by its map, or by the map of its ledger twin (R228). -/
def Lake.live (l : Lake) (pca : Nat) (t : CTag) : Bool :=
  match l.maps.find (mapKey t.space t.laddr) with
  | none => false
  | some a =>
    a == pca || (((l.stripes.get noStripe t.stripe).stream % 16 == 8) &&
      ((l.chunks.find a).map (·.dseq)) == some t.dseq)

/-- Programmed chunks of a block. -/
def Lake.chunksOf (l : Lake) (k : Nat) : List (Nat × CTag) := l.chunks.filter fun c => pcaBlock c.1 == k

/-- A LIVE block without a live chunk goes DIRTY (Table 8-6); a stripe all of whose blocks have gone leaves the table. -/
def dirtyCheck (k : Nat) (s : State) : State :=
  let b := s.lake.block k
  if b.st = 4 ∧ (s.lake.chunksOf k).all (fun c => !s.lake.live c.1 c.2) then setBlock k { b with st := 5 } s else s

/-- Stripes without an OPEN, CLOSED, LIVE or RETIRING block leave the stripe table. -/
def pruneStripes (s : State) : State :=
  let gone := fun (x : Stripe) => x.st == 2 && x.blocks.all fun b =>
    match b with
    | some k => let st := (s.lake.block k).st; st == 1 || st == 5 || st == 7
    | none => true
  { s with lake.stripes := s.lake.stripes.keep fun _ x => !gone x }

/-- A chunk to program: its key, TFLAGS, and for a copy or a recovered chunk its DSEQ and content. -/
structure Put where
  key : Nat
  flags : Nat := 0
  dseq : Option Nat := none
  data : Option (List Byte) := none

/-- The tag and content that a chunk is programmed with now. -/
def State.tagged (s : State) (n : Nat) (p : Put) : CTag :=
  let w := s.lake.wseq
  { space := p.key / 2 ^ 40, tflags := p.flags, aux := s.auxOf p.key, stripe := n, wseq := w, dseq := p.dseq.getD w, laddr := p.key % 2 ^ 40
    data := p.data.getD (s.chunkData p.key) }

/-- A chunk is programmed, native or landed, for the 24-hour counts (Table 8-15). -/
def noteProgram (native : Bool) (s : State) : State :=
  { s with lake.mjChunks := s.lake.mjChunks + 1
           lake.prog24 := (s.nowNs, native) :: s.lake.prog24.filter (fun e => decide (s.nowNs < e.1 + 86400000000000)) }

/-- Puts a chunk at a PCA with its tag, and the map entry that names it. -/
def placeChunk (n pca : Nat) (p : Put) (mapped : Bool) (s : State) : State :=
  let old := s.lake.maps.find p.key
  let s1 := noteProgram true { s with lake.wseq := s.lake.wseq + 1, lake.chunks := s.lake.chunks.ins pca (s.tagged n p) }
  count (kLks 0) (if mapped then
    let s2 := mjAdd (.mapSet (p.key / 2 ^ 40) (p.key % 2 ^ 40) pca) { s1 with
      lake.maps := s1.lake.maps.ins p.key pca, lake.bad := s1.lake.bad.put false p.key false }
    match old with | some a => dirtyCheck (pcaBlock a) s2 | none => s2
  else s1)

/-- Verification of a closed stripe: data blocks LIVE, the parity block DIRTY, victims waiting for it DIRTY (R218, R228). -/
def verifyStripe (n : Nat) (s : State) : State :=
  match s.lake.stripes.find n with
  | none => s
  | some x =>
    let setSt := fun (s : State) (p : Nat) =>
      match x.blocks.getD p none with
      | some k =>
        let b := s.lake.block k
        if b.st = 2 ∨ b.st = 3 then setBlock k { b with st := if p = x.ppos then 5 else 4 } s else s
      | none => s
    let s1 := (List.range 16).foldl setSt s
    let s2 := mjAdd (.verified n) { s1 with lake.stripes := s1.lake.stripes.ins n { x with st := 2 } }
    let vs := (s2.lake.victims.filter fun v => v.2 == n).map (·.1)
    let drop := fun (s : State) (v : Nat) =>
      match s.lake.stripes.find v with
      | some y => (y.blocks.filterMap id).foldl (fun s k =>
          let b := s.lake.block k
          if b.st = 4 then setBlock k { b with st := 5 } s else s) s
      | none => s
    let s3 := vs.foldl drop s2
    pruneStripes (count (kLks 14) { s3 with lake.victims := s3.lake.victims.keep (fun _ m => m != n)
                                            lake.gcAct := s3.lake.victims.any (fun v => v.2 != n) })

/-- Closes the open stripe of a stream at the row it has reached. -/
def closeStripe (stream : Nat) (s : State) : State :=
  match s.lake.openStripe.find stream with
  | none => s
  | some n =>
    let x := s.lake.stripes.get noStripe n
    let s1 := (x.blocks.filterMap id).foldl (fun s k =>
      let b := s.lake.block k
      if b.st = 2 then setBlock k { b with st := 3 } s else s) s
    mjAdd (.stripeClose n (x.wpos / max x.data.length 1)) { s1 with
      lake.stripes := s1.lake.stripes.ins n { x with st := 1 }, lake.openStripe := s1.lake.openStripe.del stream }

/-- The parity page of a row: the XOR of its data pages, on the parity position, with four parity chunks' tags (R213, R216). -/
def programParity (n row : Nat) (s : State) : State :=
  let x := s.lake.stripes.get noStripe n
  match x.blocks.getD x.ppos none with
  | none => s
  | some k =>
    let w := s.lake.wseq
    let tags := (List.range 4).map fun c => (pcaOf k row c, ({ space := 8, stripe := n, wseq := w + c, dseq := w + c } : CTag))
    nandProgram k row (pslcStream x.stream) (s.lake.parity.get [] x.stream) { s with
      lake.wseq := w + 4, lake.parity := s.lake.parity.put [] x.stream []
      lake.chunks := tags.foldl (fun m t => m.ins t.1 t.2) s.lake.chunks }

/-- Programs one page of up to four chunks of a stream, and after a row's last data page its parity page (R212, R213, R216). Answers whether that was
the stripe's last row. -/
def programPage1 (stream : Nat) (puts : List Put) (s : State) : State × Bool :=
  let s1 := withStripe stream s
  match s1.lake.openStripe.find stream with
  | none => (s1, false)
  | some n =>
    let x := s1.lake.stripes.get noStripe n
    let ds := x.data
    match x.blocks.getD (ds.getD (x.wpos % ds.length) 16) none with
    | none => (s1, false)
    | some k =>
      let row := x.wpos / ds.length
      let put := fun (a : State × Nat) (p : Put) => (placeChunk n (pcaOf k row a.2) p (stream % 16 != 8) a.1, a.2 + 1)
      let (s2, _) := puts.foldl put ({ s1 with lake.stripes := s1.lake.stripes.ins n { x with wpos := x.wpos + 1 } }, 0)
      let page := pageImage s2.lake.geom.spare ((List.range puts.length).filterMap fun c => s2.lake.chunks.find (pcaOf k row c))
      let s3 := nandProgram k row (pslcStream stream) page { s2 with lake.parity := s2.lake.parity.put [] stream (xorPage (s2.lake.parity.get [] stream) page) }
      let rowEnd := (x.wpos + 1) % ds.length = 0
      (if rowEnd then programParity n row s3 else s3, rowEnd && decide (s2.lake.geom.pages ≤ row + 1))

/-- A segment of 64 chunks does not cross a stripe: a stripe whose tail cannot hold one is closed before it (R221). -/
def padStripe (stream : Nat) (puts : List Put) (s : State) : State × List Nat :=
  let seg := (stream == 5 || stream == 6 || stream == 21 || stream == 22) && puts.any fun p => p.key % 64 == 0
  match s.lake.openStripe.find stream with
  | some n =>
    let x := s.lake.stripes.get noStripe n
    if seg && decide (x.data.length * s.lake.geom.pages < x.wpos + 16) then
      let s1 := if x.wpos % max x.data.length 1 = 0 then s else programParity n (x.wpos / x.data.length) s
      (closeStripe stream s1, [n])
    else (s, [])
  | none => (s, [])

/-- Programs a page; ledger pages go to streams A and B in lockstep, a stripe whose last row is done is closed, and its B stripe with it (R222).
Answers the stripes closed. -/
def programPage (stream : Nat) (puts : List Put) (s : State) : State × List Nat :=
  let (s0, padded) := padStripe stream puts s
  let (s1, e1) := programPage1 stream puts s0
  let (s2, e2) := if stream % 16 = 4 then programPage1 (stream + 4) puts s1 else (s1, false)
  let ends := if e1 || e2 then (if stream % 16 = 4 then [stream, stream + 4] else [stream]) else []
  let ns := ends.filterMap fun st => s2.lake.openStripe.find st
  (ends.foldl (fun s st => closeStripe st s) s2, padded ++ ns)

/-- Closed stripes are read back and verified; not in HOLD-UP, where no verify starts (R218, R236). -/
def verifyAll (ns : List Nat) (s : State) : State :=
  if s.cpm.pfail then s else ns.foldl (fun s n => verifyStripe n s) s

/-- Pages of four from a list of chunks. -/
def programChunks : List (List Put) → Nat → State → State
  | [], _, s => s
  | p :: l, stream, s =>
    let (s1, ns) := programPage stream p s
    programChunks l stream (verifyAll ns s1)

/-- Copies chunks to a stream with a TFLAGS mark: each keeps its DSEQ and content, and a map that no longer names the source is left (R228). -/
def copyChunks (cs : List (Nat × CTag)) (stream fl : Nat) (s : State) : State :=
  let live := cs.filter fun c => s.lake.live c.1 c.2
  programChunks (chunks 4 live.length (live.map fun c =>
    ({ key := mapKey c.2.space c.2.laddr, flags := fl, dseq := some c.2.dseq, data := some c.2.data } : Put))) stream s

/-! ## Quotas, protection, wear (R233 to R235) -/

/-- Stripes a space holds. -/
def Lake.stripesOf (l : Lake) (space : Nat) : Nat := (l.stripes.filter fun x => streamSpace x.2.stream == space).length

/-- Free stripes of the readings log, and free ledger stripe pairs. -/
def Lake.freeLog (l : Lake) : Nat := l.logQuota / 16 - l.stripesOf 5
def Lake.freePairs (l : Lake) : Nat := (l.ledgerQuota / 16 - l.stripesOf 4) / 2

/-- LAKE_SPARE_LOW once for each store (Table 8-16). -/
def spareCheck (s : State) : State :=
  let l := s.lake
  let s1 := if !l.spareLow.1 && decide (4 * l.pool < l.poolTotal) then
      postNotice 0x070A 1 (le 1 0 ++ zeroBytes 3 ++ le 4 l.pool) { s with lake.spareLow := (true, l.spareLow.2) }
    else s
  let reserve := 64 * l.geom.dg
  if !s1.lake.spareLow.2 && l.formatted && decide (10 * l.logQuota ≤ 11 * reserve) then
    postNotice 0x070A 1 (le 1 1 ++ zeroBytes 3 ++ le 4 l.logQuota) { s1 with lake.spareLow := (s1.lake.spareLow.1, true) }
  else s1

/-- Retires a block: charged to the ledger's pool or quota, or to the log's quota (R219, R231, R234). -/
def retireBlock (k cause : Nat) (s : State) : State :=
  let b := s.lake.block k
  let l := s.lake
  let s1 := setBlock k { b with st := 7 } s
  let s2 :=
    if b.led then
      if 0 < l.pool then { s1 with lake.pool := l.pool - 1 } else { s1 with lake.ledgerQuota := l.ledgerQuota - 1 }
    else { s1 with lake.logQuota := l.logQuota - 1 }
  spareCheck (postNotice 0x0702 1 (le 1 (k / 4096) ++ le 1 cause ++ zeroBytes 2 ++ le 4 (k % 4096)) (count (kLks 13) s2))

/-- Ledger writes stop when collection cannot keep 2 free stripe pairs (R234, R182). -/
def protectCheck (s : State) : State :=
  if s.lake.formatted ∧ !s.lake.protect ∧ s.lake.freePairs < 2 then
    postNotice 0x0707 0 (le 4 s.lake.pool) { s with lake.protect := true, ldg.protect := true }
  else s

/-- Ledger writes resume when 4 free stripe pairs are held, and the protected boundary records move (R234, R182). -/
def releaseCheck (s : State) : State :=
  if s.lake.protect ∧ 4 ≤ s.lake.freePairs then
    settleMaint (moveProtected (postNotice 0x0708 1 (le 4 s.lake.pool) { s with lake.protect := false }))
  else s

/-- Mean PE of the blocks of a kind × 10^4 over the rated cycles: life used in 0.01 %. -/
def Lake.lifeUsed (l : Lake) (pslc : Bool) (rated : Nat) : Nat :=
  let bs := l.blocks.filter fun e => e.2.pslc == pslc
  if bs.length = 0 ∨ rated = 0 then 0 else bs.foldl (fun n e => n + e.2.pe) 0 * 10000 / (bs.length * rated)

/-- The highest of 80, 90 and 100 % that life used has passed. -/
def wearStep (u : Nat) : Nat := if 10000 < u then 100 else if 9000 < u then 90 else if 8000 < u then 80 else 0

/-- LAKE_WEAR as native or landing life passes 80, 90 and 100 % (R235). -/
def wearCheck (s : State) : State :=
  let a := wearStep (s.lake.lifeUsed false s.peNative)
  let b := wearStep (s.lake.lifeUsed true s.pePslc)
  let s1 := if s.lake.lifePosted.1 < a then
    postNotice 0x070B 1 (le 1 0 ++ le 1 a) { s with lake.lifePosted := (a, s.lake.lifePosted.2) } else s
  if s1.lake.lifePosted.2 < b then
    postNotice 0x070B 1 (le 1 1 ++ le 1 b) { s1 with lake.lifePosted := (s1.lake.lifePosted.1, b) } else s1

/-! ## Credits (R225) -/

/-- A frame's credit is counted here until its record lands: FRAME records not of the bring-up buffer, and MARKs. -/
def LogRec.credited (r : LogRec) : Bool := (r.rtype == 1 && !bitAt r.flags 15) || r.rtype == 4

/-- Bytes written and not yet landed. -/
def Lake.unlanded (l : Lake) : Nat :=
  ((l.log.takeWhile fun r => !r.landed).foldl (fun n r => n + 16 + 8 * ceilDiv r.body.length 8) 0)
    + (l.volPend.foldl (fun n v => n + 4096 * v.chunks.length) 0)

/-- Credits Lake offers now; in reduced service and RESTORE, free slots of the bring-up buffer (R147, R225). -/
def State.credits (s : State) : Nat :=
  if !s.lake.ready ∨ s.ing.restore ∨ s.glb.mode = .bringup then 16384 - (s.ing.staging.length + s.pass.length)
  else if s.lake.logFull ∨ s.lake.protect ∨ s.lake.landFull ∨ 262144 ≤ s.lake.unlanded then 0
  else 3072 - s.lake.creditsUsed

/-! ## The readings log (R226) -/

/-- Appends a record: never across a chunk, a new LSN with each 256 KiB segment (R226). -/
def logAppend (rtype src mh flags dtime : Nat) (body : List Byte) (s : State) : State :=
  let len := 16 + 8 * ceilDiv body.length 8
  let l := s.lake
  let off := if l.logOff % 4096 + len > 4096 then alignDown (l.logOff + 4095) 4096 else l.logOff
  let fresh := l.lsnHead == 0 || decide (262144 < off + len) || l.lsnHead == l.lsnTail
  let head := if fresh then (l.lsnHead + 1) % 2 ^ 32 else l.lsnHead
  let at_ := if fresh then 0 else off
  let r : LogRec := { lsn := head - 1, off := at_, rtype := rtype, src := src, mh := mh, flags := flags, dtime := dtime, body := body, at_ := s.nowNs }
  { s with lake.log := r :: l.log, lake.lsnHead := head, lake.logOff := at_ + len }

/-- A balance record or a duplicate note; a full log drops notes, and balance records too once its last stripes are used (R233). -/
def logNote (src mh dtime : Nat) (body : List Byte) (s : State) : State :=
  if s.lake.logFull then count (kLks 19) s else logAppend 2 src mh 0 dtime body s

def logBalance (dtime : Nat) (body : List Byte) (s : State) : State :=
  if s.lake.logFull ∧ s.lake.freeLog = 0 then count (kLks 18) s else logAppend 3 511 0xFFFFF 0 dtime body s

/-- Records that pass the test become durable; their credits return. -/
def landLog (p : LogRec → Bool) (s : State) : State :=
  let n := (s.lake.log.filter fun r => !r.landed && r.credited && p r).length
  { s with lake.log := s.lake.log.map (fun r => if p r then { r with landed := true } else r)
           lake.creditsUsed := s.lake.creditsUsed - n }

/-! ## Host volume -/

/-- A volume write becomes durable, and the call waiting on it completes (R272). -/
def commitVolume (w : VolWrite) (s : State) : State :=
  wake (.volume w.id) none none { s with
    lake.vol := w.chunks.foldl (fun m c => m.put (zeroBytes 4096) c.1 c.2) s.lake.vol
    lake.volPend := s.lake.volPend.filter fun x => x.id != w.id }

/-- Volume chunks in use: those mapped, and those an activation keeps that have changed since (R431). -/
def State.volUsed (s : State) : Nat :=
  s.lake.vol.length + match s.upd.volGen with
    | some g => (g.filter fun c => s.lake.vol.find c.1 != some c.2).length
    | none => 0

/-! ## Map journal and anchor (R220, R229) -/

/-- A flush of the map journal is due: 64 MiB of chunks, 2 s, a stripe beyond the one pre-allocated, or HOLD-UP (R229). -/
def State.mjFlushDue (s : State) : Bool :=
  decide (16384 ≤ s.lake.mjChunks) || decide (s.lake.lastFlush + 2000000000 ≤ s.nowNs) || s.lake.mjDue || s.cpm.pfail

/-- Flushes staged map-journal entries, 255 of 16 bytes to a chunk after its header (R229, log 126). -/
def flushMj (s : State) : State :=
  count (kLks 20) { s with
    lake.mjseq := s.lake.mjseq + ceilDiv s.lake.mjStaged.length 255, lake.mjStaged := [], lake.mjChunks := 0, lake.mjOpened := [], lake.mjDue := false
    lake.lastFlush := s.nowNs, lake.heackDur := s.lake.heack, lake.trimmed := [] }

/-- The two anchor blocks of a LUN: its first good blocks among 0 to 7 (Table 8-7). -/
def Lake.anchorBlocks (l : Lake) (lun : Nat) : List Nat :=
  (((List.range 8).map fun b => blockKey lun b).filter fun k => let st := (l.block k).st; st != 0 && st != 7).take 2

/-- The blocks of the boot slots: from block 8 up, the first good ones, on LUNs 0 to 7 for slot A and 8 to 15 for slot B (Table 8-7). -/
def Lake.bootBlocks (l : Lake) (lun : Nat) : List Nat :=
  ((((List.range l.geom.blocksPerLun).drop 8).map fun b => blockKey lun b).filter fun k => let st := (l.block k).st; st != 0 && st != 7).take
    (ceilDiv (ceilDiv 16384 7) (max l.cpbP 1))

/-- PCA that a META chunk of a number has, 0xFFFF_FFFF for none: 0 to 63 are the directory bank copies, 64 the map checkpoint, 65 the first
map-journal flush after it (log 126). -/
def Lake.metaPca (l : Lake) (i : Nat) : Nat := (l.maps.find (mapKey 3 i)).getD 0xFFFFFFFF

/-- The first chunk of an anchor page (Table 8-8). GEOM and REGIONS carry what the table names in an order of the model's (log 126). -/
def State.anchor (s : State) : List Byte :=
  let l := s.lake
  let u := s.upd
  let (led, pool, log) := l.quotas l.landGiB l.volGiB l.nkeepMax
  let b := le 4 0x454B414C ++ le 4 1 ++ le 8 l.aseq ++ le 16 l.fmtid
    ++ fit 32 (le 1 l.geom.dg ++ le 1 l.geom.lunch ++ le 2 l.geom.pages ++ le 1 0 ++ le 1 l.nkeepMax)
    ++ u.bootField
    ++ ((List.range 64).map fun i => le 4 (l.metaPca i)).flatten ++ le 8 (l.metaPca 64) ++ le 8 (l.metaPca 65)
    ++ fit 48 (le 4 led ++ le 4 pool ++ le 4 log.toNat ++ le 4 l.ledgerQuota ++ le 4 l.logQuota ++ le 1 l.landGiB ++ le 1 l.volGiB)
  fit 4092 b ++ le 4 (crc32c (fit 4092 b))

/-- The next anchor page: the same content on all eight channels, each page four times the same chunk; after a full block the other one, erased
first (R220). -/
def anchorUpdate (s : State) : State :=
  let full := decide (0 < s.lake.geom.pages ∧ s.lake.geom.pages ≤ s.lake.anchorPage)
  let s1 := count (kLks 22) { s with lake.aseq := s.lake.aseq + 1, lake.wseq := s.lake.wseq + 4
                                     lake.anchorBlk := if full then 1 - s.lake.anchorBlk else s.lake.anchorBlk
                                     lake.anchorPage := if full then 1 else s.lake.anchorPage + 1 }
  let w := s.lake.wseq
  let page := pageImage s.lake.geom.spare ((List.range 4).map fun c =>
    ({ space := 1, wseq := w + c, dseq := w + c, data := s1.anchor } : CTag))
  let one := fun (s : State) (c : Nat) =>
    match (s.lake.anchorBlocks c)[s.lake.anchorBlk]? with
    | none => s
    | some k =>
      let s2 := if full then nandErase k true s else s
      nandProgram k (s.lake.anchorPage - 1) true page s2
  if s.lake.inited then (List.range 8).foldl one s1 else s1

/-- A map checkpoint: tables and maps are written, then the anchor (R229). -/
def mapCheckpoint (s : State) : State :=
  let s1 := flushMj s
  count (kLks 21) (anchorUpdate { s1 with lake.lastCkpt := s.nowNs, lake.ckptMj := s1.lake.mjseq, lake.ckptTime := s.nowS })

/-! ## Landing (R224) -/

/-- A landing copy of a chunk is programmed on two LUNs of different channels: two tags with LANDED, AUX the offset of the bytes it adds. The
spec does not say which LUNs or pages the ring takes next (log 129). -/
def landOne (space laddr aux : Nat) (data : List Byte) (s : State) : State :=
  let w := s.lake.wseq
  let t := fun (i : Nat) => ({ space := 128 + space, aux := aux, wseq := w + i, dseq := w + i, laddr := laddr, data := data } : CTag)
  let l := s.lake.landing ++ [t 0, t 1]
  count (kLks 1) (noteProgram false (noteProgram false { s with
    lake.wseq := w + 2, lake.landing := l, lake.landFull := decide (s.lake.landGiB * 262144 ≤ l.length) }))

/-- The oldest landing copies whose targets' native pages are programmed are erased; LAND_WM moves up to the oldest kept (R224). A target's page is
programmed when its chunk holds a later WSEQ than the copy. -/
def eraseLanding (s : State) : State :=
  let done := fun (t : CTag) =>
    match (s.lake.maps.find (mapKey (t.space % 128) t.laddr)).bind fun a => s.lake.chunks.find a with
    | some c => decide (t.wseq < c.wseq)
    | none => false
  let l := s.lake.landing.dropWhile done
  if l.length = s.lake.landing.length then s
  else
    let wm := match l.head? with | some t => t.wseq | none => s.lake.wseq
    let rows := s.lake.openStripe.map fun e => (e.2, let x := s.lake.stripes.get noStripe e.2; x.wpos / max x.data.length 1)
    mjAdd (.landmark wm rows) { s with
      lake.landing := l, lake.landFull := s.lake.landFull && decide (s.lake.landGiB * 262144 ≤ l.length) }

/-- The oldest journal record not yet landed. -/
def State.journalDue (s : State) : Option JRec := s.ldg.jq.find? fun r => !r.landed

/-- LCA of the ring chunk that a journal record begins in (R222). -/
def Lake.journalLca (l : Lake) (r : JRec) : Nat := l.journalBase + r.pos / 4096 % 262144

/-- The oldest event record not yet landed. -/
def Recorder.due (r : Recorder) : Option EvRec := r.ring.find? fun e => !e.landed

/-- Event records of the chunk of `e` have landed; a clear whose record is among them ends (R446). -/
def landEvents (e : EvRec) (s : State) : State :=
  clearDone { s with evr.ring := s.evr.ring.map fun x => if x.pos / 4096 = e.pos / 4096 then { x with landed := true } else x }

/-- The oldest buffered chunk of the log is landed. -/
def landLogChunk (s : State) : State :=
  match (s.lake.log.filter fun r => !r.landed).getLast? with
  | none => s
  | some r =>
    landOne 5 (r.lsn * 64 + r.off / 4096) (r.off % 4096) (s.lake.logChunk r.lsn (r.off / 4096))
      (landLog (fun q => q.lsn == r.lsn && q.off / 4096 == r.off / 4096) s)

/-- The oldest journal record's chunk is landed with that record. -/
def landJournalChunk (s : State) : State :=
  match s.journalDue with
  | none => s
  | some r =>
    if s.lake.protect then s
    else let la := s.lake.journalLca r; landOne 4 la (r.pos % 4096) (s.chunkData (mapKey 4 la)) (landJournal s)

/-- The oldest event record's chunk is landed. -/
def landEventChunk (s : State) : State :=
  match s.evr.due with
  | none => s
  | some e =>
    let seg := e.pos / 262144 % 256
    let c := e.pos % 262144 / 4096
    landOne 6 (seg * 64 + c) (e.pos % 4096) (s.evr.chunk seg c) (landEvents e s)

/-- The oldest volume write's chunks are landed. -/
def landVolume (s : State) : State :=
  match s.lake.volPend with
  | [] => s
  | w :: _ => w.chunks.foldl (fun s c => landOne 7 c.1 0 c.2 s) (commitVolume w s)

/-- Frames of the bring-up buffer whose records have no landing copy yet get one each, at LADDR all ones (R408). -/
def landBring (s : State) : State :=
  let b := s.ing.staging.filter (·.held)
  let new := b.filter fun x => !s.lake.bring.contains x
  let frame := fun (x : Staged) => ({ lsn := 0, off := 0, rtype := 1, src := x.src, mh := x.mh, flags := 32768, dtime := x.decided / 1000,
                                       body := le 4 x.fcnt.toNat ++ [x.kepoch] ++ le 1 x.ftype ++ le 1 x.payload.length ++ zeroBytes 7 ++ x.payload } : LogRec)
  new.foldl (fun s x => landOne 5 (2 ^ 64 - 1) 0 (frame x).bytes s) { s with lake.bring := b }

/-- Everything buffered lands, the map journal is flushed and the anchor updated (R236, drains). -/
def flushLake (s : State) : State :=
  let s1 := iter s.ldg.jq.length landJournalChunk s
  let s2 := iter s1.lake.log.length landLogChunk s1
  let s3 := iter s2.evr.ring.length landEventChunk s2
  let s4 := iter s3.lake.volPend.length landVolume s3
  anchorUpdate (flushMj (landBring s4))

end Sys2Proof.Machine
end

