-- ==== Sys2Proof/Machine/Balance.lean ====
section
/-! DEFINITION. The Balance Engine: node definitions, booking into windows, closes, verdicts, alarms, stack reduction (R191 to R206). -/

namespace Sys2Proof.Machine

/-- A 48-bit sum, which wraps (Table 7-1). -/
def s48 (x : Int) : Int := signed 48 (unsigned 48 x)

/-! ## Nodes (R191, R192) -/

/-- The 48 bytes of a node entry (Table 7-1); CUT counts intervals of `bint` minutes. -/
def Node.bytes (x : Node) (bint : Nat) : List Byte :=
  le 2 x.parent ++ le 2 x.cfg ++ le 3 x.chkmh
    ++ le 1 (x.alarm * 64 + flag x.chkcov * 32 + flag x.lateseen * 16 + flag x.moved * 8 + x.run)
    ++ le 2 x.thr ++ le 2 x.allow ++ le 3 x.nmeter ++ le 3 x.ncov ++ le 4 (if bint = 0 then 0 else x.c / (60 * bint))
    ++ le 1 x.wlen ++ le 1 x.tamp ++ le 6 (unsigned 48 x.curIn) ++ le 6 (unsigned 48 x.curOut)
    ++ le 6 (unsigned 48 x.nxtIn) ++ le 6 (unsigned 48 x.nxtOut)

/-- BINT in force, 0 without a configuration. -/
def Bal.bint (b : Bal) : Nat := match b.cfg with | some (x, _, _) => x | none => 0

/-- The topology as last written, changes waiting for a close included. -/
def State.topoNew (s : State) (n : Nat) : Nat × Nat × Nat := (s.node n).written

/-- Depth of a node by a view, a root at 1; 0 marks a chain that does not end within 9 nodes. -/
def depthOf (view : Nat → Nat × Nat × Nat) : Nat → Nat → Nat
  | 0, _ => 0
  | k + 1, n =>
    let (p, _, _) := view n
    if p = 0xFFFF then 1 else let d := depthOf view k p; if d = 0 then 0 else d + 1

/-- Whether BAL_SET refuses bytes 0–11 for node `n` (R192). -/
def topologyBad (n : Nat) (b : List Byte) (s : State) : Bool :=
  let p := field b 0 2
  let c := field b 2 2
  let k := field b 4 3
  let view := fun (m : Nat) => if m = n then (p, c, k) else s.topoNew m
  let keys := s.bal.nodes.keys.filter fun m => m != n && cfgValid (s.topoNew m).2.1
  let kids := keys.filter fun m => (s.topoNew m).1 == n
  n == 0xFFFF || decide (3 < cfgClass c) || decide (10000 < field b 8 2) || bitAt c 7 || bits c 2 0 != 0
    || decide (2 ^ 20 ≤ k) || cfgPersist c == 0
    || (p != 0xFFFF && (p == n || !cfgValid (s.topoNew p).2.1))
    || (!cfgValid c && !kids.isEmpty)
    || (p != 0xFFFF && cfgClass (view p).2.1 != cfgClass c)
    || (kids.any fun m => cfgClass (s.topoNew m).2.1 != cfgClass c)
    || ((n :: keys).any fun m => let d := depthOf view 9 m; d == 0 || decide (8 < d))
    || (cfgChk c && keys.any fun m => cfgChk (s.topoNew m).2.1 && (s.topoNew m).2.2 == k)

/-- The parts of a topology by which a node has changed at a close: PARENT, VALID, CLASS, HASCHK and CHKMH (R202). -/
def topoKey (t : Nat × Nat × Nat) : Nat × Bool × Nat × Bool × Nat :=
  (t.1, cfgValid t.2.1, cfgClass t.2.1, cfgChk t.2.1, if cfgChk t.2.1 then t.2.2 else 0)

/-- Bytes 0–11 written to a node; the topology of the last close is kept until the next (R202). -/
def Node.set (x : Node) (b : List Byte) : Node :=
  let y := { x with parent := field b 0 2, cfg := field b 2 2, chkmh := field b 4 3, thr := field b 8 2, allow := field b 10 2 }
  { y with old := if topoKey x.atClose = topoKey y.written then none else some x.atClose }

/-- BAL_SET (R192, R269). -/
def balSet (b : List Byte) (s : State) : State × Nat × Option Wait :=
  let n := field b 0 2
  let x := slice b 4 12
  if !zeros b 2 2 then (s, stBadArg, none)
  else if topologyBad n x s then (s, stBadTopology, none)
  else
    let (s1, j) := journal 0x05 (.node n x) (updNode n (fun y => y.set x) s)
    (s1, stOk, some (.journal j))

/-- A configuration out of range (Table 7-2). -/
def balConfigBad (bint st cov : Nat) : Bool :=
  decide (bint < 5) || decide (60 < bint) || 1440 % bint != 0 || decide (st < 1) || decide (8 < st) || decide (10000 < cov)

/-- The first multiple of 60·BINT after now. -/
def nextGrid (bint now : Nat) : Nat := alignDown now (60 * bint) + 60 * bint

/-- Nodes restored from Lake take their RESTART window on the grid around SERVICE entry (R204). -/
def startRestored (bint : Nat) (s : State) : State :=
  let e := alignDown s.bal.serviceAt (60 * bint)
  { s with bal.nodes := s.bal.nodes.mapVals fun x =>
      if x.restart ∧ !x.started then { x with p := e, c := e + 60 * bint, wlen := 1, started := true } else x }

/-- A configuration comes into force, and another waits for its grid; the first one gives restored nodes their windows (R193, R204). -/
def putBalance (cfg : Option (Nat × Nat × Nat)) (next : Option (Nat × Nat × Nat × Nat)) (s : State) : State :=
  let s1 := { s with bal.cfg := cfg, bal.next := next }
  match s.bal.cfg, cfg with
  | none, some (bint, _, _) => startRestored bint { s1 with bal.fresh := true }
  | _, _ => s1

/-- The configuration after BAL_CONFIG: S and COVMIN act at once, a new BINT from its grid's first close (R193). -/
def Bal.config (b : Bal) (bint st cov now : Nat) : Option (Nat × Nat × Nat) × Option (Nat × Nat × Nat × Nat) :=
  match b.cfg with
  | none => (some (bint, st, cov), some (bint, st, cov, nextGrid bint now))
  | some (b0, st0, cov0) =>
    if b0 = bint then (some (bint, st, cov), b.next.bind fun n => if n.1 = b0 then some (bint, st, cov, n.2.2.2) else none)
    else (some (b0, st0, cov0), some (bint, st, cov, nextGrid bint now))

/-- The master's configuration goes to every chip of its stack as a broadcast (R193). -/
def castBalance (cuts : List (Nat × Nat × Nat)) (s : State) : State :=
  if s.cas.master ∧ 1 < s.cas.chips then broadcast (.balance s.bal.cfg s.bal.next cuts) s else s

/-- BAL_CONFIG (R193). -/
def balConfig (bint st cov : Nat) (s : State) : State × Nat :=
  if balConfigBad bint st cov || !s.cas.master then (s, stBadArg)
  else
    let (c, n) := s.bal.config bint st cov s.nowS
    (castBalance [] (putBalance c n s), stOk)

/-! ## Engine calls -/

def engBalSet (_t : Nat) (b : List Byte) (s : State) : EngOut :=
  let (s1, st, w) := balSet b s
  { st := s1, status := st, waits := w }

def engBalRead (_t : Nat) (b : List Byte) (s : State) : EngOut :=
  if !zeros b 2 6 then .fail s stBadArg
  else { st := s, status := stOk, out := [(8, (s.node (field b 0 2)).bytes s.bal.bint)] }

def engBalConfig (_t : Nat) (b : List Byte) (s : State) : EngOut :=
  if !zeros b 4 4 then .fail s stBadArg
  else let (s1, st) := balConfig (field b 0 1) (field b 1 1) (field b 2 2) s; { st := s1, status := st }

/-- BAL_SET. -/
def execBalSet (t : Fin 256) (pi : Fin 8) (rt ra : Fin 32) (s : State) : Result := .next (ecall t pi rt ra 0x50 16 engBalSet s)

/-- BAL_READ. -/
def execBalRead (t : Fin 256) (pi : Fin 8) (rt ra : Fin 32) (s : State) : Result := .next (ecall t pi rt ra 0x51 56 engBalRead s)

/-- BAL_CONFIG. -/
def execBalConfig (t : Fin 256) (pi : Fin 8) (rt ra : Fin 32) (s : State) : Result := .next (ecall t pi rt ra 0x52 8 engBalConfig s)

/-! ## Booking (R194, R195) -/

/-- Length in ns of [a, b). -/
def spanLen (a b : Nat) : Nat := b - a

/-- Pieces of a net energy before P, in [P, C) and from C (Table 7-3); instants in ns. -/
def pieces (net : Int) (a m p c : Nat) : List Int :=
  if m ≤ a then (if m < p then [net, 0, 0] else if m < c then [0, net, 0] else [0, 0, net])
  else
    let ls := [spanLen a (min m p), spanLen (max a p) (min m c), spanLen (max a c) m]
    let v := ls.map fun (l : Nat) => net * (l : Int) / ((m - a : Nat) : Int)
    let rem := net - v.foldl (· + ·) 0
    let last := if ls.getD 2 0 ≠ 0 then 2 else if ls.getD 1 0 ≠ 0 then 1 else 0
    setAt v last (v.getD last 0 + rem)

/-- One node of the chain takes a booking over [a, m) ns. -/
def bookNode (net : Int) (a m : Nat) (n : Nat) (isIn : Bool) (s : State) : State :=
  let x := s.node n
  let p := x.p * 1000000000
  let c := x.c * 1000000000
  let v := pieces net a m p c
  let late := if m ≤ a then decide (m < p) else decide (a < min m p)
  let cur := v.getD 0 0 + v.getD 1 0
  let covers := decide (a ≤ c) && decide (c < m)
  let y := { x with
    lateseen := x.lateseen || late
    curIn := if isIn then s48 (x.curIn + cur) else x.curIn
    nxtIn := if isIn then s48 (x.nxtIn + v.getD 2 0) else x.nxtIn
    curOut := if isIn then x.curOut else s48 (x.curOut + cur)
    nxtOut := if isIn then x.nxtOut else s48 (x.nxtOut + v.getD 2 0)
    chkcov := x.chkcov || (isIn && covers)
    ncov := if !isIn && covers then min (x.ncov + 1) 0xFFFFF else x.ncov }
  count (kBal 1) (countIf late (kBal 2) (updNode n (fun _ => y) s))

/-- Net energy of a frame's bookings (R194): each side from its untariffed record, else from the sum of its tariffed ones. -/
def PassFrame.net (f : PassFrame) : Int := (sideEnergy f.untar f.recs 0 : Int) - (sideEnergy f.untar f.recs 1 : Int)

/-- A booking handed on by the Ledger Unit is summed along its chain (R194, R195). -/
def balBook (f : PassFrame) (s : State) : State :=
  let t := s.topo f.node
  if !cfgValid t.2.1 then count (kBal 13) s
  else if cfgClass t.2.1 ≠ f.cls then count (kBal 3) s
  else
    let a := min (f.before * 1000000000) f.decided
    let m := min (f.m * 1000000000) f.decided
    (s.feed f.mh f.node).foldl (fun s e => bookNode f.net a m e.1 e.2 s) (count (kBal 0) s)

/-- TAMP of every node on the meter's chain rises by the frame's tamper events (R195). -/
def tamper (mh node n : Nat) (s : State) : State :=
  ((s.feed mh node).filter fun e => !e.2).foldl (fun s e => updNode e.1 (fun x => { x with tamp := min (x.tamp + n) 255 }) s) s

/-- The balance close that is due now and not yet processed; none in a repeated span (R193, R203). -/
def State.dueClose (s : State) : Option Nat :=
  let now := s.nowS
  if s.inStepSpan then none else
  match s.bal.cfg with
  | none => none
  | some (b, _, _) =>
    let e := match s.bal.next with
      | some (b', _, _, due) =>
        let e' := alignDown now (60 * b')
        if due ≤ e' then e' else if b' = b then 0 else alignDown now (60 * b)
      | none => alignDown now (60 * b)
    if s.bal.lastClose < e then some e else none

/-- A booking touches a shared node. -/
def State.touchesShared (s : State) (f : PassFrame) : Bool := (s.feed f.mh f.node).any fun e => cfgShared (s.node e.1).cfg

/-- A booking waits for a stack's bitmap: it touches a shared node and was decided after the close (R205). -/
def State.heldForBitmap (s : State) (f : PassFrame) : Bool :=
  s.bal.hold && (match s.bal.stackE with | some e => decide (e * 1000000000 < f.decided) | none => false) && s.touchesShared f

/-- A booking waits: it was decided after a close that is not yet processed, or it touches a shared node whose bitmap is awaited (R197, R205). -/
def State.bookingHeld (s : State) (f : PassFrame) : Bool :=
  (match s.dueClose with | some e => decide (e * 1000000000 < f.decided) | none => false) || s.heldForBitmap f

/-- The longest wait of the bookings that meet `held` and go on now enters BAL_HOLD_MAX (R197). -/
def endWaits (held : PassFrame → Bool) (s : State) : State :=
  let wait := (s.pass.filter fun f => f.booked && held f).foldl (fun w f => max w ((s.nowNs - f.decided) / 1000)) 0
  { s with bal.holdMax := BitVec.ofNat 32 (max s.bal.holdMax.toNat (sat32 wait)) }

/-- BALANCE_BOOKING: the oldest frame of a meter that the Ledger Unit has booked is summed and its staging slot freed (R147, R195). -/
def execBalanceBooking (mh : Nat) (s : State) : Result :=
  onCores s (match firstWhere (fun (f : PassFrame) => f.mh == mh) s.pass with
    | some f => if !f.booked || s.bookingHeld f then s else balBook f { s with pass := s.pass.filter fun h => h != f }
    | none => s)

/-! ## Verdicts (R196 to R200) -/

/-- A node's share of its sums. -/
def Node.part (x : Node) : Partial :=
  { in_ := x.curIn, out_ := x.curOut, nmeter := x.nmeter, ncov := x.ncov, chkcov := x.chkcov, lateseen := x.lateseen, moved := x.moved, tamp := x.tamp }

/-- Two shares of a shared node summed: flags ORed, TAMP saturated (R205). -/
def Partial.add (a b : Partial) : Partial :=
  { in_ := s48 (a.in_ + b.in_), out_ := s48 (a.out_ + b.out_), nmeter := min (a.nmeter + b.nmeter) 0xFFFFF, ncov := min (a.ncov + b.ncov) 0xFFFFF
    chkcov := a.chkcov || b.chkcov, lateseen := a.lateseen || b.lateseen, moved := a.moved || b.moved, tamp := min (a.tamp + b.tamp) 255 }

/-- The allowance a of R198. -/
def allowance (x : Node) (t : Partial) : Int := (max t.in_ 0) * (x.thr : Int) / 10000 + (x.allow : Int) * 1000000 * (x.wlen : Int)

/-- RATIO of R198 in 0.01 %, as its 16 bits. -/
def ratioOf (t : Partial) : Nat :=
  if 0 < t.in_ then unsigned 16 (max (-32767) (min 32767 (((t.in_ - t.out_) * 10000).tdiv t.in_))) else 0x8000

/-- The code of a judged window (R198). -/
def codeOf (x : Node) (t : Partial) (covmin : Nat) : Nat :=
  let l := t.in_ - t.out_
  let a := allowance x t
  if !t.chkcov then 4
  else if t.ncov * 10000 < t.nmeter * covmin then 3
  else if a < l then 1
  else if a < -l then 2
  else 0

/-- ALARM, RUN and the direction of RUN after a verdict, and the notice to post (Table 7-6). -/
def alarmStep (x : Node) (code : Nat) : Node × Option Nat :=
  let p := cfgPersist x.cfg
  if x.alarm = 0 then
    if code = 0 then ({ x with run := 0 }, none)
    else
      let r := if x.run ≠ 0 ∧ x.dir = code then x.run + 1 else 1
      if p ≤ r then ({ x with alarm := code, run := 0, dir := code }, some (0x0600 + code)) else ({ x with run := r, dir := code }, none)
  else if code = 0 then
    if p ≤ x.run + 1 then ({ x with alarm := 0, run := 0 }, some 0x0603) else ({ x with run := x.run + 1 }, none)
  else if code = x.alarm then ({ x with run := 0 }, none)
  else ({ x with alarm := code, run := 0 }, some (0x0600 + code))

/-- The balance record of Table 7-5. -/
def balRecord (n code fl : Nat) (x : Node) (t : Partial) : List Byte :=
  let b := le 2 n ++ le 1 code ++ le 1 fl ++ le 2 (ratioOf t) ++ le 1 x.alarm ++ le 1 t.tamp ++ le 8 x.p ++ le 8 x.c
    ++ le 8 (unsigned 64 t.in_) ++ le 8 (unsigned 64 t.out_) ++ le 8 (unsigned 64 (allowance x t)) ++ le 3 t.nmeter ++ le 3 t.ncov ++ zeroBytes 6
  b ++ le 4 (crc32c b)

/-- Writes the verdict of a node, which stood as `x0`, at close `e`: alarm, notice, counters, record and event (R198 to R200). -/
def writeVerdict (n : Nat) (x0 : Node) (e code : Nat) (deadline : Bool) (t : Partial) (s : State) : State :=
  let z := s.node n
  let x := { x0 with alarm := z.alarm, run := z.run, dir := z.dir }
  let fl := flag (0 < t.tamp) * 128 + flag t.lateseen * 64 + flag t.moved * 32 + s.bal.closeFlags
    + flag deadline * 4 + flag (cfgShared x.cfg) * 2 + flag s.bal.missed
  let (y, note) := if code ≤ 2 then alarmStep x code else (x, none)
  let s1 := updNode n (fun w => { w with alarm := y.alarm, run := y.run, dir := y.dir }) s
  let s2 := match note with
    | some c => postNotice c 1 (le 2 n ++ le 1 code ++ le 1 fl ++ le 2 (ratioOf t) ++ zeroBytes 2 ++ le 8 x.c) s1
    | none => s1
  let r := balRecord n code fl y t
  postEvent 3 0 0xFFFF rtagInternal r (logBalance (e * 1000000) r (countIf deadline (kBal 11) (count (kBal (4 + code)) s2)))

/-- The verdict of a node at close `e` on its own sums: written now, or on a stack's master once the totals are in (R199). -/
def verdict (n e code : Nat) (deadline : Bool) (s : State) : State :=
  let x := s.node n
  if s.bal.judging then
    { s with bal.verdicts := s.bal.verdicts ++ [{ n := n, x := x, code := code, deadline := deadline, sums := if cfgShared x.cfg then none else some x.part }] }
  else writeVerdict n x e code deadline x.part s

/-- The window after a judgement at `e` (R196). -/
def Node.advance (x : Node) (e st : Nat) : Node :=
  { x with
    curIn := x.nxtIn, curOut := x.nxtOut, nxtIn := 0, nxtOut := 0, p := x.c, c := e, wlen := min ((e - x.c) / st) 255
    ncov := 0, chkcov := false, tamp := 0, lateseen := false, moved := false, restart := false }

/-- A window that starts at `e` (R202). -/
def Node.openWin (x : Node) (e st : Nat) : Node :=
  { x with
    curIn := 0, curOut := 0, nxtIn := 0, nxtOut := 0, p := e, c := e + st, wlen := 1, started := true
    ncov := 0, chkcov := false, tamp := 0, lateseen := false, moved := false, restart := false }

/-- Whether a node is judged at `e` on the totals `t`, and whether at its deadline (R196). -/
def judgedAt (x : Node) (t : Partial) (e st settle covmin : Nat) : Option Bool :=
  if x.c + st ≤ e ∧ t.chkcov ∧ t.nmeter * covmin ≤ t.ncov * 10000 then some false
  else if x.c + settle * st ≤ e then some true
  else none

/-- The code and DEADLINE of node `n` when it is judged at `e` on the totals `t` (R196, R198, R204). -/
def State.judgement (s : State) (n e : Nat) (t : Partial) : Option (Nat × Bool) :=
  match s.bal.cfg with
  | none => none
  | some (b, set, cov) =>
    let x := s.node n
    if !x.started then none
    else (judgedAt x t e (60 * b) set cov).map fun dl => (if x.restart then 6 else codeOf x t cov, dl)

/-- The window of node `n` advances at `e` (R196). -/
def advanceNode (n e : Nat) (s : State) : State := updNode n (fun y => y.advance e (60 * s.bal.bint)) s

/-- Judges a node of this chip alone at `e`. -/
def judgeOwn (n e : Nat) (s : State) : State :=
  match s.judgement n e (s.node n).part with
  | some (code, dl) => advanceNode n e (verdict n e code dl s)
  | none => s

/-! ## The close (R196, R202, R193) -/

/-- CUT and WLEN of the shared nodes, which a chip that joins the stack takes over (R206). -/
def State.sharedCuts (s : State) : List (Nat × Nat × Nat) :=
  (s.bal.nodes.filter fun e => e.2.started && cfgShared e.2.cfg).map fun e => (e.1, e.2.c, e.2.wlen)

/-- The master's configuration and, with them, the cuts of shared nodes reach a chip of the stack (R193, R206). -/
def takeBalance (cfg : Option (Nat × Nat × Nat)) (next : Option (Nat × Nat × Nat × Nat)) (cuts : List (Nat × Nat × Nat)) (s : State) : State :=
  let s1 := putBalance cfg next s
  let st := 60 * s1.bal.bint
  cuts.foldl (fun s a => updNode a.1 (fun x =>
    if cfgValid x.cfg ∧ cfgShared x.cfg then { x with p := a.2.1 - a.2.2 * st, c := a.2.1, wlen := a.2.2, started := true } else x) s) s1

/-- Checked in the topology in force. -/
def State.checked (s : State) (n : Nat) : Bool := let c := (s.topo n).2.1; cfgValid c && cfgChk c

/-- A node whose VALID was cleared loses its computed fields; one that changed takes its new topology. -/
def Node.settle (x : Node) : Node :=
  if cfgValid x.cfg then { x with old := none }
  else { parent := x.parent, cfg := x.cfg, chkmh := x.chkmh, thr := x.thr, allow := x.allow }

/-- The topology waiting takes effect and NMETER is recomputed (R202). -/
def applyTopology (s : State) : State :=
  if s.bal.nodes.any (fun e => e.2.old.isSome) then recountNodes { s with bal.nodes := s.bal.nodes.mapVals Node.settle } else s

/-- Shared nodes that are checked. -/
def State.sharedNodes (s : State) : List Nat := s.bal.nodes.keys.filter fun n => s.checked n && cfgShared (s.node n).cfg

/-- Every partial from below is in: each DOWN port has sent one flit per shared node. -/
def State.partialsIn (s : State) : Bool :=
  s.downPorts.all fun p => decide (s.sharedNodes.length ≤ (s.bal.portsIn.filter (· == p)).length)

/-- A chip below the master sends its totals up once they are complete (R205). -/
def sendPartials (s : State) : State :=
  if s.cas.master ∨ !s.partialsIn then s
  else match s.upPort with
  | none => s
  | some p => s.sharedNodes.foldl (fun s n => sendOn p 0xFE (.part n (s.bal.partials.get {} n)) s) s

/-- A node whose check meter is taken away while it stays VALID: a pass-through without a window; its alarm stays as it was. -/
def Node.unchecked (x : Node) : Node :=
  { x with
    curIn := 0, curOut := 0, nxtIn := 0, nxtOut := 0, started := false, restart := false
    ncov := 0, chkcov := false, tamp := 0, lateseen := false, moved := false }

/-- What one node does at close `e`, `s0` being the state before its changes took effect: a window ends with RECONF or starts
(R202), or the node is judged (R196). `grid`: the first close of a new grid; `pend`: some node's topology changed; `mine`: this chip
writes verdicts of shared nodes. -/
def closeNode (s0 : State) (e : Nat) (grid pend stack mine : Bool) (s : State) (n : Nat) : State :=
  let x := s.node n
  let st := 60 * s.bal.bint
  let was := (s0.node n).atClose
  let wasChecked := cfgValid was.2.1 && cfgChk was.2.1
  let altered := pend && (topoKey was != topoKey x.written || s0.feedersIn Node.atClose n != s.feeders n)
  let shared := cfgShared x.cfg && stack
  let reconf := fun (s : State) => if shared && !mine then s else verdict n e 5 false s
  if !cfgValid x.cfg then s
  else if !s.checked n then (if wasChecked && x.started then updNode n Node.unchecked (reconf s) else s)
  else if !wasChecked || !x.started then updNode n (fun y => y.openWin e st) s
  else if altered || (grid && !(s0.bal.fresh && x.restart)) then updNode n (fun y => y.openWin e st) (reconf s)
  else if shared then s
  else judgeOwn n e s

/-- Early partials of children join the totals (R205). -/
def addEarly (s : State) : State :=
  s.bal.early.foldl (fun s a => { s with
    bal.partials := s.bal.partials.ins a.2.1 ((s.bal.partials.get {} a.2.1).add a.2.2), bal.portsIn := s.bal.portsIn ++ [a.1] })
    { s with bal.early := [] }

/-- BALANCE_CLOSE: the close due is processed once every reading decided at or before it is summed (R196, R202, R205). -/
def execBalanceClose (s : State) : Result :=
  onCores s (match s.dueClose with
    | none => s
    | some e =>
      let owed := s.ing.staging.any (fun f => decide (f.decided ≤ e * 1000000000)) ||
        s.pass.any (fun f => decide (f.decided ≤ e * 1000000000))
      if owed then s
      else
        let grid := match s.bal.next with | some (_, _, _, due) => decide (due ≤ e) | none => false
        let s0 := count (kTmu 6)
          (if grid then { s with bal.cfg := s.bal.next.map (fun n => (n.1, n.2.1, n.2.2.1)), bal.next := none } else s)
        let pend := s0.bal.nodes.any fun x => x.2.old.isSome
        let stack := decide (1 < s0.cas.chips)
        let mine := s0.cas.master || s0.cas.detached
        let s1 := applyTopology { s0 with
          bal.lastClose := e, bal.missed := false, bal.verdicts := []
          bal.closeFlags := flag (!s.tmu.valid) * 16 + flag s.inStepSpan * 8
          bal.fresh := s0.bal.fresh && !grid }
        let shared := s1.sharedNodes
        let own := shared.map fun n => (n, (s1.node n).part)
        let open_ := stack && !shared.isEmpty && s.bal.bitmapFor != e
        let s2 := s1.bal.nodes.keys.foldl (closeNode s0 e grid pend stack mine) { s1 with bal.judging := open_ && s1.cas.master }
        let late := fun (f : PassFrame) => decide (e * 1000000000 < f.decided)
        if open_ then
          sendPartials (endWaits (fun f => late f && !s2.touchesShared f) (addEarly { s2 with
            bal.stackE := some e, bal.hold := true, bal.portsIn := [], bal.partials := own }))
        else endWaits late { s2 with bal.early := [] })

/-- BALANCE_NODE_SAVE: the node table is copied to Lake after a close (R204). -/
def execBalanceNodeSave (s : State) : Result :=
  onCores s (if s.lake.ready && !s.bal.hold then { s with lake.nodeCopy := s.bal.nodes, lake.nodeJseq := s.ldg.jseq } else s)

/-! ## Stacks (R205, R206, R377) -/

/-- BALANCE_PARTIAL_RECEIVE: a child's partial of a shared node is summed, and kept while this chip still has the close to process;
complete totals go up (R205). -/
def execBalancePartialReceive (port node : Nat) (in_ out_ : Int) (nmeter ncov flags tamp : Nat) (s : State) : Result :=
  onCores s (
    let t : Partial := { in_ := s48 in_, out_ := s48 out_, nmeter := nmeter, ncov := ncov, chkcov := bitAt flags 2,
                         lateseen := bitAt flags 1, moved := bitAt flags 0, tamp := tamp }
    if !s.downPorts.contains port then s
    else if s.bal.stackE.isNone then
      if s.dueClose.isSome then { s with bal.early := s.bal.early ++ [(port, node, t)] } else s
    else if !s.sharedNodes.contains node then s
    else
      sendPartials { s with
        bal.partials := s.bal.partials.ins node ((s.bal.partials.get {} node).add t)
        bal.portsIn := s.bal.portsIn ++ [port] })

/-- The judge bitmap of a list of nodes, 8 KiB. -/
def bitmapOf (l : List Nat) : List Byte :=
  (List.range 8192).map fun i => Byte.of (l.foldl (fun v n => if n / 8 = i then v + 2 ^ (n % 8) else v) 0)

/-- The bookings held for the bitmap go on. -/
def releaseHold (s : State) : State :=
  let s1 := endWaits s.heldForBitmap s
  { s1 with bal.hold := false, bal.stackE := none, bal.partials := [], bal.portsIn := [] }

/-- Writes the verdict kept for a node, on the stack's total where it has no sums of its own (R199). -/
def writeKept (e : Nat) (s : State) (v : Verdict) : State :=
  writeVerdict v.n v.x e v.code v.deadline (v.sums.getD (s.bal.partials.get {} v.n)) s

/-- The master judges the totals at hand, writes every verdict of the close in ascending node order, and broadcasts the bitmap of the
shared nodes judged (R199, R205). A shared node whose window ended with RECONF at this close is not judged. -/
def stackJudge (e : Nat) (s : State) : State :=
  let fresh := s.sharedNodes.filter fun n => !s.bal.verdicts.any fun v => v.n == n
  let judged := fresh.filterMap fun n => (s.judgement n e (s.bal.partials.get {} n)).map fun j =>
    ({ n := n, x := s.node n, code := j.1, deadline := j.2, sums := none } : Verdict)
  let all := s.bal.nodes.keys.filterMap fun n => firstWhere (fun (v : Verdict) => v.n == n) (s.bal.verdicts ++ judged)
  let s1 := all.foldl (writeKept e) s
  let s2 := judged.foldl (fun s v => advanceNode v.n e s) s1
  let s3 := broadcast (.bitmap (bitmapOf (judged.map (·.n)))) s2
  releaseHold { s3 with bal.missed := false, bal.judging := false, bal.verdicts := [] }

/-- BALANCE_STACK_JUDGE: every partial is at the master (R205). -/
def execBalanceStackJudge (s : State) : Result :=
  onCores s (match s.bal.stackE with
    | some e => if s.cas.master && s.partialsIn then stackJudge e s else s
    | none => s)

/-- BALANCE_PARTIAL_TIMEOUT: partials missing 5 ms after the close are left out and the verdicts carry PARTMISS (R206). -/
def execBalancePartialTimeout (s : State) : Result :=
  onCores s (match s.bal.stackE with
    | some e =>
      if s.cas.master && !s.partialsIn && decide (e * 1000000000 + 5000000 ≤ s.nowNs) then
        let late := s.downPorts.filter fun p => decide ((s.bal.portsIn.filter (· == p)).length < s.sharedNodes.length)
        stackJudge e (countN (kBal 12) late.length { s with bal.missed := true })
      else s
    | none => s)

/-- BALANCE_BITMAP_APPLY: the nodes whose bit is set advance their windows, and held bookings go on (R205). A bitmap that comes
before this chip has processed the close, or after it has given up waiting, advances them too (R206). -/
def execBalanceBitmapApply (bitmap : List Byte) (s : State) : Result :=
  onCores s (
    if s.cas.master then s
    else
      let e := s.bal.stackE.getD (s.dueClose.getD s.bal.lastClose)
      let set := s.sharedNodes.filter fun n => (s.node n).started && bitAt ((bitmap.getD (n / 8) 0).toNat) (n % 8)
      let s1 := set.foldl (fun s n => advanceNode n e s) s
      releaseHold (sendDown (.bitmap (fit 8192 bitmap)) { s1 with bal.bitmapFor := e }))

/-- DETACHED_BOOKING_RELEASE: a detached chip releases held bookings 5 ms after the close (R377). -/
def execDetachedBookingRelease (s : State) : Result :=
  onCores s (match s.bal.stackE with
    | some e => if s.cas.detached && decide (e * 1000000000 + 5000000 ≤ s.nowNs) then releaseHold (count (kCas 19) s) else s
    | none => s)

/-! ## Restore (R204) -/

/-- The node table after a restore: the copy, later BAL_SET records, kept alarms, NMETER recomputed. Windows start at once where a configuration is
in force, and otherwise with the first one. -/
def restoreNodes (s : State) : State :=
  let keep := fun (x : Node) => { ({} : Node) with
    parent := x.parent, cfg := x.cfg, chkmh := x.chkmh, thr := x.thr, allow := x.allow, alarm := x.alarm, run := x.run, moved := x.moved
    dir := x.dir, restart := cfgValid x.cfg && cfgChk x.cfg }
  let later := (s.ldg.dur.nodeLog.filter fun r => decide (s.lake.nodeJseq ≤ r.1)).reverse
  let put := fun (m : Map Node) (r : Nat × Nat × List Byte) =>
    let y := (m.get {} r.2.1).set r.2.2
    let z := { y with old := none }
    m.put {} r.2.1 { z with restart := cfgValid z.cfg && cfgChk z.cfg }
  let s1 := recountNodes { s with bal.nodes := later.foldl put (s.lake.nodeCopy.mapVals keep), bal.serviceAt := s.nowS }
  match s1.bal.cfg with
  | some (bint, _, _) => startRestored bint s1
  | none => s1

end Sys2Proof.Machine
end

