-- ==== Sys2Proof/Machine/Ingest.lean ====
section
/-! DEFINITION. The ingest pipeline: header checks, keys, tag, replay test, answers, withholding (R36 to R45, R140 to R150). -/

namespace Sys2Proof.Machine

/-! ## Frames (Tables 2-3, 2-4, 2-6) -/

/-- Header fields of a frame whose 16 header bytes lead. -/
def fctl (f : List Byte) : Nat := field f 0 2
def frType (f : List Byte) : Nat := bits (fctl f) 3 0
def frVer (f : List Byte) : Nat := bits (fctl f) 5 4
def frRrate (f : List Byte) : Nat := bits (fctl f) 7 6
def frAckreq (f : List Byte) : Bool := bitAt (fctl f) 8
def frUnsync (f : List Byte) : Bool := bitAt (fctl f) 10
def frMa (f : List Byte) : BitVec 64 := BitVec.ofNat 64 (field f 2 8)
def frFcnt (f : List Byte) : Nat := field f 10 4
def frKepoch (f : List Byte) : Nat := field f 14 1
def frPlen (f : List Byte) : Nat := field f 15 1

/-- The CCM nonce (Table 2-6). -/
def nonce (ma : BitVec 64) (fcnt kepoch dir : Nat) : List Byte := le 8 ma.toNat ++ le 4 fcnt ++ le 1 (kepoch % 32 * 8 + dir)

/-- A downlink frame: header, ciphertext, tag, CRC (R36, R39). -/
def sealFrame (key : List Byte) (fc : Nat) (ma : BitVec 64) (fcnt kepoch dir : Nat) (pt : List Byte) : List Byte :=
  let hdr := le 2 fc ++ le 8 ma.toNat ++ le 4 fcnt ++ le 1 kepoch ++ le 1 pt.length
  let n := nonce ma fcnt kepoch dir
  let b := hdr ++ ccmCrypt key n pt ++ ccmTag key n hdr pt
  b ++ le 2 (crc16 b)

/-- The plaintext of an uplink whose tag verifies (R39). -/
def openFrame (key f : List Byte) : Option (List Byte) :=
  let hdr := f.take 16
  let n := nonce (frMa f) (frFcnt f) (frKepoch f) 0
  let pt := ccmCrypt key n (slice f 16 (frPlen f))
  if ccmTag key n hdr pt = slice f (16 + frPlen f) 8 then some pt else none

/-- The CRC-16 of a radio frame (R38). -/
def radioCrcOk (f : List Byte) : Bool :=
  let n := 24 + frPlen f
  f.length == n + 2 && field f n 2 == crc16 (f.take n)

/-! ## Sources and ports -/

/-- Source port 0–3 radio, 4–7 line, for ING_BACKOFF (R272). -/
def srcPort (src : Nat) : Nat := if src < 256 then src / 64 else src - 252


/-- SFCODE and SOFS that a sync ack carries for its source port. -/
def State.sfOf (s : State) (src : Nat) : Nat × Nat :=
  if src < 256 then
    let d := (s.rla.ports.get {} (src / 64)).desc
    (d.sfcode, d.sofs)
  else
    let d := (s.lm.ports.get {} (src - 256)).desc
    (d.sfcode, d.sofs)

/-! ## Keys at the pipeline (R141, R314, R148) -/

/-- The key slot of epoch `k`, and whether it is the pending epoch (R141). -/
def epochSlot (e : DirEntry) (k : Nat) : Option (Nat × Bool) :=
  if k = e.kepoch.toNat then some (e.dkslot.toNat, false)
  else if e.pvalid ∧ k = (if e.pdkslot = e.dkslot then e.kepoch.toNat + 1 else 0) then some (e.pdkslot.toNat, true)
  else none

/-- The pending epoch of an entry (R141). -/
def DirEntry.pendEpoch (e : DirEntry) : Nat := if e.pdkslot = e.dkslot then e.kepoch.toNat + 1 else 0

/-- What a frame's header fields latch: the MH, the key slot of its epoch, the outcome its key fails with or 0. -/
structure Latch where
  mh : Option Nat := none
  slot : Option Nat := none
  kerr : Nat := 0

/-- Lookup at MA complete and key choice at KEPOCH complete (Table 5-7). -/
def State.latch (s : State) (ma : BitVec 64) (k : Nat) : Latch :=
  if groupMa ma then {}
  else match s.lookup ma with
  | none => {}
  | some mh =>
    if s.entryBad mh then { mh := some mh }
    else match epochSlot (s.entry mh) k with
    | none => { mh := some mh }
    | some (sl, _) =>
      { mh := some mh, slot := some sl
        kerr := match (s.keySlot sl).admits k with
          | none => 0
          | some st => if st = stKeyAbsent then 0x1A else 0x1B }

/-! ## Key commands (R316) -/

/-- A command as it goes out: key bytes filled in; `none` when the crypto slot strips it. -/
def fillCommand (e : DirEntry) (cmd : List Byte) (s : State) : Option (List Byte) :=
  match field cmd 0 1 with
  | 0x08 => (s.servedBk (field cmd 1 1)).map fun k => le 1 0x08 ++ le 1 (field cmd 1 1) ++ k
  | 0x05 =>
    let k := e.pendEpoch
    if !e.pvalid ∨ e.pdkslot = e.dkslot then none
    else match (s.keySlot e.pdkslot.toNat).admits k with
    | some _ => none
    | none => some (le 1 0x05 ++ le 1 k ++ meterRoot (s.keySlot e.pdkslot.toNat).key e.ma)
  | _ => some cmd

/-- A key command of the wrong length, or with key bytes not zero (R316). -/
def keyCommandBad (cmd : List Byte) : Bool :=
  (field cmd 0 1 == 0x05 || field cmd 0 1 == 0x08) && (cmd.length != 18 || !zeros cmd 2 16)

/-- The command of an ack slot: absent, filled or stripped; an empty slot is counted (R145). -/
def slotCommand (e : DirEntry) (s : State) : Option (List Byte) × State :=
  match s.ing.cmdSlots.find e.cslot.toNat with
  | none => (some [], count kCmdEmpty s)
  | some c =>
    match fillCommand e c s with
    | some x => (some x, s)
    | none => (none, count (kWkv 15) s)

/-! ## Answers (R43 to R45, R142, R144) -/

/-- An ack of the uplink `f`: rate of RRATE, DIR by kind and DUP (Table 2-7). -/
def ackFrame (key f : List Byte) (sync dup : Bool) (pt : List Byte) : List Byte :=
  let fc := (if sync then 9 else 8) + frRrate f * 64 + flag dup * 512
  sealFrame key fc (frMa f) (frFcnt f) (frKepoch f) (1 + flag dup + 2 * flag sync) pt

/-- The SYNC_ACK payload (Table 2-12): SFCODE and SOFS, TREF in TAI µs, the broadcast key of an epoch. -/
def syncPayload (sf : Nat × Nat) (afl delay tref e : Nat) (bk : List Byte) : List Byte :=
  let (code, ofs) := sf
  le 1 (setBit afl 0) ++ le 1 delay ++ le 8 (tref / 1000000) ++ le 4 (tref % 1000000 * 1000) ++ le 1 code ++ le 1 ofs
    ++ le 1 0x08 ++ le 1 e ++ bk

/-- The ACK payload (Table 2-11). -/
def ackPayload (afl delay : Nat) (cmd : List Byte) : List Byte := le 1 afl ++ le 1 delay ++ cmd

/-- An ack the pipeline decides: rate, DUP, frame, and WAKE of the AFLAGS it carries. -/
structure AckOrder where
  rate : Nat
  dup : Bool
  frame : List Byte
  wake : Bool

/-- The broadcast epoch current at a TAI second (R142). -/
def State.epochAt (s : State) (t : Nat) : Option Nat :=
  (firstWhere (fun (e : Nat × Nat) => decide (e.2 ≤ t)) s.woad.bcast.since).map (·.1)

/-- The answer to an accepted uplink with ACKREQ = 1: ASYNC, AFL, DELAY, CMDPEND after it, and the ack (R144). -/
def answer (key f : List Byte) (src feUs : Nat) (e : DirEntry) (s : State) : (Bool × Nat × Nat × Bool × AckOrder) × State :=
  let delay := if frType f = 0 then (s.ing.backoff.get 0 (srcPort src)).toNat else 0
  let base := (if delay ≠ 0 then 4 else 0) + flag e.wakepend * 2
  let bk := if s.woad.bcast.valid then s.servedBk s.woad.bcast.cur else none
  match (if frUnsync f ∧ s.tmu.valid then bk else none) with
  | some k =>
    let pt := syncPayload (s.sfOf src) base delay feUs s.woad.bcast.cur k
    ((true, base + 1, delay, e.cmdpend, { rate := frRrate f, dup := false, frame := ackFrame key f true false pt, wake := e.wakepend }), s)
  | none =>
    let (cmd, s1) := if e.cmdpend then slotCommand e s else (some [], s)
    let keep := e.cmdpend && cmd.isNone
    let c := cmd.getD []
    let afl := base + flag (!c.isEmpty)
    ((false, afl, delay, keep, { rate := frRrate f, dup := false, frame := ackFrame key f false false (ackPayload afl delay c), wake := e.wakepend }), s1)

/-- The answer to a duplicate of FCNT_HI with ACKREQ = 1: the plaintext sent first, whatever port hears the repeat (log 101); none when the
sync ack's broadcast key is no longer served (R142). -/
def dupAnswer (key f : List Byte) (src feUs mh : Nat) (e : DirEntry) (s : State) : Option AckOrder × State :=
  let order := fun (sync : Bool) (pt : List Byte) =>
    some ({ rate := frRrate f, dup := true, frame := ackFrame key f sync true pt, wake := e.afl.getLsbD 1 } : AckOrder)
  if e.async then
    let tref := feUs - (feUs + 2 ^ 28 - e.ackt.toNat) % 2 ^ 28
    match (s.epochAt (tref / 1000000)).bind fun ep => (s.servedBk ep).map fun k => (ep, k) with
    | none => (none, s)
    | some (ep, k) => (order true (syncPayload (s.ing.syncSf.get (s.sfOf src) mh) e.afl.toNat e.delay.toNat tref ep k), s)
  else if e.afl.getLsbD 0 then
    let (cmd, s1) := slotCommand e s
    let c := cmd.getD []
    let afl := e.afl.toNat / 2 * 2 + flag (!c.isEmpty)
    (order false (ackPayload afl e.delay.toNat c), s1)
  else (order false (ackPayload e.afl.toNat e.delay.toNat []), s)

/-! ## The replay test (R140, R141) -/

/-- Outcome of the replay test: the entry an accept writes and whether the counter becomes FCNT_HI, a duplicate of FCNT_HI, or a code. -/
inductive Replay where
  | accept (e : DirEntry) (hi : Bool)
  | dup
  | reject (code : Nat)

/-- STATE of an entry whose FCNT_HI is `f`. -/
def afterFcnt (f : Nat) : DSt := if f = 0xFFFFFFFF then .exhausted else .active

/-- The replay test of counter `f` under epoch `k`; `pend` is the pending-epoch case, run as for FRESH. -/
def replay (e : DirEntry) (f k : Nat) (pend : Bool) : Replay :=
  let h := e.fcntHi.toNat
  let fresh := { e with fcntHi := BitVec.ofNat 32 f, rbitmap := 1, st := afterFcnt f }
  if pend then .accept { fresh with kepoch := BitVec.ofNat 8 k, dkslot := e.pdkslot, pvalid := false } true
  else if e.st = .fresh then .accept fresh true
  else if e.st = .exhausted then if f = h then .dup else .reject 0x1E
  else if h < f then
    let d := f - h
    .accept { e with fcntHi := BitVec.ofNat 32 f, rbitmap := if 32 ≤ d then 1 else (e.rbitmap <<< d) ||| 1, st := afterFcnt f } true
  else if 31 < h - f then .reject 0x1D
  else if e.rbitmap.getLsbD (h - f) then if f = h then .dup else .reject 0x04
  else .accept { e with rbitmap := e.rbitmap ||| BitVec.ofNat 32 (2 ^ (h - f)) } false

/-! ## Verdicts (R146, Table 5-8) -/

/-- The header outcome, in the order of Table 5-8; 0 when the header is good. On the wire RRATE is ignored (R115). -/
def headerCode (f : List Byte) (lenOk line : Bool) : Nat :=
  if frVer f ≠ 0 then 0x11
  else if frRrate f = 3 ∧ !line then 0x12
  else if 4 < frType f then 0x13
  else if groupMa (frMa f) then 0x14
  else if 96 < frPlen f ∨ !lenOk then 0x15
  else 0

/-- A stranger joins the ring; the newest 1,024 stay, and OVF marks an unread one overwritten (R146). -/
def stranger (ma : BitVec 64) (src : Nat) (s : State) : State :=
  let r : Stranger := { ma := ma, src := src, tai := BitVec.ofNat 32 s.nowS, unread := true }
  match s.ing.strangers with
  | o :: l =>
    if s.ing.strangers.length < 1024 then { s with ing.strangers := s.ing.strangers ++ [r] }
    else { s with ing.strangers := l ++ [r], ing.strangerOvf := s.ing.strangerOvf || o.unread }
  | [] => { s with ing.strangers := [r] }

/-- Free staging slots (R147). -/
def State.stageFree (s : State) : Nat := 16384 - (s.ing.staging.length + s.pass.length)

/-- The row of Table 5-6 for a class after reset. -/
def plReset (cls : Nat) : PlRow :=
  { rolldig := 0, ratemax := match cls with | 0 => 100000000 | 1 => 40000000 | 2 => 25000000 | _ => 360000000000
    back := 3600, backlogBack := 180000, ahead := 120 }

/-- The row in force for CLASS and PROFILE. -/
def State.plRow (s : State) (cls profile : Nat) : PlRow := (s.ing.rows.find (cls * 4 + profile)).getD (plReset cls)

/-- A decision joins staging; decisions of one instant about one meter stand in the order of their sources, this chip's own first, then those of
other chips by chip ID (R28, R379). -/
def stageIn (r : Staged) (l : List Staged) : List Staged :=
  let before := l.takeWhile fun x =>
    !(x.mh == r.mh && x.decided == r.decided && decide (r.chip < x.chip ∨ (r.chip = x.chip ∧ r.src < x.src)))
  before ++ r :: l.drop before.length

/-- Accepted frames wait in the bring-up buffer (R93, R156). -/
def State.buffering (s : State) : Bool := s.ing.restore || s.glb.mode == .bringup

/-- What the pipeline answers about a frame. -/
structure Judged where
  st : State
  code : Nat
  mh : Option Nat := none
  ack : Option AckOrder := none

/-- A duplicate note in the readings log, when a credit exists (R142, Table 8-12). -/
def dupNote (src mh fcnt kepoch code : Nat) (s : State) : State :=
  if !s.lake.ready ∨ s.credits = 0 then s
  else logNote src mh s.nowUs (le 4 fcnt ++ le 1 kepoch ++ le 1 code ++ zeroBytes 2) s

/-- Where a line frame came from: DIRECT and the last repeater's LSA, with the line port (Table 5-2). -/
abbrev LineLink := Bool × Nat × Nat

/-- LINK, MEDIUM and DIRECT of an accepted frame. -/
def withLink (src : Nat) (line : Option LineLink) (e : DirEntry) : DirEntry :=
  match line with
  | none => { e with medium := false, link := BitVec.ofNat 16 (src % 256), direct := false }
  | some (d, port, lsa) => { e with medium := true, direct := d, link := BitVec.ofNat 16 (port * 2 ^ 14 + (if d then 0 else lsa)) }

/-- An accept writes the entry, claims a slot and a credit, and builds the answer; without either it is WITHHELD (R140, R144, R147). -/
def acceptFrame (f pt key : List Byte) (src feNs mh : Nat) (line : Option LineLink) (old new : DirEntry) (hi : Bool) (s : State) : Judged :=
  let feUs := feNs / 1000
  if s.stageFree = 0 ∨ s.credits = 0 then { st := countIf (s.credits == 0) (kLks 17) s, code := 0x03, mh := some mh }
  else
    let (ans, s1) : Option (Bool × Nat × Nat × Bool × AckOrder) × State :=
      if frAckreq f then let (a, s') := answer key f src feUs new s; (some a, s') else (none, s)
    let e1 := withLink src line new
    let e2 := if hi then
        { e1 with
          async := match ans with | some (x, _) => x | none => false
          afl := match ans with | some (_, a, _) => BitVec.ofNat 3 a | none => 0
          delay := match ans with | some (_, _, d, _) => BitVec.ofNat 8 d | none => 0
          ackt := BitVec.ofNat 28 feUs }
      else e1
    let e3 := match ans with | some (_, _, _, keep, _) => { e2 with cmdpend := keep } | none => e2
    let s2 := setEntry mh e3 s1
    let s3 := if e3.st = .exhausted ∧ (old.st ≠ .exhausted ∨ old.kepoch ≠ e3.kepoch) then exhaustedNotice mh e3 s2 else s2
    let r : Staged := {
      mh := mh, src := src, decided := s.nowNs, ftype := frType f, fcnt := BitVec.ofNat 32 (frFcnt f), kepoch := BitVec.ofNat 8 (frKepoch f)
      unsync := frUnsync f, payload := pt, timeInv := !s.tmu.valid, buffered := s.buffering, held := s.ing.restore, ma := frMa f, ent := e3
      row := s.plRow e3.cls.toNat e3.profile.toNat }
    let s4 := { s3 with ing.staging := stageIn r s3.ing.staging
                        ing.syncSf := if hi ∧ e3.async then s3.ing.syncSf.ins mh (s.sfOf src) else s3.ing.syncSf
                        lake.creditsUsed := if s.buffering then s3.lake.creditsUsed else s3.lake.creditsUsed + 1 }
    { st := s4, code := 0x00, mh := some mh, ack := ans.map (·.2.2.2.2) }

/-- A repeat of FCNT_HI whose tag verified (R142). -/
def dupFrame (f key : List Byte) (src feNs mh : Nat) (e : DirEntry) (s : State) : Judged :=
  let feUs := feNs / 1000
  let note := fun (code : Nat) (a : Option AckOrder) (s : State) =>
    ({ st := dupNote src mh (frFcnt f) (frKepoch f) code s, code := code, mh := some mh, ack := a } : Judged)
  if 256000000 ≤ (feUs + 2 ^ 28 - e.ackt.toNat) % 2 ^ 28 then note 0x05 none s
  else if !frAckreq f then note 0x02 none s
  else match dupAnswer key f src feUs mh e s with
    | (some a, s1) => note 0x01 (some a) s1
    | (none, s1) => note 0x05 none s1

/-- The outcome of a frame whose check, lookup and key choice are known (Table 5-7, Table 5-8); `orphaned` is R148's mark. -/
def judgeFrame (f : List Byte) (crcOk lenOk : Bool) (src feNs : Nat) (line : Option LineLink) (l : Latch) (orphaned : Bool) (s : State) : Judged :=
  let reject := fun (c : Nat) (s : State) => ({ st := s, code := c, mh := l.mh } : Judged)
  if 96 < frPlen f ∧ src < 256 then reject 0x15 s
  else if !crcOk then reject 0x10 s
  else if headerCode f lenOk (decide (256 ≤ src)) ≠ 0 then reject (headerCode f lenOk (decide (256 ≤ src))) s
  else if s.hk.isNone then reject 0x1A s
  else match l.mh with
  | none => reject 0x16 (stranger (frMa f) src s)
  | some mh =>
    let s := readEntry mh s
    let e := s.entry mh
    if s.entryBad mh then reject 0x17 s
    else if e.st = .free then reject 0x16 (stranger (frMa f) src s)
    else if e.st = .suspended then reject 0x18 s
    else match epochSlot e (frKepoch f), l.slot with
    | some (sl, pend), some sl0 =>
      if sl ≠ sl0 then reject 0x19 s
      else if l.kerr ≠ 0 then reject l.kerr (count (kWkv (if l.kerr = 0x1A then 1 else 2)) s)
      else if orphaned ∨ (s.keySlot sl).st ≠ .active then reject 0x1B (count (kWkv 2) s)
      else
        let key := frameKey (meterRoot (s.keySlot sl).key e.ma) (frKepoch f)
        match openFrame key f with
        | none => reject 0x1C s
        | some pt =>
          match replay e (frFcnt f) (frKepoch f) pend with
          | .reject c => if c = 0x04 then reject c (dupNote src mh (frFcnt f) (frKepoch f) c s) else reject c s
          | .dup => if s.withholds then reject 0x03 s else dupFrame f key src feNs mh e s
          | .accept e' hi => if s.withholds then reject 0x03 s else acceptFrame f pt key src feNs mh line e e' hi s
    | _, _ => reject 0x19 s

/-- A frame's outcome is counted once per source (R146). -/
def judgeCounted (f : List Byte) (crcOk lenOk : Bool) (src feNs : Nat) (line : Option LineLink) (l : Latch) (orphaned : Bool) (s : State) : Judged :=
  let j := judgeFrame f crcOk lenOk src feNs line l orphaned s
  { j with st := count (kIngCode src j.code) j.st }

/-! ## Plausibility (R151 to R154) -/

/-- The TAI second nearest `d` that is congruent to MTIME modulo 2^32 (R152). -/
def nearTime (mtime d : Nat) : Int := (d : Int) + ((mtime : Int) - (d : Int) + 2 ^ 31) % 2 ^ 32 - 2 ^ 31

/-- The format outcome of an UP_DATA payload for an entry's class: a reason code of Table 5-9 (R152 rule 1). -/
def formatFault (pt : List Byte) (cls : Nat) : Option Nat :=
  if pt.length < 8 then some 1
  else if field pt 4 1 % 16 ≠ cls then some 0
  else if pt.length ≠ 8 + 8 * field pt 6 1 ∨ 11 < field pt 6 1 then some 1
  else none

/-- The reason code of a record, and what passes on (R152 rules 2 to 6). -/
def judgeRec (row : PlRow) (m : Int) (decided : Nat) (unsync backlog : Bool) (lastbook : Nat) (sh : RegShadow) (b : List Byte) : Nat × Option PassRec :=
  let kind := field b 0 1 / 16
  let tar := field b 0 1 % 16
  let v := field b 1 7
  let back := if backlog then row.backlogBack else row.back
  let md := if row.rolldig = 0 then 2 ^ 56 else 10 ^ row.rolldig
  if 2 < kind ∨ (7 < tar ∧ tar < 15) then (6, none)
  else if !unsync ∧ m * 1000000000 + (back : Int) * 1000000000 < (decided : Int) then (4, none)
  else if !unsync ∧ (decided : Int) + (row.ahead : Int) * 1000000000 < m * 1000000000 then (5, none)
  else if kind = 2 then if v ≤ row.ratemax then (7, some { kind := 2, tariff := tar, value := v, delta := 0 }) else (3, none)
  else match sh.last (regIndex kind tar) with
  | none => (7, some { kind := kind, tariff := tar, value := v, delta := 0 })
  | some prev =>
    let d := (((v : Int) - (prev : Int)) % (md : Int)).toNat
    if md ≤ 2 * d then (2, none)
    else if (row.ratemax : Int) * (m - (lastbook : Int)) < ((d * 3600 : Nat) : Int) then (3, none)
    else (7, some { kind := kind, tariff := tar, value := v, delta := d })

/-- READING_SUSPECT, or its counter while the notice queue is more than half full (R153). -/
def suspect (mh fcnt reasons : Nat) (s : State) : State :=
  if s.hp.nq.entries < 2 * s.hp.nq.depth then count kSuspectUnposted s
  else postNotice 0x0403 2 (le 4 mh ++ le 4 fcnt ++ le 1 reasons) s

/-- Reason codes as the six bytes of 4-bit fields of a FRAME record (Table 8-12). -/
def reasonBytes (l : List Nat) : List Byte :=
  (List.range 6).map fun i => Byte.of (l.getD (2 * i) 0 + 16 * l.getD (2 * i + 1) 0)

/-- The FRAME record of a staged frame (Tables 8-11 and 8-12). -/
def frameRecord (x : Staged) (reasons : List Nat) (s : State) : State :=
  let final := (s.meter x.mh).opn.isNone
  let fl := flag x.buffered * 2 ^ 15 + flag x.unsync * 2 ^ 14 + flag final * 2 ^ 13
  logAppend 1 x.src x.mh fl (x.decided / 1000)
    (le 4 x.fcnt.toNat ++ le 1 x.kepoch.toNat ++ le 1 x.ftype ++ le 1 x.payload.length ++ le 1 reasons.length ++ reasonBytes reasons ++ x.payload) s

/-- Tamper events of an UP_EVENT payload: codes 1 to 3 (R195). -/
def tamperEvents (pt : List Byte) : Nat :=
  ((List.range (min (field pt 5 1) ((pt.length - 6) / 4))).filter fun i =>
    let c := field pt (6 + 4 * i) 2
    decide (1 ≤ c ∧ c ≤ 3)).length

/-- Body of a FRAME event: MH, FCNT, KEPOCH, TYPE, PLEN and the payload (Table 9-15; log 43). -/
def frameEvent (x : Staged) : List Byte :=
  (le 4 x.mh ++ le 4 x.fcnt.toNat ++ le 1 x.kepoch.toNat ++ le 1 x.ftype ++ le 1 x.payload.length ++ zeroBytes 5 ++ x.payload).take 112

/-- Values that the part books as unknown or unmatched, each under a counter that no register shows (Tables 2-10, 2-14, 2-16; log 104):
event codes, SRC and STATUS of a response, campaign states. -/
def noteUnknown (x : Staged) (s : State) : State :=
  let pt := x.payload
  match x.ftype with
  | 1 =>
    let codes := (List.range (min (field pt 5 1) ((pt.length - 6) / 4))).map fun i => field pt (6 + 4 * i) 2
    countN kUnkEvent (codes.filter fun c => decide (c = 0 ∨ 8 < c)).length s
  | 3 => countIf (decide (5 < field pt 1 1)) kUnkStatus (countIf (decide (1 < field pt 2 1)) kUnmatched s)
  | 4 => countIf (decide (5 < field pt 2 1)) kUnkCamp s
  | _ => s

/-- The meter as bookings decided before an instant will find it: rolled forward (R176, R180). -/
def State.meterBefore (s : State) (mh decided : Nat) : Meter :=
  rollOver s (pendingBoundaries s.ldg.live.blog s.ldg.stepPending (s.meter mh) (some decided)) (s.meter mh)

/-- An accepted frame leaves for the readings log, the Ledger Unit or the image (R152 to R154). -/
def plausible (x : Staged) (s : State) : State :=
  if x.ftype ≠ 0 then
    let s1 := noteUnknown x (frameRecord x [] s)
    let n := if x.ftype = 1 then tamperEvents x.payload else 0
    let s2 := if n = 0 ∨ x.ent.node = 0xFFFF then s1 else tamper x.mh x.ent.node.toNat n s1
    postEvent 2 0 (Word.of (0xFFFF + x.mh * 2 ^ 16)) rtagInternal (frameEvent x) s2
  else
    let cls := x.ent.cls.toNat
    match formatFault x.payload cls with
    | some c =>
      let n := (x.payload.length - 8) / 8
      frameRecord x [c] (suspect x.mh x.fcnt.toNat (2 ^ c) (countN (kIngPl cls c) n s))
    | none =>
      let d := x.decided / 1000000000
      let m := if x.unsync then (d : Int) else nearTime (field x.payload 0 4) d
      let mt := s.meterBefore x.mh x.decided
      let lb := match mt.opn with | some o => o.lastbook | none => 0
      let rs := (List.range (field x.payload 6 1)).map fun i =>
        judgeRec x.row m x.decided x.unsync (bitAt (field x.payload 5 1) 3) lb mt.sh (slice x.payload (8 + 8 * i) 8)
      let codes := rs.map (·.1)
      let bad := codes.filter fun c => decide (c ≤ 5)
      let s1 := codes.foldl (fun s c => count (kIngPl cls c) s) s
      let s2 := if bad.isEmpty then s1 else suspect x.mh x.fcnt.toNat (bad.foldl (fun v c => setBit v c) 0) s1
      let recs := rs.filterMap (·.2)
      let s3 := frameRecord x codes s2
      if recs.isEmpty then s3
      else
        let rids := (List.range (field x.payload 6 1)).map fun i => field x.payload (8 + 8 * i) 1
        let p : PassFrame := { mh := x.mh, cal := x.ent.cal.toNat, node := x.ent.node.toNat, cls := cls, m := m.toNat,
                               decided := x.decided, unsync := x.unsync, recs := recs, buffered := x.buffered
                               status := field x.payload 5 1, untar := flag (rids.contains 0x0F) + 2 * flag (rids.contains 0x1F) }
        { s3 with pass := s3.pass ++ [p] }

/-- PLAUSIBILITY_CHECK: the oldest staged frame of a meter is judged, once its earlier reading is booked (R28, R152). -/
def execPlausibilityCheck (mh : Nat) (s : State) : Result :=
  onClock s (
    match firstWhere (fun (x : Staged) => x.mh == mh) s.ing.staging with
    | none => s
    | some x =>
      if x.held || !s.lake.ready || s.pass.any (fun p => p.mh == mh && !p.booked) then s
      else settleMaint (plausible x { s with ing.staging := s.ing.staging.filter fun y => y != x }))

/-! ## Restore (R155, R156) -/

/-- A log record replayed through the replay test (R155 step 3). -/
def replayRec (e : DirEntry) (src fcnt k : Nat) : DirEntry :=
  match epochSlot e k with
  | none => e
  | some (_, pend) =>
    match replay e fcnt k pend with
    | .accept e' _ => if src < 256 then withLink src none e' else e'
    | _ => e

/-- The copy of the directory bank that holds an MH. -/
def State.bankOf (s : State) (mh : Nat) : BankCopy := s.lake.banks.get { entries := [], jseq := 0, lsn := 0, off := 0 } (mh / 4 % 64)

/-- The entry of an MH from its bank copy or the latest directory record since, and the log position that goes with it (R155 steps 1 and 2). -/
def State.loadedAt (s : State) (mh : Nat) : DirEntry × Nat × Nat :=
  let b := s.bankOf mh
  match firstWhere (fun (r : DirRec) => r.mh == mh && decide (b.jseq ≤ r.jseq)) s.ldg.dur.dirLog with
  | some r => (r.e, r.lsn, r.off)
  | none => ((match b.entries.find? (fun p => p.1 == mh) with | some p => p.2 | none => {}), b.lsn, b.off)

def State.loaded (s : State) (mh : Nat) : DirEntry := (s.loadedAt mh).1

/-- An entry after the log records of its MH written since that position, in log order (R155 step 3). -/
def State.replayOver (s : State) (mh : Nat) (e : DirEntry) : DirEntry :=
  let (_, lsn, off) := s.loadedAt mh
  let rs := (s.lake.log.filter fun r => r.mh == mh && (r.rtype == 1 || r.rtype == 2) &&
    decide (lsn < r.lsn + 1 ∨ (lsn = r.lsn + 1 ∧ off ≤ r.off))).reverse
  rs.foldl (fun e r => replayRec e r.src (field r.body 0 4) (field r.body 4 1)) e

/-- The restored entry of an MH. -/
def State.restored (s : State) (mh : Nat) : DirEntry := s.replayOver mh (s.loaded mh)

/-- A buffered frame is a duplicate of what the replay marked (R156). -/
def markedBy (e : DirEntry) (x : Staged) : Bool :=
  match epochSlot e x.kepoch.toNat with
  | none => false
  | some (_, pend) =>
    match replay e x.fcnt.toNat x.kepoch.toNat pend with
    | .accept _ _ => false
    | .dup => true
    | .reject c => c == 0x04

/-- The replay of R155 has run: buffered frames are tested again and booked or discarded (R156). -/
def restoreDone (s : State) : State :=
  let keep := s.ing.staging.filter fun x => !x.held || !markedBy (s.restored x.mh) x
  settleMaint { s with ing.dir := s.ing.dir.map fun e => (e.1, s.replayOver e.1 e.2)
                       ing.restore := false, lake.bring := [], ing.staging := keep.map fun x => { x with held := false } }

/-! ## Engine calls (Tables 5-6, 9-23) -/

/-- ING_RULES (R151, R269). -/
def engIngRules (_t : Nat) (b : List Byte) (s : State) : EngOut :=
  let c := field b 0 1
  let p := field b 1 1
  if !zeros b 3 5 || !zeros b 28 4 || decide (3 < c) || decide (3 < p) || decide (17 < field b 2 1) then .fail s stBadArg
  else
    let r : PlRow := { rolldig := field b 2 1, ratemax := field b 8 8, back := field b 16 4, backlogBack := field b 20 4, ahead := field b 24 4 }
    .ok { s with ing.rows := s.ing.rows.ins (c * 4 + p) r }

/-- ING_SLOT_FILL (R145, R316). -/
def engIngSlotFill (t : Nat) (b : List Byte) (s : State) : EngOut :=
  let sl := field b 0 2
  let n := field b 2 1
  if !zeros b 3 5 || decide (4095 < sl) || n == 0 || decide (94 < n) || (s.ing.cmdSlots.find sl).isSome then .fail s stBadArg
  else match s.readBuf t (field b 8 8) n with
  | .error st => .fail s st
  | .ok cmd => if keyCommandBad cmd then .fail s stBadArg else .ok (mirror (.slot sl (some cmd)) none none { s with ing.cmdSlots := s.ing.cmdSlots.ins sl cmd })

/-- ING_SLOT_FREE. -/
def engIngSlotFree (_t : Nat) (b : List Byte) (s : State) : EngOut :=
  if !zeros b 2 6 || decide (4095 < field b 0 2) then .fail s stBadArg
  else if (s.ing.cmdSlots.find (field b 0 2)).isNone then .fail s stNotFound
  else .ok (mirror (.slot (field b 0 2) none) none none { s with ing.cmdSlots := s.ing.cmdSlots.del (field b 0 2) })

/-- ING_STRANGER: the oldest unread record. -/
def engIngStranger (_t : Nat) (_b : List Byte) (s : State) : EngOut :=
  match firstWhere (fun (r : Stranger) => r.unread) s.ing.strangers with
  | none => .fail s stNotFound
  | some r =>
    let mark := fun (acc : List Stranger × Bool) (x : Stranger) =>
      if !acc.2 && x.unread then (acc.1 ++ [{ x with unread := false }], true) else (acc.1 ++ [x], acc.2)
    { st := { s with ing.strangers := (s.ing.strangers.foldl mark ([], false)).1 }, status := stOk
      out := [(0, le 8 r.ma.toNat), (8, le 2 r.src), (10, zeroBytes 2), (12, le 4 r.tai.toNat)] }

/-- ING_BACKOFF (R144). -/
def engIngBackoff (_t : Nat) (b : List Byte) (s : State) : EngOut :=
  if !zeros b 2 6 || decide (7 < field b 0 1) then .fail s stBadArg
  else .ok { s with ing.backoff := s.ing.backoff.put 0 (field b 0 1) (BitVec.ofNat 8 (field b 1 1)) }

/-- ING_RULES. -/
def execIngRules (t : Fin 256) (pi : Fin 8) (rt ra : Fin 32) (s : State) : Result := .next (ecall t pi rt ra 0x10 32 engIngRules s)

/-- ING_SLOT_FILL. -/
def execIngSlotFill (t : Fin 256) (pi : Fin 8) (rt ra : Fin 32) (s : State) : Result := .next (ecall t pi rt ra 0x11 16 engIngSlotFill s)

/-- ING_SLOT_FREE. -/
def execIngSlotFree (t : Fin 256) (pi : Fin 8) (rt ra : Fin 32) (s : State) : Result := .next (ecall t pi rt ra 0x12 8 engIngSlotFree s)

/-- ING_STRANGER. -/
def execIngStranger (t : Fin 256) (pi : Fin 8) (rt ra : Fin 32) (s : State) : Result := .next (ecall t pi rt ra 0x13 16 engIngStranger s)

/-- ING_BACKOFF. -/
def execIngBackoff (t : Fin 256) (pi : Fin 8) (rt ra : Fin 32) (s : State) : Result := .next (ecall t pi rt ra 0x14 8 engIngBackoff s)

/-- STRANGER_OVF_CLEAR: ING_STRANGER.OVF is write-one-to-clear (R157). -/
def execStrangerOvfClear (w : BitVec 32) (s : State) : Result :=
  onClock s (if w.getLsbD 31 then { s with ing.strangerOvf := false } else s)

end Sys2Proof.Machine
end

