-- ==== Sys2Proof/Machine/RadioAir.lean ====
section
/-! DEFINITION. What a radio port puts on the air and on its TX sample link: bit times, ramps, TXEN, TX words, blanking (R35, R71, R74, R81, R82, R84). -/

namespace Sys2Proof.Machine

/-! ## Bits on the air (R33 to R35) -/

/-- Bit count times the bit time of a rate, ns (Table 2-1). -/
def airNs (rate nbits : Nat) : Nat := nbits * 1000000000 / (2400 * 2 ^ rate)

/-- A downlink or ack on the air: preamble, sync word 0x4C71, frame (R35). -/
def dnAir (frame : List Byte) : List Byte := bytesOf [0x55, 0x55, 0x55, 0x55, 0x71, 0x4C] ++ frame

/-- A beacon on the air: preamble of 4 bytes, or 32 in a recovery beacon, and the sync word 0xE52B6C (R35). -/
def beaconAir (recovery : Bool) (frame : List Byte) : List Byte :=
  List.replicate (if recovery then 32 else 4) 0x55#8 ++ bytesOf [0x6C, 0x2B, 0xE5] ++ frame

/-- The TX path delay: 736 µs plus TXLAT (R74). -/
def RDesc.txPath (d : RDesc) : Nat := 736000 + d.txlat

/-- The RX path delay: 672 µs plus RXLAT (R74, R80). -/
def RDesc.rxPath (d : RDesc) : Nat := 672000 + d.rxlat

/-- The ramp before and after a frame, and TXEN beyond it, ns (R81). -/
def rampNs : Nat := 64000
def txenNs : Nat := 20000

/-- A transmission of `bytes` whose first preamble bit is on the air at `at_`. -/
def airOf (lane rate at_ : Nat) (bytes : List Byte) : Air :=
  { lane := lane, rate := rate, bytes := bytes, start := at_ - rampNs, stop := at_ + airNs rate (8 * bytes.length) + rampNs }

/-- What is left of a transmission that is cut at an air instant; TXEN falls there. -/
def Air.cut (t : Nat) (y : Air) : Option Air :=
  if t ≤ y.start then none else some { y with stop := min y.stop (t - txenNs) }

/-- Every transmission of a port is cut at an air instant. -/
def RPort.cut (t : Nat) (x : RPort) : RPort := { x with air := x.air.filterMap (Air.cut (t + x.desc.txlat)) }

/-! ## TX words (R71, R81, R82, R92) -/

/-- The interval of instants at the TX balls in which a transmission holds TXEN at 1. -/
def RDesc.txen (d : RDesc) (y : Air) : Nat × Nat := (y.start - txenNs - d.txlat, y.stop + txenNs - d.txlat)

/-- TXEN in the TX word of an instant at the balls. -/
def RPort.txenAt (x : RPort) (t : Nat) : Bool :=
  x.air.any fun y => decide ((x.desc.txen y).1 ≤ t ∧ t < (x.desc.txen y).2)

/-- A bound on a sample's part. -/
def clamp (a : Nat) (v : Int) : Int := max (-(a : Int)) (min (a : Int) v)

/-- A transmission's share of the sample radiated at an air instant: at most the amplitude floor(32,767 / NTX) in each part (log 106). -/
def Air.sample (amp t : Nat) (y : Air) : Int × Int :=
  if y.start ≤ t ∧ t < y.stop then
    let w := Config.radioWave y.lane y.rate y.bytes y.start (t - y.start)
    (clamp amp w.1, clamp amp w.2)
  else (0, 0)

/-- The complex sample radiated at an air instant: the sum of the frames on the air (R82). -/
def RPort.sample (x : RPort) (t : Nat) : Int × Int :=
  let a := 32767 / x.desc.ntx
  x.air.foldl (fun v y => let w := y.sample a t; (v.1 + w.1, v.2 + w.2)) (0, 0)

/-- A TX word of Table 3-3: TYPE, I, Q, TXEN, and the three parity bits that make their counts of ones even (R71). -/
def txWordOf (type : Nat) (iq : Int × Int) (txen : Bool) : BitVec 50 :=
  let i := (BitVec.ofInt 16 iq.1).toNat
  let q := (BitVec.ofInt 16 iq.2).toNat
  let pi := popN 16 i % 2
  let pq := popN 16 q % 2
  let ph := (popN 2 type + flag txen) % 2
  BitVec.ofNat 50 (type * 2 ^ 48 + i * 2 ^ 32 + q * 2 ^ 16 + flag txen * 2 ^ 15 + pi * 8 + pq * 4 + ph * 2)

/-- An idle word: TYPE 2, I = Q = 0, TXEN = 0. -/
def idleWord : BitVec 50 := txWordOf 2 (0, 0) false

/-- The port is under R14 at an instant at the balls. -/
def RPort.underR14 (x : RPort) (t : Nat) : Bool :=
  x.stopR14 && match x.resumeAt with | some r => decide (t + x.desc.txlat < r) | none => true

/-- The TX word of an instant at the TX balls: zero samples under R14, idle under TXSTOP and while TXEN is 0 (log 106). -/
def RPort.txWord (x : RPort) (clkSrc : Bool) (t : Nat) : BitVec 50 :=
  if clkSrc || x.underR14 t then txWordOf 0 (0, 0) false
  else if x.txstop || !x.txenAt t then idleWord
  else txWordOf 0 (x.sample (t + x.desc.txlat)) true

/-! ## Blanking under HALF (R84) -/

/-- Bits of a frame that end at `fe` of which some RX word falls while TXEN = 1: a word's converter instant is its air instant (log 107). -/
def RPort.blanked (x : RPort) (rate nbits fe : Nat) : Nat :=
  let cover := x.air.map x.desc.txen
  ((List.range nbits).filter fun i =>
    let a := fe - airNs rate (i + 1)
    let b := fe - airNs rate i
    cover.any fun c => decide (c.1 < b ∧ a < c.2)).length

end Sys2Proof.Machine
end

