-- ==== Sys2Proof/Machine/RadioRx.lean ====
section
/-! DEFINITION. Radio reception: sample links, decoding layers, frame end, remote frames (R67 to R80, R91, R92, R379). -/

namespace Sys2Proof.Machine

/-! ## Ports and lanes (R67, R68) -/

/-- Radio port `p`. -/
def State.rport (s : State) (p : Nat) : RPort := s.rla.ports.get {} p

/-- The state with radio port `p` changed by `f`. -/
def updRport (p : Nat) (f : RPort → RPort) (s : State) : State :=
  { s with rla.ports := s.rla.ports.put {} p (f (s.rport p)) }

/-- ROLE of local lane `i`: 0 off, 1 uplink, 2 downlink. -/
def RDesc.laneRole (d : RDesc) (i : Nat) : Nat := bits d.role.toNat (2 * i + 1) (2 * i)

/-- Local lanes with a role, ascending. -/
def RDesc.lanesOf (d : RDesc) (r : Nat) : List Nat := (List.range 64).filter fun i => d.laneRole i == r

/-- Downlink lanes, the DLLANE list (R58). -/
def RDesc.dl (d : RDesc) : List Nat := d.lanesOf 2

/-- ROLE of lane `k` of the chip. -/
def State.laneRole (s : State) (k : Nat) : Nat := (s.rport (k / 64)).desc.laneRole (k % 64)

/-- The ports receive: SERVICE, STANDBY, or BRING-UP (R93, R384). -/
def State.receives (s : State) : Bool := s.coresRun

/-! ## Sample links (R71, R72, R91, R92) -/

/-- Ones among `n` bits of a number are even. -/
def evenOnes (x n : Nat) : Bool := popN n x % 2 == 0

/-- A sample-link word passes its parity bits and its TYPE is not reserved (R71, R72). -/
def wordGood (w : Nat) : Bool :=
  evenOnes (bits w 47 32 * 2 + bits w 3 3) 17 && evenOnes (bits w 31 16 * 2 + bits w 2 2) 17
    && evenOnes (bits w 49 48 * 2 ^ 13 + bits w 15 4 * 2 + bits w 1 1) 15 && bits w 49 48 % 2 == 0

/-- I and Q of an RX word as they enter the channelizer: zero when the word fails, is idle, or is blanked under HALF (R71, R72, R84). -/
def RPort.channel (x : RPort) (w now : Nat) : BitVec 16 × BitVec 16 :=
  if !wordGood w || bits w 49 48 == 2 || (!x.desc.duplex && x.txenAt (now - x.desc.rxlat)) then (0, 0)
  else (BitVec.ofNat 16 (bits w 47 32), BitVec.ofNat 16 (bits w 31 16))

/-- RX_SAMPLE_WORD: one RX word, with its FRM (R72). A word that fails parity or TYPE counts in LINK_PARITY alone, and leaves TXFAULT and the
run of TXF words as they are, since its bits are not known good (log 109). -/
def execRxSampleWord (port : Fin 4) (word : BitVec 50) (frm : Bool) (s : State) : Result :=
  .next (
    let p := port.val
    if !(s.rport p).desc.enable || !s.receives then s
    else
      let w := word.toNat
      let good := wordGood w
      let txf := bitAt w 14
      let s1 := countIf (good && bitAt w 15) (kRlaPort p 1) (countIf (!good) (kRlaPort p 0) s)
      updRport p (fun x =>
        let n := x.wordNo + 1
        let old := x.parityAt.filter fun k => decide (n < k + 1600)
        { x with
          wordNo := n
          goodRun := if good && frm then x.goodRun + 1 else 0
          missFrm := if frm then 0 else x.missFrm + 1
          parityAt := if good then old else old ++ [n]
          txfault := if good then txf else x.txfault
          txfRun := if !good then x.txfRun else if txf then x.txfRun + 1 else 0
          txfClearAt := if !good then x.txfClearAt else if txf then none else some (x.txfClearAt.getD s.nowNs)
          chanIn := x.channel w s.nowNs }) s1)

/-- What of a list of spans lies outside a span. -/
def outside (u : Nat × Nat) (l : List (Nat × Nat)) : List (Nat × Nat) :=
  (l.flatMap fun p => [(p.1, min p.2 u.1), (max p.1 u.2, p.2)]).filter fun p => decide (p.1 < p.2)

/-- BUSY grows by the microseconds of a span in which no uplink counted before was present (R94). A frame counts when it ends, when it is
abandoned, or when its sync is not taken (log 110). -/
def busyCount (lane pre fe : Nat) (s : State) : State :=
  let old := (s.rla.busy.get [] lane).filter fun u => decide (pre ≤ u.2 + 2000000000)
  let fresh := old.foldl (fun l u => outside u l) [(pre, fe)]
  if fe ≤ pre then s
  else countN (kRla lane 12) (fresh.foldl (fun n u => n + (u.2 / 1000 - u.1 / 1000)) 0)
    { s with rla.busy := s.rla.busy.put [] lane ((pre, fe) :: old) }

/-- An uplink on a lane whose sync word ended at `syncAt` has been present from its first preamble bit until now. -/
def busyTillNow (lane rate syncAt : Nat) (s : State) : State :=
  busyCount lane (syncAt - airNs rate 48) (s.nowNs - (s.rport (lane / 64)).desc.rxPath) s

/-- RADIO_LINK_FAIL: RXLINK = 0, the notice, and every held frame of the port abandoned (R91). -/
def radioLinkFail (p : Nat) (s : State) : State :=
  let s1 := (s.rla.layers.filter fun e => e.1 / 256 == p).foldl (fun s e => busyTillNow (e.1 / 4) e.2.rate e.2.syncAt s) s
  postNotice 0x0204 0 (le 1 p)
    (updRport p (fun x => { x with rxlink := false, linkUpAt := s.nowNs, goodRun := 0 })
      { s1 with rla.layers := s.rla.layers.filter fun e => e.1 / 256 != p })

/-- This unit transmits: it is no standby, and a paired unit has found its role (R384, R407). -/
def State.activeUnit (s : State) : Bool := if s.cas.paired then s.cas.pair == 1 || s.cas.pair == 2 else true

/-- The TX word of radio port `p` at the TX balls now; none while the port sends no words. A unit that is not active sends idle words
(R70, R71, R384). -/
def State.radioTxWord (s : State) (p : Nat) : Option (BitVec 50) :=
  let x := s.rport p
  if !x.desc.enable || !x.txlink || s.glb.mode == .off || s.glb.mode == .vigil || s.stest.frozen then none
  else if s.glb.mode == .standby || !s.activeUnit then some idleWord
  else some (x.txWord s.glb.clkSrc s.nowNs)

/-- Reduced service starts on RP0 with its restored descriptor (R406, R407). -/
def reducedStart (s : State) : State :=
  if s.glb.mode = .bringup ∧ !s.glb.reduced ∧ s.lake.rp0.isSome ∧ s.mcc.image.isSome ∧ s.ing.dirload ∧ s.activeUnit ∧ !s.glb.cut then
    setMode .bringup true s
  else s

/-- RX_LINK_UP: 64 consecutive words with correct FRM and parity (Table 3-11). -/
def execRxLinkUp (port : Fin 4) (s : State) : Result :=
  .next (
    let p := port.val
    let x := s.rport p
    if !s.coresRun || !x.desc.enable || x.rxlink || decide (x.goodRun < 64) then s
    else
      let s1 := updRport p (fun x => { x with rxlink := true, linked := true, linkUpAt := s.nowNs, parityAt := [], missFrm := 0 }) s
      if p = 0 then reducedStart s1 else s1)

/-- RADIO_LINK_LOSS: FRM missing in 4 consecutive words, or 64 words of 1,600 failing parity (R91). -/
def execRadioLinkLoss (port : Fin 4) (s : State) : Result :=
  onCores s (
    let x := s.rport port.val
    if x.rxlink && (decide (4 ≤ x.missFrm) || decide (64 ≤ x.parityAt.length)) then radioLinkFail port.val s else s)

/-- RADIO_LINK_TIMEOUT: 10 ms after enable without RXLINK (Table 3-11). -/
def execRadioLinkTimeout (port : Fin 4) (s : State) : Result :=
  onCores s (
    let x := s.rport port.val
    if x.desc.enable && !x.rxlink && decide (x.linkUpAt = x.enabledAt ∧ x.enabledAt + 10000000 ≤ s.nowNs) then radioLinkFail port.val s else s)

/-- RADIO_LINK_REALIGN: alignment is retried 100 ms after the last attempt (R91). -/
def execRadioLinkRealign (port : Fin 4) (s : State) : Result :=
  onCores s (
    let x := s.rport port.val
    if x.desc.enable && !x.rxlink && decide (x.linkUpAt + 100000000 ≤ s.nowNs) then
      updRport port.val (fun x => { x with linkUpAt := s.nowNs, goodRun := 0, missFrm := 0, parityAt := [] }) s
    else s)

/-- RADIO_TX_STOP: 64 consecutive words with TXF = 1: idle words from here on, and the frames under way end (R92). -/
def execRadioTxStop (port : Fin 4) (s : State) : Result :=
  onCores s (
    let x := s.rport port.val
    if x.desc.enable && !x.txstop && decide (64 ≤ x.txfRun) then
      postNotice 0x0205 0 (le 1 port.val) (updRport port.val (fun x => { x.cut s.nowNs with txstop := true }) s)
    else s)

/-- RADIO_TX_RESUME: TXF has read 0 for 10 ms; TXSTOP clears at the next superframe start of the port (R92). -/
def execRadioTxResume (port : Fin 4) (s : State) : Result :=
  onCores s (
    let x := s.rport port.val
    match x.txfClearAt with
    | none => s
    | some c =>
      let ok := decide (c + 10000000 ≤ s.nowNs) &&
        decide (sfNext x.desc.sfcode x.desc.sofs (c + 10000000) * 1000000000 ≤ s.nowNs)
      if x.txstop && ok then updRport port.val (fun x => { x with txstop := false }) s else s)

/-! ## Layers (R76, R78) -/

/-- Held frames of a lane, by layer. -/
def State.held (s : State) (lane : Nat) : List (Nat × Held) :=
  (List.range 4).filterMap fun l => (s.rla.layers.find (lane * 4 + l)).map fun h => (l, h)

/-- A lane receives uplinks: role uplink in force, link up, the mode receives. -/
def State.laneOpen (s : State) (lane : Nat) : Bool :=
  s.receives && (s.rport (lane / 64)).rxlink && s.laneRole lane == 1

/-- SYNC_DETECT: a sync of an uplink enters the lowest free layer, its header's lookup and key choice latched; with none free it is not taken
(R76, R78). With a DEPTH below 4 the DEPTH layers in force are all the layers that the lane has (log 111). -/
def execSyncDetect (lane : Fin 256) (rate : Fin 3) (ma : BitVec 64) (kepoch : Nat) (s : State) : Result :=
  .next (
    let k := lane.val
    if !s.laneOpen k then s
    else
      let d := (s.rport (k / 64)).desc
      match firstWhere (fun l => (s.rla.layers.find (k * 4 + l)).isNone) (List.range d.depth) with
      | none => busyTillNow k rate.val (s.nowNs - d.rxPath) (count (kRla k 4) s)
      | some l =>
        let la := s.latch ma kepoch
        let others := !(s.held k).isEmpty
        let h : Held := { syncAt := s.nowNs - d.rxPath, rate := rate.val, ma := ma, mh := la.mh, slot := la.slot, kerr := la.kerr,
                          kepoch := kepoch, overlapped := others }
        let marked : Map Held := s.rla.layers.map fun e => if e.1 / 4 = k then (e.1, { e.2 with overlapped := true }) else e
        count (kRla k 0) { s with rla.layers := marked.ins (k * 4 + l) h })

/-- LAYER_REPROCESS: a weaker layer runs again out of the history buffer over a stronger frame's span (R76). -/
def execLayerReprocess (lane : Fin 256) (layer : Fin 4) (s : State) : Result :=
  onCores s (
    let key := lane.val * 4 + layer.val
    match s.rla.layers.find key with
    | some h => if (s.held lane.val).length < 2 then s else { s with rla.layers := s.rla.layers.ins key { h with reproc := true } }
    | none => s)

/-! ## Frame end (R80, R23, R379) -/

/-- Inserts an ack in order of its air instant. -/
def insAck (a : Ack) : List Ack → List Ack
  | [] => [a]
  | b :: l => if a.at_ < b.at_ then a :: b :: l else b :: insAck a l

/-- A decided ack joins the lane's TX schedule, or is dropped past its launch point (R32, R43). -/
def placeAck (lane : Nat) (a : Ack) (s : State) : State :=
  if a.at_ < s.nowNs + (s.rport (lane / 64)).desc.txPath then count (kRla lane 7) s
  else { s with rla.acks := s.rla.acks.put [] lane (insAck a (s.rla.acks.get [] lane)) }

/-- The ack of a frame that ended at `fe`. -/
def scheduleAck (lane fe mh : Nat) (o : AckOrder) (s : State) : State :=
  placeAck lane { at_ := fe + 50000000, rate := o.rate, dup := o.dup, frame := o.frame, ma := (s.entry mh).ma, wake := o.wake } s

/-- A frame of another chip's partition is forwarded to its owner, or withheld when the owner cannot be reached (R379). -/
def forwardFrame (src layer fe : Nat) (direct : Bool) (lsa owner : Nat) (f : List Byte) (s : State) : State :=
  match s.portTo owner with
  | none => count (kIngCode src 3) (count (kCas 13) s)
  | some _ =>
    let r : Remote := { mid := s.cas.nextMid, src := src, layer := layer, frameEnd := fe, rate := frRrate f, unsync := frUnsync f, lsa := lsa }
    count (kCas 10) (sendTo owner (.rframe src fe direct lsa f) { s with cas.remotes := s.cas.remotes ++ [r] })

/-- A standby's shadow decision: the outcome is counted, nothing is written; a frame it would answer is kept for a takeover (R384, R390). -/
def shadowJudge (f : List Byte) (src feNs : Nat) (line : Option LineLink) (resp : Option LResp) (l : Latch) (orphaned : Bool) (s : State) : State :=
  let j := judgeFrame f true true src feNs line l orphaned s
  let s1 := count (kIngCode src j.code) s
  let live := s1.cas.shadow.filter fun x => decide (s.nowNs ≤ x.fe + 50000000)
  let x : Shadowed := { src := src, frame := f, fe := feNs, line := line, resp := resp }
  { s1 with cas.shadow := if j.code ≤ 2 then live ++ [x] else live }

/-- The pipeline's judgement of a radio frame, with its ack scheduled. -/
def judgeRadio (lane : Nat) (f : List Byte) (fe : Nat) (crc : Bool) (la : Latch) (orphaned : Bool) (s : State) : State :=
  let owner := s.ownerChip (frMa f)
  if crc ∧ s.cas.pair = 3 then shadowJudge f lane fe none none la orphaned s
  else if crc ∧ headerCode f true false = 0 ∧ s.hk.isSome ∧ owner ≠ s.cas.chipId then
    let s1 := forwardFrame lane 0 fe false 0 owner f s
    countIf (s.portTo owner).isNone (kRla lane 10) s1
  else
    let j := judgeCounted f crc true lane fe none la orphaned s
    let s1 := countIf (j.code == 3) (kRla lane 10) j.st
    match j.ack with
    | some o => scheduleAck lane fe (j.mh.getD 0) o s1
    | none => s1

/-- RADIO_FRAME_RECEIVE: the last symbol of a held frame; `est` is the demodulator's timing estimate of the end of the last CRC bit, at the
demodulator input. The frame end on the air lies the RX path delay and RXLAT before it (R23, R80, R84). -/
def execRadioFrameReceive (lane : Fin 256) (layer : Fin 4) (bytes : List Byte) (est : Nat) (s : State) : Result :=
  onCores s (
    let k := lane.val
    match s.rla.layers.find (k * 4 + layer.val) with
    | none => s
    | some h =>
      let s0 := { s with rla.layers := s.rla.layers.del (k * 4 + layer.val) }
      let x := s.rport (k / 64)
      let fe := est - x.desc.rxPath
      let blanked := !x.desc.duplex && decide (2 < x.blanked h.rate (48 + 8 * bytes.length) fe)
      let s1 := busyCount k (h.syncAt - airNs h.rate 48) fe (countIf blanked (kRla k 11) s0)
      if 96 < frPlen bytes then judgeRadio k bytes fe false {} false s1
      else
        let crc := radioCrcOk bytes && !blanked
        let s2 := countIf (crc && h.overlapped) (kRla k 2) (count (kRla k (if crc then 1 else 3)) s1)
        let la := if frMa bytes = h.ma ∧ frKepoch bytes = h.kepoch then { mh := h.mh, slot := h.slot, kerr := h.kerr : Latch }
                  else s2.latch (frMa bytes) (frKepoch bytes)
        judgeRadio k bytes fe crc la h.orphaned s2)

/-! ## Descriptors (R90, Table 9-18) -/

/-- The descriptor of an RLA_PORT_CFG block. -/
def rdescOf (b : List Byte) : RDesc :=
  { enable := field b 1 1 == 1, depth := field b 2 1, duplex := field b 3 1 == 1, ntx := field b 4 1
    role := BitVec.ofNat 128 (field b 8 16), rxlat := field b 24 4, txlat := field b 28 4, win := field b 32 2
    dutyPort := field b 34 2, dutyGrp := (List.range 8).map fun g => field b (36 + 2 * g) 2
    site := BitVec.ofNat 32 (field b 52 4), sfcode := field b 56 1, sofs := field b 57 1, cslots := field b 58 1
    bflags := field b 59 1, utcofs := BitVec.ofNat 16 (field b 60 2) }

/-- Beacon airtime that duty counts: 95.128 ms a lane (R88), and the TXEN time of one for the port. -/
def beaconLaneNs : Nat := 95128000
def beaconPortNs : Nat := 95168000

/-- Beacons in a window (R89). -/
def RDesc.beaconsInWin (d : RDesc) : Nat := ceilDiv d.win (sfLen d.sfcode)

/-- The beacon reserve of a budget: group 0 to 7, or 8 for the port (R89). -/
def RDesc.reserve (d : RDesc) (g : Nat) : Nat :=
  if g = 8 then d.beaconsInWin * beaconPortNs
  else d.beaconsInWin * beaconLaneNs * (d.dl.filter fun i => i / 8 == g).length

/-- A limit in units of 0.01 % of the window, ns. -/
def RDesc.limitNs (d : RDesc) (units : Nat) : Nat := units * d.win * 100000

/-- The limit of a budget in units of 0.01 %. -/
def RDesc.units (d : RDesc) (g : Nat) : Nat := if g = 8 then d.dutyPort else d.dutyGrp.getD g 0

/-- Every value within its range (Table 3-10). -/
def RDesc.ok (d : RDesc) : Bool :=
  decide (1 ≤ d.depth ∧ d.depth ≤ 4) && decide (d.rxlat ≤ 100000 ∧ d.txlat ≤ 100000)
    && (d.lanesOf 3).isEmpty && (!d.enable || decide (1 ≤ d.dl.length ∧ d.dl.length ≤ 4))
    && decide (1 ≤ d.ntx ∧ d.ntx ≤ 16 ∧ d.dl.length + 1 ≤ d.ntx) && decide (1 ≤ d.win ∧ d.win ≤ 3600)
    && decide (d.sfcode ≤ 4) && decide (d.sofs < sfLen d.sfcode) && decide (d.cslots ≤ 64)
    && (List.range 9).all fun g => decide (1 ≤ d.units g ∧ d.units g ≤ 10000 ∧ d.reserve g ≤ d.limitNs (d.units g))

/-- RLA_PORT_CFG (R90, R268). -/
def engRlaPortCfg (_t : Nat) (b : List Byte) (s : State) : EngOut :=
  let p := field b 0 1
  if 3 < p then .fail s stBadArg
  else if !zeros b 5 3 ∨ !zeros b 62 2 ∨ 1 < field b 1 1 ∨ 1 < field b 3 1 ∨ !(rdescOf b).ok then .fail s stBadDescriptor
  else .ok (updRport p (fun x => { x with next := some (rdescOf b, s.nowNs) }) s)

/-- RLA_PORT_CFG. -/
def execRlaPortCfg (t : Fin 256) (pi : Fin 8) (rt ra : Fin 32) (s : State) : Result := .next (ecall t pi rt ra 0x20 64 engRlaPortCfg s)

/-- The superframe grid on which an accepted descriptor waits: the port's while it is enabled, the new one's before. -/
def RPort.grid (x : RPort) (d : RDesc) : Nat × Nat := if x.desc.enable then (x.desc.sfcode, x.desc.sofs) else (d.sfcode, d.sofs)

/-- A descriptor is put in force: links, duty window, and the port's beacon row (R90, Table 3-11, Table 12-7). A new WIN starts the duty
buckets empty, since their length changes with it (log 112). -/
def putDesc (p : Nat) (d : RDesc) (s : State) : State :=
  let x := s.rport p
  let fresh := d.enable && !x.desc.enable
  let s1 := updRport p (fun x =>
    let y := { x with desc := d, next := none, txlink := d.enable, duty := if d.win = x.desc.win then x.duty else [] }
    if fresh then { y with enabledAt := s.nowNs, linkUpAt := s.nowNs, rxlink := false, linked := false, goodRun := 0, missFrm := 0, parityAt := [], counting := false, bmiss := 0, bloss := false, heldTill := 0 }
    else if d.enable then y
    else { y.cut s.nowNs with rxlink := false, linked := false, counting := false, bmiss := 0, bloss := false, beacon := none, heldTill := 0, txstop := false,
                              txfault := false, txfRun := 0, txfClearAt := none }) s
  let lead := 2000000 + d.txPath
  let t := sfNext d.sfcode d.sofs (s.nowNs + lead + 1)
  let row : Row := { tS := t, perS := sfLen d.sfcode, action := 1, flags := 3, arg := p, t0 := t * 1000000000 }
  putRow p (if d.enable then row else {}) s1

/-- PORT_DESCRIPTOR_APPLY: the first superframe start at least 3 ms after acceptance (R90); RP1 to RP3 wait for SERVICE (R93). -/
def execPortDescriptorApply (port : Fin 4) (s : State) : Result :=
  onCores s (
    let p := port.val
    let x := s.rport p
    match x.next with
    | none => s
    | some (d, at_) =>
      let g := x.grid d
      if s.nowNs < sfNext g.1 g.2 (at_ + 3000000) * 1000000000 ∨ (p ≠ 0 ∧ s.glb.mode = .bringup) then s
      else putDesc p d s)

end Sys2Proof.Machine
end

