-- ==== Sys2Proof/Machine/Campaign.lean ====
section
/-! DEFINITION. Campaign records and the pump (R435 to R438). -/

namespace Sys2Proof.Machine

/-- Bytes of the host volume; trimmed chunks read as zeros. -/
def State.volBytes (s : State) (off n : Nat) : List Byte :=
  (List.range n).map fun i => (s.lake.vol.get [] ((off + i) / 4096)).getD ((off + i) % 4096) 0

/-- COUNT of CAMP_STATE (R436). -/
def Camp.noticeCount (c : Camp) : Nat :=
  match c.st with
  | 1 => c.tally.getD 0 0 | 3 => c.tally.getD 1 0 | 5 => c.tally.getD 2 0
  | _ => 0

/-- CAMPID of record `i` is its key in the table of records. -/
def putCamp (id : Nat) (c : Camp) (s : State) : State :=
  mirror (.camp id (some c)) none none { s with upd.camps := s.upd.camps.ins id c }

/-- A record changes STATE: it is mirrored and CAMP_STATE is posted. -/
def campState (id st : Nat) (c : Camp) (s : State) : State :=
  let c1 := { c with st := st, since := s.nowNs }
  postNotice 0x0E05 1 (le 2 id ++ le 1 st ++ zeroBytes 1 ++ le 4 c1.noticeCount) (putCamp id c1 s)

/-- CAMP_BLOCK (Table 2-20): CAMPID, OFFSET, DATA, CRC-32C. -/
def campBlock (id : Nat) (c : Camp) (s : State) : List Byte :=
  let n := min 85 (c.sendend - c.nextofs)
  let b := le 1 0x40 ++ le 2 id ++ le 4 c.nextofs ++ s.volBytes (c.volofs * 4096 + c.nextofs) n
  b ++ le 4 (crc32c b)

/-- CAMP_ACTIVATE and CAMP_ABORT. -/
def campActivate (id : Nat) (c : Camp) : List Byte := le 1 0x41 ++ le 2 id ++ le 8 c.actT
def campAbort (id : Nat) : List Byte := le 1 0x42 ++ le 2 id

/-- Ports on which a block must go out: those of PORTS in use, radio ports with campaign slots (R437). -/
def State.campPorts (s : State) (c : Camp) : List Nat :=
  (List.range 8).filter fun p => c.ports.getLsbD p &&
    (if p < 4 then (s.rport p).desc.enable && (s.rport p).desc.cslots != 0 else (s.lm.ports.get {} (p - 4)).desc.enable)

/-- The campaign is being aborted on some port: CAMP_ABORT still goes out (R438). -/
def Camp.aborting (c : Camp) : Bool := c.st == 6 && !c.abortLeft.isEmpty

/-- BFLAGS CAMPAIGN of a port (R437). -/
def State.campFlag (s : State) (p : Nat) : Bool :=
  s.upd.camps.any fun e => e.2.ports.getLsbD p && (e.2.st == 2 || e.2.st == 4 || e.2.aborting)

/-- The pump runs in SERVICE (R438). -/
def State.pumps (s : State) : Bool := s.glb.mode == .service

/-- A CAMP_ACTIVATE or CAMP_ABORT is owed on a place (port × 4 + lane) in superframe `sf`, and the group counter is not spent. -/
def Camp.ctlDue (c : Camp) (p place sf : Nat) : Bool :=
  c.ports.getLsbD p && c.gfcnt != 0xFFFFFFFF && c.lastCtl.find place != some sf &&
    (c.st == 4 || (c.st == 6 && decide (0 < c.abortLeft.get 0 place)))

/-- The campaign whose control frame is owed, lowest CAMPID first, of those ordered no later than `by_` (R87). -/
def State.ctlNext (s : State) (p place sf by_ : Nat) : Option (Nat × Camp) :=
  if s.pumps then firstWhere (fun e => e.2.ctlDue p place sf && decide (e.2.since ≤ by_)) s.upd.camps else none

/-- The campaign whose block goes out next on a port, lowest CAMPID first, of those ordered no later than `by_` (R87). -/
def State.blockNext (s : State) (p by_ : Nat) : Option (Nat × Camp) :=
  if s.pumps then
    firstWhere (fun e => e.2.st == 2 && decide (e.2.since ≤ by_) && (s.campPorts e.2).contains p && !e.2.sentOn.contains p && e.2.gfcnt != 0xFFFFFFFF
      && decide (e.2.nextofs < e.2.sendend)) s.upd.camps
  else none

/-- The group counter moves on and sticks (R437). -/
def Camp.counted (c : Camp) : Camp := { c with gfcnt := if c.gfcnt = 0xFFFFFFFF then c.gfcnt else c.gfcnt + 1 }

/-- A control frame went out. -/
def ctlSent (id place sf : Nat) (c : Camp) (s : State) : State :=
  let left := c.abortLeft.get 0 place
  let c1 := { c.counted with
    lastCtl := c.lastCtl.ins place sf
    abortLeft := if c.st = 6 then c.abortLeft.put 0 place (left - 1) else c.abortLeft }
  count (kUpd 11) (putCamp id c1 s)

/-- A block went out on a port; once it has on every port the position advances, and the last pass ends in IDLE (R436, R437). -/
def blockSent (id p : Nat) (c : Camp) (s : State) : State :=
  let c1 := { c.counted with sentOn := p :: c.sentOn }
  let s1 := count (kUpd 10) s
  if (s.campPorts c).all (fun q => c1.sentOn.contains q) then
    let nx := c1.nextofs + min 85 (c1.sendend - c1.nextofs)
    if nx < c1.sendend then putCamp id { c1 with nextofs := nx, sentOn := [] } s1
    else if c1.pass + 1 < c1.rep then putCamp id { c1 with nextofs := c1.start, pass := c1.pass + 1, sentOn := [] } s1
    else campState id 3 { c1 with nextofs := nx, pass := c1.pass + 1, sentOn := [] } s1
  else putCamp id c1 s1

end Sys2Proof.Machine
end

