-- ==== Sys2Proof/Machine/Service.lean ====
section
/-! DEFINITION. Entry to SERVICE from bring-up (Table 15-2, Table 15-6), and what an activation or fall-back posts there (R427, R430). -/

namespace Sys2Proof.Machine

/-- SECVER of the running image. -/
def State.secver (s : State) : Nat := match s.mcc.image with | some i => i.secver.toNat | none => 0

/-- UPD_ACTIVATED or UPD_FALLBACK that was due with the restart (R427, R430). -/
def updateNotices (s : State) : State :=
  let s1 := if s.upd.activatedDue then postNotice 0x0E02 0 (le 1 s.upd.active ++ zeroBytes 3 ++ le 4 s.secver) { s with upd.activatedDue := false } else s
  if s1.upd.fallbackDue then postNotice 0x0E04 0 (le 1 s1.upd.active) { s1 with upd.fallbackDue := false } else s1

/-- BRING-UP ends in SERVICE once Lake is READY, the replays are complete and the unit is active (Table 15-2); a cut fabric
gives no service (R16). -/
def enterService (s : State) : State :=
  if s.glb.mode = .bringup ∧ s.lake.ready ∧ !s.lake.rebuild ∧ !s.ing.restore ∧ s.activeUnit ∧ s.mcc.image.isSome ∧ !s.upd.recovery ∧ !s.glb.cut then
    updateNotices (setMode .service false (restoreNodes s))
  else s

end Sys2Proof.Machine
end

