-- ==== Sys2Proof/Machine/CasLink.lean ====
section
/-! DEFINITION. Cascade links and discovery: receipt of messages, TOPO and ASSIGN, link words for flow, retrain, loss (R367 to R377). -/

namespace Sys2Proof.Machine

/-! ## Ports -/

/-- The cascade links carry traffic: powered, clocks running. -/
def State.casRuns (s : State) : Bool := s.coresRun

/-- PAIR flags as HELLO carries them. -/
def State.pairFlags (s : State) : Nat := flag s.cas.paired + 2 * flag s.cas.primary

/-- The running image's BUILD. -/
def State.build (s : State) : List Byte := match s.mcc.image with | some i => i.build | none => []

/-- This chip's HELLO on port `p` (R374). -/
def State.helloOn (s : State) (p : Nat) : Flit :=
  .hello s.serial s.woad.owner (s.cport p).role s.pairFlags s.cas.pair s.cas.chipId s.build

/-- HELLO goes out on port `p`. -/
def sendHello (p : Nat) (s : State) : State := sendOn p 0xFE (s.helloOn p) s

/-- HELLO goes out on every port that is up, with a changed unit state or chip ID (log 44). -/
def sendHellos (s : State) : State :=
  ((s.cas.ports.filter fun p => p.2.st == 2).map (·.1)).foldl (fun s p => sendHello p s) s

/-- All 32 flit buffers of every class (R371). -/
def fullCredit : Map Nat := [(0, 32), (1, 32), (2, 32), (3, 32)]

/-- A port of a role in training: sequence numbers, queues and credit start anew. -/
def trainPort (role : Nat) : CPort := if role = 0 then {} else { role := role, st := 1, credit := fullCredit }

/-- A port trains and sends its HELLO. -/
def retrain (p : Nat) (s : State) : State :=
  sendHello p (updCport p (fun c => { trainPort c.role with failedAt := s.nowNs }) s)

/-! ## Discovery (R375) -/

/-- Whether every child below has reported, with the size and depth of this chip's subtree. -/
def State.subtree (s : State) : Option (Nat × Nat) :=
  let l := (s.cas.ports.filter fun p => p.2.role == 3 && p.2.st == 2 && !p.2.peerStby).map fun p => p.2.subtree
  if l.all Option.isSome then
    let k := l.filterMap id
    some (1 + (k.map (·.1)).foldl (· + ·) 0, (k.map fun x => x.2 + 1).foldl max 0)
  else none

/-- The default partition map of a stack that first forms (R378). -/
def defaultMap (chips : Nat) : List Nat := (List.range 4096).map fun pb => pb % max chips 1

/-- This chip's place in the stack is known: the children below get theirs, the twin the same, and STACK_CHANGE is posted (R375). -/
def takePlace (id depth chips sdepth : Nat) (s : State) : State :=
  let s1 := { s with
    cas.chipId := id, cas.depth := depth, cas.chips := chips, cas.sdepth := sdepth, cas.detached := false
    cas.partMap := if s.cas.partMap.isNone ∧ 1 < chips then some (defaultMap chips) else s.cas.partMap }
  let down := fun (s : State) (c : Nat × Nat × Nat) =>
    if 4 ≤ depth ∨ 64 ≤ c.2.1 then updCport c.1 (fun x => { x with st := 3 }) s
    else sendOn c.1 c.2.1 (.assign c.2.1 (depth + 1) chips sdepth) (updCport c.1 (fun x => { x with peerId := c.2.1 }) s)
  let s2 := s1.children.foldl down s1
  let s3 := s2.mirrorPorts.foldl (fun s p => sendOn p id (.assign id depth chips sdepth) s) s2
  sendHellos (postNotice 0x0B05 1 (le 1 chips ++ le 1 depth) (castBalance s3.sharedCuts s3))

/-- After a change in link state: once the children have reported, this chip reports to its parent, or as master numbers the
positions. A standby's place is its active unit's. -/
def rediscover (s : State) : State :=
  if s.cas.pair = 3 ∨ s.cas.pair = 4 then s
  else match s.subtree with
  | none => s
  | some (n, d) =>
    if s.cas.master then takePlace 0 0 (min n 64) (min d 4) s
    else match s.upPort with
    | some p => sendOn p 0xFE (.topo n d) s
    | none => s

/-- A port goes down; the stack rediscovers itself. -/
def portDown (p st : Nat) (s : State) : State :=
  rediscover (updCport p (fun c => { trainPort c.role with st := st, failedAt := s.nowNs }) s)

/-! ## Receipt (R368, R370, R371) -/

/-- Types that end at the receiving port whatever their DST. -/
def linkLocal (typ : Nat) : Bool := [1, 2, 3, 0xD, 0xE, 0xF, 0x10, 0x12].contains typ

/-- Whether a port takes a message: up, or for HELLO in training or error. -/
def CPort.takes (c : CPort) (typ : Nat) : Bool := c.st == 2 || (typ == 1 && (c.st == 1 || c.st == 3))

/-- ACK words for the `n` flits of a message: one for every 64, and one for its last. -/
def ackFlits (p first n : Nat) (s : State) : State :=
  sendWord p 1 0 ((first + n - 1) % 65536) 0
    ((List.range ((n - 1) / 64)).foldl (fun s i => sendWord p 1 0 ((first + 64 * i + 63) % 65536) 0 s) s)

/-- The head flit's CRC-32C is good: undamaged, and the LSEQ it covers is the one this end expects, so a flit that goes missing or comes out of
order fails it (R368). -/
def CPort.crcGood (c : CPort) (h : CHead) : Bool := h.intact && h.lseq == c.rxSeq

/-- A message of TYPE `typ` has reached a port. A flit that fails its CRC draws RETRY, and every later one is discarded until the expected one
comes; good flits are acknowledged and their buffers
returned; a message for another chip goes on; one for this chip has the effect `f`. -/
def takeMsg (typ : Nat) (h : CHead) (m : Flit) (f : State → State) (s : State) : State :=
  let p := h.port.val
  let c := s.cport p
  let other := match m with | .reserved _ => true | _ => false
  if !s.casRuns || !c.takes typ || !(other || flitType m == typ) then s
  else if !c.crcGood h then
    if c.retrying ∧ h.lseq ≠ c.rxSeq then s
    else sendWord p 2 0 c.rxSeq.toNat 0 (count (kCasPort p 2) (updCport p (fun c => { c with retrying := true }) s))
  else
    let n := flitCount m
    let s1 := countN (kCasPort p 1) n (updCport p (fun c => { c with rxSeq := c.rxSeq + BitVec.ofNat 16 n, retrying := false }) s)
    let s2 := sendWord p 3 (flitClass (flitType m)) 0 n (ackFlits p c.rxSeq.toNat n s1)
    if other || decide (0x40 ≤ h.dst ∧ h.dst ≤ 0xFD) then count (kCasPort p 5) s2
    else if linkLocal typ || h.dst == 0xFF || h.dst == s.cas.chipId || (h.dst == 0xFE && s.cas.master) then f s2
    else
      let out := if h.dst = 0xFE then s.upPort else s.portTo h.dst
      match out with
      | some q => if q = p then s2 else sendMsg q h.src h.dst h.mid m s2
      | none => s2

/-- A broadcast goes on down the tree under its sender's SRC and MID. -/
def relayDown (h : CHead) (m : Flit) (s : State) : State :=
  s.downPorts.foldl (fun s q => if q = h.port.val then s else sendMsg q h.src 0xFF h.mid m s) s

/-! ## TOPO and ASSIGN -/

/-- TOPO: a child's subtree report; the report of a standby's link is ignored. -/
def execTopo (h : CHead) (m : Flit) (s : State) : Result :=
  .next (takeMsg 2 h m (fun s =>
    match m with
    | .topo n d =>
      let c := s.cport h.port.val
      if c.role ≠ 3 ∨ c.peerStby then s else rediscover (updCport h.port.val (fun c => { c with subtree := some (n, d) }) s)
    | _ => s) s)

/-- ASSIGN from the parent, or over a MIRROR link from the active unit, whose chip ID the twin shares. -/
def execAssign (h : CHead) (m : Flit) (s : State) : Result :=
  .next (takeMsg 3 h m (fun s =>
    match m with
    | .assign id depth chips sdepth =>
      let role := (s.cport h.port.val).role
      if role = 1 ∧ s.cas.pair ≠ 3 ∧ s.cas.pair ≠ 4 then
        let s1 := takePlace id depth chips sdepth s
        if s1.downPorts.length < s.downPorts.length then rediscover s1 else s1
      else if role = 4 ∧ (s.cas.pair = 3 ∨ s.cas.pair = 4) then
        sendHellos (postNotice 0x0B05 1 (le 1 chips ++ le 1 depth)
          { s with cas.chipId := id, cas.depth := depth, cas.chips := chips, cas.sdepth := sdepth })
      else s
    | _ => s) s)

/-! ## Link words for flow (R369 to R371) -/

/-- A link word reached a port that is up and passed its CRC-16; a failing one is counted and ignored. -/
def takeWord (p : Nat) (ok : Bool) (f : State → State) (s : State) : State :=
  if !s.casRuns ∨ (s.cport p).st ≠ 2 then s else if !ok then count (kCasPort p 4) s else f s

/-- The LSEQ of a message's last flit has been acknowledged up to `seq`. -/
def CMsg.ackedBy (seq : Nat) (m : CMsg) : Bool := decide ((seq + 65536 - (m.lseq + m.count - 1) % 65536) % 65536 < 32768)

/-- LINK_ACK: kept flits up to LSEQ are released. -/
def execLinkAck (port : Fin 4) (seq : BitVec 16) (crc : BitVec 16) (s : State) : Result :=
  .next (takeWord port.val (wordOk 1 0 seq.toNat 0 crc)
    (updCport port.val fun c => { c with unacked := c.unacked.filter fun m => !m.ackedBy seq.toNat, retries := 0 }) s)

/-- LINK_RETRY: everything from LSEQ `seq` on is resent; a flit retried 16 times marks the link failed. -/
def execLinkRetry (port : Fin 4) (seq : BitVec 16) (crc : BitVec 16) (s : State) : Result :=
  let p := port.val
  .next (takeWord p (wordOk 2 0 seq.toNat 0 crc) (fun s =>
    let c := s.cport p
    let n := if c.retrySeq = seq.toNat then c.retries + 1 else 1
    if 16 < n then postNotice 0x0B01 0 (le 1 p) (portDown p 4 s)
    else
      let again := (c.unacked.filter fun m => !m.ackedBy ((seq.toNat + 65535) % 65536)).reverse
      let s1 := countN (kCasPort p 3) (c.txSeq - seq).toNat
        (updCport p (fun c => { c with retries := n, retrySeq := seq.toNat }) s)
      again.foldl (fun s m => emit (.cas p m.src m.dst m.mid m.m) s) s1) s)

/-- LINK_CREDIT: `n` buffers of a class come back. -/
def execLinkCredit (port : Fin 4) (cls : Fin 4) (n : BitVec 16) (crc : BitVec 16) (s : State) : Result :=
  let p := port.val
  .next (takeWord p (wordOk 3 cls.val 0 n.toNat crc) (fun s =>
    pump p (updCport p (fun c => { c with credit := c.credit.put 0 cls.val (min 32 (c.credit.get 0 cls.val + n.toNat)) }) s)) s)

/-! ## Links going and coming (R367, R370, R377) -/

/-- CAS_LINK_RETRAIN: a failed link trains again 100 ms after its last try. -/
def execCasLinkRetrain (port : Fin 4) (s : State) : Result :=
  .next (
    let c := s.cport port.val
    if c.st = 4 ∧ c.failedAt + 100000000 ≤ s.nowNs ∧ s.casRuns then retrain port.val s else s)

/-- CASCADE_LINK_DOWN: the lanes lost block lock or deskew; the port trains and the stack rediscovers itself. -/
def execCascadeLinkDown (port : Fin 4) (s : State) : Result :=
  .next (
    let c := s.cport port.val
    if (c.st = 2 ∨ c.st = 3) ∧ s.casRuns then sendHello port.val (portDown port.val 1 s) else s)

/-- PEER_LOST: the path to the master is lost, and no standby above takes over: the chip is detached (R377). -/
def execPeerLost (s : State) : Result :=
  .next (
    if s.cas.master ∨ s.cas.detached ∨ s.upPort.isSome ∨ !s.casRuns ∨ s.cas.pair = 3 ∨ s.cas.pair = 4 then s
    else
      let p := match firstWhere (fun (x : Nat × CPort) => x.2.role == 1) s.cas.ports with | some x => x.1 | none => 0
      postNotice 0x0B03 0 (le 1 p) { s with cas.detached := true })

end Sys2Proof.Machine
end

