-- ==== Sys2Proof/Machine/LakeRows.lean ====
section
/-! DEFINITION. Lake's NAND completions, background work and engine calls (R210 to R237, R272). -/

namespace Sys2Proof.Machine

/-! ## Failures (R223, R231, R232) -/

/-- A standby in service is asked for a meter's ledger data (R223 step 4). -/
def askTwin (mhs : List Nat) (s : State) : State :=
  match s.mirrorPorts with
  | p :: _ => if s.cas.pair = 1 then mhs.foldl (fun s k => sendOn p s.cas.chipId (.lfetch k) s) s else s
  | [] => s

/-- Meters of a ledger group chunk become CORRUPT; a standby in service is asked for its copy of each (R159, R223 step 4). -/
def corruptGroup (g : Nat) (s : State) : State :=
  let mark := fun (m : Map Meter) => m.map fun e => if e.1 / 8 = g then (e.1, { e.2 with corrupt := true }) else e
  askTwin (s.ldg.live.meters.keys.filter fun k => k / 8 == g)
    { s with ldg.live.meters := mark s.ldg.live.meters, ldg.dur.meters := mark s.ldg.dur.meters }

/-- Sixteen closed slots from index `i` on are lost: the records that stand in them become CORRUPT (R159, R222). -/
def loseClosed (i : Nat) (s : State) : State :=
  let n := max s.lake.nkeepMax 1
  let slots := (List.range 16).map fun r => (i + r) % 1048576
  let j := i / 1048576
  let held := fun (m : Meter) => (List.range (min m.closes s.ldg.nkeep)).map (fun k => m.closes - 1 - k) |>.filter fun c => c % n == j
  let mark := fun (ms : Map Meter) => ms.map fun e => if slots.contains e.1 then (e.1, { e.2 with lost := held e.2 ++ e.2.lost }) else e
  askTwin (s.ldg.live.meters.keys.filter fun k => slots.contains k)
    { s with ldg.live.meters := mark s.ldg.live.meters, ldg.dur.meters := mark s.ldg.dur.meters }

/-- MHs whose records a ledger chunk holds (R222). -/
def Lake.mhsOf (l : Lake) (lca : Nat) (known : List Nat) : List Nat :=
  if lca < 131072 then known.filter fun k => k / 8 == lca
  else if closedBase ≤ lca ∧ lca < l.journalBase then
    known.filter fun k => ((List.range 16).map fun r => (16 * (lca - closedBase) + r) % 1048576).contains k
  else []

/-- A chunk that nothing brings back: LAKE_UE, and the records it held are CORRUPT (R223, R238). -/
def loseChunk (key : Nat) (s : State) : State :=
  let space := key / 2 ^ 40
  let la := key % 2 ^ 40
  let s1 := postNotice 0x0704 0 (le 1 space ++ zeroBytes 7 ++ le 8 la) { s with lake.bad := s.lake.bad.put false key true }
  if space = 4 then
    let s2 := count (kLks 10) s1
    if la < 131072 then corruptGroup la s2
    else if closedBase ≤ la ∧ la < s.lake.journalBase then loseClosed (16 * (la - closedBase)) s2 else s2
  else s1

/-- A ledger chunk that copy A, copy B and parity do not bring back: the standby in service is asked for its records, else it is lost (R223). -/
def fetchChunk (key : Nat) (s : State) : State :=
  let mhs := s.lake.mhsOf (key % 2 ^ 40) s.ldg.live.meters.keys
  match s.mirrorPorts with
  | p :: _ =>
    if s.cas.pair = 1 ∧ !mhs.isEmpty then
      mhs.foldl (fun s k => sendOn p s.cas.chipId (.lfetch k) s) { s with lake.fetch := s.lake.fetch ++ [(key, mhs)] }
    else loseChunk key s
  | [] => loseChunk key s

/-- The standby's answer for a meter: a chunk all of whose records have come is rewritten to both streams; one whose record it does not hold is
lost (R223 step 4). -/
def fetchDone (mh : Nat) (ok : Bool) (s : State) : State :=
  let mine := s.lake.fetch.filter fun e => e.2.contains mh
  let rest := s.lake.fetch.filter fun e => !e.2.contains mh
  if ok then
    let left := mine.map fun e => (e.1, e.2.filter (· != mh))
    let done := left.filter fun e => e.2.isEmpty
    done.foldl (fun s e => programChunks [[{ key := e.1 }]] 4 (count (kLks 9) s))
      { s with lake.fetch := rest ++ left.filter fun e => !e.2.isEmpty }
  else mine.foldl (fun s e => loseChunk e.1 s) { s with lake.fetch := rest }

/-- No standby answers any more: what was asked of it is lost. -/
def fetchLost (s : State) : State := s.lake.fetch.foldl (fun s e => loseChunk e.1 s) { s with lake.fetch := [] }

/-- The other copy of a ledger chunk (R222). -/
def Lake.twin (l : Lake) (pca : Nat) (t : CTag) : Option Nat :=
  (firstWhere (fun (c : Nat × CTag) => c.1 != pca && c.2.space == 4 && c.2.laddr == t.laddr && c.2.dseq == t.dseq) l.chunks).map (·.1)

/-- The stream a stripe's chunks are rewritten to: A for both ledger copies. -/
def Lake.homeStream (l : Lake) (t : CTag) : Nat := streamSpace (l.stripes.get noStripe t.stripe).stream

/-- Rewrites chunks to the streams they came from. -/
def rewriteChunks (cs : List (Nat × CTag)) (fl : Nat) (s : State) : State :=
  [3, 4, 5, 6, 7].foldl (fun s st => copyChunks (cs.filter fun c => s.lake.homeStream c.2 == st) st fl s) s

/-- A LUN failed: its blocks RETIRED; chunks of OPEN and CLOSED stripes on it are rebuilt from parity, ledger chunks recover under R223, the rest
are lost (R232). -/
def failLun (lun : Nat) (s : State) : State :=
  if s.lake.lunFailed.get false lun then s
  else
    let s0 := { s with lake.lunFailed := s.lake.lunFailed.put false lun true }
    let mine := s.lake.chunks.filter fun c => c.1 / 2 ^ 24 == lun && s.lake.live c.1 c.2
    let open_ := fun (c : Nat × CTag) => match s.lake.stripes.find c.2.stripe with | some x => decide (x.st < 2) | none => false
    let closed := mine.filter fun c => !open_ c
    let byB := closed.filter fun c => c.2.space == 4 && match s.lake.twin c.1 c.2 with | some a => !s0.lake.lunFailed.get false (a / 2 ^ 24) | none => false
    let left := closed.filter fun c => !byB.contains c
    let asks := left.filter fun c => c.2.space == 4
    let lost := left.filter fun c => c.2.space != 4
    let lsns := (lost.filter fun c => c.2.space == 5).map fun c => c.2.laddr / 64
    let lo := lsns.foldl min (lsns.headD 0)
    let hi := lsns.foldl max 0
    let s1 := rewriteChunks (mine.filter open_) 0x40 (countN (kLks 7) (mine.filter open_).length s0)
    let s2 := rewriteChunks byB 0 (countN (kLks 8) byB.length s1)
    let s3 := asks.foldl (fun s c => fetchChunk (mapKey 4 c.2.laddr) s) s2
    let s4 := { s3 with lake.bad := lost.foldl (fun m c => m.put false (mapKey c.2.space c.2.laddr) true) s3.lake.bad }
    postNotice 0x0703 0 (le 1 lun ++ zeroBytes 3 ++ le 4 lo ++ le 4 hi) s4

/-- A failed operation of a LUN; the eighth in 24 h fails the LUN (R232). -/
def lunError (lun : Nat) (s : State) : State :=
  let l := s.nowNs :: (s.lake.lunErrs.get [] lun).filter fun t => decide (s.nowNs < t + 86400000000000)
  let s1 := { s with lake.lunErrs := s.lake.lunErrs.put [] lun l }
  if 8 ≤ l.length then failLun lun s1 else s1

/-- The stripe a block belongs to. -/
def Lake.stripeOf (l : Lake) (k : Nat) : Option (Nat × Stripe) := firstWhere (fun x => x.2.blocks.contains (some k)) l.stripes

/-- The A and B stripes of a ledger stripe close together (R222). -/
def closeBoth (stream : Nat) (s : State) : State :=
  if stream % 16 = 4 then closeStripe (stream + 4) (closeStripe stream s)
  else if stream % 16 = 8 then closeStripe stream (closeStripe (stream - 4) s)
  else closeStripe stream s

/-- A program failure in a row: its parity is programmed from the intended contents, the stripe closes at that row, the block's good chunks move to the
stream's next stripe, those that fail to read after a rebuild from parity, and the block retires (R231). `bad`: PCAs that fail to read. -/
def programFailed (k : Nat) (bad : List Nat) (s : State) : State :=
  match s.lake.stripeOf k with
  | none => s
  | some (n, x) =>
    let row := x.wpos / max x.data.length 1
    let s1 := count (kLks 11) (setBlock k { s.lake.block k with st := 6 } s)
    let s2 := closeBoth x.stream (if (s.lake.openStripe.find x.stream) = some n then programParity n row s1 else s1)
    let cs := s2.lake.chunksOf k
    let again := cs.filter fun c => bad.contains c.1
    let s3 := copyChunks (cs.filter fun c => !bad.contains c.1) (x.stream % 16) 0x80 s2
    let s4 := copyChunks again (x.stream % 16) 0xC0 (countN (kLks 7) again.length s3)
    verifyAll [n] (retireBlock k 0 s4)

/-- An erase failure retires the block at once (R231). -/
def eraseFailed (k : Nat) (s : State) : State := retireBlock k 1 (count (kLks 12) s)

/-! ## NAND completions -/

/-- NAND_OP_TIMEOUT: an operation issued at `at_` has not completed 1 ms after the profile's maximum: the LUN is reset and the operation counts
as failed; a LUN that does not answer after it is failed (R211, R232). `kind` 0 read, 1 program, 2 erase. -/
def execNandOpTimeout (lun block kind at_ : Nat) (answers : Bool) (s : State) : Result :=
  onClock s (
    if !s.lake.inited || decide (s.lake.luns ≤ lun) || decide (s.nowNs < at_ + (s.maxOp kind + 1000) * 1000) then s
    else
      let k := blockKey lun block
      let s0 := nandLun lun [0x78] block 0 0 [] (nandLun lun [0xFA] 0 0 0 [] s)
      let s1 := if kind = 1 then programFailed k [] s0 else if kind = 2 then eraseFailed k s0 else s0
      if answers then lunError lun s1 else failLun lun s1)

/-- Marks a stripe for refresh (R215). -/
def markRefresh (k : Nat) (s : State) : State :=
  match s.lake.stripeOf k with
  | none => s
  | some (n, x) =>
    if x.refresh then s
    else count (kLks 23) { s with lake.stripes := s.lake.stripes.ins n { x with refresh := true } }

/-- Rewrites a recovered chunk to its stream, both ledger streams for a ledger chunk. -/
def rewriteOne (pca : Nat) (t : CTag) (fl : Nat) (s : State) : State :=
  if s.lake.live pca t then
    programChunks [[{ key := mapKey t.space t.laddr, flags := fl, dseq := some t.dseq, data := some t.data }]] (s.lake.homeStream t) s
  else s

/-- What follows a ladder that failed: for a ledger chunk copy B, parity of A and of B in a stripe not yet verified, then the standby; for another
chunk parity; in a LIVE stripe it is lost (R214, R216, R218, R223). -/
def recoverChunk (pca : Nat) (t : CTag) (r : ReadIn) (s : State) : State :=
  let key := mapKey t.space t.laddr
  let unverified := match s.lake.stripes.find t.stripe with | some x => decide (x.st < 2) | none => false
  let parity := unverified && recovers r.parA
  if !s.lake.live pca t then s
  else if t.space = 4 then
    let b := s.lake.twin pca t
    let readB := fun (s : State) => match b with | some a => nandRead a (lastStep r.copyB) false s | none => s
    if b.isSome && recovers r.copyB then rewriteOne pca t 0 (count (kLks 8) (readB s))
    else if parity || (unverified && b.isSome && recovers r.parB) then rewriteOne pca t 0x40 (count (kLks 7) (readB s))
    else fetchChunk key (readB s)
  else if parity then rewriteOne pca t 0x40 (count (kLks 7) s)
  else loseChunk key s

/-- A chunk is read: the ladder's commands, the counts, the marks for refresh, and recovery where it fails. A chunk found ERASED has no content and is
recovered as one that fails (R214, R215, R223; log 127). -/
def readDone (pca : Nat) (r : ReadIn) (s : State) : State :=
  match s.lake.chunks.find pca with
  | none => s
  | some t =>
    let k := pcaBlock pca
    let b := s.lake.block k
    let limit := decide (s.readLimit ≠ 0 ∧ s.readLimit ≤ b.reads + 1)
    let s1 := nandRead pca (lastStep r.tries) b.pslc (count (kLks 3) (setBlock k { b with reads := b.reads + 1 } s))
    let s2 := if limit then markRefresh k s1 else s1
    match ladder 0 r.tries with
    | .passed n c =>
      let s3 := if n = 0 then s2 else
        countIf (decide (n ≤ 4)) (kLks 4) (countIf (decide (5 ≤ n)) (kLks 5)
          { s2 with lake.stepReads := s2.lake.stepReads.put 0 n (s2.lake.stepReads.get 0 n + 1) })
      if decide (3 ≤ n) || (n == 0 && decide (80 < c)) then markRefresh k s3 else s3
    | _ => recoverChunk pca t r (count (kLks 6) s2)

/-- NAND_READ_COMPLETE. -/
def execNandReadComplete (pca : Nat) (r : ReadIn) (s : State) : Result :=
  onClock s (if s.lake.inited then readDone pca r s else s)

/-- A chunk may be programmed now: a log chunk must be complete. -/
def State.mayProgram (s : State) (stream key : Nat) : Bool :=
  let la := key % 2 ^ 40
  key / 2 ^ 40 == streamSpace stream && (stream % 16 != 5 || s.lake.chunkEnded (la / 64) (la % 64))

/-- The chunks of a log or event page follow each other in one segment (R221). -/
def inOrder (stream : Nat) (keys : List Nat) : Bool :=
  (stream != 5 && stream != 6) || (keys.headD 0 % 4 == 0 && keys == (List.range 4).map fun i => keys.headD 0 + i)

/-- Data that a native page makes durable, and the landing copies it frees (R224). -/
def nativeDurable (keys : List Nat) (s : State) : State :=
  let s1 := landLog (fun r => keys.contains (mapKey 5 (r.lsn * 64 + r.off / 4096))) s
  let ws := s1.lake.volPend.filter fun w => w.chunks.all fun c => keys.contains (mapKey 7 c.1)
  let s2 := ws.foldl (fun s w => commitVolume w s) s1
  let mine := fun (e : EvRec) => keys.contains (mapKey 6 (e.pos / 262144 % 256 * 64 + e.pos % 262144 / 4096))
  eraseLanding (clearDone { s2 with evr.ring := s2.evr.ring.map fun e => if mine e then { e with landed := true } else e })

/-- The read-back of a closed stripe: every data chunk is read at step 0; one that passes with more than 50 bits corrected or on a later step is
rewritten to its stream, one that fails is rebuilt from parity first (R218). -/
def readBack (back : List Readback) (n : Nat) (s : State) : State :=
  let cs := s.lake.chunks.filter fun c => c.2.stripe == n && c.2.space != 8
  let weak := fun (b : Readback) => match ladder 0 b.r.tries with | .passed 0 c => decide (50 < c) | _ => true
  let mine := back.filterMap fun b => if weak b then (firstWhere (fun c => c.1 == b.pca) cs).map fun c => (c, recovers b.r.tries) else none
  let s1 := countN (kLks 3) cs.length (cs.foldl (fun s c => nandRead c.1 0 (s.lake.block (pcaBlock c.1)).pslc s) s)
  mine.foldl (fun s m => rewriteOne m.1.1 m.1.2 (if m.2 then 0 else 0x40) (countIf (!m.2) (kLks 7) (count (kLks 15) s))) s1

/-- Stripes closed are read back and verified; not in HOLD-UP (R218, R236). -/
def finishStripes (ns : List Nat) (back : List Readback) (s : State) : State :=
  if s.cpm.pfail then s else verifyAll ns (ns.foldl (fun s n => readBack back n s) s)

/-- NAND_PROGRAM_COMPLETE: a page of a stream is programmed with the chunks named, or reports FAIL; `back`: chunks of a stripe it finishes that do not
read back at step 0 with 50 bits or fewer, or of the failed block that fail to read (R216, R218, R231). -/
def execNandProgramComplete (stream : Nat) (keys : List Nat) (pass : Bool) (back : List Readback) (s : State) : Result :=
  onClock s (
    if !s.lake.inited || !s.lake.formatted || !([3, 4, 5, 6, 7].contains stream) || keys.length != 4 || !keys.all (s.mayProgram stream)
        || !inOrder stream keys then s
    else
      let page := keys.map fun k => ({ key := k } : Put)
      if pass then
        let (s1, ns) := programPage stream page s
        let stuck := keys.any fun k => s1.lake.maps.find k == s.lake.maps.find k
        if stuck then s
        else finishStripes ns back (nativeDurable keys s1)
      else
        let s1 := withStripe stream s
        match s1.lake.openStripe.find stream with
        | none => s
        | some n =>
          let x := s1.lake.stripes.get noStripe n
          match x.blocks.getD (x.data.getD (x.wpos % x.data.length) 16) none with
          | none => s
          | some k =>
            let row := x.wpos / x.data.length
            let img := pageImage s1.lake.geom.spare (page.map (s1.tagged n))
            let s2 := nandProgram k row (pslcStream stream) img { s1 with
              lake.parity := s1.lake.parity.put [] stream (xorPage (s1.lake.parity.get [] stream) img) }
            let bad := (back.filter fun b => !recovers b.r.tries).map (·.pca)
            let (s3, ns) := programPage stream page (lunError (k / 4096) (programFailed k bad s2))
            nativeDurable keys (verifyAll ns s3))

/-- NAND_ERASE_COMPLETE: a DIRTY block is FREE with PE + 1, or RETIRED (R217, R231). -/
def execNandEraseComplete (lun block : Nat) (pass : Bool) (s : State) : Result :=
  onClock s (
    let k := blockKey lun block
    let b := s.lake.block k
    if b.st ≠ 5 ∨ s.cpm.pfail ∨ !s.lake.inited then s
    else if pass then
      let s1 := nandErase k b.pslc (setBlock k { b with st := 1, pe := min (b.pe + 1) 0xFFFFF, refresh := false, reads := 0, led := false } s)
      releaseCheck (wearCheck (pruneStripes { s1 with lake.chunks := s1.lake.chunks.keep fun a _ => pcaBlock a != k }))
    else lunError lun (eraseFailed k (nandErase k b.pslc s)))

/-! ## Background work -/

/-- ZQ_SHORT_CAL: short calibration of every LUN's target every 10 min (R210). -/
def execZqShortCal (s : State) : Result :=
  onClock s (
    if s.lake.inited && decide (s.lake.lastZq + 600000000000 ≤ s.nowNs) && !s.cpm.pfail then
      (List.range (8 * s.lake.geom.tgts)).foldl (fun s i => nandTo (i % 8) (i / 8) [0xD9] [] 0 [] s) { s with lake.lastZq := s.nowNs }
    else s)

/-- The next chunk of a LIVE stripe from a PCA on. -/
def Lake.patrolNext (l : Lake) (from_ : Nat) : Option Nat :=
  (firstWhere (fun (c : Nat × CTag) => decide (from_ ≤ c.1) && c.2.space != 8 && (l.block (pcaBlock c.1)).st == 4) l.chunks).map (·.1)

/-- LAKE_PATROL: the patrol's next chunk of a LIVE stripe is read, in order of PCA; a cycle begins 30 days after the one before (R215). -/
def execLakePatrol (r : ReadIn) (s : State) : Result :=
  onClock s (
    if !s.lake.ready || s.cpm.pfail then s
    else match s.lake.patrolNext s.lake.patrolPos with
    | some a => readDone a r { s with lake.patrolPos := a + 1 }
    | none =>
      if s.nowNs < s.lake.patrolAt + 2592000000000000 then s
      else match s.lake.patrolNext 0 with
      | some a => readDone a r { s with lake.patrolAt := s.nowNs, lake.patrolPos := a + 1 }
      | none => { s with lake.patrolAt := s.nowNs })

/-- A deadline has passed, or a chunk has filled (R224). -/
def State.landDue (s : State) (since limit : Nat) (full : Bool) : Bool := full || decide (since + limit ≤ s.nowNs)

/-- LANDING_DEADLINE: the oldest buffered chunk of a space is landed once it fills or its deadline passes: 1 ms for 4, the ledger journal, and 7, the host
volume; 4 ms for 5, the readings log or the bring-up buffer before READY, and 6, the event ring (R224, R408). -/
def execLandingDeadline (space : Nat) (s : State) : Result :=
  onClock s (
    if !s.lake.inited || s.lake.landFull then s
    else if space = 4 then match s.journalDue with
      | some r => if s.landDue r.at_ 1000000 (decide (r.pos / 4096 < s.ldg.jpos / 4096)) then landJournalChunk s else s
      | none => s
    else if space = 5 then
      if !s.lake.ready then
        if s.ing.staging.any (fun x => x.held && !s.lake.bring.contains x && s.landDue x.decided 4000000 false) then landBring s else s
      else match (s.lake.log.filter fun r => !r.landed).getLast? with
        | none => s
        | some r => if s.landDue r.at_ 4000000 (s.lake.chunkEnded r.lsn (r.off / 4096)) then landLogChunk s else s
    else if space = 6 then match s.evr.due with
      | some e => if s.lake.ready && s.landDue (e.tai * 1000) 4000000 (decide (e.pos / 4096 < s.evr.pos / 4096)) then landEventChunk s else s
      | none => s
    else if space = 7 then
      match s.lake.volPend with
      | [] => s
      | w :: _ => if s.landDue w.at_ 1000000 true then landVolume s else s
    else s)

/-- The stripe of the oldest live segment, if one has been programmed. -/
def Lake.tailStripe (l : Lake) : Option (Nat × Stripe) :=
  match l.maps.find (mapKey 5 (l.lsnTail * 64)) with
  | none => none
  | some a => match l.chunks.find a with
    | none => none
    | some t => (l.stripes.find t.stripe).map fun x => (t.stripe, x)

/-- Segments of a stripe. -/
def Lake.lsnsOf (l : Lake) (n : Nat) : List Nat :=
  (l.chunks.filter fun c => c.2.stripe == n && c.2.space == 5).map fun c => c.2.laddr / 64

/-- Reclaims the tail stripe when every segment in it is acknowledged (R227). -/
def reclaimTail (s : State) : State × Bool :=
  match s.lake.tailStripe with
  | none => (s, false)
  | some (n, x) =>
    let ls := s.lake.lsnsOf n
    if ls.isEmpty ∨ !ls.all (fun l => decide (l < s.lake.heack)) ∨ x.st ≠ 2 then (s, false)
    else
      let tail := ls.foldl max 0 + 1
      let s1 := (x.blocks.filterMap id).foldl (fun s k =>
        let b := s.lake.block k
        if b.st = 4 then setBlock k { b with st := 5 } s else s) s
      (count (kLks 16) { s1 with
        lake.log := s1.lake.log.filter (fun r => decide (tail ≤ r.lsn)), lake.lsnTail := tail
        lake.maps := s1.lake.maps.keep (fun k _ => k / 2 ^ 40 != 5 || decide (tail ≤ k % 2 ^ 40 / 64))
        lake.stripes := s1.lake.stripes.del n, lake.mjStaged := .trim 5 (s.lake.lsnTail * 64) ((tail - s.lake.lsnTail) * 64) :: s1.lake.mjStaged }, true)

/-- Reclaims tail stripes while fewer than 4 per die group are free; `fuel` bounds the stripes. -/
def reclaimLog : Nat → State → State
  | 0, s => s
  | f + 1, s =>
    if 4 * s.lake.geom.dg ≤ s.lake.freeLog then s
    else match reclaimTail s with
      | (s1, true) => reclaimLog f s1
      | (_, false) => s

/-- LOG_RECLAIM: acknowledged log stripes are reclaimed oldest first; LAKE_FULL and LAKE_ACCEPTING follow (R227, R233). -/
def execLogReclaim (s : State) : Result :=
  onClock s (
    if !s.lake.ready then s
    else
      let s1 := reclaimLog s.lake.stripes.length s
      let args := le 4 s1.lake.lsnTail ++ le 4 s1.lake.heack
      if s1.lake.logFull then
        if 4 * s1.lake.geom.dg ≤ s1.lake.freeLog then postNotice 0x0706 1 args { s1 with lake.logFull := false } else s1
      else if s1.lake.freeLog < 2 * s1.lake.geom.dg then postNotice 0x0705 0 args { s1 with lake.logFull := true }
      else s1)

/-- LAKE_COLLECTION: the LIVE stripe of a space with the fewest live chunks, or one marked for refresh, is copied; of the readings log only one marked
for refresh (R215, R228, R234). -/
def execLakeCollection (space : Nat) (s : State) : Result :=
  onClock s (
    if !s.lake.ready || s.cpm.pfail || !([3, 4, 5, 6, 7].contains space) then s
    else
      let l := s.lake
      let liveOf := fun (n : Nat) => (l.chunks.filter fun c => c.2.stripe == n && l.live c.1 c.2)
      let cand := l.stripes.filter fun x => x.2.stream % 16 == space && x.2.st == 2 && (l.victims.find x.1).isNone && (space != 5 || x.2.refresh)
      let best := fun (r : Option (Nat × Nat)) (x : Nat × Stripe) =>
        let k := if x.2.refresh then 0 else 1 + (liveOf x.1).length
        match r with
        | none => some (x.1, k)
        | some (n, m) => if k < m then some (x.1, k) else some (n, m)
      match cand.foldl best none with
      | none => protectCheck s
      | some (n, _) =>
        let cs := liveOf n
        let s1 := countN (kLks 2) cs.length (copyChunks cs (space + 16) 0x80 s)
        let target := (s1.lake.openStripe.find (space + 16)).getD n
        protectCheck { s1 with lake.victims := s1.lake.victims.ins n target, lake.gcAct := true })

/-- LEDGER_GROUP_WRITEBACK: the group chunk applied to the lowest JSEQ is written to both ledger streams (R222). -/
def execLedgerGroupWriteback (s : State) : Result :=
  onClock s (
    if !s.lake.ready || s.lake.protect then s
    else
      let gs := (s.ldg.dur.meters.map fun m => m.1 / 8).eraseDups
      let best := fun (r : Option Nat) (g : Nat) => match r with
        | none => some g
        | some h => if s.lake.groupJseq.get 0 g < s.lake.groupJseq.get 0 h then some g else some h
      match gs.foldl best none with
      | none => s
      | some g =>
        let done := match s.ldg.jq.find? (fun r => !r.landed) with | some r => r.jseq | none => s.ldg.jseq
        releaseJournal (programChunks [[{ key := mapKey 4 g }]] 4 { s with lake.groupJseq := s.lake.groupJseq.put 0 g done }))

/-- MAP_JOURNAL_FLUSH: 64 MiB of chunks, 2 s, a stripe beyond the one pre-allocated, or HOLD-UP (R229). -/
def execMapJournalFlush (s : State) : Result :=
  onClock s (if s.lake.mjStaged.isEmpty ∨ !s.lake.inited ∨ !s.mjFlushDue then s else flushMj s)

/-- MAP_CHECKPOINT: after 10 min or 4 GiB of map journal, tables and maps are written, then the anchor (R229). -/
def execMapCheckpoint (s : State) : Result :=
  onClock s (
    if s.lake.ready && (decide (s.lake.lastCkpt + 600000000000 ≤ s.nowNs) || decide (1048576 ≤ s.lake.mjseq - s.lake.ckptMj)) then mapCheckpoint s else s)

/-! ## Engine calls (Table 9-23) -/

/-- HEACK (R227). -/
def setHeack (n : Nat) (s : State) : State × Nat :=
  if n < s.lake.heack ∨ s.lake.lsnHead < n then (s, stBadArg)
  else (mjAdd (.heack n) { s with lake.heack := n }, stOk)

/-- LAKE_HEACK. -/
def engLakeHeack (_t : Nat) (b : List Byte) (s : State) : EngOut :=
  if !zeros b 4 4 then .fail s stBadArg else let (s1, st) := setHeack (field b 0 4) s; { st := s1, status := st }

/-- Mean and maximum PE of native or pSLC blocks. -/
def Lake.pe (l : Lake) (pslc : Bool) : Nat × Nat :=
  let bs := l.blocks.filter fun e => e.2.pslc == pslc
  (bs.foldl (fun n e => n + e.2.pe) 0 / max bs.length 1, bs.foldl (fun n e => max n e.2.pe) 0)

/-- FREE blocks, and blocks retired. -/
def Lake.freeBlocks (l : Lake) : Nat :=
  l.totalBlocks - (l.blocks.filter fun e => e.2.st != 1 && !l.lunFailed.get false (e.1 / 4096)).length
    - (l.lunFailed.filter (·.2)).length * l.geom.blocksPerLun
def Lake.retired (l : Lake) : Nat := (l.blocks.filter fun e => (l.block e.1).st == 7).length

/-- The health object (Table 8-15). -/
def State.health (s : State) : List Byte :=
  let l := s.lake
  let c16 := fun x => le 2 (min x 0xFFFF)
  let day := fun (nat_ : Bool) => (l.prog24.filter fun e => e.2 == nat_ && decide (s.nowNs < e.1 + 86400000000000)).length
  let b := le 1 1 ++ le 1 l.geom.dg ++ le 1 (l.lunFailed.filter (·.2)).length ++ zeroBytes 1
    ++ c16 (l.lifeUsed false s.peNative) ++ c16 (l.lifeUsed true s.pePslc)
    ++ c16 (l.pe false).1 ++ c16 (l.pe false).2 ++ c16 (l.pe true).1 ++ c16 (l.pe true).2
    ++ le 4 l.freeBlocks ++ le 4 l.retired ++ c16 l.pool ++ c16 l.poolTotal
    ++ ((List.range 7).map fun i => le 4 (l.stepReads.get 0 (i + 1))).flatten
    ++ le 4 (s.counter (kLks 6)).toNat ++ le 4 (s.counter (kLks 10)).toNat
    ++ le 4 l.lsnTail ++ le 4 l.heack ++ le 4 l.lsnHead
    ++ le 4 (day true) ++ le 4 (day false) ++ le 4 l.rebuildMs ++ le 2 l.geom.pages ++ zeroBytes 34
  b ++ le 4 (crc32c b)

/-- LAKE_HEALTH (R237). -/
def engLakeHealth (t : Nat) (b : List Byte) (s : State) : EngOut :=
  if !zeros b 8 8 then .fail s stBadArg
  else if !s.lake.ready then .fail s stNotFound
  else if !s.bufOk t (field b 0 8) 128 then .fail s stAccessFault
  else .ok (writeBuf t (field b 0 8) s.health s)

/-- LAKE_MARK: a MARK record under a credit (Table 8-12). -/
def engLakeMark (_t : Nat) (b : List Byte) (s : State) : EngOut :=
  if !s.lake.ready ∨ s.credits = 0 then .fail (countIf s.lake.ready (kLks 17) s) stNoSpace
  else .ok (logAppend 4 511 0xFFFFF 0 s.nowUs (b.take 8) { s with lake.creditsUsed := s.lake.creditsUsed + 1 })

/-- Bytes [off, off + len) of a segment. -/
def Lake.segment (l : Lake) (lsn off len : Nat) : List Byte :=
  let landed := { l with log := l.log.filter (·.landed) }
  let cs := (List.range (ceilDiv (off + len) 4096 - off / 4096)).map fun i => off / 4096 + i
  slice ((cs.map (landed.logChunk lsn)).flatten) (off % 4096) len

/-- End of a segment's readable bytes: the whole segment, or the last landed record of the open one. -/
def Lake.segEnd (l : Lake) (lsn : Nat) : Nat :=
  if lsn + 1 < l.lsnHead then 262144
  else (l.log.filter fun r => r.lsn == lsn && r.landed).foldl (fun n r => max n (r.off + r.bytes.length)) 0

/-- Log bytes from an LSN and offset: status, bytes (R272 LAKE_LOG_READ). -/
def Lake.logRead (l : Lake) (lsn off len : Nat) : Nat × List Byte :=
  if lsn < l.lsnTail ∨ l.lsnHead ≤ lsn then (stNotFound, [])
  else
    let n := min len (l.segEnd lsn - off)
    let bad := (List.range 64).any fun c => l.bad.get false (mapKey 5 (lsn * 64 + c)) && decide (c * 4096 < off + n ∧ off < c * 4096 + 4096)
    if bad then (stCorrupt, []) else (stOk, l.segment lsn off n)

/-- LAKE_LOG_READ. -/
def engLakeLogRead (t : Nat) (b : List Byte) (s : State) : EngOut :=
  let off := field b 4 4
  let len := field b 16 4
  if !zeros b 20 4 ∨ !zeros b 28 4 ∨ off % 8 ≠ 0 ∨ 262144 ≤ off ∨ len % 8 ≠ 0 ∨ len < 8 ∨ 65536 < len then .fail s stBadArg
  else
    let (st, l) := s.lake.logRead (field b 0 4) off len
    if st ≠ stOk then .fail s st
    else if !s.bufOk t (field b 8 8) l.length then .fail s stAccessFault
    else { st := writeBuf t (field b 8 8) l s, status := stOk, out := [(24, le 4 l.length)] }

/-- A volume call's offset and length are in order and within the volume. -/
def State.volRange (s : State) (ofs len : Nat) : Bool :=
  ofs % 4096 == 0 && len % 4096 == 0 && decide (4096 ≤ len ∧ len ≤ 65536) && decide (ofs + len ≤ s.lake.volGiB * 2 ^ 30)

/-- LAKE_VOL_READ. -/
def engLakeVolRead (t : Nat) (b : List Byte) (s : State) : EngOut :=
  let ofs := field b 0 8
  let len := field b 16 4
  if !zeros b 20 12 ∨ !s.volRange ofs len then .fail s stBadArg
  else if !s.bufOk t (field b 8 8) len then .fail s stAccessFault
  else
    let cs := (List.range (len / 4096)).map fun i => ofs / 4096 + i
    if cs.any (fun c => s.lake.bad.get false (mapKey 7 c)) then .fail s stCorrupt
    else .ok (writeBuf t (field b 8 8) ((cs.map fun c => s.lake.vol.get (zeroBytes 4096) c).flatten) s)

/-- LAKE_VOL_WRITE: OK when durable; NO_SPACE when the quota has no free block (R235, R431). -/
def engLakeVolWrite (t : Nat) (b : List Byte) (s : State) : EngOut :=
  let ofs := field b 0 8
  let len := field b 16 4
  if !zeros b 20 12 ∨ !s.volRange ofs len then .fail s stBadArg
  else match s.readBuf t (field b 8 8) len with
  | .error e => .fail s e
  | .ok d =>
    if s.lake.volGiB * 262144 * 112 / 100 < s.volUsed + len / 4096 then
      .fail (if s.lake.volFull then s else postNotice 0x0709 1 [] { s with lake.volFull := true }) stNoSpace
    else
      let n := s.lake.nextVol
      let w := (chunks 4096 (len / 4096) d).zipIdx.map fun x => (ofs / 4096 + x.2, x.1)
      { st := { s with lake.nextVol := n + 1, lake.volPend := s.lake.volPend ++ [{ id := n, chunks := w, at_ := s.nowNs }], lake.volFull := false
                       lake.bad := w.foldl (fun m c => m.put false (mapKey 7 c.1) false) s.lake.bad }
        status := stOk, waits := some (.volume n) }

/-- LAKE_VOL_TRIM. What a trim that no flush has made durable took away is kept, since a reset brings it back (R229). -/
def engLakeVolTrim (_t : Nat) (b : List Byte) (s : State) : EngOut :=
  let ofs := field b 0 8
  let n := field b 8 4
  if !zeros b 12 4 ∨ ofs % 4096 ≠ 0 ∨ s.lake.volGiB * 2 ^ 30 < ofs + n * 4096 then .fail s stBadArg
  else
    let inr := fun k => decide (ofs / 4096 ≤ k ∧ k < ofs / 4096 + n)
    let gone := (s.lake.vol.filter fun c => inr c.1).map fun c => (c.1, s.lake.maps.find (mapKey 7 c.1), c.2)
    .ok (mjAdd (.trim 7 (ofs / 4096) n) { s with
      lake.vol := s.lake.vol.keep (fun k _ => !inr k)
      lake.maps := s.lake.maps.keep (fun k _ => !(k / 2 ^ 40 == 7 && inr (k % 2 ^ 40)))
      lake.volFull := s.lake.volFull && n == 0, lake.trimmed := s.lake.trimmed ++ gone })

/-- LAKE_GRANT: blocks move from the log's quota to the ledger's (R234). -/
def engLakeGrant (_t : Nat) (b : List Byte) (s : State) : EngOut :=
  let n := field b 0 4
  if !zeros b 4 4 ∨ s.lake.logQuota < n + 64 * s.lake.geom.dg then .fail s stBadArg
  else .ok (releaseCheck (spareCheck { s with lake.logQuota := s.lake.logQuota - n, lake.ledgerQuota := s.lake.ledgerQuota + n }))

/-- The first block from 8 up that is good on every LUN of a slot: LUNs 0 to 7 for A, 8 to 15 for B (Table 8-7). -/
def Lake.bootFirst (l : Lake) (lun0 : Nat) : Nat :=
  (firstWhere (fun b => (List.range 8).all fun i => let st := (l.block (blockKey (lun0 + i) b)).st; st != 0 && st != 7)
    ((List.range l.geom.blocksPerLun).drop 8)).getD 8

/-- The BOOT field after a format: the regions of the slots are fixed, what the slots hold stays, the volume generation is gone (log 89). -/
def Upd.formatted (u : Upd) (l : Lake) : Upd :=
  let n := ceilDiv (ceilDiv 16384 7) (max l.cpbP 1)
  { u with aFirst := l.bootFirst 0, bFirst := l.bootFirst 8, aNblk := n, bNblk := n, gen := false, genck := 0, volGen := none }

/-- A format: its refusals, and the blank Lake it leaves (R219, R297). The part then passes through reset. -/
def formatLake (landing volume nkeep confirm : Nat) (s : State) : State × Nat :=
  let (led, pool, log) := s.lake.quotas landing volume nkeep
  if s.ldg.sealed then (s, stSealed)
  else if confirm ≠ 0x464F524D ∨ landing < 1 ∨ 32 < landing ∨ 64 < volume ∨ nkeep < 1 ∨ 36 < nkeep ∨ !s.lake.inited ∨
      log * 10 < (s.lake.totalBlocks : Int) then (s, stBadArg)
  else
    let (fid, s1) := drawFree s
    let l := s1.lake
    let free := l.blocks.mapVals fun b => if b.st = 0 ∨ b.st = 7 then b else { b with st := 1, pe := min (b.pe + 1) 0xFFFFF, led := false, pslc := false, refresh := false, reads := 0 }
    let bad := l.factoryBad.foldl (fun (m : Map Block) k => m.put {} k { m.get {} k with st := 0 }) free
    let l1 := { l with blocks := bad, lunFailed := l.absent.foldl (fun m i => m.put false i true) l.lunFailed }
    let fixed := ((List.range 8).map l1.anchorBlocks).flatten ++ ((List.range 16).map l1.bootBlocks).flatten
    let keep := fixed.foldl (fun (m : Map Block) k => m.put {} k { m.get {} k with st := 8, pslc := true }) bad
    ({ s1 with
       lake := { Lake.reset with
         inited := l.inited, wpHigh := l.wpHigh, geom := l.geom, formatted := true, factoryBad := l.factoryBad, absent := l.absent
         lunFailed := l1.lunFailed, lunErrs := l.lunErrs
         blocks := keep, ledgerQuota := led, logQuota := log.toNat, pool := pool, poolTotal := pool, volGiB := volume
         landGiB := landing, nkeepMax := nkeep, fmtid := fid % 2 ^ 128, aseq := l.aseq + 1, lifePosted := l.lifePosted
         prog24 := l.prog24, lastZq := l.lastZq, lunSel := l.lunSel, cntSel := l.cntSel }
       ldg.dur := LData.empty, ldg.live := LData.empty, ldg.jq := [], ldg.jlog := [], ldg.jpos := 0, ldg.nkeep := min s1.ldg.nkeep nkeep
       ldg.protArea := [], ldg.protect := false, ldg.span := none
       lm.ports := s1.lm.ports.mapVals fun x => { x with routes := [], rxmaps := [], oldMaps := [] }
       woad.durSlots := [], woad.durBcast := {}, woad.durCfloor := [], woad.durHw := 0
       evr.ring := [], evr.pos := 0, upd := s1.upd.formatted l, cpm.resetDue := some 3 }, stOk)

/-- LAKE_FORMAT as an engine call's block. -/
def engLakeFormat (_t : Nat) (b : List Byte) (s : State) : EngOut :=
  if !zeros b 3 1 ∨ !zeros b 8 56 then .fail s stBadArg
  else let (s1, st) := formatLake (field b 0 1) (field b 1 1) (field b 2 1) (field b 4 4) s; { st := s1, status := st }

/-- LAKE_HEACK as an engine call. -/
def execLakeHeack (t : Fin 256) (pi : Fin 8) (rt ra : Fin 32) (s : State) : Result := .next (ecall t pi rt ra 0x60 8 engLakeHeack s)

/-- LAKE_HEALTH as an engine call. -/
def execLakeHealth (t : Fin 256) (pi : Fin 8) (rt ra : Fin 32) (s : State) : Result := .next (ecall t pi rt ra 0x61 16 engLakeHealth s)

/-- LAKE_MARK as an engine call. -/
def execLakeMark (t : Fin 256) (pi : Fin 8) (rt ra : Fin 32) (s : State) : Result := .next (ecall t pi rt ra 0x62 8 engLakeMark s)

/-- LAKE_LOG_READ as an engine call. -/
def execLakeLogRead (t : Fin 256) (pi : Fin 8) (rt ra : Fin 32) (s : State) : Result := .next (ecall t pi rt ra 0x63 32 engLakeLogRead s)

/-- LAKE_VOL_READ as an engine call. -/
def execLakeVolRead (t : Fin 256) (pi : Fin 8) (rt ra : Fin 32) (s : State) : Result := .next (ecall t pi rt ra 0x64 32 engLakeVolRead s)

/-- LAKE_VOL_WRITE as an engine call. -/
def execLakeVolWrite (t : Fin 256) (pi : Fin 8) (rt ra : Fin 32) (s : State) : Result := .next (ecall t pi rt ra 0x65 32 engLakeVolWrite s)

/-- LAKE_VOL_TRIM as an engine call. -/
def execLakeVolTrim (t : Fin 256) (pi : Fin 8) (rt ra : Fin 32) (s : State) : Result := .next (ecall t pi rt ra 0x66 16 engLakeVolTrim s)

/-- LAKE_GRANT as an engine call. -/
def execLakeGrant (t : Fin 256) (pi : Fin 8) (rt ra : Fin 32) (s : State) : Result := .next (ecall t pi rt ra 0x67 8 engLakeGrant s)

/-- LAKE_FORMAT as an engine call. -/
def execLakeFormat (t : Fin 256) (pi : Fin 8) (rt ra : Fin 32) (s : State) : Result := .next (ecall t pi rt ra 0x68 64 engLakeFormat s)

end Sys2Proof.Machine
end

