-- ==== Sys2Proof/Machine/LineCode.lean ====
section
/-! DEFINITION. The physical layer of Zaruno Line as arithmetic on bits: carriers, FC copies, scrambler, LDPC, interleaver, mapping, symbols,
and their reverse in the receiver (R99 to R101, R103 to R108, R112, R113). A bit string is a number whose bit i is the string's bit i. -/

namespace Sys2Proof.Machine

/-! ## Carriers (R99) -/

/-- Carriers of group `g`. -/
def groupCarriers (g : Nat) : Nat := if g = 25 then 6 else 8

/-- N_ACT of a tone mask. -/
def nAct (mask : BitVec 26) : Nat := (List.range 26).foldl (fun n g => if mask.getLsbD g then n + groupCarriers g else n) 0

/-- Group of a usable carrier. -/
def groupOf (k : Nat) : Nat := (k - 40) / 8

/-- The active carriers in ascending order. -/
def activeCarriers (mask : BitVec 26) : List Nat := ((List.range 206).map (· + 40)).filter fun k => mask.getLsbD (groupOf k)

/-! ## Tone maps (R109) -/

/-- LOAD code of a group in a tone map. -/
def loadOf (map : List Byte) (g : Nat) : Nat := bits (ofLe map) (3 * g + 2) (3 * g)

/-- Bits per carrier of a LOAD code (Table 4-8). -/
def loadBits (c : Nat) : Nat := match c with | 1 => 1 | 2 => 2 | 3 => 4 | 4 => 6 | 5 => 8 | 6 => 10 | _ => 0

/-- RATE of a tone map: true for 5/6. -/
def mapRate (map : List Byte) : Bool := bitAt (ofLe map) 78

/-- A map with no reserved LOAD code. -/
def mapValid (map : List Byte) : Bool := (List.range 26).all fun g => loadOf map g != 7

/-- Threshold of a LOAD code, in tenths of a dB (Table 4-8). -/
def loadThreshold (rate : Bool) (c : Nat) : Int :=
  if rate then [0, 40, 68, 125, 180, 235, 290].getD c 0 else [0, -5, 23, 80, 135, 190, 245].getD c 0

/-- The largest LOAD code whose threshold lies at least 3 dB below an SNR in tenths of a dB; 0, off, when none does (R109). -/
def loadFor (rate : Bool) (snr : Int) : Nat :=
  (List.range 6).foldl (fun c i => if loadThreshold rate (i + 1) + 30 ≤ snr then i + 1 else c) 0

/-- The tone map for the lowest SNR of each group; masked groups are off. -/
def mapFor (mask : BitVec 26) (rate : Bool) (snr : Nat → Int) : List Byte :=
  le 10 ((List.range 26).foldl (fun n g => if mask.getLsbD g then n + loadFor rate (snr g) * 2 ^ (3 * g) else n) (flag rate * 2 ^ 78))

/-! ## LDPC code (R104) -/

/-- Block rows and information columns of a rate: true for 5/6. -/
def ldpcRows (rate : Bool) : Nat := if rate then 4 else 12
def ldpcCols (rate : Bool) : Nat := 24 - ldpcRows rate

/-- Information bits of a codeword. -/
def ldpcK (rate : Bool) : Nat := 96 * ldpcCols rate

/-- Information column `j` has a block in row `i` (Table 4-6a). -/
def infoBlock (rate : Bool) (i j : Nat) : Bool := if rate then decide ((i + 4 - j % 4) % 4 < 3) else i % 3 == j % 3

/-- Shift of information block (i, j). -/
def infoShift (i j : Nat) : Nat := (37 * i * j + 11 * j + 5 * i) % 96

/-- The shift of parity column kb in row `i`, where it has a block. -/
def firstParity (rate : Bool) (i : Nat) : Option Nat :=
  if i = 0 ∨ i = ldpcRows rate - 1 then some 1 else if i = ldpcRows rate / 2 then some 0 else none

/-- The blocks of row `i`: column and shift. -/
def rowBlocks (rate : Bool) (i : Nat) : List (Nat × Nat) :=
  let kb := ldpcCols rate
  ((List.range kb).filter (infoBlock rate i)).map (fun j => (j, infoShift i j))
    ++ (match firstParity rate i with | some s => [(kb, s)] | none => [])
    ++ (if i = 0 then [] else [(kb + i, 0)])
    ++ (if i + 1 < ldpcRows rate then [(kb + 1 + i, 0)] else [])

/-- Column `j` of a codeword: its 96 bits. -/
def column (w j : Nat) : Nat := (w >>> (96 * j)) % 2 ^ 96

/-- The 96 × 96 identity shifted right by `s`, times a column: row r takes bit (r + s) mod 96. -/
def rot (x s : Nat) : Nat := ((x >>> s) ||| (x <<< (96 - s))) % 2 ^ 96

/-- The sum of some blocks of a row over a codeword. -/
def blockSum (w : Nat) (l : List (Nat × Nat)) : Nat := l.foldl (fun a b => a ^^^ rot (column w b.1) b.2) 0

/-- Row `i` of the syndrome of a codeword. -/
def syndrome (rate : Bool) (w i : Nat) : Nat := blockSum w (rowBlocks rate i)

/-- A codeword has a zero syndrome. -/
def codeOk (rate : Bool) (w : Nat) : Bool := (List.range (ldpcRows rate)).all fun i => syndrome rate w i == 0

/-- The information part of a row's sum. -/
def infoSum (rate : Bool) (u i : Nat) : Nat :=
  blockSum u (((List.range (ldpcCols rate)).filter (infoBlock rate i)).map fun j => (j, infoShift i j))

/-- The part of a row's sum that information and parity column kb give. -/
def rowSum (rate : Bool) (u p0 i : Nat) : Nat :=
  infoSum rate u i ^^^ (match firstParity rate i with | some s => rot p0 s | none => 0)

/-- Parity column kb: the sum of all rows' information parts, since its two blocks of shift 1 cancel. -/
def parityFirst (rate : Bool) (u : Nat) : Nat := (List.range (ldpcRows rate)).foldl (fun a i => a ^^^ infoSum rate u i) 0

/-- Parity column kb + 1 + t: row by row, each row fixes the next column. -/
def parityNext (rate : Bool) (u p0 : Nat) : Nat → Nat
  | 0 => rowSum rate u p0 0
  | t + 1 => rowSum rate u p0 (t + 1) ^^^ parityNext rate u p0 t

/-- The codeword of k information bits: the bits, then the parity columns in order. -/
def ldpcEncode (rate : Bool) (info : Nat) : Nat :=
  let u := info % 2 ^ ldpcK rate
  let p0 := parityFirst rate u
  (List.range (ldpcRows rate - 1)).foldl (fun w t => w + parityNext rate u p0 t * 2 ^ (ldpcK rate + 96 * (t + 1))) (u + p0 * 2 ^ ldpcK rate)

/-! ## The data stream (R103, R106) -/

/-- `n` bits of the generator x¹⁰ + x³ + 1 from a register whose bit 0 is the newest: each bit is the sum of those 3 and 10 places before it (log 115). -/
def scrambler : Nat → Nat → Nat → Nat → Nat
  | 0, _, _, acc => acc
  | n + 1, i, st, acc =>
    let b := (st >>> 2 ^^^ st >>> 9) % 2
    scrambler n (i + 1) ((2 * st + b) % 1024) (acc + b * 2 ^ i)

/-- The scrambling string, from a register of ones. -/
def scrambling (n : Nat) : Nat := scrambler n 0 1023 0

/-- Codewords of a MAC frame. -/
def codewordsOf (rate : Bool) (mac : List Byte) : Nat := (8 * mac.length + ldpcK rate - 1) / ldpcK rate

/-- The scrambled stream of a MAC frame, bytes in ascending order, each least significant bit first, zero bits up to a whole block. -/
def dataStream (rate : Bool) (mac : List Byte) : Nat := ofLe mac ^^^ scrambling (codewordsOf rate mac * ldpcK rate)

/-- A string with bit b moved to position (97 b) mod 2,304. -/
def interleave (w : Nat) : Nat := (List.range 2304).foldl (fun a b => if bitAt w b then a + 2 ^ (97 * b % 2304) else a) 0

/-- The interleaved codewords of a MAC frame, one after the other. -/
def codedStream (rate : Bool) (mac : List Byte) : Nat :=
  (List.range (codewordsOf rate mac)).foldl
    (fun a c => a + interleave (ldpcEncode rate (dataStream rate mac >>> (ldpcK rate * c))) * 2 ^ (2304 * c)) 0

/-! ## Modes (R106, R107, Table 4-6) -/

/-- A mode: copies (0 for MINI and negotiated maps), rate, and the bits each active carrier takes, in ascending order of carriers. -/
structure LMode where
  copies : Nat
  rate : Bool
  loads : List (Nat × Nat)
deriving DecidableEq, Repr

/-- The mode of a TMI on a port; `map` is the negotiated map of TMI 3 to 30. -/
def modeOf (mask : BitVec 26) (tmi : Nat) (map : List Byte) : LMode :=
  let act := activeCarriers mask
  match tmi with
  | 0 => { copies := 6, rate := false, loads := act.map fun k => (k, 2) }
  | 1 => { copies := 4, rate := false, loads := act.map fun k => (k, 2) }
  | 2 => { copies := 0, rate := false, loads := act.map fun k => (k, 2) }
  | _ => { copies := 0, rate := mapRate map, loads := (act.map fun k => (k, loadBits (loadOf map (groupOf k)))).filter fun x => x.2 != 0 }

/-- Coded bits of a data symbol. -/
def LMode.perSymbol (m : LMode) : Nat := m.loads.foldl (fun n x => n + x.2) 0

/-- Data symbols of `c` codewords. -/
def LMode.symbols (m : LMode) (c : Nat) : Nat := (max m.copies 1 * 2304 * c + m.perSymbol - 1) / max m.perSymbol 1

/-- Codewords that NSYM data symbols hold. -/
def LMode.codewords (m : LMode) (nsym : Nat) : Nat := nsym * m.perSymbol / (max m.copies 1 * 2304)

/-- The interleaved bit that stream position `q` carries, of `big` bits in all: copy r of bit b goes to r·M + ((b + r·⌊M/R⌋) mod M), and the
positions beyond the copies repeat copy 0; without copies, none beyond the last bit. -/
def LMode.bitAtPos (m : LMode) (big q : Nat) : Option Nat :=
  if m.copies = 0 then (if q < big then some q else none)
  else
    let r := q / big
    if r < m.copies then some ((q % big + big - r * (big / m.copies) % big) % big) else some ((q - m.copies * big) % big)

/-! ## Constellations and symbols (R100, R106, R108) -/

/-- A carrier of a symbol: its number, its in-phase and quadrature levels as odd numbers, and its bits; the levels are scaled to unit mean power. -/
structure Tone where
  carrier : Nat
  re : Int
  im : Int
  load : Nat
deriving DecidableEq, Repr

/-- The number that a binary-reflected Gray code of `n` bits stands for. -/
def grayOf : Nat → Nat → Nat
  | 0, _ => 0
  | n + 1, g => let r := grayOf n (g / 2); 2 * r + (g % 2 + r) % 2

/-- A level of `n` label bits, first bit most significant: numbered in Gray order from the most negative (log 115). -/
def levelOf (n label : Nat) : Int := 2 * (grayOf n label : Int) - (2 ^ n - 1)

/-- A label of `n` bits from stream position `q` on, first bit most significant. -/
def labelAt (bit : Nat → Bool) (q n : Nat) : Nat := (List.range n).foldl (fun v i => 2 * v + flag (bit (q + i))) 0

/-- One carrier's tone: BPSK for one bit, else half the bits in phase and half in quadrature. -/
def toneOf (bit : Nat → Bool) (q : Nat) (x : Nat × Nat) : Tone :=
  if x.2 = 1 then { carrier := x.1, re := if bit q then -1 else 1, im := 0, load := 1 }
  else { carrier := x.1, re := levelOf (x.2 / 2) (labelAt bit q (x.2 / 2)), im := levelOf (x.2 / 2) (labelAt bit (q + x.2 / 2) (x.2 / 2)), load := x.2 }

/-- The tones of one symbol whose first bit is stream position `q`. -/
def symbolTones (bit : Nat → Bool) : Nat → List (Nat × Nat) → List Tone
  | _, [] => []
  | q, x :: l => toneOf bit q x :: symbolTones bit (q + x.2) l

/-- The data symbols of a MAC frame in a mode, without midambles. In the ROBO modes the in-phase bit of each carrier comes first. -/
def dataSymbols (m : LMode) (mac : List Byte) : List (List Tone) :=
  let c := codewordsOf m.rate mac
  let w := codedStream m.rate mac
  let bit := fun q => match m.bitAtPos (2304 * c) q with | some b => bitAt w b | none => false
  (List.range (m.symbols c)).map fun n => symbolTones bit (n * m.perSymbol) m.loads

/-- A midamble: BPSK +1 on every active carrier. -/
def midamble (mask : BitVec 26) : List Tone := (activeCarriers mask).map fun k => { carrier := k, re := 1, im := 0, load := 1 }

/-- Symbols with a midamble after every 16th, except after the last (R108). -/
def withMidambles (mid : List Tone) : Nat → List (List Tone) → List (List Tone)
  | _, [] => []
  | _, [x] => [x]
  | n, x :: l => if n % 16 = 15 then x :: mid :: withMidambles mid (n + 1) l else x :: withMidambles mid (n + 1) l

/-- The FC bit at position `q` of the two FC symbols: copy r of bit b is at 64 r + ((b + 11 r) mod 64), and positions from 384 on repeat f0 onward. -/
def fcBitAt (q : Nat) : Nat := if q < 384 then (q % 64 + 64 - 11 * (q / 64) % 64) % 64 else (q - 384) % 64

/-- The two FC symbols of 64 bits, f0 the highest. -/
def fcSymbols (mask : BitVec 26) (fc : BitVec 64) : List (List Tone) :=
  let act := activeCarriers mask
  let bit := fun q => fc.getMsbD (fcBitAt q)
  [symbolTones bit 0 (act.map fun k => (k, 1)), symbolTones bit act.length (act.map fun k => (k, 1))]

/-- Every symbol of a DATA frame after the preamble. -/
def frameSymbols (mask : BitVec 26) (fc : BitVec 64) (m : LMode) (mac : List Byte) : List (List Tone) :=
  fcSymbols mask fc ++ withMidambles (midamble mask) 0 (dataSymbols m mac)

/-! ## Reception: FC (R101) -/

/-- A soft value: a signed byte, positive for bit 0 (log 116). -/
def softOf (b : Byte) : Int := b.toInt

/-- Soft value `q` of a frame's values packed as bytes. -/
def softAt (soft q : Nat) : Int := softOf (BitVec.ofNat 8 (soft >>> (8 * q)))

/-- The FC that the soft values of 2·N_ACT positions give when all copies are combined, f0 the highest. -/
def fcCombine (soft : List Byte) : BitVec 64 :=
  let v := ofLe soft
  let n := soft.length
  let sum := fun b => (List.range n).foldl (fun a q => if fcBitAt q = b then a + softAt v q else a) (0 : Int)
  BitVec.ofNat 64 ((List.range 64).foldl (fun a b => 2 * a + flag (decide (sum b < 0))) 0)

/-! ## Reception: data (R105, R107, R112, R113) -/

/-- The sum of the soft values of interleaved bit `b` over every copy. -/
def combined (m : LMode) (big len soft b : Nat) : Int :=
  if m.copies = 0 then softAt soft b
  else
    let one := (List.range m.copies).foldl (fun a r => a + softAt soft (r * big + (b + r * (big / m.copies)) % big)) (0 : Int)
    if b < len - m.copies * big then one + softAt soft (m.copies * big + b) else one

/-- The hard decisions on a codeword's soft values. -/
def hard (llr : Nat → Int) : Nat := (List.range 2304).foldl (fun a b => if llr b < 0 then a + 2 ^ b else a) 0

/-- The least magnitude of a list but its element `k`, and whether the rest holds an odd number of negative values. -/
def othersMin (q : List Rat) (k : Nat) : Rat × Bool :=
  let rest := q.eraseIdx k
  let mag := fun (x : Rat) => if x < 0 then -x else x
  ((rest.foldl (fun (a : Option Rat) x => some (match a with | none => mag x | some y => min y (mag x))) none).getD 0,
   (rest.filter fun x => decide (x < 0)).length % 2 == 1)

/-- One check of normalised min-sum with factor 0.75: variables' values, and the check's old messages (R105). -/
def checkNode (vars : List Nat) (st : Array Rat) (old : List Rat) : Array Rat × List Rat :=
  let q := (vars.zip old).map fun x => st.getD x.1 0 - x.2
  let new := (List.range q.length).map fun k => let o := othersMin q k; if o.2 then -(3 / 4 * o.1) else 3 / 4 * o.1
  ((vars.zip (q.zip new)).foldl (fun (a : Array Rat) x => a.setIfInBounds x.1 (x.2.1 + x.2.2)) st, new)

/-- One layer: the 96 checks of block row `i`. -/
def layerPass (rate : Bool) (i : Nat) (st : Array Rat × Array (List Rat)) : Array Rat × Array (List Rat) :=
  let bs := rowBlocks rate i
  (List.range 96).foldl (fun st r =>
    let vars := bs.map fun b => 96 * b.1 + (r + b.2) % 96
    let old := st.2.getD (96 * i + r) []
    let a := checkNode vars st.1 (if old.isEmpty then vars.map fun _ => 0 else old)
    (a.1, st.2.setIfInBounds (96 * i + r) a.2)) st

/-- Iterations of the layered decoder until the syndrome is zero or none is left. -/
def minSum (rate : Bool) : Nat → Array Rat × Array (List Rat) → Option Nat
  | 0, st =>
    let w := (List.range 2304).foldl (fun a b => if st.1.getD b 0 < 0 then a + 2 ^ b else a) 0
    if codeOk rate w then some w else none
  | n + 1, st =>
    let w := (List.range 2304).foldl (fun a b => if st.1.getD b 0 < 0 then a + 2 ^ b else a) 0
    if codeOk rate w then some w
    else minSum rate n ((List.range (ldpcRows rate)).foldl (fun st i => layerPass rate i st) st)

/-- A codeword of soft values decoded within 12 iterations; none when it fails (R105). Its arithmetic is exact (log 116). -/
def ldpcDecode (rate : Bool) (llr : Nat → Int) : Option Nat :=
  let w := hard llr
  if codeOk rate w then some w
  else minSum rate 12 (((List.range 2304).map fun b => (llr b : Rat)).toArray, Array.replicate (96 * ldpcRows rate) [])

/-- The codewords of a frame of `nsym` symbols, whose soft values are packed in `soft`. -/
def decodeAll (m : LMode) (nsym soft : Nat) : List (Option Nat) :=
  let c := m.codewords nsym
  (List.range c).map fun i =>
    ldpcDecode m.rate fun b => combined m (2304 * c) (nsym * m.perSymbol) soft (2304 * i + 97 * b % 2304)

/-- The stream bytes of decoded codewords, descrambled; a failed codeword's bits read 0. -/
def streamBytes (m : LMode) (l : List (Option Nat)) : List Byte :=
  let k := ldpcK m.rate
  let n := l.length * k
  let v := (l.foldr (fun w a => (w.getD 0) % 2 ^ k + 2 ^ k * a) 0) ^^^ scrambling n
  le (n / 8) v

/-! ## Erasure (R112, R113) -/

/-- A window of energy `e` lies 12 dB or more above the noise floor `n`: e ≥ 10^1.2 n. -/
def above12 (e n : Nat) : Bool := decide (0 < e ∧ 10 ^ 6 * n ^ 5 ≤ e ^ 5)

/-- An error power `e` lies 6 dB or more above the mean of four, whose sum is `sum`: 4 e ≥ 10^0.6 sum. -/
def above6 (e sum : Nat) : Bool := decide (0 < e ∧ 10 ^ 3 * sum ^ 5 ≤ (4 * e) ^ 5)

/-- A symbol is erased by the impulse rule: a window above the floor, or a word with OVF = 1. With no floor measured yet no window is (log 116). -/
def impulse (floor : Option Nat) (ovf : Bool) (y : LineSym) : Bool :=
  ovf || match floor with | some n => y.win.any (above12 · n) | none => false

/-- What erasure makes of a frame's data symbols: for each, whether it contributes; the symbols erased by impulses, the channel steps, the
noise floor, which only symbols not erased move. -/
structure Erasure where
  keep : List Bool := []
  erased : Nat := 0
  steps : Nat := 0
  floor : Option Nat
  /-- Error powers of the last four symbols not erased, newest first; the number of the symbol; a step is waiting for a midamble. -/
  last : List Nat := []
  n : Nat := 0
  stepped : Bool := false
deriving DecidableEq, Repr

/-- The next symbol; `ovf` tells whether it holds a word with OVF = 1. Before four symbols have been seen no step is declared (log 116). -/
def Erasure.next (e : Erasure) (ovf : Bool) (y : LineSym) : Erasure :=
  let stepped := e.stepped && e.n % 16 != 0
  let imp := impulse e.floor ovf y
  let step := !imp && !stepped && decide (e.last.length = 4) && above6 y.err (e.last.foldl (· + ·) 0)
  let off := imp || stepped || step
  { keep := e.keep ++ [!off], erased := e.erased + flag imp, steps := e.steps + flag step
    floor := if off then e.floor else some (Config.noiseFloor (e.floor.getD 0) y.win)
    last := if off then e.last else (y.err :: e.last).take 4, n := e.n + 1, stepped := stepped || step }

/-- Erasure over a frame: `ovf n` tells whether symbol n holds a word with OVF = 1. -/
def erase (floor : Option Nat) (ovf : Nat → Bool) (l : List LineSym) : Erasure :=
  l.foldl (fun e y => e.next (ovf e.n) y) { floor := floor }

/-- The soft values of a frame with zeros for erased symbols, packed as bytes; a symbol short of values is filled with zeros. -/
def softFrame (m : LMode) (keep : List Bool) (l : List LineSym) : Nat :=
  ofLe ((l.zip keep).flatMap fun x => if x.2 then (x.1.llr ++ zeroBytes m.perSymbol).take m.perSymbol else zeroBytes m.perSymbol)

end Sys2Proof.Machine
end

