-- ==== Sys2Proof/Machine/RadioTx.lean ====
section
/-! DEFINITION. Radio transmission: launch checks, duty budgets, acks, beacons, slot and campaign frames (R32, R46, R54 to R64, R81 to R89). -/

namespace Sys2Proof.Machine

/-! ## Launch checks (Table 3-8) -/

/-- The port may transmit at an air instant: not TXSTOP, not under R14 nor on the backup oscillator, and this unit transmits. -/
def State.mayTx (s : State) (p at_ : Nat) : Bool :=
  let x := s.rport p
  x.desc.enable && x.txlink && !x.txstop && s.coresRun && !s.withholds && s.glb.mode != .standby && s.activeUnit
    && !s.glb.clkSrc && (!x.stopR14 || match x.resumeAt with | some r => decide (r ≤ at_) | none => false)

/-- The R14 stop of a port ends once transmission has resumed. -/
def RPort.resumed (x : RPort) (at_ : Nat) : RPort :=
  match x.resumeAt with
  | some r => if r ≤ at_ then { x with stopR14 := false, resumeAt := none } else x
  | none => x

/-- Most frames on the air at once within an interval. -/
def peak (l : List Air) (a b : Nat) : Nat :=
  let pts := a :: (l.map (·.start)).filter fun x => decide (a < x ∧ x < b)
  pts.foldl (fun m t => max m (l.filter fun x => decide (x.start ≤ t ∧ t < x.stop)).length) 0

/-- BMISS counting begins at a port's first start 3 ms after RXLINK, or 10 ms after enable with the link still down (Table 3-11). -/
def RPort.begins (x : RPort) (ns : Nat) : Bool :=
  x.counting || (if x.rxlink then decide (x.linkUpAt + 3000000 ≤ ns) else decide (x.enabledAt + 10000000 ≤ ns))

/-- Bits of a beacon on the air (R35, R58). -/
def beaconBits (recovery : Bool) : Nat := if recovery then 680 else 456

/-- The beacon whose lanes are reserved: the one that is built, else the port's next one if it can be sent as things stand: its start, and
whether it is a recovery beacon (R83). -/
def State.nextBeacon (s : State) (p : Nat) : Option (Nat × Bool) :=
  let x := s.rport p
  match x.beacon with
  | some b => some (b.start, b.recovery)
  | none =>
    let t := sfNext x.desc.sfcode x.desc.sofs (s.nowNs + x.desc.txPath + 1) * 1000000000
    if x.begins t && x.linked && s.tmu.valid && s.mayTx p t then some (t, x.bloss) else none

/-- Frames on the air on a port, ramps included, with the lanes that a beacon reserves over its airtime (R83). -/
def State.onAir (s : State) (p : Nat) : List Air :=
  (s.rport p).air ++ match s.nextBeacon p with
    | some (t, r) => (s.rport p).desc.dl.map fun i => { lane := i, start := t - rampNs, stop := t + airNs 1 (beaconBits r) + rampNs }
    | none => []

/-! ## Duty budgets (R88, R89) -/

/-- A bucket's length, ns. -/
def RDesc.bucketNs (d : RDesc) : Nat := d.win * 1000000000 / 64

/-- Airtime of the last 64 buckets of a budget. -/
def RPort.dutyUsed (x : RPort) (g now : Nat) : Nat :=
  let k := now / max x.desc.bucketNs 1
  ((x.duty.get [] g).filter fun e => decide (k < e.1 + 64)).foldl (fun n e => n + e.2) 0

/-- Charges a budget in the bucket of now: a frame's whole airtime falls in the bucket of its launch point (log 112). -/
def RPort.charge (x : RPort) (now g ns : Nat) : RPort :=
  let k := now / max x.desc.bucketNs 1
  let m : Map Nat := (x.duty.get [] g).filter fun e => decide (k < e.1 + 64)
  { x with duty := x.duty.ins g (m.put 0 k (m.get 0 k + ns)) }

/-- A frame fits a budget; 10,000 means no limit. -/
def RPort.fits (x : RPort) (now g ns : Nat) : Bool :=
  decide (x.desc.units g = 10000) ||
    decide (x.dutyUsed g now + x.desc.reserve g + ns ≤ x.desc.limitNs (x.desc.units g))

/-- Intervals in order of their starts. -/
def insIv (u : Nat × Nat) : List (Nat × Nat) → List (Nat × Nat)
  | [] => [u]
  | v :: l => if u.1 ≤ v.1 then u :: v :: l else v :: insIv u l

/-- TXEN time that an interval adds to what is on the air already. -/
def RPort.newTxen (x : RPort) (a b : Nat) : Nat :=
  let iv := x.air.map fun y => (y.start - txenNs, y.stop + txenNs)
  let cover := fun (acc : Nat × Nat) (y : Nat × Nat) =>
    let lo := max y.1 acc.2
    let hi := min y.2 b
    if lo < hi then (acc.1 + (hi - lo), hi) else acc
  b - a - ((iv.foldr insIv []).foldl cover (0, a)).1

/-- The budgets a frame draws on: its group and the port, with the airtime charged to each. -/
def RPort.needs (x : RPort) (lane a b : Nat) : List (Nat × Nat) :=
  [(lane / 8, b - a), (8, x.newTxen (a - txenNs) (b + txenNs))]

/-- The first denial of a budget within a window posts DUTY_LIMIT (R89). -/
def dutyDenied (p g : Nat) (s : State) : State :=
  let x := s.rport p
  match x.denied.find g with
  | some t => if s.nowNs < t + x.desc.win * 1000000000 then s
    else postNotice 0x0203 1 (le 1 p ++ le 1 g) (updRport p (fun x => { x with denied := x.denied.ins g s.nowNs }) s)
  | none => postNotice 0x0203 1 (le 1 p ++ le 1 g) (updRport p (fun x => { x with denied := x.denied.ins g s.nowNs }) s)

/-- Denials of the budgets that a frame does not fit. -/
def denyAll (p : Nat) (needs : List (Nat × Nat)) (s : State) : State :=
  needs.foldl (fun s n => if (s.rport p).fits s.nowNs n.1 n.2 then s else dutyDenied p n.1 s) s

/-- A frame goes on the air on one lane, its preamble and sync word first: charged, recorded, emitted (R35, R82, R88). -/
def putOnAir (p lane rate start : Nat) (needs : List (Nat × Nat)) (bytes : List Byte) (s : State) : State :=
  let now := s.nowNs
  emit (.radio p (p * 64 + lane) rate start bytes)
    (updRport p (fun x =>
      let y := needs.foldl (fun y n => y.charge now n.1 n.2) (x.resumed start)
      let old := y.air.filter fun z => decide (now < z.stop + 1000000000)
      { y with air := airOf lane rate start bytes :: old }) s)

/-! ## Acks (R32, R46) -/

/-- An ack with WAKE = 1 ends on the air at `stop`: it names a wake superframe of its meter (R55). An entry is forgotten after 600 s, when no
superframe it names is left. -/
def wakeNamed (ma : BitVec 64) (stop : Nat) (s : State) : State :=
  { s with rla.wakes := (ma, stop) :: s.rla.wakes.filter fun w => decide (s.nowNs < w.2 + 600000000000) }

/-- An ack at its launch point passes the checks of Table 3-8 in order, or is dropped. -/
def launchAck (k : Nat) (a : Ack) (s : State) : State :=
  let p := k / 64
  let x := s.rport p
  let stop := a.at_ + airNs a.rate (48 + 8 * a.frame.length)
  let from_ := a.at_ - rampNs
  let till := stop + rampNs
  let needs := x.needs (k % 64) from_ till
  let overlap := x.air.any fun y => y.lane == k % 64 && decide (y.start + rampNs < stop ∧ a.at_ + rampNs < y.stop)
  if !s.mayTx p a.at_ then count (kRla k 7) s
  else if overlap then count (kRla k 8) (count (kRla k 7) s)
  else if x.desc.ntx ≤ peak (s.onAir p) from_ till then count (kRla k 7) s
  else if needs.any (fun n => !x.fits s.nowNs n.1 n.2) then count (kRla k 9) (denyAll p needs s)
  else
    let s1 := countIf a.dup (kRla k 6) (count (kRla k 5) (putOnAir p (k % 64) a.rate a.at_ needs (dnAir a.frame) s))
    if a.wake then wakeNamed a.ma stop s1 else s1

/-- ACK_LAUNCH: the lane's next ack reaches its launch point; past it, it is dropped and never goes out late (R32). -/
def execAckLaunch (lane : Fin 256) (s : State) : Result :=
  onClock s (
    let k := lane.val
    match s.rla.acks.get [] k with
    | [] => s
    | a :: l =>
      let path := (s.rport (k / 64)).desc.txPath
      if s.nowNs + path < a.at_ then s
      else
        let s1 := { s with rla.acks := s.rla.acks.put [] k l }
        if a.at_ + 1000 < s.nowNs + path then count (kRla k 7) s1 else launchAck k a s1)

/-! ## Slots: what waits in a chain (R54, R55, R64, R87) -/

/-- The slot, lane index and superframe phase of a meter (R54): C of its MA. -/
def meterC (ma : BitVec 64) : Nat := crc32 (le 8 ma.toNat)

/-- A queued frame's meter has this slot and downlink lane index on the port. -/
def RDesc.slotOf (d : RDesc) (ma : BitVec 64) (slot lane : Nat) : Bool :=
  meterC ma % sfSlots d.sfcode == slot && meterC ma / 2 ^ 24 % d.dl.length == lane

/-- A DN_CMD frame ready for the air; `none` when its command is stripped, and the state with the strip counted (R316). -/
def dnFrame (f : DnFrame) (more : Bool) (s : State) : Option (List Byte) :=
  let e := s.entry f.mh
  match fillCommand e f.body s, (s.keySlot e.dkslot.toNat).admits e.kepoch.toNat with
  | some cmd, none =>
    let key := frameKey (meterRoot (s.keySlot e.dkslot.toNat).key e.ma) e.kepoch.toNat
    some (sealFrame key (0xA + Config.dnRrate % 3 * 64 + flag more * 2048) e.ma f.fcnt.toNat e.kepoch.toNat 5 cmd)
  | _, _ => none

/-- A DN_MCAST frame of a campaign under an epoch's key (R64). -/
def mcastFrame (c : Camp) (epoch : Nat) (key pt : List Byte) (more : Bool) : List Byte :=
  sealFrame key (0xB + 64 + flag more * 2048) c.group c.gfcnt.toNat epoch 6 pt

/-- Where a slot chain stands: the slot, its start and end, and the instant its next frame starts, ns (R54). -/
structure Chain where
  slot : Nat
  sf : Nat
  start : Nat
  stop : Nat
  next : Nat

/-- The chain that holds an air instant on a downlink lane. -/
def RPort.chainAt (x : RPort) (lane at_ : Nat) : Chain :=
  let d := x.desc
  let sf := sfStart d.sfcode d.sofs (at_ / 1000000000)
  let k := (at_ - sf * 1000000000) / 250000000
  let start := sf * 1000000000 + k * 250000000
  let first := if k = 0 then start + airNs 1 (beaconBits (decide (x.heldTill = (sf + sfLen d.sfcode) * 1000000000))) + 2000000 else start
  let last := x.chainEnd.get 0 lane
  { slot := k, sf := sf, start := start, stop := start + 250000000, next := if start < last then last + 2000000 else first }

/-- Downlinks of a port go out at an air instant: not while BLOSS = 1, nor in the superframe of a recovery beacon (R60), nor in bring-up, whose
reduced service sends beacons and acks (R93). -/
def State.downOpen (s : State) (p at_ : Nat) : Bool :=
  let x := s.rport p
  x.desc.enable && !x.bloss && decide (x.heldTill ≤ at_) && s.glb.mode != .bringup

/-- A superframe of port `p` in which a meter listens: N mod W = (C >> 16) mod W, or one that a WAKE ack named (R54, R55). -/
def State.wakes? (s : State) (p : Nat) (ma : BitVec 64) (sf : Nat) : Bool :=
  let d := (s.rport p).desc
  let w := 2 ^ min 8 (Config.wakeLog2 ma sf)
  s.rla.wakes.any (fun e => e.1 == ma && sfNext d.sfcode d.sofs (e.2 + 1000000000) == sf) ||
    sfNumber d.sfcode d.sofs sf % w == meterC ma / 2 ^ 16 % w

/-- A queued frame may go out in a chain's slot (R54, R87). -/
def State.slotReady (s : State) (p lane : Nat) (c : Chain) (f : DnFrame) : Bool :=
  (s.rport p).desc.slotOf f.ma c.slot lane && s.wakes? p f.ma c.sf && decide (f.queuedAt + 3000000 ≤ c.start)

/-- The pump's next frame in a campaign slot, ordered 3 ms before the slot starts: first the control frames of the first such slot, then a
block (R87, R437, R438). -/
def campPick (p lane : Nat) (c : Chain) (s : State) : Option (Camp × List Byte × (State → State)) :=
  let d := (s.rport p).desc
  let first := sfSlots d.sfcode - d.cslots
  let place := p * 4 + lane
  let sf := sfNumber d.sfcode d.sofs c.sf
  let by_ := c.start - 3000000
  if c.slot < first then none
  else match (if c.slot = first then s.ctlNext p place sf by_ else none) with
  | some (id, cp) => some (cp, if cp.st = 4 then campActivate id cp else campAbort id, ctlSent id place sf cp)
  | none => (s.blockNext p by_).map fun e => (e.2, campBlock e.1 e.2 s, blockSent e.1 p e.2)

/-- A campaign frame that starts at `from_` fits the slot. -/
def campFits (p lane : Nat) (c : Chain) (from_ : Nat) (s : State) : Bool :=
  match campPick p lane c s with
  | some (_, pt, _) => decide (from_ + airNs 1 (256 + 8 * pt.length) ≤ c.stop)
  | none => false

/-- A unicast frame but `but` waits that can start at `from_` and still fits the slot. -/
def State.unicastFits (s : State) (p lane : Nat) (c : Chain) (from_ : Nat) (but : Option (BitVec 32)) : Bool :=
  (s.rport p).queue.any fun g =>
    but != some g.ticket && s.slotReady p lane c g && decide (from_ + airNs 1 (256 + 8 * g.body.length) ≤ c.stop)

/-- MORE of a frame after which the next one would start at `from_` (R54). -/
def State.slotMore (s : State) (p lane : Nat) (c : Chain) (from_ : Nat) (but : Option (BitVec 32)) : Bool :=
  s.downOpen p from_ && (s.unicastFits p lane c from_ but || campFits p lane c from_ s)

/-! ## Beacons (R58, R60, R85, R86) -/

/-- A failure to send a beacon, once BMISS counting has begun (R86). -/
def beaconFail (p : Nat) (s : State) : State :=
  let x := s.rport p
  if !x.counting then s
  else
    let n := min (x.bmiss + 1) 15
    let s1 := updRport p (fun x => { x with bmiss := n }) s
    if 3 ≤ n ∧ !x.bloss then
      postNotice 0x0201 0 (le 1 p ++ le 1 n) (updRport p (fun x => { x with bloss := true }) s1)
    else s1

/-- The beacon body (Table 2-18). -/
def beaconBody (p tS epoch : Nat) (recovery more : Bool) (s : State) : List Byte :=
  let d := (s.rport p).desc
  let fc := (if recovery then 0xD else 0xC) + 64 + flag more * 2048
  let ul := (d.lanesOf 1).foldl (fun v i => v + 2 ^ i) 0
  let dl := (List.range 4).map fun i => Byte.of (d.dl.getD i 0xFF)
  let bf := if s.campFlag p then setBit d.bflags 1 else d.bflags
  le 2 fc ++ le 4 d.site.toNat ++ le 8 tS ++ le 1 d.sfcode ++ le 1 d.sofs ++ le 1 ((d.dl.length - 1) * 4 + p) ++ le 1 epoch
    ++ le 8 ul ++ dl ++ le 1 d.cslots ++ le 1 bf ++ le 2 d.utcofs.toNat ++ zeroBytes 6

/-- The beacon frame: body, tag, CRC (R58). -/
def beaconFrame (key body : List Byte) : List Byte :=
  let b := body ++ (cmac key body).take 8
  b ++ le 2 (crc16 b)

/-- The chain of slot 0 of the superframe that starts at second `tS`, whose beacon is to be built (R54). -/
def slotZero (tS : Nat) (recovery : Bool) : Chain :=
  let start := tS * 1000000000
  { slot := 0, sf := tS, start := start, stop := start + 250000000, next := start + airNs 1 (beaconBits recovery) + 2000000 }

/-- The key of the beacon of second `tS` on a port, with its epoch (R58, R315). -/
def State.beaconKey (s : State) (d : RDesc) (tS : Nat) : Option (Nat × List Byte) :=
  (s.portEpoch d.sfcode d.sofs tS).bind fun e => (s.epochKey e.1 e.2).map fun k => (e.1, k)

/-- BEACON_BUILD: the port's cycle-table row fires 2 ms before the launch point (R85, R346, R348). The one beacon goes out on every downlink
lane: its MORE is set when a frame follows on any of them (log 113). -/
def execBeaconBuild (port : Fin 4) (s : State) : Result :=
  onClock s (
    let p := port.val
    let x := s.rport p
    let r := s.row p
    if !x.desc.enable || !r.due (2000000 + x.desc.txPath) s.nowNs then s
    else
      let s1 := bcastAdvance (passRow p 1 s.tmu.valid s)
      let start := r.tS * 1000000000
      if !x.begins start then s1
      else
        let s2 := updRport p (fun x => { x with counting := true }) s1
        if !s.tmu.valid then beaconFail p s2
        else match s2.beaconKey x.desc r.tS with
        | none => beaconFail p s2
        | some (e, key) =>
          let c := slotZero r.tS x.bloss
          let more := (List.range x.desc.dl.length).any fun l => s2.slotMore p l c c.next none
          let b : Beacon := { start := start, recovery := x.bloss, frame := beaconFrame key (beaconBody p r.tS e x.bloss more s2) }
          updRport p (fun x => { x with beacon := some b }) s2)

/-- BEACON_LAUNCH: the built beacon goes out on every downlink lane, or counts as a failure (R83, R86). A loss of the RX link does not stop it:
RXLINK = 0 is a failure only on a port whose link has not been up since it was enabled (R91, Table 3-9; log 108). -/
def execBeaconLaunch (port : Fin 4) (s : State) : Result :=
  onClock s (
    let p := port.val
    let x := s.rport p
    match x.beacon with
    | none => s
    | some b =>
      if s.nowNs + x.desc.txPath < b.start then s
      else
        let s0 := updRport p (fun x => { x with beacon := none }) s
        if !(s.mayTx p b.start && x.linked && s.tmu.valid) then beaconFail p s0
        else
          let stop := b.start + airNs 1 (beaconBits b.recovery)
          let s1 := x.desc.dl.foldl (fun s i =>
            putOnAir p i 1 b.start ((s.rport p).needs i (b.start - rampNs) (stop + rampNs)) (beaconAir b.recovery b.frame) s) s0
          if b.recovery then
            postNotice 0x0202 1 (le 1 p ++ zeroBytes 7 ++ le 8 (b.start / 1000000000))
              (updRport p (fun x => { x with bmiss := 0, bloss := false, heldTill := b.start + sfLen x.desc.sfcode * 1000000000 }) s1)
          else updRport p (fun x => { x with bmiss := 0 }) s1)

/-! ## Slot and campaign frames (R54, R55, R64, R87) -/

/-- Takes a frame out of a port's queue. -/
def unqueue (p : Nat) (ticket : BitVec 32) (s : State) : State :=
  updRport p (fun x => { x with queue := x.queue.filter fun f => f.ticket != ticket }) s

/-- A slot or campaign frame at its launch point (Table 3-8): sent, held, or moved to the next chain position. -/
def launchSlot (p lane at_ : Nat) (frame : List Byte) (sent : State → State) (s : State) : State :=
  let x := s.rport p
  let li := x.desc.dl.getD lane 0
  let k := p * 64 + li
  let stop := at_ + airNs 1 (48 + 8 * frame.length)
  let needs := x.needs li (at_ - rampNs) (stop + rampNs)
  let atEnd := updRport p (fun x => { x with chainEnd := x.chainEnd.ins lane stop })
  if !s.mayTx p at_ then s
  else if x.desc.ntx ≤ peak (s.onAir p) (at_ - rampNs) (stop + rampNs) then atEnd s
  else if needs.any (fun n => !x.fits s.nowNs n.1 n.2) then count (kRla k 9) (denyAll p needs s)
  else sent (atEnd (putOnAir p li 1 at_ needs (dnAir frame) s))

/-- A unicast frame reaches its launch point. -/
def launchUnicast (p lane : Nat) (c : Chain) (f : DnFrame) (s : State) : State :=
  let after := c.next + airNs 1 (256 + 8 * f.body.length) + 2000000
  match dnFrame f (s.slotMore p lane c after (some f.ticket)) s with
  | none => count (kWkv 15) (unqueue p f.ticket s)
  | some frame =>
    if c.stop < c.next + airNs 1 (48 + 8 * frame.length) then s
    else launchSlot p lane c.next frame (unqueue p f.ticket) s

/-- A campaign frame reaches its launch point in a campaign slot, once no unicast frame of the slot is left that fits (R64, R437, R438). -/
def launchCampaign (p lane : Nat) (c : Chain) (s : State) : State :=
  if s.unicastFits p lane c c.next none then s
  else match s.beaconKey (s.rport p).desc c.sf, campPick p lane c s with
  | some (e, key), some (cp, pt, sent) =>
    let stop := c.next + airNs 1 (256 + 8 * pt.length)
    if c.stop < stop then s
    else launchSlot p lane c.next (mcastFrame cp e key pt ((sent s).slotMore p lane c (stop + 2000000) none)) sent s
  | _, _ => s

/-- A beacon or an ack of the port whose launch point comes no later waits to be launched: it goes first (R83). -/
def State.outranked (s : State) (p at_ : Nat) : Bool :=
  (match (s.rport p).beacon with | some b => decide (b.start ≤ at_) | none => false) ||
    s.rla.acks.any fun e => e.1 / 64 == p && e.2.any fun a => decide (a.at_ ≤ at_)

/-- DOWNLINK_LAUNCH: on downlink lane index `lane`, the frame with `ticket`, or the campaign pump's, reaches the launch point of air instant `at_`
(R54, R60, R83, R87). -/
def execDownlinkLaunch (port : Fin 4) (lane : Fin 4) (at_ : Nat) (ticket : Option (BitVec 32)) (s : State) : Result :=
  onClock s (
    let p := port.val
    let x := s.rport p
    let c := x.chainAt lane.val at_
    let now := s.nowNs + x.desc.txPath
    if !s.downOpen p at_ || decide (x.desc.dl.length ≤ lane.val ∨ at_ ≠ c.next ∨ now < at_ ∨ at_ + 1000 < now) || s.outranked p at_ then s
    else match ticket with
    | none => launchCampaign p lane.val c s
    | some t =>
      match firstWhere (fun (f : DnFrame) => f.ticket == t && s.slotReady p lane.val c f) x.queue with
      | some f => launchUnicast p lane.val c f s
      | none => s)

/-! ## Queue calls (R272) -/

/-- What both queue calls check of a command for a meter (R316). -/
def dnCheck (mh : Nat) (cmd : List Byte) (s : State) : Option Nat :=
  if keyCommandBad cmd then some stBadArg
  else if (fillCommand (s.entry mh) cmd s).isNone then some stKeyAbsent
  else none

/-- RLA_QUEUE. -/
def engRlaQueue (t : Nat) (b : List Byte) (s : State) : EngOut :=
  let p := field b 0 1
  let n := field b 2 1
  let mh := field b 4 4
  if 3 < p ∨ field b 1 1 ≠ 0 ∨ n = 0 ∨ 96 < n ∨ !zeros b 3 1 ∨ 2 ^ 20 ≤ mh then .fail s stBadArg
  else match s.readBuf t (field b 16 8) n with
  | .error st => .fail s st
  | .ok cmd =>
    if s.entryBad mh then .fail s stPoisoned
    else if (s.entry mh).st = .free then .fail s stNotFound
    else match dnCheck mh cmd s with
    | some st => .fail s st
    | none =>
      let x := s.rport p
      if 1024 ≤ x.queue.length then .fail s stNoSpace
      else
        let f : DnFrame := { ticket := x.nextTicket, mh := mh, ma := (s.entry mh).ma, fcnt := BitVec.ofNat 32 (field b 8 4), body := cmd,
                             queuedAt := s.nowNs }
        { st := updRport p (fun x => { x with queue := x.queue ++ [f], nextTicket := x.nextTicket + 1 }) s
          status := stOk, out := [(12, le 4 x.nextTicket.toNat)] }

/-- RLA_WITHDRAW. -/
def engRlaWithdraw (_t : Nat) (b : List Byte) (s : State) : EngOut :=
  let p := field b 0 1
  let tk := BitVec.ofNat 32 (field b 4 4)
  if 3 < p ∨ !zeros b 1 3 ∨ !zeros b 8 8 then .fail s stBadArg
  else if (s.rport p).queue.any (fun f => f.ticket == tk) then .ok (unqueue p tk s)
  else .fail s stNotFound

/-- RLA_QUEUE. -/
def execRlaQueue (t : Fin 256) (pi : Fin 8) (rt ra : Fin 32) (s : State) : Result := .next (ecall t pi rt ra 0x21 24 engRlaQueue s)

/-- RLA_WITHDRAW. -/
def execRlaWithdraw (t : Fin 256) (pi : Fin 8) (rt ra : Fin 32) (s : State) : Result := .next (ecall t pi rt ra 0x22 16 engRlaWithdraw s)

end Sys2Proof.Machine
end

