-- ==== Sys2Proof/Machine/LineTx.lean ====
section
/-! DEFINITION. Line ports: frame control, modes, MAC frames, transmission and its retries (R99 to R119, R123 to R126). -/

namespace Sys2Proof.Machine

/-! ## Ports -/

/-- Line port `p`. -/
def State.lport (s : State) (p : Nat) : LPort := s.lm.ports.get {} p

/-- The state with line port `p` changed by `f`. -/
def updLport (p : Nat) (f : LPort → LPort) (s : State) : State :=
  { s with lm.ports := s.lm.ports.put {} p (f (s.lport p)) }

/-- Line ports run in SERVICE and STANDBY, not in the reduced service of bring-up (R129, R384). -/
def State.lineRuns (s : State) : Bool := s.coresRun && s.glb.mode != .bringup

/-- Line port `p` receives. -/
def State.lineRx (s : State) (p : Nat) : Bool := s.lineRuns && (s.lport p).desc.enable && (s.lport p).rxlink && (s.lport p).calAt.isNone

/-- Line port `p` may transmit: it hears the medium it contends for (log 119), no standby, TX link enabled, no TXSTOP, no stop under R14, no calibration. -/
def State.lineTx (s : State) (p : Nat) : Bool :=
  let x := s.lport p
  s.lineRx p && x.txlink && !x.txstop && !s.withholds && s.glb.mode != .standby && s.activeUnit && !s.glb.clkSrc &&
    (!x.stopR14 || match x.resumeAt with | some r => decide (r ≤ s.nowNs) | none => false)

/-- Superframe number of a line port at an instant. -/
def State.lineSf (s : State) (p : Nat) : Nat :=
  let d := (s.lport p).desc
  sfNumber d.sfcode d.sofs (sfStart d.sfcode d.sofs s.nowS)

/-! ## Frame control (R101) -/

/-- CRC-8 of seven field bytes, most significant first. -/
def crc8 (l : List Byte) : Nat := crcM 8 0x07 0 l

/-- The eight FC bytes of a 56-bit field value, f0 first. -/
def fcBytes (v : Nat) : List Byte := let b := (le 7 v).reverse; b ++ le 1 (crc8 b)

/-- The 56 field bits of a received FC whose CRC-8 is good. -/
def fcOpen (fc : BitVec 64) : Option Nat :=
  let v := fc.toNat / 256
  if crc8 ((le 7 v).reverse) = fc.toNat % 256 then some v else none

/-- Fields of Tables 4-3 and 4-4. -/
def fcType (v : Nat) : Nat := bits v 55 53
def fcTmi (v : Nat) : Nat := bits v 52 48
def fcNsym (v : Nat) : Nat := bits v 47 37
def fcDst (v : Nat) : Nat := bits v 36 21
def fcSrc (v : Nat) : Nat := bits v 20 5
def fcRspreq (v : Nat) : Bool := bitAt v 4
def fcCode (v : Nat) : Nat := bits v 52 49
def fcSugg (v : Nat) : Nat := bits v 48 44

/-- FC of a DATA frame from the part. -/
def fcData (tmi nsym dst : Nat) (rspreq : Bool) : Nat :=
  tmi * 2 ^ 48 + nsym * 2 ^ 37 + dst * 2 ^ 21 + 0xFFFF * 2 ^ 5 + 16 * flag rspreq

/-- FC of a RESPONSE from the part. -/
def fcResp (code sugg dst : Nat) : Nat := 2 ^ 53 + code * 2 ^ 49 + sugg * 2 ^ 44 + dst * 2 ^ 21 + 0xFFFF * 2 ^ 5

/-- Reserved LSAs (Table 4-5). -/
def lsaReserved (l : Nat) : Bool := decide (0x4000 ≤ l ∧ l ≤ 0xFFFC)

/-- Duration of a frame, ns (R108), and of a RESPONSE. -/
def frameNs (nsym : Nat) : Nat := 102400 + 25600 * (nsym + (nsym - 1) / 16)
def respNs : Nat := 102400

/-! ## Tone maps and modes (R99, R107, R109, R111) -/

/-- Data symbols of a MAC frame in a mode. -/
def symbolsOf (mask : BitVec 26) (tmi : Nat) (map mac : List Byte) : Nat :=
  let m := modeOf mask tmi map
  m.symbols (codewordsOf m.rate mac)

/-- Data symbols of a one-codeword frame in a mode. -/
def oneCodeword (mask : BitVec 26) (tmi : Nat) (map : List Byte) : Nat := (modeOf mask tmi map).symbols 1

/-- Link state of a neighbour. -/
def LPort.link (x : LPort) (k : Nat) : LLink := x.links.get {} k

/-- Route entry of an LSA. -/
def LPort.route (x : LPort) (l : Nat) : Route := x.routes.get {} l

/-- The negotiated map a link holds: TXTMI of the repeater's route entry, 0 for none. -/
def LPort.heldMap (x : LPort) (k : Nat) : Nat := if k < 0x4000 ∧ (x.route k).depth = 1 then (x.route k).txtmi else 0

/-- One step down the ladder. -/
def modeDown (m : Nat) : Nat := if 3 ≤ m then 2 else m - 1

/-- One step up: to a held map from MINI. -/
def modeUp (m held : Nat) : Nat := if m < 2 then m + 1 else if m = 2 ∧ held ≠ 0 then held else m

/-- The link after a successful attempt. -/
def LLink.success (held : Nat) (k : LLink) : LLink :=
  let h := (true :: k.hist).take 16
  if 16 ≤ k.succs + 1 then { mode := modeUp k.mode held, fails := 0, succs := 0, hist := h }
  else { k with fails := 0, succs := k.succs + 1, hist := h }

/-- The link after a failed attempt that counts: two in a row drop the mode. -/
def LLink.failure (k : LLink) : LLink :=
  let h := (false :: k.hist).take 16
  if 2 ≤ k.fails + 1 then { mode := modeDown k.mode, fails := 0, succs := 0, hist := h }
  else { k with fails := k.fails + 1, succs := 0, hist := h }

/-- ETT of a link in units of 10 µs: frame and RESPONSE time over the delivery ratio of its last 16 attempts. -/
def LLink.ett (k : LLink) (ns : Nat) : Nat :=
  let good := (k.hist.filter id).length
  if good = 0 then 0xFFFF else min 0xFFFF ((ns + 182400) * k.hist.length / good / 10000)

/-! ## MAC frames (R115) -/

/-- MAC bytes before the FCS. -/
def macHead (mtype dir : Nat) (path : List Nat) (lseq : Nat) (body : List Byte) : List Byte :=
  le 1 (mtype * 16 + dir * 8) ++ le 1 (path.length * 32) ++ le 2 lseq ++ zeroBytes 4 ++ path.flatMap (le 2) ++ body

/-- A MAC frame with its FCS. -/
def withFcs (b : List Byte) : List Byte := b ++ le 4 (crc32 b)

/-- NHOP, MTYPE, DIR, PATH and body of a MAC frame whose FCS is good. -/
def macNhop (m : List Byte) : Nat := bits (field m 1 1) 7 5
def macType (m : List Byte) : Nat := field m 0 1 / 16
def macDir (m : List Byte) : Bool := bitAt (field m 0 1) 3
def macPath (m : List Byte) : List Nat := (List.range (macNhop m)).map fun i => field m (8 + 2 * i) 2
def macBody (m : List Byte) : List Byte := (m.take (m.length - 4)).drop (8 + 2 * macNhop m)

/-- The FCS is good. -/
def fcsOk (m : List Byte) : Bool := decide (12 ≤ m.length) && field m (m.length - 4) 4 == crc32 (m.take (m.length - 4))

/-- The PATH to a repeater by its parents, nearest the part first; none when an entry is not ACTIVE or 6 are exceeded (R123, R124). -/
def LPort.pathTo (x : LPort) : Nat → Nat → Option (List Nat)
  | 0, _ => none
  | n + 1, l =>
    let e := x.route l
    if e.st ≠ 2 ∨ e.depth = 0 ∨ e.depth = 7 then none
    else if e.parent = 0xFFFF then some [l]
    else (x.pathTo n e.parent).map fun p => p ++ [l]

/-- The PATH to a meter, from its entry's last repeater. -/
def LPort.meterPath (x : LPort) (e : DirEntry) : Option (List Nat) :=
  if e.direct then some [] else x.pathTo 6 (e.link.toNat % 2 ^ 14)

/-- The LSA of the meter itself, if it is a repeater; 0xFFFD for an end meter. -/
def LPort.lsaOf (x : LPort) (ma : BitVec 64) : Nat :=
  match firstWhere (fun (e : Nat × Route) => e.2.ma == ma && e.2.st != 0) x.routes with
  | some e => e.1
  | none => 0xFFFD

/-! ## Sending -/

/-- AIFS, ns, and initial CW of a class (Table 4-16). -/
def aifs (cls : Nat) : Nat := 40000 * cls
def cwInit (cls : Nat) : Nat := match cls with | 0 => 4 | 1 => 8 | _ => 16

/-- Back-off slots that have run down on a medium idle since `since` by `now`, for a frame of class `cls` (R116). -/
def slotsIdle (since cls now : Nat) : Nat := (now - (since + 200000 + aifs cls)) / 40000

/-- A waiting frame when the medium turns busy: its back-off keeps the slots that have run down. -/
def LTx.freeze (since now : Nat) (f : LTx) : LTx := { f with used := min f.slots (f.used + slotsIdle since f.cls now) }

/-- The medium is busy until `till`: every back-off freezes, and LM_BUSY counts what no earlier span has covered (R116). -/
def markBusy (p from_ till : Nat) (s : State) : State :=
  let old := (s.lport p).busyUntil
  let a := max from_ old
  if till ≤ a then s
  else countN (kLm p 13) (till / 1000 - a / 1000)
    (updLport p (fun x => { x with busyUntil := till, queue := x.queue.map (LTx.freeze old from_) }) s)

/-- A frame with a fresh draw of its back-off: uniform from 0 to CW − 1, a value of the random source (R116). -/
def drawSlots (f : LTx) (s : State) : LTx × State :=
  let (n, s1) := drawFree s
  ({ f with slots := n % max f.cw 1, used := 0 }, s1)

/-- A transmission joins those of the port that have not ended. -/
def putLair (p : Nat) (a : LAir) (s : State) : State :=
  updLport p (fun x => { x with air := a :: x.air.filter fun y => decide (s.nowNs < y.stop) }) s

/-- A MAC frame whose first sample is on the wire at `start`; one that asks for a RESPONSE is awaited (R117). -/
def startTx (p start : Nat) (f : LTx) (s : State) : State :=
  let x := s.lport p
  let map := (x.route f.dst).txmap
  let nsym := symbolsOf x.desc.mask f.tmi map f.mac
  let rsp := f.dst != 0xFFFE
  let stop := start + frameNs nsym
  let fc := fcBytes (fcData f.tmi nsym f.dst rsp)
  let s1 := putLair p { start := start, stop := stop, gain := x.desc.txgain, mask := x.desc.mask, fc := BitVec.ofNat 64 (ofLe fc.reverse)
                        tmi := f.tmi, map := map, mac := some f.mac } (markBusy p start (stop + (if rsp then 182400 else 0)) s)
  count (kLm p 7) (emit (.line p (fc ++ f.mac)) (updLport p (fun x => { x with tx := if rsp then some (f, stop) else none }) s1))

/-! ## TX words (R96 to R100, R108) -/

/-- Peak sample by TXGAIN: floor of 8,191 × 2^(−TXGAIN/4) (Table 4-19). -/
def peakSample (gain : Nat) : Nat :=
  [8191, 6887, 5791, 4870, 4095, 3443, 2895, 2435, 2047, 1721, 1447, 1217, 1023, 860, 723, 608].getD gain 0

/-- The symbols after the preamble of a transmission: FC, and the data symbols of a DATA frame. -/
def LAir.symbols (a : LAir) : List (List Tone) :=
  match a.mac with
  | some m => frameSymbols a.mask a.fc (modeOf a.mask a.tmi a.map) m
  | none => fcSymbols a.mask a.fc

/-- Sample `n` of a transmission: eight SYNCP periods, two SYNCM, then symbols of the last 256 IFFT samples and all 1,024 (R100). -/
def LAir.sample (a : LAir) (n : Nat) : Int :=
  let v := if n < 2048 then Config.lineSync a.gain (n % 256)
    else if n < 2560 then -Config.lineSync a.gain (n % 256)
    else
      let j := (n - 2560) % 1280
      let tones := a.symbols.getD ((n - 2560) / 1280) []
      Config.lineIfft a.gain (tones.map fun t => (t.carrier, t.re, t.im, t.load)) (if j < 256 then 768 + j else j - 256)
  clamp (peakSample a.gain) v

/-- A TX word of Table 4-2: sample, TXEN, and the parity bit that makes the count of ones even (R97). -/
def lineWordOf (v : Int) (txen : Bool) : BitVec 16 :=
  let w := (BitVec.ofInt 14 v).toNat * 4 + flag txen * 2
  BitVec.ofNat 16 (w + popN 16 w % 2)

/-- The TX word of line port `p` now at the TX balls; none while the port sends no words. Its sample is 0 and TXEN 0 but for the samples of a
transmission, under TXSTOP, under R14, on a unit that is not active and while the AFE calibrates (R96 to R98, R128, R384; log 115). -/
def State.lineTxWord (s : State) (p : Nat) : Option (BitVec 16) :=
  let x := s.lport p
  let t := s.nowNs + x.desc.txlat
  let quiet := x.txstop || s.glb.clkSrc || s.glb.mode == .standby || !s.activeUnit || (x.calAt.isSome && x.calBusy)
    || (x.stopR14 && match x.resumeAt with | some r => decide (t < r) | none => true)
  if !x.desc.enable || !x.txlink || s.glb.mode == .off || s.glb.mode == .vigil || s.stest.frozen then none
  else match firstWhere (fun (a : LAir) => decide (a.start ≤ t ∧ t < a.stop)) x.air with
  | some a => some (if quiet then lineWordOf 0 false else lineWordOf (a.sample ((t - a.start) / 20)) true)
  | none => some (lineWordOf 0 false)

/-- The two data lines of a word in link-clock period `k`, rising edge then falling, D1 then D0, and FRM (R96). -/
def linkPeriod (w : BitVec 16) (k : Fin 4) : (Bool × Bool) × (Bool × Bool) × Bool :=
  ((w.getLsbD (15 - 4 * k), w.getLsbD (14 - 4 * k)), (w.getLsbD (13 - 4 * k), w.getLsbD (12 - 4 * k)), k == 0)

/-- What a cut of the TX link leaves of a transmission. -/
def LPort.cut (t : Nat) (x : LPort) : LPort :=
  { x with air := x.air.filterMap fun a => if t + x.desc.txlat ≤ a.start then none else some { a with stop := min a.stop (t + x.desc.txlat) } }

/-- Takes the port's next link sequence number. -/
def takeLseq (p : Nat) (s : State) : Nat × State :=
  ((s.lport p).lseq.toNat, updLport p (fun x => { x with lseq := x.lseq + 1 }) s)

/-- A frame for a meter along its PATH: MAC bytes, first hop, link and mode. -/
def toMeter (p : Nat) (f : LTx) (e : DirEntry) (path : List Nat) (mac : List Byte) (s : State) : LTx :=
  let x := s.lport p
  let own := x.lsaOf e.ma
  let dst := path.head?.getD own
  let link := if dst = 0xFFFD then 65536 + f.mh else dst
  { f with mac := mac, dst := dst, link := link, tmi := (x.link link).mode }

/-- A DN_CMD: the meter frame without CRC-16, its command filled in; `none` when it is stripped or its key is gone (R316). -/
def dnLine (f : LTx) (s : State) : Option (List Byte) :=
  let e := s.entry f.mh
  match fillCommand e f.body s, (s.keySlot e.dkslot.toNat).admits e.kepoch.toNat with
  | some cmd, none =>
    let key := frameKey (meterRoot (s.keySlot e.dkslot.toNat).key e.ma) e.kepoch.toNat
    let b := sealFrame key 0xA e.ma f.fcnt.toNat e.kepoch.toNat 5 cmd
    some (b.take (b.length - 2))
  | _, _ => none

/-- The frame key of a meter for an epoch, where its slot admits it. -/
def State.meterKey (s : State) (mh epoch : Nat) : Option (List Byte) :=
  match epochSlot (s.entry mh) epoch with
  | none => none
  | some (sl, _) => if ((s.keySlot sl).admits epoch).isSome then none else some (frameKey (meterRoot (s.keySlot sl).key (s.entry mh).ma) epoch)

/-- Builds a waiting frame at its first attempt; `none` when nothing goes out. -/
def buildLine (p : Nat) (f : LTx) (s : State) : Option LTx × State :=
  let x := s.lport p
  let e := s.entry f.mh
  match f.kind with
  | 0 =>
    match x.meterPath e, dnLine f s with
    | some path, some b =>
      let (n, s1) := takeLseq p s
      (some (toMeter p f e path (withFcs (macHead 0 1 path n b)) s1), s1)
    | some _, none => (none, count (kWkv 15) s)
    | none, _ => (none, s)
  | 1 =>
    match x.meterPath e, s.meterKey f.mh (field f.body 8 1) with
    | some path, some key =>
      if x.mcnt = 0xFFFFFFFF then (none, s)
      else
        let s0 := updLport p (fun x => { x with mcnt := x.mcnt + 1 }) s
        let (n, s1) := takeLseq p s0
        let body := f.body.take 9 ++ le 4 (x.mcnt.toNat + 1) ++ f.body.drop 13
        let h := macHead 3 1 path n body
        (some (toMeter p f e path (withFcs (h ++ (cmac key h).take 8)) s1), s1)
    | _, _ => (none, s)
  | 3 =>
    let d := x.desc
    match (s.portEpoch d.sfcode d.sofs f.start).bind fun e => (s.epochKey e.1 e.2).map fun k => (e.1, k) with
    | none => (none, s)
    | some (ep, key) =>
      let (n, s1) := takeLseq p s
      let tofs := (s.nowNs + d.txlat - f.start * 1000000000) / 1000
      let body := le 4 d.site ++ le 8 f.start ++ le 4 tofs ++ le 1 d.sfcode ++ le 1 p ++ le 4 d.mask.toNat ++ le 2 0 ++ le 1 ep ++ zeroBytes 3
      let h := macHead 1 1 [] n body
      (some { f with mac := withFcs (h ++ (cmac key h).take 8), dst := 0xFFFE, tmi := 0 }, s1)
  | 4 =>
    let d := x.desc
    let q := 4 + p
    match (s.portEpoch d.sfcode d.sofs s.nowS).bind fun e => (s.epochKey e.1 e.2).map fun k => (e.1, k) with
    | none => (none, s)
    | some (ep, key) =>
      let out := fun (c : Camp) (pt : List Byte) (after : State → State) =>
        let (n, s1) := takeLseq p s
        let b := mcastFrame c ep key pt false
        (some { f with mac := withFcs (macHead 0 1 [] n (b.take (b.length - 2))), dst := 0xFFFE, tmi := 1 }, after s1)
      match s.ctlNext q (4 * q) (s.lineSf p) s.nowNs with
      | some (id, c) => out c (if c.st = 4 then campActivate id c else campAbort id) (ctlSent id (4 * q) (s.lineSf p) c)
      | none =>
        match s.blockNext q s.nowNs with
        | some (id, c) => out c (campBlock id c s) (blockSent id q c)
        | none => (none, s)
  | _ => (some f, s)

/-- The frame whose back-off runs out: lowest class, oldest first. -/
def LPort.nextTx (x : LPort) : Option LTx :=
  match firstWhere (fun (f : LTx) => f.cls == 0) x.queue, firstWhere (fun (f : LTx) => f.cls == 1) x.queue with
  | some f, _ => some f
  | none, some f => some f
  | none, none => x.queue.head?

/-- The exchange under way has ended: no frame in reception, no RESPONSE owed or awaited. -/
def LPort.quiet (x : LPort) : Bool := x.rx.isNone && x.resp.isNone && x.tx.isNone

/-- LINE_BACKOFF_EXPIRE: the medium has been idle for CIFS + AIFS and what is left of the back-off, and the queued frame starts an attempt
(R116, R119). Idle time before the frame was queued counts (log 120). -/
def execLineBackoffExpire (port : Fin 4) (s : State) : Result :=
  .next (
    let p := port.val
    let x := s.lport p
    match x.nextTx with
    | none => s
    | some f =>
      if !(s.lineTx p && x.quiet) || decide (s.nowNs < x.busyUntil + 200000 + aifs f.cls + 40000 * (f.slots - f.used)) then s
      else
        let s1 := updLport p (fun x => { x with queue := x.queue.erase f }) s
        let at_ := s.nowNs + x.desc.txlat
        if !f.mac.isEmpty then
          let fresh := (x.link f.link).mode
          startTx p at_ (if f.dst = 0xFFFE then f else { f with tmi := fresh }) s1
        else match buildLine p f s1 with
        | (some g, s2) => startTx p at_ g s2
        | (none, s2) => s2)

/-! ## RESPONSEs to the part (R111, R117, R119, R126) -/

/-- A link changes; a mode drop is counted. -/
def setLink (p k : Nat) (l : LLink) (s : State) : State :=
  countIf (decide (l.mode < ((s.lport p).link k).mode) && l.hist.head? == some false) (kLm p 9)
    (updLport p (fun x => { x with links := x.links.put {} k l }) s)

/-- Path ETT of a repeater under the part after an attempt. -/
def ettUpdate (p k : Nat) (s : State) : State :=
  let x := s.lport p
  if k < 0x4000 ∧ (x.route k).st ≠ 0 ∧ (x.route k).depth = 1 then
    let l := x.link k
    let ns := frameNs (oneCodeword x.desc.mask l.mode (x.route k).txmap)
    updLport p (fun x => { x with routes := x.routes.put {} k { x.route k with ett := l.ett ns } }) s
  else s

/-- A frame through a route entry exhausted its retries; at FAILS = 4 the entry retires (R126). -/
def routeFail (p l : Nat) (s : State) : State :=
  let x := s.lport p
  let e := x.route l
  if 0x4000 ≤ l ∨ e.st = 0 then s
  else
    let n := min 7 (e.fails + 1)
    let e1 := { e with fails := n, st := if n = 4 then 3 else e.st }
    let s1 := updLport p (fun x => { x with routes := x.routes.put {} l e1 }) s
    if n = 4 then postNotice 0x0303 1 (le 1 p ++ zeroBytes 1 ++ le 2 l) s1 else s1

/-- A success clears FAILS. -/
def routeGood (p l : Nat) (s : State) : State :=
  if 0x4000 ≤ l ∨ ((s.lport p).route l).st = 0 then s
  else updLport p (fun x => { x with routes := x.routes.put {} l { x.route l with fails := 0 } }) s

/-- A failed attempt: three link retries, then the frame is given up (R119). `counts`: it counts for R111. -/
def txFailed (p : Nat) (f : LTx) (counts : Bool) (s : State) : State :=
  let s0 := updLport p (fun x => { x with tx := none }) s
  let s1 := if counts then ettUpdate p f.link (setLink p f.link ((s.lport p).link f.link).failure s0) else s0
  if f.tries < 3 then
    let (g, s2) := drawSlots { f with tries := f.tries + 1, cw := min 64 (2 * f.cw) } s1
    updLport p (fun x => { x with queue := g :: x.queue }) s2
  else routeFail p f.dst s1

/-- A SUGG sets the mode at once when it is 0 to 2 or the held map (R111). -/
def LLink.suggest (sugg held : Nat) (k : LLink) : LLink := if sugg ≤ 2 ∨ (sugg = held ∧ held ≠ 0) then { k with mode := sugg } else k

/-- LINE_RESPONSE_RECEIVE: a RESPONSE that starts 78 to 84 µs after the part's frame end is acted on by its CODE (Table 4-9). NOROUTE ends the
attempts and counts neither as a failure nor as a success of the link (log 121). -/
def execLineResponseReceive (port : Fin 4) (s : State) : Result :=
  onCores s (
    let p := port.val
    let x := s.lport p
    match x.rx, x.tx with
    | some r, some (f, stop) =>
      match r.fc.bind fcOpen with
      | none => s
      | some v =>
        let s0 := updLport p (fun x => { x with rx := none }) s
        if fcType v ≠ 1 then s
        else if fcDst v ≠ 0xFFFF ∨ 7 ≤ fcCode v ∨ r.preAt < stop + 78000 ∨ stop + 84000 < r.preAt then s0
        else
          let held := x.heldMap f.link
          let s1 := updLport p (fun x => { x with links := x.links.put {} f.link ((x.link f.link).suggest (fcSugg v) held) }) s0
          let code := fcCode v
          if code ≤ 2 then
            let s2 := updLport p (fun x => { x with tx := none }) s1
            routeGood p f.dst (ettUpdate p f.link (setLink p f.link (((s1.lport p).link f.link).success held) s2))
          else if code = 6 then updLport p (fun x => { x with tx := none }) s1
          else txFailed p f (code == 4) s1
    | _, _ => s)

/-- LINE_RESPONSE_WINDOW_EXPIRE: no RESPONSE has started by 84 µs after the part's frame end (R117). -/
def execLineResponseWindowExpire (port : Fin 4) (s : State) : Result :=
  onCores s (
    let p := port.val
    let x := s.lport p
    match x.tx with
    | none => s
    | some (f, stop) =>
      let coming := match x.rx with | some r => decide (stop + 78000 ≤ r.preAt ∧ r.preAt ≤ stop + 84000) | none => false
      if coming || decide (s.nowNs < stop + 84000) then s
      else txFailed p f true (count (kLm p 8) s))

end Sys2Proof.Machine
end

