-- ==== Sys2Proof/Machine/LineRx.lean ====
section
/-! DEFINITION. Line ports: sample link, reception, answers, beacons, tone maps, calibration (R96 to R129). -/

namespace Sys2Proof.Machine

/-! ## Sample link (R97, R98) -/

/-- LINE_SAMPLE_WORD: one RX word, with its FRM; while the AFE calibrates its words are ignored (R98, R128). A word that fails parity leaves AFEF,
its run of 64 and its 10 ms as they are, and a word counts toward the 64 good ones with FRM in place (log 109). -/
def execLineSampleWord (port : Fin 4) (word : BitVec 16) (frm : Bool) (s : State) : Result :=
  .next (
    let p := port.val
    if !(s.lport p).desc.enable || !s.lineRuns then s
    else
      let w := word.toNat
      let good := popN 16 w % 2 == 0
      let cal := (s.lport p).calAt.isSome
      if cal && (good && bitAt w 2) then updLport p (fun x => { x with calBusy := true, calSeen := true }) s
      else if cal && (s.lport p).calBusy && !good then s
      else
        let f := bitAt w 1
        let s1 := countIf (good && bitAt w 3) (kLm p 15) (countIf (!good) (kLm p 14) s)
        updLport p (fun x =>
          let n := x.wordNo + 1
          let old := x.parityAt.filter fun k => decide (n < k + 50000)
          { x with
            wordNo := n
            calBusy := if good then bitAt w 2 else x.calBusy
            goodRun := if good && frm then x.goodRun + 1 else 0
            missFrm := if frm then 0 else x.missFrm + 1
            parityAt := if good then old else old ++ [n]
            chanIn := if good then BitVec.ofNat 12 (bits w 15 4) else 0
            ovfAt := if good && bitAt w 3 then
              (s.nowNs - x.desc.rxlat) :: x.ovfAt.filter (fun t => decide (s.nowNs < t + 100000000)) else x.ovfAt
            afef := if good then f else x.afef
            afefRun := if !good then x.afefRun else if f then x.afefRun + 1 else 0
            afefClearAt := if !good then x.afefClearAt else if f then none else some (x.afefClearAt.getD s.nowNs) }) s1)

/-- LINE_LINK_UP: 64 consecutive good words. -/
def execLineLinkUp (port : Fin 4) (s : State) : Result :=
  .next (
    let x := s.lport port.val
    if !x.desc.enable || x.rxlink || !s.lineRuns || decide (x.goodRun < 64) then s
    else updLport port.val (fun x => { x with rxlink := true, linkUpAt := s.nowNs, parityAt := [], missFrm := 0 }) s)

/-- LINE_LINK_LOSS: FRM missing in 4 consecutive words, or 64 words of 50,000 failing parity; a frame in reception is abandoned,
and an answer that is owed is not sent, since the port does not transmit with its link down (log 119). -/
def execLineLinkLoss (port : Fin 4) (s : State) : Result :=
  onCores s (
    let x := s.lport port.val
    if x.rxlink && (decide (4 ≤ x.missFrm) || decide (64 ≤ x.parityAt.length)) then
      postNotice 0x0301 0 (le 1 port.val)
        (updLport port.val (fun x => { x with rxlink := false, linkUpAt := s.nowNs, goodRun := 0, rx := none, resp := none }) s)
    else s)

/-- LINE_LINK_REALIGN: alignment is retried 100 ms after the last attempt. -/
def execLineLinkRealign (port : Fin 4) (s : State) : Result :=
  onCores s (
    let x := s.lport port.val
    if x.desc.enable && !x.rxlink && decide (x.linkUpAt + 100000000 ≤ s.nowNs) then
      updLport port.val (fun x => { x with linkUpAt := s.nowNs, goodRun := 0, missFrm := 0, parityAt := [] }) s
    else s)

/-- LINE_TX_STOP: 64 consecutive words with AFEF = 1. -/
def execLineTxStop (port : Fin 4) (s : State) : Result :=
  onCores s (
    let x := s.lport port.val
    if x.desc.enable && !x.txstop && decide (64 ≤ x.afefRun) then
      postNotice 0x0302 0 (le 1 port.val) (updLport port.val (fun x => { x.cut s.nowNs with txstop := true }) s)
    else s)

/-- LINE_TX_RESUME: AFEF has read 0 for 10 ms. -/
def execLineTxResume (port : Fin 4) (s : State) : Result :=
  onCores s (
    let x := s.lport port.val
    match x.afefClearAt with
    | some c => if x.txstop && decide (c + 10000000 ≤ s.nowNs) then updLport port.val (fun x => { x with txstop := false }) s else s
    | none => s)

/-! ## Reception (R101, R105, R112 to R118) -/

/-- LINE_PREAMBLE_DETECT: a preamble whose first sample was at the RX balls at `pre`, and on the wire RXLAT before; the medium is busy through
its FC (R116, R117). -/
def execLinePreambleDetect (port : Fin 4) (pre : Nat) (s : State) : Result :=
  .next (
    let p := port.val
    if !s.lineRx p then s
    else
      let at_ := pre - (s.lport p).desc.rxlat
      markBusy p at_ (at_ + respNs) (count (kLm p 0) (updLport p (fun x => { x with rx := some { preAt := at_ } }) s)))

/-- An FC failure keeps the medium busy until EIFS (R116). -/
def fcFail (p pre : Nat) (s : State) : State :=
  markBusy p pre (pre + 1250000) (count (kLm p 1) (updLport p (fun x => { x with rx := none }) s))

/-- Whether the part receives a DATA frame with this FC: its own LSA or broadcast, no reserved LSA (R102). -/
def fcForPart (v : Nat) : Bool := (fcDst v == 0xFFFF || fcDst v == 0xFFFE) && !lsaReserved (fcSrc v)

/-- LINE_FC_RECEIVE: the soft values of the two FC symbols, whose copies are combined; the fields fix the busy span and whether reception goes
on (R101, R102, R110, R116). -/
def execLineFcReceive (port : Fin 4) (soft : List Byte) (s : State) : Result :=
  .next (
    let p := port.val
    let x := s.lport p
    let fc := fcCombine (soft.take (2 * nAct x.desc.mask))
    match x.rx with
    | none => s
    | some r =>
      if !s.lineRx p || r.fc.isSome then s
      else match fcOpen fc with
      | none => fcFail p r.preAt s
      | some v =>
        if fcType v = 1 then
          let extra := if fcCode v = 1 ∨ fcCode v = 2 then 40000 else 0
          markBusy p r.preAt (r.preAt + respNs + extra)
            (updLport p (fun x => { x with rx := if x.tx.isSome && !lsaReserved (fcSrc v) && !lsaReserved (fcDst v) then some { r with fc := some fc } else none }) s)
        else
          let noMap := fcForPart v && decide (3 ≤ fcTmi v) && (x.rxmaps.find (fcTmi v)).isNone
          if fcType v ≠ 0 ∨ fcNsym v = 0 ∨ fcTmi v = 31 ∨ noMap then fcFail p r.preAt s
          else
            let stop := r.preAt + frameNs (fcNsym v)
            markBusy p r.preAt (stop + (if fcRspreq v then 182400 else 0))
              (updLport p (fun x => { x with rx := if fcForPart v then some { r with fc := some fc } else none }) s))

/-- The RESPONSE code of an ingest outcome (Table 5-8). -/
def respCode (code : Nat) : Nat := match code with | 0 => 1 | 1 => 2 | 2 => 2 | 3 => 3 | _ => 4

/-- An uplink METER frame reaches ingest, here or on the chip that owns its meter; the RESPONSE's code and ack follow (R117, R118, R379). -/
def lineMeter (p fe : Nat) (m : List Byte) (r : LResp) (s : State) : LResp × State :=
  let f := macBody m
  let n := macNhop m
  let direct := n == 0
  let lsa := (macPath m).getLastD 0
  let lenOk := f.length == 24 + frPlen f
  let la := s.latch (frMa f) (frKepoch f)
  let src := 256 + p
  let owner := s.ownerChip (frMa f)
  if s.cas.pair = 3 then (r, shadowJudge f src fe (some (direct, p, lsa)) (some r) la false s)
  else if headerCode f lenOk true = 0 ∧ s.hk.isSome ∧ owner ≠ s.cas.chipId then
    let away := (s.portTo owner).isNone
    ({ r with code := 3, ackreq := frAckreq f, remote := !away }, forwardFrame src 0 fe direct lsa owner f s)
  else
    let j := judgeCounted f true lenOk src fe (some (direct, p, lsa)) la false s
    let link := if direct ∧ r.dst = 0xFFFD then match j.mh with | some h => 65536 + h | none => r.link else r.link
    ({ r with
      code := respCode j.code, ackreq := frAckreq f, link := link
      ack := j.ack.map fun o => o.frame.take (o.frame.length - 2) }, j.st)

/-- An NBR_REPORT with a good tag, MTIME within 600 s and NN ≤ 8 (R125); a repeater's path ETT follows its parent's (log 64). -/
def nbrReport (p : Nat) (m : List Byte) (s : State) : State :=
  let b := macBody m
  let ma := BitVec.ofNat 64 (field b 0 8)
  let nn := field b 13 1
  let head := m.take (m.length - 12)
  let d := nearTime (field b 9 4) s.nowS - (s.nowS : Int)
  match s.lookup ma with
  | none => s
  | some mh =>
    match s.meterKey mh (field b 8 1) with
    | none => s
    | some key =>
      let x := s.lport p
      let l := x.lsaOf ma
      let e := x.route l
      if 8 < nn ∨ 600 < d.natAbs ∨ b.length ≠ 22 + 10 * nn ∨ (cmac key head).take 8 ≠ slice m (m.length - 12) 8 then s
      else if 0x4000 ≤ l ∨ e.parent = 0xFFFF then s
      else
        let up := x.route e.parent
        match firstWhere (fun i => field b (14 + 10 * i) 8 == up.ma.toNat) (List.range nn) with
        | some i => updLport p (fun x => { x with routes := x.routes.put {} l { e with ett := min 0xFFFF (up.ett + field b (22 + 10 * i) 2) } }) s
        | none => s

/-- A TMAP from a repeater installs its map in the route entry; code 7 anywhere discards it (R109 to R111). -/
def tmapReceive (p src : Nat) (m : List Byte) (s : State) : State :=
  let b := macBody m
  let tmi := field b 0 1
  let map := slice b 1 10
  let x := s.lport p
  let e := x.route src
  if macNhop m ≠ 0 ∨ b.length ≠ 11 ∨ tmi < 3 ∨ 30 < tmi ∨ !mapValid map ∨ 0x4000 ≤ src ∨ e.st = 0 then s
  else
    let move := fun (k : LLink) => if 3 ≤ k.mode then { k with mode := tmi } else k
    updLport p (fun x => { x with
      routes := x.routes.put {} src { e with txmap := map, txtmi := tmi }
      links := x.links.put {} src (move (x.link src)) }) s

/-- A route entry has been heard: an assigned one becomes ACTIVE (R124, R272). -/
def routeHeard (p l : Nat) (s : State) : State :=
  let e := (s.lport p).route l
  if 0x4000 ≤ l ∨ e.st = 0 then s
  else updLport p (fun x => { x with
    routes := x.routes.put {} l { e with st := if e.st = 1 then 2 else e.st, heard := s.lineSf p % 65536 } }) s

/-- The MAC frame that a descrambled stream begins with: its length follows from its header, and for a reserved MTYPE it is the shortest with a
good FCS that only zeros follow (R103, Tables 4-10 to 4-14; log 122). -/
def macCut (b : List Byte) : List Byte :=
  let n := 8 + 2 * macNhop b
  match macType b with
  | 0 => b.take (n + 28 + field b (n + 15) 1)
  | 1 => b.take (n + 40)
  | 2 => b.take (n + 26 + 10 * field b (n + 13) 1)
  | 3 => b.take (n + 29 + 2 * field b (n + 16) 1)
  | 4 => b.take (n + 15)
  | _ => match firstWhere (fun k => fcsOk (b.take k) && (b.drop k).all (· == 0#8)) (List.range (b.length + 1)) with
    | some k => b.take k
    | none => b

/-- What the receiver makes of a frame's symbols: erasure, decoding, descrambling (R103 to R107, R112, R113). -/
structure LDecode where
  mac : List Byte
  failed : Nat
  er : Erasure
deriving DecidableEq, Repr

/-- The decoding of the frame in reception on port `p` from its data symbols. -/
def State.lineDecode (s : State) (p : Nat) (syms : List LineSym) : Option LDecode :=
  let x := s.lport p
  x.rx.bind fun r => (r.fc.bind fcOpen).map fun v =>
    let m := modeOf x.desc.mask (fcTmi v) (x.rxmaps.get [] (fcTmi v))
    let l := (syms ++ List.replicate (fcNsym v) ({ llr := [] } : LineSym)).take (fcNsym v)
    let ovf := fun n =>
      let a := r.preAt + 102400 + 25600 * (n + n / 16)
      x.ovfAt.any fun t => decide (a ≤ t ∧ t < a + 25600)
    let er := erase x.noise ovf l
    let ws := decodeAll m (fcNsym v) (softFrame m er.keep l)
    { mac := macCut (streamBytes m ws), failed := (ws.filter Option.isNone).length, er := er }

/-- A frame from a repeater was decoded: its per-carrier SNR joins those of the last 8 frames (R109). -/
def LPort.heardSnr (src : Nat) (snr : List Int) (x : LPort) : LPort :=
  if src < 0x4000 then { x with snr := x.snr.ins src ((snr :: x.snr.get [] src).take 8) } else x

/-- A DATA frame for the part has ended: codewords, FCS, type, answer (R105, R112 to R117). -/
def lineFrame (p : Nat) (want : Nat → Bool) (syms : List LineSym) (snr : List Int) (s : State) : State :=
  let x := s.lport p
  match x.rx, s.lineDecode p syms with
  | some r, some d =>
    let m := d.mac
    let failed := d.failed
    match r.fc.bind fcOpen with
    | none => s
    | some v =>
      if fcType v ≠ 0 ∨ !s.lineRx p then s
      else
        let good := failed == 0 && decide (m.length ≤ 144) && fcsOk m
        if good && !want (macType m) then s
        else
          let fe := r.preAt + frameNs (fcNsym v)
          let s1 := countN (kLm p 6) d.er.steps (countN (kLm p 5) d.er.erased (countN (kLm p 3) failed
            (updLport p (fun x => { x with rx := none, noise := d.er.floor }) s)))
          if failed ≠ 0 then s1
          else if !good then countIf (!fcsOk m) (kIngCode (256 + p) 0x10) (count (kLm p 4) (updLport p (LPort.heardSnr (fcSrc v) snr) s1))
          else
            let s2 := routeHeard p (fcSrc v) (count (kLm p 2) (updLport p (LPort.heardSnr (fcSrc v) snr) s1))
            if macNhop m = 7 ∨ 5 ≤ macType m then s2
            else
              let src := fcSrc v
              let tmi := if src < 0x4000 then (x.link src).mode else if fcTmi v ≤ 2 then fcTmi v else 2
              let r0 : LResp := { code := 0, dst := src, path := macPath m, tmi := tmi, link := src, at_ := fe + 80000 }
              let (r1, s3) :=
                if macType m = 0 ∧ !macDir m then lineMeter p fe m r0 s2
                else if macType m = 2 then (r0, nbrReport p m s2)
                else if macType m = 4 then (r0, tmapReceive p src m s2)
                else (r0, s2)
              let s4 := if 65536 ≤ r1.link then
                  updLport p (fun x => { x with links := x.links.put {} r1.link { x.link r1.link with mode := tmi, fails := 0, succs := 0 } }) s3
                else s3
              if fcRspreq v ∧ fcDst v = 0xFFFF ∧ s4.lineTx p then updLport p (fun x => { x with resp := some r1 }) s4 else s4
  | _, _ => s

/-- LINE_FRAME_RECEIVE: the last symbol of a METER or other frame: what the receiver measured of its data symbols, and the SNR of each usable
carrier in tenths of a dB. -/
def execLineFrameReceive (port : Fin 4) (syms : List LineSym) (snr : List Int) (s : State) : Result :=
  .next (lineFrame port.val (fun t => t != 2 && t != 4) syms snr s)

/-- LINE_NBR_REPORT_RECEIVE: a received frame of MTYPE 2. -/
def execLineNbrReportReceive (port : Fin 4) (syms : List LineSym) (snr : List Int) (s : State) : Result := .next (lineFrame port.val (· == 2) syms snr s)

/-- LINE_TMAP_RECEIVE: a received frame of MTYPE 4. -/
def execLineTmapReceive (port : Fin 4) (syms : List LineSym) (snr : List Int) (s : State) : Result := .next (lineFrame port.val (· == 4) syms snr s)

/-- LINE_RESPONSE_LAUNCH: 30 µs before its first sample the code is fixed; `ready`: the ack frame is complete; `sugg`: the mode the
part's SNR measurement suggests (R117, R118). -/
def execLineResponseLaunch (port : Fin 4) (ready : Bool) (sugg : Fin 32) (s : State) : Result :=
  .next (
    let p := port.val
    let x := s.lport p
    match x.resp with
    | none => s
    | some r =>
      if r.sent || decide (s.nowNs + 30000 + x.desc.txlat < r.at_) then s
      else if !s.lineTx p then updLport p (fun x => { x with resp := none }) s
      else
        let owes := r.ackreq && (r.remote || r.code == 1 || r.code == 2)
        let done := !r.remote && r.ack.isSome && ready
        let late := owes && !done
        let code := if r.remote || late then 0 else r.code
        let su := if sugg.val ≤ 2 ∨ (x.rxmaps.find sugg.val).isSome then sugg.val else 31
        let follows := !late && owes
        let s1 := countIf (code == 3) (kLm p 11) (countIf (code == 2) (kLm p 12) (countIf late (kLm p 10) s))
        let extra := if code = 1 ∨ code = 2 then 40000 else 0
        let fc := fcBytes (fcResp code su r.dst)
        let air : LAir := { start := r.at_, stop := r.at_ + respNs, gain := x.desc.txgain, mask := x.desc.mask, fc := BitVec.ofNat 64 (ofLe fc.reverse) }
        emit (.lineResp p code fc)
          (putLair p air <| markBusy p r.at_ (r.at_ + respNs + extra)
            (updLport p (fun x => { x with resp := if follows then some { r with sent := true } else none }) s1)))

/-- LINE_ACK_FRAME_LAUNCH: the ack frame goes out 40 µs after the RESPONSE, DIR 1, back along its PATH (R118). -/
def execLineAckFrameLaunch (port : Fin 4) (s : State) : Result :=
  .next (
    let p := port.val
    let x := s.lport p
    match x.resp with
    | none => s
    | some r =>
      if !r.sent || decide (s.nowNs + 30000 + x.desc.txlat < r.at_ + respNs + 40000) then s
      else
        let s0 := updLport p (fun x => { x with resp := none }) s
        if !s.lineTx p then s0
        else match r.ack with
        | none => s0
        | some b =>
          let (n, s1) := takeLseq p s0
          let mac := withFcs (macHead 0 1 r.path n b)
          startTx p (r.at_ + respNs + 40000) { kind := 5, cls := 0, mac := mac, dst := r.dst, tmi := r.tmi, link := r.link } s1)

/-! ## Beacons and tone maps (R110, R121) -/

/-- A frame joins the port's queue, with a draw of its back-off. -/
def enqueueLine (p : Nat) (f : LTx) (s : State) : State :=
  let (g, s1) := drawSlots f s
  updLport p (fun x => { x with queue := x.queue ++ [g] }) s1

/-- LBEACON_SEND: the port's cycle-table row fires, and an LBEACON waits for its first class 0 opportunity (R121, R129, R348). -/
def execLbeaconSend (port : Fin 4) (s : State) : Result :=
  .next (
    let p := port.val
    let x := s.lport p
    let r := s.row (4 + p)
    if !x.desc.enable || !r.due x.desc.txlat s.nowNs then s
    else
      let s1 := bcastAdvance (passRow (4 + p) 1 s.tmu.valid s)
      if !s.tmu.valid || !x.desc.lbeacon || !s.lineTx p || decide (r.at_ < x.linkUpAt + 3000000) then s1
      else
        let s2 := updLport p (fun x => { x with queue := x.queue.filter fun f => f.kind != 3 }) s1
        enqueueLine p { kind := 3, cls := 0, mac := [], dst := 0xFFFE, cw := 4, tmi := 0, start := r.tS } s2)

/-- The lowest average carrier SNR of group `g` over the last 8 frames from a repeater, in tenths of a dB (R109). -/
def LPort.groupSnr (x : LPort) (lsa g : Nat) : Int :=
  let frames := x.snr.get [] lsa
  let mean := fun k => Config.snrMean (frames.map fun f => f.getD k 0)
  ((List.range (groupCarriers g)).map fun i => mean (8 * g + i)).foldl (fun (a : Option Int) v => some (match a with | none => v | some b => min b v)) none
    |>.getD 0

/-- TMAP_ISSUE: the part issues a receive map to a repeater it has measured, at RATE 5/6 or 1/2: under the index of an equal map in force, which
neighbours share, else under a free index; the map that it replaces goes when no neighbour uses it any more (R109, R110; log 117). -/
def execTmapIssue (port : Fin 4) (lsa : Fin 16384) (rate : Bool) (s : State) : Result :=
  .next (
    let p := port.val
    let x := s.lport p
    let m := mapFor x.desc.mask rate (x.groupSnr lsa.val)
    let same := firstWhere (fun (e : Nat × List Byte) => e.2 == m && !x.oldMaps.contains e.1) x.rxmaps
    let index := match same with
      | some e => some e.1
      | none => firstWhere (fun i => (x.rxmaps.find i).isNone) ((List.range 28).map (· + 3))
    match index with
    | none => s
    | some i =>
      if (x.snr.get [] lsa.val).isEmpty || !s.lineTx p then s
      else
        let (n, s1) := takeLseq p s
        let mac := withFcs (macHead 4 1 [] n (le 1 i ++ m))
        let issued := x.issued.ins lsa.val i
        let gone := match x.issued.find lsa.val with
          | some o => if o ≠ i ∧ !issued.any (fun e => e.2 == o) then [o] else []
          | none => []
        enqueueLine p { kind := 2, cls := 2, mac := mac, dst := lsa.val, cw := 16, tmi := (x.link lsa.val).mode, link := lsa.val }
          (updLport p (fun x => { x with
            rxmaps := x.rxmaps.ins i m, freeAt := x.freeAt.ins i (s.lineSf p + 2), oldMaps := gone ++ x.oldMaps, issued := issued }) s1))

/-- TMAP_FREE: a replaced map goes 2 superframes after its last issue (R110). -/
def execTmapFree (port : Fin 4) (tmi : Fin 32) (s : State) : Result :=
  onCores s (
    let p := port.val
    let i := tmi.val
    let x := s.lport p
    if x.oldMaps.contains i && decide (x.freeAt.get 0 i ≤ s.lineSf p) then
      updLport p (fun x => { x with rxmaps := x.rxmaps.del i, freeAt := x.freeAt.del i, oldMaps := x.oldMaps.filter (· != i) }) s
    else s)

/-! ## Descriptor (R127, Table 4-19, Table 9-18) -/

/-- The descriptor of an LM_PORT_CFG block. SITE, SFCODE and SOFS have no bytes there: they come with the call (log 42). -/
def ldescOf (site : BitVec 32) (sfcode sofs : Fin 256) (b : List Byte) : LDesc :=
  { enable := field b 1 1 == 1, txgain := field b 2 1, lbeacon := field b 3 1 == 1, mask := BitVec.ofNat 26 (field b 4 4)
    rxlat := field b 8 4, txlat := field b 12 4, calperiod := field b 16 2
    site := site.toNat, sfcode := sfcode.val, sofs := sofs.val }

/-- Every value in range. -/
def LDesc.ok (d : LDesc) : Bool :=
  decide (d.txgain ≤ 15 ∧ d.rxlat ≤ 5000 ∧ d.txlat ≤ 5000 ∧ d.calperiod ≤ 1440 ∧ 192 ≤ nAct d.mask ∧ d.sfcode ≤ 4 ∧ d.sofs < sfLen d.sfcode)

/-- LM_PORT_CFG (R127, R264). -/
def engLmPortCfg (site : BitVec 32) (sfcode sofs : Fin 256) (_t : Nat) (b : List Byte) (s : State) : EngOut :=
  let p := field b 0 1
  let d := ldescOf site sfcode sofs b
  if 3 < p then .fail s stBadArg
  else if !zeros b 18 14 ∨ 2 ^ 26 ≤ field b 4 4 ∨ 1 < field b 1 1 ∨ 1 < field b 3 1 ∨ !d.ok then .fail s stBadDescriptor
  else .ok (updLport p (fun x => { x with next := some (d, s.nowNs) }) s)

/-- The superframe grid on which an accepted line descriptor waits. -/
def LPort.grid (x : LPort) (d : LDesc) : Nat × Nat := if x.ever then (x.desc.sfcode, x.desc.sofs) else (d.sfcode, d.sofs)

/-- A line descriptor in force: link, TX link, and the port's LBEACON row (R127, Table 12-7). -/
def putLdesc (p : Nat) (d : LDesc) (s : State) : State :=
  let fresh := d.enable && !(s.lport p).desc.enable
  let s1 := updLport p (fun x =>
    let y := { x with desc := d, next := none, ever := true, txlink := d.enable }
    if fresh then { y with linkUpAt := s.nowNs, rxlink := false, goodRun := 0, missFrm := 0, parityAt := [], lastCal := s.nowNs }
    else if d.enable then y
    else { y with rxlink := false, rx := none, resp := none, tx := none }) s
  let t := sfNext d.sfcode d.sofs (s.nowNs + d.txlat + 1)
  let row : Row := { tS := t, perS := sfLen d.sfcode, action := 2, flags := 3, arg := p, t0 := t * 1000000000 }
  putRow (4 + p) (if d.enable then row else {}) s1

/-- LINE_DESCRIPTOR_APPLY: the first superframe start at least 3 ms after acceptance, once a frame in reception or transmission at that instant
has completed under the old descriptor (R127, log 123). -/
def execLineDescriptorApply (port : Fin 4) (s : State) : Result :=
  onCores s (
    let p := port.val
    let x := s.lport p
    match x.next with
    | none => s
    | some (d, at_) =>
      let g := x.grid d
      if s.nowNs < sfNext g.1 g.2 (at_ + 3000000) * 1000000000 ∨ !x.quiet ∨ x.air.any (fun a => decide (s.nowNs < a.stop)) then s
      else putLdesc p d s)

/-! ## Queue, calibration and route calls (R272) -/

/-- LM_QUEUE. -/
def engLmQueue (t : Nat) (b : List Byte) (s : State) : EngOut :=
  let p := field b 0 1
  let kind := field b 1 1
  let n := field b 2 1
  let mh := field b 4 4
  if 3 < p ∨ 1 < kind ∨ !zeros b 3 1 ∨ 2 ^ 20 ≤ mh ∨ (kind = 0 ∧ (n = 0 ∨ 96 < n)) ∨ (kind = 1 ∧ (n < 17 ∨ 29 < n ∨ !zeros b 8 4)) then .fail s stBadArg
  else match s.readBuf t (field b 16 8) n with
  | .error st => .fail s st
  | .ok body =>
    let e := s.entry mh
    let x := s.lport p
    if kind = 1 ∧ (!zeros body 9 4 ∨ 1 < field body 13 1 ∨ 6 < field body 16 1 ∨ n ≠ 17 + 2 * field body 16 1) then .fail s stBadArg
    else if s.entryBad mh then .fail s stPoisoned
    else if e.st = .free ∨ !e.medium then .fail s stNotFound
    else
      let bad := if kind = 0 then dnCheck mh body s else if (s.meterKey mh (field body 8 1)).isNone then some stKeyAbsent else none
      match bad with
      | some st => .fail s st
      | none =>
        if (x.meterPath e).isNone then .fail s stNoRoute
        else if 512 ≤ (x.queue.filter fun f => decide (f.kind ≤ 1)).length then .fail s stNoSpace
        else
          let f : LTx := { kind := kind, cls := 1, mac := [], dst := 0, ticket := x.nextTicket, mh := mh, cw := cwInit 1
                           fcnt := BitVec.ofNat 32 (field b 8 4), body := body }
          { st := updLport p (fun x => { x with nextTicket := x.nextTicket + 1 }) (enqueueLine p f s)
            status := stOk, out := [(12, le 4 x.nextTicket.toNat)] }

/-- A calibration is requested; one already waiting keeps its instant. -/
def requestCal (p : Nat) (s : State) : State := updLport p (fun x => { x with calReqAt := some (x.calReqAt.getD s.nowNs) }) s

/-- LM_CAL. -/
def engLmCal (_t : Nat) (b : List Byte) (s : State) : EngOut :=
  if 3 < field b 0 1 ∨ !zeros b 1 7 then .fail s stBadArg else .ok (requestCal (field b 0 1) s)

/-- The 32 bytes of a route entry (Table 4-18). -/
def LPort.routeBytes (x : LPort) (l : Nat) : List Byte :=
  let e := x.route l
  let tmi := if e.depth = 1 then (x.link l).mode else 0
  le 8 e.ma.toNat ++ le 2 e.parent ++ le 1 (e.st * 64 + e.depth * 8 + e.fails) ++ le 1 (tmi * 8) ++ le 2 e.ett ++ le 2 e.heard
    ++ fit 10 e.txmap ++ le 1 e.txtmi ++ zeroBytes 5

/-- LM_ROUTE_READ. -/
def engLmRouteRead (_t : Nat) (b : List Byte) (s : State) : EngOut :=
  if 3 < field b 0 1 ∨ !zeros b 1 1 ∨ 0x4000 ≤ field b 2 2 ∨ !zeros b 4 4 then .fail s stBadArg
  else { st := s, status := stOk, out := [(8, (s.lport (field b 0 1)).routeBytes (field b 2 2))] }

/-- The part holds nothing of the station under an LSA: route entry, link, SNR and issued map (R111). -/
def LPort.forget (l : Nat) (x : LPort) : LPort :=
  { x with routes := x.routes.del l, links := x.links.del l, snr := x.snr.del l, issued := x.issued.del l }

/-- LM_ROUTE_SET. A new meter under an LSA starts without link state. -/
def engLmRouteSet (_t : Nat) (b : List Byte) (s : State) : EngOut :=
  let p := field b 0 1
  let l := field b 2 2
  let par := field b 4 2
  let ma := BitVec.ofNat 64 (field b 8 8)
  let x := s.lport p
  let up := x.route par
  let depth := if par = 0xFFFF then 1 else up.depth + 1
  if 3 < p ∨ !zeros b 1 1 ∨ !zeros b 6 2 ∨ !zeros b 16 16 ∨ 0x4000 ≤ l ∨ (par ≠ 0xFFFF ∧ (0x4000 ≤ par ∨ up.st ≠ 2)) ∨ par = l ∨ 6 < depth ∨ groupMa ma then
    .fail s stBadArg
  else
    .ok (updLport p (fun x =>
      let y := if (x.route l).ma = ma then x else x.forget l
      { y with routes := y.routes.put {} l { y.route l with ma := ma, parent := par, depth := depth, fails := 0, st := 1 } }) s)

/-- LM_ROUTE_FREE. -/
def engLmRouteFree (_t : Nat) (b : List Byte) (s : State) : EngOut :=
  let p := field b 0 1
  let l := field b 2 2
  let x := s.lport p
  if 3 < p ∨ !zeros b 1 1 ∨ !zeros b 4 4 ∨ 0x4000 ≤ l ∨ x.routes.any (fun e => (e.2.st == 1 || e.2.st == 2) && e.2.parent == l) then .fail s stBadArg
  else .ok (updLport p (fun x => x.forget l) s)

/-- LM_PORT_CFG; `site`, `sfcode` and `sofs` are what the image gives for the three fields without bytes in the block (log 42). -/
def execLmPortCfg (t : Fin 256) (pi : Fin 8) (rt ra : Fin 32) (site : BitVec 32) (sfcode sofs : Fin 256) (s : State) : Result :=
  .next (ecall t pi rt ra 0x30 32 (engLmPortCfg site sfcode sofs) s)

/-- LM_QUEUE. -/
def execLmQueue (t : Fin 256) (pi : Fin 8) (rt ra : Fin 32) (s : State) : Result := .next (ecall t pi rt ra 0x31 24 engLmQueue s)

/-- LM_CAL. -/
def execLmCal (t : Fin 256) (pi : Fin 8) (rt ra : Fin 32) (s : State) : Result := .next (ecall t pi rt ra 0x32 8 engLmCal s)

/-- LM_ROUTE_READ. -/
def execLmRouteRead (t : Fin 256) (pi : Fin 8) (rt ra : Fin 32) (s : State) : Result := .next (ecall t pi rt ra 0x33 40 engLmRouteRead s)

/-- LM_ROUTE_SET. -/
def execLmRouteSet (t : Fin 256) (pi : Fin 8) (rt ra : Fin 32) (s : State) : Result := .next (ecall t pi rt ra 0x34 32 engLmRouteSet s)

/-- LM_ROUTE_FREE. -/
def execLmRouteFree (t : Fin 256) (pi : Fin 8) (rt ra : Fin 32) (s : State) : Result := .next (ecall t pi rt ra 0x35 8 engLmRouteFree s)

/-! ## Calibration (R128) -/

/-- CALPERIOD_EXPIRE: the periodic interval has passed. -/
def execCalperiodExpire (port : Fin 4) (s : State) : Result :=
  onCores s (
    let x := s.lport port.val
    if x.desc.enable && x.desc.calperiod != 0 && x.calAt.isNone && decide (x.lastCal + x.desc.calperiod * 60000000000 ≤ s.nowNs) then
      requestCal port.val s
    else s)

/-- CAL_START: the medium is idle with nothing owed or queued, or the request has waited a superframe and the exchange has ended. -/
def execCalStart (port : Fin 4) (s : State) : Result :=
  .next (
    let p := port.val
    let x := s.lport p
    match x.calReqAt with
    | none => s
    | some r =>
      let idle := x.quiet && decide (x.busyUntil ≤ s.nowNs)
      let forced := decide (r + sfLen x.desc.sfcode * 1000000000 ≤ s.nowNs)
      if !s.lineRuns || !x.desc.enable || x.calAt.isSome || !idle || !(x.queue.isEmpty || forced) then s
      else
        let us := BitVec.ofNat 32 (sat32 ((s.nowNs - r) / 1000))
        emit (.calPin p true) (updLport p (fun x => { x with
          calReqAt := none, calAt := some s.nowNs, calBusy := false, calSeen := false, calDefer := if x.calDefer.ult us then us else x.calDefer }) s))

/-- CAL_END: CALBUSY has been seen and has cleared. -/
def execCalEnd (port : Fin 4) (s : State) : Result :=
  onCores s (
    let p := port.val
    let x := s.lport p
    if x.calAt.isSome && x.calSeen && !x.calBusy then
      count (kLm p 16) (emit (.calPin p false) (updLport p (fun x => { x with calAt := none, lastCal := s.nowNs }) s))
    else s)

/-- CAL_TIMEOUT: CALBUSY has not cleared 2 ms into the calibration. -/
def execCalTimeout (port : Fin 4) (s : State) : Result :=
  onCores s (
    let p := port.val
    match (s.lport p).calAt with
    | some c =>
      if s.nowNs < c + 2000000 then s
      else postNotice 0x0304 1 (le 1 p) (emit (.calPin p false) (updLport p (fun x => { x with calAt := none, lastCal := s.nowNs }) s))
    | none => s)

/-- CAMPAIGN_LINE_PUMP: every 20 ms the pump puts its next frame into the port's queue as a class 1 broadcast (R437, R438). -/
def execCampaignLinePump (port : Fin 4) (s : State) : Result :=
  .next (
    let p := port.val
    let x := s.lport p
    let q := 4 + p
    let due := (s.ctlNext q (4 * q) (s.lineSf p) s.nowNs).isSome || (s.blockNext q s.nowNs).isSome
    if !s.lineTx p || !due || decide (s.nowNs < x.lastPump + 20000000) || x.queue.any (fun f => f.kind == 4) then s
    else enqueueLine p { kind := 4, cls := 1, mac := [], dst := 0xFFFE, cw := cwInit 1 } (updLport p (fun x => { x with lastPump := s.nowNs }) s))

end Sys2Proof.Machine
end

