-- ==== Sys2Proof/Machine/Sessions.lean ====
section
/-! DEFINITION. Commands in flight and host sessions: registering completions, closing sessions (R285 to R296, R321, R322). -/

namespace Sys2Proof.Machine

/-- The carrier of a queue: 0 to 15 PCIe, 16 MAC0, 17 MAC1. -/
def carrierOf (sqid : Nat) : Carrier := if sqid = 16 then .mac0 else if sqid = 17 then .mac1 else .pcie

/-- Fields of a command (Table 10-3). -/
def Cmd.eno (c : Cmd) : Nat := field c.raw 0 2
def Cmd.fence (c : Cmd) : Bool := bitAt (field c.raw 2 1) 7
def Cmd.hasData (c : Cmd) : Bool := bitAt (field c.raw 2 1) 6
def Cmd.rbuf (c : Cmd) : Bool := bitAt (field c.raw 2 1) 5
def Cmd.cid (c : Cmd) : Nat := field c.raw 4 4
def Cmd.buf (c : Cmd) : Nat := field c.raw 36 8
def Cmd.dlen8 (c : Cmd) : Nat := field c.raw 44 2
def Cmd.rlen8 (c : Cmd) : Nat := field c.raw 46 2
def Cmd.sid (c : Cmd) : Nat := field c.raw 48 2
def Cmd.ccnt (c : Cmd) : Nat := field c.raw 52 4
def Cmd.tag (c : Cmd) : List Byte := slice c.raw 56 8

/-- Session `sid`, open or pending. -/
def State.session (s : State) (sid : Nat) : Option Session := s.hp.sessions.find sid

/-- Open sessions, and pending ones. -/
def State.openSessions (s : State) : Nat := (s.hp.sessions.filter fun x => x.2.open_).length
def State.pendingSessions (s : State) : Nat := (s.hp.sessions.filter fun x => !x.2.open_).length

/-- The counter of Table 10-14 a completion status adds to. -/
def countStatus (status : Nat) (s : State) : State :=
  if status = hpAuthFail then count (kHp 5) s
  else if status = hpAuthReplay then count (kHp 6) s
  else if status = hpAuthNoSession then count (kHp 7) s
  else if status = hpUnknownEntry then count (kHp 8) s
  else if status = hpTimeout then count (kHp 9) s
  else if status = hpDmaFault then count (kHp 10) s
  else if status = hpBusy then count (kHp 17) s
  else s

/-- A command with its completion registered. -/
def Cmd.done (n status : Nat) (result : BitVec 64) (resp : Option (List Byte)) (c : Cmd) : Cmd :=
  { c with stage := .registered, waits := none, status := status, result := result, resp := resp, regAt := n }

/-- Registers the completion of command `no` (R287, R295). -/
def registerCmd (no status : Nat) (result : BitVec 64) (resp : Option (List Byte)) (s : State) : State :=
  countStatus status
    { s with hp.cmds := s.hp.cmds.map fun c => if c.no = no then c.done s.hp.regs status result resp else c
             hp.regs := s.hp.regs + 1 }

/-- What the close of a session does to a command of it (R294): one not yet delivered completes with AUTH_NOSESSION, one delivered later so. -/
def Cmd.closing (n : Nat) (c : Cmd) : Cmd :=
  match c.stage with
  | .judged => if c.waits.isSome then { c with closed := true } else c.done n hpAuthNoSession 0 none
  | .delivered => { c with closed := true }
  | .registered => c

/-- A route of this session stops (R303). -/
def EthChan.unrouted (sid : Nat) (e : EthChan) : EthChan :=
  if e.route = some sid then { e with route := none, gathered := [] } else e

/-- Frees a SID, pending or open. -/
def dropSession (sid : Nat) (s : State) : State := { s with hp.sessions := s.hp.sessions.del sid }

/-- Closes a session: its key goes, its commands complete with AUTH_NOSESSION, its notice route stops (R294, R303). -/
def closeSession (sid : Nat) (s : State) : State :=
  let own := fun (c : Cmd) => c.sid == sid
  let cut := (s.hp.cmds.filter fun c => own c && decide (c.stage = .judged) && c.waits.isNone).length
  countN (kHp 7) cut (dropSession sid
    { s with hp.cmds := s.hp.cmds.map fun c => if own c then c.closing s.hp.regs else c
             hp.regs := s.hp.regs + 1
             hp.eth := s.hp.eth.mapVals (EthChan.unrouted sid) })

/-- Closes every session that passes the test. -/
def closeSessions (p : Session → Bool) (s : State) : State :=
  ((s.hp.sessions.filter fun x => p x.2).map (·.1)).foldl (fun s i => closeSession i s) s

end Sys2Proof.Machine
end

