-- ==== Sys2Proof/Machine/Slots.lean ====
section
/-! DEFINITION. The running image's bytes: boot slots in 4 KiB units (R280, R323, Table 16-2). -/

namespace Sys2Proof.Machine

/-- `n` bytes of a region kept in 4 KiB units from unit key `base`. -/
def unitBytes (m : Map (List Byte)) (base n : Nat) : List Byte :=
  ((List.range (ceilDiv n 4096)).flatMap fun u => fit 4096 (m.get [] (base + u))).take n

/-- `n` bytes of the image in boot slot `k` (0 A, 1 B). -/
def State.slotBytes (s : State) (k n : Nat) : List Byte := unitBytes s.upd.units (k * 16384) n

/-- `n` bytes of the running image: the active slot, or the recovered image. -/
def State.runBytes (s : State) (n : Nat) : List Byte :=
  if s.upd.recovery then unitBytes s.upd.runits 0 n else s.slotBytes (flag s.glb.slot) n

/-- SIGOFF of the running image (Table 9-19). -/
def State.runSigOff (s : State) : Nat := field (s.runBytes 256) 56 4

end Sys2Proof.Machine
end

