-- ==== Sys2Proof/Machine/Woad.lean ====
section
/-! DEFINITION. Woad's engine calls: keyslots, epochs, invalidation, OTP programming, sealed batches, attestation (R305 to R331). -/

namespace Sys2Proof.Machine

/-! ## What the calls share (R328, R308, R384) -/

/-- KEY_LOAD, KEY_DERIVE, KEY_EPOCH, seal and open calls are refused during HOLD-UP and before READY (R328). -/
def State.keyNotNow (s : State) : Bool := decide (s.glb.mode = .holdup) || !s.lake.ready

/-- The refusals that KEY_LOAD, KEY_DERIVE and KEY_EPOCH share: the moment, and a standby (R328, R384). -/
def State.keyRefusal (s : State) : Option Nat :=
  if s.keyNotNow then some wkNotNow
  else if s.cas.pair = 3 then some stAccessDenied
  else none

/-- EPMIN and EPMAX of a slot record: a BROADCAST record follows the broadcast state (Table 11-5, R315). -/
def State.slotEpochs (s : State) (i : Nat) : Nat × Nat :=
  let k := s.keySlot i
  let b := s.woad.bcast
  if k.typ ≠ 2 then (k.epmin, k.epmax)
  else
    (if b.valid ∧ b.slot = i then b.cur else 0,
     match b.next with
     | some n => if n.slot = i then n.e else 0
     | none => 0)

/-- Writes a slot record: a key-table change, which the standby mirrors (R320). -/
def putKeySlot (i : Nat) (k : KeySlot) (s : State) : State :=
  keyChanged i (mirror (.key i k) none none { s with woad.slots := s.woad.slots.put {} i k })

/-- The answer of a call that changed the key table: it completes once the table is durable (R320). -/
def EngOut.keyed (s : State) : EngOut := { st := s, status := stOk, waits := s.keyWait }

/-- Holds a crypto call's output under its slot key until the call completes (R318). -/
def holdOp (t : Nat) (op : KeyOp) (s : State) : State :=
  { s with woad.queued := s.woad.queued.ins (t * 16 + s.nextSlot t) op }

/-! ## KEY_LOAD into a keyslot (R312, Table 11-6) -/

/-- A key blob for slot `i`. -/
def loadBlob (i : Nat) (b : List Byte) (s : State) : EngOut :=
  let no := fun (st : Nat) => EngOut.fail (count (kWkv 14) s) st
  let typ := field b 4 1
  let lo := field b 6 1
  let hi := field b 7 1
  let kw := s.kw
  if s.woad.life ≠ .owned then no wkLifecycle
  else if (s.keySlot i).st = .active then no wkSlotState
  else if field b 0 4 ≠ 0x424B5A57 ∨ gcmTag kw (slice b 16 12) (b.take 16) (slice b 28 32) ≠ slice b 60 16 then no wkUnwrapFail
  else if field b 5 1 ≠ i ∨ !zeros b 12 4 ∨ !zeros b 76 4 then no stBadArg
  else if typ = 0 ∨ 5 ≤ typ then no wkUsage
  else if typ = 1 ∧ hi < lo then no wkEpoch
  else
    let k : KeySlot := {
      st := .active, typ := typ, keyid := BitVec.ofNat 32 (field b 8 4), parent := none, depth := 1, amask := BitVec.ofNat 64 (2 ^ i)
      epmin := if typ = 1 then lo else 0, epmax := if typ = 1 then hi else 0
      key := gcmCrypt kw (slice b 16 12) (slice b 28 32) }
    .keyed (putKeySlot i k s)

/-! ## KEY_LOAD into OTP (R306, Table 11-1) -/

/-- Bytes of the data of an OTP field: OWNER is OWNER_ID, NONCE, ciphertext and tag. -/
def fieldLen : Nat → Nat
  | 0 => 68 | 1 => 4 | 2 => 56 | 3 => 4 | 4 => 128 | 5 => 32 | _ => 4

/-- The lowest of `n` slots of a field that reads all zero. -/
def State.otpFree (s : State) (off size n : Nat) : Option Nat :=
  firstWhere (fun i => (s.otpBytes (off + size * i) size).all (· == 0#8)) (List.range n)

/-- Where a field's bytes go, and its slot; `none` when it is written already. -/
def State.otpTarget (s : State) (f : Nat) : Option (Nat × Nat) :=
  match f with
  | 0 => (s.otpFree 0x180 64 4).map fun n => (0x180 + 64 * n, n)
  | 1 => some (0x280, 0)
  | 2 => (s.otpFree 0x290 56 8).map fun n => (0x290 + 56 * n, n)
  | 3 => some (0x450, 0)
  | 4 => (s.otpFree 0x480 128 1).map fun _ => (0x480, 0)
  | 5 => (s.otpFree 0x500 32 1).map fun _ => (0x500, 0)
  | _ => some (0x284, 0)

/-- The bytes programmed for a field: an owner root is unwrapped under KT and wrapped under KO(n) with a fresh nonce; `none` when its tag fails. -/
def fieldBytes (f n : Nat) (d : List Byte) (s : State) : Option (List Byte) × State :=
  if f ≠ 0 then (some d, s)
  else if gcmTag s.kt (slice d 8 12) (d.take 8) (slice d 20 32) ≠ slice d 52 16 then (none, s)
  else
    let root := gcmCrypt s.kt (slice d 8 12) (slice d 20 32)
    let (nonce, s1) := drawBytes 12 s
    let ct := gcmCrypt (s.ko n) nonce root
    (some (d.take 8 ++ nonce ++ ct ++ (gcmTag (s.ko n) nonce (d.take 8) ct).take 12), s1)

/-- Programs OTP words; word `bad` reads back wrong and stops the write, holding a free part of its bits (R306). -/
def programOtp (off : Nat) (l : List Byte) (bad : Option Nat) (s : State) : State × Bool :=
  let words := l.length / 4
  match bad with
  | some k =>
    if k < words then
      let (v, s1) := drawFree s
      let part := bytesOf ((le 4 (field l (4 * k) 4 &&& v)).map (·.toNat))
      (countN (kWkv 13) k { s1 with otp := otpProgram s1.otp off (l.take (4 * k) ++ part), woad.otpFail := true }, false)
    else (countN (kWkv 13) words { s with otp := otpProgram s.otp off l }, true)
  | none => (countN (kWkv 13) words { s with otp := otpProgram s.otp off l }, true)

/-- The Sepia record of an OTP write of OWNER, OWNER_REVOKE or DEBUG_LOCK (Table 17-5); SLOT and OWNER_ID are free outside OWNER (log 51). -/
def lifecycleRecord (f n : Nat) (d : List Byte) (s : State) : State :=
  if f = 0 then sepWrite 0x0002 (le 1 f ++ le 1 n ++ zeroBytes 6 ++ d.take 8) s
  else if f = 1 ∨ f = 6 then
    let (v, s1) := drawFree s
    sepWrite 0x0002 (le 1 f ++ le 1 v ++ zeroBytes 6 ++ le 8 (v / 256)) s1
  else s

/-- An OTP field of KEY_LOAD. -/
def loadField (f : Nat) (d : List Byte) (bad : Option Nat) (s : State) : EngOut :=
  if s.woad.debugSub then .fail s wkDebug
  else if f = 2 ∧ !zeros d 4 4 then .fail s stBadArg
  else match s.otpTarget f with
  | none => .fail s wkOtpWritten
  | some (off, n) =>
    match fieldBytes f n d s with
    | (none, _) => .fail s wkUnwrapFail
    | (some l, s1) =>
      let (s2, ok) := programOtp off l bad { s1 with woad.otpBusy := true }
      { st := lifecycleRecord f n d s2, status := if ok then stOk else wkOtpFail }

/-- KEY_LOAD of a target: the data's length is the blob's or the field's (Table 11-11). -/
def keyLoad (target i : Nat) (d : List Byte) (bad : Option Nat) (s : State) : EngOut :=
  if target = 0 then loadBlob i d s else loadField i d bad s

/-- The length KEY_LOAD expects; `none` for a target, slot or field out of range. -/
def loadLen (target i : Nat) : Option Nat :=
  if target = 0 ∧ i < 64 then some 80 else if target = 1 ∧ i < 7 then some (fieldLen i) else none

/-- KEY_LOAD. -/
def engKeyLoad (bad : Option Nat) (t : Nat) (b : List Byte) (s : State) : EngOut :=
  let n := field b 2 2
  if !zeros b 4 4 ∨ !zeros b 16 48 ∨ loadLen (field b 0 1) (field b 1 1) ≠ some n then .fail s stBadArg
  else match s.keyRefusal with
  | some st => .fail s st
  | none =>
    match s.readBuf t (field b 8 8) n with
    | .error st => .fail s st
    | .ok d => keyLoad (field b 0 1) (field b 1 1) d bad s

/-- KEY_LOAD_SLOT: KEY_LOAD with TARGET 0. -/
def execKeyLoadSlot (t : Fin 256) (pi : Fin 8) (rt ra : Fin 32) (s : State) : Result :=
  .next (ecall t pi rt ra 0x76 64 (engKeyLoad none) s)

/-- KEY_LOAD_OTP: KEY_LOAD with TARGET 1; `bad` is the word that reads back wrong, if one does. -/
def execKeyLoadOtp (t : Fin 256) (pi : Fin 8) (rt ra : Fin 32) (bad : Option Nat) (s : State) : Result :=
  .next (ecall t pi rt ra 0x76 64 (engKeyLoad bad) s)

/-! ## KEY_DERIVE (R313) -/

/-- A child of slot `p` in slot `i`. -/
def deriveSlot (p i typ lo hi keyid : Nat) (s : State) : EngOut :=
  let par := s.keySlot p
  if s.woad.life ≠ .owned then .fail s wkLifecycle
  else if typ = 0 ∨ 5 ≤ typ then .fail s wkUsage
  else if par.st ≠ .active ∨ (s.keySlot i).st = .active then .fail s wkSlotState
  else if par.typ ≠ 4 then .fail s wkUsage
  else if 3 ≤ par.depth then .fail s wkDepth
  else if (typ = 1 ∧ hi < lo) ∨ (typ ≠ 1 ∧ (lo ≠ 0 ∨ hi ≠ 0)) then .fail s wkEpoch
  else
    let k : KeySlot := {
      st := .active, typ := typ, keyid := BitVec.ofNat 32 keyid, parent := some p, depth := par.depth + 1
      amask := par.amask ||| BitVec.ofNat 64 (2 ^ i), epmin := lo, epmax := hi
      key := kdf par.key (label 0x5A 0x53 0x4C 0x54) (le 4 keyid ++ le 1 typ ++ zeroBytes 3) 256 }
    .keyed (putKeySlot i k s)

/-- KEY_DERIVE by its fields, from byte `o`. -/
def deriveFrom (b : List Byte) (s : State) : EngOut :=
  if !zeros b 5 3 ∨ 64 ≤ field b 0 1 ∨ 64 ≤ field b 1 1 then .fail s stBadArg
  else match s.keyRefusal with
  | some st => .fail s st
  | none => deriveSlot (field b 0 1) (field b 1 1) (field b 2 1) (field b 3 1) (field b 4 1) (field b 8 4) s

/-- KEY_DERIVE. -/
def engKeyDerive (_t : Nat) (b : List Byte) (s : State) : EngOut :=
  if !zeros b 12 52 then .fail s stBadArg else deriveFrom b s

/-- KEY_DERIVE as an engine call. -/
def execKeyDerive (t : Fin 256) (pi : Fin 8) (rt ra : Fin 32) (s : State) : Result := .next (ecall t pi rt ra 0x77 64 engKeyDerive s)

/-! ## Invalidation (R317 to R319) -/

/-- A queued operation uses a doomed key. -/
def KeyOp.doomed (d : Nat → Option Nat → Bool) (op : KeyOp) : Bool := d op.slot op.epoch

/-- At a commit: queued operations under doomed keys fail with KEY_ORPHANED, frames held under them are marked, caches are scrubbed (R318, R148).
`d` says of a slot and an epoch whether the key is doomed. Answers the number of operations failed. -/
def scrub (d : Nat → Option Nat → Bool) (s : State) : Nat × State :=
  let hit := fun (k : Nat) => match s.woad.queued.find k with | some op => op.doomed d | none => false
  let n := (s.woad.queued.filter fun x => x.2.doomed d).length
  let s1 := mapCalls (fun t i p =>
    match p with
    | .call fn blk o st w => if hit (t * 16 + i) then .call fn blk [] stKeyOrphaned none else .call fn blk o st w
    | _ => p) s
  let mark := fun (h : Held) => match h.slot with
    | some i => if d i (some h.kepoch) then { h with orphaned := true } else h
    | none => h
  let (v, s2) := drawFree { s1 with
    woad.queued := s1.woad.queued.keep fun _ op => !op.doomed d
    rla.layers := s1.rla.layers.mapVals mark }
  let took := BitVec.ofNat 32 (v % 2049)
  (n, countN (kWkv 4) n (countN (kWkv 5) (v / 2049)
    { s2 with woad.scrubMax := if s2.woad.scrubMax.ult took then took else s2.woad.scrubMax }))

/-- A slot record after the commit of an invalidation of slot `i`. -/
def KeySlot.orphan (i : Nat) (k : KeySlot) : KeySlot :=
  if k.st = .active ∧ k.amask.getLsbD i then { k with st := .orphaned, tomb := false, epminNext := none } else k

/-- Every slot whose AMASK holds bit `i` becomes ORPHANED (R317 step 3). -/
def orphanSlots (i : Nat) (m : Map KeySlot) : Map KeySlot := m.mapVals (KeySlot.orphan i)

/-- An invalidation of slot `i` reaches slot `j`. -/
def State.under (s : State) (i j : Nat) : Bool := decide ((s.keySlot j).st = .active) && (s.keySlot j).amask.getLsbD i

/-- FAILED of an invalidation of slot `i` that commits now: the queued operations under the slots it reaches (R317 step 4). -/
def State.failedBy (s : State) (i : Nat) : Nat := (s.woad.queued.filter fun x => x.2.doomed fun j _ => s.under i j).length

/-- The commit of an invalidation of slot `i` (R317 steps 3 and 4). -/
def commitTomb (i : Nat) (s : State) : State :=
  let hit := s.under i
  let (n, s1) := scrub (fun j _ => hit j) s
  let b := s1.woad.bcast
  let s2 := { s1 with
    woad.slots := orphanSlots i s1.woad.slots
    woad.bcast := if b.valid ∧ hit b.slot then { b with valid := false } else b }
  wake (.tomb i) (some stOk) (some [(8, le 4 n)])
    (postNotice 0x0801 1 (le 1 i ++ zeroBytes 3 ++ le 4 n) (count (kWkv 3) s2))

/-- KEY_INVALIDATE MODE 0 of slot `i`. -/
def invalidateSlot (i : Nat) (s : State) : EngOut :=
  let k := s.keySlot i
  match k.st with
  | .orphaned => { st := s, status := stOk, out := [(8, le 4 0)] }
  | .empty => .fail s wkSlotState
  | .active =>
    if s.woad.debugSub then { st := commitTomb i s, status := stOk, out := [(8, le 4 (s.failedBy i))] }
    else if k.tomb then { st := s, status := stOk, waits := some (.tomb i) }
    else
      let s1 := keyChanged i { s with woad.slots := s.woad.slots.put {} i { k with tomb := true } }
      { st := mirror (.tomb i) none (some i) s1, status := stOk, waits := some (.tomb i) }

/-- KEY_INVALIDATE MODE 1 of slot `i`: an ORPHANED slot without ACTIVE descendants becomes EMPTY. -/
def clearSlot (i : Nat) (s : State) : EngOut :=
  match (s.keySlot i).st with
  | .empty => { st := s, status := stOk, out := [(8, le 4 0)] }
  | .active => .fail s wkSlotState
  | .orphaned =>
    if s.woad.slots.any (fun x => decide (x.2.st = .active) && x.2.amask.getLsbD i) then .fail s wkSlotState
    else { EngOut.keyed (putKeySlot i {} s) with out := [(8, le 4 0)] }

/-- KEY_INVALIDATE by its fields. -/
def invalidateFrom (b : List Byte) (s : State) : EngOut :=
  if !zeros b 2 6 ∨ 64 ≤ field b 0 1 ∨ 2 ≤ field b 1 1 then .fail s stBadArg
  else if field b 1 1 = 0 then invalidateSlot (field b 0 1) s
  else clearSlot (field b 0 1) s

/-- KEY_INVALIDATE. -/
def engKeyInvalidate (_t : Nat) (b : List Byte) (s : State) : EngOut :=
  if !zeros b 12 52 then .fail s stBadArg else invalidateFrom b s

/-- KEY_INVALIDATE: MODE 0 writes a tombstone and mirrors it. -/
def execKeyInvalidate (t : Fin 256) (pi : Fin 8) (rt ra : Fin 32) (s : State) : Result := .next (ecall t pi rt ra 0x78 64 engKeyInvalidate s)

/-- KEY_CLEAR: MODE 1. -/
def execKeyClear (t : Fin 256) (pi : Fin 8) (rt ra : Fin 32) (s : State) : Result := .next (ecall t pi rt ra 0x78 64 engKeyInvalidate s)

/-- An acknowledgement of the standby is awaited for a key change (tag: slot, or 64 + slot for EPMIN). -/
def State.mackAwaited (s : State) (tag : Nat) : Bool := s.cas.mirOut.any fun m => m.tomb == some tag

/-- INVALIDATION_COMMIT: the tombstone of a slot is durable and acknowledged, or HOLD-UP has begun (R317, R319). -/
def execInvalidationCommit (slot : Fin 64) (s : State) : Result :=
  .next (
    let i := slot.val
    if !(s.keySlot i).tomb then s
    else if s.glb.mode = .holdup ∨ ((s.woad.durSlots.get {} i).tomb ∧ !s.mackAwaited i) then commitTomb i s
    else s)

/-! ## KEY_EPOCH (R314, R315, R322) -/

/-- EPMIN of a slot rises: the lower epochs are invalidated (R314, R318). -/
def commitEpmin (i e : Nat) (s : State) : State :=
  let (_, s1) := scrub (fun j ep => j == i && (match ep with | some k => decide (k < e) | none => false)) s
  wake (.epmin i) none none
    { s1 with woad.slots := s1.woad.slots.put {} i { s1.keySlot i with epmin := e, epminNext := none } }

/-- KEY_EPOCH TARGET 0: new EPMIN and EPMAX of district slot `i`. -/
def epochDistrict (i lo hi : Nat) (s : State) : EngOut :=
  let k := s.keySlot i
  let cur := k.epminNext.getD k.epmin
  if k.st ≠ .active then .fail s wkSlotState
  else if k.typ ≠ 1 then .fail s wkUsage
  else if lo < cur ∨ hi < k.epmax ∨ hi < lo ∨ 255 < hi then .fail s wkEpoch
  else if lo = cur ∧ hi = k.epmax then .ok s
  else
    let last := k.epmax < 255 ∧ hi = 255
    let k1 : KeySlot := { k with epmax := hi, epminNext := if cur < lo then some lo else k.epminNext }
    let s1 := putKeySlot i k1 s
    let s2 := if last then postNotice 0x0802 1 (le 1 i) s1 else s1
    if lo = cur then .keyed s2
    else if s.woad.debugSub then .ok (commitEpmin i lo s2)
    else { st := mirror (.key i { k1 with epmin := lo, epminNext := none }) none (some (64 + i)) s2, status := stOk, waits := some (.epmin i) }

/-- KEY_EPOCH TARGET 1: the next broadcast epoch `e` on slot `i` from second `act` (R315). -/
def epochBcast (i e act : Nat) (s : State) : EngOut :=
  let b := s.woad.bcast
  let okE := if b.valid then (decide (b.cur < 255 ∧ e = b.cur + 1) || decide (b.cur = 255 ∧ e = 0 ∧ i ≠ b.slot)) else true
  if (s.keySlot i).st ≠ .active then .fail s wkSlotState
  else if (s.keySlot i).typ ≠ 2 then .fail s wkUsage
  else if act * 1000000000 < s.nowNs + 2000000000 then .fail s stTooLate
  else if !okE then .fail s wkEpoch
  else
    let n : BcNext := { e := e, slot := i, actT := act }
    let b' : Bcast := { b with next := some n }
    .keyed (keyChanged 64 (mirror (.bcast b') none none { s with woad.bcast := b' }))

/-- CFLOOR of a role. -/
def State.cfloor (s : State) (role : Nat) : BitVec 32 := s.woad.cfloor.get 0 role

/-- KEY_EPOCH TARGET 2: the credential floor of a role rises, and its sessions below it close (R322). -/
def roleFloor (role : Nat) (v : BitVec 32) (s : State) : EngOut :=
  if role = 0 ∨ 7 ≤ role then .fail s stBadArg
  else if v.ult (s.cfloor role) then .fail s wkEpoch
  else if v = s.cfloor role then .ok s
  else
    let s1 := mirror (.cfloor role v) none none { s with woad.cfloor := s.woad.cfloor.put 0 role v }
    .keyed (keyChanged 65 (closeSessions (fun x => x.open_ && x.role == role && decide (x.cred < v.toNat)) s1))

/-- KEY_EPOCH by its fields. -/
def epochFrom (b : List Byte) (s : State) : EngOut :=
  let target := field b 0 1
  if !zeros b 4 4 ∨ 3 ≤ target ∨ 64 ≤ field b 1 1 then .fail s stBadArg
  else match s.keyRefusal with
  | some st => .fail s st
  | none =>
    if s.woad.life ≠ .owned then .fail s wkLifecycle
    else if target = 0 then epochDistrict (field b 1 1) (field b 2 1) (field b 3 1) s
    else if target = 1 then epochBcast (field b 1 1) (field b 2 1) (field b 8 8) s
    else roleFloor (field b 1 1) (BitVec.ofNat 32 (field b 16 4)) s

/-- KEY_EPOCH. -/
def engKeyEpoch (_t : Nat) (b : List Byte) (s : State) : EngOut :=
  if !zeros b 20 44 then .fail s stBadArg else epochFrom b s

/-- KEY_EPOCH_DISTRICT: KEY_EPOCH with TARGET 0. -/
def execKeyEpochDistrict (t : Fin 256) (pi : Fin 8) (rt ra : Fin 32) (s : State) : Result := .next (ecall t pi rt ra 0x79 64 engKeyEpoch s)

/-- KEY_EPOCH_BROADCAST: TARGET 1. -/
def execKeyEpochBroadcast (t : Fin 256) (pi : Fin 8) (rt ra : Fin 32) (s : State) : Result := .next (ecall t pi rt ra 0x79 64 engKeyEpoch s)

/-- KEY_EPOCH_ROLE_FLOOR: TARGET 2. -/
def execKeyEpochRoleFloor (t : Fin 256) (pi : Fin 8) (rt ra : Fin 32) (s : State) : Result := .next (ecall t pi rt ra 0x79 64 engKeyEpoch s)

/-- EPMIN_COMMIT: a raised EPMIN is durable and acknowledged (R314). -/
def execEpminCommit (slot : Fin 64) (s : State) : Result :=
  .next (
    let i := slot.val
    match (s.keySlot i).epminNext with
    | none => s
    | some e =>
      if s.glb.mode = .holdup ∨ ((s.woad.durSlots.get {} i).epminNext = some e ∧ !s.mackAwaited (64 + i)) then commitEpmin i e s
      else s)

/-- The key table as it stands becomes durable (R320). -/
def landKeyTable (s : State) : State :=
  wake .keyTable none none
    { s with woad.durSlots := s.woad.slots, woad.durBcast := s.woad.bcast, woad.durCfloor := s.woad.cfloor,
             woad.durHw := s.woad.hw, woad.pending := [] }

/-- KEY_TABLE_DURABLE: the bank copy with the key table and its anchor update are durable. -/
def execKeyTableDurable (s : State) : Result :=
  onClock s (if s.woad.pending.isEmpty ∨ !s.lake.ready ∨ s.woad.debugSub then s else landKeyTable s)

/-- BROADCAST_PREVIOUS_EXPIRE: 256 s after the change the epoch before is served no more (R315). -/
def execBroadcastPreviousExpire (s : State) : Result :=
  onClock s (match s.woad.bcast.prev with
    | some (_, _, till) => if till ≤ s.nowS then { s with woad.bcast.prev := none } else s
    | none => s)

/-! ## Attestation (R323, R324, Table 11-8) -/

/-- Point coordinates and signatures are big-endian (R323): a P-384 public key of 96 bytes. -/
def State.akPub (s : State) : List Byte := ecPub s.dAk

/-- A signature over a digest, with a per-signature value from Woad's random source (R323). -/
def sign (d : Nat) (digest : List Byte) (s : State) : List Byte × State :=
  let (v, s1) := drawFree s
  (ecdsaSign d digest v, count (kWkv 9) s1)

/-- FLAGS of the statement. -/
def State.attFlags (s : State) : Nat :=
  flag s.woad.debugSub + 2 * flag s.ldg.sealed + 4 * flag (decide (s.glb.mode = .standby)) + 8 * flag (decide (s.woad.life ≠ .owned) || s.woad.debugSub)

/-- OWNER_ID of the active owner; 0 for none. -/
def State.ownerId (s : State) : Nat := if s.woad.life = .owned ∧ !s.woad.debugSub then s.otpField (ownerOff s.woad.owner) 8 else 0

/-- The statement's bytes 0 to 255. -/
def State.statementBody (s : State) : List Byte :=
  let (sv, ld) := match s.mcc.image with
    | some im => (im.secver.toNat, fit 48 im.legdig)
    | none => (0, zeroBytes 48)
  le 4 0x53545A57 ++ le 2 1 ++ le 1 s.attFlags ++ le 1 (flag s.glb.slot) ++ le 8 s.serial ++ le 4 s.cpm.pcycle.toNat ++ le 4 sv
    ++ le 8 s.ownerId ++ fit 96 s.akPub ++ sha384 (s.runBytes s.runSigOff) ++ ld ++ zeroBytes 32

/-- The statement of this power cycle, built at the first need and again when a FLAGS bit has changed (R323). -/
def attStatement (s : State) : List Byte × State :=
  let build :=
    let body := s.statementBody
    let (sg, s1) := sign s.dId (sha384 body) s
    let st := body ++ sg
    (st, { s1 with woad.statement := some st })
  match s.woad.statement with
  | some st => if field st 6 1 = s.attFlags then (st, s) else build
  | none => build

/-- The statement and the signature over it and a nonce (R324). -/
def attest (nonce : List Byte) (s : State) : List Byte × State :=
  let (st, s1) := attStatement s
  let (sg, s2) := sign s1.dAk (sha384 (st ++ nonce)) s1
  (st ++ sg, s2)

/-- CRY_ATTEST. -/
def engCryAttest (t : Nat) (b : List Byte) (s : State) : EngOut :=
  if !zeros b 0 8 ∨ !zeros b 24 40 then .fail s stBadArg
  else if !s.bufOk t (field b 16 8) 448 then .fail s stAccessFault
  else match s.readBuf t (field b 8 8) 32 with
  | .error st => .fail s st
  | .ok nonce =>
    let (out, s1) := attest nonce s
    .ok (writeBuf t (field b 16 8) out s1)

/-- CRY_ATTEST as an engine call. -/
def execCryAttest (t : Fin 256) (pi : Fin 8) (rt ra : Fin 32) (s : State) : Result := .next (ecall t pi rt ra 0x75 64 engCryAttest s)

/-! ## Sealed batches (R325, R326, Table 11-10) -/

/-- KB of a seal slot's key, a part and a batch. -/
def batchKey (slotKey : List Byte) (serial bseq : Nat) : List Byte :=
  kdf slotKey (label 0x5A 0x42 0x41 0x54) (le 8 serial ++ le 8 bseq) 256

/-- The header of a batch. -/
def batchHeader (kind serial bseq keyid plen tai : Nat) : List Byte :=
  let h := le 4 0x48424E5A ++ le 2 1 ++ le 2 kind ++ le 8 serial ++ le 8 bseq ++ le 4 keyid ++ le 4 plen ++ le 8 tai
    ++ le 8 bseq ++ zeroBytes 4 ++ zeroBytes 8
  h ++ le 4 (crc32c h)

/-- The status of a slot that a call needs ACTIVE and of a TYPE; none when it serves. -/
def KeySlot.usable (k : KeySlot) (typ : Nat) : Option Nat :=
  match k.st with
  | .empty => some stKeyAbsent
  | .orphaned => some stKeyOrphaned
  | .active => if k.typ = typ then none else some wkUsage

/-- BSEQ of the next batch, with the high-water mark raised ahead of its use (R325). -/
def nextBseq (s : State) : Nat × State :=
  let n := s.woad.bseq + 1
  let s1 := { s with woad.bseq := n }
  if s.woad.hw.ult n then (n.toNat, keyChanged 66 { s1 with woad.hw := s.woad.hw + 65536 }) else (n.toNat, s1)

/-- CRY_GCM_SEAL. -/
def engGcmSeal (t : Nat) (b : List Byte) (s : State) : EngOut :=
  let i := field b 0 1
  let plen := field b 24 4
  let outLen := plen + 528
  if !zeros b 1 1 ∨ !zeros b 4 4 ∨ !zeros b 28 4 ∨ !zeros b 44 20 ∨ 64 ≤ i ∨ 2 ^ 24 < plen then .fail s stBadArg
  else if s.keyNotNow then .fail s wkNotNow
  else match (s.keySlot i).usable 3 with
  | some st => .fail s st
  | none =>
    if !s.bufOk t (field b 16 8) outLen then .fail s stAccessFault
    else match s.readBuf t (field b 8 8) plen with
    | .error st => .fail s st
    | .ok pt =>
      let (n, s1) := nextBseq s
      let h := batchHeader (field b 2 2) s.serial n (s.keySlot i).keyid.toNat plen s.nowUs
      let kb := batchKey (s.keySlot i).key s.serial n
      let nonce := slice h 40 12
      let ct := gcmCrypt kb nonce pt
      let body := h ++ ct ++ gcmTag kb nonce h ct
      let (stmt, s2) := attStatement s1
      let (sg, s3) := sign s2.dAk (sha384 body) s2
      let op : KeyOp := { slot := i, epoch := none, dst := field b 16 8, bytes := body ++ stmt ++ sg }
      { st := count (kWkv 6) (holdOp t op s3), status := stOk, out := [(32, le 8 n), (40, le 4 outLen)]
        waits := if s.woad.durHw.toNat < n then s3.keyWait else none }

/-- CRY_GCM_SEAL as an engine call. -/
def execCryGcmSeal (t : Fin 256) (pi : Fin 8) (rt ra : Fin 32) (s : State) : Result := .next (ecall t pi rt ra 0x70 64 engGcmSeal s)

/-- The lowest ACTIVE SEAL slot with a KEYID. -/
def State.sealSlot (s : State) (keyid : Nat) : Option Nat :=
  firstWhere (fun i => decide ((s.keySlot i).st = .active) && (s.keySlot i).typ == 3 && (s.keySlot i).keyid.toNat == keyid) (List.range 64)

/-- The ordered checks of R326 on a batch and its certificate: a status, or the slot and the plaintext. -/
def openBatch (l cert : List Byte) (s : State) : Except Nat (Nat × List Byte) :=
  let h := l.take 64
  let plen := field h 28 4
  let ct := slice l 64 plen
  let stmt := slice l (80 + plen) 352
  if l.length < 64 ∨ field h 60 4 ≠ crc32c (h.take 60) ∨ 2 ^ 24 < plen ∨ l.length ≠ plen + 528 then .error wkBatchFormat
  else if !ecdsaVerify (be 96 Config.deviceCa) (sha384 (cert.take 160)) (slice cert 160 96) ∨ field cert 8 8 ≠ field h 8 8 then .error wkCertFail
  else if !ecdsaVerify (slice cert 16 96) (sha384 (stmt.take 256)) (slice stmt 256 96)
      ∨ !ecdsaVerify (slice stmt 32 96) (sha384 (l.take (80 + plen))) (slice l (432 + plen) 96) then .error wkSigFail
  else match s.sealSlot (field h 24 4) with
  | none => .error stKeyAbsent
  | some i =>
    let kb := batchKey (s.keySlot i).key (field h 8 8) (field h 16 8)
    if gcmTag kb (slice h 40 12) h ct ≠ slice l (64 + plen) 16 then .error wkTagFail
    else .ok (i, gcmCrypt kb (slice h 40 12) ct)

/-- CRY_GCM_OPEN. -/
def engGcmOpen (t : Nat) (b : List Byte) (s : State) : EngOut :=
  let len := field b 24 4
  if !zeros b 1 7 ∨ !zeros b 28 4 ∨ !zeros b 36 4 ∨ !zeros b 56 8 then .fail s stBadArg
  else if s.keyNotNow then .fail s wkNotNow
  else match s.readBuf t (field b 8 8) len, s.readBuf t (field b 48 8) 256 with
  | .error st, _ => .fail s st
  | _, .error st => .fail s st
  | .ok l, .ok cert =>
    match openBatch l cert s with
    | .error st => .fail (count (kWkv 7) s) st
    | .ok (i, pt) =>
      if !s.bufOk t (field b 16 8) pt.length then .fail s stAccessFault
      else
        let op : KeyOp := { slot := i, epoch := none, dst := field b 16 8, bytes := pt }
        { st := holdOp t op s, status := stOk, out := [(32, le 4 pt.length), (40, le 8 (field l 16 8))] }

/-- CRY_GCM_OPEN as an engine call. -/
def execCryGcmOpen (t : Fin 256) (pi : Fin 8) (rt ra : Fin 32) (s : State) : Result := .next (ecall t pi rt ra 0x71 64 engGcmOpen s)

/-! ## CMAC, digest, signature (R328) -/

/-- The key of a CRY_CMAC: its bytes with the slot and epoch it hangs on, or a status. -/
def cmacKey (b : List Byte) (s : State) : Except Nat (List Byte × Option (Nat × Option Nat)) :=
  let mh := field b 4 4
  let e := s.entry mh
  let k := s.keySlot (field b 1 1)
  match field b 0 1 with
  | 0 =>
    if 2 ^ 20 ≤ mh then .error stBadArg
    else if s.entryBad mh then .error stPoisoned
    else if e.st = .free then .error stNotFound
    else match (s.keySlot e.dkslot.toNat).admits e.kepoch.toNat with
    | some st => .error st
    | none =>
      .ok (frameKey (meterRoot (s.keySlot e.dkslot.toNat).key e.ma) e.kepoch.toNat, some (e.dkslot.toNat, some e.kepoch.toNat))
  | 1 =>
    match s.session (field b 2 2) with
    | some x => if x.open_ then .ok (x.ks, none) else .error stNotFound
    | none => .error stNotFound
  | 2 =>
    if 64 ≤ field b 1 1 then .error stBadArg
    else match k.st with
    | .empty => .error stKeyAbsent
    | .orphaned => .error stKeyOrphaned
    | .active => .ok (kdf k.key (slice b 12 4) (slice b 16 8) (if Config.cmacWide then 256 else 128), some (field b 1 1, none))
  | _ => .error stBadArg

/-- CRY_CMAC. -/
def engCryCmac (t : Nat) (b : List Byte) (s : State) : EngOut :=
  if !zeros b 8 4 ∨ !zeros b 36 4 ∨ !zeros b 56 8 ∨ 3 ≤ field b 0 1 then .fail s stBadArg
  else
    let s0 := count (kWkv 8) s
    match cmacKey b s with
    | .error st =>
      .fail (if st = stKeyAbsent then count (kWkv 1) s0 else if st = stKeyOrphaned then count (kWkv 2) s0 else s0) st
    | .ok (key, under) =>
      match s.readBuf t (field b 24 8) (field b 32 4) with
      | .error st => .fail s0 st
      | .ok m =>
        let s1 := countIf (field b 0 1 == 0) (kWkv 0) s0
        let s2 := match under with
          | some (i, ep) => holdOp t { slot := i, epoch := ep, dst := 0, bytes := [] } s1
          | none => s1
        { st := s2, status := stOk, out := [(40, cmac key m)] }

/-- CRY_CMAC as an engine call. -/
def execCryCmac (t : Fin 256) (pi : Fin 8) (rt ra : Fin 32) (s : State) : Result := .next (ecall t pi rt ra 0x72 64 engCryCmac s)

/-- CRY_SHA384. -/
def engCrySha384 (t : Nat) (b : List Byte) (s : State) : EngOut :=
  if !zeros b 0 8 ∨ !zeros b 20 4 ∨ !zeros b 32 32 then .fail s stBadArg
  else if !s.bufOk t (field b 24 8) 48 then .fail s stAccessFault
  else match s.readBuf t (field b 8 8) (field b 16 4) with
  | .error st => .fail s st
  | .ok m => .ok (writeBuf t (field b 24 8) (sha384 m) s)

/-- CRY_SHA384 as an engine call. -/
def execCrySha384 (t : Fin 256) (pi : Fin 8) (rt ra : Fin 32) (s : State) : Result := .next (ecall t pi rt ra 0x73 64 engCrySha384 s)

/-- CRY_ECDSA_VERIFY. -/
def engEcdsaVerify (t : Nat) (b : List Byte) (s : State) : EngOut :=
  if !zeros b 0 8 ∨ !zeros b 32 32 then .fail s stBadArg
  else match s.readBuf t (field b 8 8) 48, s.readBuf t (field b 16 8) 96, s.readBuf t (field b 24 8) 96 with
  | .error st, _, _ => .fail s st
  | _, .error st, _ => .fail s st
  | _, _, .error st => .fail s st
  | .ok dg, .ok pub, .ok sg => if ecdsaVerify pub dg sg then .ok s else .fail (count (kWkv 10) s) wkSigFail

/-- CRY_ECDSA_VERIFY as an engine call. -/
def execCryEcdsaVerify (t : Fin 256) (pi : Fin 8) (rt ra : Fin 32) (s : State) : Result := .next (ecall t pi rt ra 0x74 64 engEcdsaVerify s)

end Sys2Proof.Machine
end

