-- ==== Sys2Proof/Machine/Trial.lean ====
section
/-! DEFINITION. Slot states, drains, confirmation and fall-back of a trial image (R420, R421, R427 to R431). -/

namespace Sys2Proof.Machine

/-! ## Slots (Table 16-1) -/

/-- State of slot `k` (0 A, 1 B). -/
def Upd.slotSt (u : Upd) (k : Nat) : Nat := if k = 0 then u.stA else u.stB

/-- Slot `k` in another state. -/
def Upd.withSlot (u : Upd) (k v : Nat) : Upd := if k = 0 then { u with stA := v } else { u with stB := v }

/-- The inactive slot. -/
def Upd.spare (u : Upd) : Nat := if u.active = 0 then 1 else 0

/-- BUILD of the image in slot `k`. -/
def State.slotBuild (s : State) (k : Nat) : List Byte := slice (s.slotBytes k 256) 24 16

/-- A pair's units exchange their slot states and the BUILD of each slot (R428). The record stands in the sequence of an active unit's records. -/
def tellTwin (s : State) : State :=
  if !s.cas.paired then s
  else
    let n := s.cas.mirSeq
    let r : MirRec := .slots s.upd.stA s.upd.stB (s.slotBuild 0) (s.slotBuild 1)
    let s1 := if s.cas.pair = 3 ∨ s.cas.pair = 4 then s else { s with cas.mirSeq := n + 1 }
    count (kCas 17) (s1.mirrorPorts.foldl (fun s p => sendOn p s.cas.chipId (.mirror n r) s) s1)

/-- The BOOT field changes: an anchor update, and the twin is told (R421, R428). -/
def putBoot (u : Upd) (s : State) : State := tellTwin (anchorUpdate { s with upd := u })

/-- The inactive slot takes a state. -/
def spareTo (v : Nat) (s : State) : State := putBoot (s.upd.withSlot s.upd.spare v) s

/-- Row 9 arrives: a VERIFIED inactive slot of a chip that its target names becomes ARMED, with its window; an earlier arming ends (R426). -/
def armRow (i : Nat) (r : Row) (window : Nat) (s : State) : State :=
  if i ≠ 9 ∨ r.action ≠ 5 then s
  else
    let st := s.upd.slotSt s.upd.spare
    let named := r.arg / 256 = 0xFF ∨ r.arg / 256 = s.cas.chipId
    if (st = 2 ∨ st = 3) ∧ named then putBoot { s.upd.withSlot s.upd.spare 3 with actT := r.tS, window := window } s
    else if st = 3 then putBoot { s.upd.withSlot s.upd.spare 2 with actT := 0 } s
    else s

/-! ## Drains (R414, Table 16-5) -/

/-- The bank under online test is copied back and its test abandoned, which counts as no failure (R453). -/
def abandonTest (s : State) : State :=
  if s.stest.bank = 0x7F then s
  else { s with stest.bank := 0x7F, glb.reloc := .none, glb.spareBank := 0x7F }


/-- Acks not yet launched are dropped and count as late, frames in reception and answers owed are abandoned, and the TX words go idle
(R32, R410, R414). -/
def dropAir (s : State) : State :=
  let s1 := s.rla.acks.foldl (fun s e => countN (kRla e.1 7) e.2.length s) s
  { s1 with rla.acks := [], rla.layers := [], rla.ports := s1.rla.ports.mapVals fun x => x.cut s.nowNs
            lm.ports := s1.lm.ports.mapVals fun x => { x.cut s.nowNs with rx := none, resp := none } }

/-- A drain starts: acks not yet launched are dropped and count as late, frames in reception are abandoned; what is decided from here
on is WITHHELD, and the TX links carry idle words (R414, R427). -/
def startDrain (d : Drain) (s : State) : State := { abandonTest (dropAir s) with cpm.drain := d }

/-! ## Fall-back (R430, R431) -/

/-- The anchor and the volume of a fall-back from the TRIAL slot `k` to the PREVIOUS slot. -/
def fallBackTo (k : Nat) (s : State) : State :=
  let o := if k = 0 then 1 else 0
  let u := ((s.upd.withSlot k 8).withSlot o 5)
  let s1 := anchorUpdate { s with
    upd := { u with active := o, tries := 0, gen := false, confirmBy := 0, volGen := none, genck := 0, fallbackDue := true,
                    imglen := field (s.slotBytes k 256) 8 4 } }
  count (kUpd 8) (match s.upd.volGen with
    | some g => { s1 with lake.vol := g, lake.volPend := [] }
    | none => s1)

/-- A running part begins to fall back: the drain of Table 16-5. -/
def beginFallBack (s : State) : State := if s.cpm.drain = .fallback then s else startDrain .fallback s

/-! ## Confirmation (R429) -/

/-- SECVER_FLOOR: the number of its bits set. -/
def State.secFloor (s : State) : Nat := popN 256 (s.otpField 0x460 32)

/-- `v` with its lowest `n` clear bits of 256 set. -/
def setLowest (n v : Nat) : Nat :=
  ((List.range 256).foldl (fun (a : Nat × Nat) i => if a.1 = 0 ∨ bitAt v i then a else (a.1 - 1, a.2 + 2 ^ i)) (n, v)).2

/-- Programs SECVER_FLOOR until its bit count is `n` (R429). -/
def raiseFloor (n : Nat) (s : State) : State :=
  if n ≤ s.secFloor then s
  else count (kUpd 9) (programOtp 0x460 (le 32 (setLowest (n - s.secFloor) (s.otpField 0x460 32))) none s).1

/-- The TRIAL slot becomes CONFIRMED, PREVIOUS becomes INACTIVE, the volume generation is released (R429, R431). -/
def confirmTrial (raise : Bool) (s : State) : State :=
  let s1 := if raise then raiseFloor s.secver s else s
  let u := s1.upd.withSlot s1.upd.active 5
  let v := if u.slotSt u.spare = 6 then u.withSlot u.spare 7 else u
  count (kUpd 7) (putBoot { v with gen := false, volGen := none, genck := 0, confirmBy := 0, tries := 0 } s1)

/-- CONFIRM or REJECT as the twin applies it at once. -/
def applyTrialEnd (reject raise : Bool) (s : State) : State :=
  if s.upd.slotSt s.upd.active ≠ 4 then s else if reject then beginFallBack s else confirmTrial raise s

end Sys2Proof.Machine
end

