-- ==== Sys2Proof/Machine/CasPair.lean ====
section
/-! DEFINITION. Standby pairs: unit states, heartbeats, mirroring, switch-over, handover, resynchronisation, HELLO (R374, R384 to R396). -/

namespace Sys2Proof.Machine

/-! ## Class B outputs (R391) -/

/-- PULSE_OUT[3:0] as driven: held, clamped by the isolation cells, at reset values on a unit that is not active, else as the cycle table has set them. -/
def State.pulseOut (s : State) : BitVec 4 :=
  match s.cas.holdB with
  | some h => h.pulse
  | none => match s.cpm.iso with
    | some x => x.1
    | none => if s.cas.paired ∧ (!s.activeUnit ∨ s.glb.mode = .holdup) then 0 else s.tmu.pulse

/-- GPIO outputs and their enables as driven. -/
def State.gpioDrive (s : State) : BitVec 16 × BitVec 16 :=
  match s.cas.holdB with
  | some h => (h.out, h.oe)
  | none => match s.cpm.iso with
    | some x => (x.2.1, x.2.2)
    | none => if s.cas.paired ∧ (!s.activeUnit ∨ s.glb.mode = .holdup) then (0, 0) else (s.cpm.gpioOut, s.cpm.gpioOe)

/-- The word on the TX link of radio port `p`: the last one while the class B outputs are held (R391). -/
def State.radioDrive (s : State) (p : Nat) : Option (BitVec 50) :=
  match s.cas.holdB with
  | some h => h.radio.getD p none
  | none => s.radioTxWord p

/-- The word on the TX link of line port `p`: the last one while the class B outputs are held (R129, R391). -/
def State.lineDrive (s : State) (p : Nat) : Option (BitVec 16) :=
  match s.cas.holdB with
  | some h => h.line.getD p none
  | none => s.lineTxWord p

/-- The class B outputs are held from now on, the TX sample links with their last words. -/
def holdOutputs (s : State) : State :=
  { s with cas.holdB := some { at_ := s.nowNs, pulse := s.pulseOut, out := s.gpioDrive.1, oe := s.gpioDrive.2
                               radio := (List.range 4).map s.radioDrive, line := (List.range 4).map s.lineDrive } }

/-! ## Unit state (Table 14-9) -/

/-- A unit state; leaving state 1 ends the wait for acknowledgements and cancels an automatic handover (R386, R396). -/
def setPair (v : Nat) (s : State) : State :=
  if s.cas.pair = v then s
  else
    let s1 := { s with cas.pair := v }
    let s2 := if v = 1 then s1
      else completeJournal { fetchLost s1 with
        cas.mirOut := [], cas.handoverAt := none, ldg.jq := s1.ldg.jq.map fun r => { r with acked := true } }
    sendHellos s2

/-- The unit becomes the active one of its position (R384, R407). -/
def becomeActive (s : State) : State :=
  enterService (reducedStart (setPair 2 { s with cas.activeSince := s.nowNs, cas.phase := 0 }))

/-- Ports that are up. -/
def State.upPorts (s : State) : List Nat := (s.cas.ports.filter fun p => p.2.st == 2).map (·.1)

/-- A link word on every port that is up. -/
def wordAll (kind arg seq arg2 : Nat) (s : State) : State := s.upPorts.foldl (fun s p => sendWord p kind arg seq arg2 s) s

/-- FAIL on every path (R388): an explicit signal, cause 1. -/
def sendFail (s : State) : State := wordAll 5 1 0 0 s

/-! ## Takeover (R390, Table 14-10) -/

/-- A shadow-decided frame whose launch point lies ahead is tested again, booked or answered (step 4). -/
def retest (x : Shadowed) (s : State) : State :=
  let f := x.frame
  let ahead := if x.src < 256 then decide (s.nowNs + (s.rport (x.src / 64)).desc.txPath ≤ x.fe + 50000000) else decide (s.nowNs ≤ x.fe + 50000)
  if !ahead then s
  else
    let j := judgeFrame f true true x.src x.fe x.line (s.latch (frMa f) (frKepoch f)) false s
    if x.src < 256 then match j.ack with
      | some o => scheduleAck x.src x.fe (j.mh.getD 0) o j.st
      | none => j.st
    else match x.resp with
      | some r => updLport (x.src - 256) (fun p => { p with resp := some { r with
          code := respCode j.code, ackreq := frAckreq f, ack := j.ack.map fun o => o.frame.take (o.frame.length - 2) } }) j.st
      | none => j.st

/-- The steps of Table 14-10 with their notice and Sepia record; GAP is a free value below 1,749 µs (log 5). -/
def takeover (cause : Nat) (s : State) : State :=
  let frames := s.cas.shadow
  let s1 := wordAll 6 0 0 0 s
  let s2 := { s1 with
    cas.shadow := [], cas.phase := 0, cas.activeSince := s.nowNs, cas.holdB := none
    rla.ports := s1.rla.ports.mapVals fun x => { x with bmiss := 0 } }
  let s3 := setPair 2 s2
  let s4 := if s.lake.ready then replayBoundaries s.nowS s3 else s3
  let s5 := restoreNodes (frames.foldl (fun s x => retest x s) s4)
  let (g, s6) := drawFree s5
  let gap := g % 1749
  let s7 := count (kCas 8) (setMode .service false { s6 with cas.gap := BitVec.ofNat 32 gap })
  postNotice 0x0B02 0 (le 1 cause ++ zeroBytes 3 ++ le 4 gap) (sepWrite 0x0105 (le 1 cause ++ zeroBytes 3 ++ le 4 gap) s7)

/-- A failure of the active unit is declared (R387, R388, R394): a standby takes over, a resynchronising unit starts again. -/
def declareFailure (cause : Nat) (s : State) : State :=
  if s.cas.failed then s
  else if s.cas.pair = 3 then takeover cause s
  else if s.cas.pair = 4 then { s with cpm.resetDue := some 3 }
  else s

/-- Ports by which the twin's heartbeats have arrived, with the heartbeats missed on each. -/
def State.hbPaths (s : State) : List (Nat × Nat) := (s.cas.ports.filter fun p => p.2.hbAt.isSome).map fun p => (p.1, p.2.hbMiss)

/-- CAS_PAIR.PATHS: live heartbeat paths. -/
def State.livePaths (s : State) : Nat := (s.hbPaths.filter fun p => decide (p.2 < 3)).length

/-- CAS_PAIR.HBMISS: consecutive missed heartbeats on the best path. -/
def State.bestMiss (s : State) : Nat := if s.hbPaths.isEmpty then 0 else min 3 (s.hbPaths.foldl (fun n p => min n p.2) 3)

/-! ## Heartbeats (R387) -/

/-- HEARTBEAT_SEND: every 100 µs, on every port that is up (log 46). -/
def execHeartbeatSend (s : State) : Result :=
  .next (
    if !s.cas.paired ∨ s.cas.pair = 0 ∨ !s.casRuns ∨ s.nowNs < s.cas.hbSentAt + 100000 then s
    else
      let n := s.cas.hbNo + 1
      s.upPorts.foldl (fun s p => sendWord p 4 s.cas.pair n.toNat s.cas.chipId (count (kCasPort p 6) s))
        { s with cas.hbNo := n, cas.hbSentAt := s.nowNs })

/-- A missed heartbeat on a port: the third one makes the path silent; when every path is, failure is declared. -/
def missHeartbeat (p : Nat) (s : State) : State :=
  let s1 := count (kCasPort p 7) (updCport p (fun c => { c with hbMiss := c.hbMiss + 1 }) s)
  if s1.livePaths = 0 then declareFailure 0 s1
  else if s.cas.pair = 3 ∧ (s1.cport p).hbMiss = 3 then postNotice 0x0B03 0 (le 1 p) s1
  else s1

/-- The yield of the shorter-serving active unit (R393). -/
def yieldTo (p : Nat) (s : State) : State :=
  let b := match s.lastDurable with | some r => r.bseq | none => 0
  { sepWrite 0x0106 (le 1 p ++ zeroBytes 7) (recEvent 0x0009 (le 1 p ++ zeroBytes 7 ++ le 8 b) s) with cpm.resetDue := some 3 }

/-- Ports to the other unit of the position at port `p`. -/
def State.siblings (s : State) (p : Nat) : List Nat :=
  let c := s.cport p
  (s.cas.ports.filter fun q => q.1 != p && q.2.st == 2 && q.2.peerId == c.peerId && c.role != 4 && q.2.role != 4).map (·.1)

/-- HEARTBEAT_RECEIVE: the twin's heartbeat, or one of another position, which is relayed to that position's other unit; `longer`:
where both units are active, the peer has been active longer without a break. -/
def execHeartbeatReceive (port : Fin 4) (relayed : Bool) (state : Fin 16) (no id : BitVec 16) (longer : Bool) (crc : BitVec 16) (s : State) : Result :=
  let p := port.val
  .next (takeWord p (wordOk 4 (128 * flag relayed + state.val) no.toNat id.toNat crc) (fun s =>
    if s.cas.paired ∧ id.toNat = s.cas.chipId then
      if 5 ≤ state.val then missHeartbeat p s
      else
        let s1 := updCport p (fun c => { c with hbState := state.val, hbAt := some s.nowNs, hbMiss := 0 }) s
        if (s.cas.pair = 1 ∨ s.cas.pair = 2) ∧ (state.val = 1 ∨ state.val = 2) ∧ longer then yieldTo p s1 else s1
    else if relayed then s
    else
      (s.siblings p).foldl (fun s q => sendWord q 4 (128 + state.val) no.toNat id.toNat s) s) s)

/-- HEARTBEAT_MISS: the next heartbeat of a path has not arrived 10 µs after its due time. -/
def execHeartbeatMiss (port : Fin 4) (s : State) : Result :=
  .next (
    let c := s.cport port.val
    match c.hbAt with
    | none => s
    | some a =>
      if !s.casRuns ∨ 3 ≤ c.hbMiss ∨ s.nowNs < a + 100000 * (c.hbMiss + 1) + 10000 then s else missHeartbeat port.val s)

/-- A FAIL or TAKEOVER word goes on to the other unit of its sender's position. -/
def relayWord (p kind arg : Nat) (s : State) : State := (s.siblings p).foldl (fun s q => sendWord q kind arg 0 0 s) s

/-- FAIL_WORD: the twin's explicit signal, on a MIRROR link or on a path by which its heartbeats come; else it is relayed (log 46). -/
def execFailWord (port : Fin 4) (cause : Fin 256) (crc : BitVec 16) (s : State) : Result :=
  let p := port.val
  .next (takeWord p (wordOk 5 cause.val 0 0 crc) (fun s =>
    let c := s.cport p
    if s.cas.paired ∧ (c.role = 4 ∨ c.hbAt.isSome) then declareFailure (min 1 cause.val) s
    else relayWord p 5 cause.val s) s)

/-- The hold ends: outputs go to their reset values; a unit that failed passes through reset (R388, R391). -/
def releaseOutputs (s : State) : State :=
  let s1 := { s with cas.holdB := none }
  if s.cas.failed then { s1 with cpm.resetDue := some 3 } else s1

/-- TAKEOVER: a child swaps UP and ALTUP, a parent takes the link as the position's, the unit that was active releases its outputs. -/
def execTakeover (port : Fin 4) (crc : BitVec 16) (s : State) : Result :=
  let p := port.val
  .next (takeWord p (wordOk 6 0 0 0 crc) (fun s =>
    let c := s.cport p
    let role := fun (r : Nat) (s : State) (q : Nat) => updCport q (fun x => { x with role := r }) s
    let of_ := fun (r : Nat) (s : State) => (s.cas.ports.filter fun x => x.1 != p && x.2.role == r).map (·.1)
    if c.role = 2 then relayWord p 6 0 (role 1 ((of_ 1 s).foldl (role 2) s) p)
    else if c.role = 3 then
      let others := (s.cas.ports.filter fun x => x.1 != p && x.2.role == 3 && x.2.peerId == c.peerId).map (·.1)
      let s1 := others.foldl (fun s q => updCport q (fun x => { x with peerStby := true }) s) s
      relayWord p 6 0 (updCport p (fun x => { x with
        peerStby := false, subtree := match others with | q :: _ => (s.cport q).subtree | [] => x.subtree }) s1)
    else if c.role = 4 ∧ s.cas.holdB.isSome then releaseOutputs s
    else s) s)

/-- CLASSB_HOLD_RELEASE: 57 SLOWCLK cycles, 1.739 ms, after the hold began (R391). -/
def execClassbHoldRelease (s : State) : Result :=
  .next (match s.cas.holdB with
    | some h => if h.at_ + 1739502 ≤ s.nowNs ∨ s.stest.frozen then releaseOutputs s else s
    | none => s)

/-! ## Handover (R389, R396) -/

/-- HANDOVER: BAD_ARG unless protected, out of HOLD-UP and no activation within 1 s; else FAIL, and the unit is standby (log 46). -/
def doHandover (s : State) : State × Nat :=
  let r := s.row 9
  if s.cas.pair ≠ 1 ∨ s.glb.mode = .holdup ∨ (r.action ≠ 0 ∧ r.at_ ≤ s.nowNs + 1000000000) then (s, stBadArg)
  else (setMode .standby false (setPair 3 (holdOutputs (sendFail s))), stOk)

/-- AUTO_HANDOVER: 10 s after RESYNC_DONE the active unit of a master position of 9 to 64 positions that is not PRIMARY hands over; a
refusal is tried again 10 s later. -/
def execAutoHandover (s : State) : Result :=
  .next (match s.cas.handoverAt with
    | none => s
    | some t =>
      if s.nowNs < t ∨ !s.casRuns then s
      else if s.cas.master ∧ !s.cas.primary ∧ 9 ≤ s.cas.chips ∧ s.cas.pair = 1 then
        let (s1, st) := doHandover s
        if st = stOk then s1 else { s with cas.handoverAt := some (s.nowNs + 10000000000) }
      else { s with cas.handoverAt := none })

/-- MIRROR_HELLO_TIMEOUT: 10 ms after its mirror lanes became active a paired unit has heard no HELLO and is the active unit (R407). -/
def execMirrorHelloTimeout (s : State) : Result :=
  .next (
    if s.cas.paired ∧ s.cas.pair = 0 ∧ s.casRuns ∧ s.cas.helloAt + 10000000 ≤ s.nowNs then becomeActive s else s)

/-! ## Mirror records (R385, Table 14-8) -/

/-- A journal record joins the standby's open records and its own Lake's queue; one of a reserved type has no effect and counts (R183). -/
def mirJournal (r : JRec) (s : State) : State :=
  let s1 := stageRec { r with acked := true, landed := false } (countIf r.skipped (kLdg 12) s)
  match r.eff with
  | .boundary b _ => if r.skipped then s1 else { s1 with ldg.bseq := max s1.ldg.bseq b.bseq, ldg.evalT := max s1.ldg.evalT b.until }
  | _ => s1

/-- A keyslot record; a raised EPMIN is committed on receipt (R314, R320). -/
def mirKey (i : Nat) (k : KeySlot) (s : State) : State :=
  let old := s.keySlot i
  let s1 := if old.st = .active ∧ old.epmin < k.epmin then commitEpmin i k.epmin s else s
  keyChanged i { s1 with woad.slots := s1.woad.slots.put {} i k }

/-- What a mirror record changes on the unit that receives it. -/
def applyMir (r : MirRec) (s : State) : State :=
  match r with
  | .dir mh e => { s with ing.dir := s.ing.dir.put {} mh e }
  | .slot i (some c) => { s with ing.cmdSlots := s.ing.cmdSlots.ins i c }
  | .slot i none => { s with ing.cmdSlots := s.ing.cmdSlots.del i }
  | .journal j => mirJournal j s
  | .row i x w => armRow i x w { s with tmu.rows := s.tmu.rows.put {} i x }
  | .key i k => mirKey i k s
  | .tomb i => keyChanged i (commitTomb i s)
  | .bcast b => keyChanged 64 { s with woad.bcast := b }
  | .cfloor role v => keyChanged 65 (closeSessions (fun x => x.open_ && x.role == role && decide (x.cred < v.toNat)) { s with woad.cfloor := s.woad.cfloor.put 0 role v })
  | .partMap m => { s with cas.partMap := some m }
  | .camp i (some c) => { s with upd.camps := s.upd.camps.ins i c }
  | .camp i none => { s with upd.camps := s.upd.camps.del i }
  | .confirm m => { s with upd.confirmBy := m }
  | .ledger d jseq bseq evalT => { s with ldg.live := d, ldg.dur := d, ldg.jq := [], ldg.jlog := [], ldg.jseq := jseq, ldg.bseq := bseq, ldg.evalT := evalT }
  | .closed mh l =>
    let put := fun (m : Map Meter) => m.put {} mh { m.get {} mh with closed := l }
    { s with ldg.live.meters := put s.ldg.live.meters, ldg.dur.meters := put s.ldg.dur.meters }
  | .slots a b x y => { s with cas.twinStates := a + 16 * b, cas.twinBuild := fit 16 x ++ fit 16 y }
  | .trialEnd reject raise => applyTrialEnd reject raise s

/-- MIRROR: a record is applied once, in order, by a standby or resynchronising unit, slot states by any unit, and acknowledged. -/
def execMirror (h : CHead) (m : Flit) (s : State) : Result :=
  .next (takeMsg 0xD h m (fun s =>
    match m with
    | .mirror n r =>
      let slots := match r with | .slots .. => true | _ => false
      let s1 := if slots then applyMir r s
        else if (s.cas.pair = 3 ∨ s.cas.pair = 4) ∧ s.cas.mirSeq ≤ n then applyMir r { s with cas.mirSeq := n + 1 }
        else s
      sendOn h.port.val h.src (.mack n) s1
    | _ => s) s)

/-- MACK: the acknowledgement completes what waits on the record (R386, R317). -/
def execMack (h : CHead) (m : Flit) (s : State) : Result :=
  .next (takeMsg 0xE h m (fun s =>
    match m with
    | .mack n =>
      match firstWhere (fun (x : MirOut) => x.seq == n) s.cas.mirOut with
      | none => s
      | some x =>
        let s1 := countIf (decide (x.at_ + 2000000 < s.nowNs)) (kCas 18) { s with cas.mirOut := s.cas.mirOut.filter fun y => y.seq != n }
        match x.jseq with
        | some j => completeJournal { s1 with ldg.jq := s1.ldg.jq.map fun r => if r.jseq = j then { r with acked := true } else r }
        | none => s1
    | _ => s) s)

/-- MIRROR_ACK_TIMEOUT: a MACK missing 2 ms after its record makes the pair unprotected (R386). -/
def execMirrorAckTimeout (s : State) : Result :=
  onCores s (
    if s.cas.pair = 1 ∧ s.cas.mirOut.any (fun x => decide (x.at_ + 2000000 ≤ s.nowNs)) then
      let p := match s.cas.ports.find? (fun q => q.2.role == 4) with | some q => q.1 | none => 0
      postNotice 0x0B03 0 (le 1 p) (count (kCas 18) (setPair 2 s))
    else s)

/-! ## Resynchronisation (R394, Table 14-12) -/

/-- The meters of ledger data without their closed records. -/
def LData.openOnly (d : LData) : LData := { d with meters := d.meters.mapVals fun m => { m with closed := [] } }

/-- The bulk copy of phase 2. -/
def State.bulk (s : State) : List MirRec :=
  [.ledger s.ldg.dur.openOnly (match s.ldg.jq with | r :: _ => r.jseq | [] => s.ldg.jseq) s.ldg.bseq s.ldg.evalT]
    ++ s.ing.dir.map (fun e => .dir e.1 e.2) ++ s.ing.cmdSlots.map (fun e => .slot e.1 (some e.2))
    ++ s.tmu.rows.map (fun e => .row e.1 e.2 s.upd.window) ++ s.woad.slots.map (fun e => .key e.1 e.2) ++ [.bcast s.woad.bcast]
    ++ s.woad.cfloor.map (fun e => .cfloor e.1 e.2) ++ (match s.cas.partMap with | some m => [.partMap m] | none => [])
    ++ s.upd.camps.map (fun e => .camp e.1 (some e.2)) ++ [.confirm s.upd.confirmBy]

/-- The active unit sends the state of phases 1 to 4 to its twin on port `p`; the live stream runs from here on. -/
def startResync (p : Nat) (s : State) : State :=
  let xmit := fun (m : Flit) (s : State) => sendOn p s.cas.chipId m s
  let s1 := { s with cas.phase := 4, cas.pct := 0, cas.resyncAt := s.nowNs, cas.mirOut := [], cas.mirSeq := 0 }
  xmit (.resync 4 0 []) (xmit (.resync 3 100 (s1.ldg.jq.map .journal)) (xmit (.resync 2 100 s1.bulk) (xmit (.resync 1 100 []) s1)))

/-- The twin is standby: RESYNC_DONE, the pair protected, and the closed records follow as phase 5. -/
def resyncDone (p : Nat) (s : State) : State :=
  let ms := (s.nowNs - s.cas.resyncAt) / 1000000
  let s1 := count (kCas 9) (setPair 1 { s with cas.phase := 0, cas.pct := 0, cas.handoverAt := some (s.nowNs + 10000000000) })
  let s2 := postNotice 0x0B04 1 (le 1 p ++ zeroBytes 3 ++ le 4 ms) s1
  sendOn p s2.cas.chipId (.resync 5 100 ((s2.ldg.dur.meters.filter fun e => !e.2.closed.isEmpty).map fun e => .closed e.1 e.2.closed)) s2

/-- RESYNC: a phase reaches the resynchronising unit, or the active unit learns that phase 4 is complete. -/
def execResync (h : CHead) (m : Flit) (s : State) : Result :=
  .next (takeMsg 0xF h m (fun s =>
    match m with
    | .resync ph pct recs =>
      let p := h.port.val
      if s.cas.pair = 2 then if ph = 4 ∧ s.cas.phase = 4 then resyncDone p s else s
      else if s.cas.pair = 4 then
        let s1 := recs.foldl (fun s r => applyMir r s) { s with cas.phase := ph, cas.pct := pct, cas.mirSeq := if ph = 1 then 0 else s.cas.mirSeq }
        if ph = 4 then
          setMode .standby false (sendOn p h.src (.resync 4 100 []) (setPair 3 { s1 with cas.phase := 5, cas.pct := 0 }))
        else s1
      else if s.cas.pair = 3 ∧ ph = 5 then
        recs.foldl (fun s r => applyMir r s) { s with cas.phase := 0, cas.pct := 0 }
      else s
    | _ => s) s)

/-! ## HELLO (R374, R393, R394, R407) -/

/-- The checks of R374 between this end and what HELLO says of the other. -/
def State.helloFits (s : State) (role owner peerRole pair : Nat) (build : List Byte) : Bool :=
  owner == s.woad.owner &&
    (((role == 1 || role == 2) && peerRole == 3) || (role == 3 && (peerRole == 1 || peerRole == 2)) ||
      (role == 4 && peerRole == 4 && build == s.build && bitAt pair 1 != s.cas.primary))

/-- What a unit does on its twin's HELLO: find its role, resynchronise the twin, or settle which of two active units stays. -/
def twinHello (p pState : Nat) (longer : Bool) (s : State) : State :=
  let peerActive := pState = 1 ∨ pState = 2
  match s.cas.pair with
  | 0 =>
    if !s.cas.paired then s
    else
      let lead := s.cas.twinRestart.getD (s.cas.primary && !peerActive && pState != 3)
      let s1 := { s with cas.twinRestart := none }
      if lead then becomeActive s1 else setPair 4 { s1 with cas.phase := 1, cas.pct := 0 }
  | 3 => if pState = 2 ∧ !s.cas.failed then setPair 4 { s with cas.phase := 1, cas.pct := 0 } else s
  | 4 => s
  | _ =>
    if pState = 4 then startResync p (setPair 2 s)
    else if peerActive ∧ longer then yieldTo p s
    else s

/-- HELLO: checked; the link comes up or is held in error; `longer`: where both units are active, the peer has been active longer. -/
def execHello (h : CHead) (m : Flit) (longer : Bool) (s : State) : Result :=
  .next (takeMsg 1 h m (fun s =>
    match m with
    | .hello _ owner peerRole pair pState id build =>
      let p := h.port.val
      let c := s.cport p
      if !s.helloFits c.role owner peerRole pair build then
        let s1 := count (kCas 20) s
        if c.st = 2 then portDown p 3 s1 else updCport p (fun c => { c with st := 3 }) s1
      else
        let stby := decide (pState = 3 ∨ pState = 4)
        let s1 := updCport p (fun c => { c with st := 2, peerId := id, peerState := pState, peerStby := stby, peerBuild := build }) s
        let s2 := if c.st = 2 then s1 else sendHello p s1
        if c.role = 4 then
          let s3 := if s2.cas.pair = 3 ∨ s2.cas.pair = 4 then { s2 with cas.chipId := id } else s2
          twinHello p pState longer (if c.st = 2 then s3 else tellTwin s3)
        else if c.st = 2 ∧ c.peerStby = stby then s2
        else rediscover s2
    | _ => s) s)

end Sys2Proof.Machine
end

