-- ==== Sys2Proof/Machine/Host.lean ====
section
/-! DEFINITION. The Host Port: doorbells, queues, fetch and judgement, delivery, completions, MSI-X, notices (R284 to R296, R299 to R304). -/

namespace Sys2Proof.Machine

/-! ## Queues (R286, R288) -/

/-- Queue pair `i`. -/
def State.queue (s : State) (i : Nat) : QPair := s.hp.queues.get {} i

/-- The state with queue pair `i` changed by `f`. -/
def updQueue (i : Nat) (f : QPair → QPair) (s : State) : State :=
  { s with hp.queues := s.hp.queues.put {} i (f (s.queue i)) }

/-- Commands of queue `i` in flight, those to be discarded apart. -/
def State.inflight (s : State) (i : Nat) : Nat := (s.hp.cmds.filter fun c => c.sqid == i && !c.discard).length

/-- DRAIN: commands of queue `i` whose completions will be discarded. -/
def State.draining (s : State) (i : Nat) : Bool := s.hp.cmds.any fun c => c.sqid == i && c.discard

/-- A queue stops on an error, which posts HOST_QUEUE_ERROR (R286, R288). -/
def queueError (i err : Nat) (s : State) : State :=
  postNotice 0x0F01 0 (le 1 i ++ le 1 err) (updQueue i (fun q => { q with err := err, stopped := true }) s)

/-- EN takes effect: bases, VEC and TMO are latched, pointers go to 0; a VEC above 17 leaves the queue disabled (R288). -/
def enableQueue (i : Nat) (s : State) : State :=
  updQueue i (fun q =>
    let v := q.ctl.toNat
    if 17 < bits v 28 24 then { q with en := false, enWaits := false, err := 3 }
    else
      { q with en := true, enWaits := false, stopped := false, err := 0, sqBaseL := q.sqBase, cqBaseL := q.cqBase
               vec := bits v 28 24, tmo := bits v 15 8, sqHead := 0, tail := 0, cqTail := 0, cqHead := 0 }) s

/-- An EN that waited for DRAIN takes effect once DRAIN has cleared. -/
def drainCheck (i : Nat) (s : State) : State :=
  if (s.queue i).enWaits ∧ !s.draining i then enableQueue i s else s

/-- HP_Q_CTL keeps EN, VEC, COAL and TMO. -/
def qCtlMask : BitVec 32 := 0x9FFFFF00

/-- A write of HP_Q_CTL for the selected queue: EN = 1 enables it; EN = 0 disables it, and completions of its commands in flight will be
discarded (R288). -/
def queueCtl (v : BitVec 32) (s : State) : State :=
  let i := s.hp.qSel.toNat
  let q := s.queue i
  let s1 := updQueue i (fun q => { q with ctl := v &&& qCtlMask }) s
  if !bitAt v.toNat 31 then
    let s2 := updQueue i (fun q => { q with en := false, enWaits := false }) s1
    { s2 with hp.cmds := s2.hp.cmds.map fun c => if c.sqid = i then { c with discard := true } else c }
  else if q.en ∨ q.enWaits then s1
  else if s.draining i then updQueue i (fun q => { q with enWaits := true }) s1
  else enableQueue i s1

/-- QUEUE_ENABLE: a write of HP_Q_CTL with EN = 1, whatever bit 31 of the operand holds. -/
def execQueueEnable (v : BitVec 32) (s : State) : Result := onClock s (queueCtl (v ||| 0x80000000) s)

/-- QUEUE_DISABLE: a write of HP_Q_CTL with EN = 0, whatever bit 31 of the operand holds. -/
def execQueueDisable (v : BitVec 32) (s : State) : Result := onClock s (queueCtl (v &&& 0x7FFFFFFF) s)

/-- SQ_TAIL_DOORBELL: new commands, or an overrun that stops the queue (R286); a doorbell of a queue not enabled is ignored and counted. -/
def execSqTailDoorbell (i : Fin 16) (v : BitVec 32) (s : State) : Result :=
  onClock s (
    let q := s.queue i
    let t := v.toNat % 128
    if !q.en ∨ q.stopped then count (kHp 19) s
    else if 64 < (t + 128 - q.sqHead) % 128 then queueError i 1 s
    else updQueue i (fun q => { q with tail := t }) s)

/-- CQ_HEAD_DOORBELL: completion entries consumed. -/
def execCqHeadDoorbell (i : Fin 16) (v : BitVec 32) (s : State) : Result :=
  onClock s (if (s.queue i).en then updQueue i (fun q => { q with cqHead := v.toNat % 128 }) s else count (kHp 19) s)

/-! ## Judging a command (R289, R290, R293) -/

/-- The built-ins (Table 10-8). -/
def builtin (eno : Nat) : Bool := decide (0xFF00 ≤ eno ∧ eno ≤ 0xFF08)

/-- An image ENO with a row whose SRC is 0 or 0xFF (R290). -/
def State.imageEno (s : State) (eno : Nat) : Bool :=
  decide (1 ≤ eno ∧ eno ≤ 0xEFFF) && (match s.entryOf eno with | some e => e.src == 0 || e.src == 0xFF | none => false)

/-- Roles a built-in admits, on a carrier. -/
def builtinRole (eno role : Nat) (c : Carrier) : Bool :=
  match eno with
  | 0xFF05 => role == 2 || role == 6
  | 0xFF06 => (role == 2 || role == 6) && decide (c ≠ .pcie)
  | 0xFF08 => role == 4 || role == 5
  | _ => true

/-- The replay window of R293: the session after a counter is accepted, or none. -/
def Session.window (x : Session) (c : Nat) : Option Session :=
  let h := x.hcnt.toNat
  if x.exhausted then none
  else if x.empty ∨ h < c then
    let d := if x.empty then 64 else c - h
    some { x with wbits := if 64 ≤ d then 1 else (x.wbits <<< d) ||| 1, hcnt := BitVec.ofNat 32 c, empty := false }
  else if 63 < h - c ∨ x.wbits.getLsbD (h - c) then none
  else some { x with wbits := x.wbits ||| BitVec.ofNat 64 (2 ^ (h - c)) }

/-- HOST_AUTH_ALARM (R293, R322). -/
def authAlarm (sid role : Nat) (c : Carrier) (s : State) : State :=
  postNotice 0x0F02 0 (le 2 sid ++ le 1 c.code ++ le 1 role) s

/-- An AUTH_FAIL of a session: the sixteenth within 1 s closes it (R293). -/
def authFail (sid : Nat) (x : Session) (s : State) : State :=
  let f := (x.fails.filter fun t => decide (s.nowNs < t + 1000000000)) ++ [s.nowNs]
  if 16 ≤ f.length then
    recEvent 0x0008 (le 2 sid ++ le 1 x.carrier.code ++ le 1 x.role ++ zeroBytes 4) (authAlarm sid x.role x.carrier (closeSession sid s))
  else { s with hp.sessions := s.hp.sessions.ins sid { x with fails := f } }

/-- Checks 4 to 7 of R289 on a command, with its session's role: the refusing status, or 0. -/
def Cmd.refusal (c : Cmd) (role : Option Nat) (short : Bool) (lastEntry : Bool) (s : State) : Nat :=
  let car := carrierOf c.sqid
  if bits (field c.raw 2 1) 4 0 ≠ 0 ∨ !zeros c.raw 3 1 ∨ !zeros c.raw 50 2 ∨ (c.sid = 0 ∧ !zeros c.raw 52 12) ∨
      (c.buf ≠ 0 ∧ (!(c.hasData || c.rbuf) ∨ c.buf % 8 ≠ 0 ∨ car ≠ .pcie)) ∨ (c.hasData ∧ !lastEntry) then hpBadCommand
  else if 8192 < c.dlen8 ∨ (c.dlen8 = 0) = c.hasData ∨ c.rlen8 = 1 ∨ 8192 < c.rlen8 ∨ (c.rlen8 = 0) = c.rbuf ∨ short then hpBadLen
  else if !(builtin c.eno || s.imageEno c.eno) then hpUnknownEntry
  else match role with
  | none => if 0xFF00 ≤ c.eno ∧ c.eno ≤ 0xFF03 then stOk else hpAuthNoSession
  | some r => if builtin c.eno ∧ !builtinRole c.eno r car then hpRoleDenied else stOk

/-- The ETH queue, with the commands that wait to join it, has no room (R302). -/
def State.ethFull (s : State) : Bool :=
  decide (256 ≤ (s.mcc.queues.get [] 1).length + (s.hp.cmds.filter fun c => decide (16 ≤ c.sqid) && decide (c.stage = .judged) && !builtin c.eno).length)

/-- A command is judged (R289) and joins the commands in flight: with its completion registered where a check fails. `dmaOk`: its data was read. -/
def judge (c : Cmd) (dmaOk short lastEntry : Bool) (s : State) : State :=
  let add := fun (c : Cmd) (s : State) =>
    { s with hp.cmds := s.hp.cmds ++ [{ c with no := s.hp.fetched }], hp.fetched := s.hp.fetched + 1 }
  let refuse := fun (c : Cmd) (st : Nat) (s : State) => registerCmd s.hp.fetched st 0 none (add c s)
  let last := fun (c : Cmd) (role : Option Nat) (s : State) =>
    let st := c.refusal role short lastEntry s
    if st = stOk then add c s else refuse c st s
  if c.sid = 0 then
    if !dmaOk then refuse c hpDmaFault s else last c none s
  else match s.session c.sid with
  | none => refuse c hpAuthNoSession s
  | some x =>
    if !x.open_ ∨ x.carrier ≠ carrierOf c.sqid then refuse c hpAuthNoSession s
    else
      let c1 := { c with ks := x.ks }
      if !dmaOk then refuse c1 hpDmaFault s
      else if (cmac x.ks (c.raw.take 56 ++ c.data)).take 8 ≠ c.tag then refuse c1 hpAuthFail (authFail c.sid x s)
      else if 16 ≤ c.sqid ∧ !builtin c.eno ∧ s.ethFull then refuse c1 hpBusy s
      else match x.window c.ccnt with
      | none => refuse c1 hpAuthReplay s
      | some x1 =>
        let done := c.ccnt = 0xFFFFFFFF
        let s1 := { s with hp.sessions := s.hp.sessions.ins c.sid { x1 with exhausted := decide done } }
        last c1 (some x.role) (if done then postNotice 0x0F03 1 (le 2 c.sid) s1 else s1)

/-- The modes in which the Host Port fetches and takes commands (R410, R415, R454). -/
def State.hostRuns (s : State) : Bool := s.coresRun

/-- Queue `i` has work: enabled, an entry to fetch, and fewer than 64 of its commands in flight (R286). -/
def State.hasWork (s : State) (i : Nat) : Bool :=
  let q := s.queue i
  q.en && !q.stopped && q.sqHead != q.tail && decide (s.inflight i < 64)

/-- The queue whose turn it is: round robin over those with work, from the one after the last served (R286). -/
def State.nextQueue (s : State) : Option Nat := firstWhere s.hasWork ((List.range 16).map fun k => (s.hp.turn + 1 + k) % 16)

/-- COMMAND_FETCH: the entry at SQHEAD of the queue whose turn it is, with its data, is fetched and judged. `raw` and `data` are what host memory
returned; `ok` and `dataOk` say that the reads ended without error (R286, R288). -/
def execCommandFetch (i : Fin 16) (raw data : List Byte) (ok dataOk : Bool) (s : State) : Result :=
  .next (
    if s.nextQueue ≠ some i.val ∨ s.hp.d3hot ∨ !s.hostRuns ∨ s.cpm.drain = .activation ∨ s.cpm.drain = .fallback then s
    else if !ok then queueError i 2 { s with hp.turn := i }
    else
      let s1 := count (kHp 0) (updQueue i (fun q => { q with sqHead := (q.sqHead + 1) % 128 }) { s with hp.turn := i })
      let c : Cmd := { raw := fit 64 raw, sqid := i }
      judge (if c.hasData then { c with data := fit (8 * min c.dlen8 8192) data } else c) (dataOk || !c.hasData) false true s1)

/-! ## Delivery (R289 FENCE, R291) -/

/-- FENCE lets command `c` go: its own waits for every earlier command of its queue, and no later one passes it (R289). -/
def State.fenceOk (s : State) (c : Cmd) : Bool :=
  s.hp.cmds.all fun d =>
    d.sqid != c.sqid || decide (c.no ≤ d.no) || (!c.fence && !(d.fence && decide (d.stage = .judged)))

/-- The first of `n` free consecutive pool units (R291). -/
def State.poolRoom (s : State) (n : Nat) : Option Nat :=
  firstWhere (fun u => (List.range n).all fun j => !s.hp.poolUsed.get false (u + j)) (List.range (129 - n))

/-- Pool units of a command. -/
def Cmd.units (c : Cmd) : Nat := ceilDiv (8 * max c.dlen8 c.rlen8) 4096

/-- RTAG of a command: ROLE and SID of its session (R291). -/
def State.cmdRtag (s : State) (c : Cmd) : Word :=
  match s.session c.sid with
  | some x => Word.of (x.role + 256 * c.sid)
  | none => 0

/-- COMMAND_DELIVER: the oldest image command of a queue that FENCE and the pool let go becomes a HOST or ETH event. -/
def execCommandDeliver (q : Fin 18) (s : State) : Result :=
  onCores s (
    let ready := fun (c : Cmd) => c.sqid == q.val && decide (c.stage = .judged) && !builtin c.eno && s.fenceOk c && (s.poolRoom c.units).isSome
    match firstWhere ready s.hp.cmds with
    | none => s
    | some c =>
      let u := (s.poolRoom c.units).getD 0
      let addr := if c.units = 0 then 0 else 0x10100000 + 4096 * u
      let s1 := { s with
        hp.poolUsed := (List.range c.units).foldl (fun m j => m.put false (u + j) true) s.hp.poolUsed
        mcc.shared := writeBytes s.mcc.shared (0x100000 + 4096 * u) c.data
        hp.cmds := s.hp.cmds.map fun d =>
          if d.no = c.no then { d with stage := .delivered, deliveredAt := s.nowNs, pool := if c.units = 0 then none else some (u, c.units) } else d }
      let body := c.raw ++ le 8 addr ++ le 4 (4096 * c.units) ++ le 4 c.data.length ++ zeroBytes 32
      count (kHp 1) (postEvent (if q.val < 16 then 0 else 1) 0 c.ref (s.cmdRtag c) body s1))

/-- A command leaves the list of commands in flight. -/
def dropCmd (no : Nat) (s : State) : State := { s with hp.cmds := s.hp.cmds.filter fun c => c.no != no }

/-- COMMAND_TIMEOUT: the oldest delivered command of a queue has no completion TMO × 100 ms after its delivery (R296). -/
def execCommandTimeout (q : Fin 16) (s : State) : Result :=
  onClock s (
    let tmo := (s.queue q).tmo
    let late := fun (c : Cmd) => c.sqid == q.val && decide (c.stage = .delivered) && !c.discard && decide (c.deliveredAt + tmo * 100000000 ≤ s.nowNs)
    match (if tmo = 0 then none else firstWhere late s.hp.cmds) with
    | none => s
    | some c =>
      let s1 := match c.pool with
        | some u => { s with hp.stale := (c.ref, u.1, u.2) :: s.hp.stale }
        | none => s
      registerCmd c.no hpTimeout 0 none
        { s1 with hp.cmds := s1.hp.cmds.map fun d => if d.no = c.no then { d with pool := none } else d })

/-! ## HP_COMPLETE and HP_NOTICE (R295, R300) -/

/-- STATUS values an HP_COMPLETE may not carry (R295). -/
def badStatus (st : Nat) : Bool := decide (0x19 ≤ st ∧ st ≤ 0xFF) || decide (0x300 ≤ st ∧ st ≤ 0x7FFF) || decide (st = 0xFFFF)

/-- The delivered command with a REF, the oldest first. -/
def State.deliveredRef (s : State) (ref : Word) : Option Cmd :=
  firstWhere (fun c => decide (c.stage = .delivered) && c.ref == ref && c.waits.isNone) s.hp.cmds

/-- The response a thread left at the start of the pool buffer. -/
def State.poolBytes (s : State) (c : Cmd) (n : Nat) : List Byte :=
  match c.pool with
  | some u => readBytes s.mcc.shared (0x100000 + 4096 * u.1) (min n (4096 * u.2))
  | none => []

/-- Completes a delivered command: RESULT and, for an RBUF command, its response of `n` bytes (R291, R295). -/
def completeCmd (c : Cmd) (status : Nat) (result : BitVec 64) (resp : Option (List Byte)) (n : Nat) (s : State) : State :=
  let need := 8 * ceilDiv n 8 + 16
  let s1 := releasePool c.ref s
  if !c.rbuf then registerCmd c.no status result none s1
  else if 8 * c.rlen8 < need then registerCmd c.no hpRbufShort (BitVec.ofNat 64 need) none s1
  else registerCmd c.no status (BitVec.ofNat 64 n) resp s1

/-- HP_COMPLETE. -/
def engHpComplete (_t : Nat) (b : List Byte) (s : State) : EngOut :=
  let ref := Word.of (field b 0 8)
  let st := field b 8 2
  match s.deliveredRef ref with
  | none => .fail (releasePool ref s) stNotFound
  | some c =>
    if c.discard then .fail (drainCheck c.sqid (count (kHp 4) (dropCmd c.no (releasePool ref s)))) stNotFound
    else if !zeros b 10 6 ∨ badStatus st then .fail s stBadArg
    else
      let n := field b 16 4
      let short := 8 * c.rlen8 < 8 * ceilDiv n 8 + 16
      .ok (completeCmd c st (BitVec.ofNat 64 (field b 16 8)) (some (if short then [] else s.poolBytes c n)) n s)

/-- HP_COMPLETE as an engine call. -/
def execHpComplete (t : Fin 256) (pi : Fin 8) (rt ra : Fin 32) (s : State) : Result := .next (ecall t pi rt ra 0x90 24 engHpComplete s)

/-- HP_NOTICE: OK when the notice is written or held, NO_SPACE when dropped, BAD_ARG otherwise, a suppressed code included (R300). -/
def engHpNotice (_t : Nat) (b : List Byte) (s : State) : EngOut :=
  let code := field b 0 2
  let cls := field b 2 1
  if code < 0x8000 ∨ (cls ≠ 1 ∧ cls ≠ 2) ∨ !zeros b 3 5 ∨ !zeros b 24 16 then .fail s stBadArg
  else
    let st := if s.hp.mask.get false code then stBadArg else if noticeDrops cls s then stNoSpace else stOk
    { st := postNotice code cls (slice b 8 16) s, status := st }

/-- HP_NOTICE as an engine call. -/
def execHpNotice (t : Fin 256) (pi : Fin 8) (rt ra : Fin 32) (s : State) : Result := .next (ecall t pi rt ra 0x91 40 engHpNotice s)

/-! ## MSI-X (R287, Table 10-14) -/

/-- The message of a vector: address and data as its table entry gives them, as PCIe defines. -/
def State.message (s : State) (v : Nat) : Out := .msix (ofLe (readBytes s.hp.msix (16 * v) 8)) (ofLe (readBytes s.hp.msix (16 * v + 8) 4))

/-- A vector's message goes, or its pending bit sets while the vector is masked, as PCIe defines, or in D3hot (R285). -/
def sendMsix (v : Nat) (s : State) : State :=
  if 18 ≤ v then s
  else if bitAt (s.hp.msix.get 0 (16 * v + 12)).toNat 0 ∨ s.hp.d3hot then { s with hp.pba := s.hp.pba ||| BitVec.ofNat 18 (2 ^ v) }
  else emit (s.message v) s

/-- A pending message goes once its vector is no longer masked, and the function not in D3hot. -/
def sendPending (v : Nat) (s : State) : State :=
  if s.hp.pba.getLsbD v then sendMsix v { s with hp.pba := s.hp.pba &&& ~~~ BitVec.ofNat 18 (2 ^ v) } else s

/-- An entry of vector `v` is to be signalled: at once with COAL = 0, else at the end of the coalescing time (R287). -/
def signalVec (v coal : Nat) (s : State) : State :=
  if coal = 0 then sendMsix v s
  else match s.hp.coalEnd.find v with
  | some _ => s
  | none => { s with hp.coalEnd := s.hp.coalEnd.ins v (s.nowNs + 1000 * coal) }

/-- MSIX_COALESCE_EXPIRE: the coalescing time of a vector ends. -/
def execMsixCoalesceExpire (v : Fin 18) (s : State) : Result :=
  onClock s (match s.hp.coalEnd.find v with
    | some t => if t ≤ s.nowNs then sendMsix v { s with hp.coalEnd := s.hp.coalEnd.del v } else s
    | none => s)

/-! ## Completions (R287, R294, R295) -/

/-- The trailer of a response (Table 10-5). -/
def trailer (c : Cmd) (status : Nat) (resp : List Byte) : List Byte :=
  let h := le 4 resp.length ++ le 2 status ++ zeroBytes 2
  h ++ (if c.sid = 0 then zeroBytes 8 else (cmac c.ks (le 4 c.cid ++ le 4 c.ccnt ++ h ++ resp)).take 8)

/-- The response as written: padded to 8 bytes, then its trailer. -/
def respBytes (c : Cmd) (status : Nat) (resp : List Byte) : List Byte := fit (8 * ceilDiv resp.length 8) resp ++ trailer c status resp

/-- The completion entry (Table 10-4). -/
def entryBytes (c : Cmd) (status : Nat) (result : BitVec 64) (head : Nat) : List Byte :=
  le 4 c.cid ++ le 2 status ++ le 1 c.sqid ++ le 1 head ++ le 8 result.toNat

/-- A command whose session closed after its delivery completes with AUTH_NOSESSION, no response and RESULT 0 (R294). -/
def Cmd.atClose (c : Cmd) : Cmd := if c.closed then { c with status := hpAuthNoSession, result := 0, resp := none } else c

/-- A response that does not fit completes with RBUF_SHORT and the length needed; else RESULT is its length (R291, R295). -/
def Cmd.fitted (c : Cmd) : Cmd :=
  match c.resp with
  | none => c
  | some r =>
    let need := 8 * ceilDiv r.length 8 + 16
    if 8 * c.rlen8 < need then { c with status := hpRbufShort, result := BitVec.ofNat 64 need, resp := none }
    else { c with result := BitVec.ofNat 64 r.length }

/-- The oldest registered completion of a queue. -/
def State.firstReg (s : State) (q : Nat) : Option Cmd :=
  s.hp.cmds.foldl (fun best c =>
    if c.sqid != q || decide (c.stage ≠ .registered) then best
    else match best with
      | none => some c
      | some b => if c.regAt < b.regAt then some c else best) none

/-- MAC `m`. -/
def State.mac (s : State) (m : Nat) : MacSt := s.macs.get {} m

/-- The state with MAC `m` changed by `f`. -/
def updMac (m : Nat) (f : MacSt → MacSt) (s : State) : State := { s with macs := s.macs.put {} m (f (s.mac m)) }

/-- A Host Port datagram joins MAC `m`'s queue; while the link is down it is discarded and counted (R356). -/
def sendDatagram (m dst : Nat) (bytes : List Byte) (s : State) : State :=
  if (s.mac m).link then updMac m (fun x => { x with dgrams := x.dgrams ++ [{ bytes := bytes, dst := some dst }] }) s
  else count (kMac m 23) s

/-- The header of a channel datagram (Table 10-13). -/
def chanHeader (kind nent : Nat) (xid : Nat) : List Byte :=
  le 2 0x4E5A ++ le 1 1 ++ le 1 kind ++ le 1 nent ++ zeroBytes 3 ++ le 4 xid ++ zeroBytes 4

/-- MAC `m`'s command channel, and its change. -/
def State.ethChan (s : State) (m : Nat) : EthChan := s.hp.eth.get {} m
def updEth (m : Nat) (f : EthChan → EthChan) (s : State) : State := { s with hp.eth := s.hp.eth.put {} m (f (s.ethChan m)) }

/-- The key of a command in the answer cache: SID, CCNT and TAG (R302). -/
def Cmd.key (c : Cmd) : Nat × Nat × Nat := (c.sid, c.ccnt, ofLe c.tag)

/-- Bytes a datagram may carry: MAXLEN less Ethernet, IP and UDP; an odd source names an IPv6 address (log 53). -/
def State.mtu (s : State) (m src : Nat) : Nat :=
  (match (s.mac m).cfg with | some c => c.maxlen | none => 1518) - (if src % 2 = 1 then 66 else 46)

/-- A completion over Ethernet: a KIND 2 datagram to the command's source, and the answer cache (R301, R302). -/
def ethAnswer (c : Cmd) (s : State) : State :=
  let m := c.sqid - 16
  let full := match c.resp with
    | some r => 32 + (respBytes c c.status r).length
    | none => 0
  let c1 := if s.mtu m c.src < full then { c with status := hpRbufShort, result := BitVec.ofNat 64 (full - 32), resp := none } else c
  let body := entryBytes c1 c1.status c1.result 0 ++ (match c1.resp with | some r => respBytes c1 c1.status r | none => [])
  let keep := fun (e : EthChan) => if c.sid = 0 ∨ c.status = hpBusy then e else { e with cache := ((c.key, body) :: e.cache).take 256 }
  count (kHp 3) (sendDatagram m c.src (chanHeader 2 1 c.xid.toNat ++ body) (updEth m keep s))

/-- COMPLETION_WRITE: the oldest registered completion of a queue is written: response and trailer, entry, message (R287); one
marked so is discarded and counted. `ok`: writing the response did not fail on PCIe. -/
def execCompletionWrite (q : Fin 18) (ok : Bool) (s : State) : Result :=
  onClock s (match s.firstReg q with
    | none => s
    | some c0 =>
      let c := c0.atClose.fitted
      if c.discard then drainCheck q (count (kHp 4) (dropCmd c.no s))
      else
        let s0 := countIf c.closed (kHp 7) (dropCmd c.no s)
        if 16 ≤ q.val then ethAnswer c s0
        else
          let qp := s.queue q
          if 64 ≤ (qp.cqTail + 128 - qp.cqHead) % 128 ∨ s.hp.d3hot ∨ !qp.en then s
          else
            let bad := c.resp.isSome && !ok
            let st := if bad then hpDmaFault else c.status
            let res := if bad then 0 else c.result
            let s1 := match c.resp with
              | some r => if ok then emit (.host c.buf (respBytes c c.status r)) s0 else count (kHp 10) s0
              | none => s0
            let head := (if qp.cqTail < 64 then 128 else 0) + qp.sqHead
            let s2 := emit (.host (qp.cqBaseL.toNat + 16 * (qp.cqTail % 64)) (entryBytes c st res head)) s1
            signalVec qp.vec (bits qp.ctl.toNat 23 16) (count (kHp 3) (updQueue q (fun x => { x with cqTail := (x.cqTail + 1) % 128 }) s2)))

/-! ## The notice queue (R299) -/

/-- NQ_HEAD_DOORBELL: notices consumed. -/
def execNqHeadDoorbell (v : BitVec 32) (s : State) : Result :=
  onClock s (if s.hp.nq.en then { s with hp.nq.head := v.toNat % 2 ^ 16 % (2 * s.hp.nq.entries) } else count (kHp 19) s)

/-- The queue is disabled: notices not yet written go to the overflow store, or are dropped, under R299. -/
def reholdOne (n : Notice) (s : State) : State :=
  let q := s.hp.nq
  if n.held then { s with hp.nq.waiting := q.waiting ++ [n] }
  else if q.mayHold n.cls then count (kHp 12) { s with hp.nq.waiting := q.waiting ++ [{ n with held := true }] }
  else dropNotice n s

/-- Every waiting notice under R299 while the queue is disabled. -/
def rehold (s : State) : State :=
  s.hp.nq.waiting.foldl (fun s n => reholdOne n s) { s with hp.nq.waiting := [], hp.nq.en := false }

/-- A write of HP_NQ_CTL. EN latches base, SIZE and VEC; SIZE 10 to 15, or a VEC above 17, leaves it disabled with ERR = 2. -/
def nqCtl (v : BitVec 32) (s : State) : State :=
  let n := v.toNat
  let s1 := { s with hp.nq.ctl := v &&& 0x9FFF000F }
  if !bitAt n 31 then rehold s1
  else if s.hp.nq.en then s1
  else if 9 < bits n 3 0 ∨ 17 < bits n 28 24 then { s1 with hp.nq.err := 2 }
  else
    { s1 with hp.nq := { s1.hp.nq with
      en := true, baseL := s1.hp.nq.base, size := bits n 3 0, vec := bits n 28 24, err := 0, tail := 0, head := 0 } }

/-- NQ_ENABLE: a write of HP_NQ_CTL. -/
def execNqEnable (v : BitVec 32) (s : State) : Result := onClock s (nqCtl v s)

/-- The 32 bytes of a notice (Table 10-11). -/
def Notice.bytes (n : Notice) (phase lost : Bool) : List Byte :=
  le 2 n.code ++ le 1 (n.cls + 32 * flag n.timeInv + 64 * flag lost + 128 * flag phase) ++ zeroBytes 1 ++ le 4 n.nseq.toNat
    ++ le 8 n.tai ++ fit 16 n.args

/-- NOTICE_WRITE: the oldest waiting notice is written once the queue has room; `ok`: host memory took it. -/
def execNoticeWrite (ok : Bool) (s : State) : Result :=
  onClock s (
    let q := s.hp.nq
    match q.waiting with
    | [] => s
    | n :: rest =>
      if !q.en ∨ q.entries ≤ q.used ∨ s.hp.d3hot then s
      else if !ok then { s with hp.nq.err := 1 }
      else
        let b := n.bytes (decide (q.tail < q.entries)) q.lostDue
        let s1 := emit (.host (q.baseL.toNat + 32 * (q.tail % q.entries)) b)
          { s with hp.nq.waiting := rest, hp.nq.lostDue := false, hp.nq.tail := (q.tail + 1) % (2 * q.entries) }
        signalVec q.vec (bits q.ctl.toNat 23 16) s1)

/-! ## Resets and power states (R285) -/

/-- The Host Port is reset: queues disabled, sessions closed, completions to be discarded, notices to the overflow store. -/
def resetHostPort (s : State) : State :=
  let s1 := rehold s
  let h := s1.hp
  { s1 with hp := { State.reset.hp with
      dlup := h.dlup, width := h.width, speed := h.speed
      cmds := h.cmds.map fun c => { c with discard := true, closed := true }
      fetched := h.fetched, regs := h.regs, poolUsed := h.poolUsed, stale := h.stale
      nq := { ({} : NoticeQ) with nseq := h.nq.nseq, lostDue := h.nq.lostDue, waiting := h.nq.waiting } } }

/-- HOST_PORT_RESET: a function level reset, a hot reset, PERST_N, or a change of the data link, which then stands as given: down, or
up over 1, 2 or 4 lanes at Gen1 to Gen4 (`gen` counts from 0). -/
def execHostPortReset (up : Bool) (lanes : Fin 3) (gen : Fin 4) (s : State) : Result :=
  onClock s (
    let s1 := resetHostPort s
    { s1 with hp.dlup := up, hp.width := if up then 2 ^ lanes.val else 0, hp.speed := if up then gen.val + 1 else 0 })

/-- PCIE_POWER_STATE: D3hot, or D0 again. -/
def execPciePowerState (d3 : Bool) (s : State) : Result :=
  onClock s (
    let s1 := { s with hp.d3hot := d3 }
    if d3 then s1 else (List.range 18).foldl (fun s v => sendPending v s) s1)

/-! ## The Ethernet command channel (R301 to R303) -/

/-- One command entry of a datagram. -/
def ethEntry (m src xid : Nat) (raw data : List Byte) (lastEntry : Bool) (s : State) : State :=
  let c : Cmd := { raw := raw, sqid := 16 + m, xid := BitVec.ofNat 32 xid, src := src }
  let n := if c.hasData then 8 * c.dlen8 else 0
  let c1 := { c with data := data.take n }
  let s1 := count (kHp 15) s
  let hit := if c.sid = 0 then none else firstWhere (fun x => x.1 == c.key) (s.ethChan m).cache
  match hit with
  | some x => count (kHp 16) (sendDatagram m src (chanHeader 2 1 xid ++ x.2) s1)
  | none =>
    if c.sid ≠ 0 ∧ s.hp.cmds.any (fun d => d.sqid == c.sqid && d.key == c.key) then s1
    else judge c1 true (lastEntry && decide (data.length < n)) lastEntry s1

/-- The entries of a datagram in order. -/
def ethEntries (m src xid n : Nat) (bytes : List Byte) (s : State) : State :=
  (List.range n).foldl (fun s i =>
    ethEntry m src xid (slice bytes (16 + 64 * i) 64) (if i + 1 = n then bytes.drop (16 + 64 * n) else []) (decide (i + 1 = n)) s) s

/-- A datagram at the command port: its commands are judged, or it is discarded and counted (R301, Table 10-13). -/
def takeDatagram (m src : Nat) (bytes : List Byte) (s : State) : State :=
  let n := field bytes 4 1
  if field bytes 0 2 ≠ 0x4E5A ∨ field bytes 2 1 ≠ 1 ∨ field bytes 3 1 ≠ 1 ∨ n = 0 ∨ 16 < n ∨ !zeros bytes 5 3 ∨ !zeros bytes 12 4 ∨
      bytes.length < 16 + 64 * n then count (kHp 18) s
  else ethEntries m src (field bytes 8 4) n bytes s

/-- ETH_COMMAND_DATAGRAM: a command datagram from a MAC. -/
def execEthCommandDatagram (m : Fin 2) (src : Nat) (bytes : List Byte) (s : State) : Result :=
  .next (if s.hostRuns then takeDatagram m src bytes s else s)

/-- NOTICE_ROUTE_FLUSH: 32 routed notices have gathered, or 10 ms have passed since the first (R303). -/
def execNoticeRouteFlush (m : Fin 2) (s : State) : Result :=
  onClock s (
    let e := s.ethChan m
    match e.route with
    | none => s
    | some sid =>
      if e.gathered.isEmpty ∨ (e.gathered.length < 32 ∧ s.nowNs < e.firstAt + 10000000) then s
      else
        let l := e.gathered.take 32
        let dst := match s.session sid with | some x => x.src | none => 0
        sendDatagram m dst (chanHeader 3 l.length 0 ++ l.flatMap (fun n => n.bytes false false))
          (updEth m (fun e => { e with gathered := e.gathered.drop 32, firstAt := s.nowNs }) s))

end Sys2Proof.Machine
end

