-- ==== Sys2Proof/Machine/Regs.lean ====
section
/-! DEFINITION. Register views that several blocks use: GLB_MODE and GLB_NQ_SUM (Table 1-7). -/

namespace Sys2Proof.Machine

/-- GLB_IDENT. -/
def glbIdent : Nat := 0x81000201

/-- GLB_MODE: SLOT[12], CLKSRC[11], REDUCED[8], MODE[2:0]. -/
def State.glbMode (s : State) : Nat :=
  s.glb.mode.code + 256 * flag s.glb.reduced + 2048 * flag s.glb.clkSrc + 4096 * flag s.glb.slot

/-- GLB_NQ_SUM.NQ_DEPTH. -/
def State.nqDepth (s : State) : Nat := min s.hp.nq.depth 0xFFFF

/-! ## The identity of the PCIe function (R284, Table 10-1) -/

/-- Double words of the PCIe configuration header that Table 10-1 fixes, at their places in the PCI header: IDs, class and revision,
subsystem IDs; vendor and subsystem IDs come from BOARDID in OTP. Other double words are those of any PCIe function (log 132). -/
def State.pcieHeader (s : State) (o : Nat) : Option Nat :=
  match o with
  | 0x00 => some (0x8100 * 2 ^ 16 + s.otpField 0x500 2)
  | 0x08 => some (0x0B4000 * 2 ^ 8 + 0x21)
  | 0x2C => some (s.otpField 0x504 2 * 2 ^ 16 + s.otpField 0x502 2)
  | _ => none

/-- The Device Serial Number that the endpoint shows. -/
def State.pcieSerial (s : State) : List Byte := le 8 s.serial

end Sys2Proof.Machine
end

