-- ==== Sys2Proof/Machine/Builtins.lean ====
section
/-! DEFINITION. The built-in commands of Table 10-8 and the session exchange (R297, R303, R321, R322). -/

namespace Sys2Proof.Machine

/-! ## Running a built-in -/

/-- What a built-in answers. -/
structure HostAns where
  st : State
  status : Nat := stOk
  result : BitVec 64 := 0
  resp : Option (List Byte) := none
  waits : Option Wait := none

/-- An answer with a status alone. -/
def HostAns.fail (s : State) (status : Nat) : HostAns := { st := s, status := status }

/-- A halted boot ROM, or recovery before its image starts, answers IDENTIFY and STATUS only (R433, R450). -/
def State.romOnly (s : State) : Bool := s.stest.halt || (s.upd.recovery && s.mcc.image.isNone)

/-- The oldest judged command of queue `q` with a built-in's ENO that FENCE lets go is executed, and its completion registered (R297); a
response is given where RBUF asks for one. -/
def runBuiltin (q eno : Nat) (f : Cmd → State → HostAns) (s : State) : State :=
  match firstWhere (fun c => c.sqid == q && c.eno == eno && decide (c.stage = .judged) && c.waits.isNone && s.fenceOk c) s.hp.cmds with
  | none => s
  | some c =>
    if !s.hostRuns then s
    else
      let s1 := count (kHp 2) s
      let a := if s.romOnly && eno != 0xFF00 && eno != 0xFF01 then HostAns.fail s1 hpNotReady else f c s1
      registerCmd c.no a.status a.result (if c.rbuf then some (a.resp.getD []) else none) a.st

/-! ## Identity and status -/

/-- IDENTIFY. -/
def doIdentify (_c : Cmd) (s : State) : HostAns :=
  let (build, sv, role) := match s.mcc.image with
    | some im => (fit 16 im.build, im.secver.toNat, im.role)
    | none => (zeroBytes 16, 0, 0)
  { st := s, resp := some (le 4 glbIdent ++ le 4 s.glbMode ++ build ++ le 4 sv ++ le 1 role ++ zeroBytes 3 ++ le 8 s.serial ++ zeroBytes 24) }

/-- STATUS. -/
def doStatus (_c : Cmd) (s : State) : HostAns :=
  { st := s, result := BitVec.ofNat 64 (s.glbMode + s.nqDepth * 2 ^ 32 + s.openSessions * 2 ^ 48) }

/-- IDENTIFY as a built-in. -/
def execIdentify (q : Fin 18) (s : State) : Result := .next (runBuiltin q 0xFF00 doIdentify s)

/-- STATUS as a built-in. -/
def execStatus (q : Fin 18) (s : State) : Result := .next (runBuiltin q 0xFF01 doStatus s)

/-! ## Sessions (R321, R322) -/

/-- A WK_PROOF_FAIL on a carrier: the sixteenth within 1 s refuses SESSION_OPEN there for 10 s (R322). -/
def proofFail (c : Carrier) (s : State) : State :=
  let f := ((s.hp.proofFails.get [] c.code).filter fun t => decide (s.nowNs < t + 1000000000)) ++ [s.nowNs]
  let s1 := count (kWkv 12) { s with hp.proofFails := s.hp.proofFails.put [] c.code f }
  if 16 ≤ f.length then
    authAlarm 0 0 c { s1 with hp.proofFails := s1.hp.proofFails.del c.code, hp.lockout := s1.hp.lockout.ins c.code (s.nowNs + 10000000000) }
  else s1

/-- ROLE and CREDID that no session may have in this lifecycle (R322, R307). -/
def State.roleClosed (s : State) (role cred : Nat) : Bool :=
  decide (role = 0 ∨ 7 ≤ role) ||
    match s.woad.life with
    | .owned => false
    | .provisioned => !(role == 4 && cred == 0)
    | _ => true

/-- The lowest SID of 1 to 32 neither open nor pending. -/
def State.freeSid (s : State) : Option Nat := firstWhere (fun i => (s.session i).isNone) ((List.range 32).map (· + 1))

/-- SESSION_OPEN. -/
def doSessionOpen (c : Cmd) (s : State) : HostAns :=
  let role := field c.raw 8 1
  let cred := field c.raw 12 4
  let car := carrierOf c.sqid
  if s.nowNs < s.hp.lockout.get 0 car.code then .fail s wkNotNow
  else if s.roleClosed role cred then .fail s wkLifecycle
  else if cred < (s.cfloor role).toNat then .fail (proofFail car s) wkProofFail
  else match s.freeSid with
  | none => .fail s wkSessionFull
  | some sid =>
    let (nd, s1) := drawBytes 16 s
    let x : Session := { role := role, cred := cred, carrier := car, nh := slice c.raw 16 16, nd := nd, src := c.src, openedAt := s.nowNs }
    { st := { s1 with hp.sessions := s1.hp.sessions.ins sid x }
      resp := some (le 2 sid ++ le 1 car.code ++ le 1 role ++ le 4 cred ++ nd ++ zeroBytes 8) }

/-- The pending session that a SESSION_PROVE proves: same carrier, within 1 s, credential not below its floor, PROOF right. -/
def State.proved (s : State) (sid : Nat) (car : Carrier) (proof : List Byte) : Option Session :=
  match s.session sid with
  | none => none
  | some x =>
    let rk := s.rk x.role x.cred
    if x.open_ ∨ x.carrier ≠ car ∨ x.openedAt + 1000000000 < s.nowNs ∨ x.cred < (s.cfloor x.role).toNat ∨
        cmac rk (label 0x5A 0x50 0x52 0x46 ++ le 2 sid ++ zeroBytes 2 ++ x.nh ++ x.nd) ≠ proof then none
    else some x

/-- SESSION_PROVE. -/
def doSessionProve (c : Cmd) (s : State) : HostAns :=
  let sid := field c.raw 8 2
  let car := carrierOf c.sqid
  match s.proved sid car (slice c.raw 12 16) with
  | none =>
    let s1 := match s.session sid with
      | some x => if x.open_ then s else dropSession sid s
      | none => s
    .fail (proofFail car s1) wkProofFail
  | some x =>
    let ks := sessionKey (s.rk x.role x.cred) sid x.carrier.code x.role x.cred x.nh x.nd
    let y := { x with open_ := true, ks := ks, empty := true, wbits := 0, hcnt := 0 }
    { st := count (kWkv 11) { s with hp.sessions := s.hp.sessions.ins sid y }
      resp := some ((cmac ks (label 0x5A 0x43 0x4E 0x46 ++ x.nd)).take 8 ++ zeroBytes 8) }

/-- SESSION_OPEN as a built-in. -/
def execSessionOpen (q : Fin 18) (s : State) : Result := .next (runBuiltin q 0xFF02 doSessionOpen s)

/-- SESSION_PROVE as a built-in. -/
def execSessionProve (q : Fin 18) (s : State) : Result := .next (runBuiltin q 0xFF03 doSessionProve s)

/-- SESSION_CLOSE: it completes with OK before the close takes effect (R294). -/
def execSessionClose (q : Fin 18) (s : State) : Result :=
  .next (
    let isClose := fun (c : Cmd) => c.sqid == q.val && c.eno == 0xFF04 && decide (c.stage = .judged) && s.fenceOk c
    match firstWhere isClose s.hp.cmds with
    | none => s
    | some c => if s.hostRuns then closeSession c.sid (runBuiltin q 0xFF04 (fun _ s => { st := s }) s) else s)

/-- SESSION_PENDING_EXPIRE: a SID not proven within 1 s is freed. -/
def execSessionPendingExpire (sid : Fin 33) (s : State) : Result :=
  onClock s (match s.session sid with
    | some x => if !x.open_ ∧ x.openedAt + 1000000000 ≤ s.nowNs then dropSession sid s else s
    | none => s)

/-- PROOF_LOCKOUT_EXPIRE: the 10 s of R322 on a carrier end. -/
def execProofLockoutExpire (carrier : Fin 3) (s : State) : Result :=
  onClock s (match s.hp.lockout.find carrier with
    | some t => if t ≤ s.nowNs then { s with hp.lockout := s.hp.lockout.del carrier } else s
    | none => s)

/-! ## Notices and Lake -/

/-- NOTICE_MASK: the 128 mask bits of a half-group (R297). -/
def doNoticeMask (c : Cmd) (s : State) : HostAns :=
  let base := 256 * field c.raw 8 1 + 128 * field c.raw 9 1
  let bits := field c.raw 12 16
  if 1 < field c.raw 9 1 then .fail s hpBadCommand
  else { st := { s with hp.mask := (List.range 128).foldl (fun m i => m.put false (base + i) (bitAt bits i)) s.hp.mask } }

/-- NOTICE_ROUTE: routing to this session's source address starts, replacing an earlier route, or stops (R303). -/
def doNoticeRoute (c : Cmd) (s : State) : HostAns :=
  let m := c.sqid - 16
  if field c.raw 8 1 = 1 then { st := updEth m (fun e => { e with route := some c.sid, gathered := [] }) s }
  else if field c.raw 8 1 = 0 then { st := updEth m (fun e => { e with route := none, gathered := [] }) s }
  else .fail s hpBadCommand

/-- LAKE_HEALTH: NOT_READY before READY. -/
def doLakeHealth (_c : Cmd) (s : State) : HostAns := if s.lake.ready then { st := s, resp := some s.health } else .fail s hpNotReady

/-- LAKE_FORMAT. -/
def doLakeFormat (c : Cmd) (s : State) : HostAns :=
  if !zeros c.raw 11 1 then .fail s hpBadCommand
  else let (s1, st) := formatLake (field c.raw 8 1) (field c.raw 9 1) (field c.raw 10 1) (field c.raw 12 4) s; { st := s1, status := st }

/-- NOTICE_MASK as a built-in. -/
def execNoticeMask (q : Fin 18) (s : State) : Result := .next (runBuiltin q 0xFF05 doNoticeMask s)

/-- NOTICE_ROUTE as a built-in. -/
def execNoticeRoute (q : Fin 18) (s : State) : Result := .next (runBuiltin q 0xFF06 doNoticeRoute s)

/-- LAKE_HEALTH as a built-in. -/
def execHostLakeHealth (q : Fin 18) (s : State) : Result := .next (runBuiltin q 0xFF07 doLakeHealth s)

/-- LAKE_FORMAT as a built-in. -/
def execHostLakeFormat (q : Fin 18) (s : State) : Result := .next (runBuiltin q 0xFF08 doLakeFormat s)

end Sys2Proof.Machine
end

