-- ==== Sys2Proof/Machine/HostCmds.lean ====
section
/-! DEFINITION. The standard commands of Tables 10-9 and 11-14, as an image that assigns their ENO carries them out (R298, R330). -/

namespace Sys2Proof.Machine

/-! ## Running a standard command -/

/-- The event of a command leaves its queue: its thread has taken it. -/
def takeEvent (c : Cmd) (s : State) : State :=
  let k := if c.sqid < 16 then 0 else 1
  let q := s.mcc.queues.get [] k
  match firstWhere (fun (e : Ev) => e.ref == c.ref) q with
  | none => s
  | some e => { s with mcc.queues := s.mcc.queues.put [] k (q.erase e) }

/-- The ROLE of a command's session; 0 for none. -/
def State.cmdRole (s : State) (c : Cmd) : Nat := match s.session c.sid with | some x => x.role | none => 0

/-- The completion of a standard command: registered at once, or once what it waits for has come. -/
def answerCmd (c : Cmd) (a : HostAns) : State :=
  let s1 := releasePool c.ref a.st
  let resp := if c.rbuf then some (a.resp.getD []) else none
  match a.waits with
  | none => registerCmd c.no a.status a.result resp s1
  | some w =>
    { s1 with hp.cmds := s1.hp.cmds.map fun d =>
        if d.no = c.no then { d with waits := some w, status := a.status, result := a.result, resp := resp } else d }

/-- The oldest delivered command of queue `q` with an ENO is carried out; a role not listed gets ACCESS_DENIED (log 55). -/
def runStandard (q eno : Nat) (roles : Cmd → List Nat) (f : Cmd → State → HostAns) (s : State) : State :=
  match firstWhere (fun c => c.sqid == q && c.eno == eno && decide (c.stage = .delivered) && c.waits.isNone) s.hp.cmds with
  | none => s
  | some c =>
    if !s.coresRun || s.glb.mode == .standby then s
    else
      let s0 := takeEvent c s
      answerCmd c (if (roles c).contains (s.cmdRole c) then f c s0 else .fail s0 stAccessDenied)

/-- Roles 1 Reader to 6 Auditor. -/
def anyRole (_c : Cmd) : List Nat := [1, 2, 3, 4, 5, 6]

/-- An engine's answer as a command's: RESULT from what `res` reads, the response from block offset `off`. -/
def ofEng (a : EngOut) (off : Nat) : HostAns :=
  { st := a.st, status := a.status, resp := (firstWhere (fun x => x.1 == off) a.out).map (·.2), waits := a.waits }

/-! ## Ledger (Table 10-9) -/

/-- LOID and ARG of a ledger command. -/
def Cmd.loid (c : Cmd) : Nat := field c.raw 8 4
def Cmd.arg (c : Cmd) : Nat := field c.raw 16 8

/-- LDG_READ under the session's role. -/
def doLdgRead (c : Cmd) (s : State) : HostAns :=
  let (a, s1) := ldgRead (s.cmdRole c) c.sid c.loid c.arg (8 * c.rlen8 - 16) s
  { st := s1, status := a.status, resp := some (if a.status = stOk then a.bytes else []) }

/-- LDG_WRITE and LDG_EXEC reach the Ledger Unit through a legal gate; without a legal component they end LEGAL_ABSENT (R250, R298). -/
def throughGate (f : State → ChangeAns) (s : State) : HostAns :=
  if s.mcc.legal ≠ 1 then .fail s stLegalAbsent
  else let a := f s; { st := a.st, status := a.status, waits := a.waits }

/-- LDG_WRITE. -/
def doLdgWrite (c : Cmd) (s : State) : HostAns := throughGate (ldgWrite (s.cmdRole c) c.sid c.loid c.arg (.ok c.data)) s

/-- LDG_EXEC. -/
def doLdgExec (c : Cmd) (s : State) : HostAns := throughGate (ldgExec (s.cmdRole c) c.sid c.loid c.arg (.ok c.data)) s

/-- LDG_READ as a standard command. -/
def execHostLdgRead (q : Fin 18) (s : State) : Result := .next (runStandard q 0x0010 anyRole doLdgRead s)

/-- LDG_WRITE as a standard command. -/
def execHostLdgWrite (q : Fin 18) (s : State) : Result := .next (runStandard q 0x0011 anyRole doLdgWrite s)

/-- LDG_EXEC as a standard command. -/
def execHostLdgExec (q : Fin 18) (s : State) : Result := .next (runStandard q 0x0012 anyRole doLdgExec s)

/-! ## Directory -/

/-- A directory operation on the DIR block in the data: the response is ENTRY. -/
def doDir (eng : Nat → List Byte → State → EngOut) (c : Cmd) (s : State) : HostAns := ofEng (eng 0 (fit 64 c.data) s) 32

/-- DIR_LOOKUP: RESULT is the MH, or all ones. -/
def doDirLookup (c : Cmd) (s : State) : HostAns :=
  let a := engDirLookup 0 (fit 64 (slice c.raw 8 8)) s
  let mh := (firstWhere (fun (x : Nat × List Byte) => x.1 == 8) a.out).map fun x => ofLe x.2
  { st := a.st, status := a.status, result := match mh with | some n => BitVec.ofNat 64 n | none => BitVec.allOnes 64 }

/-- DIR_READ by MH. -/
def doDirRead (c : Cmd) (s : State) : HostAns := ofEng (engDirRead 0 (fit 64 (zeroBytes 8 ++ slice c.raw 8 4)) s) 32

/-- DIR_INSERT as a standard command. -/
def execHostDirInsert (q : Fin 18) (s : State) : Result := .next (runStandard q 0x0020 anyRole (doDir engDirInsert) s)

/-- DIR_LOOKUP as a standard command. -/
def execHostDirLookup (q : Fin 18) (s : State) : Result := .next (runStandard q 0x0021 anyRole doDirLookup s)

/-- DIR_READ as a standard command. -/
def execHostDirRead (q : Fin 18) (s : State) : Result := .next (runStandard q 0x0022 anyRole doDirRead s)

/-- DIR_SET as a standard command. -/
def execHostDirSet (q : Fin 18) (s : State) : Result := .next (runStandard q 0x0023 anyRole (doDir engDirSet) s)

/-- DIR_EPOCH as a standard command. -/
def execHostDirEpoch (q : Fin 18) (s : State) : Result := .next (runStandard q 0x0024 anyRole (doDir engDirEpoch) s)

/-- DIR_CMD as a standard command. -/
def execHostDirCmd (q : Fin 18) (s : State) : Result := .next (runStandard q 0x0025 anyRole (doDir engDirCmd) s)

/-- DIR_REMOVE as a standard command. -/
def execHostDirRemove (q : Fin 18) (s : State) : Result := .next (runStandard q 0x0026 anyRole (doDir engDirRemove) s)

/-! ## Balance and readings log -/

/-- BAL_SET: the 16-byte block is the data. -/
def doBalSet (c : Cmd) (s : State) : HostAns := let (s1, st, w) := balSet (fit 16 c.data) s; { st := s1, status := st, waits := w }

/-- BAL_READ: the 48-byte node entry. -/
def doBalRead (c : Cmd) (s : State) : HostAns := { st := s, resp := some ((s.node (field c.raw 8 2)).bytes s.bal.bint) }

/-- BAL_CONFIG. -/
def doBalConfig (c : Cmd) (s : State) : HostAns :=
  let (s1, st) := balConfig (field c.raw 8 1) (field c.raw 9 1) (field c.raw 10 2) s; { st := s1, status := st }

/-- LOG_READ: as many log bytes as the response holds. -/
def doLogRead (c : Cmd) (s : State) : HostAns :=
  let off := field c.raw 12 4
  let len := min (8 * c.rlen8 - 16) 65536
  if off % 8 ≠ 0 ∨ 262144 ≤ off ∨ len < 8 then .fail s stBadArg
  else let (st, l) := s.lake.logRead (field c.raw 8 4) off len; { st := s, status := st, resp := some l }

/-- HEACK. -/
def doHeack (c : Cmd) (s : State) : HostAns := let (s1, st) := setHeack (field c.raw 8 4) s; { st := s1, status := st }

/-- BAL_SET as a standard command. -/
def execHostBalSet (q : Fin 18) (s : State) : Result := .next (runStandard q 0x0030 anyRole doBalSet s)

/-- BAL_READ as a standard command. -/
def execHostBalRead (q : Fin 18) (s : State) : Result := .next (runStandard q 0x0031 anyRole doBalRead s)

/-- BAL_CONFIG as a standard command. -/
def execHostBalConfig (q : Fin 18) (s : State) : Result := .next (runStandard q 0x0032 anyRole doBalConfig s)

/-- LOG_READ as a standard command. -/
def execLogRead (q : Fin 18) (s : State) : Result := .next (runStandard q 0x0040 anyRole doLogRead s)

/-- HEACK as a standard command. -/
def execHeack (q : Fin 18) (s : State) : Result := .next (runStandard q 0x0041 anyRole doHeack s)

/-! ## Keys (Table 11-14) -/

/-- PARAM as an engine block. -/
def Cmd.block (c : Cmd) : List Byte := fit 64 (slice c.raw 8 28)

/-- Operator: role 2. -/
def operator (_c : Cmd) : List Nat := [2]

/-- Who may load: Operator; Installer for OTP fields 4 and 5, and for every field in PROVISIONED. -/
def loadRoles (life : Life) (c : Cmd) : List Nat :=
  if field c.raw 8 1 = 1 ∧ (life = .provisioned ∨ field c.raw 9 1 = 4 ∨ field c.raw 9 1 = 5) then [4] else [2]

/-- KEY_LOAD: TARGET and SLOT or FIELD in PARAM, the blob or field as data. -/
def doKeyLoad (bad : Option Nat) (c : Cmd) (s : State) : HostAns :=
  match loadLen (field c.raw 8 1) (field c.raw 9 1) with
  | none => .fail s stBadArg
  | some n =>
    if c.data.length < n then .fail s stBadArg
    else match s.keyRefusal with
    | some st => .fail s st
    | none =>
      let a := keyLoad (field c.raw 8 1) (field c.raw 9 1) (c.data.take n) bad s
      { st := { a.st with woad.otpBusy := s.woad.otpBusy }, status := a.status, waits := a.waits }

/-- KEY_LOAD as a standard command; `bad`: the OTP word that reads back wrong, if one does. -/
def execHostKeyLoad (q : Fin 18) (bad : Option Nat) (s : State) : Result :=
  .next (runStandard q 0x0050 (loadRoles s.woad.life) (doKeyLoad bad) s)

/-- KEY_DERIVE as a standard command. -/
def execHostKeyDerive (q : Fin 18) (s : State) : Result :=
  .next (runStandard q 0x0051 operator (fun c s => ofEng (engKeyDerive 0 c.block s) 64) s)

/-- KEY_INVALIDATE as a standard command: RESULT is FAILED. -/
def execHostKeyInvalidate (q : Fin 18) (s : State) : Result :=
  .next (runStandard q 0x0052 operator (fun c s => ofEng (engKeyInvalidate 0 c.block s) 64) s)

/-- KEY_EPOCH as a standard command. -/
def execHostKeyEpoch (q : Fin 18) (s : State) : Result :=
  .next (runStandard q 0x0053 operator (fun c s => ofEng (engKeyEpoch 0 c.block s) 64) s)

/-- A slot record of KEY_STATUS: STATE, TYPE, DEPTH, PARENT, EPMIN, EPMAX, two zero bytes, KEYID, AMASK low (log 54). -/
def State.slotRecord (s : State) (i : Nat) : List Byte :=
  let k := s.keySlot i
  let st := match k.st with | .empty => 0 | .active => 1 | .orphaned => 2
  le 1 st ++ le 1 k.typ ++ le 1 k.depth ++ le 1 (k.parent.getD 0) ++ le 1 (s.slotEpochs i).1 ++ le 1 (s.slotEpochs i).2 ++ zeroBytes 2
    ++ le 4 k.keyid.toNat ++ le 4 (k.amask.toNat % 2 ^ 32)

/-- WKV_BCAST (Table 11-15). -/
def State.wkvBcast (s : State) : Nat :=
  let b := s.woad.bcast
  let (nx, nv) := match b.next with | some n => (n.e, 1) | none => (0, 0)
  b.cur * 2 ^ 24 + nx * 2 ^ 16 + nv * 2 ^ 15 + flag (b.valid && decide ((s.keySlot b.slot).st = .active)) * 2 ^ 14 + b.slot

/-- KEY_STATUS: the 64 slot records, then the broadcast state as WKV_BCAST shows it (log 54). -/
def doKeyStatus (_c : Cmd) (s : State) : HostAns := { st := s, resp := some ((List.range 64).flatMap s.slotRecord ++ le 4 s.wkvBcast ++ zeroBytes 4) }

/-- KEY_STATUS as a standard command. -/
def execKeyStatus (q : Fin 18) (s : State) : Result := .next (runStandard q 0x0054 anyRole doKeyStatus s)

/-- CERT_READ as a standard command: DEVCERT. -/
def execCertRead (q : Fin 18) (s : State) : Result :=
  .next (runStandard q 0x0055 anyRole (fun _ s => { st := s, resp := some (s.otpBytes 0x80 256) }) s)

/-- ATTEST as a standard command: the nonce is PARAM padded to 32 bytes. -/
def execAttest (q : Fin 18) (s : State) : Result :=
  .next (runStandard q 0x0056 anyRole (fun c s => let (l, s1) := attest (fit 32 (slice c.raw 8 28)) s; { st := s1, resp := some l }) s)

end Sys2Proof.Machine
end

