-- ==== Sys2Proof/Machine/Time.lean ====
section
/-! DEFINITION. The Time Unit: samples, slew and step, loss of the source, TIME_SET, cycle-table calls, EVENT and PULSE rows (Time Unit and Schedules). -/

namespace Sys2Proof.Machine

/-! ## Samples (R341) -/

/-- 500 ppm and 20 ppm of the nominal increment of 10/3 ns, in units of 2^-48 ns (R332, Table 12-5). -/
def maxAdj : Int := 469124961184
def maxCorr : Int := 18764998447

/-- A value held within ±m. -/
def within (m v : Int) : Int := max (-m) (min m v)

/-- One second in nanoseconds. -/
def nsPerS : Nat := 1000000000

/-- The servo corrects the frequency; a slew in progress ends. -/
def servoRun (o : Int) (s : State) : State :=
  setAdj (within maxAdj (Config.servo (s.tmu.adj - s.tmu.corr) o)) { s with tmu.corr := 0, tmu.left := 0 }

/-- A slew of `o` starts: a correction rate of at most 20 ppm until `o` is cancelled. -/
def slewBy (o : Int) (s : State) : State :=
  if o = 0 then s
  else
    let size := min maxCorr (1 + (Config.slewRate s.tmu.adj o : Int))
    let c := within maxAdj (s.tmu.adj + (if o < 0 then -size else size)) - s.tmu.adj
    count (kTmu 2) { setAdj (s.tmu.adj + c) s with tmu.corr := c, tmu.left := o * 2 ^ 48 }

/-- The servo takes an accepted offset of 1 s or less, which is slewed (Table 12-5). -/
def startSlew (o : Int) (s : State) : State := slewBy o (servoRun o s)

/-- A forward step to `ns` in one TIME_CLK cycle: rows realign, passed boundaries commit, TIME_STEP_FWD (R178, R341, R347). -/
def stepForward (ns : Nat) (s : State) : State :=
  let from_ := s.nowS
  let s1 := realignRows ns (setTime ns s)
  let s2 := if s1.ledgerRuns then replayBoundaries (ns / nsPerS) s1 else s1
  postNotice 0x0903 1 (le 8 from_ ++ le 8 (ns / nsPerS)) (count (kTmu 3) s2)

/-- Eight consecutive samples with a filtered offset of 10 µs or less lock the Time Unit, and time is valid (Table 12-1, R334). -/
def lockCheck (s : State) : State :=
  let good := if s.tmu.filtered.natAbs ≤ 10000 then s.tmu.good + 1 else 0
  let s1 := { s with tmu.good := good }
  if s.tmu.st = .acquire ∧ 8 ≤ good then timeValid { s1 with tmu.st := .locked } else s1

/-- What an accepted sample does (Table 12-5). -/
def acceptSample (o : Int) (s : State) : State :=
  let f := if s.tmu.asMeasured then o else Config.filter s.tmu.filtered o
  let s1 := count (kTmu 0) { s with
    tmu.rejects := 0, tmu.lastSample := some s.nowNs, tmu.offset := o, tmu.filtered := f, tmu.asMeasured := false
    tmu.source := s.tmu.sel.kind
    tmu.st := if s.tmu.st = .freerun ∨ s.tmu.st = .holdover then .acquire else s.tmu.st }
  let s2 :=
    if 1000000000 < o then
      let ns := s1.nowNs + o.toNat
      { stepForward ns (servoRun 0 s1) with tmu.filtered := 0, tmu.lastSample := some ns }
    else if o < -1000000000 then timeInvalid 2 (servoRun 0 { s1 with tmu.stepReq := some o })
    else startSlew o { s1 with tmu.stepReq := none }
  lockCheck s2

/-- A sample of the selected source: source time minus part time, ns. None is accepted on the backup oscillator (R334, R336). -/
def takeSample (kind : Nat) (o : Int) (s : State) : State :=
  if kind ≠ s.tmu.sel.kind ∨ kind = 0 ∨ s.glb.mode = .off ∨ s.glb.mode = .holdup ∨ s.glb.mode = .vigil then s
  else if s.glb.clkSrc then count (kTmu 1) s
  else if s.tmu.st = .locked ∧ 1000000 < (o - s.tmu.filtered).natAbs then
    let s1 := count (kTmu 1) { s with tmu.rejects := s.tmu.rejects + 1, tmu.good := 0 }
    if 3 ≤ s1.tmu.rejects then { s1 with tmu.st := .acquire, tmu.rejects := 0, tmu.asMeasured := true } else s1
  else acceptSample o s

/-- The offset in ns, source less part, that a whole exchange with the selected parent gives: the origin time of its Sync with corrections,
carried over the path, less its receive stamp. Its Announce carries PTP timescale = 1 and its sync interval is one the part supports (R336, R337). -/
def Ptp.sample (p : Ptp) : Option Int :=
  match p.sync, p.delay with
  | some y, some d =>
    match y.origin with
    | some t1 => if p.announced ∧ !y.used ∧ -4 ≤ p.every ∧ p.every ≤ 4 then some ((t1 + y.corr + d - y.rx) / 65536) else none
    | none => none
  | _, _ => none

/-- TIME_SAMPLE: a whole exchange with the selected parent through MAC `mac` gives one sample (R336, R341). -/
def execTimeSample (mac : Fin 2) (s : State) : Result :=
  onCores s (match s.tmu.ptp.sample with
    | some o =>
      if s.tmu.sel.kind = mac.val + 1 then
        takeSample (mac.val + 1) o { s with tmu.ptp.sync := s.tmu.ptp.sync.map fun y => { y with used := true } }
      else s
    | none => s)

/-! ## Loss and holdover (R342) -/

/-- The parent's sync interval in ns: that of its Sync messages, or the 16 ms of the cascade's exchanges (R337, R372). -/
def Tmu.syncInterval (t : Tmu) : Nat :=
  if t.sel.kind = 3 then 16000000
  else if 0 ≤ t.ptp.every then nsPerS * 2 ^ min 4 t.ptp.every.toNat else nsPerS / 2 ^ min 4 (-t.ptp.every).toNat

/-- TIME_SOURCE_LOSS: eight of the parent's sync intervals have passed since the last accepted sample. -/
def execTimeSourceLoss (s : State) : Result :=
  onClock s (match s.tmu.lastSample with
    | some a => if a + 8 * s.tmu.syncInterval ≤ s.nowNs then sourceLost s else s
    | none => s)

/-- The instant at which holdover ends: MAXHOLD after the last accepted sample or TIME_SET. -/
def Tmu.holdEnd (t : Tmu) : Nat :=
  match t.lastSample with
  | some a => a + t.policy.maxHold * nsPerS
  | none => 0

/-- HOLDOVER_EXPIRE: at MAXHOLD time becomes invalid with cause 1 if it was valid, and the state becomes FREERUN. -/
def execHoldoverExpire (s : State) : Result :=
  onClock s (
    if s.tmu.st = .holdover ∧ s.tmu.holdEnd ≤ s.nowNs then
      let s1 := if s.tmu.valid then timeInvalid 1 s else s
      { s1 with tmu.st := .freerun }
    else s)

/-! ## Setting the time (R344, R179) -/

/-- TIME_SET to an instant in ns (R344); a correction of 1 s or less, in either direction, is slewed (R178). -/
def timeSet (ns : Nat) (s : State) : State × Nat :=
  if !bitAt s.tmu.policy.allowed 3 ∨ s.tmu.valid ∨ s.tmu.st = .locked ∨ s.tmu.st = .acquire ∨ ns + nsPerS < s.nowNs then
    (s, stBadArg)
  else
    let step := decide (s.nowNs + nsPerS < ns)
    let s1 := if step then stepForward ns s else s
    let s2 := if s1.tmu.st = .holdover then s1 else enterHoldover s1
    let s3 := if step then s2 else slewBy ((ns : Int) - (s.nowNs : Int)) s2
    (timeValid (count (kTmu 11) { s3 with tmu.source := 4, tmu.lastSample := some s3.nowNs }), stOk)

/-- The set-back applies once its STEP record is durable: the time moves back, a repeated span opens (R179, R180, R347). -/
def applyStep (from_ tTo : Nat) (s : State) : State :=
  let ns := s.nowNs - (from_ - tTo) * nsPerS
  let span := match s.ldg.span with
    | some (_, b) => (tTo, max b from_)
    | none => (tTo, from_)
  let s1 := realignBack ns (setTime ns { s with
    ldg.stepPending := none, ldg.stepFrom := from_, ldg.stepTo := tTo, ldg.span := some span
    ldg.evalT := max s.ldg.evalT from_, tmu.stepReq := none, tmu.filtered := 0
    tmu.lastSample := s.tmu.lastSample.map fun a => a - (from_ - tTo) * nsPerS })
  postNotice 0x0504 0 (le 8 from_ ++ le 8 tTo) (count (kTmu 4) s1)

/-- CLOCK_STEP_APPLY: the pending set-back whose boundary record is durable is applied (R179). -/
def execClockStepApply (s : State) : Result :=
  onClock s (match s.ldg.stepPending with
    | some (from_, tTo, n) => if s.ldg.dur.blog.any (fun b => b.bseq == n) then applyStep from_ tTo s else s
    | none => s)

/-! ## The cycle table (R345, R349) -/

/-- The 24 bytes of a row (Table 12-6). -/
def Row.bytes (r : Row) : List Byte :=
  le 8 r.tS ++ le 4 r.tNs ++ le 4 r.perS ++ le 4 r.perNs ++ le 1 r.action ++ le 1 r.flags ++ le 2 r.arg

/-- A row from its 24 bytes; its instant is the first of its series. -/
def rowOf (b : List Byte) : Row :=
  { tS := field b 0 8, tNs := field b 8 4, perS := field b 12 4, perNs := field b 16 4, action := field b 20 1
    flags := field b 21 1, arg := field b 22 2, t0 := field b 0 8 * nsPerS + field b 8 4 }

/-- Whether an image row's fields are in range at an index (R345, R349, R350). -/
def Row.fits (r : Row) (i : Nat) : Bool :=
  decide (r.tNs < nsPerS ∧ r.perNs < nsPerS ∧ r.flags < 8 ∧ 80 ≤ i ∧ i ≤ 511) && (r.action == 7 || r.action == 8) &&
    (r.shared == decide (448 ≤ i)) && (r.per == 0 || decide (1000000 ≤ r.per))

/-- The master puts a shared row on every chip of the stack (R350): its own copy at once, the others by broadcast. -/
def shareRow (i : Nat) (r : Row) (s : State) : State × Option Wait :=
  let s1 := putRow i r s
  if s.cas.chips ≤ 1 then (s1, none)
  else
    let others := (List.range s.cas.chips).filter fun c => c != s.cas.chipId
    (broadcast (.row i r s.upd.window) { s1 with
      tmu.awaiting := (i, others, s.nowNs) :: s1.tmu.awaiting.filter fun a => a.1 != i }, some (.row i))

/-- An image row is written: BAD_ARG, TOO_LATE, or the row, local or shared (R346, R349, R350). -/
def writeRow (i : Nat) (r : Row) (s : State) : State × Nat × Option Wait :=
  if s.glb.mode = .standby then (s, stAccessDenied, none)
  else if !r.fits i || (r.shared && !s.cas.master) then (s, stBadArg, none)
  else if r.at_ < s.nowNs + (if r.shared then 10000000 else 1000000) then (s, stTooLate, none)
  else if r.shared then let (s1, w) := shareRow i r s; (s1, stOk, w)
  else (putRow i r s, stOk, none)

/-- A source selection from bytes 1 to 17 of the SOURCE operation (R336, R349). -/
def selectSource (b : List Byte) (s : State) : State × Nat :=
  let x : Source := { kind := field b 0 1, domain := field b 1 1, transport := field b 2 1, mech := field b 3 1
                      clockId := field b 7 8, port := field b 15 2 }
  let plain := x.kind = 0 ∨ x.kind = 3
  if 3 < x.kind ∨ 127 < x.domain ∨ 2 < x.transport ∨ 1 < x.mech ∨ !zeros b 4 3
      ∨ (plain ∧ (x.domain ≠ 0 ∨ x.transport ≠ 0 ∨ x.mech ≠ 0 ∨ x.clockId ≠ 0 ∨ x.port ≠ 0)) then (s, stBadArg)
  else if x.kind ≠ 0 ∧ !bitAt s.tmu.policy.allowed (x.kind - 1) then (s, stAccessDenied)
  else ({ s with tmu.sel := x, tmu.ptp := if x = s.tmu.sel then s.tmu.ptp else {} }, stOk)

/-- Stamp latencies of one MAC (R339, R349). -/
def setLatency (b : List Byte) (s : State) : State × Nat :=
  let asym := signed 32 (field b 12 4)
  if 1 < field b 1 1 ∨ 10000 < field b 4 4 ∨ 10000 < field b 8 4 ∨ 10000 < asym.natAbs ∨ !zeros b 2 2 ∨ !zeros b 16 16 then (s, stBadArg)
  else
    let l : MacLat := { tx := field b 4 4, rx := field b 8 4, asym := asym }
    ({ s with tmu.macLat := s.tmu.macLat.put {} (field b 1 1) l }, stOk)

/-- TMU_CYCLE_WR: ROW, SOURCE and LATENCY (R349). -/
def engCycleWr (_t : Nat) (b : List Byte) (s : State) : EngOut :=
  match field b 0 1 with
  | 0 =>
    if !zeros b 1 1 || !zeros b 4 4 then .fail s stBadArg
    else let (s1, st, w) := writeRow (field b 2 2) (rowOf (b.drop 8)) s; { st := s1, status := st, waits := w }
  | 1 =>
    if !zeros b 18 14 then .fail s stBadArg
    else let (s1, st) := selectSource (b.drop 1) s; { st := s1, status := st }
  | 2 => let (s1, st) := setLatency b s; { st := s1, status := st }
  | _ => .fail s stBadArg

/-- Row `i` as read: rows 8 and 16 to 79 are their owners' next instants (Table 12-7). -/
def State.rowView (s : State) (i : Nat) : Row :=
  if i = 8 then
    match s.bal.cfg with
    | none => {}
    | some (b, _, _) =>
      let from_ := match s.ldg.span with | some (_, t) => max s.nowS t | none => s.nowS
      let e := match s.dueClose with | some e => e | none => nextGrid b from_
      { tS := e, perS := 60 * b, action := 3 }
  else if 16 ≤ i ∧ i < 80 then
    match s.ldg.live.nextBoundary (i - 16) s.ldg.evalT with
    | some t => { tS := t, action := 4, arg := i - 16 }
    | none => {}
  else s.row i

/-- INC less nominal in 10^-3 ppb of nominal (Table 12-13), truncated toward zero. -/
def Tmu.freq (t : Tmu) : Int := (t.adj * 1000000000000).tdiv 938249922368853

/-- A signed 32-bit field, saturating. -/
def s32sat (x : Int) : Nat := unsigned 32 (max (-2147483648) (min 2147483647 x))

/-- Bytes 8 to 31 of RD OP 1 (R349). -/
def State.timeBlock (s : State) : List Byte :=
  le 8 s.tmu.sec.toNat ++ le 4 (s.tmu.ns + 2 ^ 31 * flag s.tmu.valid) ++ le 1 s.tmu.st.code ++ le 1 s.tmu.source ++ zeroBytes 2 ++
    le 4 (s32sat s.tmu.offset) ++ le 4 (s32sat s.tmu.freq)

/-- TMU_CYCLE_RD: a row, or the time (R349). -/
def engCycleRd (_t : Nat) (b : List Byte) (s : State) : EngOut :=
  match field b 0 1 with
  | 0 =>
    if 511 < field b 2 2 ∨ !zeros b 1 1 ∨ !zeros b 4 4 then .fail s stBadArg
    else { st := s, status := stOk, out := [(8, (s.rowView (field b 2 2)).bytes)] }
  | 1 => if !zeros b 1 7 then .fail s stBadArg else { st := s, status := stOk, out := [(8, s.timeBlock)] }
  | _ => .fail s stBadArg

/-- TMU_CYCLE_WR OP 0, ROW. -/
def execTmuRowWrite (t : Fin 256) (pi : Fin 8) (rt ra : Fin 32) (s : State) : Result := .next (ecall t pi rt ra 0x80 32 engCycleWr s)

/-- TMU_CYCLE_WR OP 1, SOURCE. -/
def execTmuSourceSelect (t : Fin 256) (pi : Fin 8) (rt ra : Fin 32) (s : State) : Result := .next (ecall t pi rt ra 0x80 32 engCycleWr s)

/-- TMU_CYCLE_WR OP 2, LATENCY. -/
def execTmuLatency (t : Fin 256) (pi : Fin 8) (rt ra : Fin 32) (s : State) : Result := .next (ecall t pi rt ra 0x80 32 engCycleWr s)

/-- TMU_CYCLE_RD OP 0. -/
def execTmuRowRead (t : Fin 256) (pi : Fin 8) (rt ra : Fin 32) (s : State) : Result := .next (ecall t pi rt ra 0x81 32 engCycleRd s)

/-- TMU_CYCLE_RD OP 1. -/
def execTmuTimeRead (t : Fin 256) (pi : Fin 8) (rt ra : Fin 32) (s : State) : Result := .next (ecall t pi rt ra 0x81 32 engCycleRd s)

/-- TIME_LATCH_READ: a host read of TMU_TIME_S_LO latches the high half and the nanoseconds (R333). -/
def execTimeLatchRead (s : State) : Result :=
  onClock s { s with tmu.latS := (s.tmu.sec >>> 32).setWidth 32, tmu.latNs := BitVec.ofNat 32 (s.tmu.ns + 2 ^ 31 * flag s.tmu.valid) }

/-! ## EVENT and PULSE rows (R346 to R348, R351) -/

/-- Body of a CYCLE event (Table 12-9) for `k` instants of a row. -/
def cycleBody (r : Row) (k : Nat) (valid : Bool) : List Byte :=
  let last := r.at_ + (k - 1) * r.per
  le 8 (last / nsPerS) ++ le 4 (last % nsPerS) ++ le 4 k ++ le 8 r.tS ++ le 1 (2 * flag (decide (1 < k)) + flag (!valid)) ++ zeroBytes 7

/-- The last instant of a due row that has passed: where rows passed by one step stand in their order (R347). -/
def Row.lastPassed (r : Row) (now : Nat) : Nat := r.at_ + (r.covered 0 now - 1) * r.per

/-- The image rows that are due fire in order of their last passed instant, and by index at one instant (R346, R347): no other goes before row `i`. -/
def State.rowTurn (s : State) (i : Nat) : Bool :=
  s.tmu.rows.all fun e =>
    !(e.2.action == 7 || e.2.action == 8) || !e.2.due 0 s.nowNs ||
      decide ((s.row i).lastPassed s.nowNs < e.2.lastPassed s.nowNs ∨ ((s.row i).lastPassed s.nowNs = e.2.lastPassed s.nowNs ∧ i ≤ e.1))

/-- CYCLE_EVENT: an EVENT row fires and becomes a CYCLE event, or reaches its instant without valid time. -/
def execCycleEvent (idx : Fin 512) (s : State) : Result :=
  .next (
    let i := idx.val
    let r := s.row i
    if r.action ≠ 7 ∨ !r.due 0 s.nowNs ∨ !s.coresRun ∨ !s.rowTurn i then s
    else
      let k := r.covered 0 s.nowNs
      if r.needValid && !s.tmu.valid then passRow i k false s
      else
        let full := evCap 4 ≤ (s.mcc.queues.get [] (evKey 4 0)).length
        postEvent 4 0 (Word.of (r.arg + i * 65536)) rtagInternal (cycleBody r k s.tmu.valid)
          (countIf (decide full) (kTmu 9) (passRow i k true s)))

/-- Sets one PULSE_OUT level. -/
def setPulse (o : Nat) (level : Bool) (s : State) : State :=
  { s with tmu.pulse := BitVec.ofNat 4 (bits s.tmu.pulse.toNat 3 0 - 2 ^ o * flag (bitAt s.tmu.pulse.toNat o) + 2 ^ o * flag level) }

/-- A PULSE row acts on its output (Table 12-10): a level, or a pulse that extends one still asserted. -/
def pulseAct (arg : Nat) (s : State) : State :=
  let o := arg % 4
  let width := arg / 16
  if width = 0 then setPulse o (bitAt arg 3) { s with tmu.pulseEnd := s.tmu.pulseEnd.del o }
  else
    let stop := s.nowNs + width * 100000
    let till := match s.tmu.pulseEnd.find o with | some e => max e.1 stop | none => stop
    setPulse o (!bitAt arg 2) { s with tmu.pulseEnd := s.tmu.pulseEnd.ins o (till, bitAt arg 2) }

/-- PULSE_ROW: a PULSE row fires, or reaches its instant without valid time. -/
def execPulseRow (idx : Fin 512) (s : State) : Result :=
  .next (
    let i := idx.val
    let r := s.row i
    if r.action ≠ 8 ∨ !r.due 0 s.nowNs ∨ !s.coresRun ∨ !s.rowTurn i then s
    else
      let k := r.covered 0 s.nowNs
      if r.needValid && !s.tmu.valid then passRow i k false s
      else pulseAct r.arg (passRow i k true s))

/-- PULSE_END: a pulse returns to its idle level at its end. -/
def execPulseEnd (out : Fin 4) (s : State) : Result :=
  onClock s (match s.tmu.pulseEnd.find out.val with
    | some (e, idle) => if e ≤ s.nowNs then setPulse out.val idle { s with tmu.pulseEnd := s.tmu.pulseEnd.del out.val } else s
    | none => s)

/-! ## Commands (Table 12-11) -/

/-- TIME_READ: the 32-byte block of RD OP 1. -/
def execTimeRead (q : Fin 18) (s : State) : Result :=
  .next (runStandard q 0x0070 anyRole (fun _ s => { st := s, resp := some (le 1 1 ++ zeroBytes 7 ++ s.timeBlock) }) s)

/-- TIME_SET. -/
def doTimeSet (c : Cmd) (s : State) : HostAns :=
  if nsPerS ≤ field c.raw 16 4 then .fail s stBadArg
  else let (s1, st) := timeSet (field c.raw 8 8 * nsPerS + field c.raw 16 4) s; { st := s1, status := st }

/-- TIME_SET as a standard command: Operator, Metrology. -/
def execTimeSet (q : Fin 18) (s : State) : Result := .next (runStandard q 0x0071 (fun _ => [2, 5]) doTimeSet s)

/-- TIME_SOURCE as a standard command: bytes 1 to 17 of the SOURCE operation at 8 to 24. -/
def execTimeSource (q : Fin 18) (s : State) : Result :=
  .next (runStandard q 0x0072 operator (fun c s => let (s1, st) := selectSource (slice c.raw 8 17) s; { st := s1, status := st }) s)

/-- CYCLE_READ. -/
def doCycleRead (c : Cmd) (s : State) : HostAns :=
  if 511 < field c.raw 8 2 then .fail s stBadArg else { st := s, resp := some (s.rowView (field c.raw 8 2)).bytes }

/-- CYCLE_READ as a standard command. -/
def execCycleRead (q : Fin 18) (s : State) : Result := .next (runStandard q 0x0073 anyRole doCycleRead s)

/-- CYCLE_WRITE: the row is the data. -/
def doCycleWrite (c : Cmd) (s : State) : HostAns :=
  if c.data.length < 24 then .fail s stBadArg
  else let (s1, st, w) := writeRow (field c.raw 8 2) (rowOf c.data) s; { st := s1, status := st, waits := w }

/-- CYCLE_WRITE as a standard command. -/
def execCycleWrite (q : Fin 18) (s : State) : Result := .next (runStandard q 0x0074 operator doCycleWrite s)

end Sys2Proof.Machine
end

