-- ==== Sys2Proof/Machine/CasOps.lean ====
section
/-! DEFINITION. Stack operations: messages, broadcasts, barriers, snapshots, shared rows, remote frames, partition maps, time transfer, the CAS engine calls (R350, R372, R373, R378 to R383). -/

namespace Sys2Proof.Machine

/-! ## Software messages (R381, R382) -/

/-- A CASCADE event's body: SRC, KIND, LEN, four reserved bytes, data. -/
def casBody (src kind : Nat) (data : List Byte) : List Byte := le 1 src ++ le 1 kind ++ le 2 data.length ++ zeroBytes 4 ++ data

/-- The CASCADE queue is full. -/
def State.casFull (s : State) : Bool := decide (evCap 7 ≤ (s.mcc.queues.get [] (evKey 7 0)).length)

/-- A message for software: a CASCADE event, or dropped and counted at a full queue. -/
def casEvent (src kind : Nat) (data : List Byte) (s : State) : State :=
  postEvent 7 0 (Word.of 0xFFFF) rtagInternal (casBody src kind data) (countIf s.casFull (kCas 16) s)

/-- MSG: a CAS_SEND message arrives. -/
def execMsg (h : CHead) (m : Flit) (s : State) : Result :=
  .next (takeMsg 4 h m (fun s => match m with | .msg d => casEvent h.src 0 d s | _ => s) s)

/-- A broadcast takes effect on a chip: an event of KIND 1, or a stack reset (R382; log 47). -/
def bcastHere (src kind : Nat) (d : List Byte) (s : State) : State :=
  if kind = 0 then casEvent src 1 d s else { s with cpm.resetDue := some 3 }

/-- BCAST: on its way up it is distributed by the master; on its way down it takes effect and goes on. -/
def execBcast (h : CHead) (m : Flit) (s : State) : Result :=
  .next (takeMsg 5 h m (fun s =>
    match m with
    | .bcast k d =>
      if h.dst = 0xFF then bcastHere h.src k d (relayDown h m s)
      else bcastHere h.src k d (s.downPorts.foldl (fun s q => sendMsg q h.src 0xFF h.mid m s) (count (kCas 14) s))
    | .balance cfg next cuts => if s.cas.master then s else takeBalance cfg next cuts (relayDown h m s)
    | _ => s) s)

/-! ## Barriers (R382) -/

/-- The barrier of a BID at this chip. -/
def State.barrier (s : State) (bid : Nat) : Option Barrier := s.cas.barriers.find bid

/-- A barrier ends here: OK, or NOT_FOUND when a chip has not arrived in time. -/
def endBarrier (bid : Nat) (ok : Bool) (s : State) : State :=
  wake (.barrier bid) (some (if ok then stOk else stNotFound)) none
    (countIf (!ok) (kCas 15) { s with cas.barriers := s.cas.barriers.del bid })

/-- This chip and its whole subtree have arrived: the master releases, another chip reports upward. -/
def barrierCheck (bid : Nat) (s : State) : State :=
  match s.barrier bid with
  | none => s
  | some b =>
    if b.own && (s.children.map (·.1)).all (fun p => b.ports.contains p) then
      if s.cas.master then endBarrier bid true (broadcast (.barrierRelease bid true) s)
      else sendUp s.cas.chipId (.barrierArrive bid b.first b.tmo) s
    else s

/-- A barrier fails: the master says so to every chip, another chip says so to the master. -/
def failBarrier (bid : Nat) (s : State) : State :=
  let s1 := endBarrier bid false s
  if s.cas.master then broadcast (.barrierRelease bid false) s1 else sendUp 0xFE (.barrierRelease bid false) s1

/-- BARRIER: an arrival from a child, a release from above, or a failure on its way to the master. -/
def execBarrier (h : CHead) (m : Flit) (s : State) : Result :=
  let f := fun (s : State) =>
    match m with
    | .barrierArrive bid first tmo =>
      let b := (s.barrier bid).getD { first := first, tmo := tmo }
      let b' : Barrier := { b with ports := h.port.val :: b.ports.filter (· != h.port.val), first := min b.first first, tmo := min b.tmo tmo }
      barrierCheck bid { s with cas.barriers := s.cas.barriers.ins bid b' }
    | .barrierRelease bid ok =>
      if h.dst = 0xFF then
        let s1 := relayDown h m s
        if (s1.barrier bid).isSome then endBarrier bid ok s1 else s1
      else if (s.barrier bid).isSome then failBarrier bid s
      else broadcast (.barrierRelease bid false) s
    | _ => s
  .next (match m with
    | .barrierArrive .. => takeMsg 6 { h with dst := s.cas.chipId } m f s
    | _ => takeMsg 6 h m f s)

/-- BARRIER_TIMEOUT: TMO has passed since the first arrival this chip knows of. -/
def execBarrierTimeout (bid : Fin 256) (s : State) : Result :=
  .next (match s.barrier bid.val with
    | some b => if b.first + b.tmo * 1000 ≤ s.nowNs ∧ s.casRuns then failBarrier bid.val s else s
    | none => s)

/-! ## Snapshots (R383, R22) -/

/-- A capture of every statistics counter (R22). -/
def captureCounters (s : State) : State := { s with cap := s.ctr, glb.snapSeq := s.glb.snapSeq + 1 }

/-- A chip's capture report has reached the master; the last one completes CAS_SNAPSHOT. -/
def snapReport (no chip : Nat) (s : State) : State :=
  match s.cas.snapDue with
  | none => s
  | some (n, at_, l) =>
    if n ≠ no then s
    else
      let l' := l.filter (· != chip)
      if l'.isEmpty then wake .snapshot (some stOk) none { s with cas.snapDue := none }
      else { s with cas.snapDue := some (n, at_, l') }

/-- SNAP: a report on its way to the master. -/
def execSnap (h : CHead) (m : Flit) (s : State) : Result :=
  .next (takeMsg 7 h m (fun s => match m with | .snap no => snapReport no h.src s | _ => s) s)

/-- STACK_SNAPSHOT: row 10 fires; the chip captures, latches its positions and reports (R383, R348). -/
def execStackSnapshot (s : State) : Result :=
  .next (
    let r := s.row 10
    if r.action ≠ 6 ∨ !r.due 0 s.nowNs ∨ !s.casRuns then s
    else
      let s1 := passRow 10 1 s.tmu.valid s
      if !s.tmu.valid then s1
      else
        let b := match s.lastDurable with | some x => x.bseq | none => 0
        let s2 := { captureCounters s1 with
          cas.snapNo := BitVec.ofNat 16 r.arg, cas.snapLsn := BitVec.ofNat 32 s.lake.lsnHead, cas.snapBseq := BitVec.ofNat 64 b }
        if s.cas.master then snapReport r.arg s.cas.chipId s2 else sendUp 0xFE (.snap r.arg) s2)

/-- SNAPSHOT_TIMEOUT: a report is missing 5 ms after the instant. -/
def execSnapshotTimeout (s : State) : Result :=
  onCores s (match s.cas.snapDue with
    | some (_, at_, _) =>
      if at_ + 5000000 ≤ s.nowNs then wake .snapshot (some stNotFound) none { s with cas.snapDue := none } else s
    | none => s)

/-! ## Shared rows (R350) -/

/-- ROW: a shared row from the master is written and confirmed, or a confirmation reaches the master. -/
def execRow (h : CHead) (m : Flit) (s : State) : Result :=
  .next (takeMsg 0xA h m (fun s =>
    match m with
    | .row i r w => sendUp 0xFE (.rowOk i s.cas.chipId) (relayDown h m (armRow i r w (putRow i r s)))
    | .rowOk i chip =>
      match firstWhere (fun (a : Nat × List Nat × Nat) => a.1 == i) s.tmu.awaiting with
      | none => s
      | some (_, l, t) =>
        let l' := l.filter (· != chip)
        let rest := s.tmu.awaiting.filter fun a => a.1 != i
        if l'.isEmpty then wake (.row i) (some stOk) none { s with tmu.awaiting := rest }
        else { s with tmu.awaiting := (i, l', t) :: rest }
    | _ => s) s)

/-- ROW_CONFIRM_TIMEOUT: a chip has not confirmed within 5 ms. -/
def execRowConfirmTimeout (idx : Fin 512) (s : State) : Result :=
  onCores s (match firstWhere (fun (a : Nat × List Nat × Nat) => a.1 == idx.val) s.tmu.awaiting with
    | some (i, _, t) =>
      if t + 5000000 ≤ s.nowNs then wake (.row i) (some stNotFound) none { s with tmu.awaiting := s.tmu.awaiting.filter fun a => a.1 != i } else s
    | none => s)

/-! ## Remote frames (R379, R380) -/

/-- What a remote frame's decision staged stands as a decision of its chip (R379). -/
def stageRemote (chip : Nat) (old s : State) : State :=
  match s.ing.staging.filter fun r => !old.ing.staging.contains r with
  | r :: _ => { s with ing.staging := stageIn { r with chip := chip + 1 } old.ing.staging }
  | [] => s

/-- RFRAME: the owner tests the frame and answers with the same MID; a frame of no bucket of its own is WITHHELD. -/
def execRframe (h : CHead) (m : Flit) (s : State) : Result :=
  .next (takeMsg 0xB h m (fun s =>
    match m with
    | .rframe src fe direct lsa f =>
      let reply := fun (code : Nat) (ack : Option (Nat × Bool × List Byte)) (s : State) =>
        match s.portTo h.src with
        | some q => sendMsg q s.cas.chipId h.src h.mid (.rdecide h.mid code ack) s
        | none => s
      if s.ownerChip (frMa f) ≠ s.cas.chipId then reply 3 none s
      else
        let line : Option LineLink := if src < 256 then none else some (direct, src - 256, lsa)
        let j0 := judgeFrame f true true src fe line (s.latch (frMa f) (frKepoch f)) false s
        let j := { j0 with st := stageRemote h.src s j0.st }
        let s1 := match j.ack with
          | some o => if src < 256 ∧ o.wake then wakeNamed (frMa f) (fe + 50000000 + airNs o.rate (48 + 8 * o.frame.length)) j.st else j.st
          | none => j.st
        reply j.code (j.ack.map fun o => (o.rate, o.dup, o.frame)) (count (kCas 11) s1)
    | _ => s) s)

/-- RDECIDE: the outcome is counted where the frame was heard, and its answer latched; one that comes late is dropped. -/
def execRdecide (h : CHead) (m : Flit) (s : State) : Result :=
  .next (takeMsg 0xC h m (fun s =>
    match m with
    | .rdecide mid code ack =>
      match firstWhere (fun (r : Remote) => r.mid == mid) s.cas.remotes with
      | none => count (kCas 12) s
      | some r =>
        let s1 := count (kIngCode r.src code) { s with cas.remotes := s.cas.remotes.filter fun x => x.mid != mid }
        if r.frameEnd + 30000000 ≤ s.nowNs then count (kCas 12) s1
        else if r.src < 256 then
          let s2 := countIf (code == 3) (kRla r.src 10) s1
          match ack with
          | some (rate, dup, frame) => placeAck r.src { at_ := r.frameEnd + 50000000, rate := rate, dup := dup, frame := frame } s2
          | none => s2
        else
          let p := r.src - 256
          match (s1.lport p).resp with
          | some x =>
            if x.remote ∧ x.at_ = r.frameEnd + 80000 then
              updLport p (fun y => { y with resp := some { x with
                code := respCode code, remote := false, ack := ack.map fun a => a.2.2.take (a.2.2.length - 2) } }) s1
            else count (kCas 12) s1
          | none => count (kCas 12) s1
    | _ => s) s)

/-- REMOTE_DECISION_EXPIRE: 30 ms after the frame end a decision not latched is dropped. -/
def execRemoteDecisionExpire (mid : BitVec 16) (s : State) : Result :=
  onCores s (match firstWhere (fun (r : Remote) => r.mid == mid.toNat) s.cas.remotes with
    | some r =>
      if r.frameEnd + 30000000 ≤ s.nowNs then
        count (kCas 12) { s with cas.remotes := s.cas.remotes.filter fun x => x.mid != mid.toNat }
      else s
    | none => s)

/-! ## Partition map, ledger fetch, time transfer -/

/-- A partition map replaces the chip's; a standby mirrors it. -/
def putPartMap (l : List Nat) (s : State) : State := mirror (.partMap l) none none { s with cas.partMap := some l }

/-- PARTMAP: the master's broadcast. -/
def execPartmap (h : CHead) (m : Flit) (s : State) : Result :=
  .next (takeMsg 0x11 h m (fun s => match m with | .partmap l => putPartMap l (relayDown h m s) | _ => s) s)

/-- A meter's ledger data from the twin: a corrupt meter is restored, closed records not yet copied are filled in (R223, Table 14-12). -/
def fillMeter (mh : Nat) (x : Meter) (s : State) : State :=
  let put := fun (m : Map Meter) =>
    let y := m.get {} mh
    if y.corrupt then m.put {} mh { x with corrupt := false }
    else if y.closed.length < x.closed.length ∨ !y.lost.isEmpty then m.put {} mh { y with closed := x.closed, lost := x.lost } else m
  { s with ldg.live.meters := put s.ldg.live.meters, ldg.dur.meters := put s.ldg.dur.meters }

/-- LFETCH: a request is answered from the durable ledger; an answer fills what is missing. -/
def execLfetch (h : CHead) (m : Flit) (s : State) : Result :=
  .next (takeMsg 0x12 h m (fun s =>
    match m with
    | .lfetch mh =>
      let x := s.ldg.dur.meters.find mh
      sendOn h.port.val h.src (.lfetched mh (match x with | some y => if y.corrupt then none else x | none => none)) s
    | .lfetched mh (some x) => fetchDone mh true (fillMeter mh x s)
    | .lfetched mh none => fetchDone mh false s
    | _ => s) s)

/-- TSYNC_START: every 16 ms the lower chip of an UP link starts an exchange; an ALTUP link carries one too (R372, Table 14-4). -/
def execTsyncStart (port : Fin 4) (s : State) : Result :=
  .next (
    let c := s.cport port.val
    let due := match c.tsyncAt with | some a => decide (a + 16000000 ≤ s.nowNs) | none => true
    if !(c.role == 1 || c.role == 2) ∨ c.st ≠ 2 ∨ !s.casRuns ∨ !due then s
    else sendOn port.val 0xFE (.tsync 1 0 0) (updCport port.val (fun c => { c with tsyncT1 := some s.nowNs, tsyncAt := some s.nowNs }) s))

/-- TSYNC: the upper chip answers with t2 and t3; the lower chip averages the delay over 8 exchanges and, on its UP link, takes a sample
(R372, R336). -/
def execTsync (h : CHead) (m : Flit) (s : State) : Result :=
  .next (takeMsg 0x10 h m (fun s =>
    match m with
    | .tsync 1 _ _ => if (s.cport h.port.val).role = 3 then sendOn h.port.val h.src (.tsync 2 s.nowNs s.nowNs) s else s
    | .tsync _ t2 t3 =>
      let c := s.cport h.port.val
      match c.tsyncT1 with
      | none => s
      | some t1 =>
        let t4 := s.nowNs
        let d := ((t4 - t1) - (t3 - t2)) / 2
        let l := (d :: c.delays).take 8
        let avg := l.foldl (· + ·) 0 / l.length
        let s1 := updCport h.port.val (fun c => { c with tsyncT1 := none, delays := l }) s
        if c.role = 1 then takeSample 3 (((t3 + avg : Nat) : Int) - (t4 : Int)) s1 else s1
    | _ => s) s)

/-! ## Engine calls (Table 14-6) -/

/-- CAS_SEND OP 0; `full`: the destination's queue is full. -/
def casSend (full : Bool) (t : Nat) (b : List Byte) (s : State) : EngOut :=
  let dst := field b 1 1
  let n := field b 2 2
  let ma := field b 16 8
  if n = 0 ∨ 104 < n ∨ (0x40 ≤ dst ∧ dst ≤ 0xFC) ∨ dst = 0xFF ∨ (dst ≠ 0xFD ∧ ma ≠ 0) then .fail s stBadArg
  else match s.readBuf t (field b 8 8) n with
  | .error st => .fail s st
  | .ok d =>
    let toId := if dst = 0xFE then 0 else if dst = 0xFD then s.ownerChip (BitVec.ofNat 64 ma) else dst
    if toId = s.cas.chipId then
      let s1 := casEvent s.cas.chipId 0 d s
      if s.casFull then .fail s1 stNoSpace else .ok s1
    else match s.portTo toId with
    | none => .fail s stNotFound
    | some q => { st := sendOn q toId (.msg d) s, status := if full then stNoSpace else stOk }

/-- The roles of a CONFIG structure keep the rules of R373. -/
def casConfigOk (d : List Byte) : Bool :=
  let roles := (List.range 4).map fun i => field d i 1
  let n := fun (r : Nat) => (roles.filter (· == r)).length
  roles.all (fun r => decide (r ≤ 4)) && decide (field d 4 1 < 4) && zeros d 5 27 && decide (n 1 ≤ 1) && decide (n 2 = 0 ∨ n 1 = 1) &&
    decide (n 3 ≤ 3) && decide (n 4 ≤ 2) && (bitAt (field d 4 1) 0 == decide (1 ≤ n 4))

/-- A port takes a role: a changed one goes down and trains. -/
def setRole (p role : Nat) (s : State) : State :=
  if (s.cport p).role = role then s
  else
    let s1 := updCport p (fun _ => { trainPort role with failedAt := s.nowNs }) s
    if role = 0 then s1 else sendHello p s1

/-- CAS_SEND OP 1: roles and pair flags; a unit already in service becomes the active one of its pair (R373, R384). -/
def putCasConfig (roles : List Nat) (pair : Nat) (s : State) : State :=
  let paired := bitAt pair 0
  let s1 := { s with cas.paired := paired, cas.primary := bitAt pair 1, cas.master := !roles.contains 1 }
  let s2 :=
    if paired ∧ !s.cas.paired then
      if s.glb.mode = .service then setPair 2 { s1 with cas.activeSince := s.nowNs } else { s1 with cas.helloAt := s.nowNs }
    else if !paired then setPair 0 { s1 with cas.phase := 0 }
    else s1
  rediscover ((List.range 4).foldl (fun s p => setRole p (roles.getD p 0) s) s2)

/-- CAS_SEND OP 2; `held`: buckets in which another chip holds an entry that is not FREE. -/
def casPartmap (held : List Nat) (d : List Byte) (s : State) : State × Nat :=
  let new := d.map (·.toNat)
  let old := s.cas.partMap.getD (defaultMap s.cas.chips)
  let mine := match s.hk with
    | some hk => s.ing.dir.filterMap fun (e : Nat × DirEntry) => if e.2.st = DSt.free then none else some (bits (hashY hk e.2.ma) 61 50)
    | none => []
  let moved := (List.range 4096).filter fun i => new.getD i 0 != old.getD i 0
  if s.cas.pair = 3 ∨ s.cas.pair = 4 then (s, stAccessDenied)
  else if !s.cas.master ∨ new.any (fun c => decide (s.cas.chips ≤ c)) ∨ moved.any (fun i => mine.contains i || held.contains i) then (s, stBadArg)
  else (broadcast (.partmap new) (putPartMap new s), stOk)

/-- CAS_SEND by its OP. -/
def engCasSend (full : Bool) (held : List Nat) (t : Nat) (b : List Byte) (s : State) : EngOut :=
  let op := field b 0 1
  let n := field b 2 2
  if 4 ≤ op ∨ !zeros b 4 4 then .fail s stBadArg
  else if op = 0 then casSend full t b s
  else if (s.thr t).level = .task then .fail s stPriv
  else if field b 1 1 ≠ 0 ∨ field b 16 8 ≠ 0 ∨ n ≠ (if op = 1 then 32 else if op = 2 then 4096 else 0) then .fail s stBadArg
  else if op = 3 then let (s1, st) := doHandover s; { st := s1, status := st }
  else match s.readBuf t (field b 8 8) n with
  | .error st => .fail s st
  | .ok d =>
    if op = 1 then
      if casConfigOk d then .ok (putCasConfig ((List.range 4).map fun i => field d i 1) (field d 4 1) s) else .fail s stBadArg
    else let (s1, st) := casPartmap held d s; { st := s1, status := st }

/-- CAS_BARRIER. -/
def engCasBarrier (_t : Nat) (b : List Byte) (s : State) : EngOut :=
  let bid := field b 0 1
  let tmo := field b 2 2
  if !zeros b 1 1 ∨ !zeros b 4 4 ∨ tmo = 0 then .fail s stBadArg
  else
    let x := (s.barrier bid).getD { first := s.nowNs, tmo := tmo }
    let one := s.cas.master && s.children.isEmpty
    if one then .ok s
    else { st := barrierCheck bid { s with cas.barriers := s.cas.barriers.ins bid { x with own := true } }, status := stOk, waits := some (.barrier bid) }

/-- CAS_BCAST. -/
def engCasBcast (t : Nat) (b : List Byte) (s : State) : EngOut :=
  let k := field b 0 1
  let n := field b 2 2
  if 2 ≤ k ∨ !zeros b 1 1 ∨ !zeros b 4 4 ∨ !zeros b 16 8 ∨ (k = 0 ∧ (n = 0 ∨ 104 < n)) ∨ (k = 1 ∧ (n ≠ 0 ∨ !s.cas.master)) then .fail s stBadArg
  else match (if k = 0 then s.readBuf t (field b 8 8) n else .ok []) with
  | .error st => .fail s st
  | .ok d =>
    if s.cas.master then .ok (bcastHere s.cas.chipId k d (broadcast (.bcast k d) s))
    else if s.upPort.isNone then .fail s stNotFound
    else .ok (sendUp 0xFE (.bcast k d) s)

/-- CAS_SNAPSHOT: row 10 for the instant given, at the master (R382, R350). -/
def engCasSnapshot (_t : Nat) (b : List Byte) (s : State) : EngOut :=
  let no := field b 0 2
  let ns := field b 4 4
  let at_ := field b 8 8 * nsPerS + ns
  if !zeros b 2 2 ∨ nsPerS ≤ ns ∨ !s.cas.master then .fail s stBadArg
  else if s.cas.pair = 3 ∨ s.cas.pair = 4 then .fail s stAccessDenied
  else if at_ < s.nowNs + 10000000 then .fail s stTooLate
  else
    let r : Row := { tS := field b 8 8, tNs := ns, action := 6, flags := 5, arg := no, t0 := at_ }
    let s1 := if s.cas.snapDue.isSome then wake .snapshot (some stNotFound) none s else s
    let (s2, _) := shareRow 10 r s1
    { st := { s2 with cas.snapDue := some (no, at_, List.range s.cas.chips) }, status := stOk, waits := some .snapshot }

/-- CAS_SEND: OP 0, a message; `full`: the destination's queue is full. -/
def execCasSend (t : Fin 256) (pi : Fin 8) (rt ra : Fin 32) (full : Bool) (s : State) : Result :=
  .next (ecall t pi rt ra 0xB0 24 (engCasSend full []) s)

/-- CAS_CONFIG: OP 1. -/
def execCasConfig (t : Fin 256) (pi : Fin 8) (rt ra : Fin 32) (s : State) : Result :=
  .next (ecall t pi rt ra 0xB0 24 (engCasSend false []) s)

/-- CAS_PARTMAP: OP 2; `held`: buckets in which another chip holds an entry that is not FREE. -/
def execCasPartmap (t : Fin 256) (pi : Fin 8) (rt ra : Fin 32) (held : List Nat) (s : State) : Result :=
  .next (ecall t pi rt ra 0xB0 24 (engCasSend false held) s)

/-- CAS_HANDOVER: OP 3. -/
def execCasHandover (t : Fin 256) (pi : Fin 8) (rt ra : Fin 32) (s : State) : Result :=
  .next (ecall t pi rt ra 0xB0 24 (engCasSend false []) s)

/-- CAS_BARRIER. -/
def execCasBarrier (t : Fin 256) (pi : Fin 8) (rt ra : Fin 32) (s : State) : Result := .next (ecall t pi rt ra 0xB1 8 engCasBarrier s)

/-- CAS_BCAST: KIND 0. -/
def execCasBcast (t : Fin 256) (pi : Fin 8) (rt ra : Fin 32) (s : State) : Result := .next (ecall t pi rt ra 0xB2 24 engCasBcast s)

/-- STACK_RESET: KIND 1. -/
def execStackReset (t : Fin 256) (pi : Fin 8) (rt ra : Fin 32) (s : State) : Result := .next (ecall t pi rt ra 0xB2 24 engCasBcast s)

/-- CAS_SNAPSHOT. -/
def execCasSnapshot (t : Fin 256) (pi : Fin 8) (rt ra : Fin 32) (s : State) : Result := .next (ecall t pi rt ra 0xB3 16 engCasSnapshot s)

end Sys2Proof.Machine
end

