-- ==== Sys2Proof/Machine/EthFrame.lean ====
section
/-! DEFINITION. Ethernet frames as a MAC reads them: VLAN tags, IP and UDP headers, UDP checksums, PTP messages (Table 13-1, Table 13-4, R337, R338). Field places are those of IEEE 802.3, IPv4, IPv6, UDP and IEEE 1588. -/

namespace Sys2Proof.Machine

/-- The number that `n` bytes at `off` spell, most significant first. -/
def beField (l : List Byte) (off n : Nat) : Nat := (slice l off n).foldl (fun a b => 256 * a + b.toNat) 0

/-- The list with `p` in place of the bytes at `off`. -/
def patch (l : List Byte) (off : Nat) (p : List Byte) : List Byte := l.take off ++ p ++ l.drop (off + p.length)

/-- A VLAN tag follows the source address. -/
def ethTagged (f : List Byte) : Bool := beField f 12 2 == 0x8100 || beField f 12 2 == 0x88A8

/-- Where the EtherType stands, behind at most two VLAN tags. -/
def ethTypeAt (f : List Byte) : Nat :=
  if !ethTagged f then 12 else if beField f 16 2 = 0x8100 ∨ beField f 16 2 = 0x88A8 then 20 else 16

/-- The EtherType of a frame. -/
def ethType (f : List Byte) : Nat := beField f (ethTypeAt f) 2

/-- Where a frame's UDP header stands, and whether it is over IPv6; `none` where the frame is not UDP. -/
def udpAt (f : List Byte) : Option (Bool × Nat) :=
  let o := ethTypeAt f + 2
  if ethType f = 0x0800 ∧ bits (beField f o 1) 7 4 = 4 ∧ beField f (o + 9) 1 = 17 ∧ beField f (o + 6) 2 % 2 ^ 14 = 0 then
    some (false, o + 4 * (beField f o 1 % 16))
  else if ethType f = 0x86DD ∧ bits (beField f o 1) 7 4 = 6 ∧ beField f (o + 6) 1 = 17 then some (true, o + 40)
  else none

/-- Destination IP address of a UDP frame. -/
def ipDst (f : List Byte) (v6 : Bool) : List Byte :=
  let o := ethTypeAt f + 2
  if v6 then slice f (o + 24) 16 else slice f (o + 16) 4

/-- Source and destination IP addresses of a UDP frame, in order. -/
def ipPair (f : List Byte) (v6 : Bool) : List Byte :=
  let o := ethTypeAt f + 2
  if v6 then slice f (o + 8) 32 else slice f (o + 12) 8

/-- The sum of 16-bit words, most significant byte first, an odd last byte padded. -/
def words16 : List Byte → Nat
  | [] => 0
  | [a] => 256 * a.toNat
  | a :: b :: l => 256 * a.toNat + b.toNat + words16 l

/-- A number folded to its ones' complement sum of 16 bits. -/
def fold16 (n : Nat) : Nat := iter 3 (fun x => x % 65536 + x / 65536) n

/-- The ones' complement sum over the pseudo-header and the UDP datagram at `o`. -/
def udpSum (f : List Byte) (v6 : Bool) (o : Nat) : Nat :=
  let n := beField f (o + 4) 2
  fold16 (words16 (ipPair f v6) + 17 + n + words16 (slice f o n))

/-- The UDP checksum was checked: IPv4 sends 0 for none. -/
def udpChecked (f : List Byte) (v6 : Bool) (o : Nat) : Bool := v6 || beField f (o + 6) 2 != 0

/-- The UDP checksum is good, or absent over IPv4. -/
def udpGood (f : List Byte) (v6 : Bool) (o : Nat) : Bool :=
  if beField f (o + 6) 2 = 0 then !v6 else udpSum f v6 o == 0xFFFF

/-- The frame with its UDP checksum inserted (CSUM). -/
def withCsum (f : List Byte) : List Byte :=
  match udpAt f with
  | none => f
  | some (v6, o) =>
    let z := patch f (o + 6) [0#8, 0#8]
    let c := 0xFFFF - udpSum z v6 o
    patch z (o + 6) (be 2 (if c = 0 then 0xFFFF else c))

/-- Where a PTP message begins: directly over Ethernet, or in UDP to port 319 or 320; with the transport, 0 Ethernet, 1 IPv4, 2 IPv6. -/
def ptpAt (f : List Byte) : Option (Nat × Nat) :=
  if ethType f = 0x88F7 then some (0, ethTypeAt f + 2)
  else match udpAt f with
    | some (v6, o) => if beField f (o + 2) 2 = 319 ∨ beField f (o + 2) 2 = 320 then some (1 + flag v6, o + 8) else none
    | none => none

/-- messageType of a PTP message: 0 Sync, 1 Delay_Req, 2 Pdelay_Req, 3 Pdelay_Resp are the event messages. -/
def ptpType (f : List Byte) : Option Nat := (ptpAt f).map fun p => beField f p.2 1 % 16

/-- A PTP event message, stamped on arrival (R339). -/
def ptpEvent (f : List Byte) : Bool := match ptpType f with | some t => decide (t < 4) | none => false

/-- A 16-byte VALUE and MASK pattern matches a frame (R363). -/
def patMatch (mask : Nat) (value f : List Byte) : Bool :=
  (List.range 128).all fun j => !bitAt mask j || (decide (j < f.length) && f.getD j 0 == value.getD j 0)

end Sys2Proof.Machine
end

