-- ==== Sys2Proof/Machine/Mac.lean ====
section
/-! DEFINITION. The Ethernet MACs: link, configuration, transmission, reception, pause, wake patterns (R354 to R365). -/

namespace Sys2Proof.Machine

/-! ## Stamps (R338 to R340, Table 12-4) -/

/-- Picoseconds of one byte at a PHY rate: 0 1G, 1 2.5G, 2 10G. -/
def bytePs (rate : Nat) : Nat := if rate = 2 then 800 else if rate = 1 then 3200 else 8000

/-- TAI now in units of 2^-16 ns. -/
def State.fineNow (s : State) : Int := (s.nowNs * 65536 + s.tmu.frac / 2 ^ 32 : Nat)

/-- How far the declared latencies move a stamp from the interface to the wire, in ns (R339). -/
def State.stampShift (s : State) (m : Nat) (tx : Bool) : Int :=
  let l := s.tmu.macLat.get {} m
  (if tx then (l.tx : Int) else -(l.rx : Int)) + (if l.asym = 0 then 0 else Config.asymShift tx l.asym)

/-- The stamp, in 2^-16 ns, of a frame of `n` bytes without FCS whose last bit passes now. -/
def State.stampAt (s : State) (m n : Nat) (tx : Bool) : Int :=
  s.fineNow - (((n + 4) * bytePs (s.mac m).rate * 65536 / 1000 : Nat) : Int) + s.stampShift m tx * 65536

/-- The 16 bytes of a stamp: FLAGS has PRESENT, VALID, STEPPED and ONESTEP. -/
def stampBytes (x : Int) (valid stepped onestep : Bool) : List Byte :=
  let n := (x / 65536).toNat
  le 8 (n / 1000000000) ++ le 4 (n % 1000000000) ++ le 2 (x % 65536).toNat ++ le 2 (1 + 2 * flag valid + 4 * flag stepped + 8 * flag onestep)

/-- Steps of time so far. -/
def State.stepsSoFar (s : State) : Nat := (s.counter (kTmu 3)).toNat + (s.counter (kTmu 4)).toNat

/-- A one-step frame as it leaves (R338): originTimestamp of a Sync, correctionField of a Pdelay_Resp, the UDP checksum cleared on IPv4.
A turnaround whose Pdelay_Req the MAC did not stamp is a free value. -/
def oneStep (m : Nat) (x : Int) (f : List Byte) (s : State) : List Byte × State :=
  match ptpAt f with
  | none => (f, s)
  | some (tr, o) =>
    let n := (x / 65536).toNat
    let f1 := if tr = 1 then patch f (o - 2) [0#8, 0#8] else f
    if beField f o 1 % 16 = 0 then (patch f1 (o + 34) (be 6 (n / 1000000000) ++ be 4 (n % 1000000000)), s)
    else
      let corr := fun (t : Int) => patch f1 (o + 8) (be 8 (unsigned 64 (signed 64 (beField f (o + 8) 8) + t)))
      match (s.mac m).pdelay with
      | some (q, rx) =>
        if q = beField f (o + 30) 2 then (corr (x - rx), s)
        else let (v, s1) := drawFree s; (corr v, s1)
      | none => let (v, s1) := drawFree s; (corr v, s1)

/-! ## PTP messages of the selected parent (R336, R337); field places are those of IEEE 1588 -/

/-- A timestamp field, in units of 2^-16 ns. -/
def ptpTime (f : List Byte) (o : Nat) : Int := ((beField f o 6 * 1000000000 + beField f (o + 6) 4) * 65536 : Nat)

/-- correctionField of the message at `o`, in units of 2^-16 ns. -/
def ptpCorr (f : List Byte) (o : Nat) : Int := signed 64 (beField f (o + 8) 8)

/-- Where a PTP version 2 message stands that MAC `m` carries over the transport and in the domain of the selected source. -/
def State.ptpHere (s : State) (m : Nat) (f : List Byte) : Option Nat :=
  match ptpAt f with
  | some (tr, o) =>
    let x := s.tmu.sel
    if x.kind = m + 1 ∧ tr = x.transport ∧ beField f (o + 1) 1 % 16 = 2 ∧ beField f (o + 4) 1 = x.domain then some o else none
  | none => none

/-- The message at `o` comes from the selected parent: its clockIdentity and port number (R336). -/
def State.fromParent (s : State) (f : List Byte) (o : Nat) : Bool :=
  field f (o + 20) 8 == s.tmu.sel.clockId && beField f (o + 28) 2 == s.tmu.sel.port

/-- A message of the selected parent is read; `x` is its receive stamp. Event messages and follow-ups match by sequenceId (R336). -/
def Ptp.heard (p : Ptp) (mech : Nat) (f : List Byte) (o : Nat) (x : Int) : Ptp :=
  let seq := beField f (o + 30) 2
  let twoStep := bitAt (beField f (o + 6) 1) 1
  let mine := fun (q : Nat × Nat × Int) => q.1 == seq && field f (o + 44) 10 == q.2.1
  match beField f o 1 % 16 with
  | 11 => { p with announced := bitAt (beField f (o + 7) 1) 3 }
  | 0 =>
    { p with every := signed 8 (beField f (o + 33) 1)
             sync := some { seq := seq, rx := x, origin := if twoStep then none else some (ptpTime f (o + 34)), corr := ptpCorr f o } }
  | 8 =>
    match p.sync with
    | some y =>
      if y.seq = seq ∧ y.origin.isNone then
        { p with sync := some { y with origin := some (ptpTime f (o + 34)), corr := y.corr + ptpCorr f o } }
      else p
    | none => p
  | 9 =>
    match p.req, p.sync with
    | some q, some y =>
      match y.origin with
      | some t1 =>
        if mech = 0 ∧ mine q then
          { p with req := none, delay := some (((y.rx - t1 - y.corr) + (ptpTime f (o + 34) - q.2.2 - ptpCorr f o)) / 2) }
        else p
      | none => p
    | _, _ => p
  | 3 =>
    match p.req with
    | some q =>
      if mech = 1 ∧ mine q then
        if twoStep then { p with resp := some (seq, ptpTime f (o + 34), x, ptpCorr f o) }
        else { p with req := none, delay := some ((x - q.2.2 - ptpCorr f o) / 2) }
      else p
    | none => p
  | 10 =>
    match p.req, p.resp with
    | some q, some (n, t2, t4, c) =>
      if mech = 1 ∧ mine q ∧ n = seq then
        { p with req := none, resp := none, delay := some (((t4 - q.2.2) - (ptpTime f (o + 34) - t2) - c - ptpCorr f o) / 2) }
      else p
    | _, _ => p
  | _ => p

/-- A good frame that MAC `m` received at stamp `x` is read where it is a PTP message of the selected parent. -/
def ptpHeard (m : Nat) (f : List Byte) (x : Int) (s : State) : State :=
  match s.ptpHere m f with
  | some o => if s.fromParent f o then { s with tmu.ptp := s.tmu.ptp.heard s.tmu.sel.mech f o x } else s
  | none => s

/-- A frame that left MAC `m` at stamp `x`: the request of the path-delay mechanism in use is remembered. -/
def ptpSent (m : Nat) (f : List Byte) (x : Int) (s : State) : State :=
  match s.ptpHere m f with
  | some o =>
    if beField f o 1 % 16 = 1 + s.tmu.sel.mech then
      { s with tmu.ptp.req := some (beField f (o + 30) 2, field f (o + 20) 10, x), tmu.ptp.resp := none }
    else s
  | none => s

/-! ## Link (R355, R356) -/

/-- RATEPOL admits a PHY rate. -/
def rateAdmitted (pol rate : Nat) : Bool := pol == 0 || (pol == 1 && rate == 2) || (pol == 2 && rate == 1) || (pol == 3 && rate == 0)

/-- The link goes down: queued frames complete with NO_ROUTE, pauses clear, waiting answers are discarded, a PTP source here is lost. -/
def linkDown (m : Nat) (s : State) : State :=
  let x := s.mac m
  if !x.link then s
  else
    let s1 := x.txq.foldl (fun s f => count (kMac m 22) (wake (.macTx m f.id) (some stNoRoute) (some [(8, zeroBytes 16)]) s)) s
    let s2 := countN (kMac m 23) x.dgrams.length (count (kMac m 19) s1)
    let s3 := updMac m (fun x => { x with link := false, txq := [], dgrams := [], pausedTill := none, xoff := false }) s2
    let s4 := if s.tmu.sel.kind = m + 1 then sourceLost s3 else s3
    postNotice 0x0A01 0 (le 1 m ++ le 1 x.rate) s4

/-- A wake source of Ochre: the first one latched stands (R364, R416). -/
def latchWake (src : Nat) (s : State) : State :=
  if s.cpm.latched.isNone then { s with cpm.latched := some src } else s

/-- The MAC is armed in VIGIL or its commit. -/
def State.macArmed (s : State) (m : Nat) : Bool := (s.mac m).armed && (s.glb.mode == .vigil || s.cpm.drain == .commit)

/-- A link change of an armed MAC wakes the part when WAKE_LINK = 1 (R364). -/
def linkWake (m : Nat) (s : State) : State :=
  match (s.mac m).cfg with
  | some c => if s.macArmed m && c.wakeLink then latchWake (2 + m) s else s
  | none => s

/-- MAC_LINK_UP: block lock and a link-up control word at a rate; a rate that RATEPOL does not admit leaves the link down. -/
def execMacLinkUp (m : Fin 2) (rate : Fin 3) (s : State) : Result :=
  .next (
    match (s.mac m).cfg with
    | none => s
    | some c =>
      if !(s.mac m).cfgok ∨ (!s.coresRun ∧ !s.macArmed m) then s
      else
        let was := (s.mac m).link
        let s1 := if was && !rateAdmitted c.ratepol rate then linkDown m s else s
        let s2 := updMac m (fun x => { x with blockLock := true, rate := rate, link := rateAdmitted c.ratepol rate }) s1
        if (s2.mac m).link = was then s2
        else
          let s3 := linkWake m s2
          if was then s3 else postNotice 0x0A02 1 (le 1 m ++ le 1 rate) s3)

/-- MAC_LINK_DOWN: block lock lost for 1 ms (`lock` true), or a link-down control word. -/
def execMacLinkDown (m : Fin 2) (lock : Bool) (s : State) : Result :=
  .next (
    if !(s.mac m).cfgok ∨ (!s.coresRun ∧ !s.macArmed m) then s
    else
      let s1 := if lock then countIf (s.mac m).blockLock (kMac m 18) (updMac m (fun x => { x with blockLock := false }) s) else s
      if (s.mac m).link then linkWake m (linkDown m s1) else s1)

/-! ## MAC_TX (R357 to R359, R363) -/

/-- MAXLEN in force. -/
def State.maxlen (s : State) (m : Nat) : Nat := match (s.mac m).cfg with | some c => c.maxlen | none => 1518

/-- ONESTEP is for a PTP Sync or Pdelay_Resp over Ethernet or IPv4 (R338, R358). -/
def oneStepOk (f : List Byte) : Bool :=
  match ptpAt f with
  | some (tr, o) => tr != 2 && (beField f o 1 % 16 == 0 || beField f o 1 % 16 == 3)
  | none => false

/-- OP 0, SEND. -/
def macSend (t m : Nat) (b : List Byte) (s : State) : EngOut :=
  let fl := field b 2 1
  let n := field b 4 2
  if 8 ≤ fl ∨ n < 60 ∨ s.maxlen m - 4 < n then .fail s stBadArg
  else match s.readBuf t (field b 8 8) n with
  | .error e => .fail s e
  | .ok f =>
    let one := bitAt fl 1
    if (one && !oneStepOk f) || (bitAt fl 2 && (udpAt f).isNone) then .fail s stBadArg
    else if !(s.mac m).link then { st := count (kMac m 22) s, status := stNoRoute, out := [(8, zeroBytes 16)] }
    else if 256 ≤ (s.mac m).txq.length then { st := s, status := stNoSpace, out := [(8, zeroBytes 16)] }
    else
      let id := (s.mac m).nextId
      let x : TxFrame := { bytes := if bitAt fl 2 then withCsum f else f, stamp := bitAt fl 0, onestep := one, id := id, steps := s.stepsSoFar }
      { st := updMac m (fun y => { y with txq := y.txq ++ [x], nextId := id + 1 }) s, status := stOk, waits := some (.macTx m id) }

/-- The configuration that 128 bytes spell (Table 13-3). -/
def macCfgOf (b : List Byte) : MacCfg :=
  let p := field b 9 1
  { addr := slice b 0 6, maxlen := field b 6 2, ratepol := field b 8 1
    enable := bitAt p 4, wakeLink := bitAt p 3, promisc := bitAt p 2, txpause := bitAt p 1, rxpause := bitAt p 0
    hiwat := field b 10 2, lowat := field b 12 2, pquanta := field b 14 2, ipv4 := slice b 16 4, ipv6 := slice b 20 16
    cmdport := field b 36 2
    mcast := ((List.range 8).map fun i => slice b (40 + 6 * i) 6).filter fun a => !zeros a 0 6 }

/-- Every field of a configuration is in range (Table 13-3). -/
def macCfgBad (b : List Byte) : Bool :=
  let c := macCfgOf b
  bitAt (field b 0 1) 0 || decide (c.maxlen < 1518) || decide (9022 < c.maxlen) || decide (3 < c.ratepol) || decide (32 ≤ field b 9 1)
    || decide (c.hiwat < 16) || decide (112 < c.hiwat) || decide (c.lowat < 8) || decide (c.hiwat < c.lowat + 8) || decide (c.pquanta = 0)
    || !zeros b 38 2 || !zeros b 88 40

/-- OP 1, CONFIG: a change of RATEPOL takes the link down, and a configuration without ENABLE does (log 72). A MAC stays in its reset state until the
first configuration with ENABLE = 1 (R2). -/
def macConfig (t m : Nat) (b : List Byte) (s : State) : EngOut :=
  if field b 2 1 ≠ 0 ∨ field b 4 2 ≠ 128 then .fail s stBadArg
  else match s.readBuf t (field b 8 8) 128 with
  | .error e => .fail s e
  | .ok d =>
    let c := macCfgOf d
    if macCfgBad d || (s.mac m).posted.any (fun r => decide (r.len < c.maxlen)) then .fail s stBadArg
    else
      let fresh := (s.mac m).cfg.isNone && !c.enable
      let old := match (s.mac m).cfg with | some o => o.ratepol | none => c.ratepol
      let s1 := if old ≠ c.ratepol ∨ !c.enable then linkDown m s else s
      .ok (if fresh then s else updMac m (fun x => { x with cfg := some c, cfgok := c.enable }) s1)

/-- OP 2, WAKE: pattern IDX. -/
def macWake (t m : Nat) (b : List Byte) (s : State) : EngOut :=
  if field b 2 1 ≠ 0 ∨ field b 4 2 ≠ 152 then .fail s stBadArg
  else match s.readBuf t (field b 8 8) 152 with
  | .error e => .fail s e
  | .ok d =>
    if 7 < field d 0 1 ∨ 1 < field d 1 1 ∨ !zeros d 2 6 then .fail s stBadArg
    else
      .ok (updMac m (fun x => { x with
        pats := if field d 1 1 = 1 then x.pats.ins (field d 0 1) (field d 8 16, slice d 24 128) else x.pats.del (field d 0 1) }) s)

/-- MAC_TX: SEND, CONFIG and WAKE, by OP; CONFIG and WAKE are not for TASK (R357). -/
def engMacTx (t : Nat) (b : List Byte) (s : State) : EngOut :=
  let m := field b 1 1
  let op := field b 0 1
  if 2 < op then .fail s stBadArg
  else if op ≠ 0 ∧ (s.thr t).level = .task then .fail s stPriv
  else if 1 < m ∨ !zeros b 3 1 ∨ !zeros b 6 2 ∨ !zeros b 16 8 then .fail s stBadArg
  else if op = 0 then macSend t m b s
  else if op = 1 then macConfig t m b s
  else macWake t m b s

/-- MAC_TX OP 0 as an engine call. -/
def execMacSend (t : Fin 256) (pi : Fin 8) (rt ra : Fin 32) (s : State) : Result := .next (ecall t pi rt ra 0xA0 24 engMacTx s)

/-- MAC_TX OP 1 as an engine call. -/
def execMacConfig (t : Fin 256) (pi : Fin 8) (rt ra : Fin 32) (s : State) : Result := .next (ecall t pi rt ra 0xA0 24 engMacTx s)

/-- MAC_TX OP 2 as an engine call. -/
def execMacWake (t : Fin 256) (pi : Fin 8) (rt ra : Fin 32) (s : State) : Result := .next (ecall t pi rt ra 0xA0 24 engMacTx s)

/-! ## Transmission (R358, R362) -/

/-- A frame of `n` bytes without FCS whose last bit leaves now was not held by a received PAUSE: it began by the PAUSE, or after it. -/
def State.notPaused (s : State) (m n : Nat) : Bool :=
  match (s.mac m).pausedTill with
  | none => true
  | some till =>
    let start := s.nowNs - (n + 4) * bytePs (s.mac m).rate / 1000
    decide (start ≤ (s.mac m).pausedAt) || decide (till ≤ start)

/-- The next to leave is a Host Port datagram: the two kinds alternate while both wait (R358). -/
def MacSt.dgramNext (x : MacSt) : Bool := !x.dgrams.isEmpty && (x.txq.isEmpty || !x.lastWasDgram)

/-- Bytes of a datagram's frame without FCS: an odd destination names an IPv6 address (log 53). -/
def dgramLen (f : TxFrame) : Nat := f.bytes.length + (if (f.dst.getD 0) % 2 = 1 then 62 else 42)

/-- A Host Port datagram leaves. -/
def sendDgram (m : Nat) (f : TxFrame) (s : State) : State :=
  let s1 := updMac m (fun x => { x with dgrams := x.dgrams.drop 1, lastWasDgram := true }) s
  emit (.udp m (f.dst.getD 0) f.bytes) (countN (kMac m 1) (dgramLen f + 4) (count (kMac m 0) s1))

/-- A queued frame leaves with its FCS; its call may complete, with the stamp. -/
def sendFrame (m : Nat) (f : TxFrame) (s : State) : State :=
  let x := s.stampAt m f.bytes.length true
  let (bytes, s1) := if f.onestep then oneStep m x f.bytes s else (f.bytes, s)
  let stamp := if f.stamp then stampBytes x s.tmu.valid (f.steps != s.stepsSoFar) f.onestep else zeroBytes 16
  let s2 := ptpSent m bytes x (updMac m (fun x => { x with txq := x.txq.drop 1, lastWasDgram := false }) s1)
  let s3 := countIf f.onestep (kTmu 10) (countIf f.stamp (kMac m 17) (countN (kMac m 1) (bytes.length + 4) (count (kMac m 0) s2)))
  wake (.macTx m f.id) (some stOk) (some [(8, stamp)]) (emit (.mac m (bytes ++ le 4 (crc32 bytes))) s3)

/-- MAC_TX_COMPLETE: the last bit of the next frame or datagram leaves the MAC. -/
def execMacTxComplete (m : Fin 2) (s : State) : Result :=
  .next (
    let x := s.mac m
    if !x.link ∨ !s.coresRun then s
    else if x.dgramNext then
      match x.dgrams with
      | f :: _ => if s.notPaused m (dgramLen f) then sendDgram m f s else s
      | [] => s
    else match x.txq with
      | f :: _ => if s.notPaused m f.bytes.length then sendFrame m f s else s
      | [] => s)

/-! ## Pause (R362) -/

/-- A PAUSE frame with its quanta, ahead of everything queued. -/
def sendPause (m quanta : Nat) (s : State) : State :=
  let src := match (s.mac m).cfg with | some c => c.addr | none => zeroBytes 6
  let f := fit 60 (be 6 0x0180C2000001 ++ src ++ be 2 0x8808 ++ be 2 1 ++ be 2 quanta)
  emit (.mac m (f ++ le 4 (crc32 f))) s

/-- Nanoseconds of `q` pause quanta of 512 bit times at a rate. -/
def quantaNs (q rate : Nat) : Nat := q * 64 * bytePs rate / 1000

/-- The receive FIFO now holds `fill` bytes: XOFF at HIWAT, XON at LOWAT. -/
def fifoLevel (m fill : Nat) (s : State) : State :=
  let kib := fill / 1024
  let s1 := updMac m (fun x => { x with fill := kib, peak := max x.peak kib }) s
  match (s.mac m).cfg with
  | none => s1
  | some c =>
    if !c.txpause || !(s.mac m).link then s1
    else if !(s.mac m).xoff && decide (c.hiwat * 1024 ≤ fill) then
      count (kMac m 10) (sendPause m c.pquanta (updMac m (fun x => { x with xoff := true, xoffAt := s.nowNs }) s1))
    else if (s.mac m).xoff && decide (fill ≤ c.lowat * 1024) then
      count (kMac m 11) (sendPause m 0 (updMac m (fun x => { x with xoff := false }) s1))
    else s1

/-- XOFF_REFRESH: the FIFO holds `fill` bytes; while that stays above LOWAT, the XOFF is repeated every PQUANTA / 2 quanta. -/
def execXoffRefresh (m : Fin 2) (fill : Fin 131073) (s : State) : Result :=
  .next (
    if !s.coresRun ∨ (s.mac m).cfg.isNone then s
    else
      let s1 := fifoLevel m fill s
      match (s.mac m).cfg with
      | none => s1
      | some c =>
        let x := s1.mac m
        if x.xoff && (s.mac m).xoff && decide (x.xoffAt + quantaNs c.pquanta x.rate / 2 ≤ s.nowNs) then
          count (kMac m 10) (sendPause m c.pquanta (updMac m (fun x => { x with xoffAt := s.nowNs }) s1))
        else s1)

/-- MAC_PAUSE_EXPIRE: the time of a received PAUSE has run out. -/
def execMacPauseExpire (m : Fin 2) (s : State) : Result :=
  onClock s (match (s.mac m).pausedTill with
    | some t => if t ≤ s.nowNs then updMac m (fun x => { x with pausedTill := none }) s else s
    | none => s)

/-! ## Reception (R360, R361, R363, R364) -/

/-- MAC event body (Table 13-5). -/
def macEventBody (r : RxBuf) (f : List Byte) (flags : Nat) (stamp : List Byte) : List Byte :=
  le 8 r.cookie ++ le 8 r.buf ++ le 2 f.length ++ le 1 flags ++ zeroBytes 5 ++ stamp ++ fit 72 f

/-- RXFLAGS of a frame: UDP bits and VLAN, with the wake flags given. -/
def rxFlags (f : List Byte) (stamped woke cut : Bool) : Nat :=
  let u := match udpAt f with
    | some (v6, o) => 2 * flag (udpChecked f v6 o) + 4 * flag (udpChecked f v6 o && udpGood f v6 o)
    | none => 0
  flag stamped + u + 8 * flag (ethTagged f) + 16 * flag woke + 32 * flag cut

/-- A frame goes to the oldest posted buffer and its event joins the MAC's source. -/
def toPosted (m : Nat) (r : RxBuf) (f : List Byte) (flags : Nat) (stamp : List Byte) (s : State) : State :=
  let n := (s.mac m).rxSeq
  let s1 := updMac m (fun x => { x with posted := x.posted.drop 1, rxSeq := (n + 1) % 65536 }) (writeBuf r.thread r.buf f s)
  count (kMac m 2) (postEvent (5 + m) 0 (Word.of (0xFFFF + n * 65536)) rtagInternal (macEventBody r f flags stamp) s1)

/-- The kept wake frame is delivered once a posted buffer is free (R364). -/
def deliverKept (m : Nat) (s : State) : State :=
  match (s.mac m).kept, (s.mac m).posted with
  | some (f, n, stamp), r :: _ =>
    toPosted m r f (rxFlags f (!zeros stamp 0 16) true (decide (f.length < n))) stamp (updMac m (fun x => { x with kept := none }) s)
  | _, _ => s

/-- MAC_RXPOST: posts a receive buffer. -/
def engMacRxpost (t : Nat) (b : List Byte) (s : State) : EngOut :=
  let m := field b 0 1
  let n := field b 4 4
  if 1 < m ∨ !zeros b 1 3 ∨ n % 8 ≠ 0 ∨ n < s.maxlen m then .fail s stBadArg
  else if !s.bufOk t (field b 8 8) n then .fail s stAccessFault
  else if 256 ≤ (s.mac m).posted.length then .fail s stNoSpace
  else
    let r : RxBuf := { thread := t, buf := field b 8 8, len := n, cookie := field b 16 8 }
    .ok (deliverKept m (updMac m (fun x => { x with posted := x.posted ++ [r] }) s))

/-- MAC_RXPOST as an engine call. -/
def execMacRxpost (t : Fin 256) (pi : Fin 8) (rt ra : Fin 32) (s : State) : Result := .next (ecall t pi rt ra 0xA1 24 engMacRxpost s)

/-- The MAC takes frames for its own addresses (Table 13-4, row 2). -/
def MacCfg.takes (c : MacCfg) (f : List Byte) : Bool :=
  c.promisc || slice f 0 6 == c.addr || (slice f 0 6).all (· == 0xFF#8) || c.mcast.contains (slice f 0 6)

/-- A command datagram: UDP to IPV4 or IPV6 at CMDPORT; where its UDP header stands. -/
def MacCfg.command (c : MacCfg) (f : List Byte) : Option (Bool × Nat) :=
  match udpAt f with
  | some (v6, o) =>
    let own := if v6 then c.ipv6 else c.ipv4
    if c.cmdport ≠ 0 ∧ beField f (o + 2) 2 = c.cmdport ∧ !zeros own 0 16 ∧ ipDst f v6 = own then some (v6, o) else none
  | none => none

/-- A PAUSE or another MAC control frame. -/
def macControl (m : Nat) (c : MacCfg) (f : List Byte) (s : State) : State :=
  if beField f (ethTypeAt f + 2) 2 ≠ 1 then count (kMac m 13) s
  else
    let q := beField f (ethTypeAt f + 4) 2
    let s1 := count (kMac m 12) s
    if !c.rxpause then s1
    else updMac m (fun x => { x with
      pausedTill := if q = 0 then none else some (s.nowNs + quantaNs q x.rate), pausedAt := s.nowNs }) s1

/-- The sender of a UDP frame as one number: its Ethernet address, IP address and port, odd for IPv6 (log 53). -/
def udpSender (f : List Byte) (v6 : Bool) (o : Nat) : Nat :=
  2 * ofLe (slice f 6 6 ++ (ipPair f v6).take (if v6 then 16 else 4) ++ slice f o 2) + flag v6

/-- A frame whose FCS, length and address are good, by rows 3 to 5 of Table 13-4. -/
def classify (m : Nat) (c : MacCfg) (f : List Byte) (stamp : List Byte) (s : State) : State :=
  if ethType f = 0x8808 then macControl m c f s
  else match c.command f with
    | some (v6, o) =>
      if !udpGood f v6 o then count (kMac m 15) s
      else
        let s1 := count (kMac m 14) s
        if s.hostRuns then takeDatagram m (udpSender f v6 o) (slice f (o + 8) (beField f (o + 4) 2 - 8)) s1 else s1
    | none =>
      match (s.mac m).posted with
      | [] => count (kMac m 7) s
      | r :: _ => toPosted m r f (rxFlags f (!zeros stamp 0 16) false false) stamp s

/-- The stamp of a PTP event frame as it arrives, zero for another frame; a Pdelay_Req is remembered for its one-step answer (R338). -/
def stampRx (m : Nat) (f : List Byte) (s : State) : List Byte × State :=
  if !ptpEvent f then (zeroBytes 16, s)
  else
    let x := s.stampAt m f.length false
    let s1 := count (kMac m 16) s
    let s2 := match ptpAt f, ptpType f with
      | some (_, o), some 2 => updMac m (fun y => { y with pdelay := some (beField f (o + 30) 2, x) }) s1
      | _, _ => s1
    (stampBytes x s.tmu.valid false false, s2)

/-- A good frame at a MAC armed in VIGIL: the first match is kept and wakes the part; every other frame is dropped (R364). -/
def armedFrame (m : Nat) (c : MacCfg) (f : List Byte) (s : State) : State :=
  let hit := (s.mac m).pats.any fun p => patMatch p.2.1 p.2.2 f
  if hit && decide (f.length + 4 ≤ c.maxlen) && (s.mac m).kept.isNone then
    let (stamp, s1) := stampRx m f s
    count (kMac m 20) (latchWake (2 + m) (updMac m (fun x => { x with kept := some (f.take 2048, f.length, stamp) }) s1))
  else count (kMac m 21) s

/-- MAC_FRAME_RECEIVE: a frame without its FCS, whether the FCS was good, and the bytes the FIFO held when it came. -/
def execMacFrameReceive (m : Fin 2) (f : List Byte) (fcsOk : Bool) (fill : Fin 131073) (s : State) : Result :=
  .next (
    match (s.mac m).cfg with
    | none => s
    | some c =>
      let n := f.length + 4
      if !(s.mac m).cfgok then s
      else if s.macArmed m then (if fcsOk then armedFrame m c f s else count (kMac m 21) s)
      else if !s.coresRun ∨ !(s.mac m).link then s
      else if 131072 < fill.val + n then count (kMac m 8) s
      else
        let s1 := fifoLevel m (fill.val + n) s
        if !fcsOk then count (kMac m 4) s1
        else if n < 64 then count (kMac m 5) s1
        else if c.maxlen < n then count (kMac m 6) s1
        else
          let (stamp, s2) := stampRx m f (countN (kMac m 3) n s1)
          if !c.takes f then count (kMac m 9) s2 else classify m c f stamp (ptpHeard m f (s.stampAt m f.length false) s2))

end Sys2Proof.Machine
end

