-- ==== Sys2Proof/Machine/Bar0.lean ====
section
/-! DEFINITION. The register map of BAR0 as a read returns it: one function per block, by offset (R8, R9, R22 and each block's register table), and Sepia's bytes (R447, R448). -/

namespace Sys2Proof.Machine

/-- A low (`o % 8 = 0`) or high half of a number. -/
def half (hi : Bool) (n : Nat) : Nat := (if hi then n / 2 ^ 32 else n) % 2 ^ 32

/-- A half of a counter as last captured (R22). -/
def State.capHalf (s : State) (hi : Bool) (k : Nat) : Nat := half hi (s.cap.get 0 k).toNat

/-- A 32-bit two's complement value, saturating. -/
def satSigned (x : Int) : Nat := unsigned 32 (max (-(2 ^ 31)) (min x (2 ^ 31 - 1)))

/-! ## Sepia's bytes (R447, R448) -/

/-- A Sepia record as its slots hold it (Table 17-4). -/
def SepRec.bytes (r : SepRec) : List Byte :=
  let x := fit (64 * r.n - 4) (le 2 r.typ ++ le 2 r.body.length ++ le 4 r.opmin.toNat ++ le 4 r.pcycle.toNat ++ le 4 r.sseq.toNat
    ++ le 8 r.tai ++ r.body)
  x ++ le 4 (crc32c x)

/-- A counter copy (Table 17-3). -/
def CtrCopy.bytes (c : CtrCopy) : List Byte :=
  let x := le 4 c.opmin.toNat ++ le 4 c.pcycle.toNat ++ le 4 c.cseq.toNat
  x ++ le 4 (crc32c x)

/-- The 4 KiB header. -/
def State.sepHeader (s : State) : List Byte :=
  let x := le 4 0x41495053 ++ le 4 1 ++ le 8 s.serial ++ s.sepia.copies.1.bytes ++ s.sepia.copies.2.bytes
  fit 4092 x ++ le 4 (crc32c x)

/-- A 64-byte slot of an area of `size` slots; one that no record fills reads as zeros (log 73). -/
def sepSlot (rs : List SepRec) (size i : Nat) : List Byte :=
  match firstWhere (fun r => decide ((i + size - r.slot) % size < r.n)) rs with
  | some r => slice r.bytes (64 * ((i + size - r.slot) % size)) 64
  | none => zeroBytes 64

/-- `n` bytes of Sepia from eMRAM offset `off`, within one slot or the header. -/
def State.sepBytes (s : State) (off n : Nat) : List Byte :=
  if off < 0x1000 then slice s.sepHeader off n
  else if off < 0x40000 then slice (sepSlot s.sepia.pinned 4032 ((off - 0x1000) / 64)) ((off - 0x1000) % 64) n
  else if off < 0xE0000 then slice (sepSlot s.sepia.ring 10240 ((off - 0x40000) / 64)) (off % 64) n
  else zeroBytes n

/-! ## The blocks -/

/-- GLB (Table 1-7). -/
def State.regGlb (s : State) (o : Nat) : Nat :=
  let l := s.glb.fabSel.toNat
  let lk := s.glb.links.get {} l
  match o with
  | 0x000 => glbIdent
  | 0x008 => s.glbMode
  | 0x010 => s.nqDepth + 0x10000 * flag s.glb.nqOvf
  | 0x020 => l
  | 0x028 => if l < 76 then s.capHalf false (kFab l) else 0
  | 0x02C => if l < 76 then s.capHalf true (kFab l) else 0
  | 0x030 => if 76 ≤ l then 0 else match lk.st with | .up => 0 | .retrying => 1 | .failed => 2
  | 0x044 => s.glb.snapSeq.toNat
  | 0x050 => s.glb.spareBank + 256 * flag (s.glb.spareBank != 0x7F)
  | 0x058 => s.capHalf false kSramCe
  | 0x05C => s.capHalf true kSramCe
  | 0x060 => s.capHalf false kSramUe
  | 0x064 => s.capHalf true kSramUe
  | _ => 0

/-- CPM (Tables 15-10 and 18-19). -/
def State.regCpm (s : State) (o : Nat) : Nat :=
  let c := s.cpm
  match o with
  | 0x000 => c.lastRst * 256 + 128 * flag c.ochreWarm + 64 * flag c.slowFail + 32 * flag c.vreq + 16 * flag c.pfail + 8 * flag c.pgood
      + 4 * flag c.pwrenNand + 2 * flag c.pwrenCore
  | 0x004 => c.vidTarget.toNat * 256 + c.vidCode.toNat
  | 0x008 => c.opmin.toNat
  | 0x00C => c.pcycle.toNat
  | 0x010 => 256 * flag c.replay + c.wakeSrc
  | 0x014 => c.vspan.toNat
  | 0x018 => c.holdup.toNat
  | 0x01C => c.vrefuse
  | 0x030 => c.cntSel.toNat
  | 0x034 => if c.cntSel.toNat < 10 then s.capHalf false (kCpm c.cntSel.toNat) else 0
  | 0x038 => if c.cntSel.toNat < 10 then s.capHalf true (kCpm c.cntSel.toNat) else 0
  | 0x040 => ((c.gpioIn &&& ~~~s.gpioDrive.2) ||| (s.gpioDrive.1 &&& s.gpioDrive.2)).toNat + 2 ^ 31 * flag c.strap
  | 0x044 => c.gpioOut.toNat
  | 0x048 => c.gpioOe.toNat
  | 0x050 => 2 ^ 31 * flag c.tempTrip + 65536 * c.tempMax.toNat + c.tempNow.toNat
  | _ => 0

/-- HP (Table 10-14), the MSI-X table and its pending bits. -/
def State.regHp (s : State) (o : Nat) : Nat :=
  let h := s.hp
  let q := s.queue h.qSel.toNat
  if 0x4000 ≤ o ∧ o < 0x4120 then ofLe (readBytes h.msix (o - 0x4000) 4)
  else match o with
  | 0x000 => s.openSessions * 256 + 64 * flag h.dlup + 8 * h.width + h.speed
  | 0x008 => h.qSel.toNat
  | 0x010 => half false q.sqBase.toNat
  | 0x014 => half true q.sqBase.toNat
  | 0x018 => half false q.cqBase.toNat
  | 0x01C => half true q.cqBase.toNat
  | 0x020 => q.ctl.toNat
  | 0x024 => q.err * 2 ^ 28 + 2 ^ 27 * flag (s.draining h.qSel.toNat) + q.sqHead * 2 ^ 16 + s.inflight h.qSel.toNat * 256 + q.cqTail
  | 0x030 => half false h.nq.base.toNat
  | 0x034 => half true h.nq.base.toNat
  | 0x038 => h.nq.ctl.toNat
  | 0x03C => h.nq.err * 2 ^ 30 + (h.nq.waiting.filter (·.held)).length * 2 ^ 16 + h.nq.tail
  | 0x040 => h.cntSel.toNat
  | 0x044 => if h.cntSel.toNat < 20 then s.capHalf false (kHp h.cntSel.toNat) else 0
  | 0x048 => if h.cntSel.toNat < 20 then s.capHalf true (kHp h.cntSel.toNat) else 0
  | 0x4800 => h.pba.toNat
  | _ => 0

/-- RLA (Table 3-12). -/
def State.regRla (s : State) (o : Nat) : Nat :=
  let lane := s.rla.laneSel.toNat
  let x := s.rport (lane / 64)
  let d := s.rla.dutySel.toNat
  let dp := s.rport (d / 16)
  let g := if bitAt d 3 then 8 else d % 8
  let stat := fun (p : RPort) => p.bmiss * 2 ^ 12 + 32 * flag (p.desc.enable && p.desc.duplex) + 16 * flag p.txfault + 8 * flag p.txstop + 4 * flag p.bloss
    + 2 * flag p.txlink + flag p.rxlink
  if o < 0x10 then (if o % 4 = 0 then stat (s.rport (o / 4)) else 0)
  else if 0x20 ≤ o ∧ o < 0x88 then (if o % 4 = 0 then s.capHalf (o % 8 == 4) (kRla lane ((o - 0x20) / 8)) else 0)
  else match o with
  | 0x010 => lane
  | 0x014 => if x.desc.enable then (x.desc.depth - 1) * 16 + s.laneRole lane else 0
  | 0x090 => s.capHalf false (kRlaPort (lane / 64) 0)
  | 0x094 => s.capHalf true (kRlaPort (lane / 64) 0)
  | 0x098 => s.capHalf false (kRlaPort (lane / 64) 1)
  | 0x09C => s.capHalf true (kRlaPort (lane / 64) 1)
  | 0x0A0 => d
  | 0x0A4 => if dp.desc.enable then dp.dutyUsed g s.nowNs / 1000000 else 0
  | 0x0A8 => if !dp.desc.enable then 0 else (dp.desc.limitNs (dp.desc.units g) - dp.desc.reserve g) / 1000000
  | _ => 0

/-- LM (Table 4-20). -/
def State.regLm (s : State) (o : Nat) : Nat :=
  let p := s.lm.portSel.toNat
  let x := s.lport p
  let stat := fun (y : LPort) => 64 * flag y.calReqAt.isSome + 32 * flag y.calAt.isSome + 16 * flag y.txstop + 8 * flag y.afef
    + 2 * flag y.txlink + flag y.rxlink
  if o < 0x10 then (if o % 4 = 0 then stat (s.lport (o / 4)) else 0)
  else if 0x20 ≤ o ∧ o < 0xA8 then (if o % 4 = 0 then s.capHalf (o % 8 == 4) (kLm p ((o - 0x20) / 8)) else 0)
  else match o with
  | 0x010 => p
  | 0x014 => (if x.desc.enable then nAct x.desc.mask * 256 else 0) + x.rxmaps.length
  | 0x0B0 => x.calDefer.toNat
  | _ => 0

/-- ING (Table 5-10). Before the directory is loaded no slot and no credit can be claimed: ING_CREDITS reads its reset value (log 98). -/
def State.regIng (s : State) (o : Nat) : Nat :=
  let g := s.ing
  let src := g.srcSel.toNat
  let code := kIngCode src g.codeSel.toNat
  let pl := kIngPl (g.plSel.toNat / 16) (g.plSel.toNat % 8)
  match o with
  | 0x000 => 8 * flag (s.stageFree == 0) + 4 * flag (decide (s.stageFree < 256 ∨ s.credits < 256)) + 2 * flag g.restore + flag g.dirload
  | 0x004 => (g.dir.filter fun e => decide (e.2.st ≠ .free)).length
  | 0x008 => if g.dirload then s.stageFree * 65536 % 2 ^ 32 + min s.credits 0xFFFF else 0
  | 0x010 => src
  | 0x014 => g.codeSel.toNat
  | 0x018 => if src < 260 then s.capHalf false code else 0
  | 0x01C => if src < 260 then s.capHalf true code else 0
  | 0x020 => g.plSel.toNat
  | 0x024 => s.capHalf false pl
  | 0x028 => s.capHalf true pl
  | 0x030 => s.capHalf false kSuspectUnposted
  | 0x034 => s.capHalf true kSuspectUnposted
  | 0x040 => 2 ^ 31 * flag g.strangerOvf + (g.strangers.filter (·.unread)).length
  | 0x048 => s.capHalf false kMoves
  | 0x04C => s.capHalf true kMoves
  | 0x050 => g.cmdSlots.length
  | 0x058 => s.capHalf false kCmdEmpty
  | 0x05C => s.capHalf true kCmdEmpty
  | _ => 0

/-- LDG (Table 6-12). -/
def State.regLdg (s : State) (o : Nat) : Nat :=
  let l := s.ldg
  let b := l.dur.blog.head?
  let bs := match b with | some x => x.bseq | none => 0
  let bt := match b with | some x => x.t | none => 0
  match o with
  | 0x000 => 8 * flag l.protect + 4 * flag l.sweeping + 2 * flag l.replay + flag (s.inStepSpan)
  | 0x008 => half false bs
  | 0x00C => half true bs
  | 0x010 => half false bt
  | 0x014 => half true bt
  | 0x018 => l.sweepNext
  | 0x020 => min l.unseals 0xFFFFFF * 256 + 2 * flag l.sealed + flag l.pin
  | 0x024 => l.protArea.length
  | 0x028 => half false l.stepFrom
  | 0x02C => half true l.stepFrom
  | 0x030 => l.cntSel.toNat
  | 0x034 => if l.cntSel.toNat < 13 then s.capHalf false (kLdg l.cntSel.toNat) else 0
  | 0x038 => if l.cntSel.toNat < 13 then s.capHalf true (kLdg l.cntSel.toNat) else 0
  | 0x040 => half false l.stepTo
  | 0x044 => half true l.stepTo
  | _ => 0

/-- BAL (Table 7-9). -/
def State.regBal (s : State) (o : Nat) : Nat :=
  let b := s.bal
  let alarms := fun (a : Nat) => (b.nodes.filter fun e => e.2.alarm == a).length
  match o with
  | 0x000 => 8 * flag b.hold + 4 * flag (b.nodes.any fun e => cfgValid e.2.cfg && cfgShared e.2.cfg) + 2 * flag (s.dueClose.isSome || b.judging) + flag b.cfg.isSome
  | 0x004 => match b.cfg with | some (bint, st, cov) => cov * 2 ^ 18 + st * 256 + bint | none => 0
  | 0x008 => (b.nodes.filter fun e => cfgValid e.2.cfg).length
  | 0x00C => alarms 2 * 65536 + alarms 1
  | 0x010 => half false b.lastClose
  | 0x014 => half true b.lastClose
  | 0x020 => b.cntSel.toNat
  | 0x024 => if b.cntSel.toNat < 14 then s.capHalf false (kBal b.cntSel.toNat) else 0
  | 0x028 => if b.cntSel.toNat < 14 then s.capHalf true (kBal b.cntSel.toNat) else 0
  | 0x030 => b.holdMax.toNat
  | _ => 0

/-- LKS (Table 8-17). An absent LUN reads 0, as LKS_LUN_SEL says (log 74). -/
def State.regLks (s : State) (o : Nat) : Nat :=
  let l := s.lake
  let g := l.geom
  let lun := l.lunSel.toNat
  match o with
  | 0x000 => 128 * flag (!l.lunFailed.isEmpty) + 64 * flag l.landFull + 32 * flag l.volFull + 16 * flag l.logFull + 8 * flag l.protect
      + 4 * flag l.rebuild + 2 * flag l.gcAct + flag l.ready
  | 0x004 => if !l.inited then 0 else
      g.dg % 32 * 2 ^ 27 + g.tmode * 2 ^ 20 + (if g.planes = 4 then 2 else if g.planes = 2 then 1 else 0) * 2 ^ 18 + (g.bpc - 1) * 2 ^ 16 + g.lunch
  | 0x008 => l.totalBlocks
  | 0x00C => l.freeBlocks
  | 0x010 => l.pool * 65536 + l.poolTotal
  | 0x014 => min (l.lifeUsed true s.pePslc / 100) 255 * 256 + min (l.lifeUsed false s.peNative / 100) 255
  | 0x018 => l.lsnHead
  | 0x01C => l.lsnTail
  | 0x020 => l.heack
  | 0x030 => l.cntSel.toNat
  | 0x034 => if l.cntSel.toNat < 24 then s.capHalf false (kLks l.cntSel.toNat) else 0
  | 0x038 => if l.cntSel.toNat < 24 then s.capHalf true (kLks l.cntSel.toNat) else 0
  | 0x040 => lun
  | 0x044 => if l.luns ≤ lun then 0 else
      (if l.lunFailed.get false lun then 2 ^ 31 else 0) + (l.blocks.filter fun e => e.1 / 4096 == lun && e.2.st == 7).length
  | 0x050 => min l.rebuildMs 0xFFFF
  | _ => 0

/-- STATE of a keyslot. -/
def KeySt.code : KeySt → Nat
  | .empty => 0 | .active => 1 | .orphaned => 2

/-- WKV (Table 11-15). -/
def State.regWkv (s : State) (o : Nat) : Nat :=
  let w := s.woad
  let k := s.keySlot w.slotSel.toNat
  let b := w.bcast
  match o with
  | 0x000 => 512 * flag (!w.pending.isEmpty) + 256 * flag w.debugSub + 64 * w.owner + w.life.code
  | 0x004 => b.cur * 2 ^ 24 + (match b.next with | some n => n.e * 2 ^ 16 + 2 ^ 15 | none => 0) + 2 ^ 14 * flag b.valid + b.slot
  | 0x008 => s.pendingSessions * 256 + s.openSessions
  | 0x010 => w.slotSel.toNat
  | 0x014 => k.st.code * 2 ^ 29 + k.typ * 2 ^ 26 + (if k.st = .empty then 0 else k.depth) * 2 ^ 24 + k.epmax * 256 + k.epmin
  | 0x018 => k.keyid.toNat
  | 0x01C => match k.parent with | some p => 64 + p | none => 0
  | 0x020 => 2 ^ 31 * flag w.otpBusy + 2 ^ 30 * flag w.otpFail + s.otpField 0x450 1 * 16 + s.otpField 0x280 1 % 16
  | 0x030 => w.cntSel.toNat
  | 0x034 => if w.cntSel.toNat < 16 then s.capHalf false (kWkv w.cntSel.toNat) else 0
  | 0x038 => if w.cntSel.toNat < 16 then s.capHalf true (kWkv w.cntSel.toNat) else 0
  | 0x040 => w.scrubMax.toNat
  | _ => 0

/-- TMU (Table 12-13); before a first sample TMU_HOLD reads 0 (log 75). -/
def State.regTmu (s : State) (o : Nat) : Nat :=
  let t := s.tmu
  match o with
  | 0x000 => 2 ^ 15 * flag t.stepReq.isSome + 2 ^ 14 * flag t.clkFault + 256 * t.invCause + 16 * t.source + 4 * flag t.valid + t.st.code
  | 0x008 => half false t.sec.toNat
  | 0x00C => t.latS.toNat
  | 0x010 => t.latNs.toNat
  | 0x014 => satSigned t.offset
  | 0x018 => satSigned (t.adj * 1000000000000 / 938249922368853)
  | 0x01C => match t.lastSample with | some x => sat32 ((s.nowNs - x) / 1000000000) | none => 0
  | 0x020 => (t.rows.filter fun r => r.2.action != 0).length
  | 0x024 => s.pulseOut.toNat
  | 0x030 => t.cntSel.toNat
  | 0x034 => if t.cntSel.toNat < 12 then s.capHalf false (kTmu t.cntSel.toNat) else 0
  | 0x038 => if t.cntSel.toNat < 12 then s.capHalf true (kTmu t.cntSel.toNat) else 0
  | _ => 0

/-- A MAC (Table 13-7). -/
def State.regMac (s : State) (m o : Nat) : Nat :=
  let x := s.mac m
  let addr := match x.cfg with | some c => ofLe c.addr | none => 0
  match o with
  | 0x000 => 1024 * flag x.armed + 512 * flag x.pausedTill.isSome + 256 * flag x.xoff + 16 * flag x.cfgok + 4 * x.rate + 2 * flag x.blockLock
      + flag x.link
  | 0x004 => x.peak * 65536 + x.fill
  | 0x008 => x.txq.length * 65536 + x.posted.length
  | 0x010 => half false addr
  | 0x014 => half true addr
  | 0x030 => x.cntSel.toNat
  | 0x034 => if x.cntSel.toNat < 24 then s.capHalf false (kMac m x.cntSel.toNat) else 0
  | 0x038 => if x.cntSel.toNat < 24 then s.capHalf true (kMac m x.cntSel.toNat) else 0
  | _ => 0

/-- CAS (Table 14-14). -/
def State.regCas (s : State) (o : Nat) : Nat :=
  let c := s.cas
  let sel := c.cntSel.toNat
  let k := if sel < 8 then kCasPort c.portSel.toNat sel else kCas sel
  let port := fun (n : Nat) => let p := s.cport n; 16384 * flag p.peerStby + 256 * p.peerId + 16 * p.role + p.st
  let up := match firstWhere (fun (x : Nat × CPort) => x.2.role == 1) c.ports with | some x => x.2.delays | none => []
  let delay := match up with | [] => 0 | l => l.foldl (· + ·) 0 / l.length
  match o with
  | 0x000 => 2 ^ 31 * flag c.master + 2 ^ 30 * flag c.detached + c.depth * 2 ^ 24 + c.chips * 2 ^ 16 + c.sdepth * 2 ^ 11 + c.chipId
  | 0x004 => port 0
  | 0x008 => port 1
  | 0x00C => port 2
  | 0x010 => port 3
  | 0x020 => s.livePaths * 65536 + s.bestMiss * 256 + 16 * flag c.primary + c.pair
  | 0x024 => c.phase * 256 + c.pct
  | 0x028 => c.gap.toNat
  | 0x02C => min delay 0xFFFF
  | 0x030 => c.portSel.toNat * 32 + sel
  | 0x034 => s.capHalf false k
  | 0x038 => s.capHalf true k
  | 0x040 => c.snapNo.toNat
  | 0x044 => c.snapLsn.toNat
  | 0x048 => half false c.snapBseq.toNat
  | 0x04C => half true c.snapBseq.toNat
  | _ => 0

/-- The STATE code of a thread. -/
def TState.code : TState → Nat
  | .idle => 0 | .run => 1 | .wait => 2 | .stall _ => 3 | .halted => 4

/-- MCC (Table 9-22). -/
def State.regMcc (s : State) (o : Nat) : Nat :=
  let m := s.mcc
  let t := m.thrSel.toNat
  let th := s.thr t
  let c := m.cntSel.toNat % 16
  let cnt := if 12 ≤ c then 0 else if bitAt m.cntSel.toNat 4 then
      (List.range 256).foldl (fun n t => n + (s.cap.get 0 (kMcc t c)).toNat) 0 % 2 ^ 64
    else (s.cap.get 0 (kMcc t c)).toNat
  match o with
  | 0x000 => m.legal * 65536 + (m.threads.filter fun e => decide (e.2.st ≠ .idle ∧ e.2.st ≠ .halted)).length
  | 0x004 => (m.threads.filter fun e => decide (e.2.st = .halted)).length
  | 0x010 => t
  | 0x014 => ((List.range 16).filter th.outstanding).length * 65536 + 128 * flag th.exc + 32 * th.base.code + 8 * th.level.code + th.st.code
  | 0x018 => th.pc.toNat % 65536
  | 0x01C => th.faultLevel.code * 16 + th.faultCode
  | 0x020 => half false th.faultEval.toNat
  | 0x024 => half true th.faultEval.toNat
  | 0x030 => m.cntSel.toNat
  | 0x034 => half false cnt
  | 0x038 => half true cnt
  | _ => 0

/-- The next ESEQ that a reader can find: the oldest readable record, or the next one where there is none. -/
def State.oldestEseq (s : State) : Nat := match s.evr.readable.head? with | some e => e.eseq.toNat | none => s.evr.eseq.toNat

/-- REC (Table 17-10), with its Sepia window. -/
def State.regRec (s : State) (o : Nat) : Nat :=
  let r := s.evr
  let x := s.stest
  if 0x1000 ≤ o ∧ o < 0x2000 then ofLe (s.sepBytes (x.spPage.toNat * 4096 + (o - 0x1000)) 4)
  else match o with
  | 0x000 => 8 * flag (decide (s.sepia.pinnedFree < 4)) + 4 * flag r.wrapped + 2 * flag (!r.staged.isEmpty) + flag s.lake.ready
  | 0x008 => half false r.eseq.toNat
  | 0x00C => half true r.eseq.toNat
  | 0x010 => half false s.oldestEseq
  | 0x014 => half true s.oldestEseq
  | 0x018 => s.sepia.pinnedUsed * 65536 + s.sepia.ringSlot
  | 0x01C => s.sepia.sseq.toNat
  | 0x020 => 2 ^ 31 * flag x.fullNext + 1024 * flag x.halt + 512 * flag x.scope + 256 * flag x.result + 128 * flag x.running + x.bank
  | 0x024 => x.failed.toNat
  | 0x030 => x.cntSel.toNat
  | 0x034 => if x.cntSel.toNat < 12 then s.capHalf false (kRec x.cntSel.toNat) else 0
  | 0x038 => if x.cntSel.toNat < 12 then s.capHalf true (kRec x.cntSel.toNat) else 0
  | 0x040 => x.spPage.toNat
  | _ => 0

/-- UPD (Table 16-10); the recovery registers read 0 outside recovery. -/
def State.regUpd (s : State) (o : Nat) : Nat :=
  let u := s.upd
  if 0x1000 ≤ o ∧ o < 0x2000 then (if u.recovery then ofLe (readBytes u.rwin (o - 0x1000) 4) else 0)
  else match o with
  | 0x000 => 8192 * flag u.recovery + 4096 * flag u.lock + 1024 * u.tries + 512 * u.active + 256 * flag u.gen + 16 * u.stB + u.stA
  | 0x004 => (u.units.filter fun e => e.1 / 16384 == u.spare).length
  | 0x008 => u.imglen
  | 0x00C => s.secFloor
  | 0x010 => half false u.actT
  | 0x014 => half true u.actT
  | 0x018 => u.confirmBy
  | 0x020 => u.lastRef
  | 0x024 => u.camps.length
  | 0x030 => u.cntSel.toNat
  | 0x034 => if u.cntSel.toNat < 12 then s.capHalf false (kUpd u.cntSel.toNat) else 0
  | 0x038 => if u.cntSel.toNat < 12 then s.capHalf true (kUpd u.cntSel.toNat) else 0
  | 0x044 => if u.recovery then u.rcrc.toNat else 0
  | 0x048 => if u.recovery then u.rstat.toNat else 0
  | _ => 0

/-- DEBUG_LOCK has a bit set. -/
def State.debugLock (s : State) : Bool := s.otpField 0x284 4 != 0

/-- DBG_STAT (R460). -/
def State.dbgStat (s : State) : Nat := 4 * flag s.stest.tapUsed + 2 * flag s.debugLock + flag s.woad.debugSub

/-- The register at an aligned BAR0 offset (Table 1-6); reserved offsets read 0 (R9), and so do offsets that are no multiple of 4 (DESIGN CHOICE, log 100). -/
def State.readReg (s : State) (a : Nat) : Nat :=
  if a % 4 ≠ 0 then 0
  else if a < 0x4000 then s.regGlb a
  else if a < 0x8000 then s.regCpm (a - 0x4000)
  else if a < 0x10000 then s.regHp (a - 0x8000)
  else if a < 0x18000 then s.regRla (a - 0x10000)
  else if a < 0x20000 then s.regLm (a - 0x18000)
  else if a < 0x28000 then s.regIng (a - 0x20000)
  else if a < 0x2C000 then s.regLdg (a - 0x28000)
  else if a < 0x30000 then s.regBal (a - 0x2C000)
  else if a < 0x38000 then s.regLks (a - 0x30000)
  else if a < 0x3C000 then s.regWkv (a - 0x38000)
  else if a < 0x40000 then s.regTmu (a - 0x3C000)
  else if a < 0x44000 then s.regMac 0 (a - 0x40000)
  else if a < 0x48000 then s.regMac 1 (a - 0x44000)
  else if a < 0x50000 then s.regCas (a - 0x48000)
  else if a < 0x58000 then s.regMcc (a - 0x50000)
  else if a < 0x5C000 then s.regRec (a - 0x58000)
  else if a < 0x60000 then s.regUpd (a - 0x5C000)
  else if a = 0x60000 then s.dbgStat
  else 0

end Sys2Proof.Machine
end

