-- ==== Sys2Proof/Machine/ImageFmt.lean ====
section
/-! DEFINITION. The image format, its verification and its loading (R278 to R280, R253, R424). -/

namespace Sys2Proof.Machine

/-! ## Statuses of Table 16-4 -/

def upHoldup : Nat := 0x101
def upLock : Nat := 0x102
def upSwitching : Nat := 0x103
def upNotMaster : Nat := 0x104
def upNoBegin : Nat := 0x105
def upRange : Nat := 0x106
def upLegalSealed : Nat := 0x107
def upBlockCrc : Nat := 0x108
def upMismatch : Nat := 0x109
def upIncomplete : Nat := 0x10A
def upHeader : Nat := 0x10B
def upKeyUnknown : Nat := 0x10C
def upSigFail : Nat := 0x10D
def upSecverLow : Nat := 0x10E
def upSlotState : Nat := 0x10F
def upPeer : Nat := 0x110
def upTimeInvalid : Nat := 0x111
def upTooSoon : Nat := 0x112
def upMedia : Nat := 0x113
def upDebug : Nat := 0x114
def upCampExists : Nat := 0x115
def upCampFull : Nat := 0x116
def upCampNotFound : Nat := 0x117
def upCampCrc : Nat := 0x118

/-! ## Header, segments, entries (Table 9-19, R279) -/

/-- Fields of an image's header. -/
def imgLen (b : List Byte) : Nat := field b 8 4
def imgNseg (b : List Byte) : Nat := field b 13 1
def imgNentry (b : List Byte) : Nat := field b 14 2
def imgSecver (b : List Byte) : Nat := field b 16 4
def imgBuild (b : List Byte) : List Byte := slice b 24 16
def imgSegOff (b : List Byte) : Nat := field b 40 4
def imgEntOff (b : List Byte) : Nat := field b 44 4
def imgLegOff (b : List Byte) : Nat := field b 48 4
def imgLegLen (b : List Byte) : Nat := field b 52 4
def imgSigOff (b : List Byte) : Nat := field b 56 4
def imgLegDig (b : List Byte) : List Byte := slice b 60 48

/-- MAGIC, FORMAT, HDRLEN and CHECK: what BEGIN tests (R422). -/
def beginOk (b : List Byte) : Bool :=
  field b 0 4 == 0x495A4B41 && field b 4 2 == 1 && field b 6 2 == 256 && field b 252 4 == crc32c (b.take 252)

/-- The header's fields are in range and its reserved bytes zero (R278). -/
def headerOk (b : List Byte) : Bool :=
  beginOk b && imgLen b == imgSigOff b + 112 && decide (field b 12 1 ≤ 1) && decide (1 ≤ imgNseg b ∧ imgNseg b ≤ 32)
    && decide (1 ≤ imgNentry b ∧ imgNentry b ≤ 256) && zeros b 20 4 && zeros b 108 144 && imgSigOff b % 8 == 0
    && decide (256 + 96 ≤ imgSigOff b)

/-- A segment entry. -/
structure Seg where
  typ : Nat
  dest : Nat
  foff : Nat
  len : Nat
  cores : Nat

/-- Segment `i` of an image. -/
def imgSeg (b : List Byte) (i : Nat) : Seg :=
  let o := imgSegOff b + 24 * i
  { typ := field b o 1, dest := field b (o + 4) 4, foff := field b (o + 8) 4, len := field b (o + 12) 4, cores := field b (o + 16) 8 }

/-- The segments of an image. -/
def imgSegs (b : List Byte) : List Seg := (List.range (imgNseg b)).map (imgSeg b)

/-- The memory of a segment: 0 IMEM, 1 DMEM, 2 shared. -/
def Seg.mem (g : Seg) : Nat := if g.typ = 1 then 0 else if g.typ ≤ 3 then 1 else 2

/-- The segment carries data from the image. -/
def Seg.data (g : Seg) : Bool := g.typ == 1 || g.typ == 2 || g.typ == 4

/-- A segment's own rules; `top`: the first byte its data may not reach (R279, R424). -/
def Seg.ok (g : Seg) (top : Nat) : Bool :=
  decide (1 ≤ g.typ ∧ g.typ ≤ 5) && g.dest % 8 == 0
    && decide (g.dest + g.len ≤ (if g.typ = 1 then 0xE000 else if g.typ ≤ 3 then 0xF000 else 0x180000))
    && (!g.data || decide (g.foff + g.len ≤ top))

/-- Two segments of one memory meet on a common core. -/
def Seg.clash (a b : Seg) : Bool :=
  a.mem == b.mem && (a.mem == 2 || (a.cores &&& b.cores) != 0) && decide (a.dest < b.dest + b.len ∧ b.dest < a.dest + a.len)

/-- No two of a list clash. -/
def noClash : List Seg → Bool
  | [] => true
  | g :: l => l.all (fun h => !g.clash h) && noClash l

/-- Entry row `i` of an image. -/
def imgEntry (b : List Byte) (i : Nat) : Entry :=
  let o := imgEntOff b + 8 * i
  { eno := field b o 2, addr := field b (o + 2) 2, level := Level.ofCode (field b (o + 4) 1), src := field b (o + 5) 1 }

/-- The entry rows of an image. -/
def imgEntries (b : List Byte) : List Entry := (List.range (imgNentry b)).map (imgEntry b)

/-- An entry row's own rules. -/
def entryOk (b : List Byte) (i : Nat) : Bool :=
  let o := imgEntOff b + 8 * i
  field b (o + 2) 2 % 4 == 0 && decide (field b (o + 2) 2 < 0xE000) && (field b (o + 4) 1 == 2 || field b (o + 4) 1 == 3) && zeros b (o + 6) 2

/-- No ENO stands twice. -/
def enosDiffer : List Nat → Bool
  | [] => true
  | n :: l => !l.contains n && enosDiffer l

/-! ## The legal component (R280, R253) -/

/-- The legal component of an image; empty for none. -/
def imgLegal (b : List Byte) : List Byte := if imgLegOff b = 0 ∧ imgLegLen b = 0 then [] else slice b (imgLegOff b) (imgLegLen b)

/-- A gate's word: VALID in bit 31, an offset in bits 12 to 0, from 0x100 and word-aligned. -/
def gateOk (w : Nat) : Bool := !bitAt w 31 || (decide (0x100 ≤ w % 8192) && w % 4 == 0)

/-- The legal component's rules, the digest of the header among them; an absent one has zero fields. -/
def legalOk (b : List Byte) (top : Nat) : Bool :=
  let l := imgLegal b
  if l.isEmpty then decide (imgLegOff b = 0 ∧ imgLegLen b = 0) && zeros b 60 48
  else
    let n := field l 6 2
    let c := field l 8 4
    decide (64 ≤ imgLegLen b) && decide (imgLegOff b + imgLegLen b ≤ top) && field l 0 4 == 0x4C5A4B41 && field l 4 2 == 1 && decide (n ≤ 64) && decide (c ≤ 8192)
      && imgLegLen b == 64 + c && zeros l 12 52 && (List.range n).all (fun g => gateOk (field l (64 + 4 * g) 4)) && sha384 l == imgLegDig b

/-- Check 2 of R424: header, segment, entry and legal-component rules, and nothing over the public key before SIGOFF. -/
def imageRules (b : List Byte) : Bool :=
  let top := imgSigOff b - 96
  headerOk b && decide (imgSegOff b + 24 * imgNseg b ≤ top) && decide (imgEntOff b + 8 * imgNentry b ≤ top)
    && (List.range (imgNseg b)).all (fun i => (imgSeg b i).ok top && zeros b (imgSegOff b + 24 * i + 1) 3) && noClash (imgSegs b)
    && (List.range (imgNentry b)).all (entryOk b) && ((imgEntries b).map (·.eno)).contains 0 && enosDiffer ((imgEntries b).map (·.eno))
    && legalOk b top && field b (imgSigOff b) 2 == 1 && zeros b (imgSigOff b + 2) 2 && zeros b (imgSigOff b + 104) 8

/-! ## Keys and signature (R424 checks 3 to 5) -/

/-- Image key slot `k` of OTP: KEYID, four reserved bytes, SHA-384 of the public key. -/
def State.imgKey (s : State) (k : Nat) : List Byte := s.otpBytes (0x290 + 56 * k) 56

/-- An unrevoked IMGKEY slot holds this KEYID and the digest of this public key. -/
def State.imgKeyKnown (s : State) (id : Nat) (pub : List Byte) : Bool :=
  (List.range 8).any fun k =>
    !zeros (s.imgKey k) 0 56 && !bitAt (s.otpField 0x450 4) k && field (s.imgKey k) 0 4 == id && slice (s.imgKey k) 8 48 == sha384 pub

/-- Checks 2 to 5 of R424 in order: the first that fails. -/
def imageCheck (b : List Byte) (s : State) : Option Nat :=
  let so := imgSigOff b
  let pub := slice b (so - 96) 96
  if !imageRules b then some upHeader
  else if !s.imgKeyKnown (field b (so + 4) 4) pub then some upKeyUnknown
  else if !ecdsaVerify pub (sha384 (b.take so)) (slice b (so + 8) 96) then some upSigFail
  else if imgSecver b < s.secFloor ∨ 256 < imgSecver b then some upSecverLow
  else none

/-- The legal-slot digest of the seal record in force (R187). -/
def State.sealDigest (s : State) : List Byte :=
  match firstWhere (fun (r : SepRec) => r.typ == 3) s.sepia.pinned with
  | some r => r.body.take 48
  | none => zeroBytes 48

/-- The legal component passes Mordant: the part is not sealed, or the digests agree (R253, R424 check 6). -/
def State.legalAdmitted (s : State) (b : List Byte) : Bool :=
  !s.ldg.sealed || (!(imgLegal b).isEmpty && imgLegDig b == s.sealDigest)

/-! ## Loading (R279, R280, R253) -/

/-- The image with its legal component left out where Mordant does not admit it; MCC_STAT.LEGAL. -/
def State.legalCode (s : State) (b : List Byte) : Nat := if (imgLegal b).isEmpty then 0 else if s.legalAdmitted b then 1 else 2

/-- A segment's bytes at every core of its mask. -/
def putSeg (b : List Byte) (g : Seg) (m : Mcc) : Mcc :=
  let d := slice b g.foff g.len
  let each := fun (x : Map Byte) => ((List.range 64).filter fun c => bitAt g.cores c).foldl (fun x c => writeBytes x (c * 0x10000 + g.dest) d) x
  match g.typ with
  | 1 => { m with imem := each m.imem }
  | 2 => { m with dmem := each m.dmem }
  | 4 => { m with shared := writeBytes m.shared g.dest d }
  | _ => m

/-- Legal code at 0xE000 of every core. -/
def putLegal (l : List Byte) (m : Mcc) : Mcc :=
  { m with imem := (List.range 64).foldl (fun x c => writeBytes x (c * 0x10000 + 0xE000) (l.drop 64)) m.imem }

/-- Loads an image: memories from its segments, zeros elsewhere, the entry table, the legal component; entry 0 starts on thread 0 of core 0. -/
def loadImage (b : List Byte) (s : State) : State :=
  let img : Image := { role := field b 12 1, secver := BitVec.ofNat 32 (imgSecver b), build := imgBuild b, legdig := imgLegDig b, entries := imgEntries b }
  let m0 : Mcc := { s.mcc with imem := [], dmem := [], shared := [], poisonImem := [], poisonDmem := [], poisonShared := [], flipImem := [], flipDmem := [], image := some img, legal := s.legalCode b }
  let m1 := (imgSegs b).foldl (fun m g => putSeg b g m) m0
  let m2 := if s.legalCode b = 1 then putLegal (imgLegal b) m1 else m1
  let s1 := { s with mcc := m2 }
  match firstWhere (fun (e : Entry) => e.eno == 0) img.entries with
  | some e => startThread 0 e 0 s1
  | none => s1

end Sys2Proof.Machine
end

