-- ==== Sys2Proof/Machine/Update.lean ====
section
/-! DEFINITION. The update engine: loading, verification, activation, confirmation, recovery, and the update commands (R422 to R439). -/

namespace Sys2Proof.Machine

/-! ## Refusals (R425) -/

/-- A code of Table 16-4 is returned, and counted under `k`. -/
def updReturn (k code : Nat) (s : State) : State := count (kUpd k) { s with upd.lastRef := code }

/-- A code is posted in UPD_REFUSED as well. -/
def updRefuse (k code : Nat) (s : State) : State := postNotice 0x0E03 1 (le 2 code) (updReturn k code s)

/-- The states in which BEGIN, UPD_VERIFY, UPD_ACTIVATE and the activation instant are refused, in order (R425). -/
def State.updBarred (s : State) : Option Nat :=
  if s.glb.mode = .holdup then some upHoldup
  else if s.upd.lock then some upLock
  else if s.cas.pair = 4 then some upSwitching
  else none

/-- A call refused with a code of Table 16-4: `posted` for those of R425. -/
def updFail (posted : Bool) (k code : Nat) (s : State) : EngOut :=
  .fail (if posted then updRefuse k code s else updReturn k code s) code

/-! ## UPD_BLOCK (R422, R423) -/

/-- Bytes a boot slot holds: seven data LUNs of its blocks in pSLC. -/
def State.slotCap (s : State) (k : Nat) : Nat := (if k = 0 then s.upd.aNblk else s.upd.bNblk) * 7 * s.lake.cpbP * 4096

/-- The 4 KiB units that a block covers whole, the last one of the image short. -/
def coveredUnits (off len total : Nat) : List Nat :=
  (List.range (ceilDiv len 4096)).filterMap fun i =>
    let u := off / 4096 + i
    if u * 4096 + 4096 ≤ off + len ∨ off + len = total then some u else none

/-- Bytes of unit `u` within a block's data. -/
def unitOf (off : Nat) (d : List Byte) (u : Nat) : List Byte := fit 4096 (slice d (u * 4096 - off) 4096)

/-- The units of a block are programmed. -/
def writeUnits (k off total : Nat) (d : List Byte) (s : State) : State :=
  count (kUpd 0) { s with
    upd.units := (coveredUnits off d.length total).foldl (fun m u => m.ins (k * 16384 + u) (unitOf off d u)) s.upd.units }

/-- First block of a boot slot on each of its LUNs, and blocks per LUN (Table 16-2). -/
def Upd.region (u : Upd) (k : Nat) : Nat × Nat := if k = 0 then (u.aFirst, u.aNblk) else (u.bFirst, u.bNblk)

/-- Block `bk` is a good block of slot `k`: slot A lies on LUNs 0 to 7, slot B on LUNs 8 to 15 (R219). -/
def State.slotBlock (s : State) (k bk : Nat) : Bool :=
  let (first, n) := s.upd.region k
  bk / 32768 == k && decide (first ≤ bk % 4096 ∧ bk % 4096 < first + n) && (s.lake.block bk).st != 0 && (s.lake.block bk).st != 7

/-- A LUN of slot `k` has fewer good blocks than an image of `total` bytes takes: no spare block is left (log 99). -/
def State.slotShort (s : State) (k total : Nat) : Bool :=
  let (first, n) := s.upd.region k
  (List.range 8).any fun i =>
    decide (((List.range n).filter fun j => s.slotBlock k (blockKey (8 * k + i) (first + j))).length < ceilDiv total (7 * s.lake.cpbP * 4096))

/-- A block of slot `k` whose program failed retires; its data go on in the slot's next stripe (R231, R422). -/
def slotBlockFailed (k bk : Nat) (s : State) : State :=
  if s.slotBlock k bk then lunError (bk / 4096) (retireBlock bk 0 (count (kLks 11) s)) else s

/-- The inactive slot becomes EMPTY. -/
def emptySpare (s : State) : State :=
  spareTo 0 { s with upd.units := s.upd.units.keep (fun u _ => u / 16384 != s.upd.spare), upd.imglen := 0 }

/-- A block's units are programmed; `bad` names the blocks whose program fails meanwhile. Without a spare block the load fails with MEDIA (R422). -/
def programUnits (off total : Nat) (d : List Byte) (bad : List Nat) (s : State) : EngOut :=
  let k := s.upd.spare
  let s1 := bad.foldl (fun s bk => slotBlockFailed k bk s) s
  if bad.any (s.slotBlock k) && s1.slotShort k total then updFail false 2 upMedia (emptySpare s1) else .ok (writeUnits k off total d s1)

/-- The blocks of slot `k` that are good are erased (R422). -/
def eraseSlot (k : Nat) (s : State) : State :=
  let (first, n) := s.upd.region k
  let keys := ((List.range 8).flatMap fun i => (List.range n).map fun j => blockKey (8 * k + i) (first + j)).filter (s.slotBlock k)
  keys.foldl (fun s bk =>
    let b := s.lake.block bk
    nandErase bk true (setBlock bk { b with pe := min (b.pe + 1) 0xFFFFF } s)) s

/-- A block with BEGIN starts a load. -/
def beginBlock (bad : List Nat) (off len crc : Nat) (read : Except Nat (List Byte)) (s : State) : EngOut :=
  let k := s.upd.spare
  let no := fun (c : Nat) => updFail false 2 c s
  match s.updBarred with
  | some c => updFail true 2 c s
  | none =>
    if !s.lake.ready then no upMedia
    else if s.upd.slotSt k = 3 ∨ s.upd.slotSt k = 6 then no upSlotState
    else if off ≠ 0 ∨ len < 256 then no upHeader
    else match read with
    | .error st => .fail s st
    | .ok d =>
      let total := imgLen d
      if !beginOk d then no upHeader
      else if 67108864 < total ∨ s.slotCap k < total ∨ total < len then no upRange
      else if crc32c d ≠ crc then no upBlockCrc
      else
        let s1 := { s with upd.units := s.upd.units.keep fun u _ => u / 16384 != k, upd.imglen := total }
        programUnits 0 total d bad (spareTo 1 (eraseSlot k s1))

/-- A block without BEGIN: written, or compared unit by unit with what was received. -/
def nextBlock (bad : List Nat) (off len crc : Nat) (read : Except Nat (List Byte)) (s : State) : EngOut :=
  let k := s.upd.spare
  let total := s.upd.imglen
  let no := fun (c : Nat) => updFail false 2 c s
  if !s.lake.ready then no upMedia
  else if s.upd.slotSt k ≠ 1 then no upNoBegin
  else if off % 4096 ≠ 0 ∨ len < 8 ∨ 65536 < len ∨ len % 8 ≠ 0 ∨ (len % 4096 ≠ 0 ∧ off + len ≠ total) ∨ total < off + len then no upRange
  else match read with
  | .error st => .fail s st
  | .ok d =>
    let us := coveredUnits off len total
    let have_ := fun (u : Nat) => (s.upd.units.find (k * 16384 + u)).isSome
    let same := fun (u : Nat) =>
      match s.upd.units.find (k * 16384 + u) with
      | some b => crc32c b == crc32c (unitOf off d u)
      | none => false
    if crc32c d ≠ crc then no upBlockCrc
    else if us.any have_ then
      if us.all same then .ok (count (kUpd 1) s) else no upMismatch
    else programUnits off total d bad s

/-- UPD_BLOCK. -/
def engUpdBlock (bad : List Nat) (t : Nat) (b : List Byte) (s : State) : EngOut :=
  let len := field b 4 4
  if !zeros b 21 3 ∨ 1 < field b 20 1 then .fail s stBadArg
  else if field b 20 1 = 1 then beginBlock bad (field b 0 4) len (field b 16 4) (s.readBuf t (field b 8 8) len) s
  else nextBlock bad (field b 0 4) len (field b 16 4) (s.readBuf t (field b 8 8) len) s

/-! ## UPD_VERIFY (R424) -/

/-- UPD_VERIFY: the six checks over the inactive slot. -/
def updVerify (s : State) : EngOut :=
  let k := s.upd.spare
  match s.updBarred with
  | some c => updFail true 4 c s
  | none =>
    if !s.lake.ready then updFail false 4 upMedia s
    else if s.upd.slotSt k ≠ 1 then updFail false 4 upSlotState s
    else
      let n := s.upd.imglen
      let b := s.slotBytes k n
      if !(List.range (ceilDiv n 4096)).all (fun u => (s.upd.units.find (k * 16384 + u)).isSome) then updFail true 4 upIncomplete s
      else match imageCheck b s with
      | some c => updFail true 4 c s
      | none =>
        if !s.legalAdmitted b then .fail (updRefuse 4 upLegalSealed s) stSealed
        else .ok (postNotice 0x0E01 1 (le 1 k ++ zeroBytes 3 ++ le 4 (imgSecver b)) (count (kUpd 3) (spareTo 2 s)))

/-- UPD_VERIFY as an engine call. -/
def engUpdVerify (_t : Nat) (b : List Byte) (s : State) : EngOut := if !zeros b 0 8 then .fail s stBadArg else updVerify s

/-! ## UPD_ACTIVATE (R426) -/

/-- UPD_ACTIVATE: row 9 for the second T_S. -/
def updActivate (tS scope window : Nat) (s : State) : EngOut :=
  let no := fun (c : Nat) => updFail false 6 c s
  if 1 < scope ∨ window = 0 then .fail s stBadArg
  else if s.cas.pair = 3 then .fail s stAccessDenied
  else match s.updBarred with
  | some c => updFail true 6 c s
  | none =>
    let st := s.upd.slotSt s.upd.spare
    if !s.lake.ready then no upMedia
    else if !s.cas.master then no upNotMaster
    else if tS * 1000000000 < s.nowNs + 10000000000 then no upTooSoon
    else if scope = 0 ∧ st ≠ 2 ∧ st ≠ 3 then no upSlotState
    else
      let target := if scope = 0 then s.cas.chipId else 0xFF
      let r : Row := { tS := tS, action := 5, flags := 5, arg := target * 256 + 2, t0 := tS * 1000000000 }
      let (s1, w) := shareRow 9 r { s with upd.window := window }
      { st := armRow 9 r window s1, status := stOk, waits := w }

/-- UPD_ACTIVATE as an engine call. -/
def engUpdActivate (_t : Nat) (b : List Byte) (s : State) : EngOut :=
  if !zeros b 10 6 then .fail s stBadArg else updActivate (field b 0 8) (field b 8 1) (field b 9 1) s

/-! ## UPD_CONFIRM (R429, R430) -/

/-- UPD_CONFIRM OP 0, 1 and 2. -/
def updConfirm (op raise : Nat) (s : State) : EngOut :=
  let trial := s.upd.slotSt s.upd.active = 4
  let no := fun (c : Nat) => EngOut.fail { s with upd.lastRef := c } c
  let st := s.upd.slotSt s.upd.spare
  if 2 < op ∨ 1 < raise then .fail s stBadArg
  else if !s.lake.ready then no upMedia
  else if op = 2 then
    if st = 3 ∨ st = 6 then no upSlotState
    else .ok (emptySpare s)
  else if !trial then no upSlotState
  else if op = 0 ∧ raise = 1 ∧ s.woad.debugSub then no upDebug
  else .ok (applyTrialEnd (op == 1) (raise == 1) (mirror (.trialEnd (op == 1) (raise == 1)) none none s))

/-- UPD_CONFIRM as an engine call. -/
def engUpdConfirm (_t : Nat) (b : List Byte) (s : State) : EngOut :=
  if !zeros b 2 6 then .fail s stBadArg else updConfirm (field b 0 1) (field b 1 1) s

/-! ## Engine-call rows -/

/-- UPD_BLOCK with BEGIN. -/
def execUpdBlockBegin (t : Fin 256) (pi : Fin 8) (rt ra : Fin 32) (bad : List Nat) (s : State) : Result := .next (ecall t pi rt ra 0xD0 24 (engUpdBlock bad) s)
/-- UPD_BLOCK without BEGIN. -/
def execUpdBlock (t : Fin 256) (pi : Fin 8) (rt ra : Fin 32) (bad : List Nat) (s : State) : Result := .next (ecall t pi rt ra 0xD0 24 (engUpdBlock bad) s)
/-- UPD_VERIFY. -/
def execUpdVerify (t : Fin 256) (pi : Fin 8) (rt ra : Fin 32) (s : State) : Result := .next (ecall t pi rt ra 0xD1 8 engUpdVerify s)
/-- UPD_ACTIVATE. -/
def execUpdActivate (t : Fin 256) (pi : Fin 8) (rt ra : Fin 32) (s : State) : Result := .next (ecall t pi rt ra 0xD2 16 engUpdActivate s)
/-- UPD_CONFIRM OP 0. -/
def execUpdConfirm (t : Fin 256) (pi : Fin 8) (rt ra : Fin 32) (s : State) : Result := .next (ecall t pi rt ra 0xD3 8 engUpdConfirm s)
/-- UPD_CONFIRM OP 1. -/
def execUpdReject (t : Fin 256) (pi : Fin 8) (rt ra : Fin 32) (s : State) : Result := .next (ecall t pi rt ra 0xD3 8 engUpdConfirm s)
/-- UPD_CONFIRM OP 2. -/
def execUpdDiscard (t : Fin 256) (pi : Fin 8) (rt ra : Fin 32) (s : State) : Result := .next (ecall t pi rt ra 0xD3 8 engUpdConfirm s)

/-! ## The activation instant (R427, R428) -/

/-- The twin holds an ARMED slot with this unit's BUILD, or there is no twin in service (R428). -/
def State.twinReady (s : State) : Bool :=
  let mine := s.slotBuild s.upd.spare
  !(s.cas.pair == 1 || s.cas.pair == 3) || (s.cas.twinStates % 16 == 3 && s.cas.twinBuild.take 16 == mine)
    || (s.cas.twinStates / 16 == 3 && s.cas.twinBuild.drop 16 == mine)

/-- The instant is refused: the slot returns to VERIFIED. -/
def dropArm (code : Nat) (s : State) : State :=
  let s1 := updRefuse 6 code s
  putBoot { s1.upd.withSlot s1.upd.spare 2 with actT := 0 } s1

/-- IMAGE_ACTIVATE: row 9 fires (R346, R348); an ARMED slot that its target names is tested and the drain starts (Table 16-5). -/
def execImageActivate (s : State) : Result :=
  .next (
    let r := s.row 9
    if r.action ≠ 5 ∨ !r.due 0 s.nowNs ∨ !s.coresRun then s
    else
      let s1 := passRow 9 1 s.tmu.valid s
      let named := r.arg / 256 = 0xFF ∨ r.arg / 256 = s.cas.chipId
      if s.upd.slotSt s.upd.spare ≠ 3 ∨ !named then s1
      else if !s.tmu.valid then dropArm upTimeInvalid s1
      else match s.updBarred with
      | some c => dropArm c s1
      | none => if s.twinReady then startDrain .activation s1 else dropArm upPeer s1)

/-- The pair's units restart together and neither declares the other failed: which one leads again (R428). -/
def twinNote (s : State) : Option Bool := if s.cas.pair = 1 then some true else if s.cas.pair = 3 then some false else none

/-- ACTIVATION_DRAIN_COMPLETE: the drain of an activation or a fall-back ends; Lake, then the anchor, then the internal reset (Table 16-5, R430, R431). -/
def execActivationDrainComplete (s : State) : Result :=
  onCores s (match s.cpm.drain with
    | .activation =>
      let s2 := mapCheckpoint (flushLake s)
      let old := s2.upd.active
      let new := s2.upd.spare
      let u := (s2.upd.withSlot new 4).withSlot old 6
      let s3 := anchorUpdate { s2 with
        upd := { u with active := new, tries := 0, gen := true, genck := s2.lake.metaPca 64, volGen := some s2.lake.vol,
                        confirmBy := (s2.cpm.opmin.toNat + s2.upd.window) % 2 ^ 32, actT := 0, imglen := imgLen (s2.slotBytes old 256), activatedDue := true } }
      count (kUpd 5) { s3 with cas.twinRestart := twinNote s, cpm.resetDue := some 3 }
    | .fallback =>
      { fallBackTo s.upd.active (flushLake s) with cas.twinRestart := twinNote s, cpm.resetDue := some 3 }
    | _ => s)

/-- TRIAL_TIMEOUT: the operating minute reaches CONFIRM_BY with the trial unconfirmed (R430). -/
def execTrialTimeout (s : State) : Result :=
  .next (if s.upd.slotSt s.upd.active = 4 ∧ s.upd.confirmBy ≤ s.cpm.opmin.toNat ∧ s.coresRun then beginFallBack s else s)

/-! ## Recovery (R433) -/

/-- A recovery command takes effect: in recovery, with the cores out of reset. -/
def State.recoveryRuns (s : State) : Bool := s.upd.recovery && s.coresRun

/-- CMD 1 of UPD_RCTL: the window's 4 KiB become a unit if their CRC matches. -/
def storeUnit (unit : Nat) (s : State) : State :=
  let d := readBytes s.upd.rwin 0 4096
  if !s.recoveryRuns then s
  else if crc32c d = s.upd.rcrc.toNat then { s with upd.runits := s.upd.runits.ins unit d, upd.rstat := 0 }
  else { s with upd.rstat := BitVec.ofNat 32 (upBlockCrc * 65536), upd.lastRef := upBlockCrc }

/-- CMD 2 of UPD_RCTL: the image in the units up to `unit` is checked and started (log 84). -/
def verifyStart (unit : Nat) (s : State) : State :=
  let n := (unit + 1) * 4096
  let b0 := unitBytes s.upd.runits 0 n
  let b := b0.take (imgLen b0)
  let bad := if n < imgLen b0 then some upHeader else imageCheck b s
  if !s.recoveryRuns then s
  else match bad with
  | some c => { s with upd.rstat := BitVec.ofNat 32 (c * 65536), upd.lastRef := c }
  | none => loadImage b { s with upd.rstat := 0 }

/-- RECOVERY_STORE_UNIT: UPD_RCTL written with CMD 1. -/
def execRecoveryStoreUnit (unit : BitVec 12) (s : State) : Result := onClock s (storeUnit unit.toNat s)

/-- RECOVERY_VERIFY_START: UPD_RCTL written with CMD 2. -/
def execRecoveryVerifyStart (unit : BitVec 12) (s : State) : Result := onClock s (verifyStart unit.toNat s)

/-! ## Update commands (Table 16-6) -/

/-- IMG_BLOCK: LEN is the data's length. -/
def doImgBlock (bad : List Nat) (c : Cmd) (s : State) : HostAns :=
  let b := c.block
  if !zeros b 4 12 ∨ !zeros b 21 3 ∨ 1 < field b 20 1 then .fail s stBadArg
  else if field b 20 1 = 1 then ofEng (beginBlock bad (field b 0 4) c.data.length (field b 16 4) (.ok c.data) s) 64
  else ofEng (nextBlock bad (field b 0 4) c.data.length (field b 16 4) (.ok c.data) s) 64

/-- The response of IMG_STATUS. -/
def State.imgStatus (s : State) : List Byte :=
  let slotInfo := fun (k : Nat) => let h := s.slotBytes k 256; slice h 24 16 ++ slice h 16 4 ++ slice h 8 4
  le 4 (s.regUpd 0x000) ++ le 4 (s.regUpd 0x004) ++ le 4 (s.regUpd 0x008) ++ le 4 (s.regUpd 0x00C) ++ le 8 s.upd.actT
    ++ le 4 s.upd.confirmBy ++ zeroBytes 4 ++ slotInfo 0 ++ slotInfo 1 ++ zeroBytes 16

/-- IMG_LOCK: the owner lock. -/
def doImgLock (c : Cmd) (s : State) : HostAns :=
  let on := field c.block 0 1
  if 1 < on then .fail s stBadArg else { st := putBoot { s.upd with lock := on == 1 } s }

/-- IMG_BLOCK as a standard command. -/
def execImgBlock (q : Fin 18) (bad : List Nat) (s : State) : Result := .next (runStandard q 0x0060 operator (doImgBlock bad) s)
/-- IMG_VERIFY as a standard command. -/
def execImgVerify (q : Fin 18) (s : State) : Result := .next (runStandard q 0x0061 operator (fun _ s => ofEng (updVerify s) 64) s)
/-- IMG_ACTIVATE as a standard command. -/
def execImgActivate (q : Fin 18) (s : State) : Result :=
  .next (runStandard q 0x0062 operator (fun c s => ofEng (engUpdActivate 0 (fit 16 c.block) s) 64) s)
/-- IMG_CONFIRM as a standard command, under Operator or Metrology. -/
def execImgConfirm (q : Fin 18) (s : State) : Result :=
  .next (runStandard q 0x0063 (fun _ => [2, 5]) (fun c s => ofEng (engUpdConfirm 0 (fit 8 c.block) s) 64) s)
/-- IMG_STATUS as a standard command. -/
def execImgStatus (q : Fin 18) (s : State) : Result := .next (runStandard q 0x0064 anyRole (fun _ s => { st := s, resp := some s.imgStatus }) s)
/-- IMG_LOCK as a standard command. -/
def execImgLock (q : Fin 18) (s : State) : Result := .next (runStandard q 0x0065 operator doImgLock s)

end Sys2Proof.Machine
end

