-- ==== Sys2Proof/Machine/CampCtl.lean ====
section
/-! DEFINITION. CAMP_CTL and the campaign clock (R435, R436, R438, Table 16-8). -/

namespace Sys2Proof.Machine

/-- A campaign record as Table 16-7 lays it out. -/
def Camp.bytes (id : Nat) (c : Camp) : List Byte :=
  le 2 id ++ le 1 c.st ++ le 1 c.ports.toNat ++ le 4 c.imglen ++ le 8 c.group.toNat ++ le 4 c.volofs ++ le 4 c.imgcrc
    ++ le 4 c.gfcnt.toNat ++ le 4 c.nextofs ++ le 4 c.sendend ++ le 1 (c.rep + 16 * c.pass) ++ zeroBytes 3 ++ le 8 c.actT
    ++ c.tally.flatMap (le 4)

/-- OP, PORTS and CAMPID of a CAMP_CTL block; the bytes an OP leaves out are zero (R436). -/
def campOp (b : List Byte) : Nat := field b 0 1
def campPortsOf (b : List Byte) : Nat := field b 1 1
def campId (b : List Byte) : Nat := field b 2 2

/-- Reserved bytes of a block by OP. -/
def campReserved (b : List Byte) : Bool :=
  zeros b 4 4 && match campOp b with
  | 0 => zeros b 28 4
  | 1 => zeros b 8 8 && zeros b 25 7
  | 2 => zeros b 16 16
  | 4 => zeros b 16 16
  | 6 => zeros b 24 8
  | _ => zeros b 8 24

/-- A code of Table 16-4 from CAMP_CTL. -/
def campFail (code : Nat) (s : State) : EngOut := .fail { s with upd.lastRef := code } code

/-- OP 0 CREATE. -/
def campCreate (b : List Byte) (s : State) : EngOut :=
  let id := campId b
  let group := BitVec.ofNat 64 (field b 8 8)
  let ofs := field b 16 4
  let n := field b 20 4
  if !groupMa group then .fail s stBadArg
  else if !s.lake.ready then campFail upMedia s
  else if (s.upd.camps.find id).isSome then campFail upCampExists s
  else if 8 ≤ s.upd.camps.length then campFail upCampFull s
  else if n = 0 ∨ 16777216 < n ∨ s.lake.volGiB * 2 ^ 30 < ofs * 4096 + n then campFail upRange s
  else if crc32c (s.volBytes (ofs * 4096) n) ≠ field b 24 4 then campFail upCampCrc s
  else
    let c : Camp := { st := 1, ports := BitVec.ofNat 8 (campPortsOf b), imglen := n, group := group, volofs := ofs, imgcrc := field b 24 4 }
    .ok (campState id 1 c s)

/-- OP 1 SEND. -/
def campSend (b : List Byte) (id : Nat) (c : Camp) (s : State) : EngOut :=
  let off := field b 16 4
  let n := field b 20 4
  let rep := field b 24 1
  if rep = 0 ∨ 8 < rep then .fail s stBadArg
  else if n = 0 ∨ c.imglen < off + n then campFail upRange s
  else .ok (campState id 2 { c with nextofs := off, start := off, sendend := off + n, rep := rep, pass := 0, sentOn := [] } s)

/-- Superframe lengths, in seconds, of the enabled ports of a campaign. -/
def State.campFrames (s : State) (c : Camp) : List Nat :=
  ((List.range 8).filter fun p => c.ports.getLsbD p && (if p < 4 then (s.rport p).desc.enable else (s.lm.ports.get {} (p - 4)).desc.enable)).map
    fun p => sfLen (if p < 4 then (s.rport p).desc.sfcode else (s.lm.ports.get {} (p - 4)).desc.sfcode)

/-- OP 2 ACTIVATE. -/
def campArm (b : List Byte) (id : Nat) (c : Camp) (s : State) : EngOut :=
  let t := field b 8 8
  if (s.campFrames c).any (fun n => decide (t * 1000000000 < s.nowNs + 2 * n * 1000000000)) then campFail upTooSoon s
  else .ok (campState id 4 { c with actT := t } s)

/-- Places on which CAMP_ABORT goes out: port × 4 + downlink lane, line ports from 16 on (R438). -/
def State.campPlaces (s : State) (c : Camp) : List Nat :=
  (List.range 8).flatMap fun p =>
    if !c.ports.getLsbD p then []
    else if p < 4 then (List.range (min 4 (s.rport p).desc.dl.length)).map fun i => 4 * p + i
    else [4 * p]

/-- OP 3 ABORT: the pump sends CAMP_ABORT for the next 16 superframes. -/
def campStop (id : Nat) (c : Camp) (s : State) : EngOut :=
  .ok (campState id 6 { c with abortLeft := (s.campPlaces c).foldl (fun m p => m.ins p 16) [] } s)

/-- The STATEs in which an OP is admitted (Table 16-8). -/
def campAdmits (op st : Nat) : Bool :=
  match op with
  | 1 => decide (1 ≤ st ∧ st ≤ 3)
  | 2 => st == 2 || st == 3
  | 3 => decide (1 ≤ st ∧ st ≤ 5)
  | 4 => true
  | 5 => st == 5 || st == 6
  | _ => decide (1 ≤ st ∧ st ≤ 6)

/-- CAMP_CTL but for READ's destination; READ answers the record at block offset 64. -/
def campCtl (b : List Byte) (s : State) : EngOut :=
  let op := campOp b
  let id := campId b
  if 6 < op ∨ !campReserved b then .fail s stBadArg
  else if s.cas.pair = 3 then .fail s stAccessDenied
  else if op = 0 then campCreate b s
  else match s.upd.camps.find id with
  | none => campFail upCampNotFound s
  | some c =>
    if !campAdmits op c.st then campFail upSlotState s
    else match op with
    | 1 => campSend b id c s
    | 2 => campArm b id c s
    | 3 => campStop id c s
    | 4 => { st := s, status := stOk, out := [(64, c.bytes id)] }
    | 5 => .ok (mirror (.camp id none) none none { s with upd.camps := s.upd.camps.del id })
    | _ => .ok (putCamp id { c with tally := (List.range 4).map fun i => field b (8 + 4 * i) 4 } s)

/-- CAMP_CTL as an engine call: READ writes its record to DST. -/
def engCampCtl (t : Nat) (b : List Byte) (s : State) : EngOut :=
  if campOp b = 4 ∧ !s.bufOk t (field b 8 8) 64 then .fail s stAccessFault
  else
    let a := campCtl b s
    match firstWhere (fun x => x.1 == 64) a.out with
    | some (_, l) => .ok (writeBuf t (field b 8 8) l a.st)
    | none => a

/-- CAMP_CTL OP 0. -/
def execCampCtlCreate (t : Fin 256) (pi : Fin 8) (rt ra : Fin 32) (s : State) : Result := .next (ecall t pi rt ra 0xD4 32 engCampCtl s)
/-- CAMP_CTL OP 1. -/
def execCampCtlSend (t : Fin 256) (pi : Fin 8) (rt ra : Fin 32) (s : State) : Result := .next (ecall t pi rt ra 0xD4 32 engCampCtl s)
/-- CAMP_CTL OP 2. -/
def execCampCtlActivate (t : Fin 256) (pi : Fin 8) (rt ra : Fin 32) (s : State) : Result := .next (ecall t pi rt ra 0xD4 32 engCampCtl s)
/-- CAMP_CTL OP 3. -/
def execCampCtlAbort (t : Fin 256) (pi : Fin 8) (rt ra : Fin 32) (s : State) : Result := .next (ecall t pi rt ra 0xD4 32 engCampCtl s)
/-- CAMP_CTL OP 4. -/
def execCampCtlRead (t : Fin 256) (pi : Fin 8) (rt ra : Fin 32) (s : State) : Result := .next (ecall t pi rt ra 0xD4 32 engCampCtl s)
/-- CAMP_CTL OP 5. -/
def execCampCtlClose (t : Fin 256) (pi : Fin 8) (rt ra : Fin 32) (s : State) : Result := .next (ecall t pi rt ra 0xD4 32 engCampCtl s)
/-- CAMP_CTL OP 6. -/
def execCampCtlTally (t : Fin 256) (pi : Fin 8) (rt ra : Fin 32) (s : State) : Result := .next (ecall t pi rt ra 0xD4 32 engCampCtl s)

/-- CAMP_CTL as a standard command: OP 4 also under Auditor; READ's destination is the response. -/
def doCampCtl (c : Cmd) (s : State) : HostAns :=
  let b := fit 32 c.block
  ofEng (campCtl (if campOp b = 4 then b.take 8 ++ zeroBytes 24 else b) s) 64

/-- CAMP_CTL as a standard command. -/
def execHostCampCtl (q : Fin 18) (s : State) : Result :=
  .next (runStandard q 0x0068 (fun c => if campOp c.block = 4 then [2, 6] else [2]) doCampCtl s)

/-- CAMPAIGN_ACT_T: the activation second of an ARMED campaign has come (R436, R438). -/
def execCampaignActT (id : BitVec 16) (s : State) : Result :=
  .next (match s.upd.camps.find id.toNat with
    | some c => if s.pumps ∧ c.st = 4 ∧ c.actT ≤ s.nowS then campState id.toNat 5 c s else s
    | none => s)

end Sys2Proof.Machine
end

