-- ==== Sys2Proof/Machine/Glb.lean ====
section
/-! DEFINITION. Clock loss and relock, the fabric, BAR0 writes without behaviour of their own, the statistics snapshot (R8, R9, R14 to R16, R22). -/

namespace Sys2Proof.Machine

/-! ## REFCLK (R14) -/

/-- The switched domains are powered and clocked, or kept so by the backup oscillator. -/
def State.powered (s : State) : Bool := s.glb.mode != .off && s.glb.mode != .vigil

/-- The active unit of a pair sends FAIL, holds its class B outputs and stops; a reset follows the hold (R388, R391, log 76). -/
def failUnit (s : State) : State :=
  let s1 := holdOutputs (sendFail s)
  { s1 with cas.failed := true, cas.pair := 3 }

/-- Every port stops transmitting, or will resume at `resume` of its superframe code and offset. -/
def stopTx (stopped : Bool) (resume : Nat → Nat → Option Nat) (s : State) : State :=
  { s with
    rla.ports := s.rla.ports.mapVals fun x =>
      { (if stopped then x.cut s.nowNs else x) with stopR14 := x.stopR14 || stopped, resumeAt := resume x.desc.sfcode x.desc.sofs }
    lm.ports := s.lm.ports.mapVals fun x => { (if stopped then x.cut s.nowNs else x) with stopR14 := x.stopR14 || stopped, resumeAt := resume x.desc.sfcode x.desc.sofs } }

/-- REFCLK_LOSS: no edge for 400 ns (`unlock` false), or loss of lock: the backup oscillator takes over. -/
def execRefclkLoss (unlock : Bool) (s : State) : Result :=
  .next (
    if !s.powered then s
    else if s.glb.clkSrc then { s with glb.relocking := false }
    else
      let cause := le 1 (flag unlock)
      let s1 := stopTx true (fun _ _ => none) { s with glb.clkSrc := true, glb.clkLostAt := s.nowNs, glb.relocking := false, tmu.clkFault := true }
      let s2 := timeInvalid 0 (enterHoldover s1)
      let s3 := sepWrite 0x0102 (cause ++ zeroBytes 7) (recEvent 0x000F (cause ++ zeroBytes 7) (postNotice 0x0101 0 cause s2))
      let s4 := count (kCpm 8) s3
      if s4.cas.paired && s4.activeUnit then failUnit s4 else s4)

/-- REFCLK_STABLE: stable for 10 ms, the PLL begins to relock. -/
def execRefclkStable (s : State) : Result :=
  .next (if s.glb.clkSrc ∧ s.powered ∧ s.glb.clkLostAt + 10000000 ≤ s.nowNs then { s with glb.relocking := true } else s)

/-- PLL_RELOCK: CLKSRC clears, and each port transmits again from its next superframe start. -/
def execPllRelock (s : State) : Result :=
  .next (
    if s.glb.clkSrc ∧ s.glb.relocking ∧ s.powered then
      let s1 := { s with glb.clkSrc := false, glb.relocking := false, tmu.clkFault := false }
      let s2 := stopTx false (fun code sofs => some (sfNext code sofs s.nowNs * 1000000000)) s1
      postNotice 0x0102 1 (le 4 (sat32 ((s.nowNs - s.glb.clkLostAt) / 1000))) s2
    else s)

/-! ## The fabric (R15, R16) -/

/-- The step from `u` to `v` lies on the way from `a` to `b`. -/
def onWay (a b u v : Nat) : Bool := (decide (a ≤ u ∧ v = u + 1 ∧ v ≤ b)) || decide (b ≤ v ∧ u = v + 1 ∧ u ≤ a)

/-- A link lies on the X-first path between two routers. -/
def crossX (a b : Nat × Nat) (l : (Nat × Nat) × (Nat × Nat)) : Bool :=
  (l.1.2 == a.2 && l.2.2 == a.2 && onWay a.1 b.1 l.1.1 l.2.1) || (l.1.1 == b.1 && l.2.1 == b.1 && onWay a.2 b.2 l.1.2 l.2.2)

/-- A link lies on the Y-first path between two routers. -/
def crossY (a b : Nat × Nat) (l : (Nat × Nat) × (Nat × Nat)) : Bool :=
  (l.1.1 == a.1 && l.2.1 == a.1 && onWay a.2 b.2 l.1.2 l.2.2) || (l.1.2 == b.2 && l.2.2 == b.2 && onWay a.1 b.1 l.1.1 l.2.1)

/-- The path that traffic between two routers takes: X first (`some false`), else Y first (`some true`), else none (R15, R16). -/
def fabPath (failed : List Nat) (a b : Nat × Nat) : Option Bool :=
  let ends := failed.map Config.fabEnds
  if !ends.any (crossX a b) then some false else if !ends.any (crossY a b) then some true else none

/-- Failed links cut both paths between two routers (R16). -/
def fabCut (failed : List Nat) : Bool :=
  let rs := (List.range 24).map fun r => (r % 6, r / 6)
  rs.any fun a => rs.any fun b => (fabPath failed a b).isNone

/-- Links marked failed. -/
def State.failedLinks (s : State) : List Nat := (s.glb.links.filter fun e => decide (e.2.st = .failed)).map (·.1)

/-- The Sepia record of a cut fabric; from now on no frame is acked (R16). -/
def cutFabric (s : State) : State :=
  sepWrite 0x0103 (le 16 (s.failedLinks.foldl (fun m k => m + 2 ^ k) 0)) { s with glb.cut := true }

/-- A fabric that no longer joins its routers stops the part: the standby is told, and reset follows (R16). -/
def fabricCheck (s : State) : State :=
  if s.glb.cut || !fabCut s.failedLinks then s
  else
    let s1 := cutFabric s
    if s1.cas.paired && s1.activeUnit then failUnit s1 else { s1 with cpm.resetDue := some 3 }

/-- A link is marked failed (R15). -/
def markFailed (l : Nat) (s : State) : State :=
  postNotice 0x0103 0 (le 1 l) { s with glb.links := s.glb.links.put {} l { (s.glb.links.get {} l) with st := .failed, resend := [] } }

/-- SEQ and DST of a flit (Table 1-2), and whether its CRC-32C over bits 287:0, most significant byte first, is good (log 78). -/
def flitSeq (f : BitVec 320) : BitVec 6 := (f >>> 282).setWidth 6
def flitDst (f : BitVec 320) : Nat := bits f.toNat 281 277
def flitCrc (n : Nat) : Nat := crc32c (le 36 n).reverse
def flitGood (f : BitVec 320) : Bool := f.toNat / 2 ^ 288 == flitCrc (f.toNat % 2 ^ 288)

/-- The flit that a sender makes of bits 281:0. -/
def mkFlit (seq : BitVec 6) (body : BitVec 282) : BitVec 320 :=
  let n := seq.toNat * 2 ^ 282 + body.toNat
  BitVec.ofNat 320 (flitCrc n * 2 ^ 288 + n)

/-- The sender's next flit: the first of those asked for again, else a new one; `late` when it left before the retry request arrived. -/
def FabLink.send (k : FabLink) (body : BitVec 282) (late : Bool) : BitVec 320 × FabLink :=
  match k.resend, late with
  | f :: l, false => (f, { k with resend := l })
  | l, _ =>
    let f := mkFlit k.nextSeq body
    let sent := k.sent ++ [f]
    (f, { k with nextSeq := k.nextSeq + 1, sent := sent.drop (sent.length - 32), resend := if l.isEmpty then [] else l ++ [f] })

/-- FLIT_RECEIVE: a flit arrives over a link, `err` the bits that the link flipped. A bad CRC, or a reserved DST, discards it and all later
flits and asks for a retry; the sender then resends from the expected SEQ on; the 17th failure of one flit fails the link. -/
def execFlitReceive (link : Fin 76) (body : BitVec 282) (err : BitVec 320) (late : Bool) (s : State) : Result :=
  .next (
    let l := link.val
    let k0 := s.glb.links.get {} l
    let put := fun (x : FabLink) (s : State) => ({ s with glb.links := s.glb.links.put {} l x } : State)
    if !s.coresRun ∨ k0.st = .failed then s
    else
      let (sent, k) := k0.send body late
      let f := sent ^^^ err
      if flitGood f ∧ flitDst f < 24 then
        if flitSeq f = k.expSeq then put { k with st := .up, expSeq := k.expSeq + 1, retries := 0 } s else put k s
      else if k.st = .retrying ∧ late then put k s
      else if 16 ≤ k.retries then fabricCheck (markFailed l (put k s))
      else
        emit (.retry l k.expSeq.toNat) (count (kFab l) (put { k with
          st := .retrying, retries := k.retries + 1, resend := k.sent.dropWhile fun x => flitSeq x != k.expSeq } s)))

/-! ## Register writes (R8, R9) -/

/-- A BAR0 write is taken: powered, not frozen. -/
def State.barRuns (s : State) : Bool := s.clocked

/-- A capture 4 FAB_CLK cycles from now; a write within those of another merges with it. -/
def startSnap (s : State) : State := if s.glb.snapIn.isNone then { s with glb.snapIn := some 4 } else s

/-- GLB_SNAP: SNAP written with 1. -/
def execGlbSnap (s : State) : Result := .next (if s.barRuns then startSnap s else s)

/-- SNAP_CAPTURE: the four cycles have passed. -/
def execSnapCapture (s : State) : Result :=
  onClock s (if s.glb.snapIn = some 0 then captureCounters { s with glb.snapIn := none } else s)

/-- NQ_OVF_CLEAR: a W1C write to NQ_OVF; `set` when a notice is dropped in the same cycle, and the bit then stays. -/
def execNqOvfClear (bit hwSet : Bool) (s : State) : Result :=
  .next (if s.barRuns && bit && !hwSet then { s with glb.nqOvf := false } else s)

end Sys2Proof.Machine
end

