-- ==== Sys2Proof/Machine/Rec.lean ====
section
/-! DEFINITION. REC_WRITE, staging, the online self-test, JTAG read-out and debug enablement (R442, R444, R450 to R460). -/

namespace Sys2Proof.Machine

/-! ## Event records (R442, R444, R446) -/

/-- REC_WRITE: legal types at LEGAL only; ESEQ comes back at block offset 8. -/
def engRecWrite (t : Nat) (b : List Byte) (s : State) : EngOut :=
  let typ := field b 0 2
  let n := field b 2 2
  let legal := decide ((s.thr t).level = .legal)
  if !zeros b 4 4 ∨ typ < 0x7000 ∨ (typ < 0x8000 ∧ !legal) ∨ 992 < n then .fail s stBadArg
  else match s.readBuf t (field b 8 8) n with
  | .error e => .fail s e
  | .ok d => { st := count (kRec 1) (recEventL typ legal d s), status := stOk, out := [(8, le 8 s.evr.eseq.toNat)] }

/-- REC_WRITE as an engine call. -/
def execRecWrite (t : Fin 256) (pi : Fin 8) (rt ra : Fin 32) (s : State) : Result := .next (ecall t pi rt ra 0xC0 16 engRecWrite s)

/-- EVENT_STAGING_DRAIN: Lake is READY: staged records reach the ring in ESEQ order, EVENTS_LOST counts the drops, DEBUG_ENABLED and the
clear that waited longest follow. -/
def execEventStagingDrain (s : State) : Result :=
  onClock s (
    if !s.lake.ready then s
    else
      let s1 := s.evr.staged.foldl (fun s e => ringAppend e s) { s with evr.staged := [] }
      let s2 := if s1.evr.dropped = 0 then s1
        else recEvent 0x000C (le 4 s1.evr.dropped ++ zeroBytes 4) { s1 with evr.dropped := 0 }
      let s3 := if s2.stest.debugDue then recEvent 0x000D (zeroBytes 8) { s2 with stest.debugDue := false } else s2
      nextClear s3)

/-! ## Online self-test (R20, R452, R453) -/

/-- The online SRAM march runs: not stopped, SB95 free of a bank kept there. -/
def State.marchRuns (s : State) : Bool := !s.stest.sramStopped && (s.glb.spareBank == 0x7F || s.glb.reloc != .none)

/-- SELFTEST_RESULT, its record and the registers (R450, R452). -/
def reportTest (scope : Nat) (mask : BitVec 32) (s : State) : State :=
  let bad := mask != 0
  let b := le 1 scope ++ le 1 (flag bad) ++ zeroBytes 2 ++ le 4 mask.toNat
  postNotice 0x0D02 1 b (recEvent 0x000B b { s with stest.scope := scope == 1, stest.result := bad, stest.failed := mask })

/-- A failed item is counted and Ochre records it (Table 17-5). -/
def testFailed (scope item : Nat) (s : State) : State :=
  let m := BitVec.ofNat 32 (2 ^ item)
  count (kRec 9) (sepWrite 0x010A (le 1 scope ++ zeroBytes 3 ++ le 4 m.toNat) { s with stest.failedNow := s.stest.failedNow ||| m })

/-- The step of the rotation after bank `n`; after SB94 the rotation is reported and begins again. -/
def nextStep (n : Nat) (s : State) : State :=
  if n = 94 then
    let m := s.stest.failedNow
    reportTest 1 m { s with stest.nextBank := 95, stest.failedNow := 0 }
  else { s with stest.nextBank := if n = 95 then 0 else n + 1 }

/-- Units of a kind are all out: four bulk engines, two SHA engines, one ECDSA engine; TX slots have units from 4 on (Table 11-12). -/
def State.kindGone (s : State) (item unit : Nat) : Bool :=
  let n := if item = 2 then 4 else if item = 3 then 2 else 1
  if item = 2 ∧ 4 ≤ unit then false
  else if 4 ≤ item then true
  else (List.range n).all fun u => s.stest.unitsOut.get false (item * 256 + u)

/-- The KAT of one idle crypto unit: a failure takes it out of service, and the last of its kind resets the part (R453). -/
def katStep (item unit : Nat) (ok : Bool) (s : State) : State :=
  let s1 := count (kRec 8) s
  if ok then s1
  else
    let s2 := testFailed 1 item (recEvent 0x000E (le 1 item ++ le 1 unit ++ zeroBytes 6)
      { s1 with stest.unitsOut := s1.stest.unitsOut.put false (item * 256 + unit) true })
    if s2.kindGone item unit then { s2 with cpm.resetDue := some 3 } else s2

/-- ONLINE_TEST_STEP: every 10 s in SERVICE and STANDBY a bank begins its relocation (SB95 first, in place) and one crypto unit of items 2
to 5 runs its KAT, with the outcome given. -/
def execOnlineTestStep (item : Fin 6) (unit : Fin 256) (ok : Bool) (s : State) : Result :=
  .next (
    if !(s.glb.mode == .service || s.glb.mode == .standby) ∨ s.stest.frozen ∨ s.cpm.drain ≠ .none ∨ item.val < 2
        ∨ (s.stest.running ∧ s.nowNs < s.stest.testAt + 10000000000) ∨ s.stest.bank ≠ 0x7F then s
    else
      let s1 := katStep item unit ok { s with stest.running := true, stest.testAt := s.nowNs }
      let n := s1.stest.nextBank
      if !s1.marchRuns then nextStep n s1
      else if n = 95 then { s1 with stest.bank := 95 }
      else { s1 with stest.bank := n, glb.reloc := .copyOut })

/-- BANK_COPY_COMPLETE: 8,192 FAB_CLK cycles: accesses go to SB95, or back to the bank (R20). -/
def execBankCopyComplete (s : State) : Result :=
  .next (
    if !s.coresRun then s
    else match s.glb.reloc with
    | .copyOut => { s with glb.reloc := .active, glb.spareBank := s.stest.bank }
    | .copyBack => nextStep s.stest.bank { s with glb.reloc := .none, glb.spareBank := 0x7F, stest.bank := 0x7F }
    | _ => s)

/-- BANK_TEST_COMPLETE: the march of the bank under test ends; a failure stops the SRAM test and leaves the bank on SB95. -/
def execBankTestComplete (ok : Bool) (s : State) : Result :=
  .next (
    let n := s.stest.bank
    let inPlace := n == 95
    if !s.coresRun ∨ n = 0x7F ∨ !(inPlace || s.glb.reloc == .active) then s
    else
      let s1 := count (kRec 7) s
      if ok then (if inPlace then nextStep 95 { s1 with stest.bank := 0x7F } else { s1 with glb.reloc := .copyBack })
      else
        let s2 := testFailed 1 9 { s1 with stest.bank := 0x7F, stest.sramStopped := true, glb.reloc := .none }
        nextStep n (reportTest 1 s2.stest.failedNow s2))

/-- FULLNEXT_SET: a W1S write. -/
def execFullnextSet (s : State) : Result := .next (if s.barRuns then { s with stest.fullNext := true } else s)

/-! ## JTAG (R456, R457, Tables 17-8 and 17-9) -/

/-- An instruction is loaded into the IR; any but IDCODE and BYPASS sets TAPUSED (R460). -/
def loadIr (c : BitVec 6) (s : State) : State :=
  { s with stest.ir := c, stest.tapUsed := s.stest.tapUsed || (c != 0x02 && c != 0x3F) }

/-- The boundary-scan cells, whose order and number the spec does not give, shift out as a free value (log 80). -/
def captureScan (s : State) : State := let (v, s1) := drawFree s; emit (.tap v) s1

/-- TAP_RESET: TRST_N low. -/
def execTapReset (s : State) : Result := .next { s with stest.ir := 0x02 }

/-- EXTEST: honoured while PORST_N is low or the part is frozen; else it acts as BYPASS. -/
def execExtest (s : State) : Result :=
  .next (let s1 := loadIr 0x00 s; if !s.cpm.porstN ∨ s.stest.frozen then captureScan s1 else emit (.tap 0) s1)

/-- SAMPLE/PRELOAD. -/
def execSamplePreload (s : State) : Result := .next (captureScan (loadIr 0x01 s))

/-- IDCODE. -/
def execIdcode (s : State) : Result := .next (emit (.tap 0x2810014F) (loadIr 0x02 s))

/-- DSTAT. -/
def State.dstat (s : State) : Nat :=
  s.glb.mode.code * 32 + 16 * flag s.stest.halt + 8 * flag s.debugLock + 4 * flag s.woad.debugSub + 2 * flag s.stest.frozen

/-- DSTAT, the instruction. -/
def execDstat (s : State) : Result := .next (emit (.tap s.dstat) (loadIr 0x10 s))

/-- DADDR. -/
def execDaddr (v : BitVec 64) (s : State) : Result := .next (loadIr 0x11 { s with stest.daddr := v })

/-- A captured word: status and data. -/
inductive Probe where
  | ok (v : Nat) | denied | notFrozen | poison | open_
deriving DecidableEq, Repr

/-- Eight bytes of shared SRAM: directory entries, nodes, route entries and Madder's shared data; the layout of the other banks is open. -/
def State.probeSram (s : State) (o : Nat) : Probe :=
  if 0x3000000 ≤ o then .denied
  else if s.glb.poison.get false (o / 8) then .poison
  else if o < 0x2000000 then
    if s.ing.dirPoison.get false (dirAt o) then .poison else .ok (field (s.entry (dirAt o)).bytes (o % 32) 8)
  else if o < 0x2300000 then
    let k := o - 0x2000000
    .ok (field ((s.node (k / 48)).bytes s.bal.bint) (k % 48) 8)
  else if 0x2B00000 ≤ o ∧ o < 0x2D00000 then
    let k := o - 0x2B00000
    .ok (field ((s.lport (k / 0x80000)).routeBytes (k % 0x80000 / 32)) (k % 32) 8)
  else if 0x2E00000 ≤ o ∧ o < 0x2F80000 then
    let k := o - 0x2E00000
    if s.mcc.poisonShared.get false (k / 8) then .poison else .ok (ofLe (readBytes s.mcc.shared k 8))
  else .open_

/-- Eight bytes of a core's IMEM or DMEM. -/
def State.probeCore (s : State) (o : Nat) : Probe :=
  if 0x800000 ≤ o then .denied
  else
    let k := o / 0x20000 * 0x10000 + o % 0x10000
    if o % 0x20000 < 0x10000 then
      (if s.mcc.poisonImem.get false (k / 8) then .poison else .ok (ofLe (readBytes s.mcc.imem k 8)))
    else (if s.mcc.poisonDmem.get false (k / 8) then .poison else .ok (ofLe (readBytes s.mcc.dmem k 8)))

/-- Eight bytes of a thread's state; `full` with DEBUGSUB. -/
def State.probeThread (s : State) (o : Nat) (full : Bool) : Probe :=
  let th := s.thr (o / 0x400)
  let r := o % 0x400
  if 0x40000 ≤ o then .denied
  else if 0x30 ≤ r ∧ !full then .denied
  else match r with
  | 0x00 => .ok th.pc.toNat
  | 0x08 => .ok th.st.code
  | 0x10 => .ok th.level.code
  | 0x18 => .ok th.epc.toNat
  | 0x20 => .ok th.ecause.toNat
  | 0x28 => .ok th.eval.toNat
  | 0x200 => .ok th.preds.toNat
  | _ => if 0x100 ≤ r ∧ r < 0x200 then .ok (th.reg ((r - 0x100) / 8)).toNat else .ok 0

/-- What DDATA captures at an aligned address (Table 17-9). -/
def State.probe (s : State) (a : Nat) : Probe :=
  let o := a % 2 ^ 32
  let d := s.woad.debugSub
  let f := s.stest.frozen
  let gated := fun (p : Probe) => if !d then Probe.denied else if !f then .notFrozen else p
  match a / 2 ^ 32 with
  | 0 => if 0x100000 ≤ o then .denied else if !f then .notFrozen else .ok (s.readReg o + s.readReg (o + 4) * 2 ^ 32)
  | 1 => gated (s.probeSram o)
  | 2 => gated (s.probeCore o)
  | 3 =>
    if !d ∧ 0x30 ≤ o % 0x400 then .denied else if !f then .notFrozen else s.probeThread o d
  | 4 =>
    if o < 0xE0000 then .ok (ofLe (s.sepBytes o 8))
    else if o < 0x100000 then
      gated (.ok (field ((s.ldg.protArea[(o - 0xE0000) / 128]?).elim [] BRec.bytes) (o % 128) 8))
    else .denied
  | _ => .denied

/-- DDATA: 66 bits are captured, and DADDR moves on by 8. -/
def execDdata (s : State) : Result :=
  .next (
    let a := s.stest.daddr.toNat / 8 * 8
    let s1 := loadIr 0x12 { s with stest.daddr := s.stest.daddr + 8 }
    let put := fun (st v : Nat) (s : State) =>
      let w : BitVec 66 := BitVec.ofNat 66 (st * 2 ^ 64 + v % 2 ^ 64)
      emit (.tap w.toNat) { s with stest.ddata := w }
    match s.probe a with
    | .ok v => put 0 v s1
    | .denied => put 1 0 (count (kRec 11) s1)
    | .notFrozen => put 2 0 s1
    | .poison => put 3 0 s1
    | .open_ => let (v, s2) := drawFree s1; put 0 v s2)

/-- DBGEN: debug substitution, its Sepia record, and the reset that follows, unless DEBUG_LOCK is set (R309, R458). -/
def execDbgen (v : BitVec 32) (s : State) : Result :=
  .next (
    let s1 := loadIr 0x13 s
    if v ≠ 0xDB6E0001 ∨ s.debugLock ∨ s.woad.debugSub ∨ !s.cpm.porstN then s1
    else
      let s2 := (scrub (fun _ _ => true) { s1 with woad.debugSub := true, woad.pending := [] }).2
      let s3 := closeSessions (fun _ => true) s2
      { sepWrite 0x0005 (zeroBytes 8) s3 with stest.debugDue := true, cpm.resetDue := some 3 })

/-- FRZRST: ends a freeze through internal reset (R454). -/
def execFrzrst (v : BitVec 32) (s : State) : Result :=
  .next (
    let s1 := loadIr 0x14 s
    if v = 0x46525A52 ∧ s.stest.frozen then { s1 with cpm.resetDue := some 3 } else s1)

/-- BYPASS. -/
def execBypass (s : State) : Result := .next (emit (.tap 0) (loadIr 0x3F s))

end Sys2Proof.Machine
end

