-- ==== Sys2Proof/Machine/Reset.lean ====
section
/-! DEFINITION. Reset of the switched domains: what it leaves, OFF, and reset release (R399, R401, R417, R343; log 86 to 88). -/

namespace Sys2Proof.Machine

/-! ## What a reset of the switched domains leaves -/

/-- Lake's durable content; buffers and what had not landed are lost. Changes of the maps that tags show again stay; HEACK and trims that no flush had
made durable are undone, a chunk written since the trim excepted (R229, R230). -/
def Lake.kept (l : Lake) : Lake :=
  let back := l.trimmed.filter fun e => (l.vol.find e.1).isNone
  { l with ready := false, rebuild := false, inited := false, wpHigh := false, geom := {}, factoryBad := [], absent := [], mjStaged := [], mjChunks := 0
           mjOpened := [], mjDue := false, lastFlush := 0, heack := l.heackDur, trimmed := []
           vol := back.foldl (fun m e => m.ins e.1 e.2.2) l.vol
           maps := back.foldl (fun m e => match e.2.1 with | some a => m.ins (mapKey 7 e.1) a | none => m) l.maps
           lastCkpt := 0, ckptMj := l.mjseq, log := l.log.filter (·.landed), creditsUsed := 0, gcAct := false, volPend := [], stepReads := [], rebuildMs := 0
           parity := [], fetch := [], patrolAt := 0, patrolPos := 0, lastZq := 0, lunSel := 0, cntSel := 0 }

/-- The ledger as durable: working data is read back from it, records not landed are lost (R183, R177). -/
def Ldg.kept (g : Ldg) : Ldg :=
  let cut := match firstWhere (fun (r : JRec) => !r.landed) g.jq with | some r => (r.jseq, r.pos) | none => (g.jseq, g.jpos)
  { Ldg.reset with
    live := g.dur, dur := g.dur, jseq := cut.1, jpos := cut.2, jlog := g.jlog.filter fun r => decide (r.jseq < cut.1)
    bseq := (match g.dur.blog.head? with | some b => b.bseq | none => 0), evalT := g.dur.blog.foldl (fun n b => max n b.until) 0
    outages := g.outages, pfailAt := g.pfailAt, nkeep := g.nkeep, stepFrom := g.stepFrom, stepTo := g.stepTo, span := g.span
    protArea := g.protArea, protect := g.protect, sealed := g.sealed, unseals := g.unseals, pin := g.pin, unsealDue := g.unsealDue }

/-- Woad: the durable key table, and DEBUGSUB until power goes (R309, R320). -/
def Woad.kept (w : Woad) : Woad :=
  { Woad.reset with debugSub := w.debugSub, durSlots := w.durSlots, durBcast := w.durBcast, durCfloor := w.durCfloor, durHw := w.durHw }

/-- The BOOT field of the anchor and the slots; campaigns come back with the key table (R421, R435). -/
def Upd.kept (u : Upd) : Upd :=
  { u with actT := 0, window := 0, lastRef := 0, recovery := false, rcrc := 0, rstat := 0, rwin := [], runits := [], camps := [], cntSel := 0 }

/-- What had landed of the event ring is durable; the rest and staged records are lost (R442). -/
def Recorder.kept (r : Recorder) : Recorder := { r with ring := r.ring.filter (·.landed), staged := [], dropped := 0, clearing := none, clears := [] }

/-- Ochre's own state; the CPM registers return to their reset values (Table 15-10). -/
def Cpm.kept (c : Cpm) : Cpm :=
  { c with vidTarget := 10, vidCode := 10, vidAt := 0, replay := false, wakeSrc := 0, latched := none, vspan := 0, vrefuse := 0
           cntSel := 0, drain := .none, resetDue := none, cold := false, gpioOut := 0, gpioOe := 0, iso := none }

/-- Self-test, freeze and TAP: FULLNEXT and a due DEBUG_ENABLED record stand, SB95 and units out of service for the power cycle (R451,
R453, R458). -/
def SelfTest.kept (x : SelfTest) : SelfTest :=
  { SelfTest.reset with fullNext := x.fullNext, debugDue := x.debugDue, sramStopped := x.sramStopped, unitsOut := x.unitsOut
                        ir := x.ir, daddr := x.daddr }

/-- What a line port keeps in its tables: routes with their CURTMI, tone maps, MCNT (R129). -/
def LPort.kept (x : LPort) : LPort :=
  { routes := x.routes, rxmaps := x.rxmaps, oldMaps := x.oldMaps, issued := x.issued, mcnt := x.mcnt
    links := (x.links.filter fun e => decide (e.1 < 0x4000)).map fun e => (e.1, { mode := e.2.mode }) }

/-- The reset of the switched domains: everything volatile at its reset value, what eMRAM, OTP, NAND and Ochre hold kept. -/
def wiped (s : State) : State :=
  { State.reset with
    ctr := s.ctr, otp := s.otp, sepia := s.sepia, evr := s.evr.kept, stest := s.stest.kept, woad := s.woad.kept
    lm := { ports := s.lm.ports.mapVals LPort.kept, portSel := 0 }, ldg := s.ldg.kept, lake := s.lake.kept, upd := s.upd.kept
    cpm := s.cpm.kept, cas := { Cas.reset with twinRestart := s.cas.twinRestart }
    glb := { Glb.reset with clkSrc := s.glb.clkSrc, clkLostAt := s.glb.clkLostAt, spareBank := if s.stest.sramStopped then s.glb.spareBank else 0x7F
                            reloc := if s.stest.sramStopped then s.glb.reloc else .none }
    tmu := { Tmu.reset with sec := s.tmu.sec, ns := s.tmu.ns, clkFault := s.glb.clkSrc }
    out := s.out, free := s.free, pending := s.pending }

/-! ## OFF -/

/-- Live counters that Ochre keeps through OFF: those of the CPM block (log 86). -/
def State.ochreCtr (s : State) : Map (BitVec 64) := s.ctr.keep fun k _ => decide (kCpm 0 ≤ k ∧ k < kCpm 16)

/-- A pulse under way is clamped to its idle level; levels are held (Table 15-6a). -/
def clampPulses (s : State) : State :=
  let idle := fun (p : BitVec 4) (e : Nat × Nat × Bool) =>
    let bit := BitVec.ofNat 4 (2 ^ e.1)
    if e.2.2 then p ||| bit else p &&& ~~~ bit
  { s with tmu.pulse := s.tmu.pulseEnd.foldl idle s.tmu.pulse, tmu.pulseEnd := [] }

/-- What the isolation cells hold as a domain's power falls: the holds of R391 end before the clamps apply (R405). -/
def State.clamped (s : State) : BitVec 4 × BitVec 16 × BitVec 16 :=
  let s1 := { clampPulses s with cas.holdB := none }
  (s1.pulseOut, s1.gpioDrive)

/-- The switched domains lose power; `cause` is the LASTRST code of the release to come: 0 where Ochre goes into reset with them, else the
isolation cells hold the outputs (R399, R405, R412, R419). -/
def goOff (cause : Nat) (s : State) : State :=
  let w := wiped s
  { w with
    glb := { Glb.reset with mode := .off }, tmu.clkFault := false, ctr := s.ochreCtr
    stest.sramStopped := false, stest.unitsOut := []
    cpm.iso := if cause = 0 then none else some s.clamped
    cpm.cause := cause, cpm.pgood := false, cpm.pwrenCore := false, cpm.pwrenNand := false, cas.twinRestart := none }

/-! ## Counters in eMRAM (R417, R448) -/

/-- The counter copies are rewritten: the older one takes the counts with the next CSEQ. -/
def saveCounts (s : State) : State :=
  let (a, b) := s.sepia.copies
  let n : CtrCopy := { opmin := s.cpm.opmin, pcycle := s.cpm.pcycle, cseq := (if a.cseq.ult b.cseq then b.cseq else a.cseq) + 1 }
  { s with sepia.copies := if a.cseq.ult b.cseq then (n, b) else (a, n) }

/-- OPMIN_SATURATED or PCYCLE_SATURATED, once, when the Host Port can take it. -/
def satNotices (s : State) : State :=
  let s1 := if s.cpm.opmin = 0xFFFFFFFF ∧ !s.cpm.opminPosted ∧ s.powered then
    postNotice 0x0D03 1 [] { s with cpm.opminPosted := true } else s
  if s1.cpm.pcycle = 0xFFFFFFFF ∧ !s1.cpm.pcyclePosted ∧ s1.powered then
    postNotice 0x0D04 1 [] { s1 with cpm.pcyclePosted := true } else s1

/-! ## Reset release -/

/-- The latest TAI second recorded durably in Lake: the last boundary T or the last map checkpoint (R343). -/
def State.durableTime (s : State) : Nat := max (match s.ldg.dur.blog.head? with | some b => b.t | none => 0) s.lake.ckptTime

/-- The outage that a power failure began ends with this release (R172). -/
def endOutage (s : State) : State :=
  match s.ldg.pfailAt with
  | some a => { s with ldg.pfailAt := none, ldg.outages := ((a, s.nowNs) :: s.ldg.outages).take 16 }
  | none => s

/-- MORDANT_UNSEALED for an unseal that Ochre wrote while the switched domains could not post it (R188). -/
def postUnseal (s : State) : State :=
  match s.ldg.unsealDue with
  | some b => postNotice 0x0505 0 (le 4 s.ldg.unseals ++ le 1 b) { s with ldg.unsealDue := none }
  | none => s

/-- Ochre releases the internal reset: LASTRST, the first time value, the power-cycle count, BRING-UP with the boot ROM on thread 0.
`ochre`: the TAI ns of Ochre's SLOWCLK time, used unless Ochre lost power (R343, R399, R417, R241). -/
def release (cause ochre : Nat) (old : Option Mode) (s : State) : State :=
  let s1 := { wiped s with glb.mode := .bringup }
  let s2 := { s1 with cpm.lastRst := cause, cpm.ochreWarm := if cause < 3 then decide (1 ≤ cause) else s.cpm.ochreWarm, cpm.cause := 0, cpm.pgood := true
                      cpm.pwrenCore := true, cpm.pwrenNand := true }
  let s3 := endOutage (setTime (if cause = 0 then s2.durableTime * 1000000000 else ochre) s2)
  let s4 := if cause = 3 then s3
    else satNotices (saveCounts { s3 with cpm.pcycle := if s3.cpm.pcycle = 0xFFFFFFFF then s3.cpm.pcycle else s3.cpm.pcycle + 1 })
  postUnseal (match old with
    | some m => if m = .bringup ∧ !s.glb.reduced then s4 else postNotice 0x0105 1 (le 1 m.code ++ le 1 1 ++ le 1 0) s4
    | none => s4)

end Sys2Proof.Machine
end

