-- ==== Sys2Proof/Machine/Boot.lean ====
section
/-! DEFINITION. The boot ROM and the restore: lifecycle, self-test, slot selection, loads, Lake's rebuild and the replays (R406 to R408, R432, R450, R230, R156, R177). -/

namespace Sys2Proof.Machine

/-! ## Lifecycle (R307) -/

/-- MFG's CRC is good and DR is written; otherwise the part does not leave the boot ROM. -/
def State.rootsOk (s : State) : Bool := crc32c (s.otpBytes 0 60) == s.otpField 60 4 && !zeros (s.otpBytes 0x40 32) 0 32

/-- Woad fixes the lifecycle state: the lowest usable OWNER slot is the active owner. Under debug substitution the test owner root
stands for an owner's, unless every slot is revoked (R309, log 134). -/
def fixLife (s : State) : State :=
  match firstWhere (fun n => s.ownerUsable n) (List.range 4) with
  | some n => { s with woad.life := .owned, woad.owner := n }
  | none => { s with woad.life := if s.otpField 0x280 4 % 16 = 15 then .decommissioned else if s.woad.debugSub then .owned else .provisioned }

/-! ## Self-test (R450, R451) -/

/-- The boot ROM halts: Ochre writes SELFTEST_FAIL with the failed items. -/
def haltRom (mask : BitVec 32) (s : State) : State :=
  count (kRec 9) (sepWrite 0x010A (zeroBytes 4 ++ le 4 mask.toNat) { s with stest.halt := true, stest.failed := mask, stest.result := true })

/-- Items of the power-on test that halt: 0 to 4, 6 and 7. Items that only the full test adds: 5, 10 and 11. -/
def powerOnItems : BitVec 32 := 0xDF
def fullItems : BitVec 32 := 0xC20

/-- Fabric links that fail their loopback are marked failed, and bring-up goes on (R450); a part whose fabric they cut writes its Sepia
record and acks nothing (R16, log 79). -/
def loopback (l : List Nat) (s : State) : State :=
  let s1 := l.foldl (fun s k => markFailed k s) s
  if !s1.glb.cut ∧ !l.isEmpty ∧ fabCut s1.failedLinks then cutFabric s1 else s1

/-- The full test: one failing bank is remapped to SB95 for the power cycle, any other failure halts; reported with SCOPE 0. -/
def fullTest (b : BootIn) (s : State) : State :=
  let items := b.fails.setWidth 32 &&& fullItems
  let mask := items ||| (if b.banks.isEmpty then 0 else 0x200)
  let s1 := reportTest 0 mask { s with stest.fullNext := false }
  match b.banks with
  | [] => if items = 0 then s1 else haltRom mask s1
  | [k] =>
    if items = 0 ∧ k.val < 95 then
      { s1 with glb.spareBank := k.val, glb.reloc := .active, stest.sramStopped := true }
    else haltRom mask s1
  | _ => haltRom mask s1

/-! ## Recovery (R433, R464) -/

/-- The boot ROM enters recovery. -/
def enterRecovery (s : State) : State := { s with upd.recovery := true }

/-! ## Slot selection (R432, R421) -/

/-- A slot found LOADING becomes EMPTY, one found ARMED becomes VERIFIED; codes 9 to 15 count as FAILED. -/
def settleSlots (s : State) : State :=
  let u := s.upd
  let k := u.spare
  let st := u.slotSt k
  if st = 1 then { s with upd := { (u.withSlot k 0) with imglen := 0, units := u.units.keep fun n _ => n / 16384 != k } }
  else if st = 3 then { s with upd := u.withSlot k 2 }
  else if 9 ≤ st then { s with upd := u.withSlot k 8 }
  else s

/-- The image in a slot, as its header gives its length. -/
def State.slotImage (s : State) (k : Nat) : List Byte := s.slotBytes k (min (imgLen (s.slotBytes k 256)) 67108864)

/-- Slot `k` passes checks 2 to 5 of R424. -/
def State.slotOk (s : State) (k : Nat) : Bool := (imageCheck (s.slotImage k) s).isNone

/-- The slot to boot and the state after the anchor writes of R432; `none` is recovery. -/
def chooseSlot (s : State) : Option Nat × State :=
  let a := s.upd.active
  let trial := s.upd.slotSt a = 4
  let s1 := if trial then
      if s.upd.tries = 3 then fallBackTo a s else anchorUpdate { s with upd.tries := s.upd.tries + 1 }
    else s
  let k := s1.upd.active
  let o := s1.upd.spare
  if s1.slotOk k then (some k, s1)
  else if s1.upd.slotSt o = 6 ∧ s1.slotOk o then (some o, fallBackTo k s1)
  else (none, s1)

/-! ## Loads (R155, R320, R407) -/

/-- The key table as durable; none under debug substitution, whose KW unwraps no blob. Durable tombstones commit, and BSEQ resumes above HW (R317, R320, R325). -/
def loadKeys (s : State) : State :=
  if s.woad.debugSub ∨ s.woad.life ≠ .owned then s
  else
    let base := { s with
      woad.slots := s.woad.durSlots.mapVals fun k => { k with tomb := false, epmin := k.epminNext.getD k.epmin, epminNext := none }
      woad.bcast := s.woad.durBcast, woad.cfloor := s.woad.durCfloor, woad.bseq := s.woad.durHw, woad.hw := s.woad.durHw }
    let dead := (s.woad.durSlots.filter fun e => e.2.tomb).map (·.1)
    dead.foldl (fun s i =>
      let b := s.woad.bcast
      let hit := decide ((s.keySlot b.slot).st = .active) && (s.keySlot b.slot).amask.getLsbD i
      { s with woad.slots := orphanSlots i s.woad.slots, woad.bcast := if b.valid ∧ hit then { b with valid := false } else b }) base

/-- The directory from its bank copies and the journal's directory records (R155 steps 1 and 2). -/
def loadDir (s : State) : State :=
  let mhs := (s.lake.banks.flatMap fun e => e.2.entries.map (·.1)) ++ s.ldg.dur.dirLog.map (·.mh)
  { s with ing.dir := mhs.foldl (fun m mh => m.put {} mh (s.loaded mh)) [], ing.restore := true, ing.dirload := true }

/-- The RP0 descriptor, the cascade configuration, the partition map and the campaign records of the newest bank copy (R378, R407, R435). -/
def loadPorts (s : State) : State :=
  let s1 := { s with cas.partMap := s.lake.partMap, upd.camps := s.lake.camps }
  let s2 := match s1.lake.casCfg with | some (roles, pair) => putCasConfig roles pair s1 | none => s1
  match s2.lake.rp0 with | some d => putDesc 0 d s2 | none => s2

/-- The time-source policy in force. -/
def loadPolicy (s : State) : State :=
  match s.ldg.dur.policy with
  | some (a, r, h, m) => { s with tmu.policy := { allowed := a, stepRole := r, maxHold := h, maxStep := m } }
  | none => s

/-- The verified slot is started: directory and keys, memories, ports, entry 0 at SYSTEM. -/
def startSlot (k : Nat) (s : State) : State :=
  let s1 := loadDir (loadKeys (loadPolicy s))
  let s2 := { s1 with glb.slot := k != 0, lake.rebuild := true, ldg.replay := true }
  loadPorts (loadImage (s2.slotImage k) s2)

/-- The boot ROM from the NAND on. -/
def bootNand (b : BootIn) (s : State) : State :=
  match s.geomOf b.nand with
  | none => enterRecovery s
  | some g =>
    if !s.profileOk then enterRecovery s
    else
      let s1 := nandInit b.nand g s
      if !s1.lake.formatted then enterRecovery s1
      else if 1 < s1.upd.active then enterRecovery { s1 with lake.rebuild := true }
      else match chooseSlot (settleSlots s1) with
        | (some k, s2) => startSlot k s2
        | (none, s2) => enterRecovery { s2 with lake.rebuild := true }

/-- The boot ROM runs on thread 0: reset has been released, and nothing has ended it yet. -/
def State.inRom (s : State) : Bool :=
  s.glb.mode == .bringup && !s.stest.frozen && !s.stest.halt && !s.upd.recovery && s.mcc.image.isNone && s.woad.life == .unfixed

/-- BOOT: lifecycle and seal pin, power-on test, full test where asked for, then recovery by strap, or the NAND. -/
def execBoot (b : BootIn) (s : State) : Result :=
  .next (
    if !s.inRom ∨ !s.rootsOk then s
    else
      let s1 := { fixLife s with ldg.pin := b.sealHigh }
      let s2 := if s1.ldg.sealed ∧ b.sealHigh then unsealNow 1 s1 else s1
      let bad := b.fails.setWidth 32 &&& powerOnItems
      if bad ≠ 0 then haltRom bad s2
      else
        let s3 := loopback (b.links.map (·.val)) s2
        let s4 := if s3.stest.fullNext then fullTest b s3 else s3
        if s4.stest.halt then s4
        else if s4.cpm.strap then enterRecovery s4
        else bootNand b s4)

/-! ## The rebuild and the replays (R230, R177, R156) -/

/-- Passed boundary instants are committed with REPLAYED; LEDGER_BOUNDARY_REPLAYED gives the first and last BSEQ written. -/
def replayRestore (s : State) : State :=
  let from_ := s.ldg.bseq
  let s1 := replayBoundaries s.nowS s
  let s2 := if s1.ldg.bseq = from_ then s1 else postNotice 0x0503 0 (le 8 (from_ + 1) ++ le 8 s1.ldg.bseq) s1
  { s2 with ldg.sweeping := s2.ldg.sweeping || s2.ldg.live.meters.keys.any s2.behind, ldg.sweepNext := 0 }

/-- LAKE_REBUILD: Lake is READY, the bring-up buffer is whole again, and the ledger's replay has run on the unit that is active. -/
def execLakeRebuild (ms : BitVec 32) (s : State) : Result :=
  .next (
    if !(s.lake.rebuild && s.lake.inited && s.lake.formatted && s.coresRun && s.mcc.image.isSome) then s
    else
      let old := s.lake.bring.filter fun x => !s.ing.staging.contains x
      let s1 := postNotice 0x0701 1 (le 4 ms.toNat) { s with
        lake.rebuild := false, lake.ready := true, lake.rebuildMs := ms.toNat, ing.staging := old ++ s.ing.staging }
      let closed := (s1.lake.stripes.filter fun x => x.2.st == 1).map (·.1)
      let s2 := s1.lake.absent.foldl (fun s i => failLun i s) (finishStripes closed [] s1)
      let s2 := if s2.activeUnit then replayRestore s2 else s2
      let s3 := if s2.lake.protect ∨ s2.ldg.protArea.isEmpty then s2 else moveProtected s2
      enterService { s3 with ldg.replay := false })

/-- RESTORE_REPLAY_DONE: buffered frames are tested again and booked or discarded (R156). -/
def execRestoreReplayDone (s : State) : Result :=
  .next (if s.ing.restore ∧ s.lake.ready ∧ s.coresRun then enterService (restoreDone s) else s)

end Sys2Proof.Machine
end

