-- ==== Sys2Proof/Machine/Power.lean ====
section
/-! DEFINITION. The power sequence, HOLD-UP, VIGIL, internal reset, CORE_VID, operating minutes, temperature, freeze (R398 to R417, R454, R464, R480). -/

namespace Sys2Proof.Machine

/-! ## Supplies and outputs by mode (Table 15-5, Table 15-6a) -/

/-- VDD_CORE in mV: 0.70 V and 10 mV a code while PWREN_CORE is high (R402, R403). -/
def State.coreMv (s : State) : Option Nat := if s.cpm.pwrenCore then some (700 + 10 * s.cpm.vidCode.toNat) else none

/-- Body bias in mV, forward positive: of the switched logic, and in VIGIL of Ochre and the retention latches (Table 15-5). -/
def State.bodyBias (s : State) : Int :=
  match s.glb.mode with
  | .service | .standby => if s.cpm.cold then 50 else 0
  | .vigil => -150
  | _ => 0

/-- SRAM arrays in mV; none while they are off (Table 15-5, R404). -/
def State.sramMv (s : State) : Option Nat :=
  match s.glb.mode with
  | .off => none
  | .vigil => some 580
  | _ => some 800

/-- SRAM read and write assist are on (Table 15-5). -/
def State.sramAssist (s : State) : Bool :=
  match s.glb.mode with
  | .bringup | .holdup => true
  | .service | .standby => decide (s.cpm.vidCode.toNat ≤ 5)
  | .off | .vigil => false

/-- Outputs of a domain are under the isolation cells (R405). -/
def State.isolated (s : State) : Bool := s.glb.mode == .vigil || s.cpm.iso.isSome

/-- The level of LPn_CAL: low in reset, on a port not enabled, and isolated (Table 15-6a, R128). -/
def State.calPin (s : State) (p : Nat) : Bool := s.powered && (s.lport p).desc.enable && (s.lport p).calAt.isSome

/-- The level of NANDn_WP_N: low in reset and isolated, where VDDQ_NAND is present; none without it (Table 15-6a). -/
def State.nandWpPin (s : State) : Option Bool := if s.cpm.pwrenNand then some (s.powered && s.lake.wpHigh) else none

/-- Transmitters in electrical idle: the PCIe lanes, cascade port `p`, the lane of MAC `m` (Table 15-6a). -/
def State.pcieIdle (s : State) : Bool := !s.powered || s.stest.frozen
def State.casIdle (s : State) (p : Nat) : Bool := !s.powered || s.stest.frozen || (s.cport p).role == 0
def State.macIdle (s : State) (m : Nat) : Bool := !s.powered || s.stest.frozen || !(s.mac m).cfgok

/-! ## Power-up (R401, Table 15-4) -/

/-- Ochre raises the enables with CORE_VID at 10. -/
def enablePower (s : State) : State :=
  { s with cpm.pwrenCore := true, cpm.pwrenNand := true, cpm.pgood := false, cpm.vidCode := 10, cpm.vidTarget := 10 }

/-- POWER_ON: PORST_N rises; GPIO[0] is sampled, and Ochre, which had been in reset, starts the sequence (R400, R464). A part that samples TEST_N low
at the rise stays in reset as it was (R465). `gpio`: the levels at the GPIO balls; `testN`: the level at TEST_N. -/
def execPowerOn (gpio : BitVec 16) (testN : Bool) (s : State) : Result :=
  .next (
    if s.cpm.porstN ∨ !testN then s
    else enablePower { s with cpm.porstN := true, cpm.cause := 0, cpm.gpioIn := gpio, cpm.strap := gpio.getLsbD 0 })

/-- PGOOD_RISE: PGOOD goes high, the PLL locks and reset is released. `ochre`: TAI ns of Ochre's time. -/
def execPgoodRise (ochre : Nat) (s : State) : Result :=
  .next (
    if s.glb.mode = .off ∧ s.cpm.porstN ∧ s.cpm.pwrenCore then release s.cpm.cause ochre none s else s)

/-- PGOOD_TIMEOUT: not high 20 ms after PWREN_CORE rose. -/
def execPgoodTimeout (s : State) : Result :=
  .next (
    if s.glb.mode = .off ∧ s.cpm.porstN ∧ s.cpm.pwrenCore ∧ !s.cpm.pgood then
      count (kCpm 9) (sepWrite 0x0107 (zeroBytes 8) { s with cpm.pwrenCore := false, cpm.pwrenNand := false })
    else s)

/-- PGOOD_RETRY: 1 s after the timeout the power-up is tried again. -/
def execPgoodRetry (s : State) : Result :=
  .next (
    if s.glb.mode = .off ∧ s.cpm.porstN ∧ !s.cpm.pwrenCore ∧ !s.cpm.pfail then enablePower s else s)

/-- SLOWCLK_FAIL: no edge for 1 ms; Ochre keeps time from its internal oscillator. -/
def execSlowclkFail (s : State) : Result :=
  .next (
    if s.cpm.porstN ∧ !s.cpm.slowFail then sepWrite 0x0107 (le 1 1 ++ zeroBytes 7) { s with cpm.slowFail := true } else s)

/-- PORST_ASSERT: the whole part, Ochre included, is held in reset; nothing is flushed, DEBUGSUB and a latched THERMTRIP clear (R400, R412, R458, R480). -/
def execPorstAssert (s : State) : Result :=
  .next (
    if !s.cpm.porstN then s
    else
      let w := goOff 0 s
      { w with
        ctr := [], woad.debugSub := false, stest.debugDue := false, stest.fullNext := false
        cpm.porstN := false, cpm.slowFail := false, cpm.vreq := false, cpm.pfail := false, cpm.tempTrip := false
        cpm.tempMax := 0, cpm.tempNow := 0, cpm.tempSeen := false, ldg.unsealDue := none, ldg.pfailAt := none })

/-! ## HOLD-UP (R410 to R412) -/

/-- Key-table changes under way commit at once (R319). -/
def commitKeys (s : State) : State :=
  let tombs := (s.woad.slots.filter fun e => e.2.tomb).map (·.1)
  let raises := s.woad.slots.filterMap fun (e : Nat × KeySlot) => e.2.epminNext.map fun v => (e.1, v)
  raises.foldl (fun s e => commitEpmin e.1 e.2 s) (tombs.foldl (fun s i => commitTomb i s) s)

/-- The Sepia POWER_FAIL record, the counter copies with it (R411, R448). -/
def powerFailRecord (mode : Mode) (vigil frozen : Bool) (s : State) : State :=
  saveCounts (sepWrite 0x0101 (le 1 mode.code ++ le 1 (flag vigil) ++ le 1 (flag frozen) ++ zeroBytes 5) s)

/-- Entry to HOLD-UP: FAIL and held outputs on the active unit of a pair; transmission, reception, threads and fetches stop; the flush begins. -/
def enterHoldup (s : State) : State :=
  let old := s.glb.mode
  let s1 := if s.cas.paired && s.activeUnit then holdOutputs (sendFail s) else s
  let s2 := dropAir { s1 with cpm.drain := .none, cpm.resetDue := none, cpm.pfailAt := s.nowNs, ldg.pfailAt := some s.nowNs, stest.running := false }
  let s3 := setMode .holdup false s2
  count (kCpm 0) (powerFailRecord old false false { commitKeys s3 with cpm.vidCode := 5, cpm.vidTarget := 5 })

/-- HOLDUP_ENTRY: a PFAIL_N fall is qualified: HOLD-UP, or from VIGIL and while frozen OFF at once (R410, R412, R455). -/
def execHoldupEntry (s : State) : Result :=
  .next (
    if !s.cpm.porstN ∨ s.cpm.pfail then s
    else
      let s1 := { s with cpm.pfail := true }
      match s.glb.mode with
      | .off => { s1 with cpm.pwrenCore := false, cpm.pwrenNand := false }
      | .holdup => s1
      | .vigil => goOff 2 (powerFailRecord .vigil true false { s1 with ldg.pfailAt := some s.nowNs })
      | m =>
        if s.stest.frozen then goOff 1 (powerFailRecord m false true { s1 with ldg.pfailAt := some s.nowNs })
        else enterHoldup s1)

/-- The flush of R236 with the key table; steps that need the anchor are skipped while it is not found (R412). -/
def holdupFlush (s : State) : State :=
  if !s.lake.inited ∨ !s.lake.formatted then { s with lake.wpHigh := false }
  else
    let s1 := if s.lake.ready ∧ !s.woad.debugSub then landKeyTable s else s
    { flushLake s1 with lake.wpHigh := false }

/-- HOLDUP_FLUSH_COMPLETE: with PFAIL_N low the supplies go and CPM_HOLDUP records how long it took; with PFAIL_N high the part passes
through internal reset (`high`: the level at the ball; `ochre`: Ochre's time). -/
def execHoldupFlushComplete (high : Bool) (ochre : Nat) (s : State) : Result :=
  .next (
    if s.glb.mode ≠ .holdup then s
    else
      let s1 := holdupFlush s
      if high then
        release 4 ochre (some .holdup) (count (kCpm 1) { s1 with cpm.pfail := false })
      else goOff 1 { s1 with cpm.holdup := BitVec.ofNat 32 (sat32 ((s.nowNs - s.cpm.pfailAt) / 1000)) })

/-- POWER_RESTORED: PFAIL_N has been high for 100 ms; with Ochre powered through an OFF, the power-up begins (R399, R400). -/
def execPowerRestored (s : State) : Result :=
  .next (
    if !s.cpm.porstN then s
    else
      let s1 := { s with cpm.pfail := false }
      if s.glb.mode = .off ∧ s.cpm.cause ≠ 0 ∧ !s.cpm.pwrenCore then enablePower s1 else s1)

/-! ## VIGIL (R413 to R416) -/

/-- A refused request (CPM_VREFUSE). -/
def refuseVigil (why : Nat) (s : State) : State := count (kCpm 5) { s with cpm.vrefuse := why }

/-- VIGIL_REQUEST: VIGIL_REQ_N has been low for 1 ms after a high level: refused, or the drain starts. -/
def execVigilRequest (s : State) : Result :=
  .next (
    if s.cpm.vreq ∨ !s.cpm.porstN then s
    else
      let s1 := { s with cpm.vreq := true }
      if s.glb.mode = .off ∨ s.glb.mode = .vigil ∨ s.stest.frozen then s1
      else if s.glb.mode ≠ .service then refuseVigil 1 s1
      else if s.cas.ports.any (fun p => p.2.role != 0) then refuseVigil 2 s1
      else if !s.lake.ready then refuseVigil 3 s1
      else if s.cpm.drain ≠ .none ∨ s.cpm.resetDue.isSome then s1
      else startDrain .vigil s1)

/-- The part comes back to SERVICE (Table 15-7): time from Ochre, rows passed as by a forward step, NAND again, kept frames first. -/
def wakeUp (src : Nat) (replay : Bool) (ochre : Nat) (s : State) : State :=
  let span := (ochre - s.cpm.vigilAt) / 1000000000
  let s1 := realignRows ochre (setTime ochre { nandAgain s with
    cpm.wakeSrc := src, cpm.replay := replay, cpm.latched := none, cpm.vspan := BitVec.ofNat 32 (sat32 span)
    cpm.pwrenCore := true, cpm.pwrenNand := true, cpm.pgood := true, cpm.vidCode := 10, cpm.vidTarget := 10
    macs := s.macs.mapVals fun x => { x with armed := false } })
  let s2 := if span < 60 then s1 else timeInvalid 3 s1
  let s3 := postUnseal (setMode .service false s2)
  let s4 := if s3.ledgerRuns then replayBoundaries s3.nowS s3 else s3
  countIf replay (kCpm 4) (count (kCpm 3) (deliverKept 1 (deliverKept 0 s4)))

/-- A MAC with an enabled pattern, or with WAKE_LINK, is armed; another powers down (R364). -/
def armMac (m : Nat) (s : State) : State :=
  let x := s.mac m
  let arm := x.cfgok && (!x.pats.isEmpty || match x.cfg with | some c => c.wakeLink | none => false)
  if arm then updMac m (fun x => { x with armed := true, pausedTill := none }) s else linkDown m s

/-- The commit begins: what Lake holds is durable, MODE_CHANGE, MACs armed, the PCIe link and the ports' links down. -/
def beginCommit (s : State) : State :=
  let s1 := setMode .vigil false (flushLake s)
  let s2 := armMac 1 (armMac 0 { s1 with cpm.drain := .commit })
  let s3 := resetHostPort s2
  clampPulses { s3 with
    hp.dlup := false, hp.width := 0, hp.speed := 0
    rla.ports := s3.rla.ports.mapVals fun x => { x with rxlink := false, goodRun := 0, missFrm := 0 }
    lm.ports := s3.lm.ports.mapVals fun x => { x with rxlink := false, goodRun := 0, missFrm := 0 } }

/-- What Ochre's latch and the armed MACs see during the commit (R416). -/
def commitEv (e : CommitEv) (s : State) : State :=
  match e with
  | .rise => latchWake 1 { s with cpm.vreq := false }
  | .linkUp m rate => (match execMacLinkUp m rate s with | .next t => t | _ => s)
  | .linkDown m => (match execMacLinkDown m false s with | .next t => t | _ => s)
  | .frame m f ok => (match execMacFrameReceive m f ok 0 s with | .next t => t | _ => s)

/-- VIGIL_COMMIT: the drain is complete; the commit ends in VIGIL, and a source latched meanwhile starts the wake at once with REPLAY. -/
def execVigilCommit (during : List CommitEv) (ochre : Nat) (s : State) : Result :=
  .next (
    if s.cpm.drain ≠ .vigil ∨ !s.coresRun then s
    else
      let s1 := during.foldl (fun s e => commitEv e s) { beginCommit s with cpm.latched := none }
      let s2 := count (kCpm 2) { s1 with
        cpm.drain := .none, cpm.vigilAt := s.nowNs, cpm.pwrenCore := false, cpm.pwrenNand := false, cpm.pgood := false
        lake.inited := false, lake.wpHigh := false }
      match s2.cpm.latched with
      | some src => wakeUp src true ochre s2
      | none => s2)

/-- VIGIL_WAKE: VIGIL_REQ_N rises (`rise`), or Ochre acts on a source latched from an armed MAC; a drain is cancelled, VIGIL ends. -/
def execVigilWake (rise : Bool) (ochre : Nat) (s : State) : Result :=
  .next (
    if !s.cpm.porstN then s
    else
      let s1 := if rise then { s with cpm.vreq := false } else s
      if s.cpm.drain = .vigil then (if rise then count (kCpm 6) { s1 with cpm.drain := .none } else s1)
      else if s.glb.mode = .vigil then
        let s2 := if rise then latchWake 1 s1 else s1
        match s2.cpm.latched with
        | some src => wakeUp src false ochre s2
        | none => s2
      else s1)

/-! ## Internal reset, freeze, CORE_VID, operating minutes, temperature -/

/-- INTERNAL_RESET: a reset that is due passes the part to BRING-UP, and ends a freeze (R399, R454). -/
def execInternalReset (ochre : Nat) (s : State) : Result :=
  .next (
    if !(s.glb.mode == .bringup || s.glb.mode == .service || s.glb.mode == .standby) then s
    else match s.cpm.resetDue with
    | some c => release c ochre (some s.glb.mode) s
    | none => s)

/-- FREEZE: a qualified FREEZE_N low stops every PLL-derived clock; Ochre records it, and holds class B outputs in a pair (Table 17-7). -/
def execFreeze (s : State) : Result :=
  .next (
    if s.stest.frozen ∨ !(s.glb.mode == .bringup || s.glb.mode == .service || s.glb.mode == .standby) then s
    else
      let s1 := if s.cas.paired && s.activeUnit then holdOutputs s else s
      count (kRec 10) (sepWrite 0x0108 (le 1 s.glb.mode.code ++ zeroBytes 7) { s1 with stest.frozen := true }))

/-- VID_STEP: one code toward the monitors' target, at least 100 µs apart, in SERVICE and STANDBY (R402). -/
def execVidStep (target : BitVec 4) (s : State) : Result :=
  .next (
    if !(s.glb.mode == .service || s.glb.mode == .standby) ∨ s.stest.frozen then s
    else
      let s1 := { s with cpm.vidTarget := target }
      let c := s.cpm.vidCode
      if target = c ∨ s.nowNs < s.cpm.vidAt + 100000 then s1
      else count (kCpm 7) { s1 with cpm.vidCode := if c < target then c + 1 else c - 1, cpm.vidAt := s.nowNs })

/-- OPMIN_TICK: an operating minute passes; the copies in eMRAM follow (R417, R448). -/
def execOpminTick (s : State) : Result :=
  .next (
    if !s.cpm.porstN then s
    else satNotices (saveCounts { s with cpm.opmin := if s.cpm.opmin = 0xFFFFFFFF then s.cpm.opmin else s.cpm.opmin + 1 }))

/-- THERMAL_SAMPLE: the junction sensors every 1 ms while the switched domains are powered; 125 °C latches THERMTRIP_N (R480). -/
def execThermalSample (t : BitVec 8) (s : State) : Result :=
  .next (
    if !s.powered then s
    else { s with
      cpm.tempNow := t, cpm.tempMax := if !s.cpm.tempSeen ∨ s.cpm.tempMax.toInt < t.toInt then t else s.cpm.tempMax
      cpm.tempSeen := true, cpm.tempTrip := s.cpm.tempTrip || decide (125 ≤ t.toInt), cpm.cold := decide (t.toInt < 0) })

end Sys2Proof.Machine
end

