-- ==== Sys2Proof/Machine/RegWrite.lean ====
section
/-! DEFINITION. A write to a BAR0 register (R8, R9, Table 0-4 and each block's register table). -/

namespace Sys2Proof.Machine

/-- A write into the MSI-X table, whose vector control has bit 0 alone; a vector unmasked with its pending bit set sends its message, as
PCIe defines. -/
def writeMsix (o : Nat) (v : BitVec 32) (s : State) : State :=
  let s1 := { s with hp.msix := writeBytes s.hp.msix o (le 4 (if o % 16 = 12 then v.toNat % 2 else v.toNat)) }
  let vec := o / 16
  if o % 16 = 12 then sendPending vec s1 else s1

/-- HP registers of the RW kind. -/
def writeHp (o : Nat) (v : BitVec 32) (s : State) : State :=
  let q := s.hp.qSel.toNat
  let lo := fun (b : BitVec 64) => (b &&& 0xFFFFFFFF00000000) ||| ((v &&& 0xFFFFF000).setWidth 64)
  let hi := fun (b : BitVec 64) => (b &&& 0xFFFFFFFF) ||| (v.setWidth 64 <<< 32)
  if 0x4000 ≤ o ∧ o < 0x4120 then writeMsix (o - 0x4000) v s
  else match o with
  | 0x008 => { s with hp.qSel := v.setWidth 4 }
  | 0x010 => updQueue q (fun x => { x with sqBase := lo x.sqBase }) s
  | 0x014 => updQueue q (fun x => { x with sqBase := hi x.sqBase }) s
  | 0x018 => updQueue q (fun x => { x with cqBase := lo x.cqBase }) s
  | 0x01C => updQueue q (fun x => { x with cqBase := hi x.cqBase }) s
  | 0x020 => queueCtl v s
  | 0x030 => { s with hp.nq.base := lo s.hp.nq.base }
  | 0x034 => { s with hp.nq.base := hi s.hp.nq.base }
  | 0x038 => nqCtl v s
  | 0x040 => { s with hp.cntSel := v.setWidth 5 }
  | _ => s

/-- Registers of UPD: CNT, and those of recovery, which take writes in recovery only (R433, R440). -/
def writeUpd (o : Nat) (v : BitVec 32) (s : State) : State :=
  if o = 0x030 then { s with upd.cntSel := v.setWidth 4 }
  else if !s.upd.recovery then s
  else if o = 0x040 then
    match bits v.toNat 31 28 with
    | 1 => storeUnit (bits v.toNat 11 0) s
    | 2 => verifyStart (bits v.toNat 11 0) s
    | _ => s
  else if o = 0x044 then { s with upd.rcrc := v }
  else if 0x1000 ≤ o ∧ o < 0x2000 then { s with upd.rwin := writeBytes s.upd.rwin (o - 0x1000) (le 4 v.toNat) }
  else s

/-- A write to an aligned BAR0 offset: each field does what its access code says (Table 0-4); RO fields and reserved offsets change
nothing. -/
def writeReg (a : Nat) (v : BitVec 32) (s : State) : State :=
  match a with
  | 0x00010 => if v.getLsbD 16 then { s with glb.nqOvf := false } else s
  | 0x00040 => if v.getLsbD 0 then startSnap s else s
  | 0x00020 => { s with glb.fabSel := v.setWidth 7 }
  | 0x04030 => { s with cpm.cntSel := v.setWidth 4 }
  | 0x04044 => { s with cpm.gpioOut := v.setWidth 16 }
  | 0x04048 => { s with cpm.gpioOe := v.setWidth 16 }
  | 0x10010 => { s with rla.laneSel := v.setWidth 8 }
  | 0x100A0 => { s with rla.dutySel := v.setWidth 6 }
  | 0x18010 => { s with lm.portSel := v.setWidth 2 }
  | 0x20010 => { s with ing.srcSel := v.setWidth 9 }
  | 0x20014 => { s with ing.codeSel := v.setWidth 6 }
  | 0x20020 => { s with ing.plSel := v.setWidth 6 &&& 0x37 }
  | 0x20040 => if v.getLsbD 31 then { s with ing.strangerOvf := false } else s
  | 0x28030 => { s with ldg.cntSel := v.setWidth 4 }
  | 0x2C020 => { s with bal.cntSel := v.setWidth 4 }
  | 0x30030 => { s with lake.cntSel := v.setWidth 5 }
  | 0x30040 => { s with lake.lunSel := v.setWidth 8 }
  | 0x38010 => { s with woad.slotSel := v.setWidth 6 }
  | 0x38020 => { s with woad.otpFail := s.woad.otpFail && !v.getLsbD 30 }
  | 0x38030 => { s with woad.cntSel := v.setWidth 5 }
  | 0x3C030 => { s with tmu.cntSel := v.setWidth 4 }
  | 0x40030 => updMac 0 (fun x => { x with cntSel := v.setWidth 5 }) s
  | 0x44030 => updMac 1 (fun x => { x with cntSel := v.setWidth 5 }) s
  | 0x48030 => { s with cas.portSel := (v >>> 5).setWidth 2, cas.cntSel := v.setWidth 5 }
  | 0x50010 => { s with mcc.thrSel := v.setWidth 8 }
  | 0x50030 => { s with mcc.cntSel := v.setWidth 5 }
  | 0x58020 => if v.getLsbD 31 then { s with stest.fullNext := true } else s
  | 0x58030 => { s with stest.cntSel := v.setWidth 4 }
  | 0x58040 => { s with stest.spPage := v.setWidth 8 }
  | _ =>
    if 0x8000 ≤ a ∧ a < 0x10000 then writeHp (a - 0x8000) v s
    else if 0x5C000 ≤ a ∧ a < 0x60000 then writeUpd (a - 0x5C000) v s
    else s

/-- REGISTER_WRITE: a BAR0 write of a whole DWORD. At an offset that is no multiple of 4 it changes nothing, and a read there gives 0:
R8, R9 and R21 are silent (DESIGN CHOICE, log 100). -/
def execRegisterWrite (addr : BitVec 20) (value : BitVec 32) (s : State) : Result :=
  .next (if s.barRuns && addr.toNat % 4 == 0 then writeReg addr.toNat value s else s)

end Sys2Proof.Machine
end

