-- ==== Sys2Proof/Machine/Dispatch.lean ====
section
/-! DEFINITION. One arm per command; a command without a meaning yet is rejected by name. -/

namespace Sys2Proof.Machine

/-- The effect of one command on everything but the queue. -/
def exec (i : Instr) (s : State) : Host.Outcome State Fault Refusal :=
  match i with
  | .refclkLoss unlock => Sys2Proof.Machine.execRefclkLoss unlock s
  | .refclkStable => Sys2Proof.Machine.execRefclkStable s
  | .pllRelock => Sys2Proof.Machine.execPllRelock s
  | .flitReceive link body err late => Sys2Proof.Machine.execFlitReceive link body err late s
  | .registerWrite addr value => Sys2Proof.Machine.execRegisterWrite addr value s
  | .glbSnap => Sys2Proof.Machine.execGlbSnap s
  | .snapCapture => Sys2Proof.Machine.execSnapCapture s
  | .nqOvfClear bit hwSet => Sys2Proof.Machine.execNqOvfClear bit hwSet s
  | .rxSampleWord port word frm => Sys2Proof.Machine.execRxSampleWord port word frm s
  | .syncDetect lane rate ma kepoch => Sys2Proof.Machine.execSyncDetect lane rate ma kepoch s
  | .layerReprocess lane layer => Sys2Proof.Machine.execLayerReprocess lane layer s
  | .radioFrameReceive lane layer bytes est => Sys2Proof.Machine.execRadioFrameReceive lane layer bytes est s
  | .ackLaunch lane => Sys2Proof.Machine.execAckLaunch lane s
  | .beaconBuild port => Sys2Proof.Machine.execBeaconBuild port s
  | .beaconLaunch port => Sys2Proof.Machine.execBeaconLaunch port s
  | .downlinkLaunch port lane at_ ticket => Sys2Proof.Machine.execDownlinkLaunch port lane at_ ticket s
  | .rxLinkUp port => Sys2Proof.Machine.execRxLinkUp port s
  | .radioLinkLoss port => Sys2Proof.Machine.execRadioLinkLoss port s
  | .radioLinkTimeout port => Sys2Proof.Machine.execRadioLinkTimeout port s
  | .radioLinkRealign port => Sys2Proof.Machine.execRadioLinkRealign port s
  | .radioTxStop port => Sys2Proof.Machine.execRadioTxStop port s
  | .radioTxResume port => Sys2Proof.Machine.execRadioTxResume port s
  | .rlaPortCfg t pi rt ra => Sys2Proof.Machine.execRlaPortCfg t pi rt ra s
  | .portDescriptorApply port => Sys2Proof.Machine.execPortDescriptorApply port s
  | .rlaQueue t pi rt ra => Sys2Proof.Machine.execRlaQueue t pi rt ra s
  | .rlaWithdraw t pi rt ra => Sys2Proof.Machine.execRlaWithdraw t pi rt ra s
  | .lineSampleWord port word frm => Sys2Proof.Machine.execLineSampleWord port word frm s
  | .lineLinkUp port => Sys2Proof.Machine.execLineLinkUp port s
  | .lineLinkLoss port => Sys2Proof.Machine.execLineLinkLoss port s
  | .lineLinkRealign port => Sys2Proof.Machine.execLineLinkRealign port s
  | .lineTxStop port => Sys2Proof.Machine.execLineTxStop port s
  | .lineTxResume port => Sys2Proof.Machine.execLineTxResume port s
  | .linePreambleDetect port pre => Sys2Proof.Machine.execLinePreambleDetect port pre s
  | .lineFcReceive port soft => Sys2Proof.Machine.execLineFcReceive port soft s
  | .lineFrameReceive port syms snr => Sys2Proof.Machine.execLineFrameReceive port syms snr s
  | .lineNbrReportReceive port syms snr => Sys2Proof.Machine.execLineNbrReportReceive port syms snr s
  | .lineTmapReceive port syms snr => Sys2Proof.Machine.execLineTmapReceive port syms snr s
  | .lineResponseLaunch port ready sugg => Sys2Proof.Machine.execLineResponseLaunch port ready sugg s
  | .lineAckFrameLaunch port => Sys2Proof.Machine.execLineAckFrameLaunch port s
  | .lineBackoffExpire port => Sys2Proof.Machine.execLineBackoffExpire port s
  | .lineResponseReceive port => Sys2Proof.Machine.execLineResponseReceive port s
  | .lineResponseWindowExpire port => Sys2Proof.Machine.execLineResponseWindowExpire port s
  | .lbeaconSend port => Sys2Proof.Machine.execLbeaconSend port s
  | .tmapIssue port lsa rate => Sys2Proof.Machine.execTmapIssue port lsa rate s
  | .tmapFree port tmi => Sys2Proof.Machine.execTmapFree port tmi s
  | .lmPortCfg t pi rt ra site sfcode sofs => Sys2Proof.Machine.execLmPortCfg t pi rt ra site sfcode sofs s
  | .lineDescriptorApply port => Sys2Proof.Machine.execLineDescriptorApply port s
  | .lmQueue t pi rt ra => Sys2Proof.Machine.execLmQueue t pi rt ra s
  | .lmCal t pi rt ra => Sys2Proof.Machine.execLmCal t pi rt ra s
  | .lmRouteRead t pi rt ra => Sys2Proof.Machine.execLmRouteRead t pi rt ra s
  | .lmRouteSet t pi rt ra => Sys2Proof.Machine.execLmRouteSet t pi rt ra s
  | .lmRouteFree t pi rt ra => Sys2Proof.Machine.execLmRouteFree t pi rt ra s
  | .calperiodExpire port => Sys2Proof.Machine.execCalperiodExpire port s
  | .calStart port => Sys2Proof.Machine.execCalStart port s
  | .calEnd port => Sys2Proof.Machine.execCalEnd port s
  | .calTimeout port => Sys2Proof.Machine.execCalTimeout port s
  | .campaignLinePump port => Sys2Proof.Machine.execCampaignLinePump port s
  | .dirLookup t pi rt ra => Sys2Proof.Machine.execDirLookup t pi rt ra s
  | .dirRead t pi rt ra => Sys2Proof.Machine.execDirRead t pi rt ra s
  | .dirInsert t pi rt ra => Sys2Proof.Machine.execDirInsert t pi rt ra s
  | .dirSet t pi rt ra => Sys2Proof.Machine.execDirSet t pi rt ra s
  | .dirEpoch t pi rt ra => Sys2Proof.Machine.execDirEpoch t pi rt ra s
  | .dirCmd t pi rt ra => Sys2Proof.Machine.execDirCmd t pi rt ra s
  | .dirRemove t pi rt ra => Sys2Proof.Machine.execDirRemove t pi rt ra s
  | .dirRelocation => Sys2Proof.Machine.execDirRelocation s
  | .dirCheckpoint bank => Sys2Proof.Machine.execDirCheckpoint bank s
  | .restoreReplayDone => Sys2Proof.Machine.execRestoreReplayDone s
  | .plausibilityCheck mh => Sys2Proof.Machine.execPlausibilityCheck mh s
  | .ingRules t pi rt ra => Sys2Proof.Machine.execIngRules t pi rt ra s
  | .ingSlotFill t pi rt ra => Sys2Proof.Machine.execIngSlotFill t pi rt ra s
  | .ingSlotFree t pi rt ra => Sys2Proof.Machine.execIngSlotFree t pi rt ra s
  | .ingStranger t pi rt ra => Sys2Proof.Machine.execIngStranger t pi rt ra s
  | .ingBackoff t pi rt ra => Sys2Proof.Machine.execIngBackoff t pi rt ra s
  | .strangerOvfClear w => Sys2Proof.Machine.execStrangerOvfClear w s
  | .ledgerBooking mh => Sys2Proof.Machine.execLedgerBooking mh s
  | .ledgerBoundary => Sys2Proof.Machine.execLedgerBoundary s
  | .ledgerCloseSweep => Sys2Proof.Machine.execLedgerCloseSweep s
  | .journalDurable => Sys2Proof.Machine.execJournalDurable s
  | .ldgRead t pi rt ra => Sys2Proof.Machine.execLdgRead t pi rt ra s
  | .calendarStage t pi rt ra => Sys2Proof.Machine.execCalendarStage t pi rt ra s
  | .forceScheduleWrite t pi rt ra => Sys2Proof.Machine.execForceScheduleWrite t pi rt ra s
  | .timePolicyWrite t pi rt ra => Sys2Proof.Machine.execTimePolicyWrite t pi rt ra s
  | .mordantSeal t pi rt ra => Sys2Proof.Machine.execMordantSeal t pi rt ra s
  | .mordantSealEffect => Sys2Proof.Machine.execMordantSealEffect s
  | .mordantUnseal high => Sys2Proof.Machine.execMordantUnseal high s
  | .clockSetBack t pi rt ra => Sys2Proof.Machine.execClockSetBack t pi rt ra s
  | .clockStepApply => Sys2Proof.Machine.execClockStepApply s
  | .rebase t pi rt ra => Sys2Proof.Machine.execRebase t pi rt ra s
  | .finalClose t pi rt ra => Sys2Proof.Machine.execFinalClose t pi rt ra s
  | .balSet t pi rt ra => Sys2Proof.Machine.execBalSet t pi rt ra s
  | .balRead t pi rt ra => Sys2Proof.Machine.execBalRead t pi rt ra s
  | .balConfig t pi rt ra => Sys2Proof.Machine.execBalConfig t pi rt ra s
  | .balanceBooking mh => Sys2Proof.Machine.execBalanceBooking mh s
  | .balanceClose => Sys2Proof.Machine.execBalanceClose s
  | .balanceNodeSave => Sys2Proof.Machine.execBalanceNodeSave s
  | .balancePartialReceive port node in_ out_ nmeter ncov flags tamp => Sys2Proof.Machine.execBalancePartialReceive port node in_ out_ nmeter ncov flags tamp s
  | .balanceStackJudge => Sys2Proof.Machine.execBalanceStackJudge s
  | .balancePartialTimeout => Sys2Proof.Machine.execBalancePartialTimeout s
  | .balanceBitmapApply bitmap => Sys2Proof.Machine.execBalanceBitmapApply bitmap s
  | .detachedBookingRelease => Sys2Proof.Machine.execDetachedBookingRelease s
  | .nandOpTimeout lun block kind at_ answers => Sys2Proof.Machine.execNandOpTimeout lun block kind at_ answers s
  | .nandReadComplete pca r => Sys2Proof.Machine.execNandReadComplete pca r s
  | .nandProgramComplete stream keys pass back => Sys2Proof.Machine.execNandProgramComplete stream keys pass back s
  | .nandEraseComplete lun block pass => Sys2Proof.Machine.execNandEraseComplete lun block pass s
  | .zqShortCal => Sys2Proof.Machine.execZqShortCal s
  | .lakePatrol r => Sys2Proof.Machine.execLakePatrol r s
  | .landingDeadline space => Sys2Proof.Machine.execLandingDeadline space s
  | .logReclaim => Sys2Proof.Machine.execLogReclaim s
  | .lakeCollection space => Sys2Proof.Machine.execLakeCollection space s
  | .ledgerGroupWriteback => Sys2Proof.Machine.execLedgerGroupWriteback s
  | .mapJournalFlush => Sys2Proof.Machine.execMapJournalFlush s
  | .mapCheckpoint => Sys2Proof.Machine.execMapCheckpoint s
  | .lakeRebuild ms => Sys2Proof.Machine.execLakeRebuild ms s
  | .lakeHeack t pi rt ra => Sys2Proof.Machine.execLakeHeack t pi rt ra s
  | .lakeHealth t pi rt ra => Sys2Proof.Machine.execLakeHealth t pi rt ra s
  | .lakeMark t pi rt ra => Sys2Proof.Machine.execLakeMark t pi rt ra s
  | .lakeLogRead t pi rt ra => Sys2Proof.Machine.execLakeLogRead t pi rt ra s
  | .lakeVolRead t pi rt ra => Sys2Proof.Machine.execLakeVolRead t pi rt ra s
  | .lakeVolWrite t pi rt ra => Sys2Proof.Machine.execLakeVolWrite t pi rt ra s
  | .lakeVolTrim t pi rt ra => Sys2Proof.Machine.execLakeVolTrim t pi rt ra s
  | .lakeGrant t pi rt ra => Sys2Proof.Machine.execLakeGrant t pi rt ra s
  | .lakeFormat t pi rt ra => Sys2Proof.Machine.execLakeFormat t pi rt ra s
  | .add t pi rd ra rb => Sys2Proof.Machine.execAdd t pi rd ra rb s
  | .sub t pi rd ra rb => Sys2Proof.Machine.execSub t pi rd ra rb s
  | .and_ t pi rd ra rb => Sys2Proof.Machine.execAnd t pi rd ra rb s
  | .or_ t pi rd ra rb => Sys2Proof.Machine.execOr t pi rd ra rb s
  | .xor t pi rd ra rb => Sys2Proof.Machine.execXor t pi rd ra rb s
  | .andn t pi rd ra rb => Sys2Proof.Machine.execAndn t pi rd ra rb s
  | .shl t pi rd ra rb => Sys2Proof.Machine.execShl t pi rd ra rb s
  | .shr t pi rd ra rb => Sys2Proof.Machine.execShr t pi rd ra rb s
  | .sar t pi rd ra rb => Sys2Proof.Machine.execSar t pi rd ra rb s
  | .mul t pi rd ra rb => Sys2Proof.Machine.execMul t pi rd ra rb s
  | .mulh t pi rd ra rb => Sys2Proof.Machine.execMulh t pi rd ra rb s
  | .mulhu t pi rd ra rb => Sys2Proof.Machine.execMulhu t pi rd ra rb s
  | .div t pi rd ra rb => Sys2Proof.Machine.execDiv t pi rd ra rb s
  | .divu t pi rd ra rb => Sys2Proof.Machine.execDivu t pi rd ra rb s
  | .rem t pi rd ra rb => Sys2Proof.Machine.execRem t pi rd ra rb s
  | .remu t pi rd ra rb => Sys2Proof.Machine.execRemu t pi rd ra rb s
  | .min t pi rd ra rb => Sys2Proof.Machine.execMin t pi rd ra rb s
  | .max t pi rd ra rb => Sys2Proof.Machine.execMax t pi rd ra rb s
  | .minu t pi rd ra rb => Sys2Proof.Machine.execMinu t pi rd ra rb s
  | .maxu t pi rd ra rb => Sys2Proof.Machine.execMaxu t pi rd ra rb s
  | .clz t pi rd ra => Sys2Proof.Machine.execClz t pi rd ra s
  | .ctz t pi rd ra => Sys2Proof.Machine.execCtz t pi rd ra s
  | .popc t pi rd ra => Sys2Proof.Machine.execPopc t pi rd ra s
  | .bswap t pi rd ra => Sys2Proof.Machine.execBswap t pi rd ra s
  | .crcb t pi rd ra rb => Sys2Proof.Machine.execCrcb t pi rd ra rb s
  | .crcd t pi rd ra rb => Sys2Proof.Machine.execCrcd t pi rd ra rb s
  | .addi t pi rd ra imm => Sys2Proof.Machine.execAddi t pi rd ra imm s
  | .andi t pi rd ra imm => Sys2Proof.Machine.execAndi t pi rd ra imm s
  | .ori t pi rd ra imm => Sys2Proof.Machine.execOri t pi rd ra imm s
  | .xori t pi rd ra imm => Sys2Proof.Machine.execXori t pi rd ra imm s
  | .shli t pi rd ra imm => Sys2Proof.Machine.execShli t pi rd ra imm s
  | .shri t pi rd ra imm => Sys2Proof.Machine.execShri t pi rd ra imm s
  | .sari t pi rd ra imm => Sys2Proof.Machine.execSari t pi rd ra imm s
  | .movz t pi rd hw imm => Sys2Proof.Machine.execMovz t pi rd hw imm s
  | .movk t pi rd hw imm => Sys2Proof.Machine.execMovk t pi rd hw imm s
  | .movn t pi rd hw imm => Sys2Proof.Machine.execMovn t pi rd hw imm s
  | .cmp t pi pd cm ra rb cond => Sys2Proof.Machine.execCmp t pi pd cm ra rb cond s
  | .cmpi t pi pd cm ra cond imm => Sys2Proof.Machine.execCmpi t pi pd cm ra cond imm s
  | .pset t pi pd pa pb op => Sys2Proof.Machine.execPset t pi pd pa pb op s
  | .pget t pi rd => Sys2Proof.Machine.execPget t pi rd s
  | .pput t pi ra => Sys2Proof.Machine.execPput t pi ra s
  | .ldb t pi rd ra imm => Sys2Proof.Machine.execLdb t pi rd ra imm s
  | .ldh t pi rd ra imm => Sys2Proof.Machine.execLdh t pi rd ra imm s
  | .ldw t pi rd ra imm => Sys2Proof.Machine.execLdw t pi rd ra imm s
  | .ldd t pi rd ra imm => Sys2Proof.Machine.execLdd t pi rd ra imm s
  | .ldbs t pi rd ra imm => Sys2Proof.Machine.execLdbs t pi rd ra imm s
  | .ldhs t pi rd ra imm => Sys2Proof.Machine.execLdhs t pi rd ra imm s
  | .ldws t pi rd ra imm => Sys2Proof.Machine.execLdws t pi rd ra imm s
  | .stb t pi rs ra imm => Sys2Proof.Machine.execStb t pi rs ra imm s
  | .sth t pi rs ra imm => Sys2Proof.Machine.execSth t pi rs ra imm s
  | .stw t pi rs ra imm => Sys2Proof.Machine.execStw t pi rs ra imm s
  | .std t pi rs ra imm => Sys2Proof.Machine.execStd t pi rs ra imm s
  | .amoSwap t pi rd ra rb => Sys2Proof.Machine.execAmoSwap t pi rd ra rb s
  | .amoAdd t pi rd ra rb => Sys2Proof.Machine.execAmoAdd t pi rd ra rb s
  | .amoAnd t pi rd ra rb => Sys2Proof.Machine.execAmoAnd t pi rd ra rb s
  | .amoOr t pi rd ra rb => Sys2Proof.Machine.execAmoOr t pi rd ra rb s
  | .amoCas t pi rd ra rb => Sys2Proof.Machine.execAmoCas t pi rd ra rb s
  | .fence t pi => Sys2Proof.Machine.execFence t pi s
  | .br t pi disp => Sys2Proof.Machine.execBr t pi disp s
  | .call t pi disp => Sys2Proof.Machine.execCall t pi disp s
  | .jr t pi ra => Sys2Proof.Machine.execJr t pi ra s
  | .jalr t pi rd ra => Sys2Proof.Machine.execJalr t pi rd ra s
  | .ewait t pi rd ra => Sys2Proof.Machine.execEwait t pi rd ra s
  | .epoll t pi rd => Sys2Proof.Machine.execEpoll t pi rd s
  | .lcall t pi gate => Sys2Proof.Machine.execLcall t pi gate s
  | .lret t pi => Sys2Proof.Machine.execLret t pi s
  | .nop t pi => Sys2Proof.Machine.execNop t pi s
  | .yield t pi => Sys2Proof.Machine.execYield t pi s
  | .wait t pi => Sys2Proof.Machine.execWait t pi s
  | .exit t pi => Sys2Proof.Machine.execExit t pi s
  | .trap t pi ra => Sys2Proof.Machine.execTrap t pi ra s
  | .eret t pi rd ra => Sys2Proof.Machine.execEret t pi rd ra s
  | .signal t pi ra => Sys2Proof.Machine.execSignal t pi ra s
  | .csrr t pi rd csr => Sys2Proof.Machine.execCsrr t pi rd csr s
  | .csrw t pi ra csr => Sys2Proof.Machine.execCsrw t pi ra csr s
  | .farLoadReturn t slot => Sys2Proof.Machine.execFarLoadReturn t slot s
  | .farStoreAck t slot => Sys2Proof.Machine.execFarStoreAck t slot s
  | .engineCallComplete t slot => Sys2Proof.Machine.execEngineCallComplete t slot s
  | .eventDeliver src t => Sys2Proof.Machine.execEventDeliver src t s
  | .watchdogExpire t => Sys2Proof.Machine.execWatchdogExpire t s
  | .threadTimerFire t => Sys2Proof.Machine.execThreadTimerFire t s
  | .legalTimeout t => Sys2Proof.Machine.execLegalTimeout t s
  | .mccStart t pi rt ra => Sys2Proof.Machine.execMccStart t pi rt ra s
  | .mccStop t pi rt ra => Sys2Proof.Machine.execMccStop t pi rt ra s
  | .dmaCopy t pi rt ra => Sys2Proof.Machine.execDmaCopy t pi rt ra s
  | .sqTailDoorbell sq v => Sys2Proof.Machine.execSqTailDoorbell sq v s
  | .cqHeadDoorbell sq v => Sys2Proof.Machine.execCqHeadDoorbell sq v s
  | .nqHeadDoorbell v => Sys2Proof.Machine.execNqHeadDoorbell v s
  | .commandFetch sq raw data ok dataOk => Sys2Proof.Machine.execCommandFetch sq raw data ok dataOk s
  | .commandDeliver q => Sys2Proof.Machine.execCommandDeliver q s
  | .completionWrite q ok => Sys2Proof.Machine.execCompletionWrite q ok s
  | .msixCoalesceExpire v => Sys2Proof.Machine.execMsixCoalesceExpire v s
  | .commandTimeout q => Sys2Proof.Machine.execCommandTimeout q s
  | .queueEnable v => Sys2Proof.Machine.execQueueEnable v s
  | .queueDisable v => Sys2Proof.Machine.execQueueDisable v s
  | .nqEnable v => Sys2Proof.Machine.execNqEnable v s
  | .noticeWrite ok => Sys2Proof.Machine.execNoticeWrite ok s
  | .hostPortReset up lanes gen => Sys2Proof.Machine.execHostPortReset up lanes gen s
  | .pciePowerState d3 => Sys2Proof.Machine.execPciePowerState d3 s
  | .identify q => Sys2Proof.Machine.execIdentify q s
  | .status q => Sys2Proof.Machine.execStatus q s
  | .sessionOpen q => Sys2Proof.Machine.execSessionOpen q s
  | .sessionProve q => Sys2Proof.Machine.execSessionProve q s
  | .sessionClose q => Sys2Proof.Machine.execSessionClose q s
  | .noticeMask q => Sys2Proof.Machine.execNoticeMask q s
  | .noticeRoute q => Sys2Proof.Machine.execNoticeRoute q s
  | .hostLakeHealth q => Sys2Proof.Machine.execHostLakeHealth q s
  | .hostLakeFormat q => Sys2Proof.Machine.execHostLakeFormat q s
  | .sessionPendingExpire sid => Sys2Proof.Machine.execSessionPendingExpire sid s
  | .proofLockoutExpire carrier => Sys2Proof.Machine.execProofLockoutExpire carrier s
  | .ethCommandDatagram m src bytes => Sys2Proof.Machine.execEthCommandDatagram m src bytes s
  | .noticeRouteFlush m => Sys2Proof.Machine.execNoticeRouteFlush m s
  | .hpComplete t pi rt ra => Sys2Proof.Machine.execHpComplete t pi rt ra s
  | .hpNotice t pi rt ra => Sys2Proof.Machine.execHpNotice t pi rt ra s
  | .hostLdgRead q => Sys2Proof.Machine.execHostLdgRead q s
  | .hostLdgWrite q => Sys2Proof.Machine.execHostLdgWrite q s
  | .hostLdgExec q => Sys2Proof.Machine.execHostLdgExec q s
  | .hostDirInsert q => Sys2Proof.Machine.execHostDirInsert q s
  | .hostDirLookup q => Sys2Proof.Machine.execHostDirLookup q s
  | .hostDirRead q => Sys2Proof.Machine.execHostDirRead q s
  | .hostDirSet q => Sys2Proof.Machine.execHostDirSet q s
  | .hostDirEpoch q => Sys2Proof.Machine.execHostDirEpoch q s
  | .hostDirCmd q => Sys2Proof.Machine.execHostDirCmd q s
  | .hostDirRemove q => Sys2Proof.Machine.execHostDirRemove q s
  | .hostBalSet q => Sys2Proof.Machine.execHostBalSet q s
  | .hostBalRead q => Sys2Proof.Machine.execHostBalRead q s
  | .hostBalConfig q => Sys2Proof.Machine.execHostBalConfig q s
  | .logRead q => Sys2Proof.Machine.execLogRead q s
  | .heack q => Sys2Proof.Machine.execHeack q s
  | .hostKeyLoad q bad => Sys2Proof.Machine.execHostKeyLoad q bad s
  | .hostKeyDerive q => Sys2Proof.Machine.execHostKeyDerive q s
  | .hostKeyInvalidate q => Sys2Proof.Machine.execHostKeyInvalidate q s
  | .hostKeyEpoch q => Sys2Proof.Machine.execHostKeyEpoch q s
  | .keyStatus q => Sys2Proof.Machine.execKeyStatus q s
  | .certRead q => Sys2Proof.Machine.execCertRead q s
  | .attest q => Sys2Proof.Machine.execAttest q s
  | .imgBlock q bad => Sys2Proof.Machine.execImgBlock q bad s
  | .imgVerify q => Sys2Proof.Machine.execImgVerify q s
  | .imgActivate q => Sys2Proof.Machine.execImgActivate q s
  | .imgConfirm q => Sys2Proof.Machine.execImgConfirm q s
  | .imgStatus q => Sys2Proof.Machine.execImgStatus q s
  | .imgLock q => Sys2Proof.Machine.execImgLock q s
  | .hostCampCtl q => Sys2Proof.Machine.execHostCampCtl q s
  | .timeRead q => Sys2Proof.Machine.execTimeRead q s
  | .timeSet q => Sys2Proof.Machine.execTimeSet q s
  | .timeSource q => Sys2Proof.Machine.execTimeSource q s
  | .cycleRead q => Sys2Proof.Machine.execCycleRead q s
  | .cycleWrite q => Sys2Proof.Machine.execCycleWrite q s
  | .cryGcmSeal t pi rt ra => Sys2Proof.Machine.execCryGcmSeal t pi rt ra s
  | .cryGcmOpen t pi rt ra => Sys2Proof.Machine.execCryGcmOpen t pi rt ra s
  | .cryCmac t pi rt ra => Sys2Proof.Machine.execCryCmac t pi rt ra s
  | .crySha384 t pi rt ra => Sys2Proof.Machine.execCrySha384 t pi rt ra s
  | .cryEcdsaVerify t pi rt ra => Sys2Proof.Machine.execCryEcdsaVerify t pi rt ra s
  | .cryAttest t pi rt ra => Sys2Proof.Machine.execCryAttest t pi rt ra s
  | .keyLoadSlot t pi rt ra => Sys2Proof.Machine.execKeyLoadSlot t pi rt ra s
  | .keyLoadOtp t pi rt ra bad => Sys2Proof.Machine.execKeyLoadOtp t pi rt ra bad s
  | .keyDerive t pi rt ra => Sys2Proof.Machine.execKeyDerive t pi rt ra s
  | .keyInvalidate t pi rt ra => Sys2Proof.Machine.execKeyInvalidate t pi rt ra s
  | .keyClear t pi rt ra => Sys2Proof.Machine.execKeyClear t pi rt ra s
  | .invalidationCommit slot => Sys2Proof.Machine.execInvalidationCommit slot s
  | .keyEpochDistrict t pi rt ra => Sys2Proof.Machine.execKeyEpochDistrict t pi rt ra s
  | .epminCommit slot => Sys2Proof.Machine.execEpminCommit slot s
  | .keyEpochBroadcast t pi rt ra => Sys2Proof.Machine.execKeyEpochBroadcast t pi rt ra s
  | .keyEpochRoleFloor t pi rt ra => Sys2Proof.Machine.execKeyEpochRoleFloor t pi rt ra s
  | .keyTableDurable => Sys2Proof.Machine.execKeyTableDurable s
  | .broadcastPreviousExpire => Sys2Proof.Machine.execBroadcastPreviousExpire s
  | .tmuRowWrite t pi rt ra => Sys2Proof.Machine.execTmuRowWrite t pi rt ra s
  | .tmuSourceSelect t pi rt ra => Sys2Proof.Machine.execTmuSourceSelect t pi rt ra s
  | .tmuLatency t pi rt ra => Sys2Proof.Machine.execTmuLatency t pi rt ra s
  | .tmuRowRead t pi rt ra => Sys2Proof.Machine.execTmuRowRead t pi rt ra s
  | .tmuTimeRead t pi rt ra => Sys2Proof.Machine.execTmuTimeRead t pi rt ra s
  | .timeLatchRead => Sys2Proof.Machine.execTimeLatchRead s
  | .timeSample mac => Sys2Proof.Machine.execTimeSample mac s
  | .timeSourceLoss => Sys2Proof.Machine.execTimeSourceLoss s
  | .holdoverExpire => Sys2Proof.Machine.execHoldoverExpire s
  | .cycleEvent idx => Sys2Proof.Machine.execCycleEvent idx s
  | .pulseRow idx => Sys2Proof.Machine.execPulseRow idx s
  | .pulseEnd out => Sys2Proof.Machine.execPulseEnd out s
  | .tsyncStart port => Sys2Proof.Machine.execTsyncStart port s
  | .tsync h m => Sys2Proof.Machine.execTsync h m s
  | .macLinkUp m rate => Sys2Proof.Machine.execMacLinkUp m rate s
  | .macLinkDown m lock => Sys2Proof.Machine.execMacLinkDown m lock s
  | .macFrameReceive m f fcsOk fill => Sys2Proof.Machine.execMacFrameReceive m f fcsOk fill s
  | .xoffRefresh m fill => Sys2Proof.Machine.execXoffRefresh m fill s
  | .macPauseExpire m => Sys2Proof.Machine.execMacPauseExpire m s
  | .macTxComplete m => Sys2Proof.Machine.execMacTxComplete m s
  | .macSend t pi rt ra => Sys2Proof.Machine.execMacSend t pi rt ra s
  | .macConfig t pi rt ra => Sys2Proof.Machine.execMacConfig t pi rt ra s
  | .macWake t pi rt ra => Sys2Proof.Machine.execMacWake t pi rt ra s
  | .macRxpost t pi rt ra => Sys2Proof.Machine.execMacRxpost t pi rt ra s
  | .hello h m longer => Sys2Proof.Machine.execHello h m longer s
  | .topo h m => Sys2Proof.Machine.execTopo h m s
  | .assign h m => Sys2Proof.Machine.execAssign h m s
  | .msg h m => Sys2Proof.Machine.execMsg h m s
  | .bcast h m => Sys2Proof.Machine.execBcast h m s
  | .barrier h m => Sys2Proof.Machine.execBarrier h m s
  | .snap h m => Sys2Proof.Machine.execSnap h m s
  | .row h m => Sys2Proof.Machine.execRow h m s
  | .rframe h m => Sys2Proof.Machine.execRframe h m s
  | .rdecide h m => Sys2Proof.Machine.execRdecide h m s
  | .mirror h m => Sys2Proof.Machine.execMirror h m s
  | .mack h m => Sys2Proof.Machine.execMack h m s
  | .resync h m => Sys2Proof.Machine.execResync h m s
  | .partmap h m => Sys2Proof.Machine.execPartmap h m s
  | .lfetch h m => Sys2Proof.Machine.execLfetch h m s
  | .linkAck port seq crc => Sys2Proof.Machine.execLinkAck port seq crc s
  | .linkRetry port seq crc => Sys2Proof.Machine.execLinkRetry port seq crc s
  | .linkCredit port cls n crc => Sys2Proof.Machine.execLinkCredit port cls n crc s
  | .heartbeatReceive port relayed state no id longer crc => Sys2Proof.Machine.execHeartbeatReceive port relayed state no id longer crc s
  | .heartbeatSend => Sys2Proof.Machine.execHeartbeatSend s
  | .heartbeatMiss port => Sys2Proof.Machine.execHeartbeatMiss port s
  | .failWord port cause crc => Sys2Proof.Machine.execFailWord port cause crc s
  | .takeover port crc => Sys2Proof.Machine.execTakeover port crc s
  | .casLinkRetrain port => Sys2Proof.Machine.execCasLinkRetrain port s
  | .remoteDecisionExpire mid => Sys2Proof.Machine.execRemoteDecisionExpire mid s
  | .mirrorAckTimeout => Sys2Proof.Machine.execMirrorAckTimeout s
  | .autoHandover => Sys2Proof.Machine.execAutoHandover s
  | .barrierTimeout bid => Sys2Proof.Machine.execBarrierTimeout bid s
  | .snapshotTimeout => Sys2Proof.Machine.execSnapshotTimeout s
  | .rowConfirmTimeout idx => Sys2Proof.Machine.execRowConfirmTimeout idx s
  | .classbHoldRelease => Sys2Proof.Machine.execClassbHoldRelease s
  | .mirrorHelloTimeout => Sys2Proof.Machine.execMirrorHelloTimeout s
  | .peerLost => Sys2Proof.Machine.execPeerLost s
  | .casSend t pi rt ra full => Sys2Proof.Machine.execCasSend t pi rt ra full s
  | .casConfig t pi rt ra => Sys2Proof.Machine.execCasConfig t pi rt ra s
  | .casPartmap t pi rt ra held => Sys2Proof.Machine.execCasPartmap t pi rt ra held s
  | .casHandover t pi rt ra => Sys2Proof.Machine.execCasHandover t pi rt ra s
  | .casBarrier t pi rt ra => Sys2Proof.Machine.execCasBarrier t pi rt ra s
  | .casBcast t pi rt ra => Sys2Proof.Machine.execCasBcast t pi rt ra s
  | .stackReset t pi rt ra => Sys2Proof.Machine.execStackReset t pi rt ra s
  | .casSnapshot t pi rt ra => Sys2Proof.Machine.execCasSnapshot t pi rt ra s
  | .stackSnapshot => Sys2Proof.Machine.execStackSnapshot s
  | .powerOn gpio testN => Sys2Proof.Machine.execPowerOn gpio testN s
  | .pgoodRise ochre => Sys2Proof.Machine.execPgoodRise ochre s
  | .pgoodTimeout => Sys2Proof.Machine.execPgoodTimeout s
  | .pgoodRetry => Sys2Proof.Machine.execPgoodRetry s
  | .slowclkFail => Sys2Proof.Machine.execSlowclkFail s
  | .porstAssert => Sys2Proof.Machine.execPorstAssert s
  | .boot b => Sys2Proof.Machine.execBoot b s
  | .holdupEntry => Sys2Proof.Machine.execHoldupEntry s
  | .holdupFlushComplete high ochre => Sys2Proof.Machine.execHoldupFlushComplete high ochre s
  | .powerRestored => Sys2Proof.Machine.execPowerRestored s
  | .vigilRequest => Sys2Proof.Machine.execVigilRequest s
  | .vigilCommit during ochre => Sys2Proof.Machine.execVigilCommit during ochre s
  | .vigilWake rise ochre => Sys2Proof.Machine.execVigilWake rise ochre s
  | .internalReset ochre => Sys2Proof.Machine.execInternalReset ochre s
  | .vidStep target => Sys2Proof.Machine.execVidStep target s
  | .opminTick => Sys2Proof.Machine.execOpminTick s
  | .thermalSample t => Sys2Proof.Machine.execThermalSample t s
  | .freeze => Sys2Proof.Machine.execFreeze s
  | .recWrite t pi rt ra => Sys2Proof.Machine.execRecWrite t pi rt ra s
  | .eventStagingDrain => Sys2Proof.Machine.execEventStagingDrain s
  | .eventRecorderClear t pi rt ra => Sys2Proof.Machine.execEventRecorderClear t pi rt ra s
  | .onlineTestStep item unit ok => Sys2Proof.Machine.execOnlineTestStep item unit ok s
  | .bankCopyComplete => Sys2Proof.Machine.execBankCopyComplete s
  | .bankTestComplete ok => Sys2Proof.Machine.execBankTestComplete ok s
  | .fullnextSet => Sys2Proof.Machine.execFullnextSet s
  | .tapReset => Sys2Proof.Machine.execTapReset s
  | .extest => Sys2Proof.Machine.execExtest s
  | .samplePreload => Sys2Proof.Machine.execSamplePreload s
  | .idcode => Sys2Proof.Machine.execIdcode s
  | .dstat => Sys2Proof.Machine.execDstat s
  | .daddr v => Sys2Proof.Machine.execDaddr v s
  | .ddata => Sys2Proof.Machine.execDdata s
  | .dbgen v => Sys2Proof.Machine.execDbgen v s
  | .frzrst v => Sys2Proof.Machine.execFrzrst v s
  | .bypass => Sys2Proof.Machine.execBypass s
  | .updBlockBegin t pi rt ra bad => Sys2Proof.Machine.execUpdBlockBegin t pi rt ra bad s
  | .updBlock t pi rt ra bad => Sys2Proof.Machine.execUpdBlock t pi rt ra bad s
  | .updVerify t pi rt ra => Sys2Proof.Machine.execUpdVerify t pi rt ra s
  | .updActivate t pi rt ra => Sys2Proof.Machine.execUpdActivate t pi rt ra s
  | .updConfirm t pi rt ra => Sys2Proof.Machine.execUpdConfirm t pi rt ra s
  | .updReject t pi rt ra => Sys2Proof.Machine.execUpdReject t pi rt ra s
  | .updDiscard t pi rt ra => Sys2Proof.Machine.execUpdDiscard t pi rt ra s
  | .imageActivate => Sys2Proof.Machine.execImageActivate s
  | .activationDrainComplete => Sys2Proof.Machine.execActivationDrainComplete s
  | .trialTimeout => Sys2Proof.Machine.execTrialTimeout s
  | .recoveryStoreUnit unit => Sys2Proof.Machine.execRecoveryStoreUnit unit s
  | .recoveryVerifyStart unit => Sys2Proof.Machine.execRecoveryVerifyStart unit s
  | .campCtlCreate t pi rt ra => Sys2Proof.Machine.execCampCtlCreate t pi rt ra s
  | .campCtlSend t pi rt ra => Sys2Proof.Machine.execCampCtlSend t pi rt ra s
  | .campCtlActivate t pi rt ra => Sys2Proof.Machine.execCampCtlActivate t pi rt ra s
  | .campCtlAbort t pi rt ra => Sys2Proof.Machine.execCampCtlAbort t pi rt ra s
  | .campCtlRead t pi rt ra => Sys2Proof.Machine.execCampCtlRead t pi rt ra s
  | .campCtlClose t pi rt ra => Sys2Proof.Machine.execCampCtlClose t pi rt ra s
  | .campCtlTally t pi rt ra => Sys2Proof.Machine.execCampCtlTally t pi rt ra s
  | .campaignActT id => Sys2Proof.Machine.execCampaignActT id s
  | .reservedOpcode t w => Sys2Proof.Machine.execReservedOpcode t w s
  | .ecallUnassignedFn t pi rt ra fn => Sys2Proof.Machine.execEcallUnassignedFn t pi rt ra fn s
  | .cascadeLinkDown port => Sys2Proof.Machine.execCascadeLinkDown port s

end Sys2Proof.Machine
end

