-- ==== Sys2Proof/Machine/Tick.lean ====
section
/-! DEFINITION. One TIME_CLK cycle: what the part's clocks do when no command waits (R332, R341, R243, R22; log 3). -/

namespace Sys2Proof.Machine

/-- INC at the nominal 300 MHz, in units of 2^-48 ns. -/
def nominalInc : Nat := 938249922368853

/-- TAI advances by INC. -/
def advanceTai (s : State) : State :=
  let f := (((s.tmu.frac + nominalInc : Nat) : Int) + s.tmu.adj).toNat
  let ns := s.tmu.ns + f / 2 ^ 48
  if ns < 1000000000 then { s with tmu.ns := ns, tmu.frac := f % 2 ^ 48 }
  else { s with tmu.sec := s.tmu.sec + 1, tmu.ns := ns - 1000000000, tmu.frac := f % 2 ^ 48 }

/-- A slew ends once its correction has been made (R341). -/
def slewCycle (s : State) : State :=
  let c := s.tmu.corr
  let l := s.tmu.left - c
  if c = 0 then s
  else if (0 < c ∧ l ≤ 0) ∨ (c < 0 ∧ 0 ≤ l) then { setAdj (s.tmu.adj - c) s with tmu.corr := 0, tmu.left := 0 }
  else { s with tmu.left := l }

/-- One TIME_CLK cycle: TAI, CYCLE (four CORE_CLK cycles), and the wait of a capture (two FAB_CLK cycles). No PLL-derived clock runs in
OFF, in VIGIL, or while frozen. -/
def tick (s : State) : State :=
  if s.glb.mode = .off ∨ s.glb.mode = .vigil ∨ s.stest.frozen then s
  else
    let s1 := slewCycle (advanceTai s)
    { s1 with mcc.cycle := s1.mcc.cycle + 4, glb.snapIn := s1.glb.snapIn.map (· - 2) }

end Sys2Proof.Machine
end

