-- ==== Sys2Proof/Safety.lean ====
section
/-! DEFINITION. What claims are said in: the canonical form of the memories, OTP as a one-way memory, what a run reaches, and the states
between which an Akzil instruction or an engine call passes. -/

namespace Sys2Proof.Machine

/-! ## Memories -/

/-- A memory in canonical form: addresses strictly rising, no entry equal to what an unlisted address reads as. -/
def Memory.wf (m : Map Byte) : Bool := m.wf && Map.lean 0 m

/-- Every addressed memory of the part is in canonical form: IMEM, DMEM, shared Madder SRAM, OTP. -/
def State.memoryWf (s : State) : Bool :=
  Memory.wf s.mcc.imem && Memory.wf s.mcc.dmem && Memory.wf s.mcc.shared && Memory.wf s.otp

/-- Bit `i` of OTP byte `a`. -/
def State.otpBit (s : State) (a i : Nat) : Bool := bitAt (s.otp.get 0 a).toNat i

/-- Byte `a` of a place's memory. -/
def State.byteAt (s : State) (shared : Bool) (a : Nat) : Byte := if shared then s.mcc.shared.get 0 a else s.mcc.dmem.get 0 a

/-! ## Runs -/

/-- What can follow from a state: any commands join the queue, and steps are taken. -/
inductive Reaches (s : State) : State → Prop where
  | here : Reaches s s
  | send (u : State) (c : Instr) : Reaches s u → Reaches s { u with pending := u.pending ++ [c] }
  | step (u v : State) : Reaches s u → Machine.step u = .next v → Reaches s v

/-! ## Akzil instructions -/

/-- Thread `t` fetches at its PC without an exception and issues (R254, R256, R246). -/
def State.fetches (s : State) (t : Nat) : Bool :=
  s.coresRun && (s.thr t).issues && (s.thr t).level.mayFetch (s.thr t).pc.toNat
    && !s.mcc.poisonImem.get false ((coreOf t * 0x10000 + (s.thr t).pc.toNat) / 8)
    && !s.mcc.flipImem.get false ((coreOf t * 0x10000 + (s.thr t).pc.toNat) / 8)

/-- Thread `t` issues an instruction whose guard `pi` holds. -/
def State.issuesAt (s : State) (t pi : Nat) : Bool := s.fetches t && predGet (s.thr t).preds pi

/-- The command answers a next state of which `P` holds. -/
def Does (c : Instr) (s : State) (P : State → Prop) : Prop := ∃ u, exec c s = .next u ∧ P u

/-- `u` is `s` but for thread `t`, which is now `th`, and one count of the counter with key `k`. -/
def Turns (t k : Nat) (th : Thread) (s u : State) : Prop :=
  u.thr t = th ∧ (∀ v, v ≠ t → u.thr v = s.thr v) ∧
  (∀ j, u.counter j = if j = k then s.counter j + 1 else s.counter j) ∧
  u = { s with mcc.threads := u.mcc.threads, ctr := u.ctr }

/-- Thread `t` has completed an instruction that leaves it as `th` at the next word; nothing else changes. -/
def Retires (t : Nat) (th : Thread) (s u : State) : Prop := Turns t (kMcc t 0) { th with pc := th.pc + 4 } s u

/-- Thread `t` has completed an instruction that leaves it as `th`, its PC included; nothing else changes. -/
def Jumps (t : Nat) (th : Thread) (s u : State) : Prop := Turns t (kMcc t 0) th s u

/-- The thread after an exception at SYSTEM or TASK level with EXC = 0 (R275), its registers and slots untouched. -/
def Thread.excepted (th : Thread) (code : Nat) (evalV : Word) : Thread :=
  { th with
    epc := th.pc, ecause := Word.of (th.level.code * 16 + code), eval := evalV, exc := true, level := .system, pc := th.evec,
    st := .run, faultLevel := th.level, faultCode := code, faultEval := evalV }

/-- Thread `t` has taken the exception; nothing else changes. -/
def Excepts (t code : Nat) (evalV : Word) (s u : State) : Prop := Turns t (kMcc t 4) ((s.thr t).excepted code evalV) s u

/-- No word that an access of `n` bytes at place `p` reads holds a flipped bit, which the read would correct and count (R19, R246). -/
def State.steady (s : State) (p : Place) (n : Nat) : Bool :=
  match p with
  | .dmem k => (List.range (ceilDiv (k % 8 + n) 8)).all fun i => !s.mcc.flipDmem.get false (k / 8 + i)
  | .shared o => (List.range (ceilDiv ((0x2E00000 + o) % 8 + n) 8)).all fun i => s.glb.upsets.get 0 ((0x2E00000 + o) / 8 + i) == 0

/-! ## Engine calls (R260, R261, R265) -/

/-- Thread `t` makes an engine call of function `fn` that runs: the block of `len` bytes lies at `p`, slot `i` is free, the call is permitted. -/
def State.callsAt (s : State) (t pi ra fn len : Nat) (p : Place) (i : Nat) : Bool :=
  s.issuesAt t pi && !(s.thr t).storesOut && ((s.thr t).reg ra).toNat % 8 == 0 && decide (((s.thr t).reg ra).toNat < 0x10000)
    && (s.thr t).place t ((s.thr t).reg ra).toNat len == some p && (s.thr t).pick == some i && (s.thr t).permits fn && !s.poisoned p len && s.steady p len

/-- The state in which the engine runs: the slot is taken, its number is in rt, the call is counted. -/
def calling (t rt i : Nat) (s : State) : State :=
  let th := s.thr t
  let lost := (th.slot i).status.isSome
  let th1 := (if lost then { th with elost := th.elost + 1 } else th).setReg rt (Word.of i)
  count (kMcc t 2) (countIf lost (kMcc t 9) (setThr t (th1.setSlot i {}) s))

/-- The state once the engine has answered `r`: the call is outstanding in slot `i` with its results, and the thread goes on. -/
def called (t fn a i : Nat) (r : EngOut) : State :=
  retire t (updThr t (fun th => th.setSlot i { pend := some (.call fn a r.out r.status r.waits), status := none }) r.st)

/-- The command is an engine call of function `fn` that answers what `P` says, its block at the address in `ra`, its slot `i`. -/
def Answers (c : Instr) (t fn ra i : Nat) (s : State) (P : EngOut → Prop) : Prop :=
  ∃ r, exec c s = .next (called t fn ((s.thr t).reg ra).toNat i r) ∧ P r

/-- The engine does all it does at once and succeeds, with these results for the block. -/
def EngOut.good (r : EngOut) (out : List (Nat × List Byte)) : Prop := r.status = stOk ∧ r.out = out ∧ r.waits = none

/-- The engine refuses with a status and changes nothing. -/
def EngOut.refuses (r : EngOut) (status : Nat) (s : State) : Prop := r.status = status ∧ r.out = [] ∧ r.waits = none ∧ r.st = s

/-! ## Notices (R299) -/

/-- Posting the notice leaves the queue's waiting notices so: unchanged when its code is masked, else longer by the notice when the queue
or the overflow store has room for it. -/
def Posts (code cls : Nat) (args : List Byte) (s u : State) : Prop :=
  if cls ≠ 0 ∧ s.hp.mask.get false code = true then u.hp.nq.waiting = s.hp.nq.waiting ∧ u.hp.nq.nseq = s.hp.nq.nseq
  else
    (s.hp.nq.hasRoom || s.hp.nq.mayHold cls) = true →
      ∃ n, u.hp.nq.waiting = s.hp.nq.waiting ++ [n] ∧ n.code = code ∧ n.cls = cls ∧ n.args = fit 16 args ∧
        n.nseq = s.hp.nq.nseq ∧ n.held = !s.hp.nq.hasRoom ∧ u.hp.nq.nseq = s.hp.nq.nseq + 1

/-- The command changes nothing. -/
def Stays (c : Instr) (s : State) : Prop := exec c s = .next s

/-! ## Host commands -/

/-- The oldest command of queue `q` with a built-in's ENO that waits to be executed and that FENCE lets go (R297, R289). -/
def State.builtinFront (s : State) (q eno : Nat) : Option Cmd :=
  firstWhere (fun c => c.sqid == q && c.eno == eno && decide (c.stage = .judged) && c.waits.isNone && s.fenceOk c) s.hp.cmds

/-- The oldest delivered command of queue `q` with a standard command's ENO (R298). -/
def State.standardFront (s : State) (q eno : Nat) : Option Cmd :=
  firstWhere (fun c => c.sqid == q && c.eno == eno && decide (c.stage = .delivered) && c.waits.isNone) s.hp.cmds

/-- Command `c` has its completion registered with these values (R287); no other command in flight changes but for its pool buffer. -/
def Registers (c : Cmd) (status : Nat) (result : BitVec 64) (resp : Option (List Byte)) (s u : State) : Prop :=
  (∃ d ∈ u.hp.cmds, d.no = c.no ∧ d.raw = c.raw ∧ d.stage = .registered ∧ d.waits = none ∧ d.status = status ∧ d.result = result ∧ d.resp = resp) ∧
  (∀ d ∈ u.hp.cmds, d.no ≠ c.no → ∃ e ∈ s.hp.cmds, d = { e with pool := d.pool }) ∧
  u.hp.cmds.length = s.hp.cmds.length ∧ u.hp.regs = s.hp.regs + 1

/-- Command `c` waits for `w`, its completion ready; no other command in flight changes but for its pool buffer. -/
def Awaits (c : Cmd) (w : Wait) (status : Nat) (s u : State) : Prop :=
  (∃ d ∈ u.hp.cmds, d.no = c.no ∧ d.raw = c.raw ∧ d.stage = c.stage ∧ d.waits = some w ∧ d.status = status) ∧
  (∀ d ∈ u.hp.cmds, d.no ≠ c.no → ∃ e ∈ s.hp.cmds, d = { e with pool := d.pool }) ∧
  u.hp.cmds.length = s.hp.cmds.length ∧ u.hp.regs = s.hp.regs

/-- `u` is `s` but for the completion of a command: commands in flight and their buffers, event queues, counters. -/
def HostOnly (s u : State) : Prop :=
  u = { s with
    hp.cmds := u.hp.cmds, hp.regs := u.hp.regs, hp.poolUsed := u.hp.poolUsed, hp.stale := u.hp.stale
    mcc.queues := u.mcc.queues, ctr := u.ctr }

/-! ## Cascade messages (R368, R370, R371) -/

/-- A message comes by a port that is up, its flits good, and ends at this chip. -/
def State.hears (s : State) (h : CHead) (m : Flit) : Bool :=
  s.coresRun && (s.cport h.port.val).st == 2 && (s.cport h.port.val).crcGood h && !decide (0x40 ≤ h.dst ∧ h.dst ≤ 0xFD)
    && (linkLocal (flitType m) || h.dst == 0xFF || h.dst == s.cas.chipId || (h.dst == 0xFE && s.cas.master))

/-- The port has taken the message: its flits are counted and acknowledged, their buffers returned. -/
def heard (h : CHead) (m : Flit) (s : State) : State :=
  let p := h.port.val
  let n := flitCount m
  sendWord p 3 (flitClass (flitType m)) 0 n (ackFlits p (s.cport p).rxSeq.toNat n
    (countN (kCasPort p 1) n (updCport p (fun c => { c with rxSeq := c.rxSeq + BitVec.ofNat 16 n, retrying := false }) s)))

end Sys2Proof.Machine
end

