-- ==== Sys2Proof/Certificates/Slice0/Obligations.lean ====
section
/-! DEFINITION. Statements for the provers: what commands do, what they leave alone, invariants of every step. -/

open Sys2Proof Sys2Proof.Machine

/-- A step takes the command at the front of the queue and runs it with the queue's rest (the queue is the model's own, log 1). -/
def Obligations.StepRunsFront : Prop :=
  (∀ (c : Instr) (l : List Instr) (s : State),
      s.pending = c :: l →
      step s = exec c { s with pending := l })

/-- An idle step is a cycle of TIME_CLK (R332), four of CORE_CLK and two of FAB_CLK; that the empty queue lets a cycle pass is the model's choice (log 3). -/
def Obligations.IdleStepIsACycle : Prop :=
  (∀ (s : State),
      s.pending = [] →
      s.coresRun = true →
      s.tmu.corr = 0 →
      s.tmu.ns + (s.tmu.frac + (938249922368853 + s.tmu.adj).toNat) / 2 ^ 48 < 1000000000 →
      0 ≤ 938249922368853 + s.tmu.adj →
      ∃ u, step s = .next u ∧ u.mcc.cycle = s.mcc.cycle + 4 ∧ u.glb.snapIn = s.glb.snapIn.map (· - 2) ∧
        u.tmu.sec = s.tmu.sec ∧
        u.tmu.ns * 2 ^ 48 + u.tmu.frac = s.tmu.ns * 2 ^ 48 + (s.tmu.frac + (938249922368853 + s.tmu.adj).toNat) ∧
        u.mcc.threads = s.mcc.threads ∧ u.out = s.out) ∧
  (∀ (s : State),
      s.pending = [] →
      (s.glb.mode = .off ∨ s.glb.mode = .vigil ∨ s.stest.frozen = true) →
      step s = .next s)

/-- State.reset shows the reset values of the register tables, but for two live status words, MCC_STAT and MCC_THR_STATE, whose value at reset release log 98 names. -/
def Obligations.ResetRegisters : Prop :=
  (∀ (a v : Nat),
      (a, v) ∈ [(0x0, 0x81000201), (0x8, 0x1), (0x10, 0x0), (0x20, 0x0), (0x28, 0x0), (0x2C, 0x0),
      (0x30, 0x0), (0x40, 0x0), (0x44, 0x0), (0x50, 0x7F), (0x58, 0x0), (0x5C, 0x0),
      (0x60, 0x0), (0x64, 0x0), (0x10010, 0x0), (0x10014, 0x0), (0x10020, 0x0), (0x10024, 0x0),
      (0x10028, 0x0), (0x1002C, 0x0), (0x10030, 0x0), (0x10034, 0x0), (0x10038, 0x0), (0x1003C, 0x0),
      (0x10040, 0x0), (0x10044, 0x0), (0x10048, 0x0), (0x1004C, 0x0), (0x10050, 0x0), (0x10054, 0x0),
      (0x10058, 0x0), (0x1005C, 0x0), (0x10060, 0x0), (0x10064, 0x0), (0x10068, 0x0), (0x1006C, 0x0),
      (0x10070, 0x0), (0x10074, 0x0), (0x10078, 0x0), (0x1007C, 0x0), (0x10080, 0x0), (0x10084, 0x0),
      (0x10090, 0x0), (0x10094, 0x0), (0x10098, 0x0), (0x1009C, 0x0), (0x100A0, 0x0), (0x100A4, 0x0),
      (0x100A8, 0x0), (0x18010, 0x0)] →
      State.reset.readReg a = v) ∧
  (∀ (a v : Nat),
      (a, v) ∈ [(0x18014, 0x0), (0x18020, 0x0), (0x18024, 0x0), (0x18028, 0x0), (0x1802C, 0x0), (0x18030, 0x0),
      (0x18034, 0x0), (0x18038, 0x0), (0x1803C, 0x0), (0x18040, 0x0), (0x18044, 0x0), (0x18048, 0x0),
      (0x1804C, 0x0), (0x18050, 0x0), (0x18054, 0x0), (0x18058, 0x0), (0x1805C, 0x0), (0x18060, 0x0),
      (0x18064, 0x0), (0x18068, 0x0), (0x1806C, 0x0), (0x18070, 0x0), (0x18074, 0x0), (0x18078, 0x0),
      (0x1807C, 0x0), (0x18080, 0x0), (0x18084, 0x0), (0x18088, 0x0), (0x1808C, 0x0), (0x18090, 0x0),
      (0x18094, 0x0), (0x18098, 0x0), (0x1809C, 0x0), (0x180A0, 0x0), (0x180A4, 0x0), (0x180B0, 0x0),
      (0x20000, 0x0), (0x20004, 0x0), (0x20008, 0x0), (0x20010, 0x0), (0x20014, 0x0), (0x20018, 0x0),
      (0x2001C, 0x0), (0x20020, 0x0), (0x20024, 0x0), (0x20028, 0x0), (0x20030, 0x0), (0x20034, 0x0),
      (0x20040, 0x0), (0x20048, 0x0)] →
      State.reset.readReg a = v) ∧
  (∀ (a v : Nat),
      (a, v) ∈ [(0x2004C, 0x0), (0x20050, 0x0), (0x20058, 0x0), (0x2005C, 0x0), (0x28000, 0x0), (0x28008, 0x0),
      (0x2800C, 0x0), (0x28010, 0x0), (0x28014, 0x0), (0x28018, 0x0), (0x28020, 0x0), (0x28024, 0x0),
      (0x28028, 0x0), (0x2802C, 0x0), (0x28030, 0x0), (0x28034, 0x0), (0x28038, 0x0), (0x28040, 0x0),
      (0x28044, 0x0), (0x2C000, 0x0), (0x2C004, 0x0), (0x2C008, 0x0), (0x2C00C, 0x0), (0x2C010, 0x0),
      (0x2C014, 0x0), (0x2C020, 0x0), (0x2C024, 0x0), (0x2C028, 0x0), (0x2C030, 0x0), (0x30000, 0x0),
      (0x30004, 0x0), (0x30008, 0x0), (0x3000C, 0x0), (0x30010, 0x0), (0x30014, 0x0), (0x30018, 0x0),
      (0x3001C, 0x0), (0x30020, 0x0), (0x30030, 0x0), (0x30034, 0x0), (0x30038, 0x0), (0x30040, 0x0),
      (0x30044, 0x0), (0x30050, 0x0), (0x50004, 0x0), (0x50010, 0x0), (0x50018, 0x0), (0x5001C, 0x0),
      (0x50020, 0x0), (0x50024, 0x0)] →
      State.reset.readReg a = v) ∧
  (∀ (a v : Nat),
      (a, v) ∈ [(0x50030, 0x0), (0x50034, 0x0), (0x50038, 0x0), (0x8000, 0x0), (0x8008, 0x0), (0x8010, 0x0),
      (0x8014, 0x0), (0x8018, 0x0), (0x801C, 0x0), (0x8020, 0x0), (0x8024, 0x0), (0x8030, 0x0),
      (0x8034, 0x0), (0x8038, 0x0), (0x803C, 0x0), (0x8040, 0x0), (0x8044, 0x0), (0x8048, 0x0),
      (0x38000, 0x0), (0x38004, 0x0), (0x38008, 0x0), (0x38010, 0x0), (0x38014, 0x0), (0x38018, 0x0),
      (0x3801C, 0x0), (0x38020, 0x0), (0x38030, 0x0), (0x38034, 0x0), (0x38038, 0x0), (0x38040, 0x0),
      (0x3C000, 0x300), (0x3C008, 0x0), (0x3C00C, 0x0), (0x3C010, 0x0), (0x3C014, 0x0), (0x3C018, 0x0),
      (0x3C01C, 0x0), (0x3C020, 0x0), (0x3C024, 0x0), (0x3C030, 0x0), (0x3C034, 0x0), (0x3C038, 0x0),
      (0x40000, 0x0), (0x40004, 0x0), (0x40008, 0x0), (0x40010, 0x0), (0x40014, 0x0), (0x40030, 0x0),
      (0x40034, 0x0), (0x40038, 0x0)] →
      State.reset.readReg a = v) ∧
  (∀ (a v : Nat),
      (a, v) ∈ [(0x48000, 0x80010000), (0x48020, 0x0), (0x48024, 0x0), (0x48028, 0x0), (0x4802C, 0x0), (0x48030, 0x0),
      (0x48034, 0x0), (0x48038, 0x0), (0x48040, 0x0), (0x48044, 0x0), (0x48048, 0x0), (0x4804C, 0x0),
      (0x4000, 0xE), (0x4004, 0xA0A), (0x4010, 0x0), (0x4014, 0x0), (0x401C, 0x0), (0x4030, 0x0),
      (0x4034, 0x0), (0x4038, 0x0), (0x5C004, 0x0), (0x5C010, 0x0), (0x5C014, 0x0), (0x5C020, 0x0),
      (0x5C024, 0x0), (0x5C030, 0x0), (0x5C034, 0x0), (0x5C038, 0x0), (0x5C040, 0x0), (0x5C044, 0x0),
      (0x5C048, 0x0), (0x58000, 0x0), (0x58008, 0x0), (0x5800C, 0x0), (0x58010, 0x0), (0x58014, 0x0),
      (0x58018, 0x0), (0x5801C, 0x0), (0x58020, 0x7F), (0x58024, 0x0), (0x58030, 0x0), (0x58034, 0x0),
      (0x58038, 0x0), (0x58040, 0x0), (0x4040, 0x0), (0x4044, 0x0), (0x4048, 0x0), (0x4050, 0x0)] →
      State.reset.readReg a = v)

/-- IMEM, DMEM, shared SRAM and OTP are in canonical form in State.reset, and every byte of the cores' memories reads 0. -/
def Obligations.ResetMemoriesCanonical : Prop :=
  (State.reset.memoryWf = true) ∧
  (∀ (shared : Bool) (a : Nat),
      State.reset.byteAt shared a = 0)

/-- For every state whose IMEM, DMEM, shared SRAM and OTP are in canonical form, a step that answers a next state leaves them so. -/
def Obligations.StepsKeepMemoriesCanonical : Prop :=
  (∀ (s u : State),
      s.memoryWf = true →
      step s = .next u →
      u.memoryWf = true)

/-- OTP is one-time programmable: no step clears a bit of it (R306). -/
def Obligations.OtpBitsAreNeverCleared : Prop :=
  (∀ (s u : State) (a i : Nat),
      step s = .next u →
      s.otpBit a i = true →
      u.otpBit a i = true)

/-- No command puts a command into the queue or takes one out (log 1). -/
def Obligations.CommandsLeaveTheQueue : Prop :=
  (∀ (c : Instr) (s u : State),
      exec c s = .next u →
      u.pending = s.pending)

/-- Each of the ALU instructions writes rd with its function of ra and rb, goes on at the next word and changes nothing else; m0 as rd discards the result. -/
def Obligations.AluResults : Prop :=
  (∀ (s : State) (t : Fin 256) (pi : Fin 8) (rd ra rb : Fin 32),
      s.issuesAt t pi = true →
      let th := s.thr t
      let a := th.reg ra
      let b := th.reg rb
      let go := fun (c : Instr) (v : Word) => Does c s (Retires t (th.setReg rd v) s)
      go (.add t pi rd ra rb) (a + b) ∧
      go (.sub t pi rd ra rb) (a - b) ∧
      go (.and_ t pi rd ra rb) (a &&& b) ∧
      go (.or_ t pi rd ra rb) (a ||| b) ∧
      go (.xor t pi rd ra rb) (a ^^^ b) ∧
      go (.andn t pi rd ra rb) (a &&& ~~~ b) ∧
      go (.shl t pi rd ra rb) (a <<< (b.toNat % 64)) ∧
      go (.shr t pi rd ra rb) (a >>> (b.toNat % 64)) ∧
      go (.sar t pi rd ra rb) (a.sshiftRight (b.toNat % 64)) ∧
      go (.mul t pi rd ra rb) (a * b) ∧
      go (.mulh t pi rd ra rb) ((a.signExtend 128 * b.signExtend 128).extractLsb' 64 64) ∧
      go (.mulhu t pi rd ra rb) ((a.setWidth 128 * b.setWidth 128).extractLsb' 64 64) ∧
      go (.div t pi rd ra rb) (if b = 0 then BitVec.allOnes 64 else a.sdiv b) ∧
      go (.divu t pi rd ra rb) (if b = 0 then BitVec.allOnes 64 else a / b) ∧
      go (.rem t pi rd ra rb) (if b = 0 then a else a.srem b) ∧
      go (.remu t pi rd ra rb) (if b = 0 then a else a % b) ∧
      go (.min t pi rd ra rb) (if a.toInt < b.toInt then a else b) ∧
      go (.max t pi rd ra rb) (if a.toInt < b.toInt then b else a) ∧
      go (.minu t pi rd ra rb) (if a.toNat < b.toNat then a else b) ∧
      go (.maxu t pi rd ra rb) (if a.toNat < b.toNat then b else a) ∧
      (∃ n : Nat, n ≤ 64 ∧ (∀ k, k < n → a.getMsbD k = false) ∧ (n < 64 → a.getMsbD n = true) ∧ go (.clz t pi rd ra) (BitVec.ofNat 64 n)) ∧
      (∃ n : Nat, n ≤ 64 ∧ (∀ k, k < n → a.getLsbD k = false) ∧ (n < 64 → a.getLsbD n = true) ∧ go (.ctz t pi rd ra) (BitVec.ofNat 64 n)) ∧
      go (.popc t pi rd ra) (BitVec.ofNat 64 ((List.range 64).countP fun k => a.getLsbD k)) ∧
      (∃ v : Word, (∀ k, k < 8 → v.extractLsb' (8 * k) 8 = a.extractLsb' (56 - 8 * k) 8) ∧ go (.bswap t pi rd ra) v) ∧
      go (.crcb t pi rd ra rb) (BitVec.ofNat 64 (crcR polyCrc32c (a.toNat % 2 ^ 32) (le 1 b.toNat))) ∧
      go (.crcd t pi rd ra rb) (BitVec.ofNat 64 (crcR polyCrc32c (a.toNat % 2 ^ 32) (le 8 b.toNat)))) ∧
  ((crcR polyCrc32c 0xFFFFFFFF (bytesOf [0x31, 0x32, 0x33, 0x34, 0x35, 0x36, 0x37, 0x38, 0x39])) ^^^ 0xFFFFFFFF = 0xE3069283) ∧
  (∀ (th : Thread) (v : Word),
      th.setReg 0 v = th ∧ th.reg 0 = 0)

/-- ADDI, ANDI, ORI and XORI use the sign-extended imm13, SHLI, SHRI and SARI the 6-bit count, MOVZ, MOVK and MOVN the 16-bit immediate at quarter hw; nothing else changes. -/
def Obligations.ImmediateAndMoveResults : Prop :=
  (∀ (s : State) (t : Fin 256) (pi : Fin 8) (rd ra : Fin 32) (imm : BitVec 13) (n : BitVec 6) (hw : Fin 4) (q : BitVec 16),
      s.issuesAt t pi = true →
      let th := s.thr t
      let a := th.reg ra
      let i := imm.signExtend 64
      let go := fun (c : Instr) (v : Word) => Does c s (Retires t (th.setReg rd v) s)
      go (.addi t pi rd ra imm) (a + i) ∧
      go (.andi t pi rd ra imm) (a &&& i) ∧
      go (.ori t pi rd ra imm) (a ||| i) ∧
      go (.xori t pi rd ra imm) (a ^^^ i) ∧
      go (.shli t pi rd ra n) (a <<< n.toNat) ∧
      go (.shri t pi rd ra n) (a >>> n.toNat) ∧
      go (.sari t pi rd ra n) (a.sshiftRight n.toNat) ∧
      go (.movz t pi rd hw q) (q.setWidth 64 <<< (16 * hw.val)) ∧
      go (.movn t pi rd hw q) (~~~ (q.setWidth 64 <<< (16 * hw.val))) ∧
      (∃ v : Word, go (.movk t pi rd hw q) v ∧
        ∀ k, k < 64 → v.getLsbD k = if 16 * hw.val ≤ k ∧ k < 16 * hw.val + 16 then q.getLsbD (k - 16 * hw.val) else (th.reg rd).getLsbD k))

/-- CMP and CMPI combine the outcome of their condition with what pd held by their combine mode and write pd alone; PSET writes pd; PGET reads and PPUT writes all predicates; p0 stays 1. -/
def Obligations.CompareAndPredicateResults : Prop :=
  (∀ (s : State) (t : Fin 256) (pi : Fin 8) (pd pa pb : Fin 8) (cm : Fin 6) (ra rb rd : Fin 32) (cond : Fin 7) (imm : BitVec 9) (op : Fin 4),
      s.issuesAt t pi = true →
      let th := s.thr t
      let p := fun (th : Thread) (i : Nat) => predGet th.preds i
      let holds := fun (a b : Word) => match cond.val with
        | 0 => decide (a = b)
        | 1 => decide (a ≠ b)
        | 2 => decide (a.toInt < b.toInt)
        | 3 => decide (b.toInt ≤ a.toInt)
        | 4 => decide (a.toNat < b.toNat)
        | 5 => decide (b.toNat ≤ a.toNat)
        | _ => decide (a &&& b ≠ 0)
      let mixed := fun (c : Bool) => match cm.val with
        | 0 => c
        | 1 => !c
        | 2 => p th pd && c
        | 3 => p th pd || c
        | 4 => p th pd && !c
        | _ => p th pd || !c
      let writes := fun (c : Instr) (v : Bool) => ∃ b : BitVec 8, Does c s (Retires t { th with preds := b } s) ∧
        ∀ i : Fin 8, predGet b i = if i = pd ∧ pd ≠ 0 then v else p th i
      writes (.cmp t pi pd cm ra rb cond) (mixed (holds (th.reg ra) (th.reg rb))) ∧
      writes (.cmpi t pi pd cm ra cond imm) (mixed (holds (th.reg ra) (imm.signExtend 64))) ∧
      writes (.pset t pi pd pa pb op) (match op.val with
        | 0 => p th pa && p th pb
        | 1 => p th pa || p th pb
        | 2 => p th pa ^^ p th pb
        | _ => p th pa && !(p th pb)) ∧
      (∃ v : Word, Does (.pget t pi rd) s (Retires t (th.setReg rd v) s) ∧ ∀ k, k < 64 → v.getLsbD k = decide (k < 8 ∧ p th k = true)) ∧
      (∃ b : BitVec 8, Does (.pput t pi ra) s (Retires t { th with preds := b } s) ∧
        ∀ i : Fin 8, predGet b i = if i = 0 then true else (th.reg ra).getLsbD i))

/-- An aligned load of 1, 2, 4 or 8 bytes that the level may read writes rd with the bytes, zero-extended or sign-extended, and changes nothing else. -/
def Obligations.LocalLoads : Prop :=
  (∀ (s : State) (t : Fin 256) (pi : Fin 8) (rd ra : Fin 32) (imm : BitVec 13) (k : Nat),
      s.issuesAt t pi = true →
      ((s.thr t).reg ra + imm.signExtend 64).toNat % 1 = 0 →
      (s.thr t).place t ((s.thr t).reg ra + imm.signExtend 64).toNat 1 = some (.dmem k) →
      s.poisoned (.dmem k) 1 = false →
      s.steady (.dmem k) 1 = true →
      let th := s.thr t
      let l := readBytes s.mcc.dmem k 1
      Does (.ldb t pi rd ra imm) s (Retires t (th.setReg rd (BitVec.ofNat 64 (ofLe l))) s) ∧
      Does (.ldbs t pi rd ra imm) s (Retires t (th.setReg rd ((BitVec.ofNat 8 (ofLe l)).signExtend 64)) s)) ∧
  (∀ (s : State) (t : Fin 256) (pi : Fin 8) (rd ra : Fin 32) (imm : BitVec 13) (k : Nat),
      s.issuesAt t pi = true →
      ((s.thr t).reg ra + imm.signExtend 64).toNat % 2 = 0 →
      (s.thr t).place t ((s.thr t).reg ra + imm.signExtend 64).toNat 2 = some (.dmem k) →
      s.poisoned (.dmem k) 2 = false →
      s.steady (.dmem k) 2 = true →
      let th := s.thr t
      let l := readBytes s.mcc.dmem k 2
      Does (.ldh t pi rd ra imm) s (Retires t (th.setReg rd (BitVec.ofNat 64 (ofLe l))) s) ∧
      Does (.ldhs t pi rd ra imm) s (Retires t (th.setReg rd ((BitVec.ofNat 16 (ofLe l)).signExtend 64)) s)) ∧
  (∀ (s : State) (t : Fin 256) (pi : Fin 8) (rd ra : Fin 32) (imm : BitVec 13) (k : Nat),
      s.issuesAt t pi = true →
      ((s.thr t).reg ra + imm.signExtend 64).toNat % 4 = 0 →
      (s.thr t).place t ((s.thr t).reg ra + imm.signExtend 64).toNat 4 = some (.dmem k) →
      s.poisoned (.dmem k) 4 = false →
      s.steady (.dmem k) 4 = true →
      let th := s.thr t
      let l := readBytes s.mcc.dmem k 4
      Does (.ldw t pi rd ra imm) s (Retires t (th.setReg rd (BitVec.ofNat 64 (ofLe l))) s) ∧
      Does (.ldws t pi rd ra imm) s (Retires t (th.setReg rd ((BitVec.ofNat 32 (ofLe l)).signExtend 64)) s)) ∧
  (∀ (s : State) (t : Fin 256) (pi : Fin 8) (rd ra : Fin 32) (imm : BitVec 13) (k : Nat),
      s.issuesAt t pi = true →
      ((s.thr t).reg ra + imm.signExtend 64).toNat % 8 = 0 →
      (s.thr t).place t ((s.thr t).reg ra + imm.signExtend 64).toNat 8 = some (.dmem k) →
      s.poisoned (.dmem k) 8 = false →
      s.steady (.dmem k) 8 = true →
      let th := s.thr t
      let l := readBytes s.mcc.dmem k 8
      Does (.ldd t pi rd ra imm) s (Retires t (th.setReg rd (BitVec.ofNat 64 (ofLe l))) s))

/-- An aligned store of 1, 2, 4 or 8 bytes writes the low bytes of rs at ra + imm13 and no other byte of any memory; 8 bytes clear the word's poison; no register, flag or other state changes. -/
def Obligations.LocalStores : Prop :=
  (∀ (s : State) (t : Fin 256) (pi : Fin 8) (rs ra : Fin 32) (imm : BitVec 13) (k : Nat),
      s.issuesAt t pi = true →
      ((s.thr t).reg ra + imm.signExtend 64).toNat % 1 = 0 →
      (s.thr t).place t ((s.thr t).reg ra + imm.signExtend 64).toNat 1 = some (.dmem k) →
      Does (.stb t pi rs ra imm) s (fun u =>
        Retires t (s.thr t) { s with mcc.dmem := u.mcc.dmem, mcc.poisonDmem := u.mcc.poisonDmem } u ∧
        (∀ j, j < 1 → u.byteAt false (k + j) = ((s.thr t).reg rs).extractLsb' (8 * j) 8) ∧
        (∀ a, a < k ∨ k + 1 ≤ a → u.byteAt false a = s.byteAt false a) ∧
        u.mcc.poisonDmem = s.mcc.poisonDmem)) ∧
  (∀ (s : State) (t : Fin 256) (pi : Fin 8) (rs ra : Fin 32) (imm : BitVec 13) (k : Nat),
      s.issuesAt t pi = true →
      ((s.thr t).reg ra + imm.signExtend 64).toNat % 2 = 0 →
      (s.thr t).place t ((s.thr t).reg ra + imm.signExtend 64).toNat 2 = some (.dmem k) →
      Does (.sth t pi rs ra imm) s (fun u =>
        Retires t (s.thr t) { s with mcc.dmem := u.mcc.dmem, mcc.poisonDmem := u.mcc.poisonDmem } u ∧
        (∀ j, j < 2 → u.byteAt false (k + j) = ((s.thr t).reg rs).extractLsb' (8 * j) 8) ∧
        (∀ a, a < k ∨ k + 2 ≤ a → u.byteAt false a = s.byteAt false a) ∧
        u.mcc.poisonDmem = s.mcc.poisonDmem)) ∧
  (∀ (s : State) (t : Fin 256) (pi : Fin 8) (rs ra : Fin 32) (imm : BitVec 13) (k : Nat),
      s.issuesAt t pi = true →
      ((s.thr t).reg ra + imm.signExtend 64).toNat % 4 = 0 →
      (s.thr t).place t ((s.thr t).reg ra + imm.signExtend 64).toNat 4 = some (.dmem k) →
      Does (.stw t pi rs ra imm) s (fun u =>
        Retires t (s.thr t) { s with mcc.dmem := u.mcc.dmem, mcc.poisonDmem := u.mcc.poisonDmem } u ∧
        (∀ j, j < 4 → u.byteAt false (k + j) = ((s.thr t).reg rs).extractLsb' (8 * j) 8) ∧
        (∀ a, a < k ∨ k + 4 ≤ a → u.byteAt false a = s.byteAt false a) ∧
        u.mcc.poisonDmem = s.mcc.poisonDmem)) ∧
  (∀ (s : State) (t : Fin 256) (pi : Fin 8) (rs ra : Fin 32) (imm : BitVec 13) (k : Nat),
      s.issuesAt t pi = true →
      ((s.thr t).reg ra + imm.signExtend 64).toNat % 8 = 0 →
      (s.thr t).place t ((s.thr t).reg ra + imm.signExtend 64).toNat 8 = some (.dmem k) →
      Does (.std t pi rs ra imm) s (fun u =>
        Retires t (s.thr t) { s with mcc.dmem := u.mcc.dmem, mcc.poisonDmem := u.mcc.poisonDmem } u ∧
        (∀ j, j < 8 → u.byteAt false (k + j) = ((s.thr t).reg rs).extractLsb' (8 * j) 8) ∧
        (∀ a, a < k ∨ k + 8 ≤ a → u.byteAt false a = s.byteAt false a) ∧
        u.mcc.poisonDmem.get false (k / 8) = false))

/-- An AMO on 8 aligned bytes of DMEM writes rd with the old value and the memory with the old value combined with rb; no other byte changes. -/
def Obligations.LocalAmos : Prop :=
  (∀ (s : State) (t : Fin 256) (pi : Fin 8) (rd ra rb : Fin 32) (k : Nat),
      s.issuesAt t pi = true →
      ((s.thr t).reg ra).toNat % 8 = 0 →
      (s.thr t).place t ((s.thr t).reg ra).toNat 8 = some (.dmem k) →
      s.poisoned (.dmem k) 8 = false →
      s.steady (.dmem k) 8 = true →
      let th := s.thr t
      let b := th.reg rb
      let old : Word := BitVec.ofNat 64 (ofLe (readBytes s.mcc.dmem k 8))
      let does := fun (c : Instr) (new : Word) => Does c s (fun u =>
        Retires t (th.setReg rd old) { s with mcc.dmem := u.mcc.dmem } u ∧
        (∀ j, j < 8 → u.byteAt false (k + j) = new.extractLsb' (8 * j) 8) ∧
        (∀ a, a < k ∨ k + 8 ≤ a → u.byteAt false a = s.byteAt false a))
      does (.amoSwap t pi rd ra rb) (b) ∧
      does (.amoAdd t pi rd ra rb) (old + b) ∧
      does (.amoAnd t pi rd ra rb) (old &&& b) ∧
      does (.amoOr t pi rd ra rb) (old ||| b) ∧
      does (.amoCas t pi rd ra rb) (if old = th.reg rd then b else old))

/-- A load or AMO on shared SRAM takes a slot and stalls the thread at the instruction; the bank's answer writes rd, frees the slot and lets the thread go on; a far store writes its bytes, takes a slot and goes on; its acknowledgement frees the slot; FENCE goes on once no far store is outstanding and stalls before. -/
def Obligations.FarAccesses : Prop :=
  (∀ (s : State) (t : Fin 256) (pi : Fin 8) (rd ra : Fin 32) (imm : BitVec 13) (o i z : Nat) (sx : Bool),
      s.issuesAt t pi = true →
      ((z = 1 ∨ z = 2 ∨ z = 4) ∨ (z = 8 ∧ sx = false)) →
      ((s.thr t).reg ra + imm.signExtend 64).toNat % z = 0 →
      (s.thr t).place t ((s.thr t).reg ra + imm.signExtend 64).toNat z = some (.shared o) →
      (s.thr t).pick = some i →
      Does (match z, sx with
          | 1, false => .ldb t pi rd ra imm
          | 2, false => .ldh t pi rd ra imm
          | 4, false => .ldw t pi rd ra imm
          | 8, _ => .ldd t pi rd ra imm
          | 1, true => .ldbs t pi rd ra imm
          | 2, true => .ldhs t pi rd ra imm
          | _, _ => .ldws t pi rd ra imm) s (fun u =>
        (u.thr t).st = .stall (.farLoad i rd) ∧ (u.thr t).pc = (s.thr t).pc ∧ (u.thr t).regs = (s.thr t).regs ∧
        ((u.thr t).slot i).pend = some (.farLoad (0x10000000 + o) z sx) ∧ u.mcc.shared = s.mcc.shared)) ∧
  (∀ (s : State) (t : Fin 256) (slot : Fin 16) (rd addr z : Nat) (sx : Bool),
      (s.thr t).st = .stall (.farLoad slot rd) →
      ((s.thr t).slot slot).pend = some (.farLoad addr z sx) →
      s.coresRun = true →
      s.poisoned (.shared (addr - 0x10000000)) z = false →
      s.steady (.shared (addr - 0x10000000)) z = true →
      (s.thr t).exiting = false →
      (s.thr t).stopAsked = false →
      Does (.farLoadReturn t slot) s (fun u =>
        (u.thr t).st = .run ∧ (u.thr t).pc = (s.thr t).pc + 4 ∧ ((u.thr t).slot slot).pend = none ∧
        (∀ r, (u.thr t).reg r = if r = rd ∧ rd ≠ 0 then loadedWord sx (readBytes s.mcc.shared (addr - 0x10000000) z) else (s.thr t).reg r) ∧
        u.mcc.shared = s.mcc.shared)) ∧
  (∀ (s : State) (t : Fin 256) (pi : Fin 8) (rs ra : Fin 32) (imm : BitVec 13) (o i z : Nat),
      s.issuesAt t pi = true →
      (z = 1 ∨ z = 2 ∨ z = 4 ∨ z = 8) →
      ((s.thr t).reg ra + imm.signExtend 64).toNat % z = 0 →
      (s.thr t).place t ((s.thr t).reg ra + imm.signExtend 64).toNat z = some (.shared o) →
      (s.thr t).pick = some i →
      Does (match z with
          | 1 => .stb t pi rs ra imm
          | 2 => .sth t pi rs ra imm
          | 4 => .stw t pi rs ra imm
          | _ => .std t pi rs ra imm) s (fun u =>
        (u.thr t).st = .run ∧ (u.thr t).pc = (s.thr t).pc + 4 ∧ (u.thr t).regs = (s.thr t).regs ∧ ((u.thr t).slot i).pend = some .farStore ∧
        (∀ j, j < z → u.byteAt true (o + j) = ((s.thr t).reg rs).extractLsb' (8 * j) 8) ∧
        (∀ a, a < o ∨ o + z ≤ a → u.byteAt true a = s.byteAt true a) ∧ u.mcc.dmem = s.mcc.dmem)) ∧
  (∀ (s : State) (t : Fin 256) (slot : Fin 16),
      s.coresRun = true →
      ((s.thr t).slot slot).pend = some .farStore →
      (s.thr t).st = .run →
      (s.thr t).exiting = false →
      (s.thr t).stopAsked = false →
      Does (.farStoreAck t slot) s (fun u =>
        ((u.thr t).slot slot).pend = none ∧ ((u.thr t).slot slot).status = ((s.thr t).slot slot).status ∧ (u.thr t).pc = (s.thr t).pc ∧ u.mcc.shared = s.mcc.shared)) ∧
  (∀ (s : State) (t : Fin 256) (pi : Fin 8),
      s.issuesAt t pi = true →
      Does (.fence t pi) s (fun u => if (s.thr t).storesOut then (u.thr t).st = .stall .fence ∧ (u.thr t).pc = (s.thr t).pc else Retires t (s.thr t) s u))

/-- BR and CALL go to PC + 4 × disp23, JR and JALR to ra as it was before; CALL writes m31 and JALR rd with the address of the next word; nothing else changes. -/
def Obligations.JumpInstructions : Prop :=
  (∀ (s : State) (t : Fin 256) (pi : Fin 8) (disp : BitVec 23),
      s.issuesAt t pi = true →
      (s.thr t).level.mayFetch ((s.thr t).pc + disp.signExtend 64 <<< 2).toNat = true →
      let th := s.thr t
      let target := th.pc + disp.signExtend 64 <<< 2
      Does (.br t pi disp) s (Machine.Jumps t { th with pc := target } s) ∧
      Does (.call t pi disp) s (Machine.Jumps t { th.setReg 31 (th.pc + 4) with pc := target } s)) ∧
  (∀ (s : State) (t : Fin 256) (pi : Fin 8) (rd ra : Fin 32),
      s.issuesAt t pi = true →
      (s.thr t).level.mayFetch ((s.thr t).reg ra).toNat = true →
      let th := s.thr t
      Does (.jr t pi ra) s (Machine.Jumps t { th with pc := th.reg ra } s) ∧
      Does (.jalr t pi rd ra) s (Machine.Jumps t { th.setReg rd (th.pc + 4) with pc := th.reg ra } s))

/-- EWAIT stalls on an outstanding slot, else reads and consumes the slot's status or reads NONE; EPOLL reads ESLOTS; the completion of a call writes its result bytes, then its status, and frees the slot. -/
def Obligations.SlotInstructions : Prop :=
  (∀ (s : State) (t : Fin 256) (pi : Fin 8) (rd ra : Fin 32),
      s.issuesAt t pi = true →
      let th := s.thr t
      let i := (th.reg ra).toNat % 16
      Does (.ewait t pi rd ra) s (fun u =>
        if (th.slot i).pend.isSome then (u.thr t).st = .stall (.ewait i rd) ∧ (u.thr t).pc = th.pc ∧ (u.thr t).slots = th.slots
        else Retires t ((th.setSlot i {}).setReg rd (match (th.slot i).status with
          | some x => x.setWidth 64
          | none => 0xFFFF)) s u) ∧
      Does (.epoll t pi rd) s (Retires t (th.setReg rd th.eslots) s)) ∧
  (∀ (s : State) (t : Fin 256) (slot : Fin 16) (fn blk status : Nat) (out : List (Nat × List Byte)),
      ((s.thr t).slot slot).pend = some (.call fn blk out status none) →
      (s.thr t).st = .run →
      (s.thr t).exiting = false →
      (s.thr t).stopAsked = false →
      fn ≠ 0x76 →
      s.woad.queued.find (t * 16 + slot) = none →
      s.coresRun = true →
      Does (.engineCallComplete t slot) s (fun u =>
        (u.thr t).slot slot = { pend := none, status := some (BitVec.ofNat 16 status) } ∧ (u.thr t).pc = (s.thr t).pc ∧ (u.thr t).regs = (s.thr t).regs ∧
        u.mcc.dmem = out.foldl (fun m o => writeBytes m (coreOf t * 0x10000 + blk + o.1) o.2) s.mcc.dmem ∧ u.mcc.shared = s.mcc.shared))

/-- An event goes to the lowest thread that takes it, with SRC, LEN and REF in m1 to m3 and the thread in RUN; SIGNAL and a due timer queue one event; an expired watchdog raises WATCHDOG. -/
def Obligations.ThreadEvents : Prop :=
  (∀ (s : State) (src : Fin 10) (t : Fin 256) (ev : Ev) (l : List Ev) (v : Nat),
      s.glb.mode ≠ .standby →
      2 ≤ src.val ∧ src.val ≠ 4 →
      s.mcc.queues.get [] (evKey src t) = ev :: l →
      (s.taker src (if src.val = 8 ∨ src.val = 9 then some t.val else none) none = some v) →
      Does (.eventDeliver src t) s (fun u =>
        (u.thr v).st = .run ∧ (u.thr v).reg 1 = BitVec.ofNat 64 src ∧ (u.thr v).reg 2 = BitVec.ofNat 64 ev.body.length ∧ (u.thr v).reg 3 = ev.ref ∧
        (u.thr v).rtag = ev.rtag ∧ (u.thr v).pc = (s.thr v).pc ∧ u.mcc.queues.get [] (evKey src t) = l)) ∧
  (∀ (s : State) (t : Fin 256) (pi : Fin 8) (ra : Fin 32),
      s.issuesAt t pi = true →
      s.mcc.queues.get [] (evKey 9 (((s.thr t).reg ra).toNat % 256)) = [] →
      Does (.signal t pi ra) s (fun u =>
        (u.thr t).pc = (s.thr t).pc + 4 ∧ (u.thr t).regs = (s.thr t).regs ∧
        ∃ ev, u.mcc.queues.get [] (evKey 9 (((s.thr t).reg ra).toNat % 256)) = [ev] ∧ ev.body = [] ∧ ev.ref.toNat % 2 ^ 16 = 0xFFFF)) ∧
  (∀ (s : State) (t : Fin 256),
      s.coresRun = true →
      (s.thr t).timer ≠ 0 →
      (s.thr t).timerFired = false →
      (s.thr t).timer.toNat ≤ s.mcc.cycle.toNat →
      s.mcc.queues.get [] (evKey 8 t) = [] →
      Does (.threadTimerFire t) s (fun u =>
        (u.thr t).timerFired = true ∧ ∃ ev, u.mcc.queues.get [] (evKey 8 t) = [ev] ∧ ev.body = [] ∧ ev.ref = 0xFFFF)) ∧
  (∀ (s : State) (t : Fin 256),
      s.coresRun = true →
      (s.thr t).st = .run →
      ((s.thr t).level = .system ∨ (s.thr t).level = .task) →
      (s.thr t).exc = false →
      (s.thr t).wdog ≠ 0 →
      1024 * (s.thr t).wdog.toNat ≤ (s.mcc.cycle - (s.thr t).wdogAt).toNat →
      Does (.watchdogExpire t) s (fun u =>
        (u.thr t).ecause = BitVec.ofNat 64 (16 * (s.thr t).level.code + 8) ∧ (u.thr t).eval = s.mcc.cycle ∧ (u.thr t).epc = (s.thr t).pc ∧
        (u.thr t).pc = (s.thr t).evec ∧ (u.thr t).level = .system ∧ (u.thr t).exc = true ∧ (u.thr t).regs = (s.thr t).regs))

/-- LCALL with a legal component and a valid gate enters level LEGAL at the gate with m1 to m8 kept, m9 to m31 zero and the window cleared; without a component it writes LEGAL_ABSENT to m1; LRET brings back what LCALL saved; a call that has run 2^20 cycles is ended with LEGAL_TIMEOUT in m1. -/
def Obligations.LegalCalls : Prop :=
  (∀ (s : State) (t : Fin 256) (pi : Fin 8) (gate : Fin 64),
      s.issuesAt t pi = true →
      (s.thr t).level ≠ .legal →
      s.mcc.legal = 1 →
      bitAt (s.imemWord (coreOf t) (0xE000 + 4 * gate)) 31 = true →
      let th := s.thr t
      let win := coreOf t * 0x10000 + 0xF000 + 0x400 * (t % 4)
      Does (.lcall t pi gate) s (fun u =>
        (u.thr t).level = .legal ∧ (u.thr t).pc = BitVec.ofNat 64 (0xE000 + s.imemWord (coreOf t) (0xE000 + 4 * gate) % 2 ^ 13) ∧
        (∀ r, r < 9 → (u.thr t).reg r = th.reg r) ∧ (∀ r, 9 ≤ r → (u.thr t).reg r = 0) ∧ (∀ p, 1 ≤ p → p < 8 → predGet (u.thr t).preds p = false) ∧
        (∀ a, a < 0x380 → u.byteAt false (win + a) = 0) ∧ (∀ a, a < win ∨ win + 0x380 ≤ a → u.byteAt false a = s.byteAt false a))) ∧
  (∀ (s : State) (t : Fin 256) (pi : Fin 8) (gate : Fin 64),
      s.issuesAt t pi = true →
      (s.thr t).level ≠ .legal →
      s.mcc.legal ≠ 1 →
      Does (.lcall t pi gate) s (Retires t ((s.thr t).setReg 1 (BitVec.ofNat 64 stLegalAbsent)) s)) ∧
  (∀ (s : State) (t : Fin 256) (pi : Fin 8) (sh : Shadow),
      s.issuesAt t pi = true →
      (s.thr t).level = .legal →
      (s.thr t).shadow = some sh →
      sh.level ≠ .legal →
      (s.thr t).regs.wf = true ∧ sh.regs.wf = true →
      (sh.regs.all (fun e => decide (9 ≤ e.1)) = true) →
      Does (.lret t pi) s (fun u =>
        (u.thr t).level = sh.level ∧ (u.thr t).pc = sh.ret ∧ (u.thr t).preds = sh.preds ∧ (u.thr t).shadow = none ∧
        (∀ r, r < 9 → (u.thr t).reg r = (s.thr t).reg r) ∧ (∀ r, 9 ≤ r → (u.thr t).reg r = sh.regs.get 0 r))) ∧
  (∀ (s : State) (t : Fin 256) (sh : Shadow),
      (s.thr t).level = .legal →
      (s.thr t).shadow = some sh →
      2 ^ 20 ≤ (s.mcc.cycle - sh.started).toNat →
      s.coresRun = true →
      (s.thr t).exiting = false →
      (s.thr t).stopAsked = false →
      Does (.legalTimeout t) s (fun u =>
        (u.thr t).level = sh.level ∧ (u.thr t).pc = sh.ret ∧ (u.thr t).reg 1 = BitVec.ofNat 64 stLegalTimeout ∧ (u.thr t).shadow = none ∧
        (u.thr t).st = .run ∧ u.mcc.dmem = s.mcc.dmem))

/-- NOP and YIELD go on; WAIT enters WAIT; EXIT enters IDLE when no slot is outstanding; TRAP raises TRAP with ra; ERET leaves a handler; a granted CSRR reads and a granted CSRW writes its CSR. -/
def Obligations.SystemInstructions : Prop :=
  (∀ (s : State) (t : Fin 256) (pi : Fin 8),
      s.issuesAt t pi = true →
      let th := s.thr t
      Does (.nop t pi) s (Retires t th s) ∧ Does (.yield t pi) s (Retires t th s) ∧ Does (.wait t pi) s (Retires t { th with st := .wait } s)) ∧
  (∀ (s : State) (t : Fin 256) (pi : Fin 8),
      s.issuesAt t pi = true →
      (s.thr t).busy = false →
      (s.thr t).tookRef = none →
      Does (.exit t pi) s (fun u =>
        (u.thr t).st = .idle ∧ (u.thr t).pc = (s.thr t).pc + 4 ∧ (u.thr t).regs = (s.thr t).regs ∧ (∀ v, v ≠ t.val → u.thr v = s.thr v))) ∧
  (∀ (s : State) (t : Fin 256) (pi : Fin 8) (ra : Fin 32),
      s.issuesAt t pi = true →
      (s.thr t).exc = false →
      (s.thr t).level ≠ .legal →
      Does (.trap t pi ra) s (Excepts t 7 ((s.thr t).reg ra) s)) ∧
  (∀ (s : State) (t : Fin 256) (pi : Fin 8) (rd ra : Fin 32),
      s.issuesAt t pi = true →
      (s.thr t).level = .system →
      (s.thr t).exc = true →
      Does (.eret t pi rd ra) s (Machine.Jumps t { s.thr t with pc := (s.thr t).epc, level := Level.ofCode ((s.thr t).ecause.toNat / 16 % 4), exc := false } s)) ∧
  (∀ (s : State) (t : Fin 256) (pi : Fin 8) (rd : Fin 32) (csr : BitVec 13) (w : Bool),
      s.issuesAt t pi = true →
      csrAccess (s.thr t).level csr.toNat = some (true, w) →
      let th := s.thr t
      Does (.csrr t pi rd csr) s (Retires t ((if csr = 3 then { th with taiNs := taiNsWord s } else th).setReg rd (csrValue t th s csr.toNat)) s)) ∧
  (∀ (s : State) (t : Fin 256) (pi : Fin 8) (ra : Fin 32) (csr : BitVec 13) (r : Bool),
      s.issuesAt t pi = true →
      csrAccess (s.thr t).level csr.toNat = some (r, true) →
      Does (.csrw t pi ra csr) s (Retires t (csrSet (s.thr t) s.mcc.cycle csr.toNat ((s.thr t).reg ra)) s))

/-- A CSRR or CSRW of a CSR that Table 9-3 does not list raises ILLEGAL; an access that the table does not grant to the level raises PRIV. -/
def Obligations.CsrExceptions : Prop :=
  (∀ (s : State) (t : Fin 256) (pi : Fin 8) (r : Fin 32) (csr : BitVec 13),
      s.issuesAt t pi = true →
      (s.thr t).exc = false →
      (s.thr t).level ≠ .legal →
      csrAccess (s.thr t).level csr.toNat = none →
      Does (.csrr t pi r csr) s (Excepts t 1 (encI pi 0x38 r 0 csr.toNat) s) ∧ Does (.csrw t pi r csr) s (Excepts t 1 (encI pi 0x39 0 r csr.toNat) s)) ∧
  (∀ (s : State) (t : Fin 256) (pi : Fin 8) (r : Fin 32) (csr : BitVec 13) (b : Bool),
      s.issuesAt t pi = true →
      (s.thr t).exc = false →
      (s.thr t).level ≠ .legal →
      csrAccess (s.thr t).level csr.toNat = some (false, b) →
      Does (.csrr t pi r csr) s (Excepts t 2 (encI pi 0x38 r 0 csr.toNat) s)) ∧
  (∀ (s : State) (t : Fin 256) (pi : Fin 8) (r : Fin 32) (csr : BitVec 13) (b : Bool),
      s.issuesAt t pi = true →
      (s.thr t).exc = false →
      (s.thr t).level ≠ .legal →
      csrAccess (s.thr t).level csr.toNat = some (b, false) →
      Does (.csrw t pi r csr) s (Excepts t 2 (encI pi 0x39 0 r csr.toNat) s))

/-- A word that R255 calls reserved raises ILLEGAL with the word as EVAL; an exception raised while EXC = 1 halts the thread, which keeps its registers, and posts THREAD_FAULT. -/
def Obligations.ReservedAndNestedExceptions : Prop :=
  (∀ (s : State) (t : Fin 256) (w : BitVec 32),
      s.fetches t = true →
      reservedWord w.toNat = true →
      (s.thr t).exc = false →
      (s.thr t).level ≠ .legal →
      Does (.reservedOpcode t w) s (Excepts t 1 (w.setWidth 64) s)) ∧
  (∀ (s : State) (t : Fin 256) (pi : Fin 8) (ra : Fin 32),
      s.issuesAt t pi = true →
      (s.thr t).exc = true →
      (s.thr t).level ≠ .legal →
      (s.thr t).tookRef = none →
      s.hp.nq.en = false →
      s.hp.nq.waiting = [] →
      s.hp.eth = [] →
      Does (.trap t pi ra) s (fun u =>
        (u.thr t).st = .halted ∧ (u.thr t).regs = (s.thr t).regs ∧ (u.thr t).pc = (s.thr t).pc ∧
        ∃ n, u.hp.nq.waiting = [n] ∧ n.code = 0x0C01 ∧ n.cls = 1))

/-- MCC_START starts an idle thread at its entry; MCC_STOP puts a running thread without outstanding slots into IDLE; DMA_COPY copies memory; an unassigned function completes at once with BAD_FUNC. -/
def Obligations.CoreCalls : Prop :=
  (∀ (s : State) (t : Fin 256) (pi : Fin 8) (rt ra : Fin 32) (p : Place) (i : Nat) (e : Entry),
      s.callsAt t pi ra 0xE0 16 p i = true →
      field (s.load p 16) 0 1 < 64 ∧ field (s.load p 16) 1 1 < 4 ∧ zeros (s.load p 16) 4 4 = true →
      (s.thr (4 * field (s.load p 16) 0 1 + field (s.load p 16) 1 1)).st = .idle →
      4 * field (s.load p 16) 0 1 + field (s.load p 16) 1 1 ≠ t →
      s.entryOf (field (s.load p 16) 2 2) = some e →
      let v := 4 * field (s.load p 16) 0 1 + field (s.load p 16) 1 1
      Does (.mccStart t pi rt ra) s (fun u =>
        ((u.thr t).slot i).pend = some (.call 0xE0 ((s.thr t).reg ra).toNat [] stOk none) ∧
        (u.thr v).st = .run ∧ (u.thr v).pc = BitVec.ofNat 64 e.addr ∧ (u.thr v).level = e.level ∧ (u.thr v).reg 1 = BitVec.ofNat 64 (field (s.load p 16) 8 8))) ∧
  (∀ (s : State) (t : Fin 256) (pi : Fin 8) (rt ra : Fin 32) (p : Place) (i : Nat),
      s.callsAt t pi ra 0xE1 8 p i = true →
      field (s.load p 8) 0 1 < 64 ∧ field (s.load p 8) 1 1 < 4 ∧ zeros (s.load p 8) 2 6 = true →
      4 * field (s.load p 8) 0 1 + field (s.load p 8) 1 1 ≠ t →
      (s.thr (4 * field (s.load p 8) 0 1 + field (s.load p 8) 1 1)).st = .run ∧ (s.thr (4 * field (s.load p 8) 0 1 + field (s.load p 8) 1 1)).level ≠ .legal →
      (s.thr (4 * field (s.load p 8) 0 1 + field (s.load p 8) 1 1)).busy = false →
      Does (.mccStop t pi rt ra) s (fun u =>
        ((u.thr t).slot i).pend = some (.call 0xE1 ((s.thr t).reg ra).toNat [] stOk none) ∧ (u.thr (4 * field (s.load p 8) 0 1 + field (s.load p 8) 1 1)).st = .idle)) ∧
  (∀ (s : State) (t : Fin 256) (pi : Fin 8) (rt ra : Fin 32) (p : Place) (i : Nat) (q r : Place),
      s.callsAt t pi ra 0xE2 24 p i = true →
      field (s.load p 24) 16 4 % 8 = 0 ∧ field (s.load p 24) 16 4 ≤ 65536 ∧ zeros (s.load p 24) 20 4 = true →
      (s.thr t).bufPlace t (field (s.load p 24) 0 8) (field (s.load p 24) 16 4) = some q →
      (s.thr t).bufPlace t (field (s.load p 24) 8 8) (field (s.load p 24) 16 4) = some r →
      s.poisoned q (field (s.load p 24) 16 4) = false →
      Does (.dmaCopy t pi rt ra) s (fun u =>
        ((u.thr t).slot i).pend = some (.call 0xE2 ((s.thr t).reg ra).toNat [] stOk none) ∧
        u.mcc.dmem = (storeAt r (s.load q (field (s.load p 24) 16 4)) s).mcc.dmem ∧ u.mcc.shared = (storeAt r (s.load q (field (s.load p 24) 16 4)) s).mcc.shared)) ∧
  (∀ (s : State) (t : Fin 256) (pi : Fin 8) (rt ra : Fin 32) (fn : BitVec 8) (p : Place) (i : Nat),
      fnAssigned fn.toNat = false →
      s.issuesAt t pi = true →
      (s.thr t).storesOut = false →
      ((s.thr t).reg ra).toNat % 8 = 0 →
      ((s.thr t).reg ra).toNat < 0x10000 →
      (s.thr t).place t ((s.thr t).reg ra).toNat 0 = some p →
      (s.thr t).pick = some i →
      Does (.ecallUnassignedFn t pi rt ra fn) s (fun u =>
        (u.thr t).slot i = { pend := none, status := some (BitVec.ofNat 16 stBadFunc) } ∧ (u.thr t).pc = (s.thr t).pc + 4 ∧ (rt ≠ 0 → (u.thr t).reg rt = BitVec.ofNat 64 i)))

/-- An engine call outside LEGAL's list at LEGAL, LDG_WRITE or LDG_EXEC at SYSTEM, and a function that ECMASK or Table 9-16 denies to TASK completes at once with PRIV and raises no exception. -/
def Obligations.CallsNotPermitted : Prop :=
  (∀ (s : State) (t : Fin 256) (pi : Fin 8) (rt ra : Fin 32) (fn len : Nat) (eng : Nat → List Byte → State → EngOut) (p : Place) (i : Nat),
      s.issuesAt t pi = true →
      (s.thr t).storesOut = false →
      ((s.thr t).reg ra).toNat % 8 = 0 →
      ((s.thr t).reg ra).toNat < 0x10000 →
      (s.thr t).place t ((s.thr t).reg ra).toNat len = some p →
      (s.thr t).pick = some i →
      fn < 256 →
      (s.thr t).permits fn = false →
      let u := ecall t pi rt ra fn len eng s
      (u.thr t).slot i = { pend := none, status := some (BitVec.ofNat 16 stPriv) } ∧ (u.thr t).pc = (s.thr t).pc + 4 ∧ (u.thr t).exc = (s.thr t).exc ∧
      u.mcc.dmem = s.mcc.dmem ∧ u.woad = s.woad ∧ u.ing = s.ing ∧ u.lake = s.lake) ∧
  (∀ (th : Thread) (fn : Nat),
      fn < 256 →
      th.permits fn = true ↔ (match th.level with
        | .rom => True
        | .legal => fn ∈ [0x01, 0x02, 0x40, 0x41, 0x42, 0x51, 0x72, 0x73, 0xC0]
        | .system => fn ≠ 0x41 ∧ fn ≠ 0x42
        | .task => th.ecmask.getLsbD (fn / 16) = true ∧ systemOnly fn = false ∧ fn ≠ 0x41 ∧ fn ≠ 0x42))

/-- A switch to the backup oscillator and back (R14), and the links of the fabric (R15). -/
def Obligations.ClockAndFabric : Prop :=
  (∀ (s : State) (unlock : Bool),
      s.powered = true →
      s.glb.clkSrc = false →
      s.cas.paired = false →
      Does (.refclkLoss unlock) s (fun u =>
        u.glb = { s.glb with clkSrc := true, clkLostAt := s.nowNs, relocking := false, nqOvf := u.glb.nqOvf } ∧
        u.tmu.clkFault = true ∧ u.tmu.valid = false ∧ u.tmu.invCause = 0 ∧ u.tmu.st = .holdover ∧ u.tmu.corr = 0 ∧
        ((∀ e ∈ u.rla.ports, e.2.stopR14 = true ∧ e.2.resumeAt = none) ∧ (∀ e ∈ u.lm.ports, e.2.stopR14 = true ∧ e.2.resumeAt = none)) ∧
        u = { s with glb := u.glb, tmu := u.tmu, rla := u.rla, lm := u.lm, hp := u.hp, evr := u.evr, sepia := u.sepia, ctr := u.ctr })) ∧
  (∀ (s : State),
      s.glb.clkSrc = true →
      s.powered = true →
      s.glb.clkLostAt + 10000000 ≤ s.nowNs →
      exec .refclkStable s = .next { s with glb.relocking := true }) ∧
  (∀ (s : State),
      s.glb.clkSrc = true →
      s.powered = true →
      s.nowNs < s.glb.clkLostAt + 10000000 →
      Stays (.refclkStable) s) ∧
  (∀ (s : State),
      s.glb.clkSrc = true →
      s.powered = true →
      s.glb.relocking = true →
      Does (.pllRelock) s (fun u =>
        u.glb.clkSrc = false ∧ u.glb.relocking = false ∧ u.tmu.clkFault = false ∧
        (∀ p, (u.rla.ports.find p).map (·.resumeAt) = (s.rla.ports.find p).map fun x => some (sfNext x.desc.sfcode x.desc.sofs s.nowNs * 1000000000)) ∧
        Posts 0x0102 1 (le 4 (min ((s.nowNs - s.glb.clkLostAt) / 1000) 0xFFFFFFFF)) s u ∧
        u = { s with glb := u.glb, tmu := u.tmu, rla := u.rla, lm := u.lm, hp := u.hp, ctr := u.ctr })) ∧
  (∀ (seq : BitVec 6) (body : BitVec 282),
      flitGood (mkFlit seq body) = true ∧ flitSeq (mkFlit seq body) = seq ∧ flitDst (mkFlit seq body) = bits body.toNat 281 277) ∧
  (∀ (s : State) (link : Fin 76) (body : BitVec 282) (err : BitVec 320) (late : Bool) (x : BitVec 320 × FabLink),
      s.coresRun = true →
      (s.glb.links.get {} link).st ≠ .failed →
      (s.glb.links.get {} link).send body late = x →
      flitGood (x.1 ^^^ err) = true →
      flitDst (x.1 ^^^ err) < 24 →
      flitSeq (x.1 ^^^ err) = x.2.expSeq →
      Does (.flitReceive link body err late) s (fun u =>
        u.glb.links.get {} link = { x.2 with st := .up, expSeq := x.2.expSeq + 1, retries := 0 } ∧
        (∀ k, k ≠ link.val → u.glb.links.get {} k = s.glb.links.get {} k) ∧
        u = { s with glb.links := u.glb.links })) ∧
  (∀ (s : State) (link : Fin 76) (body : BitVec 282) (err : BitVec 320) (late : Bool) (x : BitVec 320 × FabLink),
      s.coresRun = true →
      (s.glb.links.get {} link).st ≠ .failed →
      (s.glb.links.get {} link).send body late = x →
      ¬ (flitGood (x.1 ^^^ err) = true ∧ flitDst (x.1 ^^^ err) < 24) →
      x.2.retries < 16 →
      x.2.st = .up →
      Does (.flitReceive link body err late) s (fun u =>
        u.out = .retry link x.2.expSeq.toNat :: s.out ∧
        (u.glb.links.get {} link = { x.2 with st := .retrying, retries := x.2.retries + 1, resend := x.2.sent.dropWhile fun f => flitSeq f != x.2.expSeq }) ∧
        (∀ k, k ≠ link.val → u.glb.links.get {} k = s.glb.links.get {} k) ∧
        u.counter (kFab link) = s.counter (kFab link) + 1 ∧
        u = { s with glb.links := u.glb.links, ctr := u.ctr, out := u.out })) ∧
  (∀ (s : State) (link : Fin 76) (body : BitVec 282) (err : BitVec 320) (late : Bool) (x : BitVec 320 × FabLink),
      s.coresRun = true →
      (s.glb.links.get {} link).st ≠ .failed →
      (s.glb.links.get {} link).send body late = x →
      ¬ (flitGood (x.1 ^^^ err) = true ∧ flitDst (x.1 ^^^ err) < 24) →
      16 ≤ x.2.retries →
      x.2.st = .retrying →
      late = false →
      s.cas.paired = false →
      Does (.flitReceive link body err late) s (fun u =>
        (u.glb.links.get {} link).st = .failed ∧
        (∀ k, k ≠ link.val → u.glb.links.get {} k = s.glb.links.get {} k) ∧
        Posts 0x0103 0 (le 1 link) s u ∧
        (u.cpm.resetDue = s.cpm.resetDue ∨ u.cpm.resetDue = some 3) ∧
        u.ldg = s.ldg ∧ u.ing = s.ing ∧ u.lake = s.lake ∧ u.mcc = s.mcc))

/-- Writes to BAR0 (R8, R9), and the capture of the statistics counters (R22). -/
def Obligations.RegisterWrites : Prop :=
  (∀ (s : State) (a m : Nat) (v : BitVec 32),
      s.barRuns = true →
      (a, m) ∈ [(0x20, 0x7F), (0x4030, 0xF), (0x10010, 0xFF), (0x100A0, 0x3F), (0x18010, 0x3), (0x20010, 0x1FF), (0x20014, 0x3F), (0x20020, 0x37), (0x28030, 0xF), (0x2C020, 0xF), (0x30030, 0x1F), (0x30040, 0xFF), (0x38010, 0x3F), (0x38030, 0x1F), (0x3C030, 0xF), (0x40030, 0x1F), (0x44030, 0x1F), (0x48030, 0x7F), (0x50010, 0xFF), (0x50030, 0x1F), (0x58030, 0xF), (0x58040, 0xFF), (0x8008, 0xF), (0x8040, 0x1F), (0x5C030, 0xF)] →
      Does (.registerWrite (BitVec.ofNat 20 a) v) s (fun u =>
        u.readReg a = v.toNat &&& m ∧
        u.ctr = s.ctr ∧ u.cap = s.cap ∧ u.mcc.threads = s.mcc.threads ∧ u.ldg.live = s.ldg.live ∧ u.lake.log = s.lake.log ∧ u.ing.dir = s.ing.dir ∧ u.woad.slots = s.woad.slots ∧ u.out = s.out)) ∧
  (∀ (s : State) (a : Nat) (v : BitVec 32),
      a ∈ [0x0, 0x8, 0x28, 0x2C, 0x30, 0x44, 0x50, 0x58, 0x5C, 0x60,
      0x64, 0x10014, 0x10020, 0x10024, 0x10028, 0x1002C, 0x10030, 0x10034, 0x10038, 0x1003C,
      0x10040, 0x10044, 0x10048, 0x1004C, 0x10050, 0x10054, 0x10058, 0x1005C, 0x10060, 0x10064,
      0x10068, 0x1006C, 0x10070, 0x10074, 0x10078, 0x1007C, 0x10080, 0x10084, 0x10090, 0x10094,
      0x10098, 0x1009C, 0x100A4, 0x100A8, 0x18014, 0x18020, 0x18024, 0x18028, 0x1802C, 0x18030,
      0x18034, 0x18038, 0x1803C, 0x18040, 0x18044, 0x18048, 0x1804C, 0x18050, 0x18054, 0x18058,
      0x1805C, 0x18060, 0x18064, 0x18068, 0x1806C, 0x18070, 0x18074, 0x18078, 0x1807C, 0x18080,
      0x18084, 0x18088, 0x1808C, 0x18090, 0x18094, 0x18098, 0x1809C, 0x180A0, 0x180A4, 0x180B0,
      0x20000, 0x20004, 0x20008, 0x20018, 0x2001C, 0x20024, 0x20028, 0x20030, 0x20034, 0x20048,
      0x2004C, 0x20050, 0x20058, 0x2005C, 0x28000, 0x28008, 0x2800C, 0x28010, 0x28014, 0x28018,
      0x28020, 0x28024, 0x28028, 0x2802C, 0x28034, 0x28038, 0x28040, 0x28044, 0x2C000, 0x2C004,
      0x2C008, 0x2C00C, 0x2C010, 0x2C014, 0x2C024, 0x2C028, 0x2C030, 0x30000, 0x30004, 0x30008,
      0x3000C, 0x30010, 0x30014, 0x30018, 0x3001C, 0x30020, 0x30034, 0x30038, 0x30044, 0x30050,
      0x50000, 0x50004, 0x50014, 0x50018, 0x5001C, 0x50020, 0x50024, 0x50034, 0x50038, 0x8000,
      0x8024, 0x803C, 0x8044, 0x8048, 0x38000, 0x38004, 0x38008, 0x38014, 0x38018, 0x3801C,
      0x38034, 0x38038, 0x38040, 0x3C000, 0x3C008, 0x3C00C, 0x3C010, 0x3C014, 0x3C018, 0x3C01C,
      0x3C020, 0x3C024, 0x3C034, 0x3C038, 0x40000, 0x40004, 0x40008, 0x40010, 0x40014, 0x40034,
      0x40038, 0x48000, 0x48020, 0x48024, 0x48028, 0x4802C, 0x48034, 0x48038, 0x48040, 0x48044,
      0x48048, 0x4804C, 0x4000, 0x4004, 0x4010, 0x4014, 0x401C, 0x4034, 0x4038, 0x5C004,
      0x5C010, 0x5C014, 0x5C020, 0x5C024, 0x5C034, 0x5C038, 0x58000, 0x58008, 0x5800C, 0x58010,
      0x58014, 0x58018, 0x5801C, 0x58024, 0x58034, 0x58038, 0x4040, 0x4050] →
      Stays (.registerWrite (BitVec.ofNat 20 a) v) s) ∧
  (∀ (s : State) (a : BitVec 20) (v : BitVec 32),
      a.toNat % 4 ≠ 0 →
      Stays (.registerWrite a v) s) ∧
  (∀ (s : State) (v : BitVec 32),
      s.barRuns = true →
      exec (.registerWrite 0x00010 v) s = .next { s with glb.nqOvf := s.glb.nqOvf && !v.getLsbD 16 } ∧
        exec (.registerWrite 0x20040 v) s = .next { s with ing.strangerOvf := s.ing.strangerOvf && !v.getLsbD 31 } ∧
        exec (.registerWrite 0x58020 v) s = .next { s with stest.fullNext := s.stest.fullNext || v.getLsbD 31 } ∧
        exec (.registerWrite 0x04044 v) s = .next { s with cpm.gpioOut := v.setWidth 16 } ∧
        exec (.registerWrite 0x04048 v) s = .next { s with cpm.gpioOe := v.setWidth 16 } ∧
        exec (.registerWrite 0x00040 v) s = .next (if v.getLsbD 0 = true ∧ s.glb.snapIn = none then { s with glb.snapIn := some 4 } else s)) ∧
  (∀ (s : State),
      s.barRuns = true →
      s.glb.snapIn = none →
      exec .glbSnap s = .next { s with glb.snapIn := some 4 }) ∧
  (∀ (s : State),
      s.glb.snapIn ≠ none →
      Stays (.glbSnap) s) ∧
  (∀ (s : State),
      s.clocked = true →
      s.glb.snapIn = some 0 →
      exec .snapCapture s = .next { s with cap := s.ctr, glb.snapSeq := s.glb.snapSeq + 1, glb.snapIn := none }) ∧
  (∀ (s : State) (bit hwSet : Bool),
      s.barRuns = true →
      exec (.nqOvfClear bit hwSet) s = .next { s with glb.nqOvf := s.glb.nqOvf && (!bit || hwSet) })

/-- Sample links of the radio ports: alignment, loss, transmitter faults (R71, R72, R91, R92). -/
def Obligations.RadioLinks : Prop :=
  (∀ (s : State) (port : Fin 4) (word : BitVec 50),
      (s.rport port).desc.enable = true →
      s.coresRun = true →
      wordGood word.toNat = true →
      Does (.rxSampleWord port word true) s (fun u =>
        (u.rport port).goodRun = (s.rport port).goodRun + 1 ∧ (u.rport port).missFrm = 0 ∧ (u.rport port).txfault = bitAt word.toNat 14 ∧ (u.rport port).wordNo = (s.rport port).wordNo + 1 ∧
        ((u.rport port).txfRun = (if bitAt word.toNat 14 then (s.rport port).txfRun + 1 else 0)) ∧
        (u.rport port).chanIn = (s.rport port).channel word.toNat s.nowNs ∧
        (u.rport port).rxlink = (s.rport port).rxlink ∧ (u.rport port).desc = (s.rport port).desc ∧
        (u.counter (0x110000 + port * 2 + 1) = s.counter (0x110000 + port * 2 + 1) + (if bitAt word.toNat 15 then 1 else 0)) ∧
        u.counter (0x110000 + port * 2) = s.counter (0x110000 + port * 2) ∧
        (∀ q, q ≠ port.val → u.rport q = s.rport q) ∧
        u = { s with rla := u.rla, ctr := u.ctr })) ∧
  (∀ (s : State) (port : Fin 4) (word : BitVec 50),
      (s.rport port).desc.enable = true →
      s.coresRun = true →
      wordGood word.toNat = false →
      Does (.rxSampleWord port word false) s (fun u =>
        (u.rport port).goodRun = 0 ∧ (u.rport port).missFrm = (s.rport port).missFrm + 1 ∧ (u.rport port).txfault = (s.rport port).txfault ∧ (u.rport port).txfRun = (s.rport port).txfRun ∧
        (s.rport port).wordNo + 1 ∈ (u.rport port).parityAt ∧
        (u.rport port).chanIn = (0, 0) ∧
        u.counter (0x110000 + port * 2) = s.counter (0x110000 + port * 2) + 1 ∧
        (∀ q, q ≠ port.val → u.rport q = s.rport q) ∧
        u = { s with rla := u.rla, ctr := u.ctr })) ∧
  (∀ (s : State) (port : Fin 4),
      s.coresRun = true →
      (s.rport port).desc.enable = true →
      (s.rport port).rxlink = false →
      64 ≤ (s.rport port).goodRun →
      (port ≠ 0 ∨ s.glb.mode ≠ .bringup) →
      Does (.rxLinkUp port) s (fun u =>
        u.rport port = { s.rport port with rxlink := true, linked := true, linkUpAt := s.nowNs, parityAt := [], missFrm := 0 } ∧
        (∀ q, q ≠ port.val → u.rport q = s.rport q) ∧
        u = { s with rla := u.rla })) ∧
  (∀ (s : State) (port : Fin 4),
      (s.rport port).goodRun < 64 →
      Stays (.rxLinkUp port) s) ∧
  (∀ (s : State) (port : Fin 4),
      s.coresRun = true →
      (s.rport port).rxlink = true →
      (4 ≤ (s.rport port).missFrm ∨ 64 ≤ (s.rport port).parityAt.length) →
      Does (.radioLinkLoss port) s (fun u =>
        (u.rport port).rxlink = false ∧ (u.rport port).goodRun = 0 ∧
        (∀ k, u.rla.layers.find k = if k / 256 = port.val then none else s.rla.layers.find k) ∧
        Posts 0x0204 0 (le 1 port) s u ∧
        (∀ q, q ≠ port.val → u.rport q = s.rport q) ∧
        u = { s with rla := u.rla, hp := u.hp, glb := u.glb, ctr := u.ctr })) ∧
  (∀ (s : State) (port : Fin 4),
      (s.rport port).missFrm < 4 ∧ (s.rport port).parityAt.length < 64 →
      Stays (.radioLinkLoss port) s) ∧
  (∀ (s : State) (port : Fin 4),
      s.coresRun = true →
      (s.rport port).desc.enable = true →
      (s.rport port).rxlink = false →
      (s.rport port).linkUpAt = (s.rport port).enabledAt ∧ (s.rport port).enabledAt + 10000000 ≤ s.nowNs →
      Does (.radioLinkTimeout port) s (fun u =>
        (u.rport port).rxlink = false ∧ (u.rport port).linkUpAt = s.nowNs ∧
        Posts 0x0204 0 (le 1 port) s u ∧
        (∀ q, q ≠ port.val → u.rport q = s.rport q) ∧
        u = { s with rla := u.rla, hp := u.hp, glb := u.glb, ctr := u.ctr })) ∧
  (∀ (s : State) (port : Fin 4),
      s.nowNs < (s.rport port).enabledAt + 10000000 →
      Stays (.radioLinkTimeout port) s) ∧
  (∀ (s : State) (port : Fin 4),
      s.coresRun = true →
      (s.rport port).desc.enable = true →
      (s.rport port).rxlink = false →
      (s.rport port).linkUpAt + 100000000 ≤ s.nowNs →
      Does (.radioLinkRealign port) s (fun u =>
        u.rport port = { s.rport port with linkUpAt := s.nowNs, goodRun := 0, missFrm := 0, parityAt := [] } ∧
        (∀ q, q ≠ port.val → u.rport q = s.rport q) ∧
        u = { s with rla := u.rla })) ∧
  (∀ (s : State) (port : Fin 4),
      s.nowNs < (s.rport port).linkUpAt + 100000000 →
      Stays (.radioLinkRealign port) s) ∧
  (∀ (s : State) (port : Fin 4),
      s.coresRun = true →
      (s.rport port).desc.enable = true →
      (s.rport port).txstop = false →
      64 ≤ (s.rport port).txfRun →
      Does (.radioTxStop port) s (fun u =>
        u.rport port = { (s.rport port).cut s.nowNs with txstop := true } ∧
        Posts 0x0205 0 (le 1 port) s u ∧
        (∀ q, q ≠ port.val → u.rport q = s.rport q) ∧
        u = { s with rla := u.rla, hp := u.hp, glb := u.glb, ctr := u.ctr })) ∧
  (∀ (s : State) (port : Fin 4),
      (s.rport port).txfRun < 64 →
      Stays (.radioTxStop port) s) ∧
  (∀ (s : State) (port : Fin 4) (k : Nat),
      s.coresRun = true →
      (s.rport port).txstop = true →
      (s.rport port).txfClearAt = some k →
      k + 10000000 ≤ s.nowNs →
      sfNext (s.rport port).desc.sfcode (s.rport port).desc.sofs (k + 10000000) * 1000000000 ≤ s.nowNs →
      Does (.radioTxResume port) s (fun u =>
        u.rport port = { s.rport port with txstop := false } ∧
        (∀ q, q ≠ port.val → u.rport q = s.rport q) ∧
        u = { s with rla := u.rla })) ∧
  (∀ (s : State) (port : Fin 4) (k : Nat),
      (s.rport port).txfClearAt = some k →
      s.nowNs < k + 10000000 →
      Stays (.radioTxResume port) s)

/-- Decoding layers, frame ends and descriptors of the radio ports (R76, R78, R80, R90). -/
def Obligations.RadioReception : Prop :=
  (∀ (s : State) (lane : Fin 256) (rate : Fin 3) (ma : BitVec 64) (kepoch l : Nat),
      s.laneOpen lane = true →
      l < (s.rport (lane / 64)).desc.depth ∧ l < 4 →
      s.rla.layers.find (lane * 4 + l) = none →
      (∀ k < l, s.rla.layers.find (lane * 4 + k) ≠ none) →
      Does (.syncDetect lane rate ma kepoch) s (fun u =>
        (∃ h, u.rla.layers.find (lane * 4 + l) = some h ∧ h.rate = rate ∧ h.ma = ma ∧ h.kepoch = kepoch ∧ h.overlapped = decide (0 < l ∨ (s.held lane) ≠ [])) ∧
        (∀ k h, k / 4 = lane.val → s.rla.layers.find k = some h → u.rla.layers.find k = some { h with overlapped := true }) ∧
        (∀ k, k / 4 ≠ lane.val → u.rla.layers.find k = s.rla.layers.find k) ∧
        u.counter (0x100000 + lane * 32) = s.counter (0x100000 + lane * 32) + 1 ∧
        u = { s with rla := u.rla, ctr := u.ctr })) ∧
  (∀ (s : State) (lane : Fin 256) (rate : Fin 3) (ma : BitVec 64) (kepoch : Nat),
      s.laneOpen lane = true →
      (∀ k < (s.rport (lane / 64)).desc.depth, s.rla.layers.find (lane * 4 + k) ≠ none) →
      Does (.syncDetect lane rate ma kepoch) s (fun u =>
        u.counter (0x100000 + lane * 32 + 4) = s.counter (0x100000 + lane * 32 + 4) + 1 ∧
        u.rla.layers = s.rla.layers ∧
        (∀ k, k ≠ lane.val → u.rla.busy.get [] k = s.rla.busy.get [] k) ∧
        u = { s with rla.busy := u.rla.busy, ctr := u.ctr })) ∧
  (∀ (s : State) (lane : Fin 256) (rate : Fin 3) (ma : BitVec 64) (kepoch : Nat),
      s.laneOpen lane = false →
      Stays (.syncDetect lane rate ma kepoch) s) ∧
  (∀ (s : State) (lane : Fin 256) (layer : Fin 4) (h : Held),
      s.coresRun = true →
      s.rla.layers.find (lane.val * 4 + layer.val) = some h →
      2 ≤ (s.held lane).length →
      Does (.layerReprocess lane layer) s (fun u =>
        u.rla.layers.find (lane.val * 4 + layer.val) = some { h with reproc := true } ∧
        (∀ k, k ≠ lane.val * 4 + layer.val → u.rla.layers.find k = s.rla.layers.find k) ∧
        u = { s with rla.layers := u.rla.layers })) ∧
  (∀ (s : State) (lane : Fin 256) (layer : Fin 4) (bytes : List Byte) (est : Nat) (h : Held),
      s.coresRun = true →
      s.rla.layers.find (lane.val * 4 + layer.val) = some h →
      frPlen bytes ≤ 96 →
      radioCrcOk bytes = false →
      Does (.radioFrameReceive lane layer bytes est) s (fun u =>
        u.rla.layers.find (lane.val * 4 + layer.val) = none ∧
        (∀ k, k ≠ lane.val * 4 + layer.val → u.rla.layers.find k = s.rla.layers.find k) ∧
        u.counter (0x100000 + lane * 32 + 3) = s.counter (0x100000 + lane * 32 + 3) + 1 ∧
        u.rla.acks = s.rla.acks ∧ u.ing.dir = s.ing.dir ∧ u.ldg = s.ldg ∧ u.bal = s.bal ∧ u.lake = s.lake ∧ u.mcc = s.mcc ∧ u.out = s.out ∧ u.pass = s.pass)) ∧
  (∀ (s : State) (lane : Fin 256) (layer : Fin 4) (bytes : List Byte) (est : Nat),
      s.rla.layers.find (lane.val * 4 + layer.val) = none →
      Stays (.radioFrameReceive lane layer bytes est) s) ∧
  (∀ (s : State) (port : Fin 4) (d : RDesc) (at_ : Nat),
      s.coresRun = true →
      (s.rport port).next = some (d, at_) →
      (port = 0 ∨ s.glb.mode ≠ .bringup) →
      (s.rport port).desc.enable = true →
      d.enable = true →
      sfNext (s.rport port).desc.sfcode (s.rport port).desc.sofs (at_ + 3000000) * 1000000000 ≤ s.nowNs →
      Does (.portDescriptorApply port) s (fun u =>
        (u.rport port).desc = d ∧ (u.rport port).next = none ∧ (u.rport port).txlink = true ∧ (u.rport port).rxlink = (s.rport port).rxlink ∧ (u.rport port).queue = (s.rport port).queue ∧
        (∀ q, q ≠ port.val → u.rport q = s.rport q) ∧
        (u.row port).perS = sfLen d.sfcode ∧ (u.row port).action = 1 ∧ (u.row port).arg = port.val ∧
        u.ing = s.ing ∧ u.ldg = s.ldg ∧ u.lake = s.lake ∧ u.mcc.threads = s.mcc.threads)) ∧
  (∀ (s : State) (port : Fin 4) (d : RDesc) (at_ : Nat),
      s.coresRun = true →
      (s.rport port).next = some (d, at_) →
      (port = 0 ∨ s.glb.mode ≠ .bringup) →
      d.enable = false →
      sfNext ((s.rport port).grid d).1 ((s.rport port).grid d).2 (at_ + 3000000) * 1000000000 ≤ s.nowNs →
      Does (.portDescriptorApply port) s (fun u =>
        (u.rport port).desc = d ∧ (u.rport port).next = none ∧ (u.rport port).txlink = false ∧ (u.rport port).rxlink = false ∧ (u.rport port).beacon = none ∧
        (∀ q, q ≠ port.val → u.rport q = s.rport q) ∧
        u.row port = {} ∧
        u.ing = s.ing ∧ u.ldg = s.ldg ∧ u.lake = s.lake ∧ u.mcc.threads = s.mcc.threads)) ∧
  (∀ (s : State) (port : Fin 4) (d : RDesc) (at_ : Nat),
      (s.rport port).next = some (d, at_) →
      (s.rport port).desc.enable = true →
      s.nowNs < sfNext (s.rport port).desc.sfcode (s.rport port).desc.sofs (at_ + 3000000) * 1000000000 →
      Stays (.portDescriptorApply port) s)

/-- Acks, beacons and what a lane sends (R32, R60, R81 to R86). -/
def Obligations.RadioTransmission : Prop :=
  (∀ (s : State) (lane : Fin 256) (a : Ack) (l : List Ack) (x : RPort),
      s.clocked = true →
      s.rport (lane / 64) = x →
      s.rla.acks.get [] lane = a :: l →
      s.nowNs + x.desc.txPath = a.at_ →
      s.mayTx (lane / 64) a.at_ = true →
      s.onAir (lane / 64) = [] →
      1 ≤ x.desc.ntx →
      x.desc.units (lane % 64 / 8) = 10000 ∧ x.desc.units 8 = 10000 →
      Does (.ackLaunch lane) s (fun u =>
        u.out = .radio (lane / 64) (lane / 64 * 64 + lane % 64) a.rate a.at_ (dnAir a.frame) :: s.out ∧
        u.rla.acks.get [] lane = l ∧
        (∀ k, k ≠ lane.val → u.rla.acks.get [] k = s.rla.acks.get [] k) ∧
        (∀ q, q ≠ lane / 64 → u.rport q = s.rport q) ∧
        (u.rport (lane / 64)).air.head? = some (airOf (lane % 64) a.rate a.at_ (dnAir a.frame)) ∧
        (u.rla.wakes.head? = (if a.wake then some (a.ma, a.at_ + airNs a.rate (48 + 8 * a.frame.length)) else s.rla.wakes.head?)) ∧
        u.counter (0x100000 + lane * 32 + 5) = s.counter (0x100000 + lane * 32 + 5) + 1 ∧
        u.rla.layers = s.rla.layers ∧
        u = { s with rla := u.rla, ctr := u.ctr, out := u.out })) ∧
  (∀ (s : State) (lane : Fin 256) (a : Ack) (l : List Ack),
      s.clocked = true →
      s.rla.acks.get [] lane = a :: l →
      a.at_ ≤ s.nowNs + (s.rport (lane / 64)).desc.txPath →
      (a.at_ + 1000 < s.nowNs + (s.rport (lane / 64)).desc.txPath ∨ s.mayTx (lane / 64) a.at_ = false) →
      Does (.ackLaunch lane) s (fun u =>
        u.out = s.out ∧
        u.rla.acks.get [] lane = l ∧
        (∀ k, k ≠ lane.val → u.rla.acks.get [] k = s.rla.acks.get [] k) ∧
        u.counter (0x100000 + lane * 32 + 7) = s.counter (0x100000 + lane * 32 + 7) + 1 ∧
        u = { s with rla.acks := u.rla.acks, ctr := u.ctr })) ∧
  (∀ (s : State) (lane : Fin 256) (a : Ack) (l : List Ack),
      s.rla.acks.get [] lane = a :: l →
      s.nowNs + (s.rport (lane / 64)).desc.txPath < a.at_ →
      Stays (.ackLaunch lane) s) ∧
  (∀ (s : State) (port : Fin 4),
      s.clocked = true →
      (s.rport port).desc.enable = true →
      (s.row port).due (2000000 + (s.rport port).desc.txPath) s.nowNs = true →
      (s.rport port).begins ((s.row port).tS * 1000000000) = true →
      s.tmu.valid = false →
      (s.rport port).bmiss < 2 →
      Does (.beaconBuild port) s (fun u =>
        (u.rport port).bmiss = (s.rport port).bmiss + 1 ∧ (u.rport port).beacon = (s.rport port).beacon ∧ (u.rport port).counting = true ∧
        (∀ q, q ≠ port.val → u.rport q = s.rport q) ∧
        u.out = s.out ∧ u.ing = s.ing ∧ u.ldg = s.ldg)) ∧
  (∀ (s : State) (port : Fin 4) (e : Nat) (key : List Byte),
      s.clocked = true →
      (s.rport port).desc.enable = true →
      (s.row port).due (2000000 + (s.rport port).desc.txPath) s.nowNs = true →
      (s.rport port).begins ((s.row port).tS * 1000000000) = true →
      s.tmu.valid = true →
      s.woad.bcast.next = none ∧ s.beaconKey (s.rport port).desc (s.row port).tS = some (e, key) →
      Does (.beaconBuild port) s (fun u =>
        (∃ more, (u.rport port).beacon = some { start := (s.row port).tS * 1000000000, recovery := (s.rport port).bloss, frame := beaconFrame key (beaconBody port (s.row port).tS e (s.rport port).bloss more s) }) ∧
        (u.rport port).bmiss = (s.rport port).bmiss ∧ (u.rport port).counting = true ∧
        (∀ q, q ≠ port.val → u.rport q = s.rport q) ∧
        u.out = s.out ∧ u.ing = s.ing ∧ u.ldg = s.ldg)) ∧
  (∀ (s : State) (port : Fin 4),
      ((s.row port).due (2000000 + (s.rport port).desc.txPath) s.nowNs = false ∨ (s.rport port).desc.enable = false) →
      Stays (.beaconBuild port) s) ∧
  (∀ (s : State) (port : Fin 4) (b : Beacon),
      s.clocked = true →
      (s.rport port).beacon = some b →
      b.start ≤ s.nowNs + (s.rport port).desc.txPath →
      s.mayTx port b.start = true →
      (s.rport port).linked = true ∧ s.tmu.valid = true →
      b.recovery = false →
      Does (.beaconLaunch port) s (fun u =>
        (u.out = ((s.rport port).desc.dl.map fun i => Out.radio port (port * 64 + i) 1 b.start (beaconAir false b.frame)).reverse ++ s.out) ∧
        (u.rport port).beacon = none ∧ (u.rport port).bmiss = 0 ∧ (u.rport port).queue = (s.rport port).queue ∧ (u.rport port).bloss = (s.rport port).bloss ∧
        (∀ q, q ≠ port.val → u.rport q = s.rport q) ∧
        u = { s with rla := u.rla, out := u.out })) ∧
  (∀ (s : State) (port : Fin 4) (b : Beacon),
      s.clocked = true →
      (s.rport port).beacon = some b →
      b.start ≤ s.nowNs + (s.rport port).desc.txPath →
      s.mayTx port b.start = true →
      (s.rport port).linked = true ∧ s.tmu.valid = true →
      b.recovery = true →
      Does (.beaconLaunch port) s (fun u =>
        (u.out = ((s.rport port).desc.dl.map fun i => Out.radio port (port * 64 + i) 1 b.start (beaconAir true b.frame)).reverse ++ s.out) ∧
        (u.rport port).beacon = none ∧ (u.rport port).bmiss = 0 ∧ (u.rport port).bloss = false ∧ (u.rport port).heldTill = b.start + sfLen (s.rport port).desc.sfcode * 1000000000 ∧
        Posts 0x0202 1 (le 1 port ++ zeroBytes 7 ++ le 8 (b.start / 1000000000)) s u ∧
        (∀ q, q ≠ port.val → u.rport q = s.rport q) ∧
        u = { s with rla := u.rla, out := u.out, hp := u.hp, glb := u.glb, ctr := u.ctr })) ∧
  (∀ (s : State) (port : Fin 4) (b : Beacon),
      s.clocked = true →
      (s.rport port).beacon = some b →
      b.start ≤ s.nowNs + (s.rport port).desc.txPath →
      (s.mayTx port b.start = false ∨ (s.rport port).linked = false ∨ s.tmu.valid = false) →
      (s.rport port).counting = true →
      (s.rport port).bmiss = 2 ∧ (s.rport port).bloss = false →
      Does (.beaconLaunch port) s (fun u =>
        (u.rport port).beacon = none ∧ (u.rport port).bmiss = 3 ∧ (u.rport port).bloss = true ∧
        Posts 0x0201 0 (le 1 port ++ le 1 3) s u ∧
        u.out = s.out ∧
        (∀ q, q ≠ port.val → u.rport q = s.rport q) ∧
        u = { s with rla := u.rla, hp := u.hp, glb := u.glb, ctr := u.ctr }))

/-- What the RLA calls of the cores do (R54, R90, R272). -/
def Obligations.RadioCalls : Prop :=
  (∀ (s : State) (t : Fin 256) (pi : Fin 8) (rt ra : Fin 32) (p : Place) (i : Nat) (b : List Byte),
      s.callsAt t pi ra 0x20 64 p i = true →
      s.load p 64 = b →
      field b 0 1 ≤ 3 ∧ zeros b 5 3 = true ∧ zeros b 62 2 = true →
      field b 1 1 ≤ 1 ∧ field b 3 1 ≤ 1 →
      (rdescOf b).ok = true →
      Answers (.rlaPortCfg t pi rt ra) t 0x20 ra i s (fun r =>
        r.good [] ∧
        (r.st.rport (field b 0 1)).next = some (rdescOf b, s.nowNs) ∧ (r.st.rport (field b 0 1)).desc = (s.rport (field b 0 1)).desc ∧
        (∀ q, q ≠ field b 0 1 → r.st.rport q = s.rport q) ∧
        r.st = { calling t rt i s with rla := r.st.rla })) ∧
  (∀ (s : State) (t : Fin 256) (pi : Fin 8) (rt ra : Fin 32) (p : Place) (i : Nat) (b : List Byte),
      s.callsAt t pi ra 0x20 64 p i = true →
      s.load p 64 = b →
      field b 0 1 ≤ 3 →
      (zeros b 5 3 = false ∨ zeros b 62 2 = false ∨ (rdescOf b).ok = false) →
      Answers (.rlaPortCfg t pi rt ra) t 0x20 ra i s (fun r =>
        r.refuses stBadDescriptor (calling t rt i s))) ∧
  (∀ (s : State) (t : Fin 256) (pi : Fin 8) (rt ra : Fin 32) (p : Place) (i : Nat) (b : List Byte) (cmd : List Byte) (q : Place),
      s.callsAt t pi ra 0x21 24 p i = true →
      s.load p 24 = b →
      field b 0 1 ≤ 3 ∧ field b 1 1 = 0 ∧ 1 ≤ field b 2 1 ∧ field b 2 1 ≤ 96 ∧ zeros b 3 1 = true ∧ field b 4 4 < 2 ^ 20 →
      (s.thr t).bufPlace t (field b 16 8) (field b 2 1) = some q →
      s.poisoned q (field b 2 1) = false →
      s.load q (field b 2 1) = cmd →
      s.entryBad (field b 4 4) = false →
      (s.entry (field b 4 4)).st ≠ .free →
      dnCheck (field b 4 4) cmd s = none ∧ dnCheck (field b 4 4) cmd (calling t rt i s) = none →
      (s.rport (field b 0 1)).queue.length < 1024 →
      Answers (.rlaQueue t pi rt ra) t 0x21 ra i s (fun r =>
        r.good [(12, le 4 (s.rport (field b 0 1)).nextTicket.toNat)] ∧
        (∃ f, (r.st.rport (field b 0 1)).queue = (s.rport (field b 0 1)).queue ++ [f] ∧ f.ticket = (s.rport (field b 0 1)).nextTicket ∧ f.mh = field b 4 4 ∧ f.ma = (s.entry (field b 4 4)).ma ∧ f.fcnt = BitVec.ofNat 32 (field b 8 4) ∧ f.body = cmd ∧ f.queuedAt = s.nowNs) ∧
        (r.st.rport (field b 0 1)).nextTicket = (s.rport (field b 0 1)).nextTicket + 1 ∧
        (∀ q, q ≠ field b 0 1 → r.st.rport q = s.rport q) ∧
        r.st = { calling t rt i s with rla := r.st.rla })) ∧
  (∀ (s : State) (t : Fin 256) (pi : Fin 8) (rt ra : Fin 32) (p : Place) (i : Nat) (b : List Byte) (f : DnFrame),
      s.callsAt t pi ra 0x22 16 p i = true →
      s.load p 16 = b →
      field b 0 1 ≤ 3 ∧ zeros b 1 3 = true ∧ zeros b 8 8 = true →
      f ∈ (s.rport (field b 0 1)).queue ∧ f.ticket = BitVec.ofNat 32 (field b 4 4) →
      Answers (.rlaWithdraw t pi rt ra) t 0x22 ra i s (fun r =>
        r.good [] ∧
        (∀ g, g ∈ (r.st.rport (field b 0 1)).queue ↔ g ∈ (s.rport (field b 0 1)).queue ∧ g.ticket ≠ BitVec.ofNat 32 (field b 4 4)) ∧
        (∀ q, q ≠ field b 0 1 → r.st.rport q = s.rport q) ∧
        r.st = { calling t rt i s with rla := r.st.rla })) ∧
  (∀ (s : State) (t : Fin 256) (pi : Fin 8) (rt ra : Fin 32) (p : Place) (i : Nat) (b : List Byte),
      s.callsAt t pi ra 0x22 16 p i = true →
      s.load p 16 = b →
      field b 0 1 ≤ 3 ∧ zeros b 1 3 = true ∧ zeros b 8 8 = true →
      (∀ f ∈ (s.rport (field b 0 1)).queue, f.ticket ≠ BitVec.ofNat 32 (field b 4 4)) →
      Answers (.rlaWithdraw t pi rt ra) t 0x22 ra i s (fun r =>
        r.refuses stNotFound (calling t rt i s))) ∧
  (∀ (s : State) (port : Fin 4) (lane : Fin 4) (at_ : Nat) (f : DnFrame) (frame : List Byte) (x : RPort) (li : Nat),
      s.clocked = true →
      s.rport port = x →
      s.downOpen port at_ = true →
      x.desc.dl[lane.val]? = some li →
      x.queue = [f] ∧ s.slotReady port lane (x.chainAt lane at_) f = true →
      at_ = (x.chainAt lane at_).next ∧ at_ = s.nowNs + x.desc.txPath →
      s.outranked port at_ = false →
      s.mayTx port at_ = true →
      s.onAir port = [] →
      1 ≤ x.desc.ntx →
      x.desc.units (li / 8) = 10000 ∧ x.desc.units 8 = 10000 →
      dnFrame f false s = some frame →
      s.slotMore port lane (x.chainAt lane at_) ((x.chainAt lane at_).next + airNs 1 (256 + 8 * f.body.length) + 2000000) (some f.ticket) = false →
      at_ + airNs 1 (48 + 8 * frame.length) ≤ (x.chainAt lane at_).stop →
      Does (.downlinkLaunch port lane at_ (some f.ticket)) s (fun u =>
        u.out = .radio port (port * 64 + li) 1 at_ (dnAir frame) :: s.out ∧
        (u.rport port).queue = [] ∧
        (∀ q, q ≠ port.val → u.rport q = s.rport q) ∧
        u = { s with rla := u.rla, out := u.out })) ∧
  (∀ (s : State) (port : Fin 4) (lane : Fin 4) (at_ : Nat) (ticket : Option (BitVec 32)),
      s.downOpen port at_ = false →
      Stays (.downlinkLaunch port lane at_ ticket) s)

/-- Sample links and descriptors of the line ports (R97, R98, R127). -/
def Obligations.LineLinks : Prop :=
  (∀ (s : State) (port : Fin 4) (word : BitVec 16),
      (s.lport port).desc.enable = true →
      s.lineRuns = true →
      popN 16 word.toNat % 2 = 0 →
      (s.lport port).calAt = none →
      Does (.lineSampleWord port word true) s (fun u =>
        (u.lport port).goodRun = (s.lport port).goodRun + 1 ∧ (u.lport port).missFrm = 0 ∧ (u.lport port).afef = bitAt word.toNat 1 ∧ (u.lport port).calBusy = bitAt word.toNat 2 ∧
        ((u.lport port).afefRun = (if bitAt word.toNat 1 then (s.lport port).afefRun + 1 else 0)) ∧
        (u.lport port).chanIn = BitVec.ofNat 12 (bits word.toNat 15 4) ∧
        (u.lport port).rxlink = (s.lport port).rxlink ∧ (u.lport port).queue = (s.lport port).queue ∧
        (∀ q, q ≠ port.val → u.lport q = s.lport q) ∧
        u = { s with lm := u.lm, ctr := u.ctr })) ∧
  (∀ (s : State) (port : Fin 4) (word : BitVec 16),
      (s.lport port).desc.enable = true →
      s.lineRuns = true →
      popN 16 word.toNat % 2 = 1 →
      (s.lport port).calAt = none →
      Does (.lineSampleWord port word false) s (fun u =>
        (u.lport port).goodRun = 0 ∧ (u.lport port).missFrm = (s.lport port).missFrm + 1 ∧ (u.lport port).chanIn = 0 ∧ (u.lport port).afef = (s.lport port).afef ∧ (u.lport port).afefRun = (s.lport port).afefRun ∧ (u.lport port).calBusy = (s.lport port).calBusy ∧
        (s.lport port).wordNo + 1 ∈ (u.lport port).parityAt ∧
        u.counter (0x120000 + port * 32 + 14) = s.counter (0x120000 + port * 32 + 14) + 1 ∧
        (∀ q, q ≠ port.val → u.lport q = s.lport q) ∧
        u = { s with lm := u.lm, ctr := u.ctr })) ∧
  (∀ (s : State) (port : Fin 4) (word : BitVec 16) (frm : Bool),
      (s.lineRuns = false ∨ (s.lport port).desc.enable = false) →
      Stays (.lineSampleWord port word frm) s) ∧
  (∀ (s : State) (port : Fin 4),
      (s.lport port).desc.enable = true →
      (s.lport port).rxlink = false →
      s.lineRuns = true →
      64 ≤ (s.lport port).goodRun →
      Does (.lineLinkUp port) s (fun u =>
        u.lport port = { (s.lport port) with rxlink := true, linkUpAt := s.nowNs, parityAt := [], missFrm := 0 } ∧
        (∀ q, q ≠ port.val → u.lport q = s.lport q) ∧
        u = { s with lm := u.lm })) ∧
  (∀ (s : State) (port : Fin 4),
      (s.lport port).rxlink = true →
      (4 ≤ (s.lport port).missFrm ∨ 64 ≤ (s.lport port).parityAt.length) →
      s.coresRun = true →
      Does (.lineLinkLoss port) s (fun u =>
        u.lport port = { (s.lport port) with rxlink := false, linkUpAt := s.nowNs, goodRun := 0, rx := none, resp := none } ∧
        Posts 0x0301 0 (le 1 port) s u ∧
        (∀ q, q ≠ port.val → u.lport q = s.lport q) ∧
        u = { s with lm := u.lm, hp := u.hp, glb := u.glb, ctr := u.ctr })) ∧
  (∀ (s : State) (port : Fin 4),
      (s.lport port).desc.enable = true →
      (s.lport port).rxlink = false →
      (s.lport port).linkUpAt + 100000000 ≤ s.nowNs →
      Does (.lineLinkRealign port) s (fun u =>
        u.lport port = { (s.lport port) with linkUpAt := s.nowNs, goodRun := 0, missFrm := 0, parityAt := [] } ∧
        (∀ q, q ≠ port.val → u.lport q = s.lport q) ∧
        u = { s with lm := u.lm })) ∧
  (∀ (s : State) (port : Fin 4),
      (s.lport port).desc.enable = true →
      (s.lport port).txstop = false →
      64 ≤ (s.lport port).afefRun →
      s.clocked = true →
      Does (.lineTxStop port) s (fun u =>
        u.lport port = { (s.lport port).cut s.nowNs with txstop := true } ∧
        Posts 0x0302 0 (le 1 port) s u ∧
        (∀ q, q ≠ port.val → u.lport q = s.lport q) ∧
        u = { s with lm := u.lm, hp := u.hp, glb := u.glb, ctr := u.ctr })) ∧
  (∀ (s : State) (port : Fin 4) (k : Nat),
      (s.lport port).txstop = true →
      (s.lport port).afefClearAt = some k →
      k + 10000000 ≤ s.nowNs →
      s.coresRun = true →
      Does (.lineTxResume port) s (fun u =>
        u.lport port = { (s.lport port) with txstop := false } ∧
        (∀ q, q ≠ port.val → u.lport q = s.lport q) ∧
        u = { s with lm := u.lm })) ∧
  (∀ (s : State) (port : Fin 4) (d : LDesc) (at_ : Nat),
      (s.lport port).next = some (d, at_) →
      (s.lport port).ever = true ∧ (s.lport port).desc.enable = true ∧ d.enable = true →
      sfNext (s.lport port).desc.sfcode (s.lport port).desc.sofs (at_ + 3000000) * 1000000000 ≤ s.nowNs →
      (s.lport port).quiet = true ∧ (s.lport port).air = [] →
      s.clocked = true →
      Does (.lineDescriptorApply port) s (fun u =>
        u.lport port = { (s.lport port) with desc := d, next := none, txlink := true } ∧
        (∀ q, q ≠ port.val → u.lport q = s.lport q) ∧
        (u.row (4 + port)).perS = sfLen d.sfcode ∧ (u.row (4 + port)).action = 2 ∧
        u.ing = s.ing ∧ u.ldg = s.ldg ∧ u.lake = s.lake))

/-- Reception on the line ports (R101 to R118, R125). -/
def Obligations.LineReception : Prop :=
  (∀ (s : State) (port : Fin 4) (pre : Nat),
      s.lineRx port = true →
      Does (.linePreambleDetect port pre) s (fun u =>
        (u.lport port).rx = some { preAt := pre - (s.lport port).desc.rxlat } ∧
        (u.lport port).busyUntil = max (s.lport port).busyUntil (pre - (s.lport port).desc.rxlat + 102400) ∧
        u.counter (0x120000 + port * 32) = s.counter (0x120000 + port * 32) + 1 ∧
        (∀ q, q ≠ port.val → u.lport q = s.lport q) ∧
        u = { s with lm := u.lm, ctr := u.ctr })) ∧
  (∀ (s : State) (port : Fin 4) (soft : List Byte) (x : LRx) (fc : BitVec 64) (v : Nat),
      s.lineRx port = true →
      (s.lport port).rx = some x ∧ x.fc = none →
      fcCombine (soft.take (2 * nAct (s.lport port).desc.mask)) = fc →
      fcOpen fc = some v →
      fcType v = 0 ∧ fcNsym v ≠ 0 ∧ fcTmi v ≤ 2 →
      fcForPart v = true →
      Does (.lineFcReceive port soft) s (fun u =>
        (u.lport port).rx = some { x with fc := some fc } ∧
        ((u.lport port).busyUntil = max (s.lport port).busyUntil (x.preAt + frameNs (fcNsym v) + (if fcRspreq v then 182400 else 0))) ∧
        (∀ q, q ≠ port.val → u.lport q = s.lport q) ∧
        u = { s with lm := u.lm, ctr := u.ctr })) ∧
  (∀ (s : State) (port : Fin 4) (soft : List Byte) (x : LRx) (fc : BitVec 64),
      s.lineRx port = true →
      (s.lport port).rx = some x ∧ x.fc = none →
      fcCombine (soft.take (2 * nAct (s.lport port).desc.mask)) = fc →
      fcOpen fc = none →
      Does (.lineFcReceive port soft) s (fun u =>
        (u.lport port).rx = none ∧
        (u.lport port).busyUntil = max (s.lport port).busyUntil (x.preAt + 1250000) ∧
        u.counter (0x120000 + port * 32 + 1) = s.counter (0x120000 + port * 32 + 1) + 1 ∧
        (∀ q, q ≠ port.val → u.lport q = s.lport q) ∧
        u = { s with lm := u.lm, ctr := u.ctr })) ∧
  (∀ (s : State) (port : Fin 4) (syms : List LineSym) (snr : List Int) (x : LRx) (v : Nat) (mac : List Byte),
      (s.lport port).rx = some x →
      x.fc.bind fcOpen = some v →
      fcType v = 0 →
      s.lineRx port = true →
      ((s.lineDecode port syms).map (fun d => (d.mac, d.failed)) = some (mac, 0)) →
      fcsOk mac = true ∧ mac.length ≤ 144 ∧ macNhop mac ≠ 7 →
      (macType mac = 1 ∨ macType mac = 3) →
      0x4000 ≤ fcSrc v →
      s.lineTx port = true →
      fcRspreq v = true ∧ fcDst v = 0xFFFF →
      Does (.lineFrameReceive port syms snr) s (fun u =>
        (u.lport port).rx = none ∧
        (∃ y, (u.lport port).resp = some y ∧ y.code = 0 ∧ y.dst = fcSrc v ∧ y.path = macPath mac ∧ y.at_ = x.preAt + frameNs (fcNsym v) + 80000 ∧ y.ackreq = false) ∧
        u.counter (0x120000 + port * 32 + 2) = s.counter (0x120000 + port * 32 + 2) + 1 ∧
        (u.lport port).routes = (s.lport port).routes ∧ (u.lport port).links = (s.lport port).links ∧
        (∀ q, q ≠ port.val → u.lport q = s.lport q) ∧
        u = { s with lm := u.lm, ctr := u.ctr })) ∧
  (∀ (s : State) (port : Fin 4) (syms : List LineSym) (snr : List Int) (x : LRx) (v : Nat) (mac : List Byte) (n : Nat),
      (s.lport port).rx = some x →
      x.fc.bind fcOpen = some v →
      fcType v = 0 →
      s.lineRx port = true →
      ((s.lineDecode port syms).map (fun d => (d.mac, d.failed)) = some (mac, n)) →
      (n ≠ 0 ∨ fcsOk mac = false) →
      Does (.lineFrameReceive port syms snr) s (fun u =>
        (u.lport port).rx = none ∧ (u.lport port).resp = (s.lport port).resp ∧ (u.lport port).routes = (s.lport port).routes ∧
        u.counter (0x120000 + port * 32 + 3) = s.counter (0x120000 + port * 32 + 3) + BitVec.ofNat 64 n ∧
        (u.counter (0x120000 + port * 32 + 4) = s.counter (0x120000 + port * 32 + 4) + (if n = 0 then 1 else 0)) ∧
        (∀ q, q ≠ port.val → u.lport q = s.lport q) ∧
        u = { s with lm := u.lm, ctr := u.ctr })) ∧
  (∀ (s : State) (port : Fin 4) (syms : List LineSym) (snr : List Int) (x : LRx) (v : Nat) (mac : List Byte),
      (s.lport port).rx = some x →
      x.fc.bind fcOpen = some v →
      fcType v = 0 →
      s.lineRx port = true →
      ((s.lineDecode port syms).map (fun d => (d.mac, d.failed)) = some (mac, 0)) →
      fcsOk mac = true ∧ mac.length ≤ 144 ∧ macNhop mac ≠ 7 →
      macType mac = 2 →
      Does (.lineNbrReportReceive port syms snr) s (fun u =>
        (u.lport port).rx = none ∧
        u.counter (0x120000 + port * 32 + 2) = s.counter (0x120000 + port * 32 + 2) + 1 ∧
        (∀ l, { (u.lport port).route l with ett := 0, st := 0, heard := 0 } = { (s.lport port).route l with ett := 0, st := 0, heard := 0 }) ∧
        (∀ q, q ≠ port.val → u.lport q = s.lport q) ∧
        u = { s with lm := u.lm, ctr := u.ctr })) ∧
  (∀ (s : State) (port : Fin 4) (syms : List LineSym) (snr : List Int) (x : LRx) (v : Nat) (mac : List Byte),
      (s.lport port).rx = some x →
      x.fc.bind fcOpen = some v →
      fcType v = 0 →
      s.lineRx port = true →
      ((s.lineDecode port syms).map (fun d => (d.mac, d.failed)) = some (mac, 0)) →
      fcsOk mac = true ∧ mac.length ≤ 144 ∧ macNhop mac ≠ 7 →
      macType mac = 4 ∧ macNhop mac = 0 ∧ (macBody mac).length = 11 →
      3 ≤ field (macBody mac) 0 1 ∧ field (macBody mac) 0 1 ≤ 30 →
      mapValid (slice (macBody mac) 1 10) = true →
      fcSrc v < 0x4000 ∧ ((s.lport port).route (fcSrc v)).st ≠ 0 →
      Does (.lineTmapReceive port syms snr) s (fun u =>
        (u.lport port).rx = none ∧
        ((u.lport port).route (fcSrc v)).txmap = slice (macBody mac) 1 10 ∧ ((u.lport port).route (fcSrc v)).txtmi = field (macBody mac) 0 1 ∧ ((u.lport port).route (fcSrc v)).parent = ((s.lport port).route (fcSrc v)).parent ∧
        (∀ l, l ≠ fcSrc v → (u.lport port).route l = (s.lport port).route l) ∧
        u.counter (0x120000 + port * 32 + 2) = s.counter (0x120000 + port * 32 + 2) + 1 ∧
        (∀ q, q ≠ port.val → u.lport q = s.lport q) ∧
        u = { s with lm := u.lm, ctr := u.ctr }))

/-- Transmission on the line ports (R109 to R119, R121, R437). -/
def Obligations.LineTransmission : Prop :=
  (∀ (s : State) (port : Fin 4) (f : LTx),
      (s.lport port).nextTx = some f →
      s.lineTx port = true →
      (s.lport port).quiet = true →
      (s.lport port).busyUntil + 200000 + 40000 * f.cls + 40000 * (f.slots - f.used) ≤ s.nowNs →
      f.mac ≠ [] →
      let x := s.lport port
      let tmi := if f.dst = 0xFFFE then f.tmi else (x.link f.link).mode
      let nsym := symbolsOf x.desc.mask tmi (x.route f.dst).txmap f.mac
      Does (.lineBackoffExpire port) s (fun u =>
        u.out = .line port (fcBytes (fcData tmi nsym f.dst (f.dst != 0xFFFE)) ++ f.mac) :: s.out ∧
        ((u.lport port).queue.map (fun g => { g with used := 0 }) = (x.queue.erase f).map (fun g => { g with used := 0 })) ∧
        ((u.lport port).tx = (if f.dst = 0xFFFE then none else some ({ f with tmi := tmi }, s.nowNs + x.desc.txlat + frameNs nsym))) ∧
        u.counter (0x120000 + port * 32 + 7) = s.counter (0x120000 + port * 32 + 7) + 1 ∧
        (∀ q, q ≠ port.val → u.lport q = s.lport q) ∧
        u = { s with lm := u.lm, ctr := u.ctr, out := u.out })) ∧
  (∀ (s : State) (port : Fin 4) (x : LTx) (stop : Nat) (y : LRx) (v : Nat),
      (s.lport port).rx = some y →
      (s.lport port).tx = some (x, stop) →
      y.fc.bind fcOpen = some v →
      fcType v = 1 ∧ fcDst v = 0xFFFF →
      stop + 78000 ≤ y.preAt ∧ y.preAt ≤ stop + 84000 →
      fcCode v ≤ 2 →
      s.clocked = true →
      Does (.lineResponseReceive port) s (fun u =>
        (u.lport port).rx = none ∧ (u.lport port).tx = none ∧ (u.lport port).queue = (s.lport port).queue ∧
        u.out = s.out ∧
        (∀ q, q ≠ port.val → u.lport q = s.lport q) ∧
        u = { s with lm := u.lm, ctr := u.ctr })) ∧
  (∀ (s : State) (port : Fin 4) (x : LTx) (stop : Nat) (y : LRx) (v : Nat),
      (s.lport port).rx = some y →
      (s.lport port).tx = some (x, stop) →
      y.fc.bind fcOpen = some v →
      fcType v = 1 ∧ fcDst v = 0xFFFF →
      stop + 78000 ≤ y.preAt ∧ y.preAt ≤ stop + 84000 →
      3 ≤ fcCode v ∧ fcCode v ≤ 5 →
      x.tries < 3 →
      s.clocked = true →
      Does (.lineResponseReceive port) s (fun u =>
        (u.lport port).rx = none ∧ (u.lport port).tx = none ∧ (u.lport port).queue = { x with tries := x.tries + 1, cw := min 64 (2 * x.cw), slots := Config.random s.free % max (min 64 (2 * x.cw)) 1, used := 0 } :: (s.lport port).queue ∧
        (∀ q, q ≠ port.val → u.lport q = s.lport q) ∧
        u = { s with lm := u.lm, ctr := u.ctr, free := u.free })) ∧
  (∀ (s : State) (port : Fin 4) (x : LTx) (stop : Nat),
      (s.lport port).tx = some (x, stop) →
      (s.lport port).rx = none →
      stop + 84000 ≤ s.nowNs →
      x.tries < 3 →
      s.clocked = true →
      Does (.lineResponseWindowExpire port) s (fun u =>
        (u.lport port).tx = none ∧ (u.lport port).queue = { x with tries := x.tries + 1, cw := min 64 (2 * x.cw), slots := Config.random s.free % max (min 64 (2 * x.cw)) 1, used := 0 } :: (s.lport port).queue ∧
        u.counter (0x120000 + port * 32 + 8) = s.counter (0x120000 + port * 32 + 8) + 1 ∧
        (∀ q, q ≠ port.val → u.lport q = s.lport q) ∧
        u = { s with lm := u.lm, ctr := u.ctr, free := u.free })) ∧
  (∀ (s : State) (port : Fin 4) (y : LResp) (ready : Bool) (sugg : Fin 32),
      (s.lport port).resp = some y →
      y.sent = false ∧ y.ackreq = false ∧ y.remote = false →
      y.at_ ≤ s.nowNs + 30000 + (s.lport port).desc.txlat →
      s.lineTx port = true →
      sugg.val ≤ 2 →
      Does (.lineResponseLaunch port ready sugg) s (fun u =>
        u.out = .lineResp port y.code (fcBytes (fcResp y.code sugg y.dst)) :: s.out ∧
        (u.lport port).resp = none ∧ (u.lport port).tx = (s.lport port).tx ∧
        (∀ q, q ≠ port.val → u.lport q = s.lport q) ∧
        u = { s with lm := u.lm, ctr := u.ctr, out := u.out })) ∧
  (∀ (s : State) (port : Fin 4) (y : LResp) (k : List Byte),
      (s.lport port).resp = some y →
      y.sent = true ∧ y.ack = some k →
      y.at_ + 102400 + 40000 ≤ s.nowNs + 30000 + (s.lport port).desc.txlat →
      s.lineTx port = true →
      let x := s.lport port
      let nsym := symbolsOf x.desc.mask y.tmi (x.route y.dst).txmap (withFcs (macHead 0 1 y.path x.lseq.toNat k))
      Does (.lineAckFrameLaunch port) s (fun u =>
        u.out = .line port (fcBytes (fcData y.tmi nsym y.dst (y.dst != 0xFFFE)) ++ withFcs (macHead 0 1 y.path x.lseq.toNat k)) :: s.out ∧
        (u.lport port).resp = none ∧ (u.lport port).lseq = x.lseq + 1 ∧
        (∀ q, q ≠ port.val → u.lport q = s.lport q) ∧
        u = { s with lm := u.lm, ctr := u.ctr, out := u.out })) ∧
  (∀ (s : State) (port : Fin 4),
      (s.lport port).desc.enable = true ∧ (s.lport port).desc.lbeacon = true →
      (s.row (4 + port)).due (s.lport port).desc.txlat s.nowNs = true →
      s.tmu.valid = true →
      s.lineTx port = true →
      (s.lport port).linkUpAt + 3000000 ≤ (s.row (4 + port)).at_ →
      Does (.lbeaconSend port) s (fun u =>
        (∃ f, (u.lport port).queue = ((s.lport port).queue.filter fun f => f.kind != 3) ++ [f] ∧ f.kind = 3 ∧ f.cls = 0 ∧ f.dst = 0xFFFE ∧ f.tmi = 0 ∧ f.start = (s.row (4 + port)).tS) ∧
        (∀ q, q ≠ port.val → u.lport q = s.lport q))) ∧
  (∀ (s : State) (port : Fin 4) (lsa : Fin 16384) (rate : Bool) (j : Nat),
      s.lineTx port = true →
      ((s.lport port).snr.get [] lsa) ≠ [] →
      3 ≤ j ∧ j ≤ 30 ∧ (s.lport port).rxmaps.find j = none →
      (∀ e ∈ (s.lport port).rxmaps, e.2 ≠ mapFor (s.lport port).desc.mask rate ((s.lport port).groupSnr lsa)) →
      Does (.tmapIssue port lsa rate) s (fun u =>
        (∃ i < 31, 3 ≤ i ∧ (s.lport port).rxmaps.find i = none ∧ (u.lport port).rxmaps.find i = some (mapFor (s.lport port).desc.mask rate ((s.lport port).groupSnr lsa)) ∧ (∀ k, k ≠ i → (u.lport port).rxmaps.find k = (s.lport port).rxmaps.find k) ∧ (u.lport port).queue = (s.lport port).queue ++ [{ kind := 2, cls := 2, mac := withFcs (macHead 4 1 [] (s.lport port).lseq.toNat (le 1 i ++ mapFor (s.lport port).desc.mask rate ((s.lport port).groupSnr lsa))), dst := lsa.val, cw := 16, tmi := ((s.lport port).link lsa).mode, link := lsa.val, slots := Config.random s.free % 16 }]) ∧
        (u.lport port).lseq = (s.lport port).lseq + 1 ∧
        (∀ q, q ≠ port.val → u.lport q = s.lport q) ∧
        u = { s with lm := u.lm, free := u.free })) ∧
  (∀ (s : State) (port : Fin 4) (lsa : Fin 16384) (rate : Bool),
      (s.lport port).snr.get [] lsa = [] →
      Stays (.tmapIssue port lsa rate) s) ∧
  (∀ (s : State) (port : Fin 4) (tmi : Fin 32),
      (s.lport port).oldMaps.contains tmi.val = true →
      (s.lport port).freeAt.get 0 tmi ≤ s.lineSf port →
      s.clocked = true →
      Does (.tmapFree port tmi) s (fun u =>
        (u.lport port).rxmaps.find tmi = none ∧
        tmi.val ∉ (u.lport port).oldMaps ∧
        (∀ k, k ≠ tmi.val → (u.lport port).rxmaps.find k = (s.lport port).rxmaps.find k) ∧
        (∀ q, q ≠ port.val → u.lport q = s.lport q) ∧
        u = { s with lm := u.lm })) ∧
  (∀ (s : State) (port : Fin 4) (e : Nat × Camp),
      s.lineTx port = true →
      s.blockNext (4 + port) s.nowNs = some e →
      (s.lport port).lastPump + 20000000 ≤ s.nowNs →
      (∀ f ∈ (s.lport port).queue, f.kind ≠ 4) →
      Does (.campaignLinePump port) s (fun u =>
        (u.lport port).queue = (s.lport port).queue ++ [{ kind := 4, cls := 1, mac := [], dst := 0xFFFE, cw := 8, slots := Config.random s.free % 8 }] ∧ (u.lport port).lastPump = s.nowNs ∧
        (∀ q, q ≠ port.val → u.lport q = s.lport q) ∧
        u = { s with lm := u.lm, free := u.free }))

/-- What the LM calls of the cores do, and calibration (R127, R128, R272). -/
def Obligations.LineCalls : Prop :=
  (∀ (s : State) (t : Fin 256) (pi : Fin 8) (rt ra : Fin 32) (p : Place) (i : Nat) (b : List Byte) (site : BitVec 32) (sfcode sofs : Fin 256),
      s.callsAt t pi ra 0x30 32 p i = true →
      s.load p 32 = b →
      field b 0 1 ≤ 3 ∧ zeros b 18 14 = true ∧ field b 4 4 < 2 ^ 26 →
      field b 1 1 ≤ 1 ∧ field b 3 1 ≤ 1 →
      (ldescOf site sfcode sofs b).ok = true →
      Answers (.lmPortCfg t pi rt ra site sfcode sofs) t 0x30 ra i s (fun r =>
        r.good [] ∧
        (r.st.lport (field b 0 1)).next = some (ldescOf site sfcode sofs b, s.nowNs) ∧ (r.st.lport (field b 0 1)).desc = (s.lport (field b 0 1)).desc ∧
        (∀ q, q ≠ field b 0 1 → r.st.lport q = s.lport q) ∧
        r.st = { calling t rt i s with lm := r.st.lm })) ∧
  (∀ (s : State) (t : Fin 256) (pi : Fin 8) (rt ra : Fin 32) (p : Place) (i : Nat) (b : List Byte) (site : BitVec 32) (sfcode sofs : Fin 256),
      s.callsAt t pi ra 0x30 32 p i = true →
      s.load p 32 = b →
      field b 0 1 ≤ 3 →
      (zeros b 18 14 = false ∨ 2 ^ 26 ≤ field b 4 4 ∨ (ldescOf site sfcode sofs b).ok = false) →
      Answers (.lmPortCfg t pi rt ra site sfcode sofs) t 0x30 ra i s (fun r =>
        r.refuses stBadDescriptor (calling t rt i s))) ∧
  (∀ (s : State) (t : Fin 256) (pi : Fin 8) (rt ra : Fin 32) (p : Place) (i : Nat) (b : List Byte) (cmd : List Byte) (q : Place),
      s.callsAt t pi ra 0x31 24 p i = true →
      s.load p 24 = b →
      field b 0 1 ≤ 3 ∧ field b 1 1 = 0 ∧ 1 ≤ field b 2 1 ∧ field b 2 1 ≤ 96 ∧ zeros b 3 1 = true ∧ field b 4 4 < 2 ^ 20 →
      (s.thr t).bufPlace t (field b 16 8) (field b 2 1) = some q →
      s.poisoned q (field b 2 1) = false →
      s.load q (field b 2 1) = cmd →
      s.entryBad (field b 4 4) = false →
      (s.entry (field b 4 4)).st ≠ .free ∧ (s.entry (field b 4 4)).medium = true →
      keyCommandBad cmd = false ∧ field cmd 0 1 ≠ 5 ∧ field cmd 0 1 ≠ 8 →
      (s.entry (field b 4 4)).direct = true →
      (s.lport (field b 0 1)).queue = [] →
      Answers (.lmQueue t pi rt ra) t 0x31 ra i s (fun r =>
        r.good [(12, le 4 (s.lport (field b 0 1)).nextTicket.toNat)] ∧
        (∃ f, (r.st.lport (field b 0 1)).queue = [f] ∧ f.kind = 0 ∧ f.cls = 1 ∧ f.ticket = (s.lport (field b 0 1)).nextTicket ∧ f.mh = field b 4 4 ∧ f.fcnt = BitVec.ofNat 32 (field b 8 4) ∧ f.body = cmd) ∧
        (r.st.lport (field b 0 1)).nextTicket = (s.lport (field b 0 1)).nextTicket + 1 ∧
        (∀ q, q ≠ field b 0 1 → r.st.lport q = s.lport q) ∧
        r.st = { calling t rt i s with lm := r.st.lm, free := r.st.free })) ∧
  (∀ (s : State) (t : Fin 256) (pi : Fin 8) (rt ra : Fin 32) (p : Place) (i : Nat) (b : List Byte),
      s.callsAt t pi ra 0x32 8 p i = true →
      s.load p 8 = b →
      field b 0 1 ≤ 3 ∧ zeros b 1 7 = true →
      Answers (.lmCal t pi rt ra) t 0x32 ra i s (fun r =>
        r.good [] ∧
        (r.st.lport (field b 0 1)) = { (s.lport (field b 0 1)) with calReqAt := some ((s.lport (field b 0 1)).calReqAt.getD s.nowNs) } ∧
        (∀ q, q ≠ field b 0 1 → r.st.lport q = s.lport q) ∧
        r.st = { calling t rt i s with lm := r.st.lm })) ∧
  (∀ (s : State) (t : Fin 256) (pi : Fin 8) (rt ra : Fin 32) (p : Place) (i : Nat) (b : List Byte),
      s.callsAt t pi ra 0x33 40 p i = true →
      s.load p 40 = b →
      field b 0 1 ≤ 3 ∧ zeros b 1 1 = true ∧ field b 2 2 < 0x4000 ∧ zeros b 4 4 = true →
      Answers (.lmRouteRead t pi rt ra) t 0x33 ra i s (fun r =>
        (let e := (s.lport (field b 0 1)).route (field b 2 2)
        let tmi := if e.depth = 1 then ((s.lport (field b 0 1)).link (field b 2 2)).mode else 0
        r.good [(8, le 8 e.ma.toNat ++ le 2 e.parent ++ le 1 (e.st * 64 + e.depth * 8 + e.fails) ++ le 1 (tmi * 8) ++ le 2 e.ett ++ le 2 e.heard ++ fit 10 e.txmap ++ le 1 e.txtmi ++ zeroBytes 5)]) ∧
        r.st = calling t rt i s)) ∧
  (∀ (s : State) (t : Fin 256) (pi : Fin 8) (rt ra : Fin 32) (p : Place) (i : Nat) (b : List Byte),
      s.callsAt t pi ra 0x34 32 p i = true →
      s.load p 32 = b →
      field b 0 1 ≤ 3 ∧ zeros b 1 1 = true ∧ zeros b 6 2 = true ∧ zeros b 16 16 = true ∧ field b 2 2 < 0x4000 →
      field b 4 2 = 0xFFFF ∧ groupMa (BitVec.ofNat 64 (field b 8 8)) = false →
      Answers (.lmRouteSet t pi rt ra) t 0x34 ra i s (fun r =>
        r.good [] ∧
        (r.st.lport (field b 0 1)).route (field b 2 2) = { (s.lport (field b 0 1)).route (field b 2 2) with ma := BitVec.ofNat 64 (field b 8 8), parent := 0xFFFF, depth := 1, fails := 0, st := 1 } ∧
        (∀ l, l ≠ field b 2 2 → (r.st.lport (field b 0 1)).route l = (s.lport (field b 0 1)).route l) ∧
        (∀ q, q ≠ field b 0 1 → r.st.lport q = s.lport q) ∧
        r.st = { calling t rt i s with lm := r.st.lm })) ∧
  (∀ (s : State) (t : Fin 256) (pi : Fin 8) (rt ra : Fin 32) (p : Place) (i : Nat) (b : List Byte),
      s.callsAt t pi ra 0x35 8 p i = true →
      s.load p 8 = b →
      field b 0 1 ≤ 3 ∧ zeros b 1 1 = true ∧ zeros b 4 4 = true ∧ field b 2 2 < 0x4000 →
      (∀ e ∈ (s.lport (field b 0 1)).routes, (e.2.st = 1 ∨ e.2.st = 2) → e.2.parent ≠ field b 2 2) →
      Answers (.lmRouteFree t pi rt ra) t 0x35 ra i s (fun r =>
        r.good [] ∧
        (r.st.lport (field b 0 1)).route (field b 2 2) = {} ∧
        (∀ l, l ≠ field b 2 2 → (r.st.lport (field b 0 1)).route l = (s.lport (field b 0 1)).route l) ∧
        (∀ q, q ≠ field b 0 1 → r.st.lport q = s.lport q) ∧
        r.st = { calling t rt i s with lm := r.st.lm })) ∧
  (∀ (s : State) (t : Fin 256) (pi : Fin 8) (rt ra : Fin 32) (p : Place) (i : Nat) (b : List Byte) (e : Nat × Route),
      s.callsAt t pi ra 0x35 8 p i = true →
      s.load p 8 = b →
      (e ∈ (s.lport (field b 0 1)).routes ∧ (e.2.st = 1 ∨ e.2.st = 2) ∧ e.2.parent = field b 2 2) →
      Answers (.lmRouteFree t pi rt ra) t 0x35 ra i s (fun r =>
        r.refuses stBadArg (calling t rt i s))) ∧
  (∀ (s : State) (port : Fin 4),
      (s.lport port).desc.enable = true ∧ (s.lport port).desc.calperiod ≠ 0 ∧ (s.lport port).calAt = none →
      (s.lport port).lastCal + (s.lport port).desc.calperiod * 60000000000 ≤ s.nowNs →
      s.clocked = true →
      Does (.calperiodExpire port) s (fun u =>
        u.lport port = { (s.lport port) with calReqAt := some ((s.lport port).calReqAt.getD s.nowNs) } ∧
        (∀ q, q ≠ port.val → u.lport q = s.lport q) ∧
        u = { s with lm := u.lm })) ∧
  (∀ (s : State) (port : Fin 4) (k : Nat),
      (s.lport port).calReqAt = some k →
      s.lineRuns = true →
      (s.lport port).desc.enable = true ∧ (s.lport port).calAt = none ∧ (s.lport port).queue = [] →
      (s.lport port).quiet = true ∧ (s.lport port).busyUntil ≤ s.nowNs →
      Does (.calStart port) s (fun u =>
        u.out = .calPin port true :: s.out ∧
        (u.lport port).calAt = some s.nowNs ∧ (u.lport port).calReqAt = none ∧ (u.lport port).calSeen = false ∧
        (∀ q, q ≠ port.val → u.lport q = s.lport q) ∧
        u = { s with lm := u.lm, out := u.out })) ∧
  (∀ (s : State) (port : Fin 4) (k : Nat),
      (s.lport port).calAt = some k ∧ (s.lport port).calSeen = true ∧ (s.lport port).calBusy = false →
      s.coresRun = true →
      Does (.calEnd port) s (fun u =>
        u.out = .calPin port false :: s.out ∧
        u.lport port = { (s.lport port) with calAt := none, lastCal := s.nowNs } ∧
        u.counter (0x120000 + port * 32 + 16) = s.counter (0x120000 + port * 32 + 16) + 1 ∧
        (∀ q, q ≠ port.val → u.lport q = s.lport q) ∧
        u = { s with lm := u.lm, out := u.out, ctr := u.ctr })) ∧
  (∀ (s : State) (port : Fin 4) (k : Nat),
      (s.lport port).calAt = some k ∧ k + 2000000 ≤ s.nowNs →
      s.clocked = true →
      Does (.calTimeout port) s (fun u =>
        u.out = .calPin port false :: s.out ∧
        u.lport port = { (s.lport port) with calAt := none, lastCal := s.nowNs } ∧
        Posts 0x0304 1 (le 1 port) s u ∧
        (∀ q, q ≠ port.val → u.lport q = s.lport q) ∧
        u = { s with lm := u.lm, out := u.out, hp := u.hp, glb := u.glb, ctr := u.ctr }))

/-- The directory calls of Table 5-4 (R134 to R139). -/
def Obligations.DirectoryCalls : Prop :=
  (∀ (s : State) (t : Fin 256) (pi : Fin 8) (rt ra : Fin 32) (p : Place) (i : Nat) (b : List Byte) (mh : Nat),
      s.callsAt t pi ra 0x1 64 p i = true →
      s.load p 64 = b →
      dirReserved b = false →
      s.hk.isSome = true →
      s.lookup (BitVec.ofNat 64 (field b 0 8)) = some mh →
      s.entryBad mh = false →
      Answers (.dirLookup t pi rt ra) t 0x1 ra i s (fun r =>
        r.good [(8, le 4 mh), (32, (s.entry mh).bytes)] ∧
        r.st = calling t rt i s)) ∧
  (∀ (s : State) (t : Fin 256) (pi : Fin 8) (rt ra : Fin 32) (p : Place) (i : Nat) (b : List Byte),
      s.callsAt t pi ra 0x2 64 p i = true →
      s.load p 64 = b →
      dirReserved b = false →
      s.entryBad (field b 8 4 % 2 ^ 20) = false →
      (s.entry (field b 8 4 % 2 ^ 20)).st ≠ .free →
      Answers (.dirRead t pi rt ra) t 0x2 ra i s (fun r =>
        r.good [(0, le 8 (s.entry (field b 8 4 % 2 ^ 20)).ma.toNat), (32, (s.entry (field b 8 4 % 2 ^ 20)).bytes)] ∧
        r.st = calling t rt i s)) ∧
  (∀ (s : State) (t : Fin 256) (pi : Fin 8) (rt ra : Fin 32) (p : Place) (i : Nat) (b : List Byte),
      s.callsAt t pi ra 0x2 64 p i = true →
      s.load p 64 = b →
      dirReserved b = false →
      s.entryBad (field b 8 4 % 2 ^ 20) = false →
      (s.entry (field b 8 4 % 2 ^ 20)).st = .free →
      Answers (.dirRead t pi rt ra) t 0x2 ra i s (fun r =>
        r.status = stNotFound ∧ r.out = [(32, zeroBytes 32)] ∧ r.waits = none ∧ r.st = calling t rt i s)) ∧
  (∀ (s : State) (t : Fin 256) (pi : Fin 8) (rt ra : Fin 32) (p : Place) (i : Nat) (b : List Byte) (w : Nat),
      s.callsAt t pi ra 0x3 64 p i = true →
      s.load p 64 = b →
      dirReserved b = false ∧ field b 12 1 ≤ 3 ∧ field b 13 1 ≤ 3 ∧ field b 14 1 ≤ 63 ∧ field b 22 1 ≤ 63 ∧ groupMa (BitVec.ofNat 64 (field b 0 8)) = false →
      s.hk.isSome = true →
      s.dirClosed = false →
      s.ownerChip (BitVec.ofNat 64 (field b 0 8)) = s.cas.chipId →
      s.ing.inserts = [] →
      s.lookup (BitVec.ofNat 64 (field b 0 8)) = none →
      s.freeWay (buckets (s.hk.getD []) (BitVec.ofNat 64 (field b 0 8))).1 = some w →
      Answers (.dirInsert t pi rt ra) t 0x3 ra i s (fun r =>
        r.status = stOk ∧ r.out = [(0, le 8 (field b 0 8)), (8, le 4 w), (32, (insertEntry b).bytes)] ∧
        (∃ j, r.waits = some (.journal j)) ∧
        r.st.entry w = insertEntry b ∧
        (∀ v, v ≠ w → r.st.entry v = s.entry v) ∧
        (r.st.meter w).opn.isSome = true)) ∧
  (∀ (s : State) (t : Fin 256) (pi : Fin 8) (rt ra : Fin 32) (p : Place) (i : Nat) (b : List Byte),
      s.callsAt t pi ra 0x4 64 p i = true →
      s.load p 64 = b →
      dirReserved b = false →
      s.dirClosed = false →
      s.entryBad (field b 8 4 % 2 ^ 20) = false →
      (s.entry (field b 8 4 % 2 ^ 20)).st ≠ .free →
      ((bitAt (field b 26 1) 0 = true → field b 12 1 ≤ 3) ∧ (bitAt (field b 26 1) 1 = true → field b 13 1 ≤ 3) ∧ (bitAt (field b 26 1) 2 = true → field b 14 1 ≤ 63)) →
      Answers (.dirSet t pi rt ra) t 0x4 ra i s (fun r =>
        r.status = stOk ∧ r.out = [(0, le 8 (r.st.entry (field b 8 4 % 2 ^ 20)).ma.toNat), (8, le 4 (field b 8 4 % 2 ^ 20)), (32, (r.st.entry (field b 8 4 % 2 ^ 20)).bytes)] ∧
        (∃ j, r.waits = some (.journal j)) ∧
        (let m := field b 26 1
         let fl := field b 15 1
         (r.st.entry (field b 8 4 % 2 ^ 20)) = { (s.entry (field b 8 4 % 2 ^ 20)) with
           cls := if bitAt m 0 then BitVec.ofNat 4 (field b 12 1) else (s.entry (field b 8 4 % 2 ^ 20)).cls
           profile := if bitAt m 1 then BitVec.ofNat 2 (field b 13 1) else (s.entry (field b 8 4 % 2 ^ 20)).profile
           cal := if bitAt m 2 then BitVec.ofNat 6 (field b 14 1) else (s.entry (field b 8 4 % 2 ^ 20)).cal
           node := if bitAt m 3 then BitVec.ofNat 16 (field b 20 2) else (s.entry (field b 8 4 % 2 ^ 20)).node
           wakepend := if bitAt m 4 then bitAt fl 2 else (s.entry (field b 8 4 % 2 ^ 20)).wakepend
           st := if bitAt m 5 then (if bitAt fl 3 then .suspended else (s.entry (field b 8 4 % 2 ^ 20)).resumed) else (s.entry (field b 8 4 % 2 ^ 20)).st }) ∧
        (∀ v, v ≠ (field b 8 4 % 2 ^ 20) → r.st.entry v = s.entry v))) ∧
  (∀ (s : State) (t : Fin 256) (pi : Fin 8) (rt ra : Fin 32) (p : Place) (i : Nat) (b : List Byte),
      s.callsAt t pi ra 0x5 64 p i = true →
      s.load p 64 = b →
      dirReserved b = false →
      s.dirClosed = false →
      s.entryBad (field b 8 4 % 2 ^ 20) = false →
      (s.entry (field b 8 4 % 2 ^ 20)).st ≠ .free →
      (bitAt (field b 15 1) 1 = false ∧ field b 22 1 ≤ 63 ∧ (field b 22 1 ≠ (s.entry (field b 8 4 % 2 ^ 20)).dkslot.toNat ∨ (s.entry (field b 8 4 % 2 ^ 20)).kepoch ≠ 255)) →
      Answers (.dirEpoch t pi rt ra) t 0x5 ra i s (fun r =>
        r.status = stOk ∧ r.out = [(0, le 8 (r.st.entry (field b 8 4 % 2 ^ 20)).ma.toNat), (8, le 4 (field b 8 4 % 2 ^ 20)), (32, (r.st.entry (field b 8 4 % 2 ^ 20)).bytes)] ∧
        (∃ j, r.waits = some (.journal j)) ∧
        (r.st.entry (field b 8 4 % 2 ^ 20)) = { (s.entry (field b 8 4 % 2 ^ 20)) with pvalid := true, pdkslot := BitVec.ofNat 6 (field b 22 1) } ∧
        (∀ v, v ≠ (field b 8 4 % 2 ^ 20) → r.st.entry v = s.entry v))) ∧
  (∀ (s : State) (t : Fin 256) (pi : Fin 8) (rt ra : Fin 32) (p : Place) (i : Nat) (b : List Byte),
      s.callsAt t pi ra 0x6 64 p i = true →
      s.load p 64 = b →
      dirReserved b = false →
      s.dirClosed = false →
      s.entryBad (field b 8 4 % 2 ^ 20) = false →
      (s.entry (field b 8 4 % 2 ^ 20)).st ≠ .free →
      (s.entry (field b 8 4 % 2 ^ 20)).cmdpend = false →
      (s.ing.cmdSlots.find (field b 24 2)).isSome = true →
      Answers (.dirCmd t pi rt ra) t 0x6 ra i s (fun r =>
        r.status = stOk ∧ r.out = [(0, le 8 (r.st.entry (field b 8 4 % 2 ^ 20)).ma.toNat), (8, le 4 (field b 8 4 % 2 ^ 20)), (32, (r.st.entry (field b 8 4 % 2 ^ 20)).bytes)] ∧
        (∃ j, r.waits = some (.journal j)) ∧
        (r.st.entry (field b 8 4 % 2 ^ 20)) = { (s.entry (field b 8 4 % 2 ^ 20)) with cmdpend := true, cslot := BitVec.ofNat 12 (field b 24 2) } ∧
        (∀ v, v ≠ (field b 8 4 % 2 ^ 20) → r.st.entry v = s.entry v))) ∧
  (∀ (s : State) (t : Fin 256) (pi : Fin 8) (rt ra : Fin 32) (p : Place) (i : Nat) (b : List Byte),
      s.callsAt t pi ra 0x7 64 p i = true →
      s.load p 64 = b →
      dirReserved b = false →
      s.dirClosed = false →
      s.wayFree (field b 8 4 % 2 ^ 20) = false →
      (s.meter (field b 8 4 % 2 ^ 20)).opn = none →
      s.heldMh (field b 8 4 % 2 ^ 20) = false →
      Answers (.dirRemove t pi rt ra) t 0x7 ra i s (fun r =>
        r.status = stOk ∧ r.out = [(0, le 8 (s.entry (field b 8 4 % 2 ^ 20)).ma.toNat), (32, zeroBytes 32)] ∧
        (∃ j, r.waits = some (.journal j)) ∧
        (r.st.entry (field b 8 4 % 2 ^ 20)) = {} ∧
        (∀ v, v ≠ (field b 8 4 % 2 ^ 20) → r.st.entry v = s.entry v))) ∧
  (∀ (s : State) (t : Fin 256) (pi : Fin 8) (rt ra : Fin 32) (p : Place) (i : Nat) (b : List Byte),
      s.callsAt t pi ra 0x7 64 p i = true →
      s.load p 64 = b →
      dirReserved b = false →
      s.dirClosed = false →
      s.wayFree (field b 8 4 % 2 ^ 20) = false →
      (s.meter (field b 8 4 % 2 ^ 20)).opn.isSome = true →
      Answers (.dirRemove t pi rt ra) t 0x7 ra i s (fun r =>
        r.status = stLedgerOpen ∧ r.out = [(32, zeroBytes 32)] ∧ r.st = calling t rt i s))

/-- Calls of Table 9-16 on ingest (R144 to R157), plausibility (R152), relocation and checkpoints (R138, R150, R155). -/
def Obligations.IngestCommands : Prop :=
  (∀ (s : State) (t : Fin 256) (pi : Fin 8) (rt ra : Fin 32) (p : Place) (i : Nat) (b : List Byte),
      s.callsAt t pi ra 0x10 32 p i = true →
      s.load p 32 = b →
      zeros b 3 5 = true ∧ zeros b 28 4 = true ∧ field b 0 1 ≤ 3 ∧ field b 1 1 ≤ 3 ∧ field b 2 1 ≤ 17 →
      Answers (.ingRules t pi rt ra) t 0x10 ra i s (fun r =>
        r.good [] ∧
        r.st.plRow (field b 0 1) (field b 1 1) = { rolldig := field b 2 1, ratemax := field b 8 8, back := field b 16 4, backlogBack := field b 20 4, ahead := field b 24 4 } ∧
        (∀ k p, p ≤ 3 → (k ≠ field b 0 1 ∨ p ≠ field b 1 1) → r.st.plRow k p = s.plRow k p) ∧
        r.st = { calling t rt i s with ing.rows := r.st.ing.rows })) ∧
  (∀ (s : State) (t : Fin 256) (pi : Fin 8) (rt ra : Fin 32) (p : Place) (i : Nat) (b : List Byte) (cmd : List Byte) (q : Place),
      s.callsAt t pi ra 0x11 16 p i = true →
      s.load p 16 = b →
      zeros b 3 5 = true ∧ field b 0 2 ≤ 4095 ∧ 1 ≤ field b 2 1 ∧ field b 2 1 ≤ 94 →
      s.ing.cmdSlots.find (field b 0 2) = none →
      (s.thr t).bufPlace t (field b 8 8) (field b 2 1) = some q →
      s.poisoned q (field b 2 1) = false →
      s.load q (field b 2 1) = cmd →
      keyCommandBad cmd = false →
      Answers (.ingSlotFill t pi rt ra) t 0x11 ra i s (fun r =>
        r.good [] ∧
        r.st.ing.cmdSlots.find (field b 0 2) = some cmd ∧
        (∀ k, k ≠ field b 0 2 → r.st.ing.cmdSlots.find k = s.ing.cmdSlots.find k) ∧
        r.st.ing.dir = s.ing.dir ∧ r.st.ldg = s.ldg)) ∧
  (∀ (s : State) (t : Fin 256) (pi : Fin 8) (rt ra : Fin 32) (p : Place) (i : Nat) (b : List Byte),
      s.callsAt t pi ra 0x12 8 p i = true →
      s.load p 8 = b →
      zeros b 2 6 = true ∧ field b 0 2 ≤ 4095 →
      (s.ing.cmdSlots.find (field b 0 2)).isSome = true →
      Answers (.ingSlotFree t pi rt ra) t 0x12 ra i s (fun r =>
        r.good [] ∧
        r.st.ing.cmdSlots.find (field b 0 2) = none ∧
        (∀ k, k ≠ field b 0 2 → r.st.ing.cmdSlots.find k = s.ing.cmdSlots.find k) ∧
        r.st.ing.dir = s.ing.dir ∧ r.st.ldg = s.ldg)) ∧
  (∀ (s : State) (t : Fin 256) (pi : Fin 8) (rt ra : Fin 32) (p : Place) (i : Nat) (b : List Byte) (l1 l2 : List Stranger) (x : Stranger),
      s.callsAt t pi ra 0x13 16 p i = true →
      s.load p 16 = b →
      s.ing.strangers = l1 ++ x :: l2 →
      ((∀ y ∈ l1, y.unread = false) ∧ x.unread = true) →
      Answers (.ingStranger t pi rt ra) t 0x13 ra i s (fun r =>
        r.good [(0, le 8 x.ma.toNat), (8, le 2 x.src), (10, zeroBytes 2), (12, le 4 x.tai.toNat)] ∧
        r.st = { calling t rt i s with ing.strangers := l1 ++ { x with unread := false } :: l2 })) ∧
  (∀ (s : State) (t : Fin 256) (pi : Fin 8) (rt ra : Fin 32) (p : Place) (i : Nat) (b : List Byte),
      s.callsAt t pi ra 0x14 8 p i = true →
      s.load p 8 = b →
      zeros b 2 6 = true ∧ field b 0 1 ≤ 7 →
      Answers (.ingBackoff t pi rt ra) t 0x14 ra i s (fun r =>
        r.good [] ∧
        r.st.ing.backoff.get 0 (field b 0 1) = BitVec.ofNat 8 (field b 1 1) ∧
        (∀ k, k ≠ field b 0 1 → r.st.ing.backoff.get 0 k = s.ing.backoff.get 0 k) ∧
        r.st = { calling t rt i s with ing.backoff := r.st.ing.backoff })) ∧
  (∀ (s : State) (x : Staged) (l : List Staged),
      s.ing.staging = x :: l →
      x.buffered = false →
      s.lake.ready = true →
      (∀ p ∈ s.pass, p.mh = x.mh → p.booked = true) →
      x.ftype = 0 ∧ x.unsync = true ∧ x ∉ l →
      s.ldg.maint = [] →
      formatFault x.payload x.ent.cls.toNat = none ∧ field x.payload 6 1 = 1 →
      field (slice x.payload 8 8) 0 1 / 16 ≤ 1 ∧ field (slice x.payload 8 8) 0 1 % 16 ≤ 7 →
      (s.meter x.mh).sh.last (regIndex (field (slice x.payload 8 8) 0 1 / 16) (field (slice x.payload 8 8) 0 1 % 16)) = none →
      s.clocked = true →
      Does (.plausibilityCheck x.mh) s (fun u =>
        u.ing.staging = l ∧
        (∃ p, u.pass = s.pass ++ [p] ∧ p.mh = x.mh ∧ p.decided = x.decided ∧ p.m = x.decided / 1000000000 ∧ p.recs = [{ kind := field (slice x.payload 8 8) 0 1 / 16, tariff := field (slice x.payload 8 8) 0 1 % 16, value := field (slice x.payload 8 8) 1 7, delta := 0 }]) ∧
        (∃ e, u.lake.log = e :: s.lake.log ∧ e.rtype = 1 ∧ e.mh = x.mh ∧ e.src = x.src) ∧
        u.ing.dir = s.ing.dir ∧ u.ldg = s.ldg ∧ u.bal = s.bal ∧ u.mcc = s.mcc ∧
        u = { s with ing := u.ing, pass := u.pass, lake := u.lake, ctr := u.ctr })) ∧
  (∀ (s : State) (m n : Reloc5) (l : List Reloc5) (e : DirEntry) (w id : Nat),
      s.ing.inserts = [{ entry := e, moves := m :: n :: l, final := some w, id := id }] →
      s.heldMh m.old = false →
      m.old ≠ m.new →
      s.clocked = true →
      Does (.dirRelocation) s (fun u =>
        u.entry m.new = s.entry m.old ∧ u.entry m.old = {} ∧
        (∀ v, v ≠ m.old → v ≠ m.new → u.entry v = s.entry v) ∧
        u.ing.inserts = [{ entry := e, moves := n :: l, final := some w, id := id }] ∧
        u.counter 0x220001 = s.counter 0x220001 + 1)) ∧
  (∀ (s : State) (mh : Nat),
      s.ing.inserts = [] →
      s.ing.removes = [mh] →
      s.heldMh mh = false →
      s.clocked = true →
      Does (.dirRelocation) s (fun u =>
        u.entry mh = {} ∧ u.ing.removes = [] ∧
        (∀ v, v ≠ mh → u.entry v = s.entry v))) ∧
  (∀ (s : State) (bank : Fin 64),
      s.lake.ready = true →
      s.clocked = true →
      Does (.dirCheckpoint bank) s (fun u =>
        (u.lake.banks.find bank = some { entries := s.ing.dir.filter (fun e => e.1 / 4 % 64 == bank.val), jseq := s.ldg.jseq, lsn := s.lake.lsnHead, off := s.lake.logOff }) ∧
        (∀ k, k ≠ bank.val → u.lake.banks.find k = s.lake.banks.find k) ∧
        u.lake.camps = s.upd.camps ∧ u.lake.partMap = s.cas.partMap ∧
        u = { s with lake := u.lake })) ∧
  (∀ (s : State) (w : BitVec 32),
      s.clocked = true →
      exec (.strangerOvfClear w) s = .next { s with ing.strangerOvf := s.ing.strangerOvf && !w.getLsbD 31 })

/-- The boot ROM (R307, R406, R432, R433, R450), the end of the rebuild (R230) and of the restore replay (R156). -/
def Obligations.BootAndRestore : Prop :=
  (∀ (s : State) (b : BootIn),
      s.inRom = true →
      s.rootsOk = true →
      s.ldg.sealed = false →
      b.fails.setWidth 32 &&& 0xDF ≠ (0 : BitVec 32) →
      Does (.boot b) s (fun u =>
        u.stest.halt = true ∧ u.stest.failed = b.fails.setWidth 32 &&& 0xDF ∧
        u.woad.life ≠ .unfixed ∧
        u.upd = s.upd ∧ u.lake = s.lake ∧ u.ing = s.ing ∧ u.mcc = s.mcc ∧
        u = { s with stest := u.stest, woad := u.woad, ldg := u.ldg, sepia := u.sepia, ctr := u.ctr })) ∧
  (∀ (s : State) (b : BootIn),
      s.inRom = true →
      s.rootsOk = true →
      s.ldg.sealed = false →
      b.fails.setWidth 32 &&& 0xDF = (0 : BitVec 32) →
      b.links = [] ∧ s.stest.fullNext = false →
      (s.cpm.strap = true ∨ b.nand = []) →
      Does (.boot b) s (fun u =>
        u.upd.recovery = true ∧ u.stest.halt = false ∧
        u.woad.life ≠ .unfixed ∧
        u.lake = s.lake ∧ u.ing = s.ing ∧ u.mcc = s.mcc ∧
        u = { s with upd := u.upd, woad := u.woad, ldg := u.ldg })) ∧
  (∀ (s : State) (b : BootIn),
      s.inRom = true →
      s.rootsOk = false →
      Stays (.boot b) s) ∧
  (∀ (s : State) (ms : BitVec 32),
      s.lake.rebuild = true ∧ s.lake.inited = true ∧ s.lake.formatted = true ∧ s.coresRun = true ∧ s.mcc.image.isSome = true →
      Does (.lakeRebuild ms) s (fun u =>
        u.lake.ready = true ∧ u.lake.rebuild = false ∧ u.lake.rebuildMs = ms.toNat ∧
        u.ldg.replay = false)) ∧
  (∀ (s : State),
      s.ing.restore = true ∧ s.lake.ready = true ∧ s.coresRun = true →
      Does (.restoreReplayDone) s (fun u =>
        u.ing.restore = false ∧ u.lake.bring = [] ∧
        (∀ x ∈ u.ing.staging, x.held = false) ∧
        (∀ x ∈ s.ing.staging, x.held = false → ∃ y ∈ u.ing.staging, y = { x with buffered := y.buffered }) ∧
        u.woad = s.woad ∧ u.mcc = s.mcc))

/-- LDG_READ, LDG_WRITE and LDG_EXEC (R184 to R187, R170, R179, R181, R335, R446), internal calls under RTAG (R270). -/
def Obligations.LedgerCalls : Prop :=
  (∀ (s : State) (t : Fin 256) (pi : Fin 8) (rt ra : Fin 32) (p : Place) (i : Nat) (b : List Byte) (q : Place),
      s.callsAt t pi ra 0x40 24 p i = true →
      s.load p 24 = b →
      (s.thr t).rtag.toNat % 8 = 7 →
      field b 0 4 = 0x60000001 →
      4 ≤ field b 4 4 →
      (s.thr t).bufPlace t (field b 8 8) 4 = some q →
      Answers (.ldgRead t pi rt ra) t 0x40 ra i s (fun r =>
        r.good [(4, le 4 4)] ∧
        r.st = storeAt q (le 4 s.ldg.unseals) (calling t rt i s))) ∧
  (∀ (s : State) (t : Fin 256) (pi : Fin 8) (rt ra : Fin 32) (p : Place) (i : Nat) (b : List Byte),
      s.callsAt t pi ra 0x40 24 p i = true →
      s.load p 24 = b →
      (s.thr t).rtag.toNat % 8 = 1 →
      field b 0 4 = 0x90000000 →
      Answers (.ldgRead t pi rt ra) t 0x40 ra i s (fun r =>
        r.status = stAccessDenied ∧ r.out = [] ∧
        r.st.ldg = s.ldg ∧
        r.st.evr.eseq = s.evr.eseq + 1 ∨ r.st.evr.dropped = s.evr.dropped + 1)) ∧
  (∀ (s : State) (t : Fin 256) (pi : Fin 8) (rt ra : Fin 32) (p : Place) (i : Nat) (b : List Byte) (c : Nat) (cal : List Byte) (q : Place),
      s.callsAt t pi ra 0x41 24 p i = true →
      s.load p 24 = b →
      (s.thr t).rtag.toNat % 8 = 3 →
      c < 64 →
      field b 0 4 = 0x30000001 + c * 256 →
      0 < field b 4 4 →
      (s.thr t).bufPlace t (field b 8 8) (field b 4 4) = some q →
      s.poisoned q (field b 4 4) = false →
      s.load q (field b 4 4) = cal →
      s.ldg.sealed = false ∧ s.tooSoon (field b 16 8) = false →
      s.ldg.live.calIn.get [] c = [] →
      calValid cal = true ∧ calBoundary cal (field b 16 8) = true →
      Answers (.calendarStage t pi rt ra) t 0x41 ra i s (fun r =>
        r.status = stOk ∧ r.out = [] ∧
        (∃ n, r.waits = some (.journal n)) ∧
        r.st.ldg.live.calSt.find c = some (cal, field b 16 8) ∧
        (∀ k, k ≠ c → r.st.ldg.live.calSt.find k = s.ldg.live.calSt.find k) ∧
        r.st.ldg.live.calIn = s.ldg.live.calIn ∧ r.st.ldg.live.meters = s.ldg.live.meters)) ∧
  (∀ (s : State) (t : Fin 256) (pi : Fin 8) (rt ra : Fin 32) (p : Place) (i : Nat) (b : List Byte) (c : Nat) (d : List Byte) (q : Place),
      s.callsAt t pi ra 0x41 24 p i = true →
      s.load p 24 = b →
      (s.thr t).rtag.toNat % 8 = 2 →
      c < 1024 →
      field b 0 4 = 0x40000000 + c / 16 * 256 + c % 16 →
      field b 4 4 = 16 →
      (s.thr t).bufPlace t (field b 8 8) (field b 4 4) = some q →
      s.poisoned q (field b 4 4) = false →
      s.load q (field b 4 4) = d →
      field d 0 1 = 2 ∧ field d 1 1 = 0 ∧ zeros d 2 6 = true ∧ field d 8 8 = 0 →
      s.ldg.live.force.find c = none →
      s.tooSoon (field b 16 8) = false →
      Answers (.forceScheduleWrite t pi rt ra) t 0x41 ra i s (fun r =>
        r.status = stOk ∧ r.out = [] ∧
        (∃ n, r.waits = some (.journal n)) ∧
        r.st.ldg.live.force.find c = some (.close (field b 16 8)) ∧
        (∀ k, k ≠ c → r.st.ldg.live.force.find k = s.ldg.live.force.find k) ∧
        r.st.ldg.live.meters = s.ldg.live.meters ∧ r.st.tmu = s.tmu)) ∧
  (∀ (s : State) (t : Fin 256) (pi : Fin 8) (rt ra : Fin 32) (p : Place) (i : Nat) (b : List Byte) (d : List Byte) (pol : Policy) (q : Place),
      s.callsAt t pi ra 0x41 24 p i = true →
      s.load p 24 = b →
      (s.thr t).rtag.toNat % 8 = 5 →
      field b 0 4 = 0x70000000 →
      field b 4 4 = 16 →
      (s.thr t).bufPlace t (field b 8 8) (field b 4 4) = some q →
      s.poisoned q (field b 4 4) = false →
      s.load q (field b 4 4) = d →
      s.ldg.sealed = false →
      policyOf d = some pol →
      Answers (.timePolicyWrite t pi rt ra) t 0x41 ra i s (fun r =>
        r.status = stOk ∧ r.out = [] ∧
        (∃ n, r.waits = some (.journal n)) ∧
        r.st.tmu.policy = pol ∧
        r.st.ldg.live.policy = some (pol.allowed, pol.stepRole, pol.maxHold, pol.maxStep) ∧
        r.st.ldg.live.meters = s.ldg.live.meters)) ∧
  (∀ (s : State) (t : Fin 256) (pi : Fin 8) (rt ra : Fin 32) (p : Place) (i : Nat) (b : List Byte),
      s.callsAt t pi ra 0x41 24 p i = true →
      s.load p 24 = b →
      (s.thr t).rtag.toNat % 8 = 5 →
      field b 0 4 = 0x70000000 →
      s.ldg.sealed = true →
      Answers (.timePolicyWrite t pi rt ra) t 0x41 ra i s (fun r =>
        r.status = stSealed ∧ r.out = [] ∧ r.waits = none ∧
        r.st.tmu = s.tmu ∧ r.st.ldg = s.ldg)) ∧
  (∀ (s : State) (t : Fin 256) (pi : Fin 8) (rt ra : Fin 32) (p : Place) (i : Nat) (b : List Byte),
      s.callsAt t pi ra 0x42 24 p i = true →
      s.load p 24 = b →
      (s.thr t).rtag.toNat % 8 = 5 →
      field b 0 4 = 0x60000003 →
      s.ldg.pin = false ∧ s.ldg.sealPending = none ∧ 4 ≤ s.sepia.pinnedFree →
      Answers (.mordantSeal t pi rt ra) t 0x42 ra i s (fun r =>
        r.status = stOk ∧ r.out = [] ∧ r.waits = some .seal ∧
        r.st.ldg.sealPending.isSome = true ∧ r.st.ldg.sealed = s.ldg.sealed ∧
        r.st = { calling t rt i s with ldg.sealPending := r.st.ldg.sealPending })) ∧
  (∀ (s : State) (t : Fin 256) (pi : Fin 8) (rt ra : Fin 32) (p : Place) (i : Nat) (b : List Byte),
      s.callsAt t pi ra 0x42 24 p i = true →
      s.load p 24 = b →
      (s.thr t).rtag.toNat % 8 = 5 →
      field b 0 4 = 0x90000000 →
      field b 16 8 + 1 < s.nowS ∧ s.nowS ≤ field b 16 8 + s.tmu.policy.maxStep →
      s.ldg.stepPending = none →
      field b 4 4 = 0 →
      Answers (.clockSetBack t pi rt ra) t 0x42 ra i s (fun r =>
        r.status = stOk ∧ r.out = [] ∧
        (∃ n, r.waits = some (.journal n)) ∧
        r.st.ldg.stepPending = some (s.nowS, field b 16 8, s.ldg.bseq + 1) ∧ r.st.ldg.bseq = s.ldg.bseq + 1 ∧
        r.st.tmu = s.tmu ∧ r.st.ldg.live.meters = s.ldg.live.meters)) ∧
  (∀ (s : State) (t : Fin 256) (pi : Fin 8) (rt ra : Fin 32) (p : Place) (i : Nat) (b : List Byte) (c : Nat) (d : List Byte) (q : Place),
      s.callsAt t pi ra 0x42 24 p i = true →
      s.load p 24 = b →
      (s.thr t).rtag.toNat % 8 = 4 →
      c < 2 ^ 20 →
      field b 0 4 = 0xA0000000 + c * 256 →
      field b 4 4 = 152 →
      (s.thr t).bufPlace t (field b 8 8) (field b 4 4) = some q →
      s.poisoned q (field b 4 4) = false →
      s.load q (field b 4 4) = d →
      (∀ k < 18, bits (field d (8 * k) 8) 62 56 = 0) →
      (s.meter c).corrupt = false →
      (s.meter c).opn.isSome = true →
      s.ldg.live.blog = [] →
      Answers (.rebase t pi rt ra) t 0x42 ra i s (fun r =>
        r.status = stOk ∧ r.out = [] ∧
        (∃ n, r.waits = some (.journal n)) ∧
        (∀ k < 18, (r.st.meter c).sh.last k = if bitAt (field d (8 * k) 8) 63 then some (field d (8 * k) 8 % 2 ^ 56) else none) ∧
        (∃ o, (r.st.meter c).opn = some o ∧ o.lastbook = field d 144 8) ∧
        (∀ m, m ≠ c → r.st.meter m = s.meter m))) ∧
  (∀ (s : State) (t : Fin 256) (pi : Fin 8) (rt ra : Fin 32) (p : Place) (i : Nat) (b : List Byte) (c : Nat),
      s.callsAt t pi ra 0x42 24 p i = true →
      s.load p 24 = b →
      (s.thr t).rtag.toNat % 8 = 4 →
      c < 2 ^ 20 →
      field b 0 4 = 0xA0000001 + c * 256 →
      field b 4 4 = 0 →
      (s.meter c).corrupt = false →
      (s.meter c).opn.isSome = true →
      s.ldg.live.blog = [] →
      Answers (.finalClose t pi rt ra) t 0x42 ra i s (fun r =>
        r.status = stOk ∧ r.out = [] ∧
        (∃ n, r.waits = some (.journal n)) ∧
        (r.st.meter c).opn = none ∧ (r.st.meter c).closes = (s.meter c).closes + 1 ∧
        (∀ m, m ≠ c → r.st.meter m = s.meter m) ∧
        r.st.ing.dir = s.ing.dir)) ∧
  (∀ (s : State) (t : Fin 256) (pi : Fin 8) (rt ra : Fin 32) (p : Place) (i : Nat) (b : List Byte),
      s.callsAt t pi ra 0x42 24 p i = true →
      s.load p 24 = b →
      (s.thr t).rtag.toNat % 8 = 6 →
      field b 0 4 = 0x80000001 →
      s.lake.ready = true →
      field b 4 4 = 0 →
      s.evr.staged = [] ∧ s.evr.clearing = none ∧ s.evr.clears = [] →
      Answers (.eventRecorderClear t pi rt ra) t 0x42 ra i s (fun r =>
        r.status = stOk ∧ r.out = [] ∧ r.waits = some (.clear s.evr.clearNo) ∧
        r.st.evr.clearing = some { no := s.evr.clearNo, eseq := s.evr.eseq, n := s.evr.readable.length } ∧
        r.st.evr.clearedBelow = s.evr.clearedBelow ∧ r.st.evr.eseq = s.evr.eseq + 1 ∧ r.st.evr.clears = [] ∧
        (∀ e ∈ s.evr.readable, e ∈ r.st.evr.ring ∨ e ∈ r.st.evr.staged) ∧
        r.st.ldg = s.ldg))

/-- Booking (R163, R174), boundaries (R173, R176), the journal (R183), Mordant (R187, R188). -/
def Obligations.LedgerEvents : Prop :=
  (∀ (s : State) (f : PassFrame) (l : List PassFrame) (p : PassRec) (o : LRec),
      s.pass = f :: l ∧ f ∉ l →
      f.booked = false ∧ f.node = 0xFFFF ∧ f.recs = [p] →
      (p.kind ≤ 1 ∧ (p.tariff ≤ 7 ∨ p.tariff = 15)) →
      s.lake.protect = false ∧ s.ldg.live.blog = [] ∧ s.nextInstant = none →
      (s.meter f.mh).corrupt = false ∧ (s.meter f.mh).opn = some o →
      (s.meter f.mh).sh.last (regIndex p.kind p.tariff) = none →
      s.clocked = true →
      Does (.ledgerBooking f.mh) s (fun u =>
        u.pass = l ∧
        (u.meter f.mh).sh.last (regIndex p.kind p.tariff) = some p.value ∧
        (∀ k, k ≠ regIndex p.kind p.tariff → (u.meter f.mh).sh.last k = (s.meter f.mh).sh.last k) ∧
        (∃ o2, (u.meter f.mh).opn = some o2 ∧ o2.lastbook = max o.lastbook f.m ∧ o2.totals = o.totals ∧ o2.demand = o.demand) ∧
        (∀ m, m ≠ f.mh → u.meter m = s.meter m) ∧
        u.ldg.live.calIn = s.ldg.live.calIn ∧ u.ldg.live.blog = [] ∧
        u.ing = s.ing ∧ u.bal = s.bal ∧ u.lake = s.lake ∧ u.mcc = s.mcc)) ∧
  (∀ (s : State) (at_ : Nat),
      s.nextInstant = some at_ →
      s.ledgerRuns = true →
      at_ ≤ s.nowS →
      s.lake.protect = false →
      (∀ x ∈ s.ldg.live.blog, x.bseq ≤ s.ldg.bseq) →
      Does (.ledgerBoundary) s (fun u =>
        u.ldg.bseq = s.ldg.bseq + 1 ∧ u.ldg.evalT = at_ ∧
        u.ldg.live.blog.head? = some { s.boundaryAt at_ 0 with bseq := s.ldg.bseq + 1 } ∧
        u.ldg.live.blog.tail = s.ldg.live.blog ∧
        u.ldg.live.meters = s.ldg.live.meters ∧
        u.ing = s.ing ∧ u.bal = s.bal ∧ u.lake = s.lake ∧ u.mcc = s.mcc)) ∧
  (∀ (s : State),
      (s.nextInstant = none ∨ s.ledgerRuns = false) →
      Stays (.ledgerBoundary) s) ∧
  (∀ (s : State),
      s.ldg.sweeping = true ∧ s.lake.protect = false ∧ s.ledgerRuns = true →
      (∀ e ∈ s.ldg.live.meters, s.behind e.1 = false) →
      Does (.ledgerCloseSweep) s (fun u =>
        u.ldg = { s.ldg with sweeping := false, sweepNext := 1048576 } ∧
        u.hp.nq.waiting.length ≤ s.hp.nq.waiting.length + 1 ∧
        u = { s with ldg := u.ldg, hp := u.hp, glb := u.glb, ctr := u.ctr })) ∧
  (∀ (s : State) (x : JRec) (l : List JRec),
      s.ldg.jq = x :: l →
      x.landed = false ∧ x.acked = false →
      s.lake.protect = false →
      s.clocked = true →
      Does (.journalDurable) s (fun u =>
        u.ldg.jq = { x with landed := true } :: l ∧
        u.ldg.dur = applyRec x s.ldg.dur ∧
        u = { s with ldg := { s.ldg with jq := u.ldg.jq, dur := u.ldg.dur } })) ∧
  (∀ (s : State) (x : JRec),
      s.ldg.jq = [x] →
      x.landed = false ∧ x.acked = true →
      s.lake.protect = false →
      s.clocked = true →
      Does (.journalDurable) s (fun u =>
        u.ldg.jq = [] ∧
        u.ldg.dur = applyRec x s.ldg.dur ∧
        u.ldg.live = s.ldg.live ∧ u.ing = s.ing ∧ u.lake = s.lake ∧ u.out = s.out)) ∧
  (∀ (s : State) (body : List Byte),
      s.ldg.sealPending = some body →
      s.ldg.pin = false →
      Does (.mordantSealEffect) s (fun u =>
        u.ldg.sealed = true ∧ u.ldg.sealPending = none ∧ u.sepia.reserved = true ∧
        (∃ e, u.sepia.pinned = e :: s.sepia.pinned ∧ e.typ = 3 ∧ e.body = body) ∧
        u.ldg.unseals = s.ldg.unseals)) ∧
  (∀ (s : State),
      s.ldg.sealed = true →
      s.glb.mode = .service →
      Does (.mordantUnseal true) s (fun u =>
        u.ldg.pin = true ∧ u.ldg.sealed = false ∧ u.ldg.unseals = s.ldg.unseals + 1 ∧
        u.sepia.reserved = false ∧
        (∃ e, u.sepia.pinned = e :: s.sepia.pinned ∧ e.typ = 4))) ∧
  (∀ (s : State),
      exec (.mordantUnseal false) s = .next { s with ldg.pin := false }) ∧
  (∀ (s : State),
      s.ldg.sealed = false →
      exec (.mordantUnseal true) s = .next { s with ldg.pin := true })

/-- BAL_SET, BAL_READ and BAL_CONFIG (R192, R193). -/
def Obligations.BalanceCalls : Prop :=
  (∀ (s : State) (t : Fin 256) (pi : Fin 8) (rt ra : Fin 32) (p : Place) (i : Nat) (b : List Byte),
      s.callsAt t pi ra 0x50 16 p i = true →
      s.load p 16 = b →
      zeros b 2 2 = true →
      topologyBad (field b 0 2) (slice b 4 12) s = false →
      Answers (.balSet t pi rt ra) t 0x50 ra i s (fun r =>
        r.status = stOk ∧ r.out = [] ∧
        (∃ n, r.waits = some (.journal n)) ∧
        (r.st.node (field b 0 2)).parent = field b 4 2 ∧ (r.st.node (field b 0 2)).cfg = field b 6 2 ∧ (r.st.node (field b 0 2)).chkmh = field b 8 3 ∧ (r.st.node (field b 0 2)).thr = field b 12 2 ∧ (r.st.node (field b 0 2)).allow = field b 14 2 ∧
        (let k := fun (x : Node) => [x.curIn, x.curOut, x.nxtIn, x.nxtOut, (x.p : Int), (x.c : Int), (x.alarm : Int), (x.run : Int)]
        k (r.st.node (field b 0 2)) = k (s.node (field b 0 2))) ∧
        (∀ m, m ≠ field b 0 2 → r.st.node m = s.node m) ∧
        r.st.ing = s.ing ∧ r.st.ldg.live.meters = s.ldg.live.meters)) ∧
  (∀ (s : State) (t : Fin 256) (pi : Fin 8) (rt ra : Fin 32) (p : Place) (i : Nat) (b : List Byte),
      s.callsAt t pi ra 0x50 16 p i = true →
      s.load p 16 = b →
      zeros b 2 2 = true →
      topologyBad (field b 0 2) (slice b 4 12) s = true →
      Answers (.balSet t pi rt ra) t 0x50 ra i s (fun r =>
        r.refuses stBadTopology (calling t rt i s))) ∧
  (∀ (s : State) (t : Fin 256) (pi : Fin 8) (rt ra : Fin 32) (p : Place) (i : Nat) (b : List Byte),
      s.callsAt t pi ra 0x51 56 p i = true →
      s.load p 56 = b →
      zeros b 2 6 = true →
      Answers (.balRead t pi rt ra) t 0x51 ra i s (fun r =>
        r.good [(8, (s.node (field b 0 2)).bytes s.bal.bint)] ∧
        r.st = calling t rt i s)) ∧
  (∀ (s : State) (t : Fin 256) (pi : Fin 8) (rt ra : Fin 32) (p : Place) (i : Nat) (b : List Byte),
      s.callsAt t pi ra 0x52 8 p i = true →
      s.load p 8 = b →
      zeros b 4 4 = true →
      s.cas.master = true →
      balConfigBad (field b 0 1) (field b 1 1) (field b 2 2) = false →
      s.bal.cfg = none ∧ s.bal.nodes = [] →
      Answers (.balConfig t pi rt ra) t 0x52 ra i s (fun r =>
        r.good [] ∧
        r.st.bal.cfg = some (field b 0 1, field b 1 1, field b 2 2) ∧
        r.st.bal.next = some (field b 0 1, field b 1 1, field b 2 2, s.nowS - s.nowS % (60 * field b 0 1) + 60 * field b 0 1) ∧
        r.st = { calling t rt i s with bal := r.st.bal })) ∧
  (∀ (s : State) (t : Fin 256) (pi : Fin 8) (rt ra : Fin 32) (p : Place) (i : Nat) (b : List Byte),
      s.callsAt t pi ra 0x52 8 p i = true →
      s.load p 8 = b →
      zeros b 4 4 = true →
      balConfigBad (field b 0 1) (field b 1 1) (field b 2 2) = true →
      Answers (.balConfig t pi rt ra) t 0x52 ra i s (fun r =>
        r.refuses stBadArg (calling t rt i s)))

/-- Bookings (R194, R195), closes (R196, R198), the node copy (R204), stacks (R205, R206, R377). -/
def Obligations.BalanceEvents : Prop :=
  (∀ (s : State) (f : PassFrame) (l : List PassFrame) (n : Nat),
      s.pass = f :: l ∧ f ∉ l →
      f.booked = true ∧ s.bookingHeld f = false →
      cfgValid (s.topo f.node).2.1 = true ∧ cfgClass (s.topo f.node).2.1 = f.cls →
      s.feed f.mh f.node = [(n, false)] →
      f.before < f.m ∧ f.m * 1000000000 ≤ f.decided →
      (s.node n).p ≤ f.before ∧ f.m ≤ (s.node n).c →
      Does (.balanceBooking f.mh) s (fun u =>
        u.node n = { s.node n with curOut := s48 ((s.node n).curOut + f.net), nxtOut := s48 (s.node n).nxtOut } ∧
        (∀ m, m ≠ n → u.node m = s.node m) ∧
        u.pass = l ∧
        u.counter 0x240000 = s.counter 0x240000 + 1 ∧
        u = { s with bal := u.bal, pass := u.pass, ctr := u.ctr })) ∧
  (∀ (s : State) (e n bi st cov : Nat) (x : Node),
      s.dueClose = some e →
      s.ing.staging = [] ∧ s.pass = [] →
      s.bal.cfg = some (bi, st, cov) ∧ s.bal.next = none →
      s.bal.nodes = [(n, x)] ∧ x.old = none →
      s.checked n = true ∧ x.started = true →
      s.cas.chips ≤ 1 →
      x.c + st * (60 * bi) ≤ e →
      s.lake.logFull = false →
      s.clocked = true →
      Does (.balanceClose) s (fun u =>
        (u.node n).p = x.c ∧ (u.node n).c = e ∧ (u.node n).curIn = x.nxtIn ∧ (u.node n).curOut = x.nxtOut ∧ (u.node n).nxtIn = 0 ∧ (u.node n).nxtOut = 0 ∧
        (u.node n).ncov = 0 ∧ (u.node n).chkcov = false ∧ (u.node n).tamp = 0 ∧
        u.bal.lastClose = e ∧
        (∃ d, u.lake.log = d :: s.lake.log ∧ d.rtype = 3 ∧ d.dtime = e * 1000000 ∧ field d.body 0 2 = n % 2 ^ 16) ∧
        u.ing = s.ing ∧ u.ldg = s.ldg ∧ u.woad = s.woad)) ∧
  (∀ (s : State),
      s.dueClose = none →
      Stays (.balanceClose) s) ∧
  (∀ (s : State),
      s.lake.ready = true ∧ s.bal.hold = false →
      exec .balanceNodeSave s = .next { s with lake.nodeCopy := s.bal.nodes, lake.nodeJseq := s.ldg.jseq }) ∧
  (∀ (s : State) (port node : Nat) (in_ out_ : Int) (nmeter ncov flags tamp : Nat),
      s.bal.stackE.isSome = true →
      s.downPorts.contains port = true ∧ s.sharedNodes.contains node = true →
      s.cas.master = true →
      s.clocked = true →
      let old := s.bal.partials.get {} node
      Does (.balancePartialReceive port node in_ out_ nmeter ncov flags tamp) s (fun u =>
        (∃ w, u.bal.partials.find node = some w ∧ w.in_ = s48 (old.in_ + s48 in_) ∧ w.out_ = s48 (old.out_ + s48 out_) ∧ w.nmeter = min (old.nmeter + nmeter) 0xFFFFF ∧ w.ncov = min (old.ncov + ncov) 0xFFFFF ∧ w.tamp = min (old.tamp + tamp) 255 ∧ w.chkcov = (old.chkcov || bitAt flags 2)) ∧
        (∀ k, k ≠ node → u.bal.partials.find k = s.bal.partials.find k) ∧
        u.bal.portsIn = s.bal.portsIn ++ [port] ∧
        u = { s with bal := u.bal })) ∧
  (∀ (s : State) (e : Nat),
      s.bal.stackE = some e →
      s.cas.master = true ∧ s.partialsIn = true →
      s.coresRun = true →
      Does (.balanceStackJudge) s (fun u =>
        u.bal.hold = false ∧ u.bal.stackE = none ∧ u.bal.partials = [] ∧ u.bal.portsIn = [] ∧
        (∀ n, n ∉ s.sharedNodes → u.node n = s.node n) ∧
        u.ing = s.ing ∧ u.ldg = s.ldg)) ∧
  (∀ (s : State) (e : Nat),
      s.bal.stackE = some e →
      s.cas.master = true ∧ s.partialsIn = false →
      e * 1000000000 + 5000000 ≤ s.nowNs →
      s.clocked = true →
      Does (.balancePartialTimeout) s (fun u =>
        u.bal.hold = false ∧ u.bal.stackE = none ∧ u.bal.partials = [] ∧ u.bal.portsIn = [] ∧
        (∀ n, n ∉ s.sharedNodes → u.node n = s.node n) ∧
        u.ing = s.ing ∧ u.ldg = s.ldg)) ∧
  (∀ (s : State) (bitmap : List Byte) (e : Nat),
      s.bal.stackE = some e →
      s.cas.master = false →
      s.coresRun = true →
      Does (.balanceBitmapApply bitmap) s (fun u =>
        u.bal.hold = false ∧ u.bal.stackE = none ∧ u.bal.partials = [] ∧ u.bal.portsIn = [] ∧
        (∀ n, n ∉ s.sharedNodes → u.node n = s.node n) ∧
        (∀ n, bitAt ((bitmap.getD (n / 8) 0).toNat) (n % 8) = false → u.node n = s.node n) ∧
        u.ing = s.ing ∧ u.ldg = s.ldg ∧ u.lake = s.lake)) ∧
  (∀ (s : State) (e : Nat),
      s.bal.stackE = some e →
      s.cas.detached = true →
      e * 1000000000 + 5000000 ≤ s.nowNs →
      s.coresRun = true →
      Does (.detachedBookingRelease) s (fun u =>
        u.bal.hold = false ∧ u.bal.stackE = none ∧ u.bal.partials = [] ∧ u.bal.portsIn = [] ∧
        u.bal.nodes = s.bal.nodes ∧
        u = { s with bal := u.bal, ctr := u.ctr }))

/-- TMU_CYCLE_WR and TMU_CYCLE_RD (R349, R345, R346), the latch of R333. -/
def Obligations.TimeCalls : Prop :=
  (∀ (s : State) (t : Fin 256) (pi : Fin 8) (rt ra : Fin 32) (p : Place) (i : Nat) (b : List Byte),
      s.callsAt t pi ra 0x80 32 p i = true →
      s.load p 32 = b →
      field b 0 1 = 0 ∧ zeros b 1 1 = true ∧ zeros b 4 4 = true →
      80 ≤ (field b 2 2) ∧ (field b 2 2) < 448 →
      (field (b.drop 8) 8 4 < 1000000000 ∧ field (b.drop 8) 16 4 < 1000000000 ∧ (field (b.drop 8) 20 1 = 7 ∨ field (b.drop 8) 20 1 = 8) ∧ field (b.drop 8) 21 1 < 4) →
      (field (b.drop 8) 12 4 = 0 ∧ field (b.drop 8) 16 4 = 0 ∨ 1000000 ≤ field (b.drop 8) 12 4 * 1000000000 + field (b.drop 8) 16 4) →
      s.nowNs + 1000000 ≤ field (b.drop 8) 0 8 * 1000000000 + field (b.drop 8) 8 4 →
      s.glb.mode ≠ .standby ∧ s.cas.pair = 0 →
      Answers (.tmuRowWrite t pi rt ra) t 0x80 ra i s (fun r =>
        r.good [] ∧
        r.st.row (field b 2 2) = { tS := field (b.drop 8) 0 8, tNs := field (b.drop 8) 8 4, perS := field (b.drop 8) 12 4, perNs := field (b.drop 8) 16 4, action := field (b.drop 8) 20 1, flags := field (b.drop 8) 21 1, arg := field (b.drop 8) 22 2, t0 := field (b.drop 8) 0 8 * 1000000000 + field (b.drop 8) 8 4 } ∧
        (∀ k, k ≠ (field b 2 2) → r.st.row k = s.row k) ∧
        r.st = { calling t rt i s with tmu.rows := r.st.tmu.rows })) ∧
  (∀ (s : State) (t : Fin 256) (pi : Fin 8) (rt ra : Fin 32) (p : Place) (i : Nat) (b : List Byte),
      s.callsAt t pi ra 0x80 32 p i = true →
      s.load p 32 = b →
      field b 0 1 = 0 ∧ zeros b 1 1 = true ∧ zeros b 4 4 = true →
      80 ≤ (field b 2 2) ∧ (field b 2 2) < 448 →
      (field (b.drop 8) 8 4 < 1000000000 ∧ field (b.drop 8) 16 4 < 1000000000 ∧ (field (b.drop 8) 20 1 = 7 ∨ field (b.drop 8) 20 1 = 8) ∧ field (b.drop 8) 21 1 < 4) →
      (field (b.drop 8) 12 4 = 0 ∧ field (b.drop 8) 16 4 = 0 ∨ 1000000 ≤ field (b.drop 8) 12 4 * 1000000000 + field (b.drop 8) 16 4) →
      field b 8 8 * 1000000000 + field b 16 4 < s.nowNs + 1000000 →
      s.glb.mode ≠ .standby →
      Answers (.tmuRowWrite t pi rt ra) t 0x80 ra i s (fun r =>
        r.refuses stTooLate (calling t rt i s))) ∧
  (∀ (s : State) (t : Fin 256) (pi : Fin 8) (rt ra : Fin 32) (p : Place) (i : Nat) (b : List Byte) (d : List Byte),
      s.callsAt t pi ra 0x80 32 p i = true →
      s.load p 32 = b →
      field b 0 1 = 1 ∧ zeros b 18 14 = true →
      b.drop 1 = d →
      1 ≤ field d 0 1 ∧ field d 0 1 ≤ 2 ∧ field d 1 1 ≤ 127 ∧ field d 2 1 ≤ 2 ∧ field d 3 1 ≤ 1 ∧ zeros d 4 3 = true →
      bitAt s.tmu.policy.allowed (field d 0 1 - 1) = true →
      Answers (.tmuSourceSelect t pi rt ra) t 0x80 ra i s (fun r =>
        r.good [] ∧
        r.st.tmu.sel = { kind := field d 0 1, domain := field d 1 1, transport := field d 2 1, mech := field d 3 1, clockId := field d 7 8, port := field d 15 2 } ∧
        r.st = { calling t rt i s with tmu.sel := r.st.tmu.sel })) ∧
  (∀ (s : State) (t : Fin 256) (pi : Fin 8) (rt ra : Fin 32) (p : Place) (i : Nat) (b : List Byte),
      s.callsAt t pi ra 0x80 32 p i = true →
      s.load p 32 = b →
      field b 0 1 = 2 →
      field b 1 1 ≤ 1 ∧ field b 4 4 ≤ 10000 ∧ field b 8 4 ≤ 10000 ∧ (signed 32 (field b 12 4)).natAbs ≤ 10000 ∧ zeros b 2 2 = true ∧ zeros b 16 16 = true →
      Answers (.tmuLatency t pi rt ra) t 0x80 ra i s (fun r =>
        r.good [] ∧
        r.st.tmu.macLat.get {} (field b 1 1) = { tx := field b 4 4, rx := field b 8 4, asym := signed 32 (field b 12 4) } ∧
        (∀ k, k ≠ field b 1 1 → r.st.tmu.macLat.get {} k = s.tmu.macLat.get {} k) ∧
        r.st = { calling t rt i s with tmu.macLat := r.st.tmu.macLat })) ∧
  (∀ (s : State) (t : Fin 256) (pi : Fin 8) (rt ra : Fin 32) (p : Place) (i : Nat) (b : List Byte),
      s.callsAt t pi ra 0x81 32 p i = true →
      s.load p 32 = b →
      (field b 0 1 = 0 ∧ field b 2 2 ≤ 511 ∧ field b 2 2 ≠ 8 ∧ (field b 2 2 < 16 ∨ 80 ≤ field b 2 2) ∧ zeros b 1 1 = true ∧ zeros b 4 4 = true) →
      Answers (.tmuRowRead t pi rt ra) t 0x81 ra i s (fun r =>
        (let x := s.row (field b 2 2)
         r.good [(8, le 8 x.tS ++ le 4 x.tNs ++ le 4 x.perS ++ le 4 x.perNs ++ le 1 x.action ++ le 1 x.flags ++ le 2 x.arg)]) ∧
        r.st = calling t rt i s)) ∧
  (∀ (s : State) (t : Fin 256) (pi : Fin 8) (rt ra : Fin 32) (p : Place) (i : Nat) (b : List Byte),
      s.callsAt t pi ra 0x81 32 p i = true →
      s.load p 32 = b →
      field b 0 1 = 0 ∧ 511 < field b 2 2 →
      Answers (.tmuRowRead t pi rt ra) t 0x81 ra i s (fun r =>
        r.refuses stBadArg (calling t rt i s))) ∧
  (∀ (s : State) (t : Fin 256) (pi : Fin 8) (rt ra : Fin 32) (p : Place) (i : Nat) (b : List Byte),
      s.callsAt t pi ra 0x81 32 p i = true →
      s.load p 32 = b →
      field b 0 1 = 1 ∧ zeros b 1 7 = true →
      Answers (.tmuTimeRead t pi rt ra) t 0x81 ra i s (fun r =>
        r.good [(8, le 8 s.tmu.sec.toNat ++ le 4 (s.tmu.ns + 2 ^ 31 * flag s.tmu.valid) ++ le 1 s.tmu.st.code ++ le 1 s.tmu.source ++ zeroBytes 2 ++ le 4 (s32sat s.tmu.offset) ++ le 4 (s32sat s.tmu.freq))] ∧
        r.st = calling t rt i s)) ∧
  (∀ (s : State),
      exec .timeLatchRead s = .next { s with tmu.latS := (s.tmu.sec >>> 32).setWidth 32, tmu.latNs := BitVec.ofNat 32 (s.tmu.ns + 2 ^ 31 * flag s.tmu.valid) })

/-- Samples (R341), loss and holdover (R342), the set-back (R179), EVENT and PULSE rows (R346, R348, R351). -/
def Obligations.TimeEvents : Prop :=
  (∀ (s : State) (mac : Fin 2) (o : Int),
      s.tmu.ptp.sample = some o →
      s.tmu.sel.kind = mac.val + 1 ∧ s.coresRun = true ∧ s.glb.clkSrc = false →
      (s.tmu.st = .freerun ∨ s.tmu.st = .holdover) →
      -1000000000 ≤ o ∧ o ≤ 1000000000 →
      (10000 < (if s.tmu.asMeasured then o else Config.filter s.tmu.filtered o).natAbs) →
      Does (.timeSample mac) s (fun u =>
        u.tmu.ptp.sample = none ∧
        u.tmu.st = .acquire ∧ u.tmu.source = mac.val + 1 ∧ u.tmu.offset = o ∧ u.tmu.lastSample = some s.nowNs ∧ u.tmu.stepReq = none ∧ u.tmu.good = 0 ∧
        u.nowNs = s.nowNs ∧ u.tmu.valid = s.tmu.valid ∧ u.tmu.rows = s.tmu.rows ∧
        u = { s with tmu := u.tmu, ctr := u.ctr })) ∧
  (∀ (s : State) (mac : Fin 2) (o : Int),
      s.tmu.ptp.sample = some o →
      s.tmu.sel.kind = mac.val + 1 ∧ s.coresRun = true ∧ s.glb.clkSrc = false →
      (s.tmu.st = .freerun ∨ s.tmu.st = .holdover) →
      o < -1000000000 →
      (10000 < (if s.tmu.asMeasured then o else Config.filter s.tmu.filtered o).natAbs) →
      Does (.timeSample mac) s (fun u =>
        u.tmu.ptp.sample = none ∧
        u.tmu.stepReq = some o ∧ u.tmu.valid = false ∧ u.tmu.invCause = 2 ∧ u.nowNs = s.nowNs ∧
        u = { s with tmu := u.tmu, ctr := u.ctr, hp := u.hp, glb := u.glb })) ∧
  (∀ (s : State) (mac : Fin 2) (o : Int),
      s.tmu.ptp.sample = some o →
      s.tmu.sel.kind = mac.val + 1 ∧ s.coresRun = true ∧ s.glb.clkSrc = false →
      s.tmu.st = .locked →
      1000000 < (o - s.tmu.filtered).natAbs →
      s.tmu.rejects < 2 →
      Does (.timeSample mac) s (fun u =>
        u.tmu.ptp.sample = none ∧
        u.tmu = { s.tmu with rejects := s.tmu.rejects + 1, good := 0, ptp := u.tmu.ptp } ∧
        u.counter 0x330001 = s.counter 0x330001 + 1 ∧
        u = { s with tmu := u.tmu, ctr := u.ctr })) ∧
  (∀ (s : State) (a : Nat),
      s.tmu.lastSample = some a →
      a + 8 * s.tmu.syncInterval ≤ s.nowNs →
      (s.tmu.st = .locked ∨ s.tmu.st = .acquire) →
      s.clocked = true →
      Does (.timeSourceLoss) s (fun u =>
        u.tmu.st = .holdover ∧ u.tmu.source = 0 ∧ u.tmu.corr = 0 ∧ u.tmu.left = 0 ∧ u.tmu.adj = u.tmu.heldAdj ∧
        u.tmu.valid = s.tmu.valid ∧ u.nowNs = s.nowNs ∧ u.tmu.sel = s.tmu.sel ∧
        u = { s with tmu := u.tmu, ctr := u.ctr })) ∧
  (∀ (s : State) (a : Nat),
      s.tmu.lastSample = some a →
      s.nowNs < a + 8 * s.tmu.syncInterval →
      Stays (.timeSourceLoss) s) ∧
  (∀ (s : State) (a : Nat),
      s.tmu.st = .holdover →
      s.tmu.lastSample = some a →
      a + s.tmu.policy.maxHold * 1000000000 ≤ s.nowNs →
      s.tmu.valid = true →
      s.clocked = true →
      Does (.holdoverExpire) s (fun u =>
        u.tmu = { s.tmu with st := .freerun, valid := false, invCause := 1 } ∧
        Posts 0x0901 0 (le 1 1) { s with tmu.valid := false, tmu.invCause := 1 } u ∧
        u = { s with tmu := u.tmu, hp := u.hp, ctr := u.ctr, glb := u.glb })) ∧
  (∀ (s : State) (a : Nat),
      s.tmu.lastSample = some a →
      s.nowNs < a + s.tmu.policy.maxHold * 1000000000 →
      Stays (.holdoverExpire) s) ∧
  (∀ (s : State) (from_ tTo n : Nat),
      s.ldg.stepPending = some (from_, tTo, n) →
      (s.ldg.dur.blog.any (fun b => b.bseq == n) = true) →
      tTo ≤ from_ ∧ from_ ≤ s.nowS →
      s.clocked = true →
      Does (.clockStepApply) s (fun u =>
        u.nowNs = s.nowNs - (from_ - tTo) * 1000000000 ∧
        u.ldg.stepPending = none ∧ u.ldg.stepFrom = from_ ∧ u.ldg.stepTo = tTo ∧ u.tmu.stepReq = none ∧
        u.ldg.live = s.ldg.live ∧ u.ldg.bseq = s.ldg.bseq ∧
        u.ing = s.ing ∧ u.bal = s.bal ∧ u.lake = s.lake ∧ u.woad = s.woad)) ∧
  (∀ (s : State),
      s.ldg.stepPending = none →
      Stays (.clockStepApply) s) ∧
  (∀ (s : State) (i : Fin 512),
      (s.row i).action = 7 ∧ (s.row i).per = 0 ∧ (s.row i).at_ ≤ s.nowNs →
      s.coresRun = true ∧ s.cas.pair = 0 ∧ s.rowTurn i = true →
      ((s.row i).needValid = false ∨ s.tmu.valid = true) →
      Does (.cycleEvent i) s (fun u =>
        u.row i = {} ∧
        (∀ k, k ≠ i.val → u.row k = s.row k) ∧
        u.tmu = { s.tmu with rows := u.tmu.rows } ∧
        u.ldg = s.ldg ∧ u.ing = s.ing ∧ u.lake = s.lake ∧ u.hp = s.hp)) ∧
  (∀ (s : State) (i : Fin 512),
      (s.row i).action = 7 ∧ (s.row i).per = 0 ∧ (s.row i).at_ ≤ s.nowNs →
      s.coresRun = true ∧ s.cas.pair = 0 ∧ s.rowTurn i = true →
      (s.row i).needValid = true ∧ s.tmu.valid = false →
      Does (.cycleEvent i) s (fun u =>
        u.row i = {} ∧
        (∀ k, k ≠ i.val → u.row k = s.row k) ∧
        u.counter 0x330007 = s.counter 0x330007 + 1 ∧
        u = { s with tmu.rows := u.tmu.rows, ctr := u.ctr })) ∧
  (∀ (s : State) (i : Fin 512),
      ((s.row i).action ≠ 7 ∨ s.nowNs < (s.row i).at_) →
      Stays (.cycleEvent i) s) ∧
  (∀ (s : State) (i : Fin 512),
      (s.row i).action = 8 ∧ 0 < (s.row i).per ∧ (s.row i).at_ ≤ s.nowNs ∧ s.nowNs < (s.row i).at_ + (s.row i).per →
      s.coresRun = true ∧ s.cas.pair = 0 ∧ s.rowTurn i = true →
      ((s.row i).needValid = false ∨ s.tmu.valid = true) →
      (s.row i).arg / 16 = 0 →
      Does (.pulseRow i) s (fun u =>
        (u.row i).at_ = (s.row i).at_ + (s.row i).per ∧ (u.row i).per = (s.row i).per ∧ (u.row i).arg = (s.row i).arg ∧
        (∀ k, k ≠ i.val → u.row k = s.row k) ∧
        u.tmu.pulse.getLsbD ((s.row i).arg % 4) = bitAt (s.row i).arg 3 ∧
        (∀ k < 4, k ≠ (s.row i).arg % 4 → u.tmu.pulse.getLsbD k = s.tmu.pulse.getLsbD k) ∧
        u = { s with tmu.rows := u.tmu.rows, tmu.pulse := u.tmu.pulse, tmu.pulseEnd := u.tmu.pulseEnd, ctr := u.ctr })) ∧
  (∀ (s : State) (i : Fin 512),
      (s.row i).action = 8 ∧ (s.row i).per = 0 ∧ (s.row i).at_ ≤ s.nowNs →
      s.coresRun = true ∧ s.cas.pair = 0 ∧ s.rowTurn i = true →
      ((s.row i).needValid = false ∨ s.tmu.valid = true) →
      0 < (s.row i).arg / 16 →
      s.tmu.pulseEnd.find ((s.row i).arg % 4) = none →
      Does (.pulseRow i) s (fun u =>
        u.tmu.pulse.getLsbD ((s.row i).arg % 4) = !bitAt (s.row i).arg 2 ∧
        u.tmu.pulseEnd.find ((s.row i).arg % 4) = some (s.nowNs + (s.row i).arg / 16 * 100000, bitAt (s.row i).arg 2) ∧
        (∀ k < 4, k ≠ (s.row i).arg % 4 → u.tmu.pulse.getLsbD k = s.tmu.pulse.getLsbD k))) ∧
  (∀ (s : State) (o : Fin 4) (e : Nat) (idle : Bool),
      s.tmu.pulseEnd.find o = some (e, idle) →
      e ≤ s.nowNs →
      Does (.pulseEnd o) s (fun u =>
        u.tmu.pulse.getLsbD o = idle ∧ u.tmu.pulseEnd.find o = none ∧
        (∀ k < 4, k ≠ o.val → u.tmu.pulse.getLsbD k = s.tmu.pulse.getLsbD k) ∧
        u = { s with tmu.pulse := u.tmu.pulse, tmu.pulseEnd := u.tmu.pulseEnd }))

/-- The commands of Table 12-11 (R298, R333, R344, R349). -/
def Obligations.TimeCommands : Prop :=
  (∀ (s : State) (q : Fin 18) (c : Cmd),
      s.standardFront q 0x0070 = some c →
      s.coresRun = true ∧ s.glb.mode ≠ .standby →
      [1, 2, 3, 4, 5, 6].contains (s.cmdRole c) = true →
      Does (.timeRead q) s (fun u =>
        (Registers c stOk 0 (if c.rbuf then some (le 1 1 ++ zeroBytes 7 ++ (le 8 s.tmu.sec.toNat ++ le 4 (s.tmu.ns + 2 ^ 31 * flag s.tmu.valid) ++ le 1 s.tmu.st.code ++ le 1 s.tmu.source ++ zeroBytes 2 ++ le 4 (s32sat s.tmu.offset) ++ le 4 (s32sat s.tmu.freq))) else none) s u) ∧
        HostOnly s u)) ∧
  (∀ (s : State) (q : Fin 18) (c : Cmd),
      s.standardFront q 0x0071 = some c →
      s.coresRun = true ∧ s.glb.mode ≠ .standby →
      [2, 5].contains (s.cmdRole c) = true →
      field c.raw 16 4 < 1000000000 ∧ (field c.raw 8 8 * 1000000000 + field c.raw 16 4) ≤ s.nowNs + 1000000000 ∧ s.nowNs ≤ (field c.raw 8 8 * 1000000000 + field c.raw 16 4) + 1000000000 →
      bitAt s.tmu.policy.allowed 3 = true ∧ s.tmu.valid = false →
      (s.tmu.st = .freerun ∨ s.tmu.st = .holdover) →
      Does (.timeSet q) s (fun u =>
        (Registers c stOk 0 (if c.rbuf then some [] else none) s u) ∧
        u.nowNs = (field c.raw 8 8 * 1000000000 + field c.raw 16 4) ∧
        u.tmu.valid = true ∧ u.tmu.st = .holdover ∧ u.tmu.source = 4 ∧ u.tmu.lastSample = some (field c.raw 8 8 * 1000000000 + field c.raw 16 4) ∧
        u.tmu.rows = s.tmu.rows ∧ u.tmu.policy = s.tmu.policy ∧ u.ldg = s.ldg ∧ u.ing = s.ing ∧ u.lake = s.lake)) ∧
  (∀ (s : State) (q : Fin 18) (c : Cmd),
      s.standardFront q 0x0071 = some c →
      s.coresRun = true ∧ s.glb.mode ≠ .standby →
      [2, 5].contains (s.cmdRole c) = true →
      (s.tmu.valid = true ∨ 1000000000 ≤ field c.raw 16 4 ∨ s.tmu.st = .locked ∨ s.tmu.st = .acquire ∨ (field c.raw 8 8 * 1000000000 + field c.raw 16 4) + 1000000000 < s.nowNs) →
      Does (.timeSet q) s (fun u =>
        (Registers c stBadArg 0 (if c.rbuf then some [] else none) s u) ∧
        HostOnly s u)) ∧
  (∀ (s : State) (q : Fin 18) (c : Cmd),
      s.standardFront q 0x0071 = some c →
      s.coresRun = true ∧ s.glb.mode ≠ .standby →
      [2, 5].contains (s.cmdRole c) = false →
      Does (.timeSet q) s (fun u =>
        (Registers c stAccessDenied 0 (if c.rbuf then some [] else none) s u) ∧
        HostOnly s u)) ∧
  (∀ (s : State) (q : Fin 18) (c : Cmd) (d : List Byte),
      s.standardFront q 0x0072 = some c →
      s.coresRun = true ∧ s.glb.mode ≠ .standby →
      [2].contains (s.cmdRole c) = true →
      slice c.raw 8 17 = d →
      1 ≤ field d 0 1 ∧ field d 0 1 ≤ 2 ∧ field d 1 1 ≤ 127 ∧ field d 2 1 ≤ 2 ∧ field d 3 1 ≤ 1 ∧ zeros d 4 3 = true →
      bitAt s.tmu.policy.allowed (field d 0 1 - 1) = true →
      Does (.timeSource q) s (fun u =>
        (Registers c stOk 0 (if c.rbuf then some [] else none) s u) ∧
        u.tmu.sel = { kind := field d 0 1, domain := field d 1 1, transport := field d 2 1, mech := field d 3 1, clockId := field d 7 8, port := field d 15 2 } ∧
        u.tmu = { s.tmu with sel := u.tmu.sel } ∧
        u.ldg = s.ldg ∧ u.ing = s.ing ∧ u.lake = s.lake ∧ u.hp.nq = s.hp.nq)) ∧
  (∀ (s : State) (q : Fin 18) (c : Cmd),
      s.standardFront q 0x0072 = some c →
      s.coresRun = true ∧ s.glb.mode ≠ .standby →
      [2].contains (s.cmdRole c) = false →
      Does (.timeSource q) s (fun u =>
        (Registers c stAccessDenied 0 (if c.rbuf then some [] else none) s u) ∧
        HostOnly s u)) ∧
  (∀ (s : State) (q : Fin 18) (c : Cmd),
      s.standardFront q 0x0073 = some c →
      s.coresRun = true ∧ s.glb.mode ≠ .standby →
      [1, 2, 3, 4, 5, 6].contains (s.cmdRole c) = true →
      (field c.raw 8 2 ≤ 511 ∧ field c.raw 8 2 ≠ 8 ∧ (field c.raw 8 2 < 16 ∨ 80 ≤ field c.raw 8 2)) →
      Does (.cycleRead q) s (fun u =>
        (Registers c stOk 0 (if c.rbuf then some ((s.row (field c.raw 8 2)).bytes) else none) s u) ∧
        HostOnly s u)) ∧
  (∀ (s : State) (q : Fin 18) (c : Cmd),
      s.standardFront q 0x0074 = some c →
      s.coresRun = true ∧ s.glb.mode ≠ .standby →
      [2].contains (s.cmdRole c) = true →
      c.data.length = 24 →
      80 ≤ (field c.raw 8 2) ∧ (field c.raw 8 2) < 448 →
      (field c.data 8 4 < 1000000000 ∧ field c.data 16 4 < 1000000000 ∧ (field c.data 20 1 = 7 ∨ field c.data 20 1 = 8) ∧ field c.data 21 1 < 4) →
      (field c.data 12 4 = 0 ∧ field c.data 16 4 = 0 ∨ 1000000 ≤ field c.data 12 4 * 1000000000 + field c.data 16 4) →
      s.nowNs + 1000000 ≤ field c.data 0 8 * 1000000000 + field c.data 8 4 →
      s.glb.mode ≠ .standby ∧ s.cas.pair = 0 →
      Does (.cycleWrite q) s (fun u =>
        (Registers c stOk 0 (if c.rbuf then some [] else none) s u) ∧
        u.row (field c.raw 8 2) = { tS := field c.data 0 8, tNs := field c.data 8 4, perS := field c.data 12 4, perNs := field c.data 16 4, action := field c.data 20 1, flags := field c.data 21 1, arg := field c.data 22 2, t0 := field c.data 0 8 * 1000000000 + field c.data 8 4 } ∧
        (∀ k, k ≠ (field c.raw 8 2) → u.row k = s.row k) ∧
        u.tmu = { s.tmu with rows := u.tmu.rows } ∧
        u.ldg = s.ldg ∧ u.ing = s.ing ∧ u.lake = s.lake ∧ u.hp.nq = s.hp.nq)) ∧
  (∀ (s : State) (q : Fin 18) (c : Cmd),
      s.standardFront q 0x0074 = some c →
      s.coresRun = true ∧ s.glb.mode ≠ .standby →
      [2].contains (s.cmdRole c) = false →
      Does (.cycleWrite q) s (fun u =>
        (Registers c stAccessDenied 0 (if c.rbuf then some [] else none) s u) ∧
        HostOnly s u))

/-- The Lake calls of Table 9-23 (R219, R225, R227, R234, R235, R237, R272). -/
def Obligations.LakeCalls : Prop :=
  (∀ (s : State) (t : Fin 256) (pi : Fin 8) (rt ra : Fin 32) (p : Place) (i : Nat) (b : List Byte),
      s.callsAt t pi ra 0x60 8 p i = true →
      s.load p 8 = b →
      zeros b 4 4 = true →
      s.lake.heack ≤ field b 0 4 ∧ field b 0 4 ≤ s.lake.lsnHead →
      Answers (.lakeHeack t pi rt ra) t 0x60 ra i s (fun r =>
        r.good [] ∧
        r.st.lake.heack = field b 0 4 ∧
        r.st = { calling t rt i s with lake.heack := r.st.lake.heack, lake.mjStaged := r.st.lake.mjStaged })) ∧
  (∀ (s : State) (t : Fin 256) (pi : Fin 8) (rt ra : Fin 32) (p : Place) (i : Nat) (b : List Byte),
      s.callsAt t pi ra 0x60 8 p i = true →
      s.load p 8 = b →
      (field b 0 4 < s.lake.heack ∨ s.lake.lsnHead < field b 0 4) →
      Answers (.lakeHeack t pi rt ra) t 0x60 ra i s (fun r =>
        r.refuses stBadArg (calling t rt i s))) ∧
  (∀ (s : State) (t : Fin 256) (pi : Fin 8) (rt ra : Fin 32) (p : Place) (i : Nat) (b : List Byte) (q : Place),
      s.callsAt t pi ra 0x61 16 p i = true →
      s.load p 16 = b →
      zeros b 8 8 = true →
      s.lake.ready = true →
      (s.thr t).bufPlace t (field b 0 8) 128 = some q →
      Answers (.lakeHealth t pi rt ra) t 0x61 ra i s (fun r =>
        r.good [] ∧
        r.st = storeAt q s.health (calling t rt i s))) ∧
  (∀ (s : State) (t : Fin 256) (pi : Fin 8) (rt ra : Fin 32) (p : Place) (i : Nat) (b : List Byte),
      s.callsAt t pi ra 0x62 8 p i = true →
      s.load p 8 = b →
      s.lake.ready = true →
      s.credits ≠ 0 →
      Answers (.lakeMark t pi rt ra) t 0x62 ra i s (fun r =>
        r.good [] ∧
        (∃ e, r.st.lake.log = e :: s.lake.log ∧ e.rtype = 4 ∧ e.src = 511 ∧ e.mh = 0xFFFFF ∧ e.body = b.take 8 ∧ e.dtime = s.nowUs ∧ e.landed = false) ∧
        r.st.lake.creditsUsed = s.lake.creditsUsed + 1 ∧
        r.st = { calling t rt i s with lake := r.st.lake })) ∧
  (∀ (s : State) (t : Fin 256) (pi : Fin 8) (rt ra : Fin 32) (p : Place) (i : Nat) (b : List Byte) (l : List Byte) (q : Place),
      s.callsAt t pi ra 0x63 32 p i = true →
      s.load p 32 = b →
      zeros b 20 4 = true ∧ zeros b 28 4 = true ∧ field b 4 4 % 8 = 0 ∧ field b 4 4 < 262144 ∧ field b 16 4 % 8 = 0 ∧ 8 ≤ field b 16 4 ∧ field b 16 4 ≤ 65536 →
      s.lake.logRead (field b 0 4) (field b 4 4) (field b 16 4) = (stOk, l) →
      (s.thr t).bufPlace t (field b 8 8) l.length = some q →
      Answers (.lakeLogRead t pi rt ra) t 0x63 ra i s (fun r =>
        r.good [(24, le 4 l.length)] ∧
        r.st = storeAt q l (calling t rt i s))) ∧
  (∀ (s : State) (t : Fin 256) (pi : Fin 8) (rt ra : Fin 32) (p : Place) (i : Nat) (b : List Byte),
      s.callsAt t pi ra 0x63 32 p i = true →
      s.load p 32 = b →
      zeros b 20 4 = true ∧ zeros b 28 4 = true ∧ field b 4 4 % 8 = 0 ∧ field b 4 4 < 262144 ∧ field b 16 4 % 8 = 0 ∧ 8 ≤ field b 16 4 ∧ field b 16 4 ≤ 65536 →
      (field b 0 4 < s.lake.lsnTail ∨ s.lake.lsnHead ≤ field b 0 4) →
      Answers (.lakeLogRead t pi rt ra) t 0x63 ra i s (fun r =>
        r.refuses stNotFound (calling t rt i s))) ∧
  (∀ (s : State) (t : Fin 256) (pi : Fin 8) (rt ra : Fin 32) (p : Place) (i : Nat) (b : List Byte) (q : Place),
      s.callsAt t pi ra 0x64 32 p i = true →
      s.load p 32 = b →
      zeros b 20 12 = true ∧ field b 0 8 % 4096 = 0 ∧ field b 0 8 + 4096 ≤ s.lake.volGiB * 2 ^ 30 ∧ field b 16 4 = 4096 →
      s.lake.bad.get false (7 * 2 ^ 40 + field b 0 8 / 4096) = false →
      (s.thr t).bufPlace t (field b 8 8) 4096 = some q →
      (s.lake.vol.get (zeroBytes 4096) (field b 0 8 / 4096)).length = 4096 →
      Answers (.lakeVolRead t pi rt ra) t 0x64 ra i s (fun r =>
        r.good [] ∧
        r.st = storeAt q (s.lake.vol.get (zeroBytes 4096) (field b 0 8 / 4096)) (calling t rt i s))) ∧
  (∀ (s : State) (t : Fin 256) (pi : Fin 8) (rt ra : Fin 32) (p : Place) (i : Nat) (b : List Byte) (q : Place) (d : List Byte),
      s.callsAt t pi ra 0x65 32 p i = true →
      s.load p 32 = b →
      zeros b 20 12 = true ∧ field b 0 8 % 4096 = 0 ∧ field b 0 8 + 4096 ≤ s.lake.volGiB * 2 ^ 30 ∧ field b 16 4 = 4096 →
      (s.thr t).bufPlace t (field b 8 8) (4096) = some q →
      s.poisoned q 4096 = false →
      s.load q 4096 = d →
      s.volUsed + 1 ≤ s.lake.volGiB * 262144 * 112 / 100 →
      Answers (.lakeVolWrite t pi rt ra) t 0x65 ra i s (fun r =>
        r.status = stOk ∧ r.out = [] ∧ r.waits = some (.volume s.lake.nextVol) ∧
        r.st.lake.volPend = s.lake.volPend ++ [{ id := s.lake.nextVol, chunks := [(field b 0 8 / 4096, d)], at_ := s.nowNs }] ∧
        r.st.lake.vol = s.lake.vol ∧ r.st.lake.nextVol = s.lake.nextVol + 1 ∧ r.st.lake.volFull = false ∧
        r.st = { calling t rt i s with lake := r.st.lake })) ∧
  (∀ (s : State) (t : Fin 256) (pi : Fin 8) (rt ra : Fin 32) (p : Place) (i : Nat) (b : List Byte),
      s.callsAt t pi ra 0x66 16 p i = true →
      s.load p 16 = b →
      zeros b 12 4 = true ∧ field b 0 8 % 4096 = 0 ∧ field b 0 8 + field b 8 4 * 4096 ≤ s.lake.volGiB * 2 ^ 30 →
      Answers (.lakeVolTrim t pi rt ra) t 0x66 ra i s (fun r =>
        r.good [] ∧
        (∀ k, r.st.lake.vol.find k = if field b 0 8 / 4096 ≤ k ∧ k < field b 0 8 / 4096 + field b 8 4 then none else s.lake.vol.find k) ∧
        r.st.lake.log = s.lake.log ∧ r.st.lake.chunks = s.lake.chunks ∧ r.st.lake.heack = s.lake.heack ∧
        r.st = { calling t rt i s with lake := r.st.lake })) ∧
  (∀ (s : State) (t : Fin 256) (pi : Fin 8) (rt ra : Fin 32) (p : Place) (i : Nat) (b : List Byte),
      s.callsAt t pi ra 0x67 8 p i = true →
      s.load p 8 = b →
      zeros b 4 4 = true →
      field b 0 4 + 64 * s.lake.geom.dg ≤ s.lake.logQuota →
      s.lake.protect = false →
      Answers (.lakeGrant t pi rt ra) t 0x67 ra i s (fun r =>
        r.good [] ∧
        r.st.lake.logQuota = s.lake.logQuota - field b 0 4 ∧ r.st.lake.ledgerQuota = s.lake.ledgerQuota + field b 0 4 ∧
        r.st = { calling t rt i s with lake.logQuota := r.st.lake.logQuota, lake.ledgerQuota := r.st.lake.ledgerQuota, lake.spareLow := r.st.lake.spareLow, hp := r.st.hp, glb := r.st.glb, ctr := r.st.ctr })) ∧
  (∀ (s : State) (t : Fin 256) (pi : Fin 8) (rt ra : Fin 32) (p : Place) (i : Nat) (b : List Byte),
      s.callsAt t pi ra 0x68 64 p i = true →
      s.load p 64 = b →
      zeros b 3 1 = true ∧ zeros b 8 56 = true →
      s.ldg.sealed = false ∧ s.lake.inited = true →
      field b 4 4 = 0x464F524D ∧ 1 ≤ field b 0 1 ∧ field b 0 1 ≤ 32 ∧ field b 1 1 ≤ 64 ∧ 1 ≤ field b 2 1 ∧ field b 2 1 ≤ 36 →
      (s.lake.totalBlocks : Int) ≤ (s.lake.quotas (field b 0 1) (field b 1 1) (field b 2 1)).2.2 * 10 →
      Answers (.lakeFormat t pi rt ra) t 0x68 ra i s (fun r =>
        r.good [] ∧
        r.st.lake.formatted = true ∧ r.st.lake.ready = false ∧ r.st.lake.landGiB = field b 0 1 ∧ r.st.lake.volGiB = field b 1 1 ∧ r.st.lake.nkeepMax = field b 2 1 ∧
        r.st.lake.log = [] ∧ r.st.lake.vol = [] ∧ r.st.lake.maps = [] ∧ r.st.lake.chunks = [] ∧ r.st.lake.stripes = [] ∧
        (∀ k, (s.lake.blocks.find k).map (·.st) = some 7 → (r.st.lake.blocks.find k).map (·.st) = some 7) ∧
        r.st.ldg.live = LData.empty ∧ r.st.ldg.dur = LData.empty ∧ r.st.ldg.jq = [] ∧
        r.st.cpm.resetDue = some 3 ∧ r.st.sepia = s.sepia ∧ r.st.otp = s.otp)) ∧
  (∀ (s : State) (t : Fin 256) (pi : Fin 8) (rt ra : Fin 32) (p : Place) (i : Nat) (b : List Byte),
      s.callsAt t pi ra 0x68 64 p i = true →
      s.load p 64 = b →
      zeros b 3 1 = true ∧ zeros b 8 56 = true →
      s.ldg.sealed = true →
      Answers (.lakeFormat t pi rt ra) t 0x68 ra i s (fun r =>
        r.refuses stSealed (calling t rt i s)))

/-- Reads (R214, R215, R223), programs (R216, R221, R231), erases (R217, R231), failed LUNs (R211, R232). -/
def Obligations.LakeNand : Prop :=
  (∀ (s : State) (lun block at_ ch tg l : Nat),
      s.lake.inited = true ∧ lun < s.lake.luns →
      at_ + (s.maxOp 0 + 1000) * 1000 ≤ s.nowNs →
      (s.lake.lunErrs.get [] lun).length < 7 →
      s.lake.geom.place lun = (ch, tg, l) ∧ s.lake.geom.tgts ≤ 1 →
      s.clocked = true →
      Does (.nandOpTimeout lun block 0 at_ true) s (fun u =>
        (u.lake.lunErrs.get [] lun = s.nowNs :: (s.lake.lunErrs.get [] lun).filter (fun x => decide (s.nowNs < x + 86400000000000))) ∧
        (∀ k, k ≠ lun → u.lake.lunErrs.get [] k = s.lake.lunErrs.get [] k) ∧
        u.out = .nand ch tg [0x78] [l, block, 0] 0 [] :: .nand ch tg [0xFA] [l, 0, 0] 0 [] :: s.out ∧
        u = { s with lake.lunErrs := u.lake.lunErrs, out := u.out })) ∧
  (∀ (s : State) (lun block kind at_ : Nat) (answers : Bool),
      s.nowNs < at_ + (s.maxOp kind + 1000) * 1000 →
      Stays (.nandOpTimeout lun block kind at_ answers) s) ∧
  (∀ (s : State) (lun block at_ : Nat),
      s.lake.inited = true ∧ lun < s.lake.luns →
      at_ + (s.maxOp 0 + 1000) * 1000 ≤ s.nowNs →
      s.lake.lunFailed.get false lun = false →
      s.clocked = true →
      Does (.nandOpTimeout lun block 0 at_ false) s (fun u =>
        u.lake.lunFailed.get false lun = true ∧
        (∀ k, k ≠ lun → u.lake.lunFailed.get false k = s.lake.lunFailed.get false k) ∧
        (∀ j, (u.lake.block (lun * 4096 + j % 4096)).st = 7) ∧
        u.lake.log = s.lake.log ∧ u.lake.vol = s.lake.vol ∧
        s.out <:+ u.out ∧
        u = { s with lake := u.lake, hp := u.hp, glb := u.glb, ctr := u.ctr, out := u.out })) ∧
  (∀ (s : State) (pca corrected : Nat) (r : ReadIn) (x : CTag),
      s.lake.inited = true →
      s.lake.chunks.find pca = some x →
      ladder 0 r.tries = .passed 0 corrected →
      corrected ≤ 80 →
      (s.readLimit = 0 ∨ (s.lake.block (pca / 4096)).reads + 1 < s.readLimit) →
      s.clocked = true →
      Does (.nandReadComplete pca r) s (fun u =>
        u.lake.block (pca / 4096) = { s.lake.block (pca / 4096) with reads := (s.lake.block (pca / 4096)).reads + 1 } ∧
        (∀ k, k ≠ pca / 4096 → u.lake.block k = s.lake.block k) ∧
        u.counter 0x250003 = s.counter 0x250003 + 1 ∧
        s.out <:+ u.out ∧
        u = { s with lake.blocks := u.lake.blocks, ctr := u.ctr, out := u.out })) ∧
  (∀ (s : State) (pca : Nat) (r : ReadIn) (x : CTag),
      s.lake.inited = true →
      s.lake.chunks.find pca = some x →
      ladder 0 r.tries = .failed →
      (s.lake.stripes.find x.stripe).map (·.st) = some 2 →
      (s.readLimit = 0 ∨ (s.lake.block (pca / 4096)).reads + 1 < s.readLimit) →
      x.space = 5 ∧ x.laddr < 2 ^ 40 →
      s.lake.live pca x = true →
      s.clocked = true →
      Does (.nandReadComplete pca r) s (fun u =>
        u.lake.bad.get false (5 * 2 ^ 40 + x.laddr) = true ∧
        (∀ k, k ≠ 5 * 2 ^ 40 + x.laddr → u.lake.bad.get false k = s.lake.bad.get false k) ∧
        Posts 0x0704 0 (le 1 5 ++ zeroBytes 7 ++ le 8 x.laddr) s u ∧
        u.counter 0x250006 = s.counter 0x250006 + 1 ∧
        u.ldg = s.ldg ∧
        s.out <:+ u.out ∧
        u = { s with lake.blocks := u.lake.blocks, lake.bad := u.lake.bad, hp := u.hp, glb := u.glb, ctr := u.ctr, out := u.out })) ∧
  (∀ (s : State) (pca corrected : Nat) (r : ReadIn) (x : CTag),
      s.lake.ready = true ∧ s.cpm.pfail = false →
      s.lake.patrolNext s.lake.patrolPos = some pca →
      s.lake.chunks.find pca = some x →
      ladder 0 r.tries = .passed 0 corrected →
      corrected ≤ 80 →
      (s.readLimit = 0 ∨ (s.lake.block (pca / 4096)).reads + 1 < s.readLimit) →
      Does (.lakePatrol r) s (fun u =>
        u.lake.block (pca / 4096) = { s.lake.block (pca / 4096) with reads := (s.lake.block (pca / 4096)).reads + 1 } ∧
        (∀ k, k ≠ pca / 4096 → u.lake.block k = s.lake.block k) ∧
        u.counter 0x250003 = s.counter 0x250003 + 1 ∧
        s.out <:+ u.out ∧
        u.lake.patrolPos = pca + 1 ∧ u.lake.patrolAt = s.lake.patrolAt ∧
        u = { s with lake.blocks := u.lake.blocks, lake.patrolPos := u.lake.patrolPos, ctr := u.ctr, out := u.out })) ∧
  (∀ (s : State) (r : ReadIn),
      s.lake.patrolNext s.lake.patrolPos = none →
      s.nowNs < s.lake.patrolAt + 2592000000000000 →
      Stays (.lakePatrol r) s) ∧
  (∀ (s : State) (stream n k : Nat) (keys : List Nat) (x : Stripe),
      s.lake.inited = true ∧ s.lake.formatted = true →
      [3, 5, 6, 7].contains stream = true →
      keys.length = 4 ∧ keys.Nodup ∧ keys.all (s.mayProgram stream) = true →
      s.lake.openStripe.find stream = some n →
      s.lake.stripes.find n = some x →
      x.blocks.getD (x.data.getD (x.wpos % x.data.length) 16) none = some k →
      x.wpos / x.data.length + 1 < s.lake.geom.pages →
      Does (.nandProgramComplete stream keys true []) s (fun u =>
        (∀ j < 4, u.lake.maps.find (keys.getD j 0) = some (k * 4096 + x.wpos / x.data.length * 4 + j)) ∧
        (∀ a, a ∉ keys → u.lake.maps.find a = s.lake.maps.find a) ∧
        (∀ j < 4, (u.lake.chunks.find (k * 4096 + x.wpos / x.data.length * 4 + j)).map (fun c => mapKey c.space c.laddr) = some (keys.getD j 0)) ∧
        u.lake.stripes.find n = some { x with wpos := x.wpos + 1 } ∧
        u.ldg = s.ldg ∧ u.ing = s.ing ∧ u.woad = s.woad)) ∧
  (∀ (s : State) (stream n k : Nat) (keys : List Nat) (x : Stripe),
      s.lake.inited = true ∧ s.lake.formatted = true →
      [3, 5, 6, 7].contains stream = true →
      keys.length = 4 ∧ keys.Nodup ∧ keys.all (s.mayProgram stream) = true →
      s.lake.openStripe.find stream = some n →
      s.lake.stripes.find n = some x →
      x.blocks.getD (x.data.getD (x.wpos % x.data.length) 16) none = some k →
      Does (.nandProgramComplete stream keys false []) s (fun u =>
        (u.lake.block k).st = 7 ∧
        u.ing = s.ing ∧ u.woad = s.woad)) ∧
  (∀ (s : State) (lun block : Nat),
      (s.lake.block (blockKey lun block)).st = 5 ∧ s.cpm.pfail = false ∧ s.lake.protect = false ∧ s.lake.inited = true →
      Does (.nandEraseComplete lun block true) s (fun u =>
        (u.lake.block (blockKey lun block)).st = 1 ∧ (u.lake.block (blockKey lun block)).pe = min ((s.lake.block (blockKey lun block)).pe + 1) 0xFFFFF ∧ (u.lake.block (blockKey lun block)).reads = 0 ∧
        (∀ k, k ≠ blockKey lun block → u.lake.block k = s.lake.block k) ∧
        (∀ a, u.lake.chunks.find a = if a / 4096 = blockKey lun block then none else s.lake.chunks.find a) ∧
        u.lake.maps = s.lake.maps ∧ u.lake.log = s.lake.log ∧
        s.out <:+ u.out ∧
        u = { s with lake := u.lake, hp := u.hp, glb := u.glb, ctr := u.ctr, out := u.out })) ∧
  (∀ (s : State) (lun block : Nat),
      (s.lake.block (blockKey lun block)).st = 5 ∧ s.cpm.pfail = false ∧ s.lake.inited = true →
      Does (.nandEraseComplete lun block false) s (fun u =>
        (u.lake.block (blockKey lun block)).st = 7 ∧
        u.ing = s.ing ∧ u.woad = s.woad ∧ u.ldg = s.ldg)) ∧
  (∀ (s : State) (lun block : Nat) (pass : Bool),
      (s.lake.block (blockKey lun block)).st ≠ 5 →
      Stays (.nandEraseComplete lun block pass) s)

/-- Calibration (R210), landing (R224), reclaim (R227), collection (R228), write-back (R222), map journal (R229), LAKE_FULL (R233). -/
def Obligations.LakeBackground : Prop :=
  (∀ (s : State),
      s.lake.inited = true ∧ s.cpm.pfail = false →
      s.lake.lastZq + 600000000000 ≤ s.nowNs →
      s.lake.geom.tgts = 1 →
      s.clocked = true →
      Does (.zqShortCal) s (fun u =>
        u.lake.lastZq = s.nowNs ∧
        (u.out = ((List.range 8).map fun i => Out.nand i 0 [0xD9] [] 0 []).reverse ++ s.out) ∧
        u = { s with lake.lastZq := u.lake.lastZq, out := u.out })) ∧
  (∀ (s : State),
      s.nowNs < s.lake.lastZq + 600000000000 →
      Stays (.zqShortCal) s) ∧
  (∀ (s : State) (x : JRec) (l : List JRec),
      s.lake.inited = true ∧ s.lake.landFull = false ∧ s.lake.protect = false →
      s.ldg.jq = x :: l →
      x.landed = false ∧ x.acked = false →
      x.at_ + 1000000 ≤ s.nowNs →
      s.clocked = true →
      Does (.landingDeadline 4) s (fun u =>
        u.ldg.jq = { x with landed := true } :: l ∧ u.ldg.dur = applyRec x s.ldg.dur ∧ u.ldg.live = s.ldg.live ∧
        u.lake.landing.length = s.lake.landing.length + 2 ∧ u.lake.log = s.lake.log ∧ u.lake.vol = s.lake.vol ∧
        u = { s with ldg := u.ldg, lake := u.lake, ctr := u.ctr })) ∧
  (∀ (s : State) (x : JRec) (l : List JRec),
      s.ldg.jq = x :: l →
      x.landed = false →
      s.nowNs < x.at_ + 1000000 ∧ s.ldg.jpos / 4096 ≤ x.pos / 4096 →
      Stays (.landingDeadline 4) s) ∧
  (∀ (s : State) (x : LogRec) (l : List LogRec),
      s.lake.inited = true ∧ s.lake.landFull = false ∧ s.lake.ready = true →
      s.lake.log = x :: l →
      (x.landed = false ∧ (∀ y ∈ l, y.landed = true)) →
      x.at_ + 4000000 ≤ s.nowNs →
      s.clocked = true →
      Does (.landingDeadline 5) s (fun u =>
        u.lake.log = { x with landed := true } :: l ∧
        (u.lake.landing.length = s.lake.landing.length + 2 ∧ u.lake.creditsUsed = s.lake.creditsUsed - (if x.credited then 1 else 0)) ∧
        u = { s with lake := u.lake, ctr := u.ctr })) ∧
  (∀ (s : State) (n k at_ : Nat) (d : List Byte) (l : List VolWrite),
      s.lake.inited = true ∧ s.lake.landFull = false →
      s.lake.volPend = { id := n, chunks := [(k, d)], at_ := at_ } :: l →
      Does (.landingDeadline 7) s (fun u =>
        u.lake.vol.get (zeroBytes 4096) k = d ∧
        (∀ j, j ≠ k → u.lake.vol.get (zeroBytes 4096) j = s.lake.vol.get (zeroBytes 4096) j) ∧
        (∀ w ∈ u.lake.volPend, w.id ≠ n) ∧
        u.lake.landing.length = s.lake.landing.length + 2 ∧ u.ldg = s.ldg ∧ u.ing = s.ing)) ∧
  (∀ (s : State),
      s.lake.landFull = true →
      ∀ space, exec (.landingDeadline space) s = .next s) ∧
  (∀ (s : State) (n : Nat) (x : Stripe),
      s.lake.ready = true ∧ s.lake.freeLog < 4 * s.lake.geom.dg →
      s.lake.tailStripe = some (n, x) →
      (x.st = 2 ∧ s.lake.lsnsOf n ≠ [] ∧ (∀ l ∈ s.lake.lsnsOf n, l < s.lake.heack)) →
      s.clocked = true →
      Does (.logReclaim) s (fun u =>
        u.lake.stripes.find n = none ∧
        (∀ e ∈ u.lake.log, e ∈ s.lake.log ∧ ∀ l ∈ s.lake.lsnsOf n, l < e.lsn) ∧
        u.lake.heack = s.lake.heack ∧ u.lake.vol = s.lake.vol ∧ u.ldg = s.ldg ∧ u.ing = s.ing)) ∧
  (∀ (s : State),
      s.lake.ready = true ∧ s.lake.logFull = false →
      s.lake.tailStripe = none →
      s.lake.freeLog < 2 * s.lake.geom.dg →
      s.clocked = true →
      Does (.logReclaim) s (fun u =>
        u.lake = { s.lake with logFull := true } ∧
        Posts 0x0705 0 (le 4 s.lake.lsnTail ++ le 4 s.lake.heack) { s with lake.logFull := true } u ∧
        u = { s with lake := u.lake, hp := u.hp, ctr := u.ctr, glb := u.glb })) ∧
  (∀ (s : State),
      s.lake.ready = true ∧ s.lake.logFull = true →
      4 * s.lake.geom.dg ≤ s.lake.freeLog →
      s.clocked = true →
      Does (.logReclaim) s (fun u =>
        u.lake = { s.lake with logFull := false } ∧
        Posts 0x0706 1 (le 4 s.lake.lsnTail ++ le 4 s.lake.heack) { s with lake.logFull := false } u ∧
        u = { s with lake := u.lake, hp := u.hp, ctr := u.ctr, glb := u.glb })) ∧
  (∀ (s : State) (space : Nat),
      s.lake.ready = true ∧ s.cpm.pfail = false ∧ [3, 4, 6, 7].contains space = true →
      (∃ e ∈ s.lake.stripes, e.2.stream % 16 = space ∧ e.2.st = 2 ∧ s.lake.victims.find e.1 = none) →
      s.clocked = true →
      Does (.lakeCollection space) s (fun u =>
        u.lake.gcAct = true ∧
        (∃ e ∈ s.lake.stripes, e.2.stream % 16 = space ∧ e.2.st = 2 ∧ s.lake.victims.find e.1 = none ∧ (u.lake.victims.find e.1).isSome = true) ∧
        u.lake.log = s.lake.log ∧ u.lake.vol = s.lake.vol ∧
        u.ldg.live = s.ldg.live ∧ u.ing = s.ing ∧ u.woad = s.woad)) ∧
  (∀ (s : State) (mh : Nat) (m : Meter) (n k : Nat) (x : Stripe),
      s.lake.ready = true ∧ s.lake.protect = false →
      s.ldg.dur.meters = [(mh, m)] →
      s.ldg.jq.all (·.landed) = true →
      s.lake.openStripe.find 4 = some n →
      s.lake.stripes.find n = some x →
      x.blocks.getD (x.data.getD (x.wpos % x.data.length) 16) none = some k →
      x.wpos / x.data.length + 1 < s.lake.geom.pages →
      s.clocked = true →
      Does (.ledgerGroupWriteback) s (fun u =>
        u.lake.maps.find (4 * 2 ^ 40 + mh / 8) = some (k * 4096 + x.wpos / x.data.length * 4) ∧
        (∀ a, a ≠ 4 * 2 ^ 40 + mh / 8 → u.lake.maps.find a = s.lake.maps.find a) ∧
        u.lake.groupJseq.get 0 (mh / 8) = s.ldg.jseq ∧
        (∀ g, g ≠ mh / 8 → u.lake.groupJseq.get 0 g = s.lake.groupJseq.get 0 g) ∧
        u.ldg = s.ldg ∧ u.ing = s.ing ∧ u.lake.log = s.lake.log)) ∧
  (∀ (s : State),
      s.lake.inited = true ∧ s.lake.mjStaged ≠ [] →
      (s.lake.lastFlush + 2000000000 ≤ s.nowNs ∨ 16384 ≤ s.lake.mjChunks ∨ s.lake.mjDue = true ∨ s.cpm.pfail = true) →
      s.clocked = true →
      Does (.mapJournalFlush) s (fun u =>
        u.lake = { s.lake with mjseq := s.lake.mjseq + ceilDiv s.lake.mjStaged.length 255, mjStaged := [], mjChunks := 0, mjOpened := [], mjDue := false, lastFlush := s.nowNs, heackDur := s.lake.heack, trimmed := [] } ∧
        u.counter 0x250014 = s.counter 0x250014 + 1 ∧
        u = { s with lake := u.lake, ctr := u.ctr })) ∧
  (∀ (s : State),
      (s.lake.mjStaged = [] ∨ s.mjFlushDue = false) →
      Stays (.mapJournalFlush) s) ∧
  (∀ (s : State),
      s.lake.ready = true →
      (s.lake.lastCkpt + 600000000000 ≤ s.nowNs ∨ 1048576 ≤ s.lake.mjseq - s.lake.ckptMj) →
      s.clocked = true →
      Does (.mapCheckpoint) s (fun u =>
        u.lake.mjStaged = [] ∧ u.lake.lastCkpt = s.nowNs ∧ u.lake.ckptTime = s.nowS ∧ u.lake.aseq = s.lake.aseq + 1 ∧ u.lake.ckptMj = u.lake.mjseq ∧
        u.lake.maps = s.lake.maps ∧ u.lake.log = s.lake.log ∧
        s.out <:+ u.out ∧
        u = { s with lake := u.lake, ctr := u.ctr, out := u.out }))

/-- Doorbells, queues and fetch (R286, R288, R289), delivery (R291), TMO (R296). -/
def Obligations.HostQueues : Prop :=
  (∀ (s : State) (i : Fin 16) (v : BitVec 32),
      (s.queue i).en = true ∧ (s.queue i).stopped = false →
      (v.toNat % 128 + 128 - (s.queue i).sqHead) % 128 ≤ 64 →
      s.clocked = true →
      Does (.sqTailDoorbell i v) s (fun u =>
        u.queue i = { s.queue i with tail := v.toNat % 128 } ∧
        (∀ k, k ≠ i.val → u.queue k = s.queue k) ∧
        u = { s with hp.queues := u.hp.queues })) ∧
  (∀ (s : State) (i : Fin 16) (v : BitVec 32),
      (s.queue i).en = true ∧ (s.queue i).stopped = false →
      64 < (v.toNat % 128 + 128 - (s.queue i).sqHead) % 128 →
      s.clocked = true →
      Does (.sqTailDoorbell i v) s (fun u =>
        u.queue i = { s.queue i with err := 1, stopped := true } ∧
        (∀ k, k ≠ i.val → u.queue k = s.queue k) ∧
        Posts 0x0F01 0 (le 1 i ++ le 1 1) s u ∧
        u.hp.cmds = s.hp.cmds ∧
        u = { s with hp := u.hp, glb := u.glb, ctr := u.ctr })) ∧
  (∀ (s : State) (i : Fin 16) (v : BitVec 32),
      ((s.queue i).en = false ∨ (s.queue i).stopped = true) →
      s.clocked = true →
      Does (.sqTailDoorbell i v) s (fun u =>
        u.counter 0x310013 = s.counter 0x310013 + 1 ∧
        u = { s with ctr := u.ctr })) ∧
  (∀ (s : State) (i : Fin 16) (v : BitVec 32),
      (s.queue i).en = true →
      s.clocked = true →
      Does (.cqHeadDoorbell i v) s (fun u =>
        u.queue i = { s.queue i with cqHead := v.toNat % 128 } ∧
        (∀ k, k ≠ i.val → u.queue k = s.queue k) ∧
        u = { s with hp.queues := u.hp.queues })) ∧
  (∀ (s : State) (v : BitVec 32),
      s.hp.nq.en = true →
      s.clocked = true →
      exec (.nqHeadDoorbell v) s = .next { s with hp.nq.head := v.toNat % 2 ^ 16 % 2 ^ (s.hp.nq.size + 7) }) ∧
  (∀ (s : State) (v : BitVec 32),
      (s.queue s.hp.qSel.toNat).en = false ∧ (s.queue s.hp.qSel.toNat).enWaits = false ∧ s.draining s.hp.qSel.toNat = false →
      s.clocked = true →
      Does (.queueEnable v) s (fun u =>
        (let x := s.queue s.hp.qSel.toNat
         let y := u.queue s.hp.qSel.toNat
         y.ctl = (v ||| 0x80000000) &&& 0x9FFFFF00 ∧ (if 17 < bits v.toNat 28 24 then y.en = false ∧ y.err = 3
         else y.en = true ∧ y.stopped = false ∧ y.err = 0 ∧ y.sqBaseL = x.sqBase ∧ y.cqBaseL = x.cqBase ∧ y.vec = bits v.toNat 28 24 ∧
           y.tmo = bits v.toNat 15 8 ∧ y.sqHead = 0 ∧ y.tail = 0 ∧ y.cqTail = 0 ∧ y.cqHead = 0)) ∧
        (∀ k, k ≠ s.hp.qSel.toNat → u.queue k = s.queue k) ∧
        u = { s with hp.queues := u.hp.queues })) ∧
  (∀ (s : State) (v : BitVec 32),
      s.clocked = true →
      Does (.queueDisable v) s (fun u =>
        (u.queue s.hp.qSel.toNat).en = false ∧ (u.queue s.hp.qSel.toNat).ctl = v &&& 0x1FFFFF00 ∧
        (∀ k, k ≠ s.hp.qSel.toNat → u.queue k = s.queue k) ∧
        (u.hp.cmds = s.hp.cmds.map (fun d => if d.sqid = s.hp.qSel.toNat then { d with discard := true } else d)) ∧
        u = { s with hp.queues := u.hp.queues, hp.cmds := u.hp.cmds })) ∧
  (∀ (s : State) (i : Fin 16) (raw data : List Byte) (dataOk : Bool),
      s.nextQueue = some i.val →
      s.hp.d3hot = false ∧ s.hostRuns = true ∧ s.cpm.drain = .none →
      raw.length = 64 →
      field raw 0 2 ∈ [0xFF00, 0xFF01, 0xFF02, 0xFF03] ∧ field raw 2 1 % 128 = 0 ∧ zeros raw 3 1 = true ∧ zeros raw 36 8 = true ∧ zeros raw 44 20 = true →
      Does (.commandFetch i raw data true dataOk) s (fun u =>
        u.queue i = { s.queue i with sqHead := ((s.queue i).sqHead + 1) % 128 } ∧
        (∀ k, k ≠ i.val → u.queue k = s.queue k) ∧
        u.hp.cmds = s.hp.cmds ++ [{ raw := raw, sqid := i, no := s.hp.fetched }] ∧
        u.hp.fetched = s.hp.fetched + 1 ∧
        u = { s with hp.queues := u.hp.queues, hp.turn := i.val, hp.cmds := u.hp.cmds, hp.fetched := u.hp.fetched, ctr := u.ctr })) ∧
  (∀ (s : State) (i : Fin 16) (raw data : List Byte) (dataOk : Bool),
      s.nextQueue = some i.val →
      s.hp.d3hot = false ∧ s.hostRuns = true ∧ s.cpm.drain = .none →
      raw.length = 64 →
      field raw 48 2 ≠ 0 ∧ bitAt (field raw 2 1) 6 = false →
      s.session (field raw 48 2) = none →
      Does (.commandFetch i raw data true dataOk) s (fun u =>
        u.queue i = { s.queue i with sqHead := ((s.queue i).sqHead + 1) % 128 } ∧
        (∀ k, k ≠ i.val → u.queue k = s.queue k) ∧
        { raw := raw, sqid := i, no := s.hp.fetched, stage := .registered, status := 0x303, regAt := s.hp.regs } ∈ u.hp.cmds ∧
        (u.hp.cmds.length = s.hp.cmds.length + 1 ∧ (∀ d ∈ s.hp.cmds, d.no ≠ s.hp.fetched → d ∈ u.hp.cmds)) ∧
        u.hp.sessions = s.hp.sessions ∧
        u.ing = s.ing ∧ u.ldg = s.ldg ∧ u.mcc = s.mcc)) ∧
  (∀ (s : State) (i : Fin 16) (raw data : List Byte) (dataOk : Bool),
      s.nextQueue = some i.val →
      s.hp.d3hot = false ∧ s.hostRuns = true ∧ s.cpm.drain = .none →
      Does (.commandFetch i raw data false dataOk) s (fun u =>
        u.queue i = { s.queue i with err := 2, stopped := true } ∧
        (∀ k, k ≠ i.val → u.queue k = s.queue k) ∧
        u.hp.cmds = s.hp.cmds ∧
        Posts 0x0F01 0 (le 1 i ++ le 1 2) s u)) ∧
  (∀ (s : State) (q : Fin 18) (c : Cmd),
      s.hp.cmds = [c] →
      (c.sqid = q.val ∧ c.stage = .judged ∧ (c.eno < 0xFF00 ∨ 0xFF08 < c.eno)) →
      c.dlen8 = 0 ∧ c.rlen8 = 0 ∧ c.data = [] →
      ((s.mcc.queues.get [] (if q.val < 16 then 0 else 1)).length < (if q.val < 16 then 2 ^ 16 else 256)) →
      s.coresRun = true →
      Does (.commandDeliver q) s (fun u =>
        u.hp.cmds = [{ c with stage := .delivered, deliveredAt := s.nowNs, pool := none }] ∧
        (∃ e, u.mcc.queues.get [] (if q.val < 16 then 0 else 1) = s.mcc.queues.get [] (if q.val < 16 then 0 else 1) ++ [e] ∧ e.ref = Word.of (c.eno + c.sqid * 2 ^ 16 + c.cid * 2 ^ 32) ∧ e.body = c.raw ++ zeroBytes 48 ∧ e.rtag = s.cmdRtag c) ∧
        (∀ k, k ≠ (if q.val < 16 then 0 else 1) → u.mcc.queues.get [] k = s.mcc.queues.get [] k) ∧
        u.mcc.dmem = s.mcc.dmem ∧ u.mcc.shared = s.mcc.shared ∧ u.mcc.threads = s.mcc.threads ∧
        u.hp.sessions = s.hp.sessions ∧ u.ldg = s.ldg)) ∧
  (∀ (s : State) (q : Fin 16) (c : Cmd),
      s.hp.cmds = [c] →
      c.sqid = q.val ∧ c.stage = .delivered ∧ c.discard = false →
      0 < (s.queue q).tmo ∧ c.deliveredAt + (s.queue q).tmo * 100000000 ≤ s.nowNs →
      s.clocked = true →
      Does (.commandTimeout q) s (fun u =>
        Registers c 0x309 0 none s u ∧
        (∀ p, c.pool = some p → (c.ref, p.1, p.2) ∈ u.hp.stale) ∧
        u.counter 0x310009 = s.counter 0x310009 + 1 ∧
        u = { s with hp.cmds := u.hp.cmds, hp.regs := u.hp.regs, hp.stale := u.hp.stale , ctr := u.ctr })) ∧
  (∀ (s : State) (q : Fin 16),
      (s.queue q).tmo = 0 →
      Stays (.commandTimeout q) s)

/-- Completions (R287, R294, R295), image notices (R300), the notice queue (R299), the Ethernet channel (R301 to R303), resets (R285). -/
def Obligations.HostAnswers : Prop :=
  (∀ (s : State) (q : Fin 18) (c : Cmd) (ok : Bool),
      s.firstReg q = some c →
      q.val < 16 ∧ c.discard = false ∧ c.closed = false →
      (s.queue q).en = true ∧ ((s.queue q).cqTail + 128 - (s.queue q).cqHead) % 128 < 64 ∧ s.hp.d3hot = false →
      c.resp = none →
      s.clocked = true →
      Does (.completionWrite q ok) s (fun u =>
        (.host ((s.queue q).cqBaseL.toNat + 16 * ((s.queue q).cqTail % 64)) (le 4 c.cid ++ le 2 c.status ++ le 1 c.sqid ++ le 1 ((if (s.queue q).cqTail < 64 then 128 else 0) + (s.queue q).sqHead) ++ le 8 (c.result).toNat) ∈ u.out) ∧
        (u.hp.cmds = s.hp.cmds.filter (fun d => d.no != c.no)) ∧
        u.queue q = { s.queue q with cqTail := ((s.queue q).cqTail + 1) % 128 } ∧
        (∀ k, k ≠ q.val → u.queue k = s.queue k) ∧
        u.counter 0x310003 = s.counter 0x310003 + 1 ∧
        u = { s with hp.cmds := u.hp.cmds, hp.queues := u.hp.queues, hp.coalEnd := u.hp.coalEnd, hp.pba := u.hp.pba, out := u.out, ctr := u.ctr })) ∧
  (∀ (s : State) (q : Fin 18) (c : Cmd) (r : List Byte),
      s.firstReg q = some c →
      q.val < 16 ∧ c.discard = false ∧ c.closed = false →
      (s.queue q).en = true ∧ ((s.queue q).cqTail + 128 - (s.queue q).cqHead) % 128 < 64 ∧ s.hp.d3hot = false →
      c.resp = some r ∧ 8 * ceilDiv r.length 8 + 16 ≤ 8 * c.rlen8 ∧ c.sid = 0 →
      s.clocked = true →
      Does (.completionWrite q true) s (fun u =>
        .host c.buf (fit (8 * ceilDiv r.length 8) r ++ le 4 r.length ++ le 2 c.status ++ zeroBytes 10) ∈ u.out ∧
        (.host ((s.queue q).cqBaseL.toNat + 16 * ((s.queue q).cqTail % 64)) (le 4 c.cid ++ le 2 c.status ++ le 1 c.sqid ++ le 1 ((if (s.queue q).cqTail < 64 then 128 else 0) + (s.queue q).sqHead) ++ le 8 (BitVec.ofNat 64 r.length).toNat) ∈ u.out) ∧
        (u.hp.cmds = s.hp.cmds.filter (fun d => d.no != c.no)))) ∧
  (∀ (s : State) (q : Fin 18) (c : Cmd) (r : List Byte) (ok : Bool),
      s.firstReg q = some c →
      q.val < 16 ∧ c.discard = false ∧ c.closed = false →
      (s.queue q).en = true ∧ ((s.queue q).cqTail + 128 - (s.queue q).cqHead) % 128 < 64 ∧ s.hp.d3hot = false →
      c.resp = some r ∧ 8 * c.rlen8 < 8 * ceilDiv r.length 8 + 16 →
      s.clocked = true →
      Does (.completionWrite q ok) s (fun u =>
        (.host ((s.queue q).cqBaseL.toNat + 16 * ((s.queue q).cqTail % 64)) (le 4 c.cid ++ le 2 0x307 ++ le 1 c.sqid ++ le 1 ((if (s.queue q).cqTail < 64 then 128 else 0) + (s.queue q).sqHead) ++ le 8 (BitVec.ofNat 64 (8 * ceilDiv r.length 8 + 16)).toNat) ∈ u.out) ∧
        (u.hp.cmds = s.hp.cmds.filter (fun d => d.no != c.no)))) ∧
  (∀ (s : State) (q : Fin 18) (c : Cmd) (ok : Bool),
      s.firstReg q = some c →
      c.discard = true →
      (s.queue q).enWaits = false →
      s.clocked = true →
      Does (.completionWrite q ok) s (fun u =>
        (u.hp.cmds = s.hp.cmds.filter (fun d => d.no != c.no)) ∧
        u.counter 0x310004 = s.counter 0x310004 + 1 ∧
        u = { s with hp.cmds := u.hp.cmds, ctr := u.ctr })) ∧
  (∀ (s : State) (q : Fin 18) (c : Cmd) (ok : Bool),
      s.firstReg q = some c →
      16 ≤ q.val ∧ c.sqid = q.val ∧ c.discard = false ∧ c.closed = false ∧ c.resp = none →
      (s.mac (q.val - 16)).link = true →
      s.clocked = true →
      Does (.completionWrite q ok) s (fun u =>
        (u.hp.cmds = s.hp.cmds.filter (fun d => d.no != c.no)) ∧
        (u.mac (q.val - 16)).dgrams = (s.mac (q.val - 16)).dgrams ++ [{ bytes := le 2 0x4E5A ++ le 1 1 ++ le 1 2 ++ le 1 1 ++ zeroBytes 3 ++ le 4 c.xid.toNat ++ zeroBytes 4 ++ (le 4 c.cid ++ le 2 c.status ++ le 1 c.sqid ++ le 1 0 ++ le 8 c.result.toNat), dst := some c.src }] ∧
        u.out = s.out ∧ u.ldg = s.ldg)) ∧
  (∀ (s : State) (v : Fin 18) (e : Nat),
      s.hp.coalEnd.find v = some e →
      e ≤ s.nowNs →
      s.clocked = true →
      Does (.msixCoalesceExpire v) s (fun u =>
        u.hp.coalEnd = s.hp.coalEnd.del v ∧
        (if bitAt (s.hp.msix.get 0 (16 * v + 12)).toNat 0 ∨ s.hp.d3hot then u.out = s.out ∧ u.hp.pba.getLsbD v = true else u.out = .msix (ofLe (readBytes s.hp.msix (16 * v) 8)) (ofLe (readBytes s.hp.msix (16 * v + 8) 4)) :: s.out ∧ u.hp.pba = s.hp.pba) ∧
        u = { s with hp.coalEnd := u.hp.coalEnd, hp.pba := u.hp.pba, out := u.out })) ∧
  (∀ (s : State) (v : BitVec 32),
      v.getLsbD 31 = true ∧ s.hp.nq.en = false ∧ bits v.toNat 3 0 ≤ 9 ∧ bits v.toNat 28 24 ≤ 17 →
      s.clocked = true →
      Does (.nqEnable v) s (fun u =>
        u.hp.nq = { s.hp.nq with ctl := v &&& 0x9FFF000F, en := true, baseL := s.hp.nq.base, size := bits v.toNat 3 0, vec := bits v.toNat 28 24, err := 0, tail := 0, head := 0 } ∧
        u = { s with hp.nq := u.hp.nq })) ∧
  (∀ (s : State) (v : BitVec 32),
      v.getLsbD 31 = true ∧ s.hp.nq.en = false →
      (9 < bits v.toNat 3 0 ∨ 17 < bits v.toNat 28 24) →
      s.clocked = true →
      Does (.nqEnable v) s (fun u =>
        u.hp.nq.en = false ∧ u.hp.nq.err = 2 ∧ u.hp.nq.waiting = s.hp.nq.waiting ∧
        u = { s with hp.nq := u.hp.nq })) ∧
  (∀ (s : State) (v : BitVec 32),
      v.getLsbD 31 = false ∧ s.hp.nq.waiting = [] →
      s.clocked = true →
      Does (.nqEnable v) s (fun u =>
        u.hp.nq.en = false ∧ u.hp.nq.nseq = s.hp.nq.nseq ∧ u.hp.nq.waiting = [] ∧
        u = { s with hp.nq := u.hp.nq })) ∧
  (∀ (s : State) (n : Notice) (l : List Notice),
      s.hp.nq.waiting = n :: l →
      s.hp.nq.en = true ∧ s.hp.nq.used < 2 ^ (s.hp.nq.size + 6) ∧ s.hp.d3hot = false →
      s.clocked = true →
      Does (.noticeWrite true) s (fun u =>
        .host (s.hp.nq.baseL.toNat + 32 * (s.hp.nq.tail % 2 ^ (s.hp.nq.size + 6))) (le 2 n.code ++ le 1 (n.cls + 32 * flag n.timeInv + 64 * flag s.hp.nq.lostDue + 128 * flag (decide (s.hp.nq.tail < 2 ^ (s.hp.nq.size + 6)))) ++ zeroBytes 1 ++ le 4 n.nseq.toNat ++ le 8 n.tai ++ fit 16 n.args) ∈ u.out ∧
        u.hp.nq = { s.hp.nq with waiting := l, lostDue := false, tail := (s.hp.nq.tail + 1) % 2 ^ (s.hp.nq.size + 7) } ∧
        u = { s with hp := u.hp, out := u.out })) ∧
  (∀ (s : State) (n : Notice) (l : List Notice),
      s.hp.nq.waiting = n :: l →
      s.hp.nq.en = true ∧ s.hp.nq.used < 2 ^ (s.hp.nq.size + 6) ∧ s.hp.d3hot = false →
      s.clocked = true →
      exec (.noticeWrite false) s = .next { s with hp.nq.err := 1 }) ∧
  (∀ (s : State),
      (s.hp.nq.waiting = [] ∨ s.hp.nq.en = false) →
      Stays (.noticeWrite true) s) ∧
  (∀ (s : State) (up : Bool) (lanes : Fin 3) (gen : Fin 4),
      s.hp.nq.waiting = [] →
      s.clocked = true →
      Does (.hostPortReset up lanes gen) s (fun u =>
        (u.hp.dlup = up ∧ u.hp.width = (if up then 2 ^ lanes.val else 0) ∧ u.hp.speed = (if up then gen.val + 1 else 0)) ∧
        u.hp.sessions = [] ∧ u.hp.queues = [] ∧ u.hp.eth = [] ∧ u.hp.nq.en = false ∧ u.hp.nq.nseq = s.hp.nq.nseq ∧
        (u.hp.cmds = s.hp.cmds.map (fun d => { d with discard := true, closed := true })) ∧
        u = { s with hp := u.hp })) ∧
  (∀ (s : State),
      s.clocked = true →
      exec (.pciePowerState true) s = .next { s with hp.d3hot := true }) ∧
  (∀ (s : State),
      s.hp.pba = 0 →
      exec (.pciePowerState false) s = .next { s with hp.d3hot := false }) ∧
  (∀ (s : State) (v : Fin 18),
      s.hp.pba = BitVec.ofNat 18 (2 ^ v.val) ∧ bitAt (s.hp.msix.get 0 (16 * v + 12)).toNat 0 = false →
      s.clocked = true →
      exec (.pciePowerState false) s = .next { s with hp.d3hot := false, hp.pba := 0, out := .msix (ofLe (readBytes s.hp.msix (16 * v) 8)) (ofLe (readBytes s.hp.msix (16 * v + 8) 4)) :: s.out }) ∧
  (∀ (s : State) (m : Fin 2) (src : Nat) (bytes : List Byte),
      s.hostRuns = true →
      field bytes 0 4 = 0x01014E5A ∧ field bytes 4 1 = 1 ∧ zeros bytes 5 3 = true ∧ zeros bytes 12 4 = true ∧ bytes.length = 80 →
      field (slice bytes 16 64) 0 2 ∈ [0xFF00, 0xFF01, 0xFF02, 0xFF03] ∧ field (slice bytes 16 64) 2 1 % 128 = 0 ∧ zeros (slice bytes 16 64) 3 1 = true ∧ zeros (slice bytes 16 64) 36 8 = true ∧ zeros (slice bytes 16 64) 44 20 = true →
      Does (.ethCommandDatagram m src bytes) s (fun u =>
        u.hp.cmds = s.hp.cmds ++ [{ raw := (slice bytes 16 64), sqid := 16 + m, xid := BitVec.ofNat 32 (field bytes 8 4), src := src, no := s.hp.fetched }] ∧
        u.hp.fetched = s.hp.fetched + 1 ∧
        u.counter 0x31000F = s.counter 0x31000F + 1 ∧
        u = { s with hp.cmds := u.hp.cmds, hp.fetched := u.hp.fetched, ctr := u.ctr })) ∧
  (∀ (s : State) (m : Fin 2) (src : Nat) (bytes : List Byte),
      s.hostRuns = true →
      (field bytes 0 2 ≠ 0x4E5A ∨ field bytes 2 1 ≠ 1 ∨ field bytes 3 1 ≠ 1 ∨ field bytes 4 1 = 0 ∨ 16 < field bytes 4 1 ∨ bytes.length < 16 + 64 * field bytes 4 1) →
      Does (.ethCommandDatagram m src bytes) s (fun u =>
        u.counter 0x310012 = s.counter 0x310012 + 1 ∧
        u = { s with ctr := u.ctr })) ∧
  (∀ (s : State) (m : Fin 2) (sid : Nat) (x : Session),
      (s.ethChan m).route = some sid →
      (s.ethChan m).gathered ≠ [] →
      (32 ≤ (s.ethChan m).gathered.length ∨ (s.ethChan m).firstAt + 10000000 ≤ s.nowNs) →
      s.session sid = some x →
      (s.mac m).link = true →
      s.clocked = true →
      Does (.noticeRouteFlush m) s (fun u =>
        (∃ f, (u.mac m).dgrams = (s.mac m).dgrams ++ [f] ∧ f.dst = some x.src ∧ f.bytes.take 5 = le 2 0x4E5A ++ le 1 1 ++ le 1 3 ++ le 1 (min 32 (s.ethChan m).gathered.length)) ∧
        (u.ethChan m).gathered = (s.ethChan m).gathered.drop 32 ∧ (u.ethChan m).route = some sid ∧
        u = { s with hp.eth := u.hp.eth, macs := u.macs })) ∧
  (∀ (s : State) (m : Fin 2),
      ((s.ethChan m).route = none ∨ (s.ethChan m).gathered = []) →
      Stays (.noticeRouteFlush m) s) ∧
  (∀ (s : State) (t : Fin 256) (pi : Fin 8) (rt ra : Fin 32) (p : Place) (i : Nat) (b : List Byte) (c : Cmd),
      s.callsAt t pi ra 0x90 24 p i = true →
      s.load p 24 = b →
      s.deliveredRef (Word.of (field b 0 8)) = some c →
      c.discard = false ∧ c.rbuf = false →
      (zeros b 10 6 = true ∧ (field b 8 2 < 0x19 ∨ 0xFF < field b 8 2 ∧ field b 8 2 < 0x300 ∨ 0x8000 ≤ field b 8 2 ∧ field b 8 2 < 0xFFFF)) →
      Answers (.hpComplete t pi rt ra) t 0x90 ra i s (fun r =>
        r.good [] ∧
        Registers c (field b 8 2) (BitVec.ofNat 64 (field b 16 8)) none s r.st ∧
        r.st.ldg = s.ldg ∧ r.st.ing = s.ing ∧ r.st.hp.sessions = s.hp.sessions)) ∧
  (∀ (s : State) (t : Fin 256) (pi : Fin 8) (rt ra : Fin 32) (p : Place) (i : Nat) (b : List Byte),
      s.callsAt t pi ra 0x90 24 p i = true →
      s.load p 24 = b →
      s.deliveredRef (Word.of (field b 0 8)) = none →
      Answers (.hpComplete t pi rt ra) t 0x90 ra i s (fun r =>
        r.status = stNotFound ∧ r.out = [] ∧ r.waits = none ∧
        r.st.hp.regs = s.hp.regs ∧ r.st.hp.cmds.length = s.hp.cmds.length)) ∧
  (∀ (s : State) (t : Fin 256) (pi : Fin 8) (rt ra : Fin 32) (p : Place) (i : Nat) (b : List Byte),
      s.callsAt t pi ra 0x91 40 p i = true →
      s.load p 40 = b →
      (0x8000 ≤ field b 0 2 ∧ (field b 2 1 = 1 ∨ field b 2 1 = 2) ∧ zeros b 3 5 = true ∧ zeros b 24 16 = true) →
      s.hp.mask.get false (field b 0 2) = false →
      (s.hp.nq.hasRoom = true ∨ s.hp.nq.mayHold (field b 2 1) = true) →
      Answers (.hpNotice t pi rt ra) t 0x91 ra i s (fun r =>
        r.good [] ∧
        Posts (field b 0 2) (field b 2 1) (slice b 8 16) s r.st ∧
        r.st.ldg = s.ldg ∧ r.st.ing = s.ing ∧ r.st.hp.cmds = s.hp.cmds)) ∧
  (∀ (s : State) (t : Fin 256) (pi : Fin 8) (rt ra : Fin 32) (p : Place) (i : Nat) (b : List Byte),
      s.callsAt t pi ra 0x91 40 p i = true →
      s.load p 40 = b →
      (field b 0 2 < 0x8000 ∨ field b 2 1 = 0) →
      Answers (.hpNotice t pi rt ra) t 0x91 ra i s (fun r =>
        r.refuses stBadArg (calling t rt i s)))

/-- The built-ins of Table 10-8 (R294, R297, R303), the session exchange (R321, R322). -/
def Obligations.BuiltinCommands : Prop :=
  (∀ (s : State) (q : Fin 18) (c : Cmd) (im : Image),
      s.builtinFront q 0xFF00 = some c →
      s.hostRuns = true →
      s.mcc.image = some im →
      Does (.identify q) s (fun u =>
        (Registers c stOk 0 (if c.rbuf then some (le 4 0x81000201 ++ le 4 s.glbMode ++ fit 16 im.build ++ le 4 im.secver.toNat ++ le 1 im.role ++ zeroBytes 3 ++ le 8 s.serial ++ zeroBytes 24) else none) s u) ∧
        HostOnly s u)) ∧
  (∀ (s : State) (q : Fin 18) (c : Cmd),
      s.builtinFront q 0xFF01 = some c →
      s.hostRuns = true →
      Does (.status q) s (fun u =>
        Registers c stOk (BitVec.ofNat 64 (s.glbMode + s.nqDepth * 2 ^ 32 + s.openSessions * 2 ^ 48)) none s u ∧
        HostOnly s u)) ∧
  (∀ (s : State) (q : Fin 18) (c : Cmd) (sid : Nat),
      s.builtinFront q 0xFF02 = some c →
      s.hostRuns = true →
      s.romOnly = false →
      s.hp.lockout.get 0 (carrierOf c.sqid).code ≤ s.nowNs →
      s.woad.life = .owned ∧ 1 ≤ field c.raw 8 1 ∧ field c.raw 8 1 ≤ 6 ∧ (s.cfloor (field c.raw 8 1)).toNat ≤ field c.raw 12 4 →
      s.freeSid = some sid →
      Does (.sessionOpen q) s (fun u =>
        (∃ x, u.session sid = some x ∧ x.open_ = false ∧ x.role = field c.raw 8 1 ∧ x.cred = field c.raw 12 4 ∧ x.carrier = carrierOf c.sqid ∧ x.nh = slice c.raw 16 16 ∧ x.nd.length = 16 ∧ x.openedAt = s.nowNs ∧
          Registers c stOk 0 (if c.rbuf then some (le 2 sid ++ le 1 x.carrier.code ++ le 1 x.role ++ le 4 x.cred ++ x.nd ++ zeroBytes 8) else none) s u) ∧
        (∀ k, k ≠ sid → u.session k = s.session k) ∧
        u.free = s.free + 1 ∧
        u.ldg = s.ldg ∧ u.woad = s.woad ∧ u.hp.lockout = s.hp.lockout)) ∧
  (∀ (s : State) (q : Fin 18) (c : Cmd),
      s.builtinFront q 0xFF02 = some c →
      s.hostRuns = true →
      s.romOnly = false →
      s.nowNs < s.hp.lockout.get 0 (carrierOf c.sqid).code →
      Does (.sessionOpen q) s (fun u =>
        Registers c wkNotNow 0 none s u ∧
        HostOnly s u)) ∧
  (∀ (s : State) (q : Fin 18) (c : Cmd),
      s.builtinFront q 0xFF02 = some c →
      s.hostRuns = true →
      s.romOnly = false →
      s.hp.lockout.get 0 (carrierOf c.sqid).code ≤ s.nowNs →
      (s.woad.life = .owned ∧ (field c.raw 8 1 = 0 ∨ 7 ≤ field c.raw 8 1)) →
      Does (.sessionOpen q) s (fun u =>
        Registers c wkLifecycle 0 none s u ∧
        HostOnly s u)) ∧
  (∀ (s : State) (q : Fin 18) (c : Cmd) (x : Session),
      s.builtinFront q 0xFF03 = some c →
      s.hostRuns = true →
      s.romOnly = false →
      s.proved (field c.raw 8 2) (carrierOf c.sqid) (slice c.raw 12 16) = some x →
      Does (.sessionProve q) s (fun u =>
        (∃ y, u.session (field c.raw 8 2) = some y ∧ y.open_ = true ∧ y.role = x.role ∧ y.cred = x.cred ∧ y.carrier = x.carrier ∧ y.empty = true ∧ y.ks = kdf (s.rk x.role x.cred) (label 0x5A 0x53 0x45 0x53) (le 2 (field c.raw 8 2) ++ le 1 x.carrier.code ++ le 1 x.role ++ le 4 x.cred ++ x.nh ++ x.nd) 128 ∧
          Registers c stOk 0 (if c.rbuf then some ((cmac y.ks (label 0x5A 0x43 0x4E 0x46 ++ x.nd)).take 8 ++ zeroBytes 8) else none) s u) ∧
        (∀ k, k ≠ field c.raw 8 2 → u.session k = s.session k) ∧
        u.counter 0x32000B = s.counter 0x32000B + 1 ∧
        u.ldg = s.ldg ∧ u.woad = s.woad ∧ u.hp.lockout = s.hp.lockout)) ∧
  (∀ (s : State) (q : Fin 18) (c : Cmd) (x : Session),
      s.builtinFront q 0xFF03 = some c →
      s.hostRuns = true →
      s.romOnly = false →
      s.proved (field c.raw 8 2) (carrierOf c.sqid) (slice c.raw 12 16) = none →
      s.session (field c.raw 8 2) = some x ∧ x.open_ = false →
      (s.hp.proofFails.get [] (carrierOf c.sqid).code).length < 15 →
      Does (.sessionProve q) s (fun u =>
        Registers c wkProofFail 0 none s u ∧
        u.session (field c.raw 8 2) = none ∧
        (∀ k, k ≠ field c.raw 8 2 → u.session k = s.session k) ∧
        u.counter 0x32000C = s.counter 0x32000C + 1 ∧
        u.hp.lockout = s.hp.lockout ∧ u.woad = s.woad)) ∧
  (∀ (s : State) (q : Fin 18) (c : Cmd),
      s.builtinFront q 0xFF04 = some c →
      s.hostRuns = true →
      s.romOnly = false →
      (∀ d ∈ s.hp.cmds, d.waits = none) →
      Does (.sessionClose q) s (fun u =>
        (∃ d ∈ u.hp.cmds, d.no = c.no ∧ d.stage = .registered ∧ d.status = stOk) ∧
        u.session c.sid = none ∧
        (∀ k, k ≠ c.sid → u.session k = s.session k) ∧
        (∀ d ∈ s.hp.cmds, d.sid = c.sid → d.stage = .delivered → d.no ≠ c.no → { d with closed := true } ∈ u.hp.cmds) ∧
        u.ldg = s.ldg ∧ u.woad = s.woad ∧ u.hp.nq = s.hp.nq)) ∧
  (∀ (s : State) (q : Fin 18) (c : Cmd),
      s.builtinFront q 0xFF05 = some c →
      s.hostRuns = true →
      s.romOnly = false →
      field c.raw 9 1 ≤ 1 →
      Does (.noticeMask q) s (fun u =>
        Registers c stOk 0 none s u ∧
        (∀ k, u.hp.mask.get false k = if 256 * field c.raw 8 1 + 128 * field c.raw 9 1 ≤ k ∧ k < 256 * field c.raw 8 1 + 128 * field c.raw 9 1 + 128 then bitAt (field c.raw 12 16) (k - (256 * field c.raw 8 1 + 128 * field c.raw 9 1)) else s.hp.mask.get false k) ∧
        u.hp.nq = s.hp.nq ∧ u.ldg = s.ldg)) ∧
  (∀ (s : State) (q : Fin 18) (c : Cmd),
      s.builtinFront q 0xFF06 = some c →
      s.hostRuns = true →
      s.romOnly = false →
      field c.raw 8 1 = 1 →
      Does (.noticeRoute q) s (fun u =>
        Registers c stOk 0 none s u ∧
        u.ethChan (c.sqid - 16) = { s.ethChan (c.sqid - 16) with route := some c.sid, gathered := [] } ∧
        (∀ m, m ≠ c.sqid - 16 → u.ethChan m = s.ethChan m))) ∧
  (∀ (s : State) (q : Fin 18) (c : Cmd),
      s.builtinFront q 0xFF06 = some c →
      s.hostRuns = true →
      s.romOnly = false →
      field c.raw 8 1 = 0 →
      Does (.noticeRoute q) s (fun u =>
        Registers c stOk 0 none s u ∧
        u.ethChan (c.sqid - 16) = { s.ethChan (c.sqid - 16) with route := none, gathered := [] } ∧
        (∀ m, m ≠ c.sqid - 16 → u.ethChan m = s.ethChan m))) ∧
  (∀ (s : State) (q : Fin 18) (c : Cmd),
      s.builtinFront q 0xFF07 = some c →
      s.hostRuns = true →
      s.romOnly = false →
      s.lake.ready = true →
      Does (.hostLakeHealth q) s (fun u =>
        (Registers c stOk 0 (if c.rbuf then some (s.health) else none) s u) ∧
        HostOnly s u)) ∧
  (∀ (s : State) (q : Fin 18) (c : Cmd),
      s.builtinFront q 0xFF07 = some c →
      s.hostRuns = true →
      s.romOnly = false →
      s.lake.ready = false →
      Does (.hostLakeHealth q) s (fun u =>
        Registers c hpNotReady 0 none s u ∧
        HostOnly s u)) ∧
  (∀ (s : State) (q : Fin 18) (c : Cmd),
      s.builtinFront q 0xFF08 = some c →
      s.hostRuns = true →
      s.romOnly = false →
      zeros c.raw 11 1 = true ∧ s.ldg.sealed = false ∧ s.lake.inited = true →
      field c.raw 12 4 = 0x464F524D ∧ 1 ≤ field c.raw 8 1 ∧ field c.raw 8 1 ≤ 32 ∧ field c.raw 9 1 ≤ 64 ∧ 1 ≤ field c.raw 10 1 ∧ field c.raw 10 1 ≤ 36 →
      (s.lake.totalBlocks : Int) ≤ (s.lake.quotas (field c.raw 8 1) (field c.raw 9 1) (field c.raw 10 1)).2.2 * 10 →
      Does (.hostLakeFormat q) s (fun u =>
        Registers c stOk 0 none s u ∧
        u.lake.formatted = true ∧ u.lake.ready = false ∧ u.lake.log = [] ∧ u.lake.maps = [] ∧
        u.ldg.live = LData.empty ∧ u.cpm.resetDue = some 3 ∧ u.otp = s.otp ∧ u.sepia = s.sepia)) ∧
  (∀ (s : State) (q : Fin 18) (c : Cmd),
      s.builtinFront q 0xFF08 = some c →
      s.hostRuns = true →
      s.romOnly = false →
      zeros c.raw 11 1 = true ∧ s.ldg.sealed = true →
      Does (.hostLakeFormat q) s (fun u =>
        Registers c stSealed 0 none s u ∧
        HostOnly s u)) ∧
  (∀ (s : State) (sid : Fin 33) (x : Session),
      s.session sid = some x →
      x.open_ = false ∧ x.openedAt + 1000000000 ≤ s.nowNs →
      s.clocked = true →
      Does (.sessionPendingExpire sid) s (fun u =>
        u.session sid = none ∧
        (∀ k, k ≠ sid.val → u.session k = s.session k) ∧
        u = { s with hp.sessions := u.hp.sessions })) ∧
  (∀ (s : State) (sid : Fin 33) (x : Session),
      s.session sid = some x →
      (x.open_ = true ∨ s.nowNs < x.openedAt + 1000000000) →
      Stays (.sessionPendingExpire sid) s) ∧
  (∀ (s : State) (m : Fin 3) (e : Nat),
      s.hp.lockout.find m = some e →
      e ≤ s.nowNs →
      s.clocked = true →
      Does (.proofLockoutExpire m) s (fun u =>
        u.hp.lockout.find m = none ∧
        (∀ k, k ≠ m.val → u.hp.lockout.find k = s.hp.lockout.find k) ∧
        u = { s with hp.lockout := u.hp.lockout }))

/-- The standard commands of Table 10-9 (R298), with the rules of the calls they carry out. -/
def Obligations.StandardCommands : Prop :=
  (∀ (s : State) (q : Fin 18) (c : Cmd),
      s.standardFront q 0x0010 = some c →
      s.coresRun = true ∧ s.glb.mode ≠ .standby →
      [1, 2, 3, 4, 5, 6].contains (s.cmdRole c) = true →
      field c.raw 8 4 = 0x60000001 ∧ 20 ≤ 8 * c.rlen8 →
      Does (.hostLdgRead q) s (fun u =>
        (Registers c stOk 0 (if c.rbuf then some (le 4 s.ldg.unseals) else none) s u) ∧
        HostOnly s u)) ∧
  (∀ (s : State) (q : Fin 18) (c : Cmd) (k : Nat),
      s.standardFront q 0x0011 = some c →
      s.coresRun = true ∧ s.glb.mode ≠ .standby →
      [1, 2, 3, 4, 5, 6].contains (s.cmdRole c) = true →
      s.mcc.legal = 1 ∧ s.cmdRole c = 2 →
      k < 1024 ∧ field c.raw 8 4 = 0x40000000 + k / 16 * 256 + k % 16 →
      c.data.length = 16 ∧ field c.data 0 1 = 2 ∧ field c.data 1 1 = 0 ∧ zeros c.data 2 6 = true ∧ field c.data 8 8 = 0 →
      s.ldg.live.force.find k = none ∧ s.tooSoon (field c.raw 16 8) = false →
      Does (.hostLdgWrite q) s (fun u =>
        Awaits c (.journal s.ldg.jseq) stOk s u ∧
        u.ldg.live.force.find k = some (.close (field c.raw 16 8)) ∧
        (∀ j, j ≠ k → u.ldg.live.force.find j = s.ldg.live.force.find j) ∧
        u.ldg.live.meters = s.ldg.live.meters ∧ u.tmu = s.tmu)) ∧
  (∀ (s : State) (q : Fin 18) (c : Cmd),
      s.standardFront q 0x0011 = some c →
      s.coresRun = true ∧ s.glb.mode ≠ .standby →
      [1, 2, 3, 4, 5, 6].contains (s.cmdRole c) = true →
      s.mcc.legal ≠ 1 →
      Does (.hostLdgWrite q) s (fun u =>
        (Registers c stLegalAbsent 0 (if c.rbuf then some [] else none) s u) ∧
        HostOnly s u)) ∧
  (∀ (s : State) (q : Fin 18) (c : Cmd),
      s.standardFront q 0x0012 = some c →
      s.coresRun = true ∧ s.glb.mode ≠ .standby →
      [1, 2, 3, 4, 5, 6].contains (s.cmdRole c) = true →
      s.mcc.legal = 1 ∧ s.cmdRole c = 5 →
      field c.raw 8 4 = 0x60000003 →
      s.ldg.pin = false ∧ s.ldg.sealPending = none ∧ 4 ≤ s.sepia.pinnedFree →
      Does (.hostLdgExec q) s (fun u =>
        Awaits c .seal stOk s u ∧
        u.ldg.sealPending.isSome = true ∧ u.ldg.sealed = s.ldg.sealed ∧ u.ldg.live = s.ldg.live)) ∧
  (∀ (s : State) (q : Fin 18) (c : Cmd),
      s.standardFront q 0x0012 = some c →
      s.coresRun = true ∧ s.glb.mode ≠ .standby →
      [1, 2, 3, 4, 5, 6].contains (s.cmdRole c) = true →
      s.mcc.legal ≠ 1 →
      Does (.hostLdgExec q) s (fun u =>
        (Registers c stLegalAbsent 0 (if c.rbuf then some [] else none) s u) ∧
        HostOnly s u)) ∧
  (∀ (s : State) (q : Fin 18) (c : Cmd) (w : Nat),
      s.standardFront q 0x0020 = some c →
      s.coresRun = true ∧ s.glb.mode ≠ .standby →
      [1, 2, 3, 4, 5, 6].contains (s.cmdRole c) = true →
      dirReserved (fit 64 c.data) = false ∧ field (fit 64 c.data) 12 1 ≤ 3 ∧ field (fit 64 c.data) 13 1 ≤ 3 ∧ field (fit 64 c.data) 14 1 ≤ 63 ∧ field (fit 64 c.data) 22 1 ≤ 63 ∧ groupMa (BitVec.ofNat 64 (field (fit 64 c.data) 0 8)) = false →
      s.hk.isSome = true ∧ s.dirClosed = false →
      s.ownerChip (BitVec.ofNat 64 (field (fit 64 c.data) 0 8)) = s.cas.chipId →
      s.ing.inserts = [] →
      s.lookup (BitVec.ofNat 64 (field (fit 64 c.data) 0 8)) = none →
      s.freeWay (buckets (s.hk.getD []) (BitVec.ofNat 64 (field (fit 64 c.data) 0 8))).1 = some w →
      Does (.hostDirInsert q) s (fun u =>
        (∃ n, Awaits c (.journal n) stOk s u) ∧
        u.entry w = insertEntry (fit 64 c.data) ∧
        (∀ v, v ≠ w → u.entry v = s.entry v) ∧
        (u.meter w).opn.isSome = true)) ∧
  (∀ (s : State) (q : Fin 18) (c : Cmd) (mh : Nat),
      s.standardFront q 0x0021 = some c →
      s.coresRun = true ∧ s.glb.mode ≠ .standby →
      [1, 2, 3, 4, 5, 6].contains (s.cmdRole c) = true →
      s.hk.isSome = true →
      s.lookup (BitVec.ofNat 64 (field c.raw 8 8)) = some mh →
      s.entryBad mh = false →
      Does (.hostDirLookup q) s (fun u =>
        (Registers c stOk (BitVec.ofNat 64 mh) (if c.rbuf then some [] else none) s u) ∧
        HostOnly s u)) ∧
  (∀ (s : State) (q : Fin 18) (c : Cmd),
      s.standardFront q 0x0022 = some c →
      s.coresRun = true ∧ s.glb.mode ≠ .standby →
      [1, 2, 3, 4, 5, 6].contains (s.cmdRole c) = true →
      field c.raw 8 4 < 2 ^ 20 →
      s.entryBad (field c.raw 8 4 % 2 ^ 20) = false ∧ (s.entry (field c.raw 8 4 % 2 ^ 20)).st ≠ .free →
      Does (.hostDirRead q) s (fun u =>
        (Registers c stOk 0 (if c.rbuf then some ((s.entry (field c.raw 8 4 % 2 ^ 20)).bytes) else none) s u) ∧
        HostOnly s u)) ∧
  (∀ (s : State) (q : Fin 18) (c : Cmd),
      s.standardFront q 0x0023 = some c →
      s.coresRun = true ∧ s.glb.mode ≠ .standby →
      [1, 2, 3, 4, 5, 6].contains (s.cmdRole c) = true →
      dirReserved (fit 64 c.data) = false →
      s.dirClosed = false →
      s.entryBad (field (fit 64 c.data) 8 4 % 2 ^ 20) = false ∧ (s.entry (field (fit 64 c.data) 8 4 % 2 ^ 20)).st ≠ .free →
      bitAt (field (fit 64 c.data) 26 1) 0 = false ∧ bitAt (field (fit 64 c.data) 26 1) 1 = false ∧ bitAt (field (fit 64 c.data) 26 1) 2 = false ∧ bitAt (field (fit 64 c.data) 26 1) 3 = false ∧ bitAt (field (fit 64 c.data) 26 1) 4 = false ∧ bitAt (field (fit 64 c.data) 26 1) 5 = true ∧ bitAt (field (fit 64 c.data) 15 1) 3 = true →
      Does (.hostDirSet q) s (fun u =>
        Awaits c (.journal s.ldg.jseq) stOk s u ∧
        (u.entry (field (fit 64 c.data) 8 4 % 2 ^ 20)) = { (s.entry (field (fit 64 c.data) 8 4 % 2 ^ 20)) with st := .suspended } ∧
        (∀ v, v ≠ (field (fit 64 c.data) 8 4 % 2 ^ 20) → u.entry v = s.entry v) ∧
        u.ldg.live.meters = s.ldg.live.meters ∧ u.lake = s.lake ∧ u.woad = s.woad)) ∧
  (∀ (s : State) (q : Fin 18) (c : Cmd),
      s.standardFront q 0x0024 = some c →
      s.coresRun = true ∧ s.glb.mode ≠ .standby →
      [1, 2, 3, 4, 5, 6].contains (s.cmdRole c) = true →
      dirReserved (fit 64 c.data) = false →
      s.dirClosed = false →
      s.entryBad (field (fit 64 c.data) 8 4 % 2 ^ 20) = false ∧ (s.entry (field (fit 64 c.data) 8 4 % 2 ^ 20)).st ≠ .free →
      (bitAt (field (fit 64 c.data) 15 1) 1 = false ∧ field (fit 64 c.data) 22 1 ≤ 63 ∧ (field (fit 64 c.data) 22 1 ≠ (s.entry (field (fit 64 c.data) 8 4 % 2 ^ 20)).dkslot.toNat ∨ (s.entry (field (fit 64 c.data) 8 4 % 2 ^ 20)).kepoch ≠ 255)) →
      Does (.hostDirEpoch q) s (fun u =>
        Awaits c (.journal s.ldg.jseq) stOk s u ∧
        (u.entry (field (fit 64 c.data) 8 4 % 2 ^ 20)) = { (s.entry (field (fit 64 c.data) 8 4 % 2 ^ 20)) with pvalid := true, pdkslot := BitVec.ofNat 6 (field (fit 64 c.data) 22 1) } ∧
        (∀ v, v ≠ (field (fit 64 c.data) 8 4 % 2 ^ 20) → u.entry v = s.entry v) ∧
        u.ldg.live.meters = s.ldg.live.meters ∧ u.lake = s.lake ∧ u.woad = s.woad)) ∧
  (∀ (s : State) (q : Fin 18) (c : Cmd),
      s.standardFront q 0x0025 = some c →
      s.coresRun = true ∧ s.glb.mode ≠ .standby →
      [1, 2, 3, 4, 5, 6].contains (s.cmdRole c) = true →
      dirReserved (fit 64 c.data) = false →
      s.dirClosed = false →
      s.entryBad (field (fit 64 c.data) 8 4 % 2 ^ 20) = false ∧ (s.entry (field (fit 64 c.data) 8 4 % 2 ^ 20)).st ≠ .free →
      (s.entry (field (fit 64 c.data) 8 4 % 2 ^ 20)).cmdpend = false →
      (s.ing.cmdSlots.find (field (fit 64 c.data) 24 2)).isSome = true →
      Does (.hostDirCmd q) s (fun u =>
        Awaits c (.journal s.ldg.jseq) stOk s u ∧
        (u.entry (field (fit 64 c.data) 8 4 % 2 ^ 20)) = { (s.entry (field (fit 64 c.data) 8 4 % 2 ^ 20)) with cmdpend := true, cslot := BitVec.ofNat 12 (field (fit 64 c.data) 24 2) } ∧
        (∀ v, v ≠ (field (fit 64 c.data) 8 4 % 2 ^ 20) → u.entry v = s.entry v) ∧
        u.ldg.live.meters = s.ldg.live.meters ∧ u.lake = s.lake ∧ u.woad = s.woad)) ∧
  (∀ (s : State) (q : Fin 18) (c : Cmd),
      s.standardFront q 0x0026 = some c →
      s.coresRun = true ∧ s.glb.mode ≠ .standby →
      [1, 2, 3, 4, 5, 6].contains (s.cmdRole c) = true →
      dirReserved (fit 64 c.data) = false →
      s.dirClosed = false →
      s.wayFree (field (fit 64 c.data) 8 4 % 2 ^ 20) = false →
      (s.meter (field (fit 64 c.data) 8 4 % 2 ^ 20)).opn = none ∧ s.heldMh (field (fit 64 c.data) 8 4 % 2 ^ 20) = false →
      Does (.hostDirRemove q) s (fun u =>
        Awaits c (.journal s.ldg.jseq) stOk s u ∧
        (u.entry (field (fit 64 c.data) 8 4 % 2 ^ 20)) = {} ∧
        (∀ v, v ≠ (field (fit 64 c.data) 8 4 % 2 ^ 20) → u.entry v = s.entry v))) ∧
  (∀ (s : State) (q : Fin 18) (c : Cmd),
      s.standardFront q 0x0030 = some c →
      s.coresRun = true ∧ s.glb.mode ≠ .standby →
      [1, 2, 3, 4, 5, 6].contains (s.cmdRole c) = true →
      zeros (fit 16 c.data) 2 2 = true →
      topologyBad (field (fit 16 c.data) 0 2) (slice (fit 16 c.data) 4 12) s = false →
      Does (.hostBalSet q) s (fun u =>
        Awaits c (.journal s.ldg.jseq) stOk s u ∧
        (u.node (field (fit 16 c.data) 0 2)).parent = field (fit 16 c.data) 4 2 ∧ (u.node (field (fit 16 c.data) 0 2)).cfg = field (fit 16 c.data) 6 2 ∧ (u.node (field (fit 16 c.data) 0 2)).chkmh = field (fit 16 c.data) 8 3 ∧
        (∀ m, m ≠ (field (fit 16 c.data) 0 2) → u.node m = s.node m) ∧
        u.ing = s.ing ∧ u.ldg.live.meters = s.ldg.live.meters)) ∧
  (∀ (s : State) (q : Fin 18) (c : Cmd),
      s.standardFront q 0x0031 = some c →
      s.coresRun = true ∧ s.glb.mode ≠ .standby →
      [1, 2, 3, 4, 5, 6].contains (s.cmdRole c) = true →
      Does (.hostBalRead q) s (fun u =>
        (Registers c stOk 0 (if c.rbuf then some ((s.node (field c.raw 8 2)).bytes s.bal.bint) else none) s u) ∧
        HostOnly s u)) ∧
  (∀ (s : State) (q : Fin 18) (c : Cmd),
      s.standardFront q 0x0032 = some c →
      s.coresRun = true ∧ s.glb.mode ≠ .standby →
      [1, 2, 3, 4, 5, 6].contains (s.cmdRole c) = true →
      s.cas.master = true ∧ s.bal.cfg = none ∧ s.bal.nodes = [] →
      balConfigBad (field c.raw 8 1) (field c.raw 9 1) (field c.raw 10 2) = false →
      Does (.hostBalConfig q) s (fun u =>
        (Registers c stOk 0 (if c.rbuf then some [] else none) s u) ∧
        u.bal.cfg = some (field c.raw 8 1, field c.raw 9 1, field c.raw 10 2) ∧
        u.bal.nodes = s.bal.nodes ∧ u.ing = s.ing ∧ u.ldg = s.ldg)) ∧
  (∀ (s : State) (q : Fin 18) (c : Cmd) (l : List Byte),
      s.standardFront q 0x0040 = some c →
      s.coresRun = true ∧ s.glb.mode ≠ .standby →
      [1, 2, 3, 4, 5, 6].contains (s.cmdRole c) = true →
      field c.raw 12 4 % 8 = 0 ∧ field c.raw 12 4 < 262144 ∧ 24 ≤ 8 * c.rlen8 ∧ 8 * c.rlen8 ≤ 65552 →
      s.lake.logRead (field c.raw 8 4) (field c.raw 12 4) (8 * c.rlen8 - 16) = (stOk, l) →
      Does (.logRead q) s (fun u =>
        (Registers c stOk 0 (if c.rbuf then some (l) else none) s u) ∧
        HostOnly s u)) ∧
  (∀ (s : State) (q : Fin 18) (c : Cmd),
      s.standardFront q 0x0041 = some c →
      s.coresRun = true ∧ s.glb.mode ≠ .standby →
      [1, 2, 3, 4, 5, 6].contains (s.cmdRole c) = true →
      s.lake.heack ≤ field c.raw 8 4 ∧ field c.raw 8 4 ≤ s.lake.lsnHead →
      Does (.heack q) s (fun u =>
        (Registers c stOk 0 (if c.rbuf then some [] else none) s u) ∧
        u.lake.heack = field c.raw 8 4 ∧
        u.lake.log = s.lake.log ∧ u.ldg = s.ldg ∧ u.ing = s.ing))

/-- The commands of Table 11-14 (R306, R313, R315, R317, R323, R329). -/
def Obligations.KeyCommands : Prop :=
  (∀ (s : State) (q : Fin 18) (c : Cmd),
      s.standardFront q 0x0050 = some c →
      s.coresRun = true ∧ s.glb.mode ≠ .standby →
      [1, 2, 3, 4, 5, 6].contains (s.cmdRole c) = true →
      s.glb.mode ≠ .holdup ∧ s.lake.ready = true ∧ s.cas.pair = 0 ∧ s.woad.debugSub = false →
      s.cmdRole c = 2 ∧ s.woad.life = .owned →
      field c.raw 8 1 = 1 ∧ field c.raw 9 1 = 3 ∧ 4 ≤ c.data.length →
      Does (.hostKeyLoad q none) s (fun u =>
        (Registers c stOk 0 (if c.rbuf then some [] else none) s u) ∧
        (∀ k, u.otp.get 0 k = if 0x450 ≤ k ∧ k < 0x454 then s.otp.get 0 k ||| c.data.getD (k - 0x450) 0 else s.otp.get 0 k) ∧
        u.woad = s.woad ∧ u.ldg = s.ldg ∧ u.sepia = s.sepia)) ∧
  (∀ (s : State) (q : Fin 18) (c : Cmd),
      s.standardFront q 0x0050 = some c →
      s.coresRun = true ∧ s.glb.mode ≠ .standby →
      [1, 2, 3, 4, 5, 6].contains (s.cmdRole c) = true →
      s.cmdRole c ≠ 2 ∧ s.cmdRole c ≠ 4 →
      Does (.hostKeyLoad q none) s (fun u =>
        (Registers c stAccessDenied 0 (if c.rbuf then some [] else none) s u) ∧
        HostOnly s u)) ∧
  (∀ (s : State) (q : Fin 18) (c : Cmd) (par : KeySlot),
      s.standardFront q 0x0051 = some c →
      s.coresRun = true ∧ s.glb.mode ≠ .standby →
      [2].contains (s.cmdRole c) = true →
      s.glb.mode ≠ .holdup ∧ s.lake.ready = true ∧ s.cas.pair = 0 ∧ s.woad.debugSub = false →
      s.woad.life = .owned →
      zeros c.raw 13 3 = true ∧ zeros c.raw 20 16 = true ∧ field c.raw 8 1 < 64 ∧ field c.raw 9 1 < 64 ∧ 2 ≤ field c.raw 10 1 ∧ field c.raw 10 1 ≤ 4 ∧ field c.raw 11 2 = 0 →
      s.keySlot (field c.raw 8 1) = par ∧ par.st = .active ∧ par.typ = 4 ∧ par.depth < 3 →
      (s.keySlot (field c.raw 9 1)).st ≠ .active →
      Does (.hostKeyDerive q) s (fun u =>
        Awaits c .keyTable stOk s u ∧
        u.keySlot (field c.raw 9 1) = { st := .active, typ := field c.raw 10 1, keyid := BitVec.ofNat 32 (field c.raw 16 4), parent := some (field c.raw 8 1), depth := par.depth + 1, amask := par.amask ||| BitVec.ofNat 64 (2 ^ field c.raw 9 1), epmin := 0, epmax := 0, key := kdf par.key (label 0x5A 0x53 0x4C 0x54) (le 4 (field c.raw 16 4) ++ le 1 (field c.raw 10 1) ++ zeroBytes 3) 256 } ∧
        (∀ k, k ≠ field c.raw 9 1 → u.keySlot k = s.keySlot k) ∧
        u.ldg = s.ldg ∧ u.otp = s.otp)) ∧
  (∀ (s : State) (q : Fin 18) (c : Cmd),
      s.standardFront q 0x0051 = some c →
      s.coresRun = true ∧ s.glb.mode ≠ .standby →
      [2].contains (s.cmdRole c) = false →
      Does (.hostKeyDerive q) s (fun u =>
        (Registers c stAccessDenied 0 (if c.rbuf then some [] else none) s u) ∧
        HostOnly s u)) ∧
  (∀ (s : State) (q : Fin 18) (c : Cmd),
      s.standardFront q 0x0052 = some c →
      s.coresRun = true ∧ s.glb.mode ≠ .standby →
      [2].contains (s.cmdRole c) = true →
      zeros c.raw 10 6 = true ∧ zeros c.raw 20 16 = true ∧ field c.raw 8 1 < 64 ∧ field c.raw 9 1 = 0 →
      (s.keySlot (field c.raw 8 1)).st = .active ∧ (s.keySlot (field c.raw 8 1)).tomb = false ∧ s.cas.pair = 0 ∧ s.woad.debugSub = false →
      Does (.hostKeyInvalidate q) s (fun u =>
        Awaits c (.tomb (field c.raw 8 1)) stOk s u ∧
        u.keySlot (field c.raw 8 1) = { s.keySlot (field c.raw 8 1) with tomb := true } ∧
        (∀ k, k ≠ field c.raw 8 1 → u.keySlot k = s.keySlot k) ∧
        u.ldg = s.ldg ∧ u.otp = s.otp)) ∧
  (∀ (s : State) (q : Fin 18) (c : Cmd),
      s.standardFront q 0x0052 = some c →
      s.coresRun = true ∧ s.glb.mode ≠ .standby →
      [2].contains (s.cmdRole c) = false →
      Does (.hostKeyInvalidate q) s (fun u =>
        (Registers c stAccessDenied 0 (if c.rbuf then some [] else none) s u) ∧
        HostOnly s u)) ∧
  (∀ (s : State) (q : Fin 18) (c : Cmd),
      s.standardFront q 0x0053 = some c →
      s.coresRun = true ∧ s.glb.mode ≠ .standby →
      [2].contains (s.cmdRole c) = true →
      s.glb.mode ≠ .holdup ∧ s.lake.ready = true ∧ s.cas.pair = 0 ∧ s.woad.debugSub = false →
      s.woad.life = .owned →
      zeros c.raw 12 4 = true ∧ zeros c.raw 28 8 = true ∧ field c.raw 8 1 = 1 ∧ field c.raw 9 1 < 64 →
      (s.keySlot (field c.raw 9 1)).st = .active ∧ (s.keySlot (field c.raw 9 1)).typ = 2 →
      s.nowNs + 2000000000 ≤ field c.raw 16 8 * 1000000000 →
      s.woad.bcast.valid = true ∧ s.woad.bcast.cur < 255 ∧ field c.raw 10 1 = s.woad.bcast.cur + 1 →
      Does (.hostKeyEpoch q) s (fun u =>
        Awaits c .keyTable stOk s u ∧
        u.woad.bcast = { s.woad.bcast with next := some { e := field c.raw 10 1, slot := field c.raw 9 1, actT := field c.raw 16 8 } } ∧
        u.woad.slots = s.woad.slots ∧ u.ldg = s.ldg)) ∧
  (∀ (s : State) (q : Fin 18) (c : Cmd),
      s.standardFront q 0x0053 = some c →
      s.coresRun = true ∧ s.glb.mode ≠ .standby →
      [2].contains (s.cmdRole c) = false →
      Does (.hostKeyEpoch q) s (fun u =>
        (Registers c stAccessDenied 0 (if c.rbuf then some [] else none) s u) ∧
        HostOnly s u)) ∧
  (∀ (s : State) (q : Fin 18) (c : Cmd),
      s.standardFront q 0x0054 = some c →
      s.coresRun = true ∧ s.glb.mode ≠ .standby →
      [1, 2, 3, 4, 5, 6].contains (s.cmdRole c) = true →
      Does (.keyStatus q) s (fun u =>
        (Registers c stOk 0 (if c.rbuf then some ((List.range 64).flatMap s.slotRecord ++ le 4 s.wkvBcast ++ zeroBytes 4) else none) s u) ∧
        HostOnly s u)) ∧
  (∀ (s : State) (q : Fin 18) (c : Cmd),
      s.standardFront q 0x0055 = some c →
      s.coresRun = true ∧ s.glb.mode ≠ .standby →
      [1, 2, 3, 4, 5, 6].contains (s.cmdRole c) = true →
      Does (.certRead q) s (fun u =>
        (Registers c stOk 0 (if c.rbuf then some (readBytes s.otp 0x80 256) else none) s u) ∧
        HostOnly s u)) ∧
  (∀ (s : State) (q : Fin 18) (c : Cmd) (st : List Byte),
      s.standardFront q 0x0056 = some c →
      s.coresRun = true ∧ s.glb.mode ≠ .standby →
      [1, 2, 3, 4, 5, 6].contains (s.cmdRole c) = true →
      s.woad.statement = some st →
      field st 6 1 = s.attFlags →
      Does (.attest q) s (fun u =>
        (∃ sg, Registers c stOk 0 (if c.rbuf then some (st ++ sg) else none) s u) ∧
        u.free = s.free + 1 ∧ u.counter 0x320009 = s.counter 0x320009 + 1 ∧
        u.woad = s.woad ∧ u.ldg = s.ldg ∧ u.otp = s.otp))

/-- UPD_BLOCK to UPD_CONFIRM (R422 to R426, R429), the activation instant and its drain (R427, R430, R431), recovery (R433). -/
def Obligations.ImageUpdate : Prop :=
  (∀ (s : State) (t : Fin 256) (pi : Fin 8) (rt ra : Fin 32) (p : Place) (i : Nat) (b : List Byte) (q : Place) (d : List Byte) (bad : List Nat),
      s.callsAt t pi ra 0xD0 24 p i = true →
      s.load p 24 = b →
      field b 20 1 = 1 ∧ zeros b 21 3 = true ∧ field b 0 4 = 0 →
      s.updBarred = none ∧ s.lake.ready = true →
      s.upd.slotSt s.upd.spare ≠ 3 ∧ s.upd.slotSt s.upd.spare ≠ 6 →
      256 ≤ field b 4 4 →
      (s.thr t).bufPlace t (field b 8 8) (field b 4 4) = some q →
      s.poisoned q (field b 4 4) = false →
      s.load q (field b 4 4) = d →
      beginOk d = true →
      field d 8 4 ≤ 67108864 ∧ field d 8 4 ≤ s.slotCap s.upd.spare ∧ d.length ≤ field d 8 4 →
      crc32c d = field b 16 4 →
      bad.any (s.slotBlock s.upd.spare) = false →
      Answers (.updBlockBegin t pi rt ra bad) t 0xD0 ra i s (fun r =>
        r.good [] ∧
        r.st.upd.slotSt s.upd.spare = 1 ∧ r.st.upd.imglen = field d 8 4 ∧
        r.st.upd.slotSt s.upd.active = s.upd.slotSt s.upd.active ∧ r.st.upd.active = s.upd.active ∧
        (∀ k, k / 16384 ≠ s.upd.spare → r.st.upd.units.find k = s.upd.units.find k) ∧
        r.st.ldg = s.ldg ∧ r.st.ing = s.ing ∧ r.st.woad = s.woad)) ∧
  (∀ (s : State) (t : Fin 256) (pi : Fin 8) (rt ra : Fin 32) (p : Place) (i : Nat) (b : List Byte) (q : Place) (d : List Byte) (bad : List Nat),
      s.callsAt t pi ra 0xD0 24 p i = true →
      s.load p 24 = b →
      field b 20 1 = 0 ∧ zeros b 21 3 = true →
      s.lake.ready = true ∧ s.upd.slotSt s.upd.spare = 1 →
      field b 0 4 = 0 ∧ 8 ≤ field b 4 4 ∧ field b 4 4 < 4096 ∧ field b 4 4 % 8 = 0 ∧ field b 4 4 = s.upd.imglen →
      (s.thr t).bufPlace t (field b 8 8) (field b 4 4) = some q →
      s.poisoned q (field b 4 4) = false →
      s.load q (field b 4 4) = d →
      crc32c d = field b 16 4 →
      s.upd.units.find (s.upd.spare * 16384) = none →
      bad.any (s.slotBlock s.upd.spare) = false →
      Answers (.updBlock t pi rt ra bad) t 0xD0 ra i s (fun r =>
        r.good [] ∧
        r.st.upd.units.find (s.upd.spare * 16384) = some (fit 4096 d) ∧
        (∀ k, k ≠ s.upd.spare * 16384 → r.st.upd.units.find k = s.upd.units.find k) ∧
        r.st.upd.slotSt s.upd.active = s.upd.slotSt s.upd.active ∧ r.st.upd.active = s.upd.active ∧
        r.st.upd.slotSt s.upd.spare = 1 ∧
        r.st.ldg = s.ldg ∧ r.st.ing = s.ing ∧ r.st.woad = s.woad)) ∧
  (∀ (s : State) (t : Fin 256) (pi : Fin 8) (rt ra : Fin 32) (p : Place) (i : Nat) (b : List Byte) (q : Place) (d : List Byte) (bk : Nat),
      s.callsAt t pi ra 0xD0 24 p i = true →
      s.load p 24 = b →
      field b 20 1 = 0 ∧ zeros b 21 3 = true →
      s.lake.ready = true ∧ s.upd.slotSt s.upd.spare = 1 →
      field b 0 4 = 0 ∧ 8 ≤ field b 4 4 ∧ field b 4 4 < 4096 ∧ field b 4 4 % 8 = 0 ∧ field b 4 4 = s.upd.imglen →
      (s.thr t).bufPlace t (field b 8 8) (field b 4 4) = some q →
      s.poisoned q (field b 4 4) = false →
      s.load q (field b 4 4) = d →
      crc32c d = field b 16 4 →
      s.upd.units.find (s.upd.spare * 16384) = none →
      (s.lake.lunErrs.get [] (bk / 4096)).length < 7 →
      s.slotBlock s.upd.spare bk = true ∧ (slotBlockFailed s.upd.spare bk s).slotShort s.upd.spare s.upd.imglen = false →
      Answers (.updBlock t pi rt ra [bk]) t 0xD0 ra i s (fun r =>
        r.good [] ∧
        (r.st.lake.block bk).st = 7 ∧
        r.st.upd.units.find (s.upd.spare * 16384) = some (fit 4096 d) ∧
        (∀ k, k ≠ s.upd.spare * 16384 → r.st.upd.units.find k = s.upd.units.find k) ∧
        r.st.upd.slotSt s.upd.active = s.upd.slotSt s.upd.active ∧ r.st.upd.active = s.upd.active ∧
        r.st.upd.slotSt s.upd.spare = 1 ∧
        r.st.ldg = s.ldg ∧ r.st.ing = s.ing ∧ r.st.woad = s.woad)) ∧
  (∀ (s : State) (t : Fin 256) (pi : Fin 8) (rt ra : Fin 32) (p : Place) (i : Nat) (b : List Byte) (q : Place) (d : List Byte) (bk : Nat),
      s.callsAt t pi ra 0xD0 24 p i = true →
      s.load p 24 = b →
      field b 20 1 = 0 ∧ zeros b 21 3 = true →
      s.lake.ready = true ∧ s.upd.slotSt s.upd.spare = 1 →
      field b 0 4 = 0 ∧ 8 ≤ field b 4 4 ∧ field b 4 4 < 4096 ∧ field b 4 4 % 8 = 0 ∧ field b 4 4 = s.upd.imglen →
      (s.thr t).bufPlace t (field b 8 8) (field b 4 4) = some q →
      s.poisoned q (field b 4 4) = false →
      s.load q (field b 4 4) = d →
      crc32c d = field b 16 4 →
      s.upd.units.find (s.upd.spare * 16384) = none →
      (s.lake.lunErrs.get [] (bk / 4096)).length < 7 →
      s.slotBlock s.upd.spare bk = true ∧ (slotBlockFailed s.upd.spare bk s).slotShort s.upd.spare s.upd.imglen = true →
      Answers (.updBlock t pi rt ra [bk]) t 0xD0 ra i s (fun r =>
        r.status = 0x113 ∧ r.out = [] ∧
        r.st.upd.slotSt s.upd.spare = 0 ∧ r.st.upd.imglen = 0 ∧ r.st.upd.lastRef = 0x113 ∧
        (∀ k, k / 16384 = s.upd.spare → r.st.upd.units.find k = none) ∧
        (∀ k, k / 16384 ≠ s.upd.spare → r.st.upd.units.find k = s.upd.units.find k) ∧
        r.st.upd.slotSt s.upd.active = s.upd.slotSt s.upd.active ∧ r.st.upd.active = s.upd.active ∧
        r.st.ldg = s.ldg ∧ r.st.ing = s.ing ∧ r.st.woad = s.woad)) ∧
  (∀ (s : State) (t : Fin 256) (pi : Fin 8) (rt ra : Fin 32) (p : Place) (i : Nat) (b : List Byte) (q : Place) (d : List Byte) (bad : List Nat),
      s.callsAt t pi ra 0xD0 24 p i = true →
      s.load p 24 = b →
      field b 20 1 = 0 ∧ zeros b 21 3 = true →
      s.lake.ready = true ∧ s.upd.slotSt s.upd.spare = 1 →
      field b 0 4 = 0 ∧ 8 ≤ field b 4 4 ∧ field b 4 4 < 4096 ∧ field b 4 4 % 8 = 0 ∧ field b 4 4 = s.upd.imglen →
      (s.thr t).bufPlace t (field b 8 8) (field b 4 4) = some q →
      s.poisoned q (field b 4 4) = false →
      s.load q (field b 4 4) = d →
      crc32c d ≠ field b 16 4 →
      Answers (.updBlock t pi rt ra bad) t 0xD0 ra i s (fun r =>
        r.status = 0x108 ∧ r.out = [] ∧
        r.st.upd = { s.upd with lastRef := 0x108 } ∧
        r.st.ldg = s.ldg ∧ r.st.ing = s.ing ∧ r.st.woad = s.woad)) ∧
  (∀ (s : State) (t : Fin 256) (pi : Fin 8) (rt ra : Fin 32) (p : Place) (i : Nat) (b : List Byte) (im : List Byte) (so : Nat) (pk dg sg : List Byte),
      s.callsAt t pi ra 0xD1 8 p i = true →
      s.load p 8 = b →
      zeros b 0 8 = true →
      s.updBarred = none ∧ s.lake.ready = true →
      s.upd.slotSt s.upd.spare = 1 →
      ((List.range (ceilDiv s.upd.imglen 4096)).all (fun u => (s.upd.units.find (s.upd.spare * 16384 + u)).isSome) = true) →
      s.slotBytes s.upd.spare s.upd.imglen = im →
      imgSigOff im = so →
      imageRules im = true →
      slice im (so - 96) 96 = pk →
      s.imgKeyKnown (field im (so + 4) 4) pk = true →
      sha384 (im.take so) = dg →
      slice im (so + 8) 96 = sg →
      ecdsaVerify pk dg sg = true →
      s.secFloor ≤ imgSecver im ∧ imgSecver im ≤ 256 →
      s.ldg.sealed = false →
      Answers (.updVerify t pi rt ra) t 0xD1 ra i s (fun r =>
        r.good [] ∧
        r.st.upd.slotSt s.upd.spare = 2 ∧
        r.st.upd.slotSt s.upd.active = s.upd.slotSt s.upd.active ∧ r.st.upd.active = s.upd.active ∧
        r.st.upd.units = s.upd.units ∧
        Posts 0x0E01 1 (le 1 s.upd.spare ++ zeroBytes 3 ++ le 4 (imgSecver im)) s r.st ∧
        r.st.ldg = s.ldg ∧ r.st.ing = s.ing ∧ r.st.woad = s.woad)) ∧
  (∀ (s : State) (t : Fin 256) (pi : Fin 8) (rt ra : Fin 32) (p : Place) (i : Nat) (b : List Byte),
      s.callsAt t pi ra 0xD1 8 p i = true →
      s.load p 8 = b →
      zeros b 0 8 = true →
      s.updBarred = none ∧ s.lake.ready = true →
      s.upd.slotSt s.upd.spare ≠ 1 →
      Answers (.updVerify t pi rt ra) t 0xD1 ra i s (fun r =>
        r.status = 0x10F ∧ r.out = [] ∧
        r.st.upd = { s.upd with lastRef := 0x10F } ∧
        r.st.ldg = s.ldg ∧ r.st.ing = s.ing ∧ r.st.woad = s.woad)) ∧
  (∀ (s : State) (t : Fin 256) (pi : Fin 8) (rt ra : Fin 32) (p : Place) (i : Nat) (b : List Byte),
      s.callsAt t pi ra 0xD2 16 p i = true →
      s.load p 16 = b →
      field b 8 1 = 0 ∧ 1 ≤ field b 9 1 ∧ zeros b 10 6 = true →
      s.updBarred = none ∧ s.lake.ready = true →
      s.cas.pair = 0 ∧ s.cas.master = true ∧ s.cas.chips ≤ 1 →
      s.nowNs + 10000000000 ≤ field b 0 8 * 1000000000 →
      (s.upd.slotSt s.upd.spare = 2 ∨ s.upd.slotSt s.upd.spare = 3) →
      s.cas.chipId < 255 →
      Answers (.updActivate t pi rt ra) t 0xD2 ra i s (fun r =>
        r.good [] ∧
        r.st.row 9 = { tS := field b 0 8, action := 5, flags := 5, arg := s.cas.chipId * 256 + 2, t0 := field b 0 8 * 1000000000 } ∧
        (∀ k, k ≠ 9 → r.st.row k = s.row k) ∧
        r.st.upd.slotSt s.upd.spare = 3 ∧ r.st.upd.actT = field b 0 8 ∧ r.st.upd.window = field b 9 1 ∧
        r.st.upd.slotSt s.upd.active = s.upd.slotSt s.upd.active ∧ r.st.upd.active = s.upd.active ∧
        r.st.ldg = s.ldg ∧ r.st.ing = s.ing ∧ r.st.woad = s.woad)) ∧
  (∀ (s : State) (t : Fin 256) (pi : Fin 8) (rt ra : Fin 32) (p : Place) (i : Nat) (b : List Byte),
      s.callsAt t pi ra 0xD3 8 p i = true →
      s.load p 8 = b →
      field b 0 1 = 0 ∧ field b 1 1 = 0 ∧ zeros b 2 6 = true →
      s.lake.ready = true ∧ s.cas.pair = 0 →
      s.upd.slotSt s.upd.active = 4 ∧ s.upd.active ≤ 1 →
      Answers (.updConfirm t pi rt ra) t 0xD3 ra i s (fun r =>
        r.good [] ∧
        r.st.upd.slotSt s.upd.active = 5 ∧ r.st.upd.active = s.upd.active ∧
        r.st.upd.slotSt s.upd.spare = (if s.upd.slotSt s.upd.spare = 6 then 7 else s.upd.slotSt s.upd.spare) ∧
        r.st.upd.gen = false ∧ r.st.upd.volGen = none ∧ r.st.upd.confirmBy = 0 ∧
        r.st.otp = s.otp ∧ r.st.cpm = s.cpm ∧
        r.st.ldg = s.ldg ∧ r.st.ing = s.ing ∧ r.st.woad = s.woad)) ∧
  (∀ (s : State) (t : Fin 256) (pi : Fin 8) (rt ra : Fin 32) (p : Place) (i : Nat) (b : List Byte),
      s.callsAt t pi ra 0xD3 8 p i = true →
      s.load p 8 = b →
      field b 0 1 = 1 ∧ field b 1 1 = 0 ∧ zeros b 2 6 = true →
      s.lake.ready = true ∧ s.cas.pair = 0 →
      s.upd.slotSt s.upd.active = 4 →
      Answers (.updReject t pi rt ra) t 0xD3 ra i s (fun r =>
        r.good [] ∧
        r.st.cpm.drain = .fallback ∧
        r.st.upd = s.upd ∧
        r.st.rla.acks = [] ∨ s.cpm.drain = .fallback ∧
        r.st.ldg = s.ldg ∧ r.st.ing = s.ing ∧ r.st.woad = s.woad)) ∧
  (∀ (s : State) (t : Fin 256) (pi : Fin 8) (rt ra : Fin 32) (p : Place) (i : Nat) (b : List Byte),
      s.callsAt t pi ra 0xD3 8 p i = true →
      s.load p 8 = b →
      field b 0 1 = 2 ∧ field b 1 1 ≤ 1 ∧ zeros b 2 6 = true →
      s.lake.ready = true →
      s.upd.slotSt s.upd.spare ≠ 3 ∧ s.upd.slotSt s.upd.spare ≠ 6 →
      Answers (.updDiscard t pi rt ra) t 0xD3 ra i s (fun r =>
        r.good [] ∧
        r.st.upd.slotSt s.upd.spare = 0 ∧ r.st.upd.imglen = 0 ∧
        (∀ k, r.st.upd.units.find k = if k / 16384 = s.upd.spare then none else s.upd.units.find k) ∧
        r.st.upd.slotSt s.upd.active = s.upd.slotSt s.upd.active ∧ r.st.upd.active = s.upd.active ∧
        r.st.ldg = s.ldg ∧ r.st.ing = s.ing ∧ r.st.woad = s.woad)) ∧
  (∀ (s : State),
      (s.row 9).action = 5 ∧ (s.row 9).per = 0 ∧ (s.row 9).at_ ≤ s.nowNs ∧ s.coresRun = true →
      s.cas.pair = 0 ∧ s.tmu.valid = true →
      (s.upd.slotSt s.upd.spare = 3 ∧ ((s.row 9).arg / 256 = 255 ∨ (s.row 9).arg / 256 = s.cas.chipId)) →
      s.updBarred = none →
      Does (.imageActivate) s (fun u =>
        u.cpm.drain = .activation ∧
        (u.row 9 = {} ∧ (∀ k, k ≠ 9 → u.row k = s.row k)) ∧
        u.rla.acks = [] ∧ u.rla.layers = [] ∧
        u.upd = s.upd ∧ u.ldg = s.ldg ∧ u.ing = s.ing ∧ u.lake = s.lake)) ∧
  (∀ (s : State),
      (s.row 9).action = 5 ∧ (s.row 9).per = 0 ∧ (s.row 9).at_ ≤ s.nowNs ∧ s.coresRun = true →
      s.cas.pair = 0 ∧ s.tmu.valid = false →
      (s.upd.slotSt s.upd.spare = 3 ∧ ((s.row 9).arg / 256 = 255 ∨ (s.row 9).arg / 256 = s.cas.chipId)) →
      Does (.imageActivate) s (fun u =>
        u.cpm.drain = s.cpm.drain ∧
        u.row 9 = {} ∧
        u.upd.slotSt s.upd.spare = 2 ∧ u.upd.actT = 0 ∧ u.upd.lastRef = 0x111 ∧
        Posts 0x0E03 1 (le 2 0x111) s u ∧
        u.ldg = s.ldg ∧ u.ing = s.ing)) ∧
  (∀ (s : State),
      (s.row 9).action ≠ 5 →
      Stays (.imageActivate) s) ∧
  (∀ (s : State),
      s.cpm.drain = .activation →
      s.clocked = true →
      Does (.activationDrainComplete) s (fun u =>
        u.cpm.resetDue = some 3 ∧
        (u.upd.active = s.upd.spare ∧ u.upd.slotSt s.upd.spare = 4 ∧ (s.upd.active ≤ 1 → u.upd.slotSt s.upd.active = 6)) ∧
        u.upd.confirmBy = (s.cpm.opmin.toNat + s.upd.window) % 2 ^ 32 ∧ u.upd.gen = true ∧ u.upd.volGen = some u.lake.vol ∧ u.upd.activatedDue = true ∧
        (∀ e ∈ u.lake.log, e.landed = true) ∧
        u.woad.slots = s.woad.slots ∧ u.otp = s.otp)) ∧
  (∀ (s : State),
      s.cpm.drain = .fallback →
      s.upd.active ≤ 1 →
      s.clocked = true →
      Does (.activationDrainComplete) s (fun u =>
        u.cpm.resetDue = some 3 ∧
        u.upd.active = s.upd.spare ∧ u.upd.slotSt s.upd.spare = 5 ∧ u.upd.slotSt s.upd.active = 8 ∧ u.upd.fallbackDue = true ∧
        (∀ g, s.upd.volGen = some g → u.lake.vol = g) ∧
        u.woad.slots = s.woad.slots ∧ u.otp = s.otp)) ∧
  (∀ (s : State),
      s.cpm.drain = .none →
      Stays (.activationDrainComplete) s) ∧
  (∀ (s : State),
      s.upd.slotSt s.upd.active = 4 ∧ s.upd.confirmBy ≤ s.cpm.opmin.toNat ∧ s.coresRun = true →
      Does (.trialTimeout) s (fun u =>
        u.cpm.drain = .fallback ∧
        u.upd = s.upd ∧ u.ldg = s.ldg ∧ u.ing = s.ing)) ∧
  (∀ (s : State),
      (s.upd.slotSt s.upd.active ≠ 4 ∨ s.cpm.opmin.toNat < s.upd.confirmBy) →
      Stays (.trialTimeout) s) ∧
  (∀ (s : State) (n : BitVec 12),
      s.upd.recovery = true ∧ s.coresRun = true →
      crc32c (readBytes s.upd.rwin 0 4096) = s.upd.rcrc.toNat →
      Does (.recoveryStoreUnit n) s (fun u =>
        u.upd.runits.find n.toNat = some (readBytes s.upd.rwin 0 4096) ∧
        (∀ k, k ≠ n.toNat → u.upd.runits.find k = s.upd.runits.find k) ∧
        u.upd.rstat = 0 ∧
        u = { s with upd := u.upd })) ∧
  (∀ (s : State) (n : BitVec 12),
      s.upd.recovery = true ∧ s.coresRun = true →
      crc32c (readBytes s.upd.rwin 0 4096) ≠ s.upd.rcrc.toNat →
      exec (.recoveryStoreUnit n) s = .next { s with upd.rstat := 0x01080000, upd.lastRef := 0x108 }) ∧
  (∀ (s : State) (n : BitVec 12) (im : List Byte) (so : Nat) (pk dg sg : List Byte),
      s.upd.recovery = true ∧ s.coresRun = true →
      imgLen (unitBytes s.upd.runits 0 ((n.toNat + 1) * 4096)) ≤ (n.toNat + 1) * 4096 →
      (unitBytes s.upd.runits 0 ((n.toNat + 1) * 4096)).take (imgLen (unitBytes s.upd.runits 0 ((n.toNat + 1) * 4096))) = im →
      imgSigOff im = so →
      imageRules im = true →
      slice im (so - 96) 96 = pk →
      s.imgKeyKnown (field im (so + 4) 4) pk = true →
      sha384 (im.take so) = dg →
      slice im (so + 8) 96 = sg →
      ecdsaVerify pk dg sg = true →
      s.secFloor ≤ imgSecver im ∧ imgSecver im ≤ 256 →
      Does (.recoveryVerifyStart n) s (fun u =>
        u.upd.rstat = 0 ∧
        (∃ x, u.mcc.image = some x ∧ x.role = field im 12 1 ∧ x.secver = BitVec.ofNat 32 (imgSecver im) ∧ x.build = imgBuild im ∧ x.entries = imgEntries im) ∧
        u.mcc.poisonImem = [] ∧ u.mcc.poisonDmem = [] ∧ u.mcc.poisonShared = [] ∧
        u = { s with mcc := u.mcc, upd.rstat := 0 })) ∧
  (∀ (s : State) (n : BitVec 12),
      s.upd.recovery = true ∧ s.coresRun = true →
      (n.toNat + 1) * 4096 < imgLen (unitBytes s.upd.runits 0 ((n.toNat + 1) * 4096)) →
      exec (.recoveryVerifyStart n) s = .next { s with upd.rstat := 0x010B0000, upd.lastRef := 0x10B })

/-- The image commands of Table 16-6 (R298, R422 to R429, R432). -/
def Obligations.ImageCommands : Prop :=
  (∀ (s : State) (q : Fin 18) (c : Cmd) (bad : List Nat),
      s.standardFront q 0x0060 = some c →
      s.coresRun = true ∧ s.glb.mode ≠ .standby →
      [2].contains (s.cmdRole c) = true →
      field c.raw 28 1 = 1 ∧ zeros c.raw 29 3 = true ∧ field c.raw 8 4 = 0 ∧ zeros c.raw 12 12 = true →
      s.updBarred = none ∧ s.lake.ready = true →
      s.upd.slotSt s.upd.spare ≠ 3 ∧ s.upd.slotSt s.upd.spare ≠ 6 →
      256 ≤ c.data.length →
      beginOk c.data = true →
      field c.data 8 4 ≤ 67108864 ∧ field c.data 8 4 ≤ s.slotCap s.upd.spare ∧ c.data.length ≤ field c.data 8 4 →
      crc32c c.data = field c.raw 24 4 →
      bad.any (s.slotBlock s.upd.spare) = false →
      Does (.imgBlock q bad) s (fun u =>
        (Registers c stOk 0 (if c.rbuf then some [] else none) s u) ∧
        u.upd.slotSt s.upd.spare = 1 ∧ u.upd.imglen = field c.data 8 4 ∧
        u.upd.slotSt s.upd.active = s.upd.slotSt s.upd.active ∧ u.upd.active = s.upd.active ∧
        (∀ k, k / 16384 ≠ s.upd.spare → u.upd.units.find k = s.upd.units.find k) ∧
        u.ldg = s.ldg ∧ u.ing = s.ing ∧ u.woad = s.woad)) ∧
  (∀ (s : State) (q : Fin 18) (c : Cmd) (im : List Byte) (so : Nat) (pk dg sg : List Byte),
      s.standardFront q 0x0061 = some c →
      s.coresRun = true ∧ s.glb.mode ≠ .standby →
      [2].contains (s.cmdRole c) = true →
      s.updBarred = none ∧ s.lake.ready = true →
      s.upd.slotSt s.upd.spare = 1 →
      ((List.range (ceilDiv s.upd.imglen 4096)).all (fun u => (s.upd.units.find (s.upd.spare * 16384 + u)).isSome) = true) →
      s.slotBytes s.upd.spare s.upd.imglen = im →
      imgSigOff im = so →
      imageRules im = true →
      slice im (so - 96) 96 = pk →
      s.imgKeyKnown (field im (so + 4) 4) pk = true →
      sha384 (im.take so) = dg →
      slice im (so + 8) 96 = sg →
      ecdsaVerify pk dg sg = true →
      s.secFloor ≤ imgSecver im ∧ imgSecver im ≤ 256 →
      s.ldg.sealed = false →
      Does (.imgVerify q) s (fun u =>
        (Registers c stOk 0 (if c.rbuf then some [] else none) s u) ∧
        u.upd.slotSt s.upd.spare = 2 ∧
        u.upd.slotSt s.upd.active = s.upd.slotSt s.upd.active ∧ u.upd.active = s.upd.active ∧
        u.upd.units = s.upd.units ∧
        u.ldg = s.ldg ∧ u.ing = s.ing ∧ u.woad = s.woad)) ∧
  (∀ (s : State) (q : Fin 18) (c : Cmd),
      s.standardFront q 0x0062 = some c →
      s.coresRun = true ∧ s.glb.mode ≠ .standby →
      [2].contains (s.cmdRole c) = true →
      field c.raw 16 1 = 0 ∧ 1 ≤ field c.raw 17 1 ∧ zeros c.raw 18 6 = true →
      s.updBarred = none ∧ s.lake.ready = true →
      s.cas.pair = 0 ∧ s.cas.master = true ∧ s.cas.chips ≤ 1 →
      s.nowNs + 10000000000 ≤ field c.raw 8 8 * 1000000000 →
      (s.upd.slotSt s.upd.spare = 2 ∨ s.upd.slotSt s.upd.spare = 3) →
      s.cas.chipId < 255 →
      Does (.imgActivate q) s (fun u =>
        (Registers c stOk 0 (if c.rbuf then some [] else none) s u) ∧
        (u.row 9).action = 5 ∧ (u.row 9).tS = field c.raw 8 8 ∧
        u.upd.slotSt s.upd.spare = 3 ∧ u.upd.actT = field c.raw 8 8 ∧ u.upd.window = field c.raw 17 1 ∧
        u.upd.slotSt s.upd.active = s.upd.slotSt s.upd.active ∧ u.upd.active = s.upd.active ∧
        u.ldg = s.ldg ∧ u.ing = s.ing ∧ u.woad = s.woad)) ∧
  (∀ (s : State) (q : Fin 18) (c : Cmd),
      s.standardFront q 0x0063 = some c →
      s.coresRun = true ∧ s.glb.mode ≠ .standby →
      [2, 5].contains (s.cmdRole c) = true →
      field c.raw 8 1 = 0 ∧ field c.raw 9 1 = 0 ∧ zeros c.raw 10 6 = true →
      s.lake.ready = true ∧ s.cas.pair = 0 →
      s.upd.slotSt s.upd.active = 4 ∧ s.upd.active ≤ 1 →
      Does (.imgConfirm q) s (fun u =>
        (Registers c stOk 0 (if c.rbuf then some [] else none) s u) ∧
        u.upd.slotSt s.upd.active = 5 ∧ u.upd.active = s.upd.active ∧
        u.upd.gen = false ∧ u.upd.volGen = none ∧ u.otp = s.otp ∧
        u.ldg = s.ldg ∧ u.ing = s.ing ∧ u.woad = s.woad)) ∧
  (∀ (s : State) (q : Fin 18) (c : Cmd),
      s.standardFront q 0x0064 = some c →
      s.coresRun = true ∧ s.glb.mode ≠ .standby →
      [1, 2, 3, 4, 5, 6].contains (s.cmdRole c) = true →
      Does (.imgStatus q) s (fun u =>
        (Registers c stOk 0 (if c.rbuf then some (s.imgStatus) else none) s u) ∧
        HostOnly s u)) ∧
  (∀ (s : State) (q : Fin 18) (c : Cmd),
      s.standardFront q 0x0065 = some c →
      s.coresRun = true ∧ s.glb.mode ≠ .standby →
      [2].contains (s.cmdRole c) = true →
      field c.raw 8 1 ≤ 1 →
      Does (.imgLock q) s (fun u =>
        (Registers c stOk 0 (if c.rbuf then some [] else none) s u) ∧
        u.upd = { s.upd with lock := field c.raw 8 1 == 1 } ∧
        u.ldg = s.ldg ∧ u.ing = s.ing ∧ u.woad = s.woad)) ∧
  (∀ (s : State) (q : Fin 18) (c : Cmd) (bad : List Nat),
      s.standardFront q 0x0060 = some c →
      s.coresRun = true ∧ s.glb.mode ≠ .standby →
      [2].contains (s.cmdRole c) = false →
      Does (.imgBlock q bad) s (fun u =>
        (Registers c stAccessDenied 0 (if c.rbuf then some [] else none) s u) ∧
        HostOnly s u)) ∧
  (∀ (s : State) (q : Fin 18) (c : Cmd),
      s.standardFront q 0x0061 = some c →
      s.coresRun = true ∧ s.glb.mode ≠ .standby →
      [2].contains (s.cmdRole c) = false →
      Does (.imgVerify q) s (fun u =>
        (Registers c stAccessDenied 0 (if c.rbuf then some [] else none) s u) ∧
        HostOnly s u)) ∧
  (∀ (s : State) (q : Fin 18) (c : Cmd),
      s.standardFront q 0x0062 = some c →
      s.coresRun = true ∧ s.glb.mode ≠ .standby →
      [2].contains (s.cmdRole c) = false →
      Does (.imgActivate q) s (fun u =>
        (Registers c stAccessDenied 0 (if c.rbuf then some [] else none) s u) ∧
        HostOnly s u)) ∧
  (∀ (s : State) (q : Fin 18) (c : Cmd),
      s.standardFront q 0x0063 = some c →
      s.coresRun = true ∧ s.glb.mode ≠ .standby →
      [2, 5].contains (s.cmdRole c) = false →
      Does (.imgConfirm q) s (fun u =>
        (Registers c stAccessDenied 0 (if c.rbuf then some [] else none) s u) ∧
        HostOnly s u)) ∧
  (∀ (s : State) (q : Fin 18) (c : Cmd),
      s.standardFront q 0x0065 = some c →
      s.coresRun = true ∧ s.glb.mode ≠ .standby →
      [2].contains (s.cmdRole c) = false →
      Does (.imgLock q) s (fun u =>
        (Registers c stAccessDenied 0 (if c.rbuf then some [] else none) s u) ∧
        HostOnly s u))

/-- CAMP_CTL (R435, R436) and the campaign clock (R436, R438). -/
def Obligations.Campaigns : Prop :=
  (∀ (s : State) (t : Fin 256) (pi : Fin 8) (rt ra : Fin 32) (p : Place) (i : Nat) (b : List Byte),
      s.callsAt t pi ra 0xD4 32 p i = true →
      s.load p 32 = b →
      field b 0 1 = 0 ∧ zeros b 4 4 = true ∧ zeros b 28 4 = true →
      groupMa (BitVec.ofNat 64 (field b 8 8)) = true →
      s.lake.ready = true ∧ s.cas.pair = 0 →
      s.upd.camps.find (field b 2 2) = none ∧ s.upd.camps.length < 8 →
      0 < field b 20 4 ∧ field b 20 4 ≤ 16777216 ∧ field b 16 4 * 4096 + field b 20 4 ≤ s.lake.volGiB * 2 ^ 30 →
      crc32c (s.volBytes (field b 16 4 * 4096) (field b 20 4)) = field b 24 4 →
      Answers (.campCtlCreate t pi rt ra) t 0xD4 ra i s (fun r =>
        r.good [] ∧
        r.st.upd.camps.find (field b 2 2) = some { st := 1, ports := BitVec.ofNat 8 (field b 1 1), imglen := field b 20 4, group := BitVec.ofNat 64 (field b 8 8), volofs := field b 16 4, imgcrc := field b 24 4, since := s.nowNs } ∧
        (∀ k, k ≠ field b 2 2 → r.st.upd.camps.find k = s.upd.camps.find k) ∧
        Posts 0x0E05 1 (le 2 (field b 2 2) ++ le 1 1 ++ zeroBytes 1 ++ le 4 0) s r.st ∧
        r.st = { calling t rt i s with upd.camps := r.st.upd.camps, hp := r.st.hp, glb := r.st.glb, ctr := r.st.ctr })) ∧
  (∀ (s : State) (t : Fin 256) (pi : Fin 8) (rt ra : Fin 32) (p : Place) (i : Nat) (b : List Byte),
      s.callsAt t pi ra 0xD4 32 p i = true →
      s.load p 32 = b →
      field b 0 1 = 0 ∧ zeros b 4 4 = true ∧ zeros b 28 4 = true →
      groupMa (BitVec.ofNat 64 (field b 8 8)) = true →
      s.lake.ready = true ∧ s.cas.pair = 0 →
      (s.upd.camps.find (field b 2 2)).isSome = true →
      Answers (.campCtlCreate t pi rt ra) t 0xD4 ra i s (fun r =>
        r.status = 0x115 ∧ r.out = [] ∧
        r.st = { calling t rt i s with upd.lastRef := 0x115 })) ∧
  (∀ (s : State) (t : Fin 256) (pi : Fin 8) (rt ra : Fin 32) (p : Place) (i : Nat) (b : List Byte) (x : Camp),
      s.callsAt t pi ra 0xD4 32 p i = true →
      s.load p 32 = b →
      field b 0 1 = 1 ∧ zeros b 4 4 = true ∧ zeros b 8 8 = true ∧ zeros b 25 7 = true →
      s.cas.pair = 0 ∧ s.upd.camps.find (field b 2 2) = some x →
      (x.st = 1 ∨ x.st = 2 ∨ x.st = 3) →
      1 ≤ field b 24 1 ∧ field b 24 1 ≤ 8 ∧ 0 < field b 20 4 ∧ field b 16 4 + field b 20 4 ≤ x.imglen →
      Answers (.campCtlSend t pi rt ra) t 0xD4 ra i s (fun r =>
        r.good [] ∧
        r.st.upd.camps.find (field b 2 2) = some { x with st := 2, nextofs := field b 16 4, start := field b 16 4, sendend := field b 16 4 + field b 20 4, rep := field b 24 1, pass := 0, sentOn := [], since := s.nowNs } ∧
        (∀ k, k ≠ field b 2 2 → r.st.upd.camps.find k = s.upd.camps.find k) ∧
        Posts 0x0E05 1 (le 2 (field b 2 2) ++ le 1 2 ++ zeroBytes 1 ++ le 4 0) s r.st ∧
        r.st = { calling t rt i s with upd.camps := r.st.upd.camps, hp := r.st.hp, glb := r.st.glb, ctr := r.st.ctr })) ∧
  (∀ (s : State) (t : Fin 256) (pi : Fin 8) (rt ra : Fin 32) (p : Place) (i : Nat) (b : List Byte) (x : Camp),
      s.callsAt t pi ra 0xD4 32 p i = true →
      s.load p 32 = b →
      field b 0 1 = 1 ∧ zeros b 4 4 = true ∧ zeros b 8 8 = true ∧ zeros b 25 7 = true →
      s.cas.pair = 0 ∧ s.upd.camps.find (field b 2 2) = some x →
      (x.st = 0 ∨ 3 < x.st) →
      Answers (.campCtlSend t pi rt ra) t 0xD4 ra i s (fun r =>
        r.status = 0x10F ∧ r.out = [] ∧
        r.st = { calling t rt i s with upd.lastRef := 0x10F })) ∧
  (∀ (s : State) (t : Fin 256) (pi : Fin 8) (rt ra : Fin 32) (p : Place) (i : Nat) (b : List Byte) (x : Camp),
      s.callsAt t pi ra 0xD4 32 p i = true →
      s.load p 32 = b →
      field b 0 1 = 2 ∧ zeros b 4 4 = true ∧ zeros b 16 16 = true →
      s.cas.pair = 0 ∧ s.upd.camps.find (field b 2 2) = some x →
      (x.st = 2 ∨ x.st = 3) →
      (∀ n ∈ s.campFrames x, s.nowNs + 2 * n * 1000000000 ≤ field b 8 8 * 1000000000) →
      Answers (.campCtlActivate t pi rt ra) t 0xD4 ra i s (fun r =>
        r.good [] ∧
        r.st.upd.camps.find (field b 2 2) = some { x with st := 4, actT := field b 8 8, since := s.nowNs } ∧
        (∀ k, k ≠ field b 2 2 → r.st.upd.camps.find k = s.upd.camps.find k) ∧
        Posts 0x0E05 1 (le 2 (field b 2 2) ++ le 1 4 ++ zeroBytes 1 ++ le 4 0) s r.st ∧
        r.st = { calling t rt i s with upd.camps := r.st.upd.camps, hp := r.st.hp, glb := r.st.glb, ctr := r.st.ctr })) ∧
  (∀ (s : State) (t : Fin 256) (pi : Fin 8) (rt ra : Fin 32) (p : Place) (i : Nat) (b : List Byte) (x : Camp),
      s.callsAt t pi ra 0xD4 32 p i = true →
      s.load p 32 = b →
      field b 0 1 = 3 ∧ zeros b 4 4 = true ∧ zeros b 8 24 = true →
      s.cas.pair = 0 ∧ s.upd.camps.find (field b 2 2) = some x →
      1 ≤ x.st ∧ x.st ≤ 5 →
      Answers (.campCtlAbort t pi rt ra) t 0xD4 ra i s (fun r =>
        r.good [] ∧
        (∃ y, r.st.upd.camps.find (field b 2 2) = some y ∧ y.st = 6 ∧ y.imglen = x.imglen ∧ y.group = x.group ∧ y.gfcnt = x.gfcnt ∧ (∀ p ∈ s.campPlaces x, y.abortLeft.get 0 p = 16)) ∧
        (∀ k, k ≠ field b 2 2 → r.st.upd.camps.find k = s.upd.camps.find k) ∧
        Posts 0x0E05 1 (le 2 (field b 2 2) ++ le 1 6 ++ zeroBytes 1 ++ le 4 0) s r.st ∧
        r.st = { calling t rt i s with upd.camps := r.st.upd.camps, hp := r.st.hp, glb := r.st.glb, ctr := r.st.ctr })) ∧
  (∀ (s : State) (t : Fin 256) (pi : Fin 8) (rt ra : Fin 32) (p : Place) (i : Nat) (b : List Byte) (x : Camp) (q : Place),
      s.callsAt t pi ra 0xD4 32 p i = true →
      s.load p 32 = b →
      field b 0 1 = 4 ∧ zeros b 4 4 = true ∧ zeros b 16 16 = true →
      s.cas.pair = 0 ∧ s.upd.camps.find (field b 2 2) = some x →
      x.tally.length = 4 →
      (s.thr t).bufPlace t (field b 8 8) 64 = some q →
      Answers (.campCtlRead t pi rt ra) t 0xD4 ra i s (fun r =>
        r.good [] ∧
        r.st = storeAt q (le 2 (field b 2 2) ++ le 1 x.st ++ le 1 x.ports.toNat ++ le 4 x.imglen ++ le 8 x.group.toNat ++ le 4 x.volofs ++ le 4 x.imgcrc ++ le 4 x.gfcnt.toNat ++ le 4 x.nextofs ++ le 4 x.sendend ++ le 1 (x.rep + 16 * x.pass) ++ zeroBytes 3 ++ le 8 x.actT ++ x.tally.flatMap (le 4)) (calling t rt i s))) ∧
  (∀ (s : State) (t : Fin 256) (pi : Fin 8) (rt ra : Fin 32) (p : Place) (i : Nat) (b : List Byte) (x : Camp),
      s.callsAt t pi ra 0xD4 32 p i = true →
      s.load p 32 = b →
      field b 0 1 = 5 ∧ zeros b 4 4 = true ∧ zeros b 8 24 = true →
      s.cas.pair = 0 ∧ s.upd.camps.find (field b 2 2) = some x →
      (x.st = 5 ∨ x.st = 6) →
      Answers (.campCtlClose t pi rt ra) t 0xD4 ra i s (fun r =>
        r.good [] ∧
        r.st.upd.camps.find (field b 2 2) = none ∧
        (∀ k, k ≠ field b 2 2 → r.st.upd.camps.find k = s.upd.camps.find k) ∧
        r.st = { calling t rt i s with upd.camps := r.st.upd.camps })) ∧
  (∀ (s : State) (t : Fin 256) (pi : Fin 8) (rt ra : Fin 32) (p : Place) (i : Nat) (b : List Byte) (x : Camp),
      s.callsAt t pi ra 0xD4 32 p i = true →
      s.load p 32 = b →
      field b 0 1 = 6 ∧ zeros b 4 4 = true ∧ zeros b 24 8 = true →
      s.cas.pair = 0 ∧ s.upd.camps.find (field b 2 2) = some x →
      1 ≤ x.st ∧ x.st ≤ 6 →
      Answers (.campCtlTally t pi rt ra) t 0xD4 ra i s (fun r =>
        r.good [] ∧
        r.st.upd.camps.find (field b 2 2) = some { x with tally := [field b 8 4, field b 12 4, field b 16 4, field b 20 4] } ∧
        (∀ k, k ≠ field b 2 2 → r.st.upd.camps.find k = s.upd.camps.find k) ∧
        r.st = { calling t rt i s with upd.camps := r.st.upd.camps })) ∧
  (∀ (s : State) (q : Fin 18) (c : Cmd) (x : Camp),
      s.standardFront q 0x0068 = some c →
      s.coresRun = true ∧ s.glb.mode ≠ .standby →
      [2].contains (s.cmdRole c) = true →
      field c.raw 8 1 = 5 ∧ zeros c.raw 12 24 = true →
      s.cas.pair = 0 ∧ s.upd.camps.find (field c.raw 10 2) = some x →
      (x.st = 5 ∨ x.st = 6) →
      Does (.hostCampCtl q) s (fun u =>
        (Registers c stOk 0 (if c.rbuf then some [] else none) s u) ∧
        u.upd.camps.find (field c.raw 10 2) = none ∧
        (∀ k, k ≠ field c.raw 10 2 → u.upd.camps.find k = s.upd.camps.find k) ∧
        u.ldg = s.ldg ∧ u.ing = s.ing ∧ u.woad = s.woad ∧ u.hp.nq = s.hp.nq)) ∧
  (∀ (s : State) (q : Fin 18) (c : Cmd) (x : Camp),
      s.standardFront q 0x0068 = some c →
      s.coresRun = true ∧ s.glb.mode ≠ .standby →
      [2, 6].contains (s.cmdRole c) = true →
      field c.raw 8 1 = 4 ∧ zeros c.raw 12 4 = true →
      s.cas.pair = 0 ∧ s.upd.camps.find (field c.raw 10 2) = some x →
      Does (.hostCampCtl q) s (fun u =>
        (Registers c stOk 0 (if c.rbuf then some (x.bytes (field c.raw 10 2)) else none) s u) ∧
        HostOnly s u)) ∧
  (∀ (s : State) (q : Fin 18) (c : Cmd),
      s.standardFront q 0x0068 = some c →
      s.coresRun = true ∧ s.glb.mode ≠ .standby →
      [2].contains (s.cmdRole c) = false →
      field c.raw 8 1 ≠ 4 →
      Does (.hostCampCtl q) s (fun u =>
        (Registers c stAccessDenied 0 (if c.rbuf then some [] else none) s u) ∧
        HostOnly s u)) ∧
  (∀ (s : State) (id : BitVec 16) (x : Camp),
      s.upd.camps.find id.toNat = some x →
      s.glb.mode = .service ∧ x.st = 4 ∧ x.actT ≤ s.nowS ∧ s.cas.pair = 0 →
      Does (.campaignActT id) s (fun u =>
        u.upd.camps.find id.toNat = some { x with st := 5, since := s.nowNs } ∧
        (∀ k, k ≠ id.toNat → u.upd.camps.find k = s.upd.camps.find k) ∧
        Posts 0x0E05 1 (le 2 id.toNat ++ le 1 5 ++ zeroBytes 1 ++ le 4 (x.tally.getD 2 0)) s u ∧
        u = { s with upd.camps := u.upd.camps, hp := u.hp, glb := u.glb, ctr := u.ctr })) ∧
  (∀ (s : State) (id : BitVec 16) (x : Camp),
      s.upd.camps.find id.toNat = some x →
      (x.st ≠ 4 ∨ s.nowS < x.actT) →
      Stays (.campaignActT id) s)

/-- The calls of Table 11-11 (R312 to R317, R322 to R326, R328). The device CA key is the part's own constant, so the clause of CRY_GCM_OPEN speaks of both answers. -/
def Obligations.WoadCalls : Prop :=
  (∀ (s : State) (t : Fin 256) (pi : Fin 8) (rt ra : Fin 32) (p : Place) (i : Nat) (b : List Byte) (pt : List Byte) (q : Place),
      s.callsAt t pi ra 0x70 64 p i = true →
      s.load p 64 = b →
      zeros b 1 1 = true ∧ zeros b 4 4 = true ∧ zeros b 28 4 = true ∧ zeros b 44 20 = true ∧ field b 0 1 < 64 ∧ field b 24 4 ≤ 2 ^ 24 →
      s.glb.mode ≠ .holdup ∧ s.lake.ready = true →
      (s.keySlot (field b 0 1)).st = .active ∧ (s.keySlot (field b 0 1)).typ = 3 →
      ((s.thr t).bufPlace t (field b 16 8) (field b 24 4 + 528)).isSome = true →
      (s.thr t).bufPlace t (field b 8 8) (field b 24 4) = some q →
      s.poisoned q (field b 24 4) = false →
      s.load q (field b 24 4) = pt →
      s.woad.bseq.toNat + 1 ≤ s.woad.hw.toNat ∧ s.woad.bseq.toNat + 1 ≤ s.woad.durHw.toNat →
      Answers (.cryGcmSeal t pi rt ra) t 0x70 ra i s (fun r =>
        r.good [(32, le 8 (s.woad.bseq.toNat + 1)), (40, le 4 (field b 24 4 + 528))] ∧
        r.st.woad.bseq = s.woad.bseq + 1 ∧ r.st.woad.slots = s.woad.slots ∧ r.st.woad.hw = s.woad.hw ∧
        (∃ k op sg, r.st.woad.queued.find k = some op ∧ op.slot = field b 0 1 ∧ op.dst = field b 16 8 ∧ op.bytes = (batchHeader (field b 2 2) s.serial (s.woad.bseq.toNat + 1) (s.keySlot (field b 0 1)).keyid.toNat (field b 24 4) s.nowUs) ++ (gcmCrypt (batchKey (s.keySlot (field b 0 1)).key s.serial (s.woad.bseq.toNat + 1)) (slice (batchHeader (field b 2 2) s.serial (s.woad.bseq.toNat + 1) (s.keySlot (field b 0 1)).keyid.toNat (field b 24 4) s.nowUs) 40 12) pt) ++ gcmTag (batchKey (s.keySlot (field b 0 1)).key s.serial (s.woad.bseq.toNat + 1)) (slice (batchHeader (field b 2 2) s.serial (s.woad.bseq.toNat + 1) (s.keySlot (field b 0 1)).keyid.toNat (field b 24 4) s.nowUs) 40 12) (batchHeader (field b 2 2) s.serial (s.woad.bseq.toNat + 1) (s.keySlot (field b 0 1)).keyid.toNat (field b 24 4) s.nowUs) (gcmCrypt (batchKey (s.keySlot (field b 0 1)).key s.serial (s.woad.bseq.toNat + 1)) (slice (batchHeader (field b 2 2) s.serial (s.woad.bseq.toNat + 1) (s.keySlot (field b 0 1)).keyid.toNat (field b 24 4) s.nowUs) 40 12) pt) ++ sg) ∧
        r.st.ldg = s.ldg ∧ r.st.ing = s.ing ∧ r.st.otp = s.otp)) ∧
  (∀ (s : State) (t : Fin 256) (pi : Fin 8) (rt ra : Fin 32) (p : Place) (i : Nat) (b : List Byte),
      s.callsAt t pi ra 0x70 64 p i = true →
      s.load p 64 = b →
      zeros b 1 1 = true ∧ zeros b 4 4 = true ∧ zeros b 28 4 = true ∧ zeros b 44 20 = true ∧ field b 0 1 < 64 ∧ field b 24 4 ≤ 2 ^ 24 →
      (s.glb.mode = .holdup ∨ s.lake.ready = false) →
      Answers (.cryGcmSeal t pi rt ra) t 0x70 ra i s (fun r =>
        r.refuses wkNotNow (calling t rt i s))) ∧
  (∀ (s : State) (t : Fin 256) (pi : Fin 8) (rt ra : Fin 32) (p : Place) (i : Nat) (b : List Byte) (l cert : List Byte) (q p2 : Place),
      s.callsAt t pi ra 0x71 64 p i = true →
      s.load p 64 = b →
      zeros b 1 7 = true ∧ zeros b 28 4 = true ∧ zeros b 36 4 = true ∧ zeros b 56 8 = true →
      s.glb.mode ≠ .holdup ∧ s.lake.ready = true →
      (s.thr t).bufPlace t (field b 8 8) (field b 24 4) = some q →
      s.poisoned q (field b 24 4) = false →
      s.load q (field b 24 4) = l →
      (s.thr t).bufPlace t (field b 48 8) (256) = some p2 →
      s.poisoned p2 256 = false →
      s.load p2 256 = cert →
      (∀ n < field b 24 4 + 1, ((s.thr t).bufPlace t (field b 16 8) n).isSome = true) →
      Answers (.cryGcmOpen t pi rt ra) t 0x71 ra i s (fun r =>
        (match openBatch l cert s with
         | .error e => r.status = e ∧ r.out = [] ∧ r.st = { calling t rt i s with ctr := r.st.ctr }
         | .ok (k, pt) => r.good [(32, le 4 pt.length), (40, le 8 (field l 16 8))] ∧
             (∃ j op, r.st.woad.queued.find j = some op ∧ op.slot = k ∧ op.dst = field b 16 8 ∧ op.bytes = pt) ∧
             r.st = { calling t rt i s with woad.queued := r.st.woad.queued }))) ∧
  (∀ (s : State) (t : Fin 256) (pi : Fin 8) (rt ra : Fin 32) (p : Place) (i : Nat) (b : List Byte) (x : Session) (m : List Byte) (q : Place),
      s.callsAt t pi ra 0x72 64 p i = true →
      s.load p 64 = b →
      field b 0 1 = 1 ∧ zeros b 8 4 = true ∧ zeros b 36 4 = true ∧ zeros b 56 8 = true →
      s.session (field b 2 2) = some x ∧ x.open_ = true →
      (s.thr t).bufPlace t (field b 24 8) (field b 32 4) = some q →
      s.poisoned q (field b 32 4) = false →
      s.load q (field b 32 4) = m →
      Answers (.cryCmac t pi rt ra) t 0x72 ra i s (fun r =>
        r.good [(40, cmac x.ks m)] ∧
        r.st = { calling t rt i s with ctr := r.st.ctr })) ∧
  (∀ (s : State) (t : Fin 256) (pi : Fin 8) (rt ra : Fin 32) (p : Place) (i : Nat) (b : List Byte) (m : List Byte) (q : Place),
      s.callsAt t pi ra 0x72 64 p i = true →
      s.load p 64 = b →
      field b 0 1 = 2 ∧ field b 1 1 < 64 ∧ zeros b 8 4 = true ∧ zeros b 36 4 = true ∧ zeros b 56 8 = true →
      (s.keySlot (field b 1 1)).st = .active →
      (s.thr t).bufPlace t (field b 24 8) (field b 32 4) = some q →
      s.poisoned q (field b 32 4) = false →
      s.load q (field b 32 4) = m →
      Answers (.cryCmac t pi rt ra) t 0x72 ra i s (fun r =>
        r.good [(40, cmac (kdf (s.keySlot (field b 1 1)).key (slice b 12 4) (slice b 16 8) (if Config.cmacWide then 256 else 128)) m)] ∧
        (∃ k op, r.st.woad.queued.find k = some op ∧ op.slot = field b 1 1 ∧ op.epoch = none) ∧
        r.st = { calling t rt i s with woad.queued := r.st.woad.queued, ctr := r.st.ctr })) ∧
  (∀ (s : State) (t : Fin 256) (pi : Fin 8) (rt ra : Fin 32) (p : Place) (i : Nat) (b : List Byte),
      s.callsAt t pi ra 0x72 64 p i = true →
      s.load p 64 = b →
      field b 0 1 = 2 ∧ field b 1 1 < 64 ∧ zeros b 8 4 = true ∧ zeros b 36 4 = true ∧ zeros b 56 8 = true →
      (s.keySlot (field b 1 1)).st ≠ .active →
      Answers (.cryCmac t pi rt ra) t 0x72 ra i s (fun r =>
        r.status = (if (s.keySlot (field b 1 1)).st = .empty then stKeyAbsent else stKeyOrphaned) ∧ r.out = [] ∧
        r.st = { calling t rt i s with ctr := r.st.ctr })) ∧
  (∀ (s : State) (t : Fin 256) (pi : Fin 8) (rt ra : Fin 32) (p : Place) (i : Nat) (b : List Byte) (m : List Byte) (q p2 : Place),
      s.callsAt t pi ra 0x73 64 p i = true →
      s.load p 64 = b →
      zeros b 0 8 = true ∧ zeros b 20 4 = true ∧ zeros b 32 32 = true →
      (s.thr t).bufPlace t (field b 8 8) (field b 16 4) = some q →
      s.poisoned q (field b 16 4) = false →
      s.load q (field b 16 4) = m →
      (s.thr t).bufPlace t (field b 24 8) 48 = some p2 →
      Answers (.crySha384 t pi rt ra) t 0x73 ra i s (fun r =>
        r.good [] ∧
        r.st = storeAt p2 (sha384 m) (calling t rt i s))) ∧
  (∀ (s : State) (t : Fin 256) (pi : Fin 8) (rt ra : Fin 32) (p : Place) (i : Nat) (b : List Byte) (dg pk sg : List Byte) (q1 q2 q3 : Place),
      s.callsAt t pi ra 0x74 64 p i = true →
      s.load p 64 = b →
      zeros b 0 8 = true ∧ zeros b 32 32 = true →
      (s.thr t).bufPlace t (field b 8 8) (48) = some q1 →
      s.poisoned q1 (48) = false →
      s.load q1 (48) = dg →
      (s.thr t).bufPlace t (field b 16 8) (96) = some q2 →
      s.poisoned q2 (96) = false →
      s.load q2 (96) = pk →
      (s.thr t).bufPlace t (field b 24 8) (96) = some q3 →
      s.poisoned q3 (96) = false →
      s.load q3 (96) = sg →
      ecdsaVerify pk dg sg = true →
      Answers (.cryEcdsaVerify t pi rt ra) t 0x74 ra i s (fun r =>
        r.good [] ∧
        r.st = calling t rt i s)) ∧
  (∀ (s : State) (t : Fin 256) (pi : Fin 8) (rt ra : Fin 32) (p : Place) (i : Nat) (b : List Byte) (nonce st : List Byte) (q p2 : Place),
      s.callsAt t pi ra 0x75 64 p i = true →
      s.load p 64 = b →
      zeros b 0 8 = true ∧ zeros b 24 40 = true →
      (s.thr t).bufPlace t (field b 8 8) (32) = some p2 →
      s.poisoned p2 (32) = false →
      s.load p2 (32) = nonce →
      (s.thr t).bufPlace t (field b 16 8) 448 = some q →
      s.woad.statement = some st ∧ field st 6 1 = s.attFlags ∧ st.length = 352 →
      Answers (.cryAttest t pi rt ra) t 0x75 ra i s (fun r =>
        r.good [] ∧
        (∃ sg, sg.length = 96 ∧ r.st = storeAt q (st ++ sg) { calling t rt i s with free := s.free + 1, ctr := r.st.ctr }))) ∧
  (∀ (s : State) (t : Fin 256) (pi : Fin 8) (rt ra : Fin 32) (p : Place) (i : Nat) (b : List Byte) (d : List Byte) (q : Place),
      s.callsAt t pi ra 0x76 64 p i = true →
      s.load p 64 = b →
      field b 0 1 = 0 ∧ field b 1 1 < 64 ∧ field b 2 2 = 80 ∧ zeros b 4 4 = true ∧ zeros b 16 48 = true →
      s.glb.mode ≠ .holdup ∧ s.lake.ready = true ∧ s.cas.pair = 0 ∧ s.woad.debugSub = false ∧ s.woad.life = .owned →
      (s.thr t).bufPlace t (field b 8 8) (80) = some q →
      s.poisoned q (80) = false →
      s.load q (80) = d →
      (s.keySlot (field b 1 1)).st ≠ .active →
      field d 0 4 = 0x424B5A57 ∧ field d 5 1 = field b 1 1 ∧ zeros d 12 4 = true ∧ zeros d 76 4 = true ∧ field d 4 1 = 1 ∧ field d 6 1 ≤ field d 7 1 →
      gcmTag s.kw (slice d 16 12) (d.take 16) (slice d 28 32) = slice d 60 16 →
      Answers (.keyLoadSlot t pi rt ra) t 0x76 ra i s (fun r =>
        r.status = stOk ∧ r.out = [] ∧ r.waits = some .keyTable ∧
        (r.st.keySlot (field b 1 1)) = { st := .active, typ := 1, keyid := BitVec.ofNat 32 (field d 8 4), parent := none, depth := 1, amask := BitVec.ofNat 64 (2 ^ field b 1 1), epmin := field d 6 1, epmax := field d 7 1, key := gcmCrypt s.kw (slice d 16 12) (slice d 28 32) } ∧
        (∀ k, k ≠ (field b 1 1) → r.st.keySlot k = s.keySlot k) ∧
        r.st.ldg = s.ldg ∧ r.st.ing = s.ing ∧ r.st.otp = s.otp)) ∧
  (∀ (s : State) (t : Fin 256) (pi : Fin 8) (rt ra : Fin 32) (p : Place) (i : Nat) (b : List Byte) (d : List Byte) (q : Place),
      s.callsAt t pi ra 0x76 64 p i = true →
      s.load p 64 = b →
      field b 0 1 = 0 ∧ field b 1 1 < 64 ∧ field b 2 2 = 80 ∧ zeros b 4 4 = true ∧ zeros b 16 48 = true →
      s.glb.mode ≠ .holdup ∧ s.lake.ready = true ∧ s.cas.pair = 0 ∧ s.woad.debugSub = false ∧ s.woad.life = .owned →
      (s.thr t).bufPlace t (field b 8 8) (80) = some q →
      s.poisoned q (80) = false →
      s.load q (80) = d →
      (s.keySlot (field b 1 1)).st ≠ .active →
      field d 0 4 ≠ 0x424B5A57 →
      Answers (.keyLoadSlot t pi rt ra) t 0x76 ra i s (fun r =>
        r.status = wkUnwrapFail ∧ r.out = [] ∧
        r.st = { calling t rt i s with ctr := r.st.ctr })) ∧
  (∀ (s : State) (t : Fin 256) (pi : Fin 8) (rt ra : Fin 32) (p : Place) (i : Nat) (b : List Byte) (bad : Option Nat) (d : List Byte) (q : Place),
      s.callsAt t pi ra 0x76 64 p i = true →
      s.load p 64 = b →
      field b 0 1 = 1 ∧ field b 1 1 = 3 ∧ field b 2 2 = 4 ∧ zeros b 4 4 = true ∧ zeros b 16 48 = true →
      s.glb.mode ≠ .holdup ∧ s.lake.ready = true ∧ s.cas.pair = 0 ∧ s.woad.debugSub = false →
      (s.thr t).bufPlace t (field b 8 8) (4) = some q →
      s.poisoned q (4) = false →
      s.load q (4) = d →
      Answers (.keyLoadOtp t pi rt ra bad) t 0x76 ra i s (fun r =>
        r.status = (if bad = some 0 then wkOtpFail else stOk) ∧ r.out = [] ∧ r.waits = none ∧
        (∀ a j, s.otpBit a j = true → r.st.otpBit a j = true) ∧
        (∀ a, (a < 0x450 ∨ 0x454 ≤ a) → r.st.otp.get 0 a = s.otp.get 0 a) ∧
        (bad = none → ∀ k < 4, r.st.otp.get 0 (0x450 + k) = s.otp.get 0 (0x450 + k) ||| d.getD k 0) ∧
        r.st.ldg = s.ldg ∧ r.st.woad.slots = s.woad.slots)) ∧
  (∀ (s : State) (t : Fin 256) (pi : Fin 8) (rt ra : Fin 32) (p : Place) (i : Nat) (b : List Byte) (par : KeySlot),
      s.callsAt t pi ra 0x77 64 p i = true →
      s.load p 64 = b →
      zeros b 5 3 = true ∧ zeros b 12 52 = true ∧ field b 0 1 < 64 ∧ field b 1 1 < 64 ∧ field b 2 1 = 1 ∧ field b 3 1 ≤ field b 4 1 →
      s.glb.mode ≠ .holdup ∧ s.lake.ready = true ∧ s.cas.pair = 0 ∧ s.woad.debugSub = false ∧ s.woad.life = .owned →
      s.keySlot (field b 0 1) = par ∧ par.st = .active ∧ par.typ = 4 ∧ par.depth < 3 →
      (s.keySlot (field b 1 1)).st ≠ .active →
      Answers (.keyDerive t pi rt ra) t 0x77 ra i s (fun r =>
        r.status = stOk ∧ r.out = [] ∧ r.waits = some .keyTable ∧
        (r.st.keySlot (field b 1 1)) = { st := .active, typ := 1, keyid := BitVec.ofNat 32 (field b 8 4), parent := some (field b 0 1), depth := par.depth + 1, amask := par.amask ||| BitVec.ofNat 64 (2 ^ field b 1 1), epmin := field b 3 1, epmax := field b 4 1, key := kdf par.key (label 0x5A 0x53 0x4C 0x54) (le 4 (field b 8 4) ++ le 1 1 ++ zeroBytes 3) 256 } ∧
        (∀ k, k ≠ (field b 1 1) → r.st.keySlot k = s.keySlot k) ∧
        r.st.ldg = s.ldg ∧ r.st.ing = s.ing ∧ r.st.otp = s.otp)) ∧
  (∀ (s : State) (t : Fin 256) (pi : Fin 8) (rt ra : Fin 32) (p : Place) (i : Nat) (b : List Byte),
      s.callsAt t pi ra 0x78 64 p i = true →
      s.load p 64 = b →
      zeros b 2 62 = true ∧ field b 0 1 < 64 ∧ field b 1 1 = 0 →
      s.cas.pair = 0 ∧ s.woad.debugSub = false →
      (s.keySlot (field b 0 1)).st = .active →
      Answers (.keyInvalidate t pi rt ra) t 0x78 ra i s (fun r =>
        r.status = stOk ∧ r.out = [] ∧ r.waits = some (.tomb (field b 0 1)) ∧
        (r.st.keySlot (field b 0 1)) = { s.keySlot (field b 0 1) with tomb := true } ∧
        (∀ k, k ≠ (field b 0 1) → r.st.keySlot k = s.keySlot k) ∧
        r.st.ldg = s.ldg ∧ r.st.ing = s.ing ∧ r.st.otp = s.otp)) ∧
  (∀ (s : State) (t : Fin 256) (pi : Fin 8) (rt ra : Fin 32) (p : Place) (i : Nat) (b : List Byte),
      s.callsAt t pi ra 0x78 64 p i = true →
      s.load p 64 = b →
      zeros b 2 62 = true ∧ field b 0 1 < 64 ∧ field b 1 1 = 0 →
      (s.keySlot (field b 0 1)).st = .empty →
      Answers (.keyInvalidate t pi rt ra) t 0x78 ra i s (fun r =>
        r.refuses wkSlotState (calling t rt i s))) ∧
  (∀ (s : State) (t : Fin 256) (pi : Fin 8) (rt ra : Fin 32) (p : Place) (i : Nat) (b : List Byte),
      s.callsAt t pi ra 0x78 64 p i = true →
      s.load p 64 = b →
      zeros b 2 62 = true ∧ field b 0 1 < 64 ∧ field b 1 1 = 1 →
      s.cas.pair = 0 ∧ s.woad.debugSub = false →
      ((s.keySlot (field b 0 1)).st = .orphaned ∧ ∀ x ∈ s.woad.slots, x.2.st = .active → x.2.amask.getLsbD (field b 0 1) = false) →
      Answers (.keyClear t pi rt ra) t 0x78 ra i s (fun r =>
        r.status = stOk ∧ r.out = [(8, le 4 0)] ∧ r.waits = some .keyTable ∧
        (r.st.keySlot (field b 0 1)) = {} ∧
        (∀ k, k ≠ (field b 0 1) → r.st.keySlot k = s.keySlot k) ∧
        r.st.ldg = s.ldg ∧ r.st.ing = s.ing ∧ r.st.otp = s.otp)) ∧
  (∀ (s : State) (t : Fin 256) (pi : Fin 8) (rt ra : Fin 32) (p : Place) (i : Nat) (b : List Byte),
      s.callsAt t pi ra 0x78 64 p i = true →
      s.load p 64 = b →
      zeros b 2 62 = true ∧ field b 0 1 < 64 ∧ field b 1 1 = 1 →
      (s.keySlot (field b 0 1)).st = .active →
      Answers (.keyClear t pi rt ra) t 0x78 ra i s (fun r =>
        r.refuses wkSlotState (calling t rt i s))) ∧
  (∀ (s : State) (t : Fin 256) (pi : Fin 8) (rt ra : Fin 32) (p : Place) (i : Nat) (b : List Byte),
      s.callsAt t pi ra 0x79 64 p i = true →
      s.load p 64 = b →
      field b 0 1 = 0 ∧ field b 1 1 < 64 ∧ zeros b 4 4 = true ∧ zeros b 20 44 = true →
      s.glb.mode ≠ .holdup ∧ s.lake.ready = true ∧ s.cas.pair = 0 ∧ s.woad.debugSub = false ∧ s.woad.life = .owned →
      (s.keySlot (field b 1 1)).st = .active ∧ (s.keySlot (field b 1 1)).typ = 1 ∧ (s.keySlot (field b 1 1)).epminNext = none →
      field b 2 1 = (s.keySlot (field b 1 1)).epmin ∧ (s.keySlot (field b 1 1)).epmax < field b 3 1 ∧ field b 2 1 ≤ field b 3 1 →
      Answers (.keyEpochDistrict t pi rt ra) t 0x79 ra i s (fun r =>
        r.status = stOk ∧ r.out = [] ∧ r.waits = some .keyTable ∧
        (r.st.keySlot (field b 1 1)) = { s.keySlot (field b 1 1) with epmax := field b 3 1 } ∧
        (∀ k, k ≠ (field b 1 1) → r.st.keySlot k = s.keySlot k) ∧
        r.st.ldg = s.ldg ∧ r.st.ing = s.ing ∧ r.st.otp = s.otp)) ∧
  (∀ (s : State) (t : Fin 256) (pi : Fin 8) (rt ra : Fin 32) (p : Place) (i : Nat) (b : List Byte),
      s.callsAt t pi ra 0x79 64 p i = true →
      s.load p 64 = b →
      field b 0 1 = 0 ∧ field b 1 1 < 64 ∧ zeros b 4 4 = true ∧ zeros b 20 44 = true →
      s.glb.mode ≠ .holdup ∧ s.lake.ready = true ∧ s.cas.pair = 0 ∧ s.woad.debugSub = false ∧ s.woad.life = .owned →
      (s.keySlot (field b 1 1)).st = .active ∧ (s.keySlot (field b 1 1)).typ = 1 ∧ (s.keySlot (field b 1 1)).epminNext = none →
      (s.keySlot (field b 1 1)).epmin < field b 2 1 ∧ (s.keySlot (field b 1 1)).epmax ≤ field b 3 1 ∧ field b 2 1 ≤ field b 3 1 →
      Answers (.keyEpochDistrict t pi rt ra) t 0x79 ra i s (fun r =>
        r.status = stOk ∧ r.out = [] ∧ r.waits = some (.epmin (field b 1 1)) ∧
        (r.st.keySlot (field b 1 1)) = { s.keySlot (field b 1 1) with epmax := field b 3 1, epminNext := some (field b 2 1) } ∧
        (∀ k, k ≠ (field b 1 1) → r.st.keySlot k = s.keySlot k) ∧
        r.st.ldg = s.ldg ∧ r.st.ing = s.ing ∧ r.st.otp = s.otp)) ∧
  (∀ (s : State) (t : Fin 256) (pi : Fin 8) (rt ra : Fin 32) (p : Place) (i : Nat) (b : List Byte),
      s.callsAt t pi ra 0x79 64 p i = true →
      s.load p 64 = b →
      field b 0 1 = 1 ∧ field b 1 1 < 64 ∧ zeros b 4 4 = true ∧ zeros b 20 44 = true →
      s.glb.mode ≠ .holdup ∧ s.lake.ready = true ∧ s.cas.pair = 0 ∧ s.woad.debugSub = false ∧ s.woad.life = .owned →
      (s.keySlot (field b 1 1)).st = .active ∧ (s.keySlot (field b 1 1)).typ = 2 →
      s.nowNs + 2000000000 ≤ field b 8 8 * 1000000000 →
      s.woad.bcast.valid = true ∧ s.woad.bcast.cur = 255 ∧ field b 2 1 = 0 ∧ field b 1 1 ≠ s.woad.bcast.slot →
      Answers (.keyEpochBroadcast t pi rt ra) t 0x79 ra i s (fun r =>
        r.status = stOk ∧ r.out = [] ∧ r.waits = some .keyTable ∧
        r.st.woad.bcast = { s.woad.bcast with next := some { e := 0, slot := field b 1 1, actT := field b 8 8 } } ∧
        r.st.woad.slots = s.woad.slots ∧
        r.st.ldg = s.ldg ∧ r.st.ing = s.ing ∧ r.st.otp = s.otp)) ∧
  (∀ (s : State) (t : Fin 256) (pi : Fin 8) (rt ra : Fin 32) (p : Place) (i : Nat) (b : List Byte),
      s.callsAt t pi ra 0x79 64 p i = true →
      s.load p 64 = b →
      field b 0 1 = 2 ∧ 1 ≤ field b 1 1 ∧ field b 1 1 ≤ 6 ∧ zeros b 4 4 = true ∧ zeros b 20 44 = true →
      s.glb.mode ≠ .holdup ∧ s.lake.ready = true ∧ s.cas.pair = 0 ∧ s.woad.debugSub = false ∧ s.woad.life = .owned →
      (s.cfloor (field b 1 1)).toNat < field b 16 4 →
      Answers (.keyEpochRoleFloor t pi rt ra) t 0x79 ra i s (fun r =>
        r.status = stOk ∧ r.out = [] ∧ r.waits = some .keyTable ∧
        r.st.cfloor (field b 1 1) = BitVec.ofNat 32 (field b 16 4) ∧
        (∀ k, k ≠ field b 1 1 → r.st.cfloor k = s.cfloor k) ∧
        (∀ k x, r.st.session k = some x → x.open_ = true → x.role = field b 1 1 → field b 16 4 ≤ x.cred) ∧
        r.st.woad.slots = s.woad.slots ∧
        r.st.ldg = s.ldg ∧ r.st.ing = s.ing ∧ r.st.otp = s.otp))

/-- Commits of invalidations (R317 to R319), of EPMIN (R314), of the key table (R320), and the previous broadcast epoch (R315). -/
def Obligations.WoadCommits : Prop :=
  (∀ (s : State) (n : Fin 64),
      (s.keySlot n).tomb = true →
      (s.woad.durSlots.get {} n).tomb = true ∧ s.mackAwaited n = false →
      s.woad.queued = [] →
      Does (.invalidationCommit n) s (fun u =>
        (∀ j, (u.keySlot j).st = if (s.keySlot j).st = .active ∧ (s.keySlot j).amask.getLsbD n = true then .orphaned else (s.keySlot j).st) ∧
        (∀ j, (u.keySlot j).key = (s.keySlot j).key ∧ (u.keySlot j).keyid = (s.keySlot j).keyid) ∧
        (u.woad.bcast.valid = true → (s.keySlot s.woad.bcast.slot).amask.getLsbD n = false ∨ (s.keySlot s.woad.bcast.slot).st ≠ .active) ∧
        Posts 0x0801 1 (le 1 n ++ zeroBytes 3 ++ le 4 0) s u ∧
        u.counter 0x320003 = s.counter 0x320003 + 1 ∧
        u.ldg = s.ldg ∧ u.ing = s.ing ∧ u.otp = s.otp)) ∧
  (∀ (s : State) (n : Fin 64),
      (s.keySlot n).tomb = false →
      Stays (.invalidationCommit n) s) ∧
  (∀ (s : State) (n : Fin 64) (e : Nat),
      (s.keySlot n).epminNext = some e →
      (s.woad.durSlots.get {} n).epminNext = some e ∧ s.mackAwaited (64 + n) = false →
      Does (.epminCommit n) s (fun u =>
        u.keySlot n = { s.keySlot n with epmin := e, epminNext := none } ∧
        (∀ k, k ≠ n.val → u.keySlot k = s.keySlot k) ∧
        (∀ k op f, u.woad.queued.find k = some op → op.slot = n.val → op.epoch = some f → e ≤ f) ∧
        u.ldg = s.ldg ∧ u.ing = s.ing ∧ u.otp = s.otp)) ∧
  (∀ (s : State),
      s.woad.pending ≠ [] ∧ s.lake.ready = true ∧ s.woad.debugSub = false →
      s.clocked = true →
      Does (.keyTableDurable) s (fun u =>
        u.woad = { s.woad with durSlots := s.woad.slots, durBcast := s.woad.bcast, durCfloor := s.woad.cfloor, durHw := s.woad.hw, pending := [] } ∧
        (∀ d ∈ u.hp.cmds, d.waits ≠ some .keyTable) ∧
        u.ldg = s.ldg ∧ u.ing = s.ing ∧ u.lake = s.lake)) ∧
  (∀ (s : State),
      s.woad.pending = [] →
      Stays (.keyTableDurable) s) ∧
  (∀ (s : State) (e k till : Nat),
      s.woad.bcast.prev = some (e, k, till) →
      s.clocked = true →
      exec .broadcastPreviousExpire s = .next (if till ≤ s.nowS then { s with woad.bcast.prev := none } else s))

/-- Receipt (R368, R370, R371), discovery (R375, R377), software messages, barriers and snapshots (R381 to R383), rows (R350), remote frames (R379, R380), time transfer (R372). -/
def Obligations.CascadeMessages : Prop :=
  (∀ (s : State) (h : CHead) (m : Flit) (i : Instr) (n : Nat),
      (i, n) ∈ [(Instr.msg h m, 0x4), (Instr.bcast h m, 0x5), (Instr.topo h m, 0x2), (Instr.assign h m, 0x3), (Instr.barrier h m, 0x6), (Instr.snap h m, 0x7), (Instr.row h m, 0xA), (Instr.rframe h m, 0xB), (Instr.rdecide h m, 0xC), (Instr.mirror h m, 0xD), (Instr.mack h m, 0xE), (Instr.resync h m, 0xF), (Instr.tsync h m, 0x10), (Instr.partmap h m, 0x11), (Instr.lfetch h m, 0x12), (Instr.hello h m false, 1)] →
      flitType m = n →
      s.coresRun = true ∧ (s.cport h.port.val).st = 2 →
      (s.cport h.port.val).crcGood h = false →
      ((s.cport h.port.val).retrying = false ∨ h.lseq = (s.cport h.port.val).rxSeq) →
      exec i s = .next (sendWord h.port.val 2 0 (s.cport h.port.val).rxSeq.toNat 0 (count (kCasPort h.port.val 2) (updCport h.port.val (fun c => { c with retrying := true }) s)))) ∧
  (∀ (s : State) (h : CHead) (m : Flit) (i : Instr) (n : Nat),
      (i, n) ∈ [(Instr.msg h m, 0x4), (Instr.bcast h m, 0x5), (Instr.topo h m, 0x2), (Instr.assign h m, 0x3), (Instr.barrier h m, 0x6), (Instr.snap h m, 0x7), (Instr.row h m, 0xA), (Instr.rframe h m, 0xB), (Instr.rdecide h m, 0xC), (Instr.mirror h m, 0xD), (Instr.mack h m, 0xE), (Instr.resync h m, 0xF), (Instr.tsync h m, 0x10), (Instr.partmap h m, 0x11), (Instr.lfetch h m, 0x12), (Instr.hello h m false, 1)] →
      flitType m = n →
      (s.cport h.port.val).crcGood h = false ∧ (s.cport h.port.val).retrying = true ∧ h.lseq ≠ (s.cport h.port.val).rxSeq →
      exec i s = .next s) ∧
  (∀ (s : State) (h : CHead) (d : List Byte) (q : Nat),
      s.coresRun = true ∧ (s.cport h.port.val).st = 2 ∧ (s.cport h.port.val).crcGood h = true →
      h.dst < 0x40 ∧ h.dst ≠ s.cas.chipId →
      s.portTo h.dst = some q ∧ q ≠ h.port.val →
      exec (.msg h (.msg d)) s = .next (sendMsg q h.src h.dst h.mid (.msg d) (heard h (.msg d) s))) ∧
  (∀ (s : State) (h : CHead) (d : List Byte),
      s.coresRun = true ∧ (s.cport h.port.val).st = 2 ∧ (s.cport h.port.val).crcGood h = true →
      0x40 ≤ h.dst ∧ h.dst ≤ 0xFD →
      exec (.msg h (.msg d)) s = .next (count (kCasPort h.port.val 5) (heard h (.msg d) s))) ∧
  (∀ (s : State) (h : CHead) (n d k e : Nat),
      s.hears h (.topo n d) = true →
      (s.cport h.port.val).role = 3 ∧ (s.cport h.port.val).peerStby = false →
      s.cas.master = true ∧ s.cas.pair ≠ 3 ∧ s.cas.pair ≠ 4 →
      ((updCport h.port.val (fun c => { c with subtree := some (n, d) }) (heard h (.topo n d) s)).subtree = some (k, e)) →
      Does (.topo h (.topo n d)) s (fun u =>
        (u.cport h.port.val).subtree = some (n, d) ∧
        u.cas.chipId = 0 ∧ u.cas.depth = 0 ∧ u.cas.chips = min k 64 ∧ u.cas.sdepth = min e 4 ∧ u.cas.detached = false ∧
        Posts 0x0B05 1 (le 1 (min k 64) ++ le 1 0) s u ∧
        u.ldg = s.ldg ∧ u.ing = s.ing ∧ u.lake = s.lake ∧ u.woad = s.woad)) ∧
  (∀ (s : State) (h : CHead) (n d : Nat),
      s.hears h (.topo n d) = true →
      (s.cport h.port.val).role = 3 ∧ (s.cport h.port.val).peerStby = false →
      s.cas.master = false →
      Does (.topo h (.topo n d)) s (fun u =>
        (u.cport h.port.val).subtree = some (n, d) ∧
        (∀ k, k ≠ h.port.val → (u.cport k).subtree = (s.cport k).subtree) ∧
        u = { s with cas.ports := u.cas.ports, out := u.out, ctr := u.ctr, cas.nextMid := u.cas.nextMid })) ∧
  (∀ (s : State) (h : CHead) (id d n e : Nat),
      s.hears h (.assign id d n e) = true →
      (s.cport h.port.val).role = 1 →
      s.cas.master = false ∧ s.cas.pair ≠ 3 ∧ s.cas.pair ≠ 4 →
      Does (.assign h (.assign id d n e)) s (fun u =>
        u.cas.chipId = id ∧ u.cas.depth = d ∧ u.cas.chips = n ∧ u.cas.sdepth = e ∧ u.cas.detached = false ∧
        Posts 0x0B05 1 (le 1 n ++ le 1 d) s u ∧
        u.ldg = s.ldg ∧ u.ing = s.ing ∧ u.lake = s.lake ∧ u.woad = s.woad)) ∧
  (∀ (s : State) (h : CHead) (d : List Byte),
      s.hears h (.msg d) = true →
      s.casFull = false →
      Does (.msg h (.msg d)) s (fun u =>
        u.mcc.queues.get [] (evKey 7 0) = s.mcc.queues.get [] (evKey 7 0) ++ [({ seq := s.mcc.seqs.get 0 (evKey 7 0), ref := Word.of 0xFFFF, body := casBody h.src 0 d, rtag := rtagInternal } : Ev)] ∧
        (∀ k, k ≠ evKey 7 0 → u.mcc.queues.get [] k = s.mcc.queues.get [] k) ∧
        u = { s with cas.ports := u.cas.ports, out := u.out, ctr := u.ctr, mcc.queues := u.mcc.queues, mcc.seqs := u.mcc.seqs })) ∧
  (∀ (s : State) (h : CHead) (d : List Byte),
      s.hears h (.msg d) = true →
      s.casFull = true →
      Does (.msg h (.msg d)) s (fun u =>
        u.mcc.queues = s.mcc.queues ∧
        u.counter (kCas 16) = s.counter (kCas 16) + 1 ∧
        u = { s with cas.ports := u.cas.ports, out := u.out, ctr := u.ctr, mcc.ovf := u.mcc.ovf })) ∧
  (∀ (s : State) (h : CHead) (d : List Byte),
      s.hears h (.bcast 0 d) = true ∧ h.dst = 0xFF →
      s.casFull = false →
      Does (.bcast h (.bcast 0 d)) s (fun u =>
        u.mcc.queues.get [] (evKey 7 0) = s.mcc.queues.get [] (evKey 7 0) ++ [({ seq := s.mcc.seqs.get 0 (evKey 7 0), ref := Word.of 0xFFFF, body := casBody h.src 1 d, rtag := rtagInternal } : Ev)] ∧
        (∀ k, k ≠ evKey 7 0 → u.mcc.queues.get [] k = s.mcc.queues.get [] k) ∧
        u = { s with cas.ports := u.cas.ports, out := u.out, ctr := u.ctr, mcc.queues := u.mcc.queues, mcc.seqs := u.mcc.seqs })) ∧
  (∀ (s : State) (h : CHead) (d : List Byte),
      s.hears h (.bcast 0 d) = true ∧ h.dst = 0xFE →
      s.casFull = false →
      Does (.bcast h (.bcast 0 d)) s (fun u =>
        u.mcc.queues.get [] (evKey 7 0) = s.mcc.queues.get [] (evKey 7 0) ++ [({ seq := s.mcc.seqs.get 0 (evKey 7 0), ref := Word.of 0xFFFF, body := casBody h.src 1 d, rtag := rtagInternal } : Ev)] ∧
        (∀ k, k ≠ evKey 7 0 → u.mcc.queues.get [] k = s.mcc.queues.get [] k) ∧
        u.counter (kCas 14) = s.counter (kCas 14) + 1 ∧
        u = { s with cas.ports := u.cas.ports, out := u.out, ctr := u.ctr, mcc.queues := u.mcc.queues, mcc.seqs := u.mcc.seqs })) ∧
  (∀ (s : State) (h : CHead),
      s.hears h (.bcast 1 []) = true ∧ h.dst = 0xFF →
      Does (.bcast h (.bcast 1 [])) s (fun u =>
        u.cpm.resetDue = some 3 ∧
        u = { s with cas.ports := u.cas.ports, out := u.out, ctr := u.ctr, cpm.resetDue := u.cpm.resetDue })) ∧
  (∀ (s : State) (h : CHead) (bid first tmo : Nat) (x : Barrier),
      s.hears { h with dst := s.cas.chipId } (.barrierArrive bid first tmo) = true →
      s.barrier bid = some x ∧ x.own = false →
      Does (.barrier h (.barrierArrive bid first tmo)) s (fun u =>
        u.barrier bid = some { x with ports := h.port.val :: x.ports.filter (· != h.port.val), first := min x.first first, tmo := min x.tmo tmo } ∧
        (∀ k, k ≠ bid → u.barrier k = s.barrier k) ∧
        u = { s with cas.ports := u.cas.ports, out := u.out, ctr := u.ctr, cas.barriers := u.cas.barriers })) ∧
  (∀ (s : State) (h : CHead) (bid first tmo : Nat) (x : Barrier),
      s.hears { h with dst := s.cas.chipId } (.barrierArrive bid first tmo) = true →
      s.barrier bid = some x ∧ x.own = true →
      (s.cas.master = true ∧ (s.children.map (·.1)).all (fun q => q == h.port.val || x.ports.contains q) = true) →
      Does (.barrier h (.barrierArrive bid first tmo)) s (fun u =>
        u.barrier bid = none ∧
        (∀ k, k ≠ bid → u.barrier k = s.barrier k) ∧
        u.counter (kCas 15) = s.counter (kCas 15) ∧
        (∀ d ∈ u.hp.cmds, d.waits ≠ some (.barrier bid)) ∧
        u.ldg = s.ldg ∧ u.ing = s.ing ∧ u.lake = s.lake ∧ u.woad = s.woad)) ∧
  (∀ (s : State) (h : CHead) (bid : Nat) (ok : Bool),
      s.hears h (.barrierRelease bid ok) = true ∧ h.dst = 0xFF →
      (s.barrier bid).isSome = true →
      Does (.barrier h (.barrierRelease bid ok)) s (fun u =>
        u.barrier bid = none ∧
        (∀ k, k ≠ bid → u.barrier k = s.barrier k) ∧
        (u.counter (kCas 15) = s.counter (kCas 15) + (if ok then 0 else 1)) ∧
        (∀ d ∈ u.hp.cmds, d.waits ≠ some (.barrier bid)) ∧
        u.ldg = s.ldg ∧ u.ing = s.ing ∧ u.lake = s.lake ∧ u.woad = s.woad)) ∧
  (∀ (s : State) (bid : Fin 256) (x : Barrier),
      s.barrier bid = some x →
      x.first + x.tmo * 1000 ≤ s.nowNs ∧ s.coresRun = true →
      Does (.barrierTimeout bid) s (fun u =>
        u.barrier bid = none ∧
        (∀ k, k ≠ bid.val → u.barrier k = s.barrier k) ∧
        u.counter (kCas 15) = s.counter (kCas 15) + 1 ∧
        (∀ d ∈ u.hp.cmds, d.waits ≠ some (.barrier bid)) ∧
        u.ldg = s.ldg ∧ u.ing = s.ing ∧ u.lake = s.lake ∧ u.woad = s.woad)) ∧
  (∀ (s : State) (bid : Fin 256) (x : Barrier),
      s.barrier bid = some x →
      s.nowNs < x.first + x.tmo * 1000 →
      Stays (.barrierTimeout bid) s) ∧
  (∀ (s : State) (h : CHead) (no a : Nat) (l : List Nat),
      s.hears h (.snap no) = true →
      s.cas.snapDue = some (no, a, l) →
      Does (.snap h (.snap no)) s (fun u =>
        (u.cas.snapDue = (if (l.filter (· != h.src)).isEmpty then none else some (no, a, l.filter (· != h.src)))) ∧
        u.cas.chips = s.cas.chips ∧ u.cas.snapNo = s.cas.snapNo ∧
        u.ldg = s.ldg ∧ u.ing = s.ing ∧ u.lake = s.lake ∧ u.woad = s.woad)) ∧
  (∀ (s : State),
      (s.row 10).action = 6 ∧ (s.row 10).at_ ≤ s.nowNs →
      s.coresRun = true ∧ s.tmu.valid = true →
      s.cas.pair = 0 ∧ s.cas.master = false →
      Does (.stackSnapshot) s (fun u =>
        u.glb.snapSeq = s.glb.snapSeq + 1 ∧
        (∀ j, j ≠ kTmu 6 → j ≠ kTmu 8 → u.cap.get 0 j = s.counter j) ∧
        u.cas.snapNo = BitVec.ofNat 16 (s.row 10).arg ∧ u.cas.snapLsn = BitVec.ofNat 32 s.lake.lsnHead ∧
        (u.cas.snapBseq = BitVec.ofNat 64 (match s.lastDurable with | some x => x.bseq | none => 0)) ∧
        u.row 10 = (s.row 10).after 1 ∧
        u.ldg = s.ldg ∧ u.ing = s.ing ∧ u.lake = s.lake ∧ u.woad = s.woad)) ∧
  (∀ (s : State),
      (s.row 10).action = 6 ∧ (s.row 10).at_ ≤ s.nowNs →
      s.coresRun = true ∧ s.tmu.valid = false →
      s.cas.pair = 0 →
      Does (.stackSnapshot) s (fun u =>
        u.row 10 = (s.row 10).after 1 ∧
        u.counter (kTmu 7) = s.counter (kTmu 7) + 1 ∧
        u = { s with tmu.rows := u.tmu.rows, ctr := u.ctr })) ∧
  (∀ (s : State) (n a : Nat) (l : List Nat),
      s.cas.snapDue = some (n, a, l) →
      a + 5000000 ≤ s.nowNs →
      s.coresRun = true →
      Does (.snapshotTimeout) s (fun u =>
        u.cas = { s.cas with snapDue := none } ∧
        (∀ d ∈ u.hp.cmds, d.waits ≠ some .snapshot) ∧
        u = { s with cas := u.cas, mcc.threads := u.mcc.threads, hp.cmds := u.hp.cmds, hp.regs := u.hp.regs })) ∧
  (∀ (s : State) (n a : Nat) (l : List Nat),
      s.cas.snapDue = some (n, a, l) →
      s.nowNs < a + 5000000 →
      Stays (.snapshotTimeout) s) ∧
  (∀ (s : State) (h : CHead) (i w : Nat) (r : Row),
      s.hears h (.row i r w) = true ∧ h.dst = 0xFF →
      i ≠ 9 ∧ s.cas.pair = 0 →
      Does (.row h (.row i r w)) s (fun u =>
        u.row i = r ∧
        (∀ k, k ≠ i → u.row k = s.row k) ∧
        u = { s with cas.ports := u.cas.ports, out := u.out, ctr := u.ctr, cas.nextMid := u.cas.nextMid, tmu.rows := u.tmu.rows })) ∧
  (∀ (s : State) (h : CHead) (i chip a : Nat) (l : List Nat),
      s.hears h (.rowOk i chip) = true →
      (firstWhere (fun (a : Nat × List Nat × Nat) => a.1 == i) s.tmu.awaiting = some (i, l, a)) →
      Does (.row h (.rowOk i chip)) s (fun u =>
        (u.tmu.awaiting = (if (l.filter (· != chip)).isEmpty then s.tmu.awaiting.filter (fun x => x.1 != i) else (i, l.filter (· != chip), a) :: s.tmu.awaiting.filter (fun x => x.1 != i))) ∧
        u.tmu.rows = s.tmu.rows ∧ u.ldg = s.ldg ∧ u.ing = s.ing ∧ u.lake = s.lake ∧ u.woad = s.woad)) ∧
  (∀ (s : State) (idx : Fin 512) (a : Nat) (l : List Nat),
      (firstWhere (fun (a : Nat × List Nat × Nat) => a.1 == idx.val) s.tmu.awaiting = some (idx.val, l, a)) →
      a + 5000000 ≤ s.nowNs →
      s.clocked = true →
      Does (.rowConfirmTimeout idx) s (fun u =>
        (u.tmu.awaiting = s.tmu.awaiting.filter (fun x => x.1 != idx.val)) ∧
        (∀ d ∈ u.hp.cmds, d.waits ≠ some (.row idx)) ∧
        u = { s with tmu.awaiting := u.tmu.awaiting, mcc.threads := u.mcc.threads, hp.cmds := u.hp.cmds, hp.regs := u.hp.regs })) ∧
  (∀ (s : State) (idx : Fin 512) (a : Nat) (l : List Nat),
      (firstWhere (fun (a : Nat × List Nat × Nat) => a.1 == idx.val) s.tmu.awaiting = some (idx.val, l, a)) →
      s.nowNs < a + 5000000 →
      Stays (.rowConfirmTimeout idx) s) ∧
  (∀ (s : State) (h : CHead) (src fe lsa q : Nat) (dr : Bool) (f : List Byte) (v : State),
      s.hears h (.rframe src fe dr lsa f) = true →
      heard h (.rframe src fe dr lsa f) s = v →
      v.ownerChip (frMa f) ≠ s.cas.chipId →
      s.portTo h.src = some q →
      exec (.rframe h (.rframe src fe dr lsa f)) s = .next (sendMsg q s.cas.chipId h.src h.mid (.rdecide h.mid 3 none) v)) ∧
  (∀ (s : State) (h : CHead) (src fe lsa : Nat) (dr : Bool) (f : List Byte) (v : State),
      s.hears h (.rframe src fe dr lsa f) = true →
      heard h (.rframe src fe dr lsa f) s = v →
      v.ownerChip (frMa f) = s.cas.chipId →
      let j := judgeFrame f true true src fe (if src < 256 then none else some (dr, src - 256, lsa)) (v.latch (frMa f) (frKepoch f)) false v;
          let d := stageRemote h.src v j.st;
          let w := match j.ack with
            | some o => if src < 256 ∧ o.wake then wakeNamed (frMa f) (fe + 50000000 + airNs o.rate (48 + 8 * o.frame.length)) d else d
            | none => d;
          exec (.rframe h (.rframe src fe dr lsa f)) s = .next (match w.portTo h.src with
            | some q => sendMsg q w.cas.chipId h.src h.mid (.rdecide h.mid j.code (j.ack.map fun o => (o.rate, o.dup, o.frame))) (count 0x35100B w)
            | none => count 0x35100B w)) ∧
  (∀ (s : State) (h : CHead) (mid code : Nat) (a : Option (Nat × Bool × List Byte)),
      s.hears h (.rdecide mid code a) = true →
      (∀ r ∈ s.cas.remotes, r.mid ≠ mid) →
      exec (.rdecide h (.rdecide mid code a)) s = .next (count 0x35100C (heard h (.rdecide mid code a) s))) ∧
  (∀ (s : State) (h : CHead) (mid code : Nat) (r : Remote),
      s.hears h (.rdecide mid code none) = true →
      (firstWhere (fun (r : Remote) => r.mid == mid) s.cas.remotes = some r) →
      r.src < 256 ∧ code < 64 →
      Does (.rdecide h (.rdecide mid code none)) s (fun u =>
        (u.cas.remotes = s.cas.remotes.filter (fun x => x.mid != mid)) ∧
        u.counter (kIngCode r.src code) = s.counter (kIngCode r.src code) + 1 ∧
        u = { s with cas.ports := u.cas.ports, out := u.out, ctr := u.ctr, cas.remotes := u.cas.remotes })) ∧
  (∀ (s : State) (h : CHead) (mid code rate : Nat) (dup : Bool) (f : List Byte) (r : Remote),
      s.hears h (.rdecide mid code (some (rate, dup, f))) = true →
      (firstWhere (fun (r : Remote) => r.mid == mid) s.cas.remotes = some r) →
      r.src < 256 ∧ code < 64 →
      s.nowNs + (s.rport (r.src / 64)).desc.txPath ≤ r.frameEnd + 50000000 →
      Does (.rdecide h (.rdecide mid code (some (rate, dup, f)))) s (fun u =>
        (∃ a ∈ u.rla.acks.get [] r.src, a.at_ = r.frameEnd + 50000000 ∧ a.rate = rate ∧ a.dup = dup ∧ a.frame = f) ∧
        (∀ k, k ≠ r.src → u.rla.acks.get [] k = s.rla.acks.get [] k) ∧
        (u.cas.remotes = s.cas.remotes.filter (fun x => x.mid != mid)) ∧
        u = { s with cas.ports := u.cas.ports, out := u.out, ctr := u.ctr, cas.remotes := u.cas.remotes, rla.acks := u.rla.acks })) ∧
  (∀ (s : State) (mid : BitVec 16) (r : Remote),
      (firstWhere (fun (r : Remote) => r.mid == mid.toNat) s.cas.remotes = some r) →
      r.frameEnd + 30000000 ≤ s.nowNs →
      s.coresRun = true →
      Does (.remoteDecisionExpire mid) s (fun u =>
        (u.cas.remotes = s.cas.remotes.filter (fun x => x.mid != mid.toNat)) ∧
        u.counter 0x35100C = s.counter 0x35100C + 1 ∧
        u = { s with cas.remotes := u.cas.remotes, ctr := u.ctr })) ∧
  (∀ (s : State) (mid : BitVec 16) (r : Remote),
      (firstWhere (fun (r : Remote) => r.mid == mid.toNat) s.cas.remotes = some r) →
      s.nowNs < r.frameEnd + 30000000 →
      Stays (.remoteDecisionExpire mid) s) ∧
  (∀ (s : State) (h : CHead) (l : List Nat),
      s.hears h (.partmap l) = true ∧ h.dst = 0xFF →
      s.cas.pair = 0 →
      Does (.partmap h (.partmap l)) s (fun u =>
        u.cas.partMap = some l ∧
        u = { s with cas.ports := u.cas.ports, out := u.out, ctr := u.ctr, cas.partMap := u.cas.partMap })) ∧
  (∀ (s : State) (h : CHead) (mh : Nat),
      s.hears h (.lfetch mh) = true →
      exec (.lfetch h (.lfetch mh)) s = .next (sendOn h.port.val h.src (.lfetched mh (match s.ldg.dur.meters.find mh with | some y => if y.corrupt then none else some y | none => none)) (heard h (.lfetch mh) s))) ∧
  (∀ (s : State) (h : CHead) (mh : Nat) (x : Meter),
      s.hears h (.lfetched mh (some x)) = true →
      Does (.lfetch h (.lfetched mh (some x))) s (fun u =>
        ((s.ldg.live.meters.get {} mh).corrupt = true → u.ldg.live.meters.get {} mh = { x with corrupt := false }) ∧
        ((s.ldg.live.meters.get {} mh).corrupt = false → u.ldg.live.meters.get {} mh = { s.ldg.live.meters.get {} mh with closed := if (s.ldg.live.meters.get {} mh).closed.length < x.closed.length then x.closed else (s.ldg.live.meters.get {} mh).closed }) ∧
        (∀ k, k ≠ mh → u.ldg.live.meters.get {} k = s.ldg.live.meters.get {} k ∧ u.ldg.dur.meters.get {} k = s.ldg.dur.meters.get {} k) ∧
        u = { s with cas.ports := u.cas.ports, out := u.out, ctr := u.ctr, ldg.live.meters := u.ldg.live.meters, ldg.dur.meters := u.ldg.dur.meters })) ∧
  (∀ (s : State) (port : Fin 4),
      (s.cport port).role ∈ [1, 2] ∧ (s.cport port).st = 2 ∧ s.coresRun = true →
      (∀ a, (s.cport port).tsyncAt = some a → a + 16000000 ≤ s.nowNs) →
      (s.cport port).txq = [] ∧ (s.cport port).cur = none ∧ 0 < (s.cport port).credit.get 0 0 →
      Does (.tsyncStart port) s (fun u =>
        (u.cport port).tsyncT1 = some s.nowNs ∧ (u.cport port).tsyncAt = some s.nowNs ∧
        u.out = .cas port s.cas.chipId 0xFE s.cas.nextMid (.tsync 1 0 0) :: s.out ∧
        (∀ k, k ≠ port.val → u.cport k = s.cport k) ∧
        u = { s with cas.ports := u.cas.ports, out := u.out, ctr := u.ctr, cas.nextMid := u.cas.nextMid })) ∧
  (∀ (s : State) (port : Fin 4) (a : Nat),
      (s.cport port).tsyncAt = some a ∧ s.nowNs < a + 16000000 →
      Stays (.tsyncStart port) s) ∧
  (∀ (s : State) (port : Fin 4),
      ((s.cport port).role ∉ [1, 2] ∨ (s.cport port).st ≠ 2) →
      Stays (.tsyncStart port) s) ∧
  (∀ (s : State) (h : CHead) (a b : Nat),
      s.hears h (.tsync 1 a b) = true →
      (s.cport h.port.val).role = 3 →
      exec (.tsync h (.tsync 1 a b)) s = .next (sendOn h.port.val h.src (.tsync 2 s.nowNs s.nowNs) (heard h (.tsync 1 a b) s))) ∧
  (∀ (s : State) (h : CHead) (a b t1 : Nat),
      s.hears h (.tsync 2 a b) = true →
      (s.cport h.port.val).tsyncT1 = some t1 →
      ((s.cport h.port.val).role ≠ 1 ∨ s.tmu.sel.kind ≠ 3) →
      Does (.tsync h (.tsync 2 a b)) s (fun u =>
        (u.cport h.port.val).tsyncT1 = none ∧ (u.cport h.port.val).delays = ((s.nowNs - t1 - (b - a)) / 2 :: (s.cport h.port.val).delays).take 8 ∧
        (∀ k, k ≠ h.port.val → u.cport k = s.cport k) ∧
        u = { s with cas.ports := u.cas.ports, out := u.out, ctr := u.ctr })) ∧
  (∀ (s : State) (h : CHead) (a b t1 : Nat),
      s.hears h (.tsync 2 a b) = true →
      (s.cport h.port.val).tsyncT1 = some t1 ∧ (s.cport h.port.val).delays = [] ∧ a ≤ b ∧ t1 ≤ s.nowNs ∧ (s.cport h.port.val).role = 1 →
      s.tmu.sel.kind = 3 ∧ s.glb.clkSrc = false ∧ s.tmu.st ≠ .locked →
      b + (s.nowNs - t1 - (b - a)) / 2 ≤ s.nowNs ∧ s.nowNs ≤ b + 1000000000 →
      Does (.tsync h (.tsync 2 a b)) s (fun u =>
        (u.cport h.port.val).tsyncT1 = none ∧ u.tmu.offset = (b : Int) + ((s.nowNs - t1 - (b - a)) / 2 : Nat) - s.nowNs ∧ u.tmu.lastSample = some s.nowNs ∧ u.tmu.source = 3 ∧
        u.nowNs = s.nowNs)) ∧
  (∀ (s : State) (port : Fin 4) (seq crc : BitVec 16),
      s.coresRun = true ∧ (s.cport port).st = 2 →
      wordOk 1 0 seq.toNat 0 crc = true →
      Does (.linkAck port seq crc) s (fun u =>
        (u.cport port = { s.cport port with unacked := (s.cport port).unacked.filter (fun m => !m.ackedBy seq.toNat), retries := 0 }) ∧
        (∀ k, k ≠ port.val → u.cport k = s.cport k) ∧
        u = { s with cas.ports := u.cas.ports })) ∧
  (∀ (s : State) (port : Fin 4) (seq crc : BitVec 16) (i : Instr) (k a n : Nat),
      s.coresRun = true ∧ (s.cport port).st = 2 →
      (i, k, a, n) ∈ [(Instr.linkAck port seq crc, 1, 0, 0), (Instr.linkRetry port seq crc, 2, 0, 0), (Instr.linkCredit port 2 9 crc, 3, 2, 9)] →
      (wordOk k a (if k = 3 then 0 else seq.toNat) n crc = false) →
      exec i s = .next (count (kCasPort port 4) s)) ∧
  (∀ (s : State) (port : Fin 4) (seq crc : BitVec 16) (n : Nat),
      s.coresRun = true ∧ (s.cport port).st = 2 ∧ wordOk 2 0 seq.toNat 0 crc = true →
      ((if (s.cport port).retrySeq = seq.toNat then (s.cport port).retries + 1 else 1) = n) →
      n ≤ 16 →
      Does (.linkRetry port seq crc) s (fun u =>
        u.cport port = { s.cport port with retries := n, retrySeq := seq.toNat } ∧
        (∀ m ∈ (s.cport port).unacked, m.ackedBy ((seq.toNat + 65535) % 65536) = false → .cas port m.src m.dst m.mid m.m ∈ u.out) ∧
        u.counter (kCasPort port 3) = s.counter (kCasPort port 3) + ((s.cport port).txSeq - seq).setWidth 64 ∧
        (∀ k, k ≠ port.val → u.cport k = s.cport k) ∧
        u = { s with cas.ports := u.cas.ports, out := u.out, ctr := u.ctr })) ∧
  (∀ (s : State) (port : Fin 4) (seq crc : BitVec 16),
      s.coresRun = true ∧ (s.cport port).st = 2 ∧ wordOk 2 0 seq.toNat 0 crc = true →
      (s.cport port).retrySeq = seq.toNat ∧ 16 ≤ (s.cport port).retries →
      (s.cas.master = false ∨ s.cas.pair = 3) →
      Does (.linkRetry port seq crc) s (fun u =>
        (u.cport port).st = 4 ∧ (u.cport port).failedAt = s.nowNs ∧ (u.cport port).unacked = [] ∧
        Posts 0x0B01 0 (le 1 port) s u ∧
        u.ldg = s.ldg ∧ u.ing = s.ing ∧ u.lake = s.lake ∧ u.woad = s.woad)) ∧
  (∀ (s : State) (port : Fin 4) (cls : Fin 4) (n crc : BitVec 16),
      s.coresRun = true ∧ (s.cport port).st = 2 ∧ wordOk 3 cls.val 0 n.toNat crc = true →
      (s.cport port).txq = [] ∧ (s.cport port).cur = none →
      Does (.linkCredit port cls n crc) s (fun u =>
        (u.cport port).credit.get 0 cls = min 32 ((s.cport port).credit.get 0 cls + n.toNat) ∧
        (∀ k, k ≠ cls.val → (u.cport port).credit.get 0 k = (s.cport port).credit.get 0 k) ∧
        u.cport port = { s.cport port with credit := (u.cport port).credit } ∧
        (∀ k, k ≠ port.val → u.cport k = s.cport k) ∧
        u = { s with cas.ports := u.cas.ports })) ∧
  (∀ (s : State) (port : Fin 4) (cls : Fin 4) (n crc : BitVec 16),
      s.coresRun = true ∧ (s.cport port).st = 2 ∧ wordOk 3 cls.val 0 n.toNat crc = true →
      Does (.linkCredit port cls n crc) s (fun u =>
        (∀ k, k ≠ port.val → u.cport k = s.cport k) ∧
        u = { s with cas.ports := u.cas.ports, out := u.out, ctr := u.ctr })) ∧
  (∀ (s : State) (port : Fin 4),
      (s.cport port).st = 4 ∧ (s.cport port).role ≠ 0 ∧ (s.cport port).failedAt + 100000000 ≤ s.nowNs ∧ s.coresRun = true →
      Does (.casLinkRetrain port) s (fun u =>
        (u.cport port).st = 1 ∧ (u.cport port).role = (s.cport port).role ∧ (u.cport port).failedAt = s.nowNs ∧
        u.out = .cas port s.cas.chipId 0xFE s.cas.nextMid (s.helloOn port) :: s.out ∧
        (∀ k, k ≠ port.val → u.cport k = s.cport k) ∧
        u = { s with cas.ports := u.cas.ports, out := u.out, ctr := u.ctr, cas.nextMid := u.cas.nextMid })) ∧
  (∀ (s : State) (port : Fin 4),
      ((s.cport port).st ≠ 4 ∨ s.nowNs < (s.cport port).failedAt + 100000000) →
      Stays (.casLinkRetrain port) s) ∧
  (∀ (s : State) (port : Fin 4),
      (((s.cport port).st = 2 ∨ (s.cport port).st = 3) ∧ (s.cport port).role ≠ 0 ∧ s.coresRun = true) →
      (s.cas.master = false ∨ s.cas.pair = 3) →
      Does (.cascadeLinkDown port) s (fun u =>
        (u.cport port).st = 1 ∧ (u.cport port).role = (s.cport port).role ∧ (u.cport port).failedAt = s.nowNs ∧
        (∃ mid, .cas port s.cas.chipId 0xFE mid (s.helloOn port) ∈ u.out) ∧
        u = { s with cas.ports := u.cas.ports, out := u.out, ctr := u.ctr, cas.nextMid := u.cas.nextMid })) ∧
  (∀ (s : State) (port : Fin 4),
      (s.cport port).st ≠ 2 ∧ (s.cport port).st ≠ 3 →
      Stays (.cascadeLinkDown port) s) ∧
  (∀ (s : State) (p : Nat × CPort),
      s.cas.master = false ∧ s.cas.detached = false ∧ s.upPort = none ∧ s.coresRun = true →
      s.cas.pair ≠ 3 ∧ s.cas.pair ≠ 4 →
      (firstWhere (fun (x : Nat × CPort) => x.2.role == 1) s.cas.ports = some p) →
      Does (.peerLost) s (fun u =>
        u.cas = { s.cas with detached := true } ∧
        Posts 0x0B03 0 (le 1 p.1) s u ∧
        u = { s with cas := u.cas, hp := u.hp, glb := u.glb, ctr := u.ctr })) ∧
  (∀ (s : State),
      (s.cas.master = true ∨ s.cas.detached = true ∨ s.upPort.isSome = true) →
      Stays (.peerLost) s)

/-- HELLO and unit states (R374, R393, R394, R407), mirroring (R385, R386), heartbeats and FAIL (R387, R388), switch-over (R390), held outputs (R391), handover (R389, R396), the calls of Table 14-6 (R373, R378, R381 to R383). -/
def Obligations.CascadePairs : Prop :=
  (∀ (s : State) (h : CHead) (sr ow pr pf ps id : Nat) (bd : List Byte) (longer : Bool),
      s.coresRun = true ∧ (s.cport h.port.val).crcGood h = true ∧ ¬ (0x40 ≤ h.dst ∧ h.dst ≤ 0xFD) →
      ((s.cport h.port.val).st = 1 ∨ (s.cport h.port.val).st = 3) →
      s.helloFits (s.cport h.port.val).role ow pr pf bd = false →
      Does (.hello h (.hello sr ow pr pf ps id bd) longer) s (fun u =>
        (u.cport h.port.val).st = 3 ∧ (u.cport h.port.val).role = (s.cport h.port.val).role ∧
        u.counter (kCas 20) = s.counter (kCas 20) + 1 ∧
        u = { s with cas.ports := u.cas.ports, out := u.out, ctr := u.ctr })) ∧
  (∀ (s : State) (h : CHead) (sr ow pr pf ps id : Nat) (bd : List Byte) (longer : Bool),
      s.coresRun = true ∧ (s.cport h.port.val).crcGood h = true ∧ ¬ (0x40 ≤ h.dst ∧ h.dst ≤ 0xFD) →
      ((s.cport h.port.val).st = 1 ∨ (s.cport h.port.val).st = 3) →
      s.helloFits (s.cport h.port.val).role ow pr pf bd = true →
      (s.cport h.port.val).role ≠ 4 ∧ s.cas.master = false →
      Does (.hello h (.hello sr ow pr pf ps id bd) longer) s (fun u =>
        (let x := u.cport h.port.val
         x.st = 2 ∧ x.peerId = id ∧ x.peerState = ps ∧ x.peerStby = decide (ps = 3 ∨ ps = 4) ∧ x.peerBuild = bd) ∧
        u = { s with cas.ports := u.cas.ports, out := u.out, ctr := u.ctr, cas.nextMid := u.cas.nextMid })) ∧
  (∀ (s : State) (h : CHead) (sr ow pr pf ps id : Nat) (bd : List Byte) (longer : Bool),
      s.coresRun = true ∧ (s.cport h.port.val).crcGood h = true ∧ ¬ (0x40 ≤ h.dst ∧ h.dst ≤ 0xFD) →
      (s.cport h.port.val).role = 4 ∧ (s.cport h.port.val).st = 2 →
      s.helloFits (s.cport h.port.val).role ow pr pf bd = true →
      s.cas.pair = 0 ∧ s.cas.paired = true ∧ s.cas.twinRestart = none →
      s.cas.primary = true ∧ ps = 0 →
      s.glb.mode = .service →
      Does (.hello h (.hello sr ow pr pf ps id bd) longer) s (fun u =>
        u.cas.pair = 2 ∧ u.cas.activeSince = s.nowNs ∧ u.cas.phase = 0 ∧
        (u.glb.mode = s.glb.mode ∧ u.cpm = s.cpm ∧ u.ing = s.ing ∧ (s.lake.fetch = [] → u.lake = s.lake) ∧ u.woad = s.woad))) ∧
  (∀ (s : State) (h : CHead) (sr ow pr pf ps id : Nat) (bd : List Byte) (longer : Bool),
      s.coresRun = true ∧ (s.cport h.port.val).crcGood h = true ∧ ¬ (0x40 ≤ h.dst ∧ h.dst ≤ 0xFD) →
      (s.cport h.port.val).role = 4 ∧ (s.cport h.port.val).st = 2 →
      s.helloFits (s.cport h.port.val).role ow pr pf bd = true →
      s.cas.pair = 0 ∧ s.cas.paired = true ∧ s.cas.twinRestart = none →
      (s.cas.primary = false ∨ ps = 1 ∨ ps = 2) →
      Does (.hello h (.hello sr ow pr pf ps id bd) longer) s (fun u =>
        u.cas.pair = 4 ∧ u.cas.phase = 1 ∧ u.cas.pct = 0 ∧
        (u.glb.mode = s.glb.mode ∧ u.cpm = s.cpm ∧ u.ing = s.ing ∧ (s.lake.fetch = [] → u.lake = s.lake) ∧ u.woad = s.woad))) ∧
  (∀ (s : State) (h : CHead) (sr ow pr pf ps id : Nat) (bd : List Byte) (longer : Bool),
      s.coresRun = true ∧ (s.cport h.port.val).crcGood h = true ∧ ¬ (0x40 ≤ h.dst ∧ h.dst ≤ 0xFD) →
      (s.cport h.port.val).role = 4 ∧ (s.cport h.port.val).st = 2 →
      s.helloFits (s.cport h.port.val).role ow pr pf bd = true →
      (s.cas.pair = 1 ∨ s.cas.pair = 2) →
      ps = 4 →
      Does (.hello h (.hello sr ow pr pf ps id bd) longer) s (fun u =>
        u.cas.pair = 2 ∧ u.cas.phase = 4 ∧ u.cas.resyncAt = s.nowNs ∧ u.cas.mirOut = [] ∧
        (u.glb.mode = s.glb.mode ∧ u.cpm = s.cpm ∧ u.ing = s.ing ∧ (s.lake.fetch = [] → u.lake = s.lake) ∧ u.woad = s.woad))) ∧
  (∀ (s : State) (h : CHead) (sr ow pr pf ps id : Nat) (bd : List Byte) (longer : Bool),
      s.coresRun = true ∧ (s.cport h.port.val).crcGood h = true ∧ ¬ (0x40 ≤ h.dst ∧ h.dst ≤ 0xFD) →
      (s.cport h.port.val).role = 4 ∧ (s.cport h.port.val).st = 2 →
      s.helloFits (s.cport h.port.val).role ow pr pf bd = true →
      (s.cas.pair = 1 ∨ s.cas.pair = 2) →
      ((ps = 1 ∨ ps = 2) ∧ longer = true) →
      Does (.hello h (.hello sr ow pr pf ps id bd) longer) s (fun u =>
        u.cpm = { s.cpm with resetDue := some 3 } ∧
        u.cas.pair = s.cas.pair ∧ u.glb = s.glb ∧ u.ing = s.ing ∧ u.ldg = s.ldg ∧ u.woad = s.woad)) ∧
  (∀ (s : State) (h : CHead) (sr ow pr pf ps id : Nat) (bd : List Byte) (longer : Bool),
      s.coresRun = true ∧ (s.cport h.port.val).crcGood h = true ∧ ¬ (0x40 ≤ h.dst ∧ h.dst ≤ 0xFD) →
      (s.cport h.port.val).role = 4 ∧ (s.cport h.port.val).st = 2 →
      s.helloFits (s.cport h.port.val).role ow pr pf bd = true →
      (s.cas.pair = 1 ∨ s.cas.pair = 2) →
      (ps ≠ 4 ∧ (longer = false ∨ ps = 0 ∨ ps = 3)) →
      Does (.hello h (.hello sr ow pr pf ps id bd) longer) s (fun u =>
        u = { s with cas.ports := u.cas.ports, out := u.out, ctr := u.ctr })) ∧
  (∀ (s : State) (h : CHead) (sr ow pr pf ps id : Nat) (bd : List Byte) (longer : Bool),
      s.coresRun = true ∧ (s.cport h.port.val).crcGood h = true ∧ ¬ (0x40 ≤ h.dst ∧ h.dst ≤ 0xFD) →
      (s.cport h.port.val).role = 4 ∧ (s.cport h.port.val).st = 2 →
      s.helloFits (s.cport h.port.val).role ow pr pf bd = true →
      s.cas.pair = 3 ∧ s.cas.failed = false ∧ ps = 2 →
      Does (.hello h (.hello sr ow pr pf ps id bd) longer) s (fun u =>
        u.cas.pair = 4 ∧ u.cas.phase = 1 ∧ u.cas.pct = 0 ∧ u.cas.chipId = id ∧
        (u.glb.mode = s.glb.mode ∧ u.cpm = s.cpm ∧ u.ing = s.ing ∧ (s.lake.fetch = [] → u.lake = s.lake) ∧ u.woad = s.woad))) ∧
  (∀ (s : State) (h : CHead) (n : Nat) (i w : Nat) (x : Row),
      s.hears h (.mirror n (.row i x w)) = true →
      ((s.cas.pair = 3 ∨ s.cas.pair = 4) ∧ s.cas.mirSeq ≤ n) →
      i ≠ 9 →
      Does (.mirror h (.mirror n (.row i x w))) s (fun u =>
        u.row i = x ∧
        (∀ k, k ≠ i → u.row k = s.row k) ∧
        u.cas.mirSeq = n + 1 ∧
        u = { s with cas.ports := u.cas.ports, out := u.out, ctr := u.ctr, cas.nextMid := u.cas.nextMid, cas.mirSeq := u.cas.mirSeq, tmu.rows := u.tmu.rows })) ∧
  (∀ (s : State) (h : CHead) (n : Nat) (mh : Nat) (e : DirEntry),
      s.hears h (.mirror n (.dir mh e)) = true →
      ((s.cas.pair = 3 ∨ s.cas.pair = 4) ∧ s.cas.mirSeq ≤ n) →
      Does (.mirror h (.mirror n (.dir mh e))) s (fun u =>
        u.ing.dir.get {} mh = e ∧
        (∀ k, k ≠ mh → u.ing.dir.get {} k = s.ing.dir.get {} k) ∧
        u.cas.mirSeq = n + 1 ∧
        u = { s with cas.ports := u.cas.ports, out := u.out, ctr := u.ctr, cas.nextMid := u.cas.nextMid, cas.mirSeq := u.cas.mirSeq, ing.dir := u.ing.dir })) ∧
  (∀ (s : State) (h : CHead) (n : Nat) (i : Nat) (d : List Byte),
      s.hears h (.mirror n (.slot i (some d))) = true →
      ((s.cas.pair = 3 ∨ s.cas.pair = 4) ∧ s.cas.mirSeq ≤ n) →
      Does (.mirror h (.mirror n (.slot i (some d)))) s (fun u =>
        u.ing.cmdSlots.find i = some d ∧
        (∀ k, k ≠ i → u.ing.cmdSlots.find k = s.ing.cmdSlots.find k) ∧
        u.cas.mirSeq = n + 1 ∧
        u = { s with cas.ports := u.cas.ports, out := u.out, ctr := u.ctr, cas.nextMid := u.cas.nextMid, cas.mirSeq := u.cas.mirSeq, ing.cmdSlots := u.ing.cmdSlots })) ∧
  (∀ (s : State) (h : CHead) (n : Nat) (l : List Nat),
      s.hears h (.mirror n (.partMap l)) = true →
      ((s.cas.pair = 3 ∨ s.cas.pair = 4) ∧ s.cas.mirSeq ≤ n) →
      Does (.mirror h (.mirror n (.partMap l))) s (fun u =>
        u.cas.partMap = some l ∧
        u.cas.mirSeq = n + 1 ∧
        u = { s with cas.ports := u.cas.ports, out := u.out, ctr := u.ctr, cas.nextMid := u.cas.nextMid, cas.mirSeq := u.cas.mirSeq, cas.partMap := u.cas.partMap })) ∧
  (∀ (s : State) (h : CHead) (n : Nat) (a : Nat),
      s.hears h (.mirror n (.confirm a)) = true →
      ((s.cas.pair = 3 ∨ s.cas.pair = 4) ∧ s.cas.mirSeq ≤ n) →
      Does (.mirror h (.mirror n (.confirm a))) s (fun u =>
        u.upd.confirmBy = a ∧
        u.cas.mirSeq = n + 1 ∧
        u = { s with cas.ports := u.cas.ports, out := u.out, ctr := u.ctr, cas.nextMid := u.cas.nextMid, cas.mirSeq := u.cas.mirSeq, upd.confirmBy := u.upd.confirmBy })) ∧
  (∀ (s : State) (h : CHead) (n : Nat) (l : List Nat),
      s.hears h (.mirror n (.partMap l)) = true →
      ((s.cas.pair ≠ 3 ∧ s.cas.pair ≠ 4) ∨ n < s.cas.mirSeq) →
      exec (.mirror h (.mirror n (.partMap l))) s = .next (sendOn h.port.val h.src (.mack n) (heard h (.mirror n (.partMap l)) s))) ∧
  (∀ (s : State) (h : CHead) (n : Nat) (x : MirOut),
      s.hears h (.mack n) = true →
      (firstWhere (fun (x : MirOut) => x.seq == n) s.cas.mirOut = some x) →
      x.jseq = none ∧ s.nowNs ≤ x.at_ + 2000000 →
      Does (.mack h (.mack n)) s (fun u =>
        (u.cas.mirOut = s.cas.mirOut.filter (fun y => y.seq != n)) ∧
        u = { s with cas.ports := u.cas.ports, out := u.out, ctr := u.ctr, cas.mirOut := u.cas.mirOut })) ∧
  (∀ (s : State) (h : CHead) (n j : Nat) (x : MirOut),
      s.hears h (.mack n) = true →
      (firstWhere (fun (x : MirOut) => x.seq == n) s.cas.mirOut = some x) →
      x.jseq = some j →
      Does (.mack h (.mack n)) s (fun u =>
        (u.cas.mirOut = s.cas.mirOut.filter (fun y => y.seq != n)) ∧
        (∀ r ∈ u.ldg.jq, r.jseq = j → r.acked = true) ∧
        u.ldg.live = s.ldg.live ∧ u.ldg.dur = s.ldg.dur ∧ u.ing = s.ing ∧ u.lake = s.lake ∧ u.woad = s.woad)) ∧
  (∀ (s : State) (h : CHead) (n : Nat),
      s.hears h (.mack n) = true →
      (∀ x ∈ s.cas.mirOut, x.seq ≠ n) →
      exec (.mack h (.mack n)) s = .next (heard h (.mack n) s)) ∧
  (∀ (s : State) (x : MirOut) (p : Nat × CPort),
      s.cas.pair = 1 ∧ s.ldg.jq = [] ∧ s.lake.fetch = [] →
      x ∈ s.cas.mirOut →
      x.at_ + 2000000 ≤ s.nowNs →
      (s.cas.ports.find? (fun q => q.2.role == 4) = some p) →
      s.coresRun = true →
      Does (.mirrorAckTimeout) s (fun u =>
        u.cas.pair = 2 ∧ u.cas.mirOut = [] ∧ u.cas.handoverAt = none ∧
        Posts 0x0B03 0 (le 1 p.1) s u ∧
        u.counter (kCas 18) = s.counter (kCas 18) + 1 ∧
        u.ldg = s.ldg ∧ u.ing = s.ing ∧ u.lake = s.lake ∧ u.woad = s.woad)) ∧
  (∀ (s : State),
      s.cas.pair ≠ 1 →
      Stays (.mirrorAckTimeout) s) ∧
  (∀ (s : State) (h : CHead) (ph pct : Nat),
      s.hears h (.resync ph pct []) = true →
      s.cas.pair = 4 ∧ ph ≠ 4 ∧ ph ≠ 1 →
      Does (.resync h (.resync ph pct [])) s (fun u =>
        u.cas.phase = ph ∧ u.cas.pct = pct ∧
        u = { s with cas.ports := u.cas.ports, out := u.out, ctr := u.ctr, cas.phase := u.cas.phase, cas.pct := u.cas.pct })) ∧
  (∀ (s : State) (h : CHead) (pct : Nat),
      s.hears h (.resync 4 pct []) = true →
      s.cas.pair = 4 →
      Does (.resync h (.resync 4 pct [])) s (fun u =>
        u.cas.pair = 3 ∧ u.cas.phase = 5 ∧ u.cas.pct = 0 ∧ u.glb.mode = .standby ∧
        (u.cpm = s.cpm ∧ u.ing = s.ing ∧ (s.lake.fetch = [] → u.lake = s.lake) ∧ u.woad = s.woad))) ∧
  (∀ (s : State) (h : CHead) (pct : Nat),
      s.hears h (.resync 4 pct []) = true →
      s.cas.pair = 2 ∧ s.cas.phase = 4 →
      Does (.resync h (.resync 4 pct [])) s (fun u =>
        u.cas.pair = 1 ∧ u.cas.phase = 0 ∧ u.cas.handoverAt = some (s.nowNs + 10000000000) ∧
        Posts 0x0B04 1 (le 1 h.port.val ++ zeroBytes 3 ++ le 4 ((s.nowNs - s.cas.resyncAt) / 1000000)) s u ∧
        u.counter (kCas 9) = s.counter (kCas 9) + 1 ∧
        u.ldg = s.ldg ∧ u.ing = s.ing ∧ u.lake = s.lake ∧ u.woad = s.woad)) ∧
  (∀ (s : State) (port : Fin 4) (state : Fin 16) (no id : BitVec 16) (longer : Bool) (crc : BitVec 16),
      s.coresRun = true ∧ (s.cport port).st = 2 →
      wordOk 4 (state.val) no.toNat id.toNat crc = true →
      s.cas.paired = true ∧ id.toNat = s.cas.chipId →
      state.val < 5 →
      ((s.cas.pair ≠ 1 ∧ s.cas.pair ≠ 2) ∨ (state.val ≠ 1 ∧ state.val ≠ 2) ∨ longer = false) →
      Does (.heartbeatReceive port false state no id longer crc) s (fun u =>
        u.cport port = { s.cport port with hbState := state.val, hbAt := some s.nowNs, hbMiss := 0 } ∧
        (∀ k, k ≠ port.val → u.cport k = s.cport k) ∧
        u = { s with cas.ports := u.cas.ports })) ∧
  (∀ (s : State) (port : Fin 4) (state : Fin 16) (no id : BitVec 16) (longer : Bool) (crc : BitVec 16),
      s.coresRun = true ∧ (s.cport port).st = 2 →
      wordOk 4 (state.val) no.toNat id.toNat crc = true →
      s.cas.paired = true ∧ id.toNat = s.cas.chipId →
      ((s.cas.pair = 1 ∨ s.cas.pair = 2) ∧ (state.val = 1 ∨ state.val = 2) ∧ longer = true) →
      Does (.heartbeatReceive port false state no id longer crc) s (fun u =>
        u.cpm = { s.cpm with resetDue := some 3 } ∧
        u.cas.pair = s.cas.pair ∧ (u.cport port).hbMiss = 0 ∧
        u.glb = s.glb ∧ u.ing = s.ing ∧ u.ldg = s.ldg ∧ u.woad = s.woad)) ∧
  (∀ (s : State) (port : Fin 4) (state : Fin 16) (no id : BitVec 16) (longer : Bool) (crc : BitVec 16),
      s.coresRun = true ∧ (s.cport port).st = 2 →
      wordOk 4 (state.val) no.toNat id.toNat crc = true →
      (s.cas.paired = false ∨ id.toNat ≠ s.cas.chipId) →
      Does (.heartbeatReceive port false state no id longer crc) s (fun u =>
        (∀ q ∈ s.siblings port, .casWord q 4 (128 + state.val) no.toNat id.toNat ∈ u.out) ∧
        u = { s with out := u.out })) ∧
  (∀ (s : State) (port : Fin 4) (state : Fin 16) (no id : BitVec 16) (longer : Bool) (crc : BitVec 16),
      s.coresRun = true ∧ (s.cport port).st = 2 →
      wordOk 4 (128 + state.val) no.toNat id.toNat crc = true →
      (s.cas.paired = false ∨ id.toNat ≠ s.cas.chipId) →
      Stays (.heartbeatReceive port true state no id longer crc) s) ∧
  (∀ (s : State),
      s.cas.paired = true ∧ s.cas.pair ≠ 0 ∧ s.coresRun = true →
      s.cas.hbSentAt + 100000 ≤ s.nowNs →
      Does (.heartbeatSend) s (fun u =>
        u.cas.hbNo = s.cas.hbNo + 1 ∧ u.cas.hbSentAt = s.nowNs ∧
        (∀ q ∈ s.upPorts, .casWord q 4 s.cas.pair u.cas.hbNo.toNat s.cas.chipId ∈ u.out) ∧
        u = { s with cas.hbNo := u.cas.hbNo, cas.hbSentAt := u.cas.hbSentAt, out := u.out, ctr := u.ctr })) ∧
  (∀ (s : State),
      (s.cas.paired = false ∨ s.cas.pair = 0 ∨ s.nowNs < s.cas.hbSentAt + 100000) →
      Stays (.heartbeatSend) s) ∧
  (∀ (s : State) (port : Fin 4) (a : Nat),
      (s.cport port).hbAt = some a →
      (s.cport port).hbMiss < 3 ∧ a + 100000 * ((s.cport port).hbMiss + 1) + 10000 ≤ s.nowNs ∧ s.coresRun = true →
      ((updCport port (fun c => { c with hbMiss := c.hbMiss + 1 }) s).livePaths ≠ 0) →
      (s.cas.pair ≠ 3 ∨ (s.cport port).hbMiss ≠ 2) →
      Does (.heartbeatMiss port) s (fun u =>
        u.cport port = { s.cport port with hbMiss := (s.cport port).hbMiss + 1 } ∧
        u.counter (kCasPort port 7) = s.counter (kCasPort port 7) + 1 ∧
        (∀ k, k ≠ port.val → u.cport k = s.cport k) ∧
        u = { s with cas.ports := u.cas.ports, ctr := u.ctr })) ∧
  (∀ (s : State) (port : Fin 4) (a : Nat),
      (s.cport port).hbAt = some a →
      (s.cport port).hbMiss < 3 ∧ a + 100000 * ((s.cport port).hbMiss + 1) + 10000 ≤ s.nowNs ∧ s.coresRun = true →
      ((updCport port (fun c => { c with hbMiss := c.hbMiss + 1 }) s).livePaths ≠ 0) →
      s.cas.pair = 3 ∧ (s.cport port).hbMiss = 2 →
      Does (.heartbeatMiss port) s (fun u =>
        (u.cport port).hbMiss = 3 ∧
        Posts 0x0B03 0 (le 1 port) s u ∧
        (∀ k, k ≠ port.val → u.cport k = s.cport k) ∧
        u.cas.pair = s.cas.pair ∧ u.cpm = s.cpm ∧ u.ldg = s.ldg ∧ u.ing = s.ing ∧ u.lake = s.lake ∧ u.woad = s.woad)) ∧
  (∀ (s : State) (port : Fin 4) (a : Nat),
      (s.cport port).hbAt = some a →
      (s.cport port).hbMiss < 3 ∧ a + 100000 * ((s.cport port).hbMiss + 1) + 10000 ≤ s.nowNs ∧ s.coresRun = true →
      ((updCport port (fun c => { c with hbMiss := c.hbMiss + 1 }) s).livePaths = 0) →
      s.cas.pair = 3 ∧ s.cas.failed = false →
      Does (.heartbeatMiss port) s (fun u =>
        u.glb.mode = .service ∧
        (u.cas.gap.toNat < 1749 ∧ (∃ r, u.sepia.ring.head? = some r ∧ r.typ = 0x0105 ∧ r.body = le 1 0 ++ zeroBytes 3 ++ le 4 u.cas.gap.toNat)))) ∧
  (∀ (s : State) (port : Fin 4) (a : Nat),
      (s.cport port).hbAt = some a →
      (s.cport port).hbMiss < 3 ∧ a + 100000 * ((s.cport port).hbMiss + 1) + 10000 ≤ s.nowNs ∧ s.coresRun = true →
      ((updCport port (fun c => { c with hbMiss := c.hbMiss + 1 }) s).livePaths = 0) →
      s.cas.pair = 3 ∧ s.cas.failed = false →
      s.cas.shadow = [] ∧ s.lake.ready = false →
      Does (.heartbeatMiss port) s (fun u =>
        u.cas.pair = 2 ∧ u.cas.activeSince = s.nowNs ∧ u.cas.shadow = [] ∧ u.cas.holdB = none ∧ u.glb.mode = .service ∧
        u.counter (kCas 8) = s.counter (kCas 8) + 1 ∧
        (u.cpm = s.cpm ∧ u.ing = s.ing ∧ u.woad = s.woad ∧ (s.lake.fetch = [] → u.lake = s.lake)))) ∧
  (∀ (s : State) (port : Fin 4) (a : Nat),
      (s.cport port).hbAt = some a →
      (s.cport port).hbMiss < 3 ∧ a + 100000 * ((s.cport port).hbMiss + 1) + 10000 ≤ s.nowNs ∧ s.coresRun = true →
      ((updCport port (fun c => { c with hbMiss := c.hbMiss + 1 }) s).livePaths = 0) →
      s.cas.pair = 4 ∧ s.cas.failed = false →
      Does (.heartbeatMiss port) s (fun u =>
        u.cpm = { s.cpm with resetDue := some 3 } ∧
        u = { s with cas.ports := u.cas.ports, cpm := u.cpm, ctr := u.ctr })) ∧
  (∀ (s : State) (port : Fin 4) (a : Nat),
      (s.cport port).hbAt = some a →
      s.nowNs < a + 100000 * ((s.cport port).hbMiss + 1) + 10000 →
      Stays (.heartbeatMiss port) s) ∧
  (∀ (s : State) (port : Fin 4) (cause : Fin 256) (crc : BitVec 16),
      s.coresRun = true ∧ (s.cport port).st = 2 →
      wordOk 5 cause.val 0 0 crc = true →
      (s.cas.paired = true ∧ ((s.cport port).role = 4 ∨ (s.cport port).hbAt.isSome = true) ∧ s.cas.failed = false) →
      s.cas.pair = 3 →
      Does (.failWord port cause crc) s (fun u =>
        u.glb.mode = .service ∧
        (u.cas.gap.toNat < 1749 ∧ (∃ r, u.sepia.ring.head? = some r ∧ r.typ = 0x0105 ∧ r.body = le 1 (min 1 cause.val) ++ zeroBytes 3 ++ le 4 u.cas.gap.toNat)))) ∧
  (∀ (s : State) (port : Fin 4) (cause : Fin 256) (crc : BitVec 16),
      s.coresRun = true ∧ (s.cport port).st = 2 →
      wordOk 5 cause.val 0 0 crc = true →
      (s.cas.paired = true ∧ ((s.cport port).role = 4 ∨ (s.cport port).hbAt.isSome = true) ∧ s.cas.failed = false) →
      s.cas.pair = 3 →
      s.cas.shadow = [] ∧ s.lake.ready = false →
      Does (.failWord port cause crc) s (fun u =>
        u.cas.pair = 2 ∧ u.cas.activeSince = s.nowNs ∧ u.cas.shadow = [] ∧ u.cas.holdB = none ∧ u.glb.mode = .service ∧
        (u.cpm = s.cpm ∧ u.ing = s.ing ∧ u.woad = s.woad ∧ (s.lake.fetch = [] → u.lake = s.lake)))) ∧
  (∀ (s : State) (port : Fin 4) (cause : Fin 256) (crc : BitVec 16),
      s.coresRun = true ∧ (s.cport port).st = 2 →
      wordOk 5 cause.val 0 0 crc = true →
      (s.cas.paired = true ∧ ((s.cport port).role = 4 ∨ (s.cport port).hbAt.isSome = true)) →
      s.cas.pair = 4 ∧ s.cas.failed = false →
      Does (.failWord port cause crc) s (fun u =>
        u.cpm = { s.cpm with resetDue := some 3 } ∧
        u = { s with cpm := u.cpm })) ∧
  (∀ (s : State) (port : Fin 4) (cause : Fin 256) (crc : BitVec 16),
      s.coresRun = true ∧ (s.cport port).st = 2 →
      wordOk 5 cause.val 0 0 crc = true →
      (s.cas.paired = true ∧ ((s.cport port).role = 4 ∨ (s.cport port).hbAt.isSome = true)) →
      (s.cas.pair = 1 ∨ s.cas.pair = 2) →
      Stays (.failWord port cause crc) s) ∧
  (∀ (s : State) (port : Fin 4) (cause : Fin 256) (crc : BitVec 16),
      s.coresRun = true ∧ (s.cport port).st = 2 →
      wordOk 5 cause.val 0 0 crc = true →
      s.cas.paired = false →
      Does (.failWord port cause crc) s (fun u =>
        (∀ q ∈ s.siblings port, .casWord q 5 cause.val 0 0 ∈ u.out) ∧
        u = { s with out := u.out })) ∧
  (∀ (s : State) (port : Fin 4) (crc : BitVec 16),
      s.coresRun = true ∧ (s.cport port).st = 2 →
      wordOk 6 0 0 0 crc = true →
      (s.cport port).role = 2 →
      Does (.takeover port crc) s (fun u =>
        ((u.cport port).role = 1 ∧ (∀ k, k ≠ port.val → (s.cport k).role = 1 → (u.cport k).role = 2)) ∧
        (∀ k, (u.cport k).st = (s.cport k).st) ∧
        u = { s with cas.ports := u.cas.ports, out := u.out })) ∧
  (∀ (s : State) (port : Fin 4) (crc : BitVec 16),
      s.coresRun = true ∧ (s.cport port).st = 2 →
      wordOk 6 0 0 0 crc = true →
      (s.cport port).role = 3 →
      Does (.takeover port crc) s (fun u =>
        ((u.cport port).peerStby = false ∧ (∀ k, k ≠ port.val → (s.cport k).role = 3 → (s.cport k).peerId = (s.cport port).peerId → (u.cport k).peerStby = true)) ∧
        (∀ k, (u.cport k).role = (s.cport k).role ∧ (u.cport k).st = (s.cport k).st) ∧
        u = { s with cas.ports := u.cas.ports, out := u.out })) ∧
  (∀ (s : State) (port : Fin 4) (crc : BitVec 16),
      s.coresRun = true ∧ (s.cport port).st = 2 →
      wordOk 6 0 0 0 crc = true →
      (s.cport port).role = 4 ∧ s.cas.holdB.isSome = true →
      Does (.takeover port crc) s (fun u =>
        (u.cas.holdB = none ∧ u.cpm.resetDue = (if s.cas.failed then some 3 else s.cpm.resetDue)) ∧
        u = { s with cas.holdB := u.cas.holdB, cpm.resetDue := u.cpm.resetDue })) ∧
  (∀ (s : State) (port : Fin 4) (i : Instr) (k a n b : Nat) (crc : BitVec 16) (no : BitVec 16),
      s.coresRun = true ∧ (s.cport port).st = 2 →
      (i, k, a, n, b) ∈ [(Instr.takeover port crc, 6, 0, 0, 0), (.failWord port 1 crc, 5, 1, 0, 0), (.heartbeatReceive port false 1 no 3 true crc, 4, 1, no.toNat, 3)] →
      wordOk k a n b crc = false →
      exec i s = .next (count (kCasPort port 4) s)) ∧
  (∀ (s : State) (x : ClassB),
      s.cas.holdB = some x →
      (x.at_ + 1739502 ≤ s.nowNs ∨ s.stest.frozen = true) →
      Does (.classbHoldRelease) s (fun u =>
        (u.cas.holdB = none ∧ u.cpm.resetDue = (if s.cas.failed then some 3 else s.cpm.resetDue)) ∧
        u = { s with cas.holdB := u.cas.holdB, cpm.resetDue := u.cpm.resetDue })) ∧
  (∀ (s : State) (x : ClassB),
      s.cas.holdB = some x →
      s.nowNs < x.at_ + 1739502 ∧ s.stest.frozen = false →
      Stays (.classbHoldRelease) s) ∧
  (∀ (s : State) (a : Nat),
      s.cas.handoverAt = some a ∧ a ≤ s.nowNs ∧ s.coresRun = true →
      s.cas.master = true ∧ s.cas.primary = false ∧ 9 ≤ s.cas.chips ∧ s.cas.pair = 1 →
      (s.row 9).action = 0 →
      Does (.autoHandover) s (fun u =>
        u.cas.pair = 3 ∧ u.glb.mode = .standby ∧ u.cas.mirOut = [] ∧ u.cas.handoverAt = none ∧
        u.cas.holdB = some { at_ := s.nowNs, pulse := s.pulseOut, out := s.gpioDrive.1, oe := s.gpioDrive.2, radio := (List.range 4).map s.radioDrive, line := (List.range 4).map s.lineDrive } ∧
        (∀ q ∈ s.upPorts, .casWord q 5 1 0 0 ∈ u.out) ∧
        (u.cpm = s.cpm ∧ u.ing = s.ing ∧ (s.lake.fetch = [] → u.lake = s.lake) ∧ u.woad = s.woad))) ∧
  (∀ (s : State) (a : Nat),
      s.cas.handoverAt = some a ∧ a ≤ s.nowNs ∧ s.coresRun = true →
      (s.cas.master = false ∨ s.cas.primary = true ∨ s.cas.chips < 9 ∨ s.cas.pair ≠ 1) →
      exec .autoHandover s = .next { s with cas.handoverAt := none }) ∧
  (∀ (s : State) (a : Nat),
      s.cas.handoverAt = some a ∧ s.nowNs < a →
      Stays (.autoHandover) s) ∧
  (∀ (s : State),
      s.cas.paired = true ∧ s.cas.pair = 0 ∧ s.cas.helloAt + 10000000 ≤ s.nowNs →
      s.glb.mode = .service ∧ s.stest.frozen = false →
      Does (.mirrorHelloTimeout) s (fun u =>
        u.cas.pair = 2 ∧ u.cas.activeSince = s.nowNs ∧ u.cas.phase = 0 ∧
        (u.glb = s.glb ∧ u.cpm = s.cpm ∧ u.ing = s.ing ∧ (s.lake.fetch = [] → u.lake = s.lake) ∧ u.woad = s.woad))) ∧
  (∀ (s : State),
      (s.cas.paired = false ∨ s.cas.pair ≠ 0 ∨ s.nowNs < s.cas.helloAt + 10000000) →
      Stays (.mirrorHelloTimeout) s) ∧
  (∀ (s : State) (t : Fin 256) (pi : Fin 8) (rt ra : Fin 32) (p : Place) (i : Nat) (b : List Byte) (d : List Byte) (q : Place) (full : Bool),
      s.callsAt t pi ra 0xB0 24 p i = true →
      s.load p 24 = b →
      field b 0 1 = 0 ∧ zeros b 4 4 = true ∧ 1 ≤ field b 2 2 ∧ field b 2 2 ≤ 104 ∧ field b 16 8 = 0 →
      field b 1 1 = s.cas.chipId ∧ s.cas.chipId < 0x40 →
      s.casFull = false →
      (s.thr t).bufPlace t (field b 8 8) (field b 2 2) = some q →
      s.poisoned q (field b 2 2) = false →
      s.load q (field b 2 2) = d →
      Answers (.casSend t pi rt ra full) t 0xB0 ra i s (fun r =>
        r.good [] ∧
        r.st.mcc.queues.get [] (evKey 7 0) = s.mcc.queues.get [] (evKey 7 0) ++ [({ seq := s.mcc.seqs.get 0 (evKey 7 0), ref := Word.of 0xFFFF, body := casBody s.cas.chipId 0 d, rtag := rtagInternal } : Ev)] ∧
        r.st = { calling t rt i s with mcc.queues := r.st.mcc.queues, mcc.seqs := r.st.mcc.seqs })) ∧
  (∀ (s : State) (t : Fin 256) (pi : Fin 8) (rt ra : Fin 32) (p : Place) (i : Nat) (b : List Byte) (n : Nat) (d : List Byte) (q : Place) (full : Bool),
      s.callsAt t pi ra 0xB0 24 p i = true →
      s.load p 24 = b →
      field b 0 1 = 0 ∧ zeros b 4 4 = true ∧ 1 ≤ field b 2 2 ∧ field b 2 2 ≤ 104 ∧ field b 16 8 = 0 →
      field b 1 1 < 0x40 ∧ field b 1 1 ≠ s.cas.chipId →
      s.portTo (field b 1 1) = some n →
      (s.thr t).bufPlace t (field b 8 8) (field b 2 2) = some q →
      s.poisoned q (field b 2 2) = false →
      s.load q (field b 2 2) = d →
      Answers (.casSend t pi rt ra full) t 0xB0 ra i s (fun r =>
        r.status = (if full then stNoSpace else stOk) ∧ r.out = [] ∧ r.waits = none ∧
        r.st = sendOn n (field b 1 1) (.msg d) (calling t rt i s))) ∧
  (∀ (s : State) (t : Fin 256) (pi : Fin 8) (rt ra : Fin 32) (p : Place) (i : Nat) (b : List Byte) (full : Bool),
      s.callsAt t pi ra 0xB0 24 p i = true →
      s.load p 24 = b →
      field b 0 1 = 0 ∧ zeros b 4 4 = true →
      (field b 2 2 = 0 ∨ 104 < field b 2 2 ∨ (0x40 ≤ field b 1 1 ∧ field b 1 1 ≤ 0xFC)) →
      Answers (.casSend t pi rt ra full) t 0xB0 ra i s (fun r =>
        r.refuses stBadArg (calling t rt i s))) ∧
  (∀ (s : State) (t : Fin 256) (pi : Fin 8) (rt ra : Fin 32) (p : Place) (i : Nat) (b : List Byte) (d : List Byte) (q : Place),
      s.callsAt t pi ra 0xB0 24 p i = true →
      s.load p 24 = b →
      field b 0 1 = 1 →
      zeros b 4 4 = true ∧ field b 1 1 = 0 ∧ field b 16 8 = 0 ∧ field b 2 2 = 32 ∧ (s.thr t).level ≠ .task →
      (s.thr t).bufPlace t (field b 8 8) (32) = some q →
      s.poisoned q (32) = false →
      s.load q (32) = d →
      casConfigOk d = true ∧ field d 4 1 % 2 = 0 →
      s.cas.pair = 0 →
      Answers (.casConfig t pi rt ra) t 0xB0 ra i s (fun r =>
        r.good [] ∧
        r.st.cas.paired = false ∧ r.st.cas.primary = bitAt (field d 4 1) 1 ∧ r.st.cas.master = !((List.range 4).map (fun k => field d k 1)).contains 1 ∧
        (∀ k < 4, (r.st.cport k).role = field d k 1) ∧
        (∀ k < 4, field d k 1 ≠ (s.cport k).role → field d k 1 ≠ 0 → (r.st.cport k).st ≠ 2) ∧
        r.st.ldg = s.ldg ∧ r.st.ing = s.ing ∧ r.st.lake = s.lake ∧ r.st.woad = s.woad)) ∧
  (∀ (s : State) (t : Fin 256) (pi : Fin 8) (rt ra : Fin 32) (p : Place) (i : Nat) (b : List Byte) (d : List Byte) (q : Place),
      s.callsAt t pi ra 0xB0 24 p i = true →
      s.load p 24 = b →
      field b 0 1 = 1 →
      zeros b 4 4 = true ∧ field b 1 1 = 0 ∧ field b 16 8 = 0 ∧ field b 2 2 = 32 ∧ (s.thr t).level ≠ .task →
      (s.thr t).bufPlace t (field b 8 8) (32) = some q →
      s.poisoned q (32) = false →
      s.load q (32) = d →
      casConfigOk d = true ∧ field d 4 1 % 2 = 1 →
      s.cas.paired = false ∧ s.cas.pair = 0 ∧ s.glb.mode = .service →
      Answers (.casConfig t pi rt ra) t 0xB0 ra i s (fun r =>
        r.good [] ∧
        r.st.cas.paired = true ∧ r.st.cas.pair = 2 ∧ r.st.cas.activeSince = s.nowNs ∧
        (∀ k < 4, (r.st.cport k).role = field d k 1) ∧
        r.st.ing = s.ing ∧ (s.lake.fetch = [] → r.st.lake = s.lake) ∧ r.st.woad = s.woad)) ∧
  (∀ (s : State) (t : Fin 256) (pi : Fin 8) (rt ra : Fin 32) (p : Place) (i : Nat) (b : List Byte) (d : List Byte) (q : Place),
      s.callsAt t pi ra 0xB0 24 p i = true →
      s.load p 24 = b →
      field b 0 1 = 1 →
      zeros b 4 4 = true ∧ field b 1 1 = 0 ∧ field b 16 8 = 0 ∧ field b 2 2 = 32 ∧ (s.thr t).level ≠ .task →
      (s.thr t).bufPlace t (field b 8 8) (32) = some q →
      s.poisoned q (32) = false →
      s.load q (32) = d →
      casConfigOk d = false →
      Answers (.casConfig t pi rt ra) t 0xB0 ra i s (fun r =>
        r.refuses stBadArg (calling t rt i s))) ∧
  (∀ (s : State) (t : Fin 256) (pi : Fin 8) (rt ra : Fin 32) (p : Place) (i : Nat) (b : List Byte),
      s.callsAt t pi ra 0xB0 24 p i = true →
      s.load p 24 = b →
      field b 0 1 = 3 →
      zeros b 4 4 = true ∧ field b 1 1 = 0 ∧ field b 16 8 = 0 ∧ field b 2 2 = 0 ∧ (s.thr t).level ≠ .task →
      s.cas.pair = 1 ∧ s.glb.mode ≠ .holdup →
      (s.row 9).action = 0 →
      Answers (.casHandover t pi rt ra) t 0xB0 ra i s (fun r =>
        r.status = stOk ∧ r.out = [] ∧ r.waits = none ∧
        r.st.cas.pair = 3 ∧ r.st.glb.mode = .standby ∧ r.st.cas.holdB = some { at_ := s.nowNs, pulse := s.pulseOut, out := s.gpioDrive.1, oe := s.gpioDrive.2, radio := (List.range 4).map s.radioDrive, line := (List.range 4).map s.lineDrive } ∧
        (∀ q ∈ s.upPorts, .casWord q 5 1 0 0 ∈ r.st.out) ∧
        r.st.ing = s.ing ∧ (s.lake.fetch = [] → r.st.lake = s.lake) ∧ r.st.woad = s.woad)) ∧
  (∀ (s : State) (t : Fin 256) (pi : Fin 8) (rt ra : Fin 32) (p : Place) (i : Nat) (b : List Byte),
      s.callsAt t pi ra 0xB0 24 p i = true →
      s.load p 24 = b →
      field b 0 1 = 3 →
      zeros b 4 4 = true ∧ field b 1 1 = 0 ∧ field b 16 8 = 0 ∧ field b 2 2 = 0 ∧ (s.thr t).level ≠ .task →
      s.cas.pair ≠ 1 →
      Answers (.casHandover t pi rt ra) t 0xB0 ra i s (fun r =>
        r.refuses stBadArg (calling t rt i s))) ∧
  (∀ (s : State) (t : Fin 256) (pi : Fin 8) (rt ra : Fin 32) (p : Place) (i : Nat) (b : List Byte) (e : Instr),
      s.callsAt t pi ra 0xB0 24 p i = true →
      s.load p 24 = b →
      1 ≤ field b 0 1 ∧ field b 0 1 ≤ 3 ∧ zeros b 4 4 = true ∧ (s.thr t).level = .task →
      e ∈ [.casConfig t pi rt ra, .casHandover t pi rt ra, .casPartmap t pi rt ra []] →
      exec e s = .next (called t 0xB0 ((s.thr t).reg ra).toNat i (EngOut.fail (calling t rt i s) stPriv))) ∧
  (∀ (s : State) (t : Fin 256) (pi : Fin 8) (rt ra : Fin 32) (p : Place) (i : Nat) (b : List Byte) (d : List Byte) (q : Place) (held : List Nat),
      s.callsAt t pi ra 0xB0 24 p i = true →
      s.load p 24 = b →
      field b 0 1 = 2 →
      zeros b 4 4 = true ∧ field b 1 1 = 0 ∧ field b 16 8 = 0 ∧ field b 2 2 = 4096 ∧ (s.thr t).level ≠ .task →
      (s.thr t).bufPlace t (field b 8 8) (4096) = some q →
      s.poisoned q (4096) = false →
      s.load q (4096) = d →
      s.cas.master = true ∧ s.cas.pair = 0 ∧ s.hk = none →
      (∀ x ∈ d, x.toNat < s.cas.chips) →
      (∀ k ∈ held, k < 4096 → (d.getD k 0).toNat = (s.cas.partMap.getD (defaultMap s.cas.chips)).getD k 0) →
      Answers (.casPartmap t pi rt ra held) t 0xB0 ra i s (fun r =>
        r.good [] ∧
        r.st.cas.partMap = some (d.map (·.toNat)) ∧
        r.st.ldg = s.ldg ∧ r.st.ing = s.ing ∧ r.st.lake = s.lake ∧ r.st.woad = s.woad)) ∧
  (∀ (s : State) (t : Fin 256) (pi : Fin 8) (rt ra : Fin 32) (p : Place) (i : Nat) (b : List Byte) (d : List Byte) (q : Place) (held : List Nat),
      s.callsAt t pi ra 0xB0 24 p i = true →
      s.load p 24 = b →
      field b 0 1 = 2 →
      zeros b 4 4 = true ∧ field b 1 1 = 0 ∧ field b 16 8 = 0 ∧ field b 2 2 = 4096 ∧ (s.thr t).level ≠ .task →
      (s.thr t).bufPlace t (field b 8 8) (4096) = some q →
      s.poisoned q (4096) = false →
      s.load q (4096) = d →
      (s.cas.pair = 0 ∧ (s.cas.master = false ∨ ∃ x ∈ d, s.cas.chips ≤ x.toNat)) →
      Answers (.casPartmap t pi rt ra held) t 0xB0 ra i s (fun r =>
        r.refuses stBadArg (calling t rt i s))) ∧
  (∀ (s : State) (t : Fin 256) (pi : Fin 8) (rt ra : Fin 32) (p : Place) (i : Nat) (b : List Byte),
      s.callsAt t pi ra 0xB1 8 p i = true →
      s.load p 8 = b →
      zeros b 1 1 = true ∧ zeros b 4 4 = true ∧ 0 < field b 2 2 →
      s.cas.master = true ∧ s.children = [] →
      Answers (.casBarrier t pi rt ra) t 0xB1 ra i s (fun r =>
        r.good [] ∧
        r.st = calling t rt i s)) ∧
  (∀ (s : State) (t : Fin 256) (pi : Fin 8) (rt ra : Fin 32) (p : Place) (i : Nat) (b : List Byte),
      s.callsAt t pi ra 0xB1 8 p i = true →
      s.load p 8 = b →
      zeros b 1 1 = true ∧ zeros b 4 4 = true ∧ 0 < field b 2 2 →
      s.children ≠ [] ∧ s.barrier (field b 0 1) = none →
      Answers (.casBarrier t pi rt ra) t 0xB1 ra i s (fun r =>
        r.status = stOk ∧ r.out = [] ∧ r.waits = some (.barrier (field b 0 1)) ∧
        r.st.barrier (field b 0 1) = some { own := true, first := s.nowNs, tmo := field b 2 2 } ∧
        (∀ k, k ≠ field b 0 1 → r.st.barrier k = s.barrier k) ∧
        r.st = { calling t rt i s with cas.barriers := r.st.cas.barriers })) ∧
  (∀ (s : State) (t : Fin 256) (pi : Fin 8) (rt ra : Fin 32) (p : Place) (i : Nat) (b : List Byte),
      s.callsAt t pi ra 0xB1 8 p i = true →
      s.load p 8 = b →
      field b 2 2 = 0 →
      Answers (.casBarrier t pi rt ra) t 0xB1 ra i s (fun r =>
        r.refuses stBadArg (calling t rt i s))) ∧
  (∀ (s : State) (t : Fin 256) (pi : Fin 8) (rt ra : Fin 32) (p : Place) (i : Nat) (b : List Byte) (d : List Byte) (q : Place),
      s.callsAt t pi ra 0xB2 24 p i = true →
      s.load p 24 = b →
      field b 0 1 = 0 ∧ zeros b 1 1 = true ∧ zeros b 4 4 = true ∧ zeros b 16 8 = true ∧ 1 ≤ field b 2 2 ∧ field b 2 2 ≤ 104 →
      s.cas.master = true ∧ s.casFull = false →
      (s.thr t).bufPlace t (field b 8 8) (field b 2 2) = some q →
      s.poisoned q (field b 2 2) = false →
      s.load q (field b 2 2) = d →
      Answers (.casBcast t pi rt ra) t 0xB2 ra i s (fun r =>
        r.good [] ∧
        r.st.mcc.queues.get [] (evKey 7 0) = s.mcc.queues.get [] (evKey 7 0) ++ [({ seq := s.mcc.seqs.get 0 (evKey 7 0), ref := Word.of 0xFFFF, body := casBody s.cas.chipId 1 d, rtag := rtagInternal } : Ev)] ∧
        r.st.counter (kCas 14) = s.counter (kCas 14) + (if 1 < s.cas.chips then 1 else 0) ∧
        r.st = { calling t rt i s with mcc.queues := r.st.mcc.queues, mcc.seqs := r.st.mcc.seqs, cas.ports := r.st.cas.ports, cas.nextMid := r.st.cas.nextMid, out := r.st.out, ctr := r.st.ctr })) ∧
  (∀ (s : State) (t : Fin 256) (pi : Fin 8) (rt ra : Fin 32) (p : Place) (i : Nat) (b : List Byte) (n : Nat) (d : List Byte) (q : Place),
      s.callsAt t pi ra 0xB2 24 p i = true →
      s.load p 24 = b →
      field b 0 1 = 0 ∧ zeros b 1 1 = true ∧ zeros b 4 4 = true ∧ zeros b 16 8 = true ∧ 1 ≤ field b 2 2 ∧ field b 2 2 ≤ 104 →
      s.cas.master = false ∧ s.upPort = some n →
      (s.thr t).bufPlace t (field b 8 8) (field b 2 2) = some q →
      s.poisoned q (field b 2 2) = false →
      s.load q (field b 2 2) = d →
      Answers (.casBcast t pi rt ra) t 0xB2 ra i s (fun r =>
        r.good [] ∧
        r.st = sendOn n 0xFE (.bcast 0 d) (calling t rt i s))) ∧
  (∀ (s : State) (t : Fin 256) (pi : Fin 8) (rt ra : Fin 32) (p : Place) (i : Nat) (b : List Byte),
      s.callsAt t pi ra 0xB2 24 p i = true →
      s.load p 24 = b →
      field b 0 1 = 1 ∧ zeros b 1 1 = true ∧ zeros b 4 4 = true ∧ zeros b 16 8 = true ∧ field b 2 2 = 0 →
      s.cas.master = true →
      Answers (.stackReset t pi rt ra) t 0xB2 ra i s (fun r =>
        r.good [] ∧
        r.st.cpm = { s.cpm with resetDue := some 3 } ∧
        r.st.counter (kCas 14) = s.counter (kCas 14) + (if 1 < s.cas.chips then 1 else 0) ∧
        r.st = { calling t rt i s with cpm := r.st.cpm, cas.ports := r.st.cas.ports, cas.nextMid := r.st.cas.nextMid, out := r.st.out, ctr := r.st.ctr })) ∧
  (∀ (s : State) (t : Fin 256) (pi : Fin 8) (rt ra : Fin 32) (p : Place) (i : Nat) (b : List Byte),
      s.callsAt t pi ra 0xB2 24 p i = true →
      s.load p 24 = b →
      field b 0 1 = 1 →
      s.cas.master = false →
      Answers (.stackReset t pi rt ra) t 0xB2 ra i s (fun r =>
        r.refuses stBadArg (calling t rt i s))) ∧
  (∀ (s : State) (t : Fin 256) (pi : Fin 8) (rt ra : Fin 32) (p : Place) (i : Nat) (b : List Byte),
      s.callsAt t pi ra 0xB3 16 p i = true →
      s.load p 16 = b →
      zeros b 2 2 = true ∧ field b 4 4 < 1000000000 →
      s.cas.master = true ∧ s.cas.pair = 0 ∧ s.cas.snapDue = none →
      s.nowNs + 10000000 ≤ field b 8 8 * 1000000000 + field b 4 4 →
      Answers (.casSnapshot t pi rt ra) t 0xB3 ra i s (fun r =>
        r.status = stOk ∧ r.out = [] ∧ r.waits = some .snapshot ∧
        r.st.cas.snapDue = some (field b 0 2, field b 8 8 * 1000000000 + field b 4 4, List.range s.cas.chips) ∧
        r.st.row 10 = { tS := field b 8 8, tNs := field b 4 4, action := 6, flags := 5, arg := field b 0 2, t0 := field b 8 8 * 1000000000 + field b 4 4 } ∧
        (∀ k, k ≠ 10 → r.st.row k = s.row k) ∧
        r.st = { calling t rt i s with tmu.rows := r.st.tmu.rows, tmu.awaiting := r.st.tmu.awaiting, cas.snapDue := r.st.cas.snapDue, cas.ports := r.st.cas.ports, cas.nextMid := r.st.cas.nextMid, out := r.st.out, ctr := r.st.ctr })) ∧
  (∀ (s : State) (t : Fin 256) (pi : Fin 8) (rt ra : Fin 32) (p : Place) (i : Nat) (b : List Byte),
      s.callsAt t pi ra 0xB3 16 p i = true →
      s.load p 16 = b →
      zeros b 2 2 = true ∧ field b 4 4 < 1000000000 →
      s.cas.master = true ∧ s.cas.pair = 0 →
      field b 8 8 * 1000000000 + field b 4 4 < s.nowNs + 10000000 →
      Answers (.casSnapshot t pi rt ra) t 0xB3 ra i s (fun r =>
        r.refuses stTooLate (calling t rt i s)))

/-- Links, configuration, transmission, reception, pause, wake patterns (R354 to R364); power-up, HOLD-UP, VIGIL and resets (R398 to R416). -/
def Obligations.MacsAndPower : Prop :=
  (∀ (s : State) (m : Fin 2) (rate : Fin 3) (k : MacCfg),
      (s.mac m).cfg = some k ∧ (s.mac m).cfgok = true ∧ (s.mac m).armed = false ∧ s.coresRun = true →
      (s.mac m).link = false →
      rateAdmitted k.ratepol rate = true →
      Does (.macLinkUp m rate) s (fun u =>
        u.mac m = { s.mac m with link := true, blockLock := true, rate := rate.val } ∧
        (∀ k, k ≠ m.val → u.mac k = s.mac k) ∧
        Posts 0x0A02 1 (le 1 m ++ le 1 rate) s u ∧
        u = { s with macs := u.macs, hp := u.hp, glb := u.glb, ctr := u.ctr })) ∧
  (∀ (s : State) (m : Fin 2) (rate : Fin 3) (k : MacCfg),
      (s.mac m).cfg = some k ∧ (s.mac m).cfgok = true ∧ (s.mac m).armed = false ∧ s.coresRun = true →
      (s.mac m).link = false →
      rateAdmitted k.ratepol rate = false →
      Does (.macLinkUp m rate) s (fun u =>
        u.mac m = { s.mac m with blockLock := true, rate := rate.val } ∧
        (∀ k, k ≠ m.val → u.mac k = s.mac k) ∧
        u = { s with macs := u.macs })) ∧
  (∀ (s : State) (m : Fin 2) (rate : Fin 3),
      ((s.mac m).cfg = none ∨ (s.mac m).cfgok = false) →
      Stays (.macLinkUp m rate) s) ∧
  (∀ (s : State) (m : Fin 2) (lock : Bool) (k : MacCfg),
      (s.mac m).cfg = some k ∧ (s.mac m).cfgok = true ∧ (s.mac m).armed = false ∧ s.coresRun = true →
      (s.mac m).link = true →
      s.tmu.sel.kind ≠ m.val + 1 →
      Does (.macLinkDown m lock) s (fun u =>
        u.mac m = { s.mac m with link := false, txq := [], dgrams := [], pausedTill := none, xoff := false, blockLock := (s.mac m).blockLock && !lock } ∧
        (∀ k, k ≠ m.val → u.mac k = s.mac k) ∧
        Posts 0x0A01 0 (le 1 m ++ le 1 (s.mac m).rate) s u ∧
        u.counter (kMac m 19) = s.counter (kMac m 19) + 1 ∧
        u = { s with macs := u.macs, mcc.threads := u.mcc.threads, hp := u.hp, glb := u.glb, ctr := u.ctr })) ∧
  (∀ (s : State) (m : Fin 2) (lock : Bool),
      ((s.mac m).link = false ∧ (lock = false ∨ (s.mac m).blockLock = false) ∧ (s.mac m).cfgok = false) →
      Stays (.macLinkDown m lock) s) ∧
  (∀ (s : State) (m : Fin 2) (f : List Byte) (ok : Bool) (fill : Fin 131073) (k : MacCfg),
      (s.mac m).cfg = some k ∧ (s.mac m).cfgok = true ∧ (s.mac m).armed = false ∧ s.coresRun = true →
      (s.mac m).link = true →
      131072 < fill.val + (f.length + 4) →
      exec (.macFrameReceive m f ok fill) s = .next (count (kMac m 8) s)) ∧
  (∀ (s : State) (m : Fin 2) (f : List Byte) (ok : Bool) (fill : Fin 131073) (k : MacCfg),
      (s.mac m).cfg = some k ∧ (s.mac m).cfgok = true ∧ (s.mac m).armed = false ∧ s.coresRun = true →
      (s.mac m).link = true →
      fill.val + (f.length + 4) ≤ 131072 →
      ok = false →
      Does (.macFrameReceive m f ok fill) s (fun u =>
        u.counter (kMac m 4) = s.counter (kMac m 4) + 1 ∧
        (u.mac m).posted = (s.mac m).posted ∧ (u.mac m).fill = (fill.val + (f.length + 4)) / 1024 ∧
        (∀ k, k ≠ m.val → u.mac k = s.mac k) ∧
        u = { s with macs := u.macs, out := u.out, ctr := u.ctr })) ∧
  (∀ (s : State) (m : Fin 2) (f : List Byte) (ok : Bool) (fill : Fin 131073) (k : MacCfg),
      (s.mac m).cfg = some k ∧ (s.mac m).cfgok = true ∧ (s.mac m).armed = false ∧ s.coresRun = true →
      (s.mac m).link = true →
      fill.val + (f.length + 4) ≤ 131072 →
      ok = true ∧ f.length < 60 →
      Does (.macFrameReceive m f ok fill) s (fun u =>
        u.counter (kMac m 5) = s.counter (kMac m 5) + 1 ∧
        (u.mac m).posted = (s.mac m).posted ∧
        (∀ k, k ≠ m.val → u.mac k = s.mac k) ∧
        u = { s with macs := u.macs, out := u.out, ctr := u.ctr })) ∧
  (∀ (s : State) (m : Fin 2) (f : List Byte) (ok : Bool) (fill : Fin 131073) (k : MacCfg),
      (s.mac m).cfg = some k ∧ (s.mac m).cfgok = true ∧ (s.mac m).armed = false ∧ s.coresRun = true →
      (s.mac m).link = true →
      fill.val + (f.length + 4) ≤ 131072 →
      ok = true ∧ 60 ≤ f.length ∧ k.maxlen < f.length + 4 →
      Does (.macFrameReceive m f ok fill) s (fun u =>
        u.counter (kMac m 6) = s.counter (kMac m 6) + 1 ∧
        (u.mac m).posted = (s.mac m).posted ∧
        (∀ k, k ≠ m.val → u.mac k = s.mac k) ∧
        u = { s with macs := u.macs, out := u.out, ctr := u.ctr })) ∧
  (∀ (s : State) (m : Fin 2) (f : List Byte) (ok : Bool) (fill : Fin 131073) (k : MacCfg),
      (s.mac m).cfg = some k ∧ (s.mac m).cfgok = true ∧ (s.mac m).armed = false ∧ s.coresRun = true →
      (s.mac m).link = true →
      fill.val + (f.length + 4) ≤ 131072 →
      60 ≤ f.length ∧ f.length + 4 ≤ k.maxlen ∧ ok = true ∧ ptpEvent f = false →
      k.takes f = false →
      Does (.macFrameReceive m f ok fill) s (fun u =>
        u.counter (kMac m 9) = s.counter (kMac m 9) + 1 ∧
        (u.mac m).posted = (s.mac m).posted ∧
        (∀ k, k ≠ m.val → u.mac k = s.mac k) ∧
        u = { s with macs := u.macs, out := u.out, ctr := u.ctr })) ∧
  (∀ (s : State) (m : Fin 2) (f : List Byte) (ok : Bool) (fill : Fin 131073) (k : MacCfg) (r : RxBuf) (l : List RxBuf),
      (s.mac m).cfg = some k ∧ (s.mac m).cfgok = true ∧ (s.mac m).armed = false ∧ s.coresRun = true →
      (s.mac m).link = true →
      fill.val + (f.length + 4) ≤ 131072 →
      60 ≤ f.length ∧ f.length + 4 ≤ k.maxlen ∧ ok = true ∧ ptpEvent f = false →
      k.takes f = true ∧ ethType f ≠ 0x8808 ∧ k.command f = none →
      (s.mac m).posted = r :: l →
      (s.mcc.queues.get [] (evKey (5 + m.val) 0)).length < evCap (5 + m.val) →
      Does (.macFrameReceive m f ok fill) s (fun u =>
        (u.mac m).posted = l ∧ (u.mac m).rxSeq = ((s.mac m).rxSeq + 1) % 65536 ∧
        (∀ k, k ≠ m.val → u.mac k = s.mac k) ∧
        u.mcc.queues.get [] (evKey (5 + m.val) 0) = s.mcc.queues.get [] (evKey (5 + m.val) 0) ++ [({ seq := s.mcc.seqs.get 0 (evKey (5 + m.val) 0), ref := Word.of (0xFFFF + (s.mac m).rxSeq * 65536), body := macEventBody r f (rxFlags f false false false) (zeroBytes 16), rtag := rtagInternal } : Ev)] ∧
        u.mcc.dmem = (writeBuf r.thread r.buf f s).mcc.dmem ∧ u.mcc.shared = (writeBuf r.thread r.buf f s).mcc.shared ∧
        u.counter (kMac m 2) = s.counter (kMac m 2) + 1 ∧
        u.ldg = s.ldg ∧ u.ing = s.ing ∧ u.hp = s.hp ∧ u.glb = s.glb)) ∧
  (∀ (s : State) (m : Fin 2) (f : List Byte) (ok : Bool) (fill : Fin 131073) (k : MacCfg),
      (s.mac m).cfg = some k ∧ (s.mac m).cfgok = true ∧ (s.mac m).armed = false ∧ s.coresRun = true →
      (s.mac m).link = true →
      fill.val + (f.length + 4) ≤ 131072 →
      60 ≤ f.length ∧ f.length + 4 ≤ k.maxlen ∧ ok = true ∧ ptpEvent f = false →
      k.takes f = true ∧ ethType f ≠ 0x8808 ∧ k.command f = none →
      (s.mac m).posted = [] →
      Does (.macFrameReceive m f ok fill) s (fun u =>
        u.counter (kMac m 7) = s.counter (kMac m 7) + 1 ∧
        (∀ k, k ≠ m.val → u.mac k = s.mac k) ∧
        u = { s with macs := u.macs, out := u.out, ctr := u.ctr })) ∧
  (∀ (s : State) (m : Fin 2) (f : List Byte) (ok : Bool) (fill : Fin 131073) (k : MacCfg) (q : Nat),
      (s.mac m).cfg = some k ∧ (s.mac m).cfgok = true ∧ (s.mac m).armed = false ∧ s.coresRun = true →
      (s.mac m).link = true →
      fill.val + (f.length + 4) ≤ 131072 →
      60 ≤ f.length ∧ f.length + 4 ≤ k.maxlen ∧ ok = true ∧ ptpEvent f = false →
      k.takes f = true ∧ ethType f = 0x8808 ∧ beField f (ethTypeAt f + 2) 2 = 1 →
      beField f (ethTypeAt f + 4) 2 = q ∧ k.rxpause = true →
      Does (.macFrameReceive m f ok fill) s (fun u =>
        ((u.mac m).pausedTill = (if q = 0 then none else some (s.nowNs + quantaNs q (s.mac m).rate)) ∧ (u.mac m).pausedAt = s.nowNs ∧ (u.mac m).posted = (s.mac m).posted) ∧
        (∀ k, k ≠ m.val → u.mac k = s.mac k) ∧
        u.counter (kMac m 12) = s.counter (kMac m 12) + 1 ∧
        u = { s with macs := u.macs, out := u.out, ctr := u.ctr })) ∧
  (∀ (s : State) (m : Fin 2) (f : List Byte) (fill : Fin 131073) (k : MacCfg),
      (s.mac m).cfg = some k ∧ (s.mac m).cfgok = true ∧ (s.mac m).armed = true ∧ s.glb.mode = .vigil →
      (((s.mac m).pats.any fun p => patMatch p.2.1 p.2.2 f) = true ∧ f.length + 4 ≤ k.maxlen ∧ (s.mac m).kept = none) →
      s.cpm.latched = none →
      Does (.macFrameReceive m f true fill) s (fun u =>
        u.cpm.latched = some (2 + m.val) ∧
        (∃ st, (u.mac m).kept = some (f.take 2048, f.length, st)) ∧
        (∀ k, k ≠ m.val → u.mac k = s.mac k) ∧
        u.counter (kMac m 20) = s.counter (kMac m 20) + 1 ∧
        u = { s with macs := u.macs, cpm.latched := u.cpm.latched, ctr := u.ctr })) ∧
  (∀ (s : State) (m : Fin 2) (f : List Byte) (fill : Fin 131073) (k : MacCfg),
      (s.mac m).cfg = some k ∧ (s.mac m).cfgok = true ∧ (s.mac m).armed = true ∧ s.glb.mode = .vigil →
      (((s.mac m).pats.any fun p => patMatch p.2.1 p.2.2 f) = false) →
      exec (.macFrameReceive m f true fill) s = .next (count (kMac m 21) s)) ∧
  (∀ (s : State) (m : Fin 2) (fill : Fin 131073) (k : MacCfg),
      (s.mac m).cfg = some k ∧ k.txpause = true ∧ (s.mac m).link = true ∧ s.coresRun = true →
      (s.mac m).xoff = false ∧ k.hiwat * 1024 ≤ fill.val →
      Does (.xoffRefresh m fill) s (fun u =>
        (u.mac m).xoff = true ∧ (u.mac m).xoffAt = s.nowNs ∧ (u.mac m).fill = fill.val / 1024 ∧
        u.counter (kMac m 10) = s.counter (kMac m 10) + 1 ∧
        (let f := fit 60 (be 6 0x0180C2000001 ++ k.addr ++ be 2 0x8808 ++ be 2 1 ++ be 2 k.pquanta)
         u.out = .mac m (f ++ le 4 (crc32 f)) :: s.out) ∧
        (∀ k, k ≠ m.val → u.mac k = s.mac k) ∧
        u = { s with macs := u.macs, out := u.out, ctr := u.ctr })) ∧
  (∀ (s : State) (m : Fin 2) (fill : Fin 131073) (k : MacCfg),
      (s.mac m).cfg = some k ∧ k.txpause = true ∧ (s.mac m).link = true ∧ s.coresRun = true →
      (s.mac m).xoff = true ∧ k.lowat * 1024 < fill.val →
      (s.mac m).xoffAt + quantaNs k.pquanta (s.mac m).rate / 2 ≤ s.nowNs →
      Does (.xoffRefresh m fill) s (fun u =>
        (u.mac m).xoff = true ∧ (u.mac m).xoffAt = s.nowNs ∧
        u.counter (kMac m 10) = s.counter (kMac m 10) + 1 ∧
        u.out.length = s.out.length + 1 ∧
        (∀ k, k ≠ m.val → u.mac k = s.mac k) ∧
        u = { s with macs := u.macs, out := u.out, ctr := u.ctr })) ∧
  (∀ (s : State) (m : Fin 2) (fill : Fin 131073) (k : MacCfg),
      (s.mac m).cfg = some k ∧ k.txpause = true ∧ (s.mac m).link = true ∧ s.coresRun = true →
      (s.mac m).xoff = true ∧ fill.val ≤ k.lowat * 1024 →
      Does (.xoffRefresh m fill) s (fun u =>
        (u.mac m).xoff = false ∧
        u.counter (kMac m 11) = s.counter (kMac m 11) + 1 ∧
        (∀ k, k ≠ m.val → u.mac k = s.mac k) ∧
        u = { s with macs := u.macs, out := u.out, ctr := u.ctr })) ∧
  (∀ (s : State) (m : Fin 2) (a : Nat),
      (s.mac m).pausedTill = some a →
      s.clocked = true →
      Does (.macPauseExpire m) s (fun u =>
        ((u.mac m).pausedTill = (if a ≤ s.nowNs then none else some a)) ∧
        (∀ k, k ≠ m.val → u.mac k = s.mac k) ∧
        u.out = s.out ∧ u.ctr = s.ctr ∧
        u = { s with macs := u.macs })) ∧
  (∀ (s : State) (m : Fin 2) (x : TxFrame) (l : List TxFrame),
      (s.mac m).link = true ∧ s.coresRun = true →
      (s.mac m).txq = x :: l ∧ (s.mac m).dgramNext = false →
      s.notPaused m x.bytes.length = true ∧ x.onestep = false →
      Does (.macTxComplete m) s (fun u =>
        u.mac m = { s.mac m with txq := l, lastWasDgram := false } ∧
        (∀ k, k ≠ m.val → u.mac k = s.mac k) ∧
        u.out = .mac m (x.bytes ++ le 4 (crc32 x.bytes)) :: s.out ∧
        u.counter (kMac m 0) = s.counter (kMac m 0) + 1 ∧ u.counter (kMac m 1) = s.counter (kMac m 1) + BitVec.ofNat 64 (x.bytes.length + 4) ∧
        u = { s with macs := u.macs, out := u.out, ctr := u.ctr, mcc.threads := u.mcc.threads, hp.cmds := u.hp.cmds, hp.regs := u.hp.regs })) ∧
  (∀ (s : State) (m : Fin 2) (x : TxFrame) (l : List TxFrame),
      (s.mac m).link = true ∧ s.coresRun = true →
      (s.mac m).dgrams = x :: l ∧ (s.mac m).dgramNext = true →
      s.notPaused m (dgramLen x) = true →
      Does (.macTxComplete m) s (fun u =>
        u.mac m = { s.mac m with dgrams := l, lastWasDgram := true } ∧
        (∀ k, k ≠ m.val → u.mac k = s.mac k) ∧
        u.out = .udp m (x.dst.getD 0) x.bytes :: s.out ∧
        u = { s with macs := u.macs, out := u.out, ctr := u.ctr })) ∧
  (∀ (s : State) (m : Fin 2),
      ((s.mac m).link = false ∨ s.coresRun = false) →
      Stays (.macTxComplete m) s) ∧
  (∀ (s : State) (t : Fin 256) (pi : Fin 8) (rt ra : Fin 32) (p : Place) (i : Nat) (b : List Byte) (d : List Byte) (q : Place),
      s.callsAt t pi ra 0xA0 24 p i = true →
      s.load p 24 = b →
      field b 0 1 = 0 ∧ field b 1 1 ≤ 1 ∧ zeros b 3 1 = true ∧ zeros b 6 2 = true ∧ zeros b 16 8 = true →
      field b 2 1 ≤ 1 ∧ 60 ≤ field b 4 2 ∧ field b 4 2 ≤ s.maxlen (field b 1 1) - 4 →
      (s.thr t).bufPlace t (field b 8 8) (field b 4 2) = some q →
      s.poisoned q (field b 4 2) = false →
      s.load q (field b 4 2) = d →
      (s.mac (field b 1 1)).link = true ∧ (s.mac (field b 1 1)).txq.length < 256 →
      Answers (.macSend t pi rt ra) t 0xA0 ra i s (fun r =>
        r.status = stOk ∧ r.out = [] ∧ r.waits = some (.macTx (field b 1 1) (s.mac (field b 1 1)).nextId) ∧
        r.st.mac (field b 1 1) = { s.mac (field b 1 1) with txq := (s.mac (field b 1 1)).txq ++ [{ bytes := d, stamp := bitAt (field b 2 1) 0, id := (s.mac (field b 1 1)).nextId, steps := s.stepsSoFar }], nextId := (s.mac (field b 1 1)).nextId + 1 } ∧
        (∀ k, k ≠ (field b 1 1) → r.st.mac k = s.mac k) ∧
        r.st = { calling t rt i s with macs := r.st.macs })) ∧
  (∀ (s : State) (t : Fin 256) (pi : Fin 8) (rt ra : Fin 32) (p : Place) (i : Nat) (b : List Byte) (d : List Byte) (q : Place),
      s.callsAt t pi ra 0xA0 24 p i = true →
      s.load p 24 = b →
      field b 0 1 = 0 ∧ field b 1 1 ≤ 1 ∧ zeros b 3 1 = true ∧ zeros b 6 2 = true ∧ zeros b 16 8 = true →
      field b 2 1 = 0 ∧ 60 ≤ field b 4 2 ∧ field b 4 2 ≤ s.maxlen (field b 1 1) - 4 →
      (s.thr t).bufPlace t (field b 8 8) (field b 4 2) = some q →
      s.poisoned q (field b 4 2) = false →
      s.load q (field b 4 2) = d →
      (s.mac (field b 1 1)).link = false →
      Answers (.macSend t pi rt ra) t 0xA0 ra i s (fun r =>
        r.status = stNoRoute ∧ r.out = [(8, zeroBytes 16)] ∧ r.waits = none ∧
        r.st = count (kMac (field b 1 1) 22) (calling t rt i s))) ∧
  (∀ (s : State) (t : Fin 256) (pi : Fin 8) (rt ra : Fin 32) (p : Place) (i : Nat) (b : List Byte),
      s.callsAt t pi ra 0xA0 24 p i = true →
      s.load p 24 = b →
      field b 0 1 = 0 ∧ field b 1 1 ≤ 1 ∧ zeros b 3 1 = true ∧ zeros b 6 2 = true ∧ zeros b 16 8 = true →
      (8 ≤ field b 2 1 ∨ field b 4 2 < 60 ∨ s.maxlen (field b 1 1) - 4 < field b 4 2) →
      Answers (.macSend t pi rt ra) t 0xA0 ra i s (fun r =>
        r.refuses stBadArg (calling t rt i s))) ∧
  (∀ (s : State) (t : Fin 256) (pi : Fin 8) (rt ra : Fin 32) (p : Place) (i : Nat) (b : List Byte) (d : List Byte) (q : Place),
      s.callsAt t pi ra 0xA0 24 p i = true →
      s.load p 24 = b →
      field b 0 1 = 1 ∧ field b 1 1 ≤ 1 ∧ zeros b 2 2 = true ∧ zeros b 6 2 = true ∧ zeros b 16 8 = true ∧ (s.thr t).level ≠ .task →
      field b 4 2 = 128 →
      (s.thr t).bufPlace t (field b 8 8) (128) = some q →
      s.poisoned q (128) = false →
      s.load q (128) = d →
      macCfgBad d = false ∧ (macCfgOf d).enable = true →
      (s.mac (field b 1 1)).posted = [] ∧ (s.mac (field b 1 1)).cfg = none →
      Answers (.macConfig t pi rt ra) t 0xA0 ra i s (fun r =>
        r.good [] ∧
        r.st.mac (field b 1 1) = { s.mac (field b 1 1) with cfg := some (macCfgOf d), cfgok := true } ∧
        (∀ k, k ≠ (field b 1 1) → r.st.mac k = s.mac k) ∧
        r.st = { calling t rt i s with macs := r.st.macs })) ∧
  (∀ (s : State) (t : Fin 256) (pi : Fin 8) (rt ra : Fin 32) (p : Place) (i : Nat) (b : List Byte) (d : List Byte) (q : Place),
      s.callsAt t pi ra 0xA0 24 p i = true →
      s.load p 24 = b →
      field b 0 1 = 1 ∧ field b 1 1 ≤ 1 ∧ zeros b 2 2 = true ∧ zeros b 6 2 = true ∧ zeros b 16 8 = true ∧ (s.thr t).level ≠ .task →
      field b 4 2 = 128 →
      (s.thr t).bufPlace t (field b 8 8) (128) = some q →
      s.poisoned q (128) = false →
      s.load q (128) = d →
      macCfgBad d = true →
      Answers (.macConfig t pi rt ra) t 0xA0 ra i s (fun r =>
        r.refuses stBadArg (calling t rt i s))) ∧
  (∀ (s : State) (t : Fin 256) (pi : Fin 8) (rt ra : Fin 32) (p : Place) (i : Nat) (b : List Byte) (d : List Byte) (q : Place),
      s.callsAt t pi ra 0xA0 24 p i = true →
      s.load p 24 = b →
      field b 0 1 = 2 ∧ field b 1 1 ≤ 1 ∧ zeros b 2 2 = true ∧ zeros b 6 2 = true ∧ zeros b 16 8 = true ∧ (s.thr t).level ≠ .task →
      field b 4 2 = 152 →
      (s.thr t).bufPlace t (field b 8 8) (152) = some q →
      s.poisoned q (152) = false →
      s.load q (152) = d →
      field d 0 1 ≤ 7 ∧ field d 1 1 ≤ 1 ∧ zeros d 2 6 = true →
      Answers (.macWake t pi rt ra) t 0xA0 ra i s (fun r =>
        r.good [] ∧
        (∀ k, (r.st.mac (field b 1 1)).pats.find k = if k = field d 0 1 then (if field d 1 1 = 1 then some (field d 8 16, slice d 24 128) else none) else (s.mac (field b 1 1)).pats.find k) ∧
        (∀ k, k ≠ (field b 1 1) → r.st.mac k = s.mac k) ∧
        r.st = { calling t rt i s with macs := r.st.macs })) ∧
  (∀ (s : State) (t : Fin 256) (pi : Fin 8) (rt ra : Fin 32) (p : Place) (i : Nat) (b : List Byte),
      s.callsAt t pi ra 0xA1 24 p i = true →
      s.load p 24 = b →
      field b 0 1 ≤ 1 ∧ zeros b 1 3 = true ∧ field b 4 4 % 8 = 0 ∧ s.maxlen (field b 0 1) ≤ field b 4 4 →
      s.bufOk t (field b 8 8) (field b 4 4) = true →
      (s.mac (field b 0 1)).posted.length < 256 ∧ (s.mac (field b 0 1)).kept = none →
      Answers (.macRxpost t pi rt ra) t 0xA1 ra i s (fun r =>
        r.good [] ∧
        r.st.mac (field b 0 1) = { s.mac (field b 0 1) with posted := (s.mac (field b 0 1)).posted ++ [{ thread := t, buf := field b 8 8, len := field b 4 4, cookie := field b 16 8 }] } ∧
        (∀ k, k ≠ field b 0 1 → r.st.mac k = s.mac k) ∧
        r.st = { calling t rt i s with macs := r.st.macs })) ∧
  (∀ (s : State) (t : Fin 256) (pi : Fin 8) (rt ra : Fin 32) (p : Place) (i : Nat) (b : List Byte),
      s.callsAt t pi ra 0xA1 24 p i = true →
      s.load p 24 = b →
      (1 < field b 0 1 ∨ field b 4 4 % 8 ≠ 0 ∨ field b 4 4 < s.maxlen (field b 0 1)) →
      Answers (.macRxpost t pi rt ra) t 0xA1 ra i s (fun r =>
        r.refuses stBadArg (calling t rt i s))) ∧
  (∀ (s : State) (g : BitVec 16),
      s.cpm.porstN = false →
      exec (.powerOn g true) s = .next { s with cpm := { s.cpm with porstN := true, cause := 0, gpioIn := g, strap := g.getLsbD 0, pwrenCore := true, pwrenNand := true, pgood := false, vidCode := 10, vidTarget := 10 } }) ∧
  (∀ (s : State) (g : BitVec 16) (testN : Bool),
      (s.cpm.porstN = true ∨ testN = false) →
      Stays (.powerOn g testN) s) ∧
  (∀ (s : State) (o : Nat),
      s.glb.mode = .off ∧ s.cpm.porstN = true ∧ s.cpm.pwrenCore = true →
      o / 1000000000 < 2 ^ 64 →
      Does (.pgoodRise o) s (fun u =>
        u.glb.mode = .bringup ∧ u.cpm.lastRst = s.cpm.cause ∧ u.cpm.pgood = true ∧ u.cpm.drain = .none ∧ u.cpm.resetDue = none ∧
        (s.cpm.cause ≠ 0 → u.nowNs = o) ∧
        (u.cpm.pcycle = (if s.cpm.cause = 3 ∨ s.cpm.pcycle = 0xFFFFFFFF then s.cpm.pcycle else s.cpm.pcycle + 1)) ∧
        u.mcc = State.reset.mcc ∧ u.ing = State.reset.ing ∧ u.bal = State.reset.bal ∧ u.rla = State.reset.rla ∧ u.macs = [] ∧ u.cas.pair = 0 ∧ u.otp = s.otp ∧ u.pending = s.pending)) ∧
  (∀ (s : State) (o : Nat),
      (s.glb.mode ≠ .off ∨ s.cpm.porstN = false ∨ s.cpm.pwrenCore = false) →
      Stays (.pgoodRise o) s) ∧
  (∀ (s : State),
      s.glb.mode = .off ∧ s.cpm.porstN = true ∧ s.cpm.pwrenCore = true ∧ s.cpm.pgood = false →
      Does (.pgoodTimeout) s (fun u =>
        u.cpm = { s.cpm with pwrenCore := false, pwrenNand := false } ∧
        (∃ r, u.sepia.ring.head? = some r ∧ r.typ = 0x0107 ∧ r.body = zeroBytes 8) ∧
        u.counter (kCpm 9) = s.counter (kCpm 9) + 1 ∧
        u = { s with cpm := u.cpm, sepia := u.sepia, ctr := u.ctr })) ∧
  (∀ (s : State),
      (s.glb.mode ≠ .off ∨ s.cpm.pgood = true) →
      Stays (.pgoodTimeout) s) ∧
  (∀ (s : State),
      s.glb.mode = .off ∧ s.cpm.porstN = true ∧ s.cpm.pwrenCore = false ∧ s.cpm.pfail = false →
      exec .pgoodRetry s = .next { s with cpm := { s.cpm with pwrenCore := true, pwrenNand := true, pgood := false, vidCode := 10, vidTarget := 10 } }) ∧
  (∀ (s : State),
      (s.glb.mode ≠ .off ∨ s.cpm.pwrenCore = true ∨ s.cpm.pfail = true) →
      Stays (.pgoodRetry) s) ∧
  (∀ (s : State),
      s.cpm.porstN = true ∧ s.cpm.slowFail = false →
      Does (.slowclkFail) s (fun u =>
        u.cpm = { s.cpm with slowFail := true } ∧
        (∃ r, u.sepia.ring.head? = some r ∧ r.typ = 0x0107 ∧ r.body = le 1 1 ++ zeroBytes 7) ∧
        u = { s with cpm := u.cpm, sepia := u.sepia, ctr := u.ctr })) ∧
  (∀ (s : State),
      s.cpm.porstN = true →
      Does (.porstAssert) s (fun u =>
        u.glb.mode = .off ∧ u.cpm.porstN = false ∧ u.cpm.pwrenCore = false ∧ u.cpm.pwrenNand = false ∧ u.cpm.cause = 0 ∧ u.cpm.tempTrip = false ∧
        u.ctr = [] ∧ u.woad.debugSub = false ∧ u.stest.fullNext = false ∧ u.sepia = s.sepia ∧ u.evr.ring = s.evr.ring.filter (·.landed) ∧ u.evr.staged = [] ∧ u.ldg.dur = s.ldg.dur ∧ u.woad.durSlots = s.woad.durSlots ∧
        (u.mcc = State.reset.mcc ∧ u.ing = State.reset.ing ∧ u.bal = State.reset.bal ∧ u.rla = State.reset.rla ∧ u.macs = [] ∧ u.hp = State.reset.hp ∧ u.otp = s.otp ∧ u.pending = s.pending))) ∧
  (∀ (s : State),
      s.cpm.porstN = false →
      Stays (.porstAssert) s) ∧
  (∀ (s : State),
      s.cpm.porstN = true ∧ s.cpm.pfail = false ∧ s.stest.frozen = false →
      (s.glb.mode = .bringup ∨ s.glb.mode = .service ∨ s.glb.mode = .standby) →
      Does (.holdupEntry) s (fun u =>
        u.glb.mode = .holdup ∧ u.cpm.pfail = true ∧ u.cpm.pfailAt = s.nowNs ∧ u.cpm.vidCode = 5 ∧ u.cpm.drain = .none ∧ u.cpm.resetDue = none ∧
        u.rla.acks = [] ∧ u.rla.layers = [] ∧
        (∃ r, u.sepia.ring.head? = some r ∧ r.typ = 0x0101 ∧ r.body = le 1 s.glb.mode.code ++ zeroBytes 7) ∧
        u.otp = s.otp ∧ u.ldg.live = s.ldg.live ∧ u.ldg.dur = s.ldg.dur)) ∧
  (∀ (s : State),
      s.cpm.porstN = true ∧ s.cpm.pfail = false →
      s.glb.mode = .vigil →
      Does (.holdupEntry) s (fun u =>
        u.glb.mode = .off ∧ u.cpm.cause = 2 ∧ u.cpm.pwrenCore = false ∧ u.cpm.pwrenNand = false ∧ u.cpm.pgood = false ∧
        u.cpm.pfail = true ∧
        (∃ r, u.sepia.ring.head? = some r ∧ r.typ = 0x0101 ∧ r.body = le 1 5 ++ le 1 1 ++ zeroBytes 6) ∧
        (u.mcc = State.reset.mcc ∧ u.ing = State.reset.ing ∧ u.bal = State.reset.bal ∧ u.rla = State.reset.rla ∧ u.macs = [] ∧ u.hp = State.reset.hp ∧ u.otp = s.otp ∧ u.pending = s.pending))) ∧
  (∀ (s : State),
      s.cpm.porstN = true ∧ s.cpm.pfail = false ∧ s.stest.frozen = true →
      (s.glb.mode = .bringup ∨ s.glb.mode = .service ∨ s.glb.mode = .standby) →
      Does (.holdupEntry) s (fun u =>
        u.glb.mode = .off ∧ u.cpm.cause = 1 ∧ u.cpm.pwrenCore = false ∧ u.cpm.pwrenNand = false ∧ u.cpm.pgood = false ∧
        u.cpm.pfail = true ∧
        (∃ r, u.sepia.ring.head? = some r ∧ r.typ = 0x0101 ∧ r.body = le 1 s.glb.mode.code ++ zeroBytes 1 ++ le 1 1 ++ zeroBytes 5) ∧
        (u.mcc = State.reset.mcc ∧ u.ing = State.reset.ing ∧ u.bal = State.reset.bal ∧ u.rla = State.reset.rla ∧ u.macs = [] ∧ u.hp = State.reset.hp ∧ u.otp = s.otp ∧ u.pending = s.pending))) ∧
  (∀ (s : State),
      s.cpm.porstN = true ∧ s.cpm.pfail = false →
      s.glb.mode = .off →
      exec .holdupEntry s = .next { s with cpm := { s.cpm with pfail := true, pwrenCore := false, pwrenNand := false } }) ∧
  (∀ (s : State),
      (s.cpm.porstN = false ∨ s.cpm.pfail = true) →
      Stays (.holdupEntry) s) ∧
  (∀ (s : State) (o : Nat),
      s.glb.mode = .holdup →
      Does (.holdupFlushComplete false o) s (fun u =>
        u.glb.mode = .off ∧ u.cpm.cause = 1 ∧ u.cpm.pwrenCore = false ∧ u.cpm.pwrenNand = false ∧ u.cpm.pgood = false ∧
        u.mcc = State.reset.mcc ∧ u.ing = State.reset.ing ∧ u.macs = [])) ∧
  (∀ (s : State) (o : Nat),
      s.glb.mode = .holdup →
      (s.lake.inited = false ∨ s.lake.formatted = false) →
      Does (.holdupFlushComplete false o) s (fun u =>
        u.cpm.holdup = BitVec.ofNat 32 (sat32 ((s.nowNs - s.cpm.pfailAt) / 1000)) ∧
        (u.mcc = State.reset.mcc ∧ u.ing = State.reset.ing ∧ u.bal = State.reset.bal ∧ u.rla = State.reset.rla ∧ u.macs = [] ∧ u.hp = State.reset.hp ∧ u.otp = s.otp ∧ u.pending = s.pending))) ∧
  (∀ (s : State) (o : Nat),
      s.glb.mode = .holdup →
      Does (.holdupFlushComplete true o) s (fun u =>
        u.glb.mode = .bringup ∧ u.cpm.lastRst = 4 ∧ u.cpm.pwrenCore = true ∧
        u.mcc = State.reset.mcc ∧ u.ing = State.reset.ing ∧ u.macs = [])) ∧
  (∀ (s : State) (high : Bool) (o : Nat),
      s.glb.mode ≠ .holdup →
      Stays (.holdupFlushComplete high o) s) ∧
  (∀ (s : State),
      s.cpm.porstN = true →
      (s.glb.mode ≠ .off ∨ s.cpm.cause = 0 ∨ s.cpm.pwrenCore = true) →
      exec .powerRestored s = .next { s with cpm.pfail := false }) ∧
  (∀ (s : State),
      s.cpm.porstN = true →
      s.glb.mode = .off ∧ s.cpm.cause ≠ 0 ∧ s.cpm.pwrenCore = false →
      exec .powerRestored s = .next { s with cpm := { s.cpm with pfail := false, pwrenCore := true, pwrenNand := true, pgood := false, vidCode := 10, vidTarget := 10 } }) ∧
  (∀ (s : State),
      s.cpm.vreq = false ∧ s.cpm.porstN = true ∧ s.stest.frozen = false →
      s.glb.mode = .service ∧ s.lake.ready = true ∧ s.cpm.drain = .none ∧ s.cpm.resetDue = none →
      (∀ p ∈ s.cas.ports, p.2.role = 0) →
      Does (.vigilRequest) s (fun u =>
        u.cpm = { s.cpm with vreq := true, drain := .vigil } ∧
        (u.rla.acks = [] ∧ u.rla.layers = [] ∧ u.rla.ports = s.rla.ports.mapVals (fun x => x.cut s.nowNs) ∧ (∀ p : Fin 4, (u.lport p).rx = none ∧ (u.lport p).resp = none ∧ (u.lport p).desc = (s.lport p).desc)) ∧
        u.glb.mode = .service ∧ u.hp = s.hp ∧ u.mcc = s.mcc ∧ u.ldg = s.ldg ∧ u.ing = s.ing ∧ u.lake = s.lake ∧ u.woad = s.woad)) ∧
  (∀ (s : State) (n : Nat),
      s.cpm.vreq = false ∧ s.cpm.porstN = true ∧ s.stest.frozen = false ∧ s.glb.mode ≠ .off ∧ s.glb.mode ≠ .vigil →
      ((if s.glb.mode ≠ .service then 1 else if (s.cas.ports.any fun p => p.2.role != 0) then 2 else if s.lake.ready = false then 3 else 0) = n) →
      n ≠ 0 →
      Does (.vigilRequest) s (fun u =>
        u.cpm = { s.cpm with vreq := true, vrefuse := n } ∧
        u.counter (kCpm 5) = s.counter (kCpm 5) + 1 ∧
        u = { s with cpm := u.cpm, ctr := u.ctr })) ∧
  (∀ (s : State),
      (s.cpm.vreq = true ∨ s.cpm.porstN = false) →
      Stays (.vigilRequest) s) ∧
  (∀ (s : State) (o : Nat),
      s.cpm.drain = .vigil ∧ s.coresRun = true →
      Does (.vigilCommit [] o) s (fun u =>
        u.glb.mode = .vigil ∧ u.cpm.drain = .none ∧ u.cpm.pwrenCore = false ∧ u.cpm.pwrenNand = false ∧ u.cpm.pgood = false ∧ u.cpm.vigilAt = s.nowNs ∧
        u.lake.inited = false ∧ u.tmu.pulseEnd = [] ∧ u.hp.dlup = false)) ∧
  (∀ (s : State) (o : Nat),
      s.cpm.drain = .vigil ∧ s.coresRun = true →
      Does (.vigilCommit [.rise] o) s (fun u =>
        u.glb.mode = .service ∧ u.cpm.wakeSrc = 1 ∧ u.cpm.replay = true ∧ u.cpm.drain = .none ∧ u.cpm.pwrenCore = true)) ∧
  (∀ (s : State) (l : List CommitEv) (o : Nat),
      (s.cpm.drain ≠ .vigil ∨ s.coresRun = false) →
      Stays (.vigilCommit l o) s) ∧
  (∀ (s : State) (o : Nat),
      s.cpm.porstN = true ∧ s.cpm.drain = .vigil →
      Does (.vigilWake true o) s (fun u =>
        u.cpm = { s.cpm with vreq := false, drain := .none } ∧
        u.counter (kCpm 6) = s.counter (kCpm 6) + 1 ∧
        u = { s with cpm := u.cpm, ctr := u.ctr })) ∧
  (∀ (s : State) (o n : Nat) (rise : Bool),
      s.cpm.porstN = true ∧ s.cpm.drain ≠ .vigil ∧ s.glb.mode = .vigil →
      (s.cpm.latched = some n ∨ (s.cpm.latched = none ∧ rise = true ∧ n = 1)) →
      Does (.vigilWake rise o) s (fun u =>
        u.glb.mode = .service ∧ u.cpm.wakeSrc = n ∧ u.cpm.replay = false ∧ u.cpm.latched = none ∧ u.cpm.pwrenCore = true ∧ u.cpm.pwrenNand = true ∧ u.cpm.vspan = BitVec.ofNat 32 (sat32 ((o - s.cpm.vigilAt) / 1000000000)) ∧
        (∀ k, (u.mac k).armed = false) ∧
        (60000000000 ≤ o - s.cpm.vigilAt → u.tmu.valid = false))) ∧
  (∀ (s : State) (o : Nat),
      s.glb.mode ≠ .vigil ∧ s.cpm.drain ≠ .vigil →
      Stays (.vigilWake false o) s) ∧
  (∀ (s : State) (o n : Nat),
      (s.glb.mode = .bringup ∨ s.glb.mode = .service ∨ s.glb.mode = .standby) →
      s.cpm.resetDue = some n →
      o / 1000000000 < 2 ^ 64 ∧ n ≠ 0 →
      Does (.internalReset o) s (fun u =>
        u.glb.mode = .bringup ∧ u.cpm.lastRst = n ∧ u.cpm.resetDue = none ∧ u.cpm.drain = .none ∧ u.stest.frozen = false ∧
        u.nowNs = o ∧
        u.mcc = State.reset.mcc ∧ u.ing = State.reset.ing ∧ u.bal = State.reset.bal ∧ u.rla = State.reset.rla ∧ u.macs = [] ∧ u.cas.pair = 0 ∧ u.otp = s.otp ∧ u.pending = s.pending)) ∧
  (∀ (s : State) (o : Nat),
      (s.cpm.resetDue = none ∨ s.glb.mode = .holdup ∨ s.glb.mode = .vigil ∨ s.glb.mode = .off) →
      Stays (.internalReset o) s)

/-- REC_WRITE and staging (R442, R444), the online test (R20, R452, R453), CORE_VID, minutes, temperature (R402, R417, R480), freeze (R454), JTAG (R456 to R460). The boundary-scan cells are a free value (log 80). -/
def Obligations.RecorderTestAndDebug : Prop :=
  (∀ (s : State) (t : Fin 256) (pi : Fin 8) (rt ra : Fin 32) (p : Place) (i : Nat) (b : List Byte) (d : List Byte) (q : Place),
      s.callsAt t pi ra 0xC0 16 p i = true →
      s.load p 16 = b →
      (zeros b 4 4 = true ∧ 0x7000 ≤ field b 0 2 ∧ field b 2 2 ≤ 992 ∧ (field b 0 2 < 0x8000 → (s.thr t).level = .legal)) →
      (s.thr t).bufPlace t (field b 8 8) (field b 2 2) = some q →
      s.poisoned q (field b 2 2) = false →
      s.load q (field b 2 2) = d →
      s.lake.ready = true ∧ s.evr.staged = [] →
      Answers (.recWrite t pi rt ra) t 0xC0 ra i s (fun r =>
        r.good [(8, le 8 s.evr.eseq.toNat)] ∧
        (∃ e, r.st.evr.ring.getLast? = some e ∧ e.typ = field b 0 2 ∧ e.data = d ∧ e.eseq = s.evr.eseq ∧ e.opmin = s.cpm.opmin ∧ e.pcycle = s.cpm.pcycle) ∧
        r.st.evr.eseq = s.evr.eseq + 1 ∧
        r.st.counter (kRec 1) = s.counter (kRec 1) + 1 ∧
        r.st = { calling t rt i s with evr := r.st.evr, ctr := r.st.ctr })) ∧
  (∀ (s : State) (t : Fin 256) (pi : Fin 8) (rt ra : Fin 32) (p : Place) (i : Nat) (b : List Byte) (d : List Byte) (q : Place),
      s.callsAt t pi ra 0xC0 16 p i = true →
      s.load p 16 = b →
      (zeros b 4 4 = true ∧ 0x7000 ≤ field b 0 2 ∧ field b 2 2 ≤ 992 ∧ (field b 0 2 < 0x8000 → (s.thr t).level = .legal)) →
      (s.thr t).bufPlace t (field b 8 8) (field b 2 2) = some q →
      s.poisoned q (field b 2 2) = false →
      s.load q (field b 2 2) = d →
      ((s.lake.ready = false ∨ s.evr.staged ≠ []) ∧ s.evr.stagedBytes + evLen d ≤ 65536) →
      Answers (.recWrite t pi rt ra) t 0xC0 ra i s (fun r =>
        r.good [(8, le 8 s.evr.eseq.toNat)] ∧
        (∃ e, r.st.evr.staged = s.evr.staged ++ [e] ∧ e.typ = field b 0 2 ∧ e.data = d ∧ e.eseq = s.evr.eseq ∧ e.opmin = s.cpm.opmin ∧ e.pcycle = s.cpm.pcycle) ∧
        r.st.evr.eseq = s.evr.eseq + 1 ∧ r.st.evr.ring = s.evr.ring ∧
        r.st = { calling t rt i s with evr := r.st.evr, ctr := r.st.ctr })) ∧
  (∀ (s : State) (t : Fin 256) (pi : Fin 8) (rt ra : Fin 32) (p : Place) (i : Nat) (b : List Byte),
      s.callsAt t pi ra 0xC0 16 p i = true →
      s.load p 16 = b →
      (field b 0 2 < 0x7000 ∨ (field b 0 2 < 0x8000 ∧ (s.thr t).level ≠ .legal) ∨ 992 < field b 2 2) →
      Answers (.recWrite t pi rt ra) t 0xC0 ra i s (fun r =>
        r.refuses stBadArg (calling t rt i s))) ∧
  (∀ (s : State) (x : Nat × Nat × Nat) (l : List (Nat × Nat × Nat)),
      s.lake.ready = true →
      s.evr.clears = x :: l ∧ s.evr.clearing = none →
      s.clocked = true →
      Does (.eventStagingDrain) s (fun u =>
        u.evr.staged = [] ∧ u.evr.dropped = 0 ∧ u.evr.clears = l ∧ (u.evr.clearing.map (·.no)) = some x.1 ∧ u.stest.debugDue = false ∧
        u.ldg = s.ldg ∧ u.ing = s.ing ∧ u.woad = s.woad)) ∧
  (∀ (s : State),
      s.lake.ready = true →
      (s.evr.clears = [] ∨ s.evr.clearing.isSome = true) →
      s.clocked = true →
      Does (.eventStagingDrain) s (fun u =>
        u.evr.staged = [] ∧ u.evr.dropped = 0 ∧ u.evr.clears = s.evr.clears ∧ u.evr.clearing = s.evr.clearing ∧ u.stest.debugDue = false ∧
        u.ldg = s.ldg ∧ u.ing = s.ing ∧ u.woad = s.woad)) ∧
  (∀ (s : State) (e : EvRec),
      s.lake.ready = true ∧ s.evr.staged = [e] →
      s.evr.dropped = 0 ∧ s.stest.debugDue = false ∧ s.evr.clears = [] →
      s.clocked = true →
      Does (.eventStagingDrain) s (fun u =>
        (∃ x, u.evr.ring.getLast? = some x ∧ x.typ = e.typ ∧ x.eseq = e.eseq ∧ x.data = e.data ∧ x.tai = e.tai) ∧
        u.evr.eseq = s.evr.eseq ∧
        u = { s with evr := u.evr, ctr := u.ctr })) ∧
  (∀ (s : State),
      s.lake.ready = false →
      Stays (.eventStagingDrain) s) ∧
  (∀ (s : State) (item : Fin 6) (unit : Fin 256),
      ((s.glb.mode = .service ∨ s.glb.mode = .standby) ∧ s.stest.frozen = false ∧ s.cpm.drain = .none ∧ s.stest.bank = 0x7F) →
      (2 ≤ item.val ∧ (s.stest.running = true → s.stest.testAt + 10000000000 ≤ s.nowNs)) →
      s.stest.sramStopped = false ∧ s.glb.spareBank = 0x7F →
      s.stest.nextBank ≠ 95 →
      Does (.onlineTestStep item unit true) s (fun u =>
        u.stest = { s.stest with running := true, testAt := s.nowNs, bank := s.stest.nextBank } ∧
        u.glb = { s.glb with reloc := .copyOut } ∧
        u.counter (kRec 8) = s.counter (kRec 8) + 1 ∧
        u = { s with stest := u.stest, glb := u.glb, ctr := u.ctr })) ∧
  (∀ (s : State) (item : Fin 6) (unit : Fin 256),
      ((s.glb.mode = .service ∨ s.glb.mode = .standby) ∧ s.stest.frozen = false ∧ s.cpm.drain = .none ∧ s.stest.bank = 0x7F) →
      (2 ≤ item.val ∧ (s.stest.running = true → s.stest.testAt + 10000000000 ≤ s.nowNs)) →
      s.stest.sramStopped = false ∧ s.glb.spareBank = 0x7F →
      s.stest.nextBank = 95 →
      Does (.onlineTestStep item unit true) s (fun u =>
        u.stest = { s.stest with running := true, testAt := s.nowNs, bank := 95 } ∧
        u.counter (kRec 8) = s.counter (kRec 8) + 1 ∧
        u = { s with stest := u.stest, ctr := u.ctr })) ∧
  (∀ (s : State) (item : Fin 6) (unit : Fin 256),
      ((s.glb.mode = .service ∨ s.glb.mode = .standby) ∧ s.stest.frozen = false ∧ s.cpm.drain = .none ∧ s.stest.bank = 0x7F) →
      (2 ≤ item.val ∧ (s.stest.running = true → s.stest.testAt + 10000000000 ≤ s.nowNs)) →
      Does (.onlineTestStep item unit false) s (fun u =>
        u.stest.unitsOut.get false (item.val * 256 + unit.val) = true ∧
        (item.val = 4 → u.cpm.resetDue = some 3) ∧
        (s.stest.nextBank ≠ 94 → (∃ r, u.sepia.ring.head? = some r ∧ r.typ = 0x010A ∧ r.body = le 1 1 ++ zeroBytes 3 ++ le 4 (2 ^ item.val)) ∧ u.stest.failedNow = s.stest.failedNow ||| BitVec.ofNat 32 (2 ^ item.val)) ∧
        u.ldg = s.ldg ∧ u.ing = s.ing ∧ u.lake = s.lake ∧ u.woad = s.woad)) ∧
  (∀ (s : State) (item : Fin 6) (unit : Fin 256) (ok : Bool),
      (item.val < 2 ∨ s.stest.bank ≠ 0x7F ∨ s.stest.frozen = true ∨ (s.stest.running = true ∧ s.nowNs < s.stest.testAt + 10000000000)) →
      Stays (.onlineTestStep item unit ok) s) ∧
  (∀ (s : State),
      s.coresRun = true ∧ s.glb.reloc = .copyOut →
      exec .bankCopyComplete s = .next { s with glb.reloc := .active, glb.spareBank := s.stest.bank }) ∧
  (∀ (s : State),
      s.coresRun = true ∧ s.glb.reloc = .copyBack →
      s.stest.bank ≠ 94 →
      exec .bankCopyComplete s = .next { s with glb.reloc := .none, glb.spareBank := 0x7F, stest.bank := 0x7F, stest.nextBank := if s.stest.bank = 95 then 0 else s.stest.bank + 1 }) ∧
  (∀ (s : State),
      s.coresRun = true ∧ s.glb.reloc = .copyBack →
      s.stest.bank = 94 →
      Does (.bankCopyComplete) s (fun u =>
        u.glb.reloc = .none ∧ u.glb.spareBank = 0x7F ∧ u.stest.bank = 0x7F ∧ u.stest.nextBank = 95 ∧ u.stest.failedNow = 0 ∧ u.stest.failed = s.stest.failedNow ∧ u.stest.result = (s.stest.failedNow != 0) ∧ u.stest.scope = true ∧
        Posts 0x0D02 1 (le 1 1 ++ le 1 (flag (s.stest.failedNow != 0)) ++ zeroBytes 2 ++ le 4 s.stest.failedNow.toNat) s u)) ∧
  (∀ (s : State),
      (s.coresRun = false ∨ s.glb.reloc = .none ∨ s.glb.reloc = .active) →
      Stays (.bankCopyComplete) s) ∧
  (∀ (s : State),
      s.coresRun = true ∧ s.glb.reloc = .active →
      s.stest.bank ≠ 0x7F ∧ s.stest.bank ≠ 95 →
      exec (.bankTestComplete true) s = .next { count (kRec 7) s with glb.reloc := .copyBack }) ∧
  (∀ (s : State),
      s.coresRun = true ∧ s.stest.bank = 95 →
      exec (.bankTestComplete true) s = .next { count (kRec 7) s with stest.bank := 0x7F, stest.nextBank := 0 }) ∧
  (∀ (s : State),
      s.coresRun = true ∧ s.glb.reloc = .active →
      s.stest.bank ≠ 0x7F ∧ s.stest.bank ≠ 95 ∧ s.stest.bank ≠ 94 →
      Does (.bankTestComplete false) s (fun u =>
        u.stest.sramStopped = true ∧ u.stest.bank = 0x7F ∧ u.stest.failedNow = s.stest.failedNow ||| 0x200 ∧ u.stest.failed = u.stest.failedNow ∧ u.stest.result = true ∧
        u.glb.spareBank = s.glb.spareBank ∧ u.glb.reloc = .none ∧
        (∃ r, u.sepia.ring.head? = some r ∧ r.typ = 0x010A ∧ r.body = le 1 1 ++ zeroBytes 3 ++ le 4 0x200) ∧
        Posts 0x0D02 1 (le 1 1 ++ le 1 1 ++ zeroBytes 2 ++ le 4 (s.stest.failedNow ||| 0x200).toNat) s u ∧
        u.counter (kRec 9) = s.counter (kRec 9) + 1 ∧
        u.ldg = s.ldg ∧ u.ing = s.ing ∧ u.lake = s.lake ∧ u.woad = s.woad)) ∧
  (∀ (s : State) (ok : Bool),
      (s.coresRun = false ∨ s.stest.bank = 0x7F) →
      Stays (.bankTestComplete ok) s) ∧
  (∀ (s : State),
      s.barRuns = true →
      exec .fullnextSet s = .next { s with stest.fullNext := true }) ∧
  (∀ (s : State),
      s.barRuns = false →
      Stays (.fullnextSet) s) ∧
  (∀ (s : State) (g : BitVec 4),
      ((s.glb.mode = .service ∨ s.glb.mode = .standby) ∧ s.stest.frozen = false) →
      g ≠ s.cpm.vidCode ∧ s.cpm.vidAt + 100000 ≤ s.nowNs →
      Does (.vidStep g) s (fun u =>
        (u.cpm = { s.cpm with vidTarget := g, vidCode := if s.cpm.vidCode < g then s.cpm.vidCode + 1 else s.cpm.vidCode - 1, vidAt := s.nowNs }) ∧
        u.counter (kCpm 7) = s.counter (kCpm 7) + 1 ∧
        u = { s with cpm := u.cpm, ctr := u.ctr })) ∧
  (∀ (s : State) (g : BitVec 4),
      ((s.glb.mode = .service ∨ s.glb.mode = .standby) ∧ s.stest.frozen = false) →
      (g = s.cpm.vidCode ∨ s.nowNs < s.cpm.vidAt + 100000) →
      exec (.vidStep g) s = .next { s with cpm.vidTarget := g }) ∧
  (∀ (s : State) (g : BitVec 4),
      ((s.glb.mode ≠ .service ∧ s.glb.mode ≠ .standby) ∨ s.stest.frozen = true) →
      Stays (.vidStep g) s) ∧
  (∀ (s : State),
      s.cpm.porstN = true →
      Does (.opminTick) s (fun u =>
        (u.cpm.opmin = (if s.cpm.opmin = 0xFFFFFFFF then s.cpm.opmin else s.cpm.opmin + 1)) ∧
        (u.sepia.copies.1.opmin = u.cpm.opmin ∧ u.sepia.copies.1.pcycle = s.cpm.pcycle ∧ u.sepia.copies.2 = s.sepia.copies.2 ∨ u.sepia.copies.2.opmin = u.cpm.opmin ∧ u.sepia.copies.2.pcycle = s.cpm.pcycle ∧ u.sepia.copies.1 = s.sepia.copies.1) ∧
        u = { s with cpm := u.cpm, sepia.copies := u.sepia.copies, hp := u.hp, glb := u.glb, ctr := u.ctr })) ∧
  (∀ (s : State),
      s.cpm.porstN = true ∧ s.cpm.opmin = 0xFFFFFFFE ∧ s.cpm.opminPosted = false ∧ s.powered = true →
      s.cpm.pcycle ≠ 0xFFFFFFFF →
      Does (.opminTick) s (fun u =>
        Posts 0x0D03 1 [] s u ∧ u.cpm.opminPosted = true)) ∧
  (∀ (s : State),
      s.cpm.porstN = false →
      Stays (.opminTick) s) ∧
  (∀ (s : State) (x : BitVec 8),
      s.powered = true →
      exec (.thermalSample x) s = .next { s with cpm := { s.cpm with tempNow := x, tempMax := if s.cpm.tempSeen = false ∨ s.cpm.tempMax.toInt < x.toInt then x else s.cpm.tempMax, tempSeen := true, tempTrip := s.cpm.tempTrip || decide (125 ≤ x.toInt), cold := decide (x.toInt < 0) } }) ∧
  (∀ (s : State) (x : BitVec 8),
      s.powered = false →
      Stays (.thermalSample x) s) ∧
  (∀ (s : State),
      s.stest.frozen = false →
      (s.glb.mode = .bringup ∨ s.glb.mode = .service ∨ s.glb.mode = .standby) →
      Does (.freeze) s (fun u =>
        u.stest = { s.stest with frozen := true } ∧ u.coresRun = false ∧
        (∃ r, u.sepia.ring.head? = some r ∧ r.typ = 0x0108 ∧ r.body = le 1 s.glb.mode.code ++ zeroBytes 7) ∧
        u.counter (kRec 10) = s.counter (kRec 10) + 1 ∧
        (u.cas = { s.cas with holdB := u.cas.holdB } ∧ ((s.cas.paired = false ∨ s.activeUnit = false) → u.cas = s.cas)) ∧
        u = { s with stest := u.stest, cas := u.cas, sepia := u.sepia, ctr := u.ctr })) ∧
  (∀ (s : State),
      (s.stest.frozen = true ∨ s.glb.mode = .off ∨ s.glb.mode = .holdup ∨ s.glb.mode = .vigil) →
      Stays (.freeze) s) ∧
  (∀ (s : State),
      exec .tapReset s = .next { s with stest.ir := 0x02 }) ∧
  (∀ (s : State),
      (s.cpm.porstN = false ∨ s.stest.frozen = true) →
      Does (.extest) s (fun u =>
        u.stest.ir = 0x00 ∧ u.stest.tapUsed = true ∧
        (∃ v, u.out = .tap (v) :: s.out) ∧
        u = { s with stest.ir := u.stest.ir, stest.tapUsed := u.stest.tapUsed, out := u.out, free := u.free })) ∧
  (∀ (s : State),
      s.cpm.porstN = true ∧ s.stest.frozen = false →
      Does (.extest) s (fun u =>
        u.stest.ir = 0x00 ∧ u.stest.tapUsed = true ∧
        u.out = .tap (0) :: s.out ∧
        u = { s with stest.ir := u.stest.ir, stest.tapUsed := u.stest.tapUsed, out := u.out })) ∧
  (∀ (s : State),
      Does (.samplePreload) s (fun u =>
        u.stest.ir = 0x01 ∧ u.stest.tapUsed = true ∧
        (∃ v, u.out = .tap (v) :: s.out) ∧
        u = { s with stest.ir := u.stest.ir, stest.tapUsed := u.stest.tapUsed, out := u.out, free := u.free })) ∧
  (∀ (s : State),
      Does (.idcode) s (fun u =>
        u.stest.ir = 0x02 ∧ u.stest.tapUsed = s.stest.tapUsed ∧
        u.out = .tap (0x2810014F) :: s.out ∧
        u = { s with stest.ir := u.stest.ir, stest.tapUsed := u.stest.tapUsed, out := u.out })) ∧
  (∀ (s : State),
      Does (.dstat) s (fun u =>
        u.stest.ir = 0x10 ∧ u.stest.tapUsed = true ∧
        u.out = .tap (s.glb.mode.code * 32 + 16 * flag s.stest.halt + 8 * flag s.debugLock + 4 * flag s.woad.debugSub + 2 * flag s.stest.frozen) :: s.out ∧
        u = { s with stest.ir := u.stest.ir, stest.tapUsed := u.stest.tapUsed, out := u.out })) ∧
  (∀ (s : State) (v : BitVec 64),
      Does (.daddr v) s (fun u =>
        u.stest.ir = 0x11 ∧ u.stest.tapUsed = true ∧
        u.stest.daddr = v ∧
        u = { s with stest.ir := u.stest.ir, stest.tapUsed := u.stest.tapUsed, stest.daddr := u.stest.daddr })) ∧
  (∀ (s : State) (a : Nat),
      s.stest.daddr.toNat / 8 * 8 = a →
      a / 2 ^ 32 = 0 →
      a % 2 ^ 32 < 0x100000 ∧ s.stest.frozen = true →
      Does (.ddata) s (fun u =>
        u.out = .tap (0 * 2 ^ 64 + (s.readReg (a % 2 ^ 32) + s.readReg (a % 2 ^ 32 + 4) * 2 ^ 32) % 2 ^ 64) :: s.out ∧
        u.stest.daddr = s.stest.daddr + 8 ∧ u.stest.ddata = BitVec.ofNat 66 (0 * 2 ^ 64 + (s.readReg (a % 2 ^ 32) + s.readReg (a % 2 ^ 32 + 4) * 2 ^ 32) % 2 ^ 64) ∧
        u.stest.ir = 0x12 ∧ u.stest.tapUsed = true ∧
        u = { s with stest.ir := u.stest.ir, stest.tapUsed := u.stest.tapUsed, stest.daddr := u.stest.daddr, stest.ddata := u.stest.ddata, out := u.out })) ∧
  (∀ (s : State) (a : Nat),
      s.stest.daddr.toNat / 8 * 8 = a →
      a / 2 ^ 32 = 0 →
      a % 2 ^ 32 < 0x100000 ∧ s.stest.frozen = false →
      Does (.ddata) s (fun u =>
        u.out = .tap (2 * 2 ^ 64 + 0 % 2 ^ 64) :: s.out ∧
        u.stest.daddr = s.stest.daddr + 8 ∧ u.stest.ddata = BitVec.ofNat 66 (2 * 2 ^ 64 + 0 % 2 ^ 64) ∧
        u.stest.ir = 0x12 ∧ u.stest.tapUsed = true ∧
        u = { s with stest.ir := u.stest.ir, stest.tapUsed := u.stest.tapUsed, stest.daddr := u.stest.daddr, stest.ddata := u.stest.ddata, out := u.out })) ∧
  (∀ (s : State) (a : Nat),
      s.stest.daddr.toNat / 8 * 8 = a →
      a / 2 ^ 32 = 2 →
      s.woad.debugSub = false →
      Does (.ddata) s (fun u =>
        u.out = .tap (1 * 2 ^ 64 + 0 % 2 ^ 64) :: s.out ∧
        u.stest.daddr = s.stest.daddr + 8 ∧ u.stest.ddata = BitVec.ofNat 66 (1 * 2 ^ 64 + 0 % 2 ^ 64) ∧
        u.stest.ir = 0x12 ∧ u.stest.tapUsed = true ∧
        u.counter (kRec 11) = s.counter (kRec 11) + 1 ∧
        u = { s with stest.ir := u.stest.ir, stest.tapUsed := u.stest.tapUsed, stest.daddr := u.stest.daddr, stest.ddata := u.stest.ddata, out := u.out, ctr := u.ctr })) ∧
  (∀ (s : State) (a : Nat),
      s.stest.daddr.toNat / 8 * 8 = a →
      a / 2 ^ 32 = 2 →
      s.woad.debugSub = true ∧ s.stest.frozen = false →
      Does (.ddata) s (fun u =>
        u.out = .tap (2 * 2 ^ 64 + 0 % 2 ^ 64) :: s.out ∧
        u.stest.daddr = s.stest.daddr + 8 ∧ u.stest.ddata = BitVec.ofNat 66 (2 * 2 ^ 64 + 0 % 2 ^ 64) ∧
        u.stest.ir = 0x12 ∧ u.stest.tapUsed = true ∧
        u = { s with stest.ir := u.stest.ir, stest.tapUsed := u.stest.tapUsed, stest.daddr := u.stest.daddr, stest.ddata := u.stest.ddata, out := u.out })) ∧
  (∀ (s : State) (a : Nat) (k : Nat),
      s.stest.daddr.toNat / 8 * 8 = a →
      a / 2 ^ 32 = 2 →
      s.woad.debugSub = true ∧ s.stest.frozen = true ∧ a % 2 ^ 32 < 0x800000 →
      a % 2 ^ 32 % 0x20000 < 0x10000 →
      a % 2 ^ 32 / 0x20000 * 0x10000 + a % 2 ^ 32 % 0x10000 = k ∧ s.mcc.poisonImem.get false (k / 8) = false →
      Does (.ddata) s (fun u =>
        u.out = .tap (0 * 2 ^ 64 + ofLe (readBytes s.mcc.imem k 8) % 2 ^ 64) :: s.out ∧
        u.stest.daddr = s.stest.daddr + 8 ∧ u.stest.ddata = BitVec.ofNat 66 (0 * 2 ^ 64 + ofLe (readBytes s.mcc.imem k 8) % 2 ^ 64) ∧
        u.stest.ir = 0x12 ∧ u.stest.tapUsed = true ∧
        u = { s with stest.ir := u.stest.ir, stest.tapUsed := u.stest.tapUsed, stest.daddr := u.stest.daddr, stest.ddata := u.stest.ddata, out := u.out })) ∧
  (∀ (s : State) (a : Nat),
      s.stest.daddr.toNat / 8 * 8 = a →
      a / 2 ^ 32 = 2 →
      s.woad.debugSub = true ∧ s.stest.frozen = true ∧ a % 2 ^ 32 < 0x800000 →
      a % 2 ^ 32 % 0x20000 < 0x10000 →
      s.mcc.poisonImem.get false ((a % 2 ^ 32 / 0x20000 * 0x10000 + a % 2 ^ 32 % 0x10000) / 8) = true →
      Does (.ddata) s (fun u =>
        u.out = .tap (3 * 2 ^ 64 + 0 % 2 ^ 64) :: s.out ∧
        u.stest.daddr = s.stest.daddr + 8 ∧ u.stest.ddata = BitVec.ofNat 66 (3 * 2 ^ 64 + 0 % 2 ^ 64) ∧
        u.stest.ir = 0x12 ∧ u.stest.tapUsed = true ∧
        u = { s with stest.ir := u.stest.ir, stest.tapUsed := u.stest.tapUsed, stest.daddr := u.stest.daddr, stest.ddata := u.stest.ddata, out := u.out })) ∧
  (∀ (s : State) (a : Nat),
      s.stest.daddr.toNat / 8 * 8 = a →
      a / 2 ^ 32 = 3 →
      a % 2 ^ 32 < 0x40000 ∧ a % 2 ^ 32 % 0x400 = 0 ∧ s.stest.frozen = true →
      Does (.ddata) s (fun u =>
        u.out = .tap (0 * 2 ^ 64 + (s.thr (a % 2 ^ 32 / 0x400)).pc.toNat % 2 ^ 64) :: s.out ∧
        u.stest.daddr = s.stest.daddr + 8 ∧ u.stest.ddata = BitVec.ofNat 66 (0 * 2 ^ 64 + (s.thr (a % 2 ^ 32 / 0x400)).pc.toNat % 2 ^ 64) ∧
        u.stest.ir = 0x12 ∧ u.stest.tapUsed = true ∧
        u = { s with stest.ir := u.stest.ir, stest.tapUsed := u.stest.tapUsed, stest.daddr := u.stest.daddr, stest.ddata := u.stest.ddata, out := u.out })) ∧
  (∀ (s : State) (a : Nat),
      s.stest.daddr.toNat / 8 * 8 = a →
      a / 2 ^ 32 = 3 →
      0x30 ≤ a % 2 ^ 32 % 0x400 ∧ s.woad.debugSub = false →
      Does (.ddata) s (fun u =>
        u.out = .tap (1 * 2 ^ 64 + 0 % 2 ^ 64) :: s.out ∧
        u.stest.daddr = s.stest.daddr + 8 ∧ u.stest.ddata = BitVec.ofNat 66 (1 * 2 ^ 64 + 0 % 2 ^ 64) ∧
        u.stest.ir = 0x12 ∧ u.stest.tapUsed = true ∧
        u.counter (kRec 11) = s.counter (kRec 11) + 1 ∧
        u = { s with stest.ir := u.stest.ir, stest.tapUsed := u.stest.tapUsed, stest.daddr := u.stest.daddr, stest.ddata := u.stest.ddata, out := u.out, ctr := u.ctr })) ∧
  (∀ (s : State) (v : BitVec 32),
      v = 0xDB6E0001 ∧ s.debugLock = false ∧ s.woad.debugSub = false ∧ s.cpm.porstN = true →
      Does (.dbgen v) s (fun u =>
        u.stest.ir = 0x13 ∧ u.stest.tapUsed = true ∧
        u.woad.debugSub = true ∧ u.woad.pending = [] ∧ u.woad.queued = [] ∧ u.cpm.resetDue = some 3 ∧ u.stest.debugDue = true ∧
        (∃ r, (u.sepia.pinned.head? = some r ∨ u.sepia.ring.head? = some r) ∧ r.typ = 0x0005 ∧ r.body = zeroBytes 8) ∧
        (∀ k x, u.session k = some x → x.open_ = false) ∧
        u.otp = s.otp ∧ u.ldg = s.ldg ∧ u.ing = s.ing ∧ u.lake = s.lake)) ∧
  (∀ (s : State) (v : BitVec 32),
      (v ≠ 0xDB6E0001 ∨ s.debugLock = true ∨ s.woad.debugSub = true ∨ s.cpm.porstN = false) →
      Does (.dbgen v) s (fun u =>
        u.stest.ir = 0x13 ∧ u.stest.tapUsed = true ∧
        u = { s with stest.ir := u.stest.ir, stest.tapUsed := u.stest.tapUsed })) ∧
  (∀ (s : State) (v : BitVec 32),
      v = 0x46525A52 ∧ s.stest.frozen = true →
      Does (.frzrst v) s (fun u =>
        u.stest.ir = 0x14 ∧ u.stest.tapUsed = true ∧
        u.cpm.resetDue = some 3 ∧
        u = { s with stest.ir := u.stest.ir, stest.tapUsed := u.stest.tapUsed, cpm.resetDue := u.cpm.resetDue })) ∧
  (∀ (s : State) (v : BitVec 32),
      (v ≠ 0x46525A52 ∨ s.stest.frozen = false) →
      Does (.frzrst v) s (fun u =>
        u.stest.ir = 0x14 ∧ u.stest.tapUsed = true ∧
        u = { s with stest.ir := u.stest.ir, stest.tapUsed := u.stest.tapUsed })) ∧
  (∀ (s : State),
      Does (.bypass) s (fun u =>
        u.stest.ir = 0x3F ∧ u.stest.tapUsed = s.stest.tapUsed ∧
        u.out = .tap (0) :: s.out ∧
        u = { s with stest.ir := u.stest.ir, stest.tapUsed := u.stest.tapUsed, out := u.out }))
end

