-- ==== Sys2Proof/Laws/Maps.lean ====
section
/-! SUPPORT. Laws of finite maps: reading after inserting, deleting and writing, and the canonical form of each. -/

namespace Sys2Proof.Machine

variable {α β : Type}

@[simp] theorem Map.find_nil (k : Nat) : Map.find ([] : Map α) k = none := rfl
@[simp] theorem Map.get_nil (d : α) (k : Nat) : Map.get ([] : Map α) d k = d := rfl

/-! ## Reading after a change -/

@[simp] theorem Map.find_ins_self (m : Map α) (k : Nat) (v : α) : (m.ins k v).find k = some v := by
  induction m with
  | nil => simp [Map.ins, Map.find]
  | cons p m ih =>
    obtain ⟨j, w⟩ := p
    simp only [Map.ins]
    split
    · simp [Map.find]
    · split
      · simp [Map.find]
      · simp [Map.find, *]

theorem Map.find_ins_ne (m : Map α) {j k : Nat} (v : α) (h : j ≠ k) : (m.ins k v).find j = m.find j := by
  induction m with
  | nil => simp [Map.ins, Map.find, h]
  | cons p m ih =>
    obtain ⟨i, w⟩ := p
    simp only [Map.ins]
    split
    · simp [Map.find, h]
    · split
      · next hk => subst hk; simp [Map.find, h]
      · simp [Map.find, ih]

@[simp] theorem Map.find_del_self (m : Map α) (k : Nat) : (m.del k).find k = none := by
  induction m with
  | nil => rfl
  | cons p m ih =>
    obtain ⟨j, w⟩ := p
    simp only [Map.del]
    split
    · exact ih
    · next h => simp [Map.find, h, ih]

theorem Map.find_del_ne (m : Map α) {j k : Nat} (h : j ≠ k) : (m.del k).find j = m.find j := by
  induction m with
  | nil => rfl
  | cons p m ih =>
    obtain ⟨i, w⟩ := p
    simp only [Map.del]
    split
    · next hk => subst hk; simp [Map.find, h, ih]
    · simp [Map.find, ih]

@[simp] theorem Map.get_put_self [DecidableEq α] (m : Map α) (d : α) (k : Nat) (v : α) : (m.put d k v).get d k = v := by
  unfold Map.put Map.get
  split
  · next h => simp [h]
  · simp

theorem Map.get_put_ne [DecidableEq α] (m : Map α) (d : α) {j k : Nat} (v : α) (h : j ≠ k) : (m.put d k v).get d j = m.get d j := by
  unfold Map.put Map.get
  split
  · rw [Map.find_del_ne m h]
  · rw [Map.find_ins_ne m v h]

/-- Reading any key after a write. -/
theorem Map.get_put [DecidableEq α] (m : Map α) (d : α) (j k : Nat) (v : α) :
    (m.put d k v).get d j = if j = k then v else m.get d j := by
  split
  · next h => subst h; simp
  · next h => exact Map.get_put_ne m d v h

theorem Map.find_ins (m : Map α) (j k : Nat) (v : α) : (m.ins k v).find j = if j = k then some v else m.find j := by
  split
  · next h => subst h; simp
  · next h => exact Map.find_ins_ne m v h

theorem Map.find_del (m : Map α) (j k : Nat) : (m.del k).find j = if j = k then none else m.find j := by
  split
  · next h => subst h; simp
  · next h => exact Map.find_del_ne m h

/-- A value applied to every entry reads so at every key, when it keeps the default. -/
theorem Map.get_mapVals (f : α → β) (m : Map α) (d : α) (k : Nat) : (Map.mapVals f m).get (f d) k = f (m.get d k) := by
  unfold Map.get Map.mapVals
  induction m with
  | nil => rfl
  | cons p m ih =>
    obtain ⟨j, w⟩ := p
    simp only [List.map_cons, Map.find]
    split
    · rfl
    · exact ih

theorem Map.find_mapVals (f : α → β) (m : Map α) (k : Nat) : (Map.mapVals f m).find k = (m.find k).map f := by
  unfold Map.mapVals
  induction m with
  | nil => rfl
  | cons p m ih =>
    obtain ⟨j, w⟩ := p
    simp only [List.map_cons, Map.find]
    split
    · rfl
    · exact ih

/-! ## The canonical form -/

theorem Map.rising_mono {lo hi : Nat} (m : Map α) (h : lo ≤ hi) (r : Map.rising hi m = true) : Map.rising lo m = true := by
  cases m with
  | nil => rfl
  | cons p m =>
    obtain ⟨j, w⟩ := p
    simp only [Map.rising, Bool.and_eq_true, decide_eq_true_eq] at *
    exact ⟨by omega, r.2⟩

theorem Map.rising_ins (m : Map α) (k : Nat) (v : α) : ∀ lo, lo ≤ k → Map.rising lo m = true → Map.rising lo (m.ins k v) = true := by
  induction m with
  | nil => intro lo h _; simp [Map.ins, Map.rising, h]
  | cons p m ih =>
    obtain ⟨j, w⟩ := p
    intro lo h r
    simp only [Map.rising, Bool.and_eq_true, decide_eq_true_eq] at r
    simp only [Map.ins]
    split
    · next hk => simp only [Map.rising, Bool.and_eq_true, decide_eq_true_eq]; exact ⟨h, hk, r.2⟩
    · split
      · next hk => subst hk; simp only [Map.rising, Bool.and_eq_true, decide_eq_true_eq]; exact r
      · simp only [Map.rising, Bool.and_eq_true, decide_eq_true_eq]
        exact ⟨r.1, ih (j + 1) (by omega) r.2⟩

theorem Map.rising_del (m : Map α) (k : Nat) : ∀ lo, Map.rising lo m = true → Map.rising lo (m.del k) = true := by
  induction m with
  | nil => intro lo _; rfl
  | cons p m ih =>
    obtain ⟨j, w⟩ := p
    intro lo r
    simp only [Map.rising, Bool.and_eq_true, decide_eq_true_eq] at r
    simp only [Map.del]
    split
    · exact ih lo (Map.rising_mono m (by omega) r.2)
    · simp only [Map.rising, Bool.and_eq_true, decide_eq_true_eq]
      exact ⟨r.1, ih (j + 1) r.2⟩

theorem Map.wf_ins (m : Map α) (k : Nat) (v : α) (h : m.wf = true) : (m.ins k v).wf = true := Map.rising_ins m k v 0 (Nat.zero_le k) h

theorem Map.wf_del (m : Map α) (k : Nat) (h : m.wf = true) : (m.del k).wf = true := Map.rising_del m k 0 h

theorem Map.wf_put [DecidableEq α] (m : Map α) (d : α) (k : Nat) (v : α) (h : m.wf = true) : (m.put d k v).wf = true := by
  unfold Map.put
  split
  · exact Map.wf_del m k h
  · exact Map.wf_ins m k v h

theorem Map.lean_ins [DecidableEq α] (d : α) (m : Map α) (k : Nat) (v : α) (hv : v ≠ d) (h : Map.lean d m = true) :
    Map.lean d (m.ins k v) = true := by
  induction m with
  | nil => simp [Map.ins, Map.lean, hv]
  | cons p m ih =>
    obtain ⟨j, w⟩ := p
    simp only [Map.lean, List.all_cons, Bool.and_eq_true, decide_eq_true_eq] at h
    simp only [Map.ins]
    split
    · simp only [Map.lean, List.all_cons, Bool.and_eq_true, decide_eq_true_eq]; exact ⟨hv, h.1, h.2⟩
    · split
      · simp only [Map.lean, List.all_cons, Bool.and_eq_true, decide_eq_true_eq]; exact ⟨hv, h.2⟩
      · simp only [Map.lean, List.all_cons, Bool.and_eq_true, decide_eq_true_eq]; exact ⟨h.1, ih h.2⟩

theorem Map.lean_del [DecidableEq α] (d : α) (m : Map α) (k : Nat) (h : Map.lean d m = true) : Map.lean d (m.del k) = true := by
  induction m with
  | nil => rfl
  | cons p m ih =>
    obtain ⟨j, w⟩ := p
    simp only [Map.lean, List.all_cons, Bool.and_eq_true, decide_eq_true_eq] at h
    simp only [Map.del]
    split
    · exact ih h.2
    · simp only [Map.lean, List.all_cons, Bool.and_eq_true, decide_eq_true_eq]; exact ⟨h.1, ih h.2⟩

theorem Map.lean_put [DecidableEq α] (m : Map α) (d : α) (k : Nat) (v : α) (h : Map.lean d m = true) :
    Map.lean d (m.put d k v) = true := by
  unfold Map.put
  split
  · exact Map.lean_del d m k h
  · next hv => exact Map.lean_ins d m k v hv h

end Sys2Proof.Machine
end

