-- ==== Sys2Proof/Laws/State.lean ====
section
/-! SUPPORT. What each shared operation over the state leaves alone, field by field, and what its accessors read after it. -/

namespace Sys2Proof.Machine

/-! ## Single updates -/

@[simp] theorem countN_glb (k n : Nat) (s : State) : (countN k n s).glb = s.glb := rfl
@[simp] theorem countN_cap (k n : Nat) (s : State) : (countN k n s).cap = s.cap := rfl
@[simp] theorem countN_mcc (k n : Nat) (s : State) : (countN k n s).mcc = s.mcc := rfl
@[simp] theorem countN_hp (k n : Nat) (s : State) : (countN k n s).hp = s.hp := rfl
@[simp] theorem countN_tmu (k n : Nat) (s : State) : (countN k n s).tmu = s.tmu := rfl
@[simp] theorem countN_evr (k n : Nat) (s : State) : (countN k n s).evr = s.evr := rfl
@[simp] theorem countN_sepia (k n : Nat) (s : State) : (countN k n s).sepia = s.sepia := rfl
@[simp] theorem countN_stest (k n : Nat) (s : State) : (countN k n s).stest = s.stest := rfl
@[simp] theorem countN_woad (k n : Nat) (s : State) : (countN k n s).woad = s.woad := rfl
@[simp] theorem countN_otp (k n : Nat) (s : State) : (countN k n s).otp = s.otp := rfl
@[simp] theorem countN_rla (k n : Nat) (s : State) : (countN k n s).rla = s.rla := rfl
@[simp] theorem countN_lm (k n : Nat) (s : State) : (countN k n s).lm = s.lm := rfl
@[simp] theorem countN_ing (k n : Nat) (s : State) : (countN k n s).ing = s.ing := rfl
@[simp] theorem countN_pass (k n : Nat) (s : State) : (countN k n s).pass = s.pass := rfl
@[simp] theorem countN_ldg (k n : Nat) (s : State) : (countN k n s).ldg = s.ldg := rfl
@[simp] theorem countN_bal (k n : Nat) (s : State) : (countN k n s).bal = s.bal := rfl
@[simp] theorem countN_lake (k n : Nat) (s : State) : (countN k n s).lake = s.lake := rfl
@[simp] theorem countN_macs (k n : Nat) (s : State) : (countN k n s).macs = s.macs := rfl
@[simp] theorem countN_cas (k n : Nat) (s : State) : (countN k n s).cas = s.cas := rfl
@[simp] theorem countN_upd (k n : Nat) (s : State) : (countN k n s).upd = s.upd := rfl
@[simp] theorem countN_cpm (k n : Nat) (s : State) : (countN k n s).cpm = s.cpm := rfl
@[simp] theorem countN_out (k n : Nat) (s : State) : (countN k n s).out = s.out := rfl
@[simp] theorem countN_free (k n : Nat) (s : State) : (countN k n s).free = s.free := rfl
@[simp] theorem countN_pending (k n : Nat) (s : State) : (countN k n s).pending = s.pending := rfl

@[simp] theorem count_glb (k : Nat) (s : State) : (count k s).glb = s.glb := rfl
@[simp] theorem count_cap (k : Nat) (s : State) : (count k s).cap = s.cap := rfl
@[simp] theorem count_mcc (k : Nat) (s : State) : (count k s).mcc = s.mcc := rfl
@[simp] theorem count_hp (k : Nat) (s : State) : (count k s).hp = s.hp := rfl
@[simp] theorem count_tmu (k : Nat) (s : State) : (count k s).tmu = s.tmu := rfl
@[simp] theorem count_evr (k : Nat) (s : State) : (count k s).evr = s.evr := rfl
@[simp] theorem count_sepia (k : Nat) (s : State) : (count k s).sepia = s.sepia := rfl
@[simp] theorem count_stest (k : Nat) (s : State) : (count k s).stest = s.stest := rfl
@[simp] theorem count_woad (k : Nat) (s : State) : (count k s).woad = s.woad := rfl
@[simp] theorem count_otp (k : Nat) (s : State) : (count k s).otp = s.otp := rfl
@[simp] theorem count_rla (k : Nat) (s : State) : (count k s).rla = s.rla := rfl
@[simp] theorem count_lm (k : Nat) (s : State) : (count k s).lm = s.lm := rfl
@[simp] theorem count_ing (k : Nat) (s : State) : (count k s).ing = s.ing := rfl
@[simp] theorem count_pass (k : Nat) (s : State) : (count k s).pass = s.pass := rfl
@[simp] theorem count_ldg (k : Nat) (s : State) : (count k s).ldg = s.ldg := rfl
@[simp] theorem count_bal (k : Nat) (s : State) : (count k s).bal = s.bal := rfl
@[simp] theorem count_lake (k : Nat) (s : State) : (count k s).lake = s.lake := rfl
@[simp] theorem count_macs (k : Nat) (s : State) : (count k s).macs = s.macs := rfl
@[simp] theorem count_cas (k : Nat) (s : State) : (count k s).cas = s.cas := rfl
@[simp] theorem count_upd (k : Nat) (s : State) : (count k s).upd = s.upd := rfl
@[simp] theorem count_cpm (k : Nat) (s : State) : (count k s).cpm = s.cpm := rfl
@[simp] theorem count_out (k : Nat) (s : State) : (count k s).out = s.out := rfl
@[simp] theorem count_free (k : Nat) (s : State) : (count k s).free = s.free := rfl
@[simp] theorem count_pending (k : Nat) (s : State) : (count k s).pending = s.pending := rfl

@[simp] theorem emit_glb (o : Out) (s : State) : (emit o s).glb = s.glb := rfl
@[simp] theorem emit_ctr (o : Out) (s : State) : (emit o s).ctr = s.ctr := rfl
@[simp] theorem emit_cap (o : Out) (s : State) : (emit o s).cap = s.cap := rfl
@[simp] theorem emit_mcc (o : Out) (s : State) : (emit o s).mcc = s.mcc := rfl
@[simp] theorem emit_hp (o : Out) (s : State) : (emit o s).hp = s.hp := rfl
@[simp] theorem emit_tmu (o : Out) (s : State) : (emit o s).tmu = s.tmu := rfl
@[simp] theorem emit_evr (o : Out) (s : State) : (emit o s).evr = s.evr := rfl
@[simp] theorem emit_sepia (o : Out) (s : State) : (emit o s).sepia = s.sepia := rfl
@[simp] theorem emit_stest (o : Out) (s : State) : (emit o s).stest = s.stest := rfl
@[simp] theorem emit_woad (o : Out) (s : State) : (emit o s).woad = s.woad := rfl
@[simp] theorem emit_otp (o : Out) (s : State) : (emit o s).otp = s.otp := rfl
@[simp] theorem emit_rla (o : Out) (s : State) : (emit o s).rla = s.rla := rfl
@[simp] theorem emit_lm (o : Out) (s : State) : (emit o s).lm = s.lm := rfl
@[simp] theorem emit_ing (o : Out) (s : State) : (emit o s).ing = s.ing := rfl
@[simp] theorem emit_pass (o : Out) (s : State) : (emit o s).pass = s.pass := rfl
@[simp] theorem emit_ldg (o : Out) (s : State) : (emit o s).ldg = s.ldg := rfl
@[simp] theorem emit_bal (o : Out) (s : State) : (emit o s).bal = s.bal := rfl
@[simp] theorem emit_lake (o : Out) (s : State) : (emit o s).lake = s.lake := rfl
@[simp] theorem emit_macs (o : Out) (s : State) : (emit o s).macs = s.macs := rfl
@[simp] theorem emit_cas (o : Out) (s : State) : (emit o s).cas = s.cas := rfl
@[simp] theorem emit_upd (o : Out) (s : State) : (emit o s).upd = s.upd := rfl
@[simp] theorem emit_cpm (o : Out) (s : State) : (emit o s).cpm = s.cpm := rfl
@[simp] theorem emit_free (o : Out) (s : State) : (emit o s).free = s.free := rfl
@[simp] theorem emit_pending (o : Out) (s : State) : (emit o s).pending = s.pending := rfl

@[simp] theorem drawFree_glb (s : State) : ((drawFree s).2).glb = s.glb := rfl
@[simp] theorem drawFree_ctr (s : State) : ((drawFree s).2).ctr = s.ctr := rfl
@[simp] theorem drawFree_cap (s : State) : ((drawFree s).2).cap = s.cap := rfl
@[simp] theorem drawFree_mcc (s : State) : ((drawFree s).2).mcc = s.mcc := rfl
@[simp] theorem drawFree_hp (s : State) : ((drawFree s).2).hp = s.hp := rfl
@[simp] theorem drawFree_tmu (s : State) : ((drawFree s).2).tmu = s.tmu := rfl
@[simp] theorem drawFree_evr (s : State) : ((drawFree s).2).evr = s.evr := rfl
@[simp] theorem drawFree_sepia (s : State) : ((drawFree s).2).sepia = s.sepia := rfl
@[simp] theorem drawFree_stest (s : State) : ((drawFree s).2).stest = s.stest := rfl
@[simp] theorem drawFree_woad (s : State) : ((drawFree s).2).woad = s.woad := rfl
@[simp] theorem drawFree_otp (s : State) : ((drawFree s).2).otp = s.otp := rfl
@[simp] theorem drawFree_rla (s : State) : ((drawFree s).2).rla = s.rla := rfl
@[simp] theorem drawFree_lm (s : State) : ((drawFree s).2).lm = s.lm := rfl
@[simp] theorem drawFree_ing (s : State) : ((drawFree s).2).ing = s.ing := rfl
@[simp] theorem drawFree_pass (s : State) : ((drawFree s).2).pass = s.pass := rfl
@[simp] theorem drawFree_ldg (s : State) : ((drawFree s).2).ldg = s.ldg := rfl
@[simp] theorem drawFree_bal (s : State) : ((drawFree s).2).bal = s.bal := rfl
@[simp] theorem drawFree_lake (s : State) : ((drawFree s).2).lake = s.lake := rfl
@[simp] theorem drawFree_macs (s : State) : ((drawFree s).2).macs = s.macs := rfl
@[simp] theorem drawFree_cas (s : State) : ((drawFree s).2).cas = s.cas := rfl
@[simp] theorem drawFree_upd (s : State) : ((drawFree s).2).upd = s.upd := rfl
@[simp] theorem drawFree_cpm (s : State) : ((drawFree s).2).cpm = s.cpm := rfl
@[simp] theorem drawFree_out (s : State) : ((drawFree s).2).out = s.out := rfl
@[simp] theorem drawFree_pending (s : State) : ((drawFree s).2).pending = s.pending := rfl

@[simp] theorem setThr_glb (t : Nat) (th : Thread) (s : State) : (setThr t th s).glb = s.glb := rfl
@[simp] theorem setThr_ctr (t : Nat) (th : Thread) (s : State) : (setThr t th s).ctr = s.ctr := rfl
@[simp] theorem setThr_cap (t : Nat) (th : Thread) (s : State) : (setThr t th s).cap = s.cap := rfl
@[simp] theorem setThr_hp (t : Nat) (th : Thread) (s : State) : (setThr t th s).hp = s.hp := rfl
@[simp] theorem setThr_tmu (t : Nat) (th : Thread) (s : State) : (setThr t th s).tmu = s.tmu := rfl
@[simp] theorem setThr_evr (t : Nat) (th : Thread) (s : State) : (setThr t th s).evr = s.evr := rfl
@[simp] theorem setThr_sepia (t : Nat) (th : Thread) (s : State) : (setThr t th s).sepia = s.sepia := rfl
@[simp] theorem setThr_stest (t : Nat) (th : Thread) (s : State) : (setThr t th s).stest = s.stest := rfl
@[simp] theorem setThr_woad (t : Nat) (th : Thread) (s : State) : (setThr t th s).woad = s.woad := rfl
@[simp] theorem setThr_otp (t : Nat) (th : Thread) (s : State) : (setThr t th s).otp = s.otp := rfl
@[simp] theorem setThr_rla (t : Nat) (th : Thread) (s : State) : (setThr t th s).rla = s.rla := rfl
@[simp] theorem setThr_lm (t : Nat) (th : Thread) (s : State) : (setThr t th s).lm = s.lm := rfl
@[simp] theorem setThr_ing (t : Nat) (th : Thread) (s : State) : (setThr t th s).ing = s.ing := rfl
@[simp] theorem setThr_pass (t : Nat) (th : Thread) (s : State) : (setThr t th s).pass = s.pass := rfl
@[simp] theorem setThr_ldg (t : Nat) (th : Thread) (s : State) : (setThr t th s).ldg = s.ldg := rfl
@[simp] theorem setThr_bal (t : Nat) (th : Thread) (s : State) : (setThr t th s).bal = s.bal := rfl
@[simp] theorem setThr_lake (t : Nat) (th : Thread) (s : State) : (setThr t th s).lake = s.lake := rfl
@[simp] theorem setThr_macs (t : Nat) (th : Thread) (s : State) : (setThr t th s).macs = s.macs := rfl
@[simp] theorem setThr_cas (t : Nat) (th : Thread) (s : State) : (setThr t th s).cas = s.cas := rfl
@[simp] theorem setThr_upd (t : Nat) (th : Thread) (s : State) : (setThr t th s).upd = s.upd := rfl
@[simp] theorem setThr_cpm (t : Nat) (th : Thread) (s : State) : (setThr t th s).cpm = s.cpm := rfl
@[simp] theorem setThr_out (t : Nat) (th : Thread) (s : State) : (setThr t th s).out = s.out := rfl
@[simp] theorem setThr_free (t : Nat) (th : Thread) (s : State) : (setThr t th s).free = s.free := rfl
@[simp] theorem setThr_pending (t : Nat) (th : Thread) (s : State) : (setThr t th s).pending = s.pending := rfl

@[simp] theorem updThr_glb (t : Nat) (f : Thread → Thread) (s : State) : (updThr t f s).glb = s.glb := rfl
@[simp] theorem updThr_ctr (t : Nat) (f : Thread → Thread) (s : State) : (updThr t f s).ctr = s.ctr := rfl
@[simp] theorem updThr_cap (t : Nat) (f : Thread → Thread) (s : State) : (updThr t f s).cap = s.cap := rfl
@[simp] theorem updThr_hp (t : Nat) (f : Thread → Thread) (s : State) : (updThr t f s).hp = s.hp := rfl
@[simp] theorem updThr_tmu (t : Nat) (f : Thread → Thread) (s : State) : (updThr t f s).tmu = s.tmu := rfl
@[simp] theorem updThr_evr (t : Nat) (f : Thread → Thread) (s : State) : (updThr t f s).evr = s.evr := rfl
@[simp] theorem updThr_sepia (t : Nat) (f : Thread → Thread) (s : State) : (updThr t f s).sepia = s.sepia := rfl
@[simp] theorem updThr_stest (t : Nat) (f : Thread → Thread) (s : State) : (updThr t f s).stest = s.stest := rfl
@[simp] theorem updThr_woad (t : Nat) (f : Thread → Thread) (s : State) : (updThr t f s).woad = s.woad := rfl
@[simp] theorem updThr_otp (t : Nat) (f : Thread → Thread) (s : State) : (updThr t f s).otp = s.otp := rfl
@[simp] theorem updThr_rla (t : Nat) (f : Thread → Thread) (s : State) : (updThr t f s).rla = s.rla := rfl
@[simp] theorem updThr_lm (t : Nat) (f : Thread → Thread) (s : State) : (updThr t f s).lm = s.lm := rfl
@[simp] theorem updThr_ing (t : Nat) (f : Thread → Thread) (s : State) : (updThr t f s).ing = s.ing := rfl
@[simp] theorem updThr_pass (t : Nat) (f : Thread → Thread) (s : State) : (updThr t f s).pass = s.pass := rfl
@[simp] theorem updThr_ldg (t : Nat) (f : Thread → Thread) (s : State) : (updThr t f s).ldg = s.ldg := rfl
@[simp] theorem updThr_bal (t : Nat) (f : Thread → Thread) (s : State) : (updThr t f s).bal = s.bal := rfl
@[simp] theorem updThr_lake (t : Nat) (f : Thread → Thread) (s : State) : (updThr t f s).lake = s.lake := rfl
@[simp] theorem updThr_macs (t : Nat) (f : Thread → Thread) (s : State) : (updThr t f s).macs = s.macs := rfl
@[simp] theorem updThr_cas (t : Nat) (f : Thread → Thread) (s : State) : (updThr t f s).cas = s.cas := rfl
@[simp] theorem updThr_upd (t : Nat) (f : Thread → Thread) (s : State) : (updThr t f s).upd = s.upd := rfl
@[simp] theorem updThr_cpm (t : Nat) (f : Thread → Thread) (s : State) : (updThr t f s).cpm = s.cpm := rfl
@[simp] theorem updThr_out (t : Nat) (f : Thread → Thread) (s : State) : (updThr t f s).out = s.out := rfl
@[simp] theorem updThr_free (t : Nat) (f : Thread → Thread) (s : State) : (updThr t f s).free = s.free := rfl
@[simp] theorem updThr_pending (t : Nat) (f : Thread → Thread) (s : State) : (updThr t f s).pending = s.pending := rfl

@[simp] theorem updCport_glb (p : Nat) (f : CPort → CPort) (s : State) : (updCport p f s).glb = s.glb := rfl
@[simp] theorem updCport_ctr (p : Nat) (f : CPort → CPort) (s : State) : (updCport p f s).ctr = s.ctr := rfl
@[simp] theorem updCport_cap (p : Nat) (f : CPort → CPort) (s : State) : (updCport p f s).cap = s.cap := rfl
@[simp] theorem updCport_mcc (p : Nat) (f : CPort → CPort) (s : State) : (updCport p f s).mcc = s.mcc := rfl
@[simp] theorem updCport_hp (p : Nat) (f : CPort → CPort) (s : State) : (updCport p f s).hp = s.hp := rfl
@[simp] theorem updCport_tmu (p : Nat) (f : CPort → CPort) (s : State) : (updCport p f s).tmu = s.tmu := rfl
@[simp] theorem updCport_evr (p : Nat) (f : CPort → CPort) (s : State) : (updCport p f s).evr = s.evr := rfl
@[simp] theorem updCport_sepia (p : Nat) (f : CPort → CPort) (s : State) : (updCport p f s).sepia = s.sepia := rfl
@[simp] theorem updCport_stest (p : Nat) (f : CPort → CPort) (s : State) : (updCport p f s).stest = s.stest := rfl
@[simp] theorem updCport_woad (p : Nat) (f : CPort → CPort) (s : State) : (updCport p f s).woad = s.woad := rfl
@[simp] theorem updCport_otp (p : Nat) (f : CPort → CPort) (s : State) : (updCport p f s).otp = s.otp := rfl
@[simp] theorem updCport_rla (p : Nat) (f : CPort → CPort) (s : State) : (updCport p f s).rla = s.rla := rfl
@[simp] theorem updCport_lm (p : Nat) (f : CPort → CPort) (s : State) : (updCport p f s).lm = s.lm := rfl
@[simp] theorem updCport_ing (p : Nat) (f : CPort → CPort) (s : State) : (updCport p f s).ing = s.ing := rfl
@[simp] theorem updCport_pass (p : Nat) (f : CPort → CPort) (s : State) : (updCport p f s).pass = s.pass := rfl
@[simp] theorem updCport_ldg (p : Nat) (f : CPort → CPort) (s : State) : (updCport p f s).ldg = s.ldg := rfl
@[simp] theorem updCport_bal (p : Nat) (f : CPort → CPort) (s : State) : (updCport p f s).bal = s.bal := rfl
@[simp] theorem updCport_lake (p : Nat) (f : CPort → CPort) (s : State) : (updCport p f s).lake = s.lake := rfl
@[simp] theorem updCport_macs (p : Nat) (f : CPort → CPort) (s : State) : (updCport p f s).macs = s.macs := rfl
@[simp] theorem updCport_upd (p : Nat) (f : CPort → CPort) (s : State) : (updCport p f s).upd = s.upd := rfl
@[simp] theorem updCport_cpm (p : Nat) (f : CPort → CPort) (s : State) : (updCport p f s).cpm = s.cpm := rfl
@[simp] theorem updCport_out (p : Nat) (f : CPort → CPort) (s : State) : (updCport p f s).out = s.out := rfl
@[simp] theorem updCport_free (p : Nat) (f : CPort → CPort) (s : State) : (updCport p f s).free = s.free := rfl
@[simp] theorem updCport_pending (p : Nat) (f : CPort → CPort) (s : State) : (updCport p f s).pending = s.pending := rfl

@[simp] theorem updRport_glb (p : Nat) (f : RPort → RPort) (s : State) : (updRport p f s).glb = s.glb := rfl
@[simp] theorem updRport_ctr (p : Nat) (f : RPort → RPort) (s : State) : (updRport p f s).ctr = s.ctr := rfl
@[simp] theorem updRport_cap (p : Nat) (f : RPort → RPort) (s : State) : (updRport p f s).cap = s.cap := rfl
@[simp] theorem updRport_mcc (p : Nat) (f : RPort → RPort) (s : State) : (updRport p f s).mcc = s.mcc := rfl
@[simp] theorem updRport_hp (p : Nat) (f : RPort → RPort) (s : State) : (updRport p f s).hp = s.hp := rfl
@[simp] theorem updRport_tmu (p : Nat) (f : RPort → RPort) (s : State) : (updRport p f s).tmu = s.tmu := rfl
@[simp] theorem updRport_evr (p : Nat) (f : RPort → RPort) (s : State) : (updRport p f s).evr = s.evr := rfl
@[simp] theorem updRport_sepia (p : Nat) (f : RPort → RPort) (s : State) : (updRport p f s).sepia = s.sepia := rfl
@[simp] theorem updRport_stest (p : Nat) (f : RPort → RPort) (s : State) : (updRport p f s).stest = s.stest := rfl
@[simp] theorem updRport_woad (p : Nat) (f : RPort → RPort) (s : State) : (updRport p f s).woad = s.woad := rfl
@[simp] theorem updRport_otp (p : Nat) (f : RPort → RPort) (s : State) : (updRport p f s).otp = s.otp := rfl
@[simp] theorem updRport_lm (p : Nat) (f : RPort → RPort) (s : State) : (updRport p f s).lm = s.lm := rfl
@[simp] theorem updRport_ing (p : Nat) (f : RPort → RPort) (s : State) : (updRport p f s).ing = s.ing := rfl
@[simp] theorem updRport_pass (p : Nat) (f : RPort → RPort) (s : State) : (updRport p f s).pass = s.pass := rfl
@[simp] theorem updRport_ldg (p : Nat) (f : RPort → RPort) (s : State) : (updRport p f s).ldg = s.ldg := rfl
@[simp] theorem updRport_bal (p : Nat) (f : RPort → RPort) (s : State) : (updRport p f s).bal = s.bal := rfl
@[simp] theorem updRport_lake (p : Nat) (f : RPort → RPort) (s : State) : (updRport p f s).lake = s.lake := rfl
@[simp] theorem updRport_macs (p : Nat) (f : RPort → RPort) (s : State) : (updRport p f s).macs = s.macs := rfl
@[simp] theorem updRport_cas (p : Nat) (f : RPort → RPort) (s : State) : (updRport p f s).cas = s.cas := rfl
@[simp] theorem updRport_upd (p : Nat) (f : RPort → RPort) (s : State) : (updRport p f s).upd = s.upd := rfl
@[simp] theorem updRport_cpm (p : Nat) (f : RPort → RPort) (s : State) : (updRport p f s).cpm = s.cpm := rfl
@[simp] theorem updRport_out (p : Nat) (f : RPort → RPort) (s : State) : (updRport p f s).out = s.out := rfl
@[simp] theorem updRport_free (p : Nat) (f : RPort → RPort) (s : State) : (updRport p f s).free = s.free := rfl
@[simp] theorem updRport_pending (p : Nat) (f : RPort → RPort) (s : State) : (updRport p f s).pending = s.pending := rfl

@[simp] theorem updLport_glb (p : Nat) (f : LPort → LPort) (s : State) : (updLport p f s).glb = s.glb := rfl
@[simp] theorem updLport_ctr (p : Nat) (f : LPort → LPort) (s : State) : (updLport p f s).ctr = s.ctr := rfl
@[simp] theorem updLport_cap (p : Nat) (f : LPort → LPort) (s : State) : (updLport p f s).cap = s.cap := rfl
@[simp] theorem updLport_mcc (p : Nat) (f : LPort → LPort) (s : State) : (updLport p f s).mcc = s.mcc := rfl
@[simp] theorem updLport_hp (p : Nat) (f : LPort → LPort) (s : State) : (updLport p f s).hp = s.hp := rfl
@[simp] theorem updLport_tmu (p : Nat) (f : LPort → LPort) (s : State) : (updLport p f s).tmu = s.tmu := rfl
@[simp] theorem updLport_evr (p : Nat) (f : LPort → LPort) (s : State) : (updLport p f s).evr = s.evr := rfl
@[simp] theorem updLport_sepia (p : Nat) (f : LPort → LPort) (s : State) : (updLport p f s).sepia = s.sepia := rfl
@[simp] theorem updLport_stest (p : Nat) (f : LPort → LPort) (s : State) : (updLport p f s).stest = s.stest := rfl
@[simp] theorem updLport_woad (p : Nat) (f : LPort → LPort) (s : State) : (updLport p f s).woad = s.woad := rfl
@[simp] theorem updLport_otp (p : Nat) (f : LPort → LPort) (s : State) : (updLport p f s).otp = s.otp := rfl
@[simp] theorem updLport_rla (p : Nat) (f : LPort → LPort) (s : State) : (updLport p f s).rla = s.rla := rfl
@[simp] theorem updLport_ing (p : Nat) (f : LPort → LPort) (s : State) : (updLport p f s).ing = s.ing := rfl
@[simp] theorem updLport_pass (p : Nat) (f : LPort → LPort) (s : State) : (updLport p f s).pass = s.pass := rfl
@[simp] theorem updLport_ldg (p : Nat) (f : LPort → LPort) (s : State) : (updLport p f s).ldg = s.ldg := rfl
@[simp] theorem updLport_bal (p : Nat) (f : LPort → LPort) (s : State) : (updLport p f s).bal = s.bal := rfl
@[simp] theorem updLport_lake (p : Nat) (f : LPort → LPort) (s : State) : (updLport p f s).lake = s.lake := rfl
@[simp] theorem updLport_macs (p : Nat) (f : LPort → LPort) (s : State) : (updLport p f s).macs = s.macs := rfl
@[simp] theorem updLport_cas (p : Nat) (f : LPort → LPort) (s : State) : (updLport p f s).cas = s.cas := rfl
@[simp] theorem updLport_upd (p : Nat) (f : LPort → LPort) (s : State) : (updLport p f s).upd = s.upd := rfl
@[simp] theorem updLport_cpm (p : Nat) (f : LPort → LPort) (s : State) : (updLport p f s).cpm = s.cpm := rfl
@[simp] theorem updLport_out (p : Nat) (f : LPort → LPort) (s : State) : (updLport p f s).out = s.out := rfl
@[simp] theorem updLport_free (p : Nat) (f : LPort → LPort) (s : State) : (updLport p f s).free = s.free := rfl
@[simp] theorem updLport_pending (p : Nat) (f : LPort → LPort) (s : State) : (updLport p f s).pending = s.pending := rfl

@[simp] theorem updNode_glb (n : Nat) (f : Node → Node) (s : State) : (updNode n f s).glb = s.glb := rfl
@[simp] theorem updNode_ctr (n : Nat) (f : Node → Node) (s : State) : (updNode n f s).ctr = s.ctr := rfl
@[simp] theorem updNode_cap (n : Nat) (f : Node → Node) (s : State) : (updNode n f s).cap = s.cap := rfl
@[simp] theorem updNode_mcc (n : Nat) (f : Node → Node) (s : State) : (updNode n f s).mcc = s.mcc := rfl
@[simp] theorem updNode_hp (n : Nat) (f : Node → Node) (s : State) : (updNode n f s).hp = s.hp := rfl
@[simp] theorem updNode_tmu (n : Nat) (f : Node → Node) (s : State) : (updNode n f s).tmu = s.tmu := rfl
@[simp] theorem updNode_evr (n : Nat) (f : Node → Node) (s : State) : (updNode n f s).evr = s.evr := rfl
@[simp] theorem updNode_sepia (n : Nat) (f : Node → Node) (s : State) : (updNode n f s).sepia = s.sepia := rfl
@[simp] theorem updNode_stest (n : Nat) (f : Node → Node) (s : State) : (updNode n f s).stest = s.stest := rfl
@[simp] theorem updNode_woad (n : Nat) (f : Node → Node) (s : State) : (updNode n f s).woad = s.woad := rfl
@[simp] theorem updNode_otp (n : Nat) (f : Node → Node) (s : State) : (updNode n f s).otp = s.otp := rfl
@[simp] theorem updNode_rla (n : Nat) (f : Node → Node) (s : State) : (updNode n f s).rla = s.rla := rfl
@[simp] theorem updNode_lm (n : Nat) (f : Node → Node) (s : State) : (updNode n f s).lm = s.lm := rfl
@[simp] theorem updNode_ing (n : Nat) (f : Node → Node) (s : State) : (updNode n f s).ing = s.ing := rfl
@[simp] theorem updNode_pass (n : Nat) (f : Node → Node) (s : State) : (updNode n f s).pass = s.pass := rfl
@[simp] theorem updNode_ldg (n : Nat) (f : Node → Node) (s : State) : (updNode n f s).ldg = s.ldg := rfl
@[simp] theorem updNode_lake (n : Nat) (f : Node → Node) (s : State) : (updNode n f s).lake = s.lake := rfl
@[simp] theorem updNode_macs (n : Nat) (f : Node → Node) (s : State) : (updNode n f s).macs = s.macs := rfl
@[simp] theorem updNode_cas (n : Nat) (f : Node → Node) (s : State) : (updNode n f s).cas = s.cas := rfl
@[simp] theorem updNode_upd (n : Nat) (f : Node → Node) (s : State) : (updNode n f s).upd = s.upd := rfl
@[simp] theorem updNode_cpm (n : Nat) (f : Node → Node) (s : State) : (updNode n f s).cpm = s.cpm := rfl
@[simp] theorem updNode_out (n : Nat) (f : Node → Node) (s : State) : (updNode n f s).out = s.out := rfl
@[simp] theorem updNode_free (n : Nat) (f : Node → Node) (s : State) : (updNode n f s).free = s.free := rfl
@[simp] theorem updNode_pending (n : Nat) (f : Node → Node) (s : State) : (updNode n f s).pending = s.pending := rfl

@[simp] theorem updQueue_glb (i : Nat) (f : QPair → QPair) (s : State) : (updQueue i f s).glb = s.glb := rfl
@[simp] theorem updQueue_ctr (i : Nat) (f : QPair → QPair) (s : State) : (updQueue i f s).ctr = s.ctr := rfl
@[simp] theorem updQueue_cap (i : Nat) (f : QPair → QPair) (s : State) : (updQueue i f s).cap = s.cap := rfl
@[simp] theorem updQueue_mcc (i : Nat) (f : QPair → QPair) (s : State) : (updQueue i f s).mcc = s.mcc := rfl
@[simp] theorem updQueue_tmu (i : Nat) (f : QPair → QPair) (s : State) : (updQueue i f s).tmu = s.tmu := rfl
@[simp] theorem updQueue_evr (i : Nat) (f : QPair → QPair) (s : State) : (updQueue i f s).evr = s.evr := rfl
@[simp] theorem updQueue_sepia (i : Nat) (f : QPair → QPair) (s : State) : (updQueue i f s).sepia = s.sepia := rfl
@[simp] theorem updQueue_stest (i : Nat) (f : QPair → QPair) (s : State) : (updQueue i f s).stest = s.stest := rfl
@[simp] theorem updQueue_woad (i : Nat) (f : QPair → QPair) (s : State) : (updQueue i f s).woad = s.woad := rfl
@[simp] theorem updQueue_otp (i : Nat) (f : QPair → QPair) (s : State) : (updQueue i f s).otp = s.otp := rfl
@[simp] theorem updQueue_rla (i : Nat) (f : QPair → QPair) (s : State) : (updQueue i f s).rla = s.rla := rfl
@[simp] theorem updQueue_lm (i : Nat) (f : QPair → QPair) (s : State) : (updQueue i f s).lm = s.lm := rfl
@[simp] theorem updQueue_ing (i : Nat) (f : QPair → QPair) (s : State) : (updQueue i f s).ing = s.ing := rfl
@[simp] theorem updQueue_pass (i : Nat) (f : QPair → QPair) (s : State) : (updQueue i f s).pass = s.pass := rfl
@[simp] theorem updQueue_ldg (i : Nat) (f : QPair → QPair) (s : State) : (updQueue i f s).ldg = s.ldg := rfl
@[simp] theorem updQueue_bal (i : Nat) (f : QPair → QPair) (s : State) : (updQueue i f s).bal = s.bal := rfl
@[simp] theorem updQueue_lake (i : Nat) (f : QPair → QPair) (s : State) : (updQueue i f s).lake = s.lake := rfl
@[simp] theorem updQueue_macs (i : Nat) (f : QPair → QPair) (s : State) : (updQueue i f s).macs = s.macs := rfl
@[simp] theorem updQueue_cas (i : Nat) (f : QPair → QPair) (s : State) : (updQueue i f s).cas = s.cas := rfl
@[simp] theorem updQueue_upd (i : Nat) (f : QPair → QPair) (s : State) : (updQueue i f s).upd = s.upd := rfl
@[simp] theorem updQueue_cpm (i : Nat) (f : QPair → QPair) (s : State) : (updQueue i f s).cpm = s.cpm := rfl
@[simp] theorem updQueue_out (i : Nat) (f : QPair → QPair) (s : State) : (updQueue i f s).out = s.out := rfl
@[simp] theorem updQueue_free (i : Nat) (f : QPair → QPair) (s : State) : (updQueue i f s).free = s.free := rfl
@[simp] theorem updQueue_pending (i : Nat) (f : QPair → QPair) (s : State) : (updQueue i f s).pending = s.pending := rfl

@[simp] theorem updMac_glb (m : Nat) (f : MacSt → MacSt) (s : State) : (updMac m f s).glb = s.glb := rfl
@[simp] theorem updMac_ctr (m : Nat) (f : MacSt → MacSt) (s : State) : (updMac m f s).ctr = s.ctr := rfl
@[simp] theorem updMac_cap (m : Nat) (f : MacSt → MacSt) (s : State) : (updMac m f s).cap = s.cap := rfl
@[simp] theorem updMac_mcc (m : Nat) (f : MacSt → MacSt) (s : State) : (updMac m f s).mcc = s.mcc := rfl
@[simp] theorem updMac_hp (m : Nat) (f : MacSt → MacSt) (s : State) : (updMac m f s).hp = s.hp := rfl
@[simp] theorem updMac_tmu (m : Nat) (f : MacSt → MacSt) (s : State) : (updMac m f s).tmu = s.tmu := rfl
@[simp] theorem updMac_evr (m : Nat) (f : MacSt → MacSt) (s : State) : (updMac m f s).evr = s.evr := rfl
@[simp] theorem updMac_sepia (m : Nat) (f : MacSt → MacSt) (s : State) : (updMac m f s).sepia = s.sepia := rfl
@[simp] theorem updMac_stest (m : Nat) (f : MacSt → MacSt) (s : State) : (updMac m f s).stest = s.stest := rfl
@[simp] theorem updMac_woad (m : Nat) (f : MacSt → MacSt) (s : State) : (updMac m f s).woad = s.woad := rfl
@[simp] theorem updMac_otp (m : Nat) (f : MacSt → MacSt) (s : State) : (updMac m f s).otp = s.otp := rfl
@[simp] theorem updMac_rla (m : Nat) (f : MacSt → MacSt) (s : State) : (updMac m f s).rla = s.rla := rfl
@[simp] theorem updMac_lm (m : Nat) (f : MacSt → MacSt) (s : State) : (updMac m f s).lm = s.lm := rfl
@[simp] theorem updMac_ing (m : Nat) (f : MacSt → MacSt) (s : State) : (updMac m f s).ing = s.ing := rfl
@[simp] theorem updMac_pass (m : Nat) (f : MacSt → MacSt) (s : State) : (updMac m f s).pass = s.pass := rfl
@[simp] theorem updMac_ldg (m : Nat) (f : MacSt → MacSt) (s : State) : (updMac m f s).ldg = s.ldg := rfl
@[simp] theorem updMac_bal (m : Nat) (f : MacSt → MacSt) (s : State) : (updMac m f s).bal = s.bal := rfl
@[simp] theorem updMac_lake (m : Nat) (f : MacSt → MacSt) (s : State) : (updMac m f s).lake = s.lake := rfl
@[simp] theorem updMac_cas (m : Nat) (f : MacSt → MacSt) (s : State) : (updMac m f s).cas = s.cas := rfl
@[simp] theorem updMac_upd (m : Nat) (f : MacSt → MacSt) (s : State) : (updMac m f s).upd = s.upd := rfl
@[simp] theorem updMac_cpm (m : Nat) (f : MacSt → MacSt) (s : State) : (updMac m f s).cpm = s.cpm := rfl
@[simp] theorem updMac_out (m : Nat) (f : MacSt → MacSt) (s : State) : (updMac m f s).out = s.out := rfl
@[simp] theorem updMac_free (m : Nat) (f : MacSt → MacSt) (s : State) : (updMac m f s).free = s.free := rfl
@[simp] theorem updMac_pending (m : Nat) (f : MacSt → MacSt) (s : State) : (updMac m f s).pending = s.pending := rfl

@[simp] theorem sendWord_glb (p a b c d : Nat) (s : State) : (sendWord p a b c d s).glb = s.glb := rfl
@[simp] theorem sendWord_ctr (p a b c d : Nat) (s : State) : (sendWord p a b c d s).ctr = s.ctr := rfl
@[simp] theorem sendWord_cap (p a b c d : Nat) (s : State) : (sendWord p a b c d s).cap = s.cap := rfl
@[simp] theorem sendWord_mcc (p a b c d : Nat) (s : State) : (sendWord p a b c d s).mcc = s.mcc := rfl
@[simp] theorem sendWord_hp (p a b c d : Nat) (s : State) : (sendWord p a b c d s).hp = s.hp := rfl
@[simp] theorem sendWord_tmu (p a b c d : Nat) (s : State) : (sendWord p a b c d s).tmu = s.tmu := rfl
@[simp] theorem sendWord_evr (p a b c d : Nat) (s : State) : (sendWord p a b c d s).evr = s.evr := rfl
@[simp] theorem sendWord_sepia (p a b c d : Nat) (s : State) : (sendWord p a b c d s).sepia = s.sepia := rfl
@[simp] theorem sendWord_stest (p a b c d : Nat) (s : State) : (sendWord p a b c d s).stest = s.stest := rfl
@[simp] theorem sendWord_woad (p a b c d : Nat) (s : State) : (sendWord p a b c d s).woad = s.woad := rfl
@[simp] theorem sendWord_otp (p a b c d : Nat) (s : State) : (sendWord p a b c d s).otp = s.otp := rfl
@[simp] theorem sendWord_rla (p a b c d : Nat) (s : State) : (sendWord p a b c d s).rla = s.rla := rfl
@[simp] theorem sendWord_lm (p a b c d : Nat) (s : State) : (sendWord p a b c d s).lm = s.lm := rfl
@[simp] theorem sendWord_ing (p a b c d : Nat) (s : State) : (sendWord p a b c d s).ing = s.ing := rfl
@[simp] theorem sendWord_pass (p a b c d : Nat) (s : State) : (sendWord p a b c d s).pass = s.pass := rfl
@[simp] theorem sendWord_ldg (p a b c d : Nat) (s : State) : (sendWord p a b c d s).ldg = s.ldg := rfl
@[simp] theorem sendWord_bal (p a b c d : Nat) (s : State) : (sendWord p a b c d s).bal = s.bal := rfl
@[simp] theorem sendWord_lake (p a b c d : Nat) (s : State) : (sendWord p a b c d s).lake = s.lake := rfl
@[simp] theorem sendWord_macs (p a b c d : Nat) (s : State) : (sendWord p a b c d s).macs = s.macs := rfl
@[simp] theorem sendWord_cas (p a b c d : Nat) (s : State) : (sendWord p a b c d s).cas = s.cas := rfl
@[simp] theorem sendWord_upd (p a b c d : Nat) (s : State) : (sendWord p a b c d s).upd = s.upd := rfl
@[simp] theorem sendWord_cpm (p a b c d : Nat) (s : State) : (sendWord p a b c d s).cpm = s.cpm := rfl
@[simp] theorem sendWord_free (p a b c d : Nat) (s : State) : (sendWord p a b c d s).free = s.free := rfl
@[simp] theorem sendWord_pending (p a b c d : Nat) (s : State) : (sendWord p a b c d s).pending = s.pending := rfl

/-! ## What the accessors read -/

/-- A counter after an addition. -/
theorem counter_countN (k n j : Nat) (s : State) : (countN k n s).counter j = if j = k then s.counter j + BitVec.ofNat 64 n else s.counter j := by
  unfold State.counter countN
  dsimp only
  rw [Map.get_put]
  split
  · next h => rw [h]
  · rfl

theorem counter_count (k j : Nat) (s : State) : (count k s).counter j = if j = k then s.counter j + 1 else s.counter j := counter_countN k 1 j s

/-- Only the counters matter to a counter. -/
theorem counter_congr {s u : State} (h : u.ctr = s.ctr) (j : Nat) : u.counter j = s.counter j := by
  unfold State.counter
  rw [h]

@[simp] theorem thr_setThr_self (t : Nat) (th : Thread) (s : State) : (setThr t th s).thr t = th := Map.get_put_self _ _ _ _

theorem thr_setThr_ne {t v : Nat} (th : Thread) (s : State) (h : v ≠ t) : (setThr t th s).thr v = s.thr v := Map.get_put_ne _ _ _ h

@[simp] theorem thr_updThr_self (t : Nat) (f : Thread → Thread) (s : State) : (updThr t f s).thr t = f (s.thr t) := Map.get_put_self _ _ _ _

theorem thr_updThr_ne {t v : Nat} (f : Thread → Thread) (s : State) (h : v ≠ t) : (updThr t f s).thr v = s.thr v := Map.get_put_ne _ _ _ h

@[simp] theorem thr_countN (k n t : Nat) (s : State) : (countN k n s).thr t = s.thr t := rfl

@[simp] theorem thr_count (k t : Nat) (s : State) : (count k s).thr t = s.thr t := rfl

@[simp] theorem cport_updCport_self (p : Nat) (f : CPort → CPort) (s : State) : (updCport p f s).cport p = f (s.cport p) := Map.get_put_self _ _ _ _

theorem cport_updCport_ne {p q : Nat} (f : CPort → CPort) (s : State) (h : q ≠ p) : (updCport p f s).cport q = s.cport q := Map.get_put_ne _ _ _ h

@[simp] theorem cport_countN (k n p : Nat) (s : State) : (countN k n s).cport p = s.cport p := rfl

@[simp] theorem cport_count (k p : Nat) (s : State) : (count k s).cport p = s.cport p := rfl

@[simp] theorem rport_updRport_self (p : Nat) (f : RPort → RPort) (s : State) : (updRport p f s).rport p = f (s.rport p) := Map.get_put_self _ _ _ _

theorem rport_updRport_ne {p q : Nat} (f : RPort → RPort) (s : State) (h : q ≠ p) : (updRport p f s).rport q = s.rport q := Map.get_put_ne _ _ _ h

@[simp] theorem rport_countN (k n p : Nat) (s : State) : (countN k n s).rport p = s.rport p := rfl

@[simp] theorem rport_count (k p : Nat) (s : State) : (count k s).rport p = s.rport p := rfl

@[simp] theorem lport_updLport_self (p : Nat) (f : LPort → LPort) (s : State) : (updLport p f s).lport p = f (s.lport p) := Map.get_put_self _ _ _ _

theorem lport_updLport_ne {p q : Nat} (f : LPort → LPort) (s : State) (h : q ≠ p) : (updLport p f s).lport q = s.lport q := Map.get_put_ne _ _ _ h

@[simp] theorem lport_countN (k n p : Nat) (s : State) : (countN k n s).lport p = s.lport p := rfl

@[simp] theorem lport_count (k p : Nat) (s : State) : (count k s).lport p = s.lport p := rfl

@[simp] theorem node_updNode_self (p : Nat) (f : Node → Node) (s : State) : (updNode p f s).node p = f (s.node p) := Map.get_put_self _ _ _ _

theorem node_updNode_ne {p q : Nat} (f : Node → Node) (s : State) (h : q ≠ p) : (updNode p f s).node q = s.node q := Map.get_put_ne _ _ _ h

@[simp] theorem node_countN (k n p : Nat) (s : State) : (countN k n s).node p = s.node p := rfl

@[simp] theorem node_count (k p : Nat) (s : State) : (count k s).node p = s.node p := rfl

@[simp] theorem mac_updMac_self (p : Nat) (f : MacSt → MacSt) (s : State) : (updMac p f s).mac p = f (s.mac p) := Map.get_put_self _ _ _ _

theorem mac_updMac_ne {p q : Nat} (f : MacSt → MacSt) (s : State) (h : q ≠ p) : (updMac p f s).mac q = s.mac q := Map.get_put_ne _ _ _ h

@[simp] theorem mac_countN (k n p : Nat) (s : State) : (countN k n s).mac p = s.mac p := rfl

@[simp] theorem mac_count (k p : Nat) (s : State) : (count k s).mac p = s.mac p := rfl

/-! ## Operations of several steps: all that each can change -/

theorem countIf_frame (b : Bool) (k : Nat) (s : State) : countIf b k s = { s with ctr := (countIf b k s).ctr } := by
  unfold countIf
  split <;> rfl
@[simp] theorem countIf_glb (b : Bool) (k : Nat) (s : State) : (countIf b k s).glb = s.glb := by rw [countIf_frame]
@[simp] theorem countIf_cap (b : Bool) (k : Nat) (s : State) : (countIf b k s).cap = s.cap := by rw [countIf_frame]
@[simp] theorem countIf_mcc (b : Bool) (k : Nat) (s : State) : (countIf b k s).mcc = s.mcc := by rw [countIf_frame]
@[simp] theorem countIf_hp (b : Bool) (k : Nat) (s : State) : (countIf b k s).hp = s.hp := by rw [countIf_frame]
@[simp] theorem countIf_tmu (b : Bool) (k : Nat) (s : State) : (countIf b k s).tmu = s.tmu := by rw [countIf_frame]
@[simp] theorem countIf_evr (b : Bool) (k : Nat) (s : State) : (countIf b k s).evr = s.evr := by rw [countIf_frame]
@[simp] theorem countIf_sepia (b : Bool) (k : Nat) (s : State) : (countIf b k s).sepia = s.sepia := by rw [countIf_frame]
@[simp] theorem countIf_stest (b : Bool) (k : Nat) (s : State) : (countIf b k s).stest = s.stest := by rw [countIf_frame]
@[simp] theorem countIf_woad (b : Bool) (k : Nat) (s : State) : (countIf b k s).woad = s.woad := by rw [countIf_frame]
@[simp] theorem countIf_otp (b : Bool) (k : Nat) (s : State) : (countIf b k s).otp = s.otp := by rw [countIf_frame]
@[simp] theorem countIf_rla (b : Bool) (k : Nat) (s : State) : (countIf b k s).rla = s.rla := by rw [countIf_frame]
@[simp] theorem countIf_lm (b : Bool) (k : Nat) (s : State) : (countIf b k s).lm = s.lm := by rw [countIf_frame]
@[simp] theorem countIf_ing (b : Bool) (k : Nat) (s : State) : (countIf b k s).ing = s.ing := by rw [countIf_frame]
@[simp] theorem countIf_pass (b : Bool) (k : Nat) (s : State) : (countIf b k s).pass = s.pass := by rw [countIf_frame]
@[simp] theorem countIf_ldg (b : Bool) (k : Nat) (s : State) : (countIf b k s).ldg = s.ldg := by rw [countIf_frame]
@[simp] theorem countIf_bal (b : Bool) (k : Nat) (s : State) : (countIf b k s).bal = s.bal := by rw [countIf_frame]
@[simp] theorem countIf_lake (b : Bool) (k : Nat) (s : State) : (countIf b k s).lake = s.lake := by rw [countIf_frame]
@[simp] theorem countIf_macs (b : Bool) (k : Nat) (s : State) : (countIf b k s).macs = s.macs := by rw [countIf_frame]
@[simp] theorem countIf_cas (b : Bool) (k : Nat) (s : State) : (countIf b k s).cas = s.cas := by rw [countIf_frame]
@[simp] theorem countIf_upd (b : Bool) (k : Nat) (s : State) : (countIf b k s).upd = s.upd := by rw [countIf_frame]
@[simp] theorem countIf_cpm (b : Bool) (k : Nat) (s : State) : (countIf b k s).cpm = s.cpm := by rw [countIf_frame]
@[simp] theorem countIf_out (b : Bool) (k : Nat) (s : State) : (countIf b k s).out = s.out := by rw [countIf_frame]
@[simp] theorem countIf_free (b : Bool) (k : Nat) (s : State) : (countIf b k s).free = s.free := by rw [countIf_frame]
@[simp] theorem countIf_pending (b : Bool) (k : Nat) (s : State) : (countIf b k s).pending = s.pending := by rw [countIf_frame]

theorem dropNotice_frame (n : Notice) (s : State) : dropNotice n s = { s with hp := (dropNotice n s).hp, ctr := (dropNotice n s).ctr, glb := (dropNotice n s).glb } := by
  unfold dropNotice
  dsimp only
  split <;> rfl
@[simp] theorem dropNotice_cap (n : Notice) (s : State) : (dropNotice n s).cap = s.cap := by rw [dropNotice_frame]
@[simp] theorem dropNotice_mcc (n : Notice) (s : State) : (dropNotice n s).mcc = s.mcc := by rw [dropNotice_frame]
@[simp] theorem dropNotice_tmu (n : Notice) (s : State) : (dropNotice n s).tmu = s.tmu := by rw [dropNotice_frame]
@[simp] theorem dropNotice_evr (n : Notice) (s : State) : (dropNotice n s).evr = s.evr := by rw [dropNotice_frame]
@[simp] theorem dropNotice_sepia (n : Notice) (s : State) : (dropNotice n s).sepia = s.sepia := by rw [dropNotice_frame]
@[simp] theorem dropNotice_stest (n : Notice) (s : State) : (dropNotice n s).stest = s.stest := by rw [dropNotice_frame]
@[simp] theorem dropNotice_woad (n : Notice) (s : State) : (dropNotice n s).woad = s.woad := by rw [dropNotice_frame]
@[simp] theorem dropNotice_otp (n : Notice) (s : State) : (dropNotice n s).otp = s.otp := by rw [dropNotice_frame]
@[simp] theorem dropNotice_rla (n : Notice) (s : State) : (dropNotice n s).rla = s.rla := by rw [dropNotice_frame]
@[simp] theorem dropNotice_lm (n : Notice) (s : State) : (dropNotice n s).lm = s.lm := by rw [dropNotice_frame]
@[simp] theorem dropNotice_ing (n : Notice) (s : State) : (dropNotice n s).ing = s.ing := by rw [dropNotice_frame]
@[simp] theorem dropNotice_pass (n : Notice) (s : State) : (dropNotice n s).pass = s.pass := by rw [dropNotice_frame]
@[simp] theorem dropNotice_ldg (n : Notice) (s : State) : (dropNotice n s).ldg = s.ldg := by rw [dropNotice_frame]
@[simp] theorem dropNotice_bal (n : Notice) (s : State) : (dropNotice n s).bal = s.bal := by rw [dropNotice_frame]
@[simp] theorem dropNotice_lake (n : Notice) (s : State) : (dropNotice n s).lake = s.lake := by rw [dropNotice_frame]
@[simp] theorem dropNotice_macs (n : Notice) (s : State) : (dropNotice n s).macs = s.macs := by rw [dropNotice_frame]
@[simp] theorem dropNotice_cas (n : Notice) (s : State) : (dropNotice n s).cas = s.cas := by rw [dropNotice_frame]
@[simp] theorem dropNotice_upd (n : Notice) (s : State) : (dropNotice n s).upd = s.upd := by rw [dropNotice_frame]
@[simp] theorem dropNotice_cpm (n : Notice) (s : State) : (dropNotice n s).cpm = s.cpm := by rw [dropNotice_frame]
@[simp] theorem dropNotice_out (n : Notice) (s : State) : (dropNotice n s).out = s.out := by rw [dropNotice_frame]
@[simp] theorem dropNotice_free (n : Notice) (s : State) : (dropNotice n s).free = s.free := by rw [dropNotice_frame]
@[simp] theorem dropNotice_pending (n : Notice) (s : State) : (dropNotice n s).pending = s.pending := by rw [dropNotice_frame]

theorem postNotice_frame (code cls : Nat) (args : List Byte) (s : State) : postNotice code cls args s = { s with hp := (postNotice code cls args s).hp, ctr := (postNotice code cls args s).ctr, glb := (postNotice code cls args s).glb } := by
  unfold postNotice
  split
  · rfl
  · dsimp only
    split
    · rfl
    · split
      · rfl
      · rw [dropNotice_frame]; rfl
@[simp] theorem postNotice_cap (code cls : Nat) (args : List Byte) (s : State) : (postNotice code cls args s).cap = s.cap := by rw [postNotice_frame]
@[simp] theorem postNotice_mcc (code cls : Nat) (args : List Byte) (s : State) : (postNotice code cls args s).mcc = s.mcc := by rw [postNotice_frame]
@[simp] theorem postNotice_tmu (code cls : Nat) (args : List Byte) (s : State) : (postNotice code cls args s).tmu = s.tmu := by rw [postNotice_frame]
@[simp] theorem postNotice_evr (code cls : Nat) (args : List Byte) (s : State) : (postNotice code cls args s).evr = s.evr := by rw [postNotice_frame]
@[simp] theorem postNotice_sepia (code cls : Nat) (args : List Byte) (s : State) : (postNotice code cls args s).sepia = s.sepia := by rw [postNotice_frame]
@[simp] theorem postNotice_stest (code cls : Nat) (args : List Byte) (s : State) : (postNotice code cls args s).stest = s.stest := by rw [postNotice_frame]
@[simp] theorem postNotice_woad (code cls : Nat) (args : List Byte) (s : State) : (postNotice code cls args s).woad = s.woad := by rw [postNotice_frame]
@[simp] theorem postNotice_otp (code cls : Nat) (args : List Byte) (s : State) : (postNotice code cls args s).otp = s.otp := by rw [postNotice_frame]
@[simp] theorem postNotice_rla (code cls : Nat) (args : List Byte) (s : State) : (postNotice code cls args s).rla = s.rla := by rw [postNotice_frame]
@[simp] theorem postNotice_lm (code cls : Nat) (args : List Byte) (s : State) : (postNotice code cls args s).lm = s.lm := by rw [postNotice_frame]
@[simp] theorem postNotice_ing (code cls : Nat) (args : List Byte) (s : State) : (postNotice code cls args s).ing = s.ing := by rw [postNotice_frame]
@[simp] theorem postNotice_pass (code cls : Nat) (args : List Byte) (s : State) : (postNotice code cls args s).pass = s.pass := by rw [postNotice_frame]
@[simp] theorem postNotice_ldg (code cls : Nat) (args : List Byte) (s : State) : (postNotice code cls args s).ldg = s.ldg := by rw [postNotice_frame]
@[simp] theorem postNotice_bal (code cls : Nat) (args : List Byte) (s : State) : (postNotice code cls args s).bal = s.bal := by rw [postNotice_frame]
@[simp] theorem postNotice_lake (code cls : Nat) (args : List Byte) (s : State) : (postNotice code cls args s).lake = s.lake := by rw [postNotice_frame]
@[simp] theorem postNotice_macs (code cls : Nat) (args : List Byte) (s : State) : (postNotice code cls args s).macs = s.macs := by rw [postNotice_frame]
@[simp] theorem postNotice_cas (code cls : Nat) (args : List Byte) (s : State) : (postNotice code cls args s).cas = s.cas := by rw [postNotice_frame]
@[simp] theorem postNotice_upd (code cls : Nat) (args : List Byte) (s : State) : (postNotice code cls args s).upd = s.upd := by rw [postNotice_frame]
@[simp] theorem postNotice_cpm (code cls : Nat) (args : List Byte) (s : State) : (postNotice code cls args s).cpm = s.cpm := by rw [postNotice_frame]
@[simp] theorem postNotice_out (code cls : Nat) (args : List Byte) (s : State) : (postNotice code cls args s).out = s.out := by rw [postNotice_frame]
@[simp] theorem postNotice_free (code cls : Nat) (args : List Byte) (s : State) : (postNotice code cls args s).free = s.free := by rw [postNotice_frame]
@[simp] theorem postNotice_pending (code cls : Nat) (args : List Byte) (s : State) : (postNotice code cls args s).pending = s.pending := by rw [postNotice_frame]

theorem setMode_frame (m : Mode) (r : Bool) (s : State) : setMode m r s = { s with hp := (setMode m r s).hp, ctr := (setMode m r s).ctr, glb := (setMode m r s).glb } := by
  unfold setMode
  split
  · rfl
  · rw [postNotice_frame]
@[simp] theorem setMode_cap (m : Mode) (r : Bool) (s : State) : (setMode m r s).cap = s.cap := by rw [setMode_frame]
@[simp] theorem setMode_mcc (m : Mode) (r : Bool) (s : State) : (setMode m r s).mcc = s.mcc := by rw [setMode_frame]
@[simp] theorem setMode_tmu (m : Mode) (r : Bool) (s : State) : (setMode m r s).tmu = s.tmu := by rw [setMode_frame]
@[simp] theorem setMode_evr (m : Mode) (r : Bool) (s : State) : (setMode m r s).evr = s.evr := by rw [setMode_frame]
@[simp] theorem setMode_sepia (m : Mode) (r : Bool) (s : State) : (setMode m r s).sepia = s.sepia := by rw [setMode_frame]
@[simp] theorem setMode_stest (m : Mode) (r : Bool) (s : State) : (setMode m r s).stest = s.stest := by rw [setMode_frame]
@[simp] theorem setMode_woad (m : Mode) (r : Bool) (s : State) : (setMode m r s).woad = s.woad := by rw [setMode_frame]
@[simp] theorem setMode_otp (m : Mode) (r : Bool) (s : State) : (setMode m r s).otp = s.otp := by rw [setMode_frame]
@[simp] theorem setMode_rla (m : Mode) (r : Bool) (s : State) : (setMode m r s).rla = s.rla := by rw [setMode_frame]
@[simp] theorem setMode_lm (m : Mode) (r : Bool) (s : State) : (setMode m r s).lm = s.lm := by rw [setMode_frame]
@[simp] theorem setMode_ing (m : Mode) (r : Bool) (s : State) : (setMode m r s).ing = s.ing := by rw [setMode_frame]
@[simp] theorem setMode_pass (m : Mode) (r : Bool) (s : State) : (setMode m r s).pass = s.pass := by rw [setMode_frame]
@[simp] theorem setMode_ldg (m : Mode) (r : Bool) (s : State) : (setMode m r s).ldg = s.ldg := by rw [setMode_frame]
@[simp] theorem setMode_bal (m : Mode) (r : Bool) (s : State) : (setMode m r s).bal = s.bal := by rw [setMode_frame]
@[simp] theorem setMode_lake (m : Mode) (r : Bool) (s : State) : (setMode m r s).lake = s.lake := by rw [setMode_frame]
@[simp] theorem setMode_macs (m : Mode) (r : Bool) (s : State) : (setMode m r s).macs = s.macs := by rw [setMode_frame]
@[simp] theorem setMode_cas (m : Mode) (r : Bool) (s : State) : (setMode m r s).cas = s.cas := by rw [setMode_frame]
@[simp] theorem setMode_upd (m : Mode) (r : Bool) (s : State) : (setMode m r s).upd = s.upd := by rw [setMode_frame]
@[simp] theorem setMode_cpm (m : Mode) (r : Bool) (s : State) : (setMode m r s).cpm = s.cpm := by rw [setMode_frame]
@[simp] theorem setMode_out (m : Mode) (r : Bool) (s : State) : (setMode m r s).out = s.out := by rw [setMode_frame]
@[simp] theorem setMode_free (m : Mode) (r : Bool) (s : State) : (setMode m r s).free = s.free := by rw [setMode_frame]
@[simp] theorem setMode_pending (m : Mode) (r : Bool) (s : State) : (setMode m r s).pending = s.pending := by rw [setMode_frame]

theorem timeInvalid_frame (cause : Nat) (s : State) : timeInvalid cause s = { s with hp := (timeInvalid cause s).hp, ctr := (timeInvalid cause s).ctr, glb := (timeInvalid cause s).glb, tmu := (timeInvalid cause s).tmu } := by
  unfold timeInvalid
  split
  · rw [postNotice_frame]
  · rfl
@[simp] theorem timeInvalid_cap (cause : Nat) (s : State) : (timeInvalid cause s).cap = s.cap := by rw [timeInvalid_frame]
@[simp] theorem timeInvalid_mcc (cause : Nat) (s : State) : (timeInvalid cause s).mcc = s.mcc := by rw [timeInvalid_frame]
@[simp] theorem timeInvalid_evr (cause : Nat) (s : State) : (timeInvalid cause s).evr = s.evr := by rw [timeInvalid_frame]
@[simp] theorem timeInvalid_sepia (cause : Nat) (s : State) : (timeInvalid cause s).sepia = s.sepia := by rw [timeInvalid_frame]
@[simp] theorem timeInvalid_stest (cause : Nat) (s : State) : (timeInvalid cause s).stest = s.stest := by rw [timeInvalid_frame]
@[simp] theorem timeInvalid_woad (cause : Nat) (s : State) : (timeInvalid cause s).woad = s.woad := by rw [timeInvalid_frame]
@[simp] theorem timeInvalid_otp (cause : Nat) (s : State) : (timeInvalid cause s).otp = s.otp := by rw [timeInvalid_frame]
@[simp] theorem timeInvalid_rla (cause : Nat) (s : State) : (timeInvalid cause s).rla = s.rla := by rw [timeInvalid_frame]
@[simp] theorem timeInvalid_lm (cause : Nat) (s : State) : (timeInvalid cause s).lm = s.lm := by rw [timeInvalid_frame]
@[simp] theorem timeInvalid_ing (cause : Nat) (s : State) : (timeInvalid cause s).ing = s.ing := by rw [timeInvalid_frame]
@[simp] theorem timeInvalid_pass (cause : Nat) (s : State) : (timeInvalid cause s).pass = s.pass := by rw [timeInvalid_frame]
@[simp] theorem timeInvalid_ldg (cause : Nat) (s : State) : (timeInvalid cause s).ldg = s.ldg := by rw [timeInvalid_frame]
@[simp] theorem timeInvalid_bal (cause : Nat) (s : State) : (timeInvalid cause s).bal = s.bal := by rw [timeInvalid_frame]
@[simp] theorem timeInvalid_lake (cause : Nat) (s : State) : (timeInvalid cause s).lake = s.lake := by rw [timeInvalid_frame]
@[simp] theorem timeInvalid_macs (cause : Nat) (s : State) : (timeInvalid cause s).macs = s.macs := by rw [timeInvalid_frame]
@[simp] theorem timeInvalid_cas (cause : Nat) (s : State) : (timeInvalid cause s).cas = s.cas := by rw [timeInvalid_frame]
@[simp] theorem timeInvalid_upd (cause : Nat) (s : State) : (timeInvalid cause s).upd = s.upd := by rw [timeInvalid_frame]
@[simp] theorem timeInvalid_cpm (cause : Nat) (s : State) : (timeInvalid cause s).cpm = s.cpm := by rw [timeInvalid_frame]
@[simp] theorem timeInvalid_out (cause : Nat) (s : State) : (timeInvalid cause s).out = s.out := by rw [timeInvalid_frame]
@[simp] theorem timeInvalid_free (cause : Nat) (s : State) : (timeInvalid cause s).free = s.free := by rw [timeInvalid_frame]
@[simp] theorem timeInvalid_pending (cause : Nat) (s : State) : (timeInvalid cause s).pending = s.pending := by rw [timeInvalid_frame]

theorem recEventL_frame (typ : Nat) (legal : Bool) (d : List Byte) (s : State) : recEventL typ legal d s = { s with evr := (recEventL typ legal d s).evr, ctr := (recEventL typ legal d s).ctr } := by
  unfold recEventL
  dsimp only
  split
  · rfl
  · split <;> rfl
@[simp] theorem recEventL_glb (typ : Nat) (legal : Bool) (d : List Byte) (s : State) : (recEventL typ legal d s).glb = s.glb := by rw [recEventL_frame]
@[simp] theorem recEventL_cap (typ : Nat) (legal : Bool) (d : List Byte) (s : State) : (recEventL typ legal d s).cap = s.cap := by rw [recEventL_frame]
@[simp] theorem recEventL_mcc (typ : Nat) (legal : Bool) (d : List Byte) (s : State) : (recEventL typ legal d s).mcc = s.mcc := by rw [recEventL_frame]
@[simp] theorem recEventL_hp (typ : Nat) (legal : Bool) (d : List Byte) (s : State) : (recEventL typ legal d s).hp = s.hp := by rw [recEventL_frame]
@[simp] theorem recEventL_tmu (typ : Nat) (legal : Bool) (d : List Byte) (s : State) : (recEventL typ legal d s).tmu = s.tmu := by rw [recEventL_frame]
@[simp] theorem recEventL_sepia (typ : Nat) (legal : Bool) (d : List Byte) (s : State) : (recEventL typ legal d s).sepia = s.sepia := by rw [recEventL_frame]
@[simp] theorem recEventL_stest (typ : Nat) (legal : Bool) (d : List Byte) (s : State) : (recEventL typ legal d s).stest = s.stest := by rw [recEventL_frame]
@[simp] theorem recEventL_woad (typ : Nat) (legal : Bool) (d : List Byte) (s : State) : (recEventL typ legal d s).woad = s.woad := by rw [recEventL_frame]
@[simp] theorem recEventL_otp (typ : Nat) (legal : Bool) (d : List Byte) (s : State) : (recEventL typ legal d s).otp = s.otp := by rw [recEventL_frame]
@[simp] theorem recEventL_rla (typ : Nat) (legal : Bool) (d : List Byte) (s : State) : (recEventL typ legal d s).rla = s.rla := by rw [recEventL_frame]
@[simp] theorem recEventL_lm (typ : Nat) (legal : Bool) (d : List Byte) (s : State) : (recEventL typ legal d s).lm = s.lm := by rw [recEventL_frame]
@[simp] theorem recEventL_ing (typ : Nat) (legal : Bool) (d : List Byte) (s : State) : (recEventL typ legal d s).ing = s.ing := by rw [recEventL_frame]
@[simp] theorem recEventL_pass (typ : Nat) (legal : Bool) (d : List Byte) (s : State) : (recEventL typ legal d s).pass = s.pass := by rw [recEventL_frame]
@[simp] theorem recEventL_ldg (typ : Nat) (legal : Bool) (d : List Byte) (s : State) : (recEventL typ legal d s).ldg = s.ldg := by rw [recEventL_frame]
@[simp] theorem recEventL_bal (typ : Nat) (legal : Bool) (d : List Byte) (s : State) : (recEventL typ legal d s).bal = s.bal := by rw [recEventL_frame]
@[simp] theorem recEventL_lake (typ : Nat) (legal : Bool) (d : List Byte) (s : State) : (recEventL typ legal d s).lake = s.lake := by rw [recEventL_frame]
@[simp] theorem recEventL_macs (typ : Nat) (legal : Bool) (d : List Byte) (s : State) : (recEventL typ legal d s).macs = s.macs := by rw [recEventL_frame]
@[simp] theorem recEventL_cas (typ : Nat) (legal : Bool) (d : List Byte) (s : State) : (recEventL typ legal d s).cas = s.cas := by rw [recEventL_frame]
@[simp] theorem recEventL_upd (typ : Nat) (legal : Bool) (d : List Byte) (s : State) : (recEventL typ legal d s).upd = s.upd := by rw [recEventL_frame]
@[simp] theorem recEventL_cpm (typ : Nat) (legal : Bool) (d : List Byte) (s : State) : (recEventL typ legal d s).cpm = s.cpm := by rw [recEventL_frame]
@[simp] theorem recEventL_out (typ : Nat) (legal : Bool) (d : List Byte) (s : State) : (recEventL typ legal d s).out = s.out := by rw [recEventL_frame]
@[simp] theorem recEventL_free (typ : Nat) (legal : Bool) (d : List Byte) (s : State) : (recEventL typ legal d s).free = s.free := by rw [recEventL_frame]
@[simp] theorem recEventL_pending (typ : Nat) (legal : Bool) (d : List Byte) (s : State) : (recEventL typ legal d s).pending = s.pending := by rw [recEventL_frame]

theorem recEvent_frame (typ : Nat) (d : List Byte) (s : State) : recEvent typ d s = { s with evr := (recEvent typ d s).evr, ctr := (recEvent typ d s).ctr } := by
  exact recEventL_frame typ false d s
@[simp] theorem recEvent_glb (typ : Nat) (d : List Byte) (s : State) : (recEvent typ d s).glb = s.glb := by rw [recEvent_frame]
@[simp] theorem recEvent_cap (typ : Nat) (d : List Byte) (s : State) : (recEvent typ d s).cap = s.cap := by rw [recEvent_frame]
@[simp] theorem recEvent_mcc (typ : Nat) (d : List Byte) (s : State) : (recEvent typ d s).mcc = s.mcc := by rw [recEvent_frame]
@[simp] theorem recEvent_hp (typ : Nat) (d : List Byte) (s : State) : (recEvent typ d s).hp = s.hp := by rw [recEvent_frame]
@[simp] theorem recEvent_tmu (typ : Nat) (d : List Byte) (s : State) : (recEvent typ d s).tmu = s.tmu := by rw [recEvent_frame]
@[simp] theorem recEvent_sepia (typ : Nat) (d : List Byte) (s : State) : (recEvent typ d s).sepia = s.sepia := by rw [recEvent_frame]
@[simp] theorem recEvent_stest (typ : Nat) (d : List Byte) (s : State) : (recEvent typ d s).stest = s.stest := by rw [recEvent_frame]
@[simp] theorem recEvent_woad (typ : Nat) (d : List Byte) (s : State) : (recEvent typ d s).woad = s.woad := by rw [recEvent_frame]
@[simp] theorem recEvent_otp (typ : Nat) (d : List Byte) (s : State) : (recEvent typ d s).otp = s.otp := by rw [recEvent_frame]
@[simp] theorem recEvent_rla (typ : Nat) (d : List Byte) (s : State) : (recEvent typ d s).rla = s.rla := by rw [recEvent_frame]
@[simp] theorem recEvent_lm (typ : Nat) (d : List Byte) (s : State) : (recEvent typ d s).lm = s.lm := by rw [recEvent_frame]
@[simp] theorem recEvent_ing (typ : Nat) (d : List Byte) (s : State) : (recEvent typ d s).ing = s.ing := by rw [recEvent_frame]
@[simp] theorem recEvent_pass (typ : Nat) (d : List Byte) (s : State) : (recEvent typ d s).pass = s.pass := by rw [recEvent_frame]
@[simp] theorem recEvent_ldg (typ : Nat) (d : List Byte) (s : State) : (recEvent typ d s).ldg = s.ldg := by rw [recEvent_frame]
@[simp] theorem recEvent_bal (typ : Nat) (d : List Byte) (s : State) : (recEvent typ d s).bal = s.bal := by rw [recEvent_frame]
@[simp] theorem recEvent_lake (typ : Nat) (d : List Byte) (s : State) : (recEvent typ d s).lake = s.lake := by rw [recEvent_frame]
@[simp] theorem recEvent_macs (typ : Nat) (d : List Byte) (s : State) : (recEvent typ d s).macs = s.macs := by rw [recEvent_frame]
@[simp] theorem recEvent_cas (typ : Nat) (d : List Byte) (s : State) : (recEvent typ d s).cas = s.cas := by rw [recEvent_frame]
@[simp] theorem recEvent_upd (typ : Nat) (d : List Byte) (s : State) : (recEvent typ d s).upd = s.upd := by rw [recEvent_frame]
@[simp] theorem recEvent_cpm (typ : Nat) (d : List Byte) (s : State) : (recEvent typ d s).cpm = s.cpm := by rw [recEvent_frame]
@[simp] theorem recEvent_out (typ : Nat) (d : List Byte) (s : State) : (recEvent typ d s).out = s.out := by rw [recEvent_frame]
@[simp] theorem recEvent_free (typ : Nat) (d : List Byte) (s : State) : (recEvent typ d s).free = s.free := by rw [recEvent_frame]
@[simp] theorem recEvent_pending (typ : Nat) (d : List Byte) (s : State) : (recEvent typ d s).pending = s.pending := by rw [recEvent_frame]

theorem sepWrite_frame (typ : Nat) (d : List Byte) (s : State) : sepWrite typ d s = { s with sepia := (sepWrite typ d s).sepia, ctr := (sepWrite typ d s).ctr } := by
  unfold sepWrite
  split
  · split <;> rfl
  · split <;> rfl
@[simp] theorem sepWrite_glb (typ : Nat) (d : List Byte) (s : State) : (sepWrite typ d s).glb = s.glb := by rw [sepWrite_frame]
@[simp] theorem sepWrite_cap (typ : Nat) (d : List Byte) (s : State) : (sepWrite typ d s).cap = s.cap := by rw [sepWrite_frame]
@[simp] theorem sepWrite_mcc (typ : Nat) (d : List Byte) (s : State) : (sepWrite typ d s).mcc = s.mcc := by rw [sepWrite_frame]
@[simp] theorem sepWrite_hp (typ : Nat) (d : List Byte) (s : State) : (sepWrite typ d s).hp = s.hp := by rw [sepWrite_frame]
@[simp] theorem sepWrite_tmu (typ : Nat) (d : List Byte) (s : State) : (sepWrite typ d s).tmu = s.tmu := by rw [sepWrite_frame]
@[simp] theorem sepWrite_evr (typ : Nat) (d : List Byte) (s : State) : (sepWrite typ d s).evr = s.evr := by rw [sepWrite_frame]
@[simp] theorem sepWrite_stest (typ : Nat) (d : List Byte) (s : State) : (sepWrite typ d s).stest = s.stest := by rw [sepWrite_frame]
@[simp] theorem sepWrite_woad (typ : Nat) (d : List Byte) (s : State) : (sepWrite typ d s).woad = s.woad := by rw [sepWrite_frame]
@[simp] theorem sepWrite_otp (typ : Nat) (d : List Byte) (s : State) : (sepWrite typ d s).otp = s.otp := by rw [sepWrite_frame]
@[simp] theorem sepWrite_rla (typ : Nat) (d : List Byte) (s : State) : (sepWrite typ d s).rla = s.rla := by rw [sepWrite_frame]
@[simp] theorem sepWrite_lm (typ : Nat) (d : List Byte) (s : State) : (sepWrite typ d s).lm = s.lm := by rw [sepWrite_frame]
@[simp] theorem sepWrite_ing (typ : Nat) (d : List Byte) (s : State) : (sepWrite typ d s).ing = s.ing := by rw [sepWrite_frame]
@[simp] theorem sepWrite_pass (typ : Nat) (d : List Byte) (s : State) : (sepWrite typ d s).pass = s.pass := by rw [sepWrite_frame]
@[simp] theorem sepWrite_ldg (typ : Nat) (d : List Byte) (s : State) : (sepWrite typ d s).ldg = s.ldg := by rw [sepWrite_frame]
@[simp] theorem sepWrite_bal (typ : Nat) (d : List Byte) (s : State) : (sepWrite typ d s).bal = s.bal := by rw [sepWrite_frame]
@[simp] theorem sepWrite_lake (typ : Nat) (d : List Byte) (s : State) : (sepWrite typ d s).lake = s.lake := by rw [sepWrite_frame]
@[simp] theorem sepWrite_macs (typ : Nat) (d : List Byte) (s : State) : (sepWrite typ d s).macs = s.macs := by rw [sepWrite_frame]
@[simp] theorem sepWrite_cas (typ : Nat) (d : List Byte) (s : State) : (sepWrite typ d s).cas = s.cas := by rw [sepWrite_frame]
@[simp] theorem sepWrite_upd (typ : Nat) (d : List Byte) (s : State) : (sepWrite typ d s).upd = s.upd := by rw [sepWrite_frame]
@[simp] theorem sepWrite_cpm (typ : Nat) (d : List Byte) (s : State) : (sepWrite typ d s).cpm = s.cpm := by rw [sepWrite_frame]
@[simp] theorem sepWrite_out (typ : Nat) (d : List Byte) (s : State) : (sepWrite typ d s).out = s.out := by rw [sepWrite_frame]
@[simp] theorem sepWrite_free (typ : Nat) (d : List Byte) (s : State) : (sepWrite typ d s).free = s.free := by rw [sepWrite_frame]
@[simp] theorem sepWrite_pending (typ : Nat) (d : List Byte) (s : State) : (sepWrite typ d s).pending = s.pending := by rw [sepWrite_frame]

theorem rewait_frame (w : Wait) (w2 : Option Wait) (st : Option Nat) (o : Option (List (Nat × List Byte))) (s : State) : rewait w w2 st o s = { s with mcc := (rewait w w2 st o s).mcc, hp := (rewait w w2 st o s).hp } := by
  rfl
@[simp] theorem rewait_glb (w : Wait) (w2 : Option Wait) (st : Option Nat) (o : Option (List (Nat × List Byte))) (s : State) : (rewait w w2 st o s).glb = s.glb := by rw [rewait_frame]
@[simp] theorem rewait_ctr (w : Wait) (w2 : Option Wait) (st : Option Nat) (o : Option (List (Nat × List Byte))) (s : State) : (rewait w w2 st o s).ctr = s.ctr := by rw [rewait_frame]
@[simp] theorem rewait_cap (w : Wait) (w2 : Option Wait) (st : Option Nat) (o : Option (List (Nat × List Byte))) (s : State) : (rewait w w2 st o s).cap = s.cap := by rw [rewait_frame]
@[simp] theorem rewait_tmu (w : Wait) (w2 : Option Wait) (st : Option Nat) (o : Option (List (Nat × List Byte))) (s : State) : (rewait w w2 st o s).tmu = s.tmu := by rw [rewait_frame]
@[simp] theorem rewait_evr (w : Wait) (w2 : Option Wait) (st : Option Nat) (o : Option (List (Nat × List Byte))) (s : State) : (rewait w w2 st o s).evr = s.evr := by rw [rewait_frame]
@[simp] theorem rewait_sepia (w : Wait) (w2 : Option Wait) (st : Option Nat) (o : Option (List (Nat × List Byte))) (s : State) : (rewait w w2 st o s).sepia = s.sepia := by rw [rewait_frame]
@[simp] theorem rewait_stest (w : Wait) (w2 : Option Wait) (st : Option Nat) (o : Option (List (Nat × List Byte))) (s : State) : (rewait w w2 st o s).stest = s.stest := by rw [rewait_frame]
@[simp] theorem rewait_woad (w : Wait) (w2 : Option Wait) (st : Option Nat) (o : Option (List (Nat × List Byte))) (s : State) : (rewait w w2 st o s).woad = s.woad := by rw [rewait_frame]
@[simp] theorem rewait_otp (w : Wait) (w2 : Option Wait) (st : Option Nat) (o : Option (List (Nat × List Byte))) (s : State) : (rewait w w2 st o s).otp = s.otp := by rw [rewait_frame]
@[simp] theorem rewait_rla (w : Wait) (w2 : Option Wait) (st : Option Nat) (o : Option (List (Nat × List Byte))) (s : State) : (rewait w w2 st o s).rla = s.rla := by rw [rewait_frame]
@[simp] theorem rewait_lm (w : Wait) (w2 : Option Wait) (st : Option Nat) (o : Option (List (Nat × List Byte))) (s : State) : (rewait w w2 st o s).lm = s.lm := by rw [rewait_frame]
@[simp] theorem rewait_ing (w : Wait) (w2 : Option Wait) (st : Option Nat) (o : Option (List (Nat × List Byte))) (s : State) : (rewait w w2 st o s).ing = s.ing := by rw [rewait_frame]
@[simp] theorem rewait_pass (w : Wait) (w2 : Option Wait) (st : Option Nat) (o : Option (List (Nat × List Byte))) (s : State) : (rewait w w2 st o s).pass = s.pass := by rw [rewait_frame]
@[simp] theorem rewait_ldg (w : Wait) (w2 : Option Wait) (st : Option Nat) (o : Option (List (Nat × List Byte))) (s : State) : (rewait w w2 st o s).ldg = s.ldg := by rw [rewait_frame]
@[simp] theorem rewait_bal (w : Wait) (w2 : Option Wait) (st : Option Nat) (o : Option (List (Nat × List Byte))) (s : State) : (rewait w w2 st o s).bal = s.bal := by rw [rewait_frame]
@[simp] theorem rewait_lake (w : Wait) (w2 : Option Wait) (st : Option Nat) (o : Option (List (Nat × List Byte))) (s : State) : (rewait w w2 st o s).lake = s.lake := by rw [rewait_frame]
@[simp] theorem rewait_macs (w : Wait) (w2 : Option Wait) (st : Option Nat) (o : Option (List (Nat × List Byte))) (s : State) : (rewait w w2 st o s).macs = s.macs := by rw [rewait_frame]
@[simp] theorem rewait_cas (w : Wait) (w2 : Option Wait) (st : Option Nat) (o : Option (List (Nat × List Byte))) (s : State) : (rewait w w2 st o s).cas = s.cas := by rw [rewait_frame]
@[simp] theorem rewait_upd (w : Wait) (w2 : Option Wait) (st : Option Nat) (o : Option (List (Nat × List Byte))) (s : State) : (rewait w w2 st o s).upd = s.upd := by rw [rewait_frame]
@[simp] theorem rewait_cpm (w : Wait) (w2 : Option Wait) (st : Option Nat) (o : Option (List (Nat × List Byte))) (s : State) : (rewait w w2 st o s).cpm = s.cpm := by rw [rewait_frame]
@[simp] theorem rewait_out (w : Wait) (w2 : Option Wait) (st : Option Nat) (o : Option (List (Nat × List Byte))) (s : State) : (rewait w w2 st o s).out = s.out := by rw [rewait_frame]
@[simp] theorem rewait_free (w : Wait) (w2 : Option Wait) (st : Option Nat) (o : Option (List (Nat × List Byte))) (s : State) : (rewait w w2 st o s).free = s.free := by rw [rewait_frame]
@[simp] theorem rewait_pending (w : Wait) (w2 : Option Wait) (st : Option Nat) (o : Option (List (Nat × List Byte))) (s : State) : (rewait w w2 st o s).pending = s.pending := by rw [rewait_frame]

theorem wake_frame (w : Wait) (st : Option Nat) (o : Option (List (Nat × List Byte))) (s : State) : wake w st o s = { s with mcc := (wake w st o s).mcc, hp := (wake w st o s).hp } := by
  rfl
@[simp] theorem wake_glb (w : Wait) (st : Option Nat) (o : Option (List (Nat × List Byte))) (s : State) : (wake w st o s).glb = s.glb := by rw [wake_frame]
@[simp] theorem wake_ctr (w : Wait) (st : Option Nat) (o : Option (List (Nat × List Byte))) (s : State) : (wake w st o s).ctr = s.ctr := by rw [wake_frame]
@[simp] theorem wake_cap (w : Wait) (st : Option Nat) (o : Option (List (Nat × List Byte))) (s : State) : (wake w st o s).cap = s.cap := by rw [wake_frame]
@[simp] theorem wake_tmu (w : Wait) (st : Option Nat) (o : Option (List (Nat × List Byte))) (s : State) : (wake w st o s).tmu = s.tmu := by rw [wake_frame]
@[simp] theorem wake_evr (w : Wait) (st : Option Nat) (o : Option (List (Nat × List Byte))) (s : State) : (wake w st o s).evr = s.evr := by rw [wake_frame]
@[simp] theorem wake_sepia (w : Wait) (st : Option Nat) (o : Option (List (Nat × List Byte))) (s : State) : (wake w st o s).sepia = s.sepia := by rw [wake_frame]
@[simp] theorem wake_stest (w : Wait) (st : Option Nat) (o : Option (List (Nat × List Byte))) (s : State) : (wake w st o s).stest = s.stest := by rw [wake_frame]
@[simp] theorem wake_woad (w : Wait) (st : Option Nat) (o : Option (List (Nat × List Byte))) (s : State) : (wake w st o s).woad = s.woad := by rw [wake_frame]
@[simp] theorem wake_otp (w : Wait) (st : Option Nat) (o : Option (List (Nat × List Byte))) (s : State) : (wake w st o s).otp = s.otp := by rw [wake_frame]
@[simp] theorem wake_rla (w : Wait) (st : Option Nat) (o : Option (List (Nat × List Byte))) (s : State) : (wake w st o s).rla = s.rla := by rw [wake_frame]
@[simp] theorem wake_lm (w : Wait) (st : Option Nat) (o : Option (List (Nat × List Byte))) (s : State) : (wake w st o s).lm = s.lm := by rw [wake_frame]
@[simp] theorem wake_ing (w : Wait) (st : Option Nat) (o : Option (List (Nat × List Byte))) (s : State) : (wake w st o s).ing = s.ing := by rw [wake_frame]
@[simp] theorem wake_pass (w : Wait) (st : Option Nat) (o : Option (List (Nat × List Byte))) (s : State) : (wake w st o s).pass = s.pass := by rw [wake_frame]
@[simp] theorem wake_ldg (w : Wait) (st : Option Nat) (o : Option (List (Nat × List Byte))) (s : State) : (wake w st o s).ldg = s.ldg := by rw [wake_frame]
@[simp] theorem wake_bal (w : Wait) (st : Option Nat) (o : Option (List (Nat × List Byte))) (s : State) : (wake w st o s).bal = s.bal := by rw [wake_frame]
@[simp] theorem wake_lake (w : Wait) (st : Option Nat) (o : Option (List (Nat × List Byte))) (s : State) : (wake w st o s).lake = s.lake := by rw [wake_frame]
@[simp] theorem wake_macs (w : Wait) (st : Option Nat) (o : Option (List (Nat × List Byte))) (s : State) : (wake w st o s).macs = s.macs := by rw [wake_frame]
@[simp] theorem wake_cas (w : Wait) (st : Option Nat) (o : Option (List (Nat × List Byte))) (s : State) : (wake w st o s).cas = s.cas := by rw [wake_frame]
@[simp] theorem wake_upd (w : Wait) (st : Option Nat) (o : Option (List (Nat × List Byte))) (s : State) : (wake w st o s).upd = s.upd := by rw [wake_frame]
@[simp] theorem wake_cpm (w : Wait) (st : Option Nat) (o : Option (List (Nat × List Byte))) (s : State) : (wake w st o s).cpm = s.cpm := by rw [wake_frame]
@[simp] theorem wake_out (w : Wait) (st : Option Nat) (o : Option (List (Nat × List Byte))) (s : State) : (wake w st o s).out = s.out := by rw [wake_frame]
@[simp] theorem wake_free (w : Wait) (st : Option Nat) (o : Option (List (Nat × List Byte))) (s : State) : (wake w st o s).free = s.free := by rw [wake_frame]
@[simp] theorem wake_pending (w : Wait) (st : Option Nat) (o : Option (List (Nat × List Byte))) (s : State) : (wake w st o s).pending = s.pending := by rw [wake_frame]

theorem pumpPort_frame (p n : Nat) (s : State) : pumpPort p n s = { s with cas := (pumpPort p n s).cas, out := (pumpPort p n s).out, ctr := (pumpPort p n s).ctr } := by
  induction n generalizing s with
  | zero => rfl
  | succ n ih =>
    unfold pumpPort
    dsimp only
    split
    · rfl
    · split
      · rfl
      · rw [ih]; rfl
@[simp] theorem pumpPort_glb (p n : Nat) (s : State) : (pumpPort p n s).glb = s.glb := by rw [pumpPort_frame]
@[simp] theorem pumpPort_cap (p n : Nat) (s : State) : (pumpPort p n s).cap = s.cap := by rw [pumpPort_frame]
@[simp] theorem pumpPort_mcc (p n : Nat) (s : State) : (pumpPort p n s).mcc = s.mcc := by rw [pumpPort_frame]
@[simp] theorem pumpPort_hp (p n : Nat) (s : State) : (pumpPort p n s).hp = s.hp := by rw [pumpPort_frame]
@[simp] theorem pumpPort_tmu (p n : Nat) (s : State) : (pumpPort p n s).tmu = s.tmu := by rw [pumpPort_frame]
@[simp] theorem pumpPort_evr (p n : Nat) (s : State) : (pumpPort p n s).evr = s.evr := by rw [pumpPort_frame]
@[simp] theorem pumpPort_sepia (p n : Nat) (s : State) : (pumpPort p n s).sepia = s.sepia := by rw [pumpPort_frame]
@[simp] theorem pumpPort_stest (p n : Nat) (s : State) : (pumpPort p n s).stest = s.stest := by rw [pumpPort_frame]
@[simp] theorem pumpPort_woad (p n : Nat) (s : State) : (pumpPort p n s).woad = s.woad := by rw [pumpPort_frame]
@[simp] theorem pumpPort_otp (p n : Nat) (s : State) : (pumpPort p n s).otp = s.otp := by rw [pumpPort_frame]
@[simp] theorem pumpPort_rla (p n : Nat) (s : State) : (pumpPort p n s).rla = s.rla := by rw [pumpPort_frame]
@[simp] theorem pumpPort_lm (p n : Nat) (s : State) : (pumpPort p n s).lm = s.lm := by rw [pumpPort_frame]
@[simp] theorem pumpPort_ing (p n : Nat) (s : State) : (pumpPort p n s).ing = s.ing := by rw [pumpPort_frame]
@[simp] theorem pumpPort_pass (p n : Nat) (s : State) : (pumpPort p n s).pass = s.pass := by rw [pumpPort_frame]
@[simp] theorem pumpPort_ldg (p n : Nat) (s : State) : (pumpPort p n s).ldg = s.ldg := by rw [pumpPort_frame]
@[simp] theorem pumpPort_bal (p n : Nat) (s : State) : (pumpPort p n s).bal = s.bal := by rw [pumpPort_frame]
@[simp] theorem pumpPort_lake (p n : Nat) (s : State) : (pumpPort p n s).lake = s.lake := by rw [pumpPort_frame]
@[simp] theorem pumpPort_macs (p n : Nat) (s : State) : (pumpPort p n s).macs = s.macs := by rw [pumpPort_frame]
@[simp] theorem pumpPort_upd (p n : Nat) (s : State) : (pumpPort p n s).upd = s.upd := by rw [pumpPort_frame]
@[simp] theorem pumpPort_cpm (p n : Nat) (s : State) : (pumpPort p n s).cpm = s.cpm := by rw [pumpPort_frame]
@[simp] theorem pumpPort_free (p n : Nat) (s : State) : (pumpPort p n s).free = s.free := by rw [pumpPort_frame]
@[simp] theorem pumpPort_pending (p n : Nat) (s : State) : (pumpPort p n s).pending = s.pending := by rw [pumpPort_frame]

theorem pump_frame (p : Nat) (s : State) : pump p s = { s with cas := (pump p s).cas, out := (pump p s).out, ctr := (pump p s).ctr } := by
  exact pumpPort_frame p _ s
@[simp] theorem pump_glb (p : Nat) (s : State) : (pump p s).glb = s.glb := by rw [pump_frame]
@[simp] theorem pump_cap (p : Nat) (s : State) : (pump p s).cap = s.cap := by rw [pump_frame]
@[simp] theorem pump_mcc (p : Nat) (s : State) : (pump p s).mcc = s.mcc := by rw [pump_frame]
@[simp] theorem pump_hp (p : Nat) (s : State) : (pump p s).hp = s.hp := by rw [pump_frame]
@[simp] theorem pump_tmu (p : Nat) (s : State) : (pump p s).tmu = s.tmu := by rw [pump_frame]
@[simp] theorem pump_evr (p : Nat) (s : State) : (pump p s).evr = s.evr := by rw [pump_frame]
@[simp] theorem pump_sepia (p : Nat) (s : State) : (pump p s).sepia = s.sepia := by rw [pump_frame]
@[simp] theorem pump_stest (p : Nat) (s : State) : (pump p s).stest = s.stest := by rw [pump_frame]
@[simp] theorem pump_woad (p : Nat) (s : State) : (pump p s).woad = s.woad := by rw [pump_frame]
@[simp] theorem pump_otp (p : Nat) (s : State) : (pump p s).otp = s.otp := by rw [pump_frame]
@[simp] theorem pump_rla (p : Nat) (s : State) : (pump p s).rla = s.rla := by rw [pump_frame]
@[simp] theorem pump_lm (p : Nat) (s : State) : (pump p s).lm = s.lm := by rw [pump_frame]
@[simp] theorem pump_ing (p : Nat) (s : State) : (pump p s).ing = s.ing := by rw [pump_frame]
@[simp] theorem pump_pass (p : Nat) (s : State) : (pump p s).pass = s.pass := by rw [pump_frame]
@[simp] theorem pump_ldg (p : Nat) (s : State) : (pump p s).ldg = s.ldg := by rw [pump_frame]
@[simp] theorem pump_bal (p : Nat) (s : State) : (pump p s).bal = s.bal := by rw [pump_frame]
@[simp] theorem pump_lake (p : Nat) (s : State) : (pump p s).lake = s.lake := by rw [pump_frame]
@[simp] theorem pump_macs (p : Nat) (s : State) : (pump p s).macs = s.macs := by rw [pump_frame]
@[simp] theorem pump_upd (p : Nat) (s : State) : (pump p s).upd = s.upd := by rw [pump_frame]
@[simp] theorem pump_cpm (p : Nat) (s : State) : (pump p s).cpm = s.cpm := by rw [pump_frame]
@[simp] theorem pump_free (p : Nat) (s : State) : (pump p s).free = s.free := by rw [pump_frame]
@[simp] theorem pump_pending (p : Nat) (s : State) : (pump p s).pending = s.pending := by rw [pump_frame]

theorem sendMsg_frame (p a b c : Nat) (m : Flit) (s : State) : sendMsg p a b c m s = { s with cas := (sendMsg p a b c m s).cas, out := (sendMsg p a b c m s).out, ctr := (sendMsg p a b c m s).ctr } := by
  unfold sendMsg
  dsimp only
  split
  · rw [pump_frame]; rfl
  · rfl
@[simp] theorem sendMsg_glb (p a b c : Nat) (m : Flit) (s : State) : (sendMsg p a b c m s).glb = s.glb := by rw [sendMsg_frame]
@[simp] theorem sendMsg_cap (p a b c : Nat) (m : Flit) (s : State) : (sendMsg p a b c m s).cap = s.cap := by rw [sendMsg_frame]
@[simp] theorem sendMsg_mcc (p a b c : Nat) (m : Flit) (s : State) : (sendMsg p a b c m s).mcc = s.mcc := by rw [sendMsg_frame]
@[simp] theorem sendMsg_hp (p a b c : Nat) (m : Flit) (s : State) : (sendMsg p a b c m s).hp = s.hp := by rw [sendMsg_frame]
@[simp] theorem sendMsg_tmu (p a b c : Nat) (m : Flit) (s : State) : (sendMsg p a b c m s).tmu = s.tmu := by rw [sendMsg_frame]
@[simp] theorem sendMsg_evr (p a b c : Nat) (m : Flit) (s : State) : (sendMsg p a b c m s).evr = s.evr := by rw [sendMsg_frame]
@[simp] theorem sendMsg_sepia (p a b c : Nat) (m : Flit) (s : State) : (sendMsg p a b c m s).sepia = s.sepia := by rw [sendMsg_frame]
@[simp] theorem sendMsg_stest (p a b c : Nat) (m : Flit) (s : State) : (sendMsg p a b c m s).stest = s.stest := by rw [sendMsg_frame]
@[simp] theorem sendMsg_woad (p a b c : Nat) (m : Flit) (s : State) : (sendMsg p a b c m s).woad = s.woad := by rw [sendMsg_frame]
@[simp] theorem sendMsg_otp (p a b c : Nat) (m : Flit) (s : State) : (sendMsg p a b c m s).otp = s.otp := by rw [sendMsg_frame]
@[simp] theorem sendMsg_rla (p a b c : Nat) (m : Flit) (s : State) : (sendMsg p a b c m s).rla = s.rla := by rw [sendMsg_frame]
@[simp] theorem sendMsg_lm (p a b c : Nat) (m : Flit) (s : State) : (sendMsg p a b c m s).lm = s.lm := by rw [sendMsg_frame]
@[simp] theorem sendMsg_ing (p a b c : Nat) (m : Flit) (s : State) : (sendMsg p a b c m s).ing = s.ing := by rw [sendMsg_frame]
@[simp] theorem sendMsg_pass (p a b c : Nat) (m : Flit) (s : State) : (sendMsg p a b c m s).pass = s.pass := by rw [sendMsg_frame]
@[simp] theorem sendMsg_ldg (p a b c : Nat) (m : Flit) (s : State) : (sendMsg p a b c m s).ldg = s.ldg := by rw [sendMsg_frame]
@[simp] theorem sendMsg_bal (p a b c : Nat) (m : Flit) (s : State) : (sendMsg p a b c m s).bal = s.bal := by rw [sendMsg_frame]
@[simp] theorem sendMsg_lake (p a b c : Nat) (m : Flit) (s : State) : (sendMsg p a b c m s).lake = s.lake := by rw [sendMsg_frame]
@[simp] theorem sendMsg_macs (p a b c : Nat) (m : Flit) (s : State) : (sendMsg p a b c m s).macs = s.macs := by rw [sendMsg_frame]
@[simp] theorem sendMsg_upd (p a b c : Nat) (m : Flit) (s : State) : (sendMsg p a b c m s).upd = s.upd := by rw [sendMsg_frame]
@[simp] theorem sendMsg_cpm (p a b c : Nat) (m : Flit) (s : State) : (sendMsg p a b c m s).cpm = s.cpm := by rw [sendMsg_frame]
@[simp] theorem sendMsg_free (p a b c : Nat) (m : Flit) (s : State) : (sendMsg p a b c m s).free = s.free := by rw [sendMsg_frame]
@[simp] theorem sendMsg_pending (p a b c : Nat) (m : Flit) (s : State) : (sendMsg p a b c m s).pending = s.pending := by rw [sendMsg_frame]

theorem sendOn_frame (p d : Nat) (m : Flit) (s : State) : sendOn p d m s = { s with cas := (sendOn p d m s).cas, out := (sendOn p d m s).out, ctr := (sendOn p d m s).ctr } := by
  unfold sendOn
  rw [sendMsg_frame]
@[simp] theorem sendOn_glb (p d : Nat) (m : Flit) (s : State) : (sendOn p d m s).glb = s.glb := by rw [sendOn_frame]
@[simp] theorem sendOn_cap (p d : Nat) (m : Flit) (s : State) : (sendOn p d m s).cap = s.cap := by rw [sendOn_frame]
@[simp] theorem sendOn_mcc (p d : Nat) (m : Flit) (s : State) : (sendOn p d m s).mcc = s.mcc := by rw [sendOn_frame]
@[simp] theorem sendOn_hp (p d : Nat) (m : Flit) (s : State) : (sendOn p d m s).hp = s.hp := by rw [sendOn_frame]
@[simp] theorem sendOn_tmu (p d : Nat) (m : Flit) (s : State) : (sendOn p d m s).tmu = s.tmu := by rw [sendOn_frame]
@[simp] theorem sendOn_evr (p d : Nat) (m : Flit) (s : State) : (sendOn p d m s).evr = s.evr := by rw [sendOn_frame]
@[simp] theorem sendOn_sepia (p d : Nat) (m : Flit) (s : State) : (sendOn p d m s).sepia = s.sepia := by rw [sendOn_frame]
@[simp] theorem sendOn_stest (p d : Nat) (m : Flit) (s : State) : (sendOn p d m s).stest = s.stest := by rw [sendOn_frame]
@[simp] theorem sendOn_woad (p d : Nat) (m : Flit) (s : State) : (sendOn p d m s).woad = s.woad := by rw [sendOn_frame]
@[simp] theorem sendOn_otp (p d : Nat) (m : Flit) (s : State) : (sendOn p d m s).otp = s.otp := by rw [sendOn_frame]
@[simp] theorem sendOn_rla (p d : Nat) (m : Flit) (s : State) : (sendOn p d m s).rla = s.rla := by rw [sendOn_frame]
@[simp] theorem sendOn_lm (p d : Nat) (m : Flit) (s : State) : (sendOn p d m s).lm = s.lm := by rw [sendOn_frame]
@[simp] theorem sendOn_ing (p d : Nat) (m : Flit) (s : State) : (sendOn p d m s).ing = s.ing := by rw [sendOn_frame]
@[simp] theorem sendOn_pass (p d : Nat) (m : Flit) (s : State) : (sendOn p d m s).pass = s.pass := by rw [sendOn_frame]
@[simp] theorem sendOn_ldg (p d : Nat) (m : Flit) (s : State) : (sendOn p d m s).ldg = s.ldg := by rw [sendOn_frame]
@[simp] theorem sendOn_bal (p d : Nat) (m : Flit) (s : State) : (sendOn p d m s).bal = s.bal := by rw [sendOn_frame]
@[simp] theorem sendOn_lake (p d : Nat) (m : Flit) (s : State) : (sendOn p d m s).lake = s.lake := by rw [sendOn_frame]
@[simp] theorem sendOn_macs (p d : Nat) (m : Flit) (s : State) : (sendOn p d m s).macs = s.macs := by rw [sendOn_frame]
@[simp] theorem sendOn_upd (p d : Nat) (m : Flit) (s : State) : (sendOn p d m s).upd = s.upd := by rw [sendOn_frame]
@[simp] theorem sendOn_cpm (p d : Nat) (m : Flit) (s : State) : (sendOn p d m s).cpm = s.cpm := by rw [sendOn_frame]
@[simp] theorem sendOn_free (p d : Nat) (m : Flit) (s : State) : (sendOn p d m s).free = s.free := by rw [sendOn_frame]
@[simp] theorem sendOn_pending (p d : Nat) (m : Flit) (s : State) : (sendOn p d m s).pending = s.pending := by rw [sendOn_frame]

/-- An operation that only sends, folded over a list, only sends. -/
theorem foldl_sends {α : Type} (l : List α) (f : State → α → State) (hf : ∀ s x, f s x = { s with cas := (f s x).cas, out := (f s x).out, ctr := (f s x).ctr })
    (s : State) : l.foldl f s = { s with cas := (l.foldl f s).cas, out := (l.foldl f s).out, ctr := (l.foldl f s).ctr } := by
  induction l generalizing s with
  | nil => rfl
  | cons x l ih =>
    rw [List.foldl_cons, ih (f s x), hf s x]

theorem sendDown_frame (m : Flit) (s : State) : sendDown m s = { s with cas := (sendDown m s).cas, out := (sendDown m s).out, ctr := (sendDown m s).ctr } := by
  exact foldl_sends _ _ (fun s x => sendOn_frame x 0xFF m s) s
@[simp] theorem sendDown_glb (m : Flit) (s : State) : (sendDown m s).glb = s.glb := by rw [sendDown_frame]
@[simp] theorem sendDown_cap (m : Flit) (s : State) : (sendDown m s).cap = s.cap := by rw [sendDown_frame]
@[simp] theorem sendDown_mcc (m : Flit) (s : State) : (sendDown m s).mcc = s.mcc := by rw [sendDown_frame]
@[simp] theorem sendDown_hp (m : Flit) (s : State) : (sendDown m s).hp = s.hp := by rw [sendDown_frame]
@[simp] theorem sendDown_tmu (m : Flit) (s : State) : (sendDown m s).tmu = s.tmu := by rw [sendDown_frame]
@[simp] theorem sendDown_evr (m : Flit) (s : State) : (sendDown m s).evr = s.evr := by rw [sendDown_frame]
@[simp] theorem sendDown_sepia (m : Flit) (s : State) : (sendDown m s).sepia = s.sepia := by rw [sendDown_frame]
@[simp] theorem sendDown_stest (m : Flit) (s : State) : (sendDown m s).stest = s.stest := by rw [sendDown_frame]
@[simp] theorem sendDown_woad (m : Flit) (s : State) : (sendDown m s).woad = s.woad := by rw [sendDown_frame]
@[simp] theorem sendDown_otp (m : Flit) (s : State) : (sendDown m s).otp = s.otp := by rw [sendDown_frame]
@[simp] theorem sendDown_rla (m : Flit) (s : State) : (sendDown m s).rla = s.rla := by rw [sendDown_frame]
@[simp] theorem sendDown_lm (m : Flit) (s : State) : (sendDown m s).lm = s.lm := by rw [sendDown_frame]
@[simp] theorem sendDown_ing (m : Flit) (s : State) : (sendDown m s).ing = s.ing := by rw [sendDown_frame]
@[simp] theorem sendDown_pass (m : Flit) (s : State) : (sendDown m s).pass = s.pass := by rw [sendDown_frame]
@[simp] theorem sendDown_ldg (m : Flit) (s : State) : (sendDown m s).ldg = s.ldg := by rw [sendDown_frame]
@[simp] theorem sendDown_bal (m : Flit) (s : State) : (sendDown m s).bal = s.bal := by rw [sendDown_frame]
@[simp] theorem sendDown_lake (m : Flit) (s : State) : (sendDown m s).lake = s.lake := by rw [sendDown_frame]
@[simp] theorem sendDown_macs (m : Flit) (s : State) : (sendDown m s).macs = s.macs := by rw [sendDown_frame]
@[simp] theorem sendDown_upd (m : Flit) (s : State) : (sendDown m s).upd = s.upd := by rw [sendDown_frame]
@[simp] theorem sendDown_cpm (m : Flit) (s : State) : (sendDown m s).cpm = s.cpm := by rw [sendDown_frame]
@[simp] theorem sendDown_free (m : Flit) (s : State) : (sendDown m s).free = s.free := by rw [sendDown_frame]
@[simp] theorem sendDown_pending (m : Flit) (s : State) : (sendDown m s).pending = s.pending := by rw [sendDown_frame]

theorem sendUp_frame (d : Nat) (m : Flit) (s : State) : sendUp d m s = { s with cas := (sendUp d m s).cas, out := (sendUp d m s).out, ctr := (sendUp d m s).ctr } := by
  unfold sendUp
  split
  · rw [sendOn_frame]
  · rfl
@[simp] theorem sendUp_glb (d : Nat) (m : Flit) (s : State) : (sendUp d m s).glb = s.glb := by rw [sendUp_frame]
@[simp] theorem sendUp_cap (d : Nat) (m : Flit) (s : State) : (sendUp d m s).cap = s.cap := by rw [sendUp_frame]
@[simp] theorem sendUp_mcc (d : Nat) (m : Flit) (s : State) : (sendUp d m s).mcc = s.mcc := by rw [sendUp_frame]
@[simp] theorem sendUp_hp (d : Nat) (m : Flit) (s : State) : (sendUp d m s).hp = s.hp := by rw [sendUp_frame]
@[simp] theorem sendUp_tmu (d : Nat) (m : Flit) (s : State) : (sendUp d m s).tmu = s.tmu := by rw [sendUp_frame]
@[simp] theorem sendUp_evr (d : Nat) (m : Flit) (s : State) : (sendUp d m s).evr = s.evr := by rw [sendUp_frame]
@[simp] theorem sendUp_sepia (d : Nat) (m : Flit) (s : State) : (sendUp d m s).sepia = s.sepia := by rw [sendUp_frame]
@[simp] theorem sendUp_stest (d : Nat) (m : Flit) (s : State) : (sendUp d m s).stest = s.stest := by rw [sendUp_frame]
@[simp] theorem sendUp_woad (d : Nat) (m : Flit) (s : State) : (sendUp d m s).woad = s.woad := by rw [sendUp_frame]
@[simp] theorem sendUp_otp (d : Nat) (m : Flit) (s : State) : (sendUp d m s).otp = s.otp := by rw [sendUp_frame]
@[simp] theorem sendUp_rla (d : Nat) (m : Flit) (s : State) : (sendUp d m s).rla = s.rla := by rw [sendUp_frame]
@[simp] theorem sendUp_lm (d : Nat) (m : Flit) (s : State) : (sendUp d m s).lm = s.lm := by rw [sendUp_frame]
@[simp] theorem sendUp_ing (d : Nat) (m : Flit) (s : State) : (sendUp d m s).ing = s.ing := by rw [sendUp_frame]
@[simp] theorem sendUp_pass (d : Nat) (m : Flit) (s : State) : (sendUp d m s).pass = s.pass := by rw [sendUp_frame]
@[simp] theorem sendUp_ldg (d : Nat) (m : Flit) (s : State) : (sendUp d m s).ldg = s.ldg := by rw [sendUp_frame]
@[simp] theorem sendUp_bal (d : Nat) (m : Flit) (s : State) : (sendUp d m s).bal = s.bal := by rw [sendUp_frame]
@[simp] theorem sendUp_lake (d : Nat) (m : Flit) (s : State) : (sendUp d m s).lake = s.lake := by rw [sendUp_frame]
@[simp] theorem sendUp_macs (d : Nat) (m : Flit) (s : State) : (sendUp d m s).macs = s.macs := by rw [sendUp_frame]
@[simp] theorem sendUp_upd (d : Nat) (m : Flit) (s : State) : (sendUp d m s).upd = s.upd := by rw [sendUp_frame]
@[simp] theorem sendUp_cpm (d : Nat) (m : Flit) (s : State) : (sendUp d m s).cpm = s.cpm := by rw [sendUp_frame]
@[simp] theorem sendUp_free (d : Nat) (m : Flit) (s : State) : (sendUp d m s).free = s.free := by rw [sendUp_frame]
@[simp] theorem sendUp_pending (d : Nat) (m : Flit) (s : State) : (sendUp d m s).pending = s.pending := by rw [sendUp_frame]

theorem mirror_frame (r : MirRec) (j t : Option Nat) (s : State) : mirror r j t s = { s with cas := (mirror r j t s).cas, out := (mirror r j t s).out, ctr := (mirror r j t s).ctr } := by
  unfold mirror
  split
  · dsimp only
    rw [foldl_sends s.mirrorPorts _ (fun u x => sendOn_frame x u.cas.chipId _ u) s]
    rfl
  · rfl
@[simp] theorem mirror_glb (r : MirRec) (j t : Option Nat) (s : State) : (mirror r j t s).glb = s.glb := by rw [mirror_frame]
@[simp] theorem mirror_cap (r : MirRec) (j t : Option Nat) (s : State) : (mirror r j t s).cap = s.cap := by rw [mirror_frame]
@[simp] theorem mirror_mcc (r : MirRec) (j t : Option Nat) (s : State) : (mirror r j t s).mcc = s.mcc := by rw [mirror_frame]
@[simp] theorem mirror_hp (r : MirRec) (j t : Option Nat) (s : State) : (mirror r j t s).hp = s.hp := by rw [mirror_frame]
@[simp] theorem mirror_tmu (r : MirRec) (j t : Option Nat) (s : State) : (mirror r j t s).tmu = s.tmu := by rw [mirror_frame]
@[simp] theorem mirror_evr (r : MirRec) (j t : Option Nat) (s : State) : (mirror r j t s).evr = s.evr := by rw [mirror_frame]
@[simp] theorem mirror_sepia (r : MirRec) (j t : Option Nat) (s : State) : (mirror r j t s).sepia = s.sepia := by rw [mirror_frame]
@[simp] theorem mirror_stest (r : MirRec) (j t : Option Nat) (s : State) : (mirror r j t s).stest = s.stest := by rw [mirror_frame]
@[simp] theorem mirror_woad (r : MirRec) (j t : Option Nat) (s : State) : (mirror r j t s).woad = s.woad := by rw [mirror_frame]
@[simp] theorem mirror_otp (r : MirRec) (j t : Option Nat) (s : State) : (mirror r j t s).otp = s.otp := by rw [mirror_frame]
@[simp] theorem mirror_rla (r : MirRec) (j t : Option Nat) (s : State) : (mirror r j t s).rla = s.rla := by rw [mirror_frame]
@[simp] theorem mirror_lm (r : MirRec) (j t : Option Nat) (s : State) : (mirror r j t s).lm = s.lm := by rw [mirror_frame]
@[simp] theorem mirror_ing (r : MirRec) (j t : Option Nat) (s : State) : (mirror r j t s).ing = s.ing := by rw [mirror_frame]
@[simp] theorem mirror_pass (r : MirRec) (j t : Option Nat) (s : State) : (mirror r j t s).pass = s.pass := by rw [mirror_frame]
@[simp] theorem mirror_ldg (r : MirRec) (j t : Option Nat) (s : State) : (mirror r j t s).ldg = s.ldg := by rw [mirror_frame]
@[simp] theorem mirror_bal (r : MirRec) (j t : Option Nat) (s : State) : (mirror r j t s).bal = s.bal := by rw [mirror_frame]
@[simp] theorem mirror_lake (r : MirRec) (j t : Option Nat) (s : State) : (mirror r j t s).lake = s.lake := by rw [mirror_frame]
@[simp] theorem mirror_macs (r : MirRec) (j t : Option Nat) (s : State) : (mirror r j t s).macs = s.macs := by rw [mirror_frame]
@[simp] theorem mirror_upd (r : MirRec) (j t : Option Nat) (s : State) : (mirror r j t s).upd = s.upd := by rw [mirror_frame]
@[simp] theorem mirror_cpm (r : MirRec) (j t : Option Nat) (s : State) : (mirror r j t s).cpm = s.cpm := by rw [mirror_frame]
@[simp] theorem mirror_free (r : MirRec) (j t : Option Nat) (s : State) : (mirror r j t s).free = s.free := by rw [mirror_frame]
@[simp] theorem mirror_pending (r : MirRec) (j t : Option Nat) (s : State) : (mirror r j t s).pending = s.pending := by rw [mirror_frame]

end Sys2Proof.Machine
end

