-- ==== Sys2Proof/Laws/Cascade.lean ====
section
/-! SUPPORT. What the receipt of a cascade message or link word does before its effect. -/

namespace Sys2Proof.Machine

/-- A message that is heard has its effect once the port has taken it. -/
theorem takeMsg_hears (h : CHead) (m : Flit) (f : State → State) (s : State) (hm : ∀ t, m ≠ .reserved t) (hh : s.hears h m = true) :
    takeMsg (flitType m) h m f s = f (heard h m s) := by
  simp only [State.hears, Bool.and_eq_true, beq_iff_eq, Bool.not_eq_true', decide_eq_false_iff_not] at hh
  obtain ⟨⟨⟨⟨h1, h2⟩, h3⟩, h4⟩, h5⟩ := hh
  cases m
  case reserved t => exact absurd rfl (hm t)
  all_goals
    unfold takeMsg
    dsimp only
    rw [if_neg (by simp [State.casRuns, h1, CPort.takes, h2]), if_neg (by simp [h3]), if_neg (by simpa using h4), if_pos h5]
    rfl

/-- Taking a message changes the port's expected sequence number, counters and outputs only. -/
theorem heard_frame (h : CHead) (m : Flit) (s : State) : heard h m s =
    { s with cas.ports := s.cas.ports.put {} h.port.val { s.cport h.port.val with rxSeq := (s.cport h.port.val).rxSeq + BitVec.ofNat 16 (flitCount m), retrying := false }
             out := (heard h m s).out, ctr := (heard h m s).ctr } := by
  have hw : ∀ (l : List Nat) (p first : Nat) (u : State), l.foldl (fun s i => sendWord p 1 0 ((first + 64 * i + 63) % 65536) 0 s) u
      = { u with out := (l.foldl (fun s i => sendWord p 1 0 ((first + 64 * i + 63) % 65536) 0 s) u).out } := by
    intro l
    induction l with
    | nil => intros; rfl
    | cons i l ih =>
      intro p first u
      rw [List.foldl_cons, ih]
      rfl
  unfold heard ackFlits
  dsimp only
  rw [hw]
  rfl

/-- A good link word on a port that is up has its effect. -/
theorem takeWord_good (p : Nat) (f : State → State) (s : State) (hr : s.coresRun = true) (hu : (s.cport p).st = 2) : takeWord p true f s = f s := by
  unfold takeWord
  simp [State.casRuns, hr, hu]

/-- A link word that fails its CRC is counted and ignored. -/
theorem takeWord_bad (p : Nat) (f : State → State) (s : State) (hr : s.coresRun = true) (hu : (s.cport p).st = 2) :
    takeWord p false f s = count (kCasPort p 4) s := by
  unfold takeWord
  simp [State.casRuns, hr, hu]

@[simp] theorem cport_emit (o : Out) (p : Nat) (s : State) : (emit o s).cport p = s.cport p := rfl

/-- Sending changes no port but the one it is sent on. -/
theorem cport_pumpPort_ne {p q : Nat} (h : q ≠ p) (n : Nat) (s : State) : (pumpPort p n s).cport q = s.cport q := by
  induction n generalizing s with
  | zero => rfl
  | succ n ih =>
    unfold pumpPort
    dsimp only
    split
    · exact cport_updCport_ne _ _ h
    · split
      · rw [cport_updCport_ne _ _ h]; rfl
      · rw [ih]
        rw [cport_emit, cport_updCport_ne _ _ h, cport_countN]

theorem cport_sendMsg_ne {p q : Nat} (a b c : Nat) (m : Flit) (s : State) (h : q ≠ p) : (sendMsg p a b c m s).cport q = s.cport q := by
  unfold sendMsg
  dsimp only
  split
  · unfold pump
    rw [cport_pumpPort_ne h, cport_updCport_ne _ _ h]
  · rfl

end Sys2Proof.Machine
end

