-- ==== Sys2Proof/Laws/Host.lean ====
section
/-! SUPPORT. What posting a notice, running a host command and registering its completion do. -/

namespace Sys2Proof.Machine

/-! ## Notices -/

/-- Only the notices waiting and their sequence number matter to `Posts`. -/
theorem Posts.congr {code cls : Nat} {args : List Byte} {s u v : State} (h : Posts code cls args s u)
    (hw : v.hp.nq.waiting = u.hp.nq.waiting) (hn : v.hp.nq.nseq = u.hp.nq.nseq) : Posts code cls args s v := by
  unfold Posts at *
  rw [hw, hn]
  exact h

/-- The state before may differ in all but the notice queue and the mask. -/
theorem Posts.congr_left {code cls : Nat} {args : List Byte} {s t u : State} (h : Posts code cls args s u)
    (hq : t.hp.nq = s.hp.nq) (hm : t.hp.mask = s.hp.mask) : Posts code cls args t u := by
  unfold Posts at *
  rw [hq, hm]
  exact h

theorem posts_postNotice (code cls : Nat) (args : List Byte) (s : State) : Posts code cls args s (postNotice code cls args s) := by
  unfold Posts postNotice
  split
  · exact ⟨rfl, rfl⟩
  · intro h
    dsimp only
    split
    · next hr => exact ⟨_, rfl, rfl, rfl, rfl, rfl, by simp [hr], rfl⟩
    · next hr =>
      rw [if_pos (by simpa [hr] using h)]
      exact ⟨_, rfl, rfl, rfl, rfl, rfl, by simp [hr], rfl⟩

/-! ## Commands in flight -/

theorem firstWhere_mem {α : Type} (p : α → Bool) (l : List α) (x : α) (h : firstWhere p l = some x) : x ∈ l ∧ p x = true := by
  induction l with
  | nil => simp [firstWhere] at h
  | cons y l ih =>
    unfold firstWhere at h
    split at h
    · next hy => cases h; exact ⟨List.mem_cons_self, hy⟩
    · exact ⟨List.mem_cons_of_mem _ (ih h).1, (ih h).2⟩

theorem standardFront_mem (s : State) (q eno : Nat) (c : Cmd) (h : s.standardFront q eno = some c) : c ∈ s.hp.cmds := (firstWhere_mem _ _ _ h).1

theorem builtinFront_mem (s : State) (q eno : Nat) (c : Cmd) (h : s.builtinFront q eno = some c) : c ∈ s.hp.cmds := (firstWhere_mem _ _ _ h).1

theorem countStatus_frame (n : Nat) (s : State) : countStatus n s = { s with ctr := (countStatus n s).ctr } := by
  unfold countStatus
  repeat (first | rfl | split)

@[simp] theorem countStatus_hp (n : Nat) (s : State) : (countStatus n s).hp = s.hp := by rw [countStatus_frame]

/-- Releasing a pool buffer changes commands in nothing but their buffer. -/
theorem releasePool_frame (r : Word) (s : State) : releasePool r s =
    { s with hp.cmds := (releasePool r s).hp.cmds, hp.poolUsed := (releasePool r s).hp.poolUsed, hp.stale := (releasePool r s).hp.stale } := rfl

theorem releasePool_cmds (r : Word) (s : State) : (releasePool r s).hp.cmds = s.hp.cmds.map fun c => if c.ref = r then { c with pool := none } else c := rfl

/-- The event of a command leaves its queue, and nothing else changes. -/
theorem takeEvent_frame (c : Cmd) (s : State) : takeEvent c s = { s with mcc.queues := (takeEvent c s).mcc.queues } := by
  unfold takeEvent
  dsimp only
  split <;> rfl

@[simp] theorem takeEvent_hp (c : Cmd) (s : State) : (takeEvent c s).hp = s.hp := by rw [takeEvent_frame]

/-- A role that the command grants. -/
theorem runStandard_granted (q eno : Nat) (roles : Cmd → List Nat) (f : Cmd → State → HostAns) (s : State) (c : Cmd)
    (h : s.standardFront q eno = some c) (hr : s.coresRun = true) (hm : s.glb.mode ≠ .standby) (hg : (roles c).contains (s.cmdRole c) = true) :
    runStandard q eno roles f s = answerCmd c (f c (takeEvent c s)) := by
  unfold State.standardFront at h
  unfold runStandard
  rw [h]
  dsimp only
  rw [if_neg (by simp [hr, hm]), if_pos hg]

/-- A role that the command does not grant. -/
theorem runStandard_denied (q eno : Nat) (roles : Cmd → List Nat) (f : Cmd → State → HostAns) (s : State) (c : Cmd)
    (h : s.standardFront q eno = some c) (hr : s.coresRun = true) (hm : s.glb.mode ≠ .standby) (hg : (roles c).contains (s.cmdRole c) = false) :
    runStandard q eno roles f s = answerCmd c (.fail (takeEvent c s) stAccessDenied) := by
  unfold State.standardFront at h
  unfold runStandard
  rw [h]
  dsimp only
  rw [if_neg (by simp [hr, hm]), if_neg (by rw [hg]; exact Bool.false_ne_true)]

/-- A built-in that is not held back. -/
theorem runBuiltin_front (q eno : Nat) (f : Cmd → State → HostAns) (s : State) (c : Cmd) (h : s.builtinFront q eno = some c) (hr : s.hostRuns = true)
    (hg : s.romOnly = false ∨ eno = 0xFF00 ∨ eno = 0xFF01) :
    runBuiltin q eno f s = registerCmd c.no (f c (count (kHp 2) s)).status (f c (count (kHp 2) s)).result
      (if c.rbuf then some ((f c (count (kHp 2) s)).resp.getD []) else none) (f c (count (kHp 2) s)).st := by
  unfold State.builtinFront at h
  unfold runBuiltin
  rw [h]
  dsimp only
  rw [hr]
  have : (s.romOnly && eno != 0xFF00 && eno != 0xFF01) = false := by
    rcases hg with g | g | g <;> simp [g]
  rw [this]
  rfl

/-- Registering a command of the flight registers it and touches no other. -/
theorem registers_registerCmd (c : Cmd) (status : Nat) (result : BitVec 64) (resp : Option (List Byte)) (s t : State) (hc : c ∈ s.hp.cmds)
    (ht : t.hp.cmds = s.hp.cmds) (hn : t.hp.regs = s.hp.regs) : Registers c status result resp s (registerCmd c.no status result resp t) := by
  unfold registerCmd Registers
  rw [countStatus_hp, ht, hn]
  refine ⟨⟨c.done s.hp.regs status result resp, ?_, rfl, rfl, rfl, rfl, rfl, rfl, rfl⟩, ?_, by simp, rfl⟩
  · rw [List.mem_map]
    exact ⟨c, hc, if_pos rfl⟩
  · intro d hd hne
    rw [List.mem_map] at hd
    obtain ⟨e, he, rfl⟩ := hd
    by_cases h : e.no = c.no
    · rw [if_pos h] at hne ⊢
      exact absurd h hne
    · rw [if_neg h]
      exact ⟨e, he, rfl⟩

/-- A standard command whose answer waits for nothing is registered. -/
theorem registers_answerCmd (c : Cmd) (a : HostAns) (s : State) (hc : c ∈ s.hp.cmds) (ha : a.st.hp.cmds = s.hp.cmds) (hn : a.st.hp.regs = s.hp.regs)
    (hw : a.waits = none) : Registers c a.status a.result (if c.rbuf then some (a.resp.getD []) else none) s (answerCmd c a) := by
  unfold answerCmd
  dsimp only
  rw [hw]
  dsimp only
  unfold registerCmd Registers
  rw [countStatus_hp]
  have hl : (releasePool c.ref a.st).hp.cmds = s.hp.cmds.map fun d => if d.ref = c.ref then { d with pool := none } else d := by
    rw [releasePool_cmds, ha]
  have hg : (releasePool c.ref a.st).hp.regs = s.hp.regs := hn
  rw [hl, hg]
  refine ⟨⟨Cmd.done s.hp.regs a.status a.result (if c.rbuf then some (a.resp.getD []) else none) { c with pool := none }, ?_, rfl, rfl, rfl, rfl, rfl, rfl, rfl⟩, ?_, by simp, rfl⟩
  · exact List.mem_map.2 ⟨_, List.mem_map.2 ⟨c, hc, if_pos rfl⟩, if_pos rfl⟩
  · intro d hd hne
    obtain ⟨x, hx, rfl⟩ := List.mem_map.1 hd
    obtain ⟨e, he, hex⟩ := List.mem_map.1 hx
    have hxe : x = { e with pool := x.pool } := by
      rw [← hex]
      split <;> rfl
    by_cases h : x.no = c.no
    · rw [if_pos h] at hne
      exact absurd h hne
    · rw [if_neg h]
      exact ⟨e, he, hxe⟩

end Sys2Proof.Machine
end

