-- ==== Sys2Proof/Laws/Memory.lean ====
section
/-! SUPPORT. Laws of the addressed memories: a byte reads as written, a write leaves every other byte, and every memory operation keeps the
canonical form. -/

namespace Sys2Proof.Machine

/-! ## Bytes -/

theorem get_writeBytes_out (l : List Byte) : ∀ (m : Map Byte) (k a : Nat), a < k ∨ k + l.length ≤ a → (writeBytes m k l).get 0 a = m.get 0 a := by
  induction l with
  | nil => intro m k a _; rfl
  | cons b l ih =>
    intro m k a h
    simp only [List.length_cons] at h
    rw [writeBytes, ih _ _ _ (by omega), Map.get_put_ne _ _ _ (by omega)]

theorem get_writeBytes_in (l : List Byte) : ∀ (m : Map Byte) (k i : Nat), i < l.length → (writeBytes m k l).get 0 (k + i) = l.getD i 0 := by
  induction l with
  | nil => intro m k i h; simp at h
  | cons b l ih =>
    intro m k i h
    rw [writeBytes]
    cases i with
    | zero => rw [get_writeBytes_out _ _ _ _ (by omega)]; simp
    | succ i =>
      simp only [List.length_cons] at h
      have e : k + (i + 1) = (k + 1) + i := by omega
      rw [e, ih _ _ _ (by omega)]
      rfl

/-- Reading back what was written. -/
theorem readBytes_writeBytes (m : Map Byte) (k : Nat) (l : List Byte) : readBytes (writeBytes m k l) k l.length = l := by
  have read_eq : ∀ (n j : Nat) (w : Map Byte) (x : List Byte), x.length = n → (∀ i, i < n → w.get 0 (j + i) = x.getD i 0) → readBytes w j n = x := by
    intro n
    induction n with
    | zero => intro j w x hx _; simp [readBytes, List.eq_nil_of_length_eq_zero hx]
    | succ n ih =>
      intro j w x hx h
      cases x with
      | nil => simp at hx
      | cons b x =>
        rw [readBytes, show w.get 0 j = b from h 0 (by omega)]
        congr 1
        apply ih
        · simpa using hx
        · intro i hi
          have := h (i + 1) (by omega)
          rw [show j + (i + 1) = j + 1 + i by omega] at this
          simpa using this
  exact read_eq _ _ _ _ rfl (fun i hi => get_writeBytes_in l m k i hi)

@[simp] theorem length_readBytes (m : Map Byte) (k n : Nat) : (readBytes m k n).length = n := by
  induction n generalizing k with
  | zero => rfl
  | succ n ih => simp [readBytes, ih]

/-- A span whose bytes a write does not touch reads as before. -/
theorem readBytes_writeBytes_out (l : List Byte) (m : Map Byte) (k a n : Nat) (h : a + n ≤ k ∨ k + l.length ≤ a) :
    readBytes (writeBytes m k l) a n = readBytes m a n := by
  induction n generalizing a with
  | zero => rfl
  | succ n ih =>
    rw [readBytes, readBytes, get_writeBytes_out _ _ _ _ (by omega), ih (a + 1) (by omega)]

/-! ## The canonical form -/

theorem memory_wf_put (m : Map Byte) (k : Nat) (b : Byte) (h : Memory.wf m = true) : Memory.wf (m.put 0 k b) = true := by
  simp only [Memory.wf, Bool.and_eq_true] at *
  exact ⟨Map.wf_put m 0 k b h.1, Map.lean_put m 0 k b h.2⟩

@[simp] theorem memory_wf_nil : Memory.wf [] = true := rfl

theorem memory_wf_writeBytes (l : List Byte) : ∀ (m : Map Byte) (k : Nat), Memory.wf m = true → Memory.wf (writeBytes m k l) = true := by
  induction l with
  | nil => intro m k h; exact h
  | cons b l ih => intro m k h; exact ih _ _ (memory_wf_put m k b h)

theorem memory_wf_otpProgram (l : List Byte) : ∀ (m : Map Byte) (k : Nat), Memory.wf m = true → Memory.wf (otpProgram m k l) = true := by
  induction l with
  | nil => intro m k h; exact h
  | cons b l ih => intro m k h; exact ih _ _ (memory_wf_put m k _ h)

/-- Two memories in canonical form that read the same are the same data. -/
theorem memory_ext (m : Map Byte) : ∀ (n : Map Byte) (lo : Nat), Map.rising lo m = true → Map.lean 0 m = true → Map.rising lo n = true → Map.lean 0 n = true →
    (∀ k, lo ≤ k → m.get 0 k = n.get 0 k) → m = n := by
  have low : ∀ (m : Map Byte) (lo k : Nat), Map.rising lo m = true → k < lo → m.find k = none := by
    intro m
    induction m with
    | nil => intros; rfl
    | cons p m ih =>
      obtain ⟨j, w⟩ := p
      intro lo k r h
      simp only [Map.rising, Bool.and_eq_true, decide_eq_true_eq] at r
      rw [Map.find, if_neg (by omega)]
      exact ih (j + 1) k r.2 (by omega)
  induction m with
  | nil =>
    intro n lo _ _ rn ln h
    cases n with
    | nil => rfl
    | cons p n =>
      obtain ⟨j, w⟩ := p
      simp only [Map.rising, Map.lean, List.all_cons, Bool.and_eq_true, decide_eq_true_eq] at rn ln
      have := h j rn.1
      simp [Map.get, Map.find] at this
      exact absurd this.symm ln.1
  | cons p m ih =>
    obtain ⟨j, w⟩ := p
    intro n lo rm lm rn ln h
    simp only [Map.rising, Map.lean, List.all_cons, Bool.and_eq_true, decide_eq_true_eq] at rm lm
    cases n with
    | nil =>
      have := h j rm.1
      simp [Map.get, Map.find] at this
      exact absurd this lm.1
    | cons q n =>
      obtain ⟨i, v⟩ := q
      simp only [Map.rising, Map.lean, List.all_cons, Bool.and_eq_true, decide_eq_true_eq] at rn ln
      have hj := h j rm.1
      have hi := h i rn.1
      have e : j = i := by
        rcases Nat.lt_trichotomy j i with g | g | g
        · simp only [Map.get, Map.find, low n (i + 1) j rn.2 (by omega), if_neg (show ¬ j = i by omega)] at hj
          exact absurd hj lm.1
        · exact g
        · simp only [Map.get, Map.find, low m (j + 1) i rm.2 (by omega), if_neg (show ¬ i = j by omega)] at hi
          exact absurd hi.symm ln.1
      subst e
      have ev : w = v := by simpa [Map.get, Map.find] using hj
      subst ev
      congr 1
      refine ih n (j + 1) rm.2 lm.2 rn.2 ln.2 (fun k hk => ?_)
      have := h k (by omega)
      simp only [Map.get, Map.find] at this
      rwa [if_neg (by omega), if_neg (by omega)] at this

/-! ## Memories of the state -/

/-- The four memories that must be canonical are those of another state. -/
theorem memoryWf_of_eq (s u : State) (h : s.memoryWf = true) (hi : u.mcc.imem = s.mcc.imem) (hd : u.mcc.dmem = s.mcc.dmem)
    (hs : u.mcc.shared = s.mcc.shared) (ho : u.otp = s.otp) : u.memoryWf = true := by
  unfold State.memoryWf at *
  rw [hi, hd, hs, ho]
  exact h

theorem memoryWf_storeAt (p : Place) (l : List Byte) (s : State) (h : s.memoryWf = true) : (storeAt p l s).memoryWf = true := by
  simp only [State.memoryWf, Bool.and_eq_true] at h
  cases p with
  | dmem k => simp only [State.memoryWf, storeAt, Bool.and_eq_true]; exact ⟨⟨⟨h.1.1.1, memory_wf_writeBytes l _ k h.1.1.2⟩, h.1.2⟩, h.2⟩
  | shared o => simp only [State.memoryWf, storeAt, Bool.and_eq_true]; exact ⟨⟨⟨h.1.1.1, h.1.1.2⟩, memory_wf_writeBytes l _ o h.1.2⟩, h.2⟩

theorem memoryWf_writeBuf (t a : Nat) (l : List Byte) (s : State) (h : s.memoryWf = true) : (writeBuf t a l s).memoryWf = true := by
  unfold writeBuf
  split
  · exact h
  · exact memoryWf_storeAt _ l s h

theorem memoryWf_programOtp (off : Nat) (l : List Byte) (bad : Option Nat) (s : State) (h : s.memoryWf = true) :
    (programOtp off l bad s).1.memoryWf = true := by
  simp only [State.memoryWf, Bool.and_eq_true] at h
  have key : ∀ x, Memory.wf (otpProgram s.otp off x) = true := fun x => memory_wf_otpProgram x s.otp off h.2
  unfold programOtp
  dsimp only
  split
  · split
    · simp only [State.memoryWf, Bool.and_eq_true, countN, drawFree]; exact ⟨h.1, key _⟩
    · simp only [State.memoryWf, Bool.and_eq_true, countN]; exact ⟨h.1, key _⟩
  · simp only [State.memoryWf, Bool.and_eq_true, countN]; exact ⟨h.1, key _⟩

theorem memory_wf_foldl_writes {β : Type} (at_ : β → Nat) (d : β → List Byte) (l : List β) : ∀ m : Map Byte, Memory.wf m = true →
    Memory.wf (l.foldl (fun x c => writeBytes x (at_ c) (d c)) m) = true := by
  induction l with
  | nil => intro m h; exact h
  | cons c l ih => intro m h; exact ih _ (memory_wf_writeBytes _ m _ h)

/-- The three memories of Madder are canonical. -/
def Mcc.memWf (m : Mcc) : Bool := Memory.wf m.imem && Memory.wf m.dmem && Memory.wf m.shared

theorem memWf_putSeg (b : List Byte) (g : Seg) (m : Mcc) (h : m.memWf = true) : (putSeg b g m).memWf = true := by
  simp only [Mcc.memWf, Bool.and_eq_true] at h
  unfold putSeg
  dsimp only
  split
  · simp only [Mcc.memWf, Bool.and_eq_true]; exact ⟨⟨memory_wf_foldl_writes _ _ _ _ h.1.1, h.1.2⟩, h.2⟩
  · simp only [Mcc.memWf, Bool.and_eq_true]; exact ⟨⟨h.1.1, memory_wf_foldl_writes _ _ _ _ h.1.2⟩, h.2⟩
  · simp only [Mcc.memWf, Bool.and_eq_true]; exact ⟨h.1, memory_wf_writeBytes _ _ _ h.2⟩
  · simp only [Mcc.memWf, Bool.and_eq_true]; exact h

theorem memWf_putLegal (l : List Byte) (m : Mcc) (h : m.memWf = true) : (putLegal l m).memWf = true := by
  simp only [Mcc.memWf, Bool.and_eq_true] at h
  simp only [putLegal, Mcc.memWf, Bool.and_eq_true]
  exact ⟨⟨memory_wf_foldl_writes (fun c => c * 0x10000 + 0xE000) (fun _ => l.drop 64) _ _ h.1.1, h.1.2⟩, h.2⟩

theorem memWf_foldl_putSeg (b : List Byte) (l : List Seg) : ∀ m : Mcc, m.memWf = true → (l.foldl (fun m g => putSeg b g m) m).memWf = true := by
  induction l with
  | nil => intro m h; exact h
  | cons g l ih => intro m h; exact ih _ (memWf_putSeg b g m h)

/-- Loading an image leaves canonical memories, whatever they were. -/
theorem memoryWf_loadImage (b : List Byte) (s : State) (h : Memory.wf s.otp = true) : (loadImage b s).memoryWf = true := by
  have fin : ∀ m : Mcc, m.memWf = true → ∀ u : State, u.mcc.imem = m.imem → u.mcc.dmem = m.dmem → u.mcc.shared = m.shared → u.otp = s.otp → u.memoryWf = true := by
    intro m hm u h1 h2 h3 h4
    simp only [Mcc.memWf, Bool.and_eq_true] at hm
    simp only [State.memoryWf, Bool.and_eq_true, h1, h2, h3, h4]
    exact ⟨hm, h⟩
  unfold loadImage
  dsimp only
  have hm : (if s.legalCode b = 1 then putLegal (imgLegal b) ((imgSegs b).foldl (fun m g => putSeg b g m)
      { s.mcc with imem := [], dmem := [], shared := [], poisonImem := [], poisonDmem := [], poisonShared := [], flipImem := [], flipDmem := []
                   image := some { role := field b 12 1, secver := BitVec.ofNat 32 (imgSecver b), build := imgBuild b, legdig := imgLegDig b, entries := imgEntries b }
                   legal := s.legalCode b })
      else (imgSegs b).foldl (fun m g => putSeg b g m)
      { s.mcc with imem := [], dmem := [], shared := [], poisonImem := [], poisonDmem := [], poisonShared := [], flipImem := [], flipDmem := []
                   image := some { role := field b 12 1, secver := BitVec.ofNat 32 (imgSecver b), build := imgBuild b, legdig := imgLegDig b, entries := imgEntries b }
                   legal := s.legalCode b }).memWf = true := by
    split
    · exact memWf_putLegal _ _ (memWf_foldl_putSeg _ _ _ rfl)
    · exact memWf_foldl_putSeg _ _ _ rfl
  split
  · exact fin _ hm _ rfl rfl rfl rfl
  · exact fin _ hm _ rfl rfl rfl rfl

/-! ## OTP bits -/

theorem bitAt_testBit (x i : Nat) : bitAt x i = x.testBit i := by
  unfold bitAt
  rw [Nat.testBit_eq_decide_div_mod_eq, Nat.shiftRight_eq_div_pow]
  rfl

theorem bitAt_or (a b : Byte) (i : Nat) (h : bitAt a.toNat i = true) : bitAt (a ||| b).toNat i = true := by
  rw [bitAt_testBit] at *
  rw [BitVec.toNat_or, Nat.testBit_or, h, Bool.true_or]

/-- Programming sets bits and clears none. -/
theorem otpProgram_keeps (l : List Byte) : ∀ (m : Map Byte) (k a i : Nat), bitAt (m.get 0 a).toNat i = true → bitAt ((otpProgram m k l).get 0 a).toNat i = true := by
  induction l with
  | nil => intro m k a i h; exact h
  | cons b l ih =>
    intro m k a i h
    apply ih
    rw [Map.get_put]
    split
    · next e => subst e; exact bitAt_or _ _ _ h
    · exact h

/-- OTP bytes outside the programmed span keep their value. -/
theorem otpProgram_out (l : List Byte) : ∀ (m : Map Byte) (k a : Nat), a < k ∨ k + l.length ≤ a → (otpProgram m k l).get 0 a = m.get 0 a := by
  induction l with
  | nil => intro m k a _; rfl
  | cons b l ih =>
    intro m k a h
    simp only [List.length_cons] at h
    rw [otpProgram, ih _ _ _ (by omega), Map.get_put_ne _ _ _ (by omega)]

end Sys2Proof.Machine
end

