-- ==== Sys2Proof/Laws/Thread.lean ====
section
/-! SUPPORT. What issuing an Akzil instruction, going on at the next word, an exception and an engine call do, once for every instruction. -/

namespace Sys2Proof.Machine

/-- A thread in RUN that is not leaving stays as it is at an instruction boundary. -/
theorem settle_running (t : Nat) (s : State) (hs : (s.thr t).st = .run) (he : (s.thr t).exiting = false)
    (hq : (s.thr t).stopAsked = false ∨ (s.thr t).level = .legal) : settle t s = s := by
  unfold settle
  dsimp only
  split
  · rfl
  · rw [if_neg]
    rw [he]
    rcases hq with h | h <;> simp [h]

/-- A thread that does not issue changes nothing. -/
theorem issue_idle (t pi : Nat) (act : Thread → State → State) (s : State) (h : (s.coresRun && (s.thr t).issues) = false) : issue t pi act s = s := by
  unfold issue
  simp [h]

/-- Reading words that hold no flipped bit changes nothing. -/
theorem readPlace_steady (p : Place) (n : Nat) (s : State) (h : s.steady p n = true) : readPlace p n s = s := by
  have id : ∀ (l : List Nat) (f : State → Nat → State), (∀ i ∈ l, f s i = s) → l.foldl f s = s := by
    intro l f
    induction l with
    | nil => intro _; rfl
    | cons x l ih => intro hx; rw [List.foldl_cons, hx x (by simp)]; exact ih fun i hi => hx i (by simp [hi])
  cases p with
  | dmem k =>
    simp only [State.steady, List.all_eq_true, Bool.not_eq_true'] at h
    unfold readPlace
    dsimp only
    split
    · rfl
    · exact id _ _ fun i hi => by unfold readDmem; rw [h i hi]; rfl
  | shared o =>
    simp only [State.steady, List.all_eq_true, beq_iff_eq] at h
    unfold readPlace readWords
    dsimp only
    split
    · rfl
    · exact id _ _ fun i hi => by unfold readWord; rw [h i hi]; rfl

/-- A fetch with a guard that holds runs the instruction. -/
theorem issue_issuesAt (t pi : Nat) (act : Thread → State → State) (s : State) (h : s.issuesAt t pi = true) : issue t pi act s = act (s.thr t) s := by
  simp only [State.issuesAt, State.fetches, Bool.and_eq_true] at h
  obtain ⟨⟨⟨⟨⟨h1, h2⟩, h3⟩, h4⟩, h6⟩, h5⟩ := h
  have h6' : readImem ((coreOf t * 0x10000 + (s.thr t).pc.toNat) / 8) s = s := by unfold readImem; simp at h6; rw [h6]; rfl
  have h4' : s.mcc.poisonImem.get false ((coreOf t * 0x10000 + (s.thr t).pc.toNat) / 8) = false := by simpa using h4
  unfold issue
  simp [h1, h2, h3, h4', h5, h6']

/-- A guard that does not hold lets the thread go on. -/
theorem issue_guard (t pi : Nat) (act : Thread → State → State) (s : State) (h : s.fetches t = true) (g : predGet (s.thr t).preds pi = false) :
    issue t pi act s = retire t s := by
  simp only [State.fetches, Bool.and_eq_true] at h
  obtain ⟨⟨⟨⟨h1, h2⟩, h3⟩, h4⟩, h6⟩ := h
  have h6' : readImem ((coreOf t * 0x10000 + (s.thr t).pc.toNat) / 8) s = s := by unfold readImem; simp at h6; rw [h6]; rfl
  have h4' : s.mcc.poisonImem.get false ((coreOf t * 0x10000 + (s.thr t).pc.toNat) / 8) = false := by simpa using h4
  unfold issue
  simp [h1, h2, h3, h4', g, h6']

/-- What a thread that issues has. -/
theorem Thread.issues_run {th : Thread} (h : th.issues = true) :
    th.st = .run ∧ th.exiting = false ∧ (th.stopAsked = false ∨ th.level = .legal) := by
  simp only [Thread.issues, Bool.and_eq_true, decide_eq_true_eq, Bool.not_eq_true'] at h
  refine ⟨h.1.1, h.1.2, ?_⟩
  have := h.2
  simp only [Bool.and_eq_false_iff, decide_eq_false_iff_not, ne_eq, Classical.not_not] at this
  exact this

/-- Replacing a thread and counting once is a turn. -/
theorem turns_setThr (t k : Nat) (th : Thread) (s : State) : Turns t k th s (count k (setThr t th s)) := by
  refine ⟨by simp, fun v hv => ?_, fun j => ?_, rfl⟩
  · rw [thr_count, thr_setThr_ne th s hv]
  · rw [counter_count]; rfl

/-- The next word, for an instruction that leaves the thread as `th`, running and not leaving. -/
theorem retires_setThr (t : Nat) (th : Thread) (s : State) (hs : th.st = .run) (he : th.exiting = false)
    (hq : th.stopAsked = false ∨ th.level = .legal) : Retires t th s (retire t (setThr t th s)) := by
  have hput : ∀ a b : Thread, setThr t a (setThr t b s) = { s with mcc.threads := (s.mcc.threads.put {} t b).put {} t a } := fun _ _ => rfl
  unfold retire
  rw [settle_running]
  · refine ⟨by simp, fun v hv => ?_, fun j => ?_, rfl⟩
    · rw [thr_count, thr_updThr_ne _ _ hv, thr_setThr_ne _ _ hv]
    · rw [counter_count]; rfl
  · simp [hs]
  · simp [he]
  · simpa using hq

/-- An instruction that changes its thread alone: the thread it leaves must run on and not be leaving. -/
theorem retires_issueReg (t pi : Nat) (f : Thread → Thread) (s : State) (h : s.issuesAt t pi = true)
    (hf : (f (s.thr t)).st = (s.thr t).st ∧ (f (s.thr t)).exiting = (s.thr t).exiting ∧ (f (s.thr t)).stopAsked = (s.thr t).stopAsked
      ∧ (f (s.thr t)).level = (s.thr t).level) : Retires t (f (s.thr t)) s (issueReg t pi f s) := by
  unfold issueReg
  rw [issue_issuesAt t pi _ s h]
  simp only [State.issuesAt, State.fetches, Bool.and_eq_true] at h
  obtain ⟨a, b, c⟩ := Thread.issues_run h.1.1.1.1.2
  exact retires_setThr t (f (s.thr t)) s (hf.1.trans a) (hf.2.1.trans b) (by rw [hf.2.2.1, hf.2.2.2]; exact c)

/-- Writing a register keeps everything but the registers. -/
theorem Thread.setReg_frame (th : Thread) (r : Nat) (v : Word) : th.setReg r v = { th with regs := (th.setReg r v).regs } := by
  unfold Thread.setReg
  split <;> rfl

@[simp] theorem Thread.setReg_st (th : Thread) (r : Nat) (v : Word) : (th.setReg r v).st = th.st := by rw [Thread.setReg_frame]
@[simp] theorem Thread.setReg_pc (th : Thread) (r : Nat) (v : Word) : (th.setReg r v).pc = th.pc := by rw [Thread.setReg_frame]
@[simp] theorem Thread.setReg_level (th : Thread) (r : Nat) (v : Word) : (th.setReg r v).level = th.level := by rw [Thread.setReg_frame]
@[simp] theorem Thread.setReg_preds (th : Thread) (r : Nat) (v : Word) : (th.setReg r v).preds = th.preds := by rw [Thread.setReg_frame]
@[simp] theorem Thread.setReg_exiting (th : Thread) (r : Nat) (v : Word) : (th.setReg r v).exiting = th.exiting := by rw [Thread.setReg_frame]
@[simp] theorem Thread.setReg_stopAsked (th : Thread) (r : Nat) (v : Word) : (th.setReg r v).stopAsked = th.stopAsked := by rw [Thread.setReg_frame]
@[simp] theorem Thread.setReg_slots (th : Thread) (r : Nat) (v : Word) : (th.setReg r v).slots = th.slots := by rw [Thread.setReg_frame]

/-- Register r after a write; m0 stays 0 (R242). -/
theorem Thread.reg_setReg (th : Thread) (r q : Nat) (v : Word) : (th.setReg r v).reg q = if q = r ∧ r ≠ 0 then v else th.reg q := by
  unfold Thread.setReg Thread.reg
  by_cases hr : r = 0
  · simp [hr]
  · by_cases hq : q = r
    · subst hq
      simp [hr]
    · by_cases h0 : q = 0
      · simp [h0, Ne.symm hr]
      · simp [hr, hq, h0, Map.get_put_ne _ _ _ hq]

/-- Slot `i` after a write of slot `j`. -/
theorem Thread.slot_setSlot (th : Thread) (i j : Nat) (x : Slot) : (th.setSlot j x).slot i = if i = j then x else th.slot i := Map.get_put _ _ _ _ _

/-- The exception of a thread at SYSTEM or TASK with EXC = 0 (R275). -/
theorem excepts_raise (t code : Nat) (v : Word) (s : State) (hl : (s.thr t).level ≠ .legal) (he : (s.thr t).exc = false) :
    Excepts t code v s (raise t code v s) := by
  unfold Excepts
  unfold raise
  dsimp only
  rw [if_neg hl, he, if_neg Bool.false_ne_true]
  refine ⟨?_, fun w hw => ?_, fun j => ?_, rfl⟩
  · simp [Thread.excepted]
  · rw [thr_setThr_ne _ _ hw, thr_count, thr_setThr_ne _ _ hw]
  · show (count _ _).counter j = _
    rw [counter_count]
    rfl

/-- An engine call that its thread may make runs the engine in `calling` and leaves the call outstanding. -/
theorem ecall_callsAt (t pi rt ra fn len i : Nat) (p : Place) (eng : Nat → List Byte → State → EngOut) (s : State)
    (h : s.callsAt t pi ra fn len p i = true) :
    ecall t pi rt ra fn len eng s = called t fn ((s.thr t).reg ra).toNat i (eng t (s.load p len) (calling t rt i s)) := by
  simp only [State.callsAt, Bool.and_eq_true, Bool.not_eq_true', decide_eq_true_eq, beq_iff_eq] at h
  obtain ⟨⟨⟨⟨⟨⟨⟨⟨h1, h2⟩, h3⟩, h4⟩, h5⟩, h6⟩, h7⟩, h8⟩, h9⟩ := h
  unfold ecall ecallG
  rw [issue_issuesAt t pi _ s h1]
  dsimp only
  rw [h2, if_neg Bool.false_ne_true, if_neg (by simp [h3]), if_pos h4, h5]
  dsimp only
  rw [h6]
  dsimp only
  let u := calling t rt i s
  have hu : count (kMcc t 2) (countIf ((s.thr t).slot i).status.isSome (kMcc t 9) (setThr t
      (((if ((s.thr t).slot i).status.isSome = true then { s.thr t with elost := (s.thr t).elost + 1 } else s.thr t).setReg rt (Word.of i)).setSlot i {}) s)) = u := rfl
  rw [hu]
  have hf : u.mcc.flipDmem = s.mcc.flipDmem ∧ u.mcc.poisonDmem = s.mcc.poisonDmem ∧ u.mcc.poisonShared = s.mcc.poisonShared ∧ u.mcc.dmem = s.mcc.dmem
      ∧ u.mcc.shared = s.mcc.shared ∧ u.glb = s.glb := by
    rw [← hu]; unfold countIf; split <;> exact ⟨rfl, rfl, rfl, rfl, rfl, rfl⟩
  obtain ⟨f1, f2, f3, f4, f5, f6⟩ := hf
  have h9' : u.steady p len = true := by unfold State.steady at *; rw [f1, f6]; exact h9
  have h8' : u.poisoned p len = false := by rw [← h8]; unfold State.poisoned; rw [f2, f3]
  have hl : u.load p len = s.load p len := by unfold State.load; rw [f4, f5]
  rw [readPlace_steady p len u h9', h8', hl]
  simp only [h7, Bool.not_true, Bool.false_eq_true, if_false]
  rfl

end Sys2Proof.Machine
end

