-- ==== Sys2Proof/Machine/Balls.lean ====
section
/-! DEFINITION. The ball map of the package and the terminations of the sample links (R461, R462, R470, Tables 18-1 to 18-7). -/

namespace Sys2Proof.Machine

/-- Signals of a radio port block (Table 18-3); `n` is the complement ball of a pair. -/
inductive RpSignal where
  | txclk (n : Bool) | txd (n : Bool) | txfrm (n : Bool) | rxclk (n : Bool) | rxd (n : Bool) | rxfrm (n : Bool)
deriving DecidableEq, Repr

/-- Signals of a line port block (Table 18-4). -/
inductive LpSignal where
  | txclk (n : Bool) | txfrm (n : Bool) | txd (i : Nat) (n : Bool) | cal | rxclk (n : Bool) | rxfrm (n : Bool) | rxd (i : Nat) (n : Bool)
deriving DecidableEq, Repr

/-- Signals of a NAND channel block (Table 18-5). -/
inductive NandSignal where
  | ce (i : Nat) | cle | ale | we | wp | dq (i : Nat) | dqs (c : Bool) | re (c : Bool)
deriving DecidableEq, Repr

/-- Control, clock and JTAG signals of the west strip (Table 18-7). -/
inductive WestSignal where
  | pcieTx (lane : Nat) (n : Bool) | pcieRx (lane : Nat) (n : Bool) | pcieRefclk (n : Bool) | perst
  | macTx (mac : Nat) (n : Bool) | macRx (mac : Nat) (n : Bool) | refclk | slowclk | porst | pfail | vigilReq | pgood | pwrenCore | pwrenNand
  | coreVid (i : Nat) | mordantSeal | freeze | thermtrip | test | tck | tms | tdi | tdo | trst | pulseOut (i : Nat) | gpio (i : Nat) | nandZq (i : Nat)
deriving DecidableEq, Repr

/-- The one assignment of a ball. -/
inductive Ball where
  | vss | vddCore | vddSram | vddAon | vddio18 | vddqNand | vddSds09 | vddSds12 | dnc
  | rp (port : Nat) (g : RpSignal) | lp (port : Nat) (g : LpSignal) | nand (ch : Nat) (g : NandSignal)
  | cpTx (port lane : Nat) (n : Bool) | cpRx (port lane : Nat) (n : Bool) | west (g : WestSignal) | senseCore | senseVss
deriving DecidableEq, Repr

/-- Rows of the array in order, A = 0 to AN = 31. -/
def ballRows : List String :=
  ["A", "B", "C", "D", "E", "F", "G", "H", "J", "K", "L", "M", "N", "P", "T", "U", "V", "W", "Y", "AA", "AB", "AC", "AD", "AE", "AF", "AG",
   "AH", "AJ", "AK", "AL", "AM", "AN"]

/-- Local row and column of a radio port block (Table 18-3). -/
def rpBall (p row col : Nat) : Ball :=
  let n := col % 2 == 1
  match row, col / 2 with
  | 0, 0 => .rp p (.txclk n)
  | 0, _ => .rp p (.txd n)
  | 3, 0 => .rp p (.rxclk n)
  | 3, _ => .rp p (.rxd n)
  | 2, _ => if col = 0 ∨ col = 3 then .vddio18 else .vss
  | 1, _ => if col = 1 then .rp p (.txfrm false) else if col = 2 then .rp p (.txfrm true) else .vss
  | _, _ => if col = 1 then .rp p (.rxfrm false) else if col = 2 then .rp p (.rxfrm true) else .vss

/-- Local row and column of a line port block (Table 18-4). -/
def lpBall (p row col : Nat) : Ball :=
  let n := col % 2 == 1
  match row, col / 2 with
  | 0, 0 => .lp p (.txclk n)
  | 0, _ => .lp p (.txfrm n)
  | 1, i => .lp p (.txd i n)
  | 2, _ => if col = 1 then .lp p .cal else .vss
  | 3, 0 => .lp p (.rxclk n)
  | 3, _ => .lp p (.rxfrm n)
  | _, i => .lp p (.rxd i n)

/-- Local row and column of a NAND channel block (Table 18-5). -/
def nandBall (c row col : Nat) : Ball :=
  match row with
  | 0 => .nand c (.ce col)
  | 1 => .nand c (.ce (4 + col))
  | 2 => .nand c (match col with | 0 => .cle | 1 => .ale | 2 => .we | _ => .wp)
  | 3 => if col = 0 ∨ col = 3 then .vddqNand else .vss
  | 4 => .nand c (.dq col)
  | 5 => .nand c (if col < 2 then .dqs (col == 1) else .re (col == 3))
  | _ => .nand c (.dq (4 + col))

/-- Local row and column of a cascade port block (Table 18-6). -/
def cpBall (p row col : Nat) : Ball :=
  match row, col with
  | 0, 1 => .cpTx p 0 false
  | 0, 2 => .cpTx p 0 true
  | 0, 4 => .vddSds09
  | 1, 4 => .vddSds12
  | 2, 1 => .cpTx p 1 false
  | 2, 2 => .cpTx p 1 true
  | 2, 4 => .vddSds09
  | 3, 0 => .cpRx p 0 false
  | 3, 1 => .cpRx p 0 true
  | 3, 3 => .vddSds09
  | 3, 4 => .dnc
  | 4, 0 => .cpRx p 1 false
  | 4, 1 => .cpRx p 1 true
  | 4, 3 => .vddSds09
  | 4, 4 => .vddSds12
  | _, _ => .vss

/-- A row of two pairs around a supply ball. -/
def pairRow (tx rx : Bool → WestSignal) (mid : Ball) : List Ball := [.west (tx false), .west (tx true), mid, .west (rx false), .west (rx true)]

/-- The west strip, rows F to AF, columns 1 to 5 (Table 18-7). -/
def westBalls : List (List Ball) :=
  [pairRow (.pcieTx 0) (.pcieRx 0) .vss, [.vss, .vss, .vddSds12, .vss, .vss],
   pairRow (.pcieTx 1) (.pcieRx 1) .vss, [.vss, .vss, .vddSds09, .vss, .vss],
   pairRow (.pcieTx 2) (.pcieRx 2) .vss, [.vss, .vss, .vddSds12, .vss, .vss],
   pairRow (.pcieTx 3) (.pcieRx 3) .vss,
   [.west (.pcieRefclk false), .west (.pcieRefclk true), .vddSds09, .west .perst, .vss],
   pairRow (.macTx 0) (.macRx 0) .vddSds12, pairRow (.macTx 1) (.macRx 1) .vddSds09,
   [.west .refclk, .vss, .vddSds12, .west .slowclk, .vddSds09],
   [.west .porst, .west .pfail, .west .vigilReq, .west .pgood, .vss],
   [.west .pwrenCore, .west .pwrenNand, .west (.coreVid 0), .west (.coreVid 1), .west (.coreVid 2)],
   [.west (.coreVid 3), .west .mordantSeal, .west .freeze, .west .thermtrip, .west .test],
   [.west .tck, .west .tms, .west .tdi, .west .tdo, .west .trst],
   [.west (.pulseOut 0), .west (.pulseOut 1), .west (.pulseOut 2), .west (.pulseOut 3), .vddio18]] ++
  (List.range 3).map (fun r => (List.range 5).map fun c => .west (.gpio (5 * r + c))) ++
  [[.west (.gpio 15), .west (.nandZq 0), .west (.nandZq 1), .vddio18, .vss]]

/-- The interior's rule: `i` counts rows from F, `c` is the column, 6 to 27 (R461). -/
def interiorBall (i c : Nat) : Ball :=
  if (i + c) % 2 = 1 then .vss
  else if i < 2 then .vddio18
  else if 18 ≤ i then .vddqNand
  else if c < 8 then (if i < 8 then .vddAon else if i < 16 then .vddio18 else if c = 6 then .senseCore else .senseVss)
  else if c < 12 then .vddSram
  else .vddCore

/-- The assignment of the ball at a row (0 is A) and a column, 1 to 32 (Table 18-2). -/
def ballAt (row c : Nat) : Ball :=
  if row < 5 then (if c < 17 then rpBall ((c - 1) / 4) row ((c - 1) % 4) else lpBall ((c - 17) / 4) row ((c - 1) % 4))
  else if 25 ≤ row then nandBall ((c - 1) / 4) (row - 25) ((c - 1) % 4)
  else if c < 6 then ((westBalls[row - 5]?.getD [])[c - 1]?).getD .vss
  else if 28 ≤ c then cpBall ((row - 5) / 5) ((row - 5) % 5) (c - 28)
  else interiorBall (row - 5) c

/-- The on-die termination of a radio or line port's receivers is on while the port is enabled (R470). -/
def State.rpTerminated (s : State) (p : Nat) : Bool := s.powered && (s.rport p).desc.enable
def State.lpTerminated (s : State) (p : Nat) : Bool := s.powered && (s.lport p).desc.enable

end Sys2Proof.Machine
end

