-- ==== Sys2Proof/WellFormed.lean ====
section
/-! DEFINITION. What the spec bounds in a command's operands beyond their types. `exec` does not rest on it: every command has an
effect on every operand; a well-formed one is what the part's environment can supply. -/

namespace Sys2Proof

open Sys2Proof.Machine

/-- A meter handle has 20 bits (the scope's sizes: one part serves 1,048,576 meters). -/
def mhOk (mh : Nat) : Bool := decide (mh < 1048576)

/-- A time stamp of the part in ns fits TAI's 48-bit seconds (R332). -/
def taiOk (t : Nat) : Bool := decide (t < 2 ^ 48 * 1000000000)

/-- NAND: at most 256 LUNs of at most 4,096 blocks (R208). -/
def lunOk (lun : Nat) : Bool := decide (lun < 256)
def blockOk (block : Nat) : Bool := decide (block < 4096)

/-- A read makes at most the eight tries of the ladder (R214). -/
def ladderOk (r : ReadIn) : Bool := decide (r.tries.length ≤ 8)

/-- Blocks by key: LUN and block number. -/
def keysOk (l : List Nat) : Bool := l.all fun k => decide (k < 1048576)

/-- A page has four chunks (R212). -/
def pageOk (keys : List Nat) : Bool := decide (keys.length = 4)

/-- A native stream of Lake: spaces 3 to 7 (R216). -/
def streamOk (stream : Nat) : Bool := decide (3 ≤ stream ∧ stream ≤ 7)

/-- A space with landing buffers or stripes (R213). -/
def spaceOk (space : Nat) : Bool := decide (3 ≤ space ∧ space ≤ 7)

/-- A node number (R191). -/
def nodeOk (node : Nat) : Bool := decide (node < 65535)

/-- A command entry has 64 bytes, its data at most 65,536 (R288, R289). -/
def entryOk (raw : List Byte) : Bool := decide (raw.length = 64)
def dataOk (data : List Byte) : Bool := decide (data.length ≤ 65536)

/-- A UDP datagram's bytes. -/
def datagramOk (bytes : List Byte) : Bool := decide (bytes.length ≤ 65507)

/-- A frame the MAC can have in its FIFO (R356). -/
def etherOk (f : List Byte) : Bool := decide (f.length ≤ 131072)

/-- A radio frame as its demodulator hands it over; PLEN is one byte (R38). -/
def airOk (bytes : List Byte) : Bool := decide (bytes.length ≤ 512)

/-- Buckets of the partition map (R378). -/
def bucketsOk (held : List Nat) : Bool := held.all fun b => decide (b < 4096)

/-- Soft values of the frame control's carriers: at most 206, in two symbols (R99, R101). -/
def softOk (soft : List Byte) : Bool := decide (soft.length ≤ 412)

/-- A chip ID of a stack, or broadcast, and a message number (R368). -/
def headOk (h : CHead) : Bool := decide (h.src < 256 ∧ h.dst < 256 ∧ h.mid < 65536)

/-- Whether a command's operands lie where the spec puts them. -/
def Instr.wellFormed : Instr → Bool
  | .radioFrameReceive _ _ bytes est => airOk bytes && taiOk est
  | .downlinkLaunch _ _ at_ _ => taiOk at_
  | .linePreambleDetect _ pre => taiOk pre
  | .lineFcReceive _ soft => softOk soft
  | .plausibilityCheck mh => mhOk mh
  | .ledgerBooking mh => mhOk mh
  | .balanceBooking mh => mhOk mh
  | .balancePartialReceive port node _ _ _ _ _ _ => decide (port < 4) && nodeOk node
  | .nandOpTimeout lun block kind at_ _ => lunOk lun && blockOk block && decide (kind ≤ 2) && taiOk at_
  | .nandReadComplete _ r => ladderOk r
  | .nandProgramComplete stream keys _ _ => streamOk stream && pageOk keys
  | .nandEraseComplete lun block _ => lunOk lun && blockOk block
  | .lakePatrol r => ladderOk r
  | .landingDeadline space => spaceOk space
  | .lakeCollection space => spaceOk space
  | .commandFetch _ raw data _ _ => entryOk raw && dataOk data
  | .ethCommandDatagram _ _ bytes => datagramOk bytes
  | .updBlockBegin _ _ _ _ bad => keysOk bad
  | .updBlock _ _ _ _ bad => keysOk bad
  | .imgBlock _ bad => keysOk bad
  | .macFrameReceive _ f _ _ => etherOk f
  | .casPartmap _ _ _ _ held => bucketsOk held
  | .pgoodRise ochre => taiOk ochre
  | .holdupFlushComplete _ ochre => taiOk ochre
  | .vigilCommit _ ochre => taiOk ochre
  | .vigilWake _ ochre => taiOk ochre
  | .internalReset ochre => taiOk ochre
  | .hello h _ _ => headOk h
  | .tsync h _ | .topo h _ | .assign h _ | .msg h _ | .bcast h _ | .barrier h _ | .snap h _ | .row h _ => headOk h
  | .rframe h _ | .rdecide h _ | .mirror h _ | .mack h _ | .resync h _ | .partmap h _ | .lfetch h _ => headOk h
  | _ => true

end Sys2Proof
end

