-- ==== Sys2Proof/Tests/Slice0.lean ====
section
/-! SUPPORT. Tests: operands that `Instr.wellFormed` refuses, the queue, the check values and worked examples of the spec. -/

namespace Sys2Proof.Tests

open Sys2Proof Sys2Proof.Machine

set_option maxRecDepth 20000

/-! ## Well-formedness -/

/-- A message head of two chips. -/
def aHead : CHead := { port := 0, src := 1, dst := 2, mid := 3, lseq := 0, intact := true }

theorem test_wf_refuses_meter_handle : Instr.wellFormed (.plausibilityCheck 1048576) = false := by decide
theorem test_wf_refuses_booking_handle : Instr.wellFormed (.ledgerBooking 1048576) = false := by decide
theorem test_wf_refuses_balance_handle : Instr.wellFormed (.balanceBooking 1048576) = false := by decide
theorem test_wf_refuses_instant : Instr.wellFormed (.pgoodRise (2 ^ 48 * 1000000000)) = false := by decide
theorem test_wf_refuses_lun : Instr.wellFormed (.nandEraseComplete 256 0 true) = false := by decide
theorem test_wf_refuses_block : Instr.wellFormed (.nandEraseComplete 0 4096 true) = false := by decide
theorem test_wf_refuses_nand_kind : Instr.wellFormed (.nandOpTimeout 0 0 3 0 true) = false := by decide
theorem test_wf_refuses_ladder_step : Instr.wellFormed (.nandReadComplete 0 { tries := List.replicate 9 { ones := 0, corrected := none, word := [] } }) = false := by decide
theorem test_wf_refuses_stream : Instr.wellFormed (.nandProgramComplete 2 [0, 0, 0, 0] true []) = false := by decide
theorem test_wf_refuses_page : Instr.wellFormed (.nandProgramComplete 3 [0, 0, 0] true []) = false := by decide
theorem test_wf_refuses_space : Instr.wellFormed (.landingDeadline 8) = false := by decide
theorem test_wf_refuses_collection_space : Instr.wellFormed (.lakeCollection 2) = false := by decide
theorem test_wf_refuses_node : Instr.wellFormed (.balancePartialReceive 0 65535 0 0 0 0 0 0) = false := by decide
theorem test_wf_refuses_port : Instr.wellFormed (.balancePartialReceive 4 0 0 0 0 0 0 0) = false := by decide
theorem test_wf_refuses_entry : Instr.wellFormed (.commandFetch 0 (zeroBytes 63) [] true true) = false := by decide
theorem test_wf_refuses_data : Instr.wellFormed (.commandFetch 0 (zeroBytes 64) (zeroBytes 65537) true true) = false := by
  rw [Instr.wellFormed, dataOk, show (zeroBytes 65537).length = 65537 from List.length_replicate]; decide
theorem test_wf_refuses_datagram : Instr.wellFormed (.ethCommandDatagram 0 0 (zeroBytes 65508)) = false := by
  rw [Instr.wellFormed, datagramOk, zeroBytes, List.length_replicate]; decide
theorem test_wf_refuses_ethernet_frame : Instr.wellFormed (.macFrameReceive 0 (zeroBytes 131073) true 0) = false := by
  rw [Instr.wellFormed, etherOk, zeroBytes, List.length_replicate]; decide
theorem test_wf_refuses_radio_frame : Instr.wellFormed (.radioFrameReceive 0 0 (zeroBytes 513) 0) = false := by decide
theorem test_wf_refuses_launch_instant : Instr.wellFormed (.downlinkLaunch 0 0 (2 ^ 48 * 1000000000) none) = false := by decide
theorem test_wf_refuses_patrol_ladder :
    Instr.wellFormed (.lakePatrol { tries := List.replicate 9 { ones := 0, corrected := none, word := [] } }) = false := by decide
theorem test_wf_refuses_bucket : Instr.wellFormed (.casPartmap 0 0 0 0 [4096]) = false := by decide
theorem test_wf_refuses_failed_block : Instr.wellFormed (.updBlock 0 0 0 0 [1048576]) = false := by decide
theorem test_wf_refuses_soft_values : Instr.wellFormed (.lineFcReceive 0 (zeroBytes 413)) = false := by
  rw [Instr.wellFormed, softOk, zeroBytes, List.length_replicate]; decide
theorem test_wf_refuses_chip : Instr.wellFormed (.msg { aHead with src := 256 } (.msg [])) = false := by decide

theorem test_wf_admits_an_entry : Instr.wellFormed (.commandFetch 0 (zeroBytes 64) [] true true) = true := by decide
theorem test_wf_admits_a_page : Instr.wellFormed (.nandProgramComplete 7 [0, 1, 2, 3] true []) = true := by decide
theorem test_wf_admits_a_message : Instr.wellFormed (.msg aHead (.msg [])) = true := by decide

/-! ## The queue -/

theorem test_step_takes_the_front :
    step { State.reset with pending := [.fence 0 0, .nop 0 0] } = exec (.fence 0 0) { State.reset with pending := [.nop 0 0] } := by rfl

theorem test_no_word_spells_a_command : decodeTableWord 32 0x18148001 = none := by decide

theorem test_fetch_word_leaves_the_state : State.reset.withFetchWord 32 0 = State.reset := by rfl

/-! ## Check values and worked examples of the spec -/

/-- The nine ASCII characters 1 to 9. -/
def digits : List Byte := bytesOf [49, 50, 51, 52, 53, 54, 55, 56, 57]

/-- R38's check value. -/
theorem test_crc16 : crc16 digits = 0x906E := by decide

/-- R66's check value. -/
theorem test_crc32c : crc32c digits = 0xE3069283 := by decide

/-- Chapter 9's lookup command: the word of ecall m5, m4, dir_lookup. -/
theorem test_word_ecall : encR 0 0x30 5 4 0 1 = 0x18148001 := by decide

/-- Chapter 9's lookup command: the word of addi m4, m0, 0x400. -/
theorem test_word_addi : encI 0 1 4 0 0x400 = 0x00900400 := by decide

/-- Chapter 2's wake schedule: second 2,100,000,017 begins superframe 32,812,500 at L = 64 s, SOFS = 17 s. -/
theorem test_superframe_number : sfLen 2 = 64 ∧ sfNumber 2 17 2100000017 = 32812500 ∧ sfNumber 2 17 2100000401 = 32812506 := by decide

/-- Chapter 2, Table 2-2: an uplink of PLEN 96 lasts 213.333 ms at the rate Standard. -/
theorem test_frame_duration : airNs 1 1024 = 213333333 := by decide

/-- Chapter 5's window of a gas meter. -/
def gasMeter : DirEntry := { st := .active, fcntHi := 1000, rbitmap := 0xB }

theorem test_replay_next_counter :
    replay gasMeter 1001 0 false = .accept { gasMeter with fcntHi := 1001, rbitmap := 0x17 } true := by rfl
theorem test_replay_repeat : replay { gasMeter with fcntHi := 1001, rbitmap := 0x17 } 1001 0 false = .dup := by rfl
theorem test_replay_late :
    replay { gasMeter with fcntHi := 1001, rbitmap := 0x17 } 998 0 false = .accept { gasMeter with fcntHi := 1001, rbitmap := 0x1F } false := by rfl
theorem test_replay_old : replay { gasMeter with fcntHi := 1001, rbitmap := 0x1F } 969 0 false = .reject 0x1D := by rfl
theorem test_replay_far_ahead :
    replay { gasMeter with fcntHi := 1001, rbitmap := 0x1F } 1040 0 false = .accept { gasMeter with fcntHi := 1040, rbitmap := 1 } true := by rfl

/-- Chapter 7's transformer at its close of 11:15. -/
def transformer : Node := { thr := 300, allow := 2, wlen := 2 }
/-- Its sums of the window [10:15, 10:45). -/
def transformerSums : Partial := { in_ := 412600000, out_ := 381900000, nmeter := 212, ncov := 209, chkcov := true, tamp := 1 }

theorem test_balance_verdict :
    allowance transformer transformerSums = 16378000 ∧ codeOf transformer transformerSums 9700 = 1 ∧ ratioOf transformerSums = 744 := by decide

/-- The same at 11:00: 118 of 212 meters cover the window, which is too few. -/
theorem test_balance_coverage : codeOf transformer { transformerSums with ncov := 118 } 9700 = 3 := by decide

/-! ## Ball map (Tables 18-1 to 18-7) -/

/-- The balls of the array that `f` picks. -/
def ballCount (f : Ball → Bool) : Nat :=
  (List.range 32).foldl (fun n r => n + ((List.range 32).filter fun c => f (ballAt r (c + 1))).length) 0

set_option Elab.async false in
theorem test_ball_counts :
    ([Ball.vss, .vddCore, .vddSram, .vddAon, .vddio18, .vddqNand, .vddSds09, .vddSds12, .dnc].map fun b => ballCount (· == b)) =
      [332, 128, 32, 6, 40, 38, 20, 12, 4] := by decide +kernel

/-- The ball names that close Table 18-7's section. -/
theorem test_ball_examples :
    ballAt 2 26 = .lp 2 .cal ∧ ballAt 30 13 = .nand 3 (.dqs false) ∧ ballAt 15 29 = .cpTx 2 0 false ∧ ballAt 7 6 = .vddAon := by decide

/-! ## Check values of the algorithms' public standards (Table 11-12) -/

set_option Elab.async false in
/-- FIPS 197, appendix C.1. -/
theorem test_aes128 : aesBlock (List.range 16) [0x00, 0x11, 0x22, 0x33, 0x44, 0x55, 0x66, 0x77, 0x88, 0x99, 0xAA, 0xBB, 0xCC, 0xDD, 0xEE, 0xFF] =
    [0x69, 0xC4, 0xE0, 0xD8, 0x6A, 0x7B, 0x04, 0x30, 0xD8, 0xCD, 0xB7, 0x80, 0x70, 0xB4, 0xC5, 0x5A] := by decide +kernel

set_option Elab.async false in
/-- FIPS 197, appendix C.3. -/
theorem test_aes256 : aesBlock (List.range 32) [0x00, 0x11, 0x22, 0x33, 0x44, 0x55, 0x66, 0x77, 0x88, 0x99, 0xAA, 0xBB, 0xCC, 0xDD, 0xEE, 0xFF] =
    [0x8E, 0xA2, 0xB7, 0xCA, 0x51, 0x67, 0x45, 0xBF, 0xEA, 0xFC, 0x49, 0x90, 0x4B, 0x49, 0x60, 0x89] := by decide +kernel

set_option Elab.async false in
/-- FIPS 180-4's example: the first 16 bytes of the digest of the ASCII characters abc. -/
theorem test_sha384 : (sha384 (bytesOf [97, 98, 99])).take 16 =
    bytesOf [0xCB, 0x00, 0x75, 0x3F, 0x45, 0xA3, 0x5E, 0x8B, 0xB5, 0xA0, 0x3D, 0x69, 0x9A, 0xC6, 0x50, 0x07] := by decide +kernel

set_option Elab.async false in
/-- SP 800-38B's example 1 for AES-128: the MAC of the empty message. -/
theorem test_cmac_empty : cmac (bytesOf [0x2B, 0x7E, 0x15, 0x16, 0x28, 0xAE, 0xD2, 0xA6, 0xAB, 0xF7, 0x15, 0x88, 0x09, 0xCF, 0x4F, 0x3C]) [] =
    bytesOf [0xBB, 0x1D, 0x69, 0x29, 0xE9, 0x59, 0x37, 0x28, 0x7F, 0xA3, 0x7D, 0x12, 0x9B, 0x75, 0x67, 0x46] := by decide +kernel

/-! ## Single steps -/

/-- Thread 0 of a part in service, its registers m1 = 7 and m2 = 9. -/
def running : State :=
  setThr 0 { State.reset.thr 0 with st := .run, level := .system, pc := 0x100, regs := [(1, 7), (2, 9)] } { State.reset with glb.mode := .service }

/-- What thread 0 holds after a command. -/
def thread0 (c : Instr) (s : State) : Option Thread := match exec c s with
  | .next u => some (u.thr 0)
  | _ => none

theorem test_sub_wraps : (thread0 (.sub 0 0 3 1 2) running).map (fun th => (th.reg 3, th.pc)) = some (0xFFFFFFFFFFFFFFFE, 0x104) := by decide
theorem test_m0_discards : (thread0 (.add 0 0 0 1 2) running).map (fun th => th.reg 0) = some 0 := by decide
theorem test_guard_false_skips : (thread0 (.add 0 1 3 1 2) running).map (fun th => (th.reg 3, th.pc)) = some (0, 0x104) := by decide
theorem test_div_by_zero : (thread0 (.div 0 0 3 1 0) running).map (fun th => th.reg 3) = some 0xFFFFFFFFFFFFFFFF := by decide
theorem test_source_is_destination : (thread0 (.shl 0 0 2 1 2) running).map (fun th => th.reg 2) = some 3584 := by decide

end Sys2Proof.Tests
end

