-- ==== Sys2Proof/Tests/Witness.lean ====
section
/-! SUPPORT. Witnesses: for each clause of each statement a state and operands that meet its hypotheses. -/

open Sys2Proof Sys2Proof.Machine

set_option maxRecDepth 20000

/-- The state an outcome goes on in. -/
def after (o : Host.Outcome State Fault Refusal) : State := match o with
  | .next u => u
  | _ => State.reset

/-- A signed image of one segment and one entry row, its key made for the test. -/
def testImage : List Byte := bytesOf (
  [65, 75, 90, 73, 1, 0, 0, 1, 240, 1, 0, 0, 1, 1, 1, 0, 3, 0, 0, 0, 0, 0, 0, 0, 170, 0, 0, 0, 0, 0, 0, 0, 0, 0, 0, 0, 0, 0, 0, 0, 0, 1, 0, 0, 24, 1, 0, 0, 0, 0, 0, 0, 0, 0, 0, 0, 128, 1, 0, 0, 0, 0] ++
  [0, 0, 0, 0, 0, 0, 0, 0, 0, 0, 0, 0, 0, 0, 0, 0, 0, 0, 0, 0, 0, 0, 0, 0, 0, 0, 0, 0, 0, 0, 0, 0, 0, 0, 0, 0, 0, 0, 0, 0, 0, 0, 0, 0, 0, 0, 0, 0, 0, 0, 0, 0, 0, 0, 0, 0, 0, 0, 0, 0, 0, 0] ++
  [0, 0, 0, 0, 0, 0, 0, 0, 0, 0, 0, 0, 0, 0, 0, 0, 0, 0, 0, 0, 0, 0, 0, 0, 0, 0, 0, 0, 0, 0, 0, 0, 0, 0, 0, 0, 0, 0, 0, 0, 0, 0, 0, 0, 0, 0, 0, 0, 0, 0, 0, 0, 0, 0, 0, 0, 0, 0, 0, 0, 0, 0] ++
  [0, 0, 0, 0, 0, 0, 0, 0, 0, 0, 0, 0, 0, 0, 0, 0, 0, 0, 0, 0, 0, 0, 0, 0, 0, 0, 0, 0, 0, 0, 0, 0, 0, 0, 0, 0, 0, 0, 0, 0, 0, 0, 0, 0, 0, 0, 0, 0, 0, 0, 0, 0, 0, 0, 0, 0, 0, 0, 0, 0, 0, 0] ++
  [0, 0, 0, 0, 132, 118, 184, 225, 3, 0, 0, 0, 0, 0, 0, 0, 0, 0, 0, 0, 8, 0, 0, 0, 1, 0, 0, 0, 0, 0, 0, 0, 0, 0, 0, 1, 2, 0, 0, 0, 170, 135, 202, 34, 190, 139, 5, 55, 142, 177, 199, 30, 243, 32, 173, 116, 110, 29, 59, 98, 139, 167] ++
  [155, 152, 89, 247, 65, 224, 130, 84, 42, 56, 85, 2, 242, 93, 191, 85, 41, 108, 58, 84, 94, 56, 114, 118, 10, 183, 54, 23, 222, 74, 150, 38, 44, 111, 93, 158, 152, 191, 146, 146, 220, 41, 248, 244, 29, 189, 40, 154, 20, 124, 233, 218, 49, 19, 181, 240, 184, 192, 10, 96, 177, 206] ++
  [29, 126, 129, 157, 122, 67, 29, 124, 144, 234, 14, 95, 1, 0, 0, 0, 85, 0, 0, 0, 8, 217, 153, 5, 123, 163, 210, 217, 105, 38, 0, 69, 197, 91, 151, 240, 137, 2, 89, 89, 166, 244, 52, 214, 81, 210, 7, 209, 159, 185, 110, 158, 79, 224, 232, 110, 190, 14, 100, 248, 91, 150] ++
  [169, 199, 82, 149, 223, 97, 133, 214, 173, 136, 241, 150, 205, 218, 80, 213, 127, 149, 154, 10, 200, 124, 151, 142, 203, 99, 133, 54, 5, 0, 124, 209, 85, 130, 169, 183, 27, 185, 215, 38, 152, 77, 63, 36, 194, 154, 14, 26, 26, 184, 244, 100, 34, 204, 0, 0, 0, 0, 0, 0, 0, 0])

/-- The symbols of a MINI frame of one codeword on every group, as a noiseless receiver measures them. -/
def lineSyms (mac : List Byte) : List LineSym :=
  let w := codedStream false mac
  (List.range 6).map fun n => { llr := (List.range 412).map fun k => if bitAt w (412 * n + k) then 255#8 else 1#8 }

theorem witness_StepRunsFront_1 : ∃ (c : Instr) (l : List Instr) (s : State),
    (s.pending = c :: l) :=
  ⟨Instr.refclkStable, [], { State.reset with pending := [Instr.refclkStable] }, by decide⟩

theorem witness_IdleStepIsACycle_1 : ∃ (s : State),
    (s.pending = []) ∧
    (s.coresRun = true) ∧
    (s.tmu.corr = 0) ∧
    (s.tmu.ns + (s.tmu.frac + (938249922368853 + s.tmu.adj).toNat) / 2 ^ 48 < 1000000000) ∧
    (0 ≤ 938249922368853 + s.tmu.adj) :=
  ⟨State.reset, by decide, by decide, by decide, by decide, by decide⟩

theorem witness_IdleStepIsACycle_2 : ∃ (s : State),
    (s.pending = []) ∧
    (s.glb.mode = .off ∨ s.glb.mode = .vigil ∨ s.stest.frozen = true) :=
  ⟨{ State.reset with glb.mode := .vigil }, by decide, by decide⟩

theorem witness_ResetRegisters_1 : ∃ (a v : Nat),
    ((a, v) ∈ [(0x0, 0x81000201), (0x8, 0x1), (0x10, 0x0), (0x20, 0x0), (0x28, 0x0), (0x2C, 0x0),
  (0x30, 0x0), (0x40, 0x0), (0x44, 0x0), (0x50, 0x7F), (0x58, 0x0), (0x5C, 0x0),
  (0x60, 0x0), (0x64, 0x0), (0x10010, 0x0), (0x10014, 0x0), (0x10020, 0x0), (0x10024, 0x0),
  (0x10028, 0x0), (0x1002C, 0x0), (0x10030, 0x0), (0x10034, 0x0), (0x10038, 0x0), (0x1003C, 0x0),
  (0x10040, 0x0), (0x10044, 0x0), (0x10048, 0x0), (0x1004C, 0x0), (0x10050, 0x0), (0x10054, 0x0),
  (0x10058, 0x0), (0x1005C, 0x0), (0x10060, 0x0), (0x10064, 0x0), (0x10068, 0x0), (0x1006C, 0x0),
  (0x10070, 0x0), (0x10074, 0x0), (0x10078, 0x0), (0x1007C, 0x0), (0x10080, 0x0), (0x10084, 0x0),
  (0x10090, 0x0), (0x10094, 0x0), (0x10098, 0x0), (0x1009C, 0x0), (0x100A0, 0x0), (0x100A4, 0x0),
  (0x100A8, 0x0), (0x18010, 0x0)]) :=
  ⟨0x0, 0x81000201, by decide⟩

theorem witness_ResetRegisters_2 : ∃ (a v : Nat),
    ((a, v) ∈ [(0x18014, 0x0), (0x18020, 0x0), (0x18024, 0x0), (0x18028, 0x0), (0x1802C, 0x0), (0x18030, 0x0),
  (0x18034, 0x0), (0x18038, 0x0), (0x1803C, 0x0), (0x18040, 0x0), (0x18044, 0x0), (0x18048, 0x0),
  (0x1804C, 0x0), (0x18050, 0x0), (0x18054, 0x0), (0x18058, 0x0), (0x1805C, 0x0), (0x18060, 0x0),
  (0x18064, 0x0), (0x18068, 0x0), (0x1806C, 0x0), (0x18070, 0x0), (0x18074, 0x0), (0x18078, 0x0),
  (0x1807C, 0x0), (0x18080, 0x0), (0x18084, 0x0), (0x18088, 0x0), (0x1808C, 0x0), (0x18090, 0x0),
  (0x18094, 0x0), (0x18098, 0x0), (0x1809C, 0x0), (0x180A0, 0x0), (0x180A4, 0x0), (0x180B0, 0x0),
  (0x20000, 0x0), (0x20004, 0x0), (0x20008, 0x0), (0x20010, 0x0), (0x20014, 0x0), (0x20018, 0x0),
  (0x2001C, 0x0), (0x20020, 0x0), (0x20024, 0x0), (0x20028, 0x0), (0x20030, 0x0), (0x20034, 0x0),
  (0x20040, 0x0), (0x20048, 0x0)]) :=
  ⟨0x18014, 0x0, by decide⟩

theorem witness_ResetRegisters_3 : ∃ (a v : Nat),
    ((a, v) ∈ [(0x2004C, 0x0), (0x20050, 0x0), (0x20058, 0x0), (0x2005C, 0x0), (0x28000, 0x0), (0x28008, 0x0),
  (0x2800C, 0x0), (0x28010, 0x0), (0x28014, 0x0), (0x28018, 0x0), (0x28020, 0x0), (0x28024, 0x0),
  (0x28028, 0x0), (0x2802C, 0x0), (0x28030, 0x0), (0x28034, 0x0), (0x28038, 0x0), (0x28040, 0x0),
  (0x28044, 0x0), (0x2C000, 0x0), (0x2C004, 0x0), (0x2C008, 0x0), (0x2C00C, 0x0), (0x2C010, 0x0),
  (0x2C014, 0x0), (0x2C020, 0x0), (0x2C024, 0x0), (0x2C028, 0x0), (0x2C030, 0x0), (0x30000, 0x0),
  (0x30004, 0x0), (0x30008, 0x0), (0x3000C, 0x0), (0x30010, 0x0), (0x30014, 0x0), (0x30018, 0x0),
  (0x3001C, 0x0), (0x30020, 0x0), (0x30030, 0x0), (0x30034, 0x0), (0x30038, 0x0), (0x30040, 0x0),
  (0x30044, 0x0), (0x30050, 0x0), (0x50004, 0x0), (0x50010, 0x0), (0x50018, 0x0), (0x5001C, 0x0),
  (0x50020, 0x0), (0x50024, 0x0)]) :=
  ⟨0x2004C, 0x0, by decide⟩

theorem witness_ResetRegisters_4 : ∃ (a v : Nat),
    ((a, v) ∈ [(0x50030, 0x0), (0x50034, 0x0), (0x50038, 0x0), (0x8000, 0x0), (0x8008, 0x0), (0x8010, 0x0),
  (0x8014, 0x0), (0x8018, 0x0), (0x801C, 0x0), (0x8020, 0x0), (0x8024, 0x0), (0x8030, 0x0),
  (0x8034, 0x0), (0x8038, 0x0), (0x803C, 0x0), (0x8040, 0x0), (0x8044, 0x0), (0x8048, 0x0),
  (0x38000, 0x0), (0x38004, 0x0), (0x38008, 0x0), (0x38010, 0x0), (0x38014, 0x0), (0x38018, 0x0),
  (0x3801C, 0x0), (0x38020, 0x0), (0x38030, 0x0), (0x38034, 0x0), (0x38038, 0x0), (0x38040, 0x0),
  (0x3C000, 0x300), (0x3C008, 0x0), (0x3C00C, 0x0), (0x3C010, 0x0), (0x3C014, 0x0), (0x3C018, 0x0),
  (0x3C01C, 0x0), (0x3C020, 0x0), (0x3C024, 0x0), (0x3C030, 0x0), (0x3C034, 0x0), (0x3C038, 0x0),
  (0x40000, 0x0), (0x40004, 0x0), (0x40008, 0x0), (0x40010, 0x0), (0x40014, 0x0), (0x40030, 0x0),
  (0x40034, 0x0), (0x40038, 0x0)]) :=
  ⟨0x50030, 0x0, by decide⟩

theorem witness_ResetRegisters_5 : ∃ (a v : Nat),
    ((a, v) ∈ [(0x48000, 0x80010000), (0x48020, 0x0), (0x48024, 0x0), (0x48028, 0x0), (0x4802C, 0x0), (0x48030, 0x0),
  (0x48034, 0x0), (0x48038, 0x0), (0x48040, 0x0), (0x48044, 0x0), (0x48048, 0x0), (0x4804C, 0x0),
  (0x4000, 0xE), (0x4004, 0xA0A), (0x4010, 0x0), (0x4014, 0x0), (0x401C, 0x0), (0x4030, 0x0),
  (0x4034, 0x0), (0x4038, 0x0), (0x5C004, 0x0), (0x5C010, 0x0), (0x5C014, 0x0), (0x5C020, 0x0),
  (0x5C024, 0x0), (0x5C030, 0x0), (0x5C034, 0x0), (0x5C038, 0x0), (0x5C040, 0x0), (0x5C044, 0x0),
  (0x5C048, 0x0), (0x58000, 0x0), (0x58008, 0x0), (0x5800C, 0x0), (0x58010, 0x0), (0x58014, 0x0),
  (0x58018, 0x0), (0x5801C, 0x0), (0x58020, 0x7F), (0x58024, 0x0), (0x58030, 0x0), (0x58034, 0x0),
  (0x58038, 0x0), (0x58040, 0x0), (0x4040, 0x0), (0x4044, 0x0), (0x4048, 0x0), (0x4050, 0x0)]) :=
  ⟨0x48000, 0x80010000, by decide⟩

theorem witness_StepsKeepMemoriesCanonical_1 : ∃ (s u : State),
    (s.memoryWf = true) ∧
    (step s = .next u) :=
  ⟨State.reset, tick State.reset, by decide, rfl⟩

theorem witness_OtpBitsAreNeverCleared_1 : ∃ (s u : State) (a i : Nat),
    (step s = .next u) ∧
    (s.otpBit a i = true) :=
  ⟨{ State.reset with otp := [(5, 1#8)] }, tick { State.reset with otp := [(5, 1#8)] }, 5, 0, rfl, by decide⟩

theorem witness_CommandsLeaveTheQueue_1 : ∃ (c : Instr) (s u : State),
    (exec c s = .next u) :=
  ⟨Instr.bypass, State.reset, after (exec .bypass State.reset), rfl⟩

theorem witness_AluResults_1 : ∃ (s : State) (t : Fin 256) (pi : Fin 8) (rd ra rb : Fin 32),
    (s.issuesAt t pi = true) :=
  ⟨State.reset, 0, 0, 1, 2, 3, by decide⟩

theorem witness_ImmediateAndMoveResults_1 : ∃ (s : State) (t : Fin 256) (pi : Fin 8) (rd ra : Fin 32) (imm : BitVec 13) (n : BitVec 6) (hw : Fin 4) (q : BitVec 16),
    (s.issuesAt t pi = true) :=
  ⟨State.reset, 0, 0, 1, 2, 0x1FFF, 63, 3, 0xFFFF, by decide⟩

theorem witness_CompareAndPredicateResults_1 : ∃ (s : State) (t : Fin 256) (pi : Fin 8) (pd pa pb : Fin 8) (cm : Fin 6) (ra rb rd : Fin 32) (cond : Fin 7) (imm : BitVec 9) (op : Fin 4),
    (s.issuesAt t pi = true) :=
  ⟨State.reset, 0, 0, 1, 0, 7, 5, 1, 2, 3, 6, 0x1FF, 3, by decide⟩

theorem witness_LocalLoads_1 : ∃ (s : State) (t : Fin 256) (pi : Fin 8) (rd ra : Fin 32) (imm : BitVec 13) (k : Nat),
    (s.issuesAt t pi = true) ∧
    (((s.thr t).reg ra + imm.signExtend 64).toNat % 1 = 0) ∧
    ((s.thr t).place t ((s.thr t).reg ra + imm.signExtend 64).toNat 1 = some (.dmem k)) ∧
    (s.poisoned (.dmem k) 1 = false) ∧
    (s.steady (.dmem k) 1 = true) :=
  ⟨State.reset, 0, 0, 1, 0, 8, 8, by decide, by decide, by decide, by decide, by decide⟩

theorem witness_LocalLoads_2 : ∃ (s : State) (t : Fin 256) (pi : Fin 8) (rd ra : Fin 32) (imm : BitVec 13) (k : Nat),
    (s.issuesAt t pi = true) ∧
    (((s.thr t).reg ra + imm.signExtend 64).toNat % 2 = 0) ∧
    ((s.thr t).place t ((s.thr t).reg ra + imm.signExtend 64).toNat 2 = some (.dmem k)) ∧
    (s.poisoned (.dmem k) 2 = false) ∧
    (s.steady (.dmem k) 2 = true) :=
  ⟨State.reset, 0, 0, 1, 0, 8, 8, by decide, by decide, by decide, by decide, by decide⟩

theorem witness_LocalLoads_3 : ∃ (s : State) (t : Fin 256) (pi : Fin 8) (rd ra : Fin 32) (imm : BitVec 13) (k : Nat),
    (s.issuesAt t pi = true) ∧
    (((s.thr t).reg ra + imm.signExtend 64).toNat % 4 = 0) ∧
    ((s.thr t).place t ((s.thr t).reg ra + imm.signExtend 64).toNat 4 = some (.dmem k)) ∧
    (s.poisoned (.dmem k) 4 = false) ∧
    (s.steady (.dmem k) 4 = true) :=
  ⟨State.reset, 0, 0, 1, 0, 8, 8, by decide, by decide, by decide, by decide, by decide⟩

theorem witness_LocalLoads_4 : ∃ (s : State) (t : Fin 256) (pi : Fin 8) (rd ra : Fin 32) (imm : BitVec 13) (k : Nat),
    (s.issuesAt t pi = true) ∧
    (((s.thr t).reg ra + imm.signExtend 64).toNat % 8 = 0) ∧
    ((s.thr t).place t ((s.thr t).reg ra + imm.signExtend 64).toNat 8 = some (.dmem k)) ∧
    (s.poisoned (.dmem k) 8 = false) ∧
    (s.steady (.dmem k) 8 = true) :=
  ⟨State.reset, 0, 0, 1, 0, 8, 8, by decide, by decide, by decide, by decide, by decide⟩

theorem witness_LocalStores_1 : ∃ (s : State) (t : Fin 256) (pi : Fin 8) (rs ra : Fin 32) (imm : BitVec 13) (k : Nat),
    (s.issuesAt t pi = true) ∧
    (((s.thr t).reg ra + imm.signExtend 64).toNat % 1 = 0) ∧
    ((s.thr t).place t ((s.thr t).reg ra + imm.signExtend 64).toNat 1 = some (.dmem k)) :=
  ⟨State.reset, 0, 0, 1, 0, 16, 16, by decide, by decide, by decide⟩

theorem witness_LocalStores_2 : ∃ (s : State) (t : Fin 256) (pi : Fin 8) (rs ra : Fin 32) (imm : BitVec 13) (k : Nat),
    (s.issuesAt t pi = true) ∧
    (((s.thr t).reg ra + imm.signExtend 64).toNat % 2 = 0) ∧
    ((s.thr t).place t ((s.thr t).reg ra + imm.signExtend 64).toNat 2 = some (.dmem k)) :=
  ⟨State.reset, 0, 0, 1, 0, 16, 16, by decide, by decide, by decide⟩

theorem witness_LocalStores_3 : ∃ (s : State) (t : Fin 256) (pi : Fin 8) (rs ra : Fin 32) (imm : BitVec 13) (k : Nat),
    (s.issuesAt t pi = true) ∧
    (((s.thr t).reg ra + imm.signExtend 64).toNat % 4 = 0) ∧
    ((s.thr t).place t ((s.thr t).reg ra + imm.signExtend 64).toNat 4 = some (.dmem k)) :=
  ⟨State.reset, 0, 0, 1, 0, 16, 16, by decide, by decide, by decide⟩

theorem witness_LocalStores_4 : ∃ (s : State) (t : Fin 256) (pi : Fin 8) (rs ra : Fin 32) (imm : BitVec 13) (k : Nat),
    (s.issuesAt t pi = true) ∧
    (((s.thr t).reg ra + imm.signExtend 64).toNat % 8 = 0) ∧
    ((s.thr t).place t ((s.thr t).reg ra + imm.signExtend 64).toNat 8 = some (.dmem k)) :=
  ⟨State.reset, 0, 0, 1, 0, 16, 16, by decide, by decide, by decide⟩

theorem witness_LocalAmos_1 : ∃ (s : State) (t : Fin 256) (pi : Fin 8) (rd ra rb : Fin 32) (k : Nat),
    (s.issuesAt t pi = true) ∧
    (((s.thr t).reg ra).toNat % 8 = 0) ∧
    ((s.thr t).place t ((s.thr t).reg ra).toNat 8 = some (.dmem k)) ∧
    (s.poisoned (.dmem k) 8 = false) ∧
    (s.steady (.dmem k) 8 = true) :=
  ⟨State.reset, 0, 0, 1, 0, 2, 0, by decide, by decide, by decide, by decide, by decide⟩

theorem witness_FarAccesses_1 : ∃ (s : State) (t : Fin 256) (pi : Fin 8) (rd ra : Fin 32) (imm : BitVec 13) (o i z : Nat) (sx : Bool),
    (s.issuesAt t pi = true) ∧
    ((z = 1 ∨ z = 2 ∨ z = 4) ∨ (z = 8 ∧ sx = false)) ∧
    (((s.thr t).reg ra + imm.signExtend 64).toNat % z = 0) ∧
    ((s.thr t).place t ((s.thr t).reg ra + imm.signExtend 64).toNat z = some (.shared o)) ∧
    ((s.thr t).pick = some i) :=
  ⟨{ State.reset with mcc.threads := [(0, { st := .run, level := .rom, base := .rom, regs := [(3, 0x10000040#64)] })] }, 0, 0, 5, 3, 0, 0x40, 0, 4, true, by decide, by decide, by decide, by decide, by decide⟩

theorem witness_FarAccesses_2 : ∃ (s : State) (t : Fin 256) (slot : Fin 16) (rd addr z : Nat) (sx : Bool),
    ((s.thr t).st = .stall (.farLoad slot rd)) ∧
    (((s.thr t).slot slot).pend = some (.farLoad addr z sx)) ∧
    (s.coresRun = true) ∧
    (s.poisoned (.shared (addr - 0x10000000)) z = false) ∧
    (s.steady (.shared (addr - 0x10000000)) z = true) ∧
    ((s.thr t).exiting = false) ∧
    ((s.thr t).stopAsked = false) :=
  ⟨{ State.reset with mcc.threads := [(0, { st := .stall (.farLoad 0 5), level := .rom, base := .rom, slots := [(0, { pend := some (.farLoad 0x10000040 4 true) })] })] }, 0, 0, 5, 0x10000040, 4, true, by decide, by decide, by decide, by decide, by decide, by decide, by decide⟩

theorem witness_FarAccesses_3 : ∃ (s : State) (t : Fin 256) (pi : Fin 8) (rs ra : Fin 32) (imm : BitVec 13) (o i z : Nat),
    (s.issuesAt t pi = true) ∧
    (z = 1 ∨ z = 2 ∨ z = 4 ∨ z = 8) ∧
    (((s.thr t).reg ra + imm.signExtend 64).toNat % z = 0) ∧
    ((s.thr t).place t ((s.thr t).reg ra + imm.signExtend 64).toNat z = some (.shared o)) ∧
    ((s.thr t).pick = some i) :=
  ⟨{ State.reset with mcc.threads := [(0, { st := .run, level := .rom, base := .rom, regs := [(3, 0x10000040#64)] })] }, 0, 0, 5, 3, 0, 0x40, 0, 4, by decide, by decide, by decide, by decide, by decide⟩

theorem witness_FarAccesses_4 : ∃ (s : State) (t : Fin 256) (slot : Fin 16),
    (s.coresRun = true) ∧
    (((s.thr t).slot slot).pend = some .farStore) ∧
    ((s.thr t).st = .run) ∧
    ((s.thr t).exiting = false) ∧
    ((s.thr t).stopAsked = false) :=
  ⟨{ State.reset with mcc.threads := [(0, { st := .run, level := .rom, base := .rom, slots := [(2, { pend := some .farStore })] })] }, 0, 2, by decide, by decide, by decide, by decide, by decide⟩

theorem witness_FarAccesses_5 : ∃ (s : State) (t : Fin 256) (pi : Fin 8),
    (s.issuesAt t pi = true) :=
  ⟨State.reset, 0, 0, by decide⟩

theorem witness_JumpInstructions_1 : ∃ (s : State) (t : Fin 256) (pi : Fin 8) (disp : BitVec 23),
    (s.issuesAt t pi = true) ∧
    ((s.thr t).level.mayFetch ((s.thr t).pc + disp.signExtend 64 <<< 2).toNat = true) :=
  ⟨State.reset, 0, 0, 1, by decide, by decide⟩

theorem witness_JumpInstructions_2 : ∃ (s : State) (t : Fin 256) (pi : Fin 8) (rd ra : Fin 32),
    (s.issuesAt t pi = true) ∧
    ((s.thr t).level.mayFetch ((s.thr t).reg ra).toNat = true) :=
  ⟨State.reset, 0, 0, 1, 0, by decide, by decide⟩

theorem witness_SlotInstructions_1 : ∃ (s : State) (t : Fin 256) (pi : Fin 8) (rd ra : Fin 32),
    (s.issuesAt t pi = true) :=
  ⟨State.reset, 0, 0, 1, 2, by decide⟩

theorem witness_SlotInstructions_2 : ∃ (s : State) (t : Fin 256) (slot : Fin 16) (fn blk status : Nat) (out : List (Nat × List Byte)),
    (((s.thr t).slot slot).pend = some (.call fn blk out status none)) ∧
    ((s.thr t).st = .run) ∧
    ((s.thr t).exiting = false) ∧
    ((s.thr t).stopAsked = false) ∧
    (fn ≠ 0x76) ∧
    (s.woad.queued.find (t * 16 + slot) = none) ∧
    (s.coresRun = true) :=
  ⟨{ State.reset with mcc.threads := [(0, { st := .run, slots := [(3, { pend := some (.call 1 64 [(8, [1#8])] 0 none) })] })] }, 0, 3, 1, 64, 0, [(8, [1#8])], by decide, by decide, by decide, by decide, by decide, by decide, by decide⟩

theorem witness_ThreadEvents_1 : ∃ (s : State) (src : Fin 10) (t : Fin 256) (ev : Ev) (l : List Ev) (v : Nat),
    (s.glb.mode ≠ .standby) ∧
    (2 ≤ src.val ∧ src.val ≠ 4) ∧
    (s.mcc.queues.get [] (evKey src t) = ev :: l) ∧
    (s.taker src (if src.val = 8 ∨ src.val = 9 then some t.val else none) none = some v) :=
  ⟨{ State.reset with mcc.threads := [(0, { st := .wait, evmask := 0x3FF })], mcc.queues := [(7, [{ seq := 0, ref := 0xFFFF, body := [1#8] }])] }, 7, 0, { seq := 0, ref := 0xFFFF, body := [1#8] }, [], 0, by decide, by decide, by decide, by decide⟩

theorem witness_ThreadEvents_2 : ∃ (s : State) (t : Fin 256) (pi : Fin 8) (ra : Fin 32),
    (s.issuesAt t pi = true) ∧
    (s.mcc.queues.get [] (evKey 9 (((s.thr t).reg ra).toNat % 256)) = []) :=
  ⟨State.reset, 0, 0, 1, by decide, by decide⟩

theorem witness_ThreadEvents_3 : ∃ (s : State) (t : Fin 256),
    (s.coresRun = true) ∧
    ((s.thr t).timer ≠ 0) ∧
    ((s.thr t).timerFired = false) ∧
    ((s.thr t).timer.toNat ≤ s.mcc.cycle.toNat) ∧
    (s.mcc.queues.get [] (evKey 8 t) = []) :=
  ⟨{ State.reset with mcc.threads := [(0, { timer := 1 })], mcc.cycle := 1 }, 0, by decide, by decide, by decide, by decide, by decide⟩

theorem witness_ThreadEvents_4 : ∃ (s : State) (t : Fin 256),
    (s.coresRun = true) ∧
    ((s.thr t).st = .run) ∧
    ((s.thr t).level = .system ∨ (s.thr t).level = .task) ∧
    ((s.thr t).exc = false) ∧
    ((s.thr t).wdog ≠ 0) ∧
    (1024 * (s.thr t).wdog.toNat ≤ (s.mcc.cycle - (s.thr t).wdogAt).toNat) :=
  ⟨{ State.reset with mcc.threads := [(0, { st := .run, level := .system, wdog := 1 })], mcc.cycle := 1024 }, 0, by decide, by decide, by decide, by decide, by decide, by decide⟩

theorem witness_LegalCalls_1 : ∃ (s : State) (t : Fin 256) (pi : Fin 8) (gate : Fin 64),
    (s.issuesAt t pi = true) ∧
    ((s.thr t).level ≠ .legal) ∧
    (s.mcc.legal = 1) ∧
    (bitAt (s.imemWord (coreOf t) (0xE000 + 4 * gate)) 31 = true) :=
  ⟨{ State.reset with mcc.threads := [(0, { st := .run, level := .system })], mcc.legal := 1, mcc.imem := [(0xE003, 0x80#8)] }, 0, 0, 0, by decide, by decide, by decide, by decide⟩

theorem witness_LegalCalls_2 : ∃ (s : State) (t : Fin 256) (pi : Fin 8) (gate : Fin 64),
    (s.issuesAt t pi = true) ∧
    ((s.thr t).level ≠ .legal) ∧
    (s.mcc.legal ≠ 1) :=
  ⟨State.reset, 0, 0, 5, by decide, by decide, by decide⟩

theorem witness_LegalCalls_3 : ∃ (s : State) (t : Fin 256) (pi : Fin 8) (sh : Shadow),
    (s.issuesAt t pi = true) ∧
    ((s.thr t).level = .legal) ∧
    ((s.thr t).shadow = some sh) ∧
    (sh.level ≠ .legal) ∧
    ((s.thr t).regs.wf = true ∧ sh.regs.wf = true) ∧
    (sh.regs.all (fun e => decide (9 ≤ e.1)) = true) :=
  ⟨{ State.reset with mcc.threads := [(0, { st := .run, level := .legal, pc := 0xE000, shadow := some { regs := [(9, 1#64)], ret := 8 } })] }, 0, 0, { regs := [(9, 1#64)], ret := 8 }, by decide, by decide, by decide, by decide, by decide, by decide⟩

theorem witness_LegalCalls_4 : ∃ (s : State) (t : Fin 256) (sh : Shadow),
    ((s.thr t).level = .legal) ∧
    ((s.thr t).shadow = some sh) ∧
    (2 ^ 20 ≤ (s.mcc.cycle - sh.started).toNat) ∧
    (s.coresRun = true) ∧
    ((s.thr t).exiting = false) ∧
    ((s.thr t).stopAsked = false) :=
  ⟨{ State.reset with mcc.threads := [(0, { st := .run, level := .legal, shadow := some {} })], mcc.cycle := 0x100000 }, 0, {}, by decide, by decide, by decide, by decide, by decide, by decide⟩

theorem witness_SystemInstructions_1 : ∃ (s : State) (t : Fin 256) (pi : Fin 8),
    (s.issuesAt t pi = true) :=
  ⟨State.reset, 0, 0, by decide⟩

theorem witness_SystemInstructions_2 : ∃ (s : State) (t : Fin 256) (pi : Fin 8),
    (s.issuesAt t pi = true) ∧
    ((s.thr t).busy = false) ∧
    ((s.thr t).tookRef = none) :=
  ⟨State.reset, 0, 0, by decide, by decide, by decide⟩

theorem witness_SystemInstructions_3 : ∃ (s : State) (t : Fin 256) (pi : Fin 8) (ra : Fin 32),
    (s.issuesAt t pi = true) ∧
    ((s.thr t).exc = false) ∧
    ((s.thr t).level ≠ .legal) :=
  ⟨State.reset, 0, 0, 3, by decide, by decide, by decide⟩

theorem witness_SystemInstructions_4 : ∃ (s : State) (t : Fin 256) (pi : Fin 8) (rd ra : Fin 32),
    (s.issuesAt t pi = true) ∧
    ((s.thr t).level = .system) ∧
    ((s.thr t).exc = true) :=
  ⟨{ State.reset with mcc.threads := [(0, { st := .run, level := .system, exc := true, epc := 12 })] }, 0, 0, 0, 0, by decide, by decide, by decide⟩

theorem witness_SystemInstructions_5 : ∃ (s : State) (t : Fin 256) (pi : Fin 8) (rd : Fin 32) (csr : BitVec 13) (w : Bool),
    (s.issuesAt t pi = true) ∧
    (csrAccess (s.thr t).level csr.toNat = some (true, w)) :=
  ⟨State.reset, 0, 0, 1, 2, false, by decide, by decide⟩

theorem witness_SystemInstructions_6 : ∃ (s : State) (t : Fin 256) (pi : Fin 8) (ra : Fin 32) (csr : BitVec 13) (r : Bool),
    (s.issuesAt t pi = true) ∧
    (csrAccess (s.thr t).level csr.toNat = some (r, true)) :=
  ⟨State.reset, 0, 0, 1, 0x10, true, by decide, by decide⟩

theorem witness_CsrExceptions_1 : ∃ (s : State) (t : Fin 256) (pi : Fin 8) (r : Fin 32) (csr : BitVec 13),
    (s.issuesAt t pi = true) ∧
    ((s.thr t).exc = false) ∧
    ((s.thr t).level ≠ .legal) ∧
    (csrAccess (s.thr t).level csr.toNat = none) :=
  ⟨State.reset, 0, 0, 1, 0x40, by decide, by decide, by decide, by decide⟩

theorem witness_CsrExceptions_2 : ∃ (s : State) (t : Fin 256) (pi : Fin 8) (r : Fin 32) (csr : BitVec 13) (b : Bool),
    (s.issuesAt t pi = true) ∧
    ((s.thr t).exc = false) ∧
    ((s.thr t).level ≠ .legal) ∧
    (csrAccess (s.thr t).level csr.toNat = some (false, b)) :=
  ⟨{ State.reset with mcc.threads := [(0, { st := .run, level := .task })] }, 0, 0, 1, 0x10, false, by decide, by decide, by decide, by decide⟩

theorem witness_CsrExceptions_3 : ∃ (s : State) (t : Fin 256) (pi : Fin 8) (r : Fin 32) (csr : BitVec 13) (b : Bool),
    (s.issuesAt t pi = true) ∧
    ((s.thr t).exc = false) ∧
    ((s.thr t).level ≠ .legal) ∧
    (csrAccess (s.thr t).level csr.toNat = some (b, false)) :=
  ⟨State.reset, 0, 0, 1, 2, true, by decide, by decide, by decide, by decide⟩

theorem witness_ReservedAndNestedExceptions_1 : ∃ (s : State) (t : Fin 256) (w : BitVec 32),
    (s.fetches t = true) ∧
    (reservedWord w.toNat = true) ∧
    ((s.thr t).exc = false) ∧
    ((s.thr t).level ≠ .legal) :=
  ⟨State.reset, 0, 0x05800000, by decide, by decide, by decide, by decide⟩

theorem witness_ReservedAndNestedExceptions_2 : ∃ (s : State) (t : Fin 256) (pi : Fin 8) (ra : Fin 32),
    (s.issuesAt t pi = true) ∧
    ((s.thr t).exc = true) ∧
    ((s.thr t).level ≠ .legal) ∧
    ((s.thr t).tookRef = none) ∧
    (s.hp.nq.en = false) ∧
    (s.hp.nq.waiting = []) ∧
    (s.hp.eth = []) :=
  ⟨{ State.reset with mcc.threads := [(0, { st := .run, level := .system, exc := true })] }, 0, 0, 0, by decide, by decide, by decide, by decide, by decide, by decide, by decide⟩

theorem witness_CoreCalls_1 : ∃ (s : State) (t : Fin 256) (pi : Fin 8) (rt ra : Fin 32) (p : Place) (i : Nat) (e : Entry),
    (s.callsAt t pi ra 0xE0 16 p i = true) ∧
    (field (s.load p 16) 0 1 < 64 ∧ field (s.load p 16) 1 1 < 4 ∧ zeros (s.load p 16) 4 4 = true) ∧
    ((s.thr (4 * field (s.load p 16) 0 1 + field (s.load p 16) 1 1)).st = .idle) ∧
    (4 * field (s.load p 16) 0 1 + field (s.load p 16) 1 1 ≠ t) ∧
    (s.entryOf (field (s.load p 16) 2 2) = some e) :=
  ⟨{ State.reset with mcc.dmem := [(1, 1#8), (2, 5#8)], mcc.image := some { role := 1, secver := 0, build := [], legdig := [], entries := [{ eno := 5, addr := 64, level := .task, src := 0xFF }] } }, 0, 0, 1, 0, .dmem 0, 0, { eno := 5, addr := 64, level := .task, src := 0xFF }, by decide, by decide, by decide, by decide, by decide⟩

theorem witness_CoreCalls_2 : ∃ (s : State) (t : Fin 256) (pi : Fin 8) (rt ra : Fin 32) (p : Place) (i : Nat),
    (s.callsAt t pi ra 0xE1 8 p i = true) ∧
    (field (s.load p 8) 0 1 < 64 ∧ field (s.load p 8) 1 1 < 4 ∧ zeros (s.load p 8) 2 6 = true) ∧
    (4 * field (s.load p 8) 0 1 + field (s.load p 8) 1 1 ≠ t) ∧
    ((s.thr (4 * field (s.load p 8) 0 1 + field (s.load p 8) 1 1)).st = .run ∧ (s.thr (4 * field (s.load p 8) 0 1 + field (s.load p 8) 1 1)).level ≠ .legal) ∧
    ((s.thr (4 * field (s.load p 8) 0 1 + field (s.load p 8) 1 1)).busy = false) :=
  ⟨{ State.reset with mcc.threads := [(0, { st := .run, level := .rom, base := .rom }), (1, { st := .run })], mcc.dmem := [(1, 1#8)] }, 0, 0, 1, 0, .dmem 0, 0, by decide, by decide, by decide, by decide, by decide⟩

theorem witness_CoreCalls_3 : ∃ (s : State) (t : Fin 256) (pi : Fin 8) (rt ra : Fin 32) (p : Place) (i : Nat) (q r : Place),
    (s.callsAt t pi ra 0xE2 24 p i = true) ∧
    (field (s.load p 24) 16 4 % 8 = 0 ∧ field (s.load p 24) 16 4 ≤ 65536 ∧ zeros (s.load p 24) 20 4 = true) ∧
    ((s.thr t).bufPlace t (field (s.load p 24) 0 8) (field (s.load p 24) 16 4) = some q) ∧
    ((s.thr t).bufPlace t (field (s.load p 24) 8 8) (field (s.load p 24) 16 4) = some r) ∧
    (s.poisoned q (field (s.load p 24) 16 4) = false) :=
  ⟨{ State.reset with mcc.dmem := [(9, 1#8), (16, 8#8)] }, 0, 0, 1, 0, .dmem 0, 0, .dmem 0, .dmem 256, by decide, by decide, by decide, by decide, by decide⟩

theorem witness_CoreCalls_4 : ∃ (s : State) (t : Fin 256) (pi : Fin 8) (rt ra : Fin 32) (fn : BitVec 8) (p : Place) (i : Nat),
    (fnAssigned fn.toNat = false) ∧
    (s.issuesAt t pi = true) ∧
    ((s.thr t).storesOut = false) ∧
    (((s.thr t).reg ra).toNat % 8 = 0) ∧
    (((s.thr t).reg ra).toNat < 0x10000) ∧
    ((s.thr t).place t ((s.thr t).reg ra).toNat 0 = some p) ∧
    ((s.thr t).pick = some i) :=
  ⟨State.reset, 0, 0, 1, 0, 0, .dmem 0, 0, by decide, by decide, by decide, by decide, by decide, by decide, by decide⟩

theorem witness_CallsNotPermitted_1 : ∃ (s : State) (t : Fin 256) (pi : Fin 8) (rt ra : Fin 32) (fn len : Nat) (eng : Nat → List Byte → State → EngOut) (p : Place) (i : Nat),
    (s.issuesAt t pi = true) ∧
    ((s.thr t).storesOut = false) ∧
    (((s.thr t).reg ra).toNat % 8 = 0) ∧
    (((s.thr t).reg ra).toNat < 0x10000) ∧
    ((s.thr t).place t ((s.thr t).reg ra).toNat len = some p) ∧
    ((s.thr t).pick = some i) ∧
    (fn < 256) ∧
    ((s.thr t).permits fn = false) :=
  ⟨{ State.reset with mcc.threads := [(0, { st := .run, level := .task })] }, 0, 0, 1, 0, 1, 64, engMccStart, .dmem 0, 0, by decide, by decide, by decide, by decide, by decide, by decide, by decide, by decide⟩

theorem witness_CallsNotPermitted_2 : ∃ (th : Thread) (fn : Nat),
    (fn < 256) :=
  ⟨{}, 255, by decide⟩

theorem witness_ClockAndFabric_1 : ∃ (s : State) (unlock : Bool),
    (s.powered = true) ∧
    (s.glb.clkSrc = false) ∧
    (s.cas.paired = false) :=
  ⟨State.reset, false, by decide, by decide, by decide⟩

theorem witness_ClockAndFabric_2 : ∃ (s : State),
    (s.glb.clkSrc = true) ∧
    (s.powered = true) ∧
    (s.glb.clkLostAt + 10000000 ≤ s.nowNs) :=
  ⟨{ State.reset with glb.clkSrc := true, tmu.sec := 5 }, by decide, by decide, by decide⟩

theorem witness_ClockAndFabric_3 : ∃ (s : State),
    (s.glb.clkSrc = true) ∧
    (s.powered = true) ∧
    (s.nowNs < s.glb.clkLostAt + 10000000) :=
  ⟨{ State.reset with glb.clkSrc := true }, by decide, by decide, by decide⟩

theorem witness_ClockAndFabric_4 : ∃ (s : State),
    (s.glb.clkSrc = true) ∧
    (s.powered = true) ∧
    (s.glb.relocking = true) :=
  ⟨{ State.reset with glb.clkSrc := true, glb.relocking := true }, by decide, by decide, by decide⟩

theorem witness_ClockAndFabric_5 : ∃ (s : State) (link : Fin 76) (body : BitVec 282) (err : BitVec 320) (late : Bool) (x : BitVec 320 × FabLink),
    (s.coresRun = true) ∧
    ((s.glb.links.get {} link).st ≠ .failed) ∧
    ((s.glb.links.get {} link).send body late = x) ∧
    (flitGood (x.1 ^^^ err) = true) ∧
    (flitDst (x.1 ^^^ err) < 24) ∧
    (flitSeq (x.1 ^^^ err) = x.2.expSeq) :=
  ⟨State.reset, 3, 5, 0, false, (FabLink.send {} 5 false), by decide, by decide, by decide, by decide, by decide, by decide⟩

theorem witness_ClockAndFabric_6 : ∃ (s : State) (link : Fin 76) (body : BitVec 282) (err : BitVec 320) (late : Bool) (x : BitVec 320 × FabLink),
    (s.coresRun = true) ∧
    ((s.glb.links.get {} link).st ≠ .failed) ∧
    ((s.glb.links.get {} link).send body late = x) ∧
    (¬ (flitGood (x.1 ^^^ err) = true ∧ flitDst (x.1 ^^^ err) < 24)) ∧
    (x.2.retries < 16) ∧
    (x.2.st = .up) :=
  ⟨State.reset, 3, 5, 1, false, (FabLink.send {} 5 false), by decide, by decide, by decide, by decide, by decide, by decide⟩

theorem witness_ClockAndFabric_7 : ∃ (s : State) (link : Fin 76) (body : BitVec 282) (err : BitVec 320) (late : Bool) (x : BitVec 320 × FabLink),
    (s.coresRun = true) ∧
    ((s.glb.links.get {} link).st ≠ .failed) ∧
    ((s.glb.links.get {} link).send body late = x) ∧
    (¬ (flitGood (x.1 ^^^ err) = true ∧ flitDst (x.1 ^^^ err) < 24)) ∧
    (16 ≤ x.2.retries) ∧
    (x.2.st = .retrying) ∧
    (late = false) ∧
    (s.cas.paired = false) :=
  ⟨{ State.reset with glb.links := [(3, { st := .retrying, retries := 16 })] }, 3, 5, 1, false, (FabLink.send { st := .retrying, retries := 16 } 5 false), by decide, by decide, by decide, by decide, by decide, by decide, by decide, by decide⟩

theorem witness_RegisterWrites_1 : ∃ (s : State) (a m : Nat) (v : BitVec 32),
    (s.barRuns = true) ∧
    ((a, m) ∈ [(0x20, 0x7F), (0x4030, 0xF), (0x10010, 0xFF), (0x100A0, 0x3F), (0x18010, 0x3), (0x20010, 0x1FF), (0x20014, 0x3F), (0x20020, 0x37), (0x28030, 0xF), (0x2C020, 0xF), (0x30030, 0x1F), (0x30040, 0xFF), (0x38010, 0x3F), (0x38030, 0x1F), (0x3C030, 0xF), (0x40030, 0x1F), (0x44030, 0x1F), (0x48030, 0x7F), (0x50010, 0xFF), (0x50030, 0x1F), (0x58030, 0xF), (0x58040, 0xFF), (0x8008, 0xF), (0x8040, 0x1F), (0x5C030, 0xF)]) :=
  ⟨State.reset, 0x20, 0x7F, 0xFFFFFFFF, by decide, by decide⟩

theorem witness_RegisterWrites_2 : ∃ (s : State) (a : Nat) (v : BitVec 32),
    (a ∈ [0x0, 0x8, 0x28, 0x2C, 0x30, 0x44, 0x50, 0x58, 0x5C, 0x60,
  0x64, 0x10014, 0x10020, 0x10024, 0x10028, 0x1002C, 0x10030, 0x10034, 0x10038, 0x1003C,
  0x10040, 0x10044, 0x10048, 0x1004C, 0x10050, 0x10054, 0x10058, 0x1005C, 0x10060, 0x10064,
  0x10068, 0x1006C, 0x10070, 0x10074, 0x10078, 0x1007C, 0x10080, 0x10084, 0x10090, 0x10094,
  0x10098, 0x1009C, 0x100A4, 0x100A8, 0x18014, 0x18020, 0x18024, 0x18028, 0x1802C, 0x18030,
  0x18034, 0x18038, 0x1803C, 0x18040, 0x18044, 0x18048, 0x1804C, 0x18050, 0x18054, 0x18058,
  0x1805C, 0x18060, 0x18064, 0x18068, 0x1806C, 0x18070, 0x18074, 0x18078, 0x1807C, 0x18080,
  0x18084, 0x18088, 0x1808C, 0x18090, 0x18094, 0x18098, 0x1809C, 0x180A0, 0x180A4, 0x180B0,
  0x20000, 0x20004, 0x20008, 0x20018, 0x2001C, 0x20024, 0x20028, 0x20030, 0x20034, 0x20048,
  0x2004C, 0x20050, 0x20058, 0x2005C, 0x28000, 0x28008, 0x2800C, 0x28010, 0x28014, 0x28018,
  0x28020, 0x28024, 0x28028, 0x2802C, 0x28034, 0x28038, 0x28040, 0x28044, 0x2C000, 0x2C004,
  0x2C008, 0x2C00C, 0x2C010, 0x2C014, 0x2C024, 0x2C028, 0x2C030, 0x30000, 0x30004, 0x30008,
  0x3000C, 0x30010, 0x30014, 0x30018, 0x3001C, 0x30020, 0x30034, 0x30038, 0x30044, 0x30050,
  0x50000, 0x50004, 0x50014, 0x50018, 0x5001C, 0x50020, 0x50024, 0x50034, 0x50038, 0x8000,
  0x8024, 0x803C, 0x8044, 0x8048, 0x38000, 0x38004, 0x38008, 0x38014, 0x38018, 0x3801C,
  0x38034, 0x38038, 0x38040, 0x3C000, 0x3C008, 0x3C00C, 0x3C010, 0x3C014, 0x3C018, 0x3C01C,
  0x3C020, 0x3C024, 0x3C034, 0x3C038, 0x40000, 0x40004, 0x40008, 0x40010, 0x40014, 0x40034,
  0x40038, 0x48000, 0x48020, 0x48024, 0x48028, 0x4802C, 0x48034, 0x48038, 0x48040, 0x48044,
  0x48048, 0x4804C, 0x4000, 0x4004, 0x4010, 0x4014, 0x401C, 0x4034, 0x4038, 0x5C004,
  0x5C010, 0x5C014, 0x5C020, 0x5C024, 0x5C034, 0x5C038, 0x58000, 0x58008, 0x5800C, 0x58010,
  0x58014, 0x58018, 0x5801C, 0x58024, 0x58034, 0x58038, 0x4040, 0x4050]) :=
  ⟨State.reset, 0, 5, by decide⟩

theorem witness_RegisterWrites_3 : ∃ (s : State) (a : BitVec 20) (v : BitVec 32),
    (a.toNat % 4 ≠ 0) :=
  ⟨State.reset, 0x21, 5, by decide⟩

theorem witness_RegisterWrites_4 : ∃ (s : State) (v : BitVec 32),
    (s.barRuns = true) :=
  ⟨State.reset, 0xFFFFFFFF, by decide⟩

theorem witness_RegisterWrites_5 : ∃ (s : State),
    (s.barRuns = true) ∧
    (s.glb.snapIn = none) :=
  ⟨State.reset, by decide, by decide⟩

theorem witness_RegisterWrites_6 : ∃ (s : State),
    (s.glb.snapIn ≠ none) :=
  ⟨{ State.reset with glb.snapIn := some 2 }, by decide⟩

theorem witness_RegisterWrites_7 : ∃ (s : State),
    (s.clocked = true) ∧
    (s.glb.snapIn = some 0) :=
  ⟨{ State.reset with glb.snapIn := some 0 }, by decide, by decide⟩

theorem witness_RegisterWrites_8 : ∃ (s : State) (bit hwSet : Bool),
    (s.barRuns = true) :=
  ⟨State.reset, true, false, by decide⟩

theorem witness_RadioLinks_1 : ∃ (s : State) (port : Fin 4) (word : BitVec 50),
    ((s.rport port).desc.enable = true) ∧
    (s.coresRun = true) ∧
    (wordGood word.toNat = true) :=
  ⟨{ State.reset with rla.ports := [(1, { desc := { enable := true } })] }, 1, 0, by decide, by decide, by decide⟩

theorem witness_RadioLinks_2 : ∃ (s : State) (port : Fin 4) (word : BitVec 50),
    ((s.rport port).desc.enable = true) ∧
    (s.coresRun = true) ∧
    (wordGood word.toNat = false) :=
  ⟨{ State.reset with rla.ports := [(1, { desc := { enable := true } })] }, 1, 8, by decide, by decide, by decide⟩

theorem witness_RadioLinks_3 : ∃ (s : State) (port : Fin 4),
    (s.coresRun = true) ∧
    ((s.rport port).desc.enable = true) ∧
    ((s.rport port).rxlink = false) ∧
    (64 ≤ (s.rport port).goodRun) ∧
    (port ≠ 0 ∨ s.glb.mode ≠ .bringup) :=
  ⟨{ State.reset with glb.mode := .service, rla.ports := [(1, { desc := { enable := true }, goodRun := 64 })] }, 1, by decide, by decide, by decide, by decide, by decide⟩

theorem witness_RadioLinks_4 : ∃ (s : State) (port : Fin 4),
    ((s.rport port).goodRun < 64) :=
  ⟨{ State.reset with glb.mode := .service, rla.ports := [(1, { desc := { enable := true }, goodRun := 63 })] }, 1, by decide⟩

theorem witness_RadioLinks_5 : ∃ (s : State) (port : Fin 4),
    (s.coresRun = true) ∧
    ((s.rport port).rxlink = true) ∧
    (4 ≤ (s.rport port).missFrm ∨ 64 ≤ (s.rport port).parityAt.length) :=
  ⟨{ State.reset with rla.ports := [(1, { rxlink := true, missFrm := 4 })] }, 1, by decide, by decide, by decide⟩

theorem witness_RadioLinks_6 : ∃ (s : State) (port : Fin 4),
    ((s.rport port).missFrm < 4 ∧ (s.rport port).parityAt.length < 64) :=
  ⟨{ State.reset with rla.ports := [(1, { rxlink := true, missFrm := 3 })] }, 1, by decide⟩

theorem witness_RadioLinks_7 : ∃ (s : State) (port : Fin 4),
    (s.coresRun = true) ∧
    ((s.rport port).desc.enable = true) ∧
    ((s.rport port).rxlink = false) ∧
    ((s.rport port).linkUpAt = (s.rport port).enabledAt ∧ (s.rport port).enabledAt + 10000000 ≤ s.nowNs) :=
  ⟨{ State.reset with rla.ports := [(1, { desc := { enable := true } })], tmu.ns := 10000000 }, 1, by decide, by decide, by decide, by decide⟩

theorem witness_RadioLinks_8 : ∃ (s : State) (port : Fin 4),
    (s.nowNs < (s.rport port).enabledAt + 10000000) :=
  ⟨{ State.reset with rla.ports := [(1, { desc := { enable := true } })] }, 1, by decide⟩

theorem witness_RadioLinks_9 : ∃ (s : State) (port : Fin 4),
    (s.coresRun = true) ∧
    ((s.rport port).desc.enable = true) ∧
    ((s.rport port).rxlink = false) ∧
    ((s.rport port).linkUpAt + 100000000 ≤ s.nowNs) :=
  ⟨{ State.reset with rla.ports := [(1, { desc := { enable := true }, goodRun := 3 })], tmu.ns := 100000000 }, 1, by decide, by decide, by decide, by decide⟩

theorem witness_RadioLinks_10 : ∃ (s : State) (port : Fin 4),
    (s.nowNs < (s.rport port).linkUpAt + 100000000) :=
  ⟨{ State.reset with rla.ports := [(1, { desc := { enable := true } })] }, 1, by decide⟩

theorem witness_RadioLinks_11 : ∃ (s : State) (port : Fin 4),
    (s.coresRun = true) ∧
    ((s.rport port).desc.enable = true) ∧
    ((s.rport port).txstop = false) ∧
    (64 ≤ (s.rport port).txfRun) :=
  ⟨{ State.reset with rla.ports := [(1, { desc := { enable := true }, txfRun := 64 })] }, 1, by decide, by decide, by decide, by decide⟩

theorem witness_RadioLinks_12 : ∃ (s : State) (port : Fin 4),
    ((s.rport port).txfRun < 64) :=
  ⟨{ State.reset with rla.ports := [(1, { desc := { enable := true }, txfRun := 63 })] }, 1, by decide⟩

theorem witness_RadioLinks_13 : ∃ (s : State) (port : Fin 4) (k : Nat),
    (s.coresRun = true) ∧
    ((s.rport port).txstop = true) ∧
    ((s.rport port).txfClearAt = some k) ∧
    (k + 10000000 ≤ s.nowNs) ∧
    (sfNext (s.rport port).desc.sfcode (s.rport port).desc.sofs (k + 10000000) * 1000000000 ≤ s.nowNs) :=
  ⟨{ State.reset with rla.ports := [(1, { txstop := true, txfClearAt := some 0 })], tmu.sec := 200 }, 1, 0, by decide, by decide, by decide, by decide, by decide⟩

theorem witness_RadioLinks_14 : ∃ (s : State) (port : Fin 4) (k : Nat),
    ((s.rport port).txfClearAt = some k) ∧
    (s.nowNs < k + 10000000) :=
  ⟨{ State.reset with rla.ports := [(1, { txstop := true, txfClearAt := some 0 })] }, 1, 0, by decide, by decide⟩

theorem witness_RadioReception_1 : ∃ (s : State) (lane : Fin 256) (rate : Fin 3) (ma : BitVec 64) (kepoch l : Nat),
    (s.laneOpen lane = true) ∧
    (l < (s.rport (lane / 64)).desc.depth ∧ l < 4) ∧
    (s.rla.layers.find (lane * 4 + l) = none) ∧
    (∀ k < l, s.rla.layers.find (lane * 4 + k) ≠ none) :=
  ⟨{ State.reset with rla.ports := [(1, { desc := { enable := true, depth := 2, role := 1 }, rxlink := true })], rla.layers := [(256, { syncAt := 0, rate := 1, ma := 7, mh := none })] }, 64, 1, 9, 0, 1, by decide, by decide, by decide, by decide⟩

theorem witness_RadioReception_2 : ∃ (s : State) (lane : Fin 256) (rate : Fin 3) (ma : BitVec 64) (kepoch : Nat),
    (s.laneOpen lane = true) ∧
    (∀ k < (s.rport (lane / 64)).desc.depth, s.rla.layers.find (lane * 4 + k) ≠ none) :=
  ⟨{ State.reset with rla.ports := [(1, { desc := { enable := true, depth := 1, role := 1 }, rxlink := true })], rla.layers := [(256, { syncAt := 0, rate := 1, ma := 7, mh := none })] }, 64, 1, 9, 0, by decide, by decide⟩

theorem witness_RadioReception_3 : ∃ (s : State) (lane : Fin 256) (rate : Fin 3) (ma : BitVec 64) (kepoch : Nat),
    (s.laneOpen lane = false) :=
  ⟨State.reset, 64, 1, 9, 0, by decide⟩

theorem witness_RadioReception_4 : ∃ (s : State) (lane : Fin 256) (layer : Fin 4) (h : Held),
    (s.coresRun = true) ∧
    (s.rla.layers.find (lane.val * 4 + layer.val) = some h) ∧
    (2 ≤ (s.held lane).length) :=
  ⟨{ State.reset with rla.layers := [(256, { syncAt := 0, rate := 1, ma := 7, mh := none }), (257, { syncAt := 0, rate := 1, ma := 7, mh := none })] }, 64, 1, { syncAt := 0, rate := 1, ma := 7, mh := none }, by decide, by decide, by decide⟩

theorem witness_RadioReception_5 : ∃ (s : State) (lane : Fin 256) (layer : Fin 4) (bytes : List Byte) (est : Nat) (h : Held),
    (s.coresRun = true) ∧
    (s.rla.layers.find (lane.val * 4 + layer.val) = some h) ∧
    (frPlen bytes ≤ 96) ∧
    (radioCrcOk bytes = false) :=
  ⟨{ State.reset with rla.layers := [(256, { syncAt := 0, rate := 1, ma := 7, mh := none })] }, 64, 0, [], 900, { syncAt := 0, rate := 1, ma := 7, mh := none }, by decide, by decide, by decide, by decide⟩

theorem witness_RadioReception_6 : ∃ (s : State) (lane : Fin 256) (layer : Fin 4) (bytes : List Byte) (est : Nat),
    (s.rla.layers.find (lane.val * 4 + layer.val) = none) :=
  ⟨State.reset, 64, 0, [], 900, by decide⟩

theorem witness_RadioReception_7 : ∃ (s : State) (port : Fin 4) (d : RDesc) (at_ : Nat),
    (s.coresRun = true) ∧
    ((s.rport port).next = some (d, at_)) ∧
    (port = 0 ∨ s.glb.mode ≠ .bringup) ∧
    ((s.rport port).desc.enable = true) ∧
    (d.enable = true) ∧
    (sfNext (s.rport port).desc.sfcode (s.rport port).desc.sofs (at_ + 3000000) * 1000000000 ≤ s.nowNs) :=
  ⟨{ State.reset with rla.ports := [(1, { desc := { enable := true }, next := some ({ enable := true, win := 3 }, 0) })], tmu.sec := 200, glb.mode := .service }, 1, { enable := true, win := 3 }, 0, by decide, by decide, by decide, by decide, by decide, by decide⟩

theorem witness_RadioReception_8 : ∃ (s : State) (port : Fin 4) (d : RDesc) (at_ : Nat),
    (s.coresRun = true) ∧
    ((s.rport port).next = some (d, at_)) ∧
    (port = 0 ∨ s.glb.mode ≠ .bringup) ∧
    (d.enable = false) ∧
    (sfNext ((s.rport port).grid d).1 ((s.rport port).grid d).2 (at_ + 3000000) * 1000000000 ≤ s.nowNs) :=
  ⟨{ State.reset with rla.ports := [(1, { desc := { enable := true }, rxlink := true, next := some ({}, 0) })], tmu.sec := 200, glb.mode := .service }, 1, {}, 0, by decide, by decide, by decide, by decide, by decide⟩

theorem witness_RadioReception_9 : ∃ (s : State) (port : Fin 4) (d : RDesc) (at_ : Nat),
    ((s.rport port).next = some (d, at_)) ∧
    ((s.rport port).desc.enable = true) ∧
    (s.nowNs < sfNext (s.rport port).desc.sfcode (s.rport port).desc.sofs (at_ + 3000000) * 1000000000) :=
  ⟨{ State.reset with rla.ports := [(1, { desc := { enable := true }, next := some ({ enable := true, win := 3 }, 0) })] }, 1, { enable := true, win := 3 }, 0, by decide, by decide, by decide⟩

theorem witness_RadioTransmission_1 : ∃ (s : State) (lane : Fin 256) (a : Ack) (l : List Ack) (x : RPort),
    (s.clocked = true) ∧
    (s.rport (lane / 64) = x) ∧
    (s.rla.acks.get [] lane = a :: l) ∧
    (s.nowNs + x.desc.txPath = a.at_) ∧
    (s.mayTx (lane / 64) a.at_ = true) ∧
    (s.onAir (lane / 64) = []) ∧
    (1 ≤ x.desc.ntx) ∧
    (x.desc.units (lane % 64 / 8) = 10000 ∧ x.desc.units 8 = 10000) :=
  ⟨{ State.reset with glb.mode := .service, rla.ports := [(0, { desc := { enable := true, ntx := 2, dutyPort := 10000, dutyGrp := List.replicate 8 10000 }, txlink := true })], rla.acks := [(3, [{ at_ := 736000, rate := 1, dup := false, frame := [1#8] }])] }, 3, { at_ := 736000, rate := 1, dup := false, frame := [1#8] }, [], { desc := { enable := true, ntx := 2, dutyPort := 10000, dutyGrp := List.replicate 8 10000 }, txlink := true }, by decide, by decide, by decide, by decide, by decide, by decide, by decide, by decide⟩

theorem witness_RadioTransmission_2 : ∃ (s : State) (lane : Fin 256) (a : Ack) (l : List Ack),
    (s.clocked = true) ∧
    (s.rla.acks.get [] lane = a :: l) ∧
    (a.at_ ≤ s.nowNs + (s.rport (lane / 64)).desc.txPath) ∧
    (a.at_ + 1000 < s.nowNs + (s.rport (lane / 64)).desc.txPath ∨ s.mayTx (lane / 64) a.at_ = false) :=
  ⟨{ State.reset with rla.acks := [(3, [{ at_ := 0, rate := 1, dup := false, frame := [1#8] }])] }, 3, { at_ := 0, rate := 1, dup := false, frame := [1#8] }, [], by decide, by decide, by decide, by decide⟩

theorem witness_RadioTransmission_3 : ∃ (s : State) (lane : Fin 256) (a : Ack) (l : List Ack),
    (s.rla.acks.get [] lane = a :: l) ∧
    (s.nowNs + (s.rport (lane / 64)).desc.txPath < a.at_) :=
  ⟨{ State.reset with rla.acks := [(3, [{ at_ := 990000, rate := 1, dup := false, frame := [1#8] }])] }, 3, { at_ := 990000, rate := 1, dup := false, frame := [1#8] }, [], by decide, by decide⟩

theorem witness_RadioTransmission_4 : ∃ (s : State) (port : Fin 4),
    (s.clocked = true) ∧
    ((s.rport port).desc.enable = true) ∧
    ((s.row port).due (2000000 + (s.rport port).desc.txPath) s.nowNs = true) ∧
    ((s.rport port).begins ((s.row port).tS * 1000000000) = true) ∧
    (s.tmu.valid = false) ∧
    ((s.rport port).bmiss < 2) :=
  ⟨{ State.reset with rla.ports := [(1, { desc := { enable := true }, counting := true })], tmu.rows := [(1, { tS := 1, perS := 8, action := 1, arg := 1, flags := 3, t0 := 1000000000 })], tmu.sec := 1 }, 1, by decide, by decide, by decide, by decide, by decide, by decide⟩

theorem witness_RadioTransmission_5 : ∃ (s : State) (port : Fin 4) (e : Nat) (key : List Byte),
    (s.clocked = true) ∧
    ((s.rport port).desc.enable = true) ∧
    ((s.row port).due (2000000 + (s.rport port).desc.txPath) s.nowNs = true) ∧
    ((s.rport port).begins ((s.row port).tS * 1000000000) = true) ∧
    (s.tmu.valid = true) ∧
    (s.woad.bcast.next = none ∧ s.beaconKey (s.rport port).desc (s.row port).tS = some (e, key)) :=
  ⟨{ State.reset with rla.ports := [(1, { desc := { enable := true, role := 8 }, counting := true })], tmu.valid := true, tmu.rows := [(1, { tS := 1, perS := 8, action := 1, arg := 1, flags := 3, t0 := 1000000000 })], tmu.sec := 1, woad.bcast := { valid := true, cur := 3, slot := 5 }, woad.slots := [(5, { st := .active, key := List.replicate 16 1#8 })] }, 1, 3, bcastKey (List.replicate 16 1#8) 3, by decide, by decide, by decide, by decide, by decide, by decide⟩

theorem witness_RadioTransmission_6 : ∃ (s : State) (port : Fin 4),
    ((s.row port).due (2000000 + (s.rport port).desc.txPath) s.nowNs = false ∨ (s.rport port).desc.enable = false) :=
  ⟨State.reset, 1, by decide⟩

theorem witness_RadioTransmission_7 : ∃ (s : State) (port : Fin 4) (b : Beacon),
    (s.clocked = true) ∧
    ((s.rport port).beacon = some b) ∧
    (b.start ≤ s.nowNs + (s.rport port).desc.txPath) ∧
    (s.mayTx port b.start = true) ∧
    ((s.rport port).linked = true ∧ s.tmu.valid = true) ∧
    (b.recovery = false) :=
  ⟨{ State.reset with glb.mode := .service, tmu.valid := true, rla.ports := [(0, { desc := { enable := true, role := 8 }, txlink := true, linked := true, beacon := some { start := 5, recovery := false, frame := [1#8] } })] }, 0, { start := 5, recovery := false, frame := [1#8] }, by decide, by decide, by decide, by decide, by decide, by decide⟩

theorem witness_RadioTransmission_8 : ∃ (s : State) (port : Fin 4) (b : Beacon),
    (s.clocked = true) ∧
    ((s.rport port).beacon = some b) ∧
    (b.start ≤ s.nowNs + (s.rport port).desc.txPath) ∧
    (s.mayTx port b.start = true) ∧
    ((s.rport port).linked = true ∧ s.tmu.valid = true) ∧
    (b.recovery = true) :=
  ⟨{ State.reset with glb.mode := .service, tmu.valid := true, rla.ports := [(0, { desc := { enable := true, role := 8 }, bloss := true, txlink := true, linked := true, beacon := some { start := 5, recovery := true, frame := [1#8] } })] }, 0, { start := 5, recovery := true, frame := [1#8] }, by decide, by decide, by decide, by decide, by decide, by decide⟩

theorem witness_RadioTransmission_9 : ∃ (s : State) (port : Fin 4) (b : Beacon),
    (s.clocked = true) ∧
    ((s.rport port).beacon = some b) ∧
    (b.start ≤ s.nowNs + (s.rport port).desc.txPath) ∧
    (s.mayTx port b.start = false ∨ (s.rport port).linked = false ∨ s.tmu.valid = false) ∧
    ((s.rport port).counting = true) ∧
    ((s.rport port).bmiss = 2 ∧ (s.rport port).bloss = false) :=
  ⟨{ State.reset with rla.ports := [(0, { counting := true, bmiss := 2, beacon := some { start := 5, recovery := false, frame := [1#8] } })] }, 0, { start := 5, recovery := false, frame := [1#8] }, by decide, by decide, by decide, by decide, by decide, by decide⟩

theorem witness_RadioCalls_1 : ∃ (s : State) (t : Fin 256) (pi : Fin 8) (rt ra : Fin 32) (p : Place) (i : Nat) (b : List Byte),
    (s.callsAt t pi ra 0x20 64 p i = true) ∧
    (s.load p 64 = b) ∧
    (field b 0 1 ≤ 3 ∧ zeros b 5 3 = true ∧ zeros b 62 2 = true) ∧
    (field b 1 1 ≤ 1 ∧ field b 3 1 ≤ 1) ∧
    ((rdescOf b).ok = true) :=
  ⟨{ State.reset with mcc.dmem := [(0, 1#8), (2, 1#8), (4, 1#8), (32, 1#8), (34, 16#8), (35, 39#8), (36, 16#8), (37, 39#8), (38, 16#8), (39, 39#8), (40, 16#8), (41, 39#8), (42, 16#8), (43, 39#8), (44, 16#8), (45, 39#8), (46, 16#8), (47, 39#8), (48, 16#8), (49, 39#8), (50, 16#8), (51, 39#8)] }, 0, 0, 0, 0, .dmem 0, 0, bytesOf [0x1, 0x0, 0x1, 0x0, 0x1, 0x0, 0x0, 0x0, 0x0, 0x0, 0x0, 0x0, 0x0, 0x0, 0x0, 0x0, 0x0, 0x0, 0x0, 0x0, 0x0, 0x0, 0x0, 0x0, 0x0, 0x0, 0x0, 0x0, 0x0, 0x0, 0x0, 0x0, 0x1, 0x0, 0x10, 0x27, 0x10, 0x27, 0x10, 0x27, 0x10, 0x27, 0x10, 0x27, 0x10, 0x27, 0x10, 0x27, 0x10, 0x27, 0x10, 0x27, 0x0, 0x0, 0x0, 0x0, 0x0, 0x0, 0x0, 0x0, 0x0, 0x0, 0x0, 0x0], by decide, by decide, by decide, by decide, by decide⟩

theorem witness_RadioCalls_2 : ∃ (s : State) (t : Fin 256) (pi : Fin 8) (rt ra : Fin 32) (p : Place) (i : Nat) (b : List Byte),
    (s.callsAt t pi ra 0x20 64 p i = true) ∧
    (s.load p 64 = b) ∧
    (field b 0 1 ≤ 3) ∧
    (zeros b 5 3 = false ∨ zeros b 62 2 = false ∨ (rdescOf b).ok = false) :=
  ⟨{ State.reset with mcc.dmem := [(0, 1#8)] }, 0, 0, 0, 0, .dmem 0, 0, bytesOf [0x1, 0x0, 0x0, 0x0, 0x0, 0x0, 0x0, 0x0, 0x0, 0x0, 0x0, 0x0, 0x0, 0x0, 0x0, 0x0, 0x0, 0x0, 0x0, 0x0, 0x0, 0x0, 0x0, 0x0, 0x0, 0x0, 0x0, 0x0, 0x0, 0x0, 0x0, 0x0, 0x0, 0x0, 0x0, 0x0, 0x0, 0x0, 0x0, 0x0, 0x0, 0x0, 0x0, 0x0, 0x0, 0x0, 0x0, 0x0, 0x0, 0x0, 0x0, 0x0, 0x0, 0x0, 0x0, 0x0, 0x0, 0x0, 0x0, 0x0, 0x0, 0x0, 0x0, 0x0], by decide, by decide, by decide, by decide⟩

theorem witness_RadioCalls_3 : ∃ (s : State) (t : Fin 256) (pi : Fin 8) (rt ra : Fin 32) (p : Place) (i : Nat) (b : List Byte) (cmd : List Byte) (q : Place),
    (s.callsAt t pi ra 0x21 24 p i = true) ∧
    (s.load p 24 = b) ∧
    (field b 0 1 ≤ 3 ∧ field b 1 1 = 0 ∧ 1 ≤ field b 2 1 ∧ field b 2 1 ≤ 96 ∧ zeros b 3 1 = true ∧ field b 4 4 < 2 ^ 20) ∧
    ((s.thr t).bufPlace t (field b 16 8) (field b 2 1) = some q) ∧
    (s.poisoned q (field b 2 1) = false) ∧
    (s.load q (field b 2 1) = cmd) ∧
    (s.entryBad (field b 4 4) = false) ∧
    ((s.entry (field b 4 4)).st ≠ .free) ∧
    (dnCheck (field b 4 4) cmd s = none ∧ dnCheck (field b 4 4) cmd (calling t rt i s) = none) ∧
    ((s.rport (field b 0 1)).queue.length < 1024) :=
  ⟨{ State.reset with mcc.dmem := [(2, 1#8), (4, 5#8), (8, 3#8)], ing.dir := [(5, { st := .active })] }, 0, 0, 0, 0, .dmem 0, 0, bytesOf [0x0, 0x0, 0x1, 0x0, 0x5, 0x0, 0x0, 0x0, 0x3, 0x0, 0x0, 0x0, 0x0, 0x0, 0x0, 0x0, 0x0, 0x0, 0x0, 0x0, 0x0, 0x0, 0x0, 0x0], [0#8], .dmem 0, by decide, by decide, by decide, by decide, by decide, by decide, by decide, by decide, by decide, by decide⟩

theorem witness_RadioCalls_4 : ∃ (s : State) (t : Fin 256) (pi : Fin 8) (rt ra : Fin 32) (p : Place) (i : Nat) (b : List Byte) (f : DnFrame),
    (s.callsAt t pi ra 0x22 16 p i = true) ∧
    (s.load p 16 = b) ∧
    (field b 0 1 ≤ 3 ∧ zeros b 1 3 = true ∧ zeros b 8 8 = true) ∧
    (f ∈ (s.rport (field b 0 1)).queue ∧ f.ticket = BitVec.ofNat 32 (field b 4 4)) :=
  ⟨{ State.reset with mcc.dmem := [(4, 6#8)], rla.ports := [(0, { queue := [{ ticket := 6 }] })] }, 0, 0, 0, 0, .dmem 0, 0, bytesOf [0x0, 0x0, 0x0, 0x0, 0x6, 0x0, 0x0, 0x0, 0x0, 0x0, 0x0, 0x0, 0x0, 0x0, 0x0, 0x0], { ticket := 6 }, by decide, by decide, by decide, by decide⟩

theorem witness_RadioCalls_5 : ∃ (s : State) (t : Fin 256) (pi : Fin 8) (rt ra : Fin 32) (p : Place) (i : Nat) (b : List Byte),
    (s.callsAt t pi ra 0x22 16 p i = true) ∧
    (s.load p 16 = b) ∧
    (field b 0 1 ≤ 3 ∧ zeros b 1 3 = true ∧ zeros b 8 8 = true) ∧
    (∀ f ∈ (s.rport (field b 0 1)).queue, f.ticket ≠ BitVec.ofNat 32 (field b 4 4)) :=
  ⟨{ State.reset with mcc.dmem := [(4, 6#8)] }, 0, 0, 0, 0, .dmem 0, 0, bytesOf [0x0, 0x0, 0x0, 0x0, 0x6, 0x0, 0x0, 0x0, 0x0, 0x0, 0x0, 0x0, 0x0, 0x0, 0x0, 0x0], by decide, by decide, by decide, by decide⟩

theorem witness_RadioCalls_6 : ∃ (s : State) (port : Fin 4) (lane : Fin 4) (at_ : Nat) (f : DnFrame) (frame : List Byte) (x : RPort) (li : Nat),
    (s.clocked = true) ∧
    (s.rport port = x) ∧
    (s.downOpen port at_ = true) ∧
    (x.desc.dl[lane.val]? = some li) ∧
    (x.queue = [f] ∧ s.slotReady port lane (x.chainAt lane at_) f = true) ∧
    (at_ = (x.chainAt lane at_).next ∧ at_ = s.nowNs + x.desc.txPath) ∧
    (s.outranked port at_ = false) ∧
    (s.mayTx port at_ = true) ∧
    (s.onAir port = []) ∧
    (1 ≤ x.desc.ntx) ∧
    (x.desc.units (li / 8) = 10000 ∧ x.desc.units 8 = 10000) ∧
    (dnFrame f false s = some frame) ∧
    (s.slotMore port lane (x.chainAt lane at_) ((x.chainAt lane at_).next + airNs 1 (256 + 8 * f.body.length) + 2000000) (some f.ticket) = false) ∧
    (at_ + airNs 1 (48 + 8 * frame.length) ≤ (x.chainAt lane at_).stop) :=
  ⟨{ State.reset with glb.mode := .service, tmu.sec := 999, tmu.ns := 999264000, rla.wakes := [(69, 991000000000)], rla.ports := [(0, { desc := { enable := true, ntx := 2, role := 2, dutyPort := 10000, dutyGrp := List.replicate 8 10000 }, txlink := true, queue := [{ ticket := 6, mh := 5, ma := 69 }] })], ing.dir := [(5, { st := .active, ma := 9, dkslot := 3 })], woad.slots := [(3, { st := .active, typ := 1, epmax := 9, key := List.replicate 16 0#8 })] }, 0, 0, 1000000000000, { ticket := 6, mh := 5, ma := 69 }, (dnFrame { ticket := 6, mh := 5, ma := 69 } false ({ State.reset with glb.mode := .service, tmu.sec := 999, tmu.ns := 999264000, rla.wakes := [(69, 991000000000)], rla.ports := [(0, { desc := { enable := true, ntx := 2, role := 2, dutyPort := 10000, dutyGrp := List.replicate 8 10000 }, txlink := true, queue := [{ ticket := 6, mh := 5, ma := 69 }] })], ing.dir := [(5, { st := .active, ma := 9, dkslot := 3 })], woad.slots := [(3, { st := .active, typ := 1, epmax := 9, key := List.replicate 16 0#8 })] })).getD [], { desc := { enable := true, ntx := 2, role := 2, dutyPort := 10000, dutyGrp := List.replicate 8 10000 }, txlink := true, queue := [{ ticket := 6, mh := 5, ma := 69 }] }, 0, by decide, by decide, by decide, by decide, by decide, by decide, by decide, by decide, by decide, by decide, by decide, rfl, by decide, by decide⟩

theorem witness_RadioCalls_7 : ∃ (s : State) (port : Fin 4) (lane : Fin 4) (at_ : Nat) (ticket : Option (BitVec 32)),
    (s.downOpen port at_ = false) :=
  ⟨State.reset, 1, 0, 5, none, by decide⟩

theorem witness_LineLinks_1 : ∃ (s : State) (port : Fin 4) (word : BitVec 16),
    ((s.lport port).desc.enable = true) ∧
    (s.lineRuns = true) ∧
    (popN 16 word.toNat % 2 = 0) ∧
    ((s.lport port).calAt = none) :=
  ⟨{ State.reset with glb.mode := .service, lm.ports := [(1, { desc := { enable := true } })] }, 1, 3, by decide, by decide, by decide, by decide⟩

theorem witness_LineLinks_2 : ∃ (s : State) (port : Fin 4) (word : BitVec 16),
    ((s.lport port).desc.enable = true) ∧
    (s.lineRuns = true) ∧
    (popN 16 word.toNat % 2 = 1) ∧
    ((s.lport port).calAt = none) :=
  ⟨{ State.reset with glb.mode := .service, lm.ports := [(1, { desc := { enable := true } })] }, 1, 1, by decide, by decide, by decide, by decide⟩

theorem witness_LineLinks_3 : ∃ (s : State) (port : Fin 4) (word : BitVec 16) (frm : Bool),
    (s.lineRuns = false ∨ (s.lport port).desc.enable = false) :=
  ⟨State.reset, 1, 1, true, by decide⟩

theorem witness_LineLinks_4 : ∃ (s : State) (port : Fin 4),
    ((s.lport port).desc.enable = true) ∧
    ((s.lport port).rxlink = false) ∧
    (s.lineRuns = true) ∧
    (64 ≤ (s.lport port).goodRun) :=
  ⟨{ State.reset with glb.mode := .service, lm.ports := [(1, { desc := { enable := true }, goodRun := 64 })] }, 1, by decide, by decide, by decide, by decide⟩

theorem witness_LineLinks_5 : ∃ (s : State) (port : Fin 4),
    ((s.lport port).rxlink = true) ∧
    (4 ≤ (s.lport port).missFrm ∨ 64 ≤ (s.lport port).parityAt.length) ∧
    (s.coresRun = true) :=
  ⟨{ State.reset with glb.mode := .service, lm.ports := [(1, { rxlink := true, missFrm := 4 })] }, 1, by decide, by decide, by decide⟩

theorem witness_LineLinks_6 : ∃ (s : State) (port : Fin 4),
    ((s.lport port).desc.enable = true) ∧
    ((s.lport port).rxlink = false) ∧
    ((s.lport port).linkUpAt + 100000000 ≤ s.nowNs) :=
  ⟨{ State.reset with tmu.sec := 1, lm.ports := [(1, { desc := { enable := true }, goodRun := 3 })] }, 1, by decide, by decide, by decide⟩

theorem witness_LineLinks_7 : ∃ (s : State) (port : Fin 4),
    ((s.lport port).desc.enable = true) ∧
    ((s.lport port).txstop = false) ∧
    (64 ≤ (s.lport port).afefRun) ∧
    (s.clocked = true) :=
  ⟨{ State.reset with glb.mode := .service, lm.ports := [(1, { desc := { enable := true }, afefRun := 64 })] }, 1, by decide, by decide, by decide, by decide⟩

theorem witness_LineLinks_8 : ∃ (s : State) (port : Fin 4) (k : Nat),
    ((s.lport port).txstop = true) ∧
    ((s.lport port).afefClearAt = some k) ∧
    (k + 10000000 ≤ s.nowNs) ∧
    (s.coresRun = true) :=
  ⟨{ State.reset with tmu.sec := 1, lm.ports := [(1, { txstop := true, afefClearAt := some 0 })] }, 1, 0, by decide, by decide, by decide, by decide⟩

theorem witness_LineLinks_9 : ∃ (s : State) (port : Fin 4) (d : LDesc) (at_ : Nat),
    ((s.lport port).next = some (d, at_)) ∧
    ((s.lport port).ever = true ∧ (s.lport port).desc.enable = true ∧ d.enable = true) ∧
    (sfNext (s.lport port).desc.sfcode (s.lport port).desc.sofs (at_ + 3000000) * 1000000000 ≤ s.nowNs) ∧
    ((s.lport port).quiet = true ∧ (s.lport port).air = []) ∧
    (s.clocked = true) :=
  ⟨{ State.reset with tmu.sec := 200, lm.ports := [(1, { desc := { enable := true }, ever := true, next := some ({ enable := true }, 0) })] }, 1, { enable := true }, 0, by decide, by decide, by decide, by decide, by decide⟩

theorem witness_LineReception_1 : ∃ (s : State) (port : Fin 4) (pre : Nat),
    (s.lineRx port = true) :=
  ⟨{ State.reset with glb.mode := .service, lm.ports := [(1, { desc := { enable := true }, rxlink := true })] }, 1, 5, by decide⟩

set_option Elab.async false in
theorem witness_LineReception_2 : ∃ (s : State) (port : Fin 4) (soft : List Byte) (x : LRx) (fc : BitVec 64) (v : Nat),
    (s.lineRx port = true) ∧
    ((s.lport port).rx = some x ∧ x.fc = none) ∧
    (fcCombine (soft.take (2 * nAct (s.lport port).desc.mask)) = fc) ∧
    (fcOpen fc = some v) ∧
    (fcType v = 0 ∧ fcNsym v ≠ 0 ∧ fcTmi v ≤ 2) ∧
    (fcForPart v = true) :=
  ⟨{ State.reset with glb.mode := .service, lm.ports := [(1, { desc := { enable := true, mask := 0x3FFFFFF }, rxlink := true, rx := some { preAt := 3 } })] }, 1, (List.range 412).map fun q => if bitAt 0x200DFFFFFFFB0D0 (63 - fcBitAt q) then 255#8 else 1#8, { preAt := 3 }, 0x200DFFFFFFFB0D0, 563912026095536, by decide, by decide, by decide +kernel, by decide, by decide, by decide⟩

set_option Elab.async false in
theorem witness_LineReception_3 : ∃ (s : State) (port : Fin 4) (soft : List Byte) (x : LRx) (fc : BitVec 64),
    (s.lineRx port = true) ∧
    ((s.lport port).rx = some x ∧ x.fc = none) ∧
    (fcCombine (soft.take (2 * nAct (s.lport port).desc.mask)) = fc) ∧
    (fcOpen fc = none) :=
  ⟨{ State.reset with glb.mode := .service, lm.ports := [(1, { desc := { enable := true, mask := 0x3FFFFFF }, rxlink := true, rx := some { preAt := 3 } })] }, 1, (List.range 412).map fun q => if bitAt 0x200DFFFFFFFB0D1 (63 - fcBitAt q) then 255#8 else 1#8, { preAt := 3 }, 0x200DFFFFFFFB0D1, by decide, by decide, by decide +kernel, by decide⟩

set_option Elab.async false in
theorem witness_LineReception_4 : ∃ (s : State) (port : Fin 4) (syms : List LineSym) (snr : List Int) (x : LRx) (v : Nat) (mac : List Byte),
    ((s.lport port).rx = some x) ∧
    (x.fc.bind fcOpen = some v) ∧
    (fcType v = 0) ∧
    (s.lineRx port = true) ∧
    ((s.lineDecode port syms).map (fun d => (d.mac, d.failed)) = some (mac, 0)) ∧
    (fcsOk mac = true ∧ mac.length ≤ 144 ∧ macNhop mac ≠ 7) ∧
    (macType mac = 1 ∨ macType mac = 3) ∧
    (0x4000 ≤ fcSrc v) ∧
    (s.lineTx port = true) ∧
    (fcRspreq v = true ∧ fcDst v = 0xFFFF) :=
  ⟨{ State.reset with glb.mode := .service, lm.ports := [(1, { desc := { enable := true, mask := 0x3FFFFFF }, rxlink := true, txlink := true, rx := some { preAt := 0, fc := some 0x200DFFFFFFFB0D0 } })] }, 1, lineSyms (bytesOf [24, 0, 7, 0, 0, 0, 0, 0, 1, 2, 0, 0, 0, 0, 0, 0, 0, 0, 0, 0, 0, 0, 0, 0, 0, 0, 0, 0, 0, 0, 0, 0, 0, 0, 0, 0, 0, 0, 0, 0, 0, 0, 0, 0, 226, 64, 119, 198]), [], { preAt := 0, fc := some 0x200DFFFFFFFB0D0 }, 563912026095536, bytesOf [24, 0, 7, 0, 0, 0, 0, 0, 1, 2, 0, 0, 0, 0, 0, 0, 0, 0, 0, 0, 0, 0, 0, 0, 0, 0, 0, 0, 0, 0, 0, 0, 0, 0, 0, 0, 0, 0, 0, 0, 0, 0, 0, 0, 226, 64, 119, 198], by decide, by decide, by decide, by decide, by decide +kernel, by decide, by decide, by decide, by decide, by decide⟩

set_option Elab.async false in
theorem witness_LineReception_5 : ∃ (s : State) (port : Fin 4) (syms : List LineSym) (snr : List Int) (x : LRx) (v : Nat) (mac : List Byte) (n : Nat),
    ((s.lport port).rx = some x) ∧
    (x.fc.bind fcOpen = some v) ∧
    (fcType v = 0) ∧
    (s.lineRx port = true) ∧
    ((s.lineDecode port syms).map (fun d => (d.mac, d.failed)) = some (mac, n)) ∧
    (n ≠ 0 ∨ fcsOk mac = false) :=
  ⟨{ State.reset with glb.mode := .service, lm.ports := [(1, { desc := { enable := true, mask := 0x3FFFFFF }, rxlink := true, txlink := true, rx := some { preAt := 0, fc := some 0x200DFFFFFFFB0D0 } })] }, 1, lineSyms (bytesOf [16, 0, 0, 0, 0, 0, 0, 0, 0, 0, 0, 0, 0, 0, 0, 0, 0, 0, 0, 0, 0, 0, 0, 0, 0, 0, 0, 0, 0, 0, 0, 0, 0, 0, 0, 0, 0, 0, 0, 0, 0, 0, 0, 0, 0, 0, 0, 0, 0, 0, 0, 0]), [], { preAt := 0, fc := some 0x200DFFFFFFFB0D0 }, 563912026095536, bytesOf [16, 0, 0, 0, 0, 0, 0, 0, 0, 0, 0, 0, 0, 0, 0, 0, 0, 0, 0, 0, 0, 0, 0, 0, 0, 0, 0, 0, 0, 0, 0, 0, 0, 0, 0, 0, 0, 0, 0, 0, 0, 0, 0, 0, 0, 0, 0, 0], 0, by decide, by decide, by decide, by decide, by decide +kernel, by decide⟩

set_option Elab.async false in
theorem witness_LineReception_6 : ∃ (s : State) (port : Fin 4) (syms : List LineSym) (snr : List Int) (x : LRx) (v : Nat) (mac : List Byte),
    ((s.lport port).rx = some x) ∧
    (x.fc.bind fcOpen = some v) ∧
    (fcType v = 0) ∧
    (s.lineRx port = true) ∧
    ((s.lineDecode port syms).map (fun d => (d.mac, d.failed)) = some (mac, 0)) ∧
    (fcsOk mac = true ∧ mac.length ≤ 144 ∧ macNhop mac ≠ 7) ∧
    (macType mac = 2) :=
  ⟨{ State.reset with glb.mode := .service, lm.ports := [(1, { desc := { enable := true, mask := 0x3FFFFFF }, rxlink := true, txlink := true, rx := some { preAt := 0, fc := some 0x200DFFFFFFFB0D0 } })] }, 1, lineSyms (bytesOf [32, 0, 7, 0, 0, 0, 0, 0, 9, 9, 9, 9, 9, 9, 9, 9, 9, 9, 9, 9, 9, 0, 9, 9, 9, 9, 9, 9, 9, 9, 189, 72, 232, 172]), [], { preAt := 0, fc := some 0x200DFFFFFFFB0D0 }, 563912026095536, bytesOf [32, 0, 7, 0, 0, 0, 0, 0, 9, 9, 9, 9, 9, 9, 9, 9, 9, 9, 9, 9, 9, 0, 9, 9, 9, 9, 9, 9, 9, 9, 189, 72, 232, 172], by decide, by decide, by decide, by decide, by decide +kernel, by decide, by decide⟩

set_option Elab.async false in
theorem witness_LineReception_7 : ∃ (s : State) (port : Fin 4) (syms : List LineSym) (snr : List Int) (x : LRx) (v : Nat) (mac : List Byte),
    ((s.lport port).rx = some x) ∧
    (x.fc.bind fcOpen = some v) ∧
    (fcType v = 0) ∧
    (s.lineRx port = true) ∧
    ((s.lineDecode port syms).map (fun d => (d.mac, d.failed)) = some (mac, 0)) ∧
    (fcsOk mac = true ∧ mac.length ≤ 144 ∧ macNhop mac ≠ 7) ∧
    (macType mac = 4 ∧ macNhop mac = 0 ∧ (macBody mac).length = 11) ∧
    (3 ≤ field (macBody mac) 0 1 ∧ field (macBody mac) 0 1 ≤ 30) ∧
    (mapValid (slice (macBody mac) 1 10) = true) ∧
    (fcSrc v < 0x4000 ∧ ((s.lport port).route (fcSrc v)).st ≠ 0) :=
  ⟨{ State.reset with glb.mode := .service, lm.ports := [(1, { desc := { enable := true, mask := 0x3FFFFFF }, rxlink := true, txlink := true, rx := some { preAt := 0, fc := some 0x200DFFFE00100EE }, routes := [(8, { st := 2, depth := 1, parent := 0xFFFF })] })] }, 1, lineSyms (bytesOf [64, 0, 7, 0, 0, 0, 0, 0, 5, 0, 0, 0, 0, 0, 0, 0, 0, 0, 0, 78, 245, 197, 198]), [], { preAt := 0, fc := some 0x200DFFFE00100EE }, 563912023998720, bytesOf [64, 0, 7, 0, 0, 0, 0, 0, 5, 0, 0, 0, 0, 0, 0, 0, 0, 0, 0, 78, 245, 197, 198], by decide, by decide, by decide, by decide, by decide +kernel, by decide, by decide, by decide, by decide, by decide⟩

theorem witness_LineTransmission_1 : ∃ (s : State) (port : Fin 4) (f : LTx),
    ((s.lport port).nextTx = some f) ∧
    (s.lineTx port = true) ∧
    ((s.lport port).quiet = true) ∧
    ((s.lport port).busyUntil + 200000 + 40000 * f.cls + 40000 * (f.slots - f.used) ≤ s.nowNs) ∧
    (f.mac ≠ []) :=
  ⟨{ State.reset with tmu.sec := 1, glb.mode := .service, lm.ports := [(1, { desc := { enable := true, mask := 0x3FFFFFF }, rxlink := true, txlink := true, queue := [{ kind := 0, cls := 1, mac := [1#8], dst := 0xFFFD, link := 65541 }] })] }, 1, { kind := 0, cls := 1, mac := [1#8], dst := 0xFFFD, link := 65541 }, by decide, by decide, by decide, by decide, by decide⟩

theorem witness_LineTransmission_2 : ∃ (s : State) (port : Fin 4) (x : LTx) (stop : Nat) (y : LRx) (v : Nat),
    ((s.lport port).rx = some y) ∧
    ((s.lport port).tx = some (x, stop)) ∧
    (y.fc.bind fcOpen = some v) ∧
    (fcType v = 1 ∧ fcDst v = 0xFFFF) ∧
    (stop + 78000 ≤ y.preAt ∧ y.preAt ≤ stop + 84000) ∧
    (fcCode v ≤ 2) ∧
    (s.clocked = true) :=
  ⟨{ State.reset with glb.mode := .service, lm.ports := [(1, { tx := some ({ kind := 0, cls := 1, mac := [1#8], dst := 0xFFFD, link := 65541 }, 0), rx := some { preAt := 80000, fc := some 0x22101FFFE000A0F2 } })] }, 1, { kind := 0, cls := 1, mac := [1#8], dst := 0xFFFD, link := 65541 }, 0, { preAt := 80000, fc := some 0x22101FFFE000A0F2 }, 9587878831063200, by decide, by decide, by decide, by decide, by decide, by decide, by decide⟩

theorem witness_LineTransmission_3 : ∃ (s : State) (port : Fin 4) (x : LTx) (stop : Nat) (y : LRx) (v : Nat),
    ((s.lport port).rx = some y) ∧
    ((s.lport port).tx = some (x, stop)) ∧
    (y.fc.bind fcOpen = some v) ∧
    (fcType v = 1 ∧ fcDst v = 0xFFFF) ∧
    (stop + 78000 ≤ y.preAt ∧ y.preAt ≤ stop + 84000) ∧
    (3 ≤ fcCode v ∧ fcCode v ≤ 5) ∧
    (x.tries < 3) ∧
    (s.clocked = true) :=
  ⟨{ State.reset with glb.mode := .service, lm.ports := [(1, { tx := some ({ kind := 0, cls := 1, mac := [1#8], dst := 0xFFFD, link := 65541 }, 0), rx := some { preAt := 80000, fc := some 0x26101FFFE000A087 } })] }, 1, { kind := 0, cls := 1, mac := [1#8], dst := 0xFFFD, link := 65541 }, 0, { preAt := 80000, fc := some 0x26101FFFE000A087 }, 10713778737905824, by decide, by decide, by decide, by decide, by decide, by decide, by decide, by decide⟩

theorem witness_LineTransmission_4 : ∃ (s : State) (port : Fin 4) (x : LTx) (stop : Nat),
    ((s.lport port).tx = some (x, stop)) ∧
    ((s.lport port).rx = none) ∧
    (stop + 84000 ≤ s.nowNs) ∧
    (x.tries < 3) ∧
    (s.clocked = true) :=
  ⟨{ State.reset with tmu.sec := 1, lm.ports := [(1, { tx := some ({ kind := 0, cls := 1, mac := [1#8], dst := 0xFFFD, link := 65541 }, 0) })] }, 1, { kind := 0, cls := 1, mac := [1#8], dst := 0xFFFD, link := 65541 }, 0, by decide, by decide, by decide, by decide, by decide⟩

theorem witness_LineTransmission_5 : ∃ (s : State) (port : Fin 4) (y : LResp) (ready : Bool) (sugg : Fin 32),
    ((s.lport port).resp = some y) ∧
    (y.sent = false ∧ y.ackreq = false ∧ y.remote = false) ∧
    (y.at_ ≤ s.nowNs + 30000 + (s.lport port).desc.txlat) ∧
    (s.lineTx port = true) ∧
    (sugg.val ≤ 2) :=
  ⟨{ State.reset with glb.mode := .service, lm.ports := [(1, { desc := { enable := true }, rxlink := true, txlink := true, resp := some { code := 1, dst := 5, at_ := 9 } })] }, 1, { code := 1, dst := 5, at_ := 9 }, true, 2, by decide, by decide, by decide, by decide, by decide⟩

theorem witness_LineTransmission_6 : ∃ (s : State) (port : Fin 4) (y : LResp) (k : List Byte),
    ((s.lport port).resp = some y) ∧
    (y.sent = true ∧ y.ack = some k) ∧
    (y.at_ + 102400 + 40000 ≤ s.nowNs + 30000 + (s.lport port).desc.txlat) ∧
    (s.lineTx port = true) :=
  ⟨{ State.reset with tmu.sec := 1, glb.mode := .service, lm.ports := [(1, { desc := { enable := true, mask := 0x3FFFFFF }, rxlink := true, txlink := true, resp := some { code := 1, dst := 5, at_ := 9, sent := true, ack := some [7#8] } })] }, 1, { code := 1, dst := 5, at_ := 9, sent := true, ack := some [7#8] }, [7#8], by decide, by decide, by decide, by decide⟩

theorem witness_LineTransmission_7 : ∃ (s : State) (port : Fin 4),
    ((s.lport port).desc.enable = true ∧ (s.lport port).desc.lbeacon = true) ∧
    ((s.row (4 + port)).due (s.lport port).desc.txlat s.nowNs = true) ∧
    (s.tmu.valid = true) ∧
    (s.lineTx port = true) ∧
    ((s.lport port).linkUpAt + 3000000 ≤ (s.row (4 + port)).at_) :=
  ⟨{ State.reset with glb.mode := .service, tmu.valid := true, tmu.sec := 1, tmu.rows := [(5, { tS := 1, perS := 16, action := 2, arg := 1, flags := 3, t0 := 1000000000 })], lm.ports := [(1, { desc := { enable := true, lbeacon := true }, rxlink := true, txlink := true })] }, 1, by decide, by decide, by decide, by decide, by decide⟩

theorem witness_LineTransmission_8 : ∃ (s : State) (port : Fin 4) (lsa : Fin 16384) (rate : Bool) (j : Nat),
    (s.lineTx port = true) ∧
    (((s.lport port).snr.get [] lsa) ≠ []) ∧
    (3 ≤ j ∧ j ≤ 30 ∧ (s.lport port).rxmaps.find j = none) ∧
    (∀ e ∈ (s.lport port).rxmaps, e.2 ≠ mapFor (s.lport port).desc.mask rate ((s.lport port).groupSnr lsa)) :=
  ⟨{ State.reset with glb.mode := .service, lm.ports := [(1, { desc := { enable := true, mask := 0x3FFFFFF }, rxlink := true, txlink := true, snr := [(8, [[90]])] })] }, 1, 8, false, 3, by decide, by decide, by decide, by decide⟩

theorem witness_LineTransmission_9 : ∃ (s : State) (port : Fin 4) (lsa : Fin 16384) (rate : Bool),
    ((s.lport port).snr.get [] lsa = []) :=
  ⟨State.reset, 1, 8, false, by decide⟩

theorem witness_LineTransmission_10 : ∃ (s : State) (port : Fin 4) (tmi : Fin 32),
    ((s.lport port).oldMaps.contains tmi.val = true) ∧
    ((s.lport port).freeAt.get 0 tmi ≤ s.lineSf port) ∧
    (s.clocked = true) :=
  ⟨{ State.reset with glb.mode := .service, lm.ports := [(1, { oldMaps := [4], rxmaps := [(4, [])] })] }, 1, 4, by decide, by decide, by decide⟩

theorem witness_LineTransmission_11 : ∃ (s : State) (port : Fin 4) (e : Nat × Camp),
    (s.lineTx port = true) ∧
    (s.blockNext (4 + port) s.nowNs = some e) ∧
    ((s.lport port).lastPump + 20000000 ≤ s.nowNs) ∧
    (∀ f ∈ (s.lport port).queue, f.kind ≠ 4) :=
  ⟨{ State.reset with glb.mode := .service, tmu.valid := true, tmu.sec := 1, upd.camps := [(2, { st := 2, ports := 0x20, imglen := 9, group := 3, volofs := 0, imgcrc := 0, sendend := 9 })], lm.ports := [(1, { desc := { enable := true }, rxlink := true, txlink := true })] }, 1, (2, { st := 2, ports := 0x20, imglen := 9, group := 3, volofs := 0, imgcrc := 0, sendend := 9 }), by decide, by decide, by decide, by decide⟩

theorem witness_LineCalls_1 : ∃ (s : State) (t : Fin 256) (pi : Fin 8) (rt ra : Fin 32) (p : Place) (i : Nat) (b : List Byte) (site : BitVec 32) (sfcode sofs : Fin 256),
    (s.callsAt t pi ra 0x30 32 p i = true) ∧
    (s.load p 32 = b) ∧
    (field b 0 1 ≤ 3 ∧ zeros b 18 14 = true ∧ field b 4 4 < 2 ^ 26) ∧
    (field b 1 1 ≤ 1 ∧ field b 3 1 ≤ 1) ∧
    ((ldescOf site sfcode sofs b).ok = true) :=
  ⟨{ State.reset with mcc.dmem := [(0, 1#8), (4, 255#8), (5, 255#8), (6, 255#8), (7, 3#8)] }, 0, 0, 0, 0, .dmem 0, 0, bytesOf [0x1, 0x0, 0x0, 0x0, 0xFF, 0xFF, 0xFF, 0x3, 0x0, 0x0, 0x0, 0x0, 0x0, 0x0, 0x0, 0x0, 0x0, 0x0, 0x0, 0x0, 0x0, 0x0, 0x0, 0x0, 0x0, 0x0, 0x0, 0x0, 0x0, 0x0, 0x0, 0x0], 7, 2, 3, by decide, by decide, by decide, by decide, by decide⟩

theorem witness_LineCalls_2 : ∃ (s : State) (t : Fin 256) (pi : Fin 8) (rt ra : Fin 32) (p : Place) (i : Nat) (b : List Byte) (site : BitVec 32) (sfcode sofs : Fin 256),
    (s.callsAt t pi ra 0x30 32 p i = true) ∧
    (s.load p 32 = b) ∧
    (field b 0 1 ≤ 3) ∧
    (zeros b 18 14 = false ∨ 2 ^ 26 ≤ field b 4 4 ∨ (ldescOf site sfcode sofs b).ok = false) :=
  ⟨{ State.reset with mcc.dmem := [(0, 1#8)] }, 0, 0, 0, 0, .dmem 0, 0, bytesOf [0x1, 0x0, 0x0, 0x0, 0x0, 0x0, 0x0, 0x0, 0x0, 0x0, 0x0, 0x0, 0x0, 0x0, 0x0, 0x0, 0x0, 0x0, 0x0, 0x0, 0x0, 0x0, 0x0, 0x0, 0x0, 0x0, 0x0, 0x0, 0x0, 0x0, 0x0, 0x0], 7, 2, 3, by decide, by decide, by decide, by decide⟩

theorem witness_LineCalls_3 : ∃ (s : State) (t : Fin 256) (pi : Fin 8) (rt ra : Fin 32) (p : Place) (i : Nat) (b : List Byte) (cmd : List Byte) (q : Place),
    (s.callsAt t pi ra 0x31 24 p i = true) ∧
    (s.load p 24 = b) ∧
    (field b 0 1 ≤ 3 ∧ field b 1 1 = 0 ∧ 1 ≤ field b 2 1 ∧ field b 2 1 ≤ 96 ∧ zeros b 3 1 = true ∧ field b 4 4 < 2 ^ 20) ∧
    ((s.thr t).bufPlace t (field b 16 8) (field b 2 1) = some q) ∧
    (s.poisoned q (field b 2 1) = false) ∧
    (s.load q (field b 2 1) = cmd) ∧
    (s.entryBad (field b 4 4) = false) ∧
    ((s.entry (field b 4 4)).st ≠ .free ∧ (s.entry (field b 4 4)).medium = true) ∧
    (keyCommandBad cmd = false ∧ field cmd 0 1 ≠ 5 ∧ field cmd 0 1 ≠ 8) ∧
    ((s.entry (field b 4 4)).direct = true) ∧
    ((s.lport (field b 0 1)).queue = []) :=
  ⟨{ State.reset with mcc.dmem := [(2, 1#8), (4, 5#8), (8, 3#8)], ing.dir := [(5, { st := .active, medium := true, direct := true })] }, 0, 0, 0, 0, .dmem 0, 0, bytesOf [0x0, 0x0, 0x1, 0x0, 0x5, 0x0, 0x0, 0x0, 0x3, 0x0, 0x0, 0x0, 0x0, 0x0, 0x0, 0x0, 0x0, 0x0, 0x0, 0x0, 0x0, 0x0, 0x0, 0x0], [0#8], .dmem 0, by decide, by decide, by decide, by decide, by decide, by decide, by decide, by decide, by decide, by decide, by decide⟩

theorem witness_LineCalls_4 : ∃ (s : State) (t : Fin 256) (pi : Fin 8) (rt ra : Fin 32) (p : Place) (i : Nat) (b : List Byte),
    (s.callsAt t pi ra 0x32 8 p i = true) ∧
    (s.load p 8 = b) ∧
    (field b 0 1 ≤ 3 ∧ zeros b 1 7 = true) :=
  ⟨{ State.reset with mcc.dmem := [(0, 2#8)] }, 0, 0, 0, 0, .dmem 0, 0, bytesOf [0x2, 0x0, 0x0, 0x0, 0x0, 0x0, 0x0, 0x0], by decide, by decide, by decide⟩

theorem witness_LineCalls_5 : ∃ (s : State) (t : Fin 256) (pi : Fin 8) (rt ra : Fin 32) (p : Place) (i : Nat) (b : List Byte),
    (s.callsAt t pi ra 0x33 40 p i = true) ∧
    (s.load p 40 = b) ∧
    (field b 0 1 ≤ 3 ∧ zeros b 1 1 = true ∧ field b 2 2 < 0x4000 ∧ zeros b 4 4 = true) :=
  ⟨{ State.reset with mcc.dmem := [(0, 1#8), (2, 7#8)], lm.ports := [(1, { routes := [(7, { ma := 5, st := 2, depth := 1 })] })] }, 0, 0, 0, 0, .dmem 0, 0, bytesOf [0x1, 0x0, 0x7, 0x0, 0x0, 0x0, 0x0, 0x0, 0x0, 0x0, 0x0, 0x0, 0x0, 0x0, 0x0, 0x0, 0x0, 0x0, 0x0, 0x0, 0x0, 0x0, 0x0, 0x0, 0x0, 0x0, 0x0, 0x0, 0x0, 0x0, 0x0, 0x0, 0x0, 0x0, 0x0, 0x0, 0x0, 0x0, 0x0, 0x0], by decide, by decide, by decide⟩

theorem witness_LineCalls_6 : ∃ (s : State) (t : Fin 256) (pi : Fin 8) (rt ra : Fin 32) (p : Place) (i : Nat) (b : List Byte),
    (s.callsAt t pi ra 0x34 32 p i = true) ∧
    (s.load p 32 = b) ∧
    (field b 0 1 ≤ 3 ∧ zeros b 1 1 = true ∧ zeros b 6 2 = true ∧ zeros b 16 16 = true ∧ field b 2 2 < 0x4000) ∧
    (field b 4 2 = 0xFFFF ∧ groupMa (BitVec.ofNat 64 (field b 8 8)) = false) :=
  ⟨{ State.reset with mcc.dmem := [(0, 1#8), (2, 7#8), (4, 255#8), (5, 255#8), (8, 5#8)] }, 0, 0, 0, 0, .dmem 0, 0, bytesOf [0x1, 0x0, 0x7, 0x0, 0xFF, 0xFF, 0x0, 0x0, 0x5, 0x0, 0x0, 0x0, 0x0, 0x0, 0x0, 0x0, 0x0, 0x0, 0x0, 0x0, 0x0, 0x0, 0x0, 0x0, 0x0, 0x0, 0x0, 0x0, 0x0, 0x0, 0x0, 0x0], by decide, by decide, by decide, by decide⟩

theorem witness_LineCalls_7 : ∃ (s : State) (t : Fin 256) (pi : Fin 8) (rt ra : Fin 32) (p : Place) (i : Nat) (b : List Byte),
    (s.callsAt t pi ra 0x35 8 p i = true) ∧
    (s.load p 8 = b) ∧
    (field b 0 1 ≤ 3 ∧ zeros b 1 1 = true ∧ zeros b 4 4 = true ∧ field b 2 2 < 0x4000) ∧
    (∀ e ∈ (s.lport (field b 0 1)).routes, (e.2.st = 1 ∨ e.2.st = 2) → e.2.parent ≠ field b 2 2) :=
  ⟨{ State.reset with mcc.dmem := [(0, 1#8), (2, 7#8)], lm.ports := [(1, { routes := [(7, { ma := 5, st := 2, depth := 1 })] })] }, 0, 0, 0, 0, .dmem 0, 0, bytesOf [0x1, 0x0, 0x7, 0x0, 0x0, 0x0, 0x0, 0x0], by decide, by decide, by decide, by decide⟩

theorem witness_LineCalls_8 : ∃ (s : State) (t : Fin 256) (pi : Fin 8) (rt ra : Fin 32) (p : Place) (i : Nat) (b : List Byte) (e : Nat × Route),
    (s.callsAt t pi ra 0x35 8 p i = true) ∧
    (s.load p 8 = b) ∧
    (e ∈ (s.lport (field b 0 1)).routes ∧ (e.2.st = 1 ∨ e.2.st = 2) ∧ e.2.parent = field b 2 2) :=
  ⟨{ State.reset with mcc.dmem := [(0, 1#8), (2, 7#8)], lm.ports := [(1, { routes := [(9, { ma := 5, st := 2, parent := 7 })] })] }, 0, 0, 0, 0, .dmem 0, 0, bytesOf [0x1, 0x0, 0x7, 0x0, 0x0, 0x0, 0x0, 0x0], (9, { ma := 5, st := 2, parent := 7 }), by decide, by decide, by decide⟩

theorem witness_LineCalls_9 : ∃ (s : State) (port : Fin 4),
    ((s.lport port).desc.enable = true ∧ (s.lport port).desc.calperiod ≠ 0 ∧ (s.lport port).calAt = none) ∧
    ((s.lport port).lastCal + (s.lport port).desc.calperiod * 60000000000 ≤ s.nowNs) ∧
    (s.clocked = true) :=
  ⟨{ State.reset with tmu.sec := 60, lm.ports := [(1, { desc := { enable := true, calperiod := 1 } })] }, 1, by decide, by decide, by decide⟩

theorem witness_LineCalls_10 : ∃ (s : State) (port : Fin 4) (k : Nat),
    ((s.lport port).calReqAt = some k) ∧
    (s.lineRuns = true) ∧
    ((s.lport port).desc.enable = true ∧ (s.lport port).calAt = none ∧ (s.lport port).queue = []) ∧
    ((s.lport port).quiet = true ∧ (s.lport port).busyUntil ≤ s.nowNs) :=
  ⟨{ State.reset with glb.mode := .service, lm.ports := [(1, { desc := { enable := true }, calReqAt := some 0 })] }, 1, 0, by decide, by decide, by decide, by decide⟩

theorem witness_LineCalls_11 : ∃ (s : State) (port : Fin 4) (k : Nat),
    ((s.lport port).calAt = some k ∧ (s.lport port).calSeen = true ∧ (s.lport port).calBusy = false) ∧
    (s.coresRun = true) :=
  ⟨{ State.reset with glb.mode := .service, lm.ports := [(1, { calAt := some 0, calSeen := true })] }, 1, 0, by decide, by decide⟩

theorem witness_LineCalls_12 : ∃ (s : State) (port : Fin 4) (k : Nat),
    ((s.lport port).calAt = some k ∧ k + 2000000 ≤ s.nowNs) ∧
    (s.clocked = true) :=
  ⟨{ State.reset with tmu.sec := 1, lm.ports := [(1, { calAt := some 0 })] }, 1, 0, by decide, by decide⟩

set_option Elab.async false in
theorem witness_DirectoryCalls_1 : ∃ (s : State) (t : Fin 256) (pi : Fin 8) (rt ra : Fin 32) (p : Place) (i : Nat) (b : List Byte) (mh : Nat),
    (s.callsAt t pi ra 0x1 64 p i = true) ∧
    (s.load p 64 = b) ∧
    (dirReserved b = false) ∧
    (s.hk.isSome = true) ∧
    (s.lookup (BitVec.ofNat 64 (field b 0 8)) = some mh) ∧
    (s.entryBad mh = false) :=
  ⟨{ State.reset with mcc.dmem := [(0, 5#8)], woad.life := .owned, ing.dir := [(915228, { st := .active, ma := 5 })] }, 0, 0, 0, 0, .dmem 0, 0, bytesOf [0x5, 0x0, 0x0, 0x0, 0x0, 0x0, 0x0, 0x0, 0x0, 0x0, 0x0, 0x0, 0x0, 0x0, 0x0, 0x0, 0x0, 0x0, 0x0, 0x0, 0x0, 0x0, 0x0, 0x0, 0x0, 0x0, 0x0, 0x0, 0x0, 0x0, 0x0, 0x0, 0x0, 0x0, 0x0, 0x0, 0x0, 0x0, 0x0, 0x0, 0x0, 0x0, 0x0, 0x0, 0x0, 0x0, 0x0, 0x0, 0x0, 0x0, 0x0, 0x0, 0x0, 0x0, 0x0, 0x0, 0x0, 0x0, 0x0, 0x0, 0x0, 0x0, 0x0, 0x0], 915228, by decide, by decide, by decide, by decide, by decide +kernel, by decide⟩

theorem witness_DirectoryCalls_2 : ∃ (s : State) (t : Fin 256) (pi : Fin 8) (rt ra : Fin 32) (p : Place) (i : Nat) (b : List Byte),
    (s.callsAt t pi ra 0x2 64 p i = true) ∧
    (s.load p 64 = b) ∧
    (dirReserved b = false) ∧
    (s.entryBad (field b 8 4 % 2 ^ 20) = false) ∧
    ((s.entry (field b 8 4 % 2 ^ 20)).st ≠ .free) :=
  ⟨{ State.reset with mcc.dmem := [(8, 5#8)], ing.dir := [(5, { st := .active, ma := 9 })] }, 0, 0, 0, 0, .dmem 0, 0, bytesOf [0x0, 0x0, 0x0, 0x0, 0x0, 0x0, 0x0, 0x0, 0x5, 0x0, 0x0, 0x0, 0x0, 0x0, 0x0, 0x0, 0x0, 0x0, 0x0, 0x0, 0x0, 0x0, 0x0, 0x0, 0x0, 0x0, 0x0, 0x0, 0x0, 0x0, 0x0, 0x0, 0x0, 0x0, 0x0, 0x0, 0x0, 0x0, 0x0, 0x0, 0x0, 0x0, 0x0, 0x0, 0x0, 0x0, 0x0, 0x0, 0x0, 0x0, 0x0, 0x0, 0x0, 0x0, 0x0, 0x0, 0x0, 0x0, 0x0, 0x0, 0x0, 0x0, 0x0, 0x0], by decide, by decide, by decide, by decide, by decide⟩

theorem witness_DirectoryCalls_3 : ∃ (s : State) (t : Fin 256) (pi : Fin 8) (rt ra : Fin 32) (p : Place) (i : Nat) (b : List Byte),
    (s.callsAt t pi ra 0x2 64 p i = true) ∧
    (s.load p 64 = b) ∧
    (dirReserved b = false) ∧
    (s.entryBad (field b 8 4 % 2 ^ 20) = false) ∧
    ((s.entry (field b 8 4 % 2 ^ 20)).st = .free) :=
  ⟨{ State.reset with mcc.dmem := [(8, 5#8)] }, 0, 0, 0, 0, .dmem 0, 0, bytesOf [0x0, 0x0, 0x0, 0x0, 0x0, 0x0, 0x0, 0x0, 0x5, 0x0, 0x0, 0x0, 0x0, 0x0, 0x0, 0x0, 0x0, 0x0, 0x0, 0x0, 0x0, 0x0, 0x0, 0x0, 0x0, 0x0, 0x0, 0x0, 0x0, 0x0, 0x0, 0x0, 0x0, 0x0, 0x0, 0x0, 0x0, 0x0, 0x0, 0x0, 0x0, 0x0, 0x0, 0x0, 0x0, 0x0, 0x0, 0x0, 0x0, 0x0, 0x0, 0x0, 0x0, 0x0, 0x0, 0x0, 0x0, 0x0, 0x0, 0x0, 0x0, 0x0, 0x0, 0x0], by decide, by decide, by decide, by decide, by decide⟩

set_option Elab.async false in
theorem witness_DirectoryCalls_4 : ∃ (s : State) (t : Fin 256) (pi : Fin 8) (rt ra : Fin 32) (p : Place) (i : Nat) (b : List Byte) (w : Nat),
    (s.callsAt t pi ra 0x3 64 p i = true) ∧
    (s.load p 64 = b) ∧
    (dirReserved b = false ∧ field b 12 1 ≤ 3 ∧ field b 13 1 ≤ 3 ∧ field b 14 1 ≤ 63 ∧ field b 22 1 ≤ 63 ∧ groupMa (BitVec.ofNat 64 (field b 0 8)) = false) ∧
    (s.hk.isSome = true) ∧
    (s.dirClosed = false) ∧
    (s.ownerChip (BitVec.ofNat 64 (field b 0 8)) = s.cas.chipId) ∧
    (s.ing.inserts = []) ∧
    (s.lookup (BitVec.ofNat 64 (field b 0 8)) = none) ∧
    (s.freeWay (buckets (s.hk.getD []) (BitVec.ofNat 64 (field b 0 8))).1 = some w) :=
  ⟨{ State.reset with mcc.dmem := [(0, 5#8), (23, 1#8)], woad.life := .owned }, 0, 0, 0, 0, .dmem 0, 0, bytesOf [0x5, 0x0, 0x0, 0x0, 0x0, 0x0, 0x0, 0x0, 0x0, 0x0, 0x0, 0x0, 0x0, 0x0, 0x0, 0x0, 0x0, 0x0, 0x0, 0x0, 0x0, 0x0, 0x0, 0x1, 0x0, 0x0, 0x0, 0x0, 0x0, 0x0, 0x0, 0x0, 0x0, 0x0, 0x0, 0x0, 0x0, 0x0, 0x0, 0x0, 0x0, 0x0, 0x0, 0x0, 0x0, 0x0, 0x0, 0x0, 0x0, 0x0, 0x0, 0x0, 0x0, 0x0, 0x0, 0x0, 0x0, 0x0, 0x0, 0x0, 0x0, 0x0, 0x0, 0x0], 915228, by decide, by decide, by decide, by decide, by decide, by decide +kernel, by decide, by decide +kernel, by decide +kernel⟩

theorem witness_DirectoryCalls_5 : ∃ (s : State) (t : Fin 256) (pi : Fin 8) (rt ra : Fin 32) (p : Place) (i : Nat) (b : List Byte),
    (s.callsAt t pi ra 0x4 64 p i = true) ∧
    (s.load p 64 = b) ∧
    (dirReserved b = false) ∧
    (s.dirClosed = false) ∧
    (s.entryBad (field b 8 4 % 2 ^ 20) = false) ∧
    ((s.entry (field b 8 4 % 2 ^ 20)).st ≠ .free) ∧
    ((bitAt (field b 26 1) 0 = true → field b 12 1 ≤ 3) ∧ (bitAt (field b 26 1) 1 = true → field b 13 1 ≤ 3) ∧ (bitAt (field b 26 1) 2 = true → field b 14 1 ≤ 63)) :=
  ⟨{ State.reset with mcc.dmem := [(8, 5#8), (15, 8#8), (26, 32#8)], ing.dir := [(5, { st := .active, ma := 9 })] }, 0, 0, 0, 0, .dmem 0, 0, bytesOf [0x0, 0x0, 0x0, 0x0, 0x0, 0x0, 0x0, 0x0, 0x5, 0x0, 0x0, 0x0, 0x0, 0x0, 0x0, 0x8, 0x0, 0x0, 0x0, 0x0, 0x0, 0x0, 0x0, 0x0, 0x0, 0x0, 0x20, 0x0, 0x0, 0x0, 0x0, 0x0, 0x0, 0x0, 0x0, 0x0, 0x0, 0x0, 0x0, 0x0, 0x0, 0x0, 0x0, 0x0, 0x0, 0x0, 0x0, 0x0, 0x0, 0x0, 0x0, 0x0, 0x0, 0x0, 0x0, 0x0, 0x0, 0x0, 0x0, 0x0, 0x0, 0x0, 0x0, 0x0], by decide, by decide, by decide, by decide, by decide, by decide, by decide⟩

theorem witness_DirectoryCalls_6 : ∃ (s : State) (t : Fin 256) (pi : Fin 8) (rt ra : Fin 32) (p : Place) (i : Nat) (b : List Byte),
    (s.callsAt t pi ra 0x5 64 p i = true) ∧
    (s.load p 64 = b) ∧
    (dirReserved b = false) ∧
    (s.dirClosed = false) ∧
    (s.entryBad (field b 8 4 % 2 ^ 20) = false) ∧
    ((s.entry (field b 8 4 % 2 ^ 20)).st ≠ .free) ∧
    (bitAt (field b 15 1) 1 = false ∧ field b 22 1 ≤ 63 ∧ (field b 22 1 ≠ (s.entry (field b 8 4 % 2 ^ 20)).dkslot.toNat ∨ (s.entry (field b 8 4 % 2 ^ 20)).kepoch ≠ 255)) :=
  ⟨{ State.reset with mcc.dmem := [(8, 5#8), (22, 3#8)], ing.dir := [(5, { st := .active, ma := 9 })] }, 0, 0, 0, 0, .dmem 0, 0, bytesOf [0x0, 0x0, 0x0, 0x0, 0x0, 0x0, 0x0, 0x0, 0x5, 0x0, 0x0, 0x0, 0x0, 0x0, 0x0, 0x0, 0x0, 0x0, 0x0, 0x0, 0x0, 0x0, 0x3, 0x0, 0x0, 0x0, 0x0, 0x0, 0x0, 0x0, 0x0, 0x0, 0x0, 0x0, 0x0, 0x0, 0x0, 0x0, 0x0, 0x0, 0x0, 0x0, 0x0, 0x0, 0x0, 0x0, 0x0, 0x0, 0x0, 0x0, 0x0, 0x0, 0x0, 0x0, 0x0, 0x0, 0x0, 0x0, 0x0, 0x0, 0x0, 0x0, 0x0, 0x0], by decide, by decide, by decide, by decide, by decide, by decide, by decide⟩

theorem witness_DirectoryCalls_7 : ∃ (s : State) (t : Fin 256) (pi : Fin 8) (rt ra : Fin 32) (p : Place) (i : Nat) (b : List Byte),
    (s.callsAt t pi ra 0x6 64 p i = true) ∧
    (s.load p 64 = b) ∧
    (dirReserved b = false) ∧
    (s.dirClosed = false) ∧
    (s.entryBad (field b 8 4 % 2 ^ 20) = false) ∧
    ((s.entry (field b 8 4 % 2 ^ 20)).st ≠ .free) ∧
    ((s.entry (field b 8 4 % 2 ^ 20)).cmdpend = false) ∧
    ((s.ing.cmdSlots.find (field b 24 2)).isSome = true) :=
  ⟨{ State.reset with mcc.dmem := [(8, 5#8), (24, 3#8)], ing.dir := [(5, { st := .active, ma := 9 })], ing.cmdSlots := [(3, [1#8])] }, 0, 0, 0, 0, .dmem 0, 0, bytesOf [0x0, 0x0, 0x0, 0x0, 0x0, 0x0, 0x0, 0x0, 0x5, 0x0, 0x0, 0x0, 0x0, 0x0, 0x0, 0x0, 0x0, 0x0, 0x0, 0x0, 0x0, 0x0, 0x0, 0x0, 0x3, 0x0, 0x0, 0x0, 0x0, 0x0, 0x0, 0x0, 0x0, 0x0, 0x0, 0x0, 0x0, 0x0, 0x0, 0x0, 0x0, 0x0, 0x0, 0x0, 0x0, 0x0, 0x0, 0x0, 0x0, 0x0, 0x0, 0x0, 0x0, 0x0, 0x0, 0x0, 0x0, 0x0, 0x0, 0x0, 0x0, 0x0, 0x0, 0x0], by decide, by decide, by decide, by decide, by decide, by decide, by decide, by decide⟩

theorem witness_DirectoryCalls_8 : ∃ (s : State) (t : Fin 256) (pi : Fin 8) (rt ra : Fin 32) (p : Place) (i : Nat) (b : List Byte),
    (s.callsAt t pi ra 0x7 64 p i = true) ∧
    (s.load p 64 = b) ∧
    (dirReserved b = false) ∧
    (s.dirClosed = false) ∧
    (s.wayFree (field b 8 4 % 2 ^ 20) = false) ∧
    ((s.meter (field b 8 4 % 2 ^ 20)).opn = none) ∧
    (s.heldMh (field b 8 4 % 2 ^ 20) = false) :=
  ⟨{ State.reset with mcc.dmem := [(8, 5#8)], ing.dir := [(5, { st := .active, ma := 9 })] }, 0, 0, 0, 0, .dmem 0, 0, bytesOf [0x0, 0x0, 0x0, 0x0, 0x0, 0x0, 0x0, 0x0, 0x5, 0x0, 0x0, 0x0, 0x0, 0x0, 0x0, 0x0, 0x0, 0x0, 0x0, 0x0, 0x0, 0x0, 0x0, 0x0, 0x0, 0x0, 0x0, 0x0, 0x0, 0x0, 0x0, 0x0, 0x0, 0x0, 0x0, 0x0, 0x0, 0x0, 0x0, 0x0, 0x0, 0x0, 0x0, 0x0, 0x0, 0x0, 0x0, 0x0, 0x0, 0x0, 0x0, 0x0, 0x0, 0x0, 0x0, 0x0, 0x0, 0x0, 0x0, 0x0, 0x0, 0x0, 0x0, 0x0], by decide, by decide, by decide, by decide, by decide, by decide, by decide⟩

theorem witness_DirectoryCalls_9 : ∃ (s : State) (t : Fin 256) (pi : Fin 8) (rt ra : Fin 32) (p : Place) (i : Nat) (b : List Byte),
    (s.callsAt t pi ra 0x7 64 p i = true) ∧
    (s.load p 64 = b) ∧
    (dirReserved b = false) ∧
    (s.dirClosed = false) ∧
    (s.wayFree (field b 8 4 % 2 ^ 20) = false) ∧
    ((s.meter (field b 8 4 % 2 ^ 20)).opn.isSome = true) :=
  ⟨{ State.reset with mcc.dmem := [(8, 5#8)], ing.dir := [(5, { st := .active, ma := 9 })], ldg.live.meters := [(5, { opn := some { mh := 5 } })] }, 0, 0, 0, 0, .dmem 0, 0, bytesOf [0x0, 0x0, 0x0, 0x0, 0x0, 0x0, 0x0, 0x0, 0x5, 0x0, 0x0, 0x0, 0x0, 0x0, 0x0, 0x0, 0x0, 0x0, 0x0, 0x0, 0x0, 0x0, 0x0, 0x0, 0x0, 0x0, 0x0, 0x0, 0x0, 0x0, 0x0, 0x0, 0x0, 0x0, 0x0, 0x0, 0x0, 0x0, 0x0, 0x0, 0x0, 0x0, 0x0, 0x0, 0x0, 0x0, 0x0, 0x0, 0x0, 0x0, 0x0, 0x0, 0x0, 0x0, 0x0, 0x0, 0x0, 0x0, 0x0, 0x0, 0x0, 0x0, 0x0, 0x0], by decide, by decide, by decide, by decide, by decide, by decide⟩

theorem witness_IngestCommands_1 : ∃ (s : State) (t : Fin 256) (pi : Fin 8) (rt ra : Fin 32) (p : Place) (i : Nat) (b : List Byte),
    (s.callsAt t pi ra 0x10 32 p i = true) ∧
    (s.load p 32 = b) ∧
    (zeros b 3 5 = true ∧ zeros b 28 4 = true ∧ field b 0 1 ≤ 3 ∧ field b 1 1 ≤ 3 ∧ field b 2 1 ≤ 17) :=
  ⟨{ State.reset with mcc.dmem := [(0, 1#8), (8, 244#8), (9, 1#8)] }, 0, 0, 0, 0, .dmem 0, 0, bytesOf [0x1, 0x0, 0x0, 0x0, 0x0, 0x0, 0x0, 0x0, 0xF4, 0x1, 0x0, 0x0, 0x0, 0x0, 0x0, 0x0, 0x0, 0x0, 0x0, 0x0, 0x0, 0x0, 0x0, 0x0, 0x0, 0x0, 0x0, 0x0, 0x0, 0x0, 0x0, 0x0], by decide, by decide, by decide⟩

theorem witness_IngestCommands_2 : ∃ (s : State) (t : Fin 256) (pi : Fin 8) (rt ra : Fin 32) (p : Place) (i : Nat) (b : List Byte) (cmd : List Byte) (q : Place),
    (s.callsAt t pi ra 0x11 16 p i = true) ∧
    (s.load p 16 = b) ∧
    (zeros b 3 5 = true ∧ field b 0 2 ≤ 4095 ∧ 1 ≤ field b 2 1 ∧ field b 2 1 ≤ 94) ∧
    (s.ing.cmdSlots.find (field b 0 2) = none) ∧
    ((s.thr t).bufPlace t (field b 8 8) (field b 2 1) = some q) ∧
    (s.poisoned q (field b 2 1) = false) ∧
    (s.load q (field b 2 1) = cmd) ∧
    (keyCommandBad cmd = false) :=
  ⟨{ State.reset with mcc.dmem := [(0, 3#8), (2, 1#8)] }, 0, 0, 0, 0, .dmem 0, 0, bytesOf [0x3, 0x0, 0x1, 0x0, 0x0, 0x0, 0x0, 0x0, 0x0, 0x0, 0x0, 0x0, 0x0, 0x0, 0x0, 0x0], [3#8], .dmem 0, by decide, by decide, by decide, by decide, by decide, by decide, by decide, by decide⟩

theorem witness_IngestCommands_3 : ∃ (s : State) (t : Fin 256) (pi : Fin 8) (rt ra : Fin 32) (p : Place) (i : Nat) (b : List Byte),
    (s.callsAt t pi ra 0x12 8 p i = true) ∧
    (s.load p 8 = b) ∧
    (zeros b 2 6 = true ∧ field b 0 2 ≤ 4095) ∧
    ((s.ing.cmdSlots.find (field b 0 2)).isSome = true) :=
  ⟨{ State.reset with mcc.dmem := [(0, 3#8)], ing.cmdSlots := [(3, [1#8])] }, 0, 0, 0, 0, .dmem 0, 0, bytesOf [0x3, 0x0, 0x0, 0x0, 0x0, 0x0, 0x0, 0x0], by decide, by decide, by decide, by decide⟩

theorem witness_IngestCommands_4 : ∃ (s : State) (t : Fin 256) (pi : Fin 8) (rt ra : Fin 32) (p : Place) (i : Nat) (b : List Byte) (l1 l2 : List Stranger) (x : Stranger),
    (s.callsAt t pi ra 0x13 16 p i = true) ∧
    (s.load p 16 = b) ∧
    (s.ing.strangers = l1 ++ x :: l2) ∧
    ((∀ y ∈ l1, y.unread = false) ∧ x.unread = true) :=
  ⟨{ State.reset with mcc.dmem := [], ing.strangers := [{ ma := 9, src := 3, tai := 7, unread := false }, { ma := 8, src := 3, tai := 7, unread := true }] }, 0, 0, 0, 0, .dmem 0, 0, bytesOf [0x0, 0x0, 0x0, 0x0, 0x0, 0x0, 0x0, 0x0, 0x0, 0x0, 0x0, 0x0, 0x0, 0x0, 0x0, 0x0], [{ ma := 9, src := 3, tai := 7, unread := false }], [], { ma := 8, src := 3, tai := 7, unread := true }, by decide, by decide, by decide, by decide⟩

theorem witness_IngestCommands_5 : ∃ (s : State) (t : Fin 256) (pi : Fin 8) (rt ra : Fin 32) (p : Place) (i : Nat) (b : List Byte),
    (s.callsAt t pi ra 0x14 8 p i = true) ∧
    (s.load p 8 = b) ∧
    (zeros b 2 6 = true ∧ field b 0 1 ≤ 7) :=
  ⟨{ State.reset with mcc.dmem := [(0, 3#8), (1, 40#8)] }, 0, 0, 0, 0, .dmem 0, 0, bytesOf [0x3, 0x28, 0x0, 0x0, 0x0, 0x0, 0x0, 0x0], by decide, by decide, by decide⟩

theorem witness_IngestCommands_6 : ∃ (s : State) (x : Staged) (l : List Staged),
    (s.ing.staging = x :: l) ∧
    (x.buffered = false) ∧
    (s.lake.ready = true) ∧
    (∀ p ∈ s.pass, p.mh = x.mh → p.booked = true) ∧
    (x.ftype = 0 ∧ x.unsync = true ∧ x ∉ l) ∧
    (s.ldg.maint = []) ∧
    (formatFault x.payload x.ent.cls.toNat = none ∧ field x.payload 6 1 = 1) ∧
    (field (slice x.payload 8 8) 0 1 / 16 ≤ 1 ∧ field (slice x.payload 8 8) 0 1 % 16 ≤ 7) ∧
    ((s.meter x.mh).sh.last (regIndex (field (slice x.payload 8 8) 0 1 / 16) (field (slice x.payload 8 8) 0 1 % 16)) = none) ∧
    (s.clocked = true) :=
  ⟨{ State.reset with lake.ready := true, ing.staging := [{ mh := 5, src := 0, decided := 7000000000, ftype := 0, fcnt := 1, kepoch := 0, unsync := true, payload := bytesOf [0, 0, 0, 0, 0, 0, 1, 0, 0, 9, 0, 0, 0, 0, 0, 0] }] }, { mh := 5, src := 0, decided := 7000000000, ftype := 0, fcnt := 1, kepoch := 0, unsync := true, payload := bytesOf [0, 0, 0, 0, 0, 0, 1, 0, 0, 9, 0, 0, 0, 0, 0, 0] }, [], by decide, by decide, by decide, by decide, by decide, by decide, by decide, by decide, by decide, by decide⟩

theorem witness_IngestCommands_7 : ∃ (s : State) (m n : Reloc5) (l : List Reloc5) (e : DirEntry) (w id : Nat),
    (s.ing.inserts = [{ entry := e, moves := m :: n :: l, final := some w, id := id }]) ∧
    (s.heldMh m.old = false) ∧
    (m.old ≠ m.new) ∧
    (s.clocked = true) :=
  ⟨{ State.reset with ing.dir := [(5, { st := .active, ma := 9 })], ing.inserts := [{ entry := {}, moves := [{ ma := 9, old := 5, new := 8 }, { ma := 3, old := 1, new := 5 }], final := some 1, id := 0 }] }, { ma := 9, old := 5, new := 8 }, { ma := 3, old := 1, new := 5 }, [], {}, 1, 0, by decide, by decide, by decide, by decide⟩

theorem witness_IngestCommands_8 : ∃ (s : State) (mh : Nat),
    (s.ing.inserts = []) ∧
    (s.ing.removes = [mh]) ∧
    (s.heldMh mh = false) ∧
    (s.clocked = true) :=
  ⟨{ State.reset with ing.dir := [(5, { st := .active, ma := 9 })], ing.removes := [5] }, 5, by decide, by decide, by decide, by decide⟩

theorem witness_IngestCommands_9 : ∃ (s : State) (bank : Fin 64),
    (s.lake.ready = true) ∧
    (s.clocked = true) :=
  ⟨{ State.reset with lake.ready := true }, 3, by decide, by decide⟩

theorem witness_IngestCommands_10 : ∃ (s : State) (w : BitVec 32),
    (s.clocked = true) :=
  ⟨{ State.reset with ing.strangerOvf := true }, 0x80000000, by decide⟩

theorem witness_BootAndRestore_1 : ∃ (s : State) (b : BootIn),
    (s.inRom = true) ∧
    (s.rootsOk = true) ∧
    (s.ldg.sealed = false) ∧
    (b.fails.setWidth 32 &&& 0xDF ≠ (0 : BitVec 32)) :=
  ⟨{ State.reset with otp := [(60, 49#8), (61, 5#8), (62, 11#8), (63, 90#8), (64, 1#8)] }, { fails := 1, links := [], banks := [], nand := [], sealHigh := false }, by decide, by decide, by decide, by decide⟩

theorem witness_BootAndRestore_2 : ∃ (s : State) (b : BootIn),
    (s.inRom = true) ∧
    (s.rootsOk = true) ∧
    (s.ldg.sealed = false) ∧
    (b.fails.setWidth 32 &&& 0xDF = (0 : BitVec 32)) ∧
    (b.links = [] ∧ s.stest.fullNext = false) ∧
    (s.cpm.strap = true ∨ b.nand = []) :=
  ⟨{ State.reset with otp := [(60, 49#8), (61, 5#8), (62, 11#8), (63, 90#8), (64, 1#8)] }, { fails := 0, links := [], banks := [], nand := [], sealHigh := false }, by decide, by decide, by decide, by decide, by decide, by decide⟩

theorem witness_BootAndRestore_3 : ∃ (s : State) (b : BootIn),
    (s.inRom = true) ∧
    (s.rootsOk = false) :=
  ⟨State.reset, { fails := 0, links := [], banks := [], nand := [], sealHigh := false }, by decide, by decide⟩

theorem witness_BootAndRestore_4 : ∃ (s : State) (ms : BitVec 32),
    (s.lake.rebuild = true ∧ s.lake.inited = true ∧ s.lake.formatted = true ∧ s.coresRun = true ∧ s.mcc.image.isSome = true) :=
  ⟨{ State.reset with lake.rebuild := true, lake.inited := true, lake.formatted := true, mcc.image := some { role := 1, secver := 0, build := [], legdig := [], entries := [] } }, 9, by decide⟩

theorem witness_BootAndRestore_5 : ∃ (s : State),
    (s.ing.restore = true ∧ s.lake.ready = true ∧ s.coresRun = true) :=
  ⟨{ State.reset with ing.restore := true, lake.ready := true }, by decide⟩

theorem witness_LedgerCalls_1 : ∃ (s : State) (t : Fin 256) (pi : Fin 8) (rt ra : Fin 32) (p : Place) (i : Nat) (b : List Byte) (q : Place),
    (s.callsAt t pi ra 0x40 24 p i = true) ∧
    (s.load p 24 = b) ∧
    ((s.thr t).rtag.toNat % 8 = 7) ∧
    (field b 0 4 = 0x60000001) ∧
    (4 ≤ field b 4 4) ∧
    ((s.thr t).bufPlace t (field b 8 8) 4 = some q) :=
  ⟨{ State.reset with mcc.dmem := [(0, 1#8), (3, 96#8), (4, 4#8), (8, 64#8)], mcc.threads := [(0, { st := .run, level := .rom, base := .rom, rtag := 7 })], ldg.unseals := 3 }, 0, 0, 0, 0, .dmem 0, 0, bytesOf [0x1, 0x0, 0x0, 0x60, 0x4, 0x0, 0x0, 0x0, 0x40, 0x0, 0x0, 0x0, 0x0, 0x0, 0x0, 0x0, 0x0, 0x0, 0x0, 0x0, 0x0, 0x0, 0x0, 0x0], .dmem 64, by decide, by decide, by decide, by decide, by decide, by decide⟩

theorem witness_LedgerCalls_2 : ∃ (s : State) (t : Fin 256) (pi : Fin 8) (rt ra : Fin 32) (p : Place) (i : Nat) (b : List Byte),
    (s.callsAt t pi ra 0x40 24 p i = true) ∧
    (s.load p 24 = b) ∧
    ((s.thr t).rtag.toNat % 8 = 1) ∧
    (field b 0 4 = 0x90000000) :=
  ⟨{ State.reset with mcc.dmem := [(3, 144#8)], mcc.threads := [(0, { st := .run, level := .rom, base := .rom, rtag := 1 })] }, 0, 0, 0, 0, .dmem 0, 0, bytesOf [0x0, 0x0, 0x0, 0x90, 0x0, 0x0, 0x0, 0x0, 0x0, 0x0, 0x0, 0x0, 0x0, 0x0, 0x0, 0x0, 0x0, 0x0, 0x0, 0x0, 0x0, 0x0, 0x0, 0x0], by decide, by decide, by decide, by decide⟩

set_option Elab.async false in
theorem witness_LedgerCalls_3 : ∃ (s : State) (t : Fin 256) (pi : Fin 8) (rt ra : Fin 32) (p : Place) (i : Nat) (b : List Byte) (c : Nat) (cal : List Byte) (q : Place),
    (s.callsAt t pi ra 0x41 24 p i = true) ∧
    (s.load p 24 = b) ∧
    ((s.thr t).rtag.toNat % 8 = 3) ∧
    (c < 64) ∧
    (field b 0 4 = 0x30000001 + c * 256) ∧
    (0 < field b 4 4) ∧
    ((s.thr t).bufPlace t (field b 8 8) (field b 4 4) = some q) ∧
    (s.poisoned q (field b 4 4) = false) ∧
    (s.load q (field b 4 4) = cal) ∧
    (s.ldg.sealed = false ∧ s.tooSoon (field b 16 8) = false) ∧
    (s.ldg.live.calIn.get [] c = []) ∧
    (calValid cal = true ∧ calBoundary cal (field b 16 8) = true) :=
  ⟨{ State.reset with mcc.dmem := [(0, 1#8), (1, 5#8), (3, 48#8), (5, 8#8), (8, 64#8), (16, 16#8), (17, 14#8), (64, 1#8), (65, 60#8), (67, 1#8), (80, 1#8), (81, 1#8), (82, 1#8), (84, 1#8), (96, 1#8), (97, 1#8), (192, 1#8), (2108, 8#8), (2109, 68#8), (2110, 7#8), (2111, 109#8)], mcc.threads := [(0, { st := .run, level := .rom, base := .rom, rtag := 3 })] }, 0, 0, 0, 0, .dmem 0, 0, bytesOf [0x1, 0x5, 0x0, 0x30, 0x0, 0x8, 0x0, 0x0, 0x40, 0x0, 0x0, 0x0, 0x0, 0x0, 0x0, 0x0, 0x10, 0xE, 0x0, 0x0, 0x0, 0x0, 0x0, 0x0], 5, readBytes [(0, 1#8), (1, 60#8), (3, 1#8), (16, 1#8), (17, 1#8), (18, 1#8), (20, 1#8), (32, 1#8), (33, 1#8), (128, 1#8), (2044, 8#8), (2045, 68#8), (2046, 7#8), (2047, 109#8)] 0 2048, .dmem 64, by decide, by decide, by decide, by decide, by decide, by decide, by decide, by decide +kernel, by decide +kernel, by decide, by decide, by decide +kernel⟩

set_option Elab.async false in
theorem witness_LedgerCalls_4 : ∃ (s : State) (t : Fin 256) (pi : Fin 8) (rt ra : Fin 32) (p : Place) (i : Nat) (b : List Byte) (c : Nat) (d : List Byte) (q : Place),
    (s.callsAt t pi ra 0x41 24 p i = true) ∧
    (s.load p 24 = b) ∧
    ((s.thr t).rtag.toNat % 8 = 2) ∧
    (c < 1024) ∧
    (field b 0 4 = 0x40000000 + c / 16 * 256 + c % 16) ∧
    (field b 4 4 = 16) ∧
    ((s.thr t).bufPlace t (field b 8 8) (field b 4 4) = some q) ∧
    (s.poisoned q (field b 4 4) = false) ∧
    (s.load q (field b 4 4) = d) ∧
    (field d 0 1 = 2 ∧ field d 1 1 = 0 ∧ zeros d 2 6 = true ∧ field d 8 8 = 0) ∧
    (s.ldg.live.force.find c = none) ∧
    (s.tooSoon (field b 16 8) = false) :=
  ⟨{ State.reset with mcc.dmem := [(0, 3#8), (1, 5#8), (3, 64#8), (4, 16#8), (8, 64#8), (16, 232#8), (17, 3#8), (64, 2#8)], mcc.threads := [(0, { st := .run, level := .rom, base := .rom, rtag := 2 })] }, 0, 0, 0, 0, .dmem 0, 0, bytesOf [0x3, 0x5, 0x0, 0x40, 0x10, 0x0, 0x0, 0x0, 0x40, 0x0, 0x0, 0x0, 0x0, 0x0, 0x0, 0x0, 0xE8, 0x3, 0x0, 0x0, 0x0, 0x0, 0x0, 0x0], 83, bytesOf [2, 0, 0, 0, 0, 0, 0, 0, 0, 0, 0, 0, 0, 0, 0, 0], .dmem 64, by decide, by decide, by decide, by decide, by decide, by decide, by decide, by decide +kernel, by decide +kernel, by decide, by decide, by decide⟩

set_option Elab.async false in
theorem witness_LedgerCalls_5 : ∃ (s : State) (t : Fin 256) (pi : Fin 8) (rt ra : Fin 32) (p : Place) (i : Nat) (b : List Byte) (d : List Byte) (pol : Policy) (q : Place),
    (s.callsAt t pi ra 0x41 24 p i = true) ∧
    (s.load p 24 = b) ∧
    ((s.thr t).rtag.toNat % 8 = 5) ∧
    (field b 0 4 = 0x70000000) ∧
    (field b 4 4 = 16) ∧
    ((s.thr t).bufPlace t (field b 8 8) (field b 4 4) = some q) ∧
    (s.poisoned q (field b 4 4) = false) ∧
    (s.load q (field b 4 4) = d) ∧
    (s.ldg.sealed = false) ∧
    (policyOf d = some pol) :=
  ⟨{ State.reset with mcc.dmem := [(3, 112#8), (4, 16#8), (8, 64#8), (64, 1#8), (68, 60#8), (72, 2#8)], mcc.threads := [(0, { st := .run, level := .rom, base := .rom, rtag := 5 })] }, 0, 0, 0, 0, .dmem 0, 0, bytesOf [0x0, 0x0, 0x0, 0x70, 0x10, 0x0, 0x0, 0x0, 0x40, 0x0, 0x0, 0x0, 0x0, 0x0, 0x0, 0x0, 0x0, 0x0, 0x0, 0x0, 0x0, 0x0, 0x0, 0x0], bytesOf [1, 0, 0, 0, 60, 0, 0, 0, 2, 0, 0, 0, 0, 0, 0, 0], { allowed := 1, stepRole := 0, maxHold := 60, maxStep := 2 }, .dmem 64, by decide, by decide, by decide, by decide, by decide, by decide, by decide +kernel, by decide +kernel, by decide, by decide⟩

theorem witness_LedgerCalls_6 : ∃ (s : State) (t : Fin 256) (pi : Fin 8) (rt ra : Fin 32) (p : Place) (i : Nat) (b : List Byte),
    (s.callsAt t pi ra 0x41 24 p i = true) ∧
    (s.load p 24 = b) ∧
    ((s.thr t).rtag.toNat % 8 = 5) ∧
    (field b 0 4 = 0x70000000) ∧
    (s.ldg.sealed = true) :=
  ⟨{ State.reset with mcc.dmem := [(3, 112#8)], mcc.threads := [(0, { st := .run, level := .rom, base := .rom, rtag := 5 })], ldg.sealed := true }, 0, 0, 0, 0, .dmem 0, 0, bytesOf [0x0, 0x0, 0x0, 0x70, 0x0, 0x0, 0x0, 0x0, 0x0, 0x0, 0x0, 0x0, 0x0, 0x0, 0x0, 0x0, 0x0, 0x0, 0x0, 0x0, 0x0, 0x0, 0x0, 0x0], by decide, by decide, by decide, by decide, by decide⟩

theorem witness_LedgerCalls_7 : ∃ (s : State) (t : Fin 256) (pi : Fin 8) (rt ra : Fin 32) (p : Place) (i : Nat) (b : List Byte),
    (s.callsAt t pi ra 0x42 24 p i = true) ∧
    (s.load p 24 = b) ∧
    ((s.thr t).rtag.toNat % 8 = 5) ∧
    (field b 0 4 = 0x60000003) ∧
    (s.ldg.pin = false ∧ s.ldg.sealPending = none ∧ 4 ≤ s.sepia.pinnedFree) :=
  ⟨{ State.reset with mcc.dmem := [(0, 3#8), (3, 96#8)], mcc.threads := [(0, { st := .run, level := .rom, base := .rom, rtag := 5 })] }, 0, 0, 0, 0, .dmem 0, 0, bytesOf [0x3, 0x0, 0x0, 0x60, 0x0, 0x0, 0x0, 0x0, 0x0, 0x0, 0x0, 0x0, 0x0, 0x0, 0x0, 0x0, 0x0, 0x0, 0x0, 0x0, 0x0, 0x0, 0x0, 0x0], by decide, by decide, by decide, by decide, by decide⟩

theorem witness_LedgerCalls_8 : ∃ (s : State) (t : Fin 256) (pi : Fin 8) (rt ra : Fin 32) (p : Place) (i : Nat) (b : List Byte),
    (s.callsAt t pi ra 0x42 24 p i = true) ∧
    (s.load p 24 = b) ∧
    ((s.thr t).rtag.toNat % 8 = 5) ∧
    (field b 0 4 = 0x90000000) ∧
    (field b 16 8 + 1 < s.nowS ∧ s.nowS ≤ field b 16 8 + s.tmu.policy.maxStep) ∧
    (s.ldg.stepPending = none) ∧
    (field b 4 4 = 0) :=
  ⟨{ State.reset with mcc.dmem := [(3, 144#8), (16, 90#8)], mcc.threads := [(0, { st := .run, level := .rom, base := .rom, rtag := 5 })], tmu.sec := 100 }, 0, 0, 0, 0, .dmem 0, 0, bytesOf [0x0, 0x0, 0x0, 0x90, 0x0, 0x0, 0x0, 0x0, 0x0, 0x0, 0x0, 0x0, 0x0, 0x0, 0x0, 0x0, 0x5A, 0x0, 0x0, 0x0, 0x0, 0x0, 0x0, 0x0], by decide, by decide, by decide, by decide, by decide, by decide, by decide⟩

set_option Elab.async false in
theorem witness_LedgerCalls_9 : ∃ (s : State) (t : Fin 256) (pi : Fin 8) (rt ra : Fin 32) (p : Place) (i : Nat) (b : List Byte) (c : Nat) (d : List Byte) (q : Place),
    (s.callsAt t pi ra 0x42 24 p i = true) ∧
    (s.load p 24 = b) ∧
    ((s.thr t).rtag.toNat % 8 = 4) ∧
    (c < 2 ^ 20) ∧
    (field b 0 4 = 0xA0000000 + c * 256) ∧
    (field b 4 4 = 152) ∧
    ((s.thr t).bufPlace t (field b 8 8) (field b 4 4) = some q) ∧
    (s.poisoned q (field b 4 4) = false) ∧
    (s.load q (field b 4 4) = d) ∧
    (∀ k < 18, bits (field d (8 * k) 8) 62 56 = 0) ∧
    ((s.meter c).corrupt = false) ∧
    ((s.meter c).opn.isSome = true) ∧
    (s.ldg.live.blog = []) :=
  ⟨{ State.reset with mcc.dmem := [(1, 5#8), (3, 160#8), (4, 152#8), (8, 64#8)], mcc.threads := [(0, { st := .run, level := .rom, base := .rom, rtag := 4 })], ldg.live.meters := [(5, { opn := some { mh := 5 } })] }, 0, 0, 0, 0, .dmem 0, 0, bytesOf [0x0, 0x5, 0x0, 0xA0, 0x98, 0x0, 0x0, 0x0, 0x40, 0x0, 0x0, 0x0, 0x0, 0x0, 0x0, 0x0, 0x0, 0x0, 0x0, 0x0, 0x0, 0x0, 0x0, 0x0], 5, zeroBytes 152, .dmem 64, by decide, by decide, by decide, by decide, by decide, by decide, by decide, by decide +kernel, by decide +kernel, by decide, by decide, by decide, by decide⟩

theorem witness_LedgerCalls_10 : ∃ (s : State) (t : Fin 256) (pi : Fin 8) (rt ra : Fin 32) (p : Place) (i : Nat) (b : List Byte) (c : Nat),
    (s.callsAt t pi ra 0x42 24 p i = true) ∧
    (s.load p 24 = b) ∧
    ((s.thr t).rtag.toNat % 8 = 4) ∧
    (c < 2 ^ 20) ∧
    (field b 0 4 = 0xA0000001 + c * 256) ∧
    (field b 4 4 = 0) ∧
    ((s.meter c).corrupt = false) ∧
    ((s.meter c).opn.isSome = true) ∧
    (s.ldg.live.blog = []) :=
  ⟨{ State.reset with mcc.dmem := [(0, 1#8), (1, 5#8), (3, 160#8)], mcc.threads := [(0, { st := .run, level := .rom, base := .rom, rtag := 4 })], ldg.live.meters := [(5, { opn := some { mh := 5 } })] }, 0, 0, 0, 0, .dmem 0, 0, bytesOf [0x1, 0x5, 0x0, 0xA0, 0x0, 0x0, 0x0, 0x0, 0x0, 0x0, 0x0, 0x0, 0x0, 0x0, 0x0, 0x0, 0x0, 0x0, 0x0, 0x0, 0x0, 0x0, 0x0, 0x0], 5, by decide, by decide, by decide, by decide, by decide, by decide, by decide, by decide, by decide⟩

theorem witness_LedgerCalls_11 : ∃ (s : State) (t : Fin 256) (pi : Fin 8) (rt ra : Fin 32) (p : Place) (i : Nat) (b : List Byte),
    (s.callsAt t pi ra 0x42 24 p i = true) ∧
    (s.load p 24 = b) ∧
    ((s.thr t).rtag.toNat % 8 = 6) ∧
    (field b 0 4 = 0x80000001) ∧
    (s.lake.ready = true) ∧
    (field b 4 4 = 0) ∧
    (s.evr.staged = [] ∧ s.evr.clearing = none ∧ s.evr.clears = []) :=
  ⟨{ State.reset with mcc.dmem := [(0, 1#8), (3, 128#8)], mcc.threads := [(0, { st := .run, level := .rom, base := .rom, rtag := 6 })], lake.ready := true }, 0, 0, 0, 0, .dmem 0, 0, bytesOf [0x1, 0x0, 0x0, 0x80, 0x0, 0x0, 0x0, 0x0, 0x0, 0x0, 0x0, 0x0, 0x0, 0x0, 0x0, 0x0, 0x0, 0x0, 0x0, 0x0, 0x0, 0x0, 0x0, 0x0], by decide, by decide, by decide, by decide, by decide, by decide, by decide⟩

theorem witness_LedgerEvents_1 : ∃ (s : State) (f : PassFrame) (l : List PassFrame) (p : PassRec) (o : LRec),
    (s.pass = f :: l ∧ f ∉ l) ∧
    (f.booked = false ∧ f.node = 0xFFFF ∧ f.recs = [p]) ∧
    (p.kind ≤ 1 ∧ (p.tariff ≤ 7 ∨ p.tariff = 15)) ∧
    (s.lake.protect = false ∧ s.ldg.live.blog = [] ∧ s.nextInstant = none) ∧
    ((s.meter f.mh).corrupt = false ∧ (s.meter f.mh).opn = some o) ∧
    ((s.meter f.mh).sh.last (regIndex p.kind p.tariff) = none) ∧
    (s.clocked = true) :=
  ⟨{ State.reset with pass := [{ mh := 5, cal := 0, node := 0xFFFF, cls := 0, m := 7, decided := 8000000000, unsync := false, recs := [{ kind := 0, tariff := 1, value := 9, delta := 0 }], buffered := false }], ldg.live.meters := [(5, { opn := some { mh := 5 } })] }, { mh := 5, cal := 0, node := 0xFFFF, cls := 0, m := 7, decided := 8000000000, unsync := false, recs := [{ kind := 0, tariff := 1, value := 9, delta := 0 }], buffered := false }, [], { kind := 0, tariff := 1, value := 9, delta := 0 }, { mh := 5 }, by decide, by decide, by decide, by decide, by decide, by decide, by decide⟩

theorem witness_LedgerEvents_2 : ∃ (s : State) (at_ : Nat),
    (s.nextInstant = some at_) ∧
    (s.ledgerRuns = true) ∧
    (at_ ≤ s.nowS) ∧
    (s.lake.protect = false) ∧
    (∀ x ∈ s.ldg.live.blog, x.bseq ≤ s.ldg.bseq) :=
  ⟨{ State.reset with glb.mode := .service, lake.ready := true, ldg.live.calSt := [(3, ([], 10))], tmu.sec := 10 }, 10, by decide, by decide, by decide, by decide, by decide⟩

theorem witness_LedgerEvents_3 : ∃ (s : State),
    (s.nextInstant = none ∨ s.ledgerRuns = false) :=
  ⟨State.reset, by decide⟩

theorem witness_LedgerEvents_4 : ∃ (s : State),
    (s.ldg.sweeping = true ∧ s.lake.protect = false ∧ s.ledgerRuns = true) ∧
    (∀ e ∈ s.ldg.live.meters, s.behind e.1 = false) :=
  ⟨{ State.reset with glb.mode := .service, lake.ready := true, ldg.sweeping := true }, by decide, by decide⟩

theorem witness_LedgerEvents_5 : ∃ (s : State) (x : JRec) (l : List JRec),
    (s.ldg.jq = x :: l) ∧
    (x.landed = false ∧ x.acked = false) ∧
    (s.lake.protect = false) ∧
    (s.clocked = true) :=
  ⟨{ State.reset with ldg.jq := [{ jseq := 4, typ := 7, eff := .force 3 none, acked := false }] }, { jseq := 4, typ := 7, eff := .force 3 none, acked := false }, [], by decide, by decide, by decide, by decide⟩

theorem witness_LedgerEvents_6 : ∃ (s : State) (x : JRec),
    (s.ldg.jq = [x]) ∧
    (x.landed = false ∧ x.acked = true) ∧
    (s.lake.protect = false) ∧
    (s.clocked = true) :=
  ⟨{ State.reset with ldg.jq := [{ jseq := 4, typ := 7, eff := .force 3 none }] }, { jseq := 4, typ := 7, eff := .force 3 none }, by decide, by decide, by decide, by decide⟩

theorem witness_LedgerEvents_7 : ∃ (s : State) (body : List Byte),
    (s.ldg.sealPending = some body) ∧
    (s.ldg.pin = false) :=
  ⟨{ State.reset with ldg.sealPending := some [1#8] }, [1#8], by decide, by decide⟩

theorem witness_LedgerEvents_8 : ∃ (s : State),
    (s.ldg.sealed = true) ∧
    (s.glb.mode = .service) :=
  ⟨{ State.reset with glb.mode := .service, ldg.sealed := true }, by decide, by decide⟩

theorem witness_LedgerEvents_9 : ∃ (s : State),
    (s.ldg.sealed = false) :=
  ⟨State.reset, by decide⟩

theorem witness_BalanceCalls_1 : ∃ (s : State) (t : Fin 256) (pi : Fin 8) (rt ra : Fin 32) (p : Place) (i : Nat) (b : List Byte),
    (s.callsAt t pi ra 0x50 16 p i = true) ∧
    (s.load p 16 = b) ∧
    (zeros b 2 2 = true) ∧
    (topologyBad (field b 0 2) (slice b 4 12) s = false) :=
  ⟨{ State.reset with mcc.dmem := [(0, 3#8), (4, 255#8), (5, 255#8), (6, 16#8), (7, 1#8), (12, 100#8)] }, 0, 0, 0, 0, .dmem 0, 0, bytesOf [0x3, 0x0, 0x0, 0x0, 0xFF, 0xFF, 0x10, 0x1, 0x0, 0x0, 0x0, 0x0, 0x64, 0x0, 0x0, 0x0], by decide, by decide, by decide, by decide⟩

theorem witness_BalanceCalls_2 : ∃ (s : State) (t : Fin 256) (pi : Fin 8) (rt ra : Fin 32) (p : Place) (i : Nat) (b : List Byte),
    (s.callsAt t pi ra 0x50 16 p i = true) ∧
    (s.load p 16 = b) ∧
    (zeros b 2 2 = true) ∧
    (topologyBad (field b 0 2) (slice b 4 12) s = true) :=
  ⟨{ State.reset with mcc.dmem := [(0, 3#8), (4, 3#8), (6, 16#8), (7, 1#8)] }, 0, 0, 0, 0, .dmem 0, 0, bytesOf [0x3, 0x0, 0x0, 0x0, 0x3, 0x0, 0x10, 0x1, 0x0, 0x0, 0x0, 0x0, 0x0, 0x0, 0x0, 0x0], by decide, by decide, by decide, by decide⟩

theorem witness_BalanceCalls_3 : ∃ (s : State) (t : Fin 256) (pi : Fin 8) (rt ra : Fin 32) (p : Place) (i : Nat) (b : List Byte),
    (s.callsAt t pi ra 0x51 56 p i = true) ∧
    (s.load p 56 = b) ∧
    (zeros b 2 6 = true) :=
  ⟨{ State.reset with mcc.dmem := [(0, 3#8)], bal.nodes := [(3, { parent := 0xFFFF, cfg := 0x110 })] }, 0, 0, 0, 0, .dmem 0, 0, bytesOf [0x3, 0x0, 0x0, 0x0, 0x0, 0x0, 0x0, 0x0, 0x0, 0x0, 0x0, 0x0, 0x0, 0x0, 0x0, 0x0, 0x0, 0x0, 0x0, 0x0, 0x0, 0x0, 0x0, 0x0, 0x0, 0x0, 0x0, 0x0, 0x0, 0x0, 0x0, 0x0, 0x0, 0x0, 0x0, 0x0, 0x0, 0x0, 0x0, 0x0, 0x0, 0x0, 0x0, 0x0, 0x0, 0x0, 0x0, 0x0, 0x0, 0x0, 0x0, 0x0, 0x0, 0x0, 0x0, 0x0], by decide, by decide, by decide⟩

theorem witness_BalanceCalls_4 : ∃ (s : State) (t : Fin 256) (pi : Fin 8) (rt ra : Fin 32) (p : Place) (i : Nat) (b : List Byte),
    (s.callsAt t pi ra 0x52 8 p i = true) ∧
    (s.load p 8 = b) ∧
    (zeros b 4 4 = true) ∧
    (s.cas.master = true) ∧
    (balConfigBad (field b 0 1) (field b 1 1) (field b 2 2) = false) ∧
    (s.bal.cfg = none ∧ s.bal.nodes = []) :=
  ⟨{ State.reset with mcc.dmem := [(0, 15#8), (1, 2#8), (2, 40#8), (3, 35#8)] }, 0, 0, 0, 0, .dmem 0, 0, bytesOf [0xF, 0x2, 0x28, 0x23, 0x0, 0x0, 0x0, 0x0], by decide, by decide, by decide, by decide, by decide, by decide⟩

theorem witness_BalanceCalls_5 : ∃ (s : State) (t : Fin 256) (pi : Fin 8) (rt ra : Fin 32) (p : Place) (i : Nat) (b : List Byte),
    (s.callsAt t pi ra 0x52 8 p i = true) ∧
    (s.load p 8 = b) ∧
    (zeros b 4 4 = true) ∧
    (balConfigBad (field b 0 1) (field b 1 1) (field b 2 2) = true) :=
  ⟨{ State.reset with mcc.dmem := [(0, 7#8), (1, 2#8), (2, 40#8), (3, 35#8)] }, 0, 0, 0, 0, .dmem 0, 0, bytesOf [0x7, 0x2, 0x28, 0x23, 0x0, 0x0, 0x0, 0x0], by decide, by decide, by decide, by decide⟩

theorem witness_BalanceEvents_1 : ∃ (s : State) (f : PassFrame) (l : List PassFrame) (n : Nat),
    (s.pass = f :: l ∧ f ∉ l) ∧
    (f.booked = true ∧ s.bookingHeld f = false) ∧
    (cfgValid (s.topo f.node).2.1 = true ∧ cfgClass (s.topo f.node).2.1 = f.cls) ∧
    (s.feed f.mh f.node = [(n, false)]) ∧
    (f.before < f.m ∧ f.m * 1000000000 ≤ f.decided) ∧
    ((s.node n).p ≤ f.before ∧ f.m ≤ (s.node n).c) :=
  ⟨{ State.reset with pass := [{ mh := 5, cal := 0, node := 3, cls := 0, m := 20, decided := 30000000000, unsync := false, recs := [{ kind := 0, tariff := 15, value := 9, delta := 9 }], buffered := false, booked := true, before := 10 }], bal.nodes := [(3, { parent := 0xFFFF, cfg := 0x110, c := 60 })] }, { mh := 5, cal := 0, node := 3, cls := 0, m := 20, decided := 30000000000, unsync := false, recs := [{ kind := 0, tariff := 15, value := 9, delta := 9 }], buffered := false, booked := true, before := 10 }, [], 3, by decide, by decide, by decide, by decide, by decide, by decide⟩

theorem witness_BalanceEvents_2 : ∃ (s : State) (e n bi st cov : Nat) (x : Node),
    (s.dueClose = some e) ∧
    (s.ing.staging = [] ∧ s.pass = []) ∧
    (s.bal.cfg = some (bi, st, cov) ∧ s.bal.next = none) ∧
    (s.bal.nodes = [(n, x)] ∧ x.old = none) ∧
    (s.checked n = true ∧ x.started = true) ∧
    (s.cas.chips ≤ 1) ∧
    (x.c + st * (60 * bi) ≤ e) ∧
    (s.lake.logFull = false) ∧
    (s.clocked = true) :=
  ⟨{ State.reset with tmu.sec := 1800, bal.cfg := some (15, 2, 9000), bal.nodes := [(3, { parent := 0xFFFF, cfg := 0x310, started := true, nxtIn := 4 })] }, 1800, 3, 15, 2, 9000, { parent := 0xFFFF, cfg := 0x310, started := true, nxtIn := 4 }, by decide, by decide, by decide, by decide, by decide, by decide, by decide, by decide, by decide⟩

theorem witness_BalanceEvents_3 : ∃ (s : State),
    (s.dueClose = none) :=
  ⟨State.reset, by decide⟩

theorem witness_BalanceEvents_4 : ∃ (s : State),
    (s.lake.ready = true ∧ s.bal.hold = false) :=
  ⟨{ State.reset with lake.ready := true }, by decide⟩

theorem witness_BalanceEvents_5 : ∃ (s : State) (port node : Nat) (in_ out_ : Int) (nmeter ncov flags tamp : Nat),
    (s.bal.stackE.isSome = true) ∧
    (s.downPorts.contains port = true ∧ s.sharedNodes.contains node = true) ∧
    (s.cas.master = true) ∧
    (s.clocked = true) :=
  ⟨{ State.reset with bal.stackE := some 60, bal.hold := true, bal.cfg := some (15, 2, 9000), bal.nodes := [(3, { parent := 0xFFFF, cfg := 0x318, started := true, c := 60 })], cas.ports := [(1, { role := 3, st := 2 })] }, 1, 3, 5, 6, 7, 8, 4, 2, by decide, by decide, by decide, by decide⟩

theorem witness_BalanceEvents_6 : ∃ (s : State) (e : Nat),
    (s.bal.stackE = some e) ∧
    (s.cas.master = true ∧ s.partialsIn = true) ∧
    (s.coresRun = true) :=
  ⟨{ State.reset with bal.stackE := some 60, bal.hold := true, bal.cfg := some (15, 2, 9000), bal.nodes := [(3, { parent := 0xFFFF, cfg := 0x318, started := true, c := 60 })] }, 60, by decide, by decide, by decide⟩

theorem witness_BalanceEvents_7 : ∃ (s : State) (e : Nat),
    (s.bal.stackE = some e) ∧
    (s.cas.master = true ∧ s.partialsIn = false) ∧
    (e * 1000000000 + 5000000 ≤ s.nowNs) ∧
    (s.clocked = true) :=
  ⟨{ State.reset with bal.stackE := some 60, bal.hold := true, bal.cfg := some (15, 2, 9000), bal.nodes := [(3, { parent := 0xFFFF, cfg := 0x318, started := true, c := 60 })], cas.ports := [(1, { role := 3, st := 2 })], tmu.sec := 61 }, 60, by decide, by decide, by decide, by decide⟩

theorem witness_BalanceEvents_8 : ∃ (s : State) (bitmap : List Byte) (e : Nat),
    (s.bal.stackE = some e) ∧
    (s.cas.master = false) ∧
    (s.coresRun = true) :=
  ⟨{ State.reset with bal.stackE := some 60, bal.hold := true, bal.cfg := some (15, 2, 9000), bal.nodes := [(3, { parent := 0xFFFF, cfg := 0x318, started := true, c := 60 })], cas.master := false }, [8#8], 60, by decide, by decide, by decide⟩

theorem witness_BalanceEvents_9 : ∃ (s : State) (e : Nat),
    (s.bal.stackE = some e) ∧
    (s.cas.detached = true) ∧
    (e * 1000000000 + 5000000 ≤ s.nowNs) ∧
    (s.coresRun = true) :=
  ⟨{ State.reset with bal.stackE := some 60, bal.hold := true, bal.cfg := some (15, 2, 9000), bal.nodes := [(3, { parent := 0xFFFF, cfg := 0x318, started := true, c := 60 })], cas.detached := true, tmu.sec := 61 }, 60, by decide, by decide, by decide, by decide⟩

theorem witness_TimeCalls_1 : ∃ (s : State) (t : Fin 256) (pi : Fin 8) (rt ra : Fin 32) (p : Place) (i : Nat) (b : List Byte),
    (s.callsAt t pi ra 0x80 32 p i = true) ∧
    (s.load p 32 = b) ∧
    (field b 0 1 = 0 ∧ zeros b 1 1 = true ∧ zeros b 4 4 = true) ∧
    (80 ≤ (field b 2 2) ∧ (field b 2 2) < 448) ∧
    (field (b.drop 8) 8 4 < 1000000000 ∧ field (b.drop 8) 16 4 < 1000000000 ∧ (field (b.drop 8) 20 1 = 7 ∨ field (b.drop 8) 20 1 = 8) ∧ field (b.drop 8) 21 1 < 4) ∧
    (field (b.drop 8) 12 4 = 0 ∧ field (b.drop 8) 16 4 = 0 ∨ 1000000 ≤ field (b.drop 8) 12 4 * 1000000000 + field (b.drop 8) 16 4) ∧
    (s.nowNs + 1000000 ≤ field (b.drop 8) 0 8 * 1000000000 + field (b.drop 8) 8 4) ∧
    (s.glb.mode ≠ .standby ∧ s.cas.pair = 0) :=
  ⟨{ State.reset with mcc.dmem := [(2, 90#8), (8, 100#8), (28, 7#8)] }, 0, 0, 0, 0, .dmem 0, 0, bytesOf [0x0, 0x0, 0x5A, 0x0, 0x0, 0x0, 0x0, 0x0, 0x64, 0x0, 0x0, 0x0, 0x0, 0x0, 0x0, 0x0, 0x0, 0x0, 0x0, 0x0, 0x0, 0x0, 0x0, 0x0, 0x0, 0x0, 0x0, 0x0, 0x7, 0x0, 0x0, 0x0], by decide, by decide, by decide, by decide, by decide, by decide, by decide, by decide⟩

theorem witness_TimeCalls_2 : ∃ (s : State) (t : Fin 256) (pi : Fin 8) (rt ra : Fin 32) (p : Place) (i : Nat) (b : List Byte),
    (s.callsAt t pi ra 0x80 32 p i = true) ∧
    (s.load p 32 = b) ∧
    (field b 0 1 = 0 ∧ zeros b 1 1 = true ∧ zeros b 4 4 = true) ∧
    (80 ≤ (field b 2 2) ∧ (field b 2 2) < 448) ∧
    (field (b.drop 8) 8 4 < 1000000000 ∧ field (b.drop 8) 16 4 < 1000000000 ∧ (field (b.drop 8) 20 1 = 7 ∨ field (b.drop 8) 20 1 = 8) ∧ field (b.drop 8) 21 1 < 4) ∧
    (field (b.drop 8) 12 4 = 0 ∧ field (b.drop 8) 16 4 = 0 ∨ 1000000 ≤ field (b.drop 8) 12 4 * 1000000000 + field (b.drop 8) 16 4) ∧
    (field b 8 8 * 1000000000 + field b 16 4 < s.nowNs + 1000000) ∧
    (s.glb.mode ≠ .standby) :=
  ⟨{ State.reset with mcc.dmem := [(2, 90#8), (8, 100#8), (28, 7#8)], tmu.sec := 100 }, 0, 0, 0, 0, .dmem 0, 0, bytesOf [0x0, 0x0, 0x5A, 0x0, 0x0, 0x0, 0x0, 0x0, 0x64, 0x0, 0x0, 0x0, 0x0, 0x0, 0x0, 0x0, 0x0, 0x0, 0x0, 0x0, 0x0, 0x0, 0x0, 0x0, 0x0, 0x0, 0x0, 0x0, 0x7, 0x0, 0x0, 0x0], by decide, by decide, by decide, by decide, by decide, by decide, by decide, by decide⟩

theorem witness_TimeCalls_3 : ∃ (s : State) (t : Fin 256) (pi : Fin 8) (rt ra : Fin 32) (p : Place) (i : Nat) (b : List Byte) (d : List Byte),
    (s.callsAt t pi ra 0x80 32 p i = true) ∧
    (s.load p 32 = b) ∧
    (field b 0 1 = 1 ∧ zeros b 18 14 = true) ∧
    (b.drop 1 = d) ∧
    (1 ≤ field d 0 1 ∧ field d 0 1 ≤ 2 ∧ field d 1 1 ≤ 127 ∧ field d 2 1 ≤ 2 ∧ field d 3 1 ≤ 1 ∧ zeros d 4 3 = true) ∧
    (bitAt s.tmu.policy.allowed (field d 0 1 - 1) = true) :=
  ⟨{ State.reset with mcc.dmem := [(0, 1#8), (1, 2#8), (2, 5#8), (8, 77#8)] }, 0, 0, 0, 0, .dmem 0, 0, bytesOf [0x1, 0x2, 0x5, 0x0, 0x0, 0x0, 0x0, 0x0, 0x4D, 0x0, 0x0, 0x0, 0x0, 0x0, 0x0, 0x0, 0x0, 0x0, 0x0, 0x0, 0x0, 0x0, 0x0, 0x0, 0x0, 0x0, 0x0, 0x0, 0x0, 0x0, 0x0, 0x0], (bytesOf [1, 2, 5, 0, 0, 0, 0, 0, 77, 0, 0, 0, 0, 0, 0, 0, 0, 0, 0, 0, 0, 0, 0, 0, 0, 0, 0, 0, 0, 0, 0, 0]).drop 1, by decide, by decide, by decide, by decide, by decide, by decide⟩

theorem witness_TimeCalls_4 : ∃ (s : State) (t : Fin 256) (pi : Fin 8) (rt ra : Fin 32) (p : Place) (i : Nat) (b : List Byte),
    (s.callsAt t pi ra 0x80 32 p i = true) ∧
    (s.load p 32 = b) ∧
    (field b 0 1 = 2) ∧
    (field b 1 1 ≤ 1 ∧ field b 4 4 ≤ 10000 ∧ field b 8 4 ≤ 10000 ∧ (signed 32 (field b 12 4)).natAbs ≤ 10000 ∧ zeros b 2 2 = true ∧ zeros b 16 16 = true) :=
  ⟨{ State.reset with mcc.dmem := [(0, 2#8), (1, 1#8), (4, 100#8), (12, 254#8), (13, 255#8), (14, 255#8), (15, 255#8)] }, 0, 0, 0, 0, .dmem 0, 0, bytesOf [0x2, 0x1, 0x0, 0x0, 0x64, 0x0, 0x0, 0x0, 0x0, 0x0, 0x0, 0x0, 0xFE, 0xFF, 0xFF, 0xFF, 0x0, 0x0, 0x0, 0x0, 0x0, 0x0, 0x0, 0x0, 0x0, 0x0, 0x0, 0x0, 0x0, 0x0, 0x0, 0x0], by decide, by decide, by decide, by decide⟩

theorem witness_TimeCalls_5 : ∃ (s : State) (t : Fin 256) (pi : Fin 8) (rt ra : Fin 32) (p : Place) (i : Nat) (b : List Byte),
    (s.callsAt t pi ra 0x81 32 p i = true) ∧
    (s.load p 32 = b) ∧
    (field b 0 1 = 0 ∧ field b 2 2 ≤ 511 ∧ field b 2 2 ≠ 8 ∧ (field b 2 2 < 16 ∨ 80 ≤ field b 2 2) ∧ zeros b 1 1 = true ∧ zeros b 4 4 = true) :=
  ⟨{ State.reset with mcc.dmem := [(2, 90#8)], tmu.rows := [(90, { tS := 100, action := 7 })] }, 0, 0, 0, 0, .dmem 0, 0, bytesOf [0x0, 0x0, 0x5A, 0x0, 0x0, 0x0, 0x0, 0x0, 0x0, 0x0, 0x0, 0x0, 0x0, 0x0, 0x0, 0x0, 0x0, 0x0, 0x0, 0x0, 0x0, 0x0, 0x0, 0x0, 0x0, 0x0, 0x0, 0x0, 0x0, 0x0, 0x0, 0x0], by decide, by decide, by decide⟩

theorem witness_TimeCalls_6 : ∃ (s : State) (t : Fin 256) (pi : Fin 8) (rt ra : Fin 32) (p : Place) (i : Nat) (b : List Byte),
    (s.callsAt t pi ra 0x81 32 p i = true) ∧
    (s.load p 32 = b) ∧
    (field b 0 1 = 0 ∧ 511 < field b 2 2) :=
  ⟨{ State.reset with mcc.dmem := [(3, 2#8)] }, 0, 0, 0, 0, .dmem 0, 0, bytesOf [0x0, 0x0, 0x0, 0x2, 0x0, 0x0, 0x0, 0x0, 0x0, 0x0, 0x0, 0x0, 0x0, 0x0, 0x0, 0x0, 0x0, 0x0, 0x0, 0x0, 0x0, 0x0, 0x0, 0x0, 0x0, 0x0, 0x0, 0x0, 0x0, 0x0, 0x0, 0x0], by decide, by decide, by decide⟩

theorem witness_TimeCalls_7 : ∃ (s : State) (t : Fin 256) (pi : Fin 8) (rt ra : Fin 32) (p : Place) (i : Nat) (b : List Byte),
    (s.callsAt t pi ra 0x81 32 p i = true) ∧
    (s.load p 32 = b) ∧
    (field b 0 1 = 1 ∧ zeros b 1 7 = true) :=
  ⟨{ State.reset with mcc.dmem := [(0, 1#8)], tmu.sec := 5, tmu.valid := true }, 0, 0, 0, 0, .dmem 0, 0, bytesOf [0x1, 0x0, 0x0, 0x0, 0x0, 0x0, 0x0, 0x0, 0x0, 0x0, 0x0, 0x0, 0x0, 0x0, 0x0, 0x0, 0x0, 0x0, 0x0, 0x0, 0x0, 0x0, 0x0, 0x0, 0x0, 0x0, 0x0, 0x0, 0x0, 0x0, 0x0, 0x0], by decide, by decide, by decide⟩

theorem witness_TimeEvents_1 : ∃ (s : State) (mac : Fin 2) (o : Int),
    (s.tmu.ptp.sample = some o) ∧
    (s.tmu.sel.kind = mac.val + 1 ∧ s.coresRun = true ∧ s.glb.clkSrc = false) ∧
    (s.tmu.st = .freerun ∨ s.tmu.st = .holdover) ∧
    (-1000000000 ≤ o ∧ o ≤ 1000000000) ∧
    (10000 < (if s.tmu.asMeasured then o else Config.filter s.tmu.filtered o).natAbs) :=
  ⟨{ State.reset with tmu.sec := 50, tmu.sel := { kind := 1 }, tmu.asMeasured := true, tmu.ptp := { announced := true, delay := some 0, sync := some { seq := 1, rx := 0, origin := some (20000 * 65536), corr := 0 } } }, 0, 20000, by decide, by decide, by decide, by decide, by decide⟩

theorem witness_TimeEvents_2 : ∃ (s : State) (mac : Fin 2) (o : Int),
    (s.tmu.ptp.sample = some o) ∧
    (s.tmu.sel.kind = mac.val + 1 ∧ s.coresRun = true ∧ s.glb.clkSrc = false) ∧
    (s.tmu.st = .freerun ∨ s.tmu.st = .holdover) ∧
    (o < -1000000000) ∧
    (10000 < (if s.tmu.asMeasured then o else Config.filter s.tmu.filtered o).natAbs) :=
  ⟨{ State.reset with tmu.sec := 50, tmu.sel := { kind := 1 }, tmu.asMeasured := true, tmu.ptp := { announced := true, delay := some 0, sync := some { seq := 1, rx := 0, origin := some (-2000000000 * 65536), corr := 0 } } }, 0, -2000000000, by decide, by decide, by decide, by decide, by decide⟩

theorem witness_TimeEvents_3 : ∃ (s : State) (mac : Fin 2) (o : Int),
    (s.tmu.ptp.sample = some o) ∧
    (s.tmu.sel.kind = mac.val + 1 ∧ s.coresRun = true ∧ s.glb.clkSrc = false) ∧
    (s.tmu.st = .locked) ∧
    (1000000 < (o - s.tmu.filtered).natAbs) ∧
    (s.tmu.rejects < 2) :=
  ⟨{ State.reset with tmu.sec := 50, tmu.sel := { kind := 1 }, tmu.st := .locked, tmu.ptp := { announced := true, delay := some 0, sync := some { seq := 1, rx := 0, origin := some (2000000 * 65536), corr := 0 } } }, 0, 2000000, by decide, by decide, by decide, by decide, by decide⟩

theorem witness_TimeEvents_4 : ∃ (s : State) (a : Nat),
    (s.tmu.lastSample = some a) ∧
    (a + 8 * s.tmu.syncInterval ≤ s.nowNs) ∧
    (s.tmu.st = .locked ∨ s.tmu.st = .acquire) ∧
    (s.clocked = true) :=
  ⟨{ State.reset with tmu.sec := 50, tmu.st := .locked, tmu.lastSample := some 0 }, 0, by decide, by decide, by decide, by decide⟩

theorem witness_TimeEvents_5 : ∃ (s : State) (a : Nat),
    (s.tmu.lastSample = some a) ∧
    (s.nowNs < a + 8 * s.tmu.syncInterval) :=
  ⟨{ State.reset with tmu.lastSample := some 0 }, 0, by decide, by decide⟩

theorem witness_TimeEvents_6 : ∃ (s : State) (a : Nat),
    (s.tmu.st = .holdover) ∧
    (s.tmu.lastSample = some a) ∧
    (a + s.tmu.policy.maxHold * 1000000000 ≤ s.nowNs) ∧
    (s.tmu.valid = true) ∧
    (s.clocked = true) :=
  ⟨{ State.reset with tmu.sec := 5000, tmu.st := .holdover, tmu.valid := true, tmu.lastSample := some 0 }, 0, by decide, by decide, by decide, by decide, by decide⟩

theorem witness_TimeEvents_7 : ∃ (s : State) (a : Nat),
    (s.tmu.lastSample = some a) ∧
    (s.nowNs < a + s.tmu.policy.maxHold * 1000000000) :=
  ⟨{ State.reset with tmu.st := .holdover, tmu.lastSample := some 0 }, 0, by decide, by decide⟩

theorem witness_TimeEvents_8 : ∃ (s : State) (from_ tTo n : Nat),
    (s.ldg.stepPending = some (from_, tTo, n)) ∧
    (s.ldg.dur.blog.any (fun b => b.bseq == n) = true) ∧
    (tTo ≤ from_ ∧ from_ ≤ s.nowS) ∧
    (s.clocked = true) :=
  ⟨{ State.reset with tmu.sec := 100, ldg.stepPending := some (100, 90, 3), ldg.dur.blog := [{ bseq := 3, t := 100 }] }, 100, 90, 3, by decide, by decide, by decide, by decide⟩

theorem witness_TimeEvents_9 : ∃ (s : State),
    (s.ldg.stepPending = none) :=
  ⟨State.reset, by decide⟩

theorem witness_TimeEvents_10 : ∃ (s : State) (i : Fin 512),
    ((s.row i).action = 7 ∧ (s.row i).per = 0 ∧ (s.row i).at_ ≤ s.nowNs) ∧
    (s.coresRun = true ∧ s.cas.pair = 0 ∧ s.rowTurn i = true) ∧
    ((s.row i).needValid = false ∨ s.tmu.valid = true) :=
  ⟨{ State.reset with tmu.sec := 100, tmu.rows := [(90, { tS := 100, action := 7 })] }, 90, by decide, by decide, by decide⟩

theorem witness_TimeEvents_11 : ∃ (s : State) (i : Fin 512),
    ((s.row i).action = 7 ∧ (s.row i).per = 0 ∧ (s.row i).at_ ≤ s.nowNs) ∧
    (s.coresRun = true ∧ s.cas.pair = 0 ∧ s.rowTurn i = true) ∧
    ((s.row i).needValid = true ∧ s.tmu.valid = false) :=
  ⟨{ State.reset with tmu.sec := 100, tmu.rows := [(90, { tS := 100, action := 7, flags := 1 })] }, 90, by decide, by decide, by decide⟩

theorem witness_TimeEvents_12 : ∃ (s : State) (i : Fin 512),
    ((s.row i).action ≠ 7 ∨ s.nowNs < (s.row i).at_) :=
  ⟨State.reset, 90, by decide⟩

theorem witness_TimeEvents_13 : ∃ (s : State) (i : Fin 512),
    ((s.row i).action = 8 ∧ 0 < (s.row i).per ∧ (s.row i).at_ ≤ s.nowNs ∧ s.nowNs < (s.row i).at_ + (s.row i).per) ∧
    (s.coresRun = true ∧ s.cas.pair = 0 ∧ s.rowTurn i = true) ∧
    ((s.row i).needValid = false ∨ s.tmu.valid = true) ∧
    ((s.row i).arg / 16 = 0) :=
  ⟨{ State.reset with tmu.sec := 100, tmu.rows := [(90, { tS := 100, perS := 1, action := 8, arg := 9 })] }, 90, by decide, by decide, by decide, by decide⟩

theorem witness_TimeEvents_14 : ∃ (s : State) (i : Fin 512),
    ((s.row i).action = 8 ∧ (s.row i).per = 0 ∧ (s.row i).at_ ≤ s.nowNs) ∧
    (s.coresRun = true ∧ s.cas.pair = 0 ∧ s.rowTurn i = true) ∧
    ((s.row i).needValid = false ∨ s.tmu.valid = true) ∧
    (0 < (s.row i).arg / 16) ∧
    (s.tmu.pulseEnd.find ((s.row i).arg % 4) = none) :=
  ⟨{ State.reset with tmu.sec := 100, tmu.rows := [(90, { tS := 100, action := 8, arg := 0x641 })] }, 90, by decide, by decide, by decide, by decide, by decide⟩

theorem witness_TimeEvents_15 : ∃ (s : State) (o : Fin 4) (e : Nat) (idle : Bool),
    (s.tmu.pulseEnd.find o = some (e, idle)) ∧
    (e ≤ s.nowNs) :=
  ⟨{ State.reset with tmu.sec := 100, tmu.pulse := 2, tmu.pulseEnd := [(1, (5, false))] }, 1, 5, false, by decide, by decide⟩

theorem witness_TimeCommands_1 : ∃ (s : State) (q : Fin 18) (c : Cmd),
    (s.standardFront q 0x0070 = some c) ∧
    (s.coresRun = true ∧ s.glb.mode ≠ .standby) ∧
    ([1, 2, 3, 4, 5, 6].contains (s.cmdRole c) = true) :=
  ⟨{ State.reset with hp.cmds := [{ raw := bytesOf [112, 0, 32, 0, 0, 0, 0, 0, 0, 0, 0, 0, 0, 0, 0, 0, 0, 0, 0, 0, 0, 0, 0, 0, 0, 0, 0, 0, 0, 0, 0, 0, 0, 0, 0, 0, 0, 0, 0, 0, 0, 0, 0, 0, 0, 0, 64, 0, 1, 0, 0, 0, 0, 0, 0, 0, 0, 0, 0, 0, 0, 0, 0, 0], sqid := 0, stage := .delivered }], hp.sessions := [(1, { open_ := true, role := 2 })] }, 0, { raw := bytesOf [112, 0, 32, 0, 0, 0, 0, 0, 0, 0, 0, 0, 0, 0, 0, 0, 0, 0, 0, 0, 0, 0, 0, 0, 0, 0, 0, 0, 0, 0, 0, 0, 0, 0, 0, 0, 0, 0, 0, 0, 0, 0, 0, 0, 0, 0, 64, 0, 1, 0, 0, 0, 0, 0, 0, 0, 0, 0, 0, 0, 0, 0, 0, 0], sqid := 0, stage := .delivered }, by decide, by decide, by decide⟩

theorem witness_TimeCommands_2 : ∃ (s : State) (q : Fin 18) (c : Cmd),
    (s.standardFront q 0x0071 = some c) ∧
    (s.coresRun = true ∧ s.glb.mode ≠ .standby) ∧
    ([2, 5].contains (s.cmdRole c) = true) ∧
    (field c.raw 16 4 < 1000000000 ∧ (field c.raw 8 8 * 1000000000 + field c.raw 16 4) ≤ s.nowNs + 1000000000 ∧ s.nowNs ≤ (field c.raw 8 8 * 1000000000 + field c.raw 16 4) + 1000000000) ∧
    (bitAt s.tmu.policy.allowed 3 = true ∧ s.tmu.valid = false) ∧
    (s.tmu.st = .freerun ∨ s.tmu.st = .holdover) :=
  ⟨{ State.reset with hp.cmds := [{ raw := bytesOf [113, 0, 0, 0, 0, 0, 0, 0, 100, 0, 0, 0, 0, 0, 0, 0, 0, 0, 0, 0, 0, 0, 0, 0, 0, 0, 0, 0, 0, 0, 0, 0, 0, 0, 0, 0, 0, 0, 0, 0, 0, 0, 0, 0, 0, 0, 0, 0, 1, 0, 0, 0, 0, 0, 0, 0, 0, 0, 0, 0, 0, 0, 0, 0], sqid := 0, stage := .delivered }], hp.sessions := [(1, { open_ := true, role := 2 })], tmu.sec := 100 }, 0, { raw := bytesOf [113, 0, 0, 0, 0, 0, 0, 0, 100, 0, 0, 0, 0, 0, 0, 0, 0, 0, 0, 0, 0, 0, 0, 0, 0, 0, 0, 0, 0, 0, 0, 0, 0, 0, 0, 0, 0, 0, 0, 0, 0, 0, 0, 0, 0, 0, 0, 0, 1, 0, 0, 0, 0, 0, 0, 0, 0, 0, 0, 0, 0, 0, 0, 0], sqid := 0, stage := .delivered }, by decide, by decide, by decide, by decide, by decide, by decide⟩

theorem witness_TimeCommands_3 : ∃ (s : State) (q : Fin 18) (c : Cmd),
    (s.standardFront q 0x0071 = some c) ∧
    (s.coresRun = true ∧ s.glb.mode ≠ .standby) ∧
    ([2, 5].contains (s.cmdRole c) = true) ∧
    (s.tmu.valid = true ∨ 1000000000 ≤ field c.raw 16 4 ∨ s.tmu.st = .locked ∨ s.tmu.st = .acquire ∨ (field c.raw 8 8 * 1000000000 + field c.raw 16 4) + 1000000000 < s.nowNs) :=
  ⟨{ State.reset with hp.cmds := [{ raw := bytesOf [113, 0, 0, 0, 0, 0, 0, 0, 100, 0, 0, 0, 0, 0, 0, 0, 0, 0, 0, 0, 0, 0, 0, 0, 0, 0, 0, 0, 0, 0, 0, 0, 0, 0, 0, 0, 0, 0, 0, 0, 0, 0, 0, 0, 0, 0, 0, 0, 1, 0, 0, 0, 0, 0, 0, 0, 0, 0, 0, 0, 0, 0, 0, 0], sqid := 0, stage := .delivered }], hp.sessions := [(1, { open_ := true, role := 2 })], tmu.valid := true }, 0, { raw := bytesOf [113, 0, 0, 0, 0, 0, 0, 0, 100, 0, 0, 0, 0, 0, 0, 0, 0, 0, 0, 0, 0, 0, 0, 0, 0, 0, 0, 0, 0, 0, 0, 0, 0, 0, 0, 0, 0, 0, 0, 0, 0, 0, 0, 0, 0, 0, 0, 0, 1, 0, 0, 0, 0, 0, 0, 0, 0, 0, 0, 0, 0, 0, 0, 0], sqid := 0, stage := .delivered }, by decide, by decide, by decide, by decide⟩

theorem witness_TimeCommands_4 : ∃ (s : State) (q : Fin 18) (c : Cmd),
    (s.standardFront q 0x0071 = some c) ∧
    (s.coresRun = true ∧ s.glb.mode ≠ .standby) ∧
    ([2, 5].contains (s.cmdRole c) = false) :=
  ⟨{ State.reset with hp.cmds := [{ raw := bytesOf [113, 0, 0, 0, 0, 0, 0, 0, 0, 0, 0, 0, 0, 0, 0, 0, 0, 0, 0, 0, 0, 0, 0, 0, 0, 0, 0, 0, 0, 0, 0, 0, 0, 0, 0, 0, 0, 0, 0, 0, 0, 0, 0, 0, 0, 0, 0, 0, 1, 0, 0, 0, 0, 0, 0, 0, 0, 0, 0, 0, 0, 0, 0, 0], sqid := 0, stage := .delivered }], hp.sessions := [(1, { open_ := true, role := 1 })] }, 0, { raw := bytesOf [113, 0, 0, 0, 0, 0, 0, 0, 0, 0, 0, 0, 0, 0, 0, 0, 0, 0, 0, 0, 0, 0, 0, 0, 0, 0, 0, 0, 0, 0, 0, 0, 0, 0, 0, 0, 0, 0, 0, 0, 0, 0, 0, 0, 0, 0, 0, 0, 1, 0, 0, 0, 0, 0, 0, 0, 0, 0, 0, 0, 0, 0, 0, 0], sqid := 0, stage := .delivered }, by decide, by decide, by decide⟩

theorem witness_TimeCommands_5 : ∃ (s : State) (q : Fin 18) (c : Cmd) (d : List Byte),
    (s.standardFront q 0x0072 = some c) ∧
    (s.coresRun = true ∧ s.glb.mode ≠ .standby) ∧
    ([2].contains (s.cmdRole c) = true) ∧
    (slice c.raw 8 17 = d) ∧
    (1 ≤ field d 0 1 ∧ field d 0 1 ≤ 2 ∧ field d 1 1 ≤ 127 ∧ field d 2 1 ≤ 2 ∧ field d 3 1 ≤ 1 ∧ zeros d 4 3 = true) ∧
    (bitAt s.tmu.policy.allowed (field d 0 1 - 1) = true) :=
  ⟨{ State.reset with hp.cmds := [{ raw := bytesOf [114, 0, 0, 0, 0, 0, 0, 0, 2, 5, 0, 0, 0, 0, 0, 77, 0, 0, 0, 0, 0, 0, 0, 0, 0, 0, 0, 0, 0, 0, 0, 0, 0, 0, 0, 0, 0, 0, 0, 0, 0, 0, 0, 0, 0, 0, 0, 0, 1, 0, 0, 0, 0, 0, 0, 0, 0, 0, 0, 0, 0, 0, 0, 0], sqid := 0, stage := .delivered }], hp.sessions := [(1, { open_ := true, role := 2 })] }, 0, { raw := bytesOf [114, 0, 0, 0, 0, 0, 0, 0, 2, 5, 0, 0, 0, 0, 0, 77, 0, 0, 0, 0, 0, 0, 0, 0, 0, 0, 0, 0, 0, 0, 0, 0, 0, 0, 0, 0, 0, 0, 0, 0, 0, 0, 0, 0, 0, 0, 0, 0, 1, 0, 0, 0, 0, 0, 0, 0, 0, 0, 0, 0, 0, 0, 0, 0], sqid := 0, stage := .delivered }, bytesOf [2, 5, 0, 0, 0, 0, 0, 77, 0, 0, 0, 0, 0, 0, 0, 0, 0], by decide, by decide, by decide, by decide, by decide, by decide⟩

theorem witness_TimeCommands_6 : ∃ (s : State) (q : Fin 18) (c : Cmd),
    (s.standardFront q 0x0072 = some c) ∧
    (s.coresRun = true ∧ s.glb.mode ≠ .standby) ∧
    ([2].contains (s.cmdRole c) = false) :=
  ⟨{ State.reset with hp.cmds := [{ raw := bytesOf [114, 0, 0, 0, 0, 0, 0, 0, 0, 0, 0, 0, 0, 0, 0, 0, 0, 0, 0, 0, 0, 0, 0, 0, 0, 0, 0, 0, 0, 0, 0, 0, 0, 0, 0, 0, 0, 0, 0, 0, 0, 0, 0, 0, 0, 0, 0, 0, 1, 0, 0, 0, 0, 0, 0, 0, 0, 0, 0, 0, 0, 0, 0, 0], sqid := 0, stage := .delivered }], hp.sessions := [(1, { open_ := true, role := 1 })] }, 0, { raw := bytesOf [114, 0, 0, 0, 0, 0, 0, 0, 0, 0, 0, 0, 0, 0, 0, 0, 0, 0, 0, 0, 0, 0, 0, 0, 0, 0, 0, 0, 0, 0, 0, 0, 0, 0, 0, 0, 0, 0, 0, 0, 0, 0, 0, 0, 0, 0, 0, 0, 1, 0, 0, 0, 0, 0, 0, 0, 0, 0, 0, 0, 0, 0, 0, 0], sqid := 0, stage := .delivered }, by decide, by decide, by decide⟩

theorem witness_TimeCommands_7 : ∃ (s : State) (q : Fin 18) (c : Cmd),
    (s.standardFront q 0x0073 = some c) ∧
    (s.coresRun = true ∧ s.glb.mode ≠ .standby) ∧
    ([1, 2, 3, 4, 5, 6].contains (s.cmdRole c) = true) ∧
    (field c.raw 8 2 ≤ 511 ∧ field c.raw 8 2 ≠ 8 ∧ (field c.raw 8 2 < 16 ∨ 80 ≤ field c.raw 8 2)) :=
  ⟨{ State.reset with hp.cmds := [{ raw := bytesOf [115, 0, 32, 0, 0, 0, 0, 0, 90, 0, 0, 0, 0, 0, 0, 0, 0, 0, 0, 0, 0, 0, 0, 0, 0, 0, 0, 0, 0, 0, 0, 0, 0, 0, 0, 0, 0, 0, 0, 0, 0, 0, 0, 0, 0, 0, 64, 0, 1, 0, 0, 0, 0, 0, 0, 0, 0, 0, 0, 0, 0, 0, 0, 0], sqid := 0, stage := .delivered }], hp.sessions := [(1, { open_ := true, role := 2 })] }, 0, { raw := bytesOf [115, 0, 32, 0, 0, 0, 0, 0, 90, 0, 0, 0, 0, 0, 0, 0, 0, 0, 0, 0, 0, 0, 0, 0, 0, 0, 0, 0, 0, 0, 0, 0, 0, 0, 0, 0, 0, 0, 0, 0, 0, 0, 0, 0, 0, 0, 64, 0, 1, 0, 0, 0, 0, 0, 0, 0, 0, 0, 0, 0, 0, 0, 0, 0], sqid := 0, stage := .delivered }, by decide, by decide, by decide, by decide⟩

theorem witness_TimeCommands_8 : ∃ (s : State) (q : Fin 18) (c : Cmd),
    (s.standardFront q 0x0074 = some c) ∧
    (s.coresRun = true ∧ s.glb.mode ≠ .standby) ∧
    ([2].contains (s.cmdRole c) = true) ∧
    (c.data.length = 24) ∧
    (80 ≤ (field c.raw 8 2) ∧ (field c.raw 8 2) < 448) ∧
    (field c.data 8 4 < 1000000000 ∧ field c.data 16 4 < 1000000000 ∧ (field c.data 20 1 = 7 ∨ field c.data 20 1 = 8) ∧ field c.data 21 1 < 4) ∧
    (field c.data 12 4 = 0 ∧ field c.data 16 4 = 0 ∨ 1000000 ≤ field c.data 12 4 * 1000000000 + field c.data 16 4) ∧
    (s.nowNs + 1000000 ≤ field c.data 0 8 * 1000000000 + field c.data 8 4) ∧
    (s.glb.mode ≠ .standby ∧ s.cas.pair = 0) :=
  ⟨{ State.reset with hp.cmds := [{ raw := bytesOf [116, 0, 0, 0, 0, 0, 0, 0, 90, 0, 0, 0, 0, 0, 0, 0, 0, 0, 0, 0, 0, 0, 0, 0, 0, 0, 0, 0, 0, 0, 0, 0, 0, 0, 0, 0, 0, 0, 0, 0, 0, 0, 0, 0, 0, 0, 0, 0, 1, 0, 0, 0, 0, 0, 0, 0, 0, 0, 0, 0, 0, 0, 0, 0], sqid := 0, stage := .delivered, data := bytesOf [100, 0, 0, 0, 0, 0, 0, 0, 0, 0, 0, 0, 0, 0, 0, 0, 0, 0, 0, 0, 7, 0, 0, 0] }], hp.sessions := [(1, { open_ := true, role := 2 })] }, 0, { raw := bytesOf [116, 0, 0, 0, 0, 0, 0, 0, 90, 0, 0, 0, 0, 0, 0, 0, 0, 0, 0, 0, 0, 0, 0, 0, 0, 0, 0, 0, 0, 0, 0, 0, 0, 0, 0, 0, 0, 0, 0, 0, 0, 0, 0, 0, 0, 0, 0, 0, 1, 0, 0, 0, 0, 0, 0, 0, 0, 0, 0, 0, 0, 0, 0, 0], sqid := 0, stage := .delivered, data := bytesOf [100, 0, 0, 0, 0, 0, 0, 0, 0, 0, 0, 0, 0, 0, 0, 0, 0, 0, 0, 0, 7, 0, 0, 0] }, by decide, by decide, by decide, by decide, by decide, by decide, by decide, by decide, by decide⟩

theorem witness_TimeCommands_9 : ∃ (s : State) (q : Fin 18) (c : Cmd),
    (s.standardFront q 0x0074 = some c) ∧
    (s.coresRun = true ∧ s.glb.mode ≠ .standby) ∧
    ([2].contains (s.cmdRole c) = false) :=
  ⟨{ State.reset with hp.cmds := [{ raw := bytesOf [116, 0, 0, 0, 0, 0, 0, 0, 0, 0, 0, 0, 0, 0, 0, 0, 0, 0, 0, 0, 0, 0, 0, 0, 0, 0, 0, 0, 0, 0, 0, 0, 0, 0, 0, 0, 0, 0, 0, 0, 0, 0, 0, 0, 0, 0, 0, 0, 1, 0, 0, 0, 0, 0, 0, 0, 0, 0, 0, 0, 0, 0, 0, 0], sqid := 0, stage := .delivered }], hp.sessions := [(1, { open_ := true, role := 1 })] }, 0, { raw := bytesOf [116, 0, 0, 0, 0, 0, 0, 0, 0, 0, 0, 0, 0, 0, 0, 0, 0, 0, 0, 0, 0, 0, 0, 0, 0, 0, 0, 0, 0, 0, 0, 0, 0, 0, 0, 0, 0, 0, 0, 0, 0, 0, 0, 0, 0, 0, 0, 0, 1, 0, 0, 0, 0, 0, 0, 0, 0, 0, 0, 0, 0, 0, 0, 0], sqid := 0, stage := .delivered }, by decide, by decide, by decide⟩

theorem witness_LakeCalls_1 : ∃ (s : State) (t : Fin 256) (pi : Fin 8) (rt ra : Fin 32) (p : Place) (i : Nat) (b : List Byte),
    (s.callsAt t pi ra 0x60 8 p i = true) ∧
    (s.load p 8 = b) ∧
    (zeros b 4 4 = true) ∧
    (s.lake.heack ≤ field b 0 4 ∧ field b 0 4 ≤ s.lake.lsnHead) :=
  ⟨{ State.reset with mcc.dmem := [(0, 3#8)], lake.lsnHead := 5 }, 0, 0, 0, 0, .dmem 0, 0, bytesOf [0x3, 0x0, 0x0, 0x0, 0x0, 0x0, 0x0, 0x0], by decide, by decide, by decide, by decide⟩

theorem witness_LakeCalls_2 : ∃ (s : State) (t : Fin 256) (pi : Fin 8) (rt ra : Fin 32) (p : Place) (i : Nat) (b : List Byte),
    (s.callsAt t pi ra 0x60 8 p i = true) ∧
    (s.load p 8 = b) ∧
    (field b 0 4 < s.lake.heack ∨ s.lake.lsnHead < field b 0 4) :=
  ⟨{ State.reset with mcc.dmem := [(0, 3#8)] }, 0, 0, 0, 0, .dmem 0, 0, bytesOf [0x3, 0x0, 0x0, 0x0, 0x0, 0x0, 0x0, 0x0], by decide, by decide, by decide⟩

theorem witness_LakeCalls_3 : ∃ (s : State) (t : Fin 256) (pi : Fin 8) (rt ra : Fin 32) (p : Place) (i : Nat) (b : List Byte) (q : Place),
    (s.callsAt t pi ra 0x61 16 p i = true) ∧
    (s.load p 16 = b) ∧
    (zeros b 8 8 = true) ∧
    (s.lake.ready = true) ∧
    ((s.thr t).bufPlace t (field b 0 8) 128 = some q) :=
  ⟨{ State.reset with mcc.dmem := [(0, 64#8)], lake.ready := true }, 0, 0, 0, 0, .dmem 0, 0, bytesOf [0x40, 0x0, 0x0, 0x0, 0x0, 0x0, 0x0, 0x0, 0x0, 0x0, 0x0, 0x0, 0x0, 0x0, 0x0, 0x0], .dmem 64, by decide, by decide, by decide, by decide, by decide⟩

theorem witness_LakeCalls_4 : ∃ (s : State) (t : Fin 256) (pi : Fin 8) (rt ra : Fin 32) (p : Place) (i : Nat) (b : List Byte),
    (s.callsAt t pi ra 0x62 8 p i = true) ∧
    (s.load p 8 = b) ∧
    (s.lake.ready = true) ∧
    (s.credits ≠ 0) :=
  ⟨{ State.reset with mcc.dmem := [(0, 137#8), (1, 103#8), (2, 69#8), (3, 35#8), (4, 1#8)], lake.ready := true }, 0, 0, 0, 0, .dmem 0, 0, bytesOf [0x89, 0x67, 0x45, 0x23, 0x1, 0x0, 0x0, 0x0], by decide, by decide, by decide, by decide⟩

theorem witness_LakeCalls_5 : ∃ (s : State) (t : Fin 256) (pi : Fin 8) (rt ra : Fin 32) (p : Place) (i : Nat) (b : List Byte) (l : List Byte) (q : Place),
    (s.callsAt t pi ra 0x63 32 p i = true) ∧
    (s.load p 32 = b) ∧
    (zeros b 20 4 = true ∧ zeros b 28 4 = true ∧ field b 4 4 % 8 = 0 ∧ field b 4 4 < 262144 ∧ field b 16 4 % 8 = 0 ∧ 8 ≤ field b 16 4 ∧ field b 16 4 ≤ 65536) ∧
    (s.lake.logRead (field b 0 4) (field b 4 4) (field b 16 4) = (stOk, l)) ∧
    ((s.thr t).bufPlace t (field b 8 8) l.length = some q) :=
  ⟨{ State.reset with mcc.dmem := [(8, 64#8), (16, 16#8)], lake.lsnHead := 1, lake.log := [{ lsn := 0, off := 0, rtype := 4, src := 511, mh := 3, flags := 0, dtime := 0, body := bytesOf [1, 2], landed := true }] }, 0, 0, 0, 0, .dmem 0, 0, bytesOf [0x0, 0x0, 0x0, 0x0, 0x0, 0x0, 0x0, 0x0, 0x40, 0x0, 0x0, 0x0, 0x0, 0x0, 0x0, 0x0, 0x10, 0x0, 0x0, 0x0, 0x0, 0x0, 0x0, 0x0, 0x0, 0x0, 0x0, 0x0, 0x0, 0x0, 0x0, 0x0], bytesOf [4, 24, 3, 0, 240, 31, 0, 0, 0, 0, 0, 0, 0, 0, 0, 0], .dmem 64, by decide, by decide, by decide, by decide, by decide⟩

theorem witness_LakeCalls_6 : ∃ (s : State) (t : Fin 256) (pi : Fin 8) (rt ra : Fin 32) (p : Place) (i : Nat) (b : List Byte),
    (s.callsAt t pi ra 0x63 32 p i = true) ∧
    (s.load p 32 = b) ∧
    (zeros b 20 4 = true ∧ zeros b 28 4 = true ∧ field b 4 4 % 8 = 0 ∧ field b 4 4 < 262144 ∧ field b 16 4 % 8 = 0 ∧ 8 ≤ field b 16 4 ∧ field b 16 4 ≤ 65536) ∧
    (field b 0 4 < s.lake.lsnTail ∨ s.lake.lsnHead ≤ field b 0 4) :=
  ⟨{ State.reset with mcc.dmem := [(16, 16#8)] }, 0, 0, 0, 0, .dmem 0, 0, bytesOf [0x0, 0x0, 0x0, 0x0, 0x0, 0x0, 0x0, 0x0, 0x0, 0x0, 0x0, 0x0, 0x0, 0x0, 0x0, 0x0, 0x10, 0x0, 0x0, 0x0, 0x0, 0x0, 0x0, 0x0, 0x0, 0x0, 0x0, 0x0, 0x0, 0x0, 0x0, 0x0], by decide, by decide, by decide, by decide⟩

theorem witness_LakeCalls_7 : ∃ (s : State) (t : Fin 256) (pi : Fin 8) (rt ra : Fin 32) (p : Place) (i : Nat) (b : List Byte) (q : Place),
    (s.callsAt t pi ra 0x64 32 p i = true) ∧
    (s.load p 32 = b) ∧
    (zeros b 20 12 = true ∧ field b 0 8 % 4096 = 0 ∧ field b 0 8 + 4096 ≤ s.lake.volGiB * 2 ^ 30 ∧ field b 16 4 = 4096) ∧
    (s.lake.bad.get false (7 * 2 ^ 40 + field b 0 8 / 4096) = false) ∧
    ((s.thr t).bufPlace t (field b 8 8) 4096 = some q) ∧
    ((s.lake.vol.get (zeroBytes 4096) (field b 0 8 / 4096)).length = 4096) :=
  ⟨{ State.reset with mcc.dmem := [(1, 32#8), (9, 16#8), (17, 16#8)], lake.volGiB := 1 }, 0, 0, 0, 0, .dmem 0, 0, bytesOf [0x0, 0x20, 0x0, 0x0, 0x0, 0x0, 0x0, 0x0, 0x0, 0x10, 0x0, 0x0, 0x0, 0x0, 0x0, 0x0, 0x0, 0x10, 0x0, 0x0, 0x0, 0x0, 0x0, 0x0, 0x0, 0x0, 0x0, 0x0, 0x0, 0x0, 0x0, 0x0], .dmem 4096, by decide, by decide, by decide, by decide, by decide, by decide⟩

set_option Elab.async false in
theorem witness_LakeCalls_8 : ∃ (s : State) (t : Fin 256) (pi : Fin 8) (rt ra : Fin 32) (p : Place) (i : Nat) (b : List Byte) (q : Place) (d : List Byte),
    (s.callsAt t pi ra 0x65 32 p i = true) ∧
    (s.load p 32 = b) ∧
    (zeros b 20 12 = true ∧ field b 0 8 % 4096 = 0 ∧ field b 0 8 + 4096 ≤ s.lake.volGiB * 2 ^ 30 ∧ field b 16 4 = 4096) ∧
    ((s.thr t).bufPlace t (field b 8 8) (4096) = some q) ∧
    (s.poisoned q 4096 = false) ∧
    (s.load q 4096 = d) ∧
    (s.volUsed + 1 ≤ s.lake.volGiB * 262144 * 112 / 100) :=
  ⟨{ State.reset with mcc.dmem := [(1, 32#8), (9, 16#8), (17, 16#8)], lake.volGiB := 1 }, 0, 0, 0, 0, .dmem 0, 0, bytesOf [0x0, 0x20, 0x0, 0x0, 0x0, 0x0, 0x0, 0x0, 0x0, 0x10, 0x0, 0x0, 0x0, 0x0, 0x0, 0x0, 0x0, 0x10, 0x0, 0x0, 0x0, 0x0, 0x0, 0x0, 0x0, 0x0, 0x0, 0x0, 0x0, 0x0, 0x0, 0x0], .dmem 4096, readBytes [(1, 32#8), (9, 16#8), (17, 16#8)] 4096 4096, by decide, by decide, by decide, by decide, by decide +kernel, rfl, by decide⟩

theorem witness_LakeCalls_9 : ∃ (s : State) (t : Fin 256) (pi : Fin 8) (rt ra : Fin 32) (p : Place) (i : Nat) (b : List Byte),
    (s.callsAt t pi ra 0x66 16 p i = true) ∧
    (s.load p 16 = b) ∧
    (zeros b 12 4 = true ∧ field b 0 8 % 4096 = 0 ∧ field b 0 8 + field b 8 4 * 4096 ≤ s.lake.volGiB * 2 ^ 30) :=
  ⟨{ State.reset with mcc.dmem := [(1, 32#8), (8, 2#8)], lake.volGiB := 1, lake.vol := [(2, [1#8]), (9, [2#8])] }, 0, 0, 0, 0, .dmem 0, 0, bytesOf [0x0, 0x20, 0x0, 0x0, 0x0, 0x0, 0x0, 0x0, 0x2, 0x0, 0x0, 0x0, 0x0, 0x0, 0x0, 0x0], by decide, by decide, by decide⟩

theorem witness_LakeCalls_10 : ∃ (s : State) (t : Fin 256) (pi : Fin 8) (rt ra : Fin 32) (p : Place) (i : Nat) (b : List Byte),
    (s.callsAt t pi ra 0x67 8 p i = true) ∧
    (s.load p 8 = b) ∧
    (zeros b 4 4 = true) ∧
    (field b 0 4 + 64 * s.lake.geom.dg ≤ s.lake.logQuota) ∧
    (s.lake.protect = false) :=
  ⟨{ State.reset with mcc.dmem := [(0, 10#8)], lake.logQuota := 1000, lake.geom := { dg := 1 } }, 0, 0, 0, 0, .dmem 0, 0, bytesOf [0xA, 0x0, 0x0, 0x0, 0x0, 0x0, 0x0, 0x0], by decide, by decide, by decide, by decide, by decide⟩

theorem witness_LakeCalls_11 : ∃ (s : State) (t : Fin 256) (pi : Fin 8) (rt ra : Fin 32) (p : Place) (i : Nat) (b : List Byte),
    (s.callsAt t pi ra 0x68 64 p i = true) ∧
    (s.load p 64 = b) ∧
    (zeros b 3 1 = true ∧ zeros b 8 56 = true) ∧
    (s.ldg.sealed = false ∧ s.lake.inited = true) ∧
    (field b 4 4 = 0x464F524D ∧ 1 ≤ field b 0 1 ∧ field b 0 1 ≤ 32 ∧ field b 1 1 ≤ 64 ∧ 1 ≤ field b 2 1 ∧ field b 2 1 ≤ 36) ∧
    ((s.lake.totalBlocks : Int) ≤ (s.lake.quotas (field b 0 1) (field b 1 1) (field b 2 1)).2.2 * 10) :=
  ⟨{ State.reset with mcc.dmem := [(0, 1#8), (2, 1#8), (4, 77#8), (5, 82#8), (6, 79#8), (7, 70#8)], lake.inited := true, lake.blocks := [(3, { st := 7 })], lake.geom := { dg := 1, lunch := 2, planes := 4, bpc := 3, tmode := 5, pages := 1000, blocksPerLun := 512 } }, 0, 0, 0, 0, .dmem 0, 0, bytesOf [0x1, 0x0, 0x1, 0x0, 0x4D, 0x52, 0x4F, 0x46, 0x0, 0x0, 0x0, 0x0, 0x0, 0x0, 0x0, 0x0, 0x0, 0x0, 0x0, 0x0, 0x0, 0x0, 0x0, 0x0, 0x0, 0x0, 0x0, 0x0, 0x0, 0x0, 0x0, 0x0, 0x0, 0x0, 0x0, 0x0, 0x0, 0x0, 0x0, 0x0, 0x0, 0x0, 0x0, 0x0, 0x0, 0x0, 0x0, 0x0, 0x0, 0x0, 0x0, 0x0, 0x0, 0x0, 0x0, 0x0, 0x0, 0x0, 0x0, 0x0, 0x0, 0x0, 0x0, 0x0], by decide, by decide, by decide, by decide, by decide, by decide⟩

theorem witness_LakeCalls_12 : ∃ (s : State) (t : Fin 256) (pi : Fin 8) (rt ra : Fin 32) (p : Place) (i : Nat) (b : List Byte),
    (s.callsAt t pi ra 0x68 64 p i = true) ∧
    (s.load p 64 = b) ∧
    (zeros b 3 1 = true ∧ zeros b 8 56 = true) ∧
    (s.ldg.sealed = true) :=
  ⟨{ State.reset with mcc.dmem := [(4, 77#8), (5, 82#8), (6, 79#8), (7, 70#8)], ldg.sealed := true }, 0, 0, 0, 0, .dmem 0, 0, bytesOf [0x0, 0x0, 0x0, 0x0, 0x4D, 0x52, 0x4F, 0x46, 0x0, 0x0, 0x0, 0x0, 0x0, 0x0, 0x0, 0x0, 0x0, 0x0, 0x0, 0x0, 0x0, 0x0, 0x0, 0x0, 0x0, 0x0, 0x0, 0x0, 0x0, 0x0, 0x0, 0x0, 0x0, 0x0, 0x0, 0x0, 0x0, 0x0, 0x0, 0x0, 0x0, 0x0, 0x0, 0x0, 0x0, 0x0, 0x0, 0x0, 0x0, 0x0, 0x0, 0x0, 0x0, 0x0, 0x0, 0x0, 0x0, 0x0, 0x0, 0x0, 0x0, 0x0, 0x0, 0x0], by decide, by decide, by decide, by decide⟩

theorem witness_LakeNand_1 : ∃ (s : State) (lun block at_ ch tg l : Nat),
    (s.lake.inited = true ∧ lun < s.lake.luns) ∧
    (at_ + (s.maxOp 0 + 1000) * 1000 ≤ s.nowNs) ∧
    ((s.lake.lunErrs.get [] lun).length < 7) ∧
    (s.lake.geom.place lun = (ch, tg, l) ∧ s.lake.geom.tgts ≤ 1) ∧
    (s.clocked = true) :=
  ⟨{ State.reset with lake.inited := true, tmu.sec := 9, lake.geom := { dg := 1, lunch := 2, planes := 4, bpc := 3, tmode := 5, pages := 1000, blocksPerLun := 512 } }, 3, 9, 5, 3, 0, 0, by decide, by decide, by decide, by decide, by decide⟩

theorem witness_LakeNand_2 : ∃ (s : State) (lun block kind at_ : Nat) (answers : Bool),
    (s.nowNs < at_ + (s.maxOp kind + 1000) * 1000) :=
  ⟨{ State.reset with lake.inited := true, lake.geom := { dg := 1, lunch := 2, planes := 4, bpc := 3, tmode := 5, pages := 1000, blocksPerLun := 512 } }, 3, 9, 0, 5, true, by decide⟩

theorem witness_LakeNand_3 : ∃ (s : State) (lun block at_ : Nat),
    (s.lake.inited = true ∧ lun < s.lake.luns) ∧
    (at_ + (s.maxOp 0 + 1000) * 1000 ≤ s.nowNs) ∧
    (s.lake.lunFailed.get false lun = false) ∧
    (s.clocked = true) :=
  ⟨{ State.reset with lake.inited := true, tmu.sec := 9, lake.geom := { dg := 1, lunch := 2, planes := 4, bpc := 3, tmode := 5, pages := 1000, blocksPerLun := 512 } }, 3, 9, 5, by decide, by decide, by decide, by decide⟩

set_option Elab.async false in
theorem witness_LakeNand_4 : ∃ (s : State) (pca corrected : Nat) (r : ReadIn) (x : CTag),
    (s.lake.inited = true) ∧
    (s.lake.chunks.find pca = some x) ∧
    (ladder 0 r.tries = .passed 0 corrected) ∧
    (corrected ≤ 80) ∧
    (s.readLimit = 0 ∨ (s.lake.block (pca / 4096)).reads + 1 < s.readLimit) ∧
    (s.clocked = true) :=
  ⟨{ State.reset with lake.inited := true, lake.chunks := [(5, { space := 5, stripe := 1, laddr := 7 })], lake.stripes := [(1, { group := 0, stream := 5, blocks := [some 0], ppos := 15, st := 2 })], lake.maps := [(5497558138887, 5)] }, 5, 3, { tries := [{ ones := 0, corrected := some 3, word := zeroBytes 4128 ++ bytesOf [146, 123, 238, 191] }] }, { space := 5, stripe := 1, laddr := 7 }, by decide, by decide, by decide +kernel, by decide, by decide, by decide⟩

theorem witness_LakeNand_5 : ∃ (s : State) (pca : Nat) (r : ReadIn) (x : CTag),
    (s.lake.inited = true) ∧
    (s.lake.chunks.find pca = some x) ∧
    (ladder 0 r.tries = .failed) ∧
    ((s.lake.stripes.find x.stripe).map (·.st) = some 2) ∧
    (s.readLimit = 0 ∨ (s.lake.block (pca / 4096)).reads + 1 < s.readLimit) ∧
    (x.space = 5 ∧ x.laddr < 2 ^ 40) ∧
    (s.lake.live pca x = true) ∧
    (s.clocked = true) :=
  ⟨{ State.reset with lake.inited := true, lake.chunks := [(5, { space := 5, stripe := 1, laddr := 7 })], lake.stripes := [(1, { group := 0, stream := 5, blocks := [some 0], ppos := 15, st := 2 })], lake.maps := [(5497558138887, 5)] }, 5, { tries := [{ ones := 3, corrected := none, word := [] }] }, { space := 5, stripe := 1, laddr := 7 }, by decide, by decide, by decide, by decide, by decide, by decide, by decide, by decide⟩

set_option Elab.async false in
theorem witness_LakeNand_6 : ∃ (s : State) (pca corrected : Nat) (r : ReadIn) (x : CTag),
    (s.lake.ready = true ∧ s.cpm.pfail = false) ∧
    (s.lake.patrolNext s.lake.patrolPos = some pca) ∧
    (s.lake.chunks.find pca = some x) ∧
    (ladder 0 r.tries = .passed 0 corrected) ∧
    (corrected ≤ 80) ∧
    (s.readLimit = 0 ∨ (s.lake.block (pca / 4096)).reads + 1 < s.readLimit) :=
  ⟨{ State.reset with lake.inited := true, lake.chunks := [(5, { space := 5, stripe := 1, laddr := 7 })], lake.stripes := [(1, { group := 0, stream := 5, blocks := [some 0], ppos := 15, st := 2 })], lake.maps := [(5497558138887, 5)], lake.ready := true, lake.blocks := [(0, { st := 4 })] }, 5, 3, { tries := [{ ones := 0, corrected := some 3, word := zeroBytes 4128 ++ bytesOf [146, 123, 238, 191] }] }, { space := 5, stripe := 1, laddr := 7 }, by decide, by decide, by decide, by decide +kernel, by decide, by decide⟩

theorem witness_LakeNand_7 : ∃ (s : State) (r : ReadIn),
    (s.lake.patrolNext s.lake.patrolPos = none) ∧
    (s.nowNs < s.lake.patrolAt + 2592000000000000) :=
  ⟨State.reset, { tries := [] }, by decide, by decide⟩

theorem witness_LakeNand_8 : ∃ (s : State) (stream n k : Nat) (keys : List Nat) (x : Stripe),
    (s.lake.inited = true ∧ s.lake.formatted = true) ∧
    ([3, 5, 6, 7].contains stream = true) ∧
    (keys.length = 4 ∧ keys.Nodup ∧ keys.all (s.mayProgram stream) = true) ∧
    (s.lake.openStripe.find stream = some n) ∧
    (s.lake.stripes.find n = some x) ∧
    (x.blocks.getD (x.data.getD (x.wpos % x.data.length) 16) none = some k) ∧
    (x.wpos / x.data.length + 1 < s.lake.geom.pages) :=
  ⟨{ State.reset with lake.inited := true, lake.formatted := true, lake.geom := { dg := 1, pages := 4 }, lake.openStripe := [(7, 1)], lake.stripes := [(1, { group := 0, stream := 7, blocks := [some 4096, some 8192], ppos := 15 })] }, 7, 1, 4096, [7696581394432, 7696581394433, 7696581394434, 7696581394435], { group := 0, stream := 7, blocks := [some 4096, some 8192], ppos := 15 }, by decide, by decide, by decide, by decide, by decide, by decide, by decide⟩

theorem witness_LakeNand_9 : ∃ (s : State) (stream n k : Nat) (keys : List Nat) (x : Stripe),
    (s.lake.inited = true ∧ s.lake.formatted = true) ∧
    ([3, 5, 6, 7].contains stream = true) ∧
    (keys.length = 4 ∧ keys.Nodup ∧ keys.all (s.mayProgram stream) = true) ∧
    (s.lake.openStripe.find stream = some n) ∧
    (s.lake.stripes.find n = some x) ∧
    (x.blocks.getD (x.data.getD (x.wpos % x.data.length) 16) none = some k) :=
  ⟨{ State.reset with lake.inited := true, lake.formatted := true, lake.geom := { dg := 1, pages := 4 }, lake.openStripe := [(7, 1)], lake.stripes := [(1, { group := 0, stream := 7, blocks := [some 4096, some 8192], ppos := 15 })] }, 7, 1, 4096, [7696581394432, 7696581394433, 7696581394434, 7696581394435], { group := 0, stream := 7, blocks := [some 4096, some 8192], ppos := 15 }, by decide, by decide, by decide, by decide, by decide, by decide⟩

theorem witness_LakeNand_10 : ∃ (s : State) (lun block : Nat),
    ((s.lake.block (blockKey lun block)).st = 5 ∧ s.cpm.pfail = false ∧ s.lake.protect = false ∧ s.lake.inited = true) :=
  ⟨{ State.reset with lake.inited := true, lake.blocks := [(9, { st := 5, pe := 3 })], lake.chunks := [(36870, { space := 5 })] }, 0, 9, by decide⟩

theorem witness_LakeNand_11 : ∃ (s : State) (lun block : Nat),
    ((s.lake.block (blockKey lun block)).st = 5 ∧ s.cpm.pfail = false ∧ s.lake.inited = true) :=
  ⟨{ State.reset with lake.inited := true, lake.blocks := [(9, { st := 5, pe := 3 })] }, 0, 9, by decide⟩

theorem witness_LakeNand_12 : ∃ (s : State) (lun block : Nat) (pass : Bool),
    ((s.lake.block (blockKey lun block)).st ≠ 5) :=
  ⟨State.reset, 0, 9, true, by decide⟩

theorem witness_LakeBackground_1 : ∃ (s : State),
    (s.lake.inited = true ∧ s.cpm.pfail = false) ∧
    (s.lake.lastZq + 600000000000 ≤ s.nowNs) ∧
    (s.lake.geom.tgts = 1) ∧
    (s.clocked = true) :=
  ⟨{ State.reset with lake.inited := true, tmu.sec := 700 }, by decide, by decide, by decide, by decide⟩

theorem witness_LakeBackground_2 : ∃ (s : State),
    (s.nowNs < s.lake.lastZq + 600000000000) :=
  ⟨State.reset, by decide⟩

theorem witness_LakeBackground_3 : ∃ (s : State) (x : JRec) (l : List JRec),
    (s.lake.inited = true ∧ s.lake.landFull = false ∧ s.lake.protect = false) ∧
    (s.ldg.jq = x :: l) ∧
    (x.landed = false ∧ x.acked = false) ∧
    (x.at_ + 1000000 ≤ s.nowNs) ∧
    (s.clocked = true) :=
  ⟨{ State.reset with lake.inited := true, tmu.sec := 1, ldg.jq := [{ jseq := 4, typ := 7, eff := .force 3 none, acked := false }] }, { jseq := 4, typ := 7, eff := .force 3 none, acked := false }, [], by decide, by decide, by decide, by decide, by decide⟩

theorem witness_LakeBackground_4 : ∃ (s : State) (x : JRec) (l : List JRec),
    (s.ldg.jq = x :: l) ∧
    (x.landed = false) ∧
    (s.nowNs < x.at_ + 1000000 ∧ s.ldg.jpos / 4096 ≤ x.pos / 4096) :=
  ⟨{ State.reset with lake.inited := true, ldg.jq := [{ jseq := 4, typ := 7, eff := .force 3 none, acked := false }] }, { jseq := 4, typ := 7, eff := .force 3 none, acked := false }, [], by decide, by decide, by decide⟩

theorem witness_LakeBackground_5 : ∃ (s : State) (x : LogRec) (l : List LogRec),
    (s.lake.inited = true ∧ s.lake.landFull = false ∧ s.lake.ready = true) ∧
    (s.lake.log = x :: l) ∧
    (x.landed = false ∧ (∀ y ∈ l, y.landed = true)) ∧
    (x.at_ + 4000000 ≤ s.nowNs) ∧
    (s.clocked = true) :=
  ⟨{ State.reset with lake.inited := true, lake.ready := true, tmu.sec := 1, lake.log := [{ lsn := 0, off := 0, rtype := 4, src := 511, mh := 3, flags := 0, dtime := 0, body := [] }] }, { lsn := 0, off := 0, rtype := 4, src := 511, mh := 3, flags := 0, dtime := 0, body := [] }, [], by decide, by decide, by decide, by decide, by decide⟩

theorem witness_LakeBackground_6 : ∃ (s : State) (n k at_ : Nat) (d : List Byte) (l : List VolWrite),
    (s.lake.inited = true ∧ s.lake.landFull = false) ∧
    (s.lake.volPend = { id := n, chunks := [(k, d)], at_ := at_ } :: l) :=
  ⟨{ State.reset with lake.inited := true, lake.volPend := [{ id := 4, chunks := [(9, [1#8])], at_ := 0 }] }, 4, 9, 0, [1#8], [], by decide, by decide⟩

theorem witness_LakeBackground_7 : ∃ (s : State),
    (s.lake.landFull = true) :=
  ⟨{ State.reset with lake.landFull := true }, by decide⟩

theorem witness_LakeBackground_8 : ∃ (s : State) (n : Nat) (x : Stripe),
    (s.lake.ready = true ∧ s.lake.freeLog < 4 * s.lake.geom.dg) ∧
    (s.lake.tailStripe = some (n, x)) ∧
    (x.st = 2 ∧ s.lake.lsnsOf n ≠ [] ∧ (∀ l ∈ s.lake.lsnsOf n, l < s.lake.heack)) ∧
    (s.clocked = true) :=
  ⟨{ State.reset with lake.ready := true, lake.geom := { dg := 1 }, lake.logQuota := 40, lake.heack := 1, lake.lsnHead := 2, lake.maps := [(5497558138880, 0)], lake.chunks := [(0, { space := 5, stripe := 1 })], lake.stripes := [(1, { group := 0, stream := 5, blocks := [some 0], ppos := 15, st := 2 })], lake.blocks := [(0, { st := 4 })] }, 1, { group := 0, stream := 5, blocks := [some 0], ppos := 15, st := 2 }, by decide, by decide, by decide, by decide⟩

theorem witness_LakeBackground_9 : ∃ (s : State),
    (s.lake.ready = true ∧ s.lake.logFull = false) ∧
    (s.lake.tailStripe = none) ∧
    (s.lake.freeLog < 2 * s.lake.geom.dg) ∧
    (s.clocked = true) :=
  ⟨{ State.reset with lake.ready := true, lake.geom := { dg := 1 } }, by decide, by decide, by decide, by decide⟩

theorem witness_LakeBackground_10 : ∃ (s : State),
    (s.lake.ready = true ∧ s.lake.logFull = true) ∧
    (4 * s.lake.geom.dg ≤ s.lake.freeLog) ∧
    (s.clocked = true) :=
  ⟨{ State.reset with lake.ready := true, lake.geom := { dg := 1 }, lake.logQuota := 200, lake.logFull := true }, by decide, by decide, by decide⟩

theorem witness_LakeBackground_11 : ∃ (s : State) (space : Nat),
    (s.lake.ready = true ∧ s.cpm.pfail = false ∧ [3, 4, 6, 7].contains space = true) ∧
    (∃ e ∈ s.lake.stripes, e.2.stream % 16 = space ∧ e.2.st = 2 ∧ s.lake.victims.find e.1 = none) ∧
    (s.clocked = true) :=
  ⟨{ State.reset with lake.ready := true, lake.geom := { dg := 1 }, lake.logQuota := 40, lake.heack := 1, lake.lsnHead := 2, lake.maps := [(5497558138880, 0)], lake.chunks := [(0, { space := 5, stripe := 1 })], lake.stripes := [(1, { group := 0, stream := 7, blocks := [some 0], ppos := 15, st := 2 })], lake.blocks := [(0, { st := 4 })] }, 7, by decide, by decide, by decide⟩

theorem witness_LakeBackground_12 : ∃ (s : State) (mh : Nat) (m : Meter) (n k : Nat) (x : Stripe),
    (s.lake.ready = true ∧ s.lake.protect = false) ∧
    (s.ldg.dur.meters = [(mh, m)]) ∧
    (s.ldg.jq.all (·.landed) = true) ∧
    (s.lake.openStripe.find 4 = some n) ∧
    (s.lake.stripes.find n = some x) ∧
    (x.blocks.getD (x.data.getD (x.wpos % x.data.length) 16) none = some k) ∧
    (x.wpos / x.data.length + 1 < s.lake.geom.pages) ∧
    (s.clocked = true) :=
  ⟨{ State.reset with lake.ready := true, lake.geom := { dg := 1, pages := 4 }, lake.openStripe := [(4, 1), (8, 2)], lake.stripes := [(1, { group := 0, stream := 4, blocks := [some 4096, some 8192], ppos := 15 }), (2, { group := 0, stream := 8, blocks := [some 12288, some 16384], ppos := 15 })], ldg.dur.meters := [(17, {})], ldg.jseq := 8 }, 17, {}, 1, 4096, { group := 0, stream := 4, blocks := [some 4096, some 8192], ppos := 15 }, by decide, by decide, by decide, by decide, by decide, by decide, by decide, by decide⟩

theorem witness_LakeBackground_13 : ∃ (s : State),
    (s.lake.inited = true ∧ s.lake.mjStaged ≠ []) ∧
    (s.lake.lastFlush + 2000000000 ≤ s.nowNs ∨ 16384 ≤ s.lake.mjChunks ∨ s.lake.mjDue = true ∨ s.cpm.pfail = true) ∧
    (s.clocked = true) :=
  ⟨{ State.reset with lake.inited := true, tmu.sec := 3, lake.mjStaged := [.heack 4] }, by decide, by decide, by decide⟩

theorem witness_LakeBackground_14 : ∃ (s : State),
    (s.lake.mjStaged = [] ∨ s.mjFlushDue = false) :=
  ⟨State.reset, by decide⟩

theorem witness_LakeBackground_15 : ∃ (s : State),
    (s.lake.ready = true) ∧
    (s.lake.lastCkpt + 600000000000 ≤ s.nowNs ∨ 1048576 ≤ s.lake.mjseq - s.lake.ckptMj) ∧
    (s.clocked = true) :=
  ⟨{ State.reset with lake.ready := true, tmu.sec := 700 }, by decide, by decide, by decide⟩

theorem witness_HostQueues_1 : ∃ (s : State) (i : Fin 16) (v : BitVec 32),
    ((s.queue i).en = true ∧ (s.queue i).stopped = false) ∧
    ((v.toNat % 128 + 128 - (s.queue i).sqHead) % 128 ≤ 64) ∧
    (s.clocked = true) :=
  ⟨{ State.reset with hp.queues := [(3, { en := true, tail := 5, sqHead := 4, cqBaseL := 0x1000 })] }, 3, 9, by decide, by decide, by decide⟩

theorem witness_HostQueues_2 : ∃ (s : State) (i : Fin 16) (v : BitVec 32),
    ((s.queue i).en = true ∧ (s.queue i).stopped = false) ∧
    (64 < (v.toNat % 128 + 128 - (s.queue i).sqHead) % 128) ∧
    (s.clocked = true) :=
  ⟨{ State.reset with hp.queues := [(3, { en := true, tail := 5, sqHead := 4, cqBaseL := 0x1000 })] }, 3, 3, by decide, by decide, by decide⟩

theorem witness_HostQueues_3 : ∃ (s : State) (i : Fin 16) (v : BitVec 32),
    ((s.queue i).en = false ∨ (s.queue i).stopped = true) ∧
    (s.clocked = true) :=
  ⟨State.reset, 3, 9, by decide, by decide⟩

theorem witness_HostQueues_4 : ∃ (s : State) (i : Fin 16) (v : BitVec 32),
    ((s.queue i).en = true) ∧
    (s.clocked = true) :=
  ⟨{ State.reset with hp.queues := [(3, { en := true, tail := 5, sqHead := 4, cqBaseL := 0x1000 })] }, 3, 9, by decide, by decide⟩

theorem witness_HostQueues_5 : ∃ (s : State) (v : BitVec 32),
    (s.hp.nq.en = true) ∧
    (s.clocked = true) :=
  ⟨{ State.reset with hp.nq := { en := true } }, 9, by decide, by decide⟩

theorem witness_HostQueues_6 : ∃ (s : State) (v : BitVec 32),
    ((s.queue s.hp.qSel.toNat).en = false ∧ (s.queue s.hp.qSel.toNat).enWaits = false ∧ s.draining s.hp.qSel.toNat = false) ∧
    (s.clocked = true) :=
  ⟨State.reset, 0x81020300, by decide, by decide⟩

theorem witness_HostQueues_7 : ∃ (s : State) (v : BitVec 32),
    (s.clocked = true) :=
  ⟨{ State.reset with hp.queues := [(3, { en := true, tail := 5, sqHead := 4, cqBaseL := 0x1000 })], hp.qSel := 3, hp.cmds := [{ raw := bytesOf [1, 0, 0, 0, 0, 0, 0, 0, 0, 0, 0, 0, 0, 0, 0, 0, 0, 0, 0, 0, 0, 0, 0, 0, 0, 0, 0, 0, 0, 0, 0, 0, 0, 0, 0, 0, 0, 0, 0, 0, 0, 0, 0, 0, 0, 0, 0, 0, 0, 0, 0, 0, 0, 0, 0, 0, 0, 0, 0, 0, 0, 0, 0, 0], sqid := 3 }] }, 0, by decide⟩

theorem witness_HostQueues_8 : ∃ (s : State) (i : Fin 16) (raw data : List Byte) (dataOk : Bool),
    (s.nextQueue = some i.val) ∧
    (s.hp.d3hot = false ∧ s.hostRuns = true ∧ s.cpm.drain = .none) ∧
    (raw.length = 64) ∧
    (field raw 0 2 ∈ [0xFF00, 0xFF01, 0xFF02, 0xFF03] ∧ field raw 2 1 % 128 = 0 ∧ zeros raw 3 1 = true ∧ zeros raw 36 8 = true ∧ zeros raw 44 20 = true) :=
  ⟨{ State.reset with hp.queues := [(3, { en := true, tail := 5, sqHead := 4, cqBaseL := 0x1000 })] }, 3, bytesOf [0, 255, 0, 0, 0, 0, 0, 0, 0, 0, 0, 0, 0, 0, 0, 0, 0, 0, 0, 0, 0, 0, 0, 0, 0, 0, 0, 0, 0, 0, 0, 0, 0, 0, 0, 0, 0, 0, 0, 0, 0, 0, 0, 0, 0, 0, 0, 0, 0, 0, 0, 0, 0, 0, 0, 0, 0, 0, 0, 0, 0, 0, 0, 0], [], true, by decide, by decide, by decide, by decide⟩

theorem witness_HostQueues_9 : ∃ (s : State) (i : Fin 16) (raw data : List Byte) (dataOk : Bool),
    (s.nextQueue = some i.val) ∧
    (s.hp.d3hot = false ∧ s.hostRuns = true ∧ s.cpm.drain = .none) ∧
    (raw.length = 64) ∧
    (field raw 48 2 ≠ 0 ∧ bitAt (field raw 2 1) 6 = false) ∧
    (s.session (field raw 48 2) = none) :=
  ⟨{ State.reset with hp.queues := [(3, { en := true, tail := 5, sqHead := 4, cqBaseL := 0x1000 })] }, 3, bytesOf [0, 0, 0, 0, 0, 0, 0, 0, 0, 0, 0, 0, 0, 0, 0, 0, 0, 0, 0, 0, 0, 0, 0, 0, 0, 0, 0, 0, 0, 0, 0, 0, 0, 0, 0, 0, 0, 0, 0, 0, 0, 0, 0, 0, 0, 0, 0, 0, 5, 0, 0, 0, 0, 0, 0, 0, 0, 0, 0, 0, 0, 0, 0, 0], [], true, by decide, by decide, by decide, by decide, by decide⟩

theorem witness_HostQueues_10 : ∃ (s : State) (i : Fin 16) (raw data : List Byte) (dataOk : Bool),
    (s.nextQueue = some i.val) ∧
    (s.hp.d3hot = false ∧ s.hostRuns = true ∧ s.cpm.drain = .none) :=
  ⟨{ State.reset with hp.queues := [(3, { en := true, tail := 5, sqHead := 4, cqBaseL := 0x1000 })] }, 3, [], [], true, by decide, by decide⟩

theorem witness_HostQueues_11 : ∃ (s : State) (q : Fin 18) (c : Cmd),
    (s.hp.cmds = [c]) ∧
    (c.sqid = q.val ∧ c.stage = .judged ∧ (c.eno < 0xFF00 ∨ 0xFF08 < c.eno)) ∧
    (c.dlen8 = 0 ∧ c.rlen8 = 0 ∧ c.data = []) ∧
    ((s.mcc.queues.get [] (if q.val < 16 then 0 else 1)).length < (if q.val < 16 then 2 ^ 16 else 256)) ∧
    (s.coresRun = true) :=
  ⟨{ State.reset with hp.cmds := [{ raw := bytesOf [1, 0, 0, 0, 0, 0, 0, 0, 0, 0, 0, 0, 0, 0, 0, 0, 0, 0, 0, 0, 0, 0, 0, 0, 0, 0, 0, 0, 0, 0, 0, 0, 0, 0, 0, 0, 0, 0, 0, 0, 0, 0, 0, 0, 0, 0, 0, 0, 0, 0, 0, 0, 0, 0, 0, 0, 0, 0, 0, 0, 0, 0, 0, 0], sqid := 3 }] }, 3, { raw := bytesOf [1, 0, 0, 0, 0, 0, 0, 0, 0, 0, 0, 0, 0, 0, 0, 0, 0, 0, 0, 0, 0, 0, 0, 0, 0, 0, 0, 0, 0, 0, 0, 0, 0, 0, 0, 0, 0, 0, 0, 0, 0, 0, 0, 0, 0, 0, 0, 0, 0, 0, 0, 0, 0, 0, 0, 0, 0, 0, 0, 0, 0, 0, 0, 0], sqid := 3 }, by decide, by decide, by decide, by decide, by decide⟩

theorem witness_HostQueues_12 : ∃ (s : State) (q : Fin 16) (c : Cmd),
    (s.hp.cmds = [c]) ∧
    (c.sqid = q.val ∧ c.stage = .delivered ∧ c.discard = false) ∧
    (0 < (s.queue q).tmo ∧ c.deliveredAt + (s.queue q).tmo * 100000000 ≤ s.nowNs) ∧
    (s.clocked = true) :=
  ⟨{ State.reset with tmu.sec := 9, hp.queues := [(3, { tmo := 2 })], hp.cmds := [{ raw := bytesOf [1, 0, 0, 0, 0, 0, 0, 0, 0, 0, 0, 0, 0, 0, 0, 0, 0, 0, 0, 0, 0, 0, 0, 0, 0, 0, 0, 0, 0, 0, 0, 0, 0, 0, 0, 0, 0, 0, 0, 0, 0, 0, 0, 0, 0, 0, 0, 0, 0, 0, 0, 0, 0, 0, 0, 0, 0, 0, 0, 0, 0, 0, 0, 0], sqid := 3, stage := .delivered }] }, 3, { raw := bytesOf [1, 0, 0, 0, 0, 0, 0, 0, 0, 0, 0, 0, 0, 0, 0, 0, 0, 0, 0, 0, 0, 0, 0, 0, 0, 0, 0, 0, 0, 0, 0, 0, 0, 0, 0, 0, 0, 0, 0, 0, 0, 0, 0, 0, 0, 0, 0, 0, 0, 0, 0, 0, 0, 0, 0, 0, 0, 0, 0, 0, 0, 0, 0, 0], sqid := 3, stage := .delivered }, by decide, by decide, by decide, by decide⟩

theorem witness_HostQueues_13 : ∃ (s : State) (q : Fin 16),
    ((s.queue q).tmo = 0) :=
  ⟨State.reset, 3, by decide⟩

theorem witness_HostAnswers_1 : ∃ (s : State) (q : Fin 18) (c : Cmd) (ok : Bool),
    (s.firstReg q = some c) ∧
    (q.val < 16 ∧ c.discard = false ∧ c.closed = false) ∧
    ((s.queue q).en = true ∧ ((s.queue q).cqTail + 128 - (s.queue q).cqHead) % 128 < 64 ∧ s.hp.d3hot = false) ∧
    (c.resp = none) ∧
    (s.clocked = true) :=
  ⟨{ State.reset with hp.queues := [(3, { en := true, tail := 5, sqHead := 4, cqBaseL := 0x1000 })], hp.cmds := [{ raw := bytesOf [0, 255, 0, 0, 0, 0, 0, 0, 0, 0, 0, 0, 0, 0, 0, 0, 0, 0, 0, 0, 0, 0, 0, 0, 0, 0, 0, 0, 0, 0, 0, 0, 0, 0, 0, 0, 0, 0, 0, 0, 0, 0, 0, 0, 0, 0, 0, 0, 0, 0, 0, 0, 0, 0, 0, 0, 0, 0, 0, 0, 0, 0, 0, 0], sqid := 3, stage := .registered, status := 7, result := 9 }] }, 3, { raw := bytesOf [0, 255, 0, 0, 0, 0, 0, 0, 0, 0, 0, 0, 0, 0, 0, 0, 0, 0, 0, 0, 0, 0, 0, 0, 0, 0, 0, 0, 0, 0, 0, 0, 0, 0, 0, 0, 0, 0, 0, 0, 0, 0, 0, 0, 0, 0, 0, 0, 0, 0, 0, 0, 0, 0, 0, 0, 0, 0, 0, 0, 0, 0, 0, 0], sqid := 3, stage := .registered, status := 7, result := 9 }, true, by decide, by decide, by decide, by decide, by decide⟩

theorem witness_HostAnswers_2 : ∃ (s : State) (q : Fin 18) (c : Cmd) (r : List Byte),
    (s.firstReg q = some c) ∧
    (q.val < 16 ∧ c.discard = false ∧ c.closed = false) ∧
    ((s.queue q).en = true ∧ ((s.queue q).cqTail + 128 - (s.queue q).cqHead) % 128 < 64 ∧ s.hp.d3hot = false) ∧
    (c.resp = some r ∧ 8 * ceilDiv r.length 8 + 16 ≤ 8 * c.rlen8 ∧ c.sid = 0) ∧
    (s.clocked = true) :=
  ⟨{ State.reset with hp.queues := [(3, { en := true, tail := 5, sqHead := 4, cqBaseL := 0x1000 })], hp.cmds := [{ raw := bytesOf [1, 0, 32, 0, 0, 0, 0, 0, 0, 0, 0, 0, 0, 0, 0, 0, 0, 0, 0, 0, 0, 0, 0, 0, 0, 0, 0, 0, 0, 0, 0, 0, 0, 0, 0, 0, 64, 0, 0, 0, 0, 0, 0, 0, 0, 0, 64, 0, 0, 0, 0, 0, 0, 0, 0, 0, 0, 0, 0, 0, 0, 0, 0, 0], sqid := 3, stage := .registered, resp := some [5#8] }] }, 3, { raw := bytesOf [1, 0, 32, 0, 0, 0, 0, 0, 0, 0, 0, 0, 0, 0, 0, 0, 0, 0, 0, 0, 0, 0, 0, 0, 0, 0, 0, 0, 0, 0, 0, 0, 0, 0, 0, 0, 64, 0, 0, 0, 0, 0, 0, 0, 0, 0, 64, 0, 0, 0, 0, 0, 0, 0, 0, 0, 0, 0, 0, 0, 0, 0, 0, 0], sqid := 3, stage := .registered, resp := some [5#8] }, [5#8], by decide, by decide, by decide, by decide, by decide⟩

theorem witness_HostAnswers_3 : ∃ (s : State) (q : Fin 18) (c : Cmd) (r : List Byte) (ok : Bool),
    (s.firstReg q = some c) ∧
    (q.val < 16 ∧ c.discard = false ∧ c.closed = false) ∧
    ((s.queue q).en = true ∧ ((s.queue q).cqTail + 128 - (s.queue q).cqHead) % 128 < 64 ∧ s.hp.d3hot = false) ∧
    (c.resp = some r ∧ 8 * c.rlen8 < 8 * ceilDiv r.length 8 + 16) ∧
    (s.clocked = true) :=
  ⟨{ State.reset with hp.queues := [(3, { en := true, tail := 5, sqHead := 4, cqBaseL := 0x1000 })], hp.cmds := [{ raw := bytesOf [1, 0, 32, 0, 0, 0, 0, 0, 0, 0, 0, 0, 0, 0, 0, 0, 0, 0, 0, 0, 0, 0, 0, 0, 0, 0, 0, 0, 0, 0, 0, 0, 0, 0, 0, 0, 64, 0, 0, 0, 0, 0, 0, 0, 0, 0, 64, 0, 0, 0, 0, 0, 0, 0, 0, 0, 0, 0, 0, 0, 0, 0, 0, 0], sqid := 3, stage := .registered, resp := some (zeroBytes 600) }] }, 3, { raw := bytesOf [1, 0, 32, 0, 0, 0, 0, 0, 0, 0, 0, 0, 0, 0, 0, 0, 0, 0, 0, 0, 0, 0, 0, 0, 0, 0, 0, 0, 0, 0, 0, 0, 0, 0, 0, 0, 64, 0, 0, 0, 0, 0, 0, 0, 0, 0, 64, 0, 0, 0, 0, 0, 0, 0, 0, 0, 0, 0, 0, 0, 0, 0, 0, 0], sqid := 3, stage := .registered, resp := some (zeroBytes 600) }, (zeroBytes 600), true, by decide, by decide, by decide, by decide, by decide⟩

theorem witness_HostAnswers_4 : ∃ (s : State) (q : Fin 18) (c : Cmd) (ok : Bool),
    (s.firstReg q = some c) ∧
    (c.discard = true) ∧
    ((s.queue q).enWaits = false) ∧
    (s.clocked = true) :=
  ⟨{ State.reset with hp.cmds := [{ raw := bytesOf [0, 255, 0, 0, 0, 0, 0, 0, 0, 0, 0, 0, 0, 0, 0, 0, 0, 0, 0, 0, 0, 0, 0, 0, 0, 0, 0, 0, 0, 0, 0, 0, 0, 0, 0, 0, 0, 0, 0, 0, 0, 0, 0, 0, 0, 0, 0, 0, 0, 0, 0, 0, 0, 0, 0, 0, 0, 0, 0, 0, 0, 0, 0, 0], sqid := 3, stage := .registered, status := 7, discard := true, result := 9 }] }, 3, { raw := bytesOf [0, 255, 0, 0, 0, 0, 0, 0, 0, 0, 0, 0, 0, 0, 0, 0, 0, 0, 0, 0, 0, 0, 0, 0, 0, 0, 0, 0, 0, 0, 0, 0, 0, 0, 0, 0, 0, 0, 0, 0, 0, 0, 0, 0, 0, 0, 0, 0, 0, 0, 0, 0, 0, 0, 0, 0, 0, 0, 0, 0, 0, 0, 0, 0], sqid := 3, stage := .registered, status := 7, discard := true, result := 9 }, true, by decide, by decide, by decide, by decide⟩

theorem witness_HostAnswers_5 : ∃ (s : State) (q : Fin 18) (c : Cmd) (ok : Bool),
    (s.firstReg q = some c) ∧
    (16 ≤ q.val ∧ c.sqid = q.val ∧ c.discard = false ∧ c.closed = false ∧ c.resp = none) ∧
    ((s.mac (q.val - 16)).link = true) ∧
    (s.clocked = true) :=
  ⟨{ State.reset with macs := [(1, { link := true })], hp.cmds := [{ raw := bytesOf [0, 255, 0, 0, 0, 0, 0, 0, 0, 0, 0, 0, 0, 0, 0, 0, 0, 0, 0, 0, 0, 0, 0, 0, 0, 0, 0, 0, 0, 0, 0, 0, 0, 0, 0, 0, 0, 0, 0, 0, 0, 0, 0, 0, 0, 0, 0, 0, 0, 0, 0, 0, 0, 0, 0, 0, 0, 0, 0, 0, 0, 0, 0, 0], sqid := 17, stage := .registered, status := 7, result := 9 }] }, 17, { raw := bytesOf [0, 255, 0, 0, 0, 0, 0, 0, 0, 0, 0, 0, 0, 0, 0, 0, 0, 0, 0, 0, 0, 0, 0, 0, 0, 0, 0, 0, 0, 0, 0, 0, 0, 0, 0, 0, 0, 0, 0, 0, 0, 0, 0, 0, 0, 0, 0, 0, 0, 0, 0, 0, 0, 0, 0, 0, 0, 0, 0, 0, 0, 0, 0, 0], sqid := 17, stage := .registered, status := 7, result := 9 }, true, by decide, by decide, by decide, by decide⟩

theorem witness_HostAnswers_6 : ∃ (s : State) (v : Fin 18) (e : Nat),
    (s.hp.coalEnd.find v = some e) ∧
    (e ≤ s.nowNs) ∧
    (s.clocked = true) :=
  ⟨{ State.reset with hp.coalEnd := [(3, 0)] }, 3, 0, by decide, by decide, by decide⟩

theorem witness_HostAnswers_7 : ∃ (s : State) (v : BitVec 32),
    (v.getLsbD 31 = true ∧ s.hp.nq.en = false ∧ bits v.toNat 3 0 ≤ 9 ∧ bits v.toNat 28 24 ≤ 17) ∧
    (s.clocked = true) :=
  ⟨State.reset, 0x80000003, by decide, by decide⟩

theorem witness_HostAnswers_8 : ∃ (s : State) (v : BitVec 32),
    (v.getLsbD 31 = true ∧ s.hp.nq.en = false) ∧
    (9 < bits v.toNat 3 0 ∨ 17 < bits v.toNat 28 24) ∧
    (s.clocked = true) :=
  ⟨State.reset, 0x8000000A, by decide, by decide, by decide⟩

theorem witness_HostAnswers_9 : ∃ (s : State) (v : BitVec 32),
    (v.getLsbD 31 = false ∧ s.hp.nq.waiting = []) ∧
    (s.clocked = true) :=
  ⟨{ State.reset with hp.nq := { en := true } }, 0, by decide, by decide⟩

theorem witness_HostAnswers_10 : ∃ (s : State) (n : Notice) (l : List Notice),
    (s.hp.nq.waiting = n :: l) ∧
    (s.hp.nq.en = true ∧ s.hp.nq.used < 2 ^ (s.hp.nq.size + 6) ∧ s.hp.d3hot = false) ∧
    (s.clocked = true) :=
  ⟨{ State.reset with hp.nq := { en := true, baseL := 0x2000, ctl := 0x50000, waiting := [{ code := 0x705, cls := 0, nseq := 4, timeInv := true, tai := 9, args := [] }] } }, { code := 0x705, cls := 0, nseq := 4, timeInv := true, tai := 9, args := [] }, [], by decide, by decide, by decide⟩

theorem witness_HostAnswers_11 : ∃ (s : State) (n : Notice) (l : List Notice),
    (s.hp.nq.waiting = n :: l) ∧
    (s.hp.nq.en = true ∧ s.hp.nq.used < 2 ^ (s.hp.nq.size + 6) ∧ s.hp.d3hot = false) ∧
    (s.clocked = true) :=
  ⟨{ State.reset with hp.nq := { en := true, baseL := 0x2000, ctl := 0x50000, waiting := [{ code := 0x705, cls := 0, nseq := 4, timeInv := true, tai := 9, args := [] }] } }, { code := 0x705, cls := 0, nseq := 4, timeInv := true, tai := 9, args := [] }, [], by decide, by decide, by decide⟩

theorem witness_HostAnswers_12 : ∃ (s : State),
    (s.hp.nq.waiting = [] ∨ s.hp.nq.en = false) :=
  ⟨State.reset, by decide⟩

theorem witness_HostAnswers_13 : ∃ (s : State) (up : Bool) (lanes : Fin 3) (gen : Fin 4),
    (s.hp.nq.waiting = []) ∧
    (s.clocked = true) :=
  ⟨{ State.reset with hp.queues := [(3, { en := true, tail := 5, sqHead := 4, cqBaseL := 0x1000 })], hp.cmds := [{ raw := bytesOf [1, 0, 0, 0, 0, 0, 0, 0, 0, 0, 0, 0, 0, 0, 0, 0, 0, 0, 0, 0, 0, 0, 0, 0, 0, 0, 0, 0, 0, 0, 0, 0, 0, 0, 0, 0, 0, 0, 0, 0, 0, 0, 0, 0, 0, 0, 0, 0, 0, 0, 0, 0, 0, 0, 0, 0, 0, 0, 0, 0, 0, 0, 0, 0], sqid := 3 }] }, true, 2, 3, by decide, by decide⟩

theorem witness_HostAnswers_14 : ∃ (s : State),
    (s.clocked = true) :=
  ⟨State.reset, by decide⟩

theorem witness_HostAnswers_15 : ∃ (s : State),
    (s.hp.pba = 0) :=
  ⟨State.reset, by decide⟩

theorem witness_HostAnswers_16 : ∃ (s : State) (v : Fin 18),
    (s.hp.pba = BitVec.ofNat 18 (2 ^ v.val) ∧ bitAt (s.hp.msix.get 0 (16 * v + 12)).toNat 0 = false) ∧
    (s.clocked = true) :=
  ⟨{ State.reset with hp.pba := 8, hp.msix := [], hp.d3hot := true }, 3, by decide, by decide⟩

theorem witness_HostAnswers_17 : ∃ (s : State) (m : Fin 2) (src : Nat) (bytes : List Byte),
    (s.hostRuns = true) ∧
    (field bytes 0 4 = 0x01014E5A ∧ field bytes 4 1 = 1 ∧ zeros bytes 5 3 = true ∧ zeros bytes 12 4 = true ∧ bytes.length = 80) ∧
    (field (slice bytes 16 64) 0 2 ∈ [0xFF00, 0xFF01, 0xFF02, 0xFF03] ∧ field (slice bytes 16 64) 2 1 % 128 = 0 ∧ zeros (slice bytes 16 64) 3 1 = true ∧ zeros (slice bytes 16 64) 36 8 = true ∧ zeros (slice bytes 16 64) 44 20 = true) :=
  ⟨State.reset, 1, 44, bytesOf [90, 78, 1, 1, 1, 0, 0, 0, 7, 0, 0, 0, 0, 0, 0, 0, 0, 255, 0, 0, 0, 0, 0, 0, 0, 0, 0, 0, 0, 0, 0, 0, 0, 0, 0, 0, 0, 0, 0, 0, 0, 0, 0, 0, 0, 0, 0, 0, 0, 0, 0, 0, 0, 0, 0, 0, 0, 0, 0, 0, 0, 0, 0, 0, 0, 0, 0, 0, 0, 0, 0, 0, 0, 0, 0, 0, 0, 0, 0, 0], by decide, by decide, by decide⟩

theorem witness_HostAnswers_18 : ∃ (s : State) (m : Fin 2) (src : Nat) (bytes : List Byte),
    (s.hostRuns = true) ∧
    (field bytes 0 2 ≠ 0x4E5A ∨ field bytes 2 1 ≠ 1 ∨ field bytes 3 1 ≠ 1 ∨ field bytes 4 1 = 0 ∨ 16 < field bytes 4 1 ∨ bytes.length < 16 + 64 * field bytes 4 1) :=
  ⟨State.reset, 1, 44, [], by decide, by decide⟩

theorem witness_HostAnswers_19 : ∃ (s : State) (m : Fin 2) (sid : Nat) (x : Session),
    ((s.ethChan m).route = some sid) ∧
    ((s.ethChan m).gathered ≠ []) ∧
    (32 ≤ (s.ethChan m).gathered.length ∨ (s.ethChan m).firstAt + 10000000 ≤ s.nowNs) ∧
    (s.session sid = some x) ∧
    ((s.mac m).link = true) ∧
    (s.clocked = true) :=
  ⟨{ State.reset with tmu.sec := 1, macs := [(1, { link := true })], hp.sessions := [(1, { open_ := true, src := 44 })], hp.eth := [(1, { route := some 1, gathered := [{ code := 0x705, cls := 0, nseq := 4, timeInv := true, tai := 9, args := [] }] })] }, 1, 1, { open_ := true, src := 44 }, by decide, by decide, by decide, by decide, by decide, by decide⟩

theorem witness_HostAnswers_20 : ∃ (s : State) (m : Fin 2),
    ((s.ethChan m).route = none ∨ (s.ethChan m).gathered = []) :=
  ⟨State.reset, 1, by decide⟩

theorem witness_HostAnswers_21 : ∃ (s : State) (t : Fin 256) (pi : Fin 8) (rt ra : Fin 32) (p : Place) (i : Nat) (b : List Byte) (c : Cmd),
    (s.callsAt t pi ra 0x90 24 p i = true) ∧
    (s.load p 24 = b) ∧
    (s.deliveredRef (Word.of (field b 0 8)) = some c) ∧
    (c.discard = false ∧ c.rbuf = false) ∧
    (zeros b 10 6 = true ∧ (field b 8 2 < 0x19 ∨ 0xFF < field b 8 2 ∧ field b 8 2 < 0x300 ∨ 0x8000 ≤ field b 8 2 ∧ field b 8 2 < 0xFFFF)) :=
  ⟨{ State.reset with mcc.dmem := [(0, 1#8), (2, 3#8), (8, 5#8), (16, 99#8)], hp.cmds := [{ raw := bytesOf [1, 0, 0, 0, 0, 0, 0, 0, 0, 0, 0, 0, 0, 0, 0, 0, 0, 0, 0, 0, 0, 0, 0, 0, 0, 0, 0, 0, 0, 0, 0, 0, 0, 0, 0, 0, 0, 0, 0, 0, 0, 0, 0, 0, 0, 0, 0, 0, 0, 0, 0, 0, 0, 0, 0, 0, 0, 0, 0, 0, 0, 0, 0, 0], sqid := 3, stage := .delivered }] }, 0, 0, 0, 0, .dmem 0, 0, bytesOf [0x1, 0x0, 0x3, 0x0, 0x0, 0x0, 0x0, 0x0, 0x5, 0x0, 0x0, 0x0, 0x0, 0x0, 0x0, 0x0, 0x63, 0x0, 0x0, 0x0, 0x0, 0x0, 0x0, 0x0], { raw := bytesOf [1, 0, 0, 0, 0, 0, 0, 0, 0, 0, 0, 0, 0, 0, 0, 0, 0, 0, 0, 0, 0, 0, 0, 0, 0, 0, 0, 0, 0, 0, 0, 0, 0, 0, 0, 0, 0, 0, 0, 0, 0, 0, 0, 0, 0, 0, 0, 0, 0, 0, 0, 0, 0, 0, 0, 0, 0, 0, 0, 0, 0, 0, 0, 0], sqid := 3, stage := .delivered }, by decide, by decide, by decide, by decide, by decide⟩

theorem witness_HostAnswers_22 : ∃ (s : State) (t : Fin 256) (pi : Fin 8) (rt ra : Fin 32) (p : Place) (i : Nat) (b : List Byte),
    (s.callsAt t pi ra 0x90 24 p i = true) ∧
    (s.load p 24 = b) ∧
    (s.deliveredRef (Word.of (field b 0 8)) = none) :=
  ⟨{ State.reset with mcc.dmem := [(0, 1#8), (2, 3#8)] }, 0, 0, 0, 0, .dmem 0, 0, bytesOf [0x1, 0x0, 0x3, 0x0, 0x0, 0x0, 0x0, 0x0, 0x0, 0x0, 0x0, 0x0, 0x0, 0x0, 0x0, 0x0, 0x0, 0x0, 0x0, 0x0, 0x0, 0x0, 0x0, 0x0], by decide, by decide, by decide⟩

theorem witness_HostAnswers_23 : ∃ (s : State) (t : Fin 256) (pi : Fin 8) (rt ra : Fin 32) (p : Place) (i : Nat) (b : List Byte),
    (s.callsAt t pi ra 0x91 40 p i = true) ∧
    (s.load p 40 = b) ∧
    (0x8000 ≤ field b 0 2 ∧ (field b 2 1 = 1 ∨ field b 2 1 = 2) ∧ zeros b 3 5 = true ∧ zeros b 24 16 = true) ∧
    (s.hp.mask.get false (field b 0 2) = false) ∧
    (s.hp.nq.hasRoom = true ∨ s.hp.nq.mayHold (field b 2 1) = true) :=
  ⟨{ State.reset with mcc.dmem := [(0, 1#8), (1, 128#8), (2, 1#8)] }, 0, 0, 0, 0, .dmem 0, 0, bytesOf [0x1, 0x80, 0x1, 0x0, 0x0, 0x0, 0x0, 0x0, 0x0, 0x0, 0x0, 0x0, 0x0, 0x0, 0x0, 0x0, 0x0, 0x0, 0x0, 0x0, 0x0, 0x0, 0x0, 0x0, 0x0, 0x0, 0x0, 0x0, 0x0, 0x0, 0x0, 0x0, 0x0, 0x0, 0x0, 0x0, 0x0, 0x0, 0x0, 0x0], by decide, by decide, by decide, by decide, by decide⟩

theorem witness_HostAnswers_24 : ∃ (s : State) (t : Fin 256) (pi : Fin 8) (rt ra : Fin 32) (p : Place) (i : Nat) (b : List Byte),
    (s.callsAt t pi ra 0x91 40 p i = true) ∧
    (s.load p 40 = b) ∧
    (field b 0 2 < 0x8000 ∨ field b 2 1 = 0) :=
  ⟨{ State.reset with mcc.dmem := [(0, 1#8), (1, 112#8), (2, 1#8)] }, 0, 0, 0, 0, .dmem 0, 0, bytesOf [0x1, 0x70, 0x1, 0x0, 0x0, 0x0, 0x0, 0x0, 0x0, 0x0, 0x0, 0x0, 0x0, 0x0, 0x0, 0x0, 0x0, 0x0, 0x0, 0x0, 0x0, 0x0, 0x0, 0x0, 0x0, 0x0, 0x0, 0x0, 0x0, 0x0, 0x0, 0x0, 0x0, 0x0, 0x0, 0x0, 0x0, 0x0, 0x0, 0x0], by decide, by decide, by decide⟩

theorem witness_BuiltinCommands_1 : ∃ (s : State) (q : Fin 18) (c : Cmd) (im : Image),
    (s.builtinFront q 0xFF00 = some c) ∧
    (s.hostRuns = true) ∧
    (s.mcc.image = some im) :=
  ⟨{ State.reset with hp.cmds := [{ raw := bytesOf [0, 255, 0, 0, 0, 0, 0, 0, 0, 0, 0, 0, 0, 0, 0, 0, 0, 0, 0, 0, 0, 0, 0, 0, 0, 0, 0, 0, 0, 0, 0, 0, 0, 0, 0, 0, 0, 0, 0, 0, 0, 0, 0, 0, 0, 0, 0, 0, 0, 0, 0, 0, 0, 0, 0, 0, 0, 0, 0, 0, 0, 0, 0, 0], sqid := 0, stage := .judged }], hp.sessions := [(1, { open_ := true, role := 2 })], mcc.image := some { role := 1, secver := 7, build := [1#8], legdig := [], entries := [] } }, 0, { raw := bytesOf [0, 255, 0, 0, 0, 0, 0, 0, 0, 0, 0, 0, 0, 0, 0, 0, 0, 0, 0, 0, 0, 0, 0, 0, 0, 0, 0, 0, 0, 0, 0, 0, 0, 0, 0, 0, 0, 0, 0, 0, 0, 0, 0, 0, 0, 0, 0, 0, 0, 0, 0, 0, 0, 0, 0, 0, 0, 0, 0, 0, 0, 0, 0, 0], sqid := 0, stage := .judged }, { role := 1, secver := 7, build := [1#8], legdig := [], entries := [] }, by decide, by decide, by decide⟩

theorem witness_BuiltinCommands_2 : ∃ (s : State) (q : Fin 18) (c : Cmd),
    (s.builtinFront q 0xFF01 = some c) ∧
    (s.hostRuns = true) :=
  ⟨{ State.reset with hp.cmds := [{ raw := bytesOf [1, 255, 0, 0, 0, 0, 0, 0, 0, 0, 0, 0, 0, 0, 0, 0, 0, 0, 0, 0, 0, 0, 0, 0, 0, 0, 0, 0, 0, 0, 0, 0, 0, 0, 0, 0, 0, 0, 0, 0, 0, 0, 0, 0, 0, 0, 0, 0, 0, 0, 0, 0, 0, 0, 0, 0, 0, 0, 0, 0, 0, 0, 0, 0], sqid := 0, stage := .judged }], hp.sessions := [(1, { open_ := true, role := 2 })] }, 0, { raw := bytesOf [1, 255, 0, 0, 0, 0, 0, 0, 0, 0, 0, 0, 0, 0, 0, 0, 0, 0, 0, 0, 0, 0, 0, 0, 0, 0, 0, 0, 0, 0, 0, 0, 0, 0, 0, 0, 0, 0, 0, 0, 0, 0, 0, 0, 0, 0, 0, 0, 0, 0, 0, 0, 0, 0, 0, 0, 0, 0, 0, 0, 0, 0, 0, 0], sqid := 0, stage := .judged }, by decide, by decide⟩

theorem witness_BuiltinCommands_3 : ∃ (s : State) (q : Fin 18) (c : Cmd) (sid : Nat),
    (s.builtinFront q 0xFF02 = some c) ∧
    (s.hostRuns = true) ∧
    (s.romOnly = false) ∧
    (s.hp.lockout.get 0 (carrierOf c.sqid).code ≤ s.nowNs) ∧
    (s.woad.life = .owned ∧ 1 ≤ field c.raw 8 1 ∧ field c.raw 8 1 ≤ 6 ∧ (s.cfloor (field c.raw 8 1)).toNat ≤ field c.raw 12 4) ∧
    (s.freeSid = some sid) :=
  ⟨{ State.reset with hp.cmds := [{ raw := bytesOf [2, 255, 0, 0, 0, 0, 0, 0, 2, 0, 0, 0, 0, 0, 0, 0, 0, 0, 0, 0, 0, 0, 0, 0, 0, 0, 0, 0, 0, 0, 0, 0, 0, 0, 0, 0, 0, 0, 0, 0, 0, 0, 0, 0, 0, 0, 0, 0, 0, 0, 0, 0, 0, 0, 0, 0, 0, 0, 0, 0, 0, 0, 0, 0], sqid := 0, stage := .judged }], hp.sessions := [(1, { open_ := true, role := 2 })], woad.life := .owned }, 0, { raw := bytesOf [2, 255, 0, 0, 0, 0, 0, 0, 2, 0, 0, 0, 0, 0, 0, 0, 0, 0, 0, 0, 0, 0, 0, 0, 0, 0, 0, 0, 0, 0, 0, 0, 0, 0, 0, 0, 0, 0, 0, 0, 0, 0, 0, 0, 0, 0, 0, 0, 0, 0, 0, 0, 0, 0, 0, 0, 0, 0, 0, 0, 0, 0, 0, 0], sqid := 0, stage := .judged }, 2, by decide, by decide, by decide, by decide, by decide, by decide⟩

theorem witness_BuiltinCommands_4 : ∃ (s : State) (q : Fin 18) (c : Cmd),
    (s.builtinFront q 0xFF02 = some c) ∧
    (s.hostRuns = true) ∧
    (s.romOnly = false) ∧
    (s.nowNs < s.hp.lockout.get 0 (carrierOf c.sqid).code) :=
  ⟨{ State.reset with hp.cmds := [{ raw := bytesOf [2, 255, 0, 0, 0, 0, 0, 0, 2, 0, 0, 0, 0, 0, 0, 0, 0, 0, 0, 0, 0, 0, 0, 0, 0, 0, 0, 0, 0, 0, 0, 0, 0, 0, 0, 0, 0, 0, 0, 0, 0, 0, 0, 0, 0, 0, 0, 0, 0, 0, 0, 0, 0, 0, 0, 0, 0, 0, 0, 0, 0, 0, 0, 0], sqid := 0, stage := .judged }], hp.sessions := [(1, { open_ := true, role := 2 })], hp.lockout := [(0, 5)] }, 0, { raw := bytesOf [2, 255, 0, 0, 0, 0, 0, 0, 2, 0, 0, 0, 0, 0, 0, 0, 0, 0, 0, 0, 0, 0, 0, 0, 0, 0, 0, 0, 0, 0, 0, 0, 0, 0, 0, 0, 0, 0, 0, 0, 0, 0, 0, 0, 0, 0, 0, 0, 0, 0, 0, 0, 0, 0, 0, 0, 0, 0, 0, 0, 0, 0, 0, 0], sqid := 0, stage := .judged }, by decide, by decide, by decide, by decide⟩

theorem witness_BuiltinCommands_5 : ∃ (s : State) (q : Fin 18) (c : Cmd),
    (s.builtinFront q 0xFF02 = some c) ∧
    (s.hostRuns = true) ∧
    (s.romOnly = false) ∧
    (s.hp.lockout.get 0 (carrierOf c.sqid).code ≤ s.nowNs) ∧
    (s.woad.life = .owned ∧ (field c.raw 8 1 = 0 ∨ 7 ≤ field c.raw 8 1)) :=
  ⟨{ State.reset with hp.cmds := [{ raw := bytesOf [2, 255, 0, 0, 0, 0, 0, 0, 7, 0, 0, 0, 0, 0, 0, 0, 0, 0, 0, 0, 0, 0, 0, 0, 0, 0, 0, 0, 0, 0, 0, 0, 0, 0, 0, 0, 0, 0, 0, 0, 0, 0, 0, 0, 0, 0, 0, 0, 0, 0, 0, 0, 0, 0, 0, 0, 0, 0, 0, 0, 0, 0, 0, 0], sqid := 0, stage := .judged }], hp.sessions := [(1, { open_ := true, role := 2 })], woad.life := .owned }, 0, { raw := bytesOf [2, 255, 0, 0, 0, 0, 0, 0, 7, 0, 0, 0, 0, 0, 0, 0, 0, 0, 0, 0, 0, 0, 0, 0, 0, 0, 0, 0, 0, 0, 0, 0, 0, 0, 0, 0, 0, 0, 0, 0, 0, 0, 0, 0, 0, 0, 0, 0, 0, 0, 0, 0, 0, 0, 0, 0, 0, 0, 0, 0, 0, 0, 0, 0], sqid := 0, stage := .judged }, by decide, by decide, by decide, by decide, by decide⟩

set_option Elab.async false in
theorem witness_BuiltinCommands_6 : ∃ (s : State) (q : Fin 18) (c : Cmd) (x : Session),
    (s.builtinFront q 0xFF03 = some c) ∧
    (s.hostRuns = true) ∧
    (s.romOnly = false) ∧
    (s.proved (field c.raw 8 2) (carrierOf c.sqid) (slice c.raw 12 16) = some x) :=
  ⟨{ State.reset with hp.cmds := [{ raw := bytesOf [3, 255, 0, 0, 0, 0, 0, 0, 3, 0, 0, 0, 219, 154, 229, 181, 104, 37, 205, 85, 40, 225, 116, 20, 237, 110, 121, 144, 0, 0, 0, 0, 0, 0, 0, 0, 0, 0, 0, 0, 0, 0, 0, 0, 0, 0, 0, 0, 0, 0, 0, 0, 0, 0, 0, 0, 0, 0, 0, 0, 0, 0, 0, 0], sqid := 0, stage := .judged }], hp.sessions := [(3, { role := 4, cred := 0, nh := [], nd := [] })], woad.life := .provisioned }, 0, { raw := bytesOf [3, 255, 0, 0, 0, 0, 0, 0, 3, 0, 0, 0, 219, 154, 229, 181, 104, 37, 205, 85, 40, 225, 116, 20, 237, 110, 121, 144, 0, 0, 0, 0, 0, 0, 0, 0, 0, 0, 0, 0, 0, 0, 0, 0, 0, 0, 0, 0, 0, 0, 0, 0, 0, 0, 0, 0, 0, 0, 0, 0, 0, 0, 0, 0], sqid := 0, stage := .judged }, { role := 4, cred := 0, nh := [], nd := [] }, by decide, by decide, by decide, by decide +kernel⟩

theorem witness_BuiltinCommands_7 : ∃ (s : State) (q : Fin 18) (c : Cmd) (x : Session),
    (s.builtinFront q 0xFF03 = some c) ∧
    (s.hostRuns = true) ∧
    (s.romOnly = false) ∧
    (s.proved (field c.raw 8 2) (carrierOf c.sqid) (slice c.raw 12 16) = none) ∧
    (s.session (field c.raw 8 2) = some x ∧ x.open_ = false) ∧
    ((s.hp.proofFails.get [] (carrierOf c.sqid).code).length < 15) :=
  ⟨{ State.reset with hp.cmds := [{ raw := bytesOf [3, 255, 0, 0, 0, 0, 0, 0, 1, 0, 0, 0, 0, 0, 0, 0, 0, 0, 0, 0, 0, 0, 0, 0, 0, 0, 0, 0, 0, 0, 0, 0, 0, 0, 0, 0, 0, 0, 0, 0, 0, 0, 0, 0, 0, 0, 0, 0, 0, 0, 0, 0, 0, 0, 0, 0, 0, 0, 0, 0, 0, 0, 0, 0], sqid := 0, stage := .judged }], hp.sessions := [(1, { role := 2, carrier := .mac1 })] }, 0, { raw := bytesOf [3, 255, 0, 0, 0, 0, 0, 0, 1, 0, 0, 0, 0, 0, 0, 0, 0, 0, 0, 0, 0, 0, 0, 0, 0, 0, 0, 0, 0, 0, 0, 0, 0, 0, 0, 0, 0, 0, 0, 0, 0, 0, 0, 0, 0, 0, 0, 0, 0, 0, 0, 0, 0, 0, 0, 0, 0, 0, 0, 0, 0, 0, 0, 0], sqid := 0, stage := .judged }, { role := 2, carrier := .mac1 }, by decide, by decide, by decide, by decide, by decide, by decide⟩

theorem witness_BuiltinCommands_8 : ∃ (s : State) (q : Fin 18) (c : Cmd),
    (s.builtinFront q 0xFF04 = some c) ∧
    (s.hostRuns = true) ∧
    (s.romOnly = false) ∧
    (∀ d ∈ s.hp.cmds, d.waits = none) :=
  ⟨{ State.reset with hp.cmds := [{ raw := bytesOf [4, 255, 0, 0, 0, 0, 0, 0, 0, 0, 0, 0, 0, 0, 0, 0, 0, 0, 0, 0, 0, 0, 0, 0, 0, 0, 0, 0, 0, 0, 0, 0, 0, 0, 0, 0, 0, 0, 0, 0, 0, 0, 0, 0, 0, 0, 0, 0, 1, 0, 0, 0, 0, 0, 0, 0, 0, 0, 0, 0, 0, 0, 0, 0], sqid := 0, stage := .judged }], hp.sessions := [(1, { open_ := true, role := 2 })] }, 0, { raw := bytesOf [4, 255, 0, 0, 0, 0, 0, 0, 0, 0, 0, 0, 0, 0, 0, 0, 0, 0, 0, 0, 0, 0, 0, 0, 0, 0, 0, 0, 0, 0, 0, 0, 0, 0, 0, 0, 0, 0, 0, 0, 0, 0, 0, 0, 0, 0, 0, 0, 1, 0, 0, 0, 0, 0, 0, 0, 0, 0, 0, 0, 0, 0, 0, 0], sqid := 0, stage := .judged }, by decide, by decide, by decide, by decide⟩

theorem witness_BuiltinCommands_9 : ∃ (s : State) (q : Fin 18) (c : Cmd),
    (s.builtinFront q 0xFF05 = some c) ∧
    (s.hostRuns = true) ∧
    (s.romOnly = false) ∧
    (field c.raw 9 1 ≤ 1) :=
  ⟨{ State.reset with hp.cmds := [{ raw := bytesOf [5, 255, 0, 0, 0, 0, 0, 0, 7, 1, 0, 0, 5, 0, 0, 0, 0, 0, 0, 0, 0, 0, 0, 0, 0, 0, 0, 0, 0, 0, 0, 0, 0, 0, 0, 0, 0, 0, 0, 0, 0, 0, 0, 0, 0, 0, 0, 0, 1, 0, 0, 0, 0, 0, 0, 0, 0, 0, 0, 0, 0, 0, 0, 0], sqid := 0, stage := .judged }], hp.sessions := [(1, { open_ := true, role := 2 })] }, 0, { raw := bytesOf [5, 255, 0, 0, 0, 0, 0, 0, 7, 1, 0, 0, 5, 0, 0, 0, 0, 0, 0, 0, 0, 0, 0, 0, 0, 0, 0, 0, 0, 0, 0, 0, 0, 0, 0, 0, 0, 0, 0, 0, 0, 0, 0, 0, 0, 0, 0, 0, 1, 0, 0, 0, 0, 0, 0, 0, 0, 0, 0, 0, 0, 0, 0, 0], sqid := 0, stage := .judged }, by decide, by decide, by decide, by decide⟩

theorem witness_BuiltinCommands_10 : ∃ (s : State) (q : Fin 18) (c : Cmd),
    (s.builtinFront q 0xFF06 = some c) ∧
    (s.hostRuns = true) ∧
    (s.romOnly = false) ∧
    (field c.raw 8 1 = 1) :=
  ⟨{ State.reset with hp.cmds := [{ raw := bytesOf [6, 255, 0, 0, 0, 0, 0, 0, 1, 0, 0, 0, 0, 0, 0, 0, 0, 0, 0, 0, 0, 0, 0, 0, 0, 0, 0, 0, 0, 0, 0, 0, 0, 0, 0, 0, 0, 0, 0, 0, 0, 0, 0, 0, 0, 0, 0, 0, 1, 0, 0, 0, 0, 0, 0, 0, 0, 0, 0, 0, 0, 0, 0, 0], sqid := 17, stage := .judged }], hp.sessions := [(1, { open_ := true, role := 2, carrier := .mac1 })] }, 17, { raw := bytesOf [6, 255, 0, 0, 0, 0, 0, 0, 1, 0, 0, 0, 0, 0, 0, 0, 0, 0, 0, 0, 0, 0, 0, 0, 0, 0, 0, 0, 0, 0, 0, 0, 0, 0, 0, 0, 0, 0, 0, 0, 0, 0, 0, 0, 0, 0, 0, 0, 1, 0, 0, 0, 0, 0, 0, 0, 0, 0, 0, 0, 0, 0, 0, 0], sqid := 17, stage := .judged }, by decide, by decide, by decide, by decide⟩

theorem witness_BuiltinCommands_11 : ∃ (s : State) (q : Fin 18) (c : Cmd),
    (s.builtinFront q 0xFF06 = some c) ∧
    (s.hostRuns = true) ∧
    (s.romOnly = false) ∧
    (field c.raw 8 1 = 0) :=
  ⟨{ State.reset with hp.cmds := [{ raw := bytesOf [6, 255, 0, 0, 0, 0, 0, 0, 0, 0, 0, 0, 0, 0, 0, 0, 0, 0, 0, 0, 0, 0, 0, 0, 0, 0, 0, 0, 0, 0, 0, 0, 0, 0, 0, 0, 0, 0, 0, 0, 0, 0, 0, 0, 0, 0, 0, 0, 1, 0, 0, 0, 0, 0, 0, 0, 0, 0, 0, 0, 0, 0, 0, 0], sqid := 17, stage := .judged }], hp.sessions := [(1, { open_ := true, role := 2, carrier := .mac1 })], hp.eth := [(1, { route := some 1 })] }, 17, { raw := bytesOf [6, 255, 0, 0, 0, 0, 0, 0, 0, 0, 0, 0, 0, 0, 0, 0, 0, 0, 0, 0, 0, 0, 0, 0, 0, 0, 0, 0, 0, 0, 0, 0, 0, 0, 0, 0, 0, 0, 0, 0, 0, 0, 0, 0, 0, 0, 0, 0, 1, 0, 0, 0, 0, 0, 0, 0, 0, 0, 0, 0, 0, 0, 0, 0], sqid := 17, stage := .judged }, by decide, by decide, by decide, by decide⟩

theorem witness_BuiltinCommands_12 : ∃ (s : State) (q : Fin 18) (c : Cmd),
    (s.builtinFront q 0xFF07 = some c) ∧
    (s.hostRuns = true) ∧
    (s.romOnly = false) ∧
    (s.lake.ready = true) :=
  ⟨{ State.reset with hp.cmds := [{ raw := bytesOf [7, 255, 0, 0, 0, 0, 0, 0, 0, 0, 0, 0, 0, 0, 0, 0, 0, 0, 0, 0, 0, 0, 0, 0, 0, 0, 0, 0, 0, 0, 0, 0, 0, 0, 0, 0, 0, 0, 0, 0, 0, 0, 0, 0, 0, 0, 0, 0, 1, 0, 0, 0, 0, 0, 0, 0, 0, 0, 0, 0, 0, 0, 0, 0], sqid := 0, stage := .judged }], hp.sessions := [(1, { open_ := true, role := 2 })], lake.ready := true }, 0, { raw := bytesOf [7, 255, 0, 0, 0, 0, 0, 0, 0, 0, 0, 0, 0, 0, 0, 0, 0, 0, 0, 0, 0, 0, 0, 0, 0, 0, 0, 0, 0, 0, 0, 0, 0, 0, 0, 0, 0, 0, 0, 0, 0, 0, 0, 0, 0, 0, 0, 0, 1, 0, 0, 0, 0, 0, 0, 0, 0, 0, 0, 0, 0, 0, 0, 0], sqid := 0, stage := .judged }, by decide, by decide, by decide, by decide⟩

theorem witness_BuiltinCommands_13 : ∃ (s : State) (q : Fin 18) (c : Cmd),
    (s.builtinFront q 0xFF07 = some c) ∧
    (s.hostRuns = true) ∧
    (s.romOnly = false) ∧
    (s.lake.ready = false) :=
  ⟨{ State.reset with hp.cmds := [{ raw := bytesOf [7, 255, 0, 0, 0, 0, 0, 0, 0, 0, 0, 0, 0, 0, 0, 0, 0, 0, 0, 0, 0, 0, 0, 0, 0, 0, 0, 0, 0, 0, 0, 0, 0, 0, 0, 0, 0, 0, 0, 0, 0, 0, 0, 0, 0, 0, 0, 0, 1, 0, 0, 0, 0, 0, 0, 0, 0, 0, 0, 0, 0, 0, 0, 0], sqid := 0, stage := .judged }], hp.sessions := [(1, { open_ := true, role := 2 })] }, 0, { raw := bytesOf [7, 255, 0, 0, 0, 0, 0, 0, 0, 0, 0, 0, 0, 0, 0, 0, 0, 0, 0, 0, 0, 0, 0, 0, 0, 0, 0, 0, 0, 0, 0, 0, 0, 0, 0, 0, 0, 0, 0, 0, 0, 0, 0, 0, 0, 0, 0, 0, 1, 0, 0, 0, 0, 0, 0, 0, 0, 0, 0, 0, 0, 0, 0, 0], sqid := 0, stage := .judged }, by decide, by decide, by decide, by decide⟩

theorem witness_BuiltinCommands_14 : ∃ (s : State) (q : Fin 18) (c : Cmd),
    (s.builtinFront q 0xFF08 = some c) ∧
    (s.hostRuns = true) ∧
    (s.romOnly = false) ∧
    (zeros c.raw 11 1 = true ∧ s.ldg.sealed = false ∧ s.lake.inited = true) ∧
    (field c.raw 12 4 = 0x464F524D ∧ 1 ≤ field c.raw 8 1 ∧ field c.raw 8 1 ≤ 32 ∧ field c.raw 9 1 ≤ 64 ∧ 1 ≤ field c.raw 10 1 ∧ field c.raw 10 1 ≤ 36) ∧
    ((s.lake.totalBlocks : Int) ≤ (s.lake.quotas (field c.raw 8 1) (field c.raw 9 1) (field c.raw 10 1)).2.2 * 10) :=
  ⟨{ State.reset with hp.cmds := [{ raw := bytesOf [8, 255, 0, 0, 0, 0, 0, 0, 1, 0, 1, 0, 77, 82, 79, 70, 0, 0, 0, 0, 0, 0, 0, 0, 0, 0, 0, 0, 0, 0, 0, 0, 0, 0, 0, 0, 0, 0, 0, 0, 0, 0, 0, 0, 0, 0, 0, 0, 1, 0, 0, 0, 0, 0, 0, 0, 0, 0, 0, 0, 0, 0, 0, 0], sqid := 0, stage := .judged }], hp.sessions := [(1, { open_ := true, role := 4 })], lake.inited := true, lake.geom := { dg := 1, lunch := 2, planes := 4, bpc := 3, tmode := 5, pages := 1000, blocksPerLun := 512 } }, 0, { raw := bytesOf [8, 255, 0, 0, 0, 0, 0, 0, 1, 0, 1, 0, 77, 82, 79, 70, 0, 0, 0, 0, 0, 0, 0, 0, 0, 0, 0, 0, 0, 0, 0, 0, 0, 0, 0, 0, 0, 0, 0, 0, 0, 0, 0, 0, 0, 0, 0, 0, 1, 0, 0, 0, 0, 0, 0, 0, 0, 0, 0, 0, 0, 0, 0, 0], sqid := 0, stage := .judged }, by decide, by decide, by decide, by decide, by decide, by decide⟩

theorem witness_BuiltinCommands_15 : ∃ (s : State) (q : Fin 18) (c : Cmd),
    (s.builtinFront q 0xFF08 = some c) ∧
    (s.hostRuns = true) ∧
    (s.romOnly = false) ∧
    (zeros c.raw 11 1 = true ∧ s.ldg.sealed = true) :=
  ⟨{ State.reset with hp.cmds := [{ raw := bytesOf [8, 255, 0, 0, 0, 0, 0, 0, 0, 0, 0, 0, 0, 0, 0, 0, 0, 0, 0, 0, 0, 0, 0, 0, 0, 0, 0, 0, 0, 0, 0, 0, 0, 0, 0, 0, 0, 0, 0, 0, 0, 0, 0, 0, 0, 0, 0, 0, 1, 0, 0, 0, 0, 0, 0, 0, 0, 0, 0, 0, 0, 0, 0, 0], sqid := 0, stage := .judged }], hp.sessions := [(1, { open_ := true, role := 4 })], ldg.sealed := true }, 0, { raw := bytesOf [8, 255, 0, 0, 0, 0, 0, 0, 0, 0, 0, 0, 0, 0, 0, 0, 0, 0, 0, 0, 0, 0, 0, 0, 0, 0, 0, 0, 0, 0, 0, 0, 0, 0, 0, 0, 0, 0, 0, 0, 0, 0, 0, 0, 0, 0, 0, 0, 1, 0, 0, 0, 0, 0, 0, 0, 0, 0, 0, 0, 0, 0, 0, 0], sqid := 0, stage := .judged }, by decide, by decide, by decide, by decide⟩

theorem witness_BuiltinCommands_16 : ∃ (s : State) (sid : Fin 33) (x : Session),
    (s.session sid = some x) ∧
    (x.open_ = false ∧ x.openedAt + 1000000000 ≤ s.nowNs) ∧
    (s.clocked = true) :=
  ⟨{ State.reset with tmu.sec := 9, hp.sessions := [(3, { role := 2 })] }, 3, { role := 2 }, by decide, by decide, by decide⟩

theorem witness_BuiltinCommands_17 : ∃ (s : State) (sid : Fin 33) (x : Session),
    (s.session sid = some x) ∧
    (x.open_ = true ∨ s.nowNs < x.openedAt + 1000000000) :=
  ⟨{ State.reset with hp.sessions := [(3, { role := 2 })] }, 3, { role := 2 }, by decide, by decide⟩

theorem witness_BuiltinCommands_18 : ∃ (s : State) (m : Fin 3) (e : Nat),
    (s.hp.lockout.find m = some e) ∧
    (e ≤ s.nowNs) ∧
    (s.clocked = true) :=
  ⟨{ State.reset with tmu.sec := 9, hp.lockout := [(2, 5)] }, 2, 5, by decide, by decide, by decide⟩

theorem witness_StandardCommands_1 : ∃ (s : State) (q : Fin 18) (c : Cmd),
    (s.standardFront q 0x0010 = some c) ∧
    (s.coresRun = true ∧ s.glb.mode ≠ .standby) ∧
    ([1, 2, 3, 4, 5, 6].contains (s.cmdRole c) = true) ∧
    (field c.raw 8 4 = 0x60000001 ∧ 20 ≤ 8 * c.rlen8) :=
  ⟨{ State.reset with hp.cmds := [{ raw := bytesOf [16, 0, 32, 0, 0, 0, 0, 0, 1, 0, 0, 96, 0, 0, 0, 0, 0, 0, 0, 0, 0, 0, 0, 0, 0, 0, 0, 0, 0, 0, 0, 0, 0, 0, 0, 0, 0, 0, 0, 0, 0, 0, 0, 0, 0, 0, 64, 0, 1, 0, 0, 0, 0, 0, 0, 0, 0, 0, 0, 0, 0, 0, 0, 0], sqid := 0, stage := .delivered }], hp.sessions := [(1, { open_ := true, role := 2 })], ldg.unseals := 3 }, 0, { raw := bytesOf [16, 0, 32, 0, 0, 0, 0, 0, 1, 0, 0, 96, 0, 0, 0, 0, 0, 0, 0, 0, 0, 0, 0, 0, 0, 0, 0, 0, 0, 0, 0, 0, 0, 0, 0, 0, 0, 0, 0, 0, 0, 0, 0, 0, 0, 0, 64, 0, 1, 0, 0, 0, 0, 0, 0, 0, 0, 0, 0, 0, 0, 0, 0, 0], sqid := 0, stage := .delivered }, by decide, by decide, by decide, by decide⟩

theorem witness_StandardCommands_2 : ∃ (s : State) (q : Fin 18) (c : Cmd) (k : Nat),
    (s.standardFront q 0x0011 = some c) ∧
    (s.coresRun = true ∧ s.glb.mode ≠ .standby) ∧
    ([1, 2, 3, 4, 5, 6].contains (s.cmdRole c) = true) ∧
    (s.mcc.legal = 1 ∧ s.cmdRole c = 2) ∧
    (k < 1024 ∧ field c.raw 8 4 = 0x40000000 + k / 16 * 256 + k % 16) ∧
    (c.data.length = 16 ∧ field c.data 0 1 = 2 ∧ field c.data 1 1 = 0 ∧ zeros c.data 2 6 = true ∧ field c.data 8 8 = 0) ∧
    (s.ldg.live.force.find k = none ∧ s.tooSoon (field c.raw 16 8) = false) :=
  ⟨{ State.reset with hp.cmds := [{ raw := bytesOf [17, 0, 0, 0, 0, 0, 0, 0, 3, 5, 0, 64, 0, 0, 0, 0, 232, 3, 0, 0, 0, 0, 0, 0, 0, 0, 0, 0, 0, 0, 0, 0, 0, 0, 0, 0, 0, 0, 0, 0, 0, 0, 0, 0, 0, 0, 0, 0, 1, 0, 0, 0, 0, 0, 0, 0, 0, 0, 0, 0, 0, 0, 0, 0], sqid := 0, stage := .delivered, data := bytesOf [2, 0, 0, 0, 0, 0, 0, 0, 0, 0, 0, 0, 0, 0, 0, 0] }], hp.sessions := [(1, { open_ := true, role := 2 })], mcc.legal := 1 }, 0, { raw := bytesOf [17, 0, 0, 0, 0, 0, 0, 0, 3, 5, 0, 64, 0, 0, 0, 0, 232, 3, 0, 0, 0, 0, 0, 0, 0, 0, 0, 0, 0, 0, 0, 0, 0, 0, 0, 0, 0, 0, 0, 0, 0, 0, 0, 0, 0, 0, 0, 0, 1, 0, 0, 0, 0, 0, 0, 0, 0, 0, 0, 0, 0, 0, 0, 0], sqid := 0, stage := .delivered, data := bytesOf [2, 0, 0, 0, 0, 0, 0, 0, 0, 0, 0, 0, 0, 0, 0, 0] }, 83, by decide, by decide, by decide, by decide, by decide, by decide, by decide⟩

theorem witness_StandardCommands_3 : ∃ (s : State) (q : Fin 18) (c : Cmd),
    (s.standardFront q 0x0011 = some c) ∧
    (s.coresRun = true ∧ s.glb.mode ≠ .standby) ∧
    ([1, 2, 3, 4, 5, 6].contains (s.cmdRole c) = true) ∧
    (s.mcc.legal ≠ 1) :=
  ⟨{ State.reset with hp.cmds := [{ raw := bytesOf [17, 0, 0, 0, 0, 0, 0, 0, 3, 5, 0, 64, 0, 0, 0, 0, 0, 0, 0, 0, 0, 0, 0, 0, 0, 0, 0, 0, 0, 0, 0, 0, 0, 0, 0, 0, 0, 0, 0, 0, 0, 0, 0, 0, 0, 0, 0, 0, 1, 0, 0, 0, 0, 0, 0, 0, 0, 0, 0, 0, 0, 0, 0, 0], sqid := 0, stage := .delivered }], hp.sessions := [(1, { open_ := true, role := 2 })] }, 0, { raw := bytesOf [17, 0, 0, 0, 0, 0, 0, 0, 3, 5, 0, 64, 0, 0, 0, 0, 0, 0, 0, 0, 0, 0, 0, 0, 0, 0, 0, 0, 0, 0, 0, 0, 0, 0, 0, 0, 0, 0, 0, 0, 0, 0, 0, 0, 0, 0, 0, 0, 1, 0, 0, 0, 0, 0, 0, 0, 0, 0, 0, 0, 0, 0, 0, 0], sqid := 0, stage := .delivered }, by decide, by decide, by decide, by decide⟩

theorem witness_StandardCommands_4 : ∃ (s : State) (q : Fin 18) (c : Cmd),
    (s.standardFront q 0x0012 = some c) ∧
    (s.coresRun = true ∧ s.glb.mode ≠ .standby) ∧
    ([1, 2, 3, 4, 5, 6].contains (s.cmdRole c) = true) ∧
    (s.mcc.legal = 1 ∧ s.cmdRole c = 5) ∧
    (field c.raw 8 4 = 0x60000003) ∧
    (s.ldg.pin = false ∧ s.ldg.sealPending = none ∧ 4 ≤ s.sepia.pinnedFree) :=
  ⟨{ State.reset with hp.cmds := [{ raw := bytesOf [18, 0, 0, 0, 0, 0, 0, 0, 3, 0, 0, 96, 0, 0, 0, 0, 0, 0, 0, 0, 0, 0, 0, 0, 0, 0, 0, 0, 0, 0, 0, 0, 0, 0, 0, 0, 0, 0, 0, 0, 0, 0, 0, 0, 0, 0, 0, 0, 1, 0, 0, 0, 0, 0, 0, 0, 0, 0, 0, 0, 0, 0, 0, 0], sqid := 0, stage := .delivered }], hp.sessions := [(1, { open_ := true, role := 5 })], mcc.legal := 1 }, 0, { raw := bytesOf [18, 0, 0, 0, 0, 0, 0, 0, 3, 0, 0, 96, 0, 0, 0, 0, 0, 0, 0, 0, 0, 0, 0, 0, 0, 0, 0, 0, 0, 0, 0, 0, 0, 0, 0, 0, 0, 0, 0, 0, 0, 0, 0, 0, 0, 0, 0, 0, 1, 0, 0, 0, 0, 0, 0, 0, 0, 0, 0, 0, 0, 0, 0, 0], sqid := 0, stage := .delivered }, by decide, by decide, by decide, by decide, by decide, by decide⟩

theorem witness_StandardCommands_5 : ∃ (s : State) (q : Fin 18) (c : Cmd),
    (s.standardFront q 0x0012 = some c) ∧
    (s.coresRun = true ∧ s.glb.mode ≠ .standby) ∧
    ([1, 2, 3, 4, 5, 6].contains (s.cmdRole c) = true) ∧
    (s.mcc.legal ≠ 1) :=
  ⟨{ State.reset with hp.cmds := [{ raw := bytesOf [18, 0, 0, 0, 0, 0, 0, 0, 3, 0, 0, 96, 0, 0, 0, 0, 0, 0, 0, 0, 0, 0, 0, 0, 0, 0, 0, 0, 0, 0, 0, 0, 0, 0, 0, 0, 0, 0, 0, 0, 0, 0, 0, 0, 0, 0, 0, 0, 1, 0, 0, 0, 0, 0, 0, 0, 0, 0, 0, 0, 0, 0, 0, 0], sqid := 0, stage := .delivered }], hp.sessions := [(1, { open_ := true, role := 5 })] }, 0, { raw := bytesOf [18, 0, 0, 0, 0, 0, 0, 0, 3, 0, 0, 96, 0, 0, 0, 0, 0, 0, 0, 0, 0, 0, 0, 0, 0, 0, 0, 0, 0, 0, 0, 0, 0, 0, 0, 0, 0, 0, 0, 0, 0, 0, 0, 0, 0, 0, 0, 0, 1, 0, 0, 0, 0, 0, 0, 0, 0, 0, 0, 0, 0, 0, 0, 0], sqid := 0, stage := .delivered }, by decide, by decide, by decide, by decide⟩

set_option Elab.async false in
theorem witness_StandardCommands_6 : ∃ (s : State) (q : Fin 18) (c : Cmd) (w : Nat),
    (s.standardFront q 0x0020 = some c) ∧
    (s.coresRun = true ∧ s.glb.mode ≠ .standby) ∧
    ([1, 2, 3, 4, 5, 6].contains (s.cmdRole c) = true) ∧
    (dirReserved (fit 64 c.data) = false ∧ field (fit 64 c.data) 12 1 ≤ 3 ∧ field (fit 64 c.data) 13 1 ≤ 3 ∧ field (fit 64 c.data) 14 1 ≤ 63 ∧ field (fit 64 c.data) 22 1 ≤ 63 ∧ groupMa (BitVec.ofNat 64 (field (fit 64 c.data) 0 8)) = false) ∧
    (s.hk.isSome = true ∧ s.dirClosed = false) ∧
    (s.ownerChip (BitVec.ofNat 64 (field (fit 64 c.data) 0 8)) = s.cas.chipId) ∧
    (s.ing.inserts = []) ∧
    (s.lookup (BitVec.ofNat 64 (field (fit 64 c.data) 0 8)) = none) ∧
    (s.freeWay (buckets (s.hk.getD []) (BitVec.ofNat 64 (field (fit 64 c.data) 0 8))).1 = some w) :=
  ⟨{ State.reset with hp.cmds := [{ raw := bytesOf [32, 0, 0, 0, 0, 0, 0, 0, 0, 0, 0, 0, 0, 0, 0, 0, 0, 0, 0, 0, 0, 0, 0, 0, 0, 0, 0, 0, 0, 0, 0, 0, 0, 0, 0, 0, 0, 0, 0, 0, 0, 0, 0, 0, 0, 0, 0, 0, 1, 0, 0, 0, 0, 0, 0, 0, 0, 0, 0, 0, 0, 0, 0, 0], sqid := 0, stage := .delivered, data := bytesOf [5, 0, 0, 0, 0, 0, 0, 0, 0, 0, 0, 0, 0, 0, 0, 0, 0, 0, 0, 0, 0, 0, 0, 1, 0, 0, 0, 0, 0, 0, 0, 0, 0, 0, 0, 0, 0, 0, 0, 0, 0, 0, 0, 0, 0, 0, 0, 0, 0, 0, 0, 0, 0, 0, 0, 0, 0, 0, 0, 0, 0, 0, 0, 0] }], hp.sessions := [(1, { open_ := true, role := 2 })], woad.life := .owned }, 0, { raw := bytesOf [32, 0, 0, 0, 0, 0, 0, 0, 0, 0, 0, 0, 0, 0, 0, 0, 0, 0, 0, 0, 0, 0, 0, 0, 0, 0, 0, 0, 0, 0, 0, 0, 0, 0, 0, 0, 0, 0, 0, 0, 0, 0, 0, 0, 0, 0, 0, 0, 1, 0, 0, 0, 0, 0, 0, 0, 0, 0, 0, 0, 0, 0, 0, 0], sqid := 0, stage := .delivered, data := bytesOf [5, 0, 0, 0, 0, 0, 0, 0, 0, 0, 0, 0, 0, 0, 0, 0, 0, 0, 0, 0, 0, 0, 0, 1, 0, 0, 0, 0, 0, 0, 0, 0, 0, 0, 0, 0, 0, 0, 0, 0, 0, 0, 0, 0, 0, 0, 0, 0, 0, 0, 0, 0, 0, 0, 0, 0, 0, 0, 0, 0, 0, 0, 0, 0] }, 915228, by decide, by decide, by decide, by decide, by decide, by decide +kernel, by decide, by decide +kernel, by decide +kernel⟩

set_option Elab.async false in
theorem witness_StandardCommands_7 : ∃ (s : State) (q : Fin 18) (c : Cmd) (mh : Nat),
    (s.standardFront q 0x0021 = some c) ∧
    (s.coresRun = true ∧ s.glb.mode ≠ .standby) ∧
    ([1, 2, 3, 4, 5, 6].contains (s.cmdRole c) = true) ∧
    (s.hk.isSome = true) ∧
    (s.lookup (BitVec.ofNat 64 (field c.raw 8 8)) = some mh) ∧
    (s.entryBad mh = false) :=
  ⟨{ State.reset with hp.cmds := [{ raw := bytesOf [33, 0, 0, 0, 0, 0, 0, 0, 5, 0, 0, 0, 0, 0, 0, 0, 0, 0, 0, 0, 0, 0, 0, 0, 0, 0, 0, 0, 0, 0, 0, 0, 0, 0, 0, 0, 0, 0, 0, 0, 0, 0, 0, 0, 0, 0, 0, 0, 1, 0, 0, 0, 0, 0, 0, 0, 0, 0, 0, 0, 0, 0, 0, 0], sqid := 0, stage := .delivered }], hp.sessions := [(1, { open_ := true, role := 2 })], woad.life := .owned, ing.dir := [(915228, { st := .active, ma := 5 })] }, 0, { raw := bytesOf [33, 0, 0, 0, 0, 0, 0, 0, 5, 0, 0, 0, 0, 0, 0, 0, 0, 0, 0, 0, 0, 0, 0, 0, 0, 0, 0, 0, 0, 0, 0, 0, 0, 0, 0, 0, 0, 0, 0, 0, 0, 0, 0, 0, 0, 0, 0, 0, 1, 0, 0, 0, 0, 0, 0, 0, 0, 0, 0, 0, 0, 0, 0, 0], sqid := 0, stage := .delivered }, 915228, by decide, by decide, by decide, by decide, by decide +kernel, by decide⟩

theorem witness_StandardCommands_8 : ∃ (s : State) (q : Fin 18) (c : Cmd),
    (s.standardFront q 0x0022 = some c) ∧
    (s.coresRun = true ∧ s.glb.mode ≠ .standby) ∧
    ([1, 2, 3, 4, 5, 6].contains (s.cmdRole c) = true) ∧
    (field c.raw 8 4 < 2 ^ 20) ∧
    (s.entryBad (field c.raw 8 4 % 2 ^ 20) = false ∧ (s.entry (field c.raw 8 4 % 2 ^ 20)).st ≠ .free) :=
  ⟨{ State.reset with hp.cmds := [{ raw := bytesOf [34, 0, 32, 0, 0, 0, 0, 0, 5, 0, 0, 0, 0, 0, 0, 0, 0, 0, 0, 0, 0, 0, 0, 0, 0, 0, 0, 0, 0, 0, 0, 0, 0, 0, 0, 0, 0, 0, 0, 0, 0, 0, 0, 0, 0, 0, 64, 0, 1, 0, 0, 0, 0, 0, 0, 0, 0, 0, 0, 0, 0, 0, 0, 0], sqid := 0, stage := .delivered }], hp.sessions := [(1, { open_ := true, role := 2 })], ing.dir := [(5, { st := .active, ma := 9 })] }, 0, { raw := bytesOf [34, 0, 32, 0, 0, 0, 0, 0, 5, 0, 0, 0, 0, 0, 0, 0, 0, 0, 0, 0, 0, 0, 0, 0, 0, 0, 0, 0, 0, 0, 0, 0, 0, 0, 0, 0, 0, 0, 0, 0, 0, 0, 0, 0, 0, 0, 64, 0, 1, 0, 0, 0, 0, 0, 0, 0, 0, 0, 0, 0, 0, 0, 0, 0], sqid := 0, stage := .delivered }, by decide, by decide, by decide, by decide, by decide⟩

theorem witness_StandardCommands_9 : ∃ (s : State) (q : Fin 18) (c : Cmd),
    (s.standardFront q 0x0023 = some c) ∧
    (s.coresRun = true ∧ s.glb.mode ≠ .standby) ∧
    ([1, 2, 3, 4, 5, 6].contains (s.cmdRole c) = true) ∧
    (dirReserved (fit 64 c.data) = false) ∧
    (s.dirClosed = false) ∧
    (s.entryBad (field (fit 64 c.data) 8 4 % 2 ^ 20) = false ∧ (s.entry (field (fit 64 c.data) 8 4 % 2 ^ 20)).st ≠ .free) ∧
    (bitAt (field (fit 64 c.data) 26 1) 0 = false ∧ bitAt (field (fit 64 c.data) 26 1) 1 = false ∧ bitAt (field (fit 64 c.data) 26 1) 2 = false ∧ bitAt (field (fit 64 c.data) 26 1) 3 = false ∧ bitAt (field (fit 64 c.data) 26 1) 4 = false ∧ bitAt (field (fit 64 c.data) 26 1) 5 = true ∧ bitAt (field (fit 64 c.data) 15 1) 3 = true) :=
  ⟨{ State.reset with hp.cmds := [{ raw := bytesOf [35, 0, 0, 0, 0, 0, 0, 0, 0, 0, 0, 0, 0, 0, 0, 0, 0, 0, 0, 0, 0, 0, 0, 0, 0, 0, 0, 0, 0, 0, 0, 0, 0, 0, 0, 0, 0, 0, 0, 0, 0, 0, 0, 0, 0, 0, 0, 0, 1, 0, 0, 0, 0, 0, 0, 0, 0, 0, 0, 0, 0, 0, 0, 0], sqid := 0, stage := .delivered, data := bytesOf [0, 0, 0, 0, 0, 0, 0, 0, 5, 0, 0, 0, 0, 0, 0, 8, 0, 0, 0, 0, 0, 0, 0, 0, 0, 0, 32, 0, 0, 0, 0, 0, 0, 0, 0, 0, 0, 0, 0, 0, 0, 0, 0, 0, 0, 0, 0, 0, 0, 0, 0, 0, 0, 0, 0, 0, 0, 0, 0, 0, 0, 0, 0, 0] }], hp.sessions := [(1, { open_ := true, role := 2 })], ing.dir := [(5, { st := .active, ma := 9 })] }, 0, { raw := bytesOf [35, 0, 0, 0, 0, 0, 0, 0, 0, 0, 0, 0, 0, 0, 0, 0, 0, 0, 0, 0, 0, 0, 0, 0, 0, 0, 0, 0, 0, 0, 0, 0, 0, 0, 0, 0, 0, 0, 0, 0, 0, 0, 0, 0, 0, 0, 0, 0, 1, 0, 0, 0, 0, 0, 0, 0, 0, 0, 0, 0, 0, 0, 0, 0], sqid := 0, stage := .delivered, data := bytesOf [0, 0, 0, 0, 0, 0, 0, 0, 5, 0, 0, 0, 0, 0, 0, 8, 0, 0, 0, 0, 0, 0, 0, 0, 0, 0, 32, 0, 0, 0, 0, 0, 0, 0, 0, 0, 0, 0, 0, 0, 0, 0, 0, 0, 0, 0, 0, 0, 0, 0, 0, 0, 0, 0, 0, 0, 0, 0, 0, 0, 0, 0, 0, 0] }, by decide, by decide, by decide, by decide, by decide, by decide, by decide⟩

theorem witness_StandardCommands_10 : ∃ (s : State) (q : Fin 18) (c : Cmd),
    (s.standardFront q 0x0024 = some c) ∧
    (s.coresRun = true ∧ s.glb.mode ≠ .standby) ∧
    ([1, 2, 3, 4, 5, 6].contains (s.cmdRole c) = true) ∧
    (dirReserved (fit 64 c.data) = false) ∧
    (s.dirClosed = false) ∧
    (s.entryBad (field (fit 64 c.data) 8 4 % 2 ^ 20) = false ∧ (s.entry (field (fit 64 c.data) 8 4 % 2 ^ 20)).st ≠ .free) ∧
    (bitAt (field (fit 64 c.data) 15 1) 1 = false ∧ field (fit 64 c.data) 22 1 ≤ 63 ∧ (field (fit 64 c.data) 22 1 ≠ (s.entry (field (fit 64 c.data) 8 4 % 2 ^ 20)).dkslot.toNat ∨ (s.entry (field (fit 64 c.data) 8 4 % 2 ^ 20)).kepoch ≠ 255)) :=
  ⟨{ State.reset with hp.cmds := [{ raw := bytesOf [36, 0, 0, 0, 0, 0, 0, 0, 0, 0, 0, 0, 0, 0, 0, 0, 0, 0, 0, 0, 0, 0, 0, 0, 0, 0, 0, 0, 0, 0, 0, 0, 0, 0, 0, 0, 0, 0, 0, 0, 0, 0, 0, 0, 0, 0, 0, 0, 1, 0, 0, 0, 0, 0, 0, 0, 0, 0, 0, 0, 0, 0, 0, 0], sqid := 0, stage := .delivered, data := bytesOf [0, 0, 0, 0, 0, 0, 0, 0, 5, 0, 0, 0, 0, 0, 0, 0, 0, 0, 0, 0, 0, 0, 3, 0, 0, 0, 0, 0, 0, 0, 0, 0, 0, 0, 0, 0, 0, 0, 0, 0, 0, 0, 0, 0, 0, 0, 0, 0, 0, 0, 0, 0, 0, 0, 0, 0, 0, 0, 0, 0, 0, 0, 0, 0] }], hp.sessions := [(1, { open_ := true, role := 2 })], ing.dir := [(5, { st := .active, ma := 9 })] }, 0, { raw := bytesOf [36, 0, 0, 0, 0, 0, 0, 0, 0, 0, 0, 0, 0, 0, 0, 0, 0, 0, 0, 0, 0, 0, 0, 0, 0, 0, 0, 0, 0, 0, 0, 0, 0, 0, 0, 0, 0, 0, 0, 0, 0, 0, 0, 0, 0, 0, 0, 0, 1, 0, 0, 0, 0, 0, 0, 0, 0, 0, 0, 0, 0, 0, 0, 0], sqid := 0, stage := .delivered, data := bytesOf [0, 0, 0, 0, 0, 0, 0, 0, 5, 0, 0, 0, 0, 0, 0, 0, 0, 0, 0, 0, 0, 0, 3, 0, 0, 0, 0, 0, 0, 0, 0, 0, 0, 0, 0, 0, 0, 0, 0, 0, 0, 0, 0, 0, 0, 0, 0, 0, 0, 0, 0, 0, 0, 0, 0, 0, 0, 0, 0, 0, 0, 0, 0, 0] }, by decide, by decide, by decide, by decide, by decide, by decide, by decide⟩

theorem witness_StandardCommands_11 : ∃ (s : State) (q : Fin 18) (c : Cmd),
    (s.standardFront q 0x0025 = some c) ∧
    (s.coresRun = true ∧ s.glb.mode ≠ .standby) ∧
    ([1, 2, 3, 4, 5, 6].contains (s.cmdRole c) = true) ∧
    (dirReserved (fit 64 c.data) = false) ∧
    (s.dirClosed = false) ∧
    (s.entryBad (field (fit 64 c.data) 8 4 % 2 ^ 20) = false ∧ (s.entry (field (fit 64 c.data) 8 4 % 2 ^ 20)).st ≠ .free) ∧
    ((s.entry (field (fit 64 c.data) 8 4 % 2 ^ 20)).cmdpend = false) ∧
    ((s.ing.cmdSlots.find (field (fit 64 c.data) 24 2)).isSome = true) :=
  ⟨{ State.reset with hp.cmds := [{ raw := bytesOf [37, 0, 0, 0, 0, 0, 0, 0, 0, 0, 0, 0, 0, 0, 0, 0, 0, 0, 0, 0, 0, 0, 0, 0, 0, 0, 0, 0, 0, 0, 0, 0, 0, 0, 0, 0, 0, 0, 0, 0, 0, 0, 0, 0, 0, 0, 0, 0, 1, 0, 0, 0, 0, 0, 0, 0, 0, 0, 0, 0, 0, 0, 0, 0], sqid := 0, stage := .delivered, data := bytesOf [0, 0, 0, 0, 0, 0, 0, 0, 5, 0, 0, 0, 0, 0, 0, 0, 0, 0, 0, 0, 0, 0, 0, 0, 3, 0, 0, 0, 0, 0, 0, 0, 0, 0, 0, 0, 0, 0, 0, 0, 0, 0, 0, 0, 0, 0, 0, 0, 0, 0, 0, 0, 0, 0, 0, 0, 0, 0, 0, 0, 0, 0, 0, 0] }], hp.sessions := [(1, { open_ := true, role := 2 })], ing.dir := [(5, { st := .active, ma := 9 })], ing.cmdSlots := [(3, [1#8])] }, 0, { raw := bytesOf [37, 0, 0, 0, 0, 0, 0, 0, 0, 0, 0, 0, 0, 0, 0, 0, 0, 0, 0, 0, 0, 0, 0, 0, 0, 0, 0, 0, 0, 0, 0, 0, 0, 0, 0, 0, 0, 0, 0, 0, 0, 0, 0, 0, 0, 0, 0, 0, 1, 0, 0, 0, 0, 0, 0, 0, 0, 0, 0, 0, 0, 0, 0, 0], sqid := 0, stage := .delivered, data := bytesOf [0, 0, 0, 0, 0, 0, 0, 0, 5, 0, 0, 0, 0, 0, 0, 0, 0, 0, 0, 0, 0, 0, 0, 0, 3, 0, 0, 0, 0, 0, 0, 0, 0, 0, 0, 0, 0, 0, 0, 0, 0, 0, 0, 0, 0, 0, 0, 0, 0, 0, 0, 0, 0, 0, 0, 0, 0, 0, 0, 0, 0, 0, 0, 0] }, by decide, by decide, by decide, by decide, by decide, by decide, by decide, by decide⟩

theorem witness_StandardCommands_12 : ∃ (s : State) (q : Fin 18) (c : Cmd),
    (s.standardFront q 0x0026 = some c) ∧
    (s.coresRun = true ∧ s.glb.mode ≠ .standby) ∧
    ([1, 2, 3, 4, 5, 6].contains (s.cmdRole c) = true) ∧
    (dirReserved (fit 64 c.data) = false) ∧
    (s.dirClosed = false) ∧
    (s.wayFree (field (fit 64 c.data) 8 4 % 2 ^ 20) = false) ∧
    ((s.meter (field (fit 64 c.data) 8 4 % 2 ^ 20)).opn = none ∧ s.heldMh (field (fit 64 c.data) 8 4 % 2 ^ 20) = false) :=
  ⟨{ State.reset with hp.cmds := [{ raw := bytesOf [38, 0, 0, 0, 0, 0, 0, 0, 0, 0, 0, 0, 0, 0, 0, 0, 0, 0, 0, 0, 0, 0, 0, 0, 0, 0, 0, 0, 0, 0, 0, 0, 0, 0, 0, 0, 0, 0, 0, 0, 0, 0, 0, 0, 0, 0, 0, 0, 1, 0, 0, 0, 0, 0, 0, 0, 0, 0, 0, 0, 0, 0, 0, 0], sqid := 0, stage := .delivered, data := bytesOf [0, 0, 0, 0, 0, 0, 0, 0, 5, 0, 0, 0, 0, 0, 0, 0, 0, 0, 0, 0, 0, 0, 0, 0, 0, 0, 0, 0, 0, 0, 0, 0, 0, 0, 0, 0, 0, 0, 0, 0, 0, 0, 0, 0, 0, 0, 0, 0, 0, 0, 0, 0, 0, 0, 0, 0, 0, 0, 0, 0, 0, 0, 0, 0] }], hp.sessions := [(1, { open_ := true, role := 2 })], ing.dir := [(5, { st := .active, ma := 9 })] }, 0, { raw := bytesOf [38, 0, 0, 0, 0, 0, 0, 0, 0, 0, 0, 0, 0, 0, 0, 0, 0, 0, 0, 0, 0, 0, 0, 0, 0, 0, 0, 0, 0, 0, 0, 0, 0, 0, 0, 0, 0, 0, 0, 0, 0, 0, 0, 0, 0, 0, 0, 0, 1, 0, 0, 0, 0, 0, 0, 0, 0, 0, 0, 0, 0, 0, 0, 0], sqid := 0, stage := .delivered, data := bytesOf [0, 0, 0, 0, 0, 0, 0, 0, 5, 0, 0, 0, 0, 0, 0, 0, 0, 0, 0, 0, 0, 0, 0, 0, 0, 0, 0, 0, 0, 0, 0, 0, 0, 0, 0, 0, 0, 0, 0, 0, 0, 0, 0, 0, 0, 0, 0, 0, 0, 0, 0, 0, 0, 0, 0, 0, 0, 0, 0, 0, 0, 0, 0, 0] }, by decide, by decide, by decide, by decide, by decide, by decide, by decide⟩

theorem witness_StandardCommands_13 : ∃ (s : State) (q : Fin 18) (c : Cmd),
    (s.standardFront q 0x0030 = some c) ∧
    (s.coresRun = true ∧ s.glb.mode ≠ .standby) ∧
    ([1, 2, 3, 4, 5, 6].contains (s.cmdRole c) = true) ∧
    (zeros (fit 16 c.data) 2 2 = true) ∧
    (topologyBad (field (fit 16 c.data) 0 2) (slice (fit 16 c.data) 4 12) s = false) :=
  ⟨{ State.reset with hp.cmds := [{ raw := bytesOf [48, 0, 0, 0, 0, 0, 0, 0, 0, 0, 0, 0, 0, 0, 0, 0, 0, 0, 0, 0, 0, 0, 0, 0, 0, 0, 0, 0, 0, 0, 0, 0, 0, 0, 0, 0, 0, 0, 0, 0, 0, 0, 0, 0, 0, 0, 0, 0, 1, 0, 0, 0, 0, 0, 0, 0, 0, 0, 0, 0, 0, 0, 0, 0], sqid := 0, stage := .delivered, data := bytesOf [3, 0, 0, 0, 255, 255, 16, 1, 0, 0, 0, 0, 100, 0, 0, 0] }], hp.sessions := [(1, { open_ := true, role := 2 })] }, 0, { raw := bytesOf [48, 0, 0, 0, 0, 0, 0, 0, 0, 0, 0, 0, 0, 0, 0, 0, 0, 0, 0, 0, 0, 0, 0, 0, 0, 0, 0, 0, 0, 0, 0, 0, 0, 0, 0, 0, 0, 0, 0, 0, 0, 0, 0, 0, 0, 0, 0, 0, 1, 0, 0, 0, 0, 0, 0, 0, 0, 0, 0, 0, 0, 0, 0, 0], sqid := 0, stage := .delivered, data := bytesOf [3, 0, 0, 0, 255, 255, 16, 1, 0, 0, 0, 0, 100, 0, 0, 0] }, by decide, by decide, by decide, by decide, by decide⟩

theorem witness_StandardCommands_14 : ∃ (s : State) (q : Fin 18) (c : Cmd),
    (s.standardFront q 0x0031 = some c) ∧
    (s.coresRun = true ∧ s.glb.mode ≠ .standby) ∧
    ([1, 2, 3, 4, 5, 6].contains (s.cmdRole c) = true) :=
  ⟨{ State.reset with hp.cmds := [{ raw := bytesOf [49, 0, 32, 0, 0, 0, 0, 0, 3, 0, 0, 0, 0, 0, 0, 0, 0, 0, 0, 0, 0, 0, 0, 0, 0, 0, 0, 0, 0, 0, 0, 0, 0, 0, 0, 0, 0, 0, 0, 0, 0, 0, 0, 0, 0, 0, 64, 0, 1, 0, 0, 0, 0, 0, 0, 0, 0, 0, 0, 0, 0, 0, 0, 0], sqid := 0, stage := .delivered }], hp.sessions := [(1, { open_ := true, role := 2 })] }, 0, { raw := bytesOf [49, 0, 32, 0, 0, 0, 0, 0, 3, 0, 0, 0, 0, 0, 0, 0, 0, 0, 0, 0, 0, 0, 0, 0, 0, 0, 0, 0, 0, 0, 0, 0, 0, 0, 0, 0, 0, 0, 0, 0, 0, 0, 0, 0, 0, 0, 64, 0, 1, 0, 0, 0, 0, 0, 0, 0, 0, 0, 0, 0, 0, 0, 0, 0], sqid := 0, stage := .delivered }, by decide, by decide, by decide⟩

theorem witness_StandardCommands_15 : ∃ (s : State) (q : Fin 18) (c : Cmd),
    (s.standardFront q 0x0032 = some c) ∧
    (s.coresRun = true ∧ s.glb.mode ≠ .standby) ∧
    ([1, 2, 3, 4, 5, 6].contains (s.cmdRole c) = true) ∧
    (s.cas.master = true ∧ s.bal.cfg = none ∧ s.bal.nodes = []) ∧
    (balConfigBad (field c.raw 8 1) (field c.raw 9 1) (field c.raw 10 2) = false) :=
  ⟨{ State.reset with hp.cmds := [{ raw := bytesOf [50, 0, 0, 0, 0, 0, 0, 0, 15, 2, 40, 35, 0, 0, 0, 0, 0, 0, 0, 0, 0, 0, 0, 0, 0, 0, 0, 0, 0, 0, 0, 0, 0, 0, 0, 0, 0, 0, 0, 0, 0, 0, 0, 0, 0, 0, 0, 0, 1, 0, 0, 0, 0, 0, 0, 0, 0, 0, 0, 0, 0, 0, 0, 0], sqid := 0, stage := .delivered }], hp.sessions := [(1, { open_ := true, role := 2 })] }, 0, { raw := bytesOf [50, 0, 0, 0, 0, 0, 0, 0, 15, 2, 40, 35, 0, 0, 0, 0, 0, 0, 0, 0, 0, 0, 0, 0, 0, 0, 0, 0, 0, 0, 0, 0, 0, 0, 0, 0, 0, 0, 0, 0, 0, 0, 0, 0, 0, 0, 0, 0, 1, 0, 0, 0, 0, 0, 0, 0, 0, 0, 0, 0, 0, 0, 0, 0], sqid := 0, stage := .delivered }, by decide, by decide, by decide, by decide, by decide⟩

theorem witness_StandardCommands_16 : ∃ (s : State) (q : Fin 18) (c : Cmd) (l : List Byte),
    (s.standardFront q 0x0040 = some c) ∧
    (s.coresRun = true ∧ s.glb.mode ≠ .standby) ∧
    ([1, 2, 3, 4, 5, 6].contains (s.cmdRole c) = true) ∧
    (field c.raw 12 4 % 8 = 0 ∧ field c.raw 12 4 < 262144 ∧ 24 ≤ 8 * c.rlen8 ∧ 8 * c.rlen8 ≤ 65552) ∧
    (s.lake.logRead (field c.raw 8 4) (field c.raw 12 4) (8 * c.rlen8 - 16) = (stOk, l)) :=
  ⟨{ State.reset with hp.cmds := [{ raw := bytesOf [64, 0, 32, 0, 0, 0, 0, 0, 0, 0, 0, 0, 0, 0, 0, 0, 0, 0, 0, 0, 0, 0, 0, 0, 0, 0, 0, 0, 0, 0, 0, 0, 0, 0, 0, 0, 0, 0, 0, 0, 0, 0, 0, 0, 0, 0, 64, 0, 1, 0, 0, 0, 0, 0, 0, 0, 0, 0, 0, 0, 0, 0, 0, 0], sqid := 0, stage := .delivered }], hp.sessions := [(1, { open_ := true, role := 2 })], lake.lsnHead := 1, lake.log := [{ lsn := 0, off := 0, rtype := 4, src := 511, mh := 3, flags := 0, dtime := 0, body := [], landed := true }] }, 0, { raw := bytesOf [64, 0, 32, 0, 0, 0, 0, 0, 0, 0, 0, 0, 0, 0, 0, 0, 0, 0, 0, 0, 0, 0, 0, 0, 0, 0, 0, 0, 0, 0, 0, 0, 0, 0, 0, 0, 0, 0, 0, 0, 0, 0, 0, 0, 0, 0, 64, 0, 1, 0, 0, 0, 0, 0, 0, 0, 0, 0, 0, 0, 0, 0, 0, 0], sqid := 0, stage := .delivered }, bytesOf [4, 16, 3, 0, 240, 31, 0, 0, 0, 0, 0, 0, 0, 0, 0, 0], by decide, by decide, by decide, by decide, by decide⟩

theorem witness_StandardCommands_17 : ∃ (s : State) (q : Fin 18) (c : Cmd),
    (s.standardFront q 0x0041 = some c) ∧
    (s.coresRun = true ∧ s.glb.mode ≠ .standby) ∧
    ([1, 2, 3, 4, 5, 6].contains (s.cmdRole c) = true) ∧
    (s.lake.heack ≤ field c.raw 8 4 ∧ field c.raw 8 4 ≤ s.lake.lsnHead) :=
  ⟨{ State.reset with hp.cmds := [{ raw := bytesOf [65, 0, 0, 0, 0, 0, 0, 0, 3, 0, 0, 0, 0, 0, 0, 0, 0, 0, 0, 0, 0, 0, 0, 0, 0, 0, 0, 0, 0, 0, 0, 0, 0, 0, 0, 0, 0, 0, 0, 0, 0, 0, 0, 0, 0, 0, 0, 0, 1, 0, 0, 0, 0, 0, 0, 0, 0, 0, 0, 0, 0, 0, 0, 0], sqid := 0, stage := .delivered }], hp.sessions := [(1, { open_ := true, role := 2 })], lake.lsnHead := 5 }, 0, { raw := bytesOf [65, 0, 0, 0, 0, 0, 0, 0, 3, 0, 0, 0, 0, 0, 0, 0, 0, 0, 0, 0, 0, 0, 0, 0, 0, 0, 0, 0, 0, 0, 0, 0, 0, 0, 0, 0, 0, 0, 0, 0, 0, 0, 0, 0, 0, 0, 0, 0, 1, 0, 0, 0, 0, 0, 0, 0, 0, 0, 0, 0, 0, 0, 0, 0], sqid := 0, stage := .delivered }, by decide, by decide, by decide, by decide⟩

theorem witness_KeyCommands_1 : ∃ (s : State) (q : Fin 18) (c : Cmd),
    (s.standardFront q 0x0050 = some c) ∧
    (s.coresRun = true ∧ s.glb.mode ≠ .standby) ∧
    ([1, 2, 3, 4, 5, 6].contains (s.cmdRole c) = true) ∧
    (s.glb.mode ≠ .holdup ∧ s.lake.ready = true ∧ s.cas.pair = 0 ∧ s.woad.debugSub = false) ∧
    (s.cmdRole c = 2 ∧ s.woad.life = .owned) ∧
    (field c.raw 8 1 = 1 ∧ field c.raw 9 1 = 3 ∧ 4 ≤ c.data.length) :=
  ⟨{ State.reset with hp.cmds := [{ raw := bytesOf [80, 0, 0, 0, 0, 0, 0, 0, 1, 3, 0, 0, 0, 0, 0, 0, 0, 0, 0, 0, 0, 0, 0, 0, 0, 0, 0, 0, 0, 0, 0, 0, 0, 0, 0, 0, 0, 0, 0, 0, 0, 0, 0, 0, 0, 0, 0, 0, 1, 0, 0, 0, 0, 0, 0, 0, 0, 0, 0, 0, 0, 0, 0, 0], sqid := 0, stage := .delivered, data := bytesOf [1, 2, 0, 0] }], hp.sessions := [(1, { open_ := true, role := 2 })], lake.ready := true, woad.life := .owned, otp := [(1105, 1#8)] }, 0, { raw := bytesOf [80, 0, 0, 0, 0, 0, 0, 0, 1, 3, 0, 0, 0, 0, 0, 0, 0, 0, 0, 0, 0, 0, 0, 0, 0, 0, 0, 0, 0, 0, 0, 0, 0, 0, 0, 0, 0, 0, 0, 0, 0, 0, 0, 0, 0, 0, 0, 0, 1, 0, 0, 0, 0, 0, 0, 0, 0, 0, 0, 0, 0, 0, 0, 0], sqid := 0, stage := .delivered, data := bytesOf [1, 2, 0, 0] }, by decide, by decide, by decide, by decide, by decide, by decide⟩

theorem witness_KeyCommands_2 : ∃ (s : State) (q : Fin 18) (c : Cmd),
    (s.standardFront q 0x0050 = some c) ∧
    (s.coresRun = true ∧ s.glb.mode ≠ .standby) ∧
    ([1, 2, 3, 4, 5, 6].contains (s.cmdRole c) = true) ∧
    (s.cmdRole c ≠ 2 ∧ s.cmdRole c ≠ 4) :=
  ⟨{ State.reset with hp.cmds := [{ raw := bytesOf [80, 0, 0, 0, 0, 0, 0, 0, 0, 0, 0, 0, 0, 0, 0, 0, 0, 0, 0, 0, 0, 0, 0, 0, 0, 0, 0, 0, 0, 0, 0, 0, 0, 0, 0, 0, 0, 0, 0, 0, 0, 0, 0, 0, 0, 0, 0, 0, 1, 0, 0, 0, 0, 0, 0, 0, 0, 0, 0, 0, 0, 0, 0, 0], sqid := 0, stage := .delivered }], hp.sessions := [(1, { open_ := true, role := 1 })] }, 0, { raw := bytesOf [80, 0, 0, 0, 0, 0, 0, 0, 0, 0, 0, 0, 0, 0, 0, 0, 0, 0, 0, 0, 0, 0, 0, 0, 0, 0, 0, 0, 0, 0, 0, 0, 0, 0, 0, 0, 0, 0, 0, 0, 0, 0, 0, 0, 0, 0, 0, 0, 1, 0, 0, 0, 0, 0, 0, 0, 0, 0, 0, 0, 0, 0, 0, 0], sqid := 0, stage := .delivered }, by decide, by decide, by decide, by decide⟩

theorem witness_KeyCommands_3 : ∃ (s : State) (q : Fin 18) (c : Cmd) (par : KeySlot),
    (s.standardFront q 0x0051 = some c) ∧
    (s.coresRun = true ∧ s.glb.mode ≠ .standby) ∧
    ([2].contains (s.cmdRole c) = true) ∧
    (s.glb.mode ≠ .holdup ∧ s.lake.ready = true ∧ s.cas.pair = 0 ∧ s.woad.debugSub = false) ∧
    (s.woad.life = .owned) ∧
    (zeros c.raw 13 3 = true ∧ zeros c.raw 20 16 = true ∧ field c.raw 8 1 < 64 ∧ field c.raw 9 1 < 64 ∧ 2 ≤ field c.raw 10 1 ∧ field c.raw 10 1 ≤ 4 ∧ field c.raw 11 2 = 0) ∧
    (s.keySlot (field c.raw 8 1) = par ∧ par.st = .active ∧ par.typ = 4 ∧ par.depth < 3) ∧
    ((s.keySlot (field c.raw 9 1)).st ≠ .active) :=
  ⟨{ State.reset with hp.cmds := [{ raw := bytesOf [81, 0, 0, 0, 0, 0, 0, 0, 1, 5, 3, 0, 0, 0, 0, 0, 77, 0, 0, 0, 0, 0, 0, 0, 0, 0, 0, 0, 0, 0, 0, 0, 0, 0, 0, 0, 0, 0, 0, 0, 0, 0, 0, 0, 0, 0, 0, 0, 1, 0, 0, 0, 0, 0, 0, 0, 0, 0, 0, 0, 0, 0, 0, 0], sqid := 0, stage := .delivered }], hp.sessions := [(1, { open_ := true, role := 2 })], lake.ready := true, woad.life := .owned, woad.slots := [(1, { st := .active, typ := 4, depth := 1, amask := 2, key := [7#8] })] }, 0, { raw := bytesOf [81, 0, 0, 0, 0, 0, 0, 0, 1, 5, 3, 0, 0, 0, 0, 0, 77, 0, 0, 0, 0, 0, 0, 0, 0, 0, 0, 0, 0, 0, 0, 0, 0, 0, 0, 0, 0, 0, 0, 0, 0, 0, 0, 0, 0, 0, 0, 0, 1, 0, 0, 0, 0, 0, 0, 0, 0, 0, 0, 0, 0, 0, 0, 0], sqid := 0, stage := .delivered }, { st := .active, typ := 4, depth := 1, amask := 2, key := [7#8] }, by decide, by decide, by decide, by decide, by decide, by decide, by decide, by decide⟩

theorem witness_KeyCommands_4 : ∃ (s : State) (q : Fin 18) (c : Cmd),
    (s.standardFront q 0x0051 = some c) ∧
    (s.coresRun = true ∧ s.glb.mode ≠ .standby) ∧
    ([2].contains (s.cmdRole c) = false) :=
  ⟨{ State.reset with hp.cmds := [{ raw := bytesOf [81, 0, 0, 0, 0, 0, 0, 0, 0, 0, 0, 0, 0, 0, 0, 0, 0, 0, 0, 0, 0, 0, 0, 0, 0, 0, 0, 0, 0, 0, 0, 0, 0, 0, 0, 0, 0, 0, 0, 0, 0, 0, 0, 0, 0, 0, 0, 0, 1, 0, 0, 0, 0, 0, 0, 0, 0, 0, 0, 0, 0, 0, 0, 0], sqid := 0, stage := .delivered }], hp.sessions := [(1, { open_ := true, role := 1 })] }, 0, { raw := bytesOf [81, 0, 0, 0, 0, 0, 0, 0, 0, 0, 0, 0, 0, 0, 0, 0, 0, 0, 0, 0, 0, 0, 0, 0, 0, 0, 0, 0, 0, 0, 0, 0, 0, 0, 0, 0, 0, 0, 0, 0, 0, 0, 0, 0, 0, 0, 0, 0, 1, 0, 0, 0, 0, 0, 0, 0, 0, 0, 0, 0, 0, 0, 0, 0], sqid := 0, stage := .delivered }, by decide, by decide, by decide⟩

theorem witness_KeyCommands_5 : ∃ (s : State) (q : Fin 18) (c : Cmd),
    (s.standardFront q 0x0052 = some c) ∧
    (s.coresRun = true ∧ s.glb.mode ≠ .standby) ∧
    ([2].contains (s.cmdRole c) = true) ∧
    (zeros c.raw 10 6 = true ∧ zeros c.raw 20 16 = true ∧ field c.raw 8 1 < 64 ∧ field c.raw 9 1 = 0) ∧
    ((s.keySlot (field c.raw 8 1)).st = .active ∧ (s.keySlot (field c.raw 8 1)).tomb = false ∧ s.cas.pair = 0 ∧ s.woad.debugSub = false) :=
  ⟨{ State.reset with hp.cmds := [{ raw := bytesOf [82, 0, 0, 0, 0, 0, 0, 0, 1, 0, 0, 0, 0, 0, 0, 0, 0, 0, 0, 0, 0, 0, 0, 0, 0, 0, 0, 0, 0, 0, 0, 0, 0, 0, 0, 0, 0, 0, 0, 0, 0, 0, 0, 0, 0, 0, 0, 0, 1, 0, 0, 0, 0, 0, 0, 0, 0, 0, 0, 0, 0, 0, 0, 0], sqid := 0, stage := .delivered }], hp.sessions := [(1, { open_ := true, role := 2 })], lake.ready := true, woad.life := .owned, woad.slots := [(1, { st := .active, typ := 4, depth := 1, amask := 2, key := [7#8] })] }, 0, { raw := bytesOf [82, 0, 0, 0, 0, 0, 0, 0, 1, 0, 0, 0, 0, 0, 0, 0, 0, 0, 0, 0, 0, 0, 0, 0, 0, 0, 0, 0, 0, 0, 0, 0, 0, 0, 0, 0, 0, 0, 0, 0, 0, 0, 0, 0, 0, 0, 0, 0, 1, 0, 0, 0, 0, 0, 0, 0, 0, 0, 0, 0, 0, 0, 0, 0], sqid := 0, stage := .delivered }, by decide, by decide, by decide, by decide, by decide⟩

theorem witness_KeyCommands_6 : ∃ (s : State) (q : Fin 18) (c : Cmd),
    (s.standardFront q 0x0052 = some c) ∧
    (s.coresRun = true ∧ s.glb.mode ≠ .standby) ∧
    ([2].contains (s.cmdRole c) = false) :=
  ⟨{ State.reset with hp.cmds := [{ raw := bytesOf [82, 0, 0, 0, 0, 0, 0, 0, 0, 0, 0, 0, 0, 0, 0, 0, 0, 0, 0, 0, 0, 0, 0, 0, 0, 0, 0, 0, 0, 0, 0, 0, 0, 0, 0, 0, 0, 0, 0, 0, 0, 0, 0, 0, 0, 0, 0, 0, 1, 0, 0, 0, 0, 0, 0, 0, 0, 0, 0, 0, 0, 0, 0, 0], sqid := 0, stage := .delivered }], hp.sessions := [(1, { open_ := true, role := 1 })] }, 0, { raw := bytesOf [82, 0, 0, 0, 0, 0, 0, 0, 0, 0, 0, 0, 0, 0, 0, 0, 0, 0, 0, 0, 0, 0, 0, 0, 0, 0, 0, 0, 0, 0, 0, 0, 0, 0, 0, 0, 0, 0, 0, 0, 0, 0, 0, 0, 0, 0, 0, 0, 1, 0, 0, 0, 0, 0, 0, 0, 0, 0, 0, 0, 0, 0, 0, 0], sqid := 0, stage := .delivered }, by decide, by decide, by decide⟩

theorem witness_KeyCommands_7 : ∃ (s : State) (q : Fin 18) (c : Cmd),
    (s.standardFront q 0x0053 = some c) ∧
    (s.coresRun = true ∧ s.glb.mode ≠ .standby) ∧
    ([2].contains (s.cmdRole c) = true) ∧
    (s.glb.mode ≠ .holdup ∧ s.lake.ready = true ∧ s.cas.pair = 0 ∧ s.woad.debugSub = false) ∧
    (s.woad.life = .owned) ∧
    (zeros c.raw 12 4 = true ∧ zeros c.raw 28 8 = true ∧ field c.raw 8 1 = 1 ∧ field c.raw 9 1 < 64) ∧
    ((s.keySlot (field c.raw 9 1)).st = .active ∧ (s.keySlot (field c.raw 9 1)).typ = 2) ∧
    (s.nowNs + 2000000000 ≤ field c.raw 16 8 * 1000000000) ∧
    (s.woad.bcast.valid = true ∧ s.woad.bcast.cur < 255 ∧ field c.raw 10 1 = s.woad.bcast.cur + 1) :=
  ⟨{ State.reset with hp.cmds := [{ raw := bytesOf [83, 0, 0, 0, 0, 0, 0, 0, 1, 4, 8, 0, 0, 0, 0, 0, 100, 0, 0, 0, 0, 0, 0, 0, 0, 0, 0, 0, 0, 0, 0, 0, 0, 0, 0, 0, 0, 0, 0, 0, 0, 0, 0, 0, 0, 0, 0, 0, 1, 0, 0, 0, 0, 0, 0, 0, 0, 0, 0, 0, 0, 0, 0, 0], sqid := 0, stage := .delivered }], hp.sessions := [(1, { open_ := true, role := 2 })], lake.ready := true, woad.life := .owned, woad.slots := [(4, { st := .active, typ := 2 })], woad.bcast := { valid := true, cur := 7, slot := 4 } }, 0, { raw := bytesOf [83, 0, 0, 0, 0, 0, 0, 0, 1, 4, 8, 0, 0, 0, 0, 0, 100, 0, 0, 0, 0, 0, 0, 0, 0, 0, 0, 0, 0, 0, 0, 0, 0, 0, 0, 0, 0, 0, 0, 0, 0, 0, 0, 0, 0, 0, 0, 0, 1, 0, 0, 0, 0, 0, 0, 0, 0, 0, 0, 0, 0, 0, 0, 0], sqid := 0, stage := .delivered }, by decide, by decide, by decide, by decide, by decide, by decide, by decide, by decide, by decide⟩

theorem witness_KeyCommands_8 : ∃ (s : State) (q : Fin 18) (c : Cmd),
    (s.standardFront q 0x0053 = some c) ∧
    (s.coresRun = true ∧ s.glb.mode ≠ .standby) ∧
    ([2].contains (s.cmdRole c) = false) :=
  ⟨{ State.reset with hp.cmds := [{ raw := bytesOf [83, 0, 0, 0, 0, 0, 0, 0, 0, 0, 0, 0, 0, 0, 0, 0, 0, 0, 0, 0, 0, 0, 0, 0, 0, 0, 0, 0, 0, 0, 0, 0, 0, 0, 0, 0, 0, 0, 0, 0, 0, 0, 0, 0, 0, 0, 0, 0, 1, 0, 0, 0, 0, 0, 0, 0, 0, 0, 0, 0, 0, 0, 0, 0], sqid := 0, stage := .delivered }], hp.sessions := [(1, { open_ := true, role := 1 })] }, 0, { raw := bytesOf [83, 0, 0, 0, 0, 0, 0, 0, 0, 0, 0, 0, 0, 0, 0, 0, 0, 0, 0, 0, 0, 0, 0, 0, 0, 0, 0, 0, 0, 0, 0, 0, 0, 0, 0, 0, 0, 0, 0, 0, 0, 0, 0, 0, 0, 0, 0, 0, 1, 0, 0, 0, 0, 0, 0, 0, 0, 0, 0, 0, 0, 0, 0, 0], sqid := 0, stage := .delivered }, by decide, by decide, by decide⟩

theorem witness_KeyCommands_9 : ∃ (s : State) (q : Fin 18) (c : Cmd),
    (s.standardFront q 0x0054 = some c) ∧
    (s.coresRun = true ∧ s.glb.mode ≠ .standby) ∧
    ([1, 2, 3, 4, 5, 6].contains (s.cmdRole c) = true) :=
  ⟨{ State.reset with hp.cmds := [{ raw := bytesOf [84, 0, 32, 0, 0, 0, 0, 0, 0, 0, 0, 0, 0, 0, 0, 0, 0, 0, 0, 0, 0, 0, 0, 0, 0, 0, 0, 0, 0, 0, 0, 0, 0, 0, 0, 0, 0, 0, 0, 0, 0, 0, 0, 0, 0, 0, 64, 0, 1, 0, 0, 0, 0, 0, 0, 0, 0, 0, 0, 0, 0, 0, 0, 0], sqid := 0, stage := .delivered }], hp.sessions := [(1, { open_ := true, role := 2 })], woad.slots := [(1, { st := .active, typ := 4, depth := 1, amask := 2, key := [7#8] })] }, 0, { raw := bytesOf [84, 0, 32, 0, 0, 0, 0, 0, 0, 0, 0, 0, 0, 0, 0, 0, 0, 0, 0, 0, 0, 0, 0, 0, 0, 0, 0, 0, 0, 0, 0, 0, 0, 0, 0, 0, 0, 0, 0, 0, 0, 0, 0, 0, 0, 0, 64, 0, 1, 0, 0, 0, 0, 0, 0, 0, 0, 0, 0, 0, 0, 0, 0, 0], sqid := 0, stage := .delivered }, by decide, by decide, by decide⟩

theorem witness_KeyCommands_10 : ∃ (s : State) (q : Fin 18) (c : Cmd),
    (s.standardFront q 0x0055 = some c) ∧
    (s.coresRun = true ∧ s.glb.mode ≠ .standby) ∧
    ([1, 2, 3, 4, 5, 6].contains (s.cmdRole c) = true) :=
  ⟨{ State.reset with hp.cmds := [{ raw := bytesOf [85, 0, 32, 0, 0, 0, 0, 0, 0, 0, 0, 0, 0, 0, 0, 0, 0, 0, 0, 0, 0, 0, 0, 0, 0, 0, 0, 0, 0, 0, 0, 0, 0, 0, 0, 0, 0, 0, 0, 0, 0, 0, 0, 0, 0, 0, 64, 0, 1, 0, 0, 0, 0, 0, 0, 0, 0, 0, 0, 0, 0, 0, 0, 0], sqid := 0, stage := .delivered }], hp.sessions := [(1, { open_ := true, role := 2 })], otp := [(0x85, 3#8)] }, 0, { raw := bytesOf [85, 0, 32, 0, 0, 0, 0, 0, 0, 0, 0, 0, 0, 0, 0, 0, 0, 0, 0, 0, 0, 0, 0, 0, 0, 0, 0, 0, 0, 0, 0, 0, 0, 0, 0, 0, 0, 0, 0, 0, 0, 0, 0, 0, 0, 0, 64, 0, 1, 0, 0, 0, 0, 0, 0, 0, 0, 0, 0, 0, 0, 0, 0, 0], sqid := 0, stage := .delivered }, by decide, by decide, by decide⟩

theorem witness_KeyCommands_11 : ∃ (s : State) (q : Fin 18) (c : Cmd) (st : List Byte),
    (s.standardFront q 0x0056 = some c) ∧
    (s.coresRun = true ∧ s.glb.mode ≠ .standby) ∧
    ([1, 2, 3, 4, 5, 6].contains (s.cmdRole c) = true) ∧
    (s.woad.statement = some st) ∧
    (field st 6 1 = s.attFlags) :=
  ⟨{ State.reset with hp.cmds := [{ raw := bytesOf [86, 0, 32, 0, 0, 0, 0, 0, 0, 0, 0, 0, 0, 0, 0, 0, 0, 0, 0, 0, 0, 0, 0, 0, 0, 0, 0, 0, 0, 0, 0, 0, 0, 0, 0, 0, 0, 0, 0, 0, 0, 0, 0, 0, 0, 0, 64, 0, 1, 0, 0, 0, 0, 0, 0, 0, 0, 0, 0, 0, 0, 0, 0, 0], sqid := 0, stage := .delivered }], hp.sessions := [(1, { open_ := true, role := 2 })], woad.statement := some (bytesOf [0, 0, 0, 0, 0, 0, 8, 9]) }, 0, { raw := bytesOf [86, 0, 32, 0, 0, 0, 0, 0, 0, 0, 0, 0, 0, 0, 0, 0, 0, 0, 0, 0, 0, 0, 0, 0, 0, 0, 0, 0, 0, 0, 0, 0, 0, 0, 0, 0, 0, 0, 0, 0, 0, 0, 0, 0, 0, 0, 64, 0, 1, 0, 0, 0, 0, 0, 0, 0, 0, 0, 0, 0, 0, 0, 0, 0], sqid := 0, stage := .delivered }, bytesOf [0, 0, 0, 0, 0, 0, 8, 9], by decide, by decide, by decide, by decide, by decide⟩

set_option Elab.async false in
theorem witness_ImageUpdate_1 : ∃ (s : State) (t : Fin 256) (pi : Fin 8) (rt ra : Fin 32) (p : Place) (i : Nat) (b : List Byte) (q : Place) (d : List Byte) (bad : List Nat),
    (s.callsAt t pi ra 0xD0 24 p i = true) ∧
    (s.load p 24 = b) ∧
    (field b 20 1 = 1 ∧ zeros b 21 3 = true ∧ field b 0 4 = 0) ∧
    (s.updBarred = none ∧ s.lake.ready = true) ∧
    (s.upd.slotSt s.upd.spare ≠ 3 ∧ s.upd.slotSt s.upd.spare ≠ 6) ∧
    (256 ≤ field b 4 4) ∧
    ((s.thr t).bufPlace t (field b 8 8) (field b 4 4) = some q) ∧
    (s.poisoned q (field b 4 4) = false) ∧
    (s.load q (field b 4 4) = d) ∧
    (beginOk d = true) ∧
    (field d 8 4 ≤ 67108864 ∧ field d 8 4 ≤ s.slotCap s.upd.spare ∧ d.length ≤ field d 8 4) ∧
    (crc32c d = field b 16 4) ∧
    (bad.any (s.slotBlock s.upd.spare) = false) :=
  ⟨{ State.reset with mcc.dmem := [(4, 240#8), (5, 1#8), (8, 64#8), (16, 136#8), (17, 89#8), (18, 129#8), (19, 249#8), (20, 1#8), (64, 65#8), (65, 75#8), (66, 90#8), (67, 73#8), (68, 1#8), (71, 1#8), (72, 240#8), (73, 1#8), (76, 1#8), (77, 1#8), (78, 1#8), (80, 3#8), (88, 170#8), (105, 1#8), (108, 24#8), (109, 1#8), (120, 128#8), (121, 1#8), (316, 132#8), (317, 118#8), (318, 184#8), (319, 225#8), (320, 3#8), (332, 8#8), (336, 1#8), (347, 1#8), (348, 2#8), (352, 170#8), (353, 135#8), (354, 202#8), (355, 34#8), (356, 190#8), (357, 139#8), (358, 5#8), (359, 55#8), (360, 142#8), (361, 177#8), (362, 199#8), (363, 30#8), (364, 243#8), (365, 32#8), (366, 173#8), (367, 116#8), (368, 110#8), (369, 29#8), (370, 59#8), (371, 98#8), (372, 139#8), (373, 167#8), (374, 155#8), (375, 152#8), (376, 89#8), (377, 247#8), (378, 65#8), (379, 224#8), (380, 130#8), (381, 84#8), (382, 42#8), (383, 56#8), (384, 85#8), (385, 2#8), (386, 242#8), (387, 93#8), (388, 191#8), (389, 85#8), (390, 41#8), (391, 108#8), (392, 58#8), (393, 84#8), (394, 94#8), (395, 56#8), (396, 114#8), (397, 118#8), (398, 10#8), (399, 183#8), (400, 54#8), (401, 23#8), (402, 222#8), (403, 74#8), (404, 150#8), (405, 38#8), (406, 44#8), (407, 111#8), (408, 93#8), (409, 158#8), (410, 152#8), (411, 191#8), (412, 146#8), (413, 146#8), (414, 220#8), (415, 41#8), (416, 248#8), (417, 244#8), (418, 29#8), (419, 189#8), (420, 40#8), (421, 154#8), (422, 20#8), (423, 124#8), (424, 233#8), (425, 218#8), (426, 49#8), (427, 19#8), (428, 181#8), (429, 240#8), (430, 184#8), (431, 192#8), (432, 10#8), (433, 96#8), (434, 177#8), (435, 206#8), (436, 29#8), (437, 126#8), (438, 129#8), (439, 157#8), (440, 122#8), (441, 67#8), (442, 29#8), (443, 124#8), (444, 144#8), (445, 234#8), (446, 14#8), (447, 95#8), (448, 1#8), (452, 85#8), (456, 8#8), (457, 217#8), (458, 153#8), (459, 5#8), (460, 123#8), (461, 163#8), (462, 210#8), (463, 217#8), (464, 105#8), (465, 38#8), (467, 69#8), (468, 197#8), (469, 91#8), (470, 151#8), (471, 240#8), (472, 137#8), (473, 2#8), (474, 89#8), (475, 89#8), (476, 166#8), (477, 244#8), (478, 52#8), (479, 214#8), (480, 81#8), (481, 210#8), (482, 7#8), (483, 209#8), (484, 159#8), (485, 185#8), (486, 110#8), (487, 158#8), (488, 79#8), (489, 224#8), (490, 232#8), (491, 110#8), (492, 190#8), (493, 14#8), (494, 100#8), (495, 248#8), (496, 91#8), (497, 150#8), (498, 169#8), (499, 199#8), (500, 82#8), (501, 149#8), (502, 223#8), (503, 97#8), (504, 133#8), (505, 214#8), (506, 173#8), (507, 136#8), (508, 241#8), (509, 150#8), (510, 205#8), (511, 218#8), (512, 80#8), (513, 213#8), (514, 127#8), (515, 149#8), (516, 154#8), (517, 10#8), (518, 200#8), (519, 124#8), (520, 151#8), (521, 142#8), (522, 203#8), (523, 99#8), (524, 133#8), (525, 54#8), (526, 5#8), (528, 124#8), (529, 209#8), (530, 85#8), (531, 130#8), (532, 169#8), (533, 183#8), (534, 27#8), (535, 185#8), (536, 215#8), (537, 38#8), (538, 152#8), (539, 77#8), (540, 63#8), (541, 36#8), (542, 194#8), (543, 154#8), (544, 14#8), (545, 26#8), (546, 26#8), (547, 184#8), (548, 244#8), (549, 100#8), (550, 34#8), (551, 204#8)], lake.ready := true, upd.stA := 5, upd.bNblk := 9, lake.geom := { dg := 1, lunch := 2, planes := 4, bpc := 3, tmode := 5, pages := 1000, blocksPerLun := 512 } }, 0, 0, 0, 0, .dmem 0, 0, bytesOf [0x0, 0x0, 0x0, 0x0, 0xF0, 0x1, 0x0, 0x0, 0x40, 0x0, 0x0, 0x0, 0x0, 0x0, 0x0, 0x0, 0x88, 0x59, 0x81, 0xF9, 0x1, 0x0, 0x0, 0x0], .dmem 64, testImage, [5], by decide, by decide, by decide, by decide, by decide, by decide, by decide, by decide +kernel, by decide +kernel, by decide +kernel, by decide, by decide +kernel, by decide⟩

set_option Elab.async false in
theorem witness_ImageUpdate_2 : ∃ (s : State) (t : Fin 256) (pi : Fin 8) (rt ra : Fin 32) (p : Place) (i : Nat) (b : List Byte) (q : Place) (d : List Byte) (bad : List Nat),
    (s.callsAt t pi ra 0xD0 24 p i = true) ∧
    (s.load p 24 = b) ∧
    (field b 20 1 = 0 ∧ zeros b 21 3 = true) ∧
    (s.lake.ready = true ∧ s.upd.slotSt s.upd.spare = 1) ∧
    (field b 0 4 = 0 ∧ 8 ≤ field b 4 4 ∧ field b 4 4 < 4096 ∧ field b 4 4 % 8 = 0 ∧ field b 4 4 = s.upd.imglen) ∧
    ((s.thr t).bufPlace t (field b 8 8) (field b 4 4) = some q) ∧
    (s.poisoned q (field b 4 4) = false) ∧
    (s.load q (field b 4 4) = d) ∧
    (crc32c d = field b 16 4) ∧
    (s.upd.units.find (s.upd.spare * 16384) = none) ∧
    (bad.any (s.slotBlock s.upd.spare) = false) :=
  ⟨{ State.reset with mcc.dmem := [(4, 8#8), (8, 64#8), (16, 59#8), (17, 188#8), (18, 44#8), (19, 138#8), (65, 1#8), (66, 2#8), (67, 3#8), (68, 4#8), (69, 5#8), (70, 6#8), (71, 7#8)], lake.ready := true, upd.stA := 5, upd.stB := 1, upd.imglen := 8 }, 0, 0, 0, 0, .dmem 0, 0, bytesOf [0x0, 0x0, 0x0, 0x0, 0x8, 0x0, 0x0, 0x0, 0x40, 0x0, 0x0, 0x0, 0x0, 0x0, 0x0, 0x0, 0x3B, 0xBC, 0x2C, 0x8A, 0x0, 0x0, 0x0, 0x0], .dmem 64, bytesOf [0, 1, 2, 3, 4, 5, 6, 7], [5], by decide, by decide, by decide, by decide, by decide, by decide, by decide +kernel, by decide +kernel, by decide +kernel, by decide, by decide⟩

set_option Elab.async false in
theorem witness_ImageUpdate_3 : ∃ (s : State) (t : Fin 256) (pi : Fin 8) (rt ra : Fin 32) (p : Place) (i : Nat) (b : List Byte) (q : Place) (d : List Byte) (bk : Nat),
    (s.callsAt t pi ra 0xD0 24 p i = true) ∧
    (s.load p 24 = b) ∧
    (field b 20 1 = 0 ∧ zeros b 21 3 = true) ∧
    (s.lake.ready = true ∧ s.upd.slotSt s.upd.spare = 1) ∧
    (field b 0 4 = 0 ∧ 8 ≤ field b 4 4 ∧ field b 4 4 < 4096 ∧ field b 4 4 % 8 = 0 ∧ field b 4 4 = s.upd.imglen) ∧
    ((s.thr t).bufPlace t (field b 8 8) (field b 4 4) = some q) ∧
    (s.poisoned q (field b 4 4) = false) ∧
    (s.load q (field b 4 4) = d) ∧
    (crc32c d = field b 16 4) ∧
    (s.upd.units.find (s.upd.spare * 16384) = none) ∧
    ((s.lake.lunErrs.get [] (bk / 4096)).length < 7) ∧
    (s.slotBlock s.upd.spare bk = true ∧ (slotBlockFailed s.upd.spare bk s).slotShort s.upd.spare s.upd.imglen = false) :=
  ⟨{ State.reset with mcc.dmem := [(4, 8#8), (8, 64#8), (16, 59#8), (17, 188#8), (18, 44#8), (19, 138#8), (65, 1#8), (66, 2#8), (67, 3#8), (68, 4#8), (69, 5#8), (70, 6#8), (71, 7#8)], lake.ready := true, upd.stA := 5, upd.stB := 1, upd.imglen := 8, upd.bFirst := 8, upd.bNblk := 2, lake.geom := { dg := 1, lunch := 2, planes := 4, bpc := 3, tmode := 5, pages := 1000, blocksPerLun := 512 } }, 0, 0, 0, 0, .dmem 0, 0, bytesOf [0x0, 0x0, 0x0, 0x0, 0x8, 0x0, 0x0, 0x0, 0x40, 0x0, 0x0, 0x0, 0x0, 0x0, 0x0, 0x0, 0x3B, 0xBC, 0x2C, 0x8A, 0x0, 0x0, 0x0, 0x0], .dmem 64, bytesOf [0, 1, 2, 3, 4, 5, 6, 7], 36864 + 8, by decide, by decide, by decide, by decide, by decide, by decide, by decide +kernel, by decide +kernel, by decide +kernel, by decide, by decide, by decide⟩

set_option Elab.async false in
theorem witness_ImageUpdate_4 : ∃ (s : State) (t : Fin 256) (pi : Fin 8) (rt ra : Fin 32) (p : Place) (i : Nat) (b : List Byte) (q : Place) (d : List Byte) (bk : Nat),
    (s.callsAt t pi ra 0xD0 24 p i = true) ∧
    (s.load p 24 = b) ∧
    (field b 20 1 = 0 ∧ zeros b 21 3 = true) ∧
    (s.lake.ready = true ∧ s.upd.slotSt s.upd.spare = 1) ∧
    (field b 0 4 = 0 ∧ 8 ≤ field b 4 4 ∧ field b 4 4 < 4096 ∧ field b 4 4 % 8 = 0 ∧ field b 4 4 = s.upd.imglen) ∧
    ((s.thr t).bufPlace t (field b 8 8) (field b 4 4) = some q) ∧
    (s.poisoned q (field b 4 4) = false) ∧
    (s.load q (field b 4 4) = d) ∧
    (crc32c d = field b 16 4) ∧
    (s.upd.units.find (s.upd.spare * 16384) = none) ∧
    ((s.lake.lunErrs.get [] (bk / 4096)).length < 7) ∧
    (s.slotBlock s.upd.spare bk = true ∧ (slotBlockFailed s.upd.spare bk s).slotShort s.upd.spare s.upd.imglen = true) :=
  ⟨{ State.reset with mcc.dmem := [(4, 8#8), (8, 64#8), (16, 59#8), (17, 188#8), (18, 44#8), (19, 138#8), (65, 1#8), (66, 2#8), (67, 3#8), (68, 4#8), (69, 5#8), (70, 6#8), (71, 7#8)], lake.ready := true, upd.stA := 5, upd.stB := 1, upd.imglen := 8, upd.bFirst := 8, upd.bNblk := 1, lake.geom := { dg := 1, lunch := 2, planes := 4, bpc := 3, tmode := 5, pages := 1000, blocksPerLun := 512 } }, 0, 0, 0, 0, .dmem 0, 0, bytesOf [0x0, 0x0, 0x0, 0x0, 0x8, 0x0, 0x0, 0x0, 0x40, 0x0, 0x0, 0x0, 0x0, 0x0, 0x0, 0x0, 0x3B, 0xBC, 0x2C, 0x8A, 0x0, 0x0, 0x0, 0x0], .dmem 64, bytesOf [0, 1, 2, 3, 4, 5, 6, 7], 36864 + 8, by decide, by decide, by decide, by decide, by decide, by decide, by decide +kernel, by decide +kernel, by decide +kernel, by decide, by decide, by decide⟩

set_option Elab.async false in
theorem witness_ImageUpdate_5 : ∃ (s : State) (t : Fin 256) (pi : Fin 8) (rt ra : Fin 32) (p : Place) (i : Nat) (b : List Byte) (q : Place) (d : List Byte) (bad : List Nat),
    (s.callsAt t pi ra 0xD0 24 p i = true) ∧
    (s.load p 24 = b) ∧
    (field b 20 1 = 0 ∧ zeros b 21 3 = true) ∧
    (s.lake.ready = true ∧ s.upd.slotSt s.upd.spare = 1) ∧
    (field b 0 4 = 0 ∧ 8 ≤ field b 4 4 ∧ field b 4 4 < 4096 ∧ field b 4 4 % 8 = 0 ∧ field b 4 4 = s.upd.imglen) ∧
    ((s.thr t).bufPlace t (field b 8 8) (field b 4 4) = some q) ∧
    (s.poisoned q (field b 4 4) = false) ∧
    (s.load q (field b 4 4) = d) ∧
    (crc32c d ≠ field b 16 4) :=
  ⟨{ State.reset with mcc.dmem := [(4, 8#8), (8, 64#8), (16, 7#8), (65, 1#8), (66, 2#8), (67, 3#8), (68, 4#8), (69, 5#8), (70, 6#8), (71, 7#8)], lake.ready := true, upd.stA := 5, upd.stB := 1, upd.imglen := 8 }, 0, 0, 0, 0, .dmem 0, 0, bytesOf [0x0, 0x0, 0x0, 0x0, 0x8, 0x0, 0x0, 0x0, 0x40, 0x0, 0x0, 0x0, 0x0, 0x0, 0x0, 0x0, 0x7, 0x0, 0x0, 0x0, 0x0, 0x0, 0x0, 0x0], .dmem 64, bytesOf [0, 1, 2, 3, 4, 5, 6, 7], [5], by decide, by decide, by decide, by decide, by decide, by decide, by decide +kernel, by decide +kernel, by decide +kernel⟩

set_option Elab.async false in
theorem witness_ImageUpdate_6 : ∃ (s : State) (t : Fin 256) (pi : Fin 8) (rt ra : Fin 32) (p : Place) (i : Nat) (b : List Byte) (im : List Byte) (so : Nat) (pk dg sg : List Byte),
    (s.callsAt t pi ra 0xD1 8 p i = true) ∧
    (s.load p 8 = b) ∧
    (zeros b 0 8 = true) ∧
    (s.updBarred = none ∧ s.lake.ready = true) ∧
    (s.upd.slotSt s.upd.spare = 1) ∧
    ((List.range (ceilDiv s.upd.imglen 4096)).all (fun u => (s.upd.units.find (s.upd.spare * 16384 + u)).isSome) = true) ∧
    (s.slotBytes s.upd.spare s.upd.imglen = im) ∧
    (imgSigOff im = so) ∧
    (imageRules im = true) ∧
    (slice im (so - 96) 96 = pk) ∧
    (s.imgKeyKnown (field im (so + 4) 4) pk = true) ∧
    (sha384 (im.take so) = dg) ∧
    (slice im (so + 8) 96 = sg) ∧
    (ecdsaVerify pk dg sg = true) ∧
    (s.secFloor ≤ imgSecver im ∧ imgSecver im ≤ 256) ∧
    (s.ldg.sealed = false) :=
  ⟨{ State.reset with mcc.dmem := [], upd.stB := 1, upd.imglen := 496, upd.units := [(16384, testImage)], otp := [(656, 85#8), (664, 161#8), (665, 157#8), (666, 77#8), (667, 177#8), (668, 113#8), (669, 181#8), (670, 130#8), (671, 235#8), (672, 128#8), (673, 82#8), (674, 176#8), (675, 207#8), (676, 229#8), (677, 85#8), (678, 225#8), (679, 120#8), (680, 148#8), (681, 170#8), (682, 34#8), (683, 209#8), (684, 200#8), (685, 169#8), (686, 119#8), (687, 9#8), (688, 80#8), (689, 105#8), (690, 125#8), (691, 216#8), (692, 247#8), (693, 150#8), (694, 210#8), (695, 250#8), (696, 75#8), (697, 240#8), (698, 165#8), (699, 106#8), (700, 216#8), (702, 6#8), (703, 183#8), (704, 234#8), (705, 8#8), (706, 225#8), (707, 25#8), (708, 31#8), (709, 129#8), (710, 75#8), (711, 101#8)], lake.ready := true }, 0, 0, 0, 0, .dmem 0, 0, bytesOf [0x0, 0x0, 0x0, 0x0, 0x0, 0x0, 0x0, 0x0], testImage, 384, bytesOf [170, 135, 202, 34, 190, 139, 5, 55, 142, 177, 199, 30, 243, 32, 173, 116, 110, 29, 59, 98, 139, 167, 155, 152, 89, 247, 65, 224, 130, 84, 42, 56, 85, 2, 242, 93, 191, 85, 41, 108, 58, 84, 94, 56, 114, 118, 10, 183, 54, 23, 222, 74, 150, 38, 44, 111, 93, 158, 152, 191, 146, 146, 220, 41, 248, 244, 29, 189, 40, 154, 20, 124, 233, 218, 49, 19, 181, 240, 184, 192, 10, 96, 177, 206, 29, 126, 129, 157, 122, 67, 29, 124, 144, 234, 14, 95], bytesOf [2, 211, 194, 12, 103, 137, 200, 219, 56, 132, 254, 229, 110, 185, 249, 8, 166, 27, 61, 109, 99, 119, 213, 42, 224, 109, 85, 177, 191, 125, 154, 246, 6, 82, 58, 121, 119, 138, 120, 192, 211, 177, 114, 63, 201, 109, 60, 196], bytesOf [8, 217, 153, 5, 123, 163, 210, 217, 105, 38, 0, 69, 197, 91, 151, 240, 137, 2, 89, 89, 166, 244, 52, 214, 81, 210, 7, 209, 159, 185, 110, 158, 79, 224, 232, 110, 190, 14, 100, 248, 91, 150, 169, 199, 82, 149, 223, 97, 133, 214, 173, 136, 241, 150, 205, 218, 80, 213, 127, 149, 154, 10, 200, 124, 151, 142, 203, 99, 133, 54, 5, 0, 124, 209, 85, 130, 169, 183, 27, 185, 215, 38, 152, 77, 63, 36, 194, 154, 14, 26, 26, 184, 244, 100, 34, 204], by decide, by decide, by decide, by decide, by decide, by decide +kernel, by decide +kernel, by decide, by decide +kernel, by decide +kernel, by decide +kernel, by decide +kernel, by decide +kernel, by decide +kernel, by decide +kernel, by decide⟩

theorem witness_ImageUpdate_7 : ∃ (s : State) (t : Fin 256) (pi : Fin 8) (rt ra : Fin 32) (p : Place) (i : Nat) (b : List Byte),
    (s.callsAt t pi ra 0xD1 8 p i = true) ∧
    (s.load p 8 = b) ∧
    (zeros b 0 8 = true) ∧
    (s.updBarred = none ∧ s.lake.ready = true) ∧
    (s.upd.slotSt s.upd.spare ≠ 1) :=
  ⟨{ State.reset with mcc.dmem := [], lake.ready := true }, 0, 0, 0, 0, .dmem 0, 0, bytesOf [0x0, 0x0, 0x0, 0x0, 0x0, 0x0, 0x0, 0x0], by decide, by decide, by decide, by decide, by decide⟩

theorem witness_ImageUpdate_8 : ∃ (s : State) (t : Fin 256) (pi : Fin 8) (rt ra : Fin 32) (p : Place) (i : Nat) (b : List Byte),
    (s.callsAt t pi ra 0xD2 16 p i = true) ∧
    (s.load p 16 = b) ∧
    (field b 8 1 = 0 ∧ 1 ≤ field b 9 1 ∧ zeros b 10 6 = true) ∧
    (s.updBarred = none ∧ s.lake.ready = true) ∧
    (s.cas.pair = 0 ∧ s.cas.master = true ∧ s.cas.chips ≤ 1) ∧
    (s.nowNs + 10000000000 ≤ field b 0 8 * 1000000000) ∧
    (s.upd.slotSt s.upd.spare = 2 ∨ s.upd.slotSt s.upd.spare = 3) ∧
    (s.cas.chipId < 255) :=
  ⟨{ State.reset with mcc.dmem := [(0, 100#8), (9, 30#8)], lake.ready := true, upd.stA := 5, upd.stB := 2 }, 0, 0, 0, 0, .dmem 0, 0, bytesOf [0x64, 0x0, 0x0, 0x0, 0x0, 0x0, 0x0, 0x0, 0x0, 0x1E, 0x0, 0x0, 0x0, 0x0, 0x0, 0x0], by decide, by decide, by decide, by decide, by decide, by decide, by decide, by decide⟩

theorem witness_ImageUpdate_9 : ∃ (s : State) (t : Fin 256) (pi : Fin 8) (rt ra : Fin 32) (p : Place) (i : Nat) (b : List Byte),
    (s.callsAt t pi ra 0xD3 8 p i = true) ∧
    (s.load p 8 = b) ∧
    (field b 0 1 = 0 ∧ field b 1 1 = 0 ∧ zeros b 2 6 = true) ∧
    (s.lake.ready = true ∧ s.cas.pair = 0) ∧
    (s.upd.slotSt s.upd.active = 4 ∧ s.upd.active ≤ 1) :=
  ⟨{ State.reset with mcc.dmem := [], lake.ready := true, upd.stA := 4, upd.stB := 6 }, 0, 0, 0, 0, .dmem 0, 0, bytesOf [0x0, 0x0, 0x0, 0x0, 0x0, 0x0, 0x0, 0x0], by decide, by decide, by decide, by decide, by decide⟩

theorem witness_ImageUpdate_10 : ∃ (s : State) (t : Fin 256) (pi : Fin 8) (rt ra : Fin 32) (p : Place) (i : Nat) (b : List Byte),
    (s.callsAt t pi ra 0xD3 8 p i = true) ∧
    (s.load p 8 = b) ∧
    (field b 0 1 = 1 ∧ field b 1 1 = 0 ∧ zeros b 2 6 = true) ∧
    (s.lake.ready = true ∧ s.cas.pair = 0) ∧
    (s.upd.slotSt s.upd.active = 4) :=
  ⟨{ State.reset with mcc.dmem := [(0, 1#8)], lake.ready := true, upd.stA := 4, upd.stB := 6 }, 0, 0, 0, 0, .dmem 0, 0, bytesOf [0x1, 0x0, 0x0, 0x0, 0x0, 0x0, 0x0, 0x0], by decide, by decide, by decide, by decide, by decide⟩

theorem witness_ImageUpdate_11 : ∃ (s : State) (t : Fin 256) (pi : Fin 8) (rt ra : Fin 32) (p : Place) (i : Nat) (b : List Byte),
    (s.callsAt t pi ra 0xD3 8 p i = true) ∧
    (s.load p 8 = b) ∧
    (field b 0 1 = 2 ∧ field b 1 1 ≤ 1 ∧ zeros b 2 6 = true) ∧
    (s.lake.ready = true) ∧
    (s.upd.slotSt s.upd.spare ≠ 3 ∧ s.upd.slotSt s.upd.spare ≠ 6) :=
  ⟨{ State.reset with mcc.dmem := [(0, 2#8)], lake.ready := true, upd.stA := 5, upd.stB := 2, upd.units := [(16384, [1#8])] }, 0, 0, 0, 0, .dmem 0, 0, bytesOf [0x2, 0x0, 0x0, 0x0, 0x0, 0x0, 0x0, 0x0], by decide, by decide, by decide, by decide, by decide⟩

theorem witness_ImageUpdate_12 : ∃ (s : State),
    ((s.row 9).action = 5 ∧ (s.row 9).per = 0 ∧ (s.row 9).at_ ≤ s.nowNs ∧ s.coresRun = true) ∧
    (s.cas.pair = 0 ∧ s.tmu.valid = true) ∧
    (s.upd.slotSt s.upd.spare = 3 ∧ ((s.row 9).arg / 256 = 255 ∨ (s.row 9).arg / 256 = s.cas.chipId)) ∧
    (s.updBarred = none) :=
  ⟨{ State.reset with upd.stA := 5, upd.stB := 3, tmu.sec := 200, tmu.valid := true, tmu.rows := [(9, { tS := 200, action := 5, flags := 5, arg := 2, t0 := 200000000000 })] }, by decide, by decide, by decide, by decide⟩

theorem witness_ImageUpdate_13 : ∃ (s : State),
    ((s.row 9).action = 5 ∧ (s.row 9).per = 0 ∧ (s.row 9).at_ ≤ s.nowNs ∧ s.coresRun = true) ∧
    (s.cas.pair = 0 ∧ s.tmu.valid = false) ∧
    (s.upd.slotSt s.upd.spare = 3 ∧ ((s.row 9).arg / 256 = 255 ∨ (s.row 9).arg / 256 = s.cas.chipId)) :=
  ⟨{ State.reset with upd.stA := 5, upd.stB := 3, tmu.sec := 200, tmu.rows := [(9, { tS := 200, action := 5, flags := 5, arg := 2, t0 := 200000000000 })] }, by decide, by decide, by decide⟩

theorem witness_ImageUpdate_14 : ∃ (s : State),
    ((s.row 9).action ≠ 5) :=
  ⟨State.reset, by decide⟩

theorem witness_ImageUpdate_15 : ∃ (s : State),
    (s.cpm.drain = .activation) ∧
    (s.clocked = true) :=
  ⟨{ State.reset with cpm.drain := .activation, upd.stA := 5, upd.stB := 3, upd.window := 30 }, by decide, by decide⟩

theorem witness_ImageUpdate_16 : ∃ (s : State),
    (s.cpm.drain = .fallback) ∧
    (s.upd.active ≤ 1) ∧
    (s.clocked = true) :=
  ⟨{ State.reset with cpm.drain := .fallback, upd.stA := 4, upd.stB := 6, upd.volGen := some [(1, [2#8])] }, by decide, by decide, by decide⟩

theorem witness_ImageUpdate_17 : ∃ (s : State),
    (s.cpm.drain = .none) :=
  ⟨State.reset, by decide⟩

theorem witness_ImageUpdate_18 : ∃ (s : State),
    (s.upd.slotSt s.upd.active = 4 ∧ s.upd.confirmBy ≤ s.cpm.opmin.toNat ∧ s.coresRun = true) :=
  ⟨{ State.reset with upd.stA := 4 }, by decide⟩

theorem witness_ImageUpdate_19 : ∃ (s : State),
    (s.upd.slotSt s.upd.active ≠ 4 ∨ s.cpm.opmin.toNat < s.upd.confirmBy) :=
  ⟨State.reset, by decide⟩

set_option Elab.async false in
theorem witness_ImageUpdate_20 : ∃ (s : State) (n : BitVec 12),
    (s.upd.recovery = true ∧ s.coresRun = true) ∧
    (crc32c (readBytes s.upd.rwin 0 4096) = s.upd.rcrc.toNat) :=
  ⟨{ State.reset with upd.recovery := true, upd.rcrc := 0x98F94189 }, 3, by decide, by decide +kernel⟩

set_option Elab.async false in
theorem witness_ImageUpdate_21 : ∃ (s : State) (n : BitVec 12),
    (s.upd.recovery = true ∧ s.coresRun = true) ∧
    (crc32c (readBytes s.upd.rwin 0 4096) ≠ s.upd.rcrc.toNat) :=
  ⟨{ State.reset with upd.recovery := true, upd.rcrc := 5 }, 3, by decide, by decide +kernel⟩

set_option Elab.async false in
theorem witness_ImageUpdate_22 : ∃ (s : State) (n : BitVec 12) (im : List Byte) (so : Nat) (pk dg sg : List Byte),
    (s.upd.recovery = true ∧ s.coresRun = true) ∧
    (imgLen (unitBytes s.upd.runits 0 ((n.toNat + 1) * 4096)) ≤ (n.toNat + 1) * 4096) ∧
    ((unitBytes s.upd.runits 0 ((n.toNat + 1) * 4096)).take (imgLen (unitBytes s.upd.runits 0 ((n.toNat + 1) * 4096))) = im) ∧
    (imgSigOff im = so) ∧
    (imageRules im = true) ∧
    (slice im (so - 96) 96 = pk) ∧
    (s.imgKeyKnown (field im (so + 4) 4) pk = true) ∧
    (sha384 (im.take so) = dg) ∧
    (slice im (so + 8) 96 = sg) ∧
    (ecdsaVerify pk dg sg = true) ∧
    (s.secFloor ≤ imgSecver im ∧ imgSecver im ≤ 256) :=
  ⟨{ State.reset with upd.recovery := true, upd.runits := [(0, testImage)], otp := [(656, 85#8), (664, 161#8), (665, 157#8), (666, 77#8), (667, 177#8), (668, 113#8), (669, 181#8), (670, 130#8), (671, 235#8), (672, 128#8), (673, 82#8), (674, 176#8), (675, 207#8), (676, 229#8), (677, 85#8), (678, 225#8), (679, 120#8), (680, 148#8), (681, 170#8), (682, 34#8), (683, 209#8), (684, 200#8), (685, 169#8), (686, 119#8), (687, 9#8), (688, 80#8), (689, 105#8), (690, 125#8), (691, 216#8), (692, 247#8), (693, 150#8), (694, 210#8), (695, 250#8), (696, 75#8), (697, 240#8), (698, 165#8), (699, 106#8), (700, 216#8), (702, 6#8), (703, 183#8), (704, 234#8), (705, 8#8), (706, 225#8), (707, 25#8), (708, 31#8), (709, 129#8), (710, 75#8), (711, 101#8)] }, 0, testImage, 384, bytesOf [170, 135, 202, 34, 190, 139, 5, 55, 142, 177, 199, 30, 243, 32, 173, 116, 110, 29, 59, 98, 139, 167, 155, 152, 89, 247, 65, 224, 130, 84, 42, 56, 85, 2, 242, 93, 191, 85, 41, 108, 58, 84, 94, 56, 114, 118, 10, 183, 54, 23, 222, 74, 150, 38, 44, 111, 93, 158, 152, 191, 146, 146, 220, 41, 248, 244, 29, 189, 40, 154, 20, 124, 233, 218, 49, 19, 181, 240, 184, 192, 10, 96, 177, 206, 29, 126, 129, 157, 122, 67, 29, 124, 144, 234, 14, 95], bytesOf [2, 211, 194, 12, 103, 137, 200, 219, 56, 132, 254, 229, 110, 185, 249, 8, 166, 27, 61, 109, 99, 119, 213, 42, 224, 109, 85, 177, 191, 125, 154, 246, 6, 82, 58, 121, 119, 138, 120, 192, 211, 177, 114, 63, 201, 109, 60, 196], bytesOf [8, 217, 153, 5, 123, 163, 210, 217, 105, 38, 0, 69, 197, 91, 151, 240, 137, 2, 89, 89, 166, 244, 52, 214, 81, 210, 7, 209, 159, 185, 110, 158, 79, 224, 232, 110, 190, 14, 100, 248, 91, 150, 169, 199, 82, 149, 223, 97, 133, 214, 173, 136, 241, 150, 205, 218, 80, 213, 127, 149, 154, 10, 200, 124, 151, 142, 203, 99, 133, 54, 5, 0, 124, 209, 85, 130, 169, 183, 27, 185, 215, 38, 152, 77, 63, 36, 194, 154, 14, 26, 26, 184, 244, 100, 34, 204], by decide, by decide +kernel, by decide +kernel, by decide, by decide +kernel, by decide +kernel, by decide +kernel, by decide +kernel, by decide +kernel, by decide +kernel, by decide +kernel⟩

set_option Elab.async false in
theorem witness_ImageUpdate_23 : ∃ (s : State) (n : BitVec 12),
    (s.upd.recovery = true ∧ s.coresRun = true) ∧
    ((n.toNat + 1) * 4096 < imgLen (unitBytes s.upd.runits 0 ((n.toNat + 1) * 4096))) :=
  ⟨{ State.reset with upd.recovery := true, upd.runits := [(0, bytesOf [0, 0, 0, 0, 0, 0, 0, 0, 0, 0, 1, 0])] }, 0, by decide, by decide +kernel⟩

set_option Elab.async false in
theorem witness_ImageCommands_1 : ∃ (s : State) (q : Fin 18) (c : Cmd) (bad : List Nat),
    (s.standardFront q 0x0060 = some c) ∧
    (s.coresRun = true ∧ s.glb.mode ≠ .standby) ∧
    ([2].contains (s.cmdRole c) = true) ∧
    (field c.raw 28 1 = 1 ∧ zeros c.raw 29 3 = true ∧ field c.raw 8 4 = 0 ∧ zeros c.raw 12 12 = true) ∧
    (s.updBarred = none ∧ s.lake.ready = true) ∧
    (s.upd.slotSt s.upd.spare ≠ 3 ∧ s.upd.slotSt s.upd.spare ≠ 6) ∧
    (256 ≤ c.data.length) ∧
    (beginOk c.data = true) ∧
    (field c.data 8 4 ≤ 67108864 ∧ field c.data 8 4 ≤ s.slotCap s.upd.spare ∧ c.data.length ≤ field c.data 8 4) ∧
    (crc32c c.data = field c.raw 24 4) ∧
    (bad.any (s.slotBlock s.upd.spare) = false) :=
  ⟨{ State.reset with hp.cmds := [{ raw := bytesOf [96, 0, 0, 0, 0, 0, 0, 0, 0, 0, 0, 0, 0, 0, 0, 0, 0, 0, 0, 0, 0, 0, 0, 0, 136, 89, 129, 249, 1, 0, 0, 0, 0, 0, 0, 0, 0, 0, 0, 0, 0, 0, 0, 0, 0, 0, 0, 0, 1, 0, 0, 0, 0, 0, 0, 0, 0, 0, 0, 0, 0, 0, 0, 0], sqid := 0, stage := .delivered, data := testImage }], hp.sessions := [(1, { open_ := true, role := 2 })], lake.ready := true, upd.stA := 5, upd.bNblk := 9, lake.geom := { dg := 1, lunch := 2, planes := 4, bpc := 3, tmode := 5, pages := 1000, blocksPerLun := 512 } }, 0, { raw := bytesOf [96, 0, 0, 0, 0, 0, 0, 0, 0, 0, 0, 0, 0, 0, 0, 0, 0, 0, 0, 0, 0, 0, 0, 0, 136, 89, 129, 249, 1, 0, 0, 0, 0, 0, 0, 0, 0, 0, 0, 0, 0, 0, 0, 0, 0, 0, 0, 0, 1, 0, 0, 0, 0, 0, 0, 0, 0, 0, 0, 0, 0, 0, 0, 0], sqid := 0, stage := .delivered, data := testImage }, [5], by decide, by decide, by decide, by decide, by decide, by decide, by decide, by decide +kernel, by decide, by decide +kernel, by decide⟩

set_option Elab.async false in
theorem witness_ImageCommands_2 : ∃ (s : State) (q : Fin 18) (c : Cmd) (im : List Byte) (so : Nat) (pk dg sg : List Byte),
    (s.standardFront q 0x0061 = some c) ∧
    (s.coresRun = true ∧ s.glb.mode ≠ .standby) ∧
    ([2].contains (s.cmdRole c) = true) ∧
    (s.updBarred = none ∧ s.lake.ready = true) ∧
    (s.upd.slotSt s.upd.spare = 1) ∧
    ((List.range (ceilDiv s.upd.imglen 4096)).all (fun u => (s.upd.units.find (s.upd.spare * 16384 + u)).isSome) = true) ∧
    (s.slotBytes s.upd.spare s.upd.imglen = im) ∧
    (imgSigOff im = so) ∧
    (imageRules im = true) ∧
    (slice im (so - 96) 96 = pk) ∧
    (s.imgKeyKnown (field im (so + 4) 4) pk = true) ∧
    (sha384 (im.take so) = dg) ∧
    (slice im (so + 8) 96 = sg) ∧
    (ecdsaVerify pk dg sg = true) ∧
    (s.secFloor ≤ imgSecver im ∧ imgSecver im ≤ 256) ∧
    (s.ldg.sealed = false) :=
  ⟨{ State.reset with hp.cmds := [{ raw := bytesOf [97, 0, 0, 0, 0, 0, 0, 0, 0, 0, 0, 0, 0, 0, 0, 0, 0, 0, 0, 0, 0, 0, 0, 0, 0, 0, 0, 0, 0, 0, 0, 0, 0, 0, 0, 0, 0, 0, 0, 0, 0, 0, 0, 0, 0, 0, 0, 0, 1, 0, 0, 0, 0, 0, 0, 0, 0, 0, 0, 0, 0, 0, 0, 0], sqid := 0, stage := .delivered }], hp.sessions := [(1, { open_ := true, role := 2 })], upd.stB := 1, upd.imglen := 496, upd.units := [(16384, testImage)], otp := [(656, 85#8), (664, 161#8), (665, 157#8), (666, 77#8), (667, 177#8), (668, 113#8), (669, 181#8), (670, 130#8), (671, 235#8), (672, 128#8), (673, 82#8), (674, 176#8), (675, 207#8), (676, 229#8), (677, 85#8), (678, 225#8), (679, 120#8), (680, 148#8), (681, 170#8), (682, 34#8), (683, 209#8), (684, 200#8), (685, 169#8), (686, 119#8), (687, 9#8), (688, 80#8), (689, 105#8), (690, 125#8), (691, 216#8), (692, 247#8), (693, 150#8), (694, 210#8), (695, 250#8), (696, 75#8), (697, 240#8), (698, 165#8), (699, 106#8), (700, 216#8), (702, 6#8), (703, 183#8), (704, 234#8), (705, 8#8), (706, 225#8), (707, 25#8), (708, 31#8), (709, 129#8), (710, 75#8), (711, 101#8)], lake.ready := true }, 0, { raw := bytesOf [97, 0, 0, 0, 0, 0, 0, 0, 0, 0, 0, 0, 0, 0, 0, 0, 0, 0, 0, 0, 0, 0, 0, 0, 0, 0, 0, 0, 0, 0, 0, 0, 0, 0, 0, 0, 0, 0, 0, 0, 0, 0, 0, 0, 0, 0, 0, 0, 1, 0, 0, 0, 0, 0, 0, 0, 0, 0, 0, 0, 0, 0, 0, 0], sqid := 0, stage := .delivered }, testImage, 384, bytesOf [170, 135, 202, 34, 190, 139, 5, 55, 142, 177, 199, 30, 243, 32, 173, 116, 110, 29, 59, 98, 139, 167, 155, 152, 89, 247, 65, 224, 130, 84, 42, 56, 85, 2, 242, 93, 191, 85, 41, 108, 58, 84, 94, 56, 114, 118, 10, 183, 54, 23, 222, 74, 150, 38, 44, 111, 93, 158, 152, 191, 146, 146, 220, 41, 248, 244, 29, 189, 40, 154, 20, 124, 233, 218, 49, 19, 181, 240, 184, 192, 10, 96, 177, 206, 29, 126, 129, 157, 122, 67, 29, 124, 144, 234, 14, 95], bytesOf [2, 211, 194, 12, 103, 137, 200, 219, 56, 132, 254, 229, 110, 185, 249, 8, 166, 27, 61, 109, 99, 119, 213, 42, 224, 109, 85, 177, 191, 125, 154, 246, 6, 82, 58, 121, 119, 138, 120, 192, 211, 177, 114, 63, 201, 109, 60, 196], bytesOf [8, 217, 153, 5, 123, 163, 210, 217, 105, 38, 0, 69, 197, 91, 151, 240, 137, 2, 89, 89, 166, 244, 52, 214, 81, 210, 7, 209, 159, 185, 110, 158, 79, 224, 232, 110, 190, 14, 100, 248, 91, 150, 169, 199, 82, 149, 223, 97, 133, 214, 173, 136, 241, 150, 205, 218, 80, 213, 127, 149, 154, 10, 200, 124, 151, 142, 203, 99, 133, 54, 5, 0, 124, 209, 85, 130, 169, 183, 27, 185, 215, 38, 152, 77, 63, 36, 194, 154, 14, 26, 26, 184, 244, 100, 34, 204], by decide, by decide, by decide, by decide, by decide, by decide +kernel, by decide +kernel, by decide, by decide +kernel, by decide +kernel, by decide +kernel, by decide +kernel, by decide +kernel, by decide +kernel, by decide +kernel, by decide⟩

theorem witness_ImageCommands_3 : ∃ (s : State) (q : Fin 18) (c : Cmd),
    (s.standardFront q 0x0062 = some c) ∧
    (s.coresRun = true ∧ s.glb.mode ≠ .standby) ∧
    ([2].contains (s.cmdRole c) = true) ∧
    (field c.raw 16 1 = 0 ∧ 1 ≤ field c.raw 17 1 ∧ zeros c.raw 18 6 = true) ∧
    (s.updBarred = none ∧ s.lake.ready = true) ∧
    (s.cas.pair = 0 ∧ s.cas.master = true ∧ s.cas.chips ≤ 1) ∧
    (s.nowNs + 10000000000 ≤ field c.raw 8 8 * 1000000000) ∧
    (s.upd.slotSt s.upd.spare = 2 ∨ s.upd.slotSt s.upd.spare = 3) ∧
    (s.cas.chipId < 255) :=
  ⟨{ State.reset with hp.cmds := [{ raw := bytesOf [98, 0, 0, 0, 0, 0, 0, 0, 100, 0, 0, 0, 0, 0, 0, 0, 0, 30, 0, 0, 0, 0, 0, 0, 0, 0, 0, 0, 0, 0, 0, 0, 0, 0, 0, 0, 0, 0, 0, 0, 0, 0, 0, 0, 0, 0, 0, 0, 1, 0, 0, 0, 0, 0, 0, 0, 0, 0, 0, 0, 0, 0, 0, 0], sqid := 0, stage := .delivered }], hp.sessions := [(1, { open_ := true, role := 2 })], lake.ready := true, upd.stA := 5, upd.stB := 2 }, 0, { raw := bytesOf [98, 0, 0, 0, 0, 0, 0, 0, 100, 0, 0, 0, 0, 0, 0, 0, 0, 30, 0, 0, 0, 0, 0, 0, 0, 0, 0, 0, 0, 0, 0, 0, 0, 0, 0, 0, 0, 0, 0, 0, 0, 0, 0, 0, 0, 0, 0, 0, 1, 0, 0, 0, 0, 0, 0, 0, 0, 0, 0, 0, 0, 0, 0, 0], sqid := 0, stage := .delivered }, by decide, by decide, by decide, by decide, by decide, by decide, by decide, by decide, by decide⟩

theorem witness_ImageCommands_4 : ∃ (s : State) (q : Fin 18) (c : Cmd),
    (s.standardFront q 0x0063 = some c) ∧
    (s.coresRun = true ∧ s.glb.mode ≠ .standby) ∧
    ([2, 5].contains (s.cmdRole c) = true) ∧
    (field c.raw 8 1 = 0 ∧ field c.raw 9 1 = 0 ∧ zeros c.raw 10 6 = true) ∧
    (s.lake.ready = true ∧ s.cas.pair = 0) ∧
    (s.upd.slotSt s.upd.active = 4 ∧ s.upd.active ≤ 1) :=
  ⟨{ State.reset with hp.cmds := [{ raw := bytesOf [99, 0, 0, 0, 0, 0, 0, 0, 0, 0, 0, 0, 0, 0, 0, 0, 0, 0, 0, 0, 0, 0, 0, 0, 0, 0, 0, 0, 0, 0, 0, 0, 0, 0, 0, 0, 0, 0, 0, 0, 0, 0, 0, 0, 0, 0, 0, 0, 1, 0, 0, 0, 0, 0, 0, 0, 0, 0, 0, 0, 0, 0, 0, 0], sqid := 0, stage := .delivered }], hp.sessions := [(1, { open_ := true, role := 2 })], lake.ready := true, upd.stA := 4, upd.stB := 6 }, 0, { raw := bytesOf [99, 0, 0, 0, 0, 0, 0, 0, 0, 0, 0, 0, 0, 0, 0, 0, 0, 0, 0, 0, 0, 0, 0, 0, 0, 0, 0, 0, 0, 0, 0, 0, 0, 0, 0, 0, 0, 0, 0, 0, 0, 0, 0, 0, 0, 0, 0, 0, 1, 0, 0, 0, 0, 0, 0, 0, 0, 0, 0, 0, 0, 0, 0, 0], sqid := 0, stage := .delivered }, by decide, by decide, by decide, by decide, by decide, by decide⟩

theorem witness_ImageCommands_5 : ∃ (s : State) (q : Fin 18) (c : Cmd),
    (s.standardFront q 0x0064 = some c) ∧
    (s.coresRun = true ∧ s.glb.mode ≠ .standby) ∧
    ([1, 2, 3, 4, 5, 6].contains (s.cmdRole c) = true) :=
  ⟨{ State.reset with hp.cmds := [{ raw := bytesOf [100, 0, 32, 0, 0, 0, 0, 0, 0, 0, 0, 0, 0, 0, 0, 0, 0, 0, 0, 0, 0, 0, 0, 0, 0, 0, 0, 0, 0, 0, 0, 0, 0, 0, 0, 0, 0, 0, 0, 0, 0, 0, 0, 0, 0, 0, 64, 0, 1, 0, 0, 0, 0, 0, 0, 0, 0, 0, 0, 0, 0, 0, 0, 0], sqid := 0, stage := .delivered }], hp.sessions := [(1, { open_ := true, role := 2 })] }, 0, { raw := bytesOf [100, 0, 32, 0, 0, 0, 0, 0, 0, 0, 0, 0, 0, 0, 0, 0, 0, 0, 0, 0, 0, 0, 0, 0, 0, 0, 0, 0, 0, 0, 0, 0, 0, 0, 0, 0, 0, 0, 0, 0, 0, 0, 0, 0, 0, 0, 64, 0, 1, 0, 0, 0, 0, 0, 0, 0, 0, 0, 0, 0, 0, 0, 0, 0], sqid := 0, stage := .delivered }, by decide, by decide, by decide⟩

theorem witness_ImageCommands_6 : ∃ (s : State) (q : Fin 18) (c : Cmd),
    (s.standardFront q 0x0065 = some c) ∧
    (s.coresRun = true ∧ s.glb.mode ≠ .standby) ∧
    ([2].contains (s.cmdRole c) = true) ∧
    (field c.raw 8 1 ≤ 1) :=
  ⟨{ State.reset with hp.cmds := [{ raw := bytesOf [101, 0, 0, 0, 0, 0, 0, 0, 1, 0, 0, 0, 0, 0, 0, 0, 0, 0, 0, 0, 0, 0, 0, 0, 0, 0, 0, 0, 0, 0, 0, 0, 0, 0, 0, 0, 0, 0, 0, 0, 0, 0, 0, 0, 0, 0, 0, 0, 1, 0, 0, 0, 0, 0, 0, 0, 0, 0, 0, 0, 0, 0, 0, 0], sqid := 0, stage := .delivered }], hp.sessions := [(1, { open_ := true, role := 2 })] }, 0, { raw := bytesOf [101, 0, 0, 0, 0, 0, 0, 0, 1, 0, 0, 0, 0, 0, 0, 0, 0, 0, 0, 0, 0, 0, 0, 0, 0, 0, 0, 0, 0, 0, 0, 0, 0, 0, 0, 0, 0, 0, 0, 0, 0, 0, 0, 0, 0, 0, 0, 0, 1, 0, 0, 0, 0, 0, 0, 0, 0, 0, 0, 0, 0, 0, 0, 0], sqid := 0, stage := .delivered }, by decide, by decide, by decide, by decide⟩

theorem witness_ImageCommands_7 : ∃ (s : State) (q : Fin 18) (c : Cmd) (bad : List Nat),
    (s.standardFront q 0x0060 = some c) ∧
    (s.coresRun = true ∧ s.glb.mode ≠ .standby) ∧
    ([2].contains (s.cmdRole c) = false) :=
  ⟨{ State.reset with hp.cmds := [{ raw := bytesOf [96, 0, 0, 0, 0, 0, 0, 0, 0, 0, 0, 0, 0, 0, 0, 0, 0, 0, 0, 0, 0, 0, 0, 0, 0, 0, 0, 0, 0, 0, 0, 0, 0, 0, 0, 0, 0, 0, 0, 0, 0, 0, 0, 0, 0, 0, 0, 0, 1, 0, 0, 0, 0, 0, 0, 0, 0, 0, 0, 0, 0, 0, 0, 0], sqid := 0, stage := .delivered }], hp.sessions := [(1, { open_ := true, role := 1 })] }, 0, { raw := bytesOf [96, 0, 0, 0, 0, 0, 0, 0, 0, 0, 0, 0, 0, 0, 0, 0, 0, 0, 0, 0, 0, 0, 0, 0, 0, 0, 0, 0, 0, 0, 0, 0, 0, 0, 0, 0, 0, 0, 0, 0, 0, 0, 0, 0, 0, 0, 0, 0, 1, 0, 0, 0, 0, 0, 0, 0, 0, 0, 0, 0, 0, 0, 0, 0], sqid := 0, stage := .delivered }, [5], by decide, by decide, by decide⟩

theorem witness_ImageCommands_8 : ∃ (s : State) (q : Fin 18) (c : Cmd),
    (s.standardFront q 0x0061 = some c) ∧
    (s.coresRun = true ∧ s.glb.mode ≠ .standby) ∧
    ([2].contains (s.cmdRole c) = false) :=
  ⟨{ State.reset with hp.cmds := [{ raw := bytesOf [97, 0, 0, 0, 0, 0, 0, 0, 0, 0, 0, 0, 0, 0, 0, 0, 0, 0, 0, 0, 0, 0, 0, 0, 0, 0, 0, 0, 0, 0, 0, 0, 0, 0, 0, 0, 0, 0, 0, 0, 0, 0, 0, 0, 0, 0, 0, 0, 1, 0, 0, 0, 0, 0, 0, 0, 0, 0, 0, 0, 0, 0, 0, 0], sqid := 0, stage := .delivered }], hp.sessions := [(1, { open_ := true, role := 4 })] }, 0, { raw := bytesOf [97, 0, 0, 0, 0, 0, 0, 0, 0, 0, 0, 0, 0, 0, 0, 0, 0, 0, 0, 0, 0, 0, 0, 0, 0, 0, 0, 0, 0, 0, 0, 0, 0, 0, 0, 0, 0, 0, 0, 0, 0, 0, 0, 0, 0, 0, 0, 0, 1, 0, 0, 0, 0, 0, 0, 0, 0, 0, 0, 0, 0, 0, 0, 0], sqid := 0, stage := .delivered }, by decide, by decide, by decide⟩

theorem witness_ImageCommands_9 : ∃ (s : State) (q : Fin 18) (c : Cmd),
    (s.standardFront q 0x0062 = some c) ∧
    (s.coresRun = true ∧ s.glb.mode ≠ .standby) ∧
    ([2].contains (s.cmdRole c) = false) :=
  ⟨{ State.reset with hp.cmds := [{ raw := bytesOf [98, 0, 0, 0, 0, 0, 0, 0, 0, 0, 0, 0, 0, 0, 0, 0, 0, 0, 0, 0, 0, 0, 0, 0, 0, 0, 0, 0, 0, 0, 0, 0, 0, 0, 0, 0, 0, 0, 0, 0, 0, 0, 0, 0, 0, 0, 0, 0, 1, 0, 0, 0, 0, 0, 0, 0, 0, 0, 0, 0, 0, 0, 0, 0], sqid := 0, stage := .delivered }], hp.sessions := [(1, { open_ := true, role := 4 })] }, 0, { raw := bytesOf [98, 0, 0, 0, 0, 0, 0, 0, 0, 0, 0, 0, 0, 0, 0, 0, 0, 0, 0, 0, 0, 0, 0, 0, 0, 0, 0, 0, 0, 0, 0, 0, 0, 0, 0, 0, 0, 0, 0, 0, 0, 0, 0, 0, 0, 0, 0, 0, 1, 0, 0, 0, 0, 0, 0, 0, 0, 0, 0, 0, 0, 0, 0, 0], sqid := 0, stage := .delivered }, by decide, by decide, by decide⟩

theorem witness_ImageCommands_10 : ∃ (s : State) (q : Fin 18) (c : Cmd),
    (s.standardFront q 0x0063 = some c) ∧
    (s.coresRun = true ∧ s.glb.mode ≠ .standby) ∧
    ([2, 5].contains (s.cmdRole c) = false) :=
  ⟨{ State.reset with hp.cmds := [{ raw := bytesOf [99, 0, 0, 0, 0, 0, 0, 0, 0, 0, 0, 0, 0, 0, 0, 0, 0, 0, 0, 0, 0, 0, 0, 0, 0, 0, 0, 0, 0, 0, 0, 0, 0, 0, 0, 0, 0, 0, 0, 0, 0, 0, 0, 0, 0, 0, 0, 0, 1, 0, 0, 0, 0, 0, 0, 0, 0, 0, 0, 0, 0, 0, 0, 0], sqid := 0, stage := .delivered }], hp.sessions := [(1, { open_ := true, role := 4 })] }, 0, { raw := bytesOf [99, 0, 0, 0, 0, 0, 0, 0, 0, 0, 0, 0, 0, 0, 0, 0, 0, 0, 0, 0, 0, 0, 0, 0, 0, 0, 0, 0, 0, 0, 0, 0, 0, 0, 0, 0, 0, 0, 0, 0, 0, 0, 0, 0, 0, 0, 0, 0, 1, 0, 0, 0, 0, 0, 0, 0, 0, 0, 0, 0, 0, 0, 0, 0], sqid := 0, stage := .delivered }, by decide, by decide, by decide⟩

theorem witness_ImageCommands_11 : ∃ (s : State) (q : Fin 18) (c : Cmd),
    (s.standardFront q 0x0065 = some c) ∧
    (s.coresRun = true ∧ s.glb.mode ≠ .standby) ∧
    ([2].contains (s.cmdRole c) = false) :=
  ⟨{ State.reset with hp.cmds := [{ raw := bytesOf [101, 0, 0, 0, 0, 0, 0, 0, 0, 0, 0, 0, 0, 0, 0, 0, 0, 0, 0, 0, 0, 0, 0, 0, 0, 0, 0, 0, 0, 0, 0, 0, 0, 0, 0, 0, 0, 0, 0, 0, 0, 0, 0, 0, 0, 0, 0, 0, 1, 0, 0, 0, 0, 0, 0, 0, 0, 0, 0, 0, 0, 0, 0, 0], sqid := 0, stage := .delivered }], hp.sessions := [(1, { open_ := true, role := 5 })] }, 0, { raw := bytesOf [101, 0, 0, 0, 0, 0, 0, 0, 0, 0, 0, 0, 0, 0, 0, 0, 0, 0, 0, 0, 0, 0, 0, 0, 0, 0, 0, 0, 0, 0, 0, 0, 0, 0, 0, 0, 0, 0, 0, 0, 0, 0, 0, 0, 0, 0, 0, 0, 1, 0, 0, 0, 0, 0, 0, 0, 0, 0, 0, 0, 0, 0, 0, 0], sqid := 0, stage := .delivered }, by decide, by decide, by decide⟩

set_option Elab.async false in
theorem witness_Campaigns_1 : ∃ (s : State) (t : Fin 256) (pi : Fin 8) (rt ra : Fin 32) (p : Place) (i : Nat) (b : List Byte),
    (s.callsAt t pi ra 0xD4 32 p i = true) ∧
    (s.load p 32 = b) ∧
    (field b 0 1 = 0 ∧ zeros b 4 4 = true ∧ zeros b 28 4 = true) ∧
    (groupMa (BitVec.ofNat 64 (field b 8 8)) = true) ∧
    (s.lake.ready = true ∧ s.cas.pair = 0) ∧
    (s.upd.camps.find (field b 2 2) = none ∧ s.upd.camps.length < 8) ∧
    (0 < field b 20 4 ∧ field b 20 4 ≤ 16777216 ∧ field b 16 4 * 4096 + field b 20 4 ≤ s.lake.volGiB * 2 ^ 30) ∧
    (crc32c (s.volBytes (field b 16 4 * 4096) (field b 20 4)) = field b 24 4) :=
  ⟨{ State.reset with mcc.dmem := [(1, 3#8), (2, 7#8), (8, 1#8), (15, 1#8), (20, 4#8), (24, 199#8), (25, 75#8), (26, 103#8), (27, 72#8)], lake.ready := true, lake.volGiB := 1 }, 0, 0, 0, 0, .dmem 0, 0, bytesOf [0x0, 0x3, 0x7, 0x0, 0x0, 0x0, 0x0, 0x0, 0x1, 0x0, 0x0, 0x0, 0x0, 0x0, 0x0, 0x1, 0x0, 0x0, 0x0, 0x0, 0x4, 0x0, 0x0, 0x0, 0xC7, 0x4B, 0x67, 0x48, 0x0, 0x0, 0x0, 0x0], by decide, by decide, by decide, by decide, by decide, by decide, by decide, by decide +kernel⟩

theorem witness_Campaigns_2 : ∃ (s : State) (t : Fin 256) (pi : Fin 8) (rt ra : Fin 32) (p : Place) (i : Nat) (b : List Byte),
    (s.callsAt t pi ra 0xD4 32 p i = true) ∧
    (s.load p 32 = b) ∧
    (field b 0 1 = 0 ∧ zeros b 4 4 = true ∧ zeros b 28 4 = true) ∧
    (groupMa (BitVec.ofNat 64 (field b 8 8)) = true) ∧
    (s.lake.ready = true ∧ s.cas.pair = 0) ∧
    ((s.upd.camps.find (field b 2 2)).isSome = true) :=
  ⟨{ State.reset with mcc.dmem := [(2, 7#8), (8, 1#8), (15, 1#8)], upd.camps := [(7, { st := 1, ports := 1, imglen := 100, group := 0x8000000000000001, volofs := 0, imgcrc := 5, tally := [1, 2, 3, 4] })], lake.ready := true }, 0, 0, 0, 0, .dmem 0, 0, bytesOf [0x0, 0x0, 0x7, 0x0, 0x0, 0x0, 0x0, 0x0, 0x1, 0x0, 0x0, 0x0, 0x0, 0x0, 0x0, 0x1, 0x0, 0x0, 0x0, 0x0, 0x0, 0x0, 0x0, 0x0, 0x0, 0x0, 0x0, 0x0, 0x0, 0x0, 0x0, 0x0], by decide, by decide, by decide, by decide, by decide, by decide⟩

theorem witness_Campaigns_3 : ∃ (s : State) (t : Fin 256) (pi : Fin 8) (rt ra : Fin 32) (p : Place) (i : Nat) (b : List Byte) (x : Camp),
    (s.callsAt t pi ra 0xD4 32 p i = true) ∧
    (s.load p 32 = b) ∧
    (field b 0 1 = 1 ∧ zeros b 4 4 = true ∧ zeros b 8 8 = true ∧ zeros b 25 7 = true) ∧
    (s.cas.pair = 0 ∧ s.upd.camps.find (field b 2 2) = some x) ∧
    (x.st = 1 ∨ x.st = 2 ∨ x.st = 3) ∧
    (1 ≤ field b 24 1 ∧ field b 24 1 ≤ 8 ∧ 0 < field b 20 4 ∧ field b 16 4 + field b 20 4 ≤ x.imglen) :=
  ⟨{ State.reset with mcc.dmem := [(0, 1#8), (2, 7#8), (20, 50#8), (24, 2#8)], upd.camps := [(7, { st := 1, ports := 1, imglen := 100, group := 0x8000000000000001, volofs := 0, imgcrc := 5, tally := [1, 2, 3, 4] })], lake.ready := true }, 0, 0, 0, 0, .dmem 0, 0, bytesOf [0x1, 0x0, 0x7, 0x0, 0x0, 0x0, 0x0, 0x0, 0x0, 0x0, 0x0, 0x0, 0x0, 0x0, 0x0, 0x0, 0x0, 0x0, 0x0, 0x0, 0x32, 0x0, 0x0, 0x0, 0x2, 0x0, 0x0, 0x0, 0x0, 0x0, 0x0, 0x0], { st := 1, ports := 1, imglen := 100, group := 0x8000000000000001, volofs := 0, imgcrc := 5, tally := [1, 2, 3, 4] }, by decide, by decide, by decide, by decide, by decide, by decide⟩

theorem witness_Campaigns_4 : ∃ (s : State) (t : Fin 256) (pi : Fin 8) (rt ra : Fin 32) (p : Place) (i : Nat) (b : List Byte) (x : Camp),
    (s.callsAt t pi ra 0xD4 32 p i = true) ∧
    (s.load p 32 = b) ∧
    (field b 0 1 = 1 ∧ zeros b 4 4 = true ∧ zeros b 8 8 = true ∧ zeros b 25 7 = true) ∧
    (s.cas.pair = 0 ∧ s.upd.camps.find (field b 2 2) = some x) ∧
    (x.st = 0 ∨ 3 < x.st) :=
  ⟨{ State.reset with mcc.dmem := [(0, 1#8), (2, 7#8), (20, 50#8), (24, 2#8)], upd.camps := [(7, { st := 4, ports := 1, imglen := 100, group := 0x8000000000000001, volofs := 0, imgcrc := 5, tally := [1, 2, 3, 4] })], lake.ready := true }, 0, 0, 0, 0, .dmem 0, 0, bytesOf [0x1, 0x0, 0x7, 0x0, 0x0, 0x0, 0x0, 0x0, 0x0, 0x0, 0x0, 0x0, 0x0, 0x0, 0x0, 0x0, 0x0, 0x0, 0x0, 0x0, 0x32, 0x0, 0x0, 0x0, 0x2, 0x0, 0x0, 0x0, 0x0, 0x0, 0x0, 0x0], { st := 4, ports := 1, imglen := 100, group := 0x8000000000000001, volofs := 0, imgcrc := 5, tally := [1, 2, 3, 4] }, by decide, by decide, by decide, by decide, by decide⟩

theorem witness_Campaigns_5 : ∃ (s : State) (t : Fin 256) (pi : Fin 8) (rt ra : Fin 32) (p : Place) (i : Nat) (b : List Byte) (x : Camp),
    (s.callsAt t pi ra 0xD4 32 p i = true) ∧
    (s.load p 32 = b) ∧
    (field b 0 1 = 2 ∧ zeros b 4 4 = true ∧ zeros b 16 16 = true) ∧
    (s.cas.pair = 0 ∧ s.upd.camps.find (field b 2 2) = some x) ∧
    (x.st = 2 ∨ x.st = 3) ∧
    (∀ n ∈ s.campFrames x, s.nowNs + 2 * n * 1000000000 ≤ field b 8 8 * 1000000000) :=
  ⟨{ State.reset with mcc.dmem := [(0, 2#8), (2, 7#8), (8, 232#8), (9, 3#8)], upd.camps := [(7, { st := 3, ports := 1, imglen := 100, group := 0x8000000000000001, volofs := 0, imgcrc := 5, tally := [1, 2, 3, 4] })], lake.ready := true }, 0, 0, 0, 0, .dmem 0, 0, bytesOf [0x2, 0x0, 0x7, 0x0, 0x0, 0x0, 0x0, 0x0, 0xE8, 0x3, 0x0, 0x0, 0x0, 0x0, 0x0, 0x0, 0x0, 0x0, 0x0, 0x0, 0x0, 0x0, 0x0, 0x0, 0x0, 0x0, 0x0, 0x0, 0x0, 0x0, 0x0, 0x0], { st := 3, ports := 1, imglen := 100, group := 0x8000000000000001, volofs := 0, imgcrc := 5, tally := [1, 2, 3, 4] }, by decide, by decide, by decide, by decide, by decide, by decide⟩

theorem witness_Campaigns_6 : ∃ (s : State) (t : Fin 256) (pi : Fin 8) (rt ra : Fin 32) (p : Place) (i : Nat) (b : List Byte) (x : Camp),
    (s.callsAt t pi ra 0xD4 32 p i = true) ∧
    (s.load p 32 = b) ∧
    (field b 0 1 = 3 ∧ zeros b 4 4 = true ∧ zeros b 8 24 = true) ∧
    (s.cas.pair = 0 ∧ s.upd.camps.find (field b 2 2) = some x) ∧
    (1 ≤ x.st ∧ x.st ≤ 5) :=
  ⟨{ State.reset with mcc.dmem := [(0, 3#8), (2, 7#8)], upd.camps := [(7, { st := 4, ports := 1, imglen := 100, group := 0x8000000000000001, volofs := 0, imgcrc := 5, tally := [1, 2, 3, 4] })], lake.ready := true }, 0, 0, 0, 0, .dmem 0, 0, bytesOf [0x3, 0x0, 0x7, 0x0, 0x0, 0x0, 0x0, 0x0, 0x0, 0x0, 0x0, 0x0, 0x0, 0x0, 0x0, 0x0, 0x0, 0x0, 0x0, 0x0, 0x0, 0x0, 0x0, 0x0, 0x0, 0x0, 0x0, 0x0, 0x0, 0x0, 0x0, 0x0], { st := 4, ports := 1, imglen := 100, group := 0x8000000000000001, volofs := 0, imgcrc := 5, tally := [1, 2, 3, 4] }, by decide, by decide, by decide, by decide, by decide⟩

theorem witness_Campaigns_7 : ∃ (s : State) (t : Fin 256) (pi : Fin 8) (rt ra : Fin 32) (p : Place) (i : Nat) (b : List Byte) (x : Camp) (q : Place),
    (s.callsAt t pi ra 0xD4 32 p i = true) ∧
    (s.load p 32 = b) ∧
    (field b 0 1 = 4 ∧ zeros b 4 4 = true ∧ zeros b 16 16 = true) ∧
    (s.cas.pair = 0 ∧ s.upd.camps.find (field b 2 2) = some x) ∧
    (x.tally.length = 4) ∧
    ((s.thr t).bufPlace t (field b 8 8) 64 = some q) :=
  ⟨{ State.reset with mcc.dmem := [(0, 4#8), (2, 7#8), (8, 64#8)], upd.camps := [(7, { st := 4, ports := 1, imglen := 100, group := 0x8000000000000001, volofs := 0, imgcrc := 5, tally := [1, 2, 3, 4] })], lake.ready := true }, 0, 0, 0, 0, .dmem 0, 0, bytesOf [0x4, 0x0, 0x7, 0x0, 0x0, 0x0, 0x0, 0x0, 0x40, 0x0, 0x0, 0x0, 0x0, 0x0, 0x0, 0x0, 0x0, 0x0, 0x0, 0x0, 0x0, 0x0, 0x0, 0x0, 0x0, 0x0, 0x0, 0x0, 0x0, 0x0, 0x0, 0x0], { st := 4, ports := 1, imglen := 100, group := 0x8000000000000001, volofs := 0, imgcrc := 5, tally := [1, 2, 3, 4] }, .dmem 64, by decide, by decide, by decide, by decide, by decide, by decide⟩

theorem witness_Campaigns_8 : ∃ (s : State) (t : Fin 256) (pi : Fin 8) (rt ra : Fin 32) (p : Place) (i : Nat) (b : List Byte) (x : Camp),
    (s.callsAt t pi ra 0xD4 32 p i = true) ∧
    (s.load p 32 = b) ∧
    (field b 0 1 = 5 ∧ zeros b 4 4 = true ∧ zeros b 8 24 = true) ∧
    (s.cas.pair = 0 ∧ s.upd.camps.find (field b 2 2) = some x) ∧
    (x.st = 5 ∨ x.st = 6) :=
  ⟨{ State.reset with mcc.dmem := [(0, 5#8), (2, 7#8)], upd.camps := [(7, { st := 5, ports := 1, imglen := 100, group := 0x8000000000000001, volofs := 0, imgcrc := 5, tally := [1, 2, 3, 4] })], lake.ready := true }, 0, 0, 0, 0, .dmem 0, 0, bytesOf [0x5, 0x0, 0x7, 0x0, 0x0, 0x0, 0x0, 0x0, 0x0, 0x0, 0x0, 0x0, 0x0, 0x0, 0x0, 0x0, 0x0, 0x0, 0x0, 0x0, 0x0, 0x0, 0x0, 0x0, 0x0, 0x0, 0x0, 0x0, 0x0, 0x0, 0x0, 0x0], { st := 5, ports := 1, imglen := 100, group := 0x8000000000000001, volofs := 0, imgcrc := 5, tally := [1, 2, 3, 4] }, by decide, by decide, by decide, by decide, by decide⟩

theorem witness_Campaigns_9 : ∃ (s : State) (t : Fin 256) (pi : Fin 8) (rt ra : Fin 32) (p : Place) (i : Nat) (b : List Byte) (x : Camp),
    (s.callsAt t pi ra 0xD4 32 p i = true) ∧
    (s.load p 32 = b) ∧
    (field b 0 1 = 6 ∧ zeros b 4 4 = true ∧ zeros b 24 8 = true) ∧
    (s.cas.pair = 0 ∧ s.upd.camps.find (field b 2 2) = some x) ∧
    (1 ≤ x.st ∧ x.st ≤ 6) :=
  ⟨{ State.reset with mcc.dmem := [(0, 6#8), (2, 7#8), (8, 9#8)], upd.camps := [(7, { st := 5, ports := 1, imglen := 100, group := 0x8000000000000001, volofs := 0, imgcrc := 5, tally := [1, 2, 3, 4] })], lake.ready := true }, 0, 0, 0, 0, .dmem 0, 0, bytesOf [0x6, 0x0, 0x7, 0x0, 0x0, 0x0, 0x0, 0x0, 0x9, 0x0, 0x0, 0x0, 0x0, 0x0, 0x0, 0x0, 0x0, 0x0, 0x0, 0x0, 0x0, 0x0, 0x0, 0x0, 0x0, 0x0, 0x0, 0x0, 0x0, 0x0, 0x0, 0x0], { st := 5, ports := 1, imglen := 100, group := 0x8000000000000001, volofs := 0, imgcrc := 5, tally := [1, 2, 3, 4] }, by decide, by decide, by decide, by decide, by decide⟩

theorem witness_Campaigns_10 : ∃ (s : State) (q : Fin 18) (c : Cmd) (x : Camp),
    (s.standardFront q 0x0068 = some c) ∧
    (s.coresRun = true ∧ s.glb.mode ≠ .standby) ∧
    ([2].contains (s.cmdRole c) = true) ∧
    (field c.raw 8 1 = 5 ∧ zeros c.raw 12 24 = true) ∧
    (s.cas.pair = 0 ∧ s.upd.camps.find (field c.raw 10 2) = some x) ∧
    (x.st = 5 ∨ x.st = 6) :=
  ⟨{ State.reset with hp.cmds := [{ raw := bytesOf [104, 0, 0, 0, 0, 0, 0, 0, 5, 0, 7, 0, 0, 0, 0, 0, 0, 0, 0, 0, 0, 0, 0, 0, 0, 0, 0, 0, 0, 0, 0, 0, 0, 0, 0, 0, 0, 0, 0, 0, 0, 0, 0, 0, 0, 0, 0, 0, 1, 0, 0, 0, 0, 0, 0, 0, 0, 0, 0, 0, 0, 0, 0, 0], sqid := 0, stage := .delivered }], hp.sessions := [(1, { open_ := true, role := 2 })], upd.camps := [(7, { st := 5, ports := 1, imglen := 100, group := 0x8000000000000001, volofs := 0, imgcrc := 5, tally := [1, 2, 3, 4] })], lake.ready := true }, 0, { raw := bytesOf [104, 0, 0, 0, 0, 0, 0, 0, 5, 0, 7, 0, 0, 0, 0, 0, 0, 0, 0, 0, 0, 0, 0, 0, 0, 0, 0, 0, 0, 0, 0, 0, 0, 0, 0, 0, 0, 0, 0, 0, 0, 0, 0, 0, 0, 0, 0, 0, 1, 0, 0, 0, 0, 0, 0, 0, 0, 0, 0, 0, 0, 0, 0, 0], sqid := 0, stage := .delivered }, { st := 5, ports := 1, imglen := 100, group := 0x8000000000000001, volofs := 0, imgcrc := 5, tally := [1, 2, 3, 4] }, by decide, by decide, by decide, by decide, by decide, by decide⟩

theorem witness_Campaigns_11 : ∃ (s : State) (q : Fin 18) (c : Cmd) (x : Camp),
    (s.standardFront q 0x0068 = some c) ∧
    (s.coresRun = true ∧ s.glb.mode ≠ .standby) ∧
    ([2, 6].contains (s.cmdRole c) = true) ∧
    (field c.raw 8 1 = 4 ∧ zeros c.raw 12 4 = true) ∧
    (s.cas.pair = 0 ∧ s.upd.camps.find (field c.raw 10 2) = some x) :=
  ⟨{ State.reset with hp.cmds := [{ raw := bytesOf [104, 0, 32, 0, 0, 0, 0, 0, 4, 0, 7, 0, 0, 0, 0, 0, 0, 0, 0, 0, 0, 0, 0, 0, 0, 0, 0, 0, 0, 0, 0, 0, 0, 0, 0, 0, 0, 0, 0, 0, 0, 0, 0, 0, 0, 0, 64, 0, 1, 0, 0, 0, 0, 0, 0, 0, 0, 0, 0, 0, 0, 0, 0, 0], sqid := 0, stage := .delivered }], hp.sessions := [(1, { open_ := true, role := 6 })], upd.camps := [(7, { st := 3, ports := 1, imglen := 100, group := 0x8000000000000001, volofs := 0, imgcrc := 5, tally := [1, 2, 3, 4] })], lake.ready := true }, 0, { raw := bytesOf [104, 0, 32, 0, 0, 0, 0, 0, 4, 0, 7, 0, 0, 0, 0, 0, 0, 0, 0, 0, 0, 0, 0, 0, 0, 0, 0, 0, 0, 0, 0, 0, 0, 0, 0, 0, 0, 0, 0, 0, 0, 0, 0, 0, 0, 0, 64, 0, 1, 0, 0, 0, 0, 0, 0, 0, 0, 0, 0, 0, 0, 0, 0, 0], sqid := 0, stage := .delivered }, { st := 3, ports := 1, imglen := 100, group := 0x8000000000000001, volofs := 0, imgcrc := 5, tally := [1, 2, 3, 4] }, by decide, by decide, by decide, by decide, by decide⟩

theorem witness_Campaigns_12 : ∃ (s : State) (q : Fin 18) (c : Cmd),
    (s.standardFront q 0x0068 = some c) ∧
    (s.coresRun = true ∧ s.glb.mode ≠ .standby) ∧
    ([2].contains (s.cmdRole c) = false) ∧
    (field c.raw 8 1 ≠ 4) :=
  ⟨{ State.reset with hp.cmds := [{ raw := bytesOf [104, 0, 0, 0, 0, 0, 0, 0, 5, 0, 7, 0, 0, 0, 0, 0, 0, 0, 0, 0, 0, 0, 0, 0, 0, 0, 0, 0, 0, 0, 0, 0, 0, 0, 0, 0, 0, 0, 0, 0, 0, 0, 0, 0, 0, 0, 0, 0, 1, 0, 0, 0, 0, 0, 0, 0, 0, 0, 0, 0, 0, 0, 0, 0], sqid := 0, stage := .delivered }], hp.sessions := [(1, { open_ := true, role := 6 })], upd.camps := [(7, { st := 5, ports := 1, imglen := 100, group := 0x8000000000000001, volofs := 0, imgcrc := 5, tally := [1, 2, 3, 4] })], lake.ready := true }, 0, { raw := bytesOf [104, 0, 0, 0, 0, 0, 0, 0, 5, 0, 7, 0, 0, 0, 0, 0, 0, 0, 0, 0, 0, 0, 0, 0, 0, 0, 0, 0, 0, 0, 0, 0, 0, 0, 0, 0, 0, 0, 0, 0, 0, 0, 0, 0, 0, 0, 0, 0, 1, 0, 0, 0, 0, 0, 0, 0, 0, 0, 0, 0, 0, 0, 0, 0], sqid := 0, stage := .delivered }, by decide, by decide, by decide, by decide⟩

theorem witness_Campaigns_13 : ∃ (s : State) (id : BitVec 16) (x : Camp),
    (s.upd.camps.find id.toNat = some x) ∧
    (s.glb.mode = .service ∧ x.st = 4 ∧ x.actT ≤ s.nowS ∧ s.cas.pair = 0) :=
  ⟨{ State.reset with upd.camps := [(7, { st := 4, ports := 1, imglen := 100, group := 0x8000000000000001, volofs := 0, imgcrc := 5, tally := [1, 2, 3, 4] })], lake.ready := true, glb.mode := .service }, 7, { st := 4, ports := 1, imglen := 100, group := 0x8000000000000001, volofs := 0, imgcrc := 5, tally := [1, 2, 3, 4] }, by decide, by decide⟩

theorem witness_Campaigns_14 : ∃ (s : State) (id : BitVec 16) (x : Camp),
    (s.upd.camps.find id.toNat = some x) ∧
    (x.st ≠ 4 ∨ s.nowS < x.actT) :=
  ⟨{ State.reset with upd.camps := [(7, { st := 3, ports := 1, imglen := 100, group := 0x8000000000000001, volofs := 0, imgcrc := 5, tally := [1, 2, 3, 4] })], lake.ready := true }, 7, { st := 3, ports := 1, imglen := 100, group := 0x8000000000000001, volofs := 0, imgcrc := 5, tally := [1, 2, 3, 4] }, by decide, by decide⟩

theorem witness_WoadCalls_1 : ∃ (s : State) (t : Fin 256) (pi : Fin 8) (rt ra : Fin 32) (p : Place) (i : Nat) (b : List Byte) (pt : List Byte) (q : Place),
    (s.callsAt t pi ra 0x70 64 p i = true) ∧
    (s.load p 64 = b) ∧
    (zeros b 1 1 = true ∧ zeros b 4 4 = true ∧ zeros b 28 4 = true ∧ zeros b 44 20 = true ∧ field b 0 1 < 64 ∧ field b 24 4 ≤ 2 ^ 24) ∧
    (s.glb.mode ≠ .holdup ∧ s.lake.ready = true) ∧
    ((s.keySlot (field b 0 1)).st = .active ∧ (s.keySlot (field b 0 1)).typ = 3) ∧
    (((s.thr t).bufPlace t (field b 16 8) (field b 24 4 + 528)).isSome = true) ∧
    ((s.thr t).bufPlace t (field b 8 8) (field b 24 4) = some q) ∧
    (s.poisoned q (field b 24 4) = false) ∧
    (s.load q (field b 24 4) = pt) ∧
    (s.woad.bseq.toNat + 1 ≤ s.woad.hw.toNat ∧ s.woad.bseq.toNat + 1 ≤ s.woad.durHw.toNat) :=
  ⟨{ State.reset with mcc.dmem := [(2, 1#8), (8, 64#8), (16, 128#8), (24, 2#8), (64, 52#8), (65, 18#8)], lake.ready := true, woad.hw := 65536, woad.durHw := 65536, woad.slots := [(0, { st := .active, typ := 3, keyid := 9, key := [7#8] })] }, 0, 0, 0, 0, .dmem 0, 0, bytesOf [0x0, 0x0, 0x1, 0x0, 0x0, 0x0, 0x0, 0x0, 0x40, 0x0, 0x0, 0x0, 0x0, 0x0, 0x0, 0x0, 0x80, 0x0, 0x0, 0x0, 0x0, 0x0, 0x0, 0x0, 0x2, 0x0, 0x0, 0x0, 0x0, 0x0, 0x0, 0x0, 0x0, 0x0, 0x0, 0x0, 0x0, 0x0, 0x0, 0x0, 0x0, 0x0, 0x0, 0x0, 0x0, 0x0, 0x0, 0x0, 0x0, 0x0, 0x0, 0x0, 0x0, 0x0, 0x0, 0x0, 0x0, 0x0, 0x0, 0x0, 0x0, 0x0, 0x0, 0x0], bytesOf [0x34, 0x12], .dmem 64, by decide, by decide, by decide, by decide, by decide, by decide, by decide, by decide, by decide, by decide⟩

theorem witness_WoadCalls_2 : ∃ (s : State) (t : Fin 256) (pi : Fin 8) (rt ra : Fin 32) (p : Place) (i : Nat) (b : List Byte),
    (s.callsAt t pi ra 0x70 64 p i = true) ∧
    (s.load p 64 = b) ∧
    (zeros b 1 1 = true ∧ zeros b 4 4 = true ∧ zeros b 28 4 = true ∧ zeros b 44 20 = true ∧ field b 0 1 < 64 ∧ field b 24 4 ≤ 2 ^ 24) ∧
    (s.glb.mode = .holdup ∨ s.lake.ready = false) :=
  ⟨{ State.reset with mcc.dmem := [] }, 0, 0, 0, 0, .dmem 0, 0, bytesOf [0x0, 0x0, 0x0, 0x0, 0x0, 0x0, 0x0, 0x0, 0x0, 0x0, 0x0, 0x0, 0x0, 0x0, 0x0, 0x0, 0x0, 0x0, 0x0, 0x0, 0x0, 0x0, 0x0, 0x0, 0x0, 0x0, 0x0, 0x0, 0x0, 0x0, 0x0, 0x0, 0x0, 0x0, 0x0, 0x0, 0x0, 0x0, 0x0, 0x0, 0x0, 0x0, 0x0, 0x0, 0x0, 0x0, 0x0, 0x0, 0x0, 0x0, 0x0, 0x0, 0x0, 0x0, 0x0, 0x0, 0x0, 0x0, 0x0, 0x0, 0x0, 0x0, 0x0, 0x0], by decide, by decide, by decide, by decide⟩

set_option Elab.async false in
theorem witness_WoadCalls_3 : ∃ (s : State) (t : Fin 256) (pi : Fin 8) (rt ra : Fin 32) (p : Place) (i : Nat) (b : List Byte) (l cert : List Byte) (q p2 : Place),
    (s.callsAt t pi ra 0x71 64 p i = true) ∧
    (s.load p 64 = b) ∧
    (zeros b 1 7 = true ∧ zeros b 28 4 = true ∧ zeros b 36 4 = true ∧ zeros b 56 8 = true) ∧
    (s.glb.mode ≠ .holdup ∧ s.lake.ready = true) ∧
    ((s.thr t).bufPlace t (field b 8 8) (field b 24 4) = some q) ∧
    (s.poisoned q (field b 24 4) = false) ∧
    (s.load q (field b 24 4) = l) ∧
    ((s.thr t).bufPlace t (field b 48 8) (256) = some p2) ∧
    (s.poisoned p2 256 = false) ∧
    (s.load p2 256 = cert) ∧
    (∀ n < field b 24 4 + 1, ((s.thr t).bufPlace t (field b 16 8) n).isSome = true) :=
  ⟨{ State.reset with mcc.dmem := [(8, 64#8), (17, 2#8), (49, 4#8)], lake.ready := true }, 0, 0, 0, 0, .dmem 0, 0, bytesOf [0x0, 0x0, 0x0, 0x0, 0x0, 0x0, 0x0, 0x0, 0x40, 0x0, 0x0, 0x0, 0x0, 0x0, 0x0, 0x0, 0x0, 0x2, 0x0, 0x0, 0x0, 0x0, 0x0, 0x0, 0x0, 0x0, 0x0, 0x0, 0x0, 0x0, 0x0, 0x0, 0x0, 0x0, 0x0, 0x0, 0x0, 0x0, 0x0, 0x0, 0x0, 0x0, 0x0, 0x0, 0x0, 0x0, 0x0, 0x0, 0x0, 0x4, 0x0, 0x0, 0x0, 0x0, 0x0, 0x0, 0x0, 0x0, 0x0, 0x0, 0x0, 0x0, 0x0, 0x0], [], bytesOf [0, 0, 0, 0, 0, 0, 0, 0, 0, 0, 0, 0, 0, 0, 0, 0, 0, 0, 0, 0, 0, 0, 0, 0, 0, 0, 0, 0, 0, 0, 0, 0, 0, 0, 0, 0, 0, 0, 0, 0, 0, 0, 0, 0, 0, 0, 0, 0, 0, 0, 0, 0, 0, 0, 0, 0, 0, 0, 0, 0, 0, 0, 0, 0, 0, 0, 0, 0, 0, 0, 0, 0, 0, 0, 0, 0, 0, 0, 0, 0, 0, 0, 0, 0, 0, 0, 0, 0, 0, 0, 0, 0, 0, 0, 0, 0, 0, 0, 0, 0, 0, 0, 0, 0, 0, 0, 0, 0, 0, 0, 0, 0, 0, 0, 0, 0, 0, 0, 0, 0, 0, 0, 0, 0, 0, 0, 0, 0, 0, 0, 0, 0, 0, 0, 0, 0, 0, 0, 0, 0, 0, 0, 0, 0, 0, 0, 0, 0, 0, 0, 0, 0, 0, 0, 0, 0, 0, 0, 0, 0, 0, 0, 0, 0, 0, 0, 0, 0, 0, 0, 0, 0, 0, 0, 0, 0, 0, 0, 0, 0, 0, 0, 0, 0, 0, 0, 0, 0, 0, 0, 0, 0, 0, 0, 0, 0, 0, 0, 0, 0, 0, 0, 0, 0, 0, 0, 0, 0, 0, 0, 0, 0, 0, 0, 0, 0, 0, 0, 0, 0, 0, 0, 0, 0, 0, 0, 0, 0, 0, 0, 0, 0, 0, 0, 0, 0, 0, 0, 0, 0, 0, 0, 0, 0, 0, 0, 0, 0, 0, 0, 0, 0, 0, 0, 0, 0], .dmem 64, .dmem 1024, by decide, by decide, by decide, by decide, by decide, by decide, by decide, by decide, by decide +kernel, by decide +kernel, by decide⟩

theorem witness_WoadCalls_4 : ∃ (s : State) (t : Fin 256) (pi : Fin 8) (rt ra : Fin 32) (p : Place) (i : Nat) (b : List Byte) (x : Session) (m : List Byte) (q : Place),
    (s.callsAt t pi ra 0x72 64 p i = true) ∧
    (s.load p 64 = b) ∧
    (field b 0 1 = 1 ∧ zeros b 8 4 = true ∧ zeros b 36 4 = true ∧ zeros b 56 8 = true) ∧
    (s.session (field b 2 2) = some x ∧ x.open_ = true) ∧
    ((s.thr t).bufPlace t (field b 24 8) (field b 32 4) = some q) ∧
    (s.poisoned q (field b 32 4) = false) ∧
    (s.load q (field b 32 4) = m) :=
  ⟨{ State.reset with mcc.dmem := [(0, 1#8), (2, 3#8), (24, 64#8), (32, 2#8), (64, 52#8), (65, 18#8)], hp.sessions := [(3, { open_ := true, ks := [5#8] })] }, 0, 0, 0, 0, .dmem 0, 0, bytesOf [0x1, 0x0, 0x3, 0x0, 0x0, 0x0, 0x0, 0x0, 0x0, 0x0, 0x0, 0x0, 0x0, 0x0, 0x0, 0x0, 0x0, 0x0, 0x0, 0x0, 0x0, 0x0, 0x0, 0x0, 0x40, 0x0, 0x0, 0x0, 0x0, 0x0, 0x0, 0x0, 0x2, 0x0, 0x0, 0x0, 0x0, 0x0, 0x0, 0x0, 0x0, 0x0, 0x0, 0x0, 0x0, 0x0, 0x0, 0x0, 0x0, 0x0, 0x0, 0x0, 0x0, 0x0, 0x0, 0x0, 0x0, 0x0, 0x0, 0x0, 0x0, 0x0, 0x0, 0x0], { open_ := true, ks := [5#8] }, bytesOf [0x34, 0x12], .dmem 64, by decide, by decide, by decide, by decide, by decide, by decide, by decide⟩

theorem witness_WoadCalls_5 : ∃ (s : State) (t : Fin 256) (pi : Fin 8) (rt ra : Fin 32) (p : Place) (i : Nat) (b : List Byte) (m : List Byte) (q : Place),
    (s.callsAt t pi ra 0x72 64 p i = true) ∧
    (s.load p 64 = b) ∧
    (field b 0 1 = 2 ∧ field b 1 1 < 64 ∧ zeros b 8 4 = true ∧ zeros b 36 4 = true ∧ zeros b 56 8 = true) ∧
    ((s.keySlot (field b 1 1)).st = .active) ∧
    ((s.thr t).bufPlace t (field b 24 8) (field b 32 4) = some q) ∧
    (s.poisoned q (field b 32 4) = false) ∧
    (s.load q (field b 32 4) = m) :=
  ⟨{ State.reset with mcc.dmem := [(0, 2#8), (1, 5#8), (24, 64#8), (32, 2#8), (64, 52#8), (65, 18#8)], woad.slots := [(5, { st := .active, typ := 3, keyid := 9, key := [7#8] })] }, 0, 0, 0, 0, .dmem 0, 0, bytesOf [0x2, 0x5, 0x0, 0x0, 0x0, 0x0, 0x0, 0x0, 0x0, 0x0, 0x0, 0x0, 0x0, 0x0, 0x0, 0x0, 0x0, 0x0, 0x0, 0x0, 0x0, 0x0, 0x0, 0x0, 0x40, 0x0, 0x0, 0x0, 0x0, 0x0, 0x0, 0x0, 0x2, 0x0, 0x0, 0x0, 0x0, 0x0, 0x0, 0x0, 0x0, 0x0, 0x0, 0x0, 0x0, 0x0, 0x0, 0x0, 0x0, 0x0, 0x0, 0x0, 0x0, 0x0, 0x0, 0x0, 0x0, 0x0, 0x0, 0x0, 0x0, 0x0, 0x0, 0x0], bytesOf [0x34, 0x12], .dmem 64, by decide, by decide, by decide, by decide, by decide, by decide, by decide⟩

theorem witness_WoadCalls_6 : ∃ (s : State) (t : Fin 256) (pi : Fin 8) (rt ra : Fin 32) (p : Place) (i : Nat) (b : List Byte),
    (s.callsAt t pi ra 0x72 64 p i = true) ∧
    (s.load p 64 = b) ∧
    (field b 0 1 = 2 ∧ field b 1 1 < 64 ∧ zeros b 8 4 = true ∧ zeros b 36 4 = true ∧ zeros b 56 8 = true) ∧
    ((s.keySlot (field b 1 1)).st ≠ .active) :=
  ⟨{ State.reset with mcc.dmem := [(0, 2#8), (1, 5#8)] }, 0, 0, 0, 0, .dmem 0, 0, bytesOf [0x2, 0x5, 0x0, 0x0, 0x0, 0x0, 0x0, 0x0, 0x0, 0x0, 0x0, 0x0, 0x0, 0x0, 0x0, 0x0, 0x0, 0x0, 0x0, 0x0, 0x0, 0x0, 0x0, 0x0, 0x0, 0x0, 0x0, 0x0, 0x0, 0x0, 0x0, 0x0, 0x0, 0x0, 0x0, 0x0, 0x0, 0x0, 0x0, 0x0, 0x0, 0x0, 0x0, 0x0, 0x0, 0x0, 0x0, 0x0, 0x0, 0x0, 0x0, 0x0, 0x0, 0x0, 0x0, 0x0, 0x0, 0x0, 0x0, 0x0, 0x0, 0x0, 0x0, 0x0], by decide, by decide, by decide, by decide⟩

theorem witness_WoadCalls_7 : ∃ (s : State) (t : Fin 256) (pi : Fin 8) (rt ra : Fin 32) (p : Place) (i : Nat) (b : List Byte) (m : List Byte) (q p2 : Place),
    (s.callsAt t pi ra 0x73 64 p i = true) ∧
    (s.load p 64 = b) ∧
    (zeros b 0 8 = true ∧ zeros b 20 4 = true ∧ zeros b 32 32 = true) ∧
    ((s.thr t).bufPlace t (field b 8 8) (field b 16 4) = some q) ∧
    (s.poisoned q (field b 16 4) = false) ∧
    (s.load q (field b 16 4) = m) ∧
    ((s.thr t).bufPlace t (field b 24 8) 48 = some p2) :=
  ⟨{ State.reset with mcc.dmem := [(8, 64#8), (16, 2#8), (25, 1#8), (64, 52#8), (65, 18#8)] }, 0, 0, 0, 0, .dmem 0, 0, bytesOf [0x0, 0x0, 0x0, 0x0, 0x0, 0x0, 0x0, 0x0, 0x40, 0x0, 0x0, 0x0, 0x0, 0x0, 0x0, 0x0, 0x2, 0x0, 0x0, 0x0, 0x0, 0x0, 0x0, 0x0, 0x0, 0x1, 0x0, 0x0, 0x0, 0x0, 0x0, 0x0, 0x0, 0x0, 0x0, 0x0, 0x0, 0x0, 0x0, 0x0, 0x0, 0x0, 0x0, 0x0, 0x0, 0x0, 0x0, 0x0, 0x0, 0x0, 0x0, 0x0, 0x0, 0x0, 0x0, 0x0, 0x0, 0x0, 0x0, 0x0, 0x0, 0x0, 0x0, 0x0], bytesOf [0x34, 0x12], .dmem 64, .dmem 256, by decide, by decide, by decide, by decide, by decide, by decide, by decide⟩

set_option Elab.async false in
theorem witness_WoadCalls_8 : ∃ (s : State) (t : Fin 256) (pi : Fin 8) (rt ra : Fin 32) (p : Place) (i : Nat) (b : List Byte) (dg pk sg : List Byte) (q1 q2 q3 : Place),
    (s.callsAt t pi ra 0x74 64 p i = true) ∧
    (s.load p 64 = b) ∧
    (zeros b 0 8 = true ∧ zeros b 32 32 = true) ∧
    ((s.thr t).bufPlace t (field b 8 8) (48) = some q1) ∧
    (s.poisoned q1 (48) = false) ∧
    (s.load q1 (48) = dg) ∧
    ((s.thr t).bufPlace t (field b 16 8) (96) = some q2) ∧
    (s.poisoned q2 (96) = false) ∧
    (s.load q2 (96) = pk) ∧
    ((s.thr t).bufPlace t (field b 24 8) (96) = some q3) ∧
    (s.poisoned q3 (96) = false) ∧
    (s.load q3 (96) = sg) ∧
    (ecdsaVerify pk dg sg = true) :=
  ⟨{ State.reset with mcc.dmem := [(9, 1#8), (16, 64#8), (24, 160#8), (64, 170#8), (65, 135#8), (66, 202#8), (67, 34#8), (68, 190#8), (69, 139#8), (70, 5#8), (71, 55#8), (72, 142#8), (73, 177#8), (74, 199#8), (75, 30#8), (76, 243#8), (77, 32#8), (78, 173#8), (79, 116#8), (80, 110#8), (81, 29#8), (82, 59#8), (83, 98#8), (84, 139#8), (85, 167#8), (86, 155#8), (87, 152#8), (88, 89#8), (89, 247#8), (90, 65#8), (91, 224#8), (92, 130#8), (93, 84#8), (94, 42#8), (95, 56#8), (96, 85#8), (97, 2#8), (98, 242#8), (99, 93#8), (100, 191#8), (101, 85#8), (102, 41#8), (103, 108#8), (104, 58#8), (105, 84#8), (106, 94#8), (107, 56#8), (108, 114#8), (109, 118#8), (110, 10#8), (111, 183#8), (112, 54#8), (113, 23#8), (114, 222#8), (115, 74#8), (116, 150#8), (117, 38#8), (118, 44#8), (119, 111#8), (120, 93#8), (121, 158#8), (122, 152#8), (123, 191#8), (124, 146#8), (125, 146#8), (126, 220#8), (127, 41#8), (128, 248#8), (129, 244#8), (130, 29#8), (131, 189#8), (132, 40#8), (133, 154#8), (134, 20#8), (135, 124#8), (136, 233#8), (137, 218#8), (138, 49#8), (139, 19#8), (140, 181#8), (141, 240#8), (142, 184#8), (143, 192#8), (144, 10#8), (145, 96#8), (146, 177#8), (147, 206#8), (148, 29#8), (149, 126#8), (150, 129#8), (151, 157#8), (152, 122#8), (153, 67#8), (154, 29#8), (155, 124#8), (156, 144#8), (157, 234#8), (158, 14#8), (159, 95#8), (160, 8#8), (161, 217#8), (162, 153#8), (163, 5#8), (164, 123#8), (165, 163#8), (166, 210#8), (167, 217#8), (168, 105#8), (169, 38#8), (171, 69#8), (172, 197#8), (173, 91#8), (174, 151#8), (175, 240#8), (176, 137#8), (177, 2#8), (178, 89#8), (179, 89#8), (180, 166#8), (181, 244#8), (182, 52#8), (183, 214#8), (184, 81#8), (185, 210#8), (186, 7#8), (187, 209#8), (188, 159#8), (189, 185#8), (190, 110#8), (191, 158#8), (192, 79#8), (193, 224#8), (194, 232#8), (195, 110#8), (196, 190#8), (197, 14#8), (198, 100#8), (199, 248#8), (200, 91#8), (201, 150#8), (202, 169#8), (203, 199#8), (204, 82#8), (205, 149#8), (206, 223#8), (207, 97#8), (208, 132#8), (209, 108#8), (210, 204#8), (211, 130#8), (212, 189#8), (213, 209#8), (214, 233#8), (215, 108#8), (216, 180#8), (217, 147#8), (219, 34#8), (220, 226#8), (221, 173#8), (222, 203#8), (223, 248#8), (224, 68#8), (225, 129#8), (226, 44#8), (227, 172#8), (228, 211#8), (229, 122#8), (230, 26#8), (231, 107#8), (232, 12#8), (233, 154#8), (234, 170#8), (235, 169#8), (236, 201#8), (237, 248#8), (238, 78#8), (239, 62#8), (240, 211#8), (241, 253#8), (242, 123#8), (243, 16#8), (244, 131#8), (245, 95#8), (246, 134#8), (247, 57#8), (248, 164#8), (249, 65#8), (250, 97#8), (251, 153#8), (252, 15#8), (253, 173#8), (254, 132#8), (255, 106#8)] }, 0, 0, 0, 0, .dmem 0, 0, bytesOf [0x0, 0x0, 0x0, 0x0, 0x0, 0x0, 0x0, 0x0, 0x0, 0x1, 0x0, 0x0, 0x0, 0x0, 0x0, 0x0, 0x40, 0x0, 0x0, 0x0, 0x0, 0x0, 0x0, 0x0, 0xA0, 0x0, 0x0, 0x0, 0x0, 0x0, 0x0, 0x0, 0x0, 0x0, 0x0, 0x0, 0x0, 0x0, 0x0, 0x0, 0x0, 0x0, 0x0, 0x0, 0x0, 0x0, 0x0, 0x0, 0x0, 0x0, 0x0, 0x0, 0x0, 0x0, 0x0, 0x0, 0x0, 0x0, 0x0, 0x0, 0x0, 0x0, 0x0, 0x0], bytesOf [0, 0, 0, 0, 0, 0, 0, 0, 0, 0, 0, 0, 0, 0, 0, 0, 0, 0, 0, 0, 0, 0, 0, 0, 0, 0, 0, 0, 0, 0, 0, 0, 0, 0, 0, 0, 0, 0, 0, 0, 0, 0, 0, 0, 0, 0, 0, 0], bytesOf [170, 135, 202, 34, 190, 139, 5, 55, 142, 177, 199, 30, 243, 32, 173, 116, 110, 29, 59, 98, 139, 167, 155, 152, 89, 247, 65, 224, 130, 84, 42, 56, 85, 2, 242, 93, 191, 85, 41, 108, 58, 84, 94, 56, 114, 118, 10, 183, 54, 23, 222, 74, 150, 38, 44, 111, 93, 158, 152, 191, 146, 146, 220, 41, 248, 244, 29, 189, 40, 154, 20, 124, 233, 218, 49, 19, 181, 240, 184, 192, 10, 96, 177, 206, 29, 126, 129, 157, 122, 67, 29, 124, 144, 234, 14, 95], bytesOf [8, 217, 153, 5, 123, 163, 210, 217, 105, 38, 0, 69, 197, 91, 151, 240, 137, 2, 89, 89, 166, 244, 52, 214, 81, 210, 7, 209, 159, 185, 110, 158, 79, 224, 232, 110, 190, 14, 100, 248, 91, 150, 169, 199, 82, 149, 223, 97, 132, 108, 204, 130, 189, 209, 233, 108, 180, 147, 0, 34, 226, 173, 203, 248, 68, 129, 44, 172, 211, 122, 26, 107, 12, 154, 170, 169, 201, 248, 78, 62, 211, 253, 123, 16, 131, 95, 134, 57, 164, 65, 97, 153, 15, 173, 132, 106], .dmem 256, .dmem 64, .dmem 160, by decide, by decide, by decide, by decide, by decide +kernel, by decide +kernel, by decide, by decide +kernel, by decide +kernel, by decide, by decide +kernel, by decide +kernel, by decide +kernel⟩

set_option Elab.async false in
theorem witness_WoadCalls_9 : ∃ (s : State) (t : Fin 256) (pi : Fin 8) (rt ra : Fin 32) (p : Place) (i : Nat) (b : List Byte) (nonce st : List Byte) (q p2 : Place),
    (s.callsAt t pi ra 0x75 64 p i = true) ∧
    (s.load p 64 = b) ∧
    (zeros b 0 8 = true ∧ zeros b 24 40 = true) ∧
    ((s.thr t).bufPlace t (field b 8 8) (32) = some p2) ∧
    (s.poisoned p2 (32) = false) ∧
    (s.load p2 (32) = nonce) ∧
    ((s.thr t).bufPlace t (field b 16 8) 448 = some q) ∧
    (s.woad.statement = some st ∧ field st 6 1 = s.attFlags ∧ st.length = 352) :=
  ⟨{ State.reset with mcc.dmem := [(8, 64#8), (17, 4#8)], woad.statement := some (bytesOf [0, 0, 0, 0, 0, 0, 8, 0, 0, 0, 0, 0, 0, 0, 0, 0, 0, 0, 0, 0, 0, 0, 0, 0, 0, 0, 0, 0, 0, 0, 0, 0, 0, 0, 0, 0, 0, 0, 0, 0, 0, 0, 0, 0, 0, 0, 0, 0, 0, 0, 0, 0, 0, 0, 0, 0, 0, 0, 0, 0, 0, 0, 0, 0, 0, 0, 0, 0, 0, 0, 0, 0, 0, 0, 0, 0, 0, 0, 0, 0, 0, 0, 0, 0, 0, 0, 0, 0, 0, 0, 0, 0, 0, 0, 0, 0, 0, 0, 0, 0, 0, 0, 0, 0, 0, 0, 0, 0, 0, 0, 0, 0, 0, 0, 0, 0, 0, 0, 0, 0, 0, 0, 0, 0, 0, 0, 0, 0, 0, 0, 0, 0, 0, 0, 0, 0, 0, 0, 0, 0, 0, 0, 0, 0, 0, 0, 0, 0, 0, 0, 0, 0, 0, 0, 0, 0, 0, 0, 0, 0, 0, 0, 0, 0, 0, 0, 0, 0, 0, 0, 0, 0, 0, 0, 0, 0, 0, 0, 0, 0, 0, 0, 0, 0, 0, 0, 0, 0, 0, 0, 0, 0, 0, 0, 0, 0, 0, 0, 0, 0, 0, 0, 0, 0, 0, 0, 0, 0, 0, 0, 0, 0, 0, 0, 0, 0, 0, 0, 0, 0, 0, 0, 0, 0, 0, 0, 0, 0, 0, 0, 0, 0, 0, 0, 0, 0, 0, 0, 0, 0, 0, 0, 0, 0, 0, 0, 0, 0, 0, 0, 0, 0, 0, 0, 0, 0, 0, 0, 0, 0, 0, 0, 0, 0, 0, 0, 0, 0, 0, 0, 0, 0, 0, 0, 0, 0, 0, 0, 0, 0, 0, 0, 0, 0, 0, 0, 0, 0, 0, 0, 0, 0, 0, 0, 0, 0, 0, 0, 0, 0, 0, 0, 0, 0, 0, 0, 0, 0, 0, 0, 0, 0, 0, 0, 0, 0, 0, 0, 0, 0, 0, 0, 0, 0, 0, 0, 0, 0, 0, 0, 0, 0, 0, 0, 0, 0, 0, 0, 0, 0, 0, 0, 0, 0, 0, 0, 0, 0, 0, 0, 0, 0]) }, 0, 0, 0, 0, .dmem 0, 0, bytesOf [0x0, 0x0, 0x0, 0x0, 0x0, 0x0, 0x0, 0x0, 0x40, 0x0, 0x0, 0x0, 0x0, 0x0, 0x0, 0x0, 0x0, 0x4, 0x0, 0x0, 0x0, 0x0, 0x0, 0x0, 0x0, 0x0, 0x0, 0x0, 0x0, 0x0, 0x0, 0x0, 0x0, 0x0, 0x0, 0x0, 0x0, 0x0, 0x0, 0x0, 0x0, 0x0, 0x0, 0x0, 0x0, 0x0, 0x0, 0x0, 0x0, 0x0, 0x0, 0x0, 0x0, 0x0, 0x0, 0x0, 0x0, 0x0, 0x0, 0x0, 0x0, 0x0, 0x0, 0x0], bytesOf [0, 0, 0, 0, 0, 0, 0, 0, 0, 0, 0, 0, 0, 0, 0, 0, 0, 0, 0, 0, 0, 0, 0, 0, 0, 0, 0, 0, 0, 0, 0, 0], bytesOf [0, 0, 0, 0, 0, 0, 8, 0, 0, 0, 0, 0, 0, 0, 0, 0, 0, 0, 0, 0, 0, 0, 0, 0, 0, 0, 0, 0, 0, 0, 0, 0, 0, 0, 0, 0, 0, 0, 0, 0, 0, 0, 0, 0, 0, 0, 0, 0, 0, 0, 0, 0, 0, 0, 0, 0, 0, 0, 0, 0, 0, 0, 0, 0, 0, 0, 0, 0, 0, 0, 0, 0, 0, 0, 0, 0, 0, 0, 0, 0, 0, 0, 0, 0, 0, 0, 0, 0, 0, 0, 0, 0, 0, 0, 0, 0, 0, 0, 0, 0, 0, 0, 0, 0, 0, 0, 0, 0, 0, 0, 0, 0, 0, 0, 0, 0, 0, 0, 0, 0, 0, 0, 0, 0, 0, 0, 0, 0, 0, 0, 0, 0, 0, 0, 0, 0, 0, 0, 0, 0, 0, 0, 0, 0, 0, 0, 0, 0, 0, 0, 0, 0, 0, 0, 0, 0, 0, 0, 0, 0, 0, 0, 0, 0, 0, 0, 0, 0, 0, 0, 0, 0, 0, 0, 0, 0, 0, 0, 0, 0, 0, 0, 0, 0, 0, 0, 0, 0, 0, 0, 0, 0, 0, 0, 0, 0, 0, 0, 0, 0, 0, 0, 0, 0, 0, 0, 0, 0, 0, 0, 0, 0, 0, 0, 0, 0, 0, 0, 0, 0, 0, 0, 0, 0, 0, 0, 0, 0, 0, 0, 0, 0, 0, 0, 0, 0, 0, 0, 0, 0, 0, 0, 0, 0, 0, 0, 0, 0, 0, 0, 0, 0, 0, 0, 0, 0, 0, 0, 0, 0, 0, 0, 0, 0, 0, 0, 0, 0, 0, 0, 0, 0, 0, 0, 0, 0, 0, 0, 0, 0, 0, 0, 0, 0, 0, 0, 0, 0, 0, 0, 0, 0, 0, 0, 0, 0, 0, 0, 0, 0, 0, 0, 0, 0, 0, 0, 0, 0, 0, 0, 0, 0, 0, 0, 0, 0, 0, 0, 0, 0, 0, 0, 0, 0, 0, 0, 0, 0, 0, 0, 0, 0, 0, 0, 0, 0, 0, 0, 0, 0, 0, 0, 0, 0, 0, 0, 0, 0, 0, 0, 0, 0], .dmem 1024, .dmem 64, by decide, by decide, by decide, by decide, by decide, by decide, by decide, by decide +kernel⟩

set_option Elab.async false in
theorem witness_WoadCalls_10 : ∃ (s : State) (t : Fin 256) (pi : Fin 8) (rt ra : Fin 32) (p : Place) (i : Nat) (b : List Byte) (d : List Byte) (q : Place),
    (s.callsAt t pi ra 0x76 64 p i = true) ∧
    (s.load p 64 = b) ∧
    (field b 0 1 = 0 ∧ field b 1 1 < 64 ∧ field b 2 2 = 80 ∧ zeros b 4 4 = true ∧ zeros b 16 48 = true) ∧
    (s.glb.mode ≠ .holdup ∧ s.lake.ready = true ∧ s.cas.pair = 0 ∧ s.woad.debugSub = false ∧ s.woad.life = .owned) ∧
    ((s.thr t).bufPlace t (field b 8 8) (80) = some q) ∧
    (s.poisoned q (80) = false) ∧
    (s.load q (80) = d) ∧
    ((s.keySlot (field b 1 1)).st ≠ .active) ∧
    (field d 0 4 = 0x424B5A57 ∧ field d 5 1 = field b 1 1 ∧ zeros d 12 4 = true ∧ zeros d 76 4 = true ∧ field d 4 1 = 1 ∧ field d 6 1 ≤ field d 7 1) ∧
    (gcmTag s.kw (slice d 16 12) (d.take 16) (slice d 28 32) = slice d 60 16) :=
  ⟨{ State.reset with mcc.dmem := [(1, 5#8), (2, 80#8), (8, 64#8), (64, 87#8), (65, 90#8), (66, 75#8), (67, 66#8), (68, 1#8), (69, 5#8), (70, 2#8), (71, 9#8), (72, 77#8), (124, 210#8), (125, 2#8), (126, 190#8), (127, 60#8), (128, 221#8), (129, 182#8), (130, 21#8), (131, 114#8), (132, 102#8), (133, 230#8), (134, 53#8), (135, 202#8), (136, 25#8), (137, 4#8), (138, 55#8), (139, 81#8)], lake.ready := true, woad.life := .owned }, 0, 0, 0, 0, .dmem 0, 0, bytesOf [0x0, 0x5, 0x50, 0x0, 0x0, 0x0, 0x0, 0x0, 0x40, 0x0, 0x0, 0x0, 0x0, 0x0, 0x0, 0x0, 0x0, 0x0, 0x0, 0x0, 0x0, 0x0, 0x0, 0x0, 0x0, 0x0, 0x0, 0x0, 0x0, 0x0, 0x0, 0x0, 0x0, 0x0, 0x0, 0x0, 0x0, 0x0, 0x0, 0x0, 0x0, 0x0, 0x0, 0x0, 0x0, 0x0, 0x0, 0x0, 0x0, 0x0, 0x0, 0x0, 0x0, 0x0, 0x0, 0x0, 0x0, 0x0, 0x0, 0x0, 0x0, 0x0, 0x0, 0x0], bytesOf [87, 90, 75, 66, 1, 5, 2, 9, 77, 0, 0, 0, 0, 0, 0, 0, 0, 0, 0, 0, 0, 0, 0, 0, 0, 0, 0, 0, 0, 0, 0, 0, 0, 0, 0, 0, 0, 0, 0, 0, 0, 0, 0, 0, 0, 0, 0, 0, 0, 0, 0, 0, 0, 0, 0, 0, 0, 0, 0, 0, 210, 2, 190, 60, 221, 182, 21, 114, 102, 230, 53, 202, 25, 4, 55, 81, 0, 0, 0, 0], .dmem 64, by decide, by decide, by decide, by decide, by decide, by decide, by decide, by decide, by decide, by decide +kernel⟩

theorem witness_WoadCalls_11 : ∃ (s : State) (t : Fin 256) (pi : Fin 8) (rt ra : Fin 32) (p : Place) (i : Nat) (b : List Byte) (d : List Byte) (q : Place),
    (s.callsAt t pi ra 0x76 64 p i = true) ∧
    (s.load p 64 = b) ∧
    (field b 0 1 = 0 ∧ field b 1 1 < 64 ∧ field b 2 2 = 80 ∧ zeros b 4 4 = true ∧ zeros b 16 48 = true) ∧
    (s.glb.mode ≠ .holdup ∧ s.lake.ready = true ∧ s.cas.pair = 0 ∧ s.woad.debugSub = false ∧ s.woad.life = .owned) ∧
    ((s.thr t).bufPlace t (field b 8 8) (80) = some q) ∧
    (s.poisoned q (80) = false) ∧
    (s.load q (80) = d) ∧
    ((s.keySlot (field b 1 1)).st ≠ .active) ∧
    (field d 0 4 ≠ 0x424B5A57) :=
  ⟨{ State.reset with mcc.dmem := [(1, 5#8), (2, 80#8), (8, 64#8), (64, 1#8), (65, 90#8), (66, 75#8), (67, 66#8), (68, 1#8), (69, 5#8), (70, 2#8), (71, 9#8), (72, 77#8), (124, 210#8), (125, 2#8), (126, 190#8), (127, 60#8), (128, 221#8), (129, 182#8), (130, 21#8), (131, 114#8), (132, 102#8), (133, 230#8), (134, 53#8), (135, 202#8), (136, 25#8), (137, 4#8), (138, 55#8), (139, 81#8)], lake.ready := true, woad.life := .owned }, 0, 0, 0, 0, .dmem 0, 0, bytesOf [0x0, 0x5, 0x50, 0x0, 0x0, 0x0, 0x0, 0x0, 0x40, 0x0, 0x0, 0x0, 0x0, 0x0, 0x0, 0x0, 0x0, 0x0, 0x0, 0x0, 0x0, 0x0, 0x0, 0x0, 0x0, 0x0, 0x0, 0x0, 0x0, 0x0, 0x0, 0x0, 0x0, 0x0, 0x0, 0x0, 0x0, 0x0, 0x0, 0x0, 0x0, 0x0, 0x0, 0x0, 0x0, 0x0, 0x0, 0x0, 0x0, 0x0, 0x0, 0x0, 0x0, 0x0, 0x0, 0x0, 0x0, 0x0, 0x0, 0x0, 0x0, 0x0, 0x0, 0x0], bytesOf [1, 90, 75, 66, 1, 5, 2, 9, 77, 0, 0, 0, 0, 0, 0, 0, 0, 0, 0, 0, 0, 0, 0, 0, 0, 0, 0, 0, 0, 0, 0, 0, 0, 0, 0, 0, 0, 0, 0, 0, 0, 0, 0, 0, 0, 0, 0, 0, 0, 0, 0, 0, 0, 0, 0, 0, 0, 0, 0, 0, 210, 2, 190, 60, 221, 182, 21, 114, 102, 230, 53, 202, 25, 4, 55, 81, 0, 0, 0, 0], .dmem 64, by decide, by decide, by decide, by decide, by decide, by decide, by decide, by decide, by decide⟩

theorem witness_WoadCalls_12 : ∃ (s : State) (t : Fin 256) (pi : Fin 8) (rt ra : Fin 32) (p : Place) (i : Nat) (b : List Byte) (bad : Option Nat) (d : List Byte) (q : Place),
    (s.callsAt t pi ra 0x76 64 p i = true) ∧
    (s.load p 64 = b) ∧
    (field b 0 1 = 1 ∧ field b 1 1 = 3 ∧ field b 2 2 = 4 ∧ zeros b 4 4 = true ∧ zeros b 16 48 = true) ∧
    (s.glb.mode ≠ .holdup ∧ s.lake.ready = true ∧ s.cas.pair = 0 ∧ s.woad.debugSub = false) ∧
    ((s.thr t).bufPlace t (field b 8 8) (4) = some q) ∧
    (s.poisoned q (4) = false) ∧
    (s.load q (4) = d) :=
  ⟨{ State.reset with mcc.dmem := [(0, 1#8), (1, 3#8), (2, 4#8), (8, 64#8), (64, 1#8), (65, 2#8)], lake.ready := true, woad.life := .owned, otp := [(1105, 1#8)] }, 0, 0, 0, 0, .dmem 0, 0, bytesOf [1, 3, 4, 0, 0, 0, 0, 0, 64, 0, 0, 0, 0, 0, 0, 0, 0, 0, 0, 0, 0, 0, 0, 0, 0, 0, 0, 0, 0, 0, 0, 0, 0, 0, 0, 0, 0, 0, 0, 0, 0, 0, 0, 0, 0, 0, 0, 0, 0, 0, 0, 0, 0, 0, 0, 0, 0, 0, 0, 0, 0, 0, 0, 0], none, bytesOf [1, 2, 0, 0], .dmem 64, by decide, by decide, by decide, by decide, by decide, by decide, by decide⟩

theorem witness_WoadCalls_13 : ∃ (s : State) (t : Fin 256) (pi : Fin 8) (rt ra : Fin 32) (p : Place) (i : Nat) (b : List Byte) (par : KeySlot),
    (s.callsAt t pi ra 0x77 64 p i = true) ∧
    (s.load p 64 = b) ∧
    (zeros b 5 3 = true ∧ zeros b 12 52 = true ∧ field b 0 1 < 64 ∧ field b 1 1 < 64 ∧ field b 2 1 = 1 ∧ field b 3 1 ≤ field b 4 1) ∧
    (s.glb.mode ≠ .holdup ∧ s.lake.ready = true ∧ s.cas.pair = 0 ∧ s.woad.debugSub = false ∧ s.woad.life = .owned) ∧
    (s.keySlot (field b 0 1) = par ∧ par.st = .active ∧ par.typ = 4 ∧ par.depth < 3) ∧
    ((s.keySlot (field b 1 1)).st ≠ .active) :=
  ⟨{ State.reset with mcc.dmem := [(0, 1#8), (1, 5#8), (2, 1#8), (4, 9#8), (8, 77#8)], lake.ready := true, woad.life := .owned, woad.slots := [(1, { st := .active, typ := 4, depth := 1, amask := 2, key := [7#8] })] }, 0, 0, 0, 0, .dmem 0, 0, bytesOf [0x1, 0x5, 0x1, 0x0, 0x9, 0x0, 0x0, 0x0, 0x4D, 0x0, 0x0, 0x0, 0x0, 0x0, 0x0, 0x0, 0x0, 0x0, 0x0, 0x0, 0x0, 0x0, 0x0, 0x0, 0x0, 0x0, 0x0, 0x0, 0x0, 0x0, 0x0, 0x0, 0x0, 0x0, 0x0, 0x0, 0x0, 0x0, 0x0, 0x0, 0x0, 0x0, 0x0, 0x0, 0x0, 0x0, 0x0, 0x0, 0x0, 0x0, 0x0, 0x0, 0x0, 0x0, 0x0, 0x0, 0x0, 0x0, 0x0, 0x0, 0x0, 0x0, 0x0, 0x0], { st := .active, typ := 4, depth := 1, amask := 2, key := [7#8] }, by decide, by decide, by decide, by decide, by decide, by decide⟩

theorem witness_WoadCalls_14 : ∃ (s : State) (t : Fin 256) (pi : Fin 8) (rt ra : Fin 32) (p : Place) (i : Nat) (b : List Byte),
    (s.callsAt t pi ra 0x78 64 p i = true) ∧
    (s.load p 64 = b) ∧
    (zeros b 2 62 = true ∧ field b 0 1 < 64 ∧ field b 1 1 = 0) ∧
    (s.cas.pair = 0 ∧ s.woad.debugSub = false) ∧
    ((s.keySlot (field b 0 1)).st = .active) :=
  ⟨{ State.reset with mcc.dmem := [(0, 5#8)], woad.slots := [(5, { st := .active, typ := 3, keyid := 9, key := [7#8] })] }, 0, 0, 0, 0, .dmem 0, 0, bytesOf [0x5, 0x0, 0x0, 0x0, 0x0, 0x0, 0x0, 0x0, 0x0, 0x0, 0x0, 0x0, 0x0, 0x0, 0x0, 0x0, 0x0, 0x0, 0x0, 0x0, 0x0, 0x0, 0x0, 0x0, 0x0, 0x0, 0x0, 0x0, 0x0, 0x0, 0x0, 0x0, 0x0, 0x0, 0x0, 0x0, 0x0, 0x0, 0x0, 0x0, 0x0, 0x0, 0x0, 0x0, 0x0, 0x0, 0x0, 0x0, 0x0, 0x0, 0x0, 0x0, 0x0, 0x0, 0x0, 0x0, 0x0, 0x0, 0x0, 0x0, 0x0, 0x0, 0x0, 0x0], by decide, by decide, by decide, by decide, by decide⟩

theorem witness_WoadCalls_15 : ∃ (s : State) (t : Fin 256) (pi : Fin 8) (rt ra : Fin 32) (p : Place) (i : Nat) (b : List Byte),
    (s.callsAt t pi ra 0x78 64 p i = true) ∧
    (s.load p 64 = b) ∧
    (zeros b 2 62 = true ∧ field b 0 1 < 64 ∧ field b 1 1 = 0) ∧
    ((s.keySlot (field b 0 1)).st = .empty) :=
  ⟨{ State.reset with mcc.dmem := [(0, 5#8)] }, 0, 0, 0, 0, .dmem 0, 0, bytesOf [0x5, 0x0, 0x0, 0x0, 0x0, 0x0, 0x0, 0x0, 0x0, 0x0, 0x0, 0x0, 0x0, 0x0, 0x0, 0x0, 0x0, 0x0, 0x0, 0x0, 0x0, 0x0, 0x0, 0x0, 0x0, 0x0, 0x0, 0x0, 0x0, 0x0, 0x0, 0x0, 0x0, 0x0, 0x0, 0x0, 0x0, 0x0, 0x0, 0x0, 0x0, 0x0, 0x0, 0x0, 0x0, 0x0, 0x0, 0x0, 0x0, 0x0, 0x0, 0x0, 0x0, 0x0, 0x0, 0x0, 0x0, 0x0, 0x0, 0x0, 0x0, 0x0, 0x0, 0x0], by decide, by decide, by decide, by decide⟩

theorem witness_WoadCalls_16 : ∃ (s : State) (t : Fin 256) (pi : Fin 8) (rt ra : Fin 32) (p : Place) (i : Nat) (b : List Byte),
    (s.callsAt t pi ra 0x78 64 p i = true) ∧
    (s.load p 64 = b) ∧
    (zeros b 2 62 = true ∧ field b 0 1 < 64 ∧ field b 1 1 = 1) ∧
    (s.cas.pair = 0 ∧ s.woad.debugSub = false) ∧
    ((s.keySlot (field b 0 1)).st = .orphaned ∧ ∀ x ∈ s.woad.slots, x.2.st = .active → x.2.amask.getLsbD (field b 0 1) = false) :=
  ⟨{ State.reset with mcc.dmem := [(0, 5#8), (1, 1#8)], woad.slots := [(5, { st := .orphaned, typ := 3, keyid := 9, key := [7#8] })] }, 0, 0, 0, 0, .dmem 0, 0, bytesOf [0x5, 0x1, 0x0, 0x0, 0x0, 0x0, 0x0, 0x0, 0x0, 0x0, 0x0, 0x0, 0x0, 0x0, 0x0, 0x0, 0x0, 0x0, 0x0, 0x0, 0x0, 0x0, 0x0, 0x0, 0x0, 0x0, 0x0, 0x0, 0x0, 0x0, 0x0, 0x0, 0x0, 0x0, 0x0, 0x0, 0x0, 0x0, 0x0, 0x0, 0x0, 0x0, 0x0, 0x0, 0x0, 0x0, 0x0, 0x0, 0x0, 0x0, 0x0, 0x0, 0x0, 0x0, 0x0, 0x0, 0x0, 0x0, 0x0, 0x0, 0x0, 0x0, 0x0, 0x0], by decide, by decide, by decide, by decide, by decide⟩

theorem witness_WoadCalls_17 : ∃ (s : State) (t : Fin 256) (pi : Fin 8) (rt ra : Fin 32) (p : Place) (i : Nat) (b : List Byte),
    (s.callsAt t pi ra 0x78 64 p i = true) ∧
    (s.load p 64 = b) ∧
    (zeros b 2 62 = true ∧ field b 0 1 < 64 ∧ field b 1 1 = 1) ∧
    ((s.keySlot (field b 0 1)).st = .active) :=
  ⟨{ State.reset with mcc.dmem := [(0, 5#8), (1, 1#8)], woad.slots := [(5, { st := .active, typ := 3, keyid := 9, key := [7#8] })] }, 0, 0, 0, 0, .dmem 0, 0, bytesOf [0x5, 0x1, 0x0, 0x0, 0x0, 0x0, 0x0, 0x0, 0x0, 0x0, 0x0, 0x0, 0x0, 0x0, 0x0, 0x0, 0x0, 0x0, 0x0, 0x0, 0x0, 0x0, 0x0, 0x0, 0x0, 0x0, 0x0, 0x0, 0x0, 0x0, 0x0, 0x0, 0x0, 0x0, 0x0, 0x0, 0x0, 0x0, 0x0, 0x0, 0x0, 0x0, 0x0, 0x0, 0x0, 0x0, 0x0, 0x0, 0x0, 0x0, 0x0, 0x0, 0x0, 0x0, 0x0, 0x0, 0x0, 0x0, 0x0, 0x0, 0x0, 0x0, 0x0, 0x0], by decide, by decide, by decide, by decide⟩

theorem witness_WoadCalls_18 : ∃ (s : State) (t : Fin 256) (pi : Fin 8) (rt ra : Fin 32) (p : Place) (i : Nat) (b : List Byte),
    (s.callsAt t pi ra 0x79 64 p i = true) ∧
    (s.load p 64 = b) ∧
    (field b 0 1 = 0 ∧ field b 1 1 < 64 ∧ zeros b 4 4 = true ∧ zeros b 20 44 = true) ∧
    (s.glb.mode ≠ .holdup ∧ s.lake.ready = true ∧ s.cas.pair = 0 ∧ s.woad.debugSub = false ∧ s.woad.life = .owned) ∧
    ((s.keySlot (field b 1 1)).st = .active ∧ (s.keySlot (field b 1 1)).typ = 1 ∧ (s.keySlot (field b 1 1)).epminNext = none) ∧
    (field b 2 1 = (s.keySlot (field b 1 1)).epmin ∧ (s.keySlot (field b 1 1)).epmax < field b 3 1 ∧ field b 2 1 ≤ field b 3 1) :=
  ⟨{ State.reset with mcc.dmem := [(1, 5#8), (2, 2#8), (3, 9#8)], lake.ready := true, woad.life := .owned, woad.slots := [(5, { st := .active, typ := 1, epmin := 2, epmax := 7 })] }, 0, 0, 0, 0, .dmem 0, 0, bytesOf [0x0, 0x5, 0x2, 0x9, 0x0, 0x0, 0x0, 0x0, 0x0, 0x0, 0x0, 0x0, 0x0, 0x0, 0x0, 0x0, 0x0, 0x0, 0x0, 0x0, 0x0, 0x0, 0x0, 0x0, 0x0, 0x0, 0x0, 0x0, 0x0, 0x0, 0x0, 0x0, 0x0, 0x0, 0x0, 0x0, 0x0, 0x0, 0x0, 0x0, 0x0, 0x0, 0x0, 0x0, 0x0, 0x0, 0x0, 0x0, 0x0, 0x0, 0x0, 0x0, 0x0, 0x0, 0x0, 0x0, 0x0, 0x0, 0x0, 0x0, 0x0, 0x0, 0x0, 0x0], by decide, by decide, by decide, by decide, by decide, by decide⟩

theorem witness_WoadCalls_19 : ∃ (s : State) (t : Fin 256) (pi : Fin 8) (rt ra : Fin 32) (p : Place) (i : Nat) (b : List Byte),
    (s.callsAt t pi ra 0x79 64 p i = true) ∧
    (s.load p 64 = b) ∧
    (field b 0 1 = 0 ∧ field b 1 1 < 64 ∧ zeros b 4 4 = true ∧ zeros b 20 44 = true) ∧
    (s.glb.mode ≠ .holdup ∧ s.lake.ready = true ∧ s.cas.pair = 0 ∧ s.woad.debugSub = false ∧ s.woad.life = .owned) ∧
    ((s.keySlot (field b 1 1)).st = .active ∧ (s.keySlot (field b 1 1)).typ = 1 ∧ (s.keySlot (field b 1 1)).epminNext = none) ∧
    ((s.keySlot (field b 1 1)).epmin < field b 2 1 ∧ (s.keySlot (field b 1 1)).epmax ≤ field b 3 1 ∧ field b 2 1 ≤ field b 3 1) :=
  ⟨{ State.reset with mcc.dmem := [(1, 5#8), (2, 4#8), (3, 9#8)], lake.ready := true, woad.life := .owned, woad.slots := [(5, { st := .active, typ := 1, epmin := 2, epmax := 7 })] }, 0, 0, 0, 0, .dmem 0, 0, bytesOf [0x0, 0x5, 0x4, 0x9, 0x0, 0x0, 0x0, 0x0, 0x0, 0x0, 0x0, 0x0, 0x0, 0x0, 0x0, 0x0, 0x0, 0x0, 0x0, 0x0, 0x0, 0x0, 0x0, 0x0, 0x0, 0x0, 0x0, 0x0, 0x0, 0x0, 0x0, 0x0, 0x0, 0x0, 0x0, 0x0, 0x0, 0x0, 0x0, 0x0, 0x0, 0x0, 0x0, 0x0, 0x0, 0x0, 0x0, 0x0, 0x0, 0x0, 0x0, 0x0, 0x0, 0x0, 0x0, 0x0, 0x0, 0x0, 0x0, 0x0, 0x0, 0x0, 0x0, 0x0], by decide, by decide, by decide, by decide, by decide, by decide⟩

theorem witness_WoadCalls_20 : ∃ (s : State) (t : Fin 256) (pi : Fin 8) (rt ra : Fin 32) (p : Place) (i : Nat) (b : List Byte),
    (s.callsAt t pi ra 0x79 64 p i = true) ∧
    (s.load p 64 = b) ∧
    (field b 0 1 = 1 ∧ field b 1 1 < 64 ∧ zeros b 4 4 = true ∧ zeros b 20 44 = true) ∧
    (s.glb.mode ≠ .holdup ∧ s.lake.ready = true ∧ s.cas.pair = 0 ∧ s.woad.debugSub = false ∧ s.woad.life = .owned) ∧
    ((s.keySlot (field b 1 1)).st = .active ∧ (s.keySlot (field b 1 1)).typ = 2) ∧
    (s.nowNs + 2000000000 ≤ field b 8 8 * 1000000000) ∧
    (s.woad.bcast.valid = true ∧ s.woad.bcast.cur = 255 ∧ field b 2 1 = 0 ∧ field b 1 1 ≠ s.woad.bcast.slot) :=
  ⟨{ State.reset with mcc.dmem := [(0, 1#8), (1, 5#8), (8, 100#8)], lake.ready := true, woad.life := .owned, woad.slots := [(5, { st := .active, typ := 2 })], woad.bcast := { valid := true, cur := 255, slot := 4 } }, 0, 0, 0, 0, .dmem 0, 0, bytesOf [0x1, 0x5, 0x0, 0x0, 0x0, 0x0, 0x0, 0x0, 0x64, 0x0, 0x0, 0x0, 0x0, 0x0, 0x0, 0x0, 0x0, 0x0, 0x0, 0x0, 0x0, 0x0, 0x0, 0x0, 0x0, 0x0, 0x0, 0x0, 0x0, 0x0, 0x0, 0x0, 0x0, 0x0, 0x0, 0x0, 0x0, 0x0, 0x0, 0x0, 0x0, 0x0, 0x0, 0x0, 0x0, 0x0, 0x0, 0x0, 0x0, 0x0, 0x0, 0x0, 0x0, 0x0, 0x0, 0x0, 0x0, 0x0, 0x0, 0x0, 0x0, 0x0, 0x0, 0x0], by decide, by decide, by decide, by decide, by decide, by decide, by decide⟩

theorem witness_WoadCalls_21 : ∃ (s : State) (t : Fin 256) (pi : Fin 8) (rt ra : Fin 32) (p : Place) (i : Nat) (b : List Byte),
    (s.callsAt t pi ra 0x79 64 p i = true) ∧
    (s.load p 64 = b) ∧
    (field b 0 1 = 2 ∧ 1 ≤ field b 1 1 ∧ field b 1 1 ≤ 6 ∧ zeros b 4 4 = true ∧ zeros b 20 44 = true) ∧
    (s.glb.mode ≠ .holdup ∧ s.lake.ready = true ∧ s.cas.pair = 0 ∧ s.woad.debugSub = false ∧ s.woad.life = .owned) ∧
    ((s.cfloor (field b 1 1)).toNat < field b 16 4) :=
  ⟨{ State.reset with mcc.dmem := [(0, 2#8), (1, 2#8), (16, 9#8)], lake.ready := true, woad.life := .owned, hp.sessions := [(3, { open_ := true, role := 2, cred := 5 })] }, 0, 0, 0, 0, .dmem 0, 0, bytesOf [0x2, 0x2, 0x0, 0x0, 0x0, 0x0, 0x0, 0x0, 0x0, 0x0, 0x0, 0x0, 0x0, 0x0, 0x0, 0x0, 0x9, 0x0, 0x0, 0x0, 0x0, 0x0, 0x0, 0x0, 0x0, 0x0, 0x0, 0x0, 0x0, 0x0, 0x0, 0x0, 0x0, 0x0, 0x0, 0x0, 0x0, 0x0, 0x0, 0x0, 0x0, 0x0, 0x0, 0x0, 0x0, 0x0, 0x0, 0x0, 0x0, 0x0, 0x0, 0x0, 0x0, 0x0, 0x0, 0x0, 0x0, 0x0, 0x0, 0x0, 0x0, 0x0, 0x0, 0x0], by decide, by decide, by decide, by decide, by decide⟩

theorem witness_WoadCommits_1 : ∃ (s : State) (n : Fin 64),
    ((s.keySlot n).tomb = true) ∧
    ((s.woad.durSlots.get {} n).tomb = true ∧ s.mackAwaited n = false) ∧
    (s.woad.queued = []) :=
  ⟨{ State.reset with woad.slots := [(5, { st := .active, typ := 1, amask := 32, tomb := true }), (6, { st := .active, typ := 1, amask := 96 })], woad.durSlots := [(5, { st := .active, typ := 1, amask := 32, tomb := true })] }, 5, by decide, by decide, by decide⟩

theorem witness_WoadCommits_2 : ∃ (s : State) (n : Fin 64),
    ((s.keySlot n).tomb = false) :=
  ⟨State.reset, 5, by decide⟩

theorem witness_WoadCommits_3 : ∃ (s : State) (n : Fin 64) (e : Nat),
    ((s.keySlot n).epminNext = some e) ∧
    ((s.woad.durSlots.get {} n).epminNext = some e ∧ s.mackAwaited (64 + n) = false) :=
  ⟨{ State.reset with woad.slots := [(5, { st := .active, typ := 1, epminNext := some 4 })], woad.durSlots := [(5, { st := .active, typ := 1, epminNext := some 4 })] }, 5, 4, by decide, by decide⟩

theorem witness_WoadCommits_4 : ∃ (s : State),
    (s.woad.pending ≠ [] ∧ s.lake.ready = true ∧ s.woad.debugSub = false) ∧
    (s.clocked = true) :=
  ⟨{ State.reset with lake.ready := true, woad.pending := [{ kind := 0, slot := 5, thread := none }] }, by decide, by decide⟩

theorem witness_WoadCommits_5 : ∃ (s : State),
    (s.woad.pending = []) :=
  ⟨State.reset, by decide⟩

theorem witness_WoadCommits_6 : ∃ (s : State) (e k till : Nat),
    (s.woad.bcast.prev = some (e, k, till)) ∧
    (s.clocked = true) :=
  ⟨{ State.reset with woad.bcast.prev := some (3, 4, 0) }, 3, 4, 0, by decide, by decide⟩

theorem witness_CascadeMessages_1 : ∃ (s : State) (h : CHead) (m : Flit) (i : Instr) (n : Nat),
    ((i, n) ∈ [(Instr.msg h m, 0x4), (Instr.bcast h m, 0x5), (Instr.topo h m, 0x2), (Instr.assign h m, 0x3), (Instr.barrier h m, 0x6), (Instr.snap h m, 0x7), (Instr.row h m, 0xA), (Instr.rframe h m, 0xB), (Instr.rdecide h m, 0xC), (Instr.mirror h m, 0xD), (Instr.mack h m, 0xE), (Instr.resync h m, 0xF), (Instr.tsync h m, 0x10), (Instr.partmap h m, 0x11), (Instr.lfetch h m, 0x12), (Instr.hello h m false, 1)]) ∧
    (flitType m = n) ∧
    (s.coresRun = true ∧ (s.cport h.port.val).st = 2) ∧
    ((s.cport h.port.val).crcGood h = false) ∧
    ((s.cport h.port.val).retrying = false ∨ h.lseq = (s.cport h.port.val).rxSeq) :=
  ⟨{ State.reset with glb.mode := .service, cas.ports := [(0, { role := 1, st := 2, credit := fullCredit })] }, { port := 0, src := 1, dst := 0, mid := 7, lseq := 0, intact := false }, .msg [5#8], .msg { port := 0, src := 1, dst := 0, mid := 7, lseq := 0, intact := false } (.msg [5#8]), 4, by decide, by decide, by decide, by decide, by decide⟩

theorem witness_CascadeMessages_2 : ∃ (s : State) (h : CHead) (m : Flit) (i : Instr) (n : Nat),
    ((i, n) ∈ [(Instr.msg h m, 0x4), (Instr.bcast h m, 0x5), (Instr.topo h m, 0x2), (Instr.assign h m, 0x3), (Instr.barrier h m, 0x6), (Instr.snap h m, 0x7), (Instr.row h m, 0xA), (Instr.rframe h m, 0xB), (Instr.rdecide h m, 0xC), (Instr.mirror h m, 0xD), (Instr.mack h m, 0xE), (Instr.resync h m, 0xF), (Instr.tsync h m, 0x10), (Instr.partmap h m, 0x11), (Instr.lfetch h m, 0x12), (Instr.hello h m false, 1)]) ∧
    (flitType m = n) ∧
    ((s.cport h.port.val).crcGood h = false ∧ (s.cport h.port.val).retrying = true ∧ h.lseq ≠ (s.cport h.port.val).rxSeq) :=
  ⟨{ State.reset with glb.mode := .service, cas.ports := [(0, { role := 1, st := 2, credit := fullCredit, retrying := true })] }, { port := 0, src := 1, dst := 0, mid := 7, lseq := 1, intact := true }, .msg [5#8], .msg { port := 0, src := 1, dst := 0, mid := 7, lseq := 1, intact := true } (.msg [5#8]), 4, by decide, by decide, by decide⟩

theorem witness_CascadeMessages_3 : ∃ (s : State) (h : CHead) (d : List Byte) (q : Nat),
    (s.coresRun = true ∧ (s.cport h.port.val).st = 2 ∧ (s.cport h.port.val).crcGood h = true) ∧
    (h.dst < 0x40 ∧ h.dst ≠ s.cas.chipId) ∧
    (s.portTo h.dst = some q ∧ q ≠ h.port.val) :=
  ⟨{ State.reset with glb.mode := .service, cas.ports := [(0, { role := 1, st := 2, credit := fullCredit }), (1, { role := 3, st := 2, credit := fullCredit, subtree := some (1, 0) })], cas.chips := 3, cas.chipId := 1, cas.master := false }, { port := 0, src := 0, dst := 2, mid := 7, lseq := 0, intact := true }, [5#8], 1, by decide, by decide, by decide⟩

theorem witness_CascadeMessages_4 : ∃ (s : State) (h : CHead) (d : List Byte),
    (s.coresRun = true ∧ (s.cport h.port.val).st = 2 ∧ (s.cport h.port.val).crcGood h = true) ∧
    (0x40 ≤ h.dst ∧ h.dst ≤ 0xFD) :=
  ⟨{ State.reset with glb.mode := .service, cas.ports := [(0, { role := 1, st := 2, credit := fullCredit })] }, { port := 0, src := 0, dst := 64, mid := 7, lseq := 0, intact := true }, [5#8], by decide, by decide⟩

theorem witness_CascadeMessages_5 : ∃ (s : State) (h : CHead) (n d k e : Nat),
    (s.hears h (.topo n d) = true) ∧
    ((s.cport h.port.val).role = 3 ∧ (s.cport h.port.val).peerStby = false) ∧
    (s.cas.master = true ∧ s.cas.pair ≠ 3 ∧ s.cas.pair ≠ 4) ∧
    ((updCport h.port.val (fun c => { c with subtree := some (n, d) }) (heard h (.topo n d) s)).subtree = some (k, e)) :=
  ⟨{ State.reset with glb.mode := .service, cas.ports := [(0, { role := 3, st := 2, credit := fullCredit })] }, { port := 0, src := 9, dst := 254, mid := 7, lseq := 0, intact := true }, 2, 1, 3, 2, by decide, by decide, by decide, by decide⟩

theorem witness_CascadeMessages_6 : ∃ (s : State) (h : CHead) (n d : Nat),
    (s.hears h (.topo n d) = true) ∧
    ((s.cport h.port.val).role = 3 ∧ (s.cport h.port.val).peerStby = false) ∧
    (s.cas.master = false) :=
  ⟨{ State.reset with glb.mode := .service, cas.ports := [(0, { role := 3, st := 2, credit := fullCredit }), (1, { role := 1, st := 2, credit := fullCredit })], cas.master := false }, { port := 0, src := 9, dst := 254, mid := 7, lseq := 0, intact := true }, 2, 1, by decide, by decide, by decide⟩

theorem witness_CascadeMessages_7 : ∃ (s : State) (h : CHead) (id d n e : Nat),
    (s.hears h (.assign id d n e) = true) ∧
    ((s.cport h.port.val).role = 1) ∧
    (s.cas.master = false ∧ s.cas.pair ≠ 3 ∧ s.cas.pair ≠ 4) :=
  ⟨{ State.reset with glb.mode := .service, cas.ports := [(0, { role := 1, st := 2, credit := fullCredit })], cas.master := false }, { port := 0, src := 0, dst := 2, mid := 7, lseq := 0, intact := true }, 2, 1, 3, 2, by decide, by decide, by decide⟩

theorem witness_CascadeMessages_8 : ∃ (s : State) (h : CHead) (d : List Byte),
    (s.hears h (.msg d) = true) ∧
    (s.casFull = false) :=
  ⟨{ State.reset with glb.mode := .service, cas.ports := [(0, { role := 1, st := 2, credit := fullCredit })] }, { port := 0, src := 1, dst := 0, mid := 7, lseq := 0, intact := true }, [5#8], by decide, by decide⟩

theorem witness_CascadeMessages_9 : ∃ (s : State) (h : CHead) (d : List Byte),
    (s.hears h (.msg d) = true) ∧
    (s.casFull = true) :=
  ⟨{ State.reset with glb.mode := .service, cas.ports := [(0, { role := 1, st := 2, credit := fullCredit })], mcc.queues := [(7, List.replicate 1024 { seq := 0, ref := 0, body := [] })] }, { port := 0, src := 1, dst := 0, mid := 7, lseq := 0, intact := true }, [5#8], by decide, by decide⟩

theorem witness_CascadeMessages_10 : ∃ (s : State) (h : CHead) (d : List Byte),
    (s.hears h (.bcast 0 d) = true ∧ h.dst = 0xFF) ∧
    (s.casFull = false) :=
  ⟨{ State.reset with glb.mode := .service, cas.ports := [(0, { role := 1, st := 2, credit := fullCredit }), (1, { role := 3, st := 2, credit := fullCredit })] }, { port := 0, src := 0, dst := 255, mid := 7, lseq := 0, intact := true }, [5#8], by decide, by decide⟩

theorem witness_CascadeMessages_11 : ∃ (s : State) (h : CHead) (d : List Byte),
    (s.hears h (.bcast 0 d) = true ∧ h.dst = 0xFE) ∧
    (s.casFull = false) :=
  ⟨{ State.reset with glb.mode := .service, cas.ports := [(0, { role := 1, st := 2, credit := fullCredit }), (1, { role := 3, st := 2, credit := fullCredit })] }, { port := 0, src := 0, dst := 254, mid := 7, lseq := 0, intact := true }, [5#8], by decide, by decide⟩

theorem witness_CascadeMessages_12 : ∃ (s : State) (h : CHead),
    (s.hears h (.bcast 1 []) = true ∧ h.dst = 0xFF) :=
  ⟨{ State.reset with glb.mode := .service, cas.ports := [(0, { role := 1, st := 2, credit := fullCredit }), (1, { role := 3, st := 2, credit := fullCredit })] }, { port := 0, src := 0, dst := 255, mid := 7, lseq := 0, intact := true }, by decide⟩

theorem witness_CascadeMessages_13 : ∃ (s : State) (h : CHead) (bid first tmo : Nat) (x : Barrier),
    (s.hears { h with dst := s.cas.chipId } (.barrierArrive bid first tmo) = true) ∧
    (s.barrier bid = some x ∧ x.own = false) :=
  ⟨{ State.reset with glb.mode := .service, cas.ports := [(0, { role := 3, st := 2, credit := fullCredit })], cas.barriers := [(5, { first := 9, tmo := 3 })] }, { port := 0, src := 1, dst := 0, mid := 7, lseq := 0, intact := true }, 5, 8, 4, { first := 9, tmo := 3 }, by decide, by decide⟩

theorem witness_CascadeMessages_14 : ∃ (s : State) (h : CHead) (bid first tmo : Nat) (x : Barrier),
    (s.hears { h with dst := s.cas.chipId } (.barrierArrive bid first tmo) = true) ∧
    (s.barrier bid = some x ∧ x.own = true) ∧
    (s.cas.master = true ∧ (s.children.map (·.1)).all (fun q => q == h.port.val || x.ports.contains q) = true) :=
  ⟨{ State.reset with glb.mode := .service, cas.ports := [(0, { role := 3, st := 2, credit := fullCredit })], cas.barriers := [(5, { own := true, first := 9, tmo := 3 })] }, { port := 0, src := 1, dst := 0, mid := 7, lseq := 0, intact := true }, 5, 8, 4, { own := true, first := 9, tmo := 3 }, by decide, by decide, by decide⟩

theorem witness_CascadeMessages_15 : ∃ (s : State) (h : CHead) (bid : Nat) (ok : Bool),
    (s.hears h (.barrierRelease bid ok) = true ∧ h.dst = 0xFF) ∧
    ((s.barrier bid).isSome = true) :=
  ⟨{ State.reset with glb.mode := .service, cas.ports := [(0, { role := 1, st := 2, credit := fullCredit })], cas.barriers := [(5, { own := true })] }, { port := 0, src := 0, dst := 255, mid := 7, lseq := 0, intact := true }, 5, false, by decide, by decide⟩

theorem witness_CascadeMessages_16 : ∃ (s : State) (bid : Fin 256) (x : Barrier),
    (s.barrier bid = some x) ∧
    (x.first + x.tmo * 1000 ≤ s.nowNs ∧ s.coresRun = true) :=
  ⟨{ State.reset with glb.mode := .service, cas.ports := [(0, { role := 3, st := 2, credit := fullCredit })], tmu.sec := 5, cas.barriers := [(5, { own := true, first := 9, tmo := 3 })] }, 5, { own := true, first := 9, tmo := 3 }, by decide, by decide⟩

theorem witness_CascadeMessages_17 : ∃ (s : State) (bid : Fin 256) (x : Barrier),
    (s.barrier bid = some x) ∧
    (s.nowNs < x.first + x.tmo * 1000) :=
  ⟨{ State.reset with cas.barriers := [(5, { own := true, first := 9, tmo := 3 })] }, 5, { own := true, first := 9, tmo := 3 }, by decide, by decide⟩

theorem witness_CascadeMessages_18 : ∃ (s : State) (h : CHead) (no a : Nat) (l : List Nat),
    (s.hears h (.snap no) = true) ∧
    (s.cas.snapDue = some (no, a, l)) :=
  ⟨{ State.reset with glb.mode := .service, cas.ports := [(0, { role := 3, st := 2, credit := fullCredit })], cas.snapDue := some (4, 9, [1, 2]) }, { port := 0, src := 1, dst := 254, mid := 7, lseq := 0, intact := true }, 4, 9, [1, 2], by decide, by decide⟩

theorem witness_CascadeMessages_19 : ∃ (s : State),
    ((s.row 10).action = 6 ∧ (s.row 10).at_ ≤ s.nowNs) ∧
    (s.coresRun = true ∧ s.tmu.valid = true) ∧
    (s.cas.pair = 0 ∧ s.cas.master = false) :=
  ⟨{ State.reset with glb.mode := .service, cas.ports := [(0, { role := 1, st := 2, credit := fullCredit })], cas.master := false, tmu.sec := 100, tmu.valid := true, tmu.rows := [(10, { tS := 100, action := 6, flags := 5, arg := 7, t0 := 100 })], ctr := [(5, 6)] }, by decide, by decide, by decide⟩

theorem witness_CascadeMessages_20 : ∃ (s : State),
    ((s.row 10).action = 6 ∧ (s.row 10).at_ ≤ s.nowNs) ∧
    (s.coresRun = true ∧ s.tmu.valid = false) ∧
    (s.cas.pair = 0) :=
  ⟨{ State.reset with glb.mode := .service, cas.ports := [(0, { role := 1, st := 2, credit := fullCredit })], tmu.sec := 100, tmu.rows := [(10, { tS := 100, action := 6, flags := 5, arg := 7, t0 := 100 })] }, by decide, by decide, by decide⟩

theorem witness_CascadeMessages_21 : ∃ (s : State) (n a : Nat) (l : List Nat),
    (s.cas.snapDue = some (n, a, l)) ∧
    (a + 5000000 ≤ s.nowNs) ∧
    (s.coresRun = true) :=
  ⟨{ State.reset with tmu.sec := 5, cas.snapDue := some (4, 9, [1, 2]) }, 4, 9, [1, 2], by decide, by decide, by decide⟩

theorem witness_CascadeMessages_22 : ∃ (s : State) (n a : Nat) (l : List Nat),
    (s.cas.snapDue = some (n, a, l)) ∧
    (s.nowNs < a + 5000000) :=
  ⟨{ State.reset with cas.snapDue := some (4, 9, [1, 2]) }, 4, 9, [1, 2], by decide, by decide⟩

theorem witness_CascadeMessages_23 : ∃ (s : State) (h : CHead) (i w : Nat) (r : Row),
    (s.hears h (.row i r w) = true ∧ h.dst = 0xFF) ∧
    (i ≠ 9 ∧ s.cas.pair = 0) :=
  ⟨{ State.reset with glb.mode := .service, cas.ports := [(0, { role := 1, st := 2, credit := fullCredit }), (1, { role := 3, st := 2, credit := fullCredit })] }, { port := 0, src := 0, dst := 255, mid := 7, lseq := 0, intact := true }, 90, 0, { tS := 100, action := 7 }, by decide, by decide⟩

theorem witness_CascadeMessages_24 : ∃ (s : State) (h : CHead) (i chip a : Nat) (l : List Nat),
    (s.hears h (.rowOk i chip) = true) ∧
    (firstWhere (fun (a : Nat × List Nat × Nat) => a.1 == i) s.tmu.awaiting = some (i, l, a)) :=
  ⟨{ State.reset with glb.mode := .service, cas.ports := [(0, { role := 3, st := 2, credit := fullCredit })], tmu.awaiting := [(90, [1, 2], 4)] }, { port := 0, src := 1, dst := 254, mid := 7, lseq := 0, intact := true }, 90, 1, 4, [1, 2], by decide, by decide⟩

theorem witness_CascadeMessages_25 : ∃ (s : State) (idx : Fin 512) (a : Nat) (l : List Nat),
    (firstWhere (fun (a : Nat × List Nat × Nat) => a.1 == idx.val) s.tmu.awaiting = some (idx.val, l, a)) ∧
    (a + 5000000 ≤ s.nowNs) ∧
    (s.clocked = true) :=
  ⟨{ State.reset with tmu.sec := 5, tmu.awaiting := [(90, [1, 2], 4)] }, 90, 4, [1, 2], by decide, by decide, by decide⟩

theorem witness_CascadeMessages_26 : ∃ (s : State) (idx : Fin 512) (a : Nat) (l : List Nat),
    (firstWhere (fun (a : Nat × List Nat × Nat) => a.1 == idx.val) s.tmu.awaiting = some (idx.val, l, a)) ∧
    (s.nowNs < a + 5000000) :=
  ⟨{ State.reset with tmu.awaiting := [(90, [1, 2], 4)] }, 90, 4, [1, 2], by decide, by decide⟩

set_option Elab.async false in
theorem witness_CascadeMessages_27 : ∃ (s : State) (h : CHead) (src fe lsa q : Nat) (dr : Bool) (f : List Byte) (v : State),
    (s.hears h (.rframe src fe dr lsa f) = true) ∧
    (heard h (.rframe src fe dr lsa f) s = v) ∧
    (v.ownerChip (frMa f) ≠ s.cas.chipId) ∧
    (s.portTo h.src = some q) :=
  ⟨{ State.reset with glb.mode := .service, cas.ports := [(0, { role := 1, st := 2, credit := fullCredit })], cas.chips := 4, cas.chipId := 1, cas.master := false, cas.partMap := some [], woad.life := .owned }, { port := 0, src := 0, dst := 1, mid := 7, lseq := 0, intact := true }, 300, 9, 2, 0, true, [], heard { port := 0, src := 0, dst := 1, mid := 7, lseq := 0, intact := true } (.rframe 300 9 true 2 []) { State.reset with glb.mode := .service, cas.ports := [(0, { role := 1, st := 2, credit := fullCredit })], cas.chips := 4, cas.chipId := 1, cas.master := false, cas.partMap := some [], woad.life := .owned }, by decide, rfl, by decide +kernel, by decide⟩

theorem witness_CascadeMessages_28 : ∃ (s : State) (h : CHead) (src fe lsa : Nat) (dr : Bool) (f : List Byte) (v : State),
    (s.hears h (.rframe src fe dr lsa f) = true) ∧
    (heard h (.rframe src fe dr lsa f) s = v) ∧
    (v.ownerChip (frMa f) = s.cas.chipId) :=
  ⟨{ State.reset with glb.mode := .service, cas.ports := [(0, { role := 1, st := 2, credit := fullCredit })], cas.chips := 4, cas.chipId := 1, cas.master := false, cas.partMap := some [] }, { port := 0, src := 0, dst := 1, mid := 7, lseq := 0, intact := true }, 300, 9, 2, true, [], heard { port := 0, src := 0, dst := 1, mid := 7, lseq := 0, intact := true } (.rframe 300 9 true 2 []) { State.reset with glb.mode := .service, cas.ports := [(0, { role := 1, st := 2, credit := fullCredit })], cas.chips := 4, cas.chipId := 1, cas.master := false, cas.partMap := some [] }, by decide, rfl, by decide⟩

theorem witness_CascadeMessages_29 : ∃ (s : State) (h : CHead) (mid code : Nat) (a : Option (Nat × Bool × List Byte)),
    (s.hears h (.rdecide mid code a) = true) ∧
    (∀ r ∈ s.cas.remotes, r.mid ≠ mid) :=
  ⟨{ State.reset with glb.mode := .service, cas.ports := [(0, { role := 1, st := 2, credit := fullCredit })] }, { port := 0, src := 0, dst := 0, mid := 7, lseq := 0, intact := true }, 7, 2, none, by decide, by decide⟩

theorem witness_CascadeMessages_30 : ∃ (s : State) (h : CHead) (mid code : Nat) (r : Remote),
    (s.hears h (.rdecide mid code none) = true) ∧
    (firstWhere (fun (r : Remote) => r.mid == mid) s.cas.remotes = some r) ∧
    (r.src < 256 ∧ code < 64) :=
  ⟨{ State.reset with glb.mode := .service, cas.ports := [(0, { role := 1, st := 2, credit := fullCredit })], cas.remotes := [{ mid := 7, src := 5, layer := 0, frameEnd := 0, rate := 1, unsync := false }] }, { port := 0, src := 0, dst := 0, mid := 7, lseq := 0, intact := true }, 7, 2, { mid := 7, src := 5, layer := 0, frameEnd := 0, rate := 1, unsync := false }, by decide, by decide, by decide⟩

theorem witness_CascadeMessages_31 : ∃ (s : State) (h : CHead) (mid code rate : Nat) (dup : Bool) (f : List Byte) (r : Remote),
    (s.hears h (.rdecide mid code (some (rate, dup, f))) = true) ∧
    (firstWhere (fun (r : Remote) => r.mid == mid) s.cas.remotes = some r) ∧
    (r.src < 256 ∧ code < 64) ∧
    (s.nowNs + (s.rport (r.src / 64)).desc.txPath ≤ r.frameEnd + 50000000) :=
  ⟨{ State.reset with glb.mode := .service, cas.ports := [(0, { role := 1, st := 2, credit := fullCredit })], cas.remotes := [{ mid := 7, src := 5, layer := 0, frameEnd := 9, rate := 1, unsync := false }] }, { port := 0, src := 0, dst := 0, mid := 7, lseq := 0, intact := true }, 7, 0, 1, false, [5#8], { mid := 7, src := 5, layer := 0, frameEnd := 9, rate := 1, unsync := false }, by decide, by decide, by decide, by decide⟩

theorem witness_CascadeMessages_32 : ∃ (s : State) (mid : BitVec 16) (r : Remote),
    (firstWhere (fun (r : Remote) => r.mid == mid.toNat) s.cas.remotes = some r) ∧
    (r.frameEnd + 30000000 ≤ s.nowNs) ∧
    (s.coresRun = true) :=
  ⟨{ State.reset with tmu.sec := 1, cas.remotes := [{ mid := 7, src := 5, layer := 0, frameEnd := 9, rate := 1, unsync := false }] }, 7, { mid := 7, src := 5, layer := 0, frameEnd := 9, rate := 1, unsync := false }, by decide, by decide, by decide⟩

theorem witness_CascadeMessages_33 : ∃ (s : State) (mid : BitVec 16) (r : Remote),
    (firstWhere (fun (r : Remote) => r.mid == mid.toNat) s.cas.remotes = some r) ∧
    (s.nowNs < r.frameEnd + 30000000) :=
  ⟨{ State.reset with cas.remotes := [{ mid := 7, src := 5, layer := 0, frameEnd := 9, rate := 1, unsync := false }] }, 7, { mid := 7, src := 5, layer := 0, frameEnd := 9, rate := 1, unsync := false }, by decide, by decide⟩

theorem witness_CascadeMessages_34 : ∃ (s : State) (h : CHead) (l : List Nat),
    (s.hears h (.partmap l) = true ∧ h.dst = 0xFF) ∧
    (s.cas.pair = 0) :=
  ⟨{ State.reset with glb.mode := .service, cas.ports := [(0, { role := 1, st := 2, credit := fullCredit }), (1, { role := 3, st := 2, credit := fullCredit })] }, { port := 0, src := 0, dst := 255, mid := 7, lseq := 0, intact := true }, [1, 0, 1], by decide, by decide⟩

theorem witness_CascadeMessages_35 : ∃ (s : State) (h : CHead) (mh : Nat),
    (s.hears h (.lfetch mh) = true) :=
  ⟨{ State.reset with glb.mode := .service, cas.ports := [(0, { role := 4, st := 2, credit := fullCredit })] }, { port := 0, src := 0, dst := 0, mid := 7, lseq := 0, intact := true }, 3, by decide⟩

theorem witness_CascadeMessages_36 : ∃ (s : State) (h : CHead) (mh : Nat) (x : Meter),
    (s.hears h (.lfetched mh (some x)) = true) :=
  ⟨{ State.reset with glb.mode := .service, cas.ports := [(0, { role := 4, st := 2, credit := fullCredit })], ldg.live.meters := [(3, { corrupt := true })] }, { port := 0, src := 0, dst := 0, mid := 7, lseq := 0, intact := true }, 3, { closed := [] }, by decide⟩

theorem witness_CascadeMessages_37 : ∃ (s : State) (port : Fin 4),
    ((s.cport port).role ∈ [1, 2] ∧ (s.cport port).st = 2 ∧ s.coresRun = true) ∧
    (∀ a, (s.cport port).tsyncAt = some a → a + 16000000 ≤ s.nowNs) ∧
    ((s.cport port).txq = [] ∧ (s.cport port).cur = none ∧ 0 < (s.cport port).credit.get 0 0) :=
  ⟨{ State.reset with glb.mode := .service, cas.ports := [(0, { role := 1, st := 2, credit := fullCredit })], tmu.sec := 3 }, 0, by decide, by decide, by decide⟩

theorem witness_CascadeMessages_38 : ∃ (s : State) (port : Fin 4) (a : Nat),
    ((s.cport port).tsyncAt = some a ∧ s.nowNs < a + 16000000) :=
  ⟨{ State.reset with glb.mode := .service, cas.ports := [(0, { role := 1, st := 2, credit := fullCredit, tsyncAt := some 5 })] }, 0, 5, by decide⟩

theorem witness_CascadeMessages_39 : ∃ (s : State) (port : Fin 4),
    ((s.cport port).role ∉ [1, 2] ∨ (s.cport port).st ≠ 2) :=
  ⟨State.reset, 0, by decide⟩

theorem witness_CascadeMessages_40 : ∃ (s : State) (h : CHead) (a b : Nat),
    (s.hears h (.tsync 1 a b) = true) ∧
    ((s.cport h.port.val).role = 3) :=
  ⟨{ State.reset with glb.mode := .service, cas.ports := [(0, { role := 3, st := 2, credit := fullCredit })] }, { port := 0, src := 1, dst := 0, mid := 7, lseq := 0, intact := true }, 0, 0, by decide, by decide⟩

theorem witness_CascadeMessages_41 : ∃ (s : State) (h : CHead) (a b t1 : Nat),
    (s.hears h (.tsync 2 a b) = true) ∧
    ((s.cport h.port.val).tsyncT1 = some t1) ∧
    ((s.cport h.port.val).role ≠ 1 ∨ s.tmu.sel.kind ≠ 3) :=
  ⟨{ State.reset with glb.mode := .service, cas.ports := [(0, { role := 1, st := 2, credit := fullCredit, tsyncT1 := some 100 })], tmu.ns := 900 }, { port := 0, src := 0, dst := 1, mid := 7, lseq := 0, intact := true }, 300, 400, 100, by decide, by decide, by decide⟩

theorem witness_CascadeMessages_42 : ∃ (s : State) (h : CHead) (a b t1 : Nat),
    (s.hears h (.tsync 2 a b) = true) ∧
    ((s.cport h.port.val).tsyncT1 = some t1 ∧ (s.cport h.port.val).delays = [] ∧ a ≤ b ∧ t1 ≤ s.nowNs ∧ (s.cport h.port.val).role = 1) ∧
    (s.tmu.sel.kind = 3 ∧ s.glb.clkSrc = false ∧ s.tmu.st ≠ .locked) ∧
    (b + (s.nowNs - t1 - (b - a)) / 2 ≤ s.nowNs ∧ s.nowNs ≤ b + 1000000000) :=
  ⟨{ State.reset with glb.mode := .service, cas.ports := [(0, { role := 1, st := 2, credit := fullCredit, tsyncT1 := some 100 })], tmu.ns := 900, tmu.sel := { kind := 3 } }, { port := 0, src := 0, dst := 1, mid := 7, lseq := 0, intact := true }, 300, 400, 100, by decide, by decide, by decide, by decide⟩

theorem witness_CascadeMessages_43 : ∃ (s : State) (port : Fin 4) (seq crc : BitVec 16),
    (s.coresRun = true ∧ (s.cport port).st = 2) ∧
    (wordOk 1 0 seq.toNat 0 crc = true) :=
  ⟨{ State.reset with glb.mode := .service, cas.ports := [(1, { role := 3, st := 2, credit := fullCredit, unacked := [{ src := 0, dst := 1, mid := 2, m := .snap 3, lseq := 4, count := 1 }] })] }, 1, 4, BitVec.ofNat 16 (crc16 (le 1 1 ++ le 1 0 ++ le 2 4 ++ le 2 0)), by decide, by decide⟩

theorem witness_CascadeMessages_44 : ∃ (s : State) (port : Fin 4) (seq crc : BitVec 16) (i : Instr) (k a n : Nat),
    (s.coresRun = true ∧ (s.cport port).st = 2) ∧
    ((i, k, a, n) ∈ [(Instr.linkAck port seq crc, 1, 0, 0), (Instr.linkRetry port seq crc, 2, 0, 0), (Instr.linkCredit port 2 9 crc, 3, 2, 9)]) ∧
    (wordOk k a (if k = 3 then 0 else seq.toNat) n crc = false) :=
  ⟨{ State.reset with glb.mode := .service, cas.ports := [(1, { role := 3, st := 2, credit := fullCredit })] }, 1, 4, 5, .linkAck 1 4 5, 1, 0, 0, by decide, by decide, by decide⟩

theorem witness_CascadeMessages_45 : ∃ (s : State) (port : Fin 4) (seq crc : BitVec 16) (n : Nat),
    (s.coresRun = true ∧ (s.cport port).st = 2 ∧ wordOk 2 0 seq.toNat 0 crc = true) ∧
    ((if (s.cport port).retrySeq = seq.toNat then (s.cport port).retries + 1 else 1) = n) ∧
    (n ≤ 16) :=
  ⟨{ State.reset with glb.mode := .service, cas.ports := [(1, { role := 3, st := 2, credit := fullCredit, txSeq := 6, unacked := [{ src := 0, dst := 1, mid := 2, m := .snap 3, lseq := 4, count := 1 }] })] }, 1, 4, BitVec.ofNat 16 (crc16 (le 1 2 ++ le 1 0 ++ le 2 4 ++ le 2 0)), 1, by decide, by decide, by decide⟩

theorem witness_CascadeMessages_46 : ∃ (s : State) (port : Fin 4) (seq crc : BitVec 16),
    (s.coresRun = true ∧ (s.cport port).st = 2 ∧ wordOk 2 0 seq.toNat 0 crc = true) ∧
    ((s.cport port).retrySeq = seq.toNat ∧ 16 ≤ (s.cport port).retries) ∧
    (s.cas.master = false ∨ s.cas.pair = 3) :=
  ⟨{ State.reset with glb.mode := .service, cas.ports := [(1, { role := 3, st := 2, credit := fullCredit, retries := 16, retrySeq := 4 }), (2, { role := 1, st := 2, credit := fullCredit })], cas.master := false }, 1, 4, BitVec.ofNat 16 (crc16 (le 1 2 ++ le 1 0 ++ le 2 4 ++ le 2 0)), by decide, by decide, by decide⟩

theorem witness_CascadeMessages_47 : ∃ (s : State) (port : Fin 4) (cls : Fin 4) (n crc : BitVec 16),
    (s.coresRun = true ∧ (s.cport port).st = 2 ∧ wordOk 3 cls.val 0 n.toNat crc = true) ∧
    ((s.cport port).txq = [] ∧ (s.cport port).cur = none) :=
  ⟨{ State.reset with glb.mode := .service, cas.ports := [(1, { role := 3, st := 2, credit := [(0, 3)] })] }, 1, 0, 5, BitVec.ofNat 16 (crc16 (le 1 3 ++ le 1 0 ++ le 2 0 ++ le 2 5)), by decide, by decide⟩

theorem witness_CascadeMessages_48 : ∃ (s : State) (port : Fin 4) (cls : Fin 4) (n crc : BitVec 16),
    (s.coresRun = true ∧ (s.cport port).st = 2 ∧ wordOk 3 cls.val 0 n.toNat crc = true) :=
  ⟨{ State.reset with glb.mode := .service, cas.ports := [(1, { role := 3, st := 2, credit := [], txq := [{ src := 0, dst := 1, mid := 2, m := .snap 3 }] })] }, 1, 0, 5, BitVec.ofNat 16 (crc16 (le 1 3 ++ le 1 0 ++ le 2 0 ++ le 2 5)), by decide⟩

theorem witness_CascadeMessages_49 : ∃ (s : State) (port : Fin 4),
    ((s.cport port).st = 4 ∧ (s.cport port).role ≠ 0 ∧ (s.cport port).failedAt + 100000000 ≤ s.nowNs ∧ s.coresRun = true) :=
  ⟨{ State.reset with glb.mode := .service, cas.ports := [(1, { role := 3, st := 4, credit := fullCredit })], tmu.sec := 3 }, 1, by decide⟩

theorem witness_CascadeMessages_50 : ∃ (s : State) (port : Fin 4),
    ((s.cport port).st ≠ 4 ∨ s.nowNs < (s.cport port).failedAt + 100000000) :=
  ⟨State.reset, 1, by decide⟩

theorem witness_CascadeMessages_51 : ∃ (s : State) (port : Fin 4),
    (((s.cport port).st = 2 ∨ (s.cport port).st = 3) ∧ (s.cport port).role ≠ 0 ∧ s.coresRun = true) ∧
    (s.cas.master = false ∨ s.cas.pair = 3) :=
  ⟨{ State.reset with glb.mode := .service, cas.ports := [(1, { role := 3, st := 2, credit := fullCredit }), (2, { role := 1, st := 2, credit := fullCredit })], cas.master := false }, 1, by decide, by decide⟩

theorem witness_CascadeMessages_52 : ∃ (s : State) (port : Fin 4),
    ((s.cport port).st ≠ 2 ∧ (s.cport port).st ≠ 3) :=
  ⟨State.reset, 1, by decide⟩

theorem witness_CascadeMessages_53 : ∃ (s : State) (p : Nat × CPort),
    (s.cas.master = false ∧ s.cas.detached = false ∧ s.upPort = none ∧ s.coresRun = true) ∧
    (s.cas.pair ≠ 3 ∧ s.cas.pair ≠ 4) ∧
    (firstWhere (fun (x : Nat × CPort) => x.2.role == 1) s.cas.ports = some p) :=
  ⟨{ State.reset with glb.mode := .service, cas.ports := [(1, { role := 1, st := 4, credit := fullCredit })], cas.master := false }, (1, { role := 1, st := 4, credit := fullCredit }), by decide, by decide, by decide⟩

theorem witness_CascadeMessages_54 : ∃ (s : State),
    (s.cas.master = true ∨ s.cas.detached = true ∨ s.upPort.isSome = true) :=
  ⟨State.reset, by decide⟩

theorem witness_CascadePairs_1 : ∃ (s : State) (h : CHead) (sr ow pr pf ps id : Nat) (bd : List Byte) (longer : Bool),
    (s.coresRun = true ∧ (s.cport h.port.val).crcGood h = true ∧ ¬ (0x40 ≤ h.dst ∧ h.dst ≤ 0xFD)) ∧
    ((s.cport h.port.val).st = 1 ∨ (s.cport h.port.val).st = 3) ∧
    (s.helloFits (s.cport h.port.val).role ow pr pf bd = false) :=
  ⟨{ State.reset with glb.mode := .service, cas.ports := [(0, { role := 1, st := 1, credit := fullCredit })] }, { port := 0, src := 1, dst := 254, mid := 7, lseq := 0, intact := true }, 5, 9, 3, 0, 0, 1, [], false, by decide, by decide, by decide⟩

theorem witness_CascadePairs_2 : ∃ (s : State) (h : CHead) (sr ow pr pf ps id : Nat) (bd : List Byte) (longer : Bool),
    (s.coresRun = true ∧ (s.cport h.port.val).crcGood h = true ∧ ¬ (0x40 ≤ h.dst ∧ h.dst ≤ 0xFD)) ∧
    ((s.cport h.port.val).st = 1 ∨ (s.cport h.port.val).st = 3) ∧
    (s.helloFits (s.cport h.port.val).role ow pr pf bd = true) ∧
    ((s.cport h.port.val).role ≠ 4 ∧ s.cas.master = false) :=
  ⟨{ State.reset with glb.mode := .service, cas.ports := [(0, { role := 1, st := 1, credit := fullCredit })], cas.master := false }, { port := 0, src := 1, dst := 254, mid := 7, lseq := 0, intact := true }, 5, 0, 3, 0, 0, 1, [], false, by decide, by decide, by decide, by decide⟩

theorem witness_CascadePairs_3 : ∃ (s : State) (h : CHead) (sr ow pr pf ps id : Nat) (bd : List Byte) (longer : Bool),
    (s.coresRun = true ∧ (s.cport h.port.val).crcGood h = true ∧ ¬ (0x40 ≤ h.dst ∧ h.dst ≤ 0xFD)) ∧
    ((s.cport h.port.val).role = 4 ∧ (s.cport h.port.val).st = 2) ∧
    (s.helloFits (s.cport h.port.val).role ow pr pf bd = true) ∧
    (s.cas.pair = 0 ∧ s.cas.paired = true ∧ s.cas.twinRestart = none) ∧
    (s.cas.primary = true ∧ ps = 0) ∧
    (s.glb.mode = .service) :=
  ⟨{ State.reset with glb.mode := .service, cas.ports := [(0, { role := 4, st := 2, credit := fullCredit })], cas.paired := true, cas.primary := true }, { port := 0, src := 1, dst := 254, mid := 7, lseq := 0, intact := true }, 5, 0, 4, 0, 0, 1, [], false, by decide, by decide, by decide, by decide, by decide, by decide⟩

theorem witness_CascadePairs_4 : ∃ (s : State) (h : CHead) (sr ow pr pf ps id : Nat) (bd : List Byte) (longer : Bool),
    (s.coresRun = true ∧ (s.cport h.port.val).crcGood h = true ∧ ¬ (0x40 ≤ h.dst ∧ h.dst ≤ 0xFD)) ∧
    ((s.cport h.port.val).role = 4 ∧ (s.cport h.port.val).st = 2) ∧
    (s.helloFits (s.cport h.port.val).role ow pr pf bd = true) ∧
    (s.cas.pair = 0 ∧ s.cas.paired = true ∧ s.cas.twinRestart = none) ∧
    (s.cas.primary = false ∨ ps = 1 ∨ ps = 2) :=
  ⟨{ State.reset with glb.mode := .service, cas.ports := [(0, { role := 4, st := 2, credit := fullCredit })], cas.paired := true, cas.primary := true }, { port := 0, src := 1, dst := 254, mid := 7, lseq := 0, intact := true }, 5, 0, 4, 0, 2, 1, [], false, by decide, by decide, by decide, by decide, by decide⟩

theorem witness_CascadePairs_5 : ∃ (s : State) (h : CHead) (sr ow pr pf ps id : Nat) (bd : List Byte) (longer : Bool),
    (s.coresRun = true ∧ (s.cport h.port.val).crcGood h = true ∧ ¬ (0x40 ≤ h.dst ∧ h.dst ≤ 0xFD)) ∧
    ((s.cport h.port.val).role = 4 ∧ (s.cport h.port.val).st = 2) ∧
    (s.helloFits (s.cport h.port.val).role ow pr pf bd = true) ∧
    (s.cas.pair = 1 ∨ s.cas.pair = 2) ∧
    (ps = 4) :=
  ⟨{ State.reset with glb.mode := .service, cas.ports := [(0, { role := 4, st := 2, credit := fullCredit })], cas.paired := true, cas.pair := 1, cas.primary := true }, { port := 0, src := 1, dst := 254, mid := 7, lseq := 0, intact := true }, 5, 0, 4, 0, 4, 1, [], false, by decide, by decide, by decide, by decide, by decide⟩

theorem witness_CascadePairs_6 : ∃ (s : State) (h : CHead) (sr ow pr pf ps id : Nat) (bd : List Byte) (longer : Bool),
    (s.coresRun = true ∧ (s.cport h.port.val).crcGood h = true ∧ ¬ (0x40 ≤ h.dst ∧ h.dst ≤ 0xFD)) ∧
    ((s.cport h.port.val).role = 4 ∧ (s.cport h.port.val).st = 2) ∧
    (s.helloFits (s.cport h.port.val).role ow pr pf bd = true) ∧
    (s.cas.pair = 1 ∨ s.cas.pair = 2) ∧
    ((ps = 1 ∨ ps = 2) ∧ longer = true) :=
  ⟨{ State.reset with glb.mode := .service, cas.ports := [(0, { role := 4, st := 2, credit := fullCredit })], cas.paired := true, cas.pair := 2, cas.primary := true }, { port := 0, src := 1, dst := 254, mid := 7, lseq := 0, intact := true }, 5, 0, 4, 0, 2, 1, [], true, by decide, by decide, by decide, by decide, by decide⟩

theorem witness_CascadePairs_7 : ∃ (s : State) (h : CHead) (sr ow pr pf ps id : Nat) (bd : List Byte) (longer : Bool),
    (s.coresRun = true ∧ (s.cport h.port.val).crcGood h = true ∧ ¬ (0x40 ≤ h.dst ∧ h.dst ≤ 0xFD)) ∧
    ((s.cport h.port.val).role = 4 ∧ (s.cport h.port.val).st = 2) ∧
    (s.helloFits (s.cport h.port.val).role ow pr pf bd = true) ∧
    (s.cas.pair = 1 ∨ s.cas.pair = 2) ∧
    (ps ≠ 4 ∧ (longer = false ∨ ps = 0 ∨ ps = 3)) :=
  ⟨{ State.reset with glb.mode := .service, cas.ports := [(0, { role := 4, st := 2, credit := fullCredit })], cas.paired := true, cas.pair := 2, cas.primary := true }, { port := 0, src := 1, dst := 254, mid := 7, lseq := 0, intact := true }, 5, 0, 4, 0, 2, 1, [], false, by decide, by decide, by decide, by decide, by decide⟩

theorem witness_CascadePairs_8 : ∃ (s : State) (h : CHead) (sr ow pr pf ps id : Nat) (bd : List Byte) (longer : Bool),
    (s.coresRun = true ∧ (s.cport h.port.val).crcGood h = true ∧ ¬ (0x40 ≤ h.dst ∧ h.dst ≤ 0xFD)) ∧
    ((s.cport h.port.val).role = 4 ∧ (s.cport h.port.val).st = 2) ∧
    (s.helloFits (s.cport h.port.val).role ow pr pf bd = true) ∧
    (s.cas.pair = 3 ∧ s.cas.failed = false ∧ ps = 2) :=
  ⟨{ State.reset with glb.mode := .service, cas.ports := [(0, { role := 4, st := 2, credit := fullCredit })], cas.paired := true, cas.pair := 3, cas.primary := true }, { port := 0, src := 1, dst := 254, mid := 7, lseq := 0, intact := true }, 5, 0, 4, 0, 2, 1, [], false, by decide, by decide, by decide, by decide⟩

theorem witness_CascadePairs_9 : ∃ (s : State) (h : CHead) (n : Nat) (i w : Nat) (x : Row),
    (s.hears h (.mirror n (.row i x w)) = true) ∧
    ((s.cas.pair = 3 ∨ s.cas.pair = 4) ∧ s.cas.mirSeq ≤ n) ∧
    (i ≠ 9) :=
  ⟨{ State.reset with glb.mode := .service, cas.ports := [(0, { role := 4, st := 2, credit := fullCredit })], cas.paired := true, cas.pair := 3 }, { port := 0, src := 0, dst := 0, mid := 7, lseq := 0, intact := true }, 4, 90, 0, { tS := 5, action := 7 }, by decide, by decide, by decide⟩

theorem witness_CascadePairs_10 : ∃ (s : State) (h : CHead) (n : Nat) (mh : Nat) (e : DirEntry),
    (s.hears h (.mirror n (.dir mh e)) = true) ∧
    ((s.cas.pair = 3 ∨ s.cas.pair = 4) ∧ s.cas.mirSeq ≤ n) :=
  ⟨{ State.reset with glb.mode := .service, cas.ports := [(0, { role := 4, st := 2, credit := fullCredit })], cas.paired := true, cas.pair := 3 }, { port := 0, src := 0, dst := 0, mid := 7, lseq := 0, intact := true }, 4, 90, { ma := 5, st := .active }, by decide, by decide⟩

theorem witness_CascadePairs_11 : ∃ (s : State) (h : CHead) (n : Nat) (i : Nat) (d : List Byte),
    (s.hears h (.mirror n (.slot i (some d))) = true) ∧
    ((s.cas.pair = 3 ∨ s.cas.pair = 4) ∧ s.cas.mirSeq ≤ n) :=
  ⟨{ State.reset with glb.mode := .service, cas.ports := [(0, { role := 4, st := 2, credit := fullCredit })], cas.paired := true, cas.pair := 3 }, { port := 0, src := 0, dst := 0, mid := 7, lseq := 0, intact := true }, 4, 90, [5#8], by decide, by decide⟩

theorem witness_CascadePairs_12 : ∃ (s : State) (h : CHead) (n : Nat) (l : List Nat),
    (s.hears h (.mirror n (.partMap l)) = true) ∧
    ((s.cas.pair = 3 ∨ s.cas.pair = 4) ∧ s.cas.mirSeq ≤ n) :=
  ⟨{ State.reset with glb.mode := .service, cas.ports := [(0, { role := 4, st := 2, credit := fullCredit })], cas.paired := true, cas.pair := 3 }, { port := 0, src := 0, dst := 0, mid := 7, lseq := 0, intact := true }, 4, [0, 1], by decide, by decide⟩

theorem witness_CascadePairs_13 : ∃ (s : State) (h : CHead) (n : Nat) (a : Nat),
    (s.hears h (.mirror n (.confirm a)) = true) ∧
    ((s.cas.pair = 3 ∨ s.cas.pair = 4) ∧ s.cas.mirSeq ≤ n) :=
  ⟨{ State.reset with glb.mode := .service, cas.ports := [(0, { role := 4, st := 2, credit := fullCredit })], cas.paired := true, cas.pair := 3 }, { port := 0, src := 0, dst := 0, mid := 7, lseq := 0, intact := true }, 4, 77, by decide, by decide⟩

theorem witness_CascadePairs_14 : ∃ (s : State) (h : CHead) (n : Nat) (l : List Nat),
    (s.hears h (.mirror n (.partMap l)) = true) ∧
    ((s.cas.pair ≠ 3 ∧ s.cas.pair ≠ 4) ∨ n < s.cas.mirSeq) :=
  ⟨{ State.reset with glb.mode := .service, cas.ports := [(0, { role := 4, st := 2, credit := fullCredit })], cas.paired := true, cas.pair := 2 }, { port := 0, src := 0, dst := 0, mid := 7, lseq := 0, intact := true }, 4, [1], by decide, by decide⟩

theorem witness_CascadePairs_15 : ∃ (s : State) (h : CHead) (n : Nat) (x : MirOut),
    (s.hears h (.mack n) = true) ∧
    (firstWhere (fun (x : MirOut) => x.seq == n) s.cas.mirOut = some x) ∧
    (x.jseq = none ∧ s.nowNs ≤ x.at_ + 2000000) :=
  ⟨{ State.reset with glb.mode := .service, cas.ports := [(0, { role := 4, st := 2, credit := fullCredit })], cas.paired := true, cas.pair := 1, cas.mirOut := [{ seq := 4, at_ := 0 }, { seq := 5, at_ := 0 }] }, { port := 0, src := 0, dst := 0, mid := 7, lseq := 0, intact := true }, 4, { seq := 4, at_ := 0 }, by decide, by decide, by decide⟩

theorem witness_CascadePairs_16 : ∃ (s : State) (h : CHead) (n j : Nat) (x : MirOut),
    (s.hears h (.mack n) = true) ∧
    (firstWhere (fun (x : MirOut) => x.seq == n) s.cas.mirOut = some x) ∧
    (x.jseq = some j) :=
  ⟨{ State.reset with glb.mode := .service, cas.ports := [(0, { role := 4, st := 2, credit := fullCredit })], cas.paired := true, cas.pair := 1, cas.mirOut := [{ seq := 4, at_ := 0, jseq := some 3 }] }, { port := 0, src := 0, dst := 0, mid := 7, lseq := 0, intact := true }, 4, 3, { seq := 4, at_ := 0, jseq := some 3 }, by decide, by decide, by decide⟩

theorem witness_CascadePairs_17 : ∃ (s : State) (h : CHead) (n : Nat),
    (s.hears h (.mack n) = true) ∧
    (∀ x ∈ s.cas.mirOut, x.seq ≠ n) :=
  ⟨{ State.reset with glb.mode := .service, cas.ports := [(0, { role := 4, st := 2, credit := fullCredit })], cas.paired := true, cas.pair := 1 }, { port := 0, src := 0, dst := 0, mid := 7, lseq := 0, intact := true }, 4, by decide, by decide⟩

theorem witness_CascadePairs_18 : ∃ (s : State) (x : MirOut) (p : Nat × CPort),
    (s.cas.pair = 1 ∧ s.ldg.jq = [] ∧ s.lake.fetch = []) ∧
    (x ∈ s.cas.mirOut) ∧
    (x.at_ + 2000000 ≤ s.nowNs) ∧
    (s.cas.ports.find? (fun q => q.2.role == 4) = some p) ∧
    (s.coresRun = true) :=
  ⟨{ State.reset with glb.mode := .service, cas.ports := [(0, { role := 4, st := 2, credit := fullCredit })], cas.paired := true, cas.pair := 1, tmu.sec := 3, cas.mirOut := [{ seq := 4, at_ := 0 }] }, { seq := 4, at_ := 0 }, (0, { role := 4, st := 2, credit := fullCredit }), by decide, by decide, by decide, by decide, by decide⟩

theorem witness_CascadePairs_19 : ∃ (s : State),
    (s.cas.pair ≠ 1) :=
  ⟨State.reset, by decide⟩

theorem witness_CascadePairs_20 : ∃ (s : State) (h : CHead) (ph pct : Nat),
    (s.hears h (.resync ph pct []) = true) ∧
    (s.cas.pair = 4 ∧ ph ≠ 4 ∧ ph ≠ 1) :=
  ⟨{ State.reset with glb.mode := .service, cas.ports := [(0, { role := 4, st := 2, credit := fullCredit })], cas.paired := true, cas.pair := 4 }, { port := 0, src := 0, dst := 0, mid := 7, lseq := 0, intact := true }, 2, 50, by decide, by decide⟩

theorem witness_CascadePairs_21 : ∃ (s : State) (h : CHead) (pct : Nat),
    (s.hears h (.resync 4 pct []) = true) ∧
    (s.cas.pair = 4) :=
  ⟨{ State.reset with glb.mode := .bringup, cas.ports := [(0, { role := 4, st := 2, credit := fullCredit })], cas.paired := true, cas.pair := 4 }, { port := 0, src := 0, dst := 0, mid := 7, lseq := 0, intact := true }, 0, by decide, by decide⟩

theorem witness_CascadePairs_22 : ∃ (s : State) (h : CHead) (pct : Nat),
    (s.hears h (.resync 4 pct []) = true) ∧
    (s.cas.pair = 2 ∧ s.cas.phase = 4) :=
  ⟨{ State.reset with glb.mode := .service, cas.ports := [(0, { role := 4, st := 2, credit := fullCredit })], cas.paired := true, cas.pair := 2, cas.phase := 4, tmu.sec := 2 }, { port := 0, src := 0, dst := 0, mid := 7, lseq := 0, intact := true }, 0, by decide, by decide⟩

theorem witness_CascadePairs_23 : ∃ (s : State) (port : Fin 4) (state : Fin 16) (no id : BitVec 16) (longer : Bool) (crc : BitVec 16),
    (s.coresRun = true ∧ (s.cport port).st = 2) ∧
    (wordOk 4 (state.val) no.toNat id.toNat crc = true) ∧
    (s.cas.paired = true ∧ id.toNat = s.cas.chipId) ∧
    (state.val < 5) ∧
    ((s.cas.pair ≠ 1 ∧ s.cas.pair ≠ 2) ∨ (state.val ≠ 1 ∧ state.val ≠ 2) ∨ longer = false) :=
  ⟨{ State.reset with glb.mode := .service, cas.ports := [(0, { role := 4, st := 2, hbAt := some 0, hbMiss := 2, credit := fullCredit })], cas.paired := true, cas.pair := 3 }, 0, 1, 9, 0, false, BitVec.ofNat 16 (crc16 (le 1 4 ++ le 1 1 ++ le 2 9 ++ le 2 0)), by decide, by decide, by decide, by decide, by decide⟩

theorem witness_CascadePairs_24 : ∃ (s : State) (port : Fin 4) (state : Fin 16) (no id : BitVec 16) (longer : Bool) (crc : BitVec 16),
    (s.coresRun = true ∧ (s.cport port).st = 2) ∧
    (wordOk 4 (state.val) no.toNat id.toNat crc = true) ∧
    (s.cas.paired = true ∧ id.toNat = s.cas.chipId) ∧
    ((s.cas.pair = 1 ∨ s.cas.pair = 2) ∧ (state.val = 1 ∨ state.val = 2) ∧ longer = true) :=
  ⟨{ State.reset with glb.mode := .service, cas.ports := [(0, { role := 4, st := 2, hbAt := some 0, hbMiss := 2, credit := fullCredit })], cas.paired := true, cas.pair := 2 }, 0, 1, 9, 0, true, BitVec.ofNat 16 (crc16 (le 1 4 ++ le 1 1 ++ le 2 9 ++ le 2 0)), by decide, by decide, by decide, by decide⟩

theorem witness_CascadePairs_25 : ∃ (s : State) (port : Fin 4) (state : Fin 16) (no id : BitVec 16) (longer : Bool) (crc : BitVec 16),
    (s.coresRun = true ∧ (s.cport port).st = 2) ∧
    (wordOk 4 (state.val) no.toNat id.toNat crc = true) ∧
    (s.cas.paired = false ∨ id.toNat ≠ s.cas.chipId) :=
  ⟨{ State.reset with glb.mode := .service, cas.ports := [(0, { role := 3, st := 2, credit := fullCredit, peerId := 5 }), (1, { role := 3, st := 2, credit := fullCredit, peerId := 5 })] }, 0, 1, 9, 5, false, BitVec.ofNat 16 (crc16 (le 1 4 ++ le 1 1 ++ le 2 9 ++ le 2 5)), by decide, by decide, by decide⟩

theorem witness_CascadePairs_26 : ∃ (s : State) (port : Fin 4) (state : Fin 16) (no id : BitVec 16) (longer : Bool) (crc : BitVec 16),
    (s.coresRun = true ∧ (s.cport port).st = 2) ∧
    (wordOk 4 (128 + state.val) no.toNat id.toNat crc = true) ∧
    (s.cas.paired = false ∨ id.toNat ≠ s.cas.chipId) :=
  ⟨{ State.reset with glb.mode := .service, cas.ports := [(0, { role := 3, st := 2, credit := fullCredit })] }, 0, 1, 9, 5, false, BitVec.ofNat 16 (crc16 (le 1 4 ++ le 1 129 ++ le 2 9 ++ le 2 5)), by decide, by decide, by decide⟩

theorem witness_CascadePairs_27 : ∃ (s : State),
    (s.cas.paired = true ∧ s.cas.pair ≠ 0 ∧ s.coresRun = true) ∧
    (s.cas.hbSentAt + 100000 ≤ s.nowNs) :=
  ⟨{ State.reset with glb.mode := .service, cas.ports := [(0, { role := 4, st := 2, credit := fullCredit }), (1, { role := 3, st := 2, credit := fullCredit })], cas.paired := true, cas.pair := 2, tmu.sec := 1 }, by decide, by decide⟩

theorem witness_CascadePairs_28 : ∃ (s : State),
    (s.cas.paired = false ∨ s.cas.pair = 0 ∨ s.nowNs < s.cas.hbSentAt + 100000) :=
  ⟨State.reset, by decide⟩

theorem witness_CascadePairs_29 : ∃ (s : State) (port : Fin 4) (a : Nat),
    ((s.cport port).hbAt = some a) ∧
    ((s.cport port).hbMiss < 3 ∧ a + 100000 * ((s.cport port).hbMiss + 1) + 10000 ≤ s.nowNs ∧ s.coresRun = true) ∧
    ((updCport port (fun c => { c with hbMiss := c.hbMiss + 1 }) s).livePaths ≠ 0) ∧
    (s.cas.pair ≠ 3 ∨ (s.cport port).hbMiss ≠ 2) :=
  ⟨{ State.reset with glb.mode := .service, cas.ports := [(0, { role := 4, st := 2, hbAt := some 0, hbMiss := 1, credit := fullCredit })], cas.paired := true, cas.pair := 3, tmu.sec := 1 }, 0, 0, by decide, by decide, by decide, by decide⟩

theorem witness_CascadePairs_30 : ∃ (s : State) (port : Fin 4) (a : Nat),
    ((s.cport port).hbAt = some a) ∧
    ((s.cport port).hbMiss < 3 ∧ a + 100000 * ((s.cport port).hbMiss + 1) + 10000 ≤ s.nowNs ∧ s.coresRun = true) ∧
    ((updCport port (fun c => { c with hbMiss := c.hbMiss + 1 }) s).livePaths ≠ 0) ∧
    (s.cas.pair = 3 ∧ (s.cport port).hbMiss = 2) :=
  ⟨{ State.reset with glb.mode := .service, cas.ports := [(0, { role := 4, st := 2, hbAt := some 0, hbMiss := 2, credit := fullCredit }), (1, { role := 4, st := 2, hbAt := some 0, hbMiss := 0, credit := fullCredit })], cas.paired := true, cas.pair := 3, tmu.sec := 1 }, 0, 0, by decide, by decide, by decide, by decide⟩

theorem witness_CascadePairs_31 : ∃ (s : State) (port : Fin 4) (a : Nat),
    ((s.cport port).hbAt = some a) ∧
    ((s.cport port).hbMiss < 3 ∧ a + 100000 * ((s.cport port).hbMiss + 1) + 10000 ≤ s.nowNs ∧ s.coresRun = true) ∧
    ((updCport port (fun c => { c with hbMiss := c.hbMiss + 1 }) s).livePaths = 0) ∧
    (s.cas.pair = 3 ∧ s.cas.failed = false) :=
  ⟨{ State.reset with glb.mode := .service, cas.ports := [(0, { role := 4, st := 2, hbAt := some 0, hbMiss := 2, credit := fullCredit })], cas.paired := true, cas.pair := 3, tmu.sec := 1 }, 0, 0, by decide, by decide, by decide, by decide⟩

theorem witness_CascadePairs_32 : ∃ (s : State) (port : Fin 4) (a : Nat),
    ((s.cport port).hbAt = some a) ∧
    ((s.cport port).hbMiss < 3 ∧ a + 100000 * ((s.cport port).hbMiss + 1) + 10000 ≤ s.nowNs ∧ s.coresRun = true) ∧
    ((updCport port (fun c => { c with hbMiss := c.hbMiss + 1 }) s).livePaths = 0) ∧
    (s.cas.pair = 3 ∧ s.cas.failed = false) ∧
    (s.cas.shadow = [] ∧ s.lake.ready = false) :=
  ⟨{ State.reset with glb.mode := .service, cas.ports := [(0, { role := 4, st := 2, hbAt := some 0, hbMiss := 2, credit := fullCredit })], cas.paired := true, cas.pair := 3, tmu.sec := 1 }, 0, 0, by decide, by decide, by decide, by decide, by decide⟩

theorem witness_CascadePairs_33 : ∃ (s : State) (port : Fin 4) (a : Nat),
    ((s.cport port).hbAt = some a) ∧
    ((s.cport port).hbMiss < 3 ∧ a + 100000 * ((s.cport port).hbMiss + 1) + 10000 ≤ s.nowNs ∧ s.coresRun = true) ∧
    ((updCport port (fun c => { c with hbMiss := c.hbMiss + 1 }) s).livePaths = 0) ∧
    (s.cas.pair = 4 ∧ s.cas.failed = false) :=
  ⟨{ State.reset with glb.mode := .service, cas.ports := [(0, { role := 4, st := 2, hbAt := some 0, hbMiss := 2, credit := fullCredit })], cas.paired := true, cas.pair := 4, tmu.sec := 1 }, 0, 0, by decide, by decide, by decide, by decide⟩

theorem witness_CascadePairs_34 : ∃ (s : State) (port : Fin 4) (a : Nat),
    ((s.cport port).hbAt = some a) ∧
    (s.nowNs < a + 100000 * ((s.cport port).hbMiss + 1) + 10000) :=
  ⟨{ State.reset with glb.mode := .service, cas.ports := [(0, { role := 4, st := 2, hbAt := some 0, hbMiss := 0, credit := fullCredit })] }, 0, 0, by decide, by decide⟩

theorem witness_CascadePairs_35 : ∃ (s : State) (port : Fin 4) (cause : Fin 256) (crc : BitVec 16),
    (s.coresRun = true ∧ (s.cport port).st = 2) ∧
    (wordOk 5 cause.val 0 0 crc = true) ∧
    (s.cas.paired = true ∧ ((s.cport port).role = 4 ∨ (s.cport port).hbAt.isSome = true) ∧ s.cas.failed = false) ∧
    (s.cas.pair = 3) :=
  ⟨{ State.reset with glb.mode := .service, cas.ports := [(0, { role := 4, st := 2, hbAt := some 0, hbMiss := 0, credit := fullCredit })], cas.paired := true, cas.pair := 3 }, 0, 1, BitVec.ofNat 16 (crc16 (le 1 5 ++ le 1 1 ++ le 2 0 ++ le 2 0)), by decide, by decide, by decide, by decide⟩

theorem witness_CascadePairs_36 : ∃ (s : State) (port : Fin 4) (cause : Fin 256) (crc : BitVec 16),
    (s.coresRun = true ∧ (s.cport port).st = 2) ∧
    (wordOk 5 cause.val 0 0 crc = true) ∧
    (s.cas.paired = true ∧ ((s.cport port).role = 4 ∨ (s.cport port).hbAt.isSome = true) ∧ s.cas.failed = false) ∧
    (s.cas.pair = 3) ∧
    (s.cas.shadow = [] ∧ s.lake.ready = false) :=
  ⟨{ State.reset with glb.mode := .service, cas.ports := [(0, { role := 4, st := 2, hbAt := some 0, hbMiss := 0, credit := fullCredit })], cas.paired := true, cas.pair := 3 }, 0, 1, BitVec.ofNat 16 (crc16 (le 1 5 ++ le 1 1 ++ le 2 0 ++ le 2 0)), by decide, by decide, by decide, by decide, by decide⟩

theorem witness_CascadePairs_37 : ∃ (s : State) (port : Fin 4) (cause : Fin 256) (crc : BitVec 16),
    (s.coresRun = true ∧ (s.cport port).st = 2) ∧
    (wordOk 5 cause.val 0 0 crc = true) ∧
    (s.cas.paired = true ∧ ((s.cport port).role = 4 ∨ (s.cport port).hbAt.isSome = true)) ∧
    (s.cas.pair = 4 ∧ s.cas.failed = false) :=
  ⟨{ State.reset with glb.mode := .service, cas.ports := [(0, { role := 4, st := 2, hbAt := some 0, hbMiss := 0, credit := fullCredit })], cas.paired := true, cas.pair := 4 }, 0, 1, BitVec.ofNat 16 (crc16 (le 1 5 ++ le 1 1 ++ le 2 0 ++ le 2 0)), by decide, by decide, by decide, by decide⟩

theorem witness_CascadePairs_38 : ∃ (s : State) (port : Fin 4) (cause : Fin 256) (crc : BitVec 16),
    (s.coresRun = true ∧ (s.cport port).st = 2) ∧
    (wordOk 5 cause.val 0 0 crc = true) ∧
    (s.cas.paired = true ∧ ((s.cport port).role = 4 ∨ (s.cport port).hbAt.isSome = true)) ∧
    (s.cas.pair = 1 ∨ s.cas.pair = 2) :=
  ⟨{ State.reset with glb.mode := .service, cas.ports := [(0, { role := 4, st := 2, hbAt := some 0, hbMiss := 0, credit := fullCredit })], cas.paired := true, cas.pair := 2 }, 0, 1, BitVec.ofNat 16 (crc16 (le 1 5 ++ le 1 1 ++ le 2 0 ++ le 2 0)), by decide, by decide, by decide, by decide⟩

theorem witness_CascadePairs_39 : ∃ (s : State) (port : Fin 4) (cause : Fin 256) (crc : BitVec 16),
    (s.coresRun = true ∧ (s.cport port).st = 2) ∧
    (wordOk 5 cause.val 0 0 crc = true) ∧
    (s.cas.paired = false) :=
  ⟨{ State.reset with glb.mode := .service, cas.ports := [(0, { role := 3, st := 2, credit := fullCredit, peerId := 5 }), (1, { role := 3, st := 2, credit := fullCredit, peerId := 5 })] }, 0, 1, BitVec.ofNat 16 (crc16 (le 1 5 ++ le 1 1 ++ le 2 0 ++ le 2 0)), by decide, by decide, by decide⟩

theorem witness_CascadePairs_40 : ∃ (s : State) (port : Fin 4) (crc : BitVec 16),
    (s.coresRun = true ∧ (s.cport port).st = 2) ∧
    (wordOk 6 0 0 0 crc = true) ∧
    ((s.cport port).role = 2) :=
  ⟨{ State.reset with glb.mode := .service, cas.ports := [(0, { role := 1, st := 2, credit := fullCredit }), (1, { role := 2, st := 2, credit := fullCredit })], cas.master := false }, 1, BitVec.ofNat 16 (crc16 (le 1 6 ++ le 1 0 ++ le 2 0 ++ le 2 0)), by decide, by decide, by decide⟩

theorem witness_CascadePairs_41 : ∃ (s : State) (port : Fin 4) (crc : BitVec 16),
    (s.coresRun = true ∧ (s.cport port).st = 2) ∧
    (wordOk 6 0 0 0 crc = true) ∧
    ((s.cport port).role = 3) :=
  ⟨{ State.reset with glb.mode := .service, cas.ports := [(0, { role := 3, st := 2, credit := fullCredit, peerId := 5 }), (1, { role := 3, st := 2, credit := fullCredit, peerId := 5, peerStby := true })] }, 1, BitVec.ofNat 16 (crc16 (le 1 6 ++ le 1 0 ++ le 2 0 ++ le 2 0)), by decide, by decide, by decide⟩

theorem witness_CascadePairs_42 : ∃ (s : State) (port : Fin 4) (crc : BitVec 16),
    (s.coresRun = true ∧ (s.cport port).st = 2) ∧
    (wordOk 6 0 0 0 crc = true) ∧
    ((s.cport port).role = 4 ∧ s.cas.holdB.isSome = true) :=
  ⟨{ State.reset with glb.mode := .service, cas.ports := [(0, { role := 4, st := 2, credit := fullCredit })], cas.paired := true, cas.pair := 3, cas.failed := true, cas.holdB := some { at_ := 0 } }, 0, BitVec.ofNat 16 (crc16 (le 1 6 ++ le 1 0 ++ le 2 0 ++ le 2 0)), by decide, by decide, by decide⟩

theorem witness_CascadePairs_43 : ∃ (s : State) (port : Fin 4) (i : Instr) (k a n b : Nat) (crc : BitVec 16) (no : BitVec 16),
    (s.coresRun = true ∧ (s.cport port).st = 2) ∧
    ((i, k, a, n, b) ∈ [(Instr.takeover port crc, 6, 0, 0, 0), (.failWord port 1 crc, 5, 1, 0, 0), (.heartbeatReceive port false 1 no 3 true crc, 4, 1, no.toNat, 3)]) ∧
    (wordOk k a n b crc = false) :=
  ⟨{ State.reset with glb.mode := .service, cas.ports := [(0, { role := 4, st := 2, credit := fullCredit })] }, 0, .takeover 0 7, 6, 0, 0, 0, 7, 0, by decide, by decide, by decide⟩

theorem witness_CascadePairs_44 : ∃ (s : State) (x : ClassB),
    (s.cas.holdB = some x) ∧
    (x.at_ + 1739502 ≤ s.nowNs ∨ s.stest.frozen = true) :=
  ⟨{ State.reset with tmu.sec := 1, cas.holdB := some { at_ := 0, pulse := 5 } }, { at_ := 0, pulse := 5 }, by decide, by decide⟩

theorem witness_CascadePairs_45 : ∃ (s : State) (x : ClassB),
    (s.cas.holdB = some x) ∧
    (s.nowNs < x.at_ + 1739502 ∧ s.stest.frozen = false) :=
  ⟨{ State.reset with cas.holdB := some { at_ := 0, pulse := 5 } }, { at_ := 0, pulse := 5 }, by decide, by decide⟩

theorem witness_CascadePairs_46 : ∃ (s : State) (a : Nat),
    (s.cas.handoverAt = some a ∧ a ≤ s.nowNs ∧ s.coresRun = true) ∧
    (s.cas.master = true ∧ s.cas.primary = false ∧ 9 ≤ s.cas.chips ∧ s.cas.pair = 1) ∧
    ((s.row 9).action = 0) :=
  ⟨{ State.reset with glb.mode := .service, cas.ports := [(0, { role := 4, st := 2, credit := fullCredit })], cas.paired := true, cas.pair := 1, cas.chips := 9, tmu.sec := 3, cas.handoverAt := some 4 }, 4, by decide, by decide, by decide⟩

theorem witness_CascadePairs_47 : ∃ (s : State) (a : Nat),
    (s.cas.handoverAt = some a ∧ a ≤ s.nowNs ∧ s.coresRun = true) ∧
    (s.cas.master = false ∨ s.cas.primary = true ∨ s.cas.chips < 9 ∨ s.cas.pair ≠ 1) :=
  ⟨{ State.reset with glb.mode := .service, cas.ports := [(0, { role := 4, st := 2, credit := fullCredit })], cas.paired := true, cas.pair := 1, cas.chips := 8, tmu.sec := 3, cas.handoverAt := some 4 }, 4, by decide, by decide⟩

theorem witness_CascadePairs_48 : ∃ (s : State) (a : Nat),
    (s.cas.handoverAt = some a ∧ s.nowNs < a) :=
  ⟨{ State.reset with cas.handoverAt := some 4 }, 4, by decide⟩

theorem witness_CascadePairs_49 : ∃ (s : State),
    (s.cas.paired = true ∧ s.cas.pair = 0 ∧ s.cas.helloAt + 10000000 ≤ s.nowNs) ∧
    (s.glb.mode = .service ∧ s.stest.frozen = false) :=
  ⟨{ State.reset with glb.mode := .service, cas.ports := [(0, { role := 4, st := 1, credit := fullCredit })], cas.paired := true, tmu.sec := 3 }, by decide, by decide⟩

theorem witness_CascadePairs_50 : ∃ (s : State),
    (s.cas.paired = false ∨ s.cas.pair ≠ 0 ∨ s.nowNs < s.cas.helloAt + 10000000) :=
  ⟨State.reset, by decide⟩

theorem witness_CascadePairs_51 : ∃ (s : State) (t : Fin 256) (pi : Fin 8) (rt ra : Fin 32) (p : Place) (i : Nat) (b : List Byte) (d : List Byte) (q : Place) (full : Bool),
    (s.callsAt t pi ra 0xB0 24 p i = true) ∧
    (s.load p 24 = b) ∧
    (field b 0 1 = 0 ∧ zeros b 4 4 = true ∧ 1 ≤ field b 2 2 ∧ field b 2 2 ≤ 104 ∧ field b 16 8 = 0) ∧
    (field b 1 1 = s.cas.chipId ∧ s.cas.chipId < 0x40) ∧
    (s.casFull = false) ∧
    ((s.thr t).bufPlace t (field b 8 8) (field b 2 2) = some q) ∧
    (s.poisoned q (field b 2 2) = false) ∧
    (s.load q (field b 2 2) = d) :=
  ⟨{ State.reset with mcc.dmem := [(2, 2#8), (8, 64#8), (64, 52#8), (65, 18#8)] }, 0, 0, 0, 0, .dmem 0, 0, bytesOf [0x0, 0x0, 0x2, 0x0, 0x0, 0x0, 0x0, 0x0, 0x40, 0x0, 0x0, 0x0, 0x0, 0x0, 0x0, 0x0, 0x0, 0x0, 0x0, 0x0, 0x0, 0x0, 0x0, 0x0], bytesOf [0x34, 0x12], .dmem 64, false, by decide, by decide, by decide, by decide, by decide, by decide, by decide, by decide⟩

theorem witness_CascadePairs_52 : ∃ (s : State) (t : Fin 256) (pi : Fin 8) (rt ra : Fin 32) (p : Place) (i : Nat) (b : List Byte) (n : Nat) (d : List Byte) (q : Place) (full : Bool),
    (s.callsAt t pi ra 0xB0 24 p i = true) ∧
    (s.load p 24 = b) ∧
    (field b 0 1 = 0 ∧ zeros b 4 4 = true ∧ 1 ≤ field b 2 2 ∧ field b 2 2 ≤ 104 ∧ field b 16 8 = 0) ∧
    (field b 1 1 < 0x40 ∧ field b 1 1 ≠ s.cas.chipId) ∧
    (s.portTo (field b 1 1) = some n) ∧
    ((s.thr t).bufPlace t (field b 8 8) (field b 2 2) = some q) ∧
    (s.poisoned q (field b 2 2) = false) ∧
    (s.load q (field b 2 2) = d) :=
  ⟨{ State.reset with mcc.dmem := [(1, 2#8), (2, 2#8), (8, 64#8), (64, 52#8), (65, 18#8)], cas.chips := 3, cas.ports := [(1, { role := 1, st := 2, credit := fullCredit })] }, 0, 0, 0, 0, .dmem 0, 0, bytesOf [0x0, 0x2, 0x2, 0x0, 0x0, 0x0, 0x0, 0x0, 0x40, 0x0, 0x0, 0x0, 0x0, 0x0, 0x0, 0x0, 0x0, 0x0, 0x0, 0x0, 0x0, 0x0, 0x0, 0x0], 1, bytesOf [0x34, 0x12], .dmem 64, false, by decide, by decide, by decide, by decide, by decide, by decide, by decide, by decide⟩

theorem witness_CascadePairs_53 : ∃ (s : State) (t : Fin 256) (pi : Fin 8) (rt ra : Fin 32) (p : Place) (i : Nat) (b : List Byte) (full : Bool),
    (s.callsAt t pi ra 0xB0 24 p i = true) ∧
    (s.load p 24 = b) ∧
    (field b 0 1 = 0 ∧ zeros b 4 4 = true) ∧
    (field b 2 2 = 0 ∨ 104 < field b 2 2 ∨ (0x40 ≤ field b 1 1 ∧ field b 1 1 ≤ 0xFC)) :=
  ⟨{ State.reset with mcc.dmem := [(1, 64#8), (2, 2#8)] }, 0, 0, 0, 0, .dmem 0, 0, bytesOf [0x0, 0x40, 0x2, 0x0, 0x0, 0x0, 0x0, 0x0, 0x0, 0x0, 0x0, 0x0, 0x0, 0x0, 0x0, 0x0, 0x0, 0x0, 0x0, 0x0, 0x0, 0x0, 0x0, 0x0], true, by decide, by decide, by decide, by decide⟩

theorem witness_CascadePairs_54 : ∃ (s : State) (t : Fin 256) (pi : Fin 8) (rt ra : Fin 32) (p : Place) (i : Nat) (b : List Byte) (d : List Byte) (q : Place),
    (s.callsAt t pi ra 0xB0 24 p i = true) ∧
    (s.load p 24 = b) ∧
    (field b 0 1 = 1) ∧
    (zeros b 4 4 = true ∧ field b 1 1 = 0 ∧ field b 16 8 = 0 ∧ field b 2 2 = 32 ∧ (s.thr t).level ≠ .task) ∧
    ((s.thr t).bufPlace t (field b 8 8) (32) = some q) ∧
    (s.poisoned q (32) = false) ∧
    (s.load q (32) = d) ∧
    (casConfigOk d = true ∧ field d 4 1 % 2 = 0) ∧
    (s.cas.pair = 0) :=
  ⟨{ State.reset with mcc.dmem := [(0, 1#8), (2, 32#8), (8, 64#8), (64, 1#8), (65, 3#8)], mcc.threads := [(0, { st := .run, level := .system })] }, 0, 0, 0, 0, .dmem 0, 0, bytesOf [0x1, 0x0, 0x20, 0x0, 0x0, 0x0, 0x0, 0x0, 0x40, 0x0, 0x0, 0x0, 0x0, 0x0, 0x0, 0x0, 0x0, 0x0, 0x0, 0x0, 0x0, 0x0, 0x0, 0x0], bytesOf [1, 3, 0, 0, 0, 0, 0, 0, 0, 0, 0, 0, 0, 0, 0, 0, 0, 0, 0, 0, 0, 0, 0, 0, 0, 0, 0, 0, 0, 0, 0, 0], .dmem 64, by decide, by decide, by decide, by decide, by decide, by decide, by decide, by decide, by decide⟩

theorem witness_CascadePairs_55 : ∃ (s : State) (t : Fin 256) (pi : Fin 8) (rt ra : Fin 32) (p : Place) (i : Nat) (b : List Byte) (d : List Byte) (q : Place),
    (s.callsAt t pi ra 0xB0 24 p i = true) ∧
    (s.load p 24 = b) ∧
    (field b 0 1 = 1) ∧
    (zeros b 4 4 = true ∧ field b 1 1 = 0 ∧ field b 16 8 = 0 ∧ field b 2 2 = 32 ∧ (s.thr t).level ≠ .task) ∧
    ((s.thr t).bufPlace t (field b 8 8) (32) = some q) ∧
    (s.poisoned q (32) = false) ∧
    (s.load q (32) = d) ∧
    (casConfigOk d = true ∧ field d 4 1 % 2 = 1) ∧
    (s.cas.paired = false ∧ s.cas.pair = 0 ∧ s.glb.mode = .service) :=
  ⟨{ State.reset with mcc.dmem := [(0, 1#8), (2, 32#8), (8, 64#8), (64, 4#8), (68, 1#8)], mcc.threads := [(0, { st := .run, level := .system })], glb.mode := .service }, 0, 0, 0, 0, .dmem 0, 0, bytesOf [0x1, 0x0, 0x20, 0x0, 0x0, 0x0, 0x0, 0x0, 0x40, 0x0, 0x0, 0x0, 0x0, 0x0, 0x0, 0x0, 0x0, 0x0, 0x0, 0x0, 0x0, 0x0, 0x0, 0x0], bytesOf [4, 0, 0, 0, 1, 0, 0, 0, 0, 0, 0, 0, 0, 0, 0, 0, 0, 0, 0, 0, 0, 0, 0, 0, 0, 0, 0, 0, 0, 0, 0, 0], .dmem 64, by decide, by decide, by decide, by decide, by decide, by decide, by decide, by decide, by decide⟩

theorem witness_CascadePairs_56 : ∃ (s : State) (t : Fin 256) (pi : Fin 8) (rt ra : Fin 32) (p : Place) (i : Nat) (b : List Byte) (d : List Byte) (q : Place),
    (s.callsAt t pi ra 0xB0 24 p i = true) ∧
    (s.load p 24 = b) ∧
    (field b 0 1 = 1) ∧
    (zeros b 4 4 = true ∧ field b 1 1 = 0 ∧ field b 16 8 = 0 ∧ field b 2 2 = 32 ∧ (s.thr t).level ≠ .task) ∧
    ((s.thr t).bufPlace t (field b 8 8) (32) = some q) ∧
    (s.poisoned q (32) = false) ∧
    (s.load q (32) = d) ∧
    (casConfigOk d = false) :=
  ⟨{ State.reset with mcc.dmem := [(0, 1#8), (2, 32#8), (8, 64#8), (64, 1#8), (65, 1#8)], mcc.threads := [(0, { st := .run, level := .system })] }, 0, 0, 0, 0, .dmem 0, 0, bytesOf [0x1, 0x0, 0x20, 0x0, 0x0, 0x0, 0x0, 0x0, 0x40, 0x0, 0x0, 0x0, 0x0, 0x0, 0x0, 0x0, 0x0, 0x0, 0x0, 0x0, 0x0, 0x0, 0x0, 0x0], bytesOf [1, 1, 0, 0, 0, 0, 0, 0, 0, 0, 0, 0, 0, 0, 0, 0, 0, 0, 0, 0, 0, 0, 0, 0, 0, 0, 0, 0, 0, 0, 0, 0], .dmem 64, by decide, by decide, by decide, by decide, by decide, by decide, by decide, by decide⟩

theorem witness_CascadePairs_57 : ∃ (s : State) (t : Fin 256) (pi : Fin 8) (rt ra : Fin 32) (p : Place) (i : Nat) (b : List Byte),
    (s.callsAt t pi ra 0xB0 24 p i = true) ∧
    (s.load p 24 = b) ∧
    (field b 0 1 = 3) ∧
    (zeros b 4 4 = true ∧ field b 1 1 = 0 ∧ field b 16 8 = 0 ∧ field b 2 2 = 0 ∧ (s.thr t).level ≠ .task) ∧
    (s.cas.pair = 1 ∧ s.glb.mode ≠ .holdup) ∧
    ((s.row 9).action = 0) :=
  ⟨{ State.reset with mcc.dmem := [(0, 3#8)], cas.ports := [(0, { role := 4, st := 2, credit := fullCredit })], cas.paired := true, cas.pair := 1, mcc.threads := [(0, { st := .run, level := .system })] }, 0, 0, 0, 0, .dmem 0, 0, bytesOf [0x3, 0x0, 0x0, 0x0, 0x0, 0x0, 0x0, 0x0, 0x0, 0x0, 0x0, 0x0, 0x0, 0x0, 0x0, 0x0, 0x0, 0x0, 0x0, 0x0, 0x0, 0x0, 0x0, 0x0], by decide, by decide, by decide, by decide, by decide, by decide⟩

theorem witness_CascadePairs_58 : ∃ (s : State) (t : Fin 256) (pi : Fin 8) (rt ra : Fin 32) (p : Place) (i : Nat) (b : List Byte),
    (s.callsAt t pi ra 0xB0 24 p i = true) ∧
    (s.load p 24 = b) ∧
    (field b 0 1 = 3) ∧
    (zeros b 4 4 = true ∧ field b 1 1 = 0 ∧ field b 16 8 = 0 ∧ field b 2 2 = 0 ∧ (s.thr t).level ≠ .task) ∧
    (s.cas.pair ≠ 1) :=
  ⟨{ State.reset with mcc.dmem := [(0, 3#8)], mcc.threads := [(0, { st := .run, level := .system })] }, 0, 0, 0, 0, .dmem 0, 0, bytesOf [0x3, 0x0, 0x0, 0x0, 0x0, 0x0, 0x0, 0x0, 0x0, 0x0, 0x0, 0x0, 0x0, 0x0, 0x0, 0x0, 0x0, 0x0, 0x0, 0x0, 0x0, 0x0, 0x0, 0x0], by decide, by decide, by decide, by decide, by decide⟩

theorem witness_CascadePairs_59 : ∃ (s : State) (t : Fin 256) (pi : Fin 8) (rt ra : Fin 32) (p : Place) (i : Nat) (b : List Byte) (e : Instr),
    (s.callsAt t pi ra 0xB0 24 p i = true) ∧
    (s.load p 24 = b) ∧
    (1 ≤ field b 0 1 ∧ field b 0 1 ≤ 3 ∧ zeros b 4 4 = true ∧ (s.thr t).level = .task) ∧
    (e ∈ [.casConfig t pi rt ra, .casHandover t pi rt ra, .casPartmap t pi rt ra []]) :=
  ⟨{ State.reset with mcc.dmem := [(0, 3#8)], mcc.threads := [(0, { st := .run, level := .task, ecmask := 0x800 })] }, 0, 0, 0, 0, .dmem 0, 0, bytesOf [3, 0, 0, 0, 0, 0, 0, 0, 0, 0, 0, 0, 0, 0, 0, 0, 0, 0, 0, 0, 0, 0, 0, 0], .casHandover 0 0 0 0, by decide, by decide, by decide, by decide⟩

set_option Elab.async false in
theorem witness_CascadePairs_60 : ∃ (s : State) (t : Fin 256) (pi : Fin 8) (rt ra : Fin 32) (p : Place) (i : Nat) (b : List Byte) (d : List Byte) (q : Place) (held : List Nat),
    (s.callsAt t pi ra 0xB0 24 p i = true) ∧
    (s.load p 24 = b) ∧
    (field b 0 1 = 2) ∧
    (zeros b 4 4 = true ∧ field b 1 1 = 0 ∧ field b 16 8 = 0 ∧ field b 2 2 = 4096 ∧ (s.thr t).level ≠ .task) ∧
    ((s.thr t).bufPlace t (field b 8 8) (4096) = some q) ∧
    (s.poisoned q (4096) = false) ∧
    (s.load q (4096) = d) ∧
    (s.cas.master = true ∧ s.cas.pair = 0 ∧ s.hk = none) ∧
    (∀ x ∈ d, x.toNat < s.cas.chips) ∧
    (∀ k ∈ held, k < 4096 → (d.getD k 0).toNat = (s.cas.partMap.getD (defaultMap s.cas.chips)).getD k 0) :=
  ⟨{ State.reset with mcc.dmem := [(0, 2#8), (3, 16#8), (8, 64#8)], mcc.threads := [(0, { st := .run, level := .system })], cas.chips := 256 }, 0, 0, 0, 0, .dmem 0, 0, bytesOf [0x2, 0x0, 0x0, 0x10, 0x0, 0x0, 0x0, 0x0, 0x40, 0x0, 0x0, 0x0, 0x0, 0x0, 0x0, 0x0, 0x0, 0x0, 0x0, 0x0, 0x0, 0x0, 0x0, 0x0], ({ State.reset with mcc.dmem := [(0, 2#8), (3, 16#8), (8, 64#8)], mcc.threads := [(0, { st := .run, level := .system })], cas.chips := 256 } : State).load (.dmem 64) 4096, .dmem 64, [], by decide, by decide, by decide, by decide, by decide, by decide +kernel, rfl, by decide, fun x _ => x.isLt, fun _ h => absurd h List.not_mem_nil⟩

set_option Elab.async false in
theorem witness_CascadePairs_61 : ∃ (s : State) (t : Fin 256) (pi : Fin 8) (rt ra : Fin 32) (p : Place) (i : Nat) (b : List Byte) (d : List Byte) (q : Place) (held : List Nat),
    (s.callsAt t pi ra 0xB0 24 p i = true) ∧
    (s.load p 24 = b) ∧
    (field b 0 1 = 2) ∧
    (zeros b 4 4 = true ∧ field b 1 1 = 0 ∧ field b 16 8 = 0 ∧ field b 2 2 = 4096 ∧ (s.thr t).level ≠ .task) ∧
    ((s.thr t).bufPlace t (field b 8 8) (4096) = some q) ∧
    (s.poisoned q (4096) = false) ∧
    (s.load q (4096) = d) ∧
    (s.cas.pair = 0 ∧ (s.cas.master = false ∨ ∃ x ∈ d, s.cas.chips ≤ x.toNat)) :=
  ⟨{ State.reset with mcc.dmem := [(0, 2#8), (3, 16#8), (8, 64#8)], mcc.threads := [(0, { st := .run, level := .system })], cas.master := false }, 0, 0, 0, 0, .dmem 0, 0, bytesOf [0x2, 0x0, 0x0, 0x10, 0x0, 0x0, 0x0, 0x0, 0x40, 0x0, 0x0, 0x0, 0x0, 0x0, 0x0, 0x0, 0x0, 0x0, 0x0, 0x0, 0x0, 0x0, 0x0, 0x0], ({ State.reset with mcc.dmem := [(0, 2#8), (3, 16#8), (8, 64#8)], mcc.threads := [(0, { st := .run, level := .system })], cas.master := false } : State).load (.dmem 64) 4096, .dmem 64, [], by decide, by decide, by decide, by decide, by decide, by decide +kernel, rfl, ⟨rfl, .inl rfl⟩⟩

theorem witness_CascadePairs_62 : ∃ (s : State) (t : Fin 256) (pi : Fin 8) (rt ra : Fin 32) (p : Place) (i : Nat) (b : List Byte),
    (s.callsAt t pi ra 0xB1 8 p i = true) ∧
    (s.load p 8 = b) ∧
    (zeros b 1 1 = true ∧ zeros b 4 4 = true ∧ 0 < field b 2 2) ∧
    (s.cas.master = true ∧ s.children = []) :=
  ⟨{ State.reset with mcc.dmem := [(0, 5#8), (2, 9#8)] }, 0, 0, 0, 0, .dmem 0, 0, bytesOf [0x5, 0x0, 0x9, 0x0, 0x0, 0x0, 0x0, 0x0], by decide, by decide, by decide, by decide⟩

theorem witness_CascadePairs_63 : ∃ (s : State) (t : Fin 256) (pi : Fin 8) (rt ra : Fin 32) (p : Place) (i : Nat) (b : List Byte),
    (s.callsAt t pi ra 0xB1 8 p i = true) ∧
    (s.load p 8 = b) ∧
    (zeros b 1 1 = true ∧ zeros b 4 4 = true ∧ 0 < field b 2 2) ∧
    (s.children ≠ [] ∧ s.barrier (field b 0 1) = none) :=
  ⟨{ State.reset with mcc.dmem := [(0, 5#8), (2, 9#8)], cas.ports := [(0, { role := 3, st := 2, credit := fullCredit })] }, 0, 0, 0, 0, .dmem 0, 0, bytesOf [0x5, 0x0, 0x9, 0x0, 0x0, 0x0, 0x0, 0x0], by decide, by decide, by decide, by decide⟩

theorem witness_CascadePairs_64 : ∃ (s : State) (t : Fin 256) (pi : Fin 8) (rt ra : Fin 32) (p : Place) (i : Nat) (b : List Byte),
    (s.callsAt t pi ra 0xB1 8 p i = true) ∧
    (s.load p 8 = b) ∧
    (field b 2 2 = 0) :=
  ⟨{ State.reset with mcc.dmem := [(0, 5#8)] }, 0, 0, 0, 0, .dmem 0, 0, bytesOf [0x5, 0x0, 0x0, 0x0, 0x0, 0x0, 0x0, 0x0], by decide, by decide, by decide⟩

theorem witness_CascadePairs_65 : ∃ (s : State) (t : Fin 256) (pi : Fin 8) (rt ra : Fin 32) (p : Place) (i : Nat) (b : List Byte) (d : List Byte) (q : Place),
    (s.callsAt t pi ra 0xB2 24 p i = true) ∧
    (s.load p 24 = b) ∧
    (field b 0 1 = 0 ∧ zeros b 1 1 = true ∧ zeros b 4 4 = true ∧ zeros b 16 8 = true ∧ 1 ≤ field b 2 2 ∧ field b 2 2 ≤ 104) ∧
    (s.cas.master = true ∧ s.casFull = false) ∧
    ((s.thr t).bufPlace t (field b 8 8) (field b 2 2) = some q) ∧
    (s.poisoned q (field b 2 2) = false) ∧
    (s.load q (field b 2 2) = d) :=
  ⟨{ State.reset with mcc.dmem := [(2, 2#8), (8, 64#8), (64, 52#8), (65, 18#8)], cas.ports := [(0, { role := 3, st := 2, credit := fullCredit })] }, 0, 0, 0, 0, .dmem 0, 0, bytesOf [0x0, 0x0, 0x2, 0x0, 0x0, 0x0, 0x0, 0x0, 0x40, 0x0, 0x0, 0x0, 0x0, 0x0, 0x0, 0x0, 0x0, 0x0, 0x0, 0x0, 0x0, 0x0, 0x0, 0x0], bytesOf [0x34, 0x12], .dmem 64, by decide, by decide, by decide, by decide, by decide, by decide, by decide⟩

theorem witness_CascadePairs_66 : ∃ (s : State) (t : Fin 256) (pi : Fin 8) (rt ra : Fin 32) (p : Place) (i : Nat) (b : List Byte) (n : Nat) (d : List Byte) (q : Place),
    (s.callsAt t pi ra 0xB2 24 p i = true) ∧
    (s.load p 24 = b) ∧
    (field b 0 1 = 0 ∧ zeros b 1 1 = true ∧ zeros b 4 4 = true ∧ zeros b 16 8 = true ∧ 1 ≤ field b 2 2 ∧ field b 2 2 ≤ 104) ∧
    (s.cas.master = false ∧ s.upPort = some n) ∧
    ((s.thr t).bufPlace t (field b 8 8) (field b 2 2) = some q) ∧
    (s.poisoned q (field b 2 2) = false) ∧
    (s.load q (field b 2 2) = d) :=
  ⟨{ State.reset with mcc.dmem := [(2, 2#8), (8, 64#8), (64, 52#8), (65, 18#8)], cas.master := false, cas.ports := [(0, { role := 1, st := 2, credit := fullCredit })] }, 0, 0, 0, 0, .dmem 0, 0, bytesOf [0x0, 0x0, 0x2, 0x0, 0x0, 0x0, 0x0, 0x0, 0x40, 0x0, 0x0, 0x0, 0x0, 0x0, 0x0, 0x0, 0x0, 0x0, 0x0, 0x0, 0x0, 0x0, 0x0, 0x0], 0, bytesOf [0x34, 0x12], .dmem 64, by decide, by decide, by decide, by decide, by decide, by decide, by decide⟩

theorem witness_CascadePairs_67 : ∃ (s : State) (t : Fin 256) (pi : Fin 8) (rt ra : Fin 32) (p : Place) (i : Nat) (b : List Byte),
    (s.callsAt t pi ra 0xB2 24 p i = true) ∧
    (s.load p 24 = b) ∧
    (field b 0 1 = 1 ∧ zeros b 1 1 = true ∧ zeros b 4 4 = true ∧ zeros b 16 8 = true ∧ field b 2 2 = 0) ∧
    (s.cas.master = true) :=
  ⟨{ State.reset with mcc.dmem := [(0, 1#8)], cas.ports := [(0, { role := 3, st := 2, credit := fullCredit })] }, 0, 0, 0, 0, .dmem 0, 0, bytesOf [0x1, 0x0, 0x0, 0x0, 0x0, 0x0, 0x0, 0x0, 0x0, 0x0, 0x0, 0x0, 0x0, 0x0, 0x0, 0x0, 0x0, 0x0, 0x0, 0x0, 0x0, 0x0, 0x0, 0x0], by decide, by decide, by decide, by decide⟩

theorem witness_CascadePairs_68 : ∃ (s : State) (t : Fin 256) (pi : Fin 8) (rt ra : Fin 32) (p : Place) (i : Nat) (b : List Byte),
    (s.callsAt t pi ra 0xB2 24 p i = true) ∧
    (s.load p 24 = b) ∧
    (field b 0 1 = 1) ∧
    (s.cas.master = false) :=
  ⟨{ State.reset with mcc.dmem := [(0, 1#8)], cas.master := false }, 0, 0, 0, 0, .dmem 0, 0, bytesOf [0x1, 0x0, 0x0, 0x0, 0x0, 0x0, 0x0, 0x0, 0x0, 0x0, 0x0, 0x0, 0x0, 0x0, 0x0, 0x0, 0x0, 0x0, 0x0, 0x0, 0x0, 0x0, 0x0, 0x0], by decide, by decide, by decide, by decide⟩

theorem witness_CascadePairs_69 : ∃ (s : State) (t : Fin 256) (pi : Fin 8) (rt ra : Fin 32) (p : Place) (i : Nat) (b : List Byte),
    (s.callsAt t pi ra 0xB3 16 p i = true) ∧
    (s.load p 16 = b) ∧
    (zeros b 2 2 = true ∧ field b 4 4 < 1000000000) ∧
    (s.cas.master = true ∧ s.cas.pair = 0 ∧ s.cas.snapDue = none) ∧
    (s.nowNs + 10000000 ≤ field b 8 8 * 1000000000 + field b 4 4) :=
  ⟨{ State.reset with mcc.dmem := [(0, 7#8), (8, 100#8)], cas.chips := 2, cas.ports := [(0, { role := 3, st := 2, credit := fullCredit })] }, 0, 0, 0, 0, .dmem 0, 0, bytesOf [0x7, 0x0, 0x0, 0x0, 0x0, 0x0, 0x0, 0x0, 0x64, 0x0, 0x0, 0x0, 0x0, 0x0, 0x0, 0x0], by decide, by decide, by decide, by decide, by decide⟩

theorem witness_CascadePairs_70 : ∃ (s : State) (t : Fin 256) (pi : Fin 8) (rt ra : Fin 32) (p : Place) (i : Nat) (b : List Byte),
    (s.callsAt t pi ra 0xB3 16 p i = true) ∧
    (s.load p 16 = b) ∧
    (zeros b 2 2 = true ∧ field b 4 4 < 1000000000) ∧
    (s.cas.master = true ∧ s.cas.pair = 0) ∧
    (field b 8 8 * 1000000000 + field b 4 4 < s.nowNs + 10000000) :=
  ⟨{ State.reset with mcc.dmem := [(0, 7#8)] }, 0, 0, 0, 0, .dmem 0, 0, bytesOf [0x7, 0x0, 0x0, 0x0, 0x0, 0x0, 0x0, 0x0, 0x0, 0x0, 0x0, 0x0, 0x0, 0x0, 0x0, 0x0], by decide, by decide, by decide, by decide, by decide⟩

theorem witness_MacsAndPower_1 : ∃ (s : State) (m : Fin 2) (rate : Fin 3) (k : MacCfg),
    ((s.mac m).cfg = some k ∧ (s.mac m).cfgok = true ∧ (s.mac m).armed = false ∧ s.coresRun = true) ∧
    ((s.mac m).link = false) ∧
    (rateAdmitted k.ratepol rate = true) :=
  ⟨{ State.reset with macs := [(1, { cfg := some { promisc := true, enable := true }, cfgok := true })] }, 1, 2, { promisc := true, enable := true }, by decide, by decide, by decide⟩

theorem witness_MacsAndPower_2 : ∃ (s : State) (m : Fin 2) (rate : Fin 3) (k : MacCfg),
    ((s.mac m).cfg = some k ∧ (s.mac m).cfgok = true ∧ (s.mac m).armed = false ∧ s.coresRun = true) ∧
    ((s.mac m).link = false) ∧
    (rateAdmitted k.ratepol rate = false) :=
  ⟨{ State.reset with macs := [(1, { cfg := some { promisc := true, enable := true, ratepol := 3 }, cfgok := true })] }, 1, 2, { promisc := true, enable := true, ratepol := 3 }, by decide, by decide, by decide⟩

theorem witness_MacsAndPower_3 : ∃ (s : State) (m : Fin 2) (rate : Fin 3),
    ((s.mac m).cfg = none ∨ (s.mac m).cfgok = false) :=
  ⟨State.reset, 1, 2, by decide⟩

theorem witness_MacsAndPower_4 : ∃ (s : State) (m : Fin 2) (lock : Bool) (k : MacCfg),
    ((s.mac m).cfg = some k ∧ (s.mac m).cfgok = true ∧ (s.mac m).armed = false ∧ s.coresRun = true) ∧
    ((s.mac m).link = true) ∧
    (s.tmu.sel.kind ≠ m.val + 1) :=
  ⟨{ State.reset with macs := [(1, { cfg := some { promisc := true, enable := true }, cfgok := true, link := true, blockLock := true })] }, 1, true, { promisc := true, enable := true }, by decide, by decide, by decide⟩

theorem witness_MacsAndPower_5 : ∃ (s : State) (m : Fin 2) (lock : Bool),
    ((s.mac m).link = false ∧ (lock = false ∨ (s.mac m).blockLock = false) ∧ (s.mac m).cfgok = false) :=
  ⟨State.reset, 1, true, by decide⟩

theorem witness_MacsAndPower_6 : ∃ (s : State) (m : Fin 2) (f : List Byte) (ok : Bool) (fill : Fin 131073) (k : MacCfg),
    ((s.mac m).cfg = some k ∧ (s.mac m).cfgok = true ∧ (s.mac m).armed = false ∧ s.coresRun = true) ∧
    ((s.mac m).link = true) ∧
    (131072 < fill.val + (f.length + 4)) :=
  ⟨{ State.reset with macs := [(1, { cfg := some { promisc := true, enable := true }, cfgok := true, link := true, blockLock := true })] }, 1, zeroBytes 60, true, 131072, { promisc := true, enable := true }, by decide, by decide, by decide⟩

theorem witness_MacsAndPower_7 : ∃ (s : State) (m : Fin 2) (f : List Byte) (ok : Bool) (fill : Fin 131073) (k : MacCfg),
    ((s.mac m).cfg = some k ∧ (s.mac m).cfgok = true ∧ (s.mac m).armed = false ∧ s.coresRun = true) ∧
    ((s.mac m).link = true) ∧
    (fill.val + (f.length + 4) ≤ 131072) ∧
    (ok = false) :=
  ⟨{ State.reset with macs := [(1, { cfg := some { promisc := true, enable := true }, cfgok := true, link := true, blockLock := true })] }, 1, zeroBytes 60, false, 0, { promisc := true, enable := true }, by decide, by decide, by decide, by decide⟩

theorem witness_MacsAndPower_8 : ∃ (s : State) (m : Fin 2) (f : List Byte) (ok : Bool) (fill : Fin 131073) (k : MacCfg),
    ((s.mac m).cfg = some k ∧ (s.mac m).cfgok = true ∧ (s.mac m).armed = false ∧ s.coresRun = true) ∧
    ((s.mac m).link = true) ∧
    (fill.val + (f.length + 4) ≤ 131072) ∧
    (ok = true ∧ f.length < 60) :=
  ⟨{ State.reset with macs := [(1, { cfg := some { promisc := true, enable := true }, cfgok := true, link := true, blockLock := true })] }, 1, zeroBytes 59, true, 0, { promisc := true, enable := true }, by decide, by decide, by decide, by decide⟩

theorem witness_MacsAndPower_9 : ∃ (s : State) (m : Fin 2) (f : List Byte) (ok : Bool) (fill : Fin 131073) (k : MacCfg),
    ((s.mac m).cfg = some k ∧ (s.mac m).cfgok = true ∧ (s.mac m).armed = false ∧ s.coresRun = true) ∧
    ((s.mac m).link = true) ∧
    (fill.val + (f.length + 4) ≤ 131072) ∧
    (ok = true ∧ 60 ≤ f.length ∧ k.maxlen < f.length + 4) :=
  ⟨{ State.reset with macs := [(1, { cfg := some { promisc := true, enable := true, maxlen := 63 }, cfgok := true, link := true, blockLock := true })] }, 1, zeroBytes 60, true, 0, { promisc := true, enable := true, maxlen := 63 }, by decide, by decide, by decide, by decide⟩

theorem witness_MacsAndPower_10 : ∃ (s : State) (m : Fin 2) (f : List Byte) (ok : Bool) (fill : Fin 131073) (k : MacCfg),
    ((s.mac m).cfg = some k ∧ (s.mac m).cfgok = true ∧ (s.mac m).armed = false ∧ s.coresRun = true) ∧
    ((s.mac m).link = true) ∧
    (fill.val + (f.length + 4) ≤ 131072) ∧
    (60 ≤ f.length ∧ f.length + 4 ≤ k.maxlen ∧ ok = true ∧ ptpEvent f = false) ∧
    (k.takes f = false) :=
  ⟨{ State.reset with macs := [(1, { cfg := some { enable := true, promisc := false }, cfgok := true, link := true, blockLock := true })] }, 1, zeroBytes 60, true, 0, { enable := true, promisc := false }, by decide, by decide, by decide, by decide, by decide⟩

theorem witness_MacsAndPower_11 : ∃ (s : State) (m : Fin 2) (f : List Byte) (ok : Bool) (fill : Fin 131073) (k : MacCfg) (r : RxBuf) (l : List RxBuf),
    ((s.mac m).cfg = some k ∧ (s.mac m).cfgok = true ∧ (s.mac m).armed = false ∧ s.coresRun = true) ∧
    ((s.mac m).link = true) ∧
    (fill.val + (f.length + 4) ≤ 131072) ∧
    (60 ≤ f.length ∧ f.length + 4 ≤ k.maxlen ∧ ok = true ∧ ptpEvent f = false) ∧
    (k.takes f = true ∧ ethType f ≠ 0x8808 ∧ k.command f = none) ∧
    ((s.mac m).posted = r :: l) ∧
    ((s.mcc.queues.get [] (evKey (5 + m.val) 0)).length < evCap (5 + m.val)) :=
  ⟨{ State.reset with macs := [(1, { cfg := some { promisc := true, enable := true }, cfgok := true, link := true, blockLock := true, posted := [{ thread := 0, buf := 64, len := 2048, cookie := 7 }] })] }, 1, zeroBytes 20 ++ [5#8] ++ zeroBytes 39, true, 0, { promisc := true, enable := true }, { thread := 0, buf := 64, len := 2048, cookie := 7 }, [], by decide, by decide, by decide, by decide, by decide, by decide, by decide⟩

theorem witness_MacsAndPower_12 : ∃ (s : State) (m : Fin 2) (f : List Byte) (ok : Bool) (fill : Fin 131073) (k : MacCfg),
    ((s.mac m).cfg = some k ∧ (s.mac m).cfgok = true ∧ (s.mac m).armed = false ∧ s.coresRun = true) ∧
    ((s.mac m).link = true) ∧
    (fill.val + (f.length + 4) ≤ 131072) ∧
    (60 ≤ f.length ∧ f.length + 4 ≤ k.maxlen ∧ ok = true ∧ ptpEvent f = false) ∧
    (k.takes f = true ∧ ethType f ≠ 0x8808 ∧ k.command f = none) ∧
    ((s.mac m).posted = []) :=
  ⟨{ State.reset with macs := [(1, { cfg := some { promisc := true, enable := true }, cfgok := true, link := true, blockLock := true })] }, 1, zeroBytes 60, true, 0, { promisc := true, enable := true }, by decide, by decide, by decide, by decide, by decide, by decide⟩

theorem witness_MacsAndPower_13 : ∃ (s : State) (m : Fin 2) (f : List Byte) (ok : Bool) (fill : Fin 131073) (k : MacCfg) (q : Nat),
    ((s.mac m).cfg = some k ∧ (s.mac m).cfgok = true ∧ (s.mac m).armed = false ∧ s.coresRun = true) ∧
    ((s.mac m).link = true) ∧
    (fill.val + (f.length + 4) ≤ 131072) ∧
    (60 ≤ f.length ∧ f.length + 4 ≤ k.maxlen ∧ ok = true ∧ ptpEvent f = false) ∧
    (k.takes f = true ∧ ethType f = 0x8808 ∧ beField f (ethTypeAt f + 2) 2 = 1) ∧
    (beField f (ethTypeAt f + 4) 2 = q ∧ k.rxpause = true) :=
  ⟨{ State.reset with macs := [(1, { cfg := some { promisc := true, enable := true, rxpause := true }, cfgok := true, link := true, blockLock := true })] }, 1, (be 6 0x0180C2000001 ++ zeroBytes 6 ++ be 2 0x8808 ++ be 2 1 ++ be 2 3 ++ zeroBytes 42), true, 0, { promisc := true, enable := true, rxpause := true }, 3, by decide, by decide, by decide, by decide, by decide, by decide⟩

theorem witness_MacsAndPower_14 : ∃ (s : State) (m : Fin 2) (f : List Byte) (fill : Fin 131073) (k : MacCfg),
    ((s.mac m).cfg = some k ∧ (s.mac m).cfgok = true ∧ (s.mac m).armed = true ∧ s.glb.mode = .vigil) ∧
    (((s.mac m).pats.any fun p => patMatch p.2.1 p.2.2 f) = true ∧ f.length + 4 ≤ k.maxlen ∧ (s.mac m).kept = none) ∧
    (s.cpm.latched = none) :=
  ⟨{ State.reset with macs := [(1, { cfg := some { promisc := true, enable := true }, cfgok := true, armed := true, pats := [(0, (1, [5#8]))] })], glb.mode := .vigil }, 1, [5#8] ++ zeroBytes 59, 0, { promisc := true, enable := true }, by decide, by decide, by decide⟩

theorem witness_MacsAndPower_15 : ∃ (s : State) (m : Fin 2) (f : List Byte) (fill : Fin 131073) (k : MacCfg),
    ((s.mac m).cfg = some k ∧ (s.mac m).cfgok = true ∧ (s.mac m).armed = true ∧ s.glb.mode = .vigil) ∧
    (((s.mac m).pats.any fun p => patMatch p.2.1 p.2.2 f) = false) :=
  ⟨{ State.reset with macs := [(1, { cfg := some { promisc := true, enable := true }, cfgok := true, armed := true })], glb.mode := .vigil }, 1, zeroBytes 60, 0, { promisc := true, enable := true }, by decide, by decide⟩

theorem witness_MacsAndPower_16 : ∃ (s : State) (m : Fin 2) (fill : Fin 131073) (k : MacCfg),
    ((s.mac m).cfg = some k ∧ k.txpause = true ∧ (s.mac m).link = true ∧ s.coresRun = true) ∧
    ((s.mac m).xoff = false ∧ k.hiwat * 1024 ≤ fill.val) :=
  ⟨{ State.reset with macs := [(1, { cfg := some { promisc := true, enable := true, txpause := true, hiwat := 16, lowat := 8, pquanta := 9, addr := [2, 0, 0, 0, 0, 1] }, cfgok := true, link := true, blockLock := true })] }, 1, 20000, { promisc := true, enable := true, txpause := true, hiwat := 16, lowat := 8, pquanta := 9, addr := [2, 0, 0, 0, 0, 1] }, by decide, by decide⟩

theorem witness_MacsAndPower_17 : ∃ (s : State) (m : Fin 2) (fill : Fin 131073) (k : MacCfg),
    ((s.mac m).cfg = some k ∧ k.txpause = true ∧ (s.mac m).link = true ∧ s.coresRun = true) ∧
    ((s.mac m).xoff = true ∧ k.lowat * 1024 < fill.val) ∧
    ((s.mac m).xoffAt + quantaNs k.pquanta (s.mac m).rate / 2 ≤ s.nowNs) :=
  ⟨{ State.reset with macs := [(1, { cfg := some { promisc := true, enable := true, txpause := true, hiwat := 16, lowat := 8, pquanta := 9 }, cfgok := true, link := true, blockLock := true, xoff := true })], tmu.sec := 1 }, 1, 20000, { promisc := true, enable := true, txpause := true, hiwat := 16, lowat := 8, pquanta := 9 }, by decide, by decide, by decide⟩

theorem witness_MacsAndPower_18 : ∃ (s : State) (m : Fin 2) (fill : Fin 131073) (k : MacCfg),
    ((s.mac m).cfg = some k ∧ k.txpause = true ∧ (s.mac m).link = true ∧ s.coresRun = true) ∧
    ((s.mac m).xoff = true ∧ fill.val ≤ k.lowat * 1024) :=
  ⟨{ State.reset with macs := [(1, { cfg := some { promisc := true, enable := true, txpause := true, hiwat := 16, lowat := 8, pquanta := 9 }, cfgok := true, link := true, blockLock := true, xoff := true })], tmu.sec := 1 }, 1, 200, { promisc := true, enable := true, txpause := true, hiwat := 16, lowat := 8, pquanta := 9 }, by decide, by decide⟩

theorem witness_MacsAndPower_19 : ∃ (s : State) (m : Fin 2) (a : Nat),
    ((s.mac m).pausedTill = some a) ∧
    (s.clocked = true) :=
  ⟨{ State.reset with macs := [(1, { cfg := some { promisc := true, enable := true }, cfgok := true, pausedTill := some 0 })] }, 1, 0, by decide, by decide⟩

theorem witness_MacsAndPower_20 : ∃ (s : State) (m : Fin 2) (x : TxFrame) (l : List TxFrame),
    ((s.mac m).link = true ∧ s.coresRun = true) ∧
    ((s.mac m).txq = x :: l ∧ (s.mac m).dgramNext = false) ∧
    (s.notPaused m x.bytes.length = true ∧ x.onestep = false) :=
  ⟨{ State.reset with macs := [(1, { cfg := some { promisc := true, enable := true }, cfgok := true, link := true, blockLock := true, txq := [{ bytes := zeroBytes 60, id := 1 }] })] }, 1, { bytes := zeroBytes 60, id := 1 }, [], by decide, by decide, by decide⟩

theorem witness_MacsAndPower_21 : ∃ (s : State) (m : Fin 2) (x : TxFrame) (l : List TxFrame),
    ((s.mac m).link = true ∧ s.coresRun = true) ∧
    ((s.mac m).dgrams = x :: l ∧ (s.mac m).dgramNext = true) ∧
    (s.notPaused m (dgramLen x) = true) :=
  ⟨{ State.reset with macs := [(1, { cfg := some { promisc := true, enable := true }, cfgok := true, link := true, blockLock := true, dgrams := [{ bytes := zeroBytes 60 }] })] }, 1, { bytes := zeroBytes 60 }, [], by decide, by decide, by decide⟩

theorem witness_MacsAndPower_22 : ∃ (s : State) (m : Fin 2),
    ((s.mac m).link = false ∨ s.coresRun = false) :=
  ⟨State.reset, 1, by decide⟩

theorem witness_MacsAndPower_23 : ∃ (s : State) (t : Fin 256) (pi : Fin 8) (rt ra : Fin 32) (p : Place) (i : Nat) (b : List Byte) (d : List Byte) (q : Place),
    (s.callsAt t pi ra 0xA0 24 p i = true) ∧
    (s.load p 24 = b) ∧
    (field b 0 1 = 0 ∧ field b 1 1 ≤ 1 ∧ zeros b 3 1 = true ∧ zeros b 6 2 = true ∧ zeros b 16 8 = true) ∧
    (field b 2 1 ≤ 1 ∧ 60 ≤ field b 4 2 ∧ field b 4 2 ≤ s.maxlen (field b 1 1) - 4) ∧
    ((s.thr t).bufPlace t (field b 8 8) (field b 4 2) = some q) ∧
    (s.poisoned q (field b 4 2) = false) ∧
    (s.load q (field b 4 2) = d) ∧
    ((s.mac (field b 1 1)).link = true ∧ (s.mac (field b 1 1)).txq.length < 256) :=
  ⟨{ State.reset with mcc.dmem := [(1, 1#8), (4, 60#8), (8, 64#8), (70, 5#8)], macs := [(1, { link := true })] }, 0, 0, 0, 0, .dmem 0, 0, bytesOf [0x0, 0x1, 0x0, 0x0, 0x3C, 0x0, 0x0, 0x0, 0x40, 0x0, 0x0, 0x0, 0x0, 0x0, 0x0, 0x0, 0x0, 0x0, 0x0, 0x0, 0x0, 0x0, 0x0, 0x0], bytesOf [0, 0, 0, 0, 0, 0, 5, 0, 0, 0, 0, 0, 0, 0, 0, 0, 0, 0, 0, 0, 0, 0, 0, 0, 0, 0, 0, 0, 0, 0, 0, 0, 0, 0, 0, 0, 0, 0, 0, 0, 0, 0, 0, 0, 0, 0, 0, 0, 0, 0, 0, 0, 0, 0, 0, 0, 0, 0, 0, 0], .dmem 64, by decide, by decide, by decide, by decide, by decide, by decide, by decide, by decide⟩

theorem witness_MacsAndPower_24 : ∃ (s : State) (t : Fin 256) (pi : Fin 8) (rt ra : Fin 32) (p : Place) (i : Nat) (b : List Byte) (d : List Byte) (q : Place),
    (s.callsAt t pi ra 0xA0 24 p i = true) ∧
    (s.load p 24 = b) ∧
    (field b 0 1 = 0 ∧ field b 1 1 ≤ 1 ∧ zeros b 3 1 = true ∧ zeros b 6 2 = true ∧ zeros b 16 8 = true) ∧
    (field b 2 1 = 0 ∧ 60 ≤ field b 4 2 ∧ field b 4 2 ≤ s.maxlen (field b 1 1) - 4) ∧
    ((s.thr t).bufPlace t (field b 8 8) (field b 4 2) = some q) ∧
    (s.poisoned q (field b 4 2) = false) ∧
    (s.load q (field b 4 2) = d) ∧
    ((s.mac (field b 1 1)).link = false) :=
  ⟨{ State.reset with mcc.dmem := [(4, 60#8), (8, 64#8)] }, 0, 0, 0, 0, .dmem 0, 0, bytesOf [0x0, 0x0, 0x0, 0x0, 0x3C, 0x0, 0x0, 0x0, 0x40, 0x0, 0x0, 0x0, 0x0, 0x0, 0x0, 0x0, 0x0, 0x0, 0x0, 0x0, 0x0, 0x0, 0x0, 0x0], zeroBytes 60, .dmem 64, by decide, by decide, by decide, by decide, by decide, by decide, by decide, by decide⟩

theorem witness_MacsAndPower_25 : ∃ (s : State) (t : Fin 256) (pi : Fin 8) (rt ra : Fin 32) (p : Place) (i : Nat) (b : List Byte),
    (s.callsAt t pi ra 0xA0 24 p i = true) ∧
    (s.load p 24 = b) ∧
    (field b 0 1 = 0 ∧ field b 1 1 ≤ 1 ∧ zeros b 3 1 = true ∧ zeros b 6 2 = true ∧ zeros b 16 8 = true) ∧
    (8 ≤ field b 2 1 ∨ field b 4 2 < 60 ∨ s.maxlen (field b 1 1) - 4 < field b 4 2) :=
  ⟨{ State.reset with mcc.dmem := [(4, 59#8)] }, 0, 0, 0, 0, .dmem 0, 0, bytesOf [0x0, 0x0, 0x0, 0x0, 0x3B, 0x0, 0x0, 0x0, 0x0, 0x0, 0x0, 0x0, 0x0, 0x0, 0x0, 0x0, 0x0, 0x0, 0x0, 0x0, 0x0, 0x0, 0x0, 0x0], by decide, by decide, by decide, by decide⟩

theorem witness_MacsAndPower_26 : ∃ (s : State) (t : Fin 256) (pi : Fin 8) (rt ra : Fin 32) (p : Place) (i : Nat) (b : List Byte) (d : List Byte) (q : Place),
    (s.callsAt t pi ra 0xA0 24 p i = true) ∧
    (s.load p 24 = b) ∧
    (field b 0 1 = 1 ∧ field b 1 1 ≤ 1 ∧ zeros b 2 2 = true ∧ zeros b 6 2 = true ∧ zeros b 16 8 = true ∧ (s.thr t).level ≠ .task) ∧
    (field b 4 2 = 128) ∧
    ((s.thr t).bufPlace t (field b 8 8) (128) = some q) ∧
    (s.poisoned q (128) = false) ∧
    (s.load q (128) = d) ∧
    (macCfgBad d = false ∧ (macCfgOf d).enable = true) ∧
    ((s.mac (field b 1 1)).posted = [] ∧ (s.mac (field b 1 1)).cfg = none) :=
  ⟨{ State.reset with mcc.dmem := [(0, 1#8), (1, 1#8), (4, 128#8), (8, 64#8), (64, 2#8), (69, 1#8), (70, 238#8), (71, 5#8), (73, 20#8), (74, 32#8), (76, 16#8), (78, 9#8)], mcc.threads := [(0, { st := .run, level := .system })] }, 0, 0, 0, 0, .dmem 0, 0, bytesOf [0x1, 0x1, 0x0, 0x0, 0x80, 0x0, 0x0, 0x0, 0x40, 0x0, 0x0, 0x0, 0x0, 0x0, 0x0, 0x0, 0x0, 0x0, 0x0, 0x0, 0x0, 0x0, 0x0, 0x0], bytesOf [2, 0, 0, 0, 0, 1, 238, 5, 0, 20, 32, 0, 16, 0, 9, 0, 0, 0, 0, 0, 0, 0, 0, 0, 0, 0, 0, 0, 0, 0, 0, 0, 0, 0, 0, 0, 0, 0, 0, 0, 0, 0, 0, 0, 0, 0, 0, 0, 0, 0, 0, 0, 0, 0, 0, 0, 0, 0, 0, 0, 0, 0, 0, 0, 0, 0, 0, 0, 0, 0, 0, 0, 0, 0, 0, 0, 0, 0, 0, 0, 0, 0, 0, 0, 0, 0, 0, 0, 0, 0, 0, 0, 0, 0, 0, 0, 0, 0, 0, 0, 0, 0, 0, 0, 0, 0, 0, 0, 0, 0, 0, 0, 0, 0, 0, 0, 0, 0, 0, 0, 0, 0, 0, 0, 0, 0, 0, 0], .dmem 64, by decide, by decide, by decide, by decide, by decide, by decide, by decide, by decide, by decide⟩

theorem witness_MacsAndPower_27 : ∃ (s : State) (t : Fin 256) (pi : Fin 8) (rt ra : Fin 32) (p : Place) (i : Nat) (b : List Byte) (d : List Byte) (q : Place),
    (s.callsAt t pi ra 0xA0 24 p i = true) ∧
    (s.load p 24 = b) ∧
    (field b 0 1 = 1 ∧ field b 1 1 ≤ 1 ∧ zeros b 2 2 = true ∧ zeros b 6 2 = true ∧ zeros b 16 8 = true ∧ (s.thr t).level ≠ .task) ∧
    (field b 4 2 = 128) ∧
    ((s.thr t).bufPlace t (field b 8 8) (128) = some q) ∧
    (s.poisoned q (128) = false) ∧
    (s.load q (128) = d) ∧
    (macCfgBad d = true) :=
  ⟨{ State.reset with mcc.dmem := [(0, 1#8), (1, 1#8), (4, 128#8), (8, 64#8)], mcc.threads := [(0, { st := .run, level := .system })] }, 0, 0, 0, 0, .dmem 0, 0, bytesOf [0x1, 0x1, 0x0, 0x0, 0x80, 0x0, 0x0, 0x0, 0x40, 0x0, 0x0, 0x0, 0x0, 0x0, 0x0, 0x0, 0x0, 0x0, 0x0, 0x0, 0x0, 0x0, 0x0, 0x0], zeroBytes 128, .dmem 64, by decide, by decide, by decide, by decide, by decide, by decide, by decide, by decide⟩

theorem witness_MacsAndPower_28 : ∃ (s : State) (t : Fin 256) (pi : Fin 8) (rt ra : Fin 32) (p : Place) (i : Nat) (b : List Byte) (d : List Byte) (q : Place),
    (s.callsAt t pi ra 0xA0 24 p i = true) ∧
    (s.load p 24 = b) ∧
    (field b 0 1 = 2 ∧ field b 1 1 ≤ 1 ∧ zeros b 2 2 = true ∧ zeros b 6 2 = true ∧ zeros b 16 8 = true ∧ (s.thr t).level ≠ .task) ∧
    (field b 4 2 = 152) ∧
    ((s.thr t).bufPlace t (field b 8 8) (152) = some q) ∧
    (s.poisoned q (152) = false) ∧
    (s.load q (152) = d) ∧
    (field d 0 1 ≤ 7 ∧ field d 1 1 ≤ 1 ∧ zeros d 2 6 = true) :=
  ⟨{ State.reset with mcc.dmem := [(0, 2#8), (4, 152#8), (8, 64#8), (64, 3#8), (65, 1#8)], mcc.threads := [(0, { st := .run, level := .system })] }, 0, 0, 0, 0, .dmem 0, 0, bytesOf [0x2, 0x0, 0x0, 0x0, 0x98, 0x0, 0x0, 0x0, 0x40, 0x0, 0x0, 0x0, 0x0, 0x0, 0x0, 0x0, 0x0, 0x0, 0x0, 0x0, 0x0, 0x0, 0x0, 0x0], [3#8, 1#8] ++ zeroBytes 150, .dmem 64, by decide, by decide, by decide, by decide, by decide, by decide, by decide, by decide⟩

theorem witness_MacsAndPower_29 : ∃ (s : State) (t : Fin 256) (pi : Fin 8) (rt ra : Fin 32) (p : Place) (i : Nat) (b : List Byte),
    (s.callsAt t pi ra 0xA1 24 p i = true) ∧
    (s.load p 24 = b) ∧
    (field b 0 1 ≤ 1 ∧ zeros b 1 3 = true ∧ field b 4 4 % 8 = 0 ∧ s.maxlen (field b 0 1) ≤ field b 4 4) ∧
    (s.bufOk t (field b 8 8) (field b 4 4) = true) ∧
    ((s.mac (field b 0 1)).posted.length < 256 ∧ (s.mac (field b 0 1)).kept = none) :=
  ⟨{ State.reset with mcc.dmem := [(0, 1#8), (4, 240#8), (5, 5#8), (8, 64#8), (16, 7#8)] }, 0, 0, 0, 0, .dmem 0, 0, bytesOf [0x1, 0x0, 0x0, 0x0, 0xF0, 0x5, 0x0, 0x0, 0x40, 0x0, 0x0, 0x0, 0x0, 0x0, 0x0, 0x0, 0x7, 0x0, 0x0, 0x0, 0x0, 0x0, 0x0, 0x0], by decide, by decide, by decide, by decide, by decide⟩

theorem witness_MacsAndPower_30 : ∃ (s : State) (t : Fin 256) (pi : Fin 8) (rt ra : Fin 32) (p : Place) (i : Nat) (b : List Byte),
    (s.callsAt t pi ra 0xA1 24 p i = true) ∧
    (s.load p 24 = b) ∧
    (1 < field b 0 1 ∨ field b 4 4 % 8 ≠ 0 ∨ field b 4 4 < s.maxlen (field b 0 1)) :=
  ⟨{ State.reset with mcc.dmem := [(4, 236#8), (5, 5#8)] }, 0, 0, 0, 0, .dmem 0, 0, bytesOf [0x0, 0x0, 0x0, 0x0, 0xEC, 0x5, 0x0, 0x0, 0x0, 0x0, 0x0, 0x0, 0x0, 0x0, 0x0, 0x0, 0x0, 0x0, 0x0, 0x0, 0x0, 0x0, 0x0, 0x0], by decide, by decide, by decide⟩

theorem witness_MacsAndPower_31 : ∃ (s : State) (g : BitVec 16),
    (s.cpm.porstN = false) :=
  ⟨{ State.reset with cpm.porstN := false, glb.mode := .off }, 1, by decide⟩

theorem witness_MacsAndPower_32 : ∃ (s : State) (g : BitVec 16) (testN : Bool),
    (s.cpm.porstN = true ∨ testN = false) :=
  ⟨State.reset, 1, true, by decide⟩

theorem witness_MacsAndPower_33 : ∃ (s : State) (o : Nat),
    (s.glb.mode = .off ∧ s.cpm.porstN = true ∧ s.cpm.pwrenCore = true) ∧
    (o / 1000000000 < 2 ^ 64) :=
  ⟨{ State.reset with glb.mode := .off, cpm.cause := 1 }, 5000000000, by decide, by decide⟩

theorem witness_MacsAndPower_34 : ∃ (s : State) (o : Nat),
    (s.glb.mode ≠ .off ∨ s.cpm.porstN = false ∨ s.cpm.pwrenCore = false) :=
  ⟨State.reset, 5, by decide⟩

theorem witness_MacsAndPower_35 : ∃ (s : State),
    (s.glb.mode = .off ∧ s.cpm.porstN = true ∧ s.cpm.pwrenCore = true ∧ s.cpm.pgood = false) :=
  ⟨{ State.reset with glb.mode := .off, cpm.pgood := false }, by decide⟩

theorem witness_MacsAndPower_36 : ∃ (s : State),
    (s.glb.mode ≠ .off ∨ s.cpm.pgood = true) :=
  ⟨State.reset, by decide⟩

theorem witness_MacsAndPower_37 : ∃ (s : State),
    (s.glb.mode = .off ∧ s.cpm.porstN = true ∧ s.cpm.pwrenCore = false ∧ s.cpm.pfail = false) :=
  ⟨{ State.reset with glb.mode := .off, cpm.pwrenCore := false }, by decide⟩

theorem witness_MacsAndPower_38 : ∃ (s : State),
    (s.glb.mode ≠ .off ∨ s.cpm.pwrenCore = true ∨ s.cpm.pfail = true) :=
  ⟨State.reset, by decide⟩

theorem witness_MacsAndPower_39 : ∃ (s : State),
    (s.cpm.porstN = true ∧ s.cpm.slowFail = false) :=
  ⟨State.reset, by decide⟩

theorem witness_MacsAndPower_40 : ∃ (s : State),
    (s.cpm.porstN = true) :=
  ⟨{ State.reset with ctr := [(5, 5)] }, by decide⟩

theorem witness_MacsAndPower_41 : ∃ (s : State),
    (s.cpm.porstN = false) :=
  ⟨{ State.reset with cpm.porstN := false }, by decide⟩

theorem witness_MacsAndPower_42 : ∃ (s : State),
    (s.cpm.porstN = true ∧ s.cpm.pfail = false ∧ s.stest.frozen = false) ∧
    (s.glb.mode = .bringup ∨ s.glb.mode = .service ∨ s.glb.mode = .standby) :=
  ⟨{ State.reset with glb.mode := .service }, by decide, by decide⟩

theorem witness_MacsAndPower_43 : ∃ (s : State),
    (s.cpm.porstN = true ∧ s.cpm.pfail = false) ∧
    (s.glb.mode = .vigil) :=
  ⟨{ State.reset with glb.mode := .vigil }, by decide, by decide⟩

theorem witness_MacsAndPower_44 : ∃ (s : State),
    (s.cpm.porstN = true ∧ s.cpm.pfail = false ∧ s.stest.frozen = true) ∧
    (s.glb.mode = .bringup ∨ s.glb.mode = .service ∨ s.glb.mode = .standby) :=
  ⟨{ State.reset with glb.mode := .service, stest.frozen := true }, by decide, by decide⟩

theorem witness_MacsAndPower_45 : ∃ (s : State),
    (s.cpm.porstN = true ∧ s.cpm.pfail = false) ∧
    (s.glb.mode = .off) :=
  ⟨{ State.reset with glb.mode := .off }, by decide, by decide⟩

theorem witness_MacsAndPower_46 : ∃ (s : State),
    (s.cpm.porstN = false ∨ s.cpm.pfail = true) :=
  ⟨{ State.reset with cpm.pfail := true }, by decide⟩

theorem witness_MacsAndPower_47 : ∃ (s : State) (o : Nat),
    (s.glb.mode = .holdup) :=
  ⟨{ State.reset with glb.mode := .holdup }, 5, by decide⟩

theorem witness_MacsAndPower_48 : ∃ (s : State) (o : Nat),
    (s.glb.mode = .holdup) ∧
    (s.lake.inited = false ∨ s.lake.formatted = false) :=
  ⟨{ State.reset with glb.mode := .holdup, tmu.ns := 700000 }, 5, by decide, by decide⟩

theorem witness_MacsAndPower_49 : ∃ (s : State) (o : Nat),
    (s.glb.mode = .holdup) :=
  ⟨{ State.reset with glb.mode := .holdup }, 5, by decide⟩

theorem witness_MacsAndPower_50 : ∃ (s : State) (high : Bool) (o : Nat),
    (s.glb.mode ≠ .holdup) :=
  ⟨State.reset, true, 5, by decide⟩

theorem witness_MacsAndPower_51 : ∃ (s : State),
    (s.cpm.porstN = true) ∧
    (s.glb.mode ≠ .off ∨ s.cpm.cause = 0 ∨ s.cpm.pwrenCore = true) :=
  ⟨State.reset, by decide, by decide⟩

theorem witness_MacsAndPower_52 : ∃ (s : State),
    (s.cpm.porstN = true) ∧
    (s.glb.mode = .off ∧ s.cpm.cause ≠ 0 ∧ s.cpm.pwrenCore = false) :=
  ⟨{ State.reset with glb.mode := .off, cpm.cause := 1, cpm.pwrenCore := false }, by decide, by decide⟩

theorem witness_MacsAndPower_53 : ∃ (s : State),
    (s.cpm.vreq = false ∧ s.cpm.porstN = true ∧ s.stest.frozen = false) ∧
    (s.glb.mode = .service ∧ s.lake.ready = true ∧ s.cpm.drain = .none ∧ s.cpm.resetDue = none) ∧
    (∀ p ∈ s.cas.ports, p.2.role = 0) :=
  ⟨{ State.reset with glb.mode := .service, lake.ready := true }, by decide, by decide, by decide⟩

theorem witness_MacsAndPower_54 : ∃ (s : State) (n : Nat),
    (s.cpm.vreq = false ∧ s.cpm.porstN = true ∧ s.stest.frozen = false ∧ s.glb.mode ≠ .off ∧ s.glb.mode ≠ .vigil) ∧
    ((if s.glb.mode ≠ .service then 1 else if (s.cas.ports.any fun p => p.2.role != 0) then 2 else if s.lake.ready = false then 3 else 0) = n) ∧
    (n ≠ 0) :=
  ⟨State.reset, 1, by decide, by decide, by decide⟩

theorem witness_MacsAndPower_55 : ∃ (s : State),
    (s.cpm.vreq = true ∨ s.cpm.porstN = false) :=
  ⟨{ State.reset with cpm.vreq := true }, by decide⟩

theorem witness_MacsAndPower_56 : ∃ (s : State) (o : Nat),
    (s.cpm.drain = .vigil ∧ s.coresRun = true) :=
  ⟨{ State.reset with glb.mode := .service, cpm.drain := .vigil }, 5, by decide⟩

theorem witness_MacsAndPower_57 : ∃ (s : State) (o : Nat),
    (s.cpm.drain = .vigil ∧ s.coresRun = true) :=
  ⟨{ State.reset with glb.mode := .service, cpm.drain := .vigil }, 5, by decide⟩

theorem witness_MacsAndPower_58 : ∃ (s : State) (l : List CommitEv) (o : Nat),
    (s.cpm.drain ≠ .vigil ∨ s.coresRun = false) :=
  ⟨State.reset, [], 5, by decide⟩

theorem witness_MacsAndPower_59 : ∃ (s : State) (o : Nat),
    (s.cpm.porstN = true ∧ s.cpm.drain = .vigil) :=
  ⟨{ State.reset with cpm.drain := .vigil, cpm.vreq := true }, 5, by decide⟩

theorem witness_MacsAndPower_60 : ∃ (s : State) (o n : Nat) (rise : Bool),
    (s.cpm.porstN = true ∧ s.cpm.drain ≠ .vigil ∧ s.glb.mode = .vigil) ∧
    ((s.cpm.latched = some n ∨ (s.cpm.latched = none ∧ rise = true ∧ n = 1))) :=
  ⟨{ State.reset with glb.mode := .vigil }, 100000000000, 1, true, by decide, by decide⟩

theorem witness_MacsAndPower_61 : ∃ (s : State) (o : Nat),
    (s.glb.mode ≠ .vigil ∧ s.cpm.drain ≠ .vigil) :=
  ⟨State.reset, 5, by decide⟩

theorem witness_MacsAndPower_62 : ∃ (s : State) (o n : Nat),
    (s.glb.mode = .bringup ∨ s.glb.mode = .service ∨ s.glb.mode = .standby) ∧
    (s.cpm.resetDue = some n) ∧
    (o / 1000000000 < 2 ^ 64 ∧ n ≠ 0) :=
  ⟨{ State.reset with glb.mode := .service, cpm.resetDue := some 3 }, 5, 3, by decide, by decide, by decide⟩

theorem witness_MacsAndPower_63 : ∃ (s : State) (o : Nat),
    (s.cpm.resetDue = none ∨ s.glb.mode = .holdup ∨ s.glb.mode = .vigil ∨ s.glb.mode = .off) :=
  ⟨State.reset, 5, by decide⟩

theorem witness_RecorderTestAndDebug_1 : ∃ (s : State) (t : Fin 256) (pi : Fin 8) (rt ra : Fin 32) (p : Place) (i : Nat) (b : List Byte) (d : List Byte) (q : Place),
    (s.callsAt t pi ra 0xC0 16 p i = true) ∧
    (s.load p 16 = b) ∧
    (zeros b 4 4 = true ∧ 0x7000 ≤ field b 0 2 ∧ field b 2 2 ≤ 992 ∧ (field b 0 2 < 0x8000 → (s.thr t).level = .legal)) ∧
    ((s.thr t).bufPlace t (field b 8 8) (field b 2 2) = some q) ∧
    (s.poisoned q (field b 2 2) = false) ∧
    (s.load q (field b 2 2) = d) ∧
    (s.lake.ready = true ∧ s.evr.staged = []) :=
  ⟨{ State.reset with mcc.dmem := [(0, 1#8), (1, 128#8), (2, 2#8), (8, 64#8), (64, 52#8), (65, 18#8)], lake.ready := true, mcc.threads := [(0, { st := .run, level := .system })] }, 0, 0, 0, 0, .dmem 0, 0, bytesOf [0x1, 0x80, 0x2, 0x0, 0x0, 0x0, 0x0, 0x0, 0x40, 0x0, 0x0, 0x0, 0x0, 0x0, 0x0, 0x0], bytesOf [0x34, 0x12], .dmem 64, by decide, by decide, by decide, by decide, by decide, by decide, by decide⟩

theorem witness_RecorderTestAndDebug_2 : ∃ (s : State) (t : Fin 256) (pi : Fin 8) (rt ra : Fin 32) (p : Place) (i : Nat) (b : List Byte) (d : List Byte) (q : Place),
    (s.callsAt t pi ra 0xC0 16 p i = true) ∧
    (s.load p 16 = b) ∧
    (zeros b 4 4 = true ∧ 0x7000 ≤ field b 0 2 ∧ field b 2 2 ≤ 992 ∧ (field b 0 2 < 0x8000 → (s.thr t).level = .legal)) ∧
    ((s.thr t).bufPlace t (field b 8 8) (field b 2 2) = some q) ∧
    (s.poisoned q (field b 2 2) = false) ∧
    (s.load q (field b 2 2) = d) ∧
    ((s.lake.ready = false ∨ s.evr.staged ≠ []) ∧ s.evr.stagedBytes + evLen d ≤ 65536) :=
  ⟨{ State.reset with mcc.dmem := [(0, 1#8), (1, 128#8), (2, 2#8), (8, 64#8), (64, 52#8), (65, 18#8)], mcc.threads := [(0, { st := .run, level := .system })] }, 0, 0, 0, 0, .dmem 0, 0, bytesOf [0x1, 0x80, 0x2, 0x0, 0x0, 0x0, 0x0, 0x0, 0x40, 0x0, 0x0, 0x0, 0x0, 0x0, 0x0, 0x0], bytesOf [0x34, 0x12], .dmem 64, by decide, by decide, by decide, by decide, by decide, by decide, by decide⟩

theorem witness_RecorderTestAndDebug_3 : ∃ (s : State) (t : Fin 256) (pi : Fin 8) (rt ra : Fin 32) (p : Place) (i : Nat) (b : List Byte),
    (s.callsAt t pi ra 0xC0 16 p i = true) ∧
    (s.load p 16 = b) ∧
    (field b 0 2 < 0x7000 ∨ (field b 0 2 < 0x8000 ∧ (s.thr t).level ≠ .legal) ∨ 992 < field b 2 2) :=
  ⟨{ State.reset with mcc.dmem := [(0, 1#8), (1, 112#8)], mcc.threads := [(0, { st := .run, level := .system })] }, 0, 0, 0, 0, .dmem 0, 0, bytesOf [0x1, 0x70, 0x0, 0x0, 0x0, 0x0, 0x0, 0x0, 0x0, 0x0, 0x0, 0x0, 0x0, 0x0, 0x0, 0x0], by decide, by decide, by decide⟩

theorem witness_RecorderTestAndDebug_4 : ∃ (s : State) (x : Nat × Nat × Nat) (l : List (Nat × Nat × Nat)),
    (s.lake.ready = true) ∧
    (s.evr.clears = x :: l ∧ s.evr.clearing = none) ∧
    (s.clocked = true) :=
  ⟨{ State.reset with lake.ready := true, evr.dropped := 3, stest.debugDue := true, evr.clears := [(2, 5, 9)] }, (2, 5, 9), [], by decide, by decide, by decide⟩

theorem witness_RecorderTestAndDebug_5 : ∃ (s : State),
    (s.lake.ready = true) ∧
    (s.evr.clears = [] ∨ s.evr.clearing.isSome = true) ∧
    (s.clocked = true) :=
  ⟨{ State.reset with lake.ready := true, evr.dropped := 3, stest.debugDue := true }, by decide, by decide, by decide⟩

theorem witness_RecorderTestAndDebug_6 : ∃ (s : State) (e : EvRec),
    (s.lake.ready = true ∧ s.evr.staged = [e]) ∧
    (s.evr.dropped = 0 ∧ s.stest.debugDue = false ∧ s.evr.clears = []) ∧
    (s.clocked = true) :=
  ⟨{ State.reset with lake.ready := true, evr.staged := [{ typ := 5, opmin := 0, pcycle := 0, flags := 0, eseq := 9, tai := 7, data := [] }] }, { typ := 5, opmin := 0, pcycle := 0, flags := 0, eseq := 9, tai := 7, data := [] }, by decide, by decide, by decide⟩

theorem witness_RecorderTestAndDebug_7 : ∃ (s : State),
    (s.lake.ready = false) :=
  ⟨State.reset, by decide⟩

theorem witness_RecorderTestAndDebug_8 : ∃ (s : State) (item : Fin 6) (unit : Fin 256),
    ((s.glb.mode = .service ∨ s.glb.mode = .standby) ∧ s.stest.frozen = false ∧ s.cpm.drain = .none ∧ s.stest.bank = 0x7F) ∧
    (2 ≤ item.val ∧ (s.stest.running = true → s.stest.testAt + 10000000000 ≤ s.nowNs)) ∧
    (s.stest.sramStopped = false ∧ s.glb.spareBank = 0x7F) ∧
    (s.stest.nextBank ≠ 95) :=
  ⟨{ State.reset with glb.mode := .service, stest.nextBank := 3 }, 2, 0, by decide, by decide, by decide, by decide⟩

theorem witness_RecorderTestAndDebug_9 : ∃ (s : State) (item : Fin 6) (unit : Fin 256),
    ((s.glb.mode = .service ∨ s.glb.mode = .standby) ∧ s.stest.frozen = false ∧ s.cpm.drain = .none ∧ s.stest.bank = 0x7F) ∧
    (2 ≤ item.val ∧ (s.stest.running = true → s.stest.testAt + 10000000000 ≤ s.nowNs)) ∧
    (s.stest.sramStopped = false ∧ s.glb.spareBank = 0x7F) ∧
    (s.stest.nextBank = 95) :=
  ⟨{ State.reset with glb.mode := .service }, 2, 0, by decide, by decide, by decide, by decide⟩

theorem witness_RecorderTestAndDebug_10 : ∃ (s : State) (item : Fin 6) (unit : Fin 256),
    ((s.glb.mode = .service ∨ s.glb.mode = .standby) ∧ s.stest.frozen = false ∧ s.cpm.drain = .none ∧ s.stest.bank = 0x7F) ∧
    (2 ≤ item.val ∧ (s.stest.running = true → s.stest.testAt + 10000000000 ≤ s.nowNs)) :=
  ⟨{ State.reset with glb.mode := .service }, 4, 0, by decide, by decide⟩

theorem witness_RecorderTestAndDebug_11 : ∃ (s : State) (item : Fin 6) (unit : Fin 256) (ok : Bool),
    (item.val < 2 ∨ s.stest.bank ≠ 0x7F ∨ s.stest.frozen = true ∨ (s.stest.running = true ∧ s.nowNs < s.stest.testAt + 10000000000)) :=
  ⟨State.reset, 1, 0, true, by decide⟩

theorem witness_RecorderTestAndDebug_12 : ∃ (s : State),
    (s.coresRun = true ∧ s.glb.reloc = .copyOut) :=
  ⟨{ State.reset with glb.reloc := .copyOut, stest.bank := 3 }, by decide⟩

theorem witness_RecorderTestAndDebug_13 : ∃ (s : State),
    (s.coresRun = true ∧ s.glb.reloc = .copyBack) ∧
    (s.stest.bank ≠ 94) :=
  ⟨{ State.reset with glb.reloc := .copyBack, stest.bank := 3 }, by decide, by decide⟩

theorem witness_RecorderTestAndDebug_14 : ∃ (s : State),
    (s.coresRun = true ∧ s.glb.reloc = .copyBack) ∧
    (s.stest.bank = 94) :=
  ⟨{ State.reset with glb.reloc := .copyBack, stest.bank := 94 }, by decide, by decide⟩

theorem witness_RecorderTestAndDebug_15 : ∃ (s : State),
    (s.coresRun = false ∨ s.glb.reloc = .none ∨ s.glb.reloc = .active) :=
  ⟨State.reset, by decide⟩

theorem witness_RecorderTestAndDebug_16 : ∃ (s : State),
    (s.coresRun = true ∧ s.glb.reloc = .active) ∧
    (s.stest.bank ≠ 0x7F ∧ s.stest.bank ≠ 95) :=
  ⟨{ State.reset with glb.reloc := .active, stest.bank := 3 }, by decide, by decide⟩

theorem witness_RecorderTestAndDebug_17 : ∃ (s : State),
    (s.coresRun = true ∧ s.stest.bank = 95) :=
  ⟨{ State.reset with stest.bank := 95 }, by decide⟩

theorem witness_RecorderTestAndDebug_18 : ∃ (s : State),
    (s.coresRun = true ∧ s.glb.reloc = .active) ∧
    (s.stest.bank ≠ 0x7F ∧ s.stest.bank ≠ 95 ∧ s.stest.bank ≠ 94) :=
  ⟨{ State.reset with glb.reloc := .active, glb.spareBank := 3, stest.bank := 3 }, by decide, by decide⟩

theorem witness_RecorderTestAndDebug_19 : ∃ (s : State) (ok : Bool),
    (s.coresRun = false ∨ s.stest.bank = 0x7F) :=
  ⟨State.reset, true, by decide⟩

theorem witness_RecorderTestAndDebug_20 : ∃ (s : State),
    (s.barRuns = true) :=
  ⟨State.reset, by decide⟩

theorem witness_RecorderTestAndDebug_21 : ∃ (s : State),
    (s.barRuns = false) :=
  ⟨{ State.reset with glb.mode := .off }, by decide⟩

theorem witness_RecorderTestAndDebug_22 : ∃ (s : State) (g : BitVec 4),
    ((s.glb.mode = .service ∨ s.glb.mode = .standby) ∧ s.stest.frozen = false) ∧
    (g ≠ s.cpm.vidCode ∧ s.cpm.vidAt + 100000 ≤ s.nowNs) :=
  ⟨{ State.reset with glb.mode := .service, tmu.sec := 1 }, 12, by decide, by decide⟩

theorem witness_RecorderTestAndDebug_23 : ∃ (s : State) (g : BitVec 4),
    ((s.glb.mode = .service ∨ s.glb.mode = .standby) ∧ s.stest.frozen = false) ∧
    (g = s.cpm.vidCode ∨ s.nowNs < s.cpm.vidAt + 100000) :=
  ⟨{ State.reset with glb.mode := .service }, 10, by decide, by decide⟩

theorem witness_RecorderTestAndDebug_24 : ∃ (s : State) (g : BitVec 4),
    ((s.glb.mode ≠ .service ∧ s.glb.mode ≠ .standby) ∨ s.stest.frozen = true) :=
  ⟨State.reset, 10, by decide⟩

theorem witness_RecorderTestAndDebug_25 : ∃ (s : State),
    (s.cpm.porstN = true) :=
  ⟨State.reset, by decide⟩

theorem witness_RecorderTestAndDebug_26 : ∃ (s : State),
    (s.cpm.porstN = true ∧ s.cpm.opmin = 0xFFFFFFFE ∧ s.cpm.opminPosted = false ∧ s.powered = true) ∧
    (s.cpm.pcycle ≠ 0xFFFFFFFF) :=
  ⟨{ State.reset with cpm.opmin := 0xFFFFFFFE }, by decide, by decide⟩

theorem witness_RecorderTestAndDebug_27 : ∃ (s : State),
    (s.cpm.porstN = false) :=
  ⟨{ State.reset with cpm.porstN := false }, by decide⟩

theorem witness_RecorderTestAndDebug_28 : ∃ (s : State) (x : BitVec 8),
    (s.powered = true) :=
  ⟨State.reset, 125, by decide⟩

theorem witness_RecorderTestAndDebug_29 : ∃ (s : State) (x : BitVec 8),
    (s.powered = false) :=
  ⟨{ State.reset with glb.mode := .vigil }, 5, by decide⟩

theorem witness_RecorderTestAndDebug_30 : ∃ (s : State),
    (s.stest.frozen = false) ∧
    (s.glb.mode = .bringup ∨ s.glb.mode = .service ∨ s.glb.mode = .standby) :=
  ⟨State.reset, by decide, by decide⟩

theorem witness_RecorderTestAndDebug_31 : ∃ (s : State),
    (s.stest.frozen = true ∨ s.glb.mode = .off ∨ s.glb.mode = .holdup ∨ s.glb.mode = .vigil) :=
  ⟨{ State.reset with glb.mode := .vigil }, by decide⟩

theorem witness_RecorderTestAndDebug_32 : ∃ (s : State),
    (s.cpm.porstN = false ∨ s.stest.frozen = true) :=
  ⟨{ State.reset with stest.frozen := true }, by decide⟩

theorem witness_RecorderTestAndDebug_33 : ∃ (s : State),
    (s.cpm.porstN = true ∧ s.stest.frozen = false) :=
  ⟨State.reset, by decide⟩

theorem witness_RecorderTestAndDebug_34 : ∃ (s : State) (a : Nat),
    (s.stest.daddr.toNat / 8 * 8 = a) ∧
    (a / 2 ^ 32 = 0) ∧
    (a % 2 ^ 32 < 0x100000 ∧ s.stest.frozen = true) :=
  ⟨{ State.reset with stest.daddr := 0x60003, stest.frozen := true }, 0x60000, by decide, by decide, by decide⟩

theorem witness_RecorderTestAndDebug_35 : ∃ (s : State) (a : Nat),
    (s.stest.daddr.toNat / 8 * 8 = a) ∧
    (a / 2 ^ 32 = 0) ∧
    (a % 2 ^ 32 < 0x100000 ∧ s.stest.frozen = false) :=
  ⟨{ State.reset with stest.daddr := 0x60000 }, 0x60000, by decide, by decide, by decide⟩

theorem witness_RecorderTestAndDebug_36 : ∃ (s : State) (a : Nat),
    (s.stest.daddr.toNat / 8 * 8 = a) ∧
    (a / 2 ^ 32 = 2) ∧
    (s.woad.debugSub = false) :=
  ⟨{ State.reset with stest.daddr := 0x200000000, stest.frozen := true }, 0x200000000, by decide, by decide, by decide⟩

theorem witness_RecorderTestAndDebug_37 : ∃ (s : State) (a : Nat),
    (s.stest.daddr.toNat / 8 * 8 = a) ∧
    (a / 2 ^ 32 = 2) ∧
    (s.woad.debugSub = true ∧ s.stest.frozen = false) :=
  ⟨{ State.reset with stest.daddr := 0x200000000, woad.debugSub := true }, 0x200000000, by decide, by decide, by decide⟩

theorem witness_RecorderTestAndDebug_38 : ∃ (s : State) (a : Nat) (k : Nat),
    (s.stest.daddr.toNat / 8 * 8 = a) ∧
    (a / 2 ^ 32 = 2) ∧
    (s.woad.debugSub = true ∧ s.stest.frozen = true ∧ a % 2 ^ 32 < 0x800000) ∧
    (a % 2 ^ 32 % 0x20000 < 0x10000) ∧
    (a % 2 ^ 32 / 0x20000 * 0x10000 + a % 2 ^ 32 % 0x10000 = k ∧ s.mcc.poisonImem.get false (k / 8) = false) :=
  ⟨{ State.reset with stest.daddr := 0x200020008, woad.debugSub := true, mcc.imem := [(65544, 5#8)], stest.frozen := true }, 0x200020008, 65544, by decide, by decide, by decide, by decide, by decide⟩

theorem witness_RecorderTestAndDebug_39 : ∃ (s : State) (a : Nat),
    (s.stest.daddr.toNat / 8 * 8 = a) ∧
    (a / 2 ^ 32 = 2) ∧
    (s.woad.debugSub = true ∧ s.stest.frozen = true ∧ a % 2 ^ 32 < 0x800000) ∧
    (a % 2 ^ 32 % 0x20000 < 0x10000) ∧
    (s.mcc.poisonImem.get false ((a % 2 ^ 32 / 0x20000 * 0x10000 + a % 2 ^ 32 % 0x10000) / 8) = true) :=
  ⟨{ State.reset with stest.daddr := 0x200020008, woad.debugSub := true, mcc.poisonImem := [(8193, true)], stest.frozen := true }, 0x200020008, by decide, by decide, by decide, by decide, by decide⟩

theorem witness_RecorderTestAndDebug_40 : ∃ (s : State) (a : Nat),
    (s.stest.daddr.toNat / 8 * 8 = a) ∧
    (a / 2 ^ 32 = 3) ∧
    (a % 2 ^ 32 < 0x40000 ∧ a % 2 ^ 32 % 0x400 = 0 ∧ s.stest.frozen = true) :=
  ⟨{ State.reset with stest.daddr := 0x300000800, mcc.threads := [(2, { st := .run, pc := 0x40 })], stest.frozen := true }, 0x300000800, by decide, by decide, by decide⟩

theorem witness_RecorderTestAndDebug_41 : ∃ (s : State) (a : Nat),
    (s.stest.daddr.toNat / 8 * 8 = a) ∧
    (a / 2 ^ 32 = 3) ∧
    (0x30 ≤ a % 2 ^ 32 % 0x400 ∧ s.woad.debugSub = false) :=
  ⟨{ State.reset with stest.daddr := 0x300000100, stest.frozen := true }, 0x300000100, by decide, by decide, by decide⟩

theorem witness_RecorderTestAndDebug_42 : ∃ (s : State) (v : BitVec 32),
    (v = 0xDB6E0001 ∧ s.debugLock = false ∧ s.woad.debugSub = false ∧ s.cpm.porstN = true) :=
  ⟨{ State.reset with hp.sessions := [(3, { open_ := true, role := 2 })] }, 0xDB6E0001, by decide⟩

theorem witness_RecorderTestAndDebug_43 : ∃ (s : State) (v : BitVec 32),
    (v ≠ 0xDB6E0001 ∨ s.debugLock = true ∨ s.woad.debugSub = true ∨ s.cpm.porstN = false) :=
  ⟨State.reset, 5, by decide⟩

theorem witness_RecorderTestAndDebug_44 : ∃ (s : State) (v : BitVec 32),
    (v = 0x46525A52 ∧ s.stest.frozen = true) :=
  ⟨{ State.reset with stest.frozen := true }, 0x46525A52, by decide⟩

theorem witness_RecorderTestAndDebug_45 : ∃ (s : State) (v : BitVec 32),
    (v ≠ 0x46525A52 ∨ s.stest.frozen = false) :=
  ⟨State.reset, 0x46525A52, by decide⟩
end

/-! PROOFS. The Akzil instruction set: the ALU functions of Table 9-8, compares and predicates, and the exceptions of CSR accesses. -/

namespace Sys2Proof.Machine

/-! ## What an instruction does, from what its meaning issues -/

/-- An instruction that changes its thread alone retires with that change, when the change keeps what the instruction boundary looks at. -/
theorem does_issueReg {t pi : Nat} {c : Instr} {s : State} {f : Thread → Thread} (h : s.issuesAt t pi = true)
    (hc : exec c s = .next (issueReg t pi f s))
    (hf : (f (s.thr t)).st = (s.thr t).st ∧ (f (s.thr t)).exiting = (s.thr t).exiting ∧ (f (s.thr t)).stopAsked = (s.thr t).stopAsked
      ∧ (f (s.thr t)).level = (s.thr t).level) :
    Does c s (Retires t (f (s.thr t)) s) :=
  ⟨_, hc, retires_issueReg t pi f s h hf⟩

/-- An instruction that computes register `rd` from its thread retires with the value computed. -/
theorem does_writeReg {t pi rd : Nat} {c : Instr} {s : State} {v : Thread → Word} {w : Word} (h : s.issuesAt t pi = true)
    (hc : exec c s = .next (issueReg t pi (fun th => th.setReg rd (v th)) s)) (hw : v (s.thr t) = w) :
    Does c s (Retires t ((s.thr t).setReg rd w) s) := by
  subst hw
  exact does_issueReg h hc (by simp)

/-- An instruction that computes the predicate byte from its thread retires with the byte computed. -/
theorem does_writePreds {t pi : Nat} {c : Instr} {s : State} {b : Thread → BitVec 8} (h : s.issuesAt t pi = true)
    (hc : exec c s = .next (issueReg t pi (fun th => { th with preds := b th }) s)) :
    Does c s (Retires t { s.thr t with preds := b (s.thr t) } s) :=
  does_issueReg h hc ⟨rfl, rfl, rfl, rfl⟩

/-- An instruction whose own test fails with an exception takes it, at SYSTEM or TASK with EXC = 0 (R275). -/
theorem does_raise {t pi code : Nat} {c : Instr} {s : State} {act : Thread → State → State} {v : Word} (h : s.issuesAt t pi = true)
    (he : (s.thr t).exc = false) (hl : (s.thr t).level ≠ .legal) (hc : exec c s = .next (issue t pi act s))
    (ha : act (s.thr t) s = raise t code v s) : Does c s (Excepts t code v s) := by
  refine ⟨_, hc, ?_⟩
  rw [issue_issuesAt t pi act s h, ha]
  exact excepts_raise t code v s hl he

/-! ## Immediates -/

/-- The model's sign extension of an operand's bits is the bit vector's own. -/
theorem sext_toNat {w : Nat} (hw : 0 < w) (x : BitVec w) : sext w x.toNat = x.signExtend 64 := by
  have hp : 2 ^ w = 2 * 2 ^ (w - 1) := by rw [← Nat.pow_succ']; congr 1; omega
  have hx : x.toNat < 2 ^ (w - 1) ↔ 2 * x.toNat < 2 ^ w := by rw [hp]; omega
  unfold sext signed BitVec.signExtend
  rw [Nat.mod_eq_of_lt x.isLt, BitVec.toInt_eq_toNat_cond, Int.natCast_pow]
  simp only [hx]
  rfl

/-! ## Multiplication and division (R257) -/

theorem ofInt_high_half (i : Int) : (BitVec.ofInt 128 i).extractLsb' 64 64 = BitVec.ofInt 64 (i / 2 ^ 64) := by
  apply BitVec.eq_of_toNat_eq
  rw [BitVec.extractLsb'_toNat, BitVec.toNat_ofInt, BitVec.toNat_ofInt, Nat.shiftRight_eq_div_pow]
  omega

theorem ofNat_high_half (n : Nat) : (BitVec.ofNat 128 n).extractLsb' 64 64 = BitVec.ofNat 64 (n / 2 ^ 64) := by
  apply BitVec.eq_of_toNat_eq
  rw [BitVec.extractLsb'_toNat, BitVec.toNat_ofNat, BitVec.toNat_ofNat, Nat.shiftRight_eq_div_pow]
  omega

/-- The signed product modulo 2^128 has the product's own high half. -/
theorem aluMulh_eq (a b : Word) : aluMulh a b = (a.signExtend 128 * b.signExtend 128).extractLsb' 64 64 := by
  unfold aluMulh BitVec.signExtend
  rw [← BitVec.ofInt_mul, ofInt_high_half]

theorem aluMulhu_eq (a b : Word) : aluMulhu a b = (a.setWidth 128 * b.setWidth 128).extractLsb' 64 64 := by
  unfold aluMulhu Word.of
  rw [← ofNat_high_half, BitVec.ofNat_mul, BitVec.ofNat_toNat, BitVec.ofNat_toNat]

theorem aluDiv_eq (a b : Word) : aluDiv a b = if b = 0 then BitVec.allOnes 64 else a.sdiv b := by
  have hq : BitVec.ofInt 64 (a.toInt.tdiv b.toInt) = a.sdiv b :=
    BitVec.eq_of_toInt_eq (by rw [BitVec.toInt_ofInt, BitVec.toInt_sdiv])
  unfold aluDiv
  rw [hq]
  rfl

theorem aluRem_eq (a b : Word) : aluRem a b = if b = 0 then a else a.srem b := by
  unfold aluRem
  rw [← BitVec.toInt_srem, BitVec.ofInt_toInt]

theorem aluDivu_eq (a b : Word) : aluDivu a b = if b = 0 then BitVec.allOnes 64 else a / b := by
  unfold aluDivu Word.of
  rw [← BitVec.toNat_udiv, BitVec.ofNat_toNat, BitVec.setWidth_eq]

theorem aluRemu_eq (a b : Word) : aluRemu a b = if b = 0 then a else a % b := by
  unfold aluRemu Word.of
  rw [← BitVec.toNat_umod, BitVec.ofNat_toNat, BitVec.setWidth_eq]

/-! ## Minimum and maximum -/

theorem ite_slt (a b x y : Word) : (if a.slt b then x else y) = if a.toInt < b.toInt then x else y :=
  by simp only [BitVec.slt_iff_toInt_lt]

theorem ite_ult (a b x y : Word) : (if a.ult b then x else y) = if a.toNat < b.toNat then x else y :=
  by simp only [BitVec.ult_iff_toNat_lt]

/-! ## Counts of bits -/

theorem clz64_le (x : Nat) : clz64 x ≤ 64 := by
  unfold clz64
  split <;> omega

theorem log2_toNat_lt {a : Word} (h : a.toNat ≠ 0) : a.toNat.log2 < 64 := (Nat.log2_lt h).2 a.isLt

/-- Below the leading zero count every bit from the top is 0. -/
theorem getMsbD_lt_clz64 (a : Word) (k : Nat) (hk : k < clz64 a.toNat) : a.getMsbD k = false := by
  rw [BitVec.getMsbD_eq_getLsbD, Bool.and_eq_false_iff]
  right
  unfold clz64 at hk
  split at hk
  · next h => rw [BitVec.getLsbD, h, Nat.zero_testBit]
  · next h =>
    have hlog := log2_toNat_lt h
    exact Nat.testBit_lt_two_pow (Nat.lt_of_lt_of_le Nat.lt_log2_self (Nat.pow_le_pow_right (by decide) (by omega)))

/-- The leading zeros end at a 1, the highest bit set. -/
theorem getMsbD_clz64 (a : Word) (h : clz64 a.toNat < 64) : a.getMsbD (clz64 a.toNat) = true := by
  have ha : a.toNat ≠ 0 := fun h0 => by simp [clz64, h0] at h
  have hlog := log2_toNat_lt ha
  have hpos : 64 - 1 - clz64 a.toNat = a.toNat.log2 := by
    unfold clz64
    rw [if_neg ha]
    omega
  rw [BitVec.getMsbD_eq_getLsbD, hpos, BitVec.getLsbD, Nat.testBit_log2 ha]
  simpa using h

theorem ctzN_le (n x : Nat) : ctzN n x ≤ n := by
  induction n generalizing x with
  | zero => simp [ctzN]
  | succ n ih =>
    have := ih (x / 2)
    unfold ctzN
    split <;> omega

theorem testBit_lt_ctzN (n x k : Nat) (hk : k < ctzN n x) : x.testBit k = false := by
  induction n generalizing x k with
  | zero => simp [ctzN] at hk
  | succ n ih =>
    unfold ctzN at hk
    split at hk
    · omega
    · next hx =>
      cases k with
      | zero => simpa [Nat.testBit_zero] using hx
      | succ k => rw [Nat.testBit_succ]; exact ih (x / 2) k (by omega)

theorem testBit_ctzN (n x : Nat) (h : ctzN n x < n) : x.testBit (ctzN n x) = true := by
  induction n generalizing x with
  | zero => omega
  | succ n ih =>
    unfold ctzN at h ⊢
    split at h
    · next hx => simp [hx]
    · next hx =>
      rw [if_neg hx, Nat.add_comm 1, Nat.testBit_succ]
      exact ih (x / 2) (by omega)

/-- The model's count of ones over `n` bits counts the bits set. -/
theorem popN_eq_countP (n x : Nat) : popN n x = (List.range n).countP fun k => x.testBit k := by
  induction n generalizing x with
  | zero => rfl
  | succ n ih =>
    have hlow : x % 2 = if x.testBit 0 then 1 else 0 := by
      rw [Nat.testBit_zero]
      split <;> simp_all
    have hhigh : ((fun k => x.testBit k) ∘ Nat.succ) = fun k => (x / 2).testBit k := funext fun k => Nat.testBit_succ x k
    rw [popN, ih, List.range_succ_eq_map, List.countP_cons, List.countP_map, hhigh, hlow, Nat.add_comm]

/-! ## Bytes in reverse order -/

@[simp] theorem length_le (n v : Nat) : (le n v).length = n := by
  induction n generalizing v with
  | zero => rfl
  | succ n ih => simp [le, ih]

/-- Byte `k` of the number that little-endian bytes spell. -/
theorem ofLe_byte (l : List Byte) (k : Nat) : ofLe l / 256 ^ k % 256 = (l.getD k 0).toNat := by
  induction l generalizing k with
  | nil => simp [ofLe]
  | cons b l ih =>
    have hb := b.isLt
    cases k with
    | zero =>
      simp only [ofLe, Nat.pow_zero, Nat.div_one, List.getD_cons_zero]
      omega
    | succ k =>
      have hdiv : (b.toNat + 256 * ofLe l) / 256 = ofLe l := by omega
      rw [ofLe, Nat.pow_succ', ← Nat.div_div_eq_div_mul, hdiv, ih, List.getD_cons_succ]

/-- Byte `k` of the little-endian bytes of a number. -/
theorem getElem_le (n v k : Nat) (hk : k < (le n v).length) : (le n v)[k] = Byte.of (v / 256 ^ k) := by
  induction n generalizing v k with
  | zero => simp at hk
  | succ n ih =>
    cases k with
    | zero => simp [le]
    | succ k =>
      simp only [le, List.getElem_cons_succ]
      rw [ih, Nat.div_div_eq_div_mul, ← Nat.pow_succ']

theorem bswap_byte (a : Word) (k : Nat) (hk : k < 8) : (bswap a).extractLsb' (8 * k) 8 = a.extractLsb' (56 - 8 * k) 8 := by
  have hpow : ∀ j, 2 ^ (8 * j) = 256 ^ j := fun j => by rw [Nat.pow_mul]
  have hsrc : 56 - 8 * k = 8 * (7 - k) := by omega
  have hrev : ((le 8 a.toNat).reverse.getD k 0) = Byte.of (a.toNat / 256 ^ (7 - k)) := by
    have hlen : k < (le 8 a.toNat).reverse.length := by rw [List.length_reverse, length_le]; exact hk
    rw [List.getD_eq_getElem?_getD, List.getElem?_eq_getElem hlen, Option.getD_some, List.getElem_reverse, getElem_le, length_le]
  have hmod : ofLe (le 8 a.toNat).reverse % 2 ^ 64 / 256 ^ k % 256 = ofLe (le 8 a.toNat).reverse / 256 ^ k % 256 := by
    have h64 : 256 ^ k * 256 * 256 ^ (7 - k) = 2 ^ 64 := by
      calc 256 ^ k * 256 * 256 ^ (7 - k) = 256 ^ (k + 1 + (7 - k)) := by rw [Nat.pow_add, Nat.pow_succ]
        _ = 256 ^ 8 := by rw [show k + 1 + (7 - k) = 8 by omega]
        _ = 2 ^ 64 := by decide
    rw [← Nat.mod_mul_right_div_self, ← Nat.mod_mul_right_div_self, ← h64, Nat.mod_mul_right_mod]
  apply BitVec.eq_of_toNat_eq
  rw [hsrc, BitVec.extractLsb'_toNat, BitVec.extractLsb'_toNat, Nat.shiftRight_eq_div_pow, Nat.shiftRight_eq_div_pow, hpow, hpow]
  unfold bswap Word.of
  rw [BitVec.toNat_ofNat, hmod, ofLe_byte, hrev]
  exact BitVec.toNat_ofNat _ _

/-! ## ALU instructions -/

set_option maxRecDepth 20000 in
/-- The published check value of CRC-32C, which R257 gives for the polynomial. -/
theorem crc32c_check : crc32c (bytesOf [0x31, 0x32, 0x33, 0x34, 0x35, 0x36, 0x37, 0x38, 0x39]) = 0xE3069283 := by decide

/-- m0 reads 0 and takes no write (R242). -/
theorem Thread.m0_fixed (th : Thread) (v : Word) : th.setReg 0 v = th ∧ th.reg 0 = 0 := ⟨rfl, rfl⟩

/-- Settles O8: every ALU instruction writes the function of Table 9-8 that its FN names, and that function has the value of R257. -/
theorem aluResults : Obligations.AluResults := by
  refine ⟨fun s t pi rd ra rb h => ?_, crc32c_check, Thread.m0_fixed⟩
  intro th a b go
  have two : ∀ {c : Instr} (fn : Nat) {v : Word}, exec c s = .next (aluInstr fn t pi rd ra rb s) → alu fn a b = v → go c v :=
    fun _ _ hc hv => does_writeReg h hc hv
  have one : ∀ {c : Instr} (fn : Nat) {v : Word}, exec c s = .next (aluInstr1 fn t pi rd ra s) → alu fn a 0 = v → go c v :=
    fun _ _ hc hv => does_writeReg h hc hv
  exact ⟨two 0x00 rfl rfl, two 0x01 rfl rfl, two 0x02 rfl rfl, two 0x03 rfl rfl, two 0x04 rfl rfl, two 0x05 rfl rfl,
    two 0x06 rfl rfl, two 0x07 rfl rfl, two 0x08 rfl rfl, two 0x09 rfl rfl,
    two 0x0A rfl (aluMulh_eq a b), two 0x0B rfl (aluMulhu_eq a b),
    two 0x0C rfl (aluDiv_eq a b), two 0x0D rfl (aluDivu_eq a b), two 0x0E rfl (aluRem_eq a b), two 0x0F rfl (aluRemu_eq a b),
    two 0x10 rfl (ite_slt a b a b), two 0x11 rfl (ite_slt a b b a), two 0x12 rfl (ite_ult a b a b), two 0x13 rfl (ite_ult a b b a),
    ⟨clz64 a.toNat, clz64_le _, getMsbD_lt_clz64 a, getMsbD_clz64 a, one 0x14 rfl rfl⟩,
    ⟨ctzN 64 a.toNat, ctzN_le _ _, testBit_lt_ctzN _ _, testBit_ctzN _ _, one 0x15 rfl rfl⟩,
    one 0x16 rfl (congrArg Word.of (popN_eq_countP 64 a.toNat)),
    ⟨bswap a, bswap_byte a, one 0x17 rfl rfl⟩,
    two 0x18 rfl rfl, two 0x19 rfl rfl⟩

/-! ## Compares and predicates (R258) -/

/-- p0 reads 1, another predicate its bit (R242). -/
theorem predGet_eq (ps : BitVec 8) (p : Nat) : predGet ps p = (p == 0 || ps.getLsbD p) := by
  rw [predGet, bitAt_testBit, BitVec.getLsbD]

theorem getLsbD_predMask (p i : Fin 8) : (BitVec.ofNat 8 (2 ^ (p : Nat))).getLsbD i = decide (i = p) := by
  rw [BitVec.getLsbD_ofNat, Nat.testBit_two_pow, decide_eq_true i.isLt, Bool.true_and, decide_eq_decide, Fin.ext_iff, eq_comm]

/-- Reading a predicate after a write; p0 stays 1 (R242). -/
theorem predGet_predSet (ps : BitVec 8) (p i : Fin 8) (v : Bool) :
    predGet (predSet ps p v) i = if i = p ∧ p ≠ 0 then v else predGet ps i := by
  by_cases hp : p = 0
  · simp [hp, predSet]
  · have hp' : (p : Nat) ≠ 0 := fun h => hp (Fin.ext h)
    have hbit : (predSet ps p v).getLsbD i = if i = p then v else ps.getLsbD i := by
      unfold predSet
      rw [if_neg hp']
      cases v
      · rw [if_neg Bool.false_ne_true, BitVec.getLsbD_and, BitVec.getLsbD_not, getLsbD_predMask]
        by_cases hip : i = p <;> simp [hip]
      · rw [if_pos rfl, BitVec.getLsbD_or, getLsbD_predMask]
        by_cases hip : i = p <;> simp [hip]
    rw [predGet_eq, predGet_eq, hbit]
    by_cases hip : i = p <;> simp [hip, hp, hp']

theorem testBit_one_eq (k : Nat) : Nat.testBit 1 k = (k == 0) := by
  rw [Bool.eq_iff_iff, Nat.testBit_one_eq_true_iff_self_eq_zero, beq_iff_eq]

/-- Bit `k` of the predicate byte as PGET reads it: predicate `k`, and nothing above the eight. -/
theorem getLsbD_predByte (ps : BitVec 8) (k : Nat) (hk : k < 64) : (predByte ps).getLsbD k = decide (k < 8 ∧ predGet ps k = true) := by
  have hbits : (predByte ps).getLsbD k = (ps.getLsbD k || k == 0) := by
    rw [predByte, BitVec.getLsbD_ofNat, Nat.testBit_or, testBit_one_eq, decide_eq_true hk, Bool.true_and, BitVec.getLsbD]
  rw [hbits, predGet_eq, Bool.or_comm]
  by_cases h8 : k < 8
  · simp only [h8, true_and, Bool.decide_eq_true]
  · rw [BitVec.getLsbD_of_ge ps k (by omega)]
    simp [h8, show k ≠ 0 by omega]

/-- The predicate byte as PPUT writes it: bits 7 to 1 of the register, and 1 for p0. -/
theorem predGet_pput (x : Word) (i : Fin 8) : predGet (BitVec.ofNat 8 (x.toNat % 256 ||| 1)) i = if i = 0 then true else x.getLsbD i := by
  have hbits : (x.toNat % 256).testBit i = x.getLsbD i := by
    rw [show 256 = 2 ^ 8 from rfl, Nat.testBit_mod_two_pow, decide_eq_true i.isLt, Bool.true_and, BitVec.getLsbD]
  rw [predGet_eq, BitVec.getLsbD_ofNat, decide_eq_true i.isLt, Bool.true_and, Nat.testBit_or, hbits, testBit_one_eq]
  by_cases h0 : i = 0
  · simp [h0]
  · have h0' : (i : Nat) ≠ 0 := fun h => h0 (Fin.ext h)
    rw [beq_false_of_ne h0', Bool.false_or, Bool.or_false, if_neg h0]

theorem bne_eq_decide_ne (a b : Word) : (a != b) = decide (a ≠ b) := by
  by_cases h : a = b <;> simp [h]

theorem not_slt_eq_decide_le (a b : Word) : (!(a.slt b)) = decide (b.toInt ≤ a.toInt) := by
  rw [BitVec.slt, ← decide_not, decide_eq_decide, Int.not_lt]

theorem not_ult_eq_decide_le (a b : Word) : (!(a.ult b)) = decide (b.toNat ≤ a.toNat) := by
  rw [BitVec.ult, ← decide_not, decide_eq_decide, Nat.not_lt]

/-- An instruction that writes `v` to predicate `pd` leaves the other predicates. -/
theorem does_predSet {t pi : Nat} {c : Instr} {s : State} {pd : Fin 8} {f : Thread → Bool} {v : Bool} (h : s.issuesAt t pi = true)
    (hc : exec c s = .next (issueReg t pi (fun th => { th with preds := predSet th.preds pd (f th) }) s)) (hv : f (s.thr t) = v) :
    ∃ b : BitVec 8, Does c s (Retires t { s.thr t with preds := b } s) ∧
      ∀ i : Fin 8, predGet b i = if i = pd ∧ pd ≠ 0 then v else predGet (s.thr t).preds i := by
  subst hv
  exact ⟨_, does_writePreds h hc, fun i => predGet_predSet _ pd i _⟩

/-- Settles O10: each writes the one predicate or register its rule names, with the outcome of Tables 9-9, 9-9a and 9-7. -/
theorem compareAndPredicateResults : Obligations.CompareAndPredicateResults := by
  intro s t pi pd pa pb cm ra rb rd cond imm op h th p holds mixed writes
  have hholds : ∀ x y, condHolds cond x y = holds x y := by
    intro x y
    rcases cond with ⟨_ | _ | _ | _ | _ | _ | c, hc⟩
    · rfl
    · exact bne_eq_decide_ne x y
    · rfl
    · exact not_slt_eq_decide_le x y
    · rfl
    · exact not_ult_eq_decide_le x y
    · exact bne_eq_decide_ne (x &&& y) 0
  have hmixed : ∀ x y, combine cm (p th pd) (condHolds cond x y) = mixed (holds x y) := by
    intro x y
    rw [hholds]
    rcases cm with ⟨_ | _ | _ | _ | _ | c, hc⟩ <;> rfl
  have hcmpi : combine cm (p th pd) (condHolds cond (th.reg ra) (sext 9 imm.toNat)) = mixed (holds (th.reg ra) (imm.signExtend 64)) := by
    rw [sext_toNat (by decide), hmixed]
  exact ⟨does_predSet h rfl (hmixed _ _), does_predSet h rfl hcmpi, does_predSet h rfl (by rcases op with ⟨_ | _ | _ | c, hc⟩ <;> rfl),
    ⟨predByte th.preds, does_writeReg h rfl rfl, getLsbD_predByte th.preds⟩,
    ⟨_, does_writePreds h rfl, predGet_pput (th.reg ra)⟩⟩

/-! ## CSR accesses (R244) -/

/-- Settles O20: the exception is the branch of CSRR or CSRW that the access of Table 9-3 selects, its EVAL the instruction word. -/
theorem csrExceptions : Obligations.CsrExceptions := by
  refine ⟨fun s t pi r csr h he hl ha => ⟨?_, ?_⟩, fun s t pi r csr b h he hl ha => ?_, fun s t pi r csr b h he hl ha => ?_⟩ <;>
    exact does_raise h he hl rfl (by rw [ha]; rfl)

end Sys2Proof.Machine

/-! PROOFS. What every command keeps: the queue, the canonical form of the memories, and every programmed OTP bit. Each operation of the
model keeps them of the state it works on, so each has one lemma here, in the order of the definitions. -/

namespace Sys2Proof.Machine

/-! ## What is kept -/

/-- From `s` on, no command has entered or left the queue, no OTP bit has been cleared, and canonical memories are still so. -/
def Keeps (s u : State) : Prop :=
  u.pending = s.pending ∧ (∀ a i, s.otpBit a i = true → u.otpBit a i = true) ∧ (s.memoryWf = true → u.memoryWf = true)

/-- Every next state the outcome answers keeps what `s` has. -/
def KeepsR (s : State) (r : Result) : Prop := ∀ u, r = .next u → Keeps s u

theorem Keeps.refl (s : State) : Keeps s s := ⟨rfl, fun _ _ h => h, fun h => h⟩

theorem KeepsR.next {s u : State} (h : Keeps s u) : KeepsR s (.next u) := by
  rintro _ ⟨⟩
  exact h

/-- A change outside the cores, the OTP and the queue keeps them. -/
theorem keeps_update {s₀ x : State} {glb ctr cap hp tmu evr sepia stest woad rla lm ing pass ldg bal lake macs cas upd cpm out free} (h : Keeps s₀ x) :
    Keeps s₀ { x with glb := glb, ctr := ctr, cap := cap, hp := hp, tmu := tmu, evr := evr, sepia := sepia, stest := stest, woad := woad, rla := rla, lm := lm
                      ing := ing, pass := pass, ldg := ldg, bal := bal, lake := lake, macs := macs, cas := cas, upd := upd, cpm := cpm, out := out, free := free } := h

/-- So does a change of the cores outside their memories. -/
theorem keeps_mcc {s₀ x : State} {glb ctr cap hp tmu evr sepia stest woad rla lm ing pass ldg bal lake macs cas upd cpm out free}
    {threads poisonImem poisonDmem poisonShared flipImem flipDmem cycle queues seqs ovf image legal thrSel cntSel} (h : Keeps s₀ x) :
    Keeps s₀ { x with glb := glb, ctr := ctr, cap := cap, hp := hp, tmu := tmu, evr := evr, sepia := sepia, stest := stest, woad := woad, rla := rla, lm := lm
                      ing := ing, pass := pass, ldg := ldg, bal := bal, lake := lake, macs := macs, cas := cas, upd := upd, cpm := cpm, out := out, free := free
                      mcc := { x.mcc with threads := threads, poisonImem := poisonImem, poisonDmem := poisonDmem, poisonShared := poisonShared, flipImem := flipImem
                                          flipDmem := flipDmem, cycle := cycle, queues := queues, seqs := seqs, ovf := ovf, image := image, legal := legal
                                          thrSel := thrSel, cntSel := cntSel } } := h

/-- New memories that are canonical when the old ones are keep canonical form. -/
theorem Keeps.memory {s₀ x u : State} (h : Keeps s₀ x) (hp : u.pending = x.pending) (ho : u.otp = x.otp)
    (hm : x.memoryWf = true → u.memoryWf = true) : Keeps s₀ u := by
  obtain ⟨h1, h2, h3⟩ := h
  refine ⟨hp.trans h1, fun a i hi => ?_, fun hw => hm (h3 hw)⟩
  rw [State.otpBit, ho]
  exact h2 a i hi

/-- Bytes written to DMEM keep it canonical. -/
theorem keeps_dmem {s₀ x : State} {k : Nat} {l : List Byte} (h : Keeps s₀ x) : Keeps s₀ { x with mcc.dmem := writeBytes x.mcc.dmem k l } :=
  h.memory rfl rfl (memoryWf_storeAt (.dmem k) l x)

/-- Bytes written to shared SRAM keep it canonical. -/
theorem keeps_shared {s₀ x : State} {k : Nat} {l : List Byte} (h : Keeps s₀ x) : Keeps s₀ { x with mcc.shared := writeBytes x.mcc.shared k l } :=
  h.memory rfl rfl (memoryWf_storeAt (.shared k) l x)

/-- Programming OTP sets bits alone. -/
theorem keeps_otp {s₀ x : State} {off : Nat} {l : List Byte} (h : Keeps s₀ x) : Keeps s₀ { x with otp := otpProgram x.otp off l } := by
  obtain ⟨h1, h2, h3⟩ := h
  refine ⟨h1, fun a i hi => otpProgram_keeps l _ off a i (h2 a i hi), fun hw => ?_⟩
  have hx := h3 hw
  simp only [State.memoryWf, Bool.and_eq_true] at hx ⊢
  exact ⟨hx.1, memory_wf_otpProgram l _ off hx.2⟩

theorem keeps_ite {s₀ a b : State} {c : Prop} {_ : Decidable c} (ha : Keeps s₀ a) (hb : Keeps s₀ b) : Keeps s₀ (if c then a else b) := by
  split <;> assumption

theorem keepsR_ite {s₀ : State} {a b : Result} {c : Prop} {_ : Decidable c} (ha : KeepsR s₀ a) (hb : KeepsR s₀ b) : KeepsR s₀ (if c then a else b) := by
  split <;> assumption

theorem keeps_ite_st {s₀ : State} {a b : EngOut} {c : Prop} {_ : Decidable c} (ha : Keeps s₀ a.st) (hb : Keeps s₀ b.st) :
    Keeps s₀ (if c then a else b).st := by split <;> assumption

theorem keeps_ite_host {s₀ : State} {a b : HostAns} {c : Prop} {_ : Decidable c} (ha : Keeps s₀ a.st) (hb : Keeps s₀ b.st) :
    Keeps s₀ (if c then a else b).st := by split <;> assumption

theorem keeps_ite_change {s₀ : State} {a b : ChangeAns} {c : Prop} {_ : Decidable c} (ha : Keeps s₀ a.st) (hb : Keeps s₀ b.st) :
    Keeps s₀ (if c then a else b).st := by split <;> assumption

theorem keeps_ite_judged {s₀ : State} {a b : Judged} {c : Prop} {_ : Decidable c} (ha : Keeps s₀ a.st) (hb : Keeps s₀ b.st) :
    Keeps s₀ (if c then a else b).st := by split <;> assumption

theorem keeps_ite_fst {α : Type} {s₀ : State} {a b : State × α} {c : Prop} {_ : Decidable c} (ha : Keeps s₀ a.1) (hb : Keeps s₀ b.1) :
    Keeps s₀ (if c then a else b).1 := by split <;> assumption

theorem keeps_ite_snd {α : Type} {s₀ : State} {a b : α × State} {c : Prop} {_ : Decidable c} (ha : Keeps s₀ a.2) (hb : Keeps s₀ b.2) :
    Keeps s₀ (if c then a else b).2 := by split <;> assumption

/-- A pass over a list keeps what each of its steps keeps. -/
theorem keeps_foldl {α : Type} {s₀ s : State} {f : State → α → State} {l : List α} (hf : ∀ x a, Keeps s₀ x → Keeps s₀ (f x a)) (h : Keeps s₀ s) :
    Keeps s₀ (l.foldl f s) := by
  induction l generalizing s with
  | nil => exact h
  | cons a l ih => exact ih (hf s a h)

/-- A pass that carries a result beside the state. -/
theorem keeps_foldl_fst {α β : Type} {s₀ : State} {f : State × β → α → State × β} {l : List α} {p : State × β}
    (hf : ∀ q a, Keeps s₀ q.1 → Keeps s₀ (f q a).1) (h : Keeps s₀ p.1) : Keeps s₀ (l.foldl f p).1 := by
  induction l generalizing p with
  | nil => exact h
  | cons a l ih => exact ih (hf p a h)

theorem keeps_iter {s₀ s : State} {f : State → State} {n : Nat} (hf : ∀ x, Keeps s₀ x → Keeps s₀ (f x)) (h : Keeps s₀ s) : Keeps s₀ (iter n f s) := by
  induction n generalizing s with
  | zero => exact h
  | succ n ih => exact ih (hf s h)

/-! ## Operations -/

theorem keeps_stopTx {s₀ s : State} {stopped : Bool} {resume : Nat → Nat → Option Nat} (h : Keeps s₀ s) : Keeps s₀ (stopTx stopped resume s) :=
  keeps_update h

theorem keeps_countN {s₀ s : State} {k n : Nat} (h : Keeps s₀ s) : Keeps s₀ (countN k n s) := keeps_update h

theorem keeps_count {s₀ s : State} {k : Nat} (h : Keeps s₀ s) : Keeps s₀ (count k s) := keeps_countN h

theorem keeps_routeNotice {s₀ s : State} {n : Notice} (h : Keeps s₀ s) : Keeps s₀ (routeNotice n s) :=
  keeps_update h

theorem keeps_dropNotice {s₀ s : State} {n : Notice} (h : Keeps s₀ s) : Keeps s₀ (dropNotice n s) :=
  keeps_ite (keeps_update (keeps_count (keeps_update h))) (keeps_count (keeps_routeNotice (keeps_update (keeps_count (keeps_update h)))))

theorem keeps_postNotice {s₀ s : State} {code cls : Nat} {args : List Byte} (h : Keeps s₀ s) : Keeps s₀ (postNotice code cls args s) :=
  keeps_ite (keeps_count h) (keeps_ite (keeps_update (keeps_count (keeps_routeNotice (keeps_update h)))) (keeps_ite (keeps_count (keeps_update
      (keeps_count (keeps_routeNotice (keeps_update h))))) (keeps_dropNotice (keeps_count (keeps_routeNotice (keeps_update h))))))

theorem keeps_timeInvalid {s₀ s : State} {cause : Nat} (h : Keeps s₀ s) : Keeps s₀ (timeInvalid cause s) :=
  keeps_ite (keeps_postNotice (keeps_update h)) (keeps_update h)

theorem keeps_setAdj {s₀ s : State} {v : Int} (h : Keeps s₀ s) : Keeps s₀ (setAdj v s) := keeps_update h

theorem keeps_countIf {s₀ s : State} {b : Bool} {k : Nat} (h : Keeps s₀ s) : Keeps s₀ (countIf b k s) :=
  keeps_ite (keeps_count h) h

theorem keeps_enterHoldover {s₀ s : State} (h : Keeps s₀ s) : Keeps s₀ (enterHoldover s) :=
  keeps_update (keeps_setAdj (keeps_countIf h))

theorem keeps_sepPin {s₀ s : State} {typ : Nat} {body : List Byte} (h : Keeps s₀ s) : Keeps s₀ (sepPin typ body s) :=
  keeps_count (keeps_update h)

theorem keeps_sepRing {s₀ s : State} {typ : Nat} {body : List Byte} (h : Keeps s₀ s) : Keeps s₀ (sepRing typ body s) :=
  keeps_count (keeps_update h)

theorem keeps_sepWrite {s₀ s : State} {typ : Nat} {body : List Byte} (h : Keeps s₀ s) : Keeps s₀ (sepWrite typ body s) :=
  keeps_ite (keeps_ite (keeps_sepPin h) (keeps_sepRing h)) (keeps_ite (keeps_sepPin h) (keeps_sepRing h))

theorem keeps_ringAppend {s₀ s : State} {e : EvRec} (h : Keeps s₀ s) : Keeps s₀ (ringAppend e s) :=
  keeps_countN (keeps_count (keeps_update h))

theorem keeps_recEventL {s₀ s : State} {typ : Nat} {legal : Bool} {data : List Byte} (h : Keeps s₀ s) : Keeps s₀ (recEventL typ legal data s) :=
  keeps_ite (keeps_ringAppend (keeps_update h)) (keeps_ite (keeps_update h) (keeps_count (keeps_update h)))

theorem keeps_recEvent {s₀ s : State} {typ : Nat} {data : List Byte} (h : Keeps s₀ s) : Keeps s₀ (recEvent typ data s) :=
  keeps_recEventL h

theorem keeps_holdOutputs {s₀ s : State} (h : Keeps s₀ s) : Keeps s₀ (holdOutputs s) := keeps_update h

theorem keeps_emit {s₀ s : State} {o : Out} (h : Keeps s₀ s) : Keeps s₀ (emit o s) := keeps_update h

theorem keeps_sendWord {s₀ s : State} {p kind arg seq arg2 : Nat} (h : Keeps s₀ s) : Keeps s₀ (sendWord p kind arg seq arg2 s) :=
  keeps_emit h

theorem keeps_wordAll {s₀ s : State} {kind arg seq arg2 : Nat} (h : Keeps s₀ s) : Keeps s₀ (wordAll kind arg seq arg2 s) :=
  keeps_foldl (fun _ _ h1 => keeps_sendWord h1) h

theorem keeps_sendFail {s₀ s : State} (h : Keeps s₀ s) : Keeps s₀ (sendFail s) := keeps_wordAll h

theorem keeps_failUnit {s₀ s : State} (h : Keeps s₀ s) : Keeps s₀ (failUnit s) :=
  keeps_update (keeps_holdOutputs (keeps_sendFail h))

theorem keeps_execRefclkLoss {s₀ s : State} {unlock : Bool} (h : Keeps s₀ s) : KeepsR s₀ (execRefclkLoss unlock s) :=
  KeepsR.next (keeps_ite h (keeps_ite (keeps_update h) (keeps_ite (keeps_failUnit (keeps_count (keeps_sepWrite (keeps_recEvent (keeps_postNotice
      (keeps_timeInvalid (keeps_enterHoldover (keeps_stopTx (keeps_update h))))))))) (keeps_count (keeps_sepWrite (keeps_recEvent (keeps_postNotice
      (keeps_timeInvalid (keeps_enterHoldover (keeps_stopTx (keeps_update h)))))))))))

theorem keeps_cutFabric {s₀ s : State} (h : Keeps s₀ s) : Keeps s₀ (cutFabric s) :=
  keeps_sepWrite (keeps_update h)

theorem keeps_fabricCheck {s₀ s : State} (h : Keeps s₀ s) : Keeps s₀ (fabricCheck s) :=
  keeps_ite h (keeps_ite (keeps_failUnit (keeps_cutFabric h)) (keeps_update (keeps_cutFabric h)))

theorem keeps_markFailed {s₀ s : State} {l : Nat} (h : Keeps s₀ s) : Keeps s₀ (markFailed l s) :=
  keeps_postNotice (keeps_update h)

theorem keeps_execFlitReceive {s₀ s : State} {link : Fin 76} {body : BitVec 282} {err : BitVec 320} {late : Bool} (h : Keeps s₀ s) :
    KeepsR s₀ (execFlitReceive link body err late s) :=
  KeepsR.next (keeps_ite h (keeps_ite (keeps_ite (keeps_update h) (keeps_update h)) (keeps_ite (keeps_update h) (keeps_ite (keeps_fabricCheck
      (keeps_markFailed (keeps_update h))) (keeps_emit (keeps_count (keeps_update h)))))))

theorem keeps_startSnap {s₀ s : State} (h : Keeps s₀ s) : Keeps s₀ (startSnap s) :=
  keeps_ite (keeps_update h) h

theorem keeps_updMac {s₀ s : State} {m : Nat} {f : MacSt → MacSt} (h : Keeps s₀ s) : Keeps s₀ (updMac m f s) :=
  keeps_update h

theorem keeps_sendMsix {s₀ s : State} {v : Nat} (h : Keeps s₀ s) : Keeps s₀ (sendMsix v s) :=
  keeps_ite h (keeps_ite (keeps_update h) (keeps_emit h))

theorem keeps_sendPending {s₀ s : State} {v : Nat} (h : Keeps s₀ s) : Keeps s₀ (sendPending v s) :=
  keeps_ite (keeps_sendMsix (keeps_update h)) h

theorem keeps_writeMsix {s₀ s : State} {o : Nat} {v : BitVec 32} (h : Keeps s₀ s) : Keeps s₀ (writeMsix o v s) :=
  keeps_ite (keeps_sendPending (keeps_update h)) (keeps_update h)

theorem keeps_updQueue {s₀ s : State} {i : Nat} {f : QPair → QPair} (h : Keeps s₀ s) : Keeps s₀ (updQueue i f s) :=
  keeps_update h

theorem keeps_enableQueue {s₀ s : State} {i : Nat} (h : Keeps s₀ s) : Keeps s₀ (enableQueue i s) :=
  keeps_updQueue h

theorem keeps_queueCtl {s₀ s : State} {v : BitVec 32} (h : Keeps s₀ s) : Keeps s₀ (queueCtl v s) :=
  keeps_ite (keeps_update (keeps_updQueue (keeps_updQueue h))) (keeps_ite (keeps_updQueue h) (keeps_ite (keeps_updQueue (keeps_updQueue h))
      (keeps_enableQueue (keeps_updQueue h))))

theorem keeps_reholdOne {s₀ s : State} {n : Notice} (h : Keeps s₀ s) : Keeps s₀ (reholdOne n s) :=
  keeps_ite (keeps_update h) (keeps_ite (keeps_count (keeps_update h)) (keeps_dropNotice h))

theorem keeps_rehold {s₀ s : State} (h : Keeps s₀ s) : Keeps s₀ (rehold s) :=
  keeps_foldl (fun _ _ h1 => keeps_reholdOne h1) (keeps_update h)

theorem keeps_nqCtl {s₀ s : State} {v : BitVec 32} (h : Keeps s₀ s) : Keeps s₀ (nqCtl v s) :=
  keeps_ite (keeps_rehold (keeps_update h)) (keeps_ite (keeps_update h) (keeps_ite (keeps_update h) (keeps_update h)))

theorem keeps_writeHp {s₀ s : State} {o : Nat} {v : BitVec 32} (h : Keeps s₀ s) : Keeps s₀ (writeHp o v s) := by
  unfold writeHp
  dsimp only
  refine keeps_ite (keeps_writeMsix h) ?_
  split
  · exact keeps_update h
  · exact keeps_updQueue h
  · exact keeps_updQueue h
  · exact keeps_updQueue h
  · exact keeps_updQueue h
  · exact keeps_queueCtl h
  · exact keeps_update h
  · exact keeps_update h
  · exact keeps_nqCtl h
  · exact keeps_update h
  · exact h

theorem keeps_storeUnit {s₀ s : State} {unit : Nat} (h : Keeps s₀ s) : Keeps s₀ (storeUnit unit s) :=
  keeps_ite h (keeps_ite (keeps_update h) (keeps_update h))

theorem keeps_setThr {s₀ s : State} {t : Nat} {th : Thread} (h : Keeps s₀ s) : Keeps s₀ (setThr t th s) :=
  keeps_mcc h

theorem keeps_loadImage {s₀ s : State} {b : List Byte} (h : Keeps s₀ s) : Keeps s₀ (loadImage b s) := by
  have frame : (loadImage b s).pending = s.pending ∧ (loadImage b s).otp = s.otp := by
    unfold loadImage
    dsimp only
    split <;> exact ⟨rfl, rfl⟩
  obtain ⟨hp, ho⟩ := frame
  refine h.memory hp ho fun hw => memoryWf_loadImage b s ?_
  simp only [State.memoryWf, Bool.and_eq_true] at hw
  exact hw.2

theorem keeps_verifyStart {s₀ s : State} {unit : Nat} (h : Keeps s₀ s) : Keeps s₀ (verifyStart unit s) := by
  have judged : ∀ (b : List Byte) (bad : Option Nat), Keeps s₀ (match bad with
      | some c => { s with upd.rstat := BitVec.ofNat 32 (c * 65536), upd.lastRef := c }
      | none => loadImage b { s with upd.rstat := 0 }) := by
    rintro b (_ | c)
    · exact keeps_loadImage (keeps_update h)
    · exact keeps_update h
  exact keeps_ite h (judged _ _)

theorem keeps_writeUpd {s₀ s : State} {o : Nat} {v : BitVec 32} (h : Keeps s₀ s) : Keeps s₀ (writeUpd o v s) := by
  unfold writeUpd
  split
  · exact keeps_update h
  · split
    · exact h
    · split
      · split
        · exact keeps_storeUnit h
        · exact keeps_verifyStart h
        · exact h
      · exact keeps_ite (keeps_update h) (keeps_ite (keeps_update h) h)

theorem keeps_writeReg {s₀ s : State} {a : Nat} {v : BitVec 32} (h : Keeps s₀ s) : Keeps s₀ (writeReg a v s) := by
  unfold writeReg
  dsimp only
  split
  · exact keeps_ite (keeps_update h) h
  · exact keeps_ite (keeps_startSnap h) h
  · exact keeps_update h
  · exact keeps_update h
  · exact keeps_update h
  · exact keeps_update h
  · exact keeps_update h
  · exact keeps_update h
  · exact keeps_update h
  · exact keeps_update h
  · exact keeps_update h
  · exact keeps_update h
  · exact keeps_ite (keeps_update h) h
  · exact keeps_update h
  · exact keeps_update h
  · exact keeps_update h
  · exact keeps_update h
  · exact keeps_update h
  · exact keeps_update h
  · exact keeps_update h
  · exact keeps_update h
  · exact keeps_updMac h
  · exact keeps_updMac h
  · exact keeps_update h
  · exact keeps_mcc h
  · exact keeps_mcc h
  · exact keeps_ite (keeps_update h) h
  · exact keeps_update h
  · exact keeps_update h
  · exact keeps_ite (keeps_writeHp h) (keeps_ite (keeps_writeUpd h) h)

theorem keeps_onClock {s₀ s r : State} (hs : Keeps s₀ s) (hr : Keeps s₀ r) : KeepsR s₀ (onClock s r) :=
  KeepsR.next (keeps_ite hr hs)

theorem keeps_captureCounters {s₀ s : State} (h : Keeps s₀ s) : Keeps s₀ (captureCounters s) := keeps_update h

theorem keeps_updRport {s₀ s : State} {p : Nat} {f : RPort → RPort} (h : Keeps s₀ s) : Keeps s₀ (updRport p f s) :=
  keeps_update h

theorem keeps_busyCount {s₀ s : State} {lane pre fe : Nat} (h : Keeps s₀ s) : Keeps s₀ (busyCount lane pre fe s) :=
  keeps_ite h (keeps_countN (keeps_update h))

theorem keeps_busyTillNow {s₀ s : State} {lane rate syncAt : Nat} (h : Keeps s₀ s) : Keeps s₀ (busyTillNow lane rate syncAt s) :=
  keeps_busyCount h

theorem keeps_execSyncDetect {s₀ s : State} {lane : Fin 256} {rate : Fin 3} {ma : BitVec 64} {kepoch : Nat} (h : Keeps s₀ s) :
    KeepsR s₀ (execSyncDetect lane rate ma kepoch s) := by
  unfold execSyncDetect
  dsimp only
  refine KeepsR.next ?_
  refine keeps_ite h ?_
  split
  · exact keeps_busyTillNow (keeps_count h)
  · exact keeps_count (keeps_update h)

theorem keeps_onCores {s₀ s r : State} (hs : Keeps s₀ s) (hr : Keeps s₀ r) : KeepsR s₀ (onCores s r) :=
  KeepsR.next (keeps_ite hr hs)

theorem keeps_execLayerReprocess {s₀ s : State} {lane : Fin 256} {layer : Fin 4} (h : Keeps s₀ s) : KeepsR s₀ (execLayerReprocess lane layer s) := by
  unfold execLayerReprocess
  dsimp only
  refine keeps_onCores h ?_
  split
  · exact keeps_ite h (keeps_update h)
  · exact h

theorem keeps_stranger {s₀ s : State} {ma : BitVec 64} {src : Nat} (h : Keeps s₀ s) : Keeps s₀ (stranger ma src s) := by
  unfold stranger
  dsimp only
  split
  · exact keeps_ite (keeps_update h) (keeps_update h)
  · exact keeps_update h

theorem keeps_readWord {s₀ s : State} {w : Nat} (h : Keeps s₀ s) : Keeps s₀ (readWord w s) := by
  unfold readWord
  dsimp only
  split
  · exact h
  · exact keeps_count (keeps_update h)
  · exact keeps_recEvent (keeps_postNotice (keeps_count (keeps_ite (keeps_update h) (keeps_ite (keeps_mcc h) (keeps_update h)))))

theorem keeps_readWords {s₀ s : State} {o n : Nat} (h : Keeps s₀ s) : Keeps s₀ (readWords o n s) :=
  keeps_ite h (keeps_foldl (fun _ _ h1 => keeps_readWord h1) h)

theorem keeps_readEntry {s₀ s : State} {mh : Nat} (h : Keeps s₀ s) : Keeps s₀ (readEntry mh s) :=
  keeps_readWords h

theorem keeps_logAppend {s₀ s : State} {rtype src mh flags dtime : Nat} {body : List Byte} (h : Keeps s₀ s) :
    Keeps s₀ (logAppend rtype src mh flags dtime body s) :=
  keeps_update h

theorem keeps_dupNote {s₀ s : State} {src mh fcnt kepoch code : Nat} (h : Keeps s₀ s) : Keeps s₀ (dupNote src mh fcnt kepoch code s) :=
  keeps_ite h (keeps_ite (keeps_count h) (keeps_logAppend h))

theorem keeps_slotCommand {s₀ s : State} {e : DirEntry} (h : Keeps s₀ s) : Keeps s₀ (slotCommand e s).2 := by
  unfold slotCommand
  split
  · exact keeps_count h
  · split
    · exact h
    · exact keeps_count h

theorem keeps_dupAnswer {s₀ s : State} {key f : List Byte} {src feUs mh : Nat} {e : DirEntry} (h : Keeps s₀ s) :
    Keeps s₀ (dupAnswer key f src feUs mh e s).2 := by
  unfold dupAnswer
  dsimp only
  refine keeps_ite_snd ?_ (keeps_ite_snd (keeps_slotCommand h) h)
  split
  · exact h
  · exact h

theorem keeps_dupFrame {s₀ s : State} {f key : List Byte} {src feNs mh : Nat} {e : DirEntry} (h : Keeps s₀ s) :
    Keeps s₀ (dupFrame f key src feNs mh e s).st := by
  have ha : Keeps s₀ (dupAnswer key f src (feNs / 1000) mh e s).2 := keeps_dupAnswer h
  unfold dupFrame
  extract_lets feUs note
  have hn : ∀ {c : Nat} {a : Option AckOrder} {x : State}, Keeps s₀ x → Keeps s₀ (note c a x).st := fun hx => keeps_dupNote hx
  refine keeps_ite_judged (hn h) (keeps_ite_judged (hn h) ?_)
  split <;> (next heq => rw [heq] at ha; exact hn ha)

theorem keeps_answer {s₀ s : State} {key f : List Byte} {src feUs : Nat} {e : DirEntry} (h : Keeps s₀ s) : Keeps s₀ (answer key f src feUs e s).2 := by
  unfold answer
  dsimp only
  split
  · exact h
  · exact keeps_ite_snd (keeps_slotCommand h) h

theorem keeps_updCport {s₀ s : State} {p : Nat} {f : CPort → CPort} (h : Keeps s₀ s) : Keeps s₀ (updCport p f s) :=
  keeps_update h

theorem keeps_pumpPort {s₀ s : State} {p n : Nat} (h : Keeps s₀ s) : Keeps s₀ (pumpPort p n s) := by
  induction n generalizing s with
  | zero => exact h
  | succ n ih =>
    unfold pumpPort
    dsimp only
    split
    · exact keeps_updCport h
    · split
      · exact keeps_updCport (keeps_countN h)
      · exact ih (keeps_emit (keeps_updCport (keeps_countN h)))

theorem keeps_pump {s₀ s : State} {p : Nat} (h : Keeps s₀ s) : Keeps s₀ (pump p s) := keeps_pumpPort h

theorem keeps_sendMsg {s₀ s : State} {p src dst mid : Nat} {m : Flit} (h : Keeps s₀ s) : Keeps s₀ (sendMsg p src dst mid m s) :=
  keeps_ite (keeps_pump (keeps_updCport h)) h

theorem keeps_sendOn {s₀ s : State} {p dst : Nat} {m : Flit} (h : Keeps s₀ s) : Keeps s₀ (sendOn p dst m s) :=
  keeps_sendMsg (keeps_update h)

theorem keeps_mirror {s₀ s : State} {r : MirRec} {jseq tomb : Option Nat} (h : Keeps s₀ s) : Keeps s₀ (mirror r jseq tomb s) :=
  keeps_ite (keeps_count (keeps_update (keeps_foldl (fun _ _ h1 => keeps_sendOn h1) h))) h

theorem keeps_setEntry {s₀ s : State} {mh : Nat} {e : DirEntry} (h : Keeps s₀ s) : Keeps s₀ (setEntry mh e s) :=
  keeps_mirror (keeps_update h)

theorem keeps_exhaustedNotice {s₀ s : State} {mh : Nat} {e : DirEntry} (h : Keeps s₀ s) : Keeps s₀ (exhaustedNotice mh e s) :=
  keeps_postNotice h

theorem keeps_acceptFrame {s₀ s : State} {f pt key : List Byte} {src feNs mh : Nat} {line : Option LineLink} {old new : DirEntry} {hi : Bool}
    (h : Keeps s₀ s) : Keeps s₀ (acceptFrame f pt key src feNs mh line old new hi s).st := by
  have ha : Keeps s₀ (answer key f src (feNs / 1000) new s).2 := keeps_answer h
  unfold acceptFrame
  dsimp only
  refine keeps_ite_judged (keeps_countIf h) (keeps_update ?_)
  exact keeps_ite (keeps_exhaustedNotice (keeps_setEntry (keeps_ite_snd ha h))) (keeps_setEntry (keeps_ite_snd ha h))

theorem keeps_judgeFrame {s₀ s : State} {f : List Byte} {crcOk lenOk : Bool} {src feNs : Nat} {line : Option LineLink} {l : Latch} {orphaned : Bool}
    (h : Keeps s₀ s) :
    Keeps s₀ (judgeFrame f crcOk lenOk src feNs line l orphaned s).st := by
  unfold judgeFrame
  dsimp only
  refine keeps_ite_judged h ?_
  refine keeps_ite_judged h ?_
  refine keeps_ite_judged h ?_
  refine keeps_ite_judged h ?_
  split
  · exact keeps_stranger h
  · refine keeps_ite_judged (keeps_readEntry h) ?_
    refine keeps_ite_judged (keeps_stranger (keeps_readEntry h)) ?_
    refine keeps_ite_judged (keeps_readEntry h) ?_
    split
    · refine keeps_ite_judged (keeps_readEntry h) ?_
      refine keeps_ite_judged (keeps_count (keeps_readEntry h)) ?_
      refine keeps_ite_judged (keeps_count (keeps_readEntry h)) ?_
      split
      · exact keeps_readEntry h
      · split
        · exact keeps_ite_judged (keeps_dupNote (keeps_readEntry h)) (keeps_readEntry h)
        · exact keeps_ite_judged (keeps_readEntry h) (keeps_dupFrame (keeps_readEntry h))
        · exact keeps_ite_judged (keeps_readEntry h) (keeps_acceptFrame (keeps_readEntry h))
    · exact keeps_readEntry h

theorem keeps_shadowJudge {s₀ s : State} {f : List Byte} {src feNs : Nat} {line : Option LineLink} {resp : Option LResp} {l : Latch} {orphaned : Bool}
    (h : Keeps s₀ s) :
    Keeps s₀ (shadowJudge f src feNs line resp l orphaned s) :=
  keeps_update (keeps_count h)

theorem keeps_sendTo {s₀ s : State} {dst : Nat} {m : Flit} (h : Keeps s₀ s) : Keeps s₀ (sendTo dst m s) := by
  unfold sendTo
  split
  · exact keeps_sendOn h
  · exact h

theorem keeps_forwardFrame {s₀ s : State} {src layer fe : Nat} {direct : Bool} {lsa owner : Nat} {f : List Byte} (h : Keeps s₀ s) :
    Keeps s₀ (forwardFrame src layer fe direct lsa owner f s) := by
  unfold forwardFrame
  dsimp only
  split
  · exact keeps_count (keeps_count h)
  · exact keeps_count (keeps_sendTo (keeps_update h))

theorem keeps_judgeCounted {s₀ s : State} {f : List Byte} {crcOk lenOk : Bool} {src feNs : Nat} {line : Option LineLink} {l : Latch} {orphaned : Bool}
    (h : Keeps s₀ s) :
    Keeps s₀ (judgeCounted f crcOk lenOk src feNs line l orphaned s).st :=
  keeps_count (keeps_judgeFrame h)

theorem keeps_placeAck {s₀ s : State} {lane : Nat} {a : Ack} (h : Keeps s₀ s) : Keeps s₀ (placeAck lane a s) :=
  keeps_ite (keeps_count h) (keeps_update h)

theorem keeps_scheduleAck {s₀ s : State} {lane fe mh : Nat} {o : AckOrder} (h : Keeps s₀ s) : Keeps s₀ (scheduleAck lane fe mh o s) :=
  keeps_placeAck h

theorem keeps_judgeRadio {s₀ s : State} {lane : Nat} {f : List Byte} {fe : Nat} {crc : Bool} {la : Latch} {orphaned : Bool} (h : Keeps s₀ s) :
    Keeps s₀ (judgeRadio lane f fe crc la orphaned s) := by
  unfold judgeRadio
  dsimp only
  refine keeps_ite (keeps_shadowJudge h) ?_
  refine keeps_ite (keeps_countIf (keeps_forwardFrame h)) ?_
  split
  · exact keeps_scheduleAck (keeps_countIf (keeps_judgeCounted h))
  · exact keeps_countIf (keeps_judgeCounted h)

theorem keeps_execRadioFrameReceive {s₀ s : State} {lane : Fin 256} {layer : Fin 4} {bytes : List Byte} {est : Nat} (h : Keeps s₀ s) :
    KeepsR s₀ (execRadioFrameReceive lane layer bytes est s) := by
  unfold execRadioFrameReceive
  dsimp only
  refine keeps_onCores h ?_
  split
  · exact h
  · exact keeps_ite (keeps_judgeRadio (keeps_busyCount (keeps_countIf (keeps_update h)))) (keeps_judgeRadio (keeps_countIf (keeps_count
        (keeps_busyCount (keeps_countIf (keeps_update h))))))

theorem keeps_dutyDenied {s₀ s : State} {p g : Nat} (h : Keeps s₀ s) : Keeps s₀ (dutyDenied p g s) := by
  unfold dutyDenied
  dsimp only
  split
  · exact keeps_ite h (keeps_postNotice (keeps_updRport h))
  · exact keeps_postNotice (keeps_updRport h)

theorem keeps_denyAll {s₀ s : State} {p : Nat} {needs : List (Nat × Nat)} (h : Keeps s₀ s) : Keeps s₀ (denyAll p needs s) :=
  keeps_foldl (fun _ _ h1 => keeps_ite h1 (keeps_dutyDenied h1)) h

theorem keeps_putOnAir {s₀ s : State} {p lane rate start : Nat} {needs : List (Nat × Nat)} {bytes : List Byte} (h : Keeps s₀ s) :
    Keeps s₀ (putOnAir p lane rate start needs bytes s) :=
  keeps_emit (keeps_updRport h)

theorem keeps_wakeNamed {s₀ s : State} {ma : BitVec 64} {stop : Nat} (h : Keeps s₀ s) : Keeps s₀ (wakeNamed ma stop s) :=
  keeps_update h

theorem keeps_launchAck {s₀ s : State} {k : Nat} {a : Ack} (h : Keeps s₀ s) : Keeps s₀ (launchAck k a s) :=
  keeps_ite (keeps_count h) (keeps_ite (keeps_count (keeps_count h)) (keeps_ite (keeps_count h) (keeps_ite (keeps_count (keeps_denyAll h))
      (keeps_ite (keeps_wakeNamed (keeps_countIf (keeps_count (keeps_putOnAir h)))) (keeps_countIf (keeps_count (keeps_putOnAir h)))))))

theorem keeps_execAckLaunch {s₀ s : State} {lane : Fin 256} (h : Keeps s₀ s) : KeepsR s₀ (execAckLaunch lane s) := by
  unfold execAckLaunch
  dsimp only
  refine keeps_onClock h ?_
  split
  · exact h
  · exact keeps_ite h (keeps_ite (keeps_count (keeps_update h)) (keeps_launchAck (keeps_update h)))

theorem keeps_keyChanged {s₀ s : State} {i : Nat} (h : Keeps s₀ s) : Keeps s₀ (keyChanged i s) :=
  keeps_ite h (keeps_update h)

theorem keeps_bcastAdvance {s₀ s : State} (h : Keeps s₀ s) : Keeps s₀ (bcastAdvance s) := by
  unfold bcastAdvance
  dsimp only
  split
  · exact h
  · exact keeps_ite (keeps_mirror (keeps_keyChanged (keeps_update h))) h

theorem keeps_putRow {s₀ s : State} {i : Nat} {r : Row} (h : Keeps s₀ s) : Keeps s₀ (putRow i r s) :=
  keeps_mirror (keeps_update h)

theorem keeps_passRow {s₀ s : State} {i k : Nat} {fired : Bool} (h : Keeps s₀ s) : Keeps s₀ (passRow i k fired s) :=
  keeps_countN (keeps_count (keeps_putRow h))

theorem keeps_beaconFail {s₀ s : State} {p : Nat} (h : Keeps s₀ s) : Keeps s₀ (beaconFail p s) :=
  keeps_ite h (keeps_ite (keeps_postNotice (keeps_updRport (keeps_updRport h))) (keeps_updRport h))

theorem keeps_putCamp {s₀ s : State} {id : Nat} {c : Camp} (h : Keeps s₀ s) : Keeps s₀ (putCamp id c s) :=
  keeps_mirror (keeps_update h)

theorem keeps_ctlSent {s₀ s : State} {id place sf : Nat} {c : Camp} (h : Keeps s₀ s) : Keeps s₀ (ctlSent id place sf c s) :=
  keeps_count (keeps_putCamp h)

theorem keeps_campState {s₀ s : State} {id st : Nat} {c : Camp} (h : Keeps s₀ s) : Keeps s₀ (campState id st c s) :=
  keeps_postNotice (keeps_putCamp h)

theorem keeps_blockSent {s₀ s : State} {id p : Nat} {c : Camp} (h : Keeps s₀ s) : Keeps s₀ (blockSent id p c s) :=
  keeps_ite (keeps_ite (keeps_putCamp (keeps_count h)) (keeps_ite (keeps_putCamp (keeps_count h)) (keeps_campState (keeps_count h)))) (keeps_putCamp
      (keeps_count h))

theorem keeps_execBeaconBuild {s₀ s : State} {port : Fin 4} (h : Keeps s₀ s) : KeepsR s₀ (execBeaconBuild port s) := by
  unfold execBeaconBuild
  dsimp only
  refine keeps_onClock h ?_
  refine keeps_ite h ?_
  refine keeps_ite (keeps_bcastAdvance (keeps_passRow h)) ?_
  refine keeps_ite (keeps_beaconFail (keeps_updRport (keeps_bcastAdvance (keeps_passRow h)))) ?_
  split
  · exact keeps_beaconFail (keeps_updRport (keeps_bcastAdvance (keeps_passRow h)))
  · exact keeps_updRport (keeps_updRport (keeps_bcastAdvance (keeps_passRow h)))

theorem keeps_execBeaconLaunch {s₀ s : State} {port : Fin 4} (h : Keeps s₀ s) : KeepsR s₀ (execBeaconLaunch port s) := by
  unfold execBeaconLaunch
  dsimp only
  refine keeps_onClock h ?_
  split
  · exact h
  · exact keeps_ite h (keeps_ite (keeps_beaconFail (keeps_updRport h)) (keeps_ite (keeps_postNotice (keeps_updRport (keeps_foldl
        (fun _ _ h1 => keeps_putOnAir h1) (keeps_updRport h)))) (keeps_updRport (keeps_foldl (fun _ _ h1 => keeps_putOnAir h1) (keeps_updRport h)))))

theorem keeps_launchSlot {s₀ s : State} {p lane at_ : Nat} {frame : List Byte} {sent : State → State} (hsent : ∀ x0, Keeps s₀ x0 → Keeps s₀ (sent x0))
    (h : Keeps s₀ s) :
    Keeps s₀ (launchSlot p lane at_ frame sent s) :=
  keeps_ite h (keeps_ite (keeps_updRport h) (keeps_ite (keeps_count (keeps_denyAll h)) (hsent _ (keeps_updRport (keeps_putOnAir h)))))

/-- What a campaign frame leaves behind when it goes out keeps them too. -/
theorem keeps_campPick {s₀ s x : State} {p lane : Nat} {c : Chain} {cp : Camp} {pt : List Byte} {sent : State → State}
    (hc : campPick p lane c s = some (cp, pt, sent)) (h : Keeps s₀ x) : Keeps s₀ (sent x) := by
  unfold campPick at hc
  dsimp only at hc
  split at hc
  · cases hc
  · split at hc
    · cases hc
      exact keeps_ctlSent h
    · rw [Option.map_eq_some_iff] at hc
      obtain ⟨e, -, he⟩ := hc
      cases he
      exact keeps_blockSent h

theorem keeps_launchCampaign {s₀ s : State} {p lane : Nat} {c : Chain} (h : Keeps s₀ s) : Keeps s₀ (launchCampaign p lane c s) := by
  unfold launchCampaign
  dsimp only
  split
  · exact h
  · split
    · next hc =>
      split
      · exact h
      · exact keeps_launchSlot (fun _ hx => keeps_campPick hc hx) h
    · exact h

theorem keeps_unqueue {s₀ s : State} {p : Nat} {ticket : BitVec 32} (h : Keeps s₀ s) : Keeps s₀ (unqueue p ticket s) :=
  keeps_updRport h

theorem keeps_launchUnicast {s₀ s : State} {p lane : Nat} {c : Chain} {f : DnFrame} (h : Keeps s₀ s) : Keeps s₀ (launchUnicast p lane c f s) := by
  unfold launchUnicast
  dsimp only
  split
  · exact keeps_count (keeps_unqueue h)
  · exact keeps_ite h (keeps_launchSlot (fun _ h1 => keeps_unqueue h1) h)

theorem keeps_execDownlinkLaunch {s₀ s : State} {port lane : Fin 4} {at_ : Nat} {ticket : Option (BitVec 32)} (h : Keeps s₀ s) :
    KeepsR s₀ (execDownlinkLaunch port lane at_ ticket s) := by
  unfold execDownlinkLaunch
  dsimp only
  refine keeps_onClock h ?_
  refine keeps_ite h ?_
  split
  · exact keeps_launchCampaign h
  · split
    · exact keeps_launchUnicast h
    · exact h

theorem keeps_setMode {s₀ s : State} {m : Mode} {reduced : Bool} (h : Keeps s₀ s) : Keeps s₀ (setMode m reduced s) :=
  keeps_ite h (keeps_postNotice (keeps_update h))

theorem keeps_reducedStart {s₀ s : State} (h : Keeps s₀ s) : Keeps s₀ (reducedStart s) :=
  keeps_ite (keeps_setMode h) h

theorem keeps_execRxLinkUp {s₀ s : State} {port : Fin 4} (h : Keeps s₀ s) : KeepsR s₀ (execRxLinkUp port s) :=
  KeepsR.next (keeps_ite h (keeps_ite (keeps_reducedStart (keeps_updRport h)) (keeps_updRport h)))

theorem keeps_radioLinkFail {s₀ s : State} {p : Nat} (h : Keeps s₀ s) : Keeps s₀ (radioLinkFail p s) :=
  keeps_postNotice (keeps_updRport (keeps_update (keeps_foldl (fun _ _ h1 => keeps_busyTillNow h1) h)))

theorem keeps_execRadioTxResume {s₀ s : State} {port : Fin 4} (h : Keeps s₀ s) : KeepsR s₀ (execRadioTxResume port s) := by
  unfold execRadioTxResume
  dsimp only
  refine keeps_onCores h ?_
  split
  · exact h
  · exact keeps_ite (keeps_updRport h) h

theorem keeps_releasePool {s₀ s : State} {ref : Word} (h : Keeps s₀ s) : Keeps s₀ (releasePool ref s) :=
  keeps_update h

theorem keeps_parkThread {s₀ s : State} {t : Nat} {st : TState} (h : Keeps s₀ s) : Keeps s₀ (parkThread t st s) := by
  unfold parkThread
  dsimp only
  refine keeps_setThr ?_
  split
  · exact keeps_releasePool h
  · exact h

theorem keeps_settle {s₀ s : State} {t : Nat} (h : Keeps s₀ s) : Keeps s₀ (settle t s) :=
  keeps_ite h (keeps_ite (keeps_parkThread h) h)

theorem keeps_forceLret {s₀ s : State} {t status : Nat} {m2 : Word} {code : Nat} {evalV : Word} (h : Keeps s₀ s) :
    Keeps s₀ (forceLret t status m2 code evalV s) :=
  keeps_settle (keeps_recEvent (keeps_setThr h))

theorem keeps_raise {s₀ s : State} {t code : Nat} {evalV : Word} (h : Keeps s₀ s) : Keeps s₀ (raise t code evalV s) :=
  keeps_ite (keeps_count (keeps_forceLret (keeps_count (keeps_setThr h)))) (keeps_ite (keeps_postNotice (keeps_recEvent (keeps_parkThread
      (keeps_count (keeps_setThr h))))) (keeps_setThr (keeps_count (keeps_setThr h))))

theorem keeps_readImem {s₀ s : State} {w : Nat} (h : Keeps s₀ s) : Keeps s₀ (readImem w s) :=
  keeps_ite (keeps_count (keeps_mcc h)) h

theorem keeps_updThr {s₀ s : State} {t : Nat} {f : Thread → Thread} (h : Keeps s₀ s) : Keeps s₀ (updThr t f s) :=
  keeps_setThr h

theorem keeps_retire {s₀ s : State} {t : Nat} (h : Keeps s₀ s) : Keeps s₀ (retire t s) :=
  keeps_settle (keeps_count (keeps_updThr h))

theorem keeps_issue {s₀ s : State} {t pi : Nat} {act : Thread → State → State} (hact : ∀ a0 x1, Keeps s₀ x1 → Keeps s₀ (act a0 x1)) (h : Keeps s₀ s) :
    Keeps s₀ (issue t pi act s) :=
  keeps_ite h (keeps_ite (keeps_raise h) (keeps_ite (keeps_raise h) (keeps_ite (hact _ _ (keeps_readImem h)) (keeps_retire (keeps_readImem h)))))

theorem keeps_stallThread {s₀ s : State} {t : Nat} {w : Stall} (h : Keeps s₀ s) : Keeps s₀ (stallThread t w s) :=
  keeps_updThr h

theorem keeps_readPlace {s₀ s : State} {p : Place} {n : Nat} (h : Keeps s₀ s) : Keeps s₀ (readPlace p n s) := by
  unfold readPlace
  split
  · exact keeps_ite h (keeps_foldl (fun _ _ h1 => keeps_ite (keeps_count (keeps_mcc h1)) h1) h)
  · exact keeps_readWords h

theorem keeps_EngOut_fail {s₀ s : State} {status : Nat} (h : Keeps s₀ s) : Keeps s₀ (EngOut.fail s status).st :=
  h

theorem keeps_ecallG {s₀ s : State} {permits : Thread → Bool} {atOnce : Bool} {t pi rt ra fn len : Nat} {eng : Nat → List Byte → State → EngOut}
    (heng : ∀ a0 a1 x2, Keeps s₀ x2 → Keeps s₀ (eng a0 a1 x2).st) (h : Keeps s₀ s) :
    Keeps s₀ (ecallG permits atOnce t pi rt ra fn len eng s) := by
  unfold ecallG
  dsimp only
  refine keeps_issue (fun _ _ h1 => ?_) h
  refine keeps_ite (keeps_stallThread h1) ?_
  refine keeps_ite (keeps_raise h1) ?_
  split
  · exact keeps_raise h1
  · split
    · exact keeps_stallThread h1
    · exact keeps_ite (keeps_retire (keeps_updThr (keeps_count (keeps_countIf (keeps_setThr h1))))) (keeps_ite (keeps_retire (keeps_updThr
          (keeps_ite_st (keeps_EngOut_fail (keeps_readPlace (keeps_count (keeps_countIf (keeps_setThr h1))))) (heng _ _ _ (keeps_readPlace
          (keeps_count (keeps_countIf (keeps_setThr h1)))))))) (keeps_retire (keeps_updThr (keeps_ite_st (keeps_EngOut_fail (keeps_readPlace
          (keeps_count (keeps_countIf (keeps_setThr h1))))) (heng _ _ _ (keeps_readPlace (keeps_count (keeps_countIf (keeps_setThr h1)))))))))

theorem keeps_ecall {s₀ s : State} {t pi rt ra fn len : Nat} {eng : Nat → List Byte → State → EngOut} (heng : ∀ a0 a1 x2, Keeps s₀ x2 → Keeps s₀
    (eng a0 a1 x2).st) (h : Keeps s₀ s) :
    Keeps s₀ (ecall t pi rt ra fn len eng s) :=
  keeps_ecallG heng h

theorem keeps_EngOut_ok {s₀ s : State} (h : Keeps s₀ s) : Keeps s₀ (EngOut.ok s).st := h

theorem keeps_engRlaPortCfg {s₀ s : State} {_t : Nat} {b : List Byte} (h : Keeps s₀ s) : Keeps s₀ (engRlaPortCfg _t b s).st :=
  keeps_ite_st (keeps_EngOut_fail h) (keeps_ite_st (keeps_EngOut_fail h) (keeps_EngOut_ok (keeps_updRport h)))

theorem keeps_putDesc {s₀ s : State} {p : Nat} {d : RDesc} (h : Keeps s₀ s) : Keeps s₀ (putDesc p d s) :=
  keeps_putRow (keeps_updRport h)

theorem keeps_execPortDescriptorApply {s₀ s : State} {port : Fin 4} (h : Keeps s₀ s) : KeepsR s₀ (execPortDescriptorApply port s) := by
  unfold execPortDescriptorApply
  dsimp only
  refine keeps_onCores h ?_
  split
  · exact h
  · exact keeps_ite h (keeps_putDesc h)

theorem keeps_engRlaQueue {s₀ s : State} {t : Nat} {b : List Byte} (h : Keeps s₀ s) : Keeps s₀ (engRlaQueue t b s).st := by
  unfold engRlaQueue
  dsimp only
  refine keeps_ite_st (keeps_EngOut_fail h) ?_
  split
  · exact keeps_EngOut_fail h
  · refine keeps_ite_st (keeps_EngOut_fail h) ?_
    refine keeps_ite_st (keeps_EngOut_fail h) ?_
    split
    · exact keeps_EngOut_fail h
    · exact keeps_ite_st (keeps_EngOut_fail h) (keeps_updRport h)

theorem keeps_engRlaWithdraw {s₀ s : State} {_t : Nat} {b : List Byte} (h : Keeps s₀ s) : Keeps s₀ (engRlaWithdraw _t b s).st :=
  keeps_ite_st (keeps_EngOut_fail h) (keeps_ite_st (keeps_EngOut_ok (keeps_unqueue h)) (keeps_EngOut_fail h))

theorem keeps_updLport {s₀ s : State} {p : Nat} {f : LPort → LPort} (h : Keeps s₀ s) : Keeps s₀ (updLport p f s) :=
  keeps_update h

theorem keeps_execLineSampleWord {s₀ s : State} {port : Fin 4} {word : BitVec 16} {frm : Bool} (h : Keeps s₀ s) :
    KeepsR s₀ (execLineSampleWord port word frm s) :=
  KeepsR.next (keeps_ite h (keeps_ite (keeps_updLport h) (keeps_ite h (keeps_updLport (keeps_countIf (keeps_countIf h))))))

theorem keeps_execLineTxResume {s₀ s : State} {port : Fin 4} (h : Keeps s₀ s) : KeepsR s₀ (execLineTxResume port s) := by
  unfold execLineTxResume
  dsimp only
  refine keeps_onCores h ?_
  split
  · exact keeps_ite (keeps_updLport h) h
  · exact h

theorem keeps_markBusy {s₀ s : State} {p from_ till : Nat} (h : Keeps s₀ s) : Keeps s₀ (markBusy p from_ till s) :=
  keeps_ite h (keeps_countN (keeps_updLport h))

theorem keeps_fcFail {s₀ s : State} {p pre : Nat} (h : Keeps s₀ s) : Keeps s₀ (fcFail p pre s) :=
  keeps_markBusy (keeps_count (keeps_updLport h))

theorem keeps_execLineFcReceive {s₀ s : State} {port : Fin 4} {soft : List Byte} (h : Keeps s₀ s) : KeepsR s₀ (execLineFcReceive port soft s) := by
  unfold execLineFcReceive
  dsimp only
  refine KeepsR.next ?_
  split
  · exact h
  · refine keeps_ite h ?_
    split
    · exact keeps_fcFail h
    · exact keeps_ite (keeps_markBusy (keeps_updLport h)) (keeps_ite (keeps_fcFail h) (keeps_markBusy (keeps_updLport h)))

theorem keeps_routeHeard {s₀ s : State} {p l : Nat} (h : Keeps s₀ s) : Keeps s₀ (routeHeard p l s) :=
  keeps_ite h (keeps_updLport h)

theorem keeps_lineMeter {s₀ s : State} {p fe : Nat} {m : List Byte} {r : LResp} (h : Keeps s₀ s) : Keeps s₀ (lineMeter p fe m r s).2 :=
  keeps_ite_snd (keeps_shadowJudge h) (keeps_ite_snd (keeps_forwardFrame h) (keeps_judgeCounted h))

theorem keeps_nbrReport {s₀ s : State} {p : Nat} {m : List Byte} (h : Keeps s₀ s) : Keeps s₀ (nbrReport p m s) := by
  unfold nbrReport
  dsimp only
  split
  · exact h
  · split
    · exact h
    · refine keeps_ite h ?_
      refine keeps_ite h ?_
      split
      · exact keeps_updLport h
      · exact h

theorem keeps_tmapReceive {s₀ s : State} {p src : Nat} {m : List Byte} (h : Keeps s₀ s) : Keeps s₀ (tmapReceive p src m s) :=
  keeps_ite h (keeps_updLport h)

theorem keeps_lineFrame {s₀ s : State} {p : Nat} {want : Nat → Bool} {syms : List LineSym} {snr : List Int} (h : Keeps s₀ s) :
    Keeps s₀ (lineFrame p want syms snr s) := by
  unfold lineFrame
  extract_lets x
  split
  · next r d _ _ =>
    extract_lets m failed good s1
    have h1 : Keeps s₀ s1 := keeps_countN (keeps_countN (keeps_countN (keeps_updLport h)))
    clear_value s1
    split
    · exact h
    · next v _ =>
      refine keeps_ite h ?_
      refine keeps_ite h ?_
      extract_lets fe s2 src tmi r0
      refine keeps_ite h1 (keeps_ite (keeps_countIf (keeps_count (keeps_updLport h1))) ?_)
      have h2 : Keeps s₀ s2 := keeps_routeHeard (keeps_count (keeps_updLport h1))
      clear_value s2
      refine keeps_ite h2 ?_
      have answered : ∀ (r1 : LResp) {x : State}, Keeps s₀ x → Keeps s₀ (if 65536 ≤ r1.link then
          updLport p (fun x => { x with links := x.links.put {} r1.link { x.link r1.link with mode := tmi, fails := 0, succs := 0 } }) x else x) :=
        fun _ _ hx => keeps_ite (keeps_updLport hx) hx
      split
      next r1 s3 heq =>
        have h3 : Keeps s₀ s3 := by
          split at heq
          · have hm := keeps_lineMeter (p := p) (fe := fe) (m := m) (r := r0) h2
            rw [heq] at hm
            exact hm
          · split at heq
            · cases heq
              exact keeps_nbrReport h2
            · split at heq
              · cases heq
                exact keeps_tmapReceive h2
              · cases heq
                exact h2
        exact keeps_ite (keeps_updLport (answered r1 h3)) (answered r1 h3)
  · exact h

theorem keeps_putLair {s₀ s : State} {p : Nat} {a : LAir} (h : Keeps s₀ s) : Keeps s₀ (putLair p a s) :=
  keeps_updLport h

theorem keeps_execLineResponseLaunch {s₀ s : State} {port : Fin 4} {ready : Bool} {sugg : Fin 32} (h : Keeps s₀ s) :
    KeepsR s₀ (execLineResponseLaunch port ready sugg s) := by
  unfold execLineResponseLaunch
  dsimp only
  refine KeepsR.next ?_
  split
  · exact h
  · exact keeps_ite h (keeps_ite (keeps_updLport h) (keeps_emit (keeps_putLair (keeps_markBusy (keeps_updLport (keeps_countIf (keeps_countIf
        (keeps_countIf h))))))))

theorem keeps_takeLseq {s₀ s : State} {p : Nat} (h : Keeps s₀ s) : Keeps s₀ (takeLseq p s).2 := keeps_updLport h

theorem keeps_startTx {s₀ s : State} {p start : Nat} {f : LTx} (h : Keeps s₀ s) : Keeps s₀ (startTx p start f s) :=
  keeps_count (keeps_emit (keeps_updLport (keeps_putLair (keeps_markBusy h))))

theorem keeps_execLineAckFrameLaunch {s₀ s : State} {port : Fin 4} (h : Keeps s₀ s) : KeepsR s₀ (execLineAckFrameLaunch port s) := by
  unfold execLineAckFrameLaunch
  dsimp only
  refine KeepsR.next ?_
  split
  · exact h
  · refine keeps_ite h ?_
    refine keeps_ite (keeps_updLport h) ?_
    split
    · exact keeps_updLport h
    · exact keeps_startTx (keeps_takeLseq (keeps_updLport h))

theorem keeps_buildLine {s₀ s : State} {p : Nat} {f : LTx} (h : Keeps s₀ s) : Keeps s₀ (buildLine p f s).2 := by
  unfold buildLine
  dsimp only
  split
  · split
    · exact keeps_takeLseq h
    · exact keeps_count h
    · exact h
  · split
    · exact keeps_ite_snd h (keeps_takeLseq (keeps_updLport h))
    · exact h
  · split
    · exact h
    · exact keeps_takeLseq h
  · split
    · exact h
    · split
      · exact keeps_ctlSent (keeps_takeLseq h)
      · split
        · exact keeps_blockSent (keeps_takeLseq h)
        · exact h
  · exact h

theorem keeps_execLineBackoffExpire {s₀ s : State} {port : Fin 4} (h : Keeps s₀ s) : KeepsR s₀ (execLineBackoffExpire port s) := by
  unfold execLineBackoffExpire
  refine KeepsR.next ?_
  dsimp only
  split
  · exact h
  · next f _ =>
    split
    · exact h
    · have h1 : Keeps s₀ (updLport port (fun x => { x with queue := x.queue.erase f }) s) := keeps_updLport h
      split
      · exact keeps_startTx h1
      · have h2 := keeps_buildLine (p := port) (f := f) h1
        split <;> rename_i heq
        · rw [heq] at h2; exact keeps_startTx h2
        · rw [heq] at h2; exact h2

theorem keeps_ettUpdate {s₀ s : State} {p k : Nat} (h : Keeps s₀ s) : Keeps s₀ (ettUpdate p k s) :=
  keeps_ite (keeps_updLport h) h

theorem keeps_setLink {s₀ s : State} {p k : Nat} {l : LLink} (h : Keeps s₀ s) : Keeps s₀ (setLink p k l s) :=
  keeps_countIf (keeps_updLport h)

theorem keeps_drawFree {s₀ s : State} (h : Keeps s₀ s) : Keeps s₀ (drawFree s).2 := keeps_update h

theorem keeps_drawSlots {s₀ s : State} {f : LTx} (h : Keeps s₀ s) : Keeps s₀ (drawSlots f s).2 :=
  keeps_drawFree h

theorem keeps_routeFail {s₀ s : State} {p l : Nat} (h : Keeps s₀ s) : Keeps s₀ (routeFail p l s) :=
  keeps_ite h (keeps_ite (keeps_postNotice (keeps_updLport h)) (keeps_updLport h))

theorem keeps_txFailed {s₀ s : State} {p : Nat} {f : LTx} {counts : Bool} (h : Keeps s₀ s) : Keeps s₀ (txFailed p f counts s) :=
  keeps_ite (keeps_updLport (keeps_drawSlots (f := f) (keeps_ite (keeps_ettUpdate (keeps_setLink (keeps_updLport h))) (keeps_updLport h))))
      (keeps_routeFail (keeps_ite (keeps_ettUpdate (keeps_setLink (keeps_updLport h))) (keeps_updLport h)))

theorem keeps_execLineResponseReceive {s₀ s : State} {port : Fin 4} (h : Keeps s₀ s) : KeepsR s₀ (execLineResponseReceive port s) := by
  unfold execLineResponseReceive
  dsimp only
  refine keeps_onCores h ?_
  split
  · split
    · exact h
    · exact keeps_ite h (keeps_ite (keeps_updLport h) (keeps_ite (keeps_ite (keeps_ettUpdate (keeps_setLink (keeps_updLport (keeps_updLport
          (keeps_updLport h))))) (keeps_updLport (keeps_ettUpdate (keeps_setLink (keeps_updLport (keeps_updLport (keeps_updLport h))))))) (keeps_ite
          (keeps_updLport (keeps_updLport (keeps_updLport h))) (keeps_txFailed (keeps_updLport (keeps_updLport h))))))
  · exact h

theorem keeps_execLineResponseWindowExpire {s₀ s : State} {port : Fin 4} (h : Keeps s₀ s) : KeepsR s₀ (execLineResponseWindowExpire port s) := by
  unfold execLineResponseWindowExpire
  dsimp only
  refine keeps_onCores h ?_
  split
  · exact h
  · exact keeps_ite h (keeps_txFailed (keeps_count h))

theorem keeps_enqueueLine {s₀ s : State} {p : Nat} {f : LTx} (h : Keeps s₀ s) : Keeps s₀ (enqueueLine p f s) :=
  keeps_updLport (keeps_drawSlots (f := f) h)

theorem keeps_execLbeaconSend {s₀ s : State} {port : Fin 4} (h : Keeps s₀ s) : KeepsR s₀ (execLbeaconSend port s) :=
  KeepsR.next (keeps_ite h (keeps_ite (keeps_bcastAdvance (keeps_passRow h)) (keeps_enqueueLine (keeps_updLport (keeps_bcastAdvance
      (keeps_passRow h))))))

theorem keeps_execTmapIssue {s₀ s : State} {port : Fin 4} {lsa : Fin 16384} {rate : Bool} (h : Keeps s₀ s) :
    KeepsR s₀ (execTmapIssue port lsa rate s) := by
  unfold execTmapIssue
  dsimp only
  refine KeepsR.next ?_
  split
  · exact h
  · exact keeps_ite h (keeps_enqueueLine (keeps_updLport (keeps_takeLseq h)))

theorem keeps_engLmPortCfg {s₀ s : State} {site : BitVec 32} {sfcode sofs : Fin 256} {_t : Nat} {b : List Byte} (h : Keeps s₀ s) :
    Keeps s₀ (engLmPortCfg site sfcode sofs _t b s).st :=
  keeps_ite_st (keeps_EngOut_fail h) (keeps_ite_st (keeps_EngOut_fail h) (keeps_EngOut_ok (keeps_updLport h)))

theorem keeps_execLineDescriptorApply {s₀ s : State} {port : Fin 4} (h : Keeps s₀ s) : KeepsR s₀ (execLineDescriptorApply port s) := by
  unfold execLineDescriptorApply
  dsimp only
  refine keeps_onCores h ?_
  split
  · exact h
  · exact keeps_ite h (keeps_putRow (keeps_updLport h))

theorem keeps_engLmQueue {s₀ s : State} {t : Nat} {b : List Byte} (h : Keeps s₀ s) : Keeps s₀ (engLmQueue t b s).st := by
  unfold engLmQueue
  dsimp only
  refine keeps_ite_st (keeps_EngOut_fail h) ?_
  split
  · exact keeps_EngOut_fail h
  · refine keeps_ite_st (keeps_EngOut_fail h) ?_
    refine keeps_ite_st (keeps_EngOut_fail h) ?_
    refine keeps_ite_st (keeps_EngOut_fail h) ?_
    split
    · exact keeps_EngOut_fail h
    · exact keeps_ite_st (keeps_EngOut_fail h) (keeps_ite_st (keeps_EngOut_fail h) (keeps_updLport (keeps_enqueueLine h)))

theorem keeps_requestCal {s₀ s : State} {p : Nat} (h : Keeps s₀ s) : Keeps s₀ (requestCal p s) :=
  keeps_updLport h

theorem keeps_execCalStart {s₀ s : State} {port : Fin 4} (h : Keeps s₀ s) : KeepsR s₀ (execCalStart port s) := by
  unfold execCalStart
  dsimp only
  refine KeepsR.next ?_
  split
  · exact h
  · exact keeps_ite h (keeps_emit (keeps_updLport h))

theorem keeps_execCalTimeout {s₀ s : State} {port : Fin 4} (h : Keeps s₀ s) : KeepsR s₀ (execCalTimeout port s) := by
  unfold execCalTimeout
  dsimp only
  refine keeps_onCores h ?_
  split
  · exact keeps_ite h (keeps_postNotice (keeps_emit (keeps_updLport h)))
  · exact h

theorem keeps_dirFail {s₀ s : State} {st : Nat} (h : Keeps s₀ s) : Keeps s₀ (dirFail s st).st := h

theorem keeps_engDirLookup {s₀ s : State} {_t : Nat} {b : List Byte} (h : Keeps s₀ s) : Keeps s₀ (engDirLookup _t b s).st := by
  unfold engDirLookup
  dsimp only
  refine keeps_ite_st (keeps_dirFail h) ?_
  refine keeps_ite_st (keeps_dirFail h) ?_
  split
  · exact keeps_dirFail h
  · exact keeps_ite_st (keeps_dirFail (keeps_readEntry h)) (keeps_readEntry h)

theorem keeps_engDirRead {s₀ s0 : State} {_t : Nat} {b : List Byte} (h : Keeps s₀ s0) : Keeps s₀ (engDirRead _t b s0).st :=
  keeps_ite_st (keeps_dirFail h) (keeps_ite_st (keeps_dirFail (keeps_readEntry h)) (keeps_ite_st (keeps_dirFail (keeps_readEntry h))
      (keeps_readEntry h)))

theorem keeps_stageRec {s₀ s : State} {r : JRec} (h : Keeps s₀ s) : Keeps s₀ (stageRec r s) := keeps_update h

theorem keeps_journal {s₀ s : State} {typ : Nat} {eff : JEff} (h : Keeps s₀ s) : Keeps s₀ (journal typ eff s).1 :=
  keeps_mirror (keeps_stageRec h)

theorem keeps_commitEntry {s₀ s : State} {mh : Nat} {e : DirEntry} (h : Keeps s₀ s) : Keeps s₀ (commitEntry mh e s).1 :=
  keeps_journal (keeps_setEntry h)

theorem keeps_updNode {s₀ s : State} {n : Nat} {f : Node → Node} (h : Keeps s₀ s) : Keeps s₀ (updNode n f s) :=
  keeps_update h

theorem keeps_bumpChain {s₀ s : State} {mh node : Nat} {join : Bool} (h : Keeps s₀ s) : Keeps s₀ (bumpChain mh node join s) :=
  keeps_ite h (keeps_foldl (fun _ _ h1 => keeps_updNode h1) h)

theorem keeps_placeEntry {s₀ s : State} {mh : Nat} {e : DirEntry} (h : Keeps s₀ s) : Keeps s₀ (placeEntry mh e s).1 :=
  keeps_journal (keeps_ite (keeps_exhaustedNotice (keeps_bumpChain (keeps_commitEntry h))) (keeps_bumpChain (keeps_commitEntry h)))

theorem keeps_engDirInsert {s₀ s : State} {_t : Nat} {b : List Byte} (h : Keeps s₀ s) : Keeps s₀ (engDirInsert _t b s).st := by
  unfold engDirInsert
  dsimp only
  refine keeps_ite_st (keeps_dirFail h) ?_
  refine keeps_ite_st (keeps_dirFail h) ?_
  refine keeps_ite_st (keeps_dirFail h) ?_
  refine keeps_ite_st (keeps_dirFail h) ?_
  refine keeps_ite_st (keeps_update h) ?_
  split
  · exact keeps_dirFail h
  · exact keeps_placeEntry h
  · exact keeps_update h

theorem keeps_dirOn {s₀ s0 : State} {b : List Byte} {f : Nat → DirEntry → State → EngOut} (h : Keeps s₀ s0) (hf : ∀ a0 a1 x2, Keeps s₀ x2 → Keeps s₀
    (f a0 a1 x2).st) :
    Keeps s₀ (dirOn b s0 f).st :=
  keeps_ite_st (keeps_dirFail h) (keeps_ite_st (keeps_dirFail h) (keeps_ite_st (keeps_dirFail (keeps_readEntry h)) (keeps_ite_st (keeps_dirFail
      (keeps_readEntry h)) (hf _ _ _ (keeps_readEntry h)))))

theorem keeps_markMoved {s₀ s : State} {node : Nat} (h : Keeps s₀ s) : Keeps s₀ (markMoved node s) := by
  unfold markMoved
  split
  · exact keeps_ite (keeps_updNode h) h
  · exact h

theorem keeps_moveMeter {s₀ s : State} {mh old new : Nat} (h : Keeps s₀ s) : Keeps s₀ (moveMeter mh old new s) :=
  keeps_ite h (keeps_markMoved (keeps_markMoved (keeps_bumpChain (keeps_bumpChain h))))

theorem keeps_engDirSet {s₀ s : State} {_t : Nat} {b : List Byte} (h : Keeps s₀ s) : Keeps s₀ (engDirSet _t b s).st :=
  keeps_dirOn h (fun _ _ _ h1 => keeps_ite_st (keeps_dirFail h1) (keeps_commitEntry (keeps_moveMeter h1)))

theorem keeps_engDirEpoch {s₀ s : State} {_t : Nat} {b : List Byte} (h : Keeps s₀ s) : Keeps s₀ (engDirEpoch _t b s).st :=
  keeps_dirOn h (fun _ _ _ h1 => keeps_ite_st (keeps_commitEntry h1) (keeps_ite_st (keeps_dirFail h1) (keeps_commitEntry h1)))

theorem keeps_engDirCmd {s₀ s : State} {_t : Nat} {b : List Byte} (h : Keeps s₀ s) : Keeps s₀ (engDirCmd _t b s).st :=
  keeps_dirOn h (fun _ _ _ h1 => keeps_ite_st (keeps_dirFail h1) (keeps_commitEntry h1))

theorem keeps_freeEntry {s₀ s : State} {mh : Nat} (h : Keeps s₀ s) : Keeps s₀ (freeEntry mh s).1 :=
  keeps_commitEntry (keeps_update (keeps_bumpChain h))

theorem keeps_engDirRemove {s₀ s0 : State} {_t : Nat} {b : List Byte} (h : Keeps s₀ s0) : Keeps s₀ (engDirRemove _t b s0).st :=
  keeps_ite_st (keeps_dirFail h) (keeps_ite_st (keeps_dirFail (keeps_readEntry h)) (keeps_ite_st (keeps_dirFail (keeps_readEntry h)) (keeps_ite_st
      (keeps_dirFail (keeps_readEntry h)) (keeps_ite_st (keeps_update (keeps_readEntry h)) (keeps_freeEntry (keeps_readEntry h))))))

theorem keeps_mapCalls {s₀ s : State} {f : Nat → Nat → Pend → Pend} (h : Keeps s₀ s) : Keeps s₀ (mapCalls f s) :=
  keeps_mcc h

theorem keeps_rewait {s₀ s : State} {w : Wait} {w' : Option Wait} {status : Option Nat} {out : Option (List (Nat × List Byte))} (h : Keeps s₀ s) :
    Keeps s₀ (rewait w w' status out s) :=
  keeps_update (keeps_mapCalls h)

theorem keeps_journal' {s₀ s : State} {typ : Nat} {eff : JEff} (h : Keeps s₀ s) : Keeps s₀ (journal' typ eff s) :=
  keeps_journal h

theorem keeps_doMove {s₀ s : State} {r : Reloc5} (h : Keeps s₀ s) : Keeps s₀ (doMove r s) :=
  keeps_count (keeps_postNotice (keeps_journal' (keeps_rewait (keeps_update (keeps_setEntry (keeps_setEntry h))))))

theorem keeps_planInserts {s₀ s : State} {k : Nat} (h : Keeps s₀ s) : Keeps s₀ (planInserts k s) := by
  induction k generalizing s with
  | zero => exact h
  | succ k ih =>
    unfold planInserts
    split
    · exact h
    · split
      · exact h
      · split
        · exact ih (keeps_rewait (keeps_update h))
        · exact ih (keeps_rewait (keeps_placeEntry (keeps_update h)))
        · exact keeps_update h

theorem keeps_execDirRelocation {s₀ s : State} (h : Keeps s₀ s) : KeepsR s₀ (execDirRelocation s) := by
  unfold execDirRelocation
  dsimp only
  refine keeps_onClock h ?_
  split
  · refine keeps_ite ?_ (keeps_ite (keeps_planInserts (keeps_rewait (keeps_placeEntry (keeps_update (keeps_doMove h))))) (keeps_update
        (keeps_doMove h)))
    split
    · exact h
    · exact keeps_rewait (keeps_freeEntry (keeps_update h))
  · split
    · exact h
    · exact keeps_rewait (keeps_freeEntry (keeps_update h))

theorem keeps_updateNotices {s₀ s : State} (h : Keeps s₀ s) : Keeps s₀ (updateNotices s) :=
  keeps_ite (keeps_postNotice (keeps_update (keeps_ite (keeps_postNotice (keeps_update h)) h))) (keeps_ite (keeps_postNotice (keeps_update h)) h)

theorem keeps_recountNodes {s₀ s : State} (h : Keeps s₀ s) : Keeps s₀ (recountNodes s) := keeps_update h

theorem keeps_startRestored {s₀ s : State} {bint : Nat} (h : Keeps s₀ s) : Keeps s₀ (startRestored bint s) :=
  keeps_update h

theorem keeps_restoreNodes {s₀ s : State} (h : Keeps s₀ s) : Keeps s₀ (restoreNodes s) := by
  unfold restoreNodes
  dsimp only
  split
  · exact keeps_startRestored (keeps_recountNodes (keeps_update h))
  · exact keeps_recountNodes (keeps_update h)

theorem keeps_enterService {s₀ s : State} (h : Keeps s₀ s) : Keeps s₀ (enterService s) :=
  keeps_ite (keeps_updateNotices (keeps_setMode (keeps_restoreNodes h))) h

theorem keeps_rollForward {s₀ s : State} {log : List BRec} {mh : Nat} {before : Option Nat} {byCtr : Nat} (h : Keeps s₀ s) :
    Keeps s₀ (rollForward log mh before byCtr s) :=
  keeps_ite h (keeps_countN (keeps_journal' h))

theorem keeps_commitMaint {s₀ s : State} {x : Maint} (h : Keeps s₀ s) : Keeps s₀ (commitMaint x s).1 := by
  unfold commitMaint
  dsimp only
  split
  · exact h
  · refine keeps_ite_fst h ?_
    split
    · exact keeps_journal (keeps_rollForward h)
    · exact keeps_journal (keeps_rollForward h)

theorem keeps_wake {s₀ s : State} {w : Wait} {status : Option Nat} {out : Option (List (Nat × List Byte))} (h : Keeps s₀ s) :
    Keeps s₀ (wake w status out s) :=
  keeps_rewait h

theorem keeps_settleMaint {s₀ s : State} (h : Keeps s₀ s) : Keeps s₀ (settleMaint s) := by
  refine keeps_foldl (fun u x hu => ?_) h
  split
  · exact hu
  · have hc : Keeps s₀ (commitMaint x { u with ldg.maint := u.ldg.maint.filter fun y => y.id != x.id }).1 := keeps_commitMaint (keeps_update hu)
    split <;> rename_i heq
    · rw [heq] at hc; exact keeps_rewait hc
    · rw [heq] at hc; exact keeps_wake hc

theorem keeps_noteUnknown {s₀ s : State} {x : Staged} (h : Keeps s₀ s) : Keeps s₀ (noteUnknown x s) := by
  unfold noteUnknown
  dsimp only
  split
  · exact keeps_countN h
  · exact keeps_countIf (keeps_countIf h)
  · exact keeps_countIf h
  · exact h

theorem keeps_frameRecord {s₀ s : State} {x : Staged} {reasons : List Nat} (h : Keeps s₀ s) : Keeps s₀ (frameRecord x reasons s) :=
  keeps_logAppend h

theorem keeps_postEvent {s₀ s : State} {src t : Nat} {ref rtag : Word} {body : List Byte} (h : Keeps s₀ s) :
    Keeps s₀ (postEvent src t ref rtag body s) :=
  keeps_ite (keeps_mcc h) (keeps_count (keeps_mcc h))

theorem keeps_suspect {s₀ s : State} {mh fcnt reasons : Nat} (h : Keeps s₀ s) : Keeps s₀ (suspect mh fcnt reasons s) :=
  keeps_ite (keeps_count h) (keeps_postNotice h)

theorem keeps_plausible {s₀ s : State} {x : Staged} (h : Keeps s₀ s) : Keeps s₀ (plausible x s) := by
  unfold plausible
  dsimp only
  refine keeps_ite (keeps_postEvent (keeps_ite (keeps_noteUnknown (keeps_frameRecord h)) (keeps_foldl (fun _ _ h1 => keeps_updNode h1)
      (keeps_noteUnknown (keeps_frameRecord h))))) ?_
  split
  · exact keeps_frameRecord (keeps_suspect (keeps_countN h))
  · exact keeps_ite (keeps_frameRecord (keeps_ite (keeps_foldl (fun _ _ h1 => keeps_count h1) h) (keeps_suspect (keeps_foldl
        (fun _ _ h1 => keeps_count h1) h)))) (keeps_update (keeps_frameRecord (keeps_ite (keeps_foldl (fun _ _ h1 => keeps_count h1) h)
        (keeps_suspect (keeps_foldl (fun _ _ h1 => keeps_count h1) h)))))

theorem keeps_execPlausibilityCheck {s₀ s : State} {mh : Nat} (h : Keeps s₀ s) : KeepsR s₀ (execPlausibilityCheck mh s) := by
  unfold execPlausibilityCheck
  dsimp only
  refine keeps_onClock h ?_
  split
  · exact h
  · exact keeps_ite h (keeps_settleMaint (keeps_plausible (keeps_update h)))

theorem keeps_engIngSlotFill {s₀ s : State} {t : Nat} {b : List Byte} (h : Keeps s₀ s) : Keeps s₀ (engIngSlotFill t b s).st := by
  unfold engIngSlotFill
  dsimp only
  refine keeps_ite_st (keeps_EngOut_fail h) ?_
  split
  · exact keeps_EngOut_fail h
  · exact keeps_ite_st (keeps_EngOut_fail h) (keeps_EngOut_ok (keeps_mirror (keeps_update h)))

theorem keeps_engIngSlotFree {s₀ s : State} {_t : Nat} {b : List Byte} (h : Keeps s₀ s) : Keeps s₀ (engIngSlotFree _t b s).st :=
  keeps_ite_st (keeps_EngOut_fail h) (keeps_ite_st (keeps_EngOut_fail h) (keeps_EngOut_ok (keeps_mirror (keeps_update h))))

theorem keeps_engIngStranger {s₀ s : State} {_t : Nat} {_b : List Byte} (h : Keeps s₀ s) : Keeps s₀ (engIngStranger _t _b s).st := by
  unfold engIngStranger
  dsimp only
  split
  · exact keeps_EngOut_fail h
  · exact keeps_update h

theorem keeps_addTotal {s₀ s : State} {t k amount : Nat} {r : LRec} (h : Keeps s₀ s) : Keeps s₀ (addTotal t k amount r s).2 :=
  keeps_ite_snd h (keeps_postNotice (keeps_count h))

theorem keeps_addPortions {s₀ s : State} {kind : Nat} {l : List ((Nat × Nat) × Nat)} {r : LRec} (h : Keeps s₀ s) : Keeps s₀ (addPortions kind l r s).2 := by
  induction l generalizing r s with
  | nil => exact h
  | cons e l ih => exact ih (keeps_count (keeps_addTotal h))

theorem keeps_bookTotals {s₀ s : State} {p : PassRec} {a m : Nat} {untariffed : Bool} {r : LRec} (h : Keeps s₀ s) :
    Keeps s₀ (bookTotals p a m untariffed r s).2 :=
  keeps_ite_snd (keeps_ite_snd h (keeps_count (keeps_addTotal (keeps_countIf h)))) (keeps_ite_snd (keeps_count (keeps_addTotal (keeps_countIf h)))
      (keeps_ite_snd (keeps_count (keeps_count (keeps_addTotal (keeps_countIf h)))) (keeps_addPortions (keeps_countIf h))))

theorem keeps_bookRecs {s₀ s : State} {a m untar : Nat} {plain : Bool} {l : List PassRec} {r : LRec} {sh : RegShadow} (h : Keeps s₀ s) :
    Keeps s₀ (bookRecs a m untar plain l r sh s).2.2 := by
  induction l generalizing r sh s with
  | nil => exact h
  | cons p l ih =>
    unfold bookRecs
    dsimp only
    split
    · exact ih (keeps_count h)
    · split
      · exact ih (keeps_count h)
      · exact ih (keeps_bookTotals (keeps_count h))

theorem keeps_bookDemand {s₀ s : State} {e a m fl : Nat} {r : LRec} {sh : RegShadow} (h : Keeps s₀ s) : Keeps s₀ (bookDemand e a m fl r sh s).2.2 := by
  unfold bookDemand
  dsimp only
  split
  · exact h
  · split
    · exact h
    · exact keeps_countN h

theorem keeps_bookFrame {s₀ s : State} {f : PassFrame} (h : Keeps s₀ s) : Keeps s₀ (bookFrame f s) := by
  unfold bookFrame
  extract_lets mt rep old fl
  split
  · exact h
  · next o _ =>
    extract_lets a plain o0
    have hb := keeps_bookRecs (a := a) (m := f.m) (untar := f.untar) (plain := plain) (l := f.recs) (r := o0) (sh := mt.sh) h
    split
    next o1 sh1 s1 heq =>
      rw [heq] at hb
      split
      next o2 sh2 s2 heq2 =>
        have h2 : Keeps s₀ s2 := by
          split at heq2
          · cases heq2
            exact hb
          · have hd := keeps_bookDemand (e := sideEnergy f.untar old 0) (a := a) (m := f.m) (fl := fl) (r := o1) (sh := sh1) hb
            rw [heq2] at hd
            exact hd
        exact keeps_countN (keeps_journal' h2)

theorem keeps_execLedgerBooking {s₀ s : State} {mh : Nat} (h : Keeps s₀ s) : KeepsR s₀ (execLedgerBooking mh s) := by
  unfold execLedgerBooking
  dsimp only
  refine keeps_onClock h ?_
  split
  · exact h
  · refine keeps_ite h ?_
    refine keeps_ite (keeps_settleMaint (keeps_update (keeps_recEvent h))) ?_
    split
    · exact keeps_count (keeps_update (keeps_rollForward h))
    · exact keeps_settleMaint (keeps_ite (keeps_update (keeps_bookFrame (keeps_rollForward h))) (keeps_update (keeps_bookFrame
          (keeps_rollForward h))))

theorem keeps_protectBoundary {s₀ s : State} {b : BRec} {acts : List Nat} (h : Keeps s₀ s) : Keeps s₀ (protectBoundary b acts s) := by
  unfold protectBoundary
  dsimp only
  split
  · exact keeps_ite (keeps_update h) (keeps_ite h (keeps_update h))
  · exact keeps_update h

theorem keeps_writeBoundary {s₀ s : State} {b : BRec} {acts : List Nat} (h : Keeps s₀ s) : Keeps s₀ (writeBoundary b acts s) :=
  keeps_ite (keeps_ite (keeps_protectBoundary h) (keeps_journal' (keeps_update h))) (keeps_update (keeps_ite (keeps_protectBoundary h)
      (keeps_journal' (keeps_update h))))

theorem keeps_heldEvents {s₀ s : State} {t : Nat} (h : Keeps s₀ s) : Keeps s₀ (heldEvents t s) :=
  keeps_foldl (fun _ _ h1 => keeps_recEvent h1) h

theorem keeps_execLedgerBoundary {s₀ s : State} (h : Keeps s₀ s) : KeepsR s₀ (execLedgerBoundary s) := by
  unfold execLedgerBoundary
  refine KeepsR.next ?_
  split
  · exact keeps_ite (keeps_countN (keeps_writeBoundary (keeps_update (keeps_heldEvents h)))) h
  · exact h

theorem keeps_execLedgerCloseSweep {s₀ s : State} (h : Keeps s₀ s) : KeepsR s₀ (execLedgerCloseSweep s) := by
  unfold execLedgerCloseSweep
  dsimp only
  refine KeepsR.next ?_
  refine keeps_ite h ?_
  split
  · exact keeps_update (keeps_rollForward h)
  · exact keeps_ite (keeps_update h) (keeps_postNotice (keeps_update h))

theorem keeps_completeRec {s₀ s : State} {r : JRec} (h : Keeps s₀ s) : Keeps s₀ (completeRec r s) :=
  keeps_wake h

theorem keeps_completeRecs {s₀ s : State} {l : List JRec} (h : Keeps s₀ s) : Keeps s₀ (completeRecs l s).2 := by
  induction l generalizing s with
  | nil => exact h
  | cons r l ih =>
    unfold completeRecs
    split
    · exact ih (keeps_completeRec h)
    · exact h

theorem keeps_completeJournal {s₀ s : State} (h : Keeps s₀ s) : Keeps s₀ (completeJournal s) :=
  keeps_update (keeps_completeRecs h)

theorem keeps_landJournal {s₀ s : State} (h : Keeps s₀ s) : Keeps s₀ (landJournal s) :=
  keeps_ite h (keeps_completeJournal (keeps_update h))

theorem keeps_denied {s₀ s : State} {l role sid : Nat} (h : Keeps s₀ s) : Keeps s₀ (denied l role sid s) :=
  keeps_recEvent (keeps_count h)

theorem keeps_ldgRead {s₀ s : State} {role sid l arg cap : Nat} (h : Keeps s₀ s) : Keeps s₀ (ldgRead role sid l arg cap s).2 :=
  keeps_ite_snd h (keeps_ite_snd (keeps_denied h) (keeps_ite_snd (keeps_recEvent h) (keeps_ite_snd h h)))

theorem keeps_storeAt {s₀ s : State} {p : Place} {l : List Byte} (h : Keeps s₀ s) : Keeps s₀ (storeAt p l s) := by
  cases p with
  | dmem k => exact keeps_dmem h
  | shared o => exact keeps_shared h

theorem keeps_writeBuf {s₀ s : State} {t addr : Nat} {l : List Byte} (h : Keeps s₀ s) : Keeps s₀ (writeBuf t addr l s) := by
  unfold writeBuf
  split
  · exact h
  · exact keeps_storeAt h

theorem keeps_engLdgRead {s₀ s : State} {t : Nat} {b : List Byte} (h : Keeps s₀ s) : Keeps s₀ (engLdgRead t b s).st :=
  keeps_ite_st (keeps_ldgRead h) (keeps_ite_st (keeps_EngOut_fail (keeps_ldgRead h)) (keeps_writeBuf (keeps_ldgRead h)))

theorem keeps_journalled {s₀ s : State} {typ : Nat} {eff : JEff} (h : Keeps s₀ s) : Keeps s₀ (journalled typ eff s).st :=
  keeps_journal h

theorem keeps_stageCalendar {s₀ s : State} {c : Nat} {bytes : Cal} {actT : Nat} (h : Keeps s₀ s) : Keeps s₀ (stageCalendar c bytes actT s).st :=
  keeps_ite_change h (keeps_ite_change h (keeps_ite_change h (keeps_journalled h)))

theorem keeps_forceWrite {s₀ s : State} {c t : Nat} {data : List Byte} {start : Nat} (h : Keeps s₀ s) : Keeps s₀ (forceWrite c t data start s).st := by
  unfold forceWrite
  dsimp only
  refine keeps_ite_change h ?_
  refine keeps_ite_change ?_ (keeps_ite_change h (keeps_ite_change (keeps_ite_change h (keeps_ite_change h (keeps_ite_change h
      (keeps_journalled h)))) (keeps_ite_change (keeps_ite_change h (keeps_ite_change h (keeps_journalled h))) h)))
  refine keeps_ite_change h ?_
  split
  · exact h
  · exact keeps_ite_change (keeps_journalled h) h
  · exact keeps_ite_change (keeps_journalled h) (keeps_ite_change (keeps_journalled h) h)

theorem keeps_sourceLost {s₀ s : State} (h : Keeps s₀ s) : Keeps s₀ (sourceLost s) :=
  keeps_ite (keeps_enterHoldover (keeps_update h)) h

theorem keeps_applyPolicy {s₀ s : State} {p : Policy} (h : Keeps s₀ s) : Keeps s₀ (applyPolicy p s) :=
  keeps_ite (keeps_timeInvalid (keeps_update (keeps_sourceLost (keeps_ite (keeps_update h) (keeps_update h))))) (keeps_ite (keeps_update h)
      (keeps_update h))

theorem keeps_ldgWrite {s₀ s : State} {role sid l arg : Nat} {data : Except Nat (List Byte)} (h : Keeps s₀ s) :
    Keeps s₀ (ldgWrite role sid l arg data s).st := by
  unfold ldgWrite
  refine keeps_ite_change h ?_
  refine keeps_ite_change (keeps_denied h) ?_
  refine keeps_ite_change (keeps_count h) ?_
  refine keeps_ite_change (keeps_denied h) ?_
  split
  · exact h
  · split
    · exact keeps_stageCalendar h
    · exact keeps_forceWrite h
    · split
      · exact h
      · exact keeps_journalled (keeps_applyPolicy h)

theorem keeps_engLdgWrite {s₀ s : State} {t : Nat} {b : List Byte} (h : Keeps s₀ s) : Keeps s₀ (engLdgWrite t b s).st :=
  keeps_ldgWrite h

theorem keeps_nextClear {s₀ s : State} (h : Keeps s₀ s) : Keeps s₀ (nextClear s) := by
  unfold nextClear
  dsimp only
  split
  · exact h
  · exact keeps_ite (keeps_update (keeps_sepWrite (keeps_recEvent (keeps_update h)))) h

theorem keeps_setBack {s₀ s : State} {role tTo : Nat} (h : Keeps s₀ s) : Keeps s₀ (setBack role tTo s).st :=
  keeps_ite_change h (keeps_ite_change (keeps_protectBoundary (keeps_sepWrite (keeps_recEvent (keeps_update h)))) (keeps_journalled (keeps_update
      (keeps_sepWrite (keeps_recEvent (keeps_update h))))))

theorem keeps_maintain {s₀ s : State} {mh : Nat} {data : Option (List Byte)} (h : Keeps s₀ s) : Keeps s₀ (maintain mh data s).st := by
  unfold maintain
  dsimp only
  split
  · exact h
  · split
    · exact h
    · split
      · exact keeps_update h
      · have hc : Keeps s₀ (commitMaint { id := s.ldg.nextMaint, mh := mh, at_ := s.nowNs, data := data }
            { s with ldg.nextMaint := s.ldg.nextMaint + 1 }).1 := keeps_commitMaint (keeps_update h)
        split <;> (next heq => rw [heq] at hc; exact hc)

theorem keeps_ldgExec {s₀ s : State} {role sid l arg : Nat} {data : Except Nat (List Byte)} (h : Keeps s₀ s) :
    Keeps s₀ (ldgExec role sid l arg data s).st := by
  unfold ldgExec
  refine keeps_ite_change h ?_
  refine keeps_ite_change (keeps_denied h) ?_
  split
  · exact keeps_ite_change h (keeps_update h)
  · exact keeps_nextClear (keeps_update h)
  · exact keeps_setBack h
  · refine keeps_ite_change (keeps_maintain h) ?_
    split
    · exact h
    · exact keeps_ite_change (keeps_maintain h) h

theorem keeps_engLdgExec {s₀ s : State} {t : Nat} {b : List Byte} (h : Keeps s₀ s) : Keeps s₀ (engLdgExec t b s).st :=
  keeps_ldgExec h

theorem keeps_unsealNow {s₀ s : State} {atBoot : Nat} (h : Keeps s₀ s) : Keeps s₀ (unsealNow atBoot s) :=
  keeps_ite (keeps_postNotice (keeps_journal' (keeps_update (keeps_sepWrite (keeps_update h))))) (keeps_update (keeps_journal' (keeps_update
      (keeps_sepWrite (keeps_update h)))))

theorem keeps_execMordantSealEffect {s₀ s : State} (h : Keeps s₀ s) : KeepsR s₀ (execMordantSealEffect s) := by
  unfold execMordantSealEffect
  dsimp only
  refine KeepsR.next ?_
  split
  · exact h
  · exact keeps_ite (keeps_unsealNow (keeps_wake (keeps_journal' (keeps_update (keeps_sepWrite (keeps_update h)))))) (keeps_wake (keeps_journal'
        (keeps_update (keeps_sepWrite (keeps_update h)))))

theorem keeps_realignBack {s₀ s : State} {ns : Nat} (h : Keeps s₀ s) : Keeps s₀ (realignBack ns s) :=
  keeps_update h

theorem keeps_setTime {s₀ s : State} {ns : Nat} (h : Keeps s₀ s) : Keeps s₀ (setTime ns s) := keeps_update h

theorem keeps_applyStep {s₀ s : State} {from_ tTo : Nat} (h : Keeps s₀ s) : Keeps s₀ (applyStep from_ tTo s) :=
  keeps_postNotice (keeps_count (keeps_realignBack (keeps_setTime (keeps_update h))))

theorem keeps_execClockStepApply {s₀ s : State} (h : Keeps s₀ s) : KeepsR s₀ (execClockStepApply s) := by
  unfold execClockStepApply
  refine keeps_onClock h ?_
  split
  · exact keeps_ite (keeps_applyStep h) h
  · exact h

theorem keeps_balSet {s₀ s : State} {b : List Byte} (h : Keeps s₀ s) : Keeps s₀ (balSet b s).1 :=
  keeps_ite_fst h (keeps_ite_fst h (keeps_journal (keeps_updNode h)))

theorem keeps_sendDown {s₀ s : State} {m : Flit} (h : Keeps s₀ s) : Keeps s₀ (sendDown m s) :=
  keeps_foldl (fun _ _ h1 => keeps_sendOn h1) h

theorem keeps_broadcast {s₀ s : State} {m : Flit} (h : Keeps s₀ s) : Keeps s₀ (broadcast m s) :=
  keeps_sendDown (keeps_countIf h)

theorem keeps_castBalance {s₀ s : State} {cuts : List (Nat × Nat × Nat)} (h : Keeps s₀ s) : Keeps s₀ (castBalance cuts s) :=
  keeps_ite (keeps_broadcast h) h

theorem keeps_putBalance {s₀ s : State} {cfg : Option (Nat × Nat × Nat)} {next : Option (Nat × Nat × Nat × Nat)} (h : Keeps s₀ s) :
    Keeps s₀ (putBalance cfg next s) := by
  unfold putBalance
  dsimp only
  split
  · exact keeps_startRestored (keeps_update h)
  · exact keeps_update h

theorem keeps_balConfig {s₀ s : State} {bint st cov : Nat} (h : Keeps s₀ s) : Keeps s₀ (balConfig bint st cov s).1 :=
  keeps_ite_fst h (keeps_castBalance (keeps_putBalance h))

theorem keeps_balBook {s₀ s : State} {f : PassFrame} (h : Keeps s₀ s) : Keeps s₀ (balBook f s) :=
  keeps_ite (keeps_count h) (keeps_ite (keeps_count h) (keeps_foldl (fun _ _ h1 => keeps_count (keeps_countIf (keeps_updNode h1))) (keeps_count h)))

theorem keeps_execBalanceBooking {s₀ s : State} {mh : Nat} (h : Keeps s₀ s) : KeepsR s₀ (execBalanceBooking mh s) := by
  unfold execBalanceBooking
  refine keeps_onCores h ?_
  split
  · exact keeps_ite h (keeps_balBook (keeps_update h))
  · exact h

theorem keeps_applyTopology {s₀ s : State} (h : Keeps s₀ s) : Keeps s₀ (applyTopology s) :=
  keeps_ite (keeps_recountNodes (keeps_update h)) h

theorem keeps_writeVerdict {s₀ s : State} {n : Nat} {x0 : Node} {e code : Nat} {deadline : Bool} {t : Partial} (h : Keeps s₀ s) :
    Keeps s₀ (writeVerdict n x0 e code deadline t s) := by
  unfold writeVerdict
  dsimp only
  refine keeps_postEvent ?_
  refine keeps_ite ?_ ?_
  · refine keeps_count (keeps_countIf (keeps_count ?_))
    split
    · exact keeps_postNotice (keeps_updNode h)
    · exact keeps_updNode h
  · refine keeps_logAppend (keeps_countIf (keeps_count ?_))
    split
    · exact keeps_postNotice (keeps_updNode h)
    · exact keeps_updNode h

theorem keeps_verdict {s₀ s : State} {n e code : Nat} {deadline : Bool} (h : Keeps s₀ s) : Keeps s₀ (verdict n e code deadline s) :=
  keeps_ite (keeps_update h) (keeps_writeVerdict h)

theorem keeps_advanceNode {s₀ s : State} {n e : Nat} (h : Keeps s₀ s) : Keeps s₀ (advanceNode n e s) :=
  keeps_updNode h

theorem keeps_judgeOwn {s₀ s : State} {n e : Nat} (h : Keeps s₀ s) : Keeps s₀ (judgeOwn n e s) := by
  unfold judgeOwn
  split
  · exact keeps_advanceNode (keeps_verdict h)
  · exact h

theorem keeps_closeNode {s₀ s0 s : State} {e : Nat} {grid pend stack mine : Bool} {n : Nat} (hs0 : Keeps s₀ s0) (hs : Keeps s₀ s) :
    Keeps s₀ (closeNode s0 e grid pend stack mine s n) :=
  keeps_ite hs (keeps_ite (keeps_ite (keeps_updNode (keeps_ite hs (keeps_verdict hs))) hs) (keeps_ite (keeps_updNode hs) (keeps_ite (keeps_updNode
      (keeps_ite hs (keeps_verdict hs))) (keeps_ite hs (keeps_judgeOwn hs)))))

theorem keeps_sendPartials {s₀ s : State} (h : Keeps s₀ s) : Keeps s₀ (sendPartials s) := by
  unfold sendPartials
  refine keeps_ite h ?_
  split
  · exact h
  · exact keeps_foldl (fun _ _ h1 => keeps_sendOn h1) h

theorem keeps_endWaits {s₀ s : State} {held : PassFrame → Bool} (h : Keeps s₀ s) : Keeps s₀ (endWaits held s) :=
  keeps_update h

theorem keeps_execBalanceClose {s₀ s : State} (h : Keeps s₀ s) : KeepsR s₀ (execBalanceClose s) := by
  unfold execBalanceClose
  dsimp only
  refine keeps_onCores h ?_
  split
  · exact h
  · exact keeps_ite h (keeps_ite (keeps_sendPartials (keeps_endWaits (keeps_foldl (fun _ _ h1 => keeps_update h1) (keeps_update (keeps_foldl
        (fun _ _ h1 => keeps_closeNode (keeps_count (keeps_ite (keeps_update h) h)) h1) (keeps_update (keeps_applyTopology (keeps_update
        (keeps_count (keeps_ite (keeps_update h) h)))))))))) (keeps_endWaits (keeps_update (keeps_foldl (fun _ _ h1 => keeps_closeNode (keeps_count
        (keeps_ite (keeps_update h) h)) h1) (keeps_update (keeps_applyTopology (keeps_update (keeps_count (keeps_ite (keeps_update h) h)))))))))

theorem keeps_execBalancePartialReceive {s₀ s : State} {port node : Nat} {in_ out_ : Int} {nmeter ncov flags tamp : Nat} (h : Keeps s₀ s) :
    KeepsR s₀ (execBalancePartialReceive port node in_ out_ nmeter ncov flags tamp s) :=
  keeps_onCores h (keeps_ite h (keeps_ite (keeps_ite (keeps_update h) h) (keeps_ite h (keeps_sendPartials (keeps_update h)))))

theorem keeps_releaseHold {s₀ s : State} (h : Keeps s₀ s) : Keeps s₀ (releaseHold s) :=
  keeps_update (keeps_endWaits h)

theorem keeps_stackJudge {s₀ s : State} {e : Nat} (h : Keeps s₀ s) : Keeps s₀ (stackJudge e s) :=
  keeps_releaseHold (keeps_update (keeps_broadcast (keeps_foldl (fun _ _ h1 => keeps_advanceNode h1) (keeps_foldl
      (fun _ _ h1 => keeps_writeVerdict h1) h))))

theorem keeps_execBalanceStackJudge {s₀ s : State} (h : Keeps s₀ s) : KeepsR s₀ (execBalanceStackJudge s) := by
  unfold execBalanceStackJudge
  refine keeps_onCores h ?_
  split
  · exact keeps_ite (keeps_stackJudge h) h
  · exact h

theorem keeps_execBalancePartialTimeout {s₀ s : State} (h : Keeps s₀ s) : KeepsR s₀ (execBalancePartialTimeout s) := by
  unfold execBalancePartialTimeout
  dsimp only
  refine keeps_onCores h ?_
  split
  · exact keeps_ite (keeps_stackJudge (keeps_countN (keeps_update h))) h
  · exact h

theorem keeps_execBalanceBitmapApply {s₀ s : State} {bitmap : List Byte} (h : Keeps s₀ s) : KeepsR s₀ (execBalanceBitmapApply bitmap s) :=
  keeps_onCores h (keeps_ite h (keeps_releaseHold (keeps_sendDown (keeps_update (keeps_foldl (fun _ _ h1 => keeps_advanceNode h1) h)))))

theorem keeps_execDetachedBookingRelease {s₀ s : State} (h : Keeps s₀ s) : KeepsR s₀ (execDetachedBookingRelease s) := by
  unfold execDetachedBookingRelease
  refine keeps_onCores h ?_
  split
  · exact keeps_ite (keeps_releaseHold (keeps_count h)) h
  · exact h

theorem keeps_nandTo {s₀ s : State} {ch tgt : Nat} {cmd row : List Nat} {col : Nat} {data : List Byte} (h : Keeps s₀ s) :
    Keeps s₀ (nandTo ch tgt cmd row col data s) :=
  keeps_emit (keeps_ite (keeps_emit h) h)

theorem keeps_nandLun {s₀ s : State} {i : Nat} {cmd : List Nat} {block page col : Nat} {data : List Byte} (h : Keeps s₀ s) :
    Keeps s₀ (nandLun i cmd block page col data s) :=
  keeps_nandTo h

theorem keeps_mjAdd {s₀ s : State} {e : MjEntry} (h : Keeps s₀ s) : Keeps s₀ (mjAdd e s) := keeps_update h

theorem keeps_setBlock {s₀ s : State} {k : Nat} {b : Block} (h : Keeps s₀ s) : Keeps s₀ (setBlock k b s) :=
  keeps_ite (keeps_update h) (keeps_mjAdd (keeps_update h))

theorem keeps_closeStripe {s₀ s : State} {stream : Nat} (h : Keeps s₀ s) : Keeps s₀ (closeStripe stream s) := by
  unfold closeStripe
  dsimp only
  split
  · exact h
  · exact keeps_mjAdd (keeps_update (keeps_foldl (fun _ _ h1 => keeps_ite (keeps_setBlock h1) h1) h))

theorem keeps_closeBoth {s₀ s : State} {stream : Nat} (h : Keeps s₀ s) : Keeps s₀ (closeBoth stream s) :=
  keeps_ite (keeps_closeStripe (keeps_closeStripe h)) (keeps_ite (keeps_closeStripe (keeps_closeStripe h)) (keeps_closeStripe h))

theorem keeps_nandEnter {s₀ s : State} {i : Nat} {ops : List (List Nat × Nat × List Byte)} (h : Keeps s₀ s) : Keeps s₀ (nandEnter i ops s) :=
  keeps_foldl (fun _ _ h1 => keeps_nandLun h1) h

theorem keeps_nandOp {s₀ s : State} {i block page : Nat} {pslc : Bool} {cmd : List Nat} {data : List Byte} (h : Keeps s₀ s) :
    Keeps s₀ (nandOp i block page pslc cmd data s) :=
  keeps_ite (keeps_nandEnter (keeps_nandLun (keeps_nandLun (keeps_ite (keeps_nandEnter h) h)))) (keeps_nandLun (keeps_nandLun (keeps_ite
      (keeps_nandEnter h) h)))

theorem keeps_nandProgram {s₀ s : State} {k page : Nat} {pslc : Bool} {data : List Byte} (h : Keeps s₀ s) : Keeps s₀ (nandProgram k page pslc data s) :=
  keeps_nandOp h

theorem keeps_programParity {s₀ s : State} {n row : Nat} (h : Keeps s₀ s) : Keeps s₀ (programParity n row s) := by
  unfold programParity
  dsimp only
  split
  · exact h
  · exact keeps_nandProgram (keeps_update h)

theorem keeps_padStripe {s₀ s : State} {stream : Nat} {puts : List Put} (h : Keeps s₀ s) : Keeps s₀ (padStripe stream puts s).1 := by
  unfold padStripe
  dsimp only
  split
  · exact keeps_ite_fst (keeps_closeStripe (keeps_ite h (keeps_programParity h))) h
  · exact h

theorem keeps_openStripe {s₀ s : State} {stream g : Nat} (h : Keeps s₀ s) : Keeps s₀ (openStripe stream g s) := by
  unfold openStripe
  dsimp only
  refine keeps_update (keeps_mjAdd (keeps_foldl (fun _ _ h1 => ?_) h))
  split
  · exact keeps_setBlock h1
  · exact h1

theorem keeps_withStripe {s₀ s : State} {stream : Nat} (h : Keeps s₀ s) : Keeps s₀ (withStripe stream s) := by
  unfold withStripe
  dsimp only
  refine keeps_ite h ?_
  split
  · exact h
  · exact keeps_ite (keeps_openStripe (keeps_openStripe h)) (keeps_openStripe h)

theorem keeps_noteProgram {s₀ s : State} {native : Bool} (h : Keeps s₀ s) : Keeps s₀ (noteProgram native s) :=
  keeps_update h

theorem keeps_placeChunk {s₀ s : State} {n pca : Nat} {p : Put} {mapped : Bool} (h : Keeps s₀ s) : Keeps s₀ (placeChunk n pca p mapped s) := by
  unfold placeChunk
  dsimp only
  refine keeps_count ?_
  refine keeps_ite ?_ (keeps_noteProgram (keeps_update h))
  split
  · exact keeps_ite (keeps_setBlock (keeps_mjAdd (keeps_update (keeps_noteProgram (keeps_update h))))) (keeps_mjAdd (keeps_update (keeps_noteProgram
        (keeps_update h))))
  · exact keeps_mjAdd (keeps_update (keeps_noteProgram (keeps_update h)))

theorem keeps_programPage1 {s₀ s : State} {stream : Nat} {puts : List Put} (h : Keeps s₀ s) : Keeps s₀ (programPage1 stream puts s).1 := by
  unfold programPage1
  extract_lets s1
  have h1 : Keeps s₀ s1 := keeps_withStripe h
  clear_value s1
  split
  · exact h1
  · extract_lets x ds row rowEnd
    split
    · exact h1
    · extract_lets put
      have hput : ∀ {a : State × Nat}, Keeps s₀ a.1 → Keeps s₀ (puts.foldl put a).1 := keeps_foldl_fst fun _ _ ha => keeps_placeChunk ha
      split
      next s2 _ heq =>
        have h2 : Keeps s₀ s2 := by
          have he : _ = s2 := congrArg Prod.fst heq
          rw [← he]
          exact hput (keeps_update h1)
        exact keeps_ite (keeps_programParity (keeps_nandProgram (keeps_update h2))) (keeps_nandProgram (keeps_update h2))

theorem keeps_programPage {s₀ s : State} {stream : Nat} {puts : List Put} (h : Keeps s₀ s) : Keeps s₀ (programPage stream puts s).1 :=
  keeps_foldl (fun _ _ h1 => keeps_closeStripe h1) (keeps_ite_fst (keeps_programPage1 (keeps_programPage1 (keeps_padStripe h))) (keeps_programPage1
      (keeps_padStripe h)))

theorem keeps_pruneStripes {s₀ s : State} (h : Keeps s₀ s) : Keeps s₀ (pruneStripes s) := keeps_update h

theorem keeps_verifyStripe {s₀ s : State} {n : Nat} (h : Keeps s₀ s) : Keeps s₀ (verifyStripe n s) := by
  unfold verifyStripe
  dsimp only
  split
  · exact h
  · refine keeps_pruneStripes (keeps_count (keeps_update (keeps_foldl (fun _ _ h1 => ?_) (keeps_mjAdd (keeps_update (keeps_foldl
        (fun _ _ h1 => ?_) h))))))
    · split
      · exact keeps_foldl (fun _ _ h2 => keeps_ite (keeps_setBlock h2) h2) h1
      · exact h1
    · split
      · exact keeps_ite (keeps_setBlock h1) h1
      · exact h1

theorem keeps_verifyAll {s₀ s : State} {ns : List Nat} (h : Keeps s₀ s) : Keeps s₀ (verifyAll ns s) :=
  keeps_ite h (keeps_foldl (fun _ _ h1 => keeps_verifyStripe h1) h)

theorem keeps_programChunks {s₀ s : State} {l : List (List Put)} {stream : Nat} (h : Keeps s₀ s) : Keeps s₀ (programChunks l stream s) := by
  induction l generalizing s with
  | nil => exact h
  | cons p l ih => exact ih (keeps_verifyAll (keeps_programPage h))

theorem keeps_copyChunks {s₀ s : State} {cs : List (Nat × CTag)} {stream fl : Nat} (h : Keeps s₀ s) : Keeps s₀ (copyChunks cs stream fl s) :=
  keeps_programChunks h

theorem keeps_spareCheck {s₀ s : State} (h : Keeps s₀ s) : Keeps s₀ (spareCheck s) :=
  keeps_ite (keeps_postNotice (keeps_update (keeps_ite (keeps_postNotice (keeps_update h)) h))) (keeps_ite (keeps_postNotice (keeps_update h)) h)

theorem keeps_retireBlock {s₀ s : State} {k cause : Nat} (h : Keeps s₀ s) : Keeps s₀ (retireBlock k cause s) :=
  keeps_spareCheck (keeps_postNotice (keeps_count (keeps_ite (keeps_ite (keeps_update (keeps_setBlock h)) (keeps_update (keeps_setBlock h)))
      (keeps_update (keeps_setBlock h)))))

theorem keeps_programFailed {s₀ s : State} {k : Nat} {bad : List Nat} (h : Keeps s₀ s) : Keeps s₀ (programFailed k bad s) := by
  unfold programFailed
  dsimp only
  split
  · exact h
  · exact keeps_verifyAll (keeps_retireBlock (keeps_copyChunks (keeps_countN (keeps_copyChunks (keeps_closeBoth (keeps_ite (keeps_programParity
        (keeps_count (keeps_setBlock h))) (keeps_count (keeps_setBlock h))))))))

theorem keeps_eraseFailed {s₀ s : State} {k : Nat} (h : Keeps s₀ s) : Keeps s₀ (eraseFailed k s) :=
  keeps_retireBlock (keeps_count h)

theorem keeps_rewriteChunks {s₀ s : State} {cs : List (Nat × CTag)} {fl : Nat} (h : Keeps s₀ s) : Keeps s₀ (rewriteChunks cs fl s) :=
  keeps_foldl (fun _ _ h1 => keeps_copyChunks h1) h

theorem keeps_askTwin {s₀ s : State} {mhs : List Nat} (h : Keeps s₀ s) : Keeps s₀ (askTwin mhs s) := by
  unfold askTwin
  split
  · exact keeps_ite (keeps_foldl (fun _ _ h1 => keeps_sendOn h1) h) h
  · exact h

theorem keeps_loseChunk {s₀ s : State} {key : Nat} (h : Keeps s₀ s) : Keeps s₀ (loseChunk key s) :=
  keeps_ite (keeps_ite (keeps_askTwin (keeps_update (keeps_count (keeps_postNotice (keeps_update h))))) (keeps_ite (keeps_askTwin (keeps_update
      (keeps_count (keeps_postNotice (keeps_update h))))) (keeps_count (keeps_postNotice (keeps_update h))))) (keeps_postNotice (keeps_update h))

theorem keeps_fetchChunk {s₀ s : State} {key : Nat} (h : Keeps s₀ s) : Keeps s₀ (fetchChunk key s) := by
  unfold fetchChunk
  dsimp only
  split
  · exact keeps_ite (keeps_foldl (fun _ _ h1 => keeps_sendOn h1) (keeps_update h)) (keeps_loseChunk h)
  · exact keeps_loseChunk h

theorem keeps_failLun {s₀ s : State} {lun : Nat} (h : Keeps s₀ s) : Keeps s₀ (failLun lun s) :=
  keeps_ite h (keeps_postNotice (keeps_update (keeps_foldl (fun _ _ h1 => keeps_fetchChunk h1) (keeps_rewriteChunks (keeps_countN
      (keeps_rewriteChunks (keeps_countN (keeps_update h))))))))

theorem keeps_lunError {s₀ s : State} {lun : Nat} (h : Keeps s₀ s) : Keeps s₀ (lunError lun s) :=
  keeps_ite (keeps_failLun (keeps_update h)) (keeps_update h)

theorem keeps_execNandOpTimeout {s₀ s : State} {lun block kind at_ : Nat} {answers : Bool} (h : Keeps s₀ s) :
    KeepsR s₀ (execNandOpTimeout lun block kind at_ answers s) :=
  keeps_onClock h (keeps_ite h (keeps_ite (keeps_lunError (keeps_ite (keeps_programFailed (keeps_nandLun (keeps_nandLun h))) (keeps_ite
      (keeps_eraseFailed (keeps_nandLun (keeps_nandLun h))) (keeps_nandLun (keeps_nandLun h))))) (keeps_failLun (keeps_ite (keeps_programFailed
      (keeps_nandLun (keeps_nandLun h))) (keeps_ite (keeps_eraseFailed (keeps_nandLun (keeps_nandLun h))) (keeps_nandLun (keeps_nandLun h)))))))

theorem keeps_nandRead {s₀ s : State} {pca last : Nat} {pslc : Bool} (h : Keeps s₀ s) : Keeps s₀ (nandRead pca last pslc s) :=
  keeps_ite (keeps_foldl (fun _ _ h1 => keeps_nandLun (keeps_nandOp (keeps_ite h1 (keeps_nandEnter h1)))) h) (keeps_nandEnter (keeps_foldl
      (fun _ _ h1 => keeps_nandLun (keeps_nandOp (keeps_ite h1 (keeps_nandEnter h1)))) h))

theorem keeps_markRefresh {s₀ s : State} {k : Nat} (h : Keeps s₀ s) : Keeps s₀ (markRefresh k s) := by
  unfold markRefresh
  dsimp only
  split
  · exact h
  · exact keeps_ite h (keeps_count (keeps_update h))

theorem keeps_rewriteOne {s₀ s : State} {pca : Nat} {t : CTag} {fl : Nat} (h : Keeps s₀ s) : Keeps s₀ (rewriteOne pca t fl s) :=
  keeps_ite (keeps_programChunks h) h

theorem keeps_recoverChunk {s₀ s : State} {pca : Nat} {t : CTag} {r : ReadIn} (h : Keeps s₀ s) : Keeps s₀ (recoverChunk pca t r s) := by
  unfold recoverChunk
  dsimp only
  refine keeps_ite h ?_
  refine keeps_ite ?_ (keeps_ite (keeps_rewriteOne (keeps_count h)) (keeps_loseChunk h))
  refine keeps_ite ?_ ?_
  · refine keeps_rewriteOne (keeps_count ?_)
    split
    · exact keeps_nandRead h
    · exact h
  · refine keeps_ite ?_ ?_
    · refine keeps_rewriteOne (keeps_count ?_)
      split
      · exact keeps_nandRead h
      · exact h
    · refine keeps_fetchChunk ?_
      split
      · exact keeps_nandRead h
      · exact h

theorem keeps_readDone {s₀ s : State} {pca : Nat} {r : ReadIn} (h : Keeps s₀ s) : Keeps s₀ (readDone pca r s) := by
  unfold readDone
  dsimp only
  split
  · exact h
  · split
    · exact keeps_ite (keeps_markRefresh (keeps_ite (keeps_ite (keeps_markRefresh (keeps_nandRead (keeps_count (keeps_setBlock h)))) (keeps_nandRead
          (keeps_count (keeps_setBlock h)))) (keeps_countIf (keeps_countIf (keeps_update (keeps_ite (keeps_markRefresh (keeps_nandRead (keeps_count
          (keeps_setBlock h)))) (keeps_nandRead (keeps_count (keeps_setBlock h))))))))) (keeps_ite (keeps_ite (keeps_markRefresh (keeps_nandRead
          (keeps_count (keeps_setBlock h)))) (keeps_nandRead (keeps_count (keeps_setBlock h)))) (keeps_countIf (keeps_countIf (keeps_update
          (keeps_ite (keeps_markRefresh (keeps_nandRead (keeps_count (keeps_setBlock h)))) (keeps_nandRead (keeps_count (keeps_setBlock h))))))))
    · exact keeps_recoverChunk (keeps_count (keeps_ite (keeps_markRefresh (keeps_nandRead (keeps_count (keeps_setBlock h)))) (keeps_nandRead
          (keeps_count (keeps_setBlock h)))))

theorem keeps_readBack {s₀ s : State} {back : List Readback} {n : Nat} (h : Keeps s₀ s) : Keeps s₀ (readBack back n s) :=
  keeps_foldl (fun _ _ h1 => keeps_rewriteOne (keeps_countIf (keeps_count h1))) (keeps_countN (keeps_foldl (fun _ _ h1 => keeps_nandRead h1) h))

theorem keeps_finishStripes {s₀ s : State} {ns : List Nat} {back : List Readback} (h : Keeps s₀ s) : Keeps s₀ (finishStripes ns back s) :=
  keeps_ite h (keeps_verifyAll (keeps_foldl (fun _ _ h1 => keeps_readBack h1) h))

theorem keeps_landLog {s₀ s : State} {p : LogRec → Bool} (h : Keeps s₀ s) : Keeps s₀ (landLog p s) :=
  keeps_update h

theorem keeps_commitVolume {s₀ s : State} {w : VolWrite} (h : Keeps s₀ s) : Keeps s₀ (commitVolume w s) :=
  keeps_wake (keeps_update h)

theorem keeps_clearDone {s₀ s : State} (h : Keeps s₀ s) : Keeps s₀ (clearDone s) := by
  unfold clearDone
  dsimp only
  split
  · exact h
  · exact keeps_ite (keeps_nextClear (keeps_wake (keeps_postNotice (keeps_count (keeps_update h))))) h

theorem keeps_nativeDurable {s₀ s : State} {keys : List Nat} (h : Keeps s₀ s) : Keeps s₀ (nativeDurable keys s) :=
  keeps_ite (keeps_clearDone (keeps_update (keeps_foldl (fun _ _ h1 => keeps_commitVolume h1) (keeps_landLog h)))) (keeps_mjAdd (keeps_update
      (keeps_clearDone (keeps_update (keeps_foldl (fun _ _ h1 => keeps_commitVolume h1) (keeps_landLog h))))))

theorem keeps_execNandProgramComplete {s₀ s : State} {stream : Nat} {keys : List Nat} {pass : Bool} {back : List Readback} (h : Keeps s₀ s) :
    KeepsR s₀ (execNandProgramComplete stream keys pass back s) := by
  unfold execNandProgramComplete
  dsimp only
  refine keeps_onClock h ?_
  refine keeps_ite h ?_
  refine keeps_ite (keeps_ite h (keeps_finishStripes (keeps_nativeDurable (keeps_programPage h)))) ?_
  split
  · exact h
  · split
    · exact h
    · exact keeps_nativeDurable (keeps_verifyAll (keeps_programPage (keeps_lunError (keeps_programFailed (keeps_nandProgram (keeps_update
          (keeps_withStripe h)))))))

theorem keeps_nandErase {s₀ s : State} {k : Nat} {pslc : Bool} (h : Keeps s₀ s) : Keeps s₀ (nandErase k pslc s) :=
  keeps_nandOp h

theorem keeps_moveProtected {s₀ s : State} (h : Keeps s₀ s) : Keeps s₀ (moveProtected s) :=
  keeps_foldl (fun _ _ h1 => keeps_journal' h1) (keeps_update h)

theorem keeps_releaseCheck {s₀ s : State} (h : Keeps s₀ s) : Keeps s₀ (releaseCheck s) :=
  keeps_ite (keeps_settleMaint (keeps_moveProtected (keeps_postNotice (keeps_update h)))) h

theorem keeps_wearCheck {s₀ s : State} (h : Keeps s₀ s) : Keeps s₀ (wearCheck s) :=
  keeps_ite (keeps_postNotice (keeps_update (keeps_ite (keeps_postNotice (keeps_update h)) h))) (keeps_ite (keeps_postNotice (keeps_update h)) h)

theorem keeps_execNandEraseComplete {s₀ s : State} {lun block : Nat} {pass : Bool} (h : Keeps s₀ s) :
    KeepsR s₀ (execNandEraseComplete lun block pass s) :=
  keeps_onClock h (keeps_ite h (keeps_ite (keeps_releaseCheck (keeps_wearCheck (keeps_pruneStripes (keeps_update (keeps_nandErase
      (keeps_setBlock h)))))) (keeps_lunError (keeps_eraseFailed (keeps_nandErase h)))))

theorem keeps_execZqShortCal {s₀ s : State} (h : Keeps s₀ s) : KeepsR s₀ (execZqShortCal s) :=
  keeps_onClock h (keeps_ite (keeps_foldl (fun _ _ h1 => keeps_nandTo h1) (keeps_update h)) h)

theorem keeps_execLakePatrol {s₀ s : State} {r : ReadIn} (h : Keeps s₀ s) : KeepsR s₀ (execLakePatrol r s) := by
  unfold execLakePatrol
  dsimp only
  refine keeps_onClock h ?_
  refine keeps_ite h ?_
  split
  · exact keeps_readDone (keeps_update h)
  · refine keeps_ite h ?_
    split
    · exact keeps_readDone (keeps_update h)
    · exact keeps_update h

theorem keeps_landOne {s₀ s : State} {space laddr aux : Nat} {data : List Byte} (h : Keeps s₀ s) : Keeps s₀ (landOne space laddr aux data s) :=
  keeps_count (keeps_noteProgram (keeps_noteProgram (keeps_update h)))

theorem keeps_landJournalChunk {s₀ s : State} (h : Keeps s₀ s) : Keeps s₀ (landJournalChunk s) := by
  unfold landJournalChunk
  dsimp only
  split
  · exact h
  · exact keeps_ite h (keeps_landOne (keeps_landJournal h))

theorem keeps_landBring {s₀ s : State} (h : Keeps s₀ s) : Keeps s₀ (landBring s) :=
  keeps_foldl (fun _ _ h1 => keeps_landOne h1) (keeps_update h)

theorem keeps_landLogChunk {s₀ s : State} (h : Keeps s₀ s) : Keeps s₀ (landLogChunk s) := by
  unfold landLogChunk
  split
  · exact h
  · exact keeps_landOne (keeps_landLog h)

theorem keeps_landEventChunk {s₀ s : State} (h : Keeps s₀ s) : Keeps s₀ (landEventChunk s) := by
  unfold landEventChunk
  dsimp only
  split
  · exact h
  · exact keeps_landOne (keeps_clearDone (keeps_update h))

theorem keeps_landVolume {s₀ s : State} (h : Keeps s₀ s) : Keeps s₀ (landVolume s) := by
  unfold landVolume
  split
  · exact h
  · exact keeps_foldl (fun _ _ h1 => keeps_landOne h1) (keeps_commitVolume h)

theorem keeps_execLandingDeadline {s₀ s : State} {space : Nat} (h : Keeps s₀ s) : KeepsR s₀ (execLandingDeadline space s) := by
  unfold execLandingDeadline
  refine keeps_onClock h ?_
  refine keeps_ite h ?_
  refine keeps_ite ?_ ?_
  · split
    · exact keeps_ite (keeps_landJournalChunk h) h
    · exact h
  · refine keeps_ite ?_ ?_
    · refine keeps_ite (keeps_ite (keeps_landBring h) h) ?_
      split
      · exact h
      · exact keeps_ite (keeps_landLogChunk h) h
    · refine keeps_ite ?_ ?_
      · split
        · exact keeps_ite (keeps_landEventChunk h) h
        · exact h
      · refine keeps_ite ?_ h
        split
        · exact h
        · exact keeps_ite (keeps_landVolume h) h

theorem keeps_reclaimTail {s₀ s : State} (h : Keeps s₀ s) : Keeps s₀ (reclaimTail s).1 := by
  unfold reclaimTail
  dsimp only
  split
  · exact h
  · exact keeps_ite_fst h (keeps_count (keeps_update (keeps_foldl (fun _ _ h1 => keeps_ite (keeps_setBlock h1) h1) h)))

theorem keeps_reclaimLog {s₀ s : State} {n : Nat} (h : Keeps s₀ s) : Keeps s₀ (reclaimLog n s) := by
  induction n generalizing s with
  | zero => exact h
  | succ n ih =>
    have hr : Keeps s₀ (reclaimTail s).1 := keeps_reclaimTail h
    unfold reclaimLog
    split
    · exact h
    · split
      · next heq => rw [heq] at hr; exact ih hr
      · exact h

theorem keeps_execLogReclaim {s₀ s : State} (h : Keeps s₀ s) : KeepsR s₀ (execLogReclaim s) :=
  keeps_onClock h (keeps_ite h (keeps_ite (keeps_ite (keeps_postNotice (keeps_update (keeps_reclaimLog h))) (keeps_reclaimLog h)) (keeps_ite
      (keeps_postNotice (keeps_update (keeps_reclaimLog h))) (keeps_reclaimLog h))))

theorem keeps_protectCheck {s₀ s : State} (h : Keeps s₀ s) : Keeps s₀ (protectCheck s) :=
  keeps_ite (keeps_postNotice (keeps_update h)) h

theorem keeps_execLakeCollection {s₀ s : State} {space : Nat} (h : Keeps s₀ s) : KeepsR s₀ (execLakeCollection space s) := by
  unfold execLakeCollection
  dsimp only
  refine keeps_onClock h ?_
  refine keeps_ite h ?_
  split
  · exact keeps_protectCheck h
  · exact keeps_protectCheck (keeps_update (keeps_countN (keeps_copyChunks h)))

theorem keeps_releaseJournal {s₀ s : State} (h : Keeps s₀ s) : Keeps s₀ (releaseJournal s) := by
  unfold releaseJournal
  dsimp only
  split
  · exact h
  · exact keeps_update h

theorem keeps_execLedgerGroupWriteback {s₀ s : State} (h : Keeps s₀ s) : KeepsR s₀ (execLedgerGroupWriteback s) := by
  unfold execLedgerGroupWriteback
  dsimp only
  refine keeps_onClock h ?_
  refine keeps_ite h ?_
  split
  · exact h
  · exact keeps_releaseJournal (keeps_programChunks (keeps_update h))

theorem keeps_flushMj {s₀ s : State} (h : Keeps s₀ s) : Keeps s₀ (flushMj s) := keeps_count (keeps_update h)

theorem keeps_anchorUpdate {s₀ s : State} (h : Keeps s₀ s) : Keeps s₀ (anchorUpdate s) := by
  unfold anchorUpdate
  dsimp only
  refine keeps_ite ?_ (keeps_count (keeps_update h))
  refine keeps_foldl (fun _ _ h1 => ?_) (keeps_count (keeps_update h))
  split
  · exact h1
  · exact keeps_nandProgram (keeps_ite (keeps_nandErase h1) h1)

theorem keeps_mapCheckpoint {s₀ s : State} (h : Keeps s₀ s) : Keeps s₀ (mapCheckpoint s) :=
  keeps_count (keeps_anchorUpdate (keeps_update (keeps_flushMj h)))

theorem keeps_replayThrough {s₀ s : State} {till n : Nat} {g : Option BRec} (h : Keeps s₀ s) : Keeps s₀ (replayThrough till n g s) := by
  have late : ∀ {g : Option BRec} {x : State}, Keeps s₀ x → Keeps s₀ (match g with | some b => writeBoundary b [] x | none => x) := by
    rintro (_ | b) x hx
    · exact hx
    · exact keeps_writeBoundary hx
  induction n generalizing s g with
  | zero => exact late h
  | succ n ih =>
    unfold replayThrough
    split
    · dsimp only
      split
      · exact late h
      · split
        · exact ih (keeps_update (keeps_heldEvents h))
        · exact ih (keeps_writeBoundary (late (keeps_update (keeps_heldEvents h))))
    · exact late h

theorem keeps_replayBoundaries {s₀ s : State} {till : Nat} (h : Keeps s₀ s) : Keeps s₀ (replayBoundaries till s) :=
  keeps_replayThrough h

theorem keeps_replayRestore {s₀ s : State} (h : Keeps s₀ s) : Keeps s₀ (replayRestore s) :=
  keeps_update (keeps_ite (keeps_replayBoundaries h) (keeps_postNotice (keeps_replayBoundaries h)))

theorem keeps_execLakeRebuild {s₀ s : State} {ms : BitVec 32} (h : Keeps s₀ s) : KeepsR s₀ (execLakeRebuild ms s) :=
  KeepsR.next (keeps_ite h (keeps_enterService (keeps_update (keeps_ite (keeps_ite (keeps_replayRestore (keeps_foldl
      (fun _ _ h1 => keeps_failLun h1) (keeps_finishStripes (keeps_postNotice (keeps_update h))))) (keeps_foldl (fun _ _ h1 => keeps_failLun h1)
      (keeps_finishStripes (keeps_postNotice (keeps_update h))))) (keeps_moveProtected (keeps_ite (keeps_replayRestore (keeps_foldl
      (fun _ _ h1 => keeps_failLun h1) (keeps_finishStripes (keeps_postNotice (keeps_update h))))) (keeps_foldl (fun _ _ h1 => keeps_failLun h1)
      (keeps_finishStripes (keeps_postNotice (keeps_update h))))))))))

theorem keeps_setHeack {s₀ s : State} {n : Nat} (h : Keeps s₀ s) : Keeps s₀ (setHeack n s).1 :=
  keeps_ite_fst h (keeps_mjAdd (keeps_update h))

theorem keeps_engLakeHealth {s₀ s : State} {t : Nat} {b : List Byte} (h : Keeps s₀ s) : Keeps s₀ (engLakeHealth t b s).st :=
  keeps_ite_st (keeps_EngOut_fail h) (keeps_ite_st (keeps_EngOut_fail h) (keeps_ite_st (keeps_EngOut_fail h) (keeps_EngOut_ok (keeps_writeBuf h))))

theorem keeps_engLakeMark {s₀ s : State} {_t : Nat} {b : List Byte} (h : Keeps s₀ s) : Keeps s₀ (engLakeMark _t b s).st :=
  keeps_ite_st (keeps_EngOut_fail (keeps_countIf h)) (keeps_EngOut_ok (keeps_logAppend (keeps_update h)))

theorem keeps_engLakeLogRead {s₀ s : State} {t : Nat} {b : List Byte} (h : Keeps s₀ s) : Keeps s₀ (engLakeLogRead t b s).st :=
  keeps_ite_st (keeps_EngOut_fail h) (keeps_ite_st (keeps_EngOut_fail h) (keeps_ite_st (keeps_EngOut_fail h) (keeps_writeBuf h)))

theorem keeps_engLakeVolRead {s₀ s : State} {t : Nat} {b : List Byte} (h : Keeps s₀ s) : Keeps s₀ (engLakeVolRead t b s).st :=
  keeps_ite_st (keeps_EngOut_fail h) (keeps_ite_st (keeps_EngOut_fail h) (keeps_ite_st (keeps_EngOut_fail h) (keeps_EngOut_ok (keeps_writeBuf h))))

theorem keeps_engLakeVolWrite {s₀ s : State} {t : Nat} {b : List Byte} (h : Keeps s₀ s) : Keeps s₀ (engLakeVolWrite t b s).st := by
  unfold engLakeVolWrite
  dsimp only
  refine keeps_ite_st (keeps_EngOut_fail h) ?_
  split
  · exact keeps_EngOut_fail h
  · exact keeps_ite_st (keeps_EngOut_fail (keeps_ite h (keeps_postNotice (keeps_update h)))) (keeps_update h)

theorem keeps_engLakeVolTrim {s₀ s : State} {_t : Nat} {b : List Byte} (h : Keeps s₀ s) : Keeps s₀ (engLakeVolTrim _t b s).st :=
  keeps_ite_st (keeps_EngOut_fail h) (keeps_EngOut_ok (keeps_mjAdd (keeps_update h)))

theorem keeps_engLakeGrant {s₀ s : State} {_t : Nat} {b : List Byte} (h : Keeps s₀ s) : Keeps s₀ (engLakeGrant _t b s).st :=
  keeps_ite_st (keeps_EngOut_fail h) (keeps_EngOut_ok (keeps_releaseCheck (keeps_spareCheck (keeps_update h))))

theorem keeps_formatLake {s₀ s : State} {landing volume nkeep confirm : Nat} (h : Keeps s₀ s) :
    Keeps s₀ (formatLake landing volume nkeep confirm s).1 :=
  keeps_ite_fst h (keeps_ite_fst h (keeps_update (keeps_drawFree h)))

theorem keeps_issueReg {s₀ s : State} {t pi : Nat} {f : Thread → Thread} (h : Keeps s₀ s) : Keeps s₀ (issueReg t pi f s) :=
  keeps_issue (fun _ _ h1 => keeps_retire (keeps_updThr h1)) h

theorem keeps_aluInstr {s₀ s : State} {fn t pi rd ra rb : Nat} (h : Keeps s₀ s) : Keeps s₀ (aluInstr fn t pi rd ra rb s) :=
  keeps_issueReg h

theorem keeps_aluInstr1 {s₀ s : State} {fn t pi rd ra : Nat} (h : Keeps s₀ s) : Keeps s₀ (aluInstr1 fn t pi rd ra s) :=
  keeps_issueReg h

theorem keeps_immInstr {s₀ s : State} {f : Word → Word} {t pi rd ra : Nat} (h : Keeps s₀ s) : Keeps s₀ (immInstr f t pi rd ra s) :=
  keeps_issueReg h

theorem keeps_takeFar {s₀ s : State} {t i : Nat} {p : Pend} (h : Keeps s₀ s) : Keeps s₀ (takeFar t i p s) :=
  keeps_count (keeps_updThr h)

theorem keeps_loadInstr {s₀ s : State} {size : Nat} {sx : Bool} {t pi rd ra : Nat} {imm : BitVec 13} (h : Keeps s₀ s) :
    Keeps s₀ (loadInstr size sx t pi rd ra imm s) := by
  unfold loadInstr
  dsimp only
  refine keeps_issue (fun _ _ h1 => ?_) h
  refine keeps_ite (keeps_raise h1) ?_
  split
  · exact keeps_raise h1
  · exact keeps_ite (keeps_raise h1) (keeps_retire (keeps_updThr (keeps_readPlace h1)))
  · split
    · exact keeps_stallThread h1
    · exact keeps_stallThread (keeps_takeFar h1)

theorem keeps_unpoison {s₀ s : State} {p : Place} (h : Keeps s₀ s) : Keeps s₀ (unpoison p s) := by
  unfold unpoison
  dsimp only
  split
  · exact keeps_mcc h
  · exact keeps_mcc h

theorem keeps_storeInstr {s₀ s : State} {size t pi rs ra : Nat} {imm : BitVec 13} (h : Keeps s₀ s) : Keeps s₀ (storeInstr size t pi rs ra imm s) := by
  unfold storeInstr
  dsimp only
  refine keeps_issue (fun _ _ h1 => ?_) h
  refine keeps_ite (keeps_raise h1) ?_
  split
  · exact keeps_raise h1
  · exact keeps_retire (keeps_ite (keeps_unpoison (keeps_storeAt h1)) (keeps_storeAt h1))
  · split
    · exact keeps_stallThread h1
    · exact keeps_retire (keeps_takeFar (keeps_ite (keeps_unpoison (keeps_storeAt h1)) (keeps_storeAt h1)))

theorem keeps_amoInstr {s₀ s : State} {op t pi rd ra rb : Nat} (h : Keeps s₀ s) : Keeps s₀ (amoInstr op t pi rd ra rb s) := by
  unfold amoInstr
  dsimp only
  refine keeps_issue (fun _ _ h1 => ?_) h
  refine keeps_ite (keeps_raise h1) ?_
  split
  · exact keeps_raise h1
  · exact keeps_ite (keeps_raise h1) (keeps_retire (keeps_updThr (keeps_storeAt (keeps_readPlace h1))))
  · split
    · exact keeps_stallThread h1
    · exact keeps_stallThread (keeps_takeFar h1)

theorem keeps_execFence {s₀ s : State} {t : Fin 256} {pi : Fin 8} (h : Keeps s₀ s) : KeepsR s₀ (execFence t pi s) :=
  KeepsR.next (keeps_issue (fun _ _ h1 => keeps_ite (keeps_stallThread h1) (keeps_retire h1)) h)

theorem keeps_jumpTo {s₀ s : State} {t : Nat} {target : Word} {f : Thread → Thread} {th : Thread} (h : Keeps s₀ s) :
    Keeps s₀ (jumpTo t target f th s) :=
  keeps_ite (keeps_settle (keeps_count (keeps_updThr h))) (keeps_raise h)

theorem keeps_execEwait {s₀ s : State} {t : Fin 256} {pi : Fin 8} {rd ra : Fin 32} (h : Keeps s₀ s) : KeepsR s₀ (execEwait t pi rd ra s) :=
  KeepsR.next (keeps_issue (fun _ _ h1 => keeps_ite (keeps_stallThread h1) (keeps_retire (keeps_updThr h1))) h)

theorem keeps_execLcall {s₀ s : State} {t : Fin 256} {pi : Fin 8} {gate : Fin 64} (h : Keeps s₀ s) : KeepsR s₀ (execLcall t pi gate s) := by
  unfold execLcall
  refine KeepsR.next (keeps_issue (fun th x hx => ?_) h)
  dsimp only
  split
  · exact keeps_raise hx
  · split
    · exact keeps_retire (keeps_updThr hx)
    · split
      · exact keeps_raise hx
      · exact keeps_count (keeps_count (keeps_setThr (keeps_dmem hx)))

theorem keeps_execLret {s₀ s : State} {t : Fin 256} {pi : Fin 8} (h : Keeps s₀ s) : KeepsR s₀ (execLret t pi s) := by
  unfold execLret
  refine KeepsR.next (keeps_issue (fun _ _ h1 => ?_) h)
  split
  · exact keeps_settle (keeps_count (keeps_setThr h1))
  · exact keeps_raise h1

theorem keeps_execEret {s₀ s : State} {t : Fin 256} {pi : Fin 8} {rd ra : Fin 32} (h : Keeps s₀ s) : KeepsR s₀ (execEret t pi rd ra s) :=
  KeepsR.next (keeps_issue (fun _ _ h1 => keeps_ite (keeps_settle (keeps_count (keeps_setThr h1))) (keeps_raise h1)) h)

theorem keeps_execCsrr {s₀ s : State} {t : Fin 256} {pi : Fin 8} {rd : Fin 32} {csr : BitVec 13} (h : Keeps s₀ s) :
    KeepsR s₀ (execCsrr t pi rd csr s) := by
  unfold execCsrr
  dsimp only
  refine KeepsR.next (keeps_issue (fun _ _ h1 => ?_) h)
  split
  · exact keeps_raise h1
  · exact keeps_retire (keeps_updThr h1)
  · exact keeps_raise h1

theorem keeps_execCsrw {s₀ s : State} {t : Fin 256} {pi : Fin 8} {ra : Fin 32} {csr : BitVec 13} (h : Keeps s₀ s) :
    KeepsR s₀ (execCsrw t pi ra csr s) := by
  unfold execCsrw
  refine KeepsR.next (keeps_issue (fun _ _ h1 => ?_) h)
  split
  · exact keeps_raise h1
  · exact keeps_retire (keeps_updThr h1)
  · exact keeps_raise h1

theorem keeps_farReturn {s₀ s : State} {t i : Nat} (h : Keeps s₀ s) : Keeps s₀ (farReturn t i s) := by
  unfold farReturn
  dsimp only
  split
  · split
    · exact keeps_ite (keeps_ite (keeps_raise (keeps_updThr (keeps_readPlace h))) (keeps_retire (keeps_updThr (keeps_updThr (keeps_readPlace h)))))
          (keeps_updThr (keeps_readPlace h))
    · exact keeps_updThr (keeps_updThr (keeps_readPlace h))
    · exact keeps_settle (keeps_updThr (keeps_readPlace h))
  · refine keeps_ite ?_ ?_
    · split
      · exact keeps_ite (keeps_ite (keeps_raise (keeps_updThr (keeps_readPlace h))) (keeps_retire (keeps_updThr (keeps_updThr
            (keeps_readPlace h))))) (keeps_updThr (keeps_readPlace h))
      · exact keeps_updThr (keeps_updThr (keeps_readPlace h))
      · exact keeps_settle (keeps_updThr (keeps_readPlace h))
    · split
      · exact keeps_ite (keeps_ite (keeps_raise (keeps_updThr (keeps_storeAt (keeps_readPlace h)))) (keeps_retire (keeps_updThr (keeps_updThr
            (keeps_storeAt (keeps_readPlace h)))))) (keeps_updThr (keeps_storeAt (keeps_readPlace h)))
      · exact keeps_updThr (keeps_updThr (keeps_storeAt (keeps_readPlace h)))
      · exact keeps_settle (keeps_updThr (keeps_storeAt (keeps_readPlace h)))
  · exact h

theorem keeps_completeSlot {s₀ s : State} {t i : Nat} {status : Option (BitVec 16)} (h : Keeps s₀ s) : Keeps s₀ (completeSlot t i status s) := by
  unfold completeSlot
  dsimp only
  split
  · refine keeps_ite ?_ (keeps_setThr h)
    split
    · exact keeps_retire (keeps_setThr (keeps_setThr h))
    · exact keeps_setThr h
  · exact keeps_setThr (keeps_setThr h)
  · exact keeps_ite (keeps_setThr h) (keeps_setThr (keeps_setThr h))
  · exact keeps_settle (keeps_setThr h)

theorem keeps_landKeyOp {s₀ s : State} {key fn t : Nat} (h : Keeps s₀ s) : Keeps s₀ (landKeyOp key fn t s) := by
  unfold landKeyOp
  dsimp only
  split
  · exact keeps_ite (keeps_update h) h
  · exact keeps_writeBuf (keeps_update (keeps_ite (keeps_update h) h))

theorem keeps_execEngineCallComplete {s₀ s : State} {t : Fin 256} {slot : Fin 16} (h : Keeps s₀ s) : KeepsR s₀ (execEngineCallComplete t slot s) := by
  unfold execEngineCallComplete
  dsimp only
  refine keeps_onClock h ?_
  split
  · exact keeps_completeSlot (keeps_foldl (fun _ _ h1 => keeps_storeAt h1) (keeps_landKeyOp h))
  · exact h

theorem keeps_deliverTo {s₀ s : State} {t src : Nat} {ovf : Bool} {ev : Ev} {row : Option Entry} (h : Keeps s₀ s) :
    Keeps s₀ (deliverTo t src ovf ev row s) := by
  refine keeps_count (keeps_setThr (keeps_dmem ?_))
  split
  · exact keeps_dmem h
  · exact h

theorem keeps_execEventDeliver {s₀ s : State} {src : Fin 10} {t : Fin 256} (h : Keeps s₀ s) : KeepsR s₀ (execEventDeliver src t s) := by
  unfold execEventDeliver
  dsimp only
  refine KeepsR.next ?_
  refine keeps_ite h ?_
  split
  · exact h
  · split
    · exact h
    · exact keeps_ite (keeps_count (keeps_mcc h)) (keeps_deliverTo (keeps_mcc h))

theorem keeps_execLegalTimeout {s₀ s : State} {t : Fin 256} (h : Keeps s₀ s) : KeepsR s₀ (execLegalTimeout t s) := by
  unfold execLegalTimeout
  refine keeps_onCores h ?_
  split
  · exact keeps_ite h (keeps_count (keeps_forceLret (keeps_drawFree h)))
  · exact h

theorem keeps_engMccStart {s₀ s : State} {_t : Nat} {b : List Byte} (h : Keeps s₀ s) : Keeps s₀ (engMccStart _t b s).st := by
  unfold engMccStart
  dsimp only
  refine keeps_ite_st (keeps_EngOut_fail h) ?_
  refine keeps_ite_st (keeps_EngOut_fail h) ?_
  split
  · exact keeps_EngOut_fail h
  · exact keeps_EngOut_ok (keeps_setThr h)

theorem keeps_engMccStop {s₀ s : State} {_t : Nat} {b : List Byte} (h : Keeps s₀ s) : Keeps s₀ (engMccStop _t b s).st :=
  keeps_ite_st (keeps_EngOut_fail h) (keeps_ite_st (keeps_EngOut_ok h) (keeps_EngOut_ok (keeps_settle (keeps_updThr h))))

theorem keeps_engDmaCopy {s₀ s : State} {t : Nat} {b : List Byte} (h : Keeps s₀ s) : Keeps s₀ (engDmaCopy t b s).st := by
  unfold engDmaCopy
  dsimp only
  refine keeps_ite_st (keeps_EngOut_fail h) ?_
  refine keeps_ite_st (keeps_EngOut_fail h) ?_
  split
  · exact keeps_EngOut_fail h
  · exact keeps_EngOut_ok (keeps_writeBuf h)

theorem keeps_queueError {s₀ s : State} {i err : Nat} (h : Keeps s₀ s) : Keeps s₀ (queueError i err s) :=
  keeps_postNotice (keeps_updQueue h)

theorem keeps_execSqTailDoorbell {s₀ s : State} {i : Fin 16} {v : BitVec 32} (h : Keeps s₀ s) : KeepsR s₀ (execSqTailDoorbell i v s) :=
  keeps_onClock h (keeps_ite (keeps_count h) (keeps_ite (keeps_queueError h) (keeps_updQueue h)))

theorem keeps_countStatus {s₀ s : State} {status : Nat} (h : Keeps s₀ s) : Keeps s₀ (countStatus status s) :=
  keeps_ite (keeps_count h) (keeps_ite (keeps_count h) (keeps_ite (keeps_count h) (keeps_ite (keeps_count h) (keeps_ite (keeps_count h) (keeps_ite
      (keeps_count h) (keeps_ite (keeps_count h) h))))))

theorem keeps_registerCmd {s₀ s : State} {no status : Nat} {result : BitVec 64} {resp : Option (List Byte)} (h : Keeps s₀ s) :
    Keeps s₀ (registerCmd no status result resp s) :=
  keeps_countStatus (keeps_update h)

theorem keeps_authAlarm {s₀ s : State} {sid role : Nat} {c : Carrier} (h : Keeps s₀ s) : Keeps s₀ (authAlarm sid role c s) :=
  keeps_postNotice h

theorem keeps_dropSession {s₀ s : State} {sid : Nat} (h : Keeps s₀ s) : Keeps s₀ (dropSession sid s) :=
  keeps_update h

theorem keeps_closeSession {s₀ s : State} {sid : Nat} (h : Keeps s₀ s) : Keeps s₀ (closeSession sid s) :=
  keeps_countN (keeps_dropSession (keeps_update h))

theorem keeps_authFail {s₀ s : State} {sid : Nat} {x : Session} (h : Keeps s₀ s) : Keeps s₀ (authFail sid x s) :=
  keeps_ite (keeps_recEvent (keeps_authAlarm (keeps_closeSession h))) (keeps_update h)

theorem keeps_judge {s₀ s : State} {c : Cmd} {dmaOk short lastEntry : Bool} (h : Keeps s₀ s) : Keeps s₀ (judge c dmaOk short lastEntry s) := by
  unfold judge
  dsimp only
  refine keeps_ite (keeps_ite (keeps_registerCmd (keeps_update h)) (keeps_ite (keeps_update h) (keeps_registerCmd (keeps_update h)))) ?_
  split
  · exact keeps_registerCmd (keeps_update h)
  · refine keeps_ite (keeps_registerCmd (keeps_update h)) ?_
    refine keeps_ite (keeps_registerCmd (keeps_update h)) ?_
    refine keeps_ite (keeps_registerCmd (keeps_update (keeps_authFail h))) ?_
    refine keeps_ite (keeps_registerCmd (keeps_update h)) ?_
    split
    · exact keeps_registerCmd (keeps_update h)
    · exact keeps_ite (keeps_update (keeps_ite (keeps_postNotice (keeps_update h)) (keeps_update h))) (keeps_registerCmd (keeps_update (keeps_ite
          (keeps_postNotice (keeps_update h)) (keeps_update h))))

theorem keeps_execCommandFetch {s₀ s : State} {i : Fin 16} {raw data : List Byte} {ok dataOk : Bool} (h : Keeps s₀ s) :
    KeepsR s₀ (execCommandFetch i raw data ok dataOk s) :=
  KeepsR.next (keeps_ite h (keeps_ite (keeps_queueError (keeps_update h)) (keeps_judge (keeps_count (keeps_updQueue (keeps_update h))))))

theorem keeps_execCommandDeliver {s₀ s : State} {q : Fin 18} (h : Keeps s₀ s) : KeepsR s₀ (execCommandDeliver q s) := by
  unfold execCommandDeliver
  refine keeps_onCores h ?_
  dsimp only
  split
  · exact h
  · exact keeps_count (keeps_postEvent (keeps_update (keeps_shared h)))

theorem keeps_drainCheck {s₀ s : State} {i : Nat} (h : Keeps s₀ s) : Keeps s₀ (drainCheck i s) :=
  keeps_ite (keeps_enableQueue h) h

theorem keeps_dropCmd {s₀ s : State} {no : Nat} (h : Keeps s₀ s) : Keeps s₀ (dropCmd no s) := keeps_update h

theorem keeps_sendDatagram {s₀ s : State} {m dst : Nat} {bytes : List Byte} (h : Keeps s₀ s) : Keeps s₀ (sendDatagram m dst bytes s) :=
  keeps_ite (keeps_updMac h) (keeps_count h)

theorem keeps_updEth {s₀ s : State} {m : Nat} {f : EthChan → EthChan} (h : Keeps s₀ s) : Keeps s₀ (updEth m f s) :=
  keeps_update h

theorem keeps_signalVec {s₀ s : State} {v coal : Nat} (h : Keeps s₀ s) : Keeps s₀ (signalVec v coal s) := by
  unfold signalVec
  dsimp only
  refine keeps_ite (keeps_sendMsix h) ?_
  split
  · exact h
  · exact keeps_update h

theorem keeps_execCompletionWrite {s₀ s : State} {q : Fin 18} {ok : Bool} (h : Keeps s₀ s) : KeepsR s₀ (execCompletionWrite q ok s) := by
  unfold execCompletionWrite
  dsimp only
  refine keeps_onClock h ?_
  split
  · exact h
  · refine keeps_ite (keeps_drainCheck (keeps_count (keeps_dropCmd h))) ?_
    refine keeps_ite (keeps_count (keeps_sendDatagram (keeps_updEth (keeps_countIf (keeps_dropCmd h))))) ?_
    refine keeps_ite h ?_
    refine keeps_signalVec (keeps_count (keeps_updQueue (keeps_emit ?_)))
    split
    · exact keeps_ite (keeps_emit (keeps_countIf (keeps_dropCmd h))) (keeps_count (keeps_countIf (keeps_dropCmd h)))
    · exact keeps_countIf (keeps_dropCmd h)

theorem keeps_execMsixCoalesceExpire {s₀ s : State} {v : Fin 18} (h : Keeps s₀ s) : KeepsR s₀ (execMsixCoalesceExpire v s) := by
  unfold execMsixCoalesceExpire
  dsimp only
  refine keeps_onClock h ?_
  split
  · exact keeps_ite (keeps_sendMsix (keeps_update h)) h
  · exact h

theorem keeps_execCommandTimeout {s₀ s : State} {q : Fin 16} (h : Keeps s₀ s) : KeepsR s₀ (execCommandTimeout q s) := by
  unfold execCommandTimeout
  dsimp only
  refine keeps_onClock h ?_
  split
  · exact h
  · refine keeps_registerCmd (keeps_update ?_)
    split
    · exact keeps_update h
    · exact h

theorem keeps_execNoticeWrite {s₀ s : State} {ok : Bool} (h : Keeps s₀ s) : KeepsR s₀ (execNoticeWrite ok s) := by
  unfold execNoticeWrite
  dsimp only
  refine keeps_onClock h ?_
  split
  · exact h
  · exact keeps_ite h (keeps_ite (keeps_update h) (keeps_signalVec (keeps_emit (keeps_update h))))

theorem keeps_resetHostPort {s₀ s : State} (h : Keeps s₀ s) : Keeps s₀ (resetHostPort s) :=
  keeps_update (keeps_rehold h)

theorem keeps_execPciePowerState {s₀ s : State} {d3 : Bool} (h : Keeps s₀ s) : KeepsR s₀ (execPciePowerState d3 s) :=
  keeps_onClock h (keeps_ite (keeps_update h) (keeps_foldl (fun _ _ h1 => keeps_sendPending h1) (keeps_update h)))

theorem keeps_HostAns_fail {s₀ s : State} {status : Nat} (h : Keeps s₀ s) : Keeps s₀ (HostAns.fail s status).st :=
  h

theorem keeps_runBuiltin {s₀ s : State} {q eno : Nat} {f : Cmd → State → HostAns} (hf : ∀ a0 x1, Keeps s₀ x1 → Keeps s₀ (f a0 x1).st) (h : Keeps s₀ s) :
    Keeps s₀ (runBuiltin q eno f s) := by
  unfold runBuiltin
  dsimp only
  split
  · exact h
  · exact keeps_ite h (keeps_registerCmd (keeps_ite_host (keeps_HostAns_fail (keeps_count h)) (hf _ _ (keeps_count h))))

theorem keeps_proofFail {s₀ s : State} {c : Carrier} (h : Keeps s₀ s) : Keeps s₀ (proofFail c s) :=
  keeps_ite (keeps_authAlarm (keeps_update (keeps_count (keeps_update h)))) (keeps_count (keeps_update h))

theorem keeps_drawBytes {s₀ s : State} {n : Nat} (h : Keeps s₀ s) : Keeps s₀ (drawBytes n s).2 :=
  keeps_drawFree h

theorem keeps_doSessionOpen {s₀ s : State} {c : Cmd} (h : Keeps s₀ s) : Keeps s₀ (doSessionOpen c s).st := by
  unfold doSessionOpen
  extract_lets role cred car
  split
  · exact h
  · split
    · exact h
    · split
      · exact keeps_proofFail h
      · split
        · exact h
        · exact keeps_update (keeps_drawBytes (n := 16) h)

theorem keeps_doSessionProve {s₀ s : State} {c : Cmd} (h : Keeps s₀ s) : Keeps s₀ (doSessionProve c s).st := by
  unfold doSessionProve
  dsimp only
  split
  · refine keeps_HostAns_fail (keeps_proofFail ?_)
    split
    · exact keeps_ite h (keeps_dropSession h)
    · exact h
  · exact keeps_count (keeps_update h)

theorem keeps_execSessionClose {s₀ s : State} {q : Fin 18} (h : Keeps s₀ s) : KeepsR s₀ (execSessionClose q s) := by
  unfold execSessionClose
  dsimp only
  refine KeepsR.next ?_
  split
  · exact h
  · exact keeps_ite (keeps_closeSession (keeps_runBuiltin (fun _ _ h1 => h1) h)) h

theorem keeps_doNoticeRoute {s₀ s : State} {c : Cmd} (h : Keeps s₀ s) : Keeps s₀ (doNoticeRoute c s).st :=
  keeps_ite_host (keeps_updEth h) (keeps_ite_host (keeps_updEth h) (keeps_HostAns_fail h))

theorem keeps_execSessionPendingExpire {s₀ s : State} {sid : Fin 33} (h : Keeps s₀ s) : KeepsR s₀ (execSessionPendingExpire sid s) := by
  unfold execSessionPendingExpire
  refine keeps_onClock h ?_
  split
  · exact keeps_ite (keeps_dropSession h) h
  · exact h

theorem keeps_execProofLockoutExpire {s₀ s : State} {carrier : Fin 3} (h : Keeps s₀ s) : KeepsR s₀ (execProofLockoutExpire carrier s) := by
  unfold execProofLockoutExpire
  dsimp only
  refine keeps_onClock h ?_
  split
  · exact keeps_ite (keeps_update h) h
  · exact h

theorem keeps_ethEntry {s₀ s : State} {m src xid : Nat} {raw data : List Byte} {lastEntry : Bool} (h : Keeps s₀ s) :
    Keeps s₀ (ethEntry m src xid raw data lastEntry s) := by
  unfold ethEntry
  dsimp only
  split
  · exact keeps_count (keeps_sendDatagram (keeps_count h))
  · exact keeps_ite (keeps_count h) (keeps_judge (keeps_count h))

theorem keeps_takeDatagram {s₀ s : State} {m src : Nat} {bytes : List Byte} (h : Keeps s₀ s) : Keeps s₀ (takeDatagram m src bytes s) :=
  keeps_ite (keeps_count h) (keeps_foldl (fun _ _ h1 => keeps_ethEntry h1) h)

theorem keeps_execNoticeRouteFlush {s₀ s : State} {m : Fin 2} (h : Keeps s₀ s) : KeepsR s₀ (execNoticeRouteFlush m s) := by
  unfold execNoticeRouteFlush
  dsimp only
  refine keeps_onClock h ?_
  split
  · exact h
  · exact keeps_ite h (keeps_sendDatagram (keeps_updEth h))

theorem keeps_completeCmd {s₀ s : State} {c : Cmd} {status : Nat} {result : BitVec 64} {resp : Option (List Byte)} {n : Nat} (h : Keeps s₀ s) :
    Keeps s₀ (completeCmd c status result resp n s) :=
  keeps_ite (keeps_registerCmd (keeps_releasePool h)) (keeps_ite (keeps_registerCmd (keeps_releasePool h)) (keeps_registerCmd (keeps_releasePool h)))

theorem keeps_engHpComplete {s₀ s : State} {_t : Nat} {b : List Byte} (h : Keeps s₀ s) : Keeps s₀ (engHpComplete _t b s).st := by
  unfold engHpComplete
  dsimp only
  split
  · exact keeps_EngOut_fail (keeps_releasePool h)
  · exact keeps_ite_st (keeps_EngOut_fail (keeps_drainCheck (keeps_count (keeps_dropCmd (keeps_releasePool h))))) (keeps_ite_st
        (keeps_EngOut_fail h) (keeps_EngOut_ok (keeps_completeCmd h)))

theorem keeps_takeEvent {s₀ s : State} {c : Cmd} (h : Keeps s₀ s) : Keeps s₀ (takeEvent c s) := by
  unfold takeEvent
  dsimp only
  split
  · exact h
  · exact keeps_mcc h

theorem keeps_answerCmd {s₀ : State} {c : Cmd} {a : HostAns} (h : Keeps s₀ a.st) : Keeps s₀ (answerCmd c a) := by
  unfold answerCmd
  dsimp only
  split
  · exact keeps_registerCmd (keeps_releasePool h)
  · exact keeps_update (keeps_releasePool h)

theorem keeps_runStandard {s₀ s : State} {q eno : Nat} {roles : Cmd → List Nat} {f : Cmd → State → HostAns}
    (hf : ∀ a0 x1, Keeps s₀ x1 → Keeps s₀ (f a0 x1).st) (h : Keeps s₀ s) : Keeps s₀ (runStandard q eno roles f s) := by
  unfold runStandard
  split
  · exact h
  · exact keeps_ite h (keeps_answerCmd (keeps_ite_host (hf _ _ (keeps_takeEvent h)) (keeps_takeEvent h)))

theorem keeps_throughGate {s₀ s : State} {f : State → ChangeAns} (hf : ∀ x0, Keeps s₀ x0 → Keeps s₀ (f x0).st) (h : Keeps s₀ s) :
    Keeps s₀ (throughGate f s).st :=
  keeps_ite_host (keeps_HostAns_fail h) (hf _ h)

theorem keeps_doDir {s₀ s : State} {eng : Nat → List Byte → State → EngOut} {c : Cmd} (heng : ∀ a0 a1 x2, Keeps s₀ x2 → Keeps s₀ (eng a0 a1 x2).st)
    (h : Keeps s₀ s) :
    Keeps s₀ (doDir eng c s).st :=
  heng _ _ _ h

theorem keeps_execHostDirInsert {s₀ s : State} {q : Fin 18} (h : Keeps s₀ s) : KeepsR s₀ (execHostDirInsert q s) :=
  KeepsR.next (keeps_runStandard (fun _ _ h1 => keeps_doDir (fun _ _ _ h2 => keeps_engDirInsert h2) h1) h)

theorem keeps_execHostDirSet {s₀ s : State} {q : Fin 18} (h : Keeps s₀ s) : KeepsR s₀ (execHostDirSet q s) :=
  KeepsR.next (keeps_runStandard (fun _ _ h1 => keeps_doDir (fun _ _ _ h2 => keeps_engDirSet h2) h1) h)

theorem keeps_execHostDirEpoch {s₀ s : State} {q : Fin 18} (h : Keeps s₀ s) : KeepsR s₀ (execHostDirEpoch q s) :=
  KeepsR.next (keeps_runStandard (fun _ _ h1 => keeps_doDir (fun _ _ _ h2 => keeps_engDirEpoch h2) h1) h)

theorem keeps_execHostDirCmd {s₀ s : State} {q : Fin 18} (h : Keeps s₀ s) : KeepsR s₀ (execHostDirCmd q s) :=
  KeepsR.next (keeps_runStandard (fun _ _ h1 => keeps_doDir (fun _ _ _ h2 => keeps_engDirCmd h2) h1) h)

theorem keeps_execHostDirRemove {s₀ s : State} {q : Fin 18} (h : Keeps s₀ s) : KeepsR s₀ (execHostDirRemove q s) :=
  KeepsR.next (keeps_runStandard (fun _ _ h1 => keeps_doDir (fun _ _ _ h2 => keeps_engDirRemove h2) h1) h)

theorem keeps_EngOut_keyed {s₀ s : State} (h : Keeps s₀ s) : Keeps s₀ (EngOut.keyed s).st := h

theorem keeps_putKeySlot {s₀ s : State} {i : Nat} {k : KeySlot} (h : Keeps s₀ s) : Keeps s₀ (putKeySlot i k s) :=
  keeps_keyChanged (keeps_mirror (keeps_update h))

theorem keeps_loadBlob {s₀ s : State} {i : Nat} {b : List Byte} (h : Keeps s₀ s) : Keeps s₀ (loadBlob i b s).st :=
  keeps_ite_st (keeps_EngOut_fail (keeps_count h)) (keeps_ite_st (keeps_EngOut_fail (keeps_count h)) (keeps_ite_st (keeps_EngOut_fail
      (keeps_count h)) (keeps_ite_st (keeps_EngOut_fail (keeps_count h)) (keeps_ite_st (keeps_EngOut_fail (keeps_count h)) (keeps_ite_st
      (keeps_EngOut_fail (keeps_count h)) (keeps_EngOut_keyed (keeps_putKeySlot h)))))))

theorem keeps_fieldBytes {s₀ s : State} {f n : Nat} {d : List Byte} (h : Keeps s₀ s) : Keeps s₀ (fieldBytes f n d s).2 :=
  keeps_ite_snd h (keeps_ite_snd h (keeps_drawBytes (n := n) h))

theorem keeps_programOtp {s₀ s : State} {off : Nat} {l : List Byte} {bad : Option Nat} (h : Keeps s₀ s) : Keeps s₀ (programOtp off l bad s).1 := by
  unfold programOtp
  dsimp only
  split
  · split
    · exact keeps_countN (keeps_update (keeps_otp (keeps_drawFree h)))
    · exact keeps_countN (keeps_otp h)
  · exact keeps_countN (keeps_otp h)

theorem keeps_lifecycleRecord {s₀ s : State} {f n : Nat} {d : List Byte} (h : Keeps s₀ s) : Keeps s₀ (lifecycleRecord f n d s) :=
  keeps_ite (keeps_sepWrite h) (keeps_ite (keeps_sepWrite (keeps_drawFree h)) h)

theorem keeps_loadField {s₀ s : State} {f : Nat} {d : List Byte} {bad : Option Nat} (h : Keeps s₀ s) : Keeps s₀ (loadField f d bad s).st := by
  unfold loadField
  split
  · exact h
  · split
    · exact h
    · split
      · exact h
      · next off n _ =>
        have hf : Keeps s₀ (fieldBytes f n d s).2 := keeps_fieldBytes h
        split
        · exact h
        · next heq =>
          rw [heq] at hf
          exact keeps_lifecycleRecord (keeps_programOtp (keeps_update hf))

theorem keeps_keyLoad {s₀ s : State} {target i : Nat} {d : List Byte} {bad : Option Nat} (h : Keeps s₀ s) : Keeps s₀ (keyLoad target i d bad s).st :=
  keeps_ite_st (keeps_loadBlob h) (keeps_loadField h)

theorem keeps_doKeyLoad {s₀ s : State} {bad : Option Nat} {c : Cmd} (h : Keeps s₀ s) : Keeps s₀ (doKeyLoad bad c s).st := by
  unfold doKeyLoad
  dsimp only
  split
  · exact keeps_HostAns_fail h
  · refine keeps_ite_host (keeps_HostAns_fail h) ?_
    split
    · exact keeps_HostAns_fail h
    · exact keeps_update (keeps_keyLoad h)

theorem keeps_deriveSlot {s₀ s : State} {p i typ lo hi keyid : Nat} (h : Keeps s₀ s) : Keeps s₀ (deriveSlot p i typ lo hi keyid s).st :=
  keeps_ite_st (keeps_EngOut_fail h) (keeps_ite_st (keeps_EngOut_fail h) (keeps_ite_st (keeps_EngOut_fail h) (keeps_ite_st (keeps_EngOut_fail h)
      (keeps_ite_st (keeps_EngOut_fail h) (keeps_ite_st (keeps_EngOut_fail h) (keeps_EngOut_keyed (keeps_putKeySlot h)))))))

theorem keeps_deriveFrom {s₀ s : State} {b : List Byte} (h : Keeps s₀ s) : Keeps s₀ (deriveFrom b s).st := by
  unfold deriveFrom
  refine keeps_ite_st (keeps_EngOut_fail h) ?_
  split
  · exact keeps_EngOut_fail h
  · exact keeps_deriveSlot h

theorem keeps_engKeyDerive {s₀ s : State} {_t : Nat} {b : List Byte} (h : Keeps s₀ s) : Keeps s₀ (engKeyDerive _t b s).st :=
  keeps_ite_st (keeps_EngOut_fail h) (keeps_deriveFrom h)

theorem keeps_scrub {s₀ s : State} {d : Nat → Option Nat → Bool} (h : Keeps s₀ s) : Keeps s₀ (scrub d s).2 :=
  keeps_countN (keeps_countN (keeps_update (keeps_drawFree (keeps_update (keeps_mapCalls h)))))

theorem keeps_commitTomb {s₀ s : State} {i : Nat} (h : Keeps s₀ s) : Keeps s₀ (commitTomb i s) :=
  keeps_wake (keeps_postNotice (keeps_count (keeps_update (keeps_scrub h))))

theorem keeps_invalidateSlot {s₀ s : State} {i : Nat} (h : Keeps s₀ s) : Keeps s₀ (invalidateSlot i s).st := by
  unfold invalidateSlot
  dsimp only
  split
  · exact h
  · exact keeps_EngOut_fail h
  · exact keeps_ite_st (keeps_commitTomb h) (keeps_ite_st h (keeps_mirror (keeps_keyChanged (keeps_update h))))

theorem keeps_clearSlot {s₀ s : State} {i : Nat} (h : Keeps s₀ s) : Keeps s₀ (clearSlot i s).st := by
  unfold clearSlot
  dsimp only
  split
  · exact h
  · exact keeps_EngOut_fail h
  · exact keeps_ite_st (keeps_EngOut_fail h) (keeps_EngOut_keyed (keeps_putKeySlot h))

theorem keeps_invalidateFrom {s₀ s : State} {b : List Byte} (h : Keeps s₀ s) : Keeps s₀ (invalidateFrom b s).st :=
  keeps_ite_st (keeps_EngOut_fail h) (keeps_ite_st (keeps_invalidateSlot h) (keeps_clearSlot h))

theorem keeps_engKeyInvalidate {s₀ s : State} {_t : Nat} {b : List Byte} (h : Keeps s₀ s) : Keeps s₀ (engKeyInvalidate _t b s).st :=
  keeps_ite_st (keeps_EngOut_fail h) (keeps_invalidateFrom h)

theorem keeps_commitEpmin {s₀ s : State} {i e : Nat} (h : Keeps s₀ s) : Keeps s₀ (commitEpmin i e s) :=
  keeps_wake (keeps_update (keeps_scrub h))

theorem keeps_epochDistrict {s₀ s : State} {i lo hi : Nat} (h : Keeps s₀ s) : Keeps s₀ (epochDistrict i lo hi s).st :=
  keeps_ite_st (keeps_EngOut_fail h) (keeps_ite_st (keeps_EngOut_fail h) (keeps_ite_st (keeps_EngOut_fail h) (keeps_ite_st (keeps_EngOut_ok h)
      (keeps_ite_st (keeps_EngOut_keyed (keeps_ite (keeps_postNotice (keeps_putKeySlot h)) (keeps_putKeySlot h))) (keeps_ite_st (keeps_EngOut_ok
      (keeps_commitEpmin (keeps_ite (keeps_postNotice (keeps_putKeySlot h)) (keeps_putKeySlot h)))) (keeps_mirror (keeps_ite (keeps_postNotice
      (keeps_putKeySlot h)) (keeps_putKeySlot h))))))))

theorem keeps_epochBcast {s₀ s : State} {i e act : Nat} (h : Keeps s₀ s) : Keeps s₀ (epochBcast i e act s).st :=
  keeps_ite_st (keeps_EngOut_fail h) (keeps_ite_st (keeps_EngOut_fail h) (keeps_ite_st (keeps_EngOut_fail h) (keeps_ite_st (keeps_EngOut_fail h)
      (keeps_EngOut_keyed (keeps_keyChanged (keeps_mirror (keeps_update h)))))))

theorem keeps_closeSessions {s₀ s : State} {p : Session → Bool} (h : Keeps s₀ s) : Keeps s₀ (closeSessions p s) :=
  keeps_foldl (fun _ _ h1 => keeps_closeSession h1) h

theorem keeps_roleFloor {s₀ s : State} {role : Nat} {v : BitVec 32} (h : Keeps s₀ s) : Keeps s₀ (roleFloor role v s).st :=
  keeps_ite_st (keeps_EngOut_fail h) (keeps_ite_st (keeps_EngOut_fail h) (keeps_ite_st (keeps_EngOut_ok h) (keeps_EngOut_keyed (keeps_keyChanged
      (keeps_closeSessions (keeps_mirror (keeps_update h)))))))

theorem keeps_epochFrom {s₀ s : State} {b : List Byte} (h : Keeps s₀ s) : Keeps s₀ (epochFrom b s).st := by
  unfold epochFrom
  dsimp only
  refine keeps_ite_st (keeps_EngOut_fail h) ?_
  split
  · exact keeps_EngOut_fail h
  · exact keeps_ite_st (keeps_EngOut_fail h) (keeps_ite_st (keeps_epochDistrict h) (keeps_ite_st (keeps_epochBcast h) (keeps_roleFloor h)))

theorem keeps_engKeyEpoch {s₀ s : State} {_t : Nat} {b : List Byte} (h : Keeps s₀ s) : Keeps s₀ (engKeyEpoch _t b s).st :=
  keeps_ite_st (keeps_EngOut_fail h) (keeps_epochFrom h)

theorem keeps_sign {s₀ s : State} {d : Nat} {digest : List Byte} (h : Keeps s₀ s) : Keeps s₀ (sign d digest s).2 :=
  keeps_count (keeps_drawFree h)

theorem keeps_attStatement {s₀ s : State} (h : Keeps s₀ s) : Keeps s₀ (attStatement s).2 := by
  have built : Keeps s₀ (sign s.dId (sha384 s.statementBody) s).2 := keeps_sign h
  unfold attStatement
  extract_lets build
  split
  · exact keeps_ite_snd h (keeps_update built)
  · exact keeps_update built

theorem keeps_attest {s₀ s : State} {nonce : List Byte} (h : Keeps s₀ s) : Keeps s₀ (attest nonce s).2 := by
  have hs : Keeps s₀ (attStatement s).2 := keeps_attStatement h
  exact keeps_sign (d := (attStatement s).2.dAk) (digest := sha384 ((attStatement s).1 ++ nonce)) hs

theorem keeps_execAttest {s₀ s : State} {q : Fin 18} (h : Keeps s₀ s) : KeepsR s₀ (execAttest q s) :=
  KeepsR.next (keeps_runStandard (fun c _ h1 => keeps_attest (nonce := fit 32 (slice c.raw 8 28)) h1) h)

theorem keeps_updReturn {s₀ s : State} {k code : Nat} (h : Keeps s₀ s) : Keeps s₀ (updReturn k code s) :=
  keeps_count (keeps_update h)

theorem keeps_updRefuse {s₀ s : State} {k code : Nat} (h : Keeps s₀ s) : Keeps s₀ (updRefuse k code s) :=
  keeps_postNotice (keeps_updReturn h)

theorem keeps_updFail {s₀ s : State} {posted : Bool} {k code : Nat} (h : Keeps s₀ s) : Keeps s₀ (updFail posted k code s).st :=
  keeps_EngOut_fail (keeps_ite (keeps_updRefuse h) (keeps_updReturn h))

theorem keeps_slotBlockFailed {s₀ s : State} {k bk : Nat} (h : Keeps s₀ s) : Keeps s₀ (slotBlockFailed k bk s) :=
  keeps_ite (keeps_lunError (keeps_retireBlock (keeps_count h))) h

theorem keeps_tellTwin {s₀ s : State} (h : Keeps s₀ s) : Keeps s₀ (tellTwin s) :=
  keeps_ite h (keeps_count (keeps_foldl (fun _ _ h1 => keeps_sendOn h1) (keeps_ite h (keeps_update h))))

theorem keeps_putBoot {s₀ s : State} {u : Upd} (h : Keeps s₀ s) : Keeps s₀ (putBoot u s) :=
  keeps_tellTwin (keeps_anchorUpdate (keeps_update h))

theorem keeps_spareTo {s₀ s : State} {v : Nat} (h : Keeps s₀ s) : Keeps s₀ (spareTo v s) := keeps_putBoot h

theorem keeps_emptySpare {s₀ s : State} (h : Keeps s₀ s) : Keeps s₀ (emptySpare s) :=
  keeps_spareTo (keeps_update h)

theorem keeps_programUnits {s₀ s : State} {off total : Nat} {d : List Byte} {bad : List Nat} (h : Keeps s₀ s) :
    Keeps s₀ (programUnits off total d bad s).st :=
  keeps_ite_st (keeps_updFail (keeps_emptySpare (keeps_foldl (fun _ _ h1 => keeps_slotBlockFailed h1) h))) (keeps_EngOut_ok (keeps_count
      (keeps_update (keeps_foldl (fun _ _ h1 => keeps_slotBlockFailed h1) h))))

theorem keeps_beginBlock {s₀ s : State} {bad : List Nat} {off len crc : Nat} {read : Except Nat (List Byte)} (h : Keeps s₀ s) :
    Keeps s₀ (beginBlock bad off len crc read s).st := by
  unfold beginBlock
  dsimp only
  split
  · exact keeps_updFail h
  · refine keeps_ite_st (keeps_updFail h) ?_
    refine keeps_ite_st (keeps_updFail h) ?_
    refine keeps_ite_st (keeps_updFail h) ?_
    split
    · exact keeps_EngOut_fail h
    · exact keeps_ite_st (keeps_updFail h) (keeps_ite_st (keeps_updFail h) (keeps_ite_st (keeps_updFail h) (keeps_programUnits (keeps_spareTo
          (keeps_foldl (fun _ _ h1 => keeps_nandErase (keeps_setBlock h1)) (keeps_update h))))))

theorem keeps_nextBlock {s₀ s : State} {bad : List Nat} {off len crc : Nat} {read : Except Nat (List Byte)} (h : Keeps s₀ s) :
    Keeps s₀ (nextBlock bad off len crc read s).st := by
  unfold nextBlock
  dsimp only
  refine keeps_ite_st (keeps_updFail h) ?_
  refine keeps_ite_st (keeps_updFail h) ?_
  refine keeps_ite_st (keeps_updFail h) ?_
  split
  · exact keeps_EngOut_fail h
  · exact keeps_ite_st (keeps_updFail h) (keeps_ite_st (keeps_ite_st (keeps_EngOut_ok (keeps_count h)) (keeps_updFail h)) (keeps_programUnits h))

theorem keeps_doImgBlock {s₀ s : State} {bad : List Nat} {c : Cmd} (h : Keeps s₀ s) : Keeps s₀ (doImgBlock bad c s).st :=
  keeps_ite_host (keeps_HostAns_fail h) (keeps_ite_host (keeps_beginBlock h) (keeps_nextBlock h))

theorem keeps_updVerify {s₀ s : State} (h : Keeps s₀ s) : Keeps s₀ (updVerify s).st := by
  unfold updVerify
  dsimp only
  split
  · exact keeps_updFail h
  · refine keeps_ite_st (keeps_updFail h) ?_
    refine keeps_ite_st (keeps_updFail h) ?_
    refine keeps_ite_st (keeps_updFail h) ?_
    split
    · exact keeps_updFail h
    · exact keeps_ite_st (keeps_EngOut_fail (keeps_updRefuse h)) (keeps_EngOut_ok (keeps_postNotice (keeps_count (keeps_spareTo h))))

theorem keeps_shareRow {s₀ s : State} {i : Nat} {r : Row} (h : Keeps s₀ s) : Keeps s₀ (shareRow i r s).1 :=
  keeps_ite_fst (keeps_putRow h) (keeps_broadcast (keeps_update (keeps_putRow h)))

theorem keeps_armRow {s₀ s : State} {i : Nat} {r : Row} {window : Nat} (h : Keeps s₀ s) : Keeps s₀ (armRow i r window s) :=
  keeps_ite h (keeps_ite (keeps_putBoot h) (keeps_ite (keeps_putBoot h) h))

theorem keeps_updActivate {s₀ s : State} {tS scope window : Nat} (h : Keeps s₀ s) : Keeps s₀ (updActivate tS scope window s).st := by
  unfold updActivate
  dsimp only
  refine keeps_ite_st (keeps_EngOut_fail h) ?_
  refine keeps_ite_st (keeps_EngOut_fail h) ?_
  split
  · exact keeps_updFail h
  · exact keeps_ite_st (keeps_updFail h) (keeps_ite_st (keeps_updFail h) (keeps_ite_st (keeps_updFail h) (keeps_ite_st (keeps_updFail h)
        (keeps_armRow (keeps_shareRow (keeps_update h))))))

theorem keeps_engUpdActivate {s₀ s : State} {_t : Nat} {b : List Byte} (h : Keeps s₀ s) : Keeps s₀ (engUpdActivate _t b s).st :=
  keeps_ite_st (keeps_EngOut_fail h) (keeps_updActivate h)

theorem keeps_dropAir {s₀ s : State} (h : Keeps s₀ s) : Keeps s₀ (dropAir s) :=
  keeps_update (keeps_foldl (fun _ _ h1 => keeps_countN h1) h)

theorem keeps_startDrain {s₀ s : State} {d : Drain} (h : Keeps s₀ s) : Keeps s₀ (startDrain d s) :=
  keeps_update (keeps_ite (keeps_dropAir h) (keeps_update (keeps_dropAir h)))

theorem keeps_beginFallBack {s₀ s : State} (h : Keeps s₀ s) : Keeps s₀ (beginFallBack s) :=
  keeps_ite h (keeps_startDrain h)

theorem keeps_applyTrialEnd {s₀ s : State} {reject raise : Bool} (h : Keeps s₀ s) : Keeps s₀ (applyTrialEnd reject raise s) :=
  keeps_ite h (keeps_ite (keeps_beginFallBack h) (keeps_count (keeps_putBoot (keeps_ite (keeps_ite h (keeps_count (keeps_programOtp h))) h))))

theorem keeps_updConfirm {s₀ s : State} {op raise : Nat} (h : Keeps s₀ s) : Keeps s₀ (updConfirm op raise s).st :=
  keeps_ite_st (keeps_EngOut_fail h) (keeps_ite_st (keeps_EngOut_fail (keeps_update h)) (keeps_ite_st (keeps_ite_st (keeps_EngOut_fail
      (keeps_update h)) (keeps_EngOut_ok (keeps_emptySpare h))) (keeps_ite_st (keeps_EngOut_fail (keeps_update h)) (keeps_ite_st (keeps_EngOut_fail
      (keeps_update h)) (keeps_EngOut_ok (keeps_applyTrialEnd (keeps_mirror h)))))))

theorem keeps_engUpdConfirm {s₀ s : State} {_t : Nat} {b : List Byte} (h : Keeps s₀ s) : Keeps s₀ (engUpdConfirm _t b s).st :=
  keeps_ite_st (keeps_EngOut_fail h) (keeps_updConfirm h)

theorem keeps_campFail {s₀ s : State} {code : Nat} (h : Keeps s₀ s) : Keeps s₀ (campFail code s).st :=
  keeps_EngOut_fail (keeps_update h)

theorem keeps_campCreate {s₀ s : State} {b : List Byte} (h : Keeps s₀ s) : Keeps s₀ (campCreate b s).st :=
  keeps_ite_st (keeps_EngOut_fail h) (keeps_ite_st (keeps_campFail h) (keeps_ite_st (keeps_campFail h) (keeps_ite_st (keeps_campFail h)
      (keeps_ite_st (keeps_campFail h) (keeps_ite_st (keeps_campFail h) (keeps_EngOut_ok (keeps_campState h)))))))

theorem keeps_campSend {s₀ s : State} {b : List Byte} {id : Nat} {c : Camp} (h : Keeps s₀ s) : Keeps s₀ (campSend b id c s).st :=
  keeps_ite_st (keeps_EngOut_fail h) (keeps_ite_st (keeps_campFail h) (keeps_EngOut_ok (keeps_campState h)))

theorem keeps_campCtl {s₀ s : State} {b : List Byte} (h : Keeps s₀ s) : Keeps s₀ (campCtl b s).st := by
  unfold campCtl
  dsimp only
  refine keeps_ite_st (keeps_EngOut_fail h) ?_
  refine keeps_ite_st (keeps_EngOut_fail h) ?_
  refine keeps_ite_st (keeps_campCreate h) ?_
  split
  · exact keeps_campFail h
  · refine keeps_ite_st (keeps_campFail h) ?_
    split
    · exact keeps_campSend h
    · exact keeps_ite_st (keeps_campFail h) (keeps_EngOut_ok (keeps_campState h))
    · exact keeps_EngOut_ok (keeps_campState h)
    · exact h
    · exact keeps_EngOut_ok (keeps_mirror (keeps_update h))
    · exact keeps_EngOut_ok (keeps_putCamp h)

theorem keeps_realignRows {s₀ s : State} {ns : Nat} (h : Keeps s₀ s) : Keeps s₀ (realignRows ns s) :=
  keeps_countN (keeps_update h)

theorem keeps_stepForward {s₀ s : State} {ns : Nat} (h : Keeps s₀ s) : Keeps s₀ (stepForward ns s) :=
  keeps_postNotice (keeps_count (keeps_ite (keeps_replayBoundaries (keeps_realignRows (keeps_setTime h))) (keeps_realignRows (keeps_setTime h))))

theorem keeps_slewBy {s₀ s : State} {o : Int} (h : Keeps s₀ s) : Keeps s₀ (slewBy o s) :=
  keeps_ite h (keeps_count (keeps_update (keeps_setAdj h)))

theorem keeps_timeValid {s₀ s : State} (h : Keeps s₀ s) : Keeps s₀ (timeValid s) :=
  keeps_ite h (keeps_postNotice (keeps_update h))

theorem keeps_timeSet {s₀ s : State} {ns : Nat} (h : Keeps s₀ s) : Keeps s₀ (timeSet ns s).1 :=
  keeps_ite_fst h (keeps_timeValid (keeps_count (keeps_update (keeps_ite (keeps_ite (keeps_ite (keeps_stepForward h) h) (keeps_enterHoldover
      (keeps_ite (keeps_stepForward h) h))) (keeps_slewBy (keeps_ite (keeps_ite (keeps_stepForward h) h) (keeps_enterHoldover (keeps_ite
      (keeps_stepForward h) h))))))))

theorem keeps_selectSource {s₀ s : State} {b : List Byte} (h : Keeps s₀ s) : Keeps s₀ (selectSource b s).1 :=
  keeps_ite_fst h (keeps_ite_fst h (keeps_update h))

theorem keeps_writeRow {s₀ s : State} {i : Nat} {r : Row} (h : Keeps s₀ s) : Keeps s₀ (writeRow i r s).1 :=
  keeps_ite_fst h (keeps_ite_fst h (keeps_ite_fst h (keeps_ite_fst (keeps_shareRow h) (keeps_putRow h))))

theorem keeps_holdOp {s₀ s : State} {t : Nat} {op : KeyOp} (h : Keeps s₀ s) : Keeps s₀ (holdOp t op s) :=
  keeps_update h

theorem keeps_engGcmSeal {s₀ s : State} {t : Nat} {b : List Byte} (h : Keeps s₀ s) : Keeps s₀ (engGcmSeal t b s).st := by
  unfold engGcmSeal
  dsimp only
  refine keeps_ite_st (keeps_EngOut_fail h) ?_
  refine keeps_ite_st (keeps_EngOut_fail h) ?_
  split
  · exact keeps_EngOut_fail h
  · refine keeps_ite_st (keeps_EngOut_fail h) ?_
    split
    · exact keeps_EngOut_fail h
    · exact keeps_count (keeps_holdOp (keeps_sign (d := 0) (digest := []) (keeps_attStatement (keeps_ite_snd (keeps_keyChanged (keeps_update h))
          (keeps_update h)))))

theorem keeps_engGcmOpen {s₀ s : State} {t : Nat} {b : List Byte} (h : Keeps s₀ s) : Keeps s₀ (engGcmOpen t b s).st := by
  unfold engGcmOpen
  dsimp only
  refine keeps_ite_st (keeps_EngOut_fail h) ?_
  refine keeps_ite_st (keeps_EngOut_fail h) ?_
  split
  · exact keeps_EngOut_fail h
  · exact keeps_EngOut_fail h
  · split
    · exact keeps_EngOut_fail (keeps_count h)
    · exact keeps_ite_st (keeps_EngOut_fail h) (keeps_holdOp h)

theorem keeps_engCryCmac {s₀ s : State} {t : Nat} {b : List Byte} (h : Keeps s₀ s) : Keeps s₀ (engCryCmac t b s).st := by
  unfold engCryCmac
  dsimp only
  refine keeps_ite_st (keeps_EngOut_fail h) ?_
  split
  · exact keeps_EngOut_fail (keeps_ite (keeps_count (keeps_count h)) (keeps_ite (keeps_count (keeps_count h)) (keeps_count h)))
  · split
    · exact keeps_EngOut_fail (keeps_count h)
    · split
      · exact keeps_holdOp (keeps_countIf (keeps_count h))
      · exact keeps_countIf (keeps_count h)

theorem keeps_engCrySha384 {s₀ s : State} {t : Nat} {b : List Byte} (h : Keeps s₀ s) : Keeps s₀ (engCrySha384 t b s).st := by
  unfold engCrySha384
  refine keeps_ite_st (keeps_EngOut_fail h) ?_
  refine keeps_ite_st (keeps_EngOut_fail h) ?_
  split
  · exact keeps_EngOut_fail h
  · exact keeps_EngOut_ok (keeps_writeBuf h)

theorem keeps_engEcdsaVerify {s₀ s : State} {t : Nat} {b : List Byte} (h : Keeps s₀ s) : Keeps s₀ (engEcdsaVerify t b s).st := by
  unfold engEcdsaVerify
  refine keeps_ite_st (keeps_EngOut_fail h) ?_
  split
  · exact keeps_EngOut_fail h
  · exact keeps_EngOut_fail h
  · exact keeps_EngOut_fail h
  · exact keeps_ite_st (keeps_EngOut_ok h) (keeps_EngOut_fail (keeps_count h))

theorem keeps_engCryAttest {s₀ s : State} {t : Nat} {b : List Byte} (h : Keeps s₀ s) : Keeps s₀ (engCryAttest t b s).st := by
  unfold engCryAttest
  refine keeps_ite_st h (keeps_ite_st h ?_)
  split
  · exact h
  · next nonce _ => exact keeps_writeBuf (keeps_attest (nonce := nonce) h)

theorem keeps_engKeyLoad {s₀ s : State} {bad : Option Nat} {t : Nat} {b : List Byte} (h : Keeps s₀ s) : Keeps s₀ (engKeyLoad bad t b s).st := by
  unfold engKeyLoad
  dsimp only
  refine keeps_ite_st (keeps_EngOut_fail h) ?_
  split
  · exact keeps_EngOut_fail h
  · split
    · exact keeps_EngOut_fail h
    · exact keeps_keyLoad h

theorem keeps_execEpminCommit {s₀ s : State} {slot : Fin 64} (h : Keeps s₀ s) : KeepsR s₀ (execEpminCommit slot s) := by
  unfold execEpminCommit
  dsimp only
  refine KeepsR.next ?_
  split
  · exact h
  · exact keeps_ite (keeps_commitEpmin h) h

theorem keeps_landKeyTable {s₀ s : State} (h : Keeps s₀ s) : Keeps s₀ (landKeyTable s) :=
  keeps_wake (keeps_update h)

theorem keeps_execBroadcastPreviousExpire {s₀ s : State} (h : Keeps s₀ s) : KeepsR s₀ (execBroadcastPreviousExpire s) := by
  unfold execBroadcastPreviousExpire
  dsimp only
  refine keeps_onClock h ?_
  split
  · exact keeps_ite (keeps_update h) h
  · exact h

theorem keeps_engCycleWr {s₀ s : State} {_t : Nat} {b : List Byte} (h : Keeps s₀ s) : Keeps s₀ (engCycleWr _t b s).st := by
  unfold engCycleWr
  split
  · exact keeps_ite_st (keeps_EngOut_fail h) (keeps_writeRow h)
  · exact keeps_ite_st (keeps_EngOut_fail h) (keeps_selectSource h)
  · exact keeps_ite_fst h (keeps_update h)
  · exact keeps_EngOut_fail h

theorem keeps_engCycleRd {s₀ s : State} {_t : Nat} {b : List Byte} (h : Keeps s₀ s) : Keeps s₀ (engCycleRd _t b s).st := by
  unfold engCycleRd
  split
  · exact keeps_ite_st (keeps_EngOut_fail h) h
  · exact keeps_ite_st (keeps_EngOut_fail h) h
  · exact keeps_EngOut_fail h

theorem keeps_servoRun {s₀ s : State} {o : Int} (h : Keeps s₀ s) : Keeps s₀ (servoRun o s) :=
  keeps_setAdj (keeps_update h)

theorem keeps_acceptSample {s₀ s : State} {o : Int} (h : Keeps s₀ s) : Keeps s₀ (acceptSample o s) :=
  keeps_ite (keeps_timeValid (keeps_update (keeps_ite (keeps_update (keeps_stepForward (keeps_servoRun (keeps_count (keeps_update h))))) (keeps_ite
      (keeps_timeInvalid (keeps_servoRun (keeps_update (keeps_count (keeps_update h))))) (keeps_slewBy (keeps_servoRun (keeps_update (keeps_count
      (keeps_update h))))))))) (keeps_update (keeps_ite (keeps_update (keeps_stepForward (keeps_servoRun (keeps_count (keeps_update h)))))
      (keeps_ite (keeps_timeInvalid (keeps_servoRun (keeps_update (keeps_count (keeps_update h))))) (keeps_slewBy (keeps_servoRun (keeps_update
      (keeps_count (keeps_update h))))))))

theorem keeps_takeSample {s₀ s : State} {kind : Nat} {o : Int} (h : Keeps s₀ s) : Keeps s₀ (takeSample kind o s) :=
  keeps_ite h (keeps_ite (keeps_count h) (keeps_ite (keeps_ite (keeps_update (keeps_count (keeps_update h))) (keeps_count (keeps_update h)))
      (keeps_acceptSample h)))

theorem keeps_execTimeSample {s₀ s : State} {mac : Fin 2} (h : Keeps s₀ s) : KeepsR s₀ (execTimeSample mac s) := by
  unfold execTimeSample
  dsimp only
  refine keeps_onCores h ?_
  split
  · exact keeps_ite (keeps_takeSample (keeps_update h)) h
  · exact h

theorem keeps_execTimeSourceLoss {s₀ s : State} (h : Keeps s₀ s) : KeepsR s₀ (execTimeSourceLoss s) := by
  unfold execTimeSourceLoss
  refine keeps_onClock h ?_
  split
  · exact keeps_ite (keeps_sourceLost h) h
  · exact h

theorem keeps_execHoldoverExpire {s₀ s : State} (h : Keeps s₀ s) : KeepsR s₀ (execHoldoverExpire s) :=
  keeps_onClock h (keeps_ite (keeps_update (keeps_ite (keeps_timeInvalid h) h)) h)

theorem keeps_execCycleEvent {s₀ s : State} {idx : Fin 512} (h : Keeps s₀ s) : KeepsR s₀ (execCycleEvent idx s) :=
  KeepsR.next (keeps_ite h (keeps_ite (keeps_passRow h) (keeps_postEvent (keeps_countIf (keeps_passRow h)))))

theorem keeps_setPulse {s₀ s : State} {o : Nat} {level : Bool} (h : Keeps s₀ s) : Keeps s₀ (setPulse o level s) :=
  keeps_update h

theorem keeps_execPulseRow {s₀ s : State} {idx : Fin 512} (h : Keeps s₀ s) : KeepsR s₀ (execPulseRow idx s) :=
  KeepsR.next (keeps_ite h (keeps_ite (keeps_passRow h) (keeps_ite (keeps_setPulse (keeps_update (keeps_passRow h))) (keeps_setPulse (keeps_update
      (keeps_passRow h))))))

theorem keeps_execPulseEnd {s₀ s : State} {out : Fin 4} (h : Keeps s₀ s) : KeepsR s₀ (execPulseEnd out s) := by
  unfold execPulseEnd
  dsimp only
  refine keeps_onClock h ?_
  split
  · exact keeps_ite (keeps_setPulse (keeps_update h)) h
  · exact h

theorem keeps_ackFlits {s₀ s : State} {p first n : Nat} (h : Keeps s₀ s) : Keeps s₀ (ackFlits p first n s) :=
  keeps_sendWord (keeps_foldl (fun _ _ h1 => keeps_sendWord h1) h)

theorem keeps_takeMsg {s₀ s : State} {typ : Nat} {h : CHead} {m : Flit} {f : State → State} (hf : ∀ x0, Keeps s₀ x0 → Keeps s₀ (f x0))
    (hk : Keeps s₀ s) :
    Keeps s₀ (takeMsg typ h m f s) := by
  unfold takeMsg
  dsimp only
  refine keeps_ite hk ?_
  refine keeps_ite (keeps_ite hk (keeps_sendWord (keeps_count (keeps_updCport hk)))) ?_
  refine keeps_ite (keeps_count (keeps_sendWord (keeps_ackFlits (keeps_countN (keeps_updCport hk))))) ?_
  refine keeps_ite (hf _ (keeps_sendWord (keeps_ackFlits (keeps_countN (keeps_updCport hk))))) ?_
  split
  · exact keeps_ite (keeps_sendWord (keeps_ackFlits (keeps_countN (keeps_updCport hk)))) (keeps_sendMsg (keeps_sendWord (keeps_ackFlits
        (keeps_countN (keeps_updCport hk)))))
  · exact keeps_sendWord (keeps_ackFlits (keeps_countN (keeps_updCport hk)))

theorem keeps_execTsync {s₀ s : State} {h : CHead} {m : Flit} (hk : Keeps s₀ s) : KeepsR s₀ (execTsync h m s) := by
  unfold execTsync
  dsimp only
  refine KeepsR.next (keeps_takeMsg (fun _ h1 => ?_) hk)
  split
  · exact keeps_ite (keeps_sendOn h1) h1
  · split
    · exact h1
    · exact keeps_ite (keeps_takeSample (keeps_updCport h1)) (keeps_updCport h1)
  · exact h1

theorem keeps_linkDown {s₀ s : State} {m : Nat} (h : Keeps s₀ s) : Keeps s₀ (linkDown m s) :=
  keeps_ite h (keeps_postNotice (keeps_ite (keeps_sourceLost (keeps_updMac (keeps_countN (keeps_count (keeps_foldl (fun _ _ h1 => keeps_count
      (keeps_wake h1)) h))))) (keeps_updMac (keeps_countN (keeps_count (keeps_foldl (fun _ _ h1 => keeps_count (keeps_wake h1)) h))))))

theorem keeps_latchWake {s₀ s : State} {src : Nat} (h : Keeps s₀ s) : Keeps s₀ (latchWake src s) :=
  keeps_ite (keeps_update h) h

theorem keeps_linkWake {s₀ s : State} {m : Nat} (h : Keeps s₀ s) : Keeps s₀ (linkWake m s) := by
  unfold linkWake
  split
  · exact keeps_ite (keeps_latchWake h) h
  · exact h

theorem keeps_execMacLinkUp {s₀ s : State} {m : Fin 2} {rate : Fin 3} (h : Keeps s₀ s) : KeepsR s₀ (execMacLinkUp m rate s) := by
  unfold execMacLinkUp
  dsimp only
  refine KeepsR.next ?_
  split
  · exact h
  · exact keeps_ite h (keeps_ite (keeps_updMac (keeps_ite (keeps_linkDown h) h)) (keeps_ite (keeps_linkWake (keeps_updMac (keeps_ite
        (keeps_linkDown h) h))) (keeps_postNotice (keeps_linkWake (keeps_updMac (keeps_ite (keeps_linkDown h) h))))))

theorem keeps_execMacLinkDown {s₀ s : State} {m : Fin 2} {lock : Bool} (h : Keeps s₀ s) : KeepsR s₀ (execMacLinkDown m lock s) :=
  KeepsR.next (keeps_ite h (keeps_ite (keeps_linkWake (keeps_linkDown (keeps_ite (keeps_countIf (keeps_updMac h)) h))) (keeps_ite (keeps_countIf
      (keeps_updMac h)) h)))

theorem keeps_stampRx {s₀ s : State} {m : Nat} {f : List Byte} (h : Keeps s₀ s) : Keeps s₀ (stampRx m f s).2 := by
  unfold stampRx
  dsimp only
  refine keeps_ite_snd h ?_
  split
  · exact keeps_updMac (keeps_count h)
  · exact keeps_count h

theorem keeps_armedFrame {s₀ s : State} {m : Nat} {c : MacCfg} {f : List Byte} (h : Keeps s₀ s) : Keeps s₀ (armedFrame m c f s) :=
  keeps_ite (keeps_count (keeps_latchWake (keeps_updMac (keeps_stampRx h)))) (keeps_count h)

theorem keeps_sendPause {s₀ s : State} {m quanta : Nat} (h : Keeps s₀ s) : Keeps s₀ (sendPause m quanta s) :=
  keeps_emit h

theorem keeps_fifoLevel {s₀ s : State} {m fill : Nat} (h : Keeps s₀ s) : Keeps s₀ (fifoLevel m fill s) := by
  unfold fifoLevel
  dsimp only
  split
  · exact keeps_updMac h
  · exact keeps_ite (keeps_updMac h) (keeps_ite (keeps_count (keeps_sendPause (keeps_updMac (keeps_updMac h)))) (keeps_ite (keeps_count
        (keeps_sendPause (keeps_updMac (keeps_updMac h)))) (keeps_updMac h)))

theorem keeps_macControl {s₀ s : State} {m : Nat} {c : MacCfg} {f : List Byte} (h : Keeps s₀ s) : Keeps s₀ (macControl m c f s) :=
  keeps_ite (keeps_count h) (keeps_ite (keeps_count h) (keeps_updMac (keeps_count h)))

theorem keeps_toPosted {s₀ s : State} {m : Nat} {r : RxBuf} {f : List Byte} {flags : Nat} {stamp : List Byte} (h : Keeps s₀ s) :
    Keeps s₀ (toPosted m r f flags stamp s) :=
  keeps_count (keeps_postEvent (keeps_updMac (keeps_writeBuf h)))

theorem keeps_classify {s₀ s : State} {m : Nat} {c : MacCfg} {f stamp : List Byte} (h : Keeps s₀ s) : Keeps s₀ (classify m c f stamp s) := by
  unfold classify
  dsimp only
  refine keeps_ite (keeps_macControl h) ?_
  split
  · exact keeps_ite (keeps_count h) (keeps_ite (keeps_takeDatagram (keeps_count h)) (keeps_count h))
  · split
    · exact keeps_count h
    · exact keeps_toPosted h

theorem keeps_ptpHeard {s₀ s : State} {m : Nat} {f : List Byte} {x : Int} (h : Keeps s₀ s) : Keeps s₀ (ptpHeard m f x s) := by
  unfold ptpHeard
  dsimp only
  split
  · exact keeps_ite (keeps_update h) h
  · exact h

theorem keeps_execMacFrameReceive {s₀ s : State} {m : Fin 2} {f : List Byte} {fcsOk : Bool} {fill : Fin 131073} (h : Keeps s₀ s) :
    KeepsR s₀ (execMacFrameReceive m f fcsOk fill s) := by
  unfold execMacFrameReceive
  dsimp only
  refine KeepsR.next ?_
  split
  · exact h
  · exact keeps_ite h (keeps_ite (keeps_ite (keeps_armedFrame h) (keeps_count h)) (keeps_ite h (keeps_ite (keeps_count h) (keeps_ite (keeps_count
        (keeps_fifoLevel h)) (keeps_ite (keeps_count (keeps_fifoLevel h)) (keeps_ite (keeps_count (keeps_fifoLevel h)) (keeps_ite (keeps_count
        (keeps_stampRx (keeps_countN (keeps_fifoLevel h)))) (keeps_classify (keeps_ptpHeard (keeps_stampRx (keeps_countN
        (keeps_fifoLevel h))))))))))))

theorem keeps_execXoffRefresh {s₀ s : State} {m : Fin 2} {fill : Fin 131073} (h : Keeps s₀ s) : KeepsR s₀ (execXoffRefresh m fill s) := by
  unfold execXoffRefresh
  dsimp only
  refine KeepsR.next ?_
  refine keeps_ite h ?_
  split
  · exact keeps_fifoLevel h
  · exact keeps_ite (keeps_count (keeps_sendPause (keeps_updMac (keeps_fifoLevel h)))) (keeps_fifoLevel h)

theorem keeps_execMacPauseExpire {s₀ s : State} {m : Fin 2} (h : Keeps s₀ s) : KeepsR s₀ (execMacPauseExpire m s) := by
  unfold execMacPauseExpire
  refine keeps_onClock h ?_
  split
  · exact keeps_ite (keeps_updMac h) h
  · exact h

theorem keeps_oneStep {s₀ s : State} {m : Nat} {x : Int} {f : List Byte} (h : Keeps s₀ s) : Keeps s₀ (oneStep m x f s).2 := by
  unfold oneStep
  dsimp only
  split
  · exact h
  · refine keeps_ite_snd h ?_
    split
    · exact keeps_ite_snd h (keeps_drawFree h)
    · exact keeps_drawFree h

theorem keeps_ptpSent {s₀ s : State} {m : Nat} {f : List Byte} {x : Int} (h : Keeps s₀ s) : Keeps s₀ (ptpSent m f x s) := by
  unfold ptpSent
  dsimp only
  split
  · exact keeps_ite (keeps_update h) h
  · exact h

theorem keeps_sendFrame {s₀ s : State} {m : Nat} {f : TxFrame} (h : Keeps s₀ s) : Keeps s₀ (sendFrame m f s) :=
  keeps_wake (keeps_emit (keeps_countIf (keeps_countIf (keeps_countN (keeps_count (keeps_ptpSent (keeps_updMac (keeps_ite_snd
      (keeps_oneStep h) h))))))))

theorem keeps_execMacTxComplete {s₀ s : State} {m : Fin 2} (h : Keeps s₀ s) : KeepsR s₀ (execMacTxComplete m s) := by
  unfold execMacTxComplete
  dsimp only
  refine KeepsR.next ?_
  refine keeps_ite h ?_
  refine keeps_ite ?_ ?_
  · split
    · exact keeps_ite (keeps_emit (keeps_countN (keeps_count (keeps_updMac h)))) h
    · exact h
  · split
    · exact keeps_ite (keeps_sendFrame h) h
    · exact h

theorem keeps_macSend {s₀ s : State} {t m : Nat} {b : List Byte} (h : Keeps s₀ s) : Keeps s₀ (macSend t m b s).st := by
  unfold macSend
  dsimp only
  refine keeps_ite_st (keeps_EngOut_fail h) ?_
  split
  · exact keeps_EngOut_fail h
  · exact keeps_ite_st (keeps_EngOut_fail h) (keeps_ite_st (keeps_count h) (keeps_ite_st h (keeps_updMac h)))

theorem keeps_macConfig {s₀ s : State} {t m : Nat} {b : List Byte} (h : Keeps s₀ s) : Keeps s₀ (macConfig t m b s).st := by
  unfold macConfig
  dsimp only
  refine keeps_ite_st (keeps_EngOut_fail h) ?_
  split
  · exact keeps_EngOut_fail h
  · exact keeps_ite_st (keeps_EngOut_fail h) (keeps_EngOut_ok (keeps_ite h (keeps_updMac (keeps_ite (keeps_linkDown h) h))))

theorem keeps_macWake {s₀ s : State} {t m : Nat} {b : List Byte} (h : Keeps s₀ s) : Keeps s₀ (macWake t m b s).st := by
  unfold macWake
  refine keeps_ite_st (keeps_EngOut_fail h) ?_
  split
  · exact keeps_EngOut_fail h
  · exact keeps_ite_st (keeps_EngOut_fail h) (keeps_EngOut_ok (keeps_updMac h))

theorem keeps_engMacTx {s₀ s : State} {t : Nat} {b : List Byte} (h : Keeps s₀ s) : Keeps s₀ (engMacTx t b s).st :=
  keeps_ite_st (keeps_EngOut_fail h) (keeps_ite_st (keeps_EngOut_fail h) (keeps_ite_st (keeps_EngOut_fail h) (keeps_ite_st (keeps_macSend h)
      (keeps_ite_st (keeps_macConfig h) (keeps_macWake h)))))

theorem keeps_deliverKept {s₀ s : State} {m : Nat} (h : Keeps s₀ s) : Keeps s₀ (deliverKept m s) := by
  unfold deliverKept
  split
  · exact keeps_toPosted (keeps_updMac h)
  · exact h

theorem keeps_engMacRxpost {s₀ s : State} {t : Nat} {b : List Byte} (h : Keeps s₀ s) : Keeps s₀ (engMacRxpost t b s).st :=
  keeps_ite_st (keeps_EngOut_fail h) (keeps_ite_st (keeps_EngOut_fail h) (keeps_ite_st (keeps_EngOut_fail h) (keeps_EngOut_ok (keeps_deliverKept
      (keeps_updMac h)))))

theorem keeps_sendHello {s₀ s : State} {p : Nat} (h : Keeps s₀ s) : Keeps s₀ (sendHello p s) := keeps_sendOn h

theorem keeps_sendHellos {s₀ s : State} (h : Keeps s₀ s) : Keeps s₀ (sendHellos s) :=
  keeps_foldl (fun _ _ h1 => keeps_sendHello h1) h

theorem keeps_takePlace {s₀ s : State} {id depth chips sdepth : Nat} (h : Keeps s₀ s) : Keeps s₀ (takePlace id depth chips sdepth s) :=
  keeps_sendHellos (keeps_postNotice (keeps_castBalance (keeps_foldl (fun _ _ h1 => keeps_sendOn h1) (keeps_foldl (fun _ _ h1 => keeps_ite
      (keeps_updCport h1) (keeps_sendOn (keeps_updCport h1))) (keeps_update h)))))

theorem keeps_rediscover {s₀ s : State} (h : Keeps s₀ s) : Keeps s₀ (rediscover s) := by
  unfold rediscover
  refine keeps_ite h ?_
  split
  · exact h
  · refine keeps_ite (keeps_takePlace h) ?_
    split
    · exact keeps_sendOn h
    · exact h

theorem keeps_portDown {s₀ s : State} {p st : Nat} (h : Keeps s₀ s) : Keeps s₀ (portDown p st s) :=
  keeps_rediscover (keeps_updCport h)

theorem keeps_setPair {s₀ s : State} {v : Nat} (h : Keeps s₀ s) : Keeps s₀ (setPair v s) :=
  keeps_ite h (keeps_sendHellos (keeps_ite (keeps_update h) (keeps_completeJournal (keeps_update (keeps_foldl (fun _ _ h1 => keeps_loseChunk h1)
      (keeps_update h))))))

theorem keeps_becomeActive {s₀ s : State} (h : Keeps s₀ s) : Keeps s₀ (becomeActive s) :=
  keeps_enterService (keeps_reducedStart (keeps_setPair (keeps_update h)))

theorem keeps_yieldTo {s₀ s : State} {p : Nat} (h : Keeps s₀ s) : Keeps s₀ (yieldTo p s) :=
  keeps_update (keeps_sepWrite (keeps_recEvent h))

theorem keeps_twinHello {s₀ s : State} {p pState : Nat} {longer : Bool} (h : Keeps s₀ s) : Keeps s₀ (twinHello p pState longer s) := by
  unfold twinHello
  dsimp only
  split
  · exact keeps_ite h (keeps_ite (keeps_becomeActive (keeps_update h)) (keeps_setPair (keeps_update h)))
  · exact keeps_ite (keeps_setPair (keeps_update h)) h
  · exact h
  · exact keeps_ite (keeps_sendOn (keeps_sendOn (keeps_sendOn (keeps_sendOn (keeps_update (keeps_setPair h)))))) (keeps_ite (keeps_yieldTo h) h)

theorem keeps_execHello {s₀ s : State} {h : CHead} {m : Flit} {longer : Bool} (hk : Keeps s₀ s) : KeepsR s₀ (execHello h m longer s) := by
  unfold execHello
  dsimp only
  refine KeepsR.next (keeps_takeMsg (fun _ h1 => ?_) hk)
  split
  · exact keeps_ite (keeps_ite (keeps_portDown (keeps_count h1)) (keeps_updCport (keeps_count h1))) (keeps_ite (keeps_twinHello (keeps_ite
        (keeps_ite (keeps_update (keeps_ite (keeps_updCport h1) (keeps_sendHello (keeps_updCport h1)))) (keeps_ite (keeps_updCport h1)
        (keeps_sendHello (keeps_updCport h1)))) (keeps_tellTwin (keeps_ite (keeps_update (keeps_ite (keeps_updCport h1) (keeps_sendHello
        (keeps_updCport h1)))) (keeps_ite (keeps_updCport h1) (keeps_sendHello (keeps_updCport h1))))))) (keeps_ite (keeps_ite (keeps_updCport h1)
        (keeps_sendHello (keeps_updCport h1))) (keeps_rediscover (keeps_ite (keeps_updCport h1) (keeps_sendHello (keeps_updCport h1))))))
  · exact h1

theorem keeps_execTopo {s₀ s : State} {h : CHead} {m : Flit} (hk : Keeps s₀ s) : KeepsR s₀ (execTopo h m s) := by
  unfold execTopo
  dsimp only
  refine KeepsR.next (keeps_takeMsg (fun _ h1 => ?_) hk)
  split
  · exact keeps_ite h1 (keeps_rediscover (keeps_updCport h1))
  · exact h1

theorem keeps_execAssign {s₀ s : State} {h : CHead} {m : Flit} (hk : Keeps s₀ s) : KeepsR s₀ (execAssign h m s) := by
  unfold execAssign
  dsimp only
  refine KeepsR.next (keeps_takeMsg (fun _ h1 => ?_) hk)
  split
  · exact keeps_ite (keeps_ite (keeps_rediscover (keeps_takePlace h1)) (keeps_takePlace h1)) (keeps_ite (keeps_sendHellos (keeps_postNotice
        (keeps_update h1))) h1)
  · exact h1

theorem keeps_casEvent {s₀ s : State} {src kind : Nat} {data : List Byte} (h : Keeps s₀ s) : Keeps s₀ (casEvent src kind data s) :=
  keeps_postEvent (keeps_countIf h)

theorem keeps_execMsg {s₀ s : State} {h : CHead} {m : Flit} (hk : Keeps s₀ s) : KeepsR s₀ (execMsg h m s) := by
  unfold execMsg
  refine KeepsR.next (keeps_takeMsg (fun _ h1 => ?_) hk)
  split
  · exact keeps_casEvent h1
  · exact h1

theorem keeps_bcastHere {s₀ s : State} {src kind : Nat} {d : List Byte} (h : Keeps s₀ s) : Keeps s₀ (bcastHere src kind d s) :=
  keeps_ite (keeps_casEvent h) (keeps_update h)

theorem keeps_relayDown {s₀ s : State} {h : CHead} {m : Flit} (hk : Keeps s₀ s) : Keeps s₀ (relayDown h m s) :=
  keeps_foldl (fun _ _ h1 => keeps_ite h1 (keeps_sendMsg h1)) hk

theorem keeps_execBcast {s₀ s : State} {h : CHead} {m : Flit} (hk : Keeps s₀ s) : KeepsR s₀ (execBcast h m s) := by
  unfold execBcast
  refine KeepsR.next (keeps_takeMsg (fun _ h1 => ?_) hk)
  split
  · exact keeps_ite (keeps_bcastHere (keeps_relayDown h1)) (keeps_bcastHere (keeps_foldl (fun _ _ h2 => keeps_sendMsg h2) (keeps_count h1)))
  · exact keeps_ite h1 (keeps_foldl (fun _ _ h2 => keeps_updNode h2) (keeps_putBalance (keeps_relayDown h1)))
  · exact h1

theorem keeps_endBarrier {s₀ s : State} {bid : Nat} {ok : Bool} (h : Keeps s₀ s) : Keeps s₀ (endBarrier bid ok s) :=
  keeps_wake (keeps_countIf (keeps_update h))

theorem keeps_sendUp {s₀ s : State} {dst : Nat} {m : Flit} (h : Keeps s₀ s) : Keeps s₀ (sendUp dst m s) := by
  unfold sendUp
  split
  · exact keeps_sendOn h
  · exact h

theorem keeps_barrierCheck {s₀ s : State} {bid : Nat} (h : Keeps s₀ s) : Keeps s₀ (barrierCheck bid s) := by
  unfold barrierCheck
  split
  · exact h
  · exact keeps_ite (keeps_ite (keeps_endBarrier (keeps_broadcast h)) (keeps_sendUp h)) h

theorem keeps_failBarrier {s₀ s : State} {bid : Nat} (h : Keeps s₀ s) : Keeps s₀ (failBarrier bid s) :=
  keeps_ite (keeps_broadcast (keeps_endBarrier h)) (keeps_sendUp (keeps_endBarrier h))

theorem keeps_execBarrier {s₀ s : State} {h : CHead} {m : Flit} (hk : Keeps s₀ s) : KeepsR s₀ (execBarrier h m s) := by
  unfold execBarrier
  extract_lets f
  have hf : ∀ x, Keeps s₀ x → Keeps s₀ (f x) := by
    intro x hx
    cases m
    case barrierArrive => exact keeps_barrierCheck (keeps_update hx)
    case barrierRelease =>
      exact keeps_ite (keeps_ite (keeps_endBarrier (keeps_relayDown hx)) (keeps_relayDown hx))
        (keeps_ite (keeps_failBarrier hx) (keeps_broadcast hx))
    all_goals exact hx
  refine KeepsR.next ?_
  split <;> exact keeps_takeMsg hf hk

theorem keeps_snapReport {s₀ s : State} {no chip : Nat} (h : Keeps s₀ s) : Keeps s₀ (snapReport no chip s) := by
  unfold snapReport
  dsimp only
  split
  · exact h
  · exact keeps_ite h (keeps_ite (keeps_wake (keeps_update h)) (keeps_update h))

theorem keeps_execSnap {s₀ s : State} {h : CHead} {m : Flit} (hk : Keeps s₀ s) : KeepsR s₀ (execSnap h m s) := by
  unfold execSnap
  refine KeepsR.next (keeps_takeMsg (fun _ h1 => ?_) hk)
  split
  · exact keeps_snapReport h1
  · exact h1

theorem keeps_execRow {s₀ s : State} {h : CHead} {m : Flit} (hk : Keeps s₀ s) : KeepsR s₀ (execRow h m s) := by
  unfold execRow
  dsimp only
  refine KeepsR.next (keeps_takeMsg (fun _ h1 => ?_) hk)
  split
  · exact keeps_sendUp (keeps_relayDown (keeps_armRow (keeps_putRow h1)))
  · split
    · exact h1
    · exact keeps_ite (keeps_wake (keeps_update h1)) (keeps_update h1)
  · exact h1

theorem keeps_stageRemote {s₀ old s : State} {chip : Nat} (hold : Keeps s₀ old) (hs : Keeps s₀ s) : Keeps s₀ (stageRemote chip old s) := by
  unfold stageRemote
  dsimp only
  split
  · exact keeps_update hs
  · exact hs

theorem keeps_execRframe {s₀ s : State} {h : CHead} {m : Flit} (hk : Keeps s₀ s) : KeepsR s₀ (execRframe h m s) := by
  unfold execRframe
  dsimp only
  refine KeepsR.next (keeps_takeMsg (fun _ h1 => ?_) hk)
  split
  · refine keeps_ite ?_ ?_
    · split
      · exact keeps_sendMsg h1
      · exact h1
    · split
      · refine keeps_sendMsg (keeps_count ?_)
        split
        · exact keeps_ite (keeps_wakeNamed (keeps_stageRemote h1 (keeps_judgeFrame h1))) (keeps_stageRemote h1 (keeps_judgeFrame h1))
        · exact keeps_stageRemote h1 (keeps_judgeFrame h1)
      · refine keeps_count ?_
        split
        · exact keeps_ite (keeps_wakeNamed (keeps_stageRemote h1 (keeps_judgeFrame h1))) (keeps_stageRemote h1 (keeps_judgeFrame h1))
        · exact keeps_stageRemote h1 (keeps_judgeFrame h1)
  · exact h1

theorem keeps_execRdecide {s₀ s : State} {h : CHead} {m : Flit} (hk : Keeps s₀ s) : KeepsR s₀ (execRdecide h m s) := by
  unfold execRdecide
  dsimp only
  refine KeepsR.next (keeps_takeMsg (fun _ h1 => ?_) hk)
  split
  · split
    · exact keeps_count h1
    · refine keeps_ite (keeps_count (keeps_count (keeps_update h1))) ?_
      refine keeps_ite ?_ ?_
      · split
        · exact keeps_placeAck (keeps_countIf (keeps_count (keeps_update h1)))
        · exact keeps_countIf (keeps_count (keeps_update h1))
      · split
        · exact keeps_ite (keeps_updLport (keeps_count (keeps_update h1))) (keeps_count (keeps_count (keeps_update h1)))
        · exact keeps_count (keeps_count (keeps_update h1))
  · exact h1

theorem keeps_mirJournal {s₀ s : State} {r : JRec} (h : Keeps s₀ s) : Keeps s₀ (mirJournal r s) := by
  unfold mirJournal
  dsimp only
  split
  · exact keeps_ite (keeps_stageRec (keeps_countIf h)) (keeps_update (keeps_stageRec (keeps_countIf h)))
  · exact keeps_stageRec (keeps_countIf h)

theorem keeps_applyMir {s₀ s : State} {r : MirRec} (h : Keeps s₀ s) : Keeps s₀ (applyMir r s) := by
  unfold applyMir
  dsimp only
  split
  · exact keeps_update h
  · exact keeps_update h
  · exact keeps_update h
  · exact keeps_mirJournal h
  · exact keeps_armRow (keeps_update h)
  · exact keeps_keyChanged (keeps_update (keeps_ite (keeps_commitEpmin h) h))
  · exact keeps_keyChanged (keeps_commitTomb h)
  · exact keeps_keyChanged (keeps_update h)
  · exact keeps_keyChanged (keeps_closeSessions (keeps_update h))
  · exact keeps_update h
  · exact keeps_update h
  · exact keeps_update h
  · exact keeps_update h
  · exact keeps_update h
  · exact keeps_update h
  · exact keeps_update h
  · exact keeps_applyTrialEnd h

theorem keeps_execMirror {s₀ s : State} {h : CHead} {m : Flit} (hk : Keeps s₀ s) : KeepsR s₀ (execMirror h m s) := by
  unfold execMirror
  dsimp only
  refine KeepsR.next (keeps_takeMsg (fun _ h1 => ?_) hk)
  split
  · exact keeps_sendOn (keeps_ite (keeps_applyMir h1) (keeps_ite (keeps_applyMir (keeps_update h1)) h1))
  · exact h1

theorem keeps_execMack {s₀ s : State} {h : CHead} {m : Flit} (hk : Keeps s₀ s) : KeepsR s₀ (execMack h m s) := by
  unfold execMack
  dsimp only
  refine KeepsR.next (keeps_takeMsg (fun _ h1 => ?_) hk)
  split
  · split
    · exact h1
    · split
      · exact keeps_completeJournal (keeps_update (keeps_countIf (keeps_update h1)))
      · exact keeps_countIf (keeps_update h1)
  · exact h1

theorem keeps_execResync {s₀ s : State} {h : CHead} {m : Flit} (hk : Keeps s₀ s) : KeepsR s₀ (execResync h m s) := by
  unfold execResync
  dsimp only
  refine KeepsR.next (keeps_takeMsg (fun _ h1 => ?_) hk)
  split
  · exact keeps_ite (keeps_ite (keeps_sendOn (keeps_postNotice (keeps_count (keeps_setPair (keeps_update h1))))) h1) (keeps_ite (keeps_ite
        (keeps_setMode (keeps_sendOn (keeps_setPair (keeps_update (keeps_foldl (fun _ _ h2 => keeps_applyMir h2) (keeps_update h1)))))) (keeps_foldl
        (fun _ _ h2 => keeps_applyMir h2) (keeps_update h1))) (keeps_ite (keeps_foldl (fun _ _ h2 => keeps_applyMir h2) (keeps_update h1)) h1))
  · exact h1

theorem keeps_putPartMap {s₀ s : State} {l : List Nat} (h : Keeps s₀ s) : Keeps s₀ (putPartMap l s) :=
  keeps_mirror (keeps_update h)

theorem keeps_execPartmap {s₀ s : State} {h : CHead} {m : Flit} (hk : Keeps s₀ s) : KeepsR s₀ (execPartmap h m s) := by
  unfold execPartmap
  refine KeepsR.next (keeps_takeMsg (fun _ h1 => ?_) hk)
  split
  · exact keeps_putPartMap (keeps_relayDown h1)
  · exact h1

theorem keeps_fetchDone {s₀ s : State} {mh : Nat} {ok : Bool} (h : Keeps s₀ s) : Keeps s₀ (fetchDone mh ok s) :=
  keeps_ite (keeps_foldl (fun _ _ h1 => keeps_programChunks (keeps_count h1)) (keeps_update h)) (keeps_foldl (fun _ _ h1 => keeps_loseChunk h1)
      (keeps_update h))

theorem keeps_fillMeter {s₀ s : State} {mh : Nat} {x : Meter} (h : Keeps s₀ s) : Keeps s₀ (fillMeter mh x s) :=
  keeps_update h

theorem keeps_execLfetch {s₀ s : State} {h : CHead} {m : Flit} (hk : Keeps s₀ s) : KeepsR s₀ (execLfetch h m s) := by
  unfold execLfetch
  dsimp only
  refine KeepsR.next (keeps_takeMsg (fun _ h1 => ?_) hk)
  split
  · exact keeps_sendOn h1
  · exact keeps_fetchDone (keeps_fillMeter h1)
  · exact keeps_fetchDone h1
  · exact h1

theorem keeps_takeWord {s₀ s : State} {p : Nat} {ok : Bool} {f : State → State} (hf : ∀ x0, Keeps s₀ x0 → Keeps s₀ (f x0)) (h : Keeps s₀ s) :
    Keeps s₀ (takeWord p ok f s) :=
  keeps_ite h (keeps_ite (keeps_count h) (hf _ h))

theorem keeps_execLinkRetry {s₀ s : State} {port : Fin 4} {seq crc : BitVec 16} (h : Keeps s₀ s) : KeepsR s₀ (execLinkRetry port seq crc s) :=
  KeepsR.next (keeps_takeWord (fun _ h1 => keeps_ite (keeps_postNotice (keeps_portDown h1)) (keeps_foldl (fun _ _ h2 => keeps_emit h2) (keeps_countN
      (keeps_updCport h1)))) h)

theorem keeps_retest {s₀ s : State} {x : Shadowed} (h : Keeps s₀ s) : Keeps s₀ (retest x s) := by
  unfold retest
  dsimp only
  refine keeps_ite h ?_
  refine keeps_ite ?_ ?_
  · split
    · exact keeps_scheduleAck (keeps_judgeFrame h)
    · exact keeps_judgeFrame h
  · split
    · exact keeps_updLport (keeps_judgeFrame h)
    · exact keeps_judgeFrame h

theorem keeps_takeover {s₀ s : State} {cause : Nat} (h : Keeps s₀ s) : Keeps s₀ (takeover cause s) :=
  keeps_postNotice (keeps_sepWrite (keeps_count (keeps_setMode (keeps_update (keeps_drawFree (keeps_restoreNodes (keeps_foldl
      (fun _ _ h1 => keeps_retest h1) (keeps_ite (keeps_replayBoundaries (keeps_setPair (keeps_update (keeps_wordAll h)))) (keeps_setPair
      (keeps_update (keeps_wordAll h)))))))))))

theorem keeps_declareFailure {s₀ s : State} {cause : Nat} (h : Keeps s₀ s) : Keeps s₀ (declareFailure cause s) :=
  keeps_ite h (keeps_ite (keeps_takeover h) (keeps_ite (keeps_update h) h))

theorem keeps_missHeartbeat {s₀ s : State} {p : Nat} (h : Keeps s₀ s) : Keeps s₀ (missHeartbeat p s) :=
  keeps_ite (keeps_declareFailure (keeps_count (keeps_updCport h))) (keeps_ite (keeps_postNotice (keeps_count (keeps_updCport h))) (keeps_count
      (keeps_updCport h)))

theorem keeps_execHeartbeatReceive {s₀ s : State} {port : Fin 4} {relayed : Bool} {state : Fin 16} {no id : BitVec 16} {longer : Bool}
    {crc : BitVec 16} (h : Keeps s₀ s) :
    KeepsR s₀ (execHeartbeatReceive port relayed state no id longer crc s) :=
  KeepsR.next (keeps_takeWord (fun _ h1 => keeps_ite (keeps_ite (keeps_missHeartbeat h1) (keeps_ite (keeps_yieldTo (keeps_updCport h1))
      (keeps_updCport h1))) (keeps_ite h1 (keeps_foldl (fun _ _ h2 => keeps_sendWord h2) h1))) h)

theorem keeps_execHeartbeatSend {s₀ s : State} (h : Keeps s₀ s) : KeepsR s₀ (execHeartbeatSend s) :=
  KeepsR.next (keeps_ite h (keeps_foldl (fun _ _ h1 => keeps_sendWord (keeps_count h1)) (keeps_update h)))

theorem keeps_execHeartbeatMiss {s₀ s : State} {port : Fin 4} (h : Keeps s₀ s) : KeepsR s₀ (execHeartbeatMiss port s) := by
  unfold execHeartbeatMiss
  dsimp only
  refine KeepsR.next ?_
  split
  · exact h
  · exact keeps_ite h (keeps_missHeartbeat h)

theorem keeps_relayWord {s₀ s : State} {p kind arg : Nat} (h : Keeps s₀ s) : Keeps s₀ (relayWord p kind arg s) :=
  keeps_foldl (fun _ _ h1 => keeps_sendWord h1) h

theorem keeps_execFailWord {s₀ s : State} {port : Fin 4} {cause : Fin 256} {crc : BitVec 16} (h : Keeps s₀ s) :
    KeepsR s₀ (execFailWord port cause crc s) :=
  KeepsR.next (keeps_takeWord (fun _ h1 => keeps_ite (keeps_declareFailure h1) (keeps_relayWord h1)) h)

theorem keeps_releaseOutputs {s₀ s : State} (h : Keeps s₀ s) : Keeps s₀ (releaseOutputs s) :=
  keeps_ite (keeps_update h) (keeps_update h)

theorem keeps_execTakeover {s₀ s : State} {port : Fin 4} {crc : BitVec 16} (h : Keeps s₀ s) : KeepsR s₀ (execTakeover port crc s) :=
  KeepsR.next (keeps_takeWord (fun _ h1 => keeps_ite (keeps_relayWord (keeps_updCport (keeps_foldl (fun _ _ h2 => keeps_updCport h2) h1)))
      (keeps_ite (keeps_relayWord (keeps_updCport (keeps_foldl (fun _ _ h2 => keeps_updCport h2) h1))) (keeps_ite (keeps_releaseOutputs h1) h1))) h)

theorem keeps_execRemoteDecisionExpire {s₀ s : State} {mid : BitVec 16} (h : Keeps s₀ s) : KeepsR s₀ (execRemoteDecisionExpire mid s) := by
  unfold execRemoteDecisionExpire
  dsimp only
  refine keeps_onCores h ?_
  split
  · exact keeps_ite (keeps_count (keeps_update h)) h
  · exact h

theorem keeps_execMirrorAckTimeout {s₀ s : State} (h : Keeps s₀ s) : KeepsR s₀ (execMirrorAckTimeout s) :=
  keeps_onCores h (keeps_ite (keeps_postNotice (keeps_count (keeps_setPair h))) h)

theorem keeps_doHandover {s₀ s : State} (h : Keeps s₀ s) : Keeps s₀ (doHandover s).1 :=
  keeps_ite_fst h (keeps_setMode (keeps_setPair (keeps_holdOutputs (keeps_sendFail h))))

theorem keeps_execAutoHandover {s₀ s : State} (h : Keeps s₀ s) : KeepsR s₀ (execAutoHandover s) := by
  unfold execAutoHandover
  dsimp only
  refine KeepsR.next ?_
  split
  · exact h
  · exact keeps_ite h (keeps_ite (keeps_ite (keeps_doHandover h) (keeps_update h)) (keeps_update h))

theorem keeps_execBarrierTimeout {s₀ s : State} {bid : Fin 256} (h : Keeps s₀ s) : KeepsR s₀ (execBarrierTimeout bid s) := by
  unfold execBarrierTimeout
  refine KeepsR.next ?_
  split
  · exact keeps_ite (keeps_failBarrier h) h
  · exact h

theorem keeps_execSnapshotTimeout {s₀ s : State} (h : Keeps s₀ s) : KeepsR s₀ (execSnapshotTimeout s) := by
  unfold execSnapshotTimeout
  dsimp only
  refine keeps_onCores h ?_
  split
  · exact keeps_ite (keeps_wake (keeps_update h)) h
  · exact h

theorem keeps_execRowConfirmTimeout {s₀ s : State} {idx : Fin 512} (h : Keeps s₀ s) : KeepsR s₀ (execRowConfirmTimeout idx s) := by
  unfold execRowConfirmTimeout
  dsimp only
  refine keeps_onCores h ?_
  split
  · exact keeps_ite (keeps_wake (keeps_update h)) h
  · exact h

theorem keeps_execClassbHoldRelease {s₀ s : State} (h : Keeps s₀ s) : KeepsR s₀ (execClassbHoldRelease s) := by
  unfold execClassbHoldRelease
  refine KeepsR.next ?_
  split
  · exact keeps_ite (keeps_releaseOutputs h) h
  · exact h

theorem keeps_casSend {s₀ s : State} {full : Bool} {t : Nat} {b : List Byte} (h : Keeps s₀ s) : Keeps s₀ (casSend full t b s).st := by
  unfold casSend
  dsimp only
  refine keeps_ite_st (keeps_EngOut_fail h) ?_
  split
  · exact keeps_EngOut_fail h
  · refine keeps_ite_st (keeps_ite_st (keeps_EngOut_fail (keeps_casEvent h)) (keeps_EngOut_ok (keeps_casEvent h))) ?_
    split
    · exact keeps_EngOut_fail h
    · exact keeps_sendOn h

theorem keeps_setRole {s₀ s : State} {p role : Nat} (h : Keeps s₀ s) : Keeps s₀ (setRole p role s) :=
  keeps_ite h (keeps_ite (keeps_updCport h) (keeps_sendHello (keeps_updCport h)))

theorem keeps_putCasConfig {s₀ s : State} {roles : List Nat} {pair : Nat} (h : Keeps s₀ s) : Keeps s₀ (putCasConfig roles pair s) := by
  unfold putCasConfig
  extract_lets paired cas s1 cas1 s2
  have h1 : Keeps s₀ s1 := keeps_update h
  clear_value s1
  have h2 : Keeps s₀ s2 := keeps_ite (keeps_ite (keeps_setPair (keeps_update h1)) (keeps_update h1)) (keeps_ite (keeps_setPair (keeps_update h1)) h1)
  exact keeps_rediscover (keeps_foldl (fun _ _ hx => keeps_setRole hx) h2)

theorem keeps_engCasSend {s₀ s : State} {full : Bool} {held : List Nat} {t : Nat} {b : List Byte} (h : Keeps s₀ s) :
    Keeps s₀ (engCasSend full held t b s).st := by
  unfold engCasSend
  dsimp only
  refine keeps_ite_st (keeps_EngOut_fail h) ?_
  refine keeps_ite_st (keeps_casSend h) ?_
  refine keeps_ite_st (keeps_EngOut_fail h) ?_
  refine keeps_ite_st (keeps_EngOut_fail h) ?_
  refine keeps_ite_st (keeps_doHandover h) ?_
  split
  · exact keeps_EngOut_fail h
  · exact keeps_ite_st (keeps_ite_st (keeps_EngOut_ok (keeps_putCasConfig h)) (keeps_EngOut_fail h)) (keeps_ite_fst h (keeps_ite_fst h
        (keeps_broadcast (keeps_putPartMap h))))

theorem keeps_engCasBarrier {s₀ s : State} {_t : Nat} {b : List Byte} (h : Keeps s₀ s) : Keeps s₀ (engCasBarrier _t b s).st :=
  keeps_ite_st (keeps_EngOut_fail h) (keeps_ite_st (keeps_EngOut_ok h) (keeps_barrierCheck (keeps_update h)))

theorem keeps_engCasBcast {s₀ s : State} {t : Nat} {b : List Byte} (h : Keeps s₀ s) : Keeps s₀ (engCasBcast t b s).st := by
  unfold engCasBcast
  dsimp only
  refine keeps_ite_st (keeps_EngOut_fail h) ?_
  split
  · exact keeps_EngOut_fail h
  · exact keeps_ite_st (keeps_EngOut_ok (keeps_bcastHere (keeps_broadcast h))) (keeps_ite_st (keeps_EngOut_fail h) (keeps_EngOut_ok (keeps_sendUp h)))

theorem keeps_engCasSnapshot {s₀ s : State} {_t : Nat} {b : List Byte} (h : Keeps s₀ s) : Keeps s₀ (engCasSnapshot _t b s).st :=
  keeps_ite_st (keeps_EngOut_fail h) (keeps_ite_st (keeps_EngOut_fail h) (keeps_ite_st (keeps_EngOut_fail h) (keeps_update (keeps_shareRow
      (keeps_ite (keeps_wake h) h)))))

theorem keeps_execStackSnapshot {s₀ s : State} (h : Keeps s₀ s) : KeepsR s₀ (execStackSnapshot s) :=
  KeepsR.next (keeps_ite h (keeps_ite (keeps_passRow h) (keeps_ite (keeps_snapReport (keeps_update (keeps_captureCounters (keeps_passRow h))))
      (keeps_sendUp (keeps_update (keeps_captureCounters (keeps_passRow h)))))))

theorem keeps_enablePower {s₀ s : State} (h : Keeps s₀ s) : Keeps s₀ (enablePower s) := keeps_update h

theorem keeps_wiped {s₀ s : State} (h : Keeps s₀ s) : Keeps s₀ (wiped s) := by
  refine h.memory rfl rfl fun hw => ?_
  simp only [State.memoryWf, Bool.and_eq_true] at hw
  simp only [State.memoryWf, Bool.and_eq_true]
  exact ⟨⟨⟨rfl, rfl⟩, rfl⟩, hw.2⟩

theorem keeps_endOutage {s₀ s : State} (h : Keeps s₀ s) : Keeps s₀ (endOutage s) := by
  unfold endOutage
  dsimp only
  split
  · exact keeps_update h
  · exact h

theorem keeps_satNotices {s₀ s : State} (h : Keeps s₀ s) : Keeps s₀ (satNotices s) :=
  keeps_ite (keeps_postNotice (keeps_update (keeps_ite (keeps_postNotice (keeps_update h)) h))) (keeps_ite (keeps_postNotice (keeps_update h)) h)

theorem keeps_saveCounts {s₀ s : State} (h : Keeps s₀ s) : Keeps s₀ (saveCounts s) := keeps_update h

theorem keeps_postUnseal {s₀ s : State} (h : Keeps s₀ s) : Keeps s₀ (postUnseal s) := by
  unfold postUnseal
  dsimp only
  split
  · exact keeps_postNotice (keeps_update h)
  · exact h

theorem keeps_release {s₀ s : State} {cause ochre : Nat} {old : Option Mode} (h : Keeps s₀ s) : Keeps s₀ (release cause ochre old s) := by
  unfold release
  dsimp only
  refine keeps_postUnseal ?_
  split
  · exact keeps_ite (keeps_ite (keeps_endOutage (keeps_setTime (keeps_update (keeps_wiped h)))) (keeps_satNotices (keeps_saveCounts (keeps_update
        (keeps_endOutage (keeps_setTime (keeps_update (keeps_wiped h)))))))) (keeps_postNotice (keeps_ite (keeps_endOutage (keeps_setTime
        (keeps_update (keeps_wiped h)))) (keeps_satNotices (keeps_saveCounts (keeps_update (keeps_endOutage (keeps_setTime (keeps_update
        (keeps_wiped h)))))))))
  · exact keeps_ite (keeps_endOutage (keeps_setTime (keeps_update (keeps_wiped h)))) (keeps_satNotices (keeps_saveCounts (keeps_update
        (keeps_endOutage (keeps_setTime (keeps_update (keeps_wiped h)))))))

theorem keeps_clampPulses {s₀ s : State} (h : Keeps s₀ s) : Keeps s₀ (clampPulses s) := keeps_update h

theorem keeps_goOff {s₀ s : State} {cause : Nat} (h : Keeps s₀ s) : Keeps s₀ (goOff cause s) :=
  keeps_update (keeps_wiped h)

theorem keeps_fixLife {s₀ s : State} (h : Keeps s₀ s) : Keeps s₀ (fixLife s) := by
  unfold fixLife
  dsimp only
  split
  · exact keeps_update h
  · exact keeps_update h

theorem keeps_haltRom {s₀ s : State} {mask : BitVec 32} (h : Keeps s₀ s) : Keeps s₀ (haltRom mask s) :=
  keeps_count (keeps_sepWrite (keeps_update h))

theorem keeps_loopback {s₀ s : State} {l : List Nat} (h : Keeps s₀ s) : Keeps s₀ (loopback l s) :=
  keeps_ite (keeps_cutFabric (keeps_foldl (fun _ _ h1 => keeps_markFailed h1) h)) (keeps_foldl (fun _ _ h1 => keeps_markFailed h1) h)

theorem keeps_reportTest {s₀ s : State} {scope : Nat} {mask : BitVec 32} (h : Keeps s₀ s) : Keeps s₀ (reportTest scope mask s) :=
  keeps_postNotice (keeps_recEvent (keeps_update h))

theorem keeps_fullTest {s₀ s : State} {b : BootIn} (h : Keeps s₀ s) : Keeps s₀ (fullTest b s) := by
  unfold fullTest
  dsimp only
  split
  · exact keeps_ite (keeps_reportTest (keeps_update h)) (keeps_haltRom (keeps_reportTest (keeps_update h)))
  · exact keeps_ite (keeps_update (keeps_reportTest (keeps_update h))) (keeps_haltRom (keeps_reportTest (keeps_update h)))
  · exact keeps_haltRom (keeps_reportTest (keeps_update h))

theorem keeps_enterRecovery {s₀ s : State} (h : Keeps s₀ s) : Keeps s₀ (enterRecovery s) := keeps_update h

theorem keeps_nandInitTarget {s₀ s : State} {t : NandTarget} (h : Keeps s₀ s) : Keeps s₀ (nandInitTarget s t) :=
  keeps_nandTo (keeps_nandTo (keeps_nandTo (keeps_nandTo (keeps_nandTo (keeps_nandTo (keeps_nandTo h))))))

theorem keeps_nandInit {s₀ s : State} {ts : List NandTarget} {g : Geom} (h : Keeps s₀ s) : Keeps s₀ (nandInit ts g s) :=
  keeps_foldl (fun _ _ h1 => keeps_nandInitTarget h1) (keeps_update h)

theorem keeps_fallBackTo {s₀ s : State} {k : Nat} (h : Keeps s₀ s) : Keeps s₀ (fallBackTo k s) := by
  unfold fallBackTo
  dsimp only
  refine keeps_count ?_
  split
  · exact keeps_update (keeps_anchorUpdate (keeps_update h))
  · exact keeps_anchorUpdate (keeps_update h)

theorem keeps_chooseSlot {s₀ s : State} (h : Keeps s₀ s) : Keeps s₀ (chooseSlot s).2 := by
  unfold chooseSlot
  extract_lets a trial u s1 k o
  have h1 : Keeps s₀ s1 := keeps_ite (keeps_ite (keeps_fallBackTo h) (keeps_anchorUpdate (keeps_update h))) h
  exact keeps_ite_snd h1 (keeps_ite_snd (keeps_fallBackTo h1) h1)

theorem keeps_settleSlots {s₀ s : State} (h : Keeps s₀ s) : Keeps s₀ (settleSlots s) :=
  keeps_ite (keeps_update h) (keeps_ite (keeps_update h) (keeps_ite (keeps_update h) h))

theorem keeps_loadDir {s₀ s : State} (h : Keeps s₀ s) : Keeps s₀ (loadDir s) := keeps_update h

theorem keeps_loadKeys {s₀ s : State} (h : Keeps s₀ s) : Keeps s₀ (loadKeys s) :=
  keeps_ite h (keeps_foldl (fun _ _ h1 => keeps_update h1) (keeps_update h))

theorem keeps_loadPolicy {s₀ s : State} (h : Keeps s₀ s) : Keeps s₀ (loadPolicy s) := by
  unfold loadPolicy
  dsimp only
  split
  · exact keeps_update h
  · exact h

theorem keeps_loadPorts {s₀ s : State} (h : Keeps s₀ s) : Keeps s₀ (loadPorts s) := by
  unfold loadPorts
  dsimp only
  split
  · refine keeps_putDesc ?_
    split
    · exact keeps_putCasConfig (keeps_update h)
    · exact keeps_update h
  · split
    · exact keeps_putCasConfig (keeps_update h)
    · exact keeps_update h

theorem keeps_startSlot {s₀ s : State} {k : Nat} (h : Keeps s₀ s) : Keeps s₀ (startSlot k s) := by
  have h1 : Keeps s₀ (loadDir (loadKeys (loadPolicy s))) := keeps_loadDir (keeps_loadKeys (keeps_loadPolicy h))
  unfold startSlot
  dsimp only
  generalize loadDir (loadKeys (loadPolicy s)) = s1 at h1 ⊢
  exact keeps_loadPorts (keeps_loadImage (keeps_update h1))

theorem keeps_bootNand {s₀ s : State} {b : BootIn} (h : Keeps s₀ s) : Keeps s₀ (bootNand b s) := by
  unfold bootNand
  split
  · exact keeps_enterRecovery h
  · next g _ =>
    split
    · exact keeps_enterRecovery h
    · have hi : Keeps s₀ (nandInit b.nand g s) := keeps_nandInit h
      have hs : Keeps s₀ (chooseSlot (settleSlots (nandInit b.nand g s))).2 := keeps_chooseSlot (keeps_settleSlots hi)
      dsimp only
      generalize nandInit b.nand g s = s1 at hi hs ⊢
      split
      · exact keeps_enterRecovery hi
      · split
        · exact keeps_enterRecovery (keeps_update hi)
        · split <;> rename_i heq
          · rw [heq] at hs; exact keeps_startSlot hs
          · rw [heq] at hs; exact keeps_enterRecovery (keeps_update hs)

theorem keeps_execBoot {s₀ s : State} {b : BootIn} (h : Keeps s₀ s) : KeepsR s₀ (execBoot b s) :=
  KeepsR.next (keeps_ite h (keeps_ite (keeps_haltRom (keeps_ite (keeps_unsealNow (keeps_update (keeps_fixLife h))) (keeps_update
      (keeps_fixLife h)))) (keeps_ite (keeps_ite (keeps_fullTest (keeps_loopback (keeps_ite (keeps_unsealNow (keeps_update (keeps_fixLife h)))
      (keeps_update (keeps_fixLife h))))) (keeps_loopback (keeps_ite (keeps_unsealNow (keeps_update (keeps_fixLife h))) (keeps_update
      (keeps_fixLife h))))) (keeps_ite (keeps_enterRecovery (keeps_ite (keeps_fullTest (keeps_loopback (keeps_ite (keeps_unsealNow (keeps_update
      (keeps_fixLife h))) (keeps_update (keeps_fixLife h))))) (keeps_loopback (keeps_ite (keeps_unsealNow (keeps_update (keeps_fixLife h)))
      (keeps_update (keeps_fixLife h)))))) (keeps_bootNand (keeps_ite (keeps_fullTest (keeps_loopback (keeps_ite (keeps_unsealNow (keeps_update
      (keeps_fixLife h))) (keeps_update (keeps_fixLife h))))) (keeps_loopback (keeps_ite (keeps_unsealNow (keeps_update (keeps_fixLife h)))
      (keeps_update (keeps_fixLife h))))))))))

theorem keeps_powerFailRecord {s₀ s : State} {mode : Mode} {vigil frozen : Bool} (h : Keeps s₀ s) : Keeps s₀ (powerFailRecord mode vigil frozen s) :=
  keeps_saveCounts (keeps_sepWrite h)

theorem keeps_commitKeys {s₀ s : State} (h : Keeps s₀ s) : Keeps s₀ (commitKeys s) :=
  keeps_foldl (fun _ _ h1 => keeps_commitEpmin h1) (keeps_foldl (fun _ _ h1 => keeps_commitTomb h1) h)

theorem keeps_enterHoldup {s₀ s : State} (h : Keeps s₀ s) : Keeps s₀ (enterHoldup s) :=
  keeps_count (keeps_powerFailRecord (keeps_update (keeps_commitKeys (keeps_setMode (keeps_dropAir (keeps_update (keeps_ite (keeps_holdOutputs
      (keeps_sendFail h)) h)))))))

theorem keeps_execHoldupEntry {s₀ s : State} (h : Keeps s₀ s) : KeepsR s₀ (execHoldupEntry s) := by
  unfold execHoldupEntry
  dsimp only
  refine KeepsR.next ?_
  refine keeps_ite h ?_
  split
  · exact keeps_update h
  · exact keeps_update h
  · exact keeps_goOff (keeps_powerFailRecord (keeps_update h))
  · exact keeps_ite (keeps_goOff (keeps_powerFailRecord (keeps_update h))) (keeps_enterHoldup (keeps_update h))

theorem keeps_flushLake {s₀ s : State} (h : Keeps s₀ s) : Keeps s₀ (flushLake s) :=
  keeps_anchorUpdate (keeps_flushMj (keeps_landBring (keeps_iter (fun _ => keeps_landVolume)
    (keeps_iter (fun _ => keeps_landEventChunk) (keeps_iter (fun _ => keeps_landLogChunk) (keeps_iter (fun _ => keeps_landJournalChunk) h))))))

theorem keeps_holdupFlush {s₀ s : State} (h : Keeps s₀ s) : Keeps s₀ (holdupFlush s) :=
  keeps_ite (keeps_update h) (keeps_update (keeps_flushLake (keeps_ite (keeps_landKeyTable h) h)))

theorem keeps_execHoldupFlushComplete {s₀ s : State} {high : Bool} {ochre : Nat} (h : Keeps s₀ s) : KeepsR s₀ (execHoldupFlushComplete high ochre s) :=
  KeepsR.next (keeps_ite h (keeps_ite (keeps_release (keeps_count (keeps_update (keeps_holdupFlush h)))) (keeps_goOff (keeps_update
      (keeps_holdupFlush h)))))

theorem keeps_execPowerRestored {s₀ s : State} (h : Keeps s₀ s) : KeepsR s₀ (execPowerRestored s) :=
  KeepsR.next (keeps_ite h (keeps_ite (keeps_enablePower (keeps_update h)) (keeps_update h)))

theorem keeps_refuseVigil {s₀ s : State} {why : Nat} (h : Keeps s₀ s) : Keeps s₀ (refuseVigil why s) :=
  keeps_count (keeps_update h)

theorem keeps_execVigilRequest {s₀ s : State} (h : Keeps s₀ s) : KeepsR s₀ (execVigilRequest s) :=
  KeepsR.next (keeps_ite h (keeps_ite (keeps_update h) (keeps_ite (keeps_refuseVigil (keeps_update h)) (keeps_ite (keeps_refuseVigil
      (keeps_update h)) (keeps_ite (keeps_refuseVigil (keeps_update h)) (keeps_ite (keeps_update h) (keeps_startDrain (keeps_update h))))))))

theorem keeps_commitEv {s₀ s : State} {e : CommitEv} (h : Keeps s₀ s) : Keeps s₀ (commitEv e s) := by
  have took : ∀ {r : Result}, KeepsR s₀ r → Keeps s₀ (match r with | .next t => t | _ => s) := by
    intro r hr
    split
    · exact hr _ rfl
    · exact h
  cases e with
  | rise => exact keeps_latchWake (keeps_update h)
  | linkUp m rate => exact took (keeps_execMacLinkUp h)
  | linkDown m => exact took (keeps_execMacLinkDown h)
  | frame m f ok => exact took (keeps_execMacFrameReceive h)

theorem keeps_armMac {s₀ s : State} {m : Nat} (h : Keeps s₀ s) : Keeps s₀ (armMac m s) :=
  keeps_ite (keeps_updMac h) (keeps_linkDown h)

theorem keeps_beginCommit {s₀ s : State} (h : Keeps s₀ s) : Keeps s₀ (beginCommit s) :=
  keeps_clampPulses (keeps_update (keeps_resetHostPort (keeps_armMac (keeps_armMac (keeps_update (keeps_setMode (keeps_flushLake h)))))))

theorem keeps_nandAgain {s₀ s : State} (h : Keeps s₀ s) : Keeps s₀ (nandAgain s) :=
  keeps_foldl (fun _ _ h1 => keeps_nandInitTarget h1) (keeps_update h)

theorem keeps_wakeUp {s₀ s : State} {src : Nat} {replay : Bool} {ochre : Nat} (h : Keeps s₀ s) : Keeps s₀ (wakeUp src replay ochre s) :=
  keeps_countIf (keeps_count (keeps_deliverKept (keeps_deliverKept (keeps_ite (keeps_replayBoundaries (keeps_postUnseal (keeps_setMode (keeps_ite
      (keeps_realignRows (keeps_setTime (keeps_update (keeps_nandAgain h)))) (keeps_timeInvalid (keeps_realignRows (keeps_setTime (keeps_update
      (keeps_nandAgain h))))))))) (keeps_postUnseal (keeps_setMode (keeps_ite (keeps_realignRows (keeps_setTime (keeps_update (keeps_nandAgain h))))
      (keeps_timeInvalid (keeps_realignRows (keeps_setTime (keeps_update (keeps_nandAgain h))))))))))))

theorem keeps_execVigilCommit {s₀ s : State} {during : List CommitEv} {ochre : Nat} (h : Keeps s₀ s) : KeepsR s₀ (execVigilCommit during ochre s) := by
  unfold execVigilCommit
  dsimp only
  refine KeepsR.next ?_
  refine keeps_ite h ?_
  split
  · exact keeps_wakeUp (keeps_count (keeps_update (keeps_foldl (fun _ _ h1 => keeps_commitEv h1) (keeps_update (keeps_beginCommit h)))))
  · exact keeps_count (keeps_update (keeps_foldl (fun _ _ h1 => keeps_commitEv h1) (keeps_update (keeps_beginCommit h))))

theorem keeps_execVigilWake {s₀ s : State} {rise : Bool} {ochre : Nat} (h : Keeps s₀ s) : KeepsR s₀ (execVigilWake rise ochre s) := by
  unfold execVigilWake
  dsimp only
  refine KeepsR.next ?_
  refine keeps_ite h ?_
  refine keeps_ite (keeps_ite (keeps_count (keeps_update (keeps_ite (keeps_update h) h))) (keeps_ite (keeps_update h) h)) ?_
  refine keeps_ite ?_ (keeps_ite (keeps_update h) h)
  split
  · exact keeps_wakeUp (keeps_ite (keeps_latchWake (keeps_ite (keeps_update h) h)) (keeps_ite (keeps_update h) h))
  · exact keeps_ite (keeps_latchWake (keeps_ite (keeps_update h) h)) (keeps_ite (keeps_update h) h)

theorem keeps_execInternalReset {s₀ s : State} {ochre : Nat} (h : Keeps s₀ s) : KeepsR s₀ (execInternalReset ochre s) := by
  unfold execInternalReset
  refine KeepsR.next ?_
  refine keeps_ite h ?_
  split
  · exact keeps_release h
  · exact h

theorem keeps_execVidStep {s₀ s : State} {target : BitVec 4} (h : Keeps s₀ s) : KeepsR s₀ (execVidStep target s) :=
  KeepsR.next (keeps_ite h (keeps_ite (keeps_update h) (keeps_count (keeps_update h))))

theorem keeps_execOpminTick {s₀ s : State} (h : Keeps s₀ s) : KeepsR s₀ (execOpminTick s) :=
  KeepsR.next (keeps_ite h (keeps_satNotices (keeps_saveCounts (keeps_update h))))

theorem keeps_execFreeze {s₀ s : State} (h : Keeps s₀ s) : KeepsR s₀ (execFreeze s) :=
  KeepsR.next (keeps_ite h (keeps_count (keeps_sepWrite (keeps_update (keeps_ite (keeps_holdOutputs h) h)))))

theorem keeps_engRecWrite {s₀ s : State} {t : Nat} {b : List Byte} (h : Keeps s₀ s) : Keeps s₀ (engRecWrite t b s).st := by
  unfold engRecWrite
  dsimp only
  refine keeps_ite_st (keeps_EngOut_fail h) ?_
  split
  · exact keeps_EngOut_fail h
  · exact keeps_count (keeps_recEventL h)

theorem keeps_execEventStagingDrain {s₀ s : State} (h : Keeps s₀ s) : KeepsR s₀ (execEventStagingDrain s) :=
  keeps_onClock h (keeps_ite h (keeps_nextClear (keeps_ite (keeps_recEvent (keeps_update (keeps_ite (keeps_foldl (fun _ _ h1 => keeps_ringAppend h1)
      (keeps_update h)) (keeps_recEvent (keeps_update (keeps_foldl (fun _ _ h1 => keeps_ringAppend h1) (keeps_update h))))))) (keeps_ite
      (keeps_foldl (fun _ _ h1 => keeps_ringAppend h1) (keeps_update h)) (keeps_recEvent (keeps_update (keeps_foldl
      (fun _ _ h1 => keeps_ringAppend h1) (keeps_update h))))))))

theorem keeps_testFailed {s₀ s : State} {scope item : Nat} (h : Keeps s₀ s) : Keeps s₀ (testFailed scope item s) :=
  keeps_count (keeps_sepWrite (keeps_update h))

theorem keeps_katStep {s₀ s : State} {item unit : Nat} {ok : Bool} (h : Keeps s₀ s) : Keeps s₀ (katStep item unit ok s) :=
  keeps_ite (keeps_count h) (keeps_ite (keeps_update (keeps_testFailed (keeps_recEvent (keeps_update (keeps_count h))))) (keeps_testFailed
      (keeps_recEvent (keeps_update (keeps_count h)))))

theorem keeps_nextStep {s₀ s : State} {n : Nat} (h : Keeps s₀ s) : Keeps s₀ (nextStep n s) :=
  keeps_ite (keeps_reportTest (keeps_update h)) (keeps_update h)

theorem keeps_execOnlineTestStep {s₀ s : State} {item : Fin 6} {unit : Fin 256} {ok : Bool} (h : Keeps s₀ s) :
    KeepsR s₀ (execOnlineTestStep item unit ok s) :=
  KeepsR.next (keeps_ite h (keeps_ite (keeps_nextStep (keeps_katStep (keeps_update h))) (keeps_ite (keeps_update (keeps_katStep (keeps_update h)))
      (keeps_update (keeps_katStep (keeps_update h))))))

theorem keeps_execBankCopyComplete {s₀ s : State} (h : Keeps s₀ s) : KeepsR s₀ (execBankCopyComplete s) := by
  unfold execBankCopyComplete
  dsimp only
  refine KeepsR.next ?_
  refine keeps_ite h ?_
  split
  · exact keeps_update h
  · exact keeps_nextStep (keeps_update h)
  · exact h

theorem keeps_execBankTestComplete {s₀ s : State} {ok : Bool} (h : Keeps s₀ s) : KeepsR s₀ (execBankTestComplete ok s) :=
  KeepsR.next (keeps_ite h (keeps_ite (keeps_ite (keeps_nextStep (keeps_update (keeps_count h))) (keeps_update (keeps_count h))) (keeps_nextStep
      (keeps_reportTest (keeps_testFailed (keeps_update (keeps_count h)))))))

theorem keeps_loadIr {s₀ s : State} {c : BitVec 6} (h : Keeps s₀ s) : Keeps s₀ (loadIr c s) := keeps_update h

theorem keeps_captureScan {s₀ s : State} (h : Keeps s₀ s) : Keeps s₀ (captureScan s) :=
  keeps_emit (keeps_drawFree h)

theorem keeps_execExtest {s₀ s : State} (h : Keeps s₀ s) : KeepsR s₀ (execExtest s) :=
  KeepsR.next (keeps_ite (keeps_captureScan (keeps_loadIr h)) (keeps_emit (keeps_loadIr h)))

theorem keeps_execDdata {s₀ s : State} (h : Keeps s₀ s) : KeepsR s₀ (execDdata s) := by
  unfold execDdata
  dsimp only
  refine KeepsR.next ?_
  split
  · exact keeps_emit (keeps_update (keeps_loadIr (keeps_update h)))
  · exact keeps_emit (keeps_update (keeps_count (keeps_loadIr (keeps_update h))))
  · exact keeps_emit (keeps_update (keeps_loadIr (keeps_update h)))
  · exact keeps_emit (keeps_update (keeps_loadIr (keeps_update h)))
  · exact keeps_emit (keeps_update (keeps_drawFree (keeps_loadIr (keeps_update h))))

theorem keeps_execDbgen {s₀ s : State} {v : BitVec 32} (h : Keeps s₀ s) : KeepsR s₀ (execDbgen v s) :=
  KeepsR.next (keeps_ite (keeps_loadIr h) (keeps_update (keeps_sepWrite (keeps_closeSessions (keeps_scrub (keeps_update (keeps_loadIr h)))))))

theorem keeps_engUpdBlock {s₀ s : State} {bad : List Nat} {t : Nat} {b : List Byte} (h : Keeps s₀ s) : Keeps s₀ (engUpdBlock bad t b s).st :=
  keeps_ite_st (keeps_EngOut_fail h) (keeps_ite_st (keeps_beginBlock h) (keeps_nextBlock h))

theorem keeps_dropArm {s₀ s : State} {code : Nat} (h : Keeps s₀ s) : Keeps s₀ (dropArm code s) :=
  keeps_putBoot (keeps_updRefuse h)

theorem keeps_execImageActivate {s₀ s : State} (h : Keeps s₀ s) : KeepsR s₀ (execImageActivate s) := by
  unfold execImageActivate
  dsimp only
  refine KeepsR.next ?_
  refine keeps_ite h ?_
  refine keeps_ite (keeps_passRow h) ?_
  refine keeps_ite (keeps_dropArm (keeps_passRow h)) ?_
  split
  · exact keeps_dropArm (keeps_passRow h)
  · exact keeps_ite (keeps_startDrain (keeps_passRow h)) (keeps_dropArm (keeps_passRow h))

theorem keeps_execActivationDrainComplete {s₀ s : State} (h : Keeps s₀ s) : KeepsR s₀ (execActivationDrainComplete s) := by
  unfold execActivationDrainComplete
  dsimp only
  refine keeps_onCores h ?_
  split
  · exact keeps_count (keeps_update (keeps_anchorUpdate (keeps_update (keeps_mapCheckpoint (keeps_flushLake h)))))
  · exact keeps_update (keeps_fallBackTo (keeps_flushLake h))
  · exact h

theorem keeps_engCampCtl {s₀ s : State} {t : Nat} {b : List Byte} (h : Keeps s₀ s) : Keeps s₀ (engCampCtl t b s).st := by
  unfold engCampCtl
  dsimp only
  refine keeps_ite_st (keeps_EngOut_fail h) ?_
  split
  · exact keeps_EngOut_ok (keeps_writeBuf (keeps_campCtl h))
  · exact keeps_campCtl h

theorem keeps_execCampaignActT {s₀ s : State} {id : BitVec 16} (h : Keeps s₀ s) : KeepsR s₀ (execCampaignActT id s) := by
  unfold execCampaignActT
  refine KeepsR.next ?_
  split
  · exact keeps_ite (keeps_campState h) h
  · exact h

theorem keeps_execReservedOpcode {s₀ s : State} {t : Fin 256} {w : BitVec 32} (h : Keeps s₀ s) : KeepsR s₀ (execReservedOpcode t w s) :=
  KeepsR.next (keeps_ite h (keeps_ite (keeps_raise h) (keeps_ite (keeps_raise h) (keeps_raise h))))

theorem keeps_execEcallUnassignedFn {s₀ s : State} {t : Fin 256} {pi : Fin 8} {rt ra : Fin 32} {fn : BitVec 8} (h : Keeps s₀ s) :
    KeepsR s₀ (execEcallUnassignedFn t pi rt ra fn s) :=
  KeepsR.next (keeps_ite h (keeps_ecallG (fun _ _ _ h1 => keeps_EngOut_fail h1) h))

theorem keeps_exec {s₀ s : State} {i : Instr} (h : Keeps s₀ s) : KeepsR s₀ (exec i s) := by
  unfold exec
  split
  · exact keeps_execRefclkLoss h
  · exact KeepsR.next (keeps_ite (keeps_update h) h)
  · exact KeepsR.next (keeps_ite (keeps_postNotice (keeps_stopTx (keeps_update h))) h)
  · exact keeps_execFlitReceive h
  · exact KeepsR.next (keeps_ite (keeps_writeReg h) h)
  · exact KeepsR.next (keeps_ite (keeps_startSnap h) h)
  · exact keeps_onClock h (keeps_ite (keeps_captureCounters (keeps_update h)) h)
  · exact KeepsR.next (keeps_ite (keeps_update h) h)
  · exact KeepsR.next (keeps_ite h (keeps_updRport (keeps_countIf (keeps_countIf h))))
  · exact keeps_execSyncDetect h
  · exact keeps_execLayerReprocess h
  · exact keeps_execRadioFrameReceive h
  · exact keeps_execAckLaunch h
  · exact keeps_execBeaconBuild h
  · exact keeps_execBeaconLaunch h
  · exact keeps_execDownlinkLaunch h
  · exact keeps_execRxLinkUp h
  · exact keeps_onCores h (keeps_ite (keeps_radioLinkFail h) h)
  · exact keeps_onCores h (keeps_ite (keeps_radioLinkFail h) h)
  · exact keeps_onCores h (keeps_ite (keeps_updRport h) h)
  · exact keeps_onCores h (keeps_ite (keeps_postNotice (keeps_updRport h)) h)
  · exact keeps_execRadioTxResume h
  · exact KeepsR.next (keeps_ecall (fun _ _ _ h1 => keeps_engRlaPortCfg h1) h)
  · exact keeps_execPortDescriptorApply h
  · exact KeepsR.next (keeps_ecall (fun _ _ _ h1 => keeps_engRlaQueue h1) h)
  · exact KeepsR.next (keeps_ecall (fun _ _ _ h1 => keeps_engRlaWithdraw h1) h)
  · exact keeps_execLineSampleWord h
  · exact KeepsR.next (keeps_ite h (keeps_updLport h))
  · exact keeps_onCores h (keeps_ite (keeps_postNotice (keeps_updLport h)) h)
  · exact keeps_onCores h (keeps_ite (keeps_updLport h) h)
  · exact keeps_onCores h (keeps_ite (keeps_postNotice (keeps_updLport h)) h)
  · exact keeps_execLineTxResume h
  · exact KeepsR.next (keeps_ite h (keeps_markBusy (keeps_count (keeps_updLport h))))
  · exact keeps_execLineFcReceive h
  · exact KeepsR.next (keeps_lineFrame h)
  · exact KeepsR.next (keeps_lineFrame h)
  · exact KeepsR.next (keeps_lineFrame h)
  · exact keeps_execLineResponseLaunch h
  · exact keeps_execLineAckFrameLaunch h
  · exact keeps_execLineBackoffExpire h
  · exact keeps_execLineResponseReceive h
  · exact keeps_execLineResponseWindowExpire h
  · exact keeps_execLbeaconSend h
  · exact keeps_execTmapIssue h
  · exact keeps_onCores h (keeps_ite (keeps_updLport h) h)
  · exact KeepsR.next (keeps_ecall (fun _ _ _ h1 => keeps_engLmPortCfg h1) h)
  · exact keeps_execLineDescriptorApply h
  · exact KeepsR.next (keeps_ecall (fun _ _ _ h1 => keeps_engLmQueue h1) h)
  · exact KeepsR.next (keeps_ecall (fun _ _ _ h1 => keeps_ite_st (keeps_EngOut_fail h1) (keeps_EngOut_ok (keeps_requestCal h1))) h)
  · exact KeepsR.next (keeps_ecall (fun _ _ _ h1 => keeps_ite_st (keeps_EngOut_fail h1) h1) h)
  · exact KeepsR.next (keeps_ecall (fun _ _ _ h1 => keeps_ite_st (keeps_EngOut_fail h1) (keeps_EngOut_ok (keeps_updLport h1))) h)
  · exact KeepsR.next (keeps_ecall (fun _ _ _ h1 => keeps_ite_st (keeps_EngOut_fail h1) (keeps_EngOut_ok (keeps_updLport h1))) h)
  · exact keeps_onCores h (keeps_ite (keeps_requestCal h) h)
  · exact keeps_execCalStart h
  · exact keeps_onCores h (keeps_ite (keeps_count (keeps_emit (keeps_updLport h))) h)
  · exact keeps_execCalTimeout h
  · exact KeepsR.next (keeps_ite h (keeps_enqueueLine (keeps_updLport h)))
  · exact KeepsR.next (keeps_ecall (fun _ _ _ h1 => keeps_engDirLookup h1) h)
  · exact KeepsR.next (keeps_ecall (fun _ _ _ h1 => keeps_engDirRead h1) h)
  · exact KeepsR.next (keeps_ecall (fun _ _ _ h1 => keeps_engDirInsert h1) h)
  · exact KeepsR.next (keeps_ecall (fun _ _ _ h1 => keeps_engDirSet h1) h)
  · exact KeepsR.next (keeps_ecall (fun _ _ _ h1 => keeps_engDirEpoch h1) h)
  · exact KeepsR.next (keeps_ecall (fun _ _ _ h1 => keeps_engDirCmd h1) h)
  · exact KeepsR.next (keeps_ecall (fun _ _ _ h1 => keeps_engDirRemove h1) h)
  · exact keeps_execDirRelocation h
  · exact keeps_onClock h (keeps_ite h (keeps_update h))
  · exact KeepsR.next (keeps_ite (keeps_enterService (keeps_settleMaint (keeps_update h))) h)
  · exact keeps_execPlausibilityCheck h
  · exact KeepsR.next (keeps_ecall (fun _ _ _ h1 => keeps_ite_st (keeps_EngOut_fail h1) (keeps_EngOut_ok (keeps_update h1))) h)
  · exact KeepsR.next (keeps_ecall (fun _ _ _ h1 => keeps_engIngSlotFill h1) h)
  · exact KeepsR.next (keeps_ecall (fun _ _ _ h1 => keeps_engIngSlotFree h1) h)
  · exact KeepsR.next (keeps_ecall (fun _ _ _ h1 => keeps_engIngStranger h1) h)
  · exact KeepsR.next (keeps_ecall (fun _ _ _ h1 => keeps_ite_st (keeps_EngOut_fail h1) (keeps_EngOut_ok (keeps_update h1))) h)
  · exact keeps_onClock h (keeps_ite (keeps_update h) h)
  · exact keeps_execLedgerBooking h
  · exact keeps_execLedgerBoundary h
  · exact keeps_execLedgerCloseSweep h
  · exact keeps_onClock h (keeps_landJournal h)
  · exact KeepsR.next (keeps_ecall (fun _ _ _ h1 => keeps_engLdgRead h1) h)
  · exact KeepsR.next (keeps_ecall (fun _ _ _ h1 => keeps_engLdgWrite h1) h)
  · exact KeepsR.next (keeps_ecall (fun _ _ _ h1 => keeps_engLdgWrite h1) h)
  · exact KeepsR.next (keeps_ecall (fun _ _ _ h1 => keeps_engLdgWrite h1) h)
  · exact KeepsR.next (keeps_ecall (fun _ _ _ h1 => keeps_engLdgExec h1) h)
  · exact keeps_execMordantSealEffect h
  · exact KeepsR.next (keeps_ite (keeps_update h) (keeps_unsealNow (keeps_update h)))
  · exact KeepsR.next (keeps_ecall (fun _ _ _ h1 => keeps_engLdgExec h1) h)
  · exact keeps_execClockStepApply h
  · exact KeepsR.next (keeps_ecall (fun _ _ _ h1 => keeps_engLdgExec h1) h)
  · exact KeepsR.next (keeps_ecall (fun _ _ _ h1 => keeps_engLdgExec h1) h)
  · exact KeepsR.next (keeps_ecall (fun _ _ _ h1 => keeps_balSet h1) h)
  · exact KeepsR.next (keeps_ecall (fun _ _ _ h1 => keeps_ite_st (keeps_EngOut_fail h1) h1) h)
  · exact KeepsR.next (keeps_ecall (fun _ _ _ h1 => keeps_ite_st (keeps_EngOut_fail h1) (keeps_balConfig h1)) h)
  · exact keeps_execBalanceBooking h
  · exact keeps_execBalanceClose h
  · exact keeps_onCores h (keeps_ite (keeps_update h) h)
  · exact keeps_execBalancePartialReceive h
  · exact keeps_execBalanceStackJudge h
  · exact keeps_execBalancePartialTimeout h
  · exact keeps_execBalanceBitmapApply h
  · exact keeps_execDetachedBookingRelease h
  · exact keeps_execNandOpTimeout h
  · exact keeps_onClock h (keeps_ite (keeps_readDone h) h)
  · exact keeps_execNandProgramComplete h
  · exact keeps_execNandEraseComplete h
  · exact keeps_execZqShortCal h
  · exact keeps_execLakePatrol h
  · exact keeps_execLandingDeadline h
  · exact keeps_execLogReclaim h
  · exact keeps_execLakeCollection h
  · exact keeps_execLedgerGroupWriteback h
  · exact keeps_onClock h (keeps_ite h (keeps_flushMj h))
  · exact keeps_onClock h (keeps_ite (keeps_mapCheckpoint h) h)
  · exact keeps_execLakeRebuild h
  · exact KeepsR.next (keeps_ecall (fun _ _ _ h1 => keeps_ite_st (keeps_EngOut_fail h1) (keeps_setHeack h1)) h)
  · exact KeepsR.next (keeps_ecall (fun _ _ _ h1 => keeps_engLakeHealth h1) h)
  · exact KeepsR.next (keeps_ecall (fun _ _ _ h1 => keeps_engLakeMark h1) h)
  · exact KeepsR.next (keeps_ecall (fun _ _ _ h1 => keeps_engLakeLogRead h1) h)
  · exact KeepsR.next (keeps_ecall (fun _ _ _ h1 => keeps_engLakeVolRead h1) h)
  · exact KeepsR.next (keeps_ecall (fun _ _ _ h1 => keeps_engLakeVolWrite h1) h)
  · exact KeepsR.next (keeps_ecall (fun _ _ _ h1 => keeps_engLakeVolTrim h1) h)
  · exact KeepsR.next (keeps_ecall (fun _ _ _ h1 => keeps_engLakeGrant h1) h)
  · exact KeepsR.next (keeps_ecall (fun _ _ _ h1 => keeps_ite_st (keeps_EngOut_fail h1) (keeps_formatLake h1)) h)
  · exact KeepsR.next (keeps_aluInstr h)
  · exact KeepsR.next (keeps_aluInstr h)
  · exact KeepsR.next (keeps_aluInstr h)
  · exact KeepsR.next (keeps_aluInstr h)
  · exact KeepsR.next (keeps_aluInstr h)
  · exact KeepsR.next (keeps_aluInstr h)
  · exact KeepsR.next (keeps_aluInstr h)
  · exact KeepsR.next (keeps_aluInstr h)
  · exact KeepsR.next (keeps_aluInstr h)
  · exact KeepsR.next (keeps_aluInstr h)
  · exact KeepsR.next (keeps_aluInstr h)
  · exact KeepsR.next (keeps_aluInstr h)
  · exact KeepsR.next (keeps_aluInstr h)
  · exact KeepsR.next (keeps_aluInstr h)
  · exact KeepsR.next (keeps_aluInstr h)
  · exact KeepsR.next (keeps_aluInstr h)
  · exact KeepsR.next (keeps_aluInstr h)
  · exact KeepsR.next (keeps_aluInstr h)
  · exact KeepsR.next (keeps_aluInstr h)
  · exact KeepsR.next (keeps_aluInstr h)
  · exact KeepsR.next (keeps_aluInstr1 h)
  · exact KeepsR.next (keeps_aluInstr1 h)
  · exact KeepsR.next (keeps_aluInstr1 h)
  · exact KeepsR.next (keeps_aluInstr1 h)
  · exact KeepsR.next (keeps_aluInstr h)
  · exact KeepsR.next (keeps_aluInstr h)
  · exact KeepsR.next (keeps_immInstr h)
  · exact KeepsR.next (keeps_immInstr h)
  · exact KeepsR.next (keeps_immInstr h)
  · exact KeepsR.next (keeps_immInstr h)
  · exact KeepsR.next (keeps_immInstr h)
  · exact KeepsR.next (keeps_immInstr h)
  · exact KeepsR.next (keeps_immInstr h)
  · exact KeepsR.next (keeps_issueReg h)
  · exact KeepsR.next (keeps_issueReg h)
  · exact KeepsR.next (keeps_issueReg h)
  · exact KeepsR.next (keeps_issueReg h)
  · exact KeepsR.next (keeps_issueReg h)
  · exact KeepsR.next (keeps_issueReg h)
  · exact KeepsR.next (keeps_issueReg h)
  · exact KeepsR.next (keeps_issueReg h)
  · exact KeepsR.next (keeps_loadInstr h)
  · exact KeepsR.next (keeps_loadInstr h)
  · exact KeepsR.next (keeps_loadInstr h)
  · exact KeepsR.next (keeps_loadInstr h)
  · exact KeepsR.next (keeps_loadInstr h)
  · exact KeepsR.next (keeps_loadInstr h)
  · exact KeepsR.next (keeps_loadInstr h)
  · exact KeepsR.next (keeps_storeInstr h)
  · exact KeepsR.next (keeps_storeInstr h)
  · exact KeepsR.next (keeps_storeInstr h)
  · exact KeepsR.next (keeps_storeInstr h)
  · exact KeepsR.next (keeps_amoInstr h)
  · exact KeepsR.next (keeps_amoInstr h)
  · exact KeepsR.next (keeps_amoInstr h)
  · exact KeepsR.next (keeps_amoInstr h)
  · exact KeepsR.next (keeps_amoInstr h)
  · exact keeps_execFence h
  · exact KeepsR.next (keeps_issue (fun _ _ h1 => keeps_jumpTo h1) h)
  · exact KeepsR.next (keeps_issue (fun _ _ h1 => keeps_jumpTo h1) h)
  · exact KeepsR.next (keeps_issue (fun _ _ h1 => keeps_jumpTo h1) h)
  · exact KeepsR.next (keeps_issue (fun _ _ h1 => keeps_jumpTo h1) h)
  · exact keeps_execEwait h
  · exact KeepsR.next (keeps_issueReg h)
  · exact keeps_execLcall h
  · exact keeps_execLret h
  · exact KeepsR.next (keeps_issueReg h)
  · exact KeepsR.next (keeps_issueReg h)
  · exact KeepsR.next (keeps_issueReg h)
  · exact KeepsR.next (keeps_issueReg h)
  · exact KeepsR.next (keeps_issue (fun _ _ h1 => keeps_raise h1) h)
  · exact keeps_execEret h
  · exact KeepsR.next (keeps_issue (fun _ _ h1 => keeps_retire (keeps_postEvent h1)) h)
  · exact keeps_execCsrr h
  · exact keeps_execCsrw h
  · exact keeps_onClock h (keeps_farReturn h)
  · exact keeps_onClock h (keeps_ite (keeps_completeSlot h) h)
  · exact keeps_execEngineCallComplete h
  · exact keeps_execEventDeliver h
  · exact KeepsR.next (keeps_ite h (keeps_raise (keeps_count (keeps_updThr h))))
  · exact keeps_onCores h (keeps_ite h (keeps_postEvent (keeps_updThr h)))
  · exact keeps_execLegalTimeout h
  · exact KeepsR.next (keeps_ecall (fun _ _ _ h1 => keeps_engMccStart h1) h)
  · exact KeepsR.next (keeps_ecall (fun _ _ _ h1 => keeps_engMccStop h1) h)
  · exact KeepsR.next (keeps_ecall (fun _ _ _ h1 => keeps_engDmaCopy h1) h)
  · exact keeps_execSqTailDoorbell h
  · exact keeps_onClock h (keeps_ite (keeps_updQueue h) (keeps_count h))
  · exact keeps_onClock h (keeps_ite (keeps_update h) (keeps_count h))
  · exact keeps_execCommandFetch h
  · exact keeps_execCommandDeliver h
  · exact keeps_execCompletionWrite h
  · exact keeps_execMsixCoalesceExpire h
  · exact keeps_execCommandTimeout h
  · exact keeps_onClock h (keeps_queueCtl h)
  · exact keeps_onClock h (keeps_queueCtl h)
  · exact keeps_onClock h (keeps_nqCtl h)
  · exact keeps_execNoticeWrite h
  · exact keeps_onClock h (keeps_update (keeps_resetHostPort h))
  · exact keeps_execPciePowerState h
  · exact KeepsR.next (keeps_runBuiltin (fun _ _ h1 => h1) h)
  · exact KeepsR.next (keeps_runBuiltin (fun _ _ h1 => h1) h)
  · exact KeepsR.next (keeps_runBuiltin (fun _ _ h1 => keeps_doSessionOpen h1) h)
  · exact KeepsR.next (keeps_runBuiltin (fun _ _ h1 => keeps_doSessionProve h1) h)
  · exact keeps_execSessionClose h
  · exact KeepsR.next (keeps_runBuiltin (fun _ _ h1 => keeps_ite_host (keeps_HostAns_fail h1) (keeps_update h1)) h)
  · exact KeepsR.next (keeps_runBuiltin (fun _ _ h1 => keeps_doNoticeRoute h1) h)
  · exact KeepsR.next (keeps_runBuiltin (fun _ _ h1 => keeps_ite_host h1 (keeps_HostAns_fail h1)) h)
  · exact KeepsR.next (keeps_runBuiltin (fun _ _ h1 => keeps_ite_host (keeps_HostAns_fail h1) (keeps_formatLake h1)) h)
  · exact keeps_execSessionPendingExpire h
  · exact keeps_execProofLockoutExpire h
  · exact KeepsR.next (keeps_ite (keeps_takeDatagram h) h)
  · exact keeps_execNoticeRouteFlush h
  · exact KeepsR.next (keeps_ecall (fun _ _ _ h1 => keeps_engHpComplete h1) h)
  · exact KeepsR.next (keeps_ecall (fun _ _ _ h1 => keeps_ite_st (keeps_EngOut_fail h1) (keeps_postNotice h1)) h)
  · exact KeepsR.next (keeps_runStandard (fun _ _ h1 => keeps_ldgRead h1) h)
  · exact KeepsR.next (keeps_runStandard (fun _ _ h1 => keeps_throughGate (fun _ h2 => keeps_ldgWrite h2) h1) h)
  · exact KeepsR.next (keeps_runStandard (fun _ _ h1 => keeps_throughGate (fun _ h2 => keeps_ldgExec h2) h1) h)
  · exact keeps_execHostDirInsert h
  · exact KeepsR.next (keeps_runStandard (fun _ _ h1 => keeps_engDirLookup h1) h)
  · exact KeepsR.next (keeps_runStandard (fun _ _ h1 => keeps_engDirRead h1) h)
  · exact keeps_execHostDirSet h
  · exact keeps_execHostDirEpoch h
  · exact keeps_execHostDirCmd h
  · exact keeps_execHostDirRemove h
  · exact KeepsR.next (keeps_runStandard (fun _ _ h1 => keeps_balSet h1) h)
  · exact KeepsR.next (keeps_runStandard (fun _ _ h1 => h1) h)
  · exact KeepsR.next (keeps_runStandard (fun _ _ h1 => keeps_balConfig h1) h)
  · exact KeepsR.next (keeps_runStandard (fun _ _ h1 => keeps_ite_host (keeps_HostAns_fail h1) h1) h)
  · exact KeepsR.next (keeps_runStandard (fun _ _ h1 => keeps_setHeack h1) h)
  · exact KeepsR.next (keeps_runStandard (fun _ _ h1 => keeps_doKeyLoad h1) h)
  · exact KeepsR.next (keeps_runStandard (fun _ _ h1 => keeps_engKeyDerive h1) h)
  · exact KeepsR.next (keeps_runStandard (fun _ _ h1 => keeps_engKeyInvalidate h1) h)
  · exact KeepsR.next (keeps_runStandard (fun _ _ h1 => keeps_engKeyEpoch h1) h)
  · exact KeepsR.next (keeps_runStandard (fun _ _ h1 => h1) h)
  · exact KeepsR.next (keeps_runStandard (fun _ _ h1 => h1) h)
  · exact keeps_execAttest h
  · exact KeepsR.next (keeps_runStandard (fun _ _ h1 => keeps_doImgBlock h1) h)
  · exact KeepsR.next (keeps_runStandard (fun _ _ h1 => keeps_updVerify h1) h)
  · exact KeepsR.next (keeps_runStandard (fun _ _ h1 => keeps_engUpdActivate h1) h)
  · exact KeepsR.next (keeps_runStandard (fun _ _ h1 => keeps_engUpdConfirm h1) h)
  · exact KeepsR.next (keeps_runStandard (fun _ _ h1 => h1) h)
  · exact KeepsR.next (keeps_runStandard (fun _ _ h1 => keeps_ite_host (keeps_HostAns_fail h1) (keeps_putBoot h1)) h)
  · exact KeepsR.next (keeps_runStandard (fun _ _ h1 => keeps_campCtl h1) h)
  · exact KeepsR.next (keeps_runStandard (fun _ _ h1 => h1) h)
  · exact KeepsR.next (keeps_runStandard (fun _ _ h1 => keeps_ite_host (keeps_HostAns_fail h1) (keeps_timeSet h1)) h)
  · exact KeepsR.next (keeps_runStandard (fun _ _ h1 => keeps_selectSource h1) h)
  · exact KeepsR.next (keeps_runStandard (fun _ _ h1 => keeps_ite_host (keeps_HostAns_fail h1) h1) h)
  · exact KeepsR.next (keeps_runStandard (fun _ _ h1 => keeps_ite_host (keeps_HostAns_fail h1) (keeps_writeRow h1)) h)
  · exact KeepsR.next (keeps_ecall (fun _ _ _ h1 => keeps_engGcmSeal h1) h)
  · exact KeepsR.next (keeps_ecall (fun _ _ _ h1 => keeps_engGcmOpen h1) h)
  · exact KeepsR.next (keeps_ecall (fun _ _ _ h1 => keeps_engCryCmac h1) h)
  · exact KeepsR.next (keeps_ecall (fun _ _ _ h1 => keeps_engCrySha384 h1) h)
  · exact KeepsR.next (keeps_ecall (fun _ _ _ h1 => keeps_engEcdsaVerify h1) h)
  · exact KeepsR.next (keeps_ecall (fun _ _ _ h1 => keeps_engCryAttest h1) h)
  · exact KeepsR.next (keeps_ecall (fun _ _ _ h1 => keeps_engKeyLoad h1) h)
  · exact KeepsR.next (keeps_ecall (fun _ _ _ h1 => keeps_engKeyLoad h1) h)
  · exact KeepsR.next (keeps_ecall (fun _ _ _ h1 => keeps_engKeyDerive h1) h)
  · exact KeepsR.next (keeps_ecall (fun _ _ _ h1 => keeps_engKeyInvalidate h1) h)
  · exact KeepsR.next (keeps_ecall (fun _ _ _ h1 => keeps_engKeyInvalidate h1) h)
  · exact KeepsR.next (keeps_ite h (keeps_ite (keeps_commitTomb h) h))
  · exact KeepsR.next (keeps_ecall (fun _ _ _ h1 => keeps_engKeyEpoch h1) h)
  · exact keeps_execEpminCommit h
  · exact KeepsR.next (keeps_ecall (fun _ _ _ h1 => keeps_engKeyEpoch h1) h)
  · exact KeepsR.next (keeps_ecall (fun _ _ _ h1 => keeps_engKeyEpoch h1) h)
  · exact keeps_onClock h (keeps_ite h (keeps_landKeyTable h))
  · exact keeps_execBroadcastPreviousExpire h
  · exact KeepsR.next (keeps_ecall (fun _ _ _ h1 => keeps_engCycleWr h1) h)
  · exact KeepsR.next (keeps_ecall (fun _ _ _ h1 => keeps_engCycleWr h1) h)
  · exact KeepsR.next (keeps_ecall (fun _ _ _ h1 => keeps_engCycleWr h1) h)
  · exact KeepsR.next (keeps_ecall (fun _ _ _ h1 => keeps_engCycleRd h1) h)
  · exact KeepsR.next (keeps_ecall (fun _ _ _ h1 => keeps_engCycleRd h1) h)
  · exact keeps_onClock h (keeps_update h)
  · exact keeps_execTimeSample h
  · exact keeps_execTimeSourceLoss h
  · exact keeps_execHoldoverExpire h
  · exact keeps_execCycleEvent h
  · exact keeps_execPulseRow h
  · exact keeps_execPulseEnd h
  · exact KeepsR.next (keeps_ite h (keeps_sendOn (keeps_updCport h)))
  · exact keeps_execTsync h
  · exact keeps_execMacLinkUp h
  · exact keeps_execMacLinkDown h
  · exact keeps_execMacFrameReceive h
  · exact keeps_execXoffRefresh h
  · exact keeps_execMacPauseExpire h
  · exact keeps_execMacTxComplete h
  · exact KeepsR.next (keeps_ecall (fun _ _ _ h1 => keeps_engMacTx h1) h)
  · exact KeepsR.next (keeps_ecall (fun _ _ _ h1 => keeps_engMacTx h1) h)
  · exact KeepsR.next (keeps_ecall (fun _ _ _ h1 => keeps_engMacTx h1) h)
  · exact KeepsR.next (keeps_ecall (fun _ _ _ h1 => keeps_engMacRxpost h1) h)
  · exact keeps_execHello h
  · exact keeps_execTopo h
  · exact keeps_execAssign h
  · exact keeps_execMsg h
  · exact keeps_execBcast h
  · exact keeps_execBarrier h
  · exact keeps_execSnap h
  · exact keeps_execRow h
  · exact keeps_execRframe h
  · exact keeps_execRdecide h
  · exact keeps_execMirror h
  · exact keeps_execMack h
  · exact keeps_execResync h
  · exact keeps_execPartmap h
  · exact keeps_execLfetch h
  · exact KeepsR.next (keeps_takeWord (fun _ h1 => keeps_updCport h1) h)
  · exact keeps_execLinkRetry h
  · exact KeepsR.next (keeps_takeWord (fun _ h1 => keeps_pump (keeps_updCport h1)) h)
  · exact keeps_execHeartbeatReceive h
  · exact keeps_execHeartbeatSend h
  · exact keeps_execHeartbeatMiss h
  · exact keeps_execFailWord h
  · exact keeps_execTakeover h
  · exact KeepsR.next (keeps_ite (keeps_sendHello (keeps_updCport h)) h)
  · exact keeps_execRemoteDecisionExpire h
  · exact keeps_execMirrorAckTimeout h
  · exact keeps_execAutoHandover h
  · exact keeps_execBarrierTimeout h
  · exact keeps_execSnapshotTimeout h
  · exact keeps_execRowConfirmTimeout h
  · exact keeps_execClassbHoldRelease h
  · exact KeepsR.next (keeps_ite (keeps_becomeActive h) h)
  · exact KeepsR.next (keeps_ite h (keeps_postNotice (keeps_update h)))
  · exact KeepsR.next (keeps_ecall (fun _ _ _ h1 => keeps_engCasSend h1) h)
  · exact KeepsR.next (keeps_ecall (fun _ _ _ h1 => keeps_engCasSend h1) h)
  · exact KeepsR.next (keeps_ecall (fun _ _ _ h1 => keeps_engCasSend h1) h)
  · exact KeepsR.next (keeps_ecall (fun _ _ _ h1 => keeps_engCasSend h1) h)
  · exact KeepsR.next (keeps_ecall (fun _ _ _ h1 => keeps_engCasBarrier h1) h)
  · exact KeepsR.next (keeps_ecall (fun _ _ _ h1 => keeps_engCasBcast h1) h)
  · exact KeepsR.next (keeps_ecall (fun _ _ _ h1 => keeps_engCasBcast h1) h)
  · exact KeepsR.next (keeps_ecall (fun _ _ _ h1 => keeps_engCasSnapshot h1) h)
  · exact keeps_execStackSnapshot h
  · exact KeepsR.next (keeps_ite h (keeps_enablePower (keeps_update h)))
  · exact KeepsR.next (keeps_ite (keeps_release h) h)
  · exact KeepsR.next (keeps_ite (keeps_count (keeps_sepWrite (keeps_update h))) h)
  · exact KeepsR.next (keeps_ite (keeps_enablePower h) h)
  · exact KeepsR.next (keeps_ite (keeps_sepWrite (keeps_update h)) h)
  · exact KeepsR.next (keeps_ite h (keeps_update (keeps_goOff h)))
  · exact keeps_execBoot h
  · exact keeps_execHoldupEntry h
  · exact keeps_execHoldupFlushComplete h
  · exact keeps_execPowerRestored h
  · exact keeps_execVigilRequest h
  · exact keeps_execVigilCommit h
  · exact keeps_execVigilWake h
  · exact keeps_execInternalReset h
  · exact keeps_execVidStep h
  · exact keeps_execOpminTick h
  · exact KeepsR.next (keeps_ite h (keeps_update h))
  · exact keeps_execFreeze h
  · exact KeepsR.next (keeps_ecall (fun _ _ _ h1 => keeps_engRecWrite h1) h)
  · exact keeps_execEventStagingDrain h
  · exact KeepsR.next (keeps_ecall (fun _ _ _ h1 => keeps_engLdgExec h1) h)
  · exact keeps_execOnlineTestStep h
  · exact keeps_execBankCopyComplete h
  · exact keeps_execBankTestComplete h
  · exact KeepsR.next (keeps_ite (keeps_update h) h)
  · exact KeepsR.next (keeps_update h)
  · exact keeps_execExtest h
  · exact KeepsR.next (keeps_captureScan (keeps_loadIr h))
  · exact KeepsR.next (keeps_emit (keeps_loadIr h))
  · exact KeepsR.next (keeps_emit (keeps_loadIr h))
  · exact KeepsR.next (keeps_loadIr (keeps_update h))
  · exact keeps_execDdata h
  · exact keeps_execDbgen h
  · exact KeepsR.next (keeps_ite (keeps_update (keeps_loadIr h)) (keeps_loadIr h))
  · exact KeepsR.next (keeps_emit (keeps_loadIr h))
  · exact KeepsR.next (keeps_ecall (fun _ _ _ h1 => keeps_engUpdBlock h1) h)
  · exact KeepsR.next (keeps_ecall (fun _ _ _ h1 => keeps_engUpdBlock h1) h)
  · exact KeepsR.next (keeps_ecall (fun _ _ _ h1 => keeps_ite_st (keeps_EngOut_fail h1) (keeps_updVerify h1)) h)
  · exact KeepsR.next (keeps_ecall (fun _ _ _ h1 => keeps_engUpdActivate h1) h)
  · exact KeepsR.next (keeps_ecall (fun _ _ _ h1 => keeps_engUpdConfirm h1) h)
  · exact KeepsR.next (keeps_ecall (fun _ _ _ h1 => keeps_engUpdConfirm h1) h)
  · exact KeepsR.next (keeps_ecall (fun _ _ _ h1 => keeps_engUpdConfirm h1) h)
  · exact keeps_execImageActivate h
  · exact keeps_execActivationDrainComplete h
  · exact KeepsR.next (keeps_ite (keeps_beginFallBack h) h)
  · exact keeps_onClock h (keeps_storeUnit h)
  · exact keeps_onClock h (keeps_verifyStart h)
  · exact KeepsR.next (keeps_ecall (fun _ _ _ h1 => keeps_engCampCtl h1) h)
  · exact KeepsR.next (keeps_ecall (fun _ _ _ h1 => keeps_engCampCtl h1) h)
  · exact KeepsR.next (keeps_ecall (fun _ _ _ h1 => keeps_engCampCtl h1) h)
  · exact KeepsR.next (keeps_ecall (fun _ _ _ h1 => keeps_engCampCtl h1) h)
  · exact KeepsR.next (keeps_ecall (fun _ _ _ h1 => keeps_engCampCtl h1) h)
  · exact KeepsR.next (keeps_ecall (fun _ _ _ h1 => keeps_engCampCtl h1) h)
  · exact KeepsR.next (keeps_ecall (fun _ _ _ h1 => keeps_engCampCtl h1) h)
  · exact keeps_execCampaignActT h
  · exact keeps_execReservedOpcode h
  · exact keeps_execEcallUnassignedFn h
  · exact KeepsR.next (keeps_ite (keeps_sendHello (keeps_portDown h)) h)

theorem keeps_slewCycle {s₀ s : State} (h : Keeps s₀ s) : Keeps s₀ (slewCycle s) :=
  keeps_ite h (keeps_ite (keeps_update (keeps_setAdj h)) (keeps_update h))

theorem keeps_advanceTai {s₀ s : State} (h : Keeps s₀ s) : Keeps s₀ (advanceTai s) :=
  keeps_ite (keeps_update h) (keeps_update h)

theorem keeps_tick {s₀ s : State} (h : Keeps s₀ s) : Keeps s₀ (tick s) :=
  keeps_ite h (keeps_mcc (keeps_slewCycle (keeps_advanceTai h)))

/-! ## What every step keeps -/

/-- Every step keeps programmed OTP bits and canonical memories; the queue is the step's own. -/
theorem step_keeps {s u : State} (h : step s = .next u) :
    (∀ a i, s.otpBit a i = true → u.otpBit a i = true) ∧ (s.memoryWf = true → u.memoryWf = true) := by
  unfold step at h
  split at h
  · cases h
    exact (keeps_tick (Keeps.refl s)).2
  · next c l _ => exact (keeps_exec (Keeps.refl { s with pending := l }) u h).2

/-- Settles O5: each operation of the model writes the memories by operations that keep canonical form. -/
theorem stepsKeepMemoriesCanonical : Obligations.StepsKeepMemoriesCanonical := fun _ _ hw h => (step_keeps h).2 hw

/-- Settles O6: the OTP array changes by programming alone, which sets bits. -/
theorem otpBitsAreNeverCleared : Obligations.OtpBitsAreNeverCleared := fun _ _ a i h hb => (step_keeps h).1 a i hb

/-- Settles O7: no operation that a command calls touches the queue. -/
theorem commandsLeaveTheQueue : Obligations.CommandsLeaveTheQueue := fun _ s u h => (keeps_exec (Keeps.refl s) u h).1

end Sys2Proof.Machine

/-! PROOFS. The Akzil instruction set: immediates and moves, loads and atomics of DMEM, jumps, SYS instructions and CSR accesses. -/

namespace Sys2Proof.Machine

/-! ## The step and the memories at reset -/

/-- Settles O1. -/
theorem stepRunsFront : Obligations.StepRunsFront := by
  intro c l s h
  unfold step
  rw [h]

/-- Settles O4. -/
theorem resetMemoriesCanonical : Obligations.ResetMemoriesCanonical :=
  ⟨rfl, fun shared _ => by cases shared <;> rfl⟩

/-! ## What an issued instruction leaves -/

/-- An instruction that issues does what its action does to its thread. -/
theorem does_issue {t pi : Nat} {c : Instr} {s : State} {act : Thread → State → State} {P : State → Prop} (h : s.issuesAt t pi = true)
    (hc : exec c s = .next (issue t pi act s)) (hP : P (act (s.thr t) s)) : Does c s P :=
  ⟨_, hc, by rwa [issue_issuesAt t pi act s h]⟩

/-- A thread that issues is in RUN and is not leaving. -/
theorem issuesAt_run {t pi : Nat} {s : State} (h : s.issuesAt t pi = true) :
    (s.thr t).st = .run ∧ (s.thr t).exiting = false ∧ ((s.thr t).stopAsked = false ∨ (s.thr t).level = .legal) := by
  simp only [State.issuesAt, State.fetches, Bool.and_eq_true] at h
  exact Thread.issues_run h.1.1.1.1.2

/-- A thread that is not leaving stays as it is at an instruction boundary, in whatever state. -/
theorem settle_staying (t : Nat) (s : State) (he : (s.thr t).exiting = false) (hq : (s.thr t).stopAsked = false ∨ (s.thr t).level = .legal) :
    settle t s = s := by
  unfold settle
  dsimp only
  rw [he]
  rcases hq with h | h <;> simp [h]

/-- A thread replaced by one that is not leaving, with the count of the instruction, is a jump. -/
theorem jumps_setThr {t : Nat} {th : Thread} {s : State} (he : th.exiting = false) (hq : th.stopAsked = false ∨ th.level = .legal) :
    Jumps t th s (settle t (count (kMcc t 0) (setThr t th s))) := by
  rw [settle_staying]
  · exact turns_setThr t (kMcc t 0) th s
  · simpa using he
  · simpa using hq

/-- The next word, for an instruction that leaves the thread as `th`, not leaving. -/
theorem retires_of_staying {t : Nat} {th : Thread} {s : State} (he : th.exiting = false) (hq : th.stopAsked = false ∨ th.level = .legal) :
    Retires t th s (retire t (setThr t th s)) := by
  have hput : updThr t (fun th => { th with pc := th.pc + 4 }) (setThr t th s)
      = { s with mcc.threads := (s.mcc.threads.put {} t th).put {} t { th with pc := th.pc + 4 } } := by
    unfold updThr
    rw [thr_setThr_self]
    rfl
  unfold retire
  rw [settle_staying, hput]
  · refine ⟨Map.get_put_self _ _ _ _, fun v hv => ?_, fun j => ?_, rfl⟩
    · exact (Map.get_put_ne _ _ _ hv).trans (Map.get_put_ne _ _ _ hv)
    · rw [counter_count]; rfl
  · rw [hput]; simpa [State.thr] using he
  · rw [hput]; simpa [State.thr] using hq

/-! ## Immediates and moves (R256) -/

/-- An instruction of the immediate format. -/
theorem does_imm {t pi rd ra : Nat} {c : Instr} {s : State} {f : Word → Word} {w : Word} (h : s.issuesAt t pi = true)
    (hc : exec c s = .next (immInstr f t pi rd ra s)) (hw : f ((s.thr t).reg ra) = w) : Does c s (Retires t ((s.thr t).setReg rd w) s) :=
  does_writeReg h hc hw

/-- The immediate at its quarter is the immediate shifted there. -/
theorem quarter_eq (hw : Nat) (q : BitVec 16) : quarter hw q.toNat = q.setWidth 64 <<< (16 * hw) := by
  apply BitVec.eq_of_toNat_eq
  have hq : q.toNat < 2 ^ 64 := Nat.lt_trans q.isLt (by decide)
  rw [BitVec.toNat_shiftLeft, BitVec.toNat_setWidth, Nat.mod_eq_of_lt hq, Nat.shiftLeft_eq]
  exact BitVec.toNat_ofNat _ _

theorem getLsbD_quarter (hw : Fin 4) (q : BitVec 16) (k : Nat) (hk : k < 64) :
    (quarter hw q.toNat).getLsbD k = (decide (16 * hw.val ≤ k) && q.getLsbD (k - 16 * hw.val)) := by
  rw [quarter_eq, BitVec.getLsbD_shiftLeft, BitVec.getLsbD_setWidth]
  by_cases h : 16 * hw.val ≤ k
  · simp [h, hk, show ¬ k < 16 * hw.val by omega, show k - 16 * hw.val < 64 by omega]
  · simp [h, show k < 16 * hw.val by omega]

/-- MOVK replaces one quarter of the register. -/
theorem getLsbD_movk (hw : Fin 4) (q : BitVec 16) (a : Word) (k : Nat) (hk : k < 64) :
    ((a &&& ~~~ quarter hw 0xFFFF) ||| quarter hw q.toNat).getLsbD k
      = if 16 * hw.val ≤ k ∧ k < 16 * hw.val + 16 then q.getLsbD (k - 16 * hw.val) else a.getLsbD k := by
  have hones : (quarter hw 0xFFFF).getLsbD k = (decide (16 * hw.val ≤ k) && (BitVec.allOnes 16).getLsbD (k - 16 * hw.val)) :=
    getLsbD_quarter hw (BitVec.allOnes 16) k hk
  rw [BitVec.getLsbD_or, BitVec.getLsbD_and, BitVec.getLsbD_not, getLsbD_quarter hw q k hk, hones, BitVec.getLsbD_allOnes]
  by_cases hlow : 16 * hw.val ≤ k
  · by_cases hin : k < 16 * hw.val + 16
    · simp [hlow, hin, show k - 16 * hw.val < 16 by omega]
    · have hq : q.getLsbD (k - 16 * hw.val) = false := BitVec.getLsbD_of_ge _ _ (by omega)
      simp [hk, hlow, hin, hq, show ¬ k - 16 * hw.val < 16 by omega]
  · simp [hk, hlow]

/-- Settles O9: each immediate or move instruction writes the function of its rule. -/
theorem immediateAndMoveResults : Obligations.ImmediateAndMoveResults := by
  intro s t pi rd ra imm n hw q h th a i go
  have hi : sext 13 imm.toNat = i := sext_toNat (by decide) imm
  have imms : ∀ {c : Instr} {f : Word → Word} {w : Word}, exec c s = .next (immInstr f t pi rd ra s) → f a = w → go c w :=
    fun hc hf => does_imm h hc hf
  exact ⟨imms rfl (by rw [hi]), imms rfl (by rw [hi]), imms rfl (by rw [hi]), imms rfl (by rw [hi]), imms rfl rfl, imms rfl rfl, imms rfl rfl,
    does_writeReg h rfl (quarter_eq hw q), does_writeReg h rfl (by rw [quarter_eq]),
    ⟨_, does_writeReg h rfl rfl, fun k hk => getLsbD_movk hw q _ k hk⟩⟩

/-! ## Loads from DMEM (R245 to R248) -/

/-- The effective address is ra plus the sign-extended immediate. -/
theorem effAddr_eq (th : Thread) (ra : Nat) (imm : BitVec 13) : effAddr th ra imm = th.reg ra + imm.signExtend 64 := by
  unfold effAddr
  rw [sext_toNat (by decide)]

/-- The model's sign extension of a number's low bits is the bit vector's own. -/
theorem sext_eq {w : Nat} (hw : 0 < w) (n : Nat) : sext w n = (BitVec.ofNat w n).signExtend 64 := by
  rw [← sext_toNat hw, BitVec.toNat_ofNat]
  unfold sext
  rw [Nat.mod_mod]

/-- An aligned load from steady words of DMEM that hold no poison writes rd with the bytes. -/
theorem does_load {size t pi rd ra k : Nat} {sx : Bool} {imm : BitVec 13} {c : Instr} {s : State} {v : Word} (h : s.issuesAt t pi = true)
    (ha : ((s.thr t).reg ra + imm.signExtend 64).toNat % size = 0)
    (hp : (s.thr t).place t ((s.thr t).reg ra + imm.signExtend 64).toNat size = some (.dmem k))
    (hu : s.poisoned (.dmem k) size = false) (hs : s.steady (.dmem k) size = true)
    (hc : exec c s = .next (loadInstr size sx t pi rd ra imm s)) (hv : loadedWord sx (readBytes s.mcc.dmem k size) = v) :
    Does c s (Retires t ((s.thr t).setReg rd v) s) := by
  obtain ⟨-, he, hq⟩ := issuesAt_run h
  refine does_issue h hc ?_
  dsimp only
  rw [effAddr_eq, if_neg (fun hn => hn ha), hp]
  dsimp only
  rw [hu, if_neg Bool.false_ne_true, readPlace_steady _ _ s hs, ← hv]
  exact retires_of_staying (by simpa using he) (by simpa using hq)

/-- A sign-extended load of `z` bytes. -/
theorem loadedWord_signed (z : Nat) (m : Map Byte) (k : Nat) (hz : 0 < z) :
    loadedWord true (readBytes m k z) = (BitVec.ofNat (8 * z) (ofLe (readBytes m k z))).signExtend 64 := by
  unfold loadedWord
  rw [if_pos rfl, length_readBytes]
  exact sext_eq (by omega) _

/-- Settles O11. -/
theorem localLoads : Obligations.LocalLoads := by
  refine ⟨fun s t pi rd ra imm k h ha hp hu hs => ⟨?_, ?_⟩, fun s t pi rd ra imm k h ha hp hu hs => ⟨?_, ?_⟩,
    fun s t pi rd ra imm k h ha hp hu hs => ⟨?_, ?_⟩, fun s t pi rd ra imm k h ha hp hu hs => ?_⟩
  · exact does_load h ha hp hu hs rfl rfl
  · exact does_load h ha hp hu hs rfl (loadedWord_signed 1 _ _ (by decide))
  · exact does_load h ha hp hu hs rfl rfl
  · exact does_load h ha hp hu hs rfl (loadedWord_signed 2 _ _ (by decide))
  · exact does_load h ha hp hu hs rfl rfl
  · exact does_load h ha hp hu hs rfl (loadedWord_signed 4 _ _ (by decide))
  · exact does_load h ha hp hu hs rfl rfl

/-! ## Atomics on DMEM (R247) -/

/-- Byte `j` of a register's little-endian bytes. -/
theorem getD_le (n : Nat) (v : Word) (j : Nat) (hj : j < n) : (le n v.toNat).getD j 0 = v.extractLsb' (8 * j) 8 := by
  have hl : j < (le n v.toNat).length := by rwa [length_le]
  rw [List.getD_eq_getElem?_getD, List.getElem?_eq_getElem hl, Option.getD_some, getElem_le]
  apply BitVec.eq_of_toNat_eq
  rw [BitVec.extractLsb'_toNat, Nat.shiftRight_eq_div_pow, Nat.pow_mul]
  exact BitVec.toNat_ofNat _ _

/-- Bytes of a register stored in a memory, and the bytes around them. -/
theorem get_writeBytes_le (m : Map Byte) (k n : Nat) (v : Word) :
    (∀ j, j < n → (writeBytes m k (le n v.toNat)).get 0 (k + j) = v.extractLsb' (8 * j) 8) ∧
    (∀ a, a < k ∨ k + n ≤ a → (writeBytes m k (le n v.toNat)).get 0 a = m.get 0 a) :=
  ⟨fun j hj => by rw [get_writeBytes_in _ _ _ _ (by rwa [length_le]), getD_le n v j hj],
    fun a ha => get_writeBytes_out _ _ _ _ (by rwa [length_le])⟩

/-- Settles O13: one argument for every operation, whose new value is `amoNew`'s. -/
theorem localAmos : Obligations.LocalAmos := by
  intro s t pi rd ra rb k h ha hp hu hs th b old does
  obtain ⟨-, he, hq⟩ := issuesAt_run h
  have amo : ∀ {c : Instr} (op : Nat) {new : Word}, exec c s = .next (amoInstr op t pi rd ra rb s) → amoNew op old b (th.reg rd) = new → does c new := by
    rintro c op _ hc rfl
    refine does_issue h hc ?_
    dsimp only
    rw [if_neg (fun hn => hn ha), hp]
    dsimp only
    rw [hu, if_neg Bool.false_ne_true, readPlace_steady _ _ s hs]
    obtain ⟨hin, hout⟩ := get_writeBytes_le s.mcc.dmem k 8 (amoNew op old b (th.reg rd))
    have hr := retires_of_staying (t := t) (th := th.setReg rd old) (s := storeAt (.dmem k) (le 8 (amoNew op old b (th.reg rd)).toNat) s)
      (by simpa using he) (by simpa using hq)
    have hm : (retire t (setThr t (th.setReg rd old) (storeAt (.dmem k) (le 8 (amoNew op old b (th.reg rd)).toNat) s))).mcc.dmem
        = writeBytes s.mcc.dmem k (le 8 (amoNew op old b (th.reg rd)).toNat) := by
      obtain ⟨-, -, -, hu⟩ := hr
      rw [hu]
      rfl
    refine ⟨?_, fun j hj => ?_, fun a ha => ?_⟩
    · have hst := congrArg (fun m : Map Byte => { s with mcc.dmem := m }) hm
      exact (congrArg (fun z => Retires t (th.setReg rd old) z _) hst).mpr hr
    · exact (congrArg (fun m => Map.get m 0 (k + j)) hm).trans (hin j hj)
    · exact (congrArg (fun m => Map.get m 0 a) hm).trans (hout a ha)
  exact ⟨amo 0 rfl rfl, amo 1 rfl rfl, amo 2 rfl rfl, amo 3 rfl rfl, amo 4 rfl rfl⟩

end Sys2Proof.Machine

namespace Sys2Proof.Machine

/-! ## Threads after an instruction -/

theorem Turns.dmem {t k : Nat} {th : Thread} {s u : State} (h : Turns t k th s u) : u.mcc.dmem = s.mcc.dmem := by
  obtain ⟨-, -, -, hu⟩ := h
  rw [hu]

theorem Turns.shared {t k : Nat} {th : Thread} {s u : State} (h : Turns t k th s u) : u.mcc.shared = s.mcc.shared := by
  obtain ⟨-, -, -, hu⟩ := h
  rw [hu]

theorem Turns.queues {t k : Nat} {th : Thread} {s u : State} (h : Turns t k th s u) : u.mcc.queues = s.mcc.queues := by
  obtain ⟨-, -, -, hu⟩ := h
  rw [hu]

/-- The next word, for a thread that is not leaving and keeps the rest. -/
theorem retires_self {t : Nat} {s : State} (he : (s.thr t).exiting = false) (hq : (s.thr t).stopAsked = false ∨ (s.thr t).level = .legal) :
    Retires t (s.thr t) s (retire t s) :=
  jumps_setThr (th := { s.thr t with pc := (s.thr t).pc + 4 }) he hq

/-- An instruction boundary touches only the marks with which a thread leaves. -/
theorem thr_settle (t : Nat) (s : State) : ∃ st tk ex sa,
    (settle t s).thr t = { s.thr t with st := st, tookRef := tk, exiting := ex, stopAsked := sa } := by
  have park : ∀ u : State, ∃ st tk ex sa,
      (setThr t { s.thr t with st := .idle, tookRef := none, exiting := false, stopAsked := false } u).thr t
        = { s.thr t with st := st, tookRef := tk, exiting := ex, stopAsked := sa } :=
    fun u => ⟨_, _, _, _, thr_setThr_self t _ u⟩
  unfold settle parkThread
  dsimp only
  by_cases hb : (s.thr t).busy = true ∨ ¬((s.thr t).st = .run ∨ (s.thr t).st = .wait)
  · rw [if_pos hb]
    exact ⟨_, _, _, _, rfl⟩
  · rw [if_neg hb]
    by_cases hl : (s.thr t).exiting = true ∨ (s.thr t).stopAsked = true ∧ (s.thr t).level ≠ .legal
    · rw [if_pos hl]
      exact park _
    · rw [if_neg hl]
      exact ⟨_, _, _, _, rfl⟩

@[simp] theorem Thread.setSlot_regs (th : Thread) (i : Nat) (x : Slot) : (th.setSlot i x).regs = th.regs := rfl
@[simp] theorem Thread.setSlot_pc (th : Thread) (i : Nat) (x : Slot) : (th.setSlot i x).pc = th.pc := rfl
@[simp] theorem Thread.setSlot_st (th : Thread) (i : Nat) (x : Slot) : (th.setSlot i x).st = th.st := rfl
@[simp] theorem Thread.setSlot_level (th : Thread) (i : Nat) (x : Slot) : (th.setSlot i x).level = th.level := rfl
@[simp] theorem Thread.setSlot_exiting (th : Thread) (i : Nat) (x : Slot) : (th.setSlot i x).exiting = th.exiting := rfl
@[simp] theorem Thread.setSlot_stopAsked (th : Thread) (i : Nat) (x : Slot) : (th.setSlot i x).stopAsked = th.stopAsked := rfl
@[simp] theorem Thread.reg_setSlot (th : Thread) (i r : Nat) (x : Slot) : (th.setSlot i x).reg r = th.reg r := rfl

/-- A part whose cores run has its clocks. -/
theorem clocked_of_coresRun {s : State} (h : s.coresRun = true) : s.clocked = true := by
  simp only [State.coresRun, Bool.and_eq_true, Bool.or_eq_true, beq_iff_eq] at h
  obtain ⟨hm, hf⟩ := h
  unfold State.clocked
  rw [hf, Bool.and_true, Bool.and_eq_true]
  rcases hm with (h | h) | h <;> rw [h] <;> exact ⟨rfl, rfl⟩

/-- An event outside an instruction, while the cores run. -/
theorem does_onClock {c : Instr} {s u : State} {P : State → Prop} (hr : s.coresRun = true) (hc : exec c s = onClock s u) (hP : P u) : Does c s P :=
  ⟨u, by rw [hc, onClock, if_pos (clocked_of_coresRun hr)], hP⟩

theorem does_onCores {c : Instr} {s u : State} {P : State → Prop} (hr : s.coresRun = true) (hc : exec c s = onCores s u) (hP : P u) : Does c s P :=
  ⟨u, by rw [hc, onCores, if_pos hr], hP⟩

/-! ## Far accesses (R247, R248) -/

/-- A load on shared SRAM takes a slot and stalls its thread. -/
theorem does_farLoad {s : State} {t pi rd ra o i z : Nat} {imm : BitVec 13} {sx : Bool} {c : Instr} (h : s.issuesAt t pi = true)
    (ha : ((s.thr t).reg ra + imm.signExtend 64).toNat % z = 0)
    (hp : (s.thr t).place t ((s.thr t).reg ra + imm.signExtend 64).toNat z = some (.shared o))
    (hi : (s.thr t).pick = some i) (hc : exec c s = .next (loadInstr z sx t pi rd ra imm s)) :
    Does c s (fun u => (u.thr t).st = .stall (.farLoad i rd) ∧ (u.thr t).pc = (s.thr t).pc ∧ (u.thr t).regs = (s.thr t).regs ∧
      ((u.thr t).slot i).pend = some (.farLoad (0x10000000 + o) z sx) ∧ u.mcc.shared = s.mcc.shared) := by
  refine does_issue h hc ?_
  dsimp only
  rw [effAddr_eq, if_neg (fun hn => hn ha), hp]
  dsimp only
  rw [hi]
  dsimp only [stallThread, takeFar]
  rw [thr_updThr_self, thr_count, thr_updThr_self]
  exact ⟨rfl, rfl, rfl, by simp [Thread.slot, Thread.setSlot], rfl⟩

/-- A store to shared SRAM writes its bytes, takes a slot and goes on. -/
theorem does_farStore {s : State} {t pi rs ra o i z : Nat} {imm : BitVec 13} {c : Instr} (h : s.issuesAt t pi = true)
    (ha : ((s.thr t).reg ra + imm.signExtend 64).toNat % z = 0)
    (hp : (s.thr t).place t ((s.thr t).reg ra + imm.signExtend 64).toNat z = some (.shared o))
    (hi : (s.thr t).pick = some i) (hc : exec c s = .next (storeInstr z t pi rs ra imm s)) :
    Does c s (fun u => (u.thr t).st = .run ∧ (u.thr t).pc = (s.thr t).pc + 4 ∧ (u.thr t).regs = (s.thr t).regs ∧ ((u.thr t).slot i).pend = some .farStore ∧
        (∀ j, j < z → u.byteAt true (o + j) = ((s.thr t).reg rs).extractLsb' (8 * j) 8) ∧
        (∀ a, a < o ∨ o + z ≤ a → u.byteAt true a = s.byteAt true a) ∧ u.mcc.dmem = s.mcc.dmem) := by
  obtain ⟨hs, he, hq⟩ := issuesAt_run h
  refine does_issue h hc ?_
  dsimp only
  rw [effAddr_eq, if_neg (fun hn => hn ha), hp]
  dsimp only
  rw [hi]
  dsimp only
  obtain ⟨hin, hout⟩ := get_writeBytes_le s.mcc.shared o z ((s.thr t).reg rs)
  have key : ∀ w : State, w.mcc.threads = s.mcc.threads → w.mcc.shared = writeBytes s.mcc.shared o (le z ((s.thr t).reg rs).toNat) →
      w.mcc.dmem = s.mcc.dmem →
      (fun u : State => (u.thr t).st = .run ∧ (u.thr t).pc = (s.thr t).pc + 4 ∧ (u.thr t).regs = (s.thr t).regs ∧
        ((u.thr t).slot i).pend = some .farStore ∧
        (∀ j, j < z → u.byteAt true (o + j) = ((s.thr t).reg rs).extractLsb' (8 * j) 8) ∧
        (∀ a, a < o ∨ o + z ≤ a → u.byteAt true a = s.byteAt true a) ∧ u.mcc.dmem = s.mcc.dmem) (retire t (takeFar t i .farStore w)) := by
    intro w hth hsh hdm
    have hwt : w.thr t = s.thr t := congrArg (fun m : Map Thread => m.get {} t) hth
    have hr : Retires t ((w.thr t).setSlot i { (w.thr t).slot i with pend := some .farStore }) (count (kMcc t 3) w) (retire t (takeFar t i .farStore w)) :=
      retires_of_staying (by rw [hwt]; exact he) (by rw [hwt]; exact hq)
    have hself := hr.1
    rw [hwt] at hself
    have hmem : (retire t (takeFar t i .farStore w)).mcc.shared = _ := hr.shared.trans hsh
    rw [hself]
    refine ⟨hs, rfl, rfl, by simp [Thread.slot, Thread.setSlot], fun j hj => ?_, fun a ha => ?_, hr.dmem.trans hdm⟩
    · exact (congrArg (fun m => Map.get m 0 (o + j)) hmem).trans (hin j hj)
    · exact (congrArg (fun m => Map.get m 0 a) hmem).trans (hout a ha)
  by_cases hz : z = 8
  · rw [if_pos hz]
    exact key _ rfl rfl rfl
  · rw [if_neg hz]
    exact key _ rfl rfl rfl

/-- The thread that gets the data of its far load. -/
def farLoaded (th : Thread) (slot rd : Nat) (v : Word) : Thread :=
  { (th.setSlot slot { th.slot slot with pend := none }).setReg rd v with st := .run }

/-- The answer of a bank to a far load writes the register, frees the slot and lets the thread go on. -/
theorem retires_farReturn {s : State} {t slot rd addr z : Nat} {sx : Bool} (hst : (s.thr t).st = .stall (.farLoad slot rd))
    (hp : ((s.thr t).slot slot).pend = some (.farLoad addr z sx)) (hn : s.poisoned (.shared (addr - 0x10000000)) z = false)
    (hs : s.steady (.shared (addr - 0x10000000)) z = true) (he : (s.thr t).exiting = false) (hq : (s.thr t).stopAsked = false) :
    Retires t (farLoaded (s.thr t) slot rd (loadedWord sx (readBytes s.mcc.shared (addr - 0x10000000) z)))
      (updThr t (fun th => th.setSlot slot { th.slot slot with pend := none }) s) (farReturn t slot s) := by
  unfold farReturn
  dsimp only
  rw [hp]
  dsimp only
  rw [readPlace_steady _ _ s hs, hst]
  dsimp only
  rw [if_pos rfl, hn, if_neg Bool.false_ne_true]
  unfold updThr
  rw [thr_setThr_self]
  exact retires_of_staying (th := farLoaded (s.thr t) slot rd _) (by simpa [farLoaded] using he) (Or.inl (by simpa [farLoaded] using hq))

/-- A completed slot of a running thread that is not leaving. -/
theorem completeSlot_running {s : State} {t i : Nat} {status : Option (BitVec 16)} (hs : (s.thr t).st = .run) (he : (s.thr t).exiting = false)
    (hq : (s.thr t).stopAsked = false) : completeSlot t i status s
      = setThr t ((s.thr t).setSlot i { pend := none, status := if status.isSome then status else ((s.thr t).slot i).status }) s := by
  unfold completeSlot
  dsimp only
  rw [hs]
  exact settle_staying t _ (by simpa using he) (Or.inl (by simpa using hq))

/-- Settles O14. -/
theorem farAccesses : Obligations.FarAccesses := by
  refine ⟨fun s t pi rd ra imm o i z sx h hz ha hp hi => ?_, fun s t slot rd addr z sx hst hp hr hn hs he hq => ?_,
    fun s t pi rs ra imm o i z h hz ha hp hi => ?_, fun s t slot hr hp hst he hq => ?_, fun s t pi h => ?_⟩
  · rcases hz with (rfl | rfl | rfl) | ⟨rfl, rfl⟩
    · cases sx
      · exact does_farLoad (rd := rd) h ha hp hi rfl
      · exact does_farLoad (rd := rd) h ha hp hi rfl
    · cases sx
      · exact does_farLoad (rd := rd) h ha hp hi rfl
      · exact does_farLoad (rd := rd) h ha hp hi rfl
    · cases sx
      · exact does_farLoad (rd := rd) h ha hp hi rfl
      · exact does_farLoad (rd := rd) h ha hp hi rfl
    · exact does_farLoad (rd := rd) h ha hp hi rfl
  · have hret := retires_farReturn hst hp hn hs he hq
    refine does_onClock hr rfl ?_
    rw [hret.1]
    refine ⟨rfl, ?_, ?_, fun r => ?_, hret.shared⟩
    · simp [farLoaded]
    · show (((farLoaded _ _ _ _)).slots.get {} _).pend = none
      simp [farLoaded, Thread.setSlot]
    · exact (Thread.reg_setReg _ _ _ _).trans rfl
  · rcases hz with rfl | rfl | rfl | rfl
    · exact does_farStore h ha hp hi rfl
    · exact does_farStore h ha hp hi rfl
    · exact does_farStore h ha hp hi rfl
    · exact does_farStore h ha hp hi rfl
  · refine does_onClock hr (congrArg (onClock s) (if_pos hp)) ?_
    rw [completeSlot_running hst he hq, thr_setThr_self, Thread.slot_setSlot, if_pos rfl]
    exact ⟨rfl, rfl, rfl, rfl⟩
  · refine does_issue h rfl ?_
    by_cases ho : (s.thr t).storesOut = true
    · rw [if_pos ho, if_pos ho]
      simp [stallThread]
    · obtain ⟨-, he, hq⟩ := issuesAt_run h
      rw [if_neg ho, if_neg ho]
      exact retires_self he hq

/-! ## Jumps (R256) -/

/-- PC + 4 × disp23: the displacement shifted is the displacement of its bytes. -/
theorem brTarget_eq (th : Thread) (disp : BitVec 23) : brTarget th disp = th.pc + disp.signExtend 64 <<< 2 := by
  have hshift : BitVec.ofNat 25 (4 * disp.toNat) = disp.setWidth 25 <<< 2 := by
    apply BitVec.eq_of_toNat_eq
    rw [BitVec.toNat_ofNat, BitVec.toNat_shiftLeft, BitVec.toNat_setWidth, Nat.shiftLeft_eq]
    have := disp.isLt
    omega
  unfold brTarget
  rw [sext_eq (by decide), hshift]
  congr 1
  apply BitVec.eq_of_getLsbD_eq
  intro k hk
  rw [BitVec.getLsbD_signExtend, BitVec.getLsbD_shiftLeft, BitVec.getLsbD_shiftLeft, BitVec.getLsbD_signExtend, BitVec.getLsbD_setWidth,
    BitVec.msb_eq_getLsbD_last, BitVec.msb_eq_getLsbD_last, BitVec.getLsbD_shiftLeft, BitVec.getLsbD_setWidth]
  by_cases hlow : k < 2
  · simp [hlow, hk, show k < 25 by omega]
  · by_cases hin : k < 25
    · simp [hlow, hk, hin, show k - 2 < 23 by omega, show k - 2 < 25 by omega, show k - 2 < 64 by omega]
    · simp [hlow, hk, hin, show ¬ k - 2 < 23 by omega, show k - 2 < 64 by omega]

/-- An instruction that jumps to where its level may fetch. -/
theorem does_jumpTo {t pi : Nat} {c : Instr} {s : State} {target : Word} {f : Thread → Thread} (h : s.issuesAt t pi = true)
    (hf : ∀ th, (f th).exiting = th.exiting ∧ (f th).stopAsked = th.stopAsked ∧ (f th).level = th.level)
    (hm : (s.thr t).level.mayFetch target.toNat = true) {dest : Thread → Word} (ht : dest (s.thr t) = target)
    (hc : exec c s = .next (issue t pi (fun th s => jumpTo t (dest th) f th s) s)) : Does c s (Jumps t { f (s.thr t) with pc := target } s) := by
  obtain ⟨-, he, hq⟩ := issuesAt_run h
  obtain ⟨fe, fq, fl⟩ := hf (s.thr t)
  refine does_issue h hc ?_
  dsimp only [jumpTo]
  rw [ht, if_pos hm]
  exact jumps_setThr (fe.trans he) (by rw [fq, fl]; exact hq)

/-- Settles O15. -/
theorem jumpInstructions : Obligations.JumpInstructions := by
  have link : ∀ (r : Nat) (th : Thread), (th.setReg r (th.pc + 4)).exiting = th.exiting ∧ (th.setReg r (th.pc + 4)).stopAsked = th.stopAsked ∧
      (th.setReg r (th.pc + 4)).level = th.level := fun r th => ⟨by simp, by simp, by simp⟩
  refine ⟨fun s t pi disp h hm => ⟨?_, ?_⟩, fun s t pi rd ra h hm => ⟨?_, ?_⟩⟩
  · exact does_jumpTo h (fun _ => ⟨rfl, rfl, rfl⟩) hm (brTarget_eq _ disp) rfl
  · exact does_jumpTo h (link 31) hm (brTarget_eq _ disp) rfl
  · exact does_jumpTo h (fun _ => ⟨rfl, rfl, rfl⟩) hm rfl rfl
  · exact does_jumpTo h (link rd) hm rfl rfl

/-! ## Waiting for engine calls (R260, R262) -/

/-- The result fields of a call land in DMEM alone. -/
theorem foldl_storeAt_dmem (base : Nat) (out : List (Nat × List Byte)) : ∀ s : State,
    out.foldl (fun (s : State) (o : Nat × List Byte) => storeAt (.dmem (base + o.1)) o.2 s) s
      = { s with mcc.dmem := out.foldl (fun m o => writeBytes m (base + o.1) o.2) s.mcc.dmem } := by
  induction out with
  | nil => intro s; rfl
  | cons o out ih => intro s; exact ih _

/-- Settles O16. -/
theorem slotInstructions : Obligations.SlotInstructions := by
  refine ⟨fun s t pi rd ra h => ⟨?_, ?_⟩, fun s t slot fn blk status out hp hs he hq hfn hk hr => ?_⟩
  · refine does_issue h rfl ?_
    dsimp only
    by_cases ho : ((s.thr t).slot (((s.thr t).reg ra).toNat % 16)).pend.isSome = true
    · rw [if_pos ho, if_pos (show (s.thr t).outstanding _ = true from ho)]
      simp [stallThread]
    · obtain ⟨-, he, hq⟩ := issuesAt_run h
      rw [if_neg ho, if_neg (show ¬ (s.thr t).outstanding _ = true from ho)]
      exact retires_of_staying (by simpa using he) (by simpa using hq)
  · exact does_writeReg h rfl rfl
  · refine does_onClock hr rfl ?_
    have hland : landKeyOp (t * 16 + slot) fn t s = s := by
      unfold landKeyOp
      rw [if_neg hfn]
      dsimp only
      rw [hk]
    rw [hp]
    dsimp only
    rw [hland, foldl_storeAt_dmem]
    generalize hw : ({ s with mcc.dmem := out.foldl (fun m o => writeBytes m (coreOf t * 0x10000 + blk + o.1) o.2) s.mcc.dmem } : State) = w
    have hth : w.thr t = s.thr t := by rw [← hw]; rfl
    rw [completeSlot_running (hth ▸ hs) (hth ▸ he) (hth ▸ hq), thr_setThr_self, Thread.slot_setSlot, if_pos rfl, hth]
    exact ⟨rfl, rfl, rfl, by rw [← hw]; rfl, by rw [← hw]; rfl⟩

end Sys2Proof.Machine

namespace Sys2Proof.Machine

/-! ## Events, watchdog and timers (R243, R273, R277) -/

/-- An event joins a queue that holds none. -/
theorem postEvent_empty {src t : Nat} {ref rtag : Word} {body : List Byte} {s : State} (hq : s.mcc.queues.get [] (evKey src t) = []) (hc : 0 < evCap src) :
    ∃ ev : Ev, (postEvent src t ref rtag body s).mcc.queues.get [] (evKey src t) = [ev] ∧ ev.body = body ∧ ev.ref = ref ∧
      (postEvent src t ref rtag body s).mcc.threads = s.mcc.threads := by
  unfold postEvent
  dsimp only
  rw [hq, if_pos (show ([] : List Ev).length < evCap src from hc)]
  exact ⟨{ seq := s.mcc.seqs.get 0 (evKey src t), ref := ref, body := body, rtag := rtag }, by rw [Map.get_put_self]; rfl, rfl, rfl, rfl⟩

/-- What a taken event leaves of its thread. -/
theorem thr_deliverTo (t src : Nat) (ovf : Bool) (ev : Ev) (s : State) : ∃ th : Thread, (deliverTo t src ovf ev none s).thr t = th ∧ th.st = .run ∧
    th.reg 1 = Word.of src ∧ th.reg 2 = Word.of ev.body.length ∧ th.reg 3 = ev.ref ∧ th.rtag = ev.rtag ∧ th.pc = (s.thr t).pc ∧
    (deliverTo t src ovf ev none s).mcc.queues = s.mcc.queues := by
  refine ⟨_, (thr_count _ _ _).trans (thr_setThr_self _ _ _), rfl, ?_, ?_, ?_, rfl, ?_, ?_⟩
  · show ((((s.thr t).setReg 1 (Word.of src)).setReg 2 (Word.of ev.body.length)).setReg 3 ev.ref).reg 1 = _
    simp [Thread.reg_setReg]
  · show ((((s.thr t).setReg 1 (Word.of src)).setReg 2 (Word.of ev.body.length)).setReg 3 ev.ref).reg 2 = _
    simp [Thread.reg_setReg]
  · show ((((s.thr t).setReg 1 (Word.of src)).setReg 2 (Word.of ev.body.length)).setReg 3 ev.ref).reg 3 = _
    simp [Thread.reg_setReg]
  · show ((((s.thr t).setReg 1 (Word.of src)).setReg 2 (Word.of ev.body.length)).setReg 3 ev.ref).pc = _
    simp
  · have hbuf : ∀ (c : Prop) [Decidable c] (m : Map Byte), (if c then { s with mcc.dmem := m } else s).mcc.queues = s.mcc.queues := by
      intro c _ m
      split
      · rfl
      · rfl
    exact hbuf _ _

/-- Settles O17. -/
theorem threadEvents : Obligations.ThreadEvents := by
  refine ⟨fun s src t ev l v hm hsrc hq ht => ?_, fun s t pi ra h hq => ?_, fun s t hr h0 hf hle hq => ?_, fun s t hr hst hl he hw hle => ?_⟩
  · refine ⟨_, rfl, ?_⟩
    have hnamed : ¬ ((src : Nat) = 0 ∨ (src : Nat) = 1 ∨ (src : Nat) = 4) := by omega
    have hnot4 : ¬ ((src : Nat) = 4 ∧ (s.thr v).dispatch = true ∧ (none : Option Entry).isNone = true) := fun h => hsrc.2 h.1
    dsimp only
    rw [if_neg (fun h => hm h.1), hq]
    dsimp only
    rw [if_neg hnamed]
    simp only [ht, if_neg hnot4]
    obtain ⟨th, hth, h1, h2, h3, h4, h5, h6, h7⟩ := thr_deliverTo v src (s.mcc.ovf.get false (evKey src t)) ev
      { s with mcc.queues := s.mcc.queues.put [] (evKey src t) l, mcc.ovf := s.mcc.ovf.put false (evKey src t) false }
    rw [hth, h7]
    exact ⟨h1, h2, h3, h4, h5, h6, Map.get_put_self _ _ _ _⟩
  · refine does_issue h rfl ?_
    obtain ⟨-, he, hs⟩ := issuesAt_run h
    obtain ⟨ev, hev, hb, href, hth⟩ := postEvent_empty (src := 9) (ref := Word.of (0xFFFF + (t : Nat) * 2 ^ 16)) (rtag := rtagInternal) (body := []) hq (by decide)
    generalize postEvent 9 (((s.thr t).reg ra).toNat % 256) (Word.of (0xFFFF + (t : Nat) * 2 ^ 16)) rtagInternal [] s = w at hev hth ⊢
    have hwt : w.thr t = s.thr t := congrArg (fun m : Map Thread => m.get {} t) hth
    have hret := retires_self (t := t) (s := w) (hwt ▸ he) (hwt ▸ hs)
    rw [hret.1, hret.queues, hwt]
    refine ⟨rfl, rfl, ev, hev, hb, ?_⟩
    have ht := t.isLt
    rw [href, Word.of, BitVec.toNat_ofNat]
    omega
  · refine does_onCores hr rfl ?_
    dsimp only
    have hdue : ¬ ((s.thr t).timer = 0 ∨ (s.thr t).timerFired = true ∨ s.mcc.cycle.toNat < (s.thr t).timer.toNat) := by
      rintro (h | h | h)
      · exact h0 h
      · exact Bool.false_ne_true (hf.symm.trans h)
      · omega
    rw [if_neg hdue]
    obtain ⟨ev, hev, hb, href, hth⟩ := postEvent_empty (src := 8) (t := t) (ref := 0xFFFF) (rtag := rtagInternal) (body := [])
      (s := updThr t (fun h => { h with timerFired := true }) s) hq (by decide)
    have hwt : (postEvent 8 t 0xFFFF rtagInternal [] (updThr t (fun h => { h with timerFired := true }) s)).thr t = _ :=
      (congrArg (fun m : Map Thread => m.get {} t) hth).trans (thr_updThr_self _ _ _)
    rw [hwt]
    exact ⟨rfl, ev, hev, hb, href⟩
  · have hlegal : (s.thr t).level ≠ .legal := by rcases hl with h | h <;> rw [h] <;> decide
    refine ⟨_, rfl, ?_⟩
    dsimp only
    have hdue : ¬ ((s.thr t).wdog = 0 ∨ (!decide ((s.thr t).level ≠ .legal)) = true ∨ (!s.coresRun) = true ∨
        (s.mcc.cycle - (s.thr t).wdogAt).toNat < 1024 * (s.thr t).wdog.toNat) := by
      rintro (h | h | h | h)
      · exact hw h
      · simp [hlegal] at h
      · simp [hr] at h
      · omega
    rw [hst, if_neg hdue]
    have hx := excepts_raise t exWatchdog s.mcc.cycle (count (kMcc t 8) (updThr t (fun h => { h with wdogAt := s.mcc.cycle }) s))
      (by simpa using hlegal) (by simpa using he)
    rw [hx.1]
    refine ⟨?_, rfl, ?_, ?_, rfl, rfl, ?_⟩
    · simp [Thread.excepted, exWatchdog, Word.of, Nat.mul_comm]
    · simp [Thread.excepted]
    · simp [Thread.excepted]
    · simp [Thread.excepted]

/-! ## Registers kept by key -/

/-- What is found in a map of which the keys of `p` are kept. -/
theorem find_keep {α : Type} (m : Map α) (p : Nat → Bool) (k : Nat) : (m.keep fun j _ => p j).find k = if p k then m.find k else none := by
  unfold Map.keep
  induction m with
  | nil => simp
  | cons e m ih =>
    obtain ⟨j, v⟩ := e
    by_cases hp : p j = true
    · simp only [List.filter_cons, hp, if_true]
      by_cases hk : k = j
      · subst hk
        simp [Map.find, hp]
      · simpa [Map.find, hk] using ih
    · simp only [List.filter_cons, hp, if_false]
      by_cases hk : k = j
      · subst hk
        simpa [Map.find, hp] using ih
      · simpa [Map.find, hk] using ih

/-- What is found in a map put before another. -/
theorem find_append {α : Type} (a b : Map α) (k : Nat) : Map.find (a ++ b) k = (a.find k).or (b.find k) := by
  induction a with
  | nil => rfl
  | cons e a ih =>
    obtain ⟨j, v⟩ := e
    by_cases hk : k = j
    · simp [Map.find, hk]
    · simpa [Map.find, hk] using ih

/-- A key that no entry has is not found. -/
theorem find_of_all {α : Type} (m : Map α) (p : Nat → Bool) (k : Nat) (h : m.all (fun e => p e.1) = true) (hk : p k = false) : m.find k = none := by
  induction m with
  | nil => rfl
  | cons e m ih =>
    obtain ⟨j, v⟩ := e
    rw [List.all_cons, Bool.and_eq_true] at h
    have hne : k ≠ j := fun hkj => by rw [hkj, h.1] at hk; exact Bool.noConfusion hk
    simpa [Map.find, hne] using ih h.2

/-! ## Legal calls (R250, R252) -/

@[simp] theorem Thread.setReg_shadow (th : Thread) (r : Nat) (v : Word) : (th.setReg r v).shadow = th.shadow := by rw [Thread.setReg_frame]

@[simp] theorem length_zeroBytes (n : Nat) : (zeroBytes n).length = n := List.length_replicate

@[simp] theorem getD_zeroBytes (n k : Nat) : (zeroBytes n).getD k 0 = 0 := by
  rw [zeroBytes, List.getD_eq_getElem?_getD, List.getElem?_replicate]
  split
  · rfl
  · rfl

@[simp] theorem thr_recEvent (t typ : Nat) (d : List Byte) (s : State) : (recEvent typ d s).thr t = s.thr t := by simp [State.thr]

@[simp] theorem thr_drawFree (t : Nat) (s : State) : ((drawFree s).2).thr t = s.thr t := rfl

/-- Settles O18. -/
theorem legalCalls : Obligations.LegalCalls := by
  refine ⟨fun s t pi gate h hl hc hg => ?_, fun s t pi gate h hl hc => ?_, fun s t pi sh h hl hs hlev hwf hall => ?_, fun s t sh hl hs hle hr he hq => ?_⟩
  · refine does_issue h rfl ?_
    dsimp only
    have hlen := length_zeroBytes 0x380
    have hzero := getD_zeroBytes 0x380
    rw [if_neg hl, if_neg (fun hn => hn hc), hg, if_neg (by decide), thr_count, thr_count, thr_setThr_self]
    generalize zeroBytes 0x380 = l at hlen hzero ⊢
    refine ⟨rfl, ?_, fun r hr => ?_, fun r hr => ?_, fun p h1 h8 => ?_, fun a ha => ?_, fun a ha => ?_⟩
    · simp [Word.of, bits]
    · simp only [Thread.reg, Map.get, find_keep _ (fun r => decide (r < 9)), decide_eq_true hr, if_true]
    · simp only [Thread.reg, Map.get, find_keep _ (fun r => decide (r < 9)), decide_eq_false (Nat.not_lt.mpr hr), Bool.false_eq_true, if_false, Option.getD_none, ite_self]
    · have hpred : ∀ p : Fin 8, 1 ≤ p.val → predGet 1 p = false := by decide
      exact hpred ⟨p, h8⟩ h1
    · exact (get_writeBytes_in l s.mcc.dmem _ a (by rwa [hlen])).trans (hzero a)
    · exact get_writeBytes_out l s.mcc.dmem _ a (by rwa [hlen])
  · obtain ⟨-, he, hq⟩ := issuesAt_run h
    refine does_issue h rfl ?_
    rw [if_neg hl, if_pos hc]
    exact retires_of_staying (by simpa using he) (by simpa using hq)
  · refine does_issue h rfl ?_
    rw [hl, hs]
    dsimp only
    obtain ⟨st, tk, ex, sa, hth⟩ := thr_settle t (count (kMcc t 0) (setThr t { s.thr t with
        regs := (s.thr t).regs.keep (fun r _ => decide (r < 9)) ++ sh.regs, preds := sh.preds, level := sh.level, pc := sh.ret, shadow := none
        wdogAt := (s.thr t).wdogAfter sh s.mcc.cycle } s))
    rw [thr_count, thr_setThr_self] at hth
    rw [hth]
    refine ⟨rfl, rfl, rfl, rfl, fun r hr => ?_, fun r hr => ?_⟩
    · have hnone : sh.regs.find r = none := find_of_all _ (fun k => decide (9 ≤ k)) r hall (decide_eq_false (by omega))
      simp only [Thread.reg, Map.get, find_append, find_keep _ (fun r => decide (r < 9)), decide_eq_true hr, if_true, hnone, Option.or_none]
    · simp only [Thread.reg, Map.get, find_append, find_keep _ (fun r => decide (r < 9)), decide_eq_false (Nat.not_lt.mpr hr), Bool.false_eq_true,
        if_false, Option.none_or, if_neg (show ¬ r = 0 by omega)]
  · refine does_onCores hr rfl ?_
    rw [hl, hs]
    dsimp only
    rw [if_neg (Nat.not_lt.mpr hle)]
    unfold forceLret
    dsimp only
    rw [settle_staying]
    · rw [thr_count, thr_recEvent, thr_setThr_self, thr_drawFree, hs]
      refine ⟨by simp, by simp, ?_, ?_, by simp, ?_⟩
      · simp [Thread.reg_setReg, Word.of]
      · rw [Thread.setReg_shadow, Thread.setReg_shadow]
      · rw [count_mcc, recEvent_mcc]
        rfl
    · simpa using he
    · exact Or.inl (by simpa using hq)

/-! ## SYS instructions and CSRs (R243, R259) -/

/-- A CSR write keeps what an instruction boundary looks at. -/
theorem csrSet_frame (th : Thread) (cycle : BitVec 64) (n : Nat) (v : Word) :
    (csrSet th cycle n v).exiting = th.exiting ∧ (csrSet th cycle n v).stopAsked = th.stopAsked ∧ (csrSet th cycle n v).level = th.level := by
  unfold csrSet
  repeat' split
  all_goals exact ⟨rfl, rfl, rfl⟩

/-- A thread that has issued EXIT, with no call outstanding and no event's buffer held, enters IDLE. -/
theorem settle_leaving {t : Nat} {s : State} (hb : (s.thr t).busy = false) (hs : (s.thr t).st = .run) (he : (s.thr t).exiting = true)
    (hk : (s.thr t).tookRef = none) :
    settle t s = setThr t { s.thr t with st := .idle, tookRef := none, exiting := false, stopAsked := false } s := by
  unfold settle parkThread
  dsimp only
  rw [hb, hs, he, hk]
  simp

/-- Settles O19. -/
theorem systemInstructions : Obligations.SystemInstructions := by
  refine ⟨fun s t pi h => ⟨?_, ?_, ?_⟩, fun s t pi h hb hk => ?_, fun s t pi ra h he hl => ?_, fun s t pi rd ra h hl he => ?_,
    fun s t pi rd csr w h ha => ?_, fun s t pi ra csr r h ha => ?_⟩
  · obtain ⟨-, he, hq⟩ := issuesAt_run h
    exact does_issue h rfl (retires_of_staying he hq)
  · obtain ⟨-, he, hq⟩ := issuesAt_run h
    exact does_issue h rfl (retires_of_staying he hq)
  · obtain ⟨-, he, hq⟩ := issuesAt_run h
    exact does_issue h rfl (retires_of_staying (th := { s.thr t with st := .wait }) he hq)
  · obtain ⟨hs, -, -⟩ := issuesAt_run h
    refine does_issue h rfl ?_
    have hpark := settle_leaving (t := t) (s := count (kMcc t 0) (updThr t (fun th => { th with pc := th.pc + 4 })
      (updThr t (fun th => { th with exiting := true }) s))) (by rw [thr_count, thr_updThr_self, thr_updThr_self]; exact hb) (by simp [hs]) (by simp) (by simpa using hk)
    unfold retire
    rw [hpark]
    refine ⟨by simp, by simp, by simp, fun v hv => ?_⟩
    rw [thr_setThr_ne _ _ hv, thr_count, thr_updThr_ne _ _ hv, thr_updThr_ne _ _ hv]
  · refine does_issue h rfl ?_
    exact excepts_raise t exTrap ((s.thr t).reg ra) s hl he
  · obtain ⟨-, hx, hq⟩ := issuesAt_run h
    refine does_issue h rfl ?_
    dsimp only
    have hlev : bits (s.thr t).ecause.toNat 5 4 = (s.thr t).ecause.toNat / 16 % 4 := by
      unfold bits
      exact congrArg (· % 4) (Nat.shiftRight_eq_div_pow _ 4)
    rw [if_pos ⟨hl, he⟩, hlev]
    exact jumps_setThr hx (Or.inl (hq.resolve_right (by rw [hl]; decide)))
  · obtain ⟨-, hx, hq⟩ := issuesAt_run h
    refine does_issue h rfl ?_
    dsimp only
    rw [ha]
    dsimp only
    by_cases hc : csr = 3
    · rw [if_pos hc]
      subst hc
      exact retires_of_staying (by simpa using hx) (by simpa using hq)
    · have hc3 : csr.toNat ≠ 3 := fun h3 => hc (BitVec.eq_of_toNat_eq h3)
      rw [if_neg hc]
      simp only [if_neg hc3]
      exact retires_of_staying (by simpa using hx) (by simpa using hq)
  · obtain ⟨-, hx, hq⟩ := issuesAt_run h
    refine does_issue h rfl ?_
    rw [ha]
    obtain ⟨fe, fq, fl⟩ := csrSet_frame (s.thr t) s.mcc.cycle csr.toNat ((s.thr t).reg ra)
    exact retires_of_staying (fe.trans hx) (by rw [fq, fl]; exact hq)

end Sys2Proof.Machine

namespace Sys2Proof.Machine

/-! ## Nested exceptions (R276) -/

/-- A thread inside a handler, in a part whose host has masked the notice THREAD_FAULT. -/
def faultMasked : State :=
  { State.reset with mcc.threads := [(0, { st := .run, level := .system, exc := true })], hp.mask := [(0x0C01, true)] }

/-- Refutes O21: a host that has masked the code 0x0C01 (R299) is told nothing, so TRAP in a handler halts the thread and no notice waits. -/
theorem not_reservedAndNestedExceptions : ¬ Obligations.ReservedAndNestedExceptions := by
  rintro ⟨-, nested⟩
  obtain ⟨u, hu, -, -, -, n, hn, -, -⟩ :=
    nested faultMasked 0 0 0 (by decide) (by decide) (by decide) (by decide) (by decide) (by decide) (by decide)
  have hnext : exec (.trap 0 0 0) faultMasked = .next (issue 0 0 (fun th s => raise 0 exTrap (th.reg 0) s) faultMasked) := rfl
  rw [hnext] at hu
  cases hu
  have hw : (issue 0 0 (fun th s => raise 0 exTrap (th.reg 0) s) faultMasked).hp.nq.waiting = [] := by decide
  exact List.cons_ne_nil n [] (hn.symm.trans hw)

/-! ## Calls on threads and memory (R271) -/

/-- What is read of the state an engine finds. -/
theorem thr_calling_ne {t rt i v : Nat} (s : State) (h : v ≠ t) : (calling t rt i s).thr v = s.thr v := by
  unfold calling countIf
  dsimp only
  split
  · exact thr_setThr_ne _ _ h
  · exact thr_setThr_ne _ _ h

/-- The thread that calls. -/
theorem thr_calling_self (t rt i : Nat) (s : State) : (calling t rt i s).thr t =
    ((if ((s.thr t).slot i).status.isSome then { s.thr t with elost := (s.thr t).elost + 1 } else s.thr t).setReg rt (Word.of i)).setSlot i {} := by
  unfold calling countIf
  dsimp only
  split
  · exact thr_setThr_self _ _ _
  · exact thr_setThr_self _ _ _

/-- An engine call changes the caller's thread, its counters and nothing else before the engine runs. -/
theorem calling_frame (t rt i : Nat) (s : State) :
    calling t rt i s = { s with mcc.threads := (calling t rt i s).mcc.threads, ctr := (calling t rt i s).ctr } := by
  unfold calling countIf
  dsimp only
  split
  · rfl
  · rfl

/-- The memories the engine finds. -/
theorem calling_mcc (t rt i : Nat) (s : State) : (calling t rt i s).mcc = { s.mcc with threads := (calling t rt i s).mcc.threads } := by
  unfold calling countIf
  dsimp only
  split
  · rfl
  · rfl

@[simp] theorem calling_dmem (t rt i : Nat) (s : State) : (calling t rt i s).mcc.dmem = s.mcc.dmem := by rw [calling_mcc]
@[simp] theorem calling_shared (t rt i : Nat) (s : State) : (calling t rt i s).mcc.shared = s.mcc.shared := by rw [calling_mcc]
@[simp] theorem calling_image (t rt i : Nat) (s : State) : (calling t rt i s).mcc.image = s.mcc.image := by rw [calling_mcc]
@[simp] theorem calling_cycle (t rt i : Nat) (s : State) : (calling t rt i s).mcc.cycle = s.mcc.cycle := by rw [calling_mcc]
@[simp] theorem calling_legal (t rt i : Nat) (s : State) : (calling t rt i s).mcc.legal = s.mcc.legal := by rw [calling_mcc]
@[simp] theorem calling_queues (t rt i : Nat) (s : State) : (calling t rt i s).mcc.queues = s.mcc.queues := by rw [calling_mcc]
@[simp] theorem calling_poisonDmem (t rt i : Nat) (s : State) : (calling t rt i s).mcc.poisonDmem = s.mcc.poisonDmem := by rw [calling_mcc]
@[simp] theorem calling_poisonShared (t rt i : Nat) (s : State) : (calling t rt i s).mcc.poisonShared = s.mcc.poisonShared := by rw [calling_mcc]
@[simp] theorem calling_glb (t rt i : Nat) (s : State) : (calling t rt i s).glb = s.glb := by rw [calling_frame]
@[simp] theorem calling_cap (t rt i : Nat) (s : State) : (calling t rt i s).cap = s.cap := by rw [calling_frame]
@[simp] theorem calling_hp (t rt i : Nat) (s : State) : (calling t rt i s).hp = s.hp := by rw [calling_frame]
@[simp] theorem calling_tmu (t rt i : Nat) (s : State) : (calling t rt i s).tmu = s.tmu := by rw [calling_frame]
@[simp] theorem calling_evr (t rt i : Nat) (s : State) : (calling t rt i s).evr = s.evr := by rw [calling_frame]
@[simp] theorem calling_sepia (t rt i : Nat) (s : State) : (calling t rt i s).sepia = s.sepia := by rw [calling_frame]
@[simp] theorem calling_stest (t rt i : Nat) (s : State) : (calling t rt i s).stest = s.stest := by rw [calling_frame]
@[simp] theorem calling_woad (t rt i : Nat) (s : State) : (calling t rt i s).woad = s.woad := by rw [calling_frame]
@[simp] theorem calling_otp (t rt i : Nat) (s : State) : (calling t rt i s).otp = s.otp := by rw [calling_frame]
@[simp] theorem calling_rla (t rt i : Nat) (s : State) : (calling t rt i s).rla = s.rla := by rw [calling_frame]
@[simp] theorem calling_lm (t rt i : Nat) (s : State) : (calling t rt i s).lm = s.lm := by rw [calling_frame]
@[simp] theorem calling_ing (t rt i : Nat) (s : State) : (calling t rt i s).ing = s.ing := by rw [calling_frame]
@[simp] theorem calling_pass (t rt i : Nat) (s : State) : (calling t rt i s).pass = s.pass := by rw [calling_frame]
@[simp] theorem calling_ldg (t rt i : Nat) (s : State) : (calling t rt i s).ldg = s.ldg := by rw [calling_frame]
@[simp] theorem calling_bal (t rt i : Nat) (s : State) : (calling t rt i s).bal = s.bal := by rw [calling_frame]
@[simp] theorem calling_lake (t rt i : Nat) (s : State) : (calling t rt i s).lake = s.lake := by rw [calling_frame]
@[simp] theorem calling_macs (t rt i : Nat) (s : State) : (calling t rt i s).macs = s.macs := by rw [calling_frame]
@[simp] theorem calling_cas (t rt i : Nat) (s : State) : (calling t rt i s).cas = s.cas := by rw [calling_frame]
@[simp] theorem calling_upd (t rt i : Nat) (s : State) : (calling t rt i s).upd = s.upd := by rw [calling_frame]
@[simp] theorem calling_cpm (t rt i : Nat) (s : State) : (calling t rt i s).cpm = s.cpm := by rw [calling_frame]
@[simp] theorem calling_out (t rt i : Nat) (s : State) : (calling t rt i s).out = s.out := by rw [calling_frame]
@[simp] theorem calling_free (t rt i : Nat) (s : State) : (calling t rt i s).free = s.free := by rw [calling_frame]
@[simp] theorem calling_pending (t rt i : Nat) (s : State) : (calling t rt i s).pending = s.pending := by rw [calling_frame]

@[simp] theorem load_calling (t rt i : Nat) (s : State) (p : Place) (n : Nat) : (calling t rt i s).load p n = s.load p n := by simp [State.load]

@[simp] theorem poisoned_calling (t rt i : Nat) (s : State) (p : Place) (n : Nat) : (calling t rt i s).poisoned p n = s.poisoned p n := by simp [State.poisoned]

/-- The thread that called, once its engine has answered: the call is outstanding in its slot and the thread goes on. -/
theorem retires_called {t rt fn a i : Nat} {r : EngOut} {s : State} (he : (s.thr t).exiting = false) (hq : (s.thr t).stopAsked = false ∨ (s.thr t).level = .legal)
    (hr : r.st.thr t = (calling t rt i s).thr t) :
    Retires t (((calling t rt i s).thr t).setSlot i { pend := some (.call fn a r.out r.status r.waits), status := none }) r.st (called t fn a i r) := by
  have hself := thr_calling_self t rt i s
  have hkeeps : ((calling t rt i s).thr t).exiting = (s.thr t).exiting ∧ ((calling t rt i s).thr t).stopAsked = (s.thr t).stopAsked ∧
      ((calling t rt i s).thr t).level = (s.thr t).level := by
    rw [hself]
    split
    · exact ⟨by simp, by simp, by simp⟩
    · exact ⟨by simp, by simp, by simp⟩
  obtain ⟨ke, kq, kl⟩ := hkeeps
  unfold called updThr
  rw [hr]
  exact retires_of_staying (by simpa [ke] using he) (by simpa [kq, kl] using hq)

/-- An instruction that makes an engine call its thread may make. -/
theorem does_ecall {t pi rt ra fn len i : Nat} {p : Place} {c : Instr} {s : State} {eng : Nat → List Byte → State → EngOut} {r : EngOut} {P : State → Prop}
    (h : s.callsAt t pi ra fn len p i = true) (hc : exec c s = .next (ecall t pi rt ra fn len eng s))
    (hr : eng t (s.load p len) (calling t rt i s) = r) (hP : P (called t fn ((s.thr t).reg ra).toNat i r)) : Does c s P :=
  ⟨_, hc, by rwa [ecall_callsAt t pi rt ra fn len i p eng s h, hr]⟩

/-- A thread that may call issues. -/
theorem issuesAt_of_callsAt {t pi ra fn len i : Nat} {p : Place} {s : State} (h : s.callsAt t pi ra fn len p i = true) : s.issuesAt t pi = true := by
  simp only [State.callsAt, Bool.and_eq_true] at h
  exact h.1.1.1.1.1.1.1.1

/-- What an engine call of the caller's leaves, when the engine touches no slot of the caller. -/
theorem does_call {t pi rt ra fn len i : Nat} {p : Place} {c : Instr} {s : State} {eng : Nat → List Byte → State → EngOut} {r : EngOut} {P : State → Prop}
    (h : s.callsAt t pi ra fn len p i = true) (hc : exec c s = .next (ecall t pi rt ra fn len eng s))
    (hr : eng t (s.load p len) (calling t rt i s) = r) (ht : r.st.thr t = (calling t rt i s).thr t)
    (hP : ∀ u, u = { r.st with mcc.threads := u.mcc.threads, ctr := u.ctr } → (∀ v, v ≠ t → u.thr v = r.st.thr v) →
      (u.thr t).slot i = { pend := some (.call fn ((s.thr t).reg ra).toNat r.out r.status r.waits), status := none } → P u) : Does c s P := by
  obtain ⟨-, he, hq⟩ := issuesAt_run (issuesAt_of_callsAt h)
  obtain ⟨hself, hne, -, hframe⟩ := retires_called (rt := rt) (fn := fn) (a := ((s.thr t).reg ra).toNat) (i := i) he hq ht
  refine does_ecall h hc hr (hP _ hframe hne ?_)
  rw [hself]
  simp [Thread.slot, Thread.setSlot]

/-- Parking a thread leaves the memories and the other threads alone. -/
theorem parkThread_threads (t : Nat) (st : TState) (s : State) : (parkThread t st s).mcc.threads
    = s.mcc.threads.put {} t { s.thr t with st := st, tookRef := none, exiting := false, stopAsked := false } := by
  unfold parkThread
  dsimp only
  split
  · rfl
  · rfl

/-- A running thread that MCC_STOP asks to stop, at its boundary outside LEGAL and with no call outstanding, enters IDLE. -/
theorem settle_stopped {t : Nat} {s : State} (hs : (s.thr t).st = .run) (hl : (s.thr t).level ≠ .legal) (hb : (s.thr t).busy = false)
    (hq : (s.thr t).stopAsked = true) : ((settle t s).thr t).st = .idle ∧ ∀ v, v ≠ t → (settle t s).thr v = s.thr v := by
  have hsettle : settle t s = parkThread t .idle s := by
    unfold settle
    dsimp only
    rw [if_neg (by simp [hb, hs]), if_pos (Or.inr ⟨hq, hl⟩)]
  have hget : ∀ v, (settle t s).thr v = (parkThread t .idle s).mcc.threads.get {} v := fun v => by rw [hsettle]; rfl
  refine ⟨?_, fun v hv => ?_⟩
  · rw [hget, parkThread_threads, Map.get_put_self]
  · rw [hget, parkThread_threads, Map.get_put_ne _ _ _ hv]
    rfl

/-- A buffer at which nothing is poisoned is read as it stands. -/
theorem readBuf_ok {t addr len : Nat} {s : State} {p : Place} (hp : (s.thr t).bufPlace t addr len = some p) (hn : s.poisoned p len = false) :
    s.readBuf t addr len = .ok (s.load p len) := by
  unfold State.readBuf
  rw [hp]
  dsimp only
  rw [hn, if_neg Bool.false_ne_true]

@[simp] theorem length_load (s : State) (p : Place) (n : Nat) : (s.load p n).length = n := by
  cases p with
  | dmem k => exact length_readBytes _ _ _
  | shared o => exact length_readBytes _ _ _

@[simp] theorem thr_storeAt (t : Nat) (p : Place) (l : List Byte) (s : State) : (storeAt p l s).thr t = s.thr t := by
  cases p with
  | dmem k => rfl
  | shared o => rfl

/-- Bytes written at a permitted address. -/
theorem writeBuf_at {t addr : Nat} {l : List Byte} {s : State} {p : Place} (hp : (s.thr t).bufPlace t addr l.length = some p) :
    writeBuf t addr l s = storeAt p l s := by
  unfold writeBuf
  rw [hp]

/-- Writing a register or a slot does not move a thread's buffers. -/
theorem bufPlace_calling (t rt i : Nat) (s : State) (addr len : Nat) : ((calling t rt i s).thr t).bufPlace t addr len = (s.thr t).bufPlace t addr len := by
  have hset : ∀ (th : Thread) (r : Nat) (v : Word), (th.setReg r v).bufPlace t addr len = th.bufPlace t addr len := by
    intro th r v
    rw [Thread.setReg_frame]
    rfl
  rw [thr_calling_self]
  refine (hset _ rt (Word.of i)).trans ?_
  split
  · rfl
  · rfl

/-- An empty aligned span in a core's own memory is read without effect. -/
theorem readPlace_empty {k : Nat} (hk : k % 8 = 0) (s : State) : readPlace (.dmem k) 0 s = s ∧ s.poisoned (.dmem k) 0 = false := by
  have hnone : ceilDiv (k % 8 + 0) 8 = 0 := by rw [hk]; rfl
  constructor
  · unfold readPlace
    dsimp only
    rw [hnone]
    split
    · rfl
    · rfl
  · unfold State.poisoned
    dsimp only
    rw [hnone]
    rfl

/-- A block below 0x10000 lies in the thread's own core. -/
theorem place_low {th : Thread} {t a len : Nat} {p : Place} (hp : th.place t a len = some p) (ha : a < 0x10000) :
    p = .dmem (coreOf t * 0x10000 + a) := by
  unfold Thread.place at hp
  dsimp only at hp
  by_cases h1 : a + len ≤ 0xF000
  · rw [if_pos h1] at hp
    exact (Option.some.inj hp).symm
  · rw [if_neg h1] at hp
    split at hp
    · exact (Option.some.inj hp).symm
    · split at hp
      · exact (Option.some.inj hp).symm
      · rw [if_neg (by omega)] at hp
        exact absurd hp (by simp)

/-- Settles O22. -/
theorem coreCalls : Obligations.CoreCalls := by
  refine ⟨fun s t pi rt ra p i e h hb hst hne he => ?_, fun s t pi rt ra p i h hb hne hst hbusy => ?_,
    fun s t pi rt ra p i q r h hb hq hr hp => ?_, fun s t pi rt ra fn p i hf h hs ha hlt hp hi => ?_⟩
  · obtain ⟨h1, h2, h3⟩ := hb
    have hidle : ((calling t rt i s).thr (4 * field (s.load p 16) 0 1 + field (s.load p 16) 1 1)).st = .idle := by rw [thr_calling_ne _ hne, hst]
    have hent : (calling t rt i s).entryOf (field (s.load p 16) 2 2) = some e := by rw [calling_frame]; exact he
    refine does_call (r := .ok (startThread (4 * field (s.load p 16) 0 1 + field (s.load p 16) 1 1) e (Word.of (field (s.load p 16) 8 8)) (calling t rt i s)))
      h rfl ?_ (thr_setThr_ne _ _ hne.symm) fun u hu hv hslot => ?_
    · unfold engMccStart
      dsimp only
      rw [if_neg (by simp [h3]; omega), Nat.mul_comm, if_neg (by simp [hidle])]
      rw [hent]
    · rw [hslot, hv _ hne]
      refine ⟨rfl, ?_⟩
      dsimp only [EngOut.ok, startThread]
      rw [thr_setThr_self]
      refine ⟨rfl, rfl, rfl, ?_⟩
      show (Thread.setReg _ 1 _).reg 1 = _
      simp [Thread.reg_setReg, Word.of]
  · have hrun : ((calling t rt i s).thr (4 * field (s.load p 8) 0 1 + field (s.load p 8) 1 1)) = s.thr (4 * field (s.load p 8) 0 1 + field (s.load p 8) 1 1) :=
      thr_calling_ne s hne
    obtain ⟨h1, h2, h3⟩ := hb
    obtain ⟨hst, hl⟩ := hst
    have hstop := settle_stopped (t := 4 * field (s.load p 8) 0 1 + field (s.load p 8) 1 1)
      (s := updThr (4 * field (s.load p 8) 0 1 + field (s.load p 8) 1 1) (fun h => { h with stopAsked := true }) (calling t rt i s))
      (by simpa [hrun] using hst) (by simpa [hrun] using hl) (by rw [thr_updThr_self, hrun]; exact hbusy) (by simp)
    refine does_call (r := .ok (settle (4 * field (s.load p 8) 0 1 + field (s.load p 8) 1 1)
      (updThr (4 * field (s.load p 8) 0 1 + field (s.load p 8) 1 1) (fun h => { h with stopAsked := true }) (calling t rt i s))))
      h rfl ?_ ((hstop.2 t hne.symm).trans (thr_updThr_ne _ _ hne.symm)) fun u hu hv hslot => ?_
    · unfold engMccStop
      dsimp only
      rw [if_neg (by simp [h3]; omega), Nat.mul_comm, if_neg (by simp [hrun, hst])]
    · rw [hslot, hv _ hne]
      exact ⟨rfl, hstop.1⟩
  · obtain ⟨h1, h2, h3⟩ := hb
    have hsrc := (bufPlace_calling t rt i s (field (s.load p 24) 0 8) (field (s.load p 24) 16 4)).trans hq
    have hdst := (bufPlace_calling t rt i s (field (s.load p 24) 8 8) (field (s.load p 24) 16 4)).trans hr
    refine does_call (r := .ok (storeAt r (s.load q (field (s.load p 24) 16 4)) (calling t rt i s))) h rfl ?_ (thr_storeAt _ _ _ _) fun u hu hv hslot => ?_
    · unfold engDmaCopy State.bufOk
      dsimp only
      rw [if_neg (by simp [h1, h3]; omega), hsrc, hdst, if_neg (by simp), readBuf_ok hsrc (by rwa [poisoned_calling]), load_calling]
      dsimp only
      rw [writeBuf_at (by rwa [length_load])]
    · rw [hslot, hu]
      cases r with
      | dmem k => exact ⟨rfl, by simp [storeAt, EngOut.ok], by simp [storeAt, EngOut.ok]⟩
      | shared o => exact ⟨rfl, by simp [storeAt, EngOut.ok], by simp [storeAt, EngOut.ok]⟩
  · obtain ⟨-, he, hq⟩ := issuesAt_run h
    have hself := thr_calling_self t rt i s
    obtain ⟨hread, hpois⟩ := readPlace_empty (k := coreOf t * 0x10000 + ((s.thr t).reg ra).toNat) (by omega) (calling t rt i s)
    have hret := retires_of_staying (t := t) (s := calling t rt i s)
      (th := ((calling t rt i s).thr t).setSlot i { pend := none, status := some (BitVec.ofNat 16 stBadFunc) })
      (by rw [hself]; split <;> simpa using he) (by rw [hself]; split <;> simpa using hq)
    have hcall : ecallG (fun _ => true) true t pi rt ra fn.toNat 0 (fun _ _ s => .fail s stBadFunc) s
        = retire t (setThr t (((calling t rt i s).thr t).setSlot i { pend := none, status := some (BitVec.ofNat 16 stBadFunc) }) (calling t rt i s)) := by
      unfold ecallG
      rw [issue_issuesAt t pi _ s h]
      dsimp only
      rw [hs, if_neg Bool.false_ne_true, if_neg (fun hn => hn ha), if_pos hlt, hp, place_low hp hlt]
      dsimp only
      rw [hi]
      dsimp only
      change (fun r : EngOut => retire t (updThr t (fun th => th.setSlot i { pend := none, status := some (BitVec.ofNat 16 r.status) }) r.st))
        (if (readPlace _ 0 (calling t rt i s)).poisoned _ 0 = true then EngOut.fail (readPlace _ 0 (calling t rt i s)) stPoisoned
          else EngOut.fail (readPlace _ 0 (calling t rt i s)) stBadFunc) = _
      rw [hread, hpois, if_neg Bool.false_ne_true]
      rfl
    refine ⟨_, congrArg Host.Outcome.next (if_neg (by rw [hf]; exact Bool.false_ne_true)), ?_⟩
    rw [hcall]
    dsimp only
    rw [hret.1]
    refine ⟨by simp [Thread.slot, Thread.setSlot], ?_, fun hrt => ?_⟩
    · rw [hself]
      split
      · simp
      · simp
    · rw [hself]
      show (Thread.setReg _ rt (Word.of i)).reg rt = _
      simp [Thread.reg_setReg, hrt, Word.of]

end Sys2Proof.Machine

namespace Sys2Proof.Machine

/-! ## An idle cycle (R332) and the registers at reset -/

/-- Time moved on by a cycle's increment that stays within the second. -/
theorem advanceTai_within {s : State} {inc : Nat} (hinc : ((nominalInc : Int) + s.tmu.adj) = inc)
    (hns : s.tmu.ns + (s.tmu.frac + inc) / 2 ^ 48 < 1000000000) :
    advanceTai s = { s with tmu.ns := s.tmu.ns + (s.tmu.frac + inc) / 2 ^ 48, tmu.frac := (s.tmu.frac + inc) % 2 ^ 48 } := by
  have hf : (((s.tmu.frac + nominalInc : Nat) : Int) + s.tmu.adj).toNat = s.tmu.frac + inc := by omega
  unfold advanceTai
  dsimp only
  rw [hf, if_pos hns]

/-- Nanoseconds and fraction together move on by the increment. -/
theorem carry_frac (ns frac inc : Nat) : (ns + (frac + inc) / 2 ^ 48) * 2 ^ 48 + (frac + inc) % 2 ^ 48 = ns * 2 ^ 48 + (frac + inc) := by
  rw [Nat.add_mul, Nat.add_assoc, Nat.div_add_mod']

/-- Settles O2. -/
theorem idleStepIsACycle : Obligations.IdleStepIsACycle := by
  refine ⟨fun s hp hr hc hns hadj => ?_, fun s hp hstop => ?_⟩
  · have hck : ¬ (s.glb.mode = .off ∨ s.glb.mode = .vigil ∨ s.stest.frozen = true) := by
      have h := clocked_of_coresRun hr
      simpa [State.clocked, and_assoc] using h
    have htai := advanceTai_within (s := s) (Int.toNat_of_nonneg hadj).symm hns
    refine ⟨tick s, by rw [step, hp], ?_⟩
    unfold tick slewCycle
    rw [if_neg hck, htai]
    dsimp only
    rw [if_pos hc]
    exact ⟨rfl, rfl, rfl, carry_frac _ _ _, rfl, rfl⟩
  · rw [step, hp]
    dsimp only
    rw [tick, if_pos hstop]

/-- A list of registers and the values they show at reset, checked as a whole. -/
theorem readReg_reset_of_all (l : List (Nat × Nat)) (h : l.all (fun e => State.reset.readReg e.1 == e.2) = true) (a v : Nat) (hm : (a, v) ∈ l) :
    State.reset.readReg a = v :=
  beq_iff_eq.mp (List.all_eq_true.mp h (a, v) hm)

/-- Settles O3. -/
theorem resetRegisters : Obligations.ResetRegisters :=
  ⟨readReg_reset_of_all _ (by decide +kernel), readReg_reset_of_all _ (by decide +kernel), readReg_reset_of_all _ (by decide +kernel),
    readReg_reset_of_all _ (by decide +kernel), readReg_reset_of_all _ (by decide +kernel)⟩

end Sys2Proof.Machine

namespace Sys2Proof.Machine

/-! ## What a notice touches (R299) -/

theorem dropNotice_glb (n : Notice) (s : State) : (dropNotice n s).glb = { s.glb with nqOvf := true } := by
  unfold dropNotice
  dsimp only
  split
  · rfl
  · rfl

/-- Of the GLB block a notice can set NQ_OVF alone. -/
theorem postNotice_glb (code cls : Nat) (args : List Byte) (s : State) :
    (postNotice code cls args s).glb = { s.glb with nqOvf := (postNotice code cls args s).glb.nqOvf } := by
  unfold postNotice
  dsimp only
  split
  · rfl
  · split
    · rfl
    · split
      · rfl
      · rw [dropNotice_glb]
        rfl

/-- Of the Host Port a notice touches the queue and the Ethernet channels. -/
theorem postNotice_hp (code cls : Nat) (args : List Byte) (s : State) :
    (postNotice code cls args s).hp = { s.hp with nq := (postNotice code cls args s).hp.nq, eth := (postNotice code cls args s).hp.eth } := by
  unfold postNotice dropNotice
  dsimp only
  split
  · rfl
  · split
    · rfl
    · split
      · rfl
      · split
        · rfl
        · rfl

/-- Of the Time Unit, losing the time clears VALID and names the cause. -/
theorem timeInvalid_tmu (c : Nat) (s : State) : (timeInvalid c s).tmu = { s.tmu with valid := false, invCause := c } := by
  unfold timeInvalid
  by_cases hv : s.tmu.valid = true
  · rw [if_pos hv, postNotice_tmu]
  · rw [if_neg hv]
    exact congrArg (fun b => { s.tmu with valid := b, invCause := c }) (Bool.not_eq_true _ ▸ hv)

theorem timeInvalid_glb (c : Nat) (s : State) : (timeInvalid c s).glb = { s.glb with nqOvf := (timeInvalid c s).glb.nqOvf } := by
  unfold timeInvalid
  split
  · exact postNotice_glb _ _ _ _
  · rfl

/-- Two states that agree block by block are equal. -/
theorem state_eq {u s : State} (hglb : u.glb = s.glb) (hctr : u.ctr = s.ctr) (hcap : u.cap = s.cap) (hmcc : u.mcc = s.mcc) (hhp : u.hp = s.hp) (htmu : u.tmu = s.tmu) (hevr : u.evr = s.evr) (hsepia : u.sepia = s.sepia) (hstest : u.stest = s.stest) (hwoad : u.woad = s.woad) (hotp : u.otp = s.otp) (hrla : u.rla = s.rla) (hlm : u.lm = s.lm) (hing : u.ing = s.ing) (hpass : u.pass = s.pass) (hldg : u.ldg = s.ldg) (hbal : u.bal = s.bal) (hlake : u.lake = s.lake) (hmacs : u.macs = s.macs) (hcas : u.cas = s.cas) (hupd : u.upd = s.upd) (hcpm : u.cpm = s.cpm) (hout : u.out = s.out) (hfree : u.free = s.free) (hpending : u.pending = s.pending) : u = s := by
  cases u
  cases s
  simp_all

/-- A command that leads to a state that is known. -/
theorem does_next {c : Instr} {s u : State} {P : State → Prop} (hc : exec c s = .next u) (hP : P u) : Does c s P := ⟨u, hc, hP⟩

/-- A command that changes nothing, whether the cores run or not. -/
theorem stays_onCores {c : Instr} {s u : State} (hc : exec c s = onCores s u) (hu : u = s) : Stays c s := by
  rw [Stays, hc, onCores, hu, ite_self]

theorem stays_onClock {c : Instr} {s u : State} (hc : exec c s = onClock s u) (hu : u = s) : Stays c s := by
  rw [Stays, hc, onClock, hu, ite_self]

/-- A command while the clocks run. -/
theorem does_clocked {c : Instr} {s u : State} {P : State → Prop} (hr : s.clocked = true) (hc : exec c s = onClock s u) (hP : P u) : Does c s P :=
  ⟨u, by rw [hc, onClock, if_pos hr], hP⟩

/-- An engine call answers what its engine answers. -/
theorem answers_ecall {t pi rt ra fn len i : Nat} {p : Place} {c : Instr} {s : State} {eng : Nat → List Byte → State → EngOut} {r : EngOut} {P : EngOut → Prop}
    (h : s.callsAt t pi ra fn len p i = true) (hc : exec c s = .next (ecall t pi rt ra fn len eng s))
    (hr : eng t (s.load p len) (calling t rt i s) = r) (hP : P r) : Answers c t fn ra i s P :=
  ⟨r, by rw [hc, ecall_callsAt t pi rt ra fn len i p eng s h, hr], hP⟩

end Sys2Proof.Machine

namespace Sys2Proof.Machine

/-! ## Clock loss, relock and the fabric (R14, R15) -/

/-- A register of a reflected CRC of 32 bits keeps to 32 bits. -/
theorem crcR_lt {poly : Nat} (hp : poly < 2 ^ 32) (l : List Byte) : ∀ c, c < 2 ^ 32 → crcR poly c l < 2 ^ 32 := by
  have hbit : ∀ c, c < 2 ^ 32 → crcBitR poly c < 2 ^ 32 := by
    intro c hc
    unfold crcBitR
    split
    · exact Nat.xor_lt_two_pow (by omega) hp
    · omega
  have hiter : ∀ n c, c < 2 ^ 32 → iter n (crcBitR poly) c < 2 ^ 32 := by
    intro n
    induction n with
    | zero => exact fun c hc => hc
    | succ n ih => exact fun c hc => ih _ (hbit c hc)
  induction l with
  | nil => exact fun c hc => hc
  | cons b l ih =>
    intro c hc
    refine ih _ (hiter 8 _ (Nat.xor_lt_two_pow hc ?_))
    exact Nat.lt_trans b.isLt (by decide)

theorem crc32c_lt (l : List Byte) : crc32c l < 2 ^ 32 :=
  Nat.xor_lt_two_pow (crcR_lt (by decide) l _ (by decide)) (by decide)

/-- A flit made carries its sequence number, its body and a good CRC. -/
theorem mkFlit_fields (seq : BitVec 6) (body : BitVec 282) :
    flitGood (mkFlit seq body) = true ∧ flitSeq (mkFlit seq body) = seq ∧ flitDst (mkFlit seq body) = bits body.toNat 281 277 := by
  have hn : seq.toNat * 2 ^ 282 + body.toNat < 2 ^ 288 := by
    have h1 := seq.isLt
    have h2 := body.isLt
    omega
  have hc : flitCrc (seq.toNat * 2 ^ 282 + body.toNat) < 2 ^ 32 := crc32c_lt _
  have hflit : (mkFlit seq body).toNat = flitCrc (seq.toNat * 2 ^ 282 + body.toNat) * 2 ^ 288 + (seq.toNat * 2 ^ 282 + body.toNat) := by
    unfold mkFlit
    dsimp only
    rw [BitVec.toNat_ofNat, Nat.mod_eq_of_lt]
    omega
  have hs := seq.isLt
  have hb := body.isLt
  generalize hcrc : flitCrc (seq.toNat * 2 ^ 282 + body.toNat) = crc at hc hflit
  refine ⟨?_, BitVec.eq_of_toNat_eq ?_, ?_⟩
  · have hdiv : (mkFlit seq body).toNat / 2 ^ 288 = crc := by omega
    have hmod : (mkFlit seq body).toNat % 2 ^ 288 = seq.toNat * 2 ^ 282 + body.toNat := by omega
    unfold flitGood
    rw [hdiv, hmod, hcrc, beq_self_eq_true]
  · unfold flitSeq
    rw [BitVec.toNat_setWidth, BitVec.toNat_ushiftRight, Nat.shiftRight_eq_div_pow]
    omega
  · unfold flitDst bits
    rw [Nat.shiftRight_eq_div_pow, Nat.shiftRight_eq_div_pow]
    omega

/-- Ports whose transmitters stop or go on keep their keys. -/
theorem mem_mapVals {α β : Type} {f : α → β} {m : Map α} {P : β → Prop} (h : ∀ x, P (f x)) : ∀ e ∈ m.mapVals f, P e.2 := by
  intro e he
  obtain ⟨x, -, rfl⟩ := List.mem_map.mp he
  exact h x.2

/-- A link of the fabric that a flit has come over. -/
theorem execFlitReceive_eq {s : State} {link : Fin 76} {body : BitVec 282} {err : BitVec 320} {late : Bool} {x : BitVec 320 × FabLink}
    (hr : s.coresRun = true) (hl : (s.glb.links.get {} link).st ≠ .failed) (hx : (s.glb.links.get {} link).send body late = x) :
    exec (.flitReceive link body err late) s = .next (
      if flitGood (x.1 ^^^ err) = true ∧ flitDst (x.1 ^^^ err) < 24 then
        if flitSeq (x.1 ^^^ err) = x.2.expSeq then { s with glb.links := s.glb.links.put {} link { x.2 with st := .up, expSeq := x.2.expSeq + 1, retries := 0 } }
        else { s with glb.links := s.glb.links.put {} link x.2 }
      else if x.2.st = .retrying ∧ late = true then { s with glb.links := s.glb.links.put {} link x.2 }
      else if 16 ≤ x.2.retries then fabricCheck (markFailed link { s with glb.links := s.glb.links.put {} link x.2 })
      else emit (.retry link x.2.expSeq.toNat) (count (kFab link) { s with glb.links := s.glb.links.put {} link { x.2 with
          st := .retrying, retries := x.2.retries + 1, resend := x.2.sent.dropWhile fun f => flitSeq f != x.2.expSeq } })) := by
  subst hx
  show Host.Outcome.next _ = _
  rw [if_neg (fun h => h.elim (fun h => by simp [hr] at h) hl)]

/-- What a fabric without a path between two routers touches. -/
theorem fabricCheck_frame {s : State} (hp : s.cas.paired = false) : fabricCheck s =
    { s with glb.cut := (fabricCheck s).glb.cut, sepia := (fabricCheck s).sepia, ctr := (fabricCheck s).ctr, cpm.resetDue := (fabricCheck s).cpm.resetDue } ∧
    ((fabricCheck s).cpm.resetDue = s.cpm.resetDue ∨ (fabricCheck s).cpm.resetDue = some 3) := by
  unfold fabricCheck
  dsimp only
  split
  · exact ⟨rfl, Or.inl rfl⟩
  · have hc : (cutFabric s).cas.paired = false := by rw [cutFabric, sepWrite_frame]; exact hp
    rw [hc, Bool.false_and, if_neg Bool.false_ne_true]
    unfold cutFabric
    rw [sepWrite_frame]
    exact ⟨rfl, Or.inr rfl⟩

/-- Settles O24. -/
theorem clockAndFabric : Obligations.ClockAndFabric := by
  refine ⟨fun s unlock hp hc hq => ?_, fun s hc hp ht => ?_, fun s hc hp ht => ?_, fun s hc hp hrel => ?_, mkFlit_fields,
    fun s link body err late x hr hl hx hg hd hs => ?_, fun s link body err late x hr hl hx hb ht hu => ?_,
    fun s link body err late x hr hl hx hb ht hst hlate hq => ?_⟩
  · refine does_next rfl ?_
    rw [if_neg (by simp [hp]), if_neg (by simp [hc])]
    rw [if_neg (by simp [hq, enterHoldover, setAdj, stopTx])]
    refine ⟨?_, ?_, ?_, ?_, ?_, ?_, ?_, ?_⟩
    · simp only [count_glb, sepWrite_glb, recEvent_glb]
      rw [postNotice_glb, timeInvalid_glb, enterHoldover]
      simp [setAdj, stopTx]
    · simp [timeInvalid_tmu, enterHoldover, setAdj, stopTx]
    · simp [timeInvalid_tmu]
    · simp [timeInvalid_tmu]
    · simp [timeInvalid_tmu, enterHoldover]
    · simp [timeInvalid_tmu, enterHoldover]
    · simp only [count_rla, sepWrite_rla, recEvent_rla, postNotice_rla, timeInvalid_rla, count_lm, sepWrite_lm, recEvent_lm, postNotice_lm, timeInvalid_lm, enterHoldover, setAdj, countIf_rla, countIf_lm, stopTx]
      exact ⟨mem_mapVals (P := fun x : RPort => x.stopR14 = true ∧ x.resumeAt = none) fun x => ⟨Bool.or_true _, rfl⟩,
        mem_mapVals (P := fun x : LPort => x.stopR14 = true ∧ x.resumeAt = none) fun x => ⟨Bool.or_true _, rfl⟩⟩
    · apply state_eq <;> simp [enterHoldover, setAdj, stopTx]
  · exact congrArg Host.Outcome.next (if_pos ⟨hc, hp, ht⟩)
  · exact congrArg Host.Outcome.next (if_neg fun h => by omega)
  · refine does_next rfl ?_
    rw [if_pos ⟨hc, hrel, hp⟩]
    refine ⟨?_, ?_, ?_, fun p => ?_, ?_, ?_⟩
    · rw [postNotice_glb]; simp [stopTx]
    · rw [postNotice_glb]; simp [stopTx]
    · simp [stopTx]
    · simp only [postNotice_rla, stopTx, Map.find_mapVals, Option.map_map]
      rfl
    · exact (posts_postNotice 0x0102 1 _ _).congr_left rfl rfl
    · apply state_eq <;> simp [stopTx]
  · refine does_next (execFlitReceive_eq hr hl hx) ?_
    rw [if_pos ⟨hg, hd⟩, if_pos hs]
    exact ⟨Map.get_put_self _ _ _ _, fun k hk => Map.get_put_ne _ _ _ hk, rfl⟩
  · refine does_next (execFlitReceive_eq hr hl hx) ?_
    rw [if_neg hb, if_neg (fun h => by rw [hu] at h; exact LinkSt.noConfusion h.1), if_neg (Nat.not_le.mpr ht)]
    refine ⟨rfl, ?_, fun k hk => ?_, (counter_count _ _ _).trans (if_pos rfl), rfl⟩
    · simp
    · simp [Map.get_put_ne _ _ _ hk]
  · refine does_next (execFlitReceive_eq hr hl hx) ?_
    rw [if_neg hb, if_neg (fun h => by rw [hlate] at h; exact Bool.false_ne_true h.2), if_pos ht]
    obtain ⟨hframe, hdue⟩ := fabricCheck_frame (s := markFailed link { s with glb.links := s.glb.links.put {} link x.2 }) (by rw [markFailed, postNotice_cas]; exact hq)
    have hmark : markFailed link { s with glb.links := s.glb.links.put {} link x.2 } =
        postNotice 0x0103 0 (le 1 link) { s with glb.links := (s.glb.links.put {} link x.2).put {} link { x.2 with st := .failed, resend := [] } } := by
      unfold markFailed
      rw [Map.get_put_self]
    have hlinks : (fabricCheck (markFailed link { s with glb.links := s.glb.links.put {} link x.2 })).glb.links
        = (s.glb.links.put {} link x.2).put {} link { x.2 with st := .failed, resend := [] } := by
      rw [hframe, hmark, postNotice_glb]
    have hposts := posts_postNotice 0x0103 0 (le 1 link) { s with glb.links := (s.glb.links.put {} link x.2).put {} link { x.2 with st := .failed, resend := [] } }
    refine ⟨?_, fun k hk => ?_, (hposts.congr_left rfl rfl).congr ?_ ?_, ?_, ?_, ?_, ?_, ?_⟩
    · rw [hlinks, Map.get_put_self]
    · rw [hlinks, Map.get_put_ne _ _ _ hk, Map.get_put_ne _ _ _ hk]
    · rw [hframe, hmark]
    · rw [hframe, hmark]
    · exact hdue.imp_left fun h => h.trans (by rw [hmark, postNotice_cpm])
    · rw [hframe, hmark, postNotice_ldg]
    · rw [hframe, hmark, postNotice_ing]
    · rw [hframe, hmark, postNotice_lake]
    · rw [hframe, hmark, postNotice_mcc]

end Sys2Proof.Machine

namespace Sys2Proof.Machine

/-! ## Register writes and the statistics snapshot (R8, R9, R22) -/

/-- An aligned write while the bus runs. -/
theorem exec_registerWrite {a : BitVec 20} {v : BitVec 32} {s u : State} (hr : s.barRuns = true) (ha : (a.toNat % 4 == 0) = true)
    (hw : writeReg a.toNat v s = u) : exec (.registerWrite a v) s = .next u := by
  rw [← hw]
  refine congrArg Host.Outcome.next (if_pos ?_)
  rw [hr, ha]
  rfl

theorem does_write {a : BitVec 20} {v : BitVec 32} {s u : State} {P : State → Prop} (hr : s.barRuns = true) (ha : (a.toNat % 4 == 0) = true)
    (hw : writeReg a.toNat v s = u) (hP : P u) : Does (.registerWrite a v) s P := does_next (exec_registerWrite hr ha hw) hP

/-- The bits of a selector's field, masked. -/
theorem toNat_setWidth_and (w : Nat) (v : BitVec 32) : (v.setWidth w).toNat = v.toNat &&& (2 ^ w - 1) := by
  rw [BitVec.toNat_setWidth, Nat.and_two_pow_sub_one_eq_mod]

theorem toNat_plSel (v : BitVec 32) : (v.setWidth 6 &&& 0x37).toNat = v.toNat &&& 0x37 := by
  rw [BitVec.toNat_and, toNat_setWidth_and 6 v, Nat.and_assoc]
  rfl

theorem toNat_casSel (v : BitVec 32) : ((v >>> 5).setWidth 2).toNat * 32 + (v.setWidth 5).toNat = v.toNat &&& 0x7F := by
  rw [show (0x7F : Nat) = 2 ^ 7 - 1 from rfl, Nat.and_two_pow_sub_one_eq_mod, BitVec.toNat_setWidth, BitVec.toNat_setWidth, BitVec.toNat_ushiftRight,
    Nat.shiftRight_eq_div_pow]
  omega

theorem readReg_qSel (s : State) : s.readReg 0x8008 = s.hp.qSel.toNat := by simp [State.readReg, State.regHp]
theorem readReg_hpCntSel (s : State) : s.readReg 0x8040 = s.hp.cntSel.toNat := by simp [State.readReg, State.regHp]
theorem readReg_updCntSel (s : State) : s.readReg 0x5C030 = s.upd.cntSel.toNat := by simp [State.readReg, State.regUpd]

theorem writeReg_qSel (v : BitVec 32) (s : State) : writeReg 0x8008 v s = { s with hp.qSel := v.setWidth 4 } := by simp [writeReg, writeHp]
theorem writeReg_hpCntSel (v : BitVec 32) (s : State) : writeReg 0x8040 v s = { s with hp.cntSel := v.setWidth 5 } := by simp [writeReg, writeHp]
theorem writeReg_updCntSel (v : BitVec 32) (s : State) : writeReg 0x5C030 v s = { s with upd.cntSel := v.setWidth 4 } := by simp [writeReg, writeUpd]

/-- The registers a write can change, below the blocks with write handlers of their own. -/
def writableRegs : List Nat :=
  [0x00010, 0x00040, 0x00020, 0x04030, 0x04044, 0x04048, 0x10010, 0x100A0, 0x18010, 0x20010, 0x20014, 0x20020, 0x20040, 0x28030, 0x2C020, 0x30030, 0x30040,
    0x38010, 0x38020, 0x38030, 0x3C030, 0x40030, 0x44030, 0x48030, 0x50010, 0x50030, 0x58020, 0x58030, 0x58040,
    0x8008, 0x8010, 0x8014, 0x8018, 0x801C, 0x8020, 0x8030, 0x8034, 0x8038, 0x8040, 0x5C030, 0x5C040, 0x5C044]

theorem writeHp_of_readOnly {o : Nat} (v : BitVec 32) (s : State) (h : o + 0x8000 ∉ writableRegs) (hm : ¬ (0x4000 ≤ o ∧ o < 0x4120)) : writeHp o v s = s := by
  unfold writeHp
  dsimp only
  rw [if_neg hm]
  split
  case h_11 => rfl
  all_goals exact absurd h (by decide)

theorem writeUpd_of_readOnly {o : Nat} (v : BitVec 32) (s : State) (h : o + 0x5C000 ∉ writableRegs) (hm : ¬ (0x1000 ≤ o ∧ o < 0x2000)) : writeUpd o v s = s := by
  unfold writeUpd
  have h30 : o ≠ 0x030 := fun e => h (by rw [e]; decide)
  have h40 : o ≠ 0x040 := fun e => h (by rw [e]; decide)
  have h44 : o ≠ 0x044 := fun e => h (by rw [e]; decide)
  rw [if_neg h30, if_neg h40, if_neg h44, if_neg hm, ite_self]

/-- A write to any other register, outside the vector table and the recovery window, changes nothing. -/
theorem writeReg_of_readOnly {a : Nat} (v : BitVec 32) (s : State) (h : a ∉ writableRegs) (hx : ¬ (0xC000 ≤ a ∧ a < 0xC120)) (hw : ¬ (0x5D000 ≤ a ∧ a < 0x5E000)) :
    writeReg a v s = s := by
  have hhp : 0x8000 ≤ a → ¬ (0x4000 ≤ a - 0x8000 ∧ a - 0x8000 < 0x4120) := by omega
  have hupd : 0x5C000 ≤ a → ¬ (0x1000 ≤ a - 0x5C000 ∧ a - 0x5C000 < 0x2000) := by omega
  unfold writeReg
  split
  case h_30 =>
    split
    case isTrue hlo =>
      have ho : a - 0x8000 + 0x8000 ∉ writableRegs := by rwa [Nat.sub_add_cancel hlo.1]
      exact writeHp_of_readOnly v s ho (hhp hlo.1)
    case isFalse =>
      split
      case isTrue hlo =>
        have ho : a - 0x5C000 + 0x5C000 ∉ writableRegs := by rwa [Nat.sub_add_cancel hlo.1]
        exact writeUpd_of_readOnly v s ho (hupd hlo.1)
      case isFalse => rfl
  all_goals exact absurd h (by decide)

/-- The registers that are read only. -/
def readOnlyRegs : List Nat :=
  [0x0, 0x8, 0x28, 0x2C, 0x30, 0x44, 0x50, 0x58, 0x5C, 0x60, 0x64, 0x10014, 0x10020, 0x10024, 0x10028, 0x1002C,
    0x10030, 0x10034, 0x10038, 0x1003C, 0x10040, 0x10044, 0x10048, 0x1004C, 0x10050, 0x10054, 0x10058, 0x1005C, 0x10060, 0x10064, 0x10068, 0x1006C,
    0x10070, 0x10074, 0x10078, 0x1007C, 0x10080, 0x10084, 0x10090, 0x10094, 0x10098, 0x1009C, 0x100A4, 0x100A8, 0x18014, 0x18020, 0x18024, 0x18028,
    0x1802C, 0x18030, 0x18034, 0x18038, 0x1803C, 0x18040, 0x18044, 0x18048, 0x1804C, 0x18050, 0x18054, 0x18058, 0x1805C, 0x18060, 0x18064, 0x18068,
    0x1806C, 0x18070, 0x18074, 0x18078, 0x1807C, 0x18080, 0x18084, 0x18088, 0x1808C, 0x18090, 0x18094, 0x18098, 0x1809C, 0x180A0, 0x180A4, 0x180B0,
    0x20000, 0x20004, 0x20008, 0x20018, 0x2001C, 0x20024, 0x20028, 0x20030, 0x20034, 0x20048, 0x2004C, 0x20050, 0x20058, 0x2005C, 0x28000, 0x28008,
    0x2800C, 0x28010, 0x28014, 0x28018, 0x28020, 0x28024, 0x28028, 0x2802C, 0x28034, 0x28038, 0x28040, 0x28044, 0x2C000, 0x2C004, 0x2C008, 0x2C00C,
    0x2C010, 0x2C014, 0x2C024, 0x2C028, 0x2C030, 0x30000, 0x30004, 0x30008, 0x3000C, 0x30010, 0x30014, 0x30018, 0x3001C, 0x30020, 0x30034, 0x30038,
    0x30044, 0x30050, 0x50000, 0x50004, 0x50014, 0x50018, 0x5001C, 0x50020, 0x50024, 0x50034, 0x50038, 0x8000, 0x8024, 0x803C, 0x8044, 0x8048,
    0x38000, 0x38004, 0x38008, 0x38014, 0x38018, 0x3801C, 0x38034, 0x38038, 0x38040, 0x3C000, 0x3C008, 0x3C00C, 0x3C010, 0x3C014, 0x3C018, 0x3C01C,
    0x3C020, 0x3C024, 0x3C034, 0x3C038, 0x40000, 0x40004, 0x40008, 0x40010, 0x40014, 0x40034, 0x40038, 0x48000, 0x48020, 0x48024, 0x48028, 0x4802C,
    0x48034, 0x48038, 0x48040, 0x48044, 0x48048, 0x4804C, 0x4000, 0x4004, 0x4010, 0x4014, 0x401C, 0x4034, 0x4038, 0x5C004, 0x5C010, 0x5C014,
    0x5C020, 0x5C024, 0x5C034, 0x5C038, 0x58000, 0x58008, 0x5800C, 0x58010, 0x58014, 0x58018, 0x5801C, 0x58024, 0x58034, 0x58038, 0x4040, 0x4050]

/-- Settles O25. -/
theorem registerWrites : Obligations.RegisterWrites := by
  refine ⟨fun s a m v hr hm => ?_, fun s a v ha => ?_, fun s a v ha => ?_, fun s v hr => ⟨?_, ?_, ?_, ?_, ?_, ?_⟩, fun s hr hs => ?_, fun s hs => ?_,
    fun s hr hs => ?_, fun s bit hw hr => ?_⟩
  · have shows : ∀ {a m : Nat} {u : State}, ((BitVec.ofNat 20 a).toNat % 4 == 0) = true → writeReg (BitVec.ofNat 20 a).toNat v s = u →
        u.readReg a = v.toNat &&& m →
        (u.ctr = s.ctr ∧ u.cap = s.cap ∧ u.mcc.threads = s.mcc.threads ∧ u.ldg.live = s.ldg.live ∧ u.lake.log = s.lake.log ∧ u.ing.dir = s.ing.dir ∧
          u.woad.slots = s.woad.slots ∧ u.out = s.out) →
        Does (.registerWrite (BitVec.ofNat 20 a) v) s (fun u => u.readReg a = v.toNat &&& m ∧ u.ctr = s.ctr ∧ u.cap = s.cap ∧
          u.mcc.threads = s.mcc.threads ∧ u.ldg.live = s.ldg.live ∧ u.lake.log = s.lake.log ∧ u.ing.dir = s.ing.dir ∧
          u.woad.slots = s.woad.slots ∧ u.out = s.out) := fun ha hw hread hrest => does_write hr ha hw ⟨hread, hrest⟩
    simp only [List.mem_cons, Prod.mk.injEq, List.not_mem_nil, or_false] at hm
    rcases hm with ⟨rfl, rfl⟩ | ⟨rfl, rfl⟩ | ⟨rfl, rfl⟩ | ⟨rfl, rfl⟩ | ⟨rfl, rfl⟩ | ⟨rfl, rfl⟩ | ⟨rfl, rfl⟩ | ⟨rfl, rfl⟩ | ⟨rfl, rfl⟩ | ⟨rfl, rfl⟩ |
      ⟨rfl, rfl⟩ | ⟨rfl, rfl⟩ | ⟨rfl, rfl⟩ | ⟨rfl, rfl⟩ | ⟨rfl, rfl⟩ | ⟨rfl, rfl⟩ | ⟨rfl, rfl⟩ | ⟨rfl, rfl⟩ | ⟨rfl, rfl⟩ | ⟨rfl, rfl⟩ |
      ⟨rfl, rfl⟩ | ⟨rfl, rfl⟩ | ⟨rfl, rfl⟩ | ⟨rfl, rfl⟩ | ⟨rfl, rfl⟩
    · exact shows (u := { s with glb.fabSel := v.setWidth 7 }) (by decide) rfl (toNat_setWidth_and 7 v) ⟨rfl, rfl, rfl, rfl, rfl, rfl, rfl, rfl⟩
    · exact shows (u := { s with cpm.cntSel := v.setWidth 4 }) (by decide) rfl (toNat_setWidth_and 4 v) ⟨rfl, rfl, rfl, rfl, rfl, rfl, rfl, rfl⟩
    · exact shows (u := { s with rla.laneSel := v.setWidth 8 }) (by decide) rfl (toNat_setWidth_and 8 v) ⟨rfl, rfl, rfl, rfl, rfl, rfl, rfl, rfl⟩
    · exact shows (u := { s with rla.dutySel := v.setWidth 6 }) (by decide) rfl (toNat_setWidth_and 6 v) ⟨rfl, rfl, rfl, rfl, rfl, rfl, rfl, rfl⟩
    · exact shows (u := { s with lm.portSel := v.setWidth 2 }) (by decide) rfl (toNat_setWidth_and 2 v) ⟨rfl, rfl, rfl, rfl, rfl, rfl, rfl, rfl⟩
    · exact shows (u := { s with ing.srcSel := v.setWidth 9 }) (by decide) rfl (toNat_setWidth_and 9 v) ⟨rfl, rfl, rfl, rfl, rfl, rfl, rfl, rfl⟩
    · exact shows (u := { s with ing.codeSel := v.setWidth 6 }) (by decide) rfl (toNat_setWidth_and 6 v) ⟨rfl, rfl, rfl, rfl, rfl, rfl, rfl, rfl⟩
    · exact shows (u := { s with ing.plSel := v.setWidth 6 &&& 0x37 }) (by decide) rfl (toNat_plSel v) ⟨rfl, rfl, rfl, rfl, rfl, rfl, rfl, rfl⟩
    · exact shows (u := { s with ldg.cntSel := v.setWidth 4 }) (by decide) rfl (toNat_setWidth_and 4 v) ⟨rfl, rfl, rfl, rfl, rfl, rfl, rfl, rfl⟩
    · exact shows (u := { s with bal.cntSel := v.setWidth 4 }) (by decide) rfl (toNat_setWidth_and 4 v) ⟨rfl, rfl, rfl, rfl, rfl, rfl, rfl, rfl⟩
    · exact shows (u := { s with lake.cntSel := v.setWidth 5 }) (by decide) rfl (toNat_setWidth_and 5 v) ⟨rfl, rfl, rfl, rfl, rfl, rfl, rfl, rfl⟩
    · exact shows (u := { s with lake.lunSel := v.setWidth 8 }) (by decide) rfl (toNat_setWidth_and 8 v) ⟨rfl, rfl, rfl, rfl, rfl, rfl, rfl, rfl⟩
    · exact shows (u := { s with woad.slotSel := v.setWidth 6 }) (by decide) rfl (toNat_setWidth_and 6 v) ⟨rfl, rfl, rfl, rfl, rfl, rfl, rfl, rfl⟩
    · exact shows (u := { s with woad.cntSel := v.setWidth 5 }) (by decide) rfl (toNat_setWidth_and 5 v) ⟨rfl, rfl, rfl, rfl, rfl, rfl, rfl, rfl⟩
    · exact shows (u := { s with tmu.cntSel := v.setWidth 4 }) (by decide) rfl (toNat_setWidth_and 4 v) ⟨rfl, rfl, rfl, rfl, rfl, rfl, rfl, rfl⟩
    · exact shows (u := updMac 0 (fun x => { x with cntSel := v.setWidth 5 }) s) (by decide) rfl ((congrArg (fun x : MacSt => x.cntSel.toNat) (mac_updMac_self _ _ _)).trans (toNat_setWidth_and 5 v)) ⟨rfl, rfl, rfl, rfl, rfl, rfl, rfl, rfl⟩
    · exact shows (u := updMac 1 (fun x => { x with cntSel := v.setWidth 5 }) s) (by decide) rfl ((congrArg (fun x : MacSt => x.cntSel.toNat) (mac_updMac_self _ _ _)).trans (toNat_setWidth_and 5 v)) ⟨rfl, rfl, rfl, rfl, rfl, rfl, rfl, rfl⟩
    · exact shows (u := { s with cas.portSel := (v >>> 5).setWidth 2, cas.cntSel := v.setWidth 5 }) (by decide) rfl (toNat_casSel v) ⟨rfl, rfl, rfl, rfl, rfl, rfl, rfl, rfl⟩
    · exact shows (u := { s with mcc.thrSel := v.setWidth 8 }) (by decide) rfl (toNat_setWidth_and 8 v) ⟨rfl, rfl, rfl, rfl, rfl, rfl, rfl, rfl⟩
    · exact shows (u := { s with mcc.cntSel := v.setWidth 5 }) (by decide) rfl (toNat_setWidth_and 5 v) ⟨rfl, rfl, rfl, rfl, rfl, rfl, rfl, rfl⟩
    · exact shows (u := { s with stest.cntSel := v.setWidth 4 }) (by decide) rfl (toNat_setWidth_and 4 v) ⟨rfl, rfl, rfl, rfl, rfl, rfl, rfl, rfl⟩
    · exact shows (u := { s with stest.spPage := v.setWidth 8 }) (by decide) rfl (toNat_setWidth_and 8 v) ⟨rfl, rfl, rfl, rfl, rfl, rfl, rfl, rfl⟩
    · exact shows (u := { s with hp.qSel := v.setWidth 4 }) (by decide) (writeReg_qSel v s) ((readReg_qSel _).trans (toNat_setWidth_and 4 v)) ⟨rfl, rfl, rfl, rfl, rfl, rfl, rfl, rfl⟩
    · exact shows (u := { s with hp.cntSel := v.setWidth 5 }) (by decide) (writeReg_hpCntSel v s) ((readReg_hpCntSel _).trans (toNat_setWidth_and 5 v)) ⟨rfl, rfl, rfl, rfl, rfl, rfl, rfl, rfl⟩
    · exact shows (u := { s with upd.cntSel := v.setWidth 4 }) (by decide) (writeReg_updCntSel v s) ((readReg_updCntSel _).trans (toNat_setWidth_and 4 v)) ⟨rfl, rfl, rfl, rfl, rfl, rfl, rfl, rfl⟩
  · have hall : ∀ e ∈ readOnlyRegs, e ∉ writableRegs ∧ ¬ (0xC000 ≤ e ∧ e < 0xC120) ∧ ¬ (0x5D000 ≤ e ∧ e < 0x5E000) ∧ e < 2 ^ 20 := by decide +kernel
    obtain ⟨h1, h2, h3, h4⟩ := hall a ha
    have hlt : (BitVec.ofNat 20 a).toNat = a := by rw [BitVec.toNat_ofNat, Nat.mod_eq_of_lt h4]
    have hw := writeReg_of_readOnly v s h1 h2 h3
    refine congrArg Host.Outcome.next ?_
    rw [hlt, hw, ite_self]
  · refine congrArg Host.Outcome.next (if_neg ?_)
    simp [ha]
  · refine exec_registerWrite hr (by decide) ?_
    show (if v.getLsbD 16 = true then { s with glb.nqOvf := false } else s) = _
    cases v.getLsbD 16 <;> simp
  · refine exec_registerWrite hr (by decide) ?_
    show (if v.getLsbD 31 = true then { s with ing.strangerOvf := false } else s) = _
    cases v.getLsbD 31 <;> simp
  · refine exec_registerWrite hr (by decide) ?_
    show (if v.getLsbD 31 = true then { s with stest.fullNext := true } else s) = _
    cases v.getLsbD 31 <;> simp
  · exact exec_registerWrite hr (by decide) rfl
  · exact exec_registerWrite hr (by decide) rfl
  · refine exec_registerWrite hr (by decide) ?_
    show (if v.getLsbD 0 = true then startSnap s else s) = _
    unfold startSnap
    cases hs : s.glb.snapIn <;> simp
  · refine congrArg Host.Outcome.next ((if_pos hr).trans ?_)
    unfold startSnap
    rw [hs]
    rfl
  · refine congrArg Host.Outcome.next ?_
    have hsome : startSnap s = s := if_neg (by simpa using hs)
    rw [hsome, ite_self]
  · refine congrArg Host.Outcome.next ((if_pos hr).trans ?_)
    rw [if_pos hs]
    rfl
  · refine congrArg Host.Outcome.next ?_
    rw [hr]
    cases bit <;> cases hw <;> simp

end Sys2Proof.Machine

namespace Sys2Proof.Machine

/-! ## Radio links (R71, R72, R91, R92) -/

@[simp] theorem rport_postNotice (p code cls : Nat) (args : List Byte) (s : State) : (postNotice code cls args s).rport p = s.rport p := by simp [State.rport]

@[simp] theorem rport_countIf (b : Bool) (k p : Nat) (s : State) : (countIf b k s).rport p = s.rport p := by simp [State.rport]

/-- A counter that an operation may count. -/
theorem counter_countIf (b : Bool) (k j : Nat) (s : State) : (countIf b k s).counter j = if b = true ∧ j = k then s.counter j + 1 else s.counter j := by
  unfold countIf
  cases b
  · simp
  · simp [counter_count]

theorem counter_updRport (p : Nat) (f : RPort → RPort) (s : State) (j : Nat) : (updRport p f s).counter j = s.counter j := rfl

/-- A port of the radio changed and counters counted touch nothing else. -/
theorem updRport_frame (p : Nat) (f : RPort → RPort) (s : State) : updRport p f s = { s with rla := (updRport p f s).rla } := rfl

/-- The notice of a port, and the port changed before it. -/
theorem posts_after_updRport (code cls : Nat) (args : List Byte) (p : Nat) (f : RPort → RPort) (s : State) :
    Posts code cls args s (postNotice code cls args (updRport p f s)) := (posts_postNotice code cls args (updRport p f s)).congr_left rfl rfl

/-- Counting a span of presence touches BUSY and its counters. -/
theorem busyCount_frame (lane a b : Nat) (s : State) :
    busyCount lane a b s = { s with rla.busy := (busyCount lane a b s).rla.busy, ctr := (busyCount lane a b s).ctr } := by
  have counted : ∀ k n (x : State), x = { s with rla.busy := x.rla.busy } →
      countN k n x = { s with rla.busy := (countN k n x).rla.busy, ctr := (countN k n x).ctr } := fun _ _ _ h => by rw [h]; rfl
  unfold busyCount
  dsimp only
  split
  · rfl
  · exact counted _ _ _ rfl

theorem busyTillNow_frame (lane rate start : Nat) (s : State) :
    busyTillNow lane rate start s = { s with rla.busy := (busyTillNow lane rate start s).rla.busy, ctr := (busyTillNow lane rate start s).ctr } := by
  unfold busyTillNow
  exact busyCount_frame _ _ _ _

/-- So does ending the spans of many held frames. -/
theorem foldl_busyTillNow_frame (l : Map Held) : ∀ s : State, ∃ b c,
    l.foldl (fun s e => busyTillNow (e.1 / 4) e.2.rate e.2.syncAt s) s = { s with rla.busy := b, ctr := c } := by
  induction l with
  | nil => exact fun s => ⟨_, _, rfl⟩
  | cons e l ih =>
    intro s
    obtain ⟨b, c, h⟩ : ∃ b c, busyTillNow (e.1 / 4) e.2.rate e.2.syncAt s = { s with rla.busy := b, ctr := c } := ⟨_, _, busyTillNow_frame _ _ _ _⟩
    rw [List.foldl_cons, h]
    exact ih { s with rla.busy := b, ctr := c }

/-- What is found among the entries whose key passes a test. -/
theorem find_filter_key {α : Type} (m : Map α) (p : Nat → Bool) (k : Nat) :
    Map.find (m.filter fun e => p e.1) k = if p k then m.find k else none := find_keep m p k

/-- The link of a port failed: the frames held for that port are gone and the notice is posted. -/
theorem radioLinkFail_spec (p : Nat) (s : State) : ∃ (rla : Rla) (ctr : Map (BitVec 64)),
    radioLinkFail p s = postNotice 0x0204 0 (le 1 p) { s with rla := rla, ctr := ctr } ∧
    rla.ports = s.rla.ports.put {} p { s.rport p with rxlink := false, linkUpAt := s.nowNs, goodRun := 0 } ∧
    ∀ k, rla.layers.find k = if k / 256 = p then none else s.rla.layers.find k := by
  obtain ⟨b, c, h⟩ := foldl_busyTillNow_frame (s.rla.layers.filter fun e => e.1 / 256 == p) s
  refine ⟨{ s.rla with
    busy := b, layers := s.rla.layers.filter (fun e => e.1 / 256 != p),
    ports := s.rla.ports.put {} p { s.rport p with rxlink := false, linkUpAt := s.nowNs, goodRun := 0 } }, c, ?_, rfl, fun k => ?_⟩
  · unfold radioLinkFail
    dsimp only
    rw [h]
    rfl
  · have := find_filter_key s.rla.layers (fun k => k / 256 != p) k
    by_cases hk : k / 256 = p
    · simpa [hk] using this
    · simpa [hk] using this

/-- The ports after one was changed. -/
theorem rport_of_ports {s u : State} {p : Nat} {x : RPort} (h : u.rla.ports = s.rla.ports.put {} p x) :
    u.rport p = x ∧ ∀ q, q ≠ p → u.rport q = s.rport q := by
  refine ⟨?_, fun q hq => ?_⟩
  · unfold State.rport
    rw [h, Map.get_put_self]
  · unfold State.rport
    rw [h, Map.get_put_ne _ _ _ hq]

/-- Settles O26. -/
theorem radioLinks : Obligations.RadioLinks := by
  refine ⟨fun s port word he hr hg => ?_, fun s port word he hr hg => ?_, fun s port hr he hl hg hb => ?_, fun s port hg => ?_,
    fun s port hr hl hm => ?_, fun s port hm => ?_, fun s port hr he hl ht => ?_, fun s port ht => ?_, fun s port hr he hl ht => ?_, fun s port ht => ?_,
    fun s port hr he hl ht => ?_, fun s port ht => ?_, fun s port k hr hl hk ht hsf => ?_, fun s port k hk ht => ?_⟩
  · have hword : wordGood word.toNat && true = true := by rw [hg]; rfl
    refine does_next (congrArg Host.Outcome.next (if_neg (by simp [he, hr, State.receives]))) ?_
    refine ⟨?_, ?_, ?_, ?_, ?_, ?_, ?_, ?_, ?_, ?_, fun q hq => ?_, ?_⟩
    · simp [hg]
    · simp
    · simp [hg]
    · simp
    · simp [hg]
    · simp
    · simp
    · simp
    · rw [counter_updRport, counter_countIf, counter_countIf, hg]
      cases bitAt word.toNat 15 <;> simp [kRlaPort]
    · simp [counter_updRport, counter_countIf, hg, kRlaPort]
    · simp [rport_updRport_ne _ _ hq]
    · apply state_eq <;> simp
  · refine does_next (congrArg Host.Outcome.next (if_neg (by simp [he, hr, State.receives]))) ?_
    refine ⟨?_, ?_, ?_, ?_, ?_, ?_, ?_, fun q hq => ?_, ?_⟩
    · simp [hg]
    · simp
    · simp [hg]
    · simp [hg]
    · simp [hg]
    · simp [RPort.channel, hg]
    · simp [counter_updRport, counter_countIf, hg, kRlaPort]
    · simp [rport_updRport_ne _ _ hq]
    · apply state_eq <;> simp
  · refine does_next (congrArg Host.Outcome.next (if_neg (by simp [he, hr, hl, hg]))) ?_
    have hsame : ∀ f, (if port.val = 0 then reducedStart (updRport port f s) else updRport port f s) = updRport port f s := by
      intro f
      by_cases hp : port.val = 0
      · have hmode : ¬ (updRport port f s).glb.mode = .bringup := hb.resolve_left fun h => h (Fin.ext hp)
        rw [if_pos hp, reducedStart, if_neg fun h => hmode h.1]
      · rw [if_neg hp]
    dsimp only
    rw [hsame]
    exact ⟨rport_updRport_self _ _ _, fun q hq => rport_updRport_ne _ _ hq, rfl⟩
  · exact congrArg Host.Outcome.next (if_pos (by simp [hg]))
  · refine does_onCores hr rfl ?_
    rw [if_pos (by simp [hl, hm])]
    obtain ⟨rla, ctr, hu, hports, hlayers⟩ := radioLinkFail_spec port s
    obtain ⟨hself, hne⟩ := rport_of_ports (u := { s with rla := rla, ctr := ctr }) hports
    rw [hu]
    refine ⟨by rw [rport_postNotice, hself], by rw [rport_postNotice, hself], fun k => by rw [postNotice_rla]; exact hlayers k,
      (posts_postNotice _ _ _ _).congr_left rfl rfl, fun q hq => by rw [rport_postNotice, hne q hq], ?_⟩
    rw [postNotice_frame]
  · refine stays_onCores rfl (if_neg ?_)
    simp; omega
  · refine does_onCores hr rfl ?_
    rw [if_pos (by simp [he, hl, ht])]
    obtain ⟨rla, ctr, hu, hports, -⟩ := radioLinkFail_spec port s
    obtain ⟨hself, hne⟩ := rport_of_ports (u := { s with rla := rla, ctr := ctr }) hports
    rw [hu]
    refine ⟨by rw [rport_postNotice, hself], by rw [rport_postNotice, hself], (posts_postNotice _ _ _ _).congr_left rfl rfl,
      fun q hq => by rw [rport_postNotice, hne q hq], ?_⟩
    rw [postNotice_frame]
  · refine stays_onCores rfl (if_neg ?_)
    simp; omega
  · refine does_onCores hr rfl ?_
    rw [if_pos (by simp [he, hl, ht])]
    exact ⟨rport_updRport_self _ _ _, fun q hq => rport_updRport_ne _ _ hq, rfl⟩
  · refine stays_onCores rfl (if_neg ?_)
    simp; omega
  · refine does_onCores hr rfl ?_
    rw [if_pos (by simp [he, hl, ht])]
    refine ⟨by simp, posts_after_updRport _ _ _ _ _ _, fun q hq => by rw [rport_postNotice, rport_updRport_ne _ _ hq], ?_⟩
    rw [postNotice_frame]
    rfl
  · refine stays_onCores rfl (if_neg ?_)
    simp; omega
  · refine does_onCores hr rfl ?_
    dsimp only
    rw [hk]
    dsimp only
    rw [if_pos (by simp [hl, ht, hsf])]
    exact ⟨by rw [rport_updRport_self, ← hk], fun q hq => rport_updRport_ne _ _ hq, rfl⟩
  · refine stays_onCores rfl ?_
    dsimp only
    rw [hk]
    refine if_neg ?_
    simp; omega

end Sys2Proof.Machine

namespace Sys2Proof.Machine

/-! ## Radio reception (R76, R78, R80, R90) -/

/-- Counting a span of presence counts BUSY time of its lane and no other counter. -/
theorem counter_busyCount {lane a b j : Nat} {s : State} (hj : j ≠ kRla lane 12) : (busyCount lane a b s).counter j = s.counter j := by
  unfold busyCount
  dsimp only
  split
  · rfl
  · rw [counter_countN, if_neg hj]
    rfl

theorem busyCount_busy_ne {lane a b k : Nat} {s : State} (hk : k ≠ lane) : (busyCount lane a b s).rla.busy.get [] k = s.rla.busy.get [] k := by
  unfold busyCount
  dsimp only
  split
  · rfl
  · rw [countN_rla]
    dsimp only
    rw [Map.get_put_ne _ _ _ hk]

@[simp] theorem busyCount_glb (lane a b : Nat) (s : State) : (busyCount lane a b s).glb = s.glb := by rw [busyCount_frame]
@[simp] theorem busyCount_cap (lane a b : Nat) (s : State) : (busyCount lane a b s).cap = s.cap := by rw [busyCount_frame]
@[simp] theorem busyCount_mcc (lane a b : Nat) (s : State) : (busyCount lane a b s).mcc = s.mcc := by rw [busyCount_frame]
@[simp] theorem busyCount_hp (lane a b : Nat) (s : State) : (busyCount lane a b s).hp = s.hp := by rw [busyCount_frame]
@[simp] theorem busyCount_tmu (lane a b : Nat) (s : State) : (busyCount lane a b s).tmu = s.tmu := by rw [busyCount_frame]
@[simp] theorem busyCount_evr (lane a b : Nat) (s : State) : (busyCount lane a b s).evr = s.evr := by rw [busyCount_frame]
@[simp] theorem busyCount_sepia (lane a b : Nat) (s : State) : (busyCount lane a b s).sepia = s.sepia := by rw [busyCount_frame]
@[simp] theorem busyCount_stest (lane a b : Nat) (s : State) : (busyCount lane a b s).stest = s.stest := by rw [busyCount_frame]
@[simp] theorem busyCount_woad (lane a b : Nat) (s : State) : (busyCount lane a b s).woad = s.woad := by rw [busyCount_frame]
@[simp] theorem busyCount_otp (lane a b : Nat) (s : State) : (busyCount lane a b s).otp = s.otp := by rw [busyCount_frame]
@[simp] theorem busyCount_lm (lane a b : Nat) (s : State) : (busyCount lane a b s).lm = s.lm := by rw [busyCount_frame]
@[simp] theorem busyCount_ing (lane a b : Nat) (s : State) : (busyCount lane a b s).ing = s.ing := by rw [busyCount_frame]
@[simp] theorem busyCount_pass (lane a b : Nat) (s : State) : (busyCount lane a b s).pass = s.pass := by rw [busyCount_frame]
@[simp] theorem busyCount_ldg (lane a b : Nat) (s : State) : (busyCount lane a b s).ldg = s.ldg := by rw [busyCount_frame]
@[simp] theorem busyCount_bal (lane a b : Nat) (s : State) : (busyCount lane a b s).bal = s.bal := by rw [busyCount_frame]
@[simp] theorem busyCount_lake (lane a b : Nat) (s : State) : (busyCount lane a b s).lake = s.lake := by rw [busyCount_frame]
@[simp] theorem busyCount_macs (lane a b : Nat) (s : State) : (busyCount lane a b s).macs = s.macs := by rw [busyCount_frame]
@[simp] theorem busyCount_cas (lane a b : Nat) (s : State) : (busyCount lane a b s).cas = s.cas := by rw [busyCount_frame]
@[simp] theorem busyCount_upd (lane a b : Nat) (s : State) : (busyCount lane a b s).upd = s.upd := by rw [busyCount_frame]
@[simp] theorem busyCount_cpm (lane a b : Nat) (s : State) : (busyCount lane a b s).cpm = s.cpm := by rw [busyCount_frame]
@[simp] theorem busyCount_out (lane a b : Nat) (s : State) : (busyCount lane a b s).out = s.out := by rw [busyCount_frame]
@[simp] theorem busyCount_free (lane a b : Nat) (s : State) : (busyCount lane a b s).free = s.free := by rw [busyCount_frame]
@[simp] theorem busyCount_pending (lane a b : Nat) (s : State) : (busyCount lane a b s).pending = s.pending := by rw [busyCount_frame]
@[simp] theorem busyCount_ports (lane a b : Nat) (s : State) : (busyCount lane a b s).rla.ports = s.rla.ports := by rw [busyCount_frame]
@[simp] theorem busyCount_layers (lane a b : Nat) (s : State) : (busyCount lane a b s).rla.layers = s.rla.layers := by rw [busyCount_frame]
@[simp] theorem busyCount_acks (lane a b : Nat) (s : State) : (busyCount lane a b s).rla.acks = s.rla.acks := by rw [busyCount_frame]
@[simp] theorem busyCount_wakes (lane a b : Nat) (s : State) : (busyCount lane a b s).rla.wakes = s.rla.wakes := by rw [busyCount_frame]

theorem busyCount_changes (lane a b : Nat) (s : State) : ∃ x c, busyCount lane a b s = { s with rla.busy := x, ctr := c } := ⟨_, _, busyCount_frame _ _ _ _⟩

theorem not_isEmpty_eq {α : Type} [DecidableEq α] (l : List α) : (!l.isEmpty) = decide (l ≠ []) := by
  cases l
  · rfl
  · rfl

theorem firstWhere_none {α : Type} {p : α → Bool} {l : List α} (h : ∀ x ∈ l, p x = false) : firstWhere p l = none := by
  induction l with
  | nil => rfl
  | cons x l ih =>
    unfold firstWhere
    rw [h x List.mem_cons_self, if_neg Bool.false_ne_true]
    exact ih fun y hy => h y (List.mem_cons_of_mem _ hy)

theorem firstWhere_append {α : Type} {p : α → Bool} {a : List α} (h : ∀ x ∈ a, p x = false) (b : List α) : firstWhere p (a ++ b) = firstWhere p b := by
  induction a with
  | nil => rfl
  | cons x a ih =>
    rw [List.cons_append]
    refine Eq.trans ?_ (ih fun y hy => h y (List.mem_cons_of_mem _ hy))
    conv => lhs; unfold firstWhere
    rw [h x List.mem_cons_self, if_neg Bool.false_ne_true]

/-- The lowest number below `n` that passes a test. -/
theorem firstWhere_range {p : Nat → Bool} {n l : Nat} (hl : l < n) (hp : p l = true) (hbelow : ∀ k < l, p k = false) :
    firstWhere p (List.range n) = some l := by
  obtain ⟨m, rfl⟩ := Nat.exists_eq_add_of_lt hl
  rw [Nat.add_assoc, List.range_add, firstWhere_append fun x hx => hbelow x (List.mem_range.mp hx), List.range_succ_eq_map, List.map_cons]
  unfold firstWhere
  rw [Nat.add_zero, hp, if_pos rfl]

/-- What is found after a change of the entries with some keys. -/
theorem find_map_key {α : Type} (m : Map α) (p : Nat → Prop) [DecidablePred p] (g : α → α) (k : Nat) :
    Map.find (m.map fun e => if p e.1 then (e.1, g e.2) else e) k = (m.find k).map fun x => if p k then g x else x := by
  induction m with
  | nil => rfl
  | cons e m ih =>
    obtain ⟨j, v⟩ := e
    by_cases hp : p j
    · by_cases hk : k = j
      · subst hk
        simp [Map.find, hp]
      · simpa [Map.find, hp, hk] using ih
    · by_cases hk : k = j
      · subst hk
        simp [Map.find, hp]
      · simpa [Map.find, hp, hk] using ih

/-- A frame judged without a good CRC has the code 0x10 and changes nothing. -/
theorem judgeRadio_badCrc {lane fe : Nat} {f : List Byte} {la : Latch} {orphaned : Bool} {s : State} (hf : frPlen f ≤ 96) :
    judgeRadio lane f fe false la orphaned s = count (kIngCode lane 0x10) s := by
  have hj : judgeFrame f false true lane fe none la orphaned s = { st := s, code := 0x10, mh := la.mh } := by
    unfold judgeFrame
    dsimp only
    rw [if_neg (by omega)]
    rfl
  unfold judgeRadio judgeCounted
  dsimp only
  rw [if_neg (by simp), if_neg (by simp), hj]
  rfl

/-- A lane's layers are keyed below the next lane's. -/
theorem laneKey_div {lane l : Nat} (h : l < 4) : (lane * 4 + l) / 4 = lane := by omega

/-- A lane whose layer 0 is held holds something. -/
theorem held_ne_nil {s : State} {lane l : Nat} (hl : l < 4) (h : s.rla.layers.find (lane * 4 + l) ≠ none) : s.held lane ≠ [] := by
  obtain ⟨x, hx⟩ := Option.ne_none_iff_exists'.mp h
  refine List.ne_nil_of_mem (a := (l, x)) (List.mem_filterMap.mpr ⟨l, List.mem_range.mpr hl, ?_⟩)
  rw [hx]
  rfl

@[simp] theorem rport_putRow (i p : Nat) (r : Row) (s : State) : (putRow i r s).rport p = s.rport p := by simp [State.rport, putRow]

@[simp] theorem row_putRow (i : Nat) (r : Row) (s : State) : (putRow i r s).row i = r := by simp [State.row, putRow]

/-- A descriptor in force replaces what stood in its port, and leaves the other ports and blocks alone. -/
theorem putDesc_frame (p : Nat) (d : RDesc) (s : State) : (∀ q, q ≠ p → (putDesc p d s).rport q = s.rport q) ∧ (putDesc p d s).ing = s.ing ∧
    (putDesc p d s).ldg = s.ldg ∧ (putDesc p d s).lake = s.lake ∧ (putDesc p d s).mcc = s.mcc := by
  unfold putDesc
  refine ⟨fun q hq => ?_, ?_, ?_, ?_, ?_⟩
  · rw [rport_putRow, rport_updRport_ne _ _ hq]
  all_goals simp [putRow]

/-- A descriptor whose superframe start has come is not held back. -/
theorem not_due {s : State} {port : Fin 4} {n : Nat} (ht : n ≤ s.nowNs) (hm : port = 0 ∨ s.glb.mode ≠ .bringup) :
    ¬ (s.nowNs < n ∨ (port.val ≠ 0 ∧ s.glb.mode = .bringup)) := by
  rintro (h | ⟨h0, h1⟩)
  · omega
  · exact hm.elim (fun h => h0 (congrArg Fin.val h)) fun h => h h1

/-- Settles O27. -/
theorem radioReception : Obligations.RadioReception := by
  refine ⟨fun s lane rate ma kepoch l ho hl hf hb => ?_, fun s lane rate ma kepoch ho hf => ?_, fun s lane rate ma kepoch ho => ?_,
    fun s lane layer h hr hf h2 => ?_, fun s lane layer bytes est h hr hf hp hc => ?_, fun s lane layer bytes est hf => ?_,
    fun s port d at_ hr hn hm he hd ht => ?_, fun s port d at_ hr hn hm hd ht => ?_, fun s port d at_ hn he ht => ?_⟩
  · obtain ⟨hdepth, h4⟩ := hl
    have hfirst : firstWhere (fun l => (s.rla.layers.find (lane.val * 4 + l)).isNone) (List.range (s.rport (lane / 64)).desc.depth) = some l :=
      firstWhere_range hdepth (by rw [hf]; rfl) fun k hk => by
        have := hb k hk
        cases hx : s.rla.layers.find (lane.val * 4 + k) with
        | none => exact absurd hx this
        | some _ => rfl
    refine does_next (congrArg Host.Outcome.next (if_neg (by simp [ho]))) ?_
    dsimp only
    rw [hfirst]
    dsimp only
    refine ⟨⟨_, Map.find_ins_self _ _ _, rfl, rfl, rfl, ?_⟩, fun k h hk hh => ?_, fun k hk => ?_, (counter_count _ _ _).trans (if_pos ?_), rfl⟩
    · have hzero : (0 < l ∨ s.held lane ≠ []) ↔ s.held lane ≠ [] := by
        refine ⟨fun h => h.elim (fun h0 => held_ne_nil (l := 0) (by omega) (hb 0 h0)) id, Or.inr⟩
      rw [decide_eq_decide.mpr hzero]
      exact not_isEmpty_eq (s.held lane)
    · have hne : k ≠ lane * 4 + l := fun e => by rw [e, hf] at hh; exact absurd hh (by simp)
      rw [count_rla]
      dsimp only
      rw [Map.find_ins_ne _ _ hne, find_map_key _ (fun j => j / 4 = lane.val) (fun x : Held => { x with overlapped := true }), hh]
      simp [hk]
    · have hne : k ≠ lane * 4 + l := fun e => hk (by rw [e]; exact laneKey_div h4)
      rw [count_rla]
      dsimp only
      rw [Map.find_ins_ne _ _ hne, find_map_key _ (fun j => j / 4 = lane.val) (fun x : Held => { x with overlapped := true })]
      simp [hk]
    · simp [kRla]
  · have hfirst : firstWhere (fun l => (s.rla.layers.find (lane.val * 4 + l)).isNone) (List.range (s.rport (lane / 64)).desc.depth) = none :=
      firstWhere_none fun k hk => by
        have := hf k (List.mem_range.mp hk)
        cases hx : s.rla.layers.find (lane.val * 4 + k) with
        | none => exact absurd hx this
        | some _ => rfl
    refine does_next (congrArg Host.Outcome.next (if_neg (by simp [ho]))) ?_
    dsimp only
    rw [hfirst]
    dsimp only
    unfold busyTillNow
    refine ⟨?_, ?_, fun k hk => ?_, ?_⟩
    · rw [counter_busyCount (by simp [kRla]), counter_count, if_pos (by simp [kRla])]
    · rw [busyCount_layers]
      rfl
    · rw [busyCount_busy_ne hk]
      rfl
    · obtain ⟨b, c, h⟩ := busyCount_changes lane (s.nowNs - (s.rport (lane / 64)).desc.rxPath - airNs rate 48)
        ((count (kRla lane 4) s).nowNs - ((count (kRla lane 4) s).rport (lane / 64)).desc.rxPath) (count (kRla lane 4) s)
      rw [h]
      rfl
  · exact congrArg Host.Outcome.next (if_pos (by simp [ho]))
  · refine does_onCores hr rfl ?_
    dsimp only
    rw [hf]
    dsimp only
    rw [if_neg (by omega)]
    exact ⟨Map.find_ins_self _ _ _, fun k hk => Map.find_ins_ne _ _ hk, rfl⟩
  · refine does_onCores hr rfl ?_
    dsimp only
    rw [hf]
    dsimp only
    rw [if_neg (by omega), hc, Bool.false_and, judgeRadio_badCrc hp]
    refine ⟨?_, fun k hk => ?_, ?_, ?_, ?_, ?_, ?_, ?_, ?_, ?_, ?_⟩
    · simp
    · simp [Map.find_del_ne _ hk]
    · rw [counter_count, if_neg (by simp [kIngCode]; omega), counter_countIf, Bool.false_and, if_neg (by simp), counter_count, if_pos (by simp [kRla]),
        counter_busyCount (by simp [kRla]), counter_countIf, if_neg (by simp [kRla])]
      rfl
    all_goals simp
  · refine stays_onCores rfl ?_
    dsimp only
    rw [hf]
  · have hgrid : (s.rport port).grid d = ((s.rport port).desc.sfcode, (s.rport port).desc.sofs) := if_pos he
    have hdue : ¬ (s.nowNs < sfNext ((s.rport port).grid d).1 ((s.rport port).grid d).2 (at_ + 3000000) * 1000000000 ∨ (port.val ≠ 0 ∧ s.glb.mode = .bringup)) :=
      not_due (by rw [hgrid]; exact ht) hm
    refine does_onCores hr rfl ?_
    dsimp only
    rw [hn]
    dsimp only
    rw [if_neg hdue]
    obtain ⟨hne, hing, hldg, hlake, hmcc⟩ := putDesc_frame port d s
    have hself : (putDesc port d s).rport port = { s.rport port with desc := d, next := none, txlink := true, duty := if d.win = (s.rport port).desc.win then (s.rport port).duty else [] } := by
      unfold putDesc
      rw [rport_putRow, rport_updRport_self, hd, he]
      rfl
    have hrow : (putDesc port d s).row port = _ := row_putRow _ _ _
    rw [hself, hrow, hd, hmcc]
    exact ⟨rfl, rfl, rfl, rfl, rfl, hne, rfl, rfl, rfl, hing, hldg, hlake, rfl⟩
  · refine does_onCores hr rfl ?_
    dsimp only
    rw [hn]
    dsimp only
    rw [if_neg (not_due ht hm)]
    obtain ⟨hne, hing, hldg, hlake, hmcc⟩ := putDesc_frame port d s
    have hrow : (putDesc port d s).row port = _ := row_putRow _ _ _
    rw [hrow, hd, hmcc]
    refine ⟨?_, ?_, ?_, ?_, ?_, hne, rfl, hing, hldg, hlake, rfl⟩
    all_goals
      unfold putDesc
      rw [rport_putRow, rport_updRport_self, hd]
      rfl
  · have hgrid : (s.rport port).grid d = ((s.rport port).desc.sfcode, (s.rport port).desc.sofs) := if_pos he
    refine stays_onCores rfl ?_
    dsimp only
    rw [hn]
    dsimp only
    rw [if_pos (Or.inl (by rw [hgrid]; exact ht))]

end Sys2Proof.Machine

namespace Sys2Proof.Machine

/-! ## A passed row is mirrored -/

/-- A fabric port to a standby twin that can send in every class. -/
def twinPort : CPort := { role := 4, st := 2, credit := [(0, 255), (1, 255), (2, 255), (3, 255)] }

/-- An active, protected unit without valid time whose radio port 0 has its first beacon due. -/
def beaconUnderTwin : State :=
  { State.reset with
    glb.mode := .service, cas.pair := 1, cas.ports := [(0, twinPort)],
    rla.ports := [(0, { desc := { enable := true }, counting := true })], tmu.rows := [(0, { action := 1 })] }

/-- Refutes O28: the row that a beacon's build moves on is mirrored to the standby twin, which sends a fabric message, so the output changes. -/
theorem not_radioTransmission : ¬ Obligations.RadioTransmission := by
  rintro ⟨-, -, -, build, -⟩
  obtain ⟨u, hu, -, -, -, -, hout, -, -⟩ :=
    build beaconUnderTwin 0 (by decide) (by decide) (by decide) (by decide) (by decide) (by decide)
  have hsent : ∃ v, execBeaconBuild 0 beaconUnderTwin = .next v ∧ v.out.length = 1 := ⟨_, rfl, by decide⟩
  obtain ⟨v, hv, hlen⟩ := hsent
  have hnext : exec (.beaconBuild 0) beaconUnderTwin = execBeaconBuild 0 beaconUnderTwin := rfl
  rw [hnext, hv] at hu
  cases hu
  rw [hout] at hlen
  exact absurd hlen (by decide)

end Sys2Proof.Machine

namespace Sys2Proof.Machine

/-! ## Realignment of a line port (R97) -/

/-- A part that is off, with an enabled line port out of alignment for a second. -/
def lineWhileOff : State :=
  { State.reset with glb.mode := .off, tmu.sec := 1, lm.ports := [(0, { desc := { enable := true }, goodRun := 1 })] }

/-- Refutes O30: without the cores' clock no port is realigned, which the clause of LINE_LINK_REALIGN does not ask for. -/
theorem not_lineLinks : ¬ Obligations.LineLinks := by
  rintro ⟨-, -, -, -, -, realign, -⟩
  obtain ⟨u, hu, hport, -⟩ := realign lineWhileOff 0 (by decide) (by decide) (by decide)
  have hstays : exec (.lineLinkRealign 0) lineWhileOff = .next lineWhileOff := congrArg Host.Outcome.next (if_neg (by decide))
  rw [hstays] at hu
  cases hu
  exact absurd (congrArg LPort.goodRun hport) (by decide)

end Sys2Proof.Machine

namespace Sys2Proof.Machine

/-! ## RLA calls and slot frames (R54, R90, R272) -/

@[simp] theorem rport_calling (t rt i p : Nat) (s : State) : (calling t rt i s).rport p = s.rport p := by simp [State.rport]
@[simp] theorem entry_calling (t rt i mh : Nat) (s : State) : (calling t rt i s).entry mh = s.entry mh := by simp [State.entry]
@[simp] theorem entryBad_calling (t rt i mh : Nat) (s : State) : (calling t rt i s).entryBad mh = s.entryBad mh := by simp [State.entryBad]
@[simp] theorem nowNs_calling (t rt i : Nat) (s : State) : (calling t rt i s).nowNs = s.nowNs := by simp [State.nowNs]

/-- A buffer that the caller may read, as its engine reads it. -/
theorem readBuf_calling_ok {t rt i addr len : Nat} {s : State} {p : Place} (hp : (s.thr t).bufPlace t addr len = some p) (hn : s.poisoned p len = false) :
    (calling t rt i s).readBuf t addr len = .ok (s.load p len) := by
  rw [readBuf_ok ((bufPlace_calling t rt i s addr len).trans hp) ((poisoned_calling t rt i s p len).trans hn), load_calling]

theorem firstWhere_singleton {α : Type} {p : α → Bool} {x : α} (h : p x = true) : firstWhere p [x] = some x := by
  unfold firstWhere
  rw [if_pos h]

/-- With a downlink lane free of limits every budget admits every frame. -/
theorem fits_of_unlimited {x : RPort} {lane a b now : Nat} (hg : x.desc.units (lane / 8) = 10000) (hp : x.desc.units 8 = 10000) :
    ((x.needs lane a b).any fun n => !x.fits now n.1 n.2) = false := by
  simp [RPort.needs, RPort.fits, hg, hp]

/-- A port with nothing on the air has no peak. -/
theorem peak_nil (a b : Nat) : peak [] a b = 0 := rfl

/-- A charge touches the duty buckets. -/
theorem foldl_charge_frame (now : Nat) (l : List (Nat × Nat)) : ∀ x : RPort, ∃ d, l.foldl (fun y n => y.charge now n.1 n.2) x = { x with duty := d } := by
  induction l with
  | nil => exact fun x => ⟨x.duty, rfl⟩
  | cons n l ih =>
    intro x
    obtain ⟨d, hd⟩ := ih (x.charge now n.1 n.2)
    exact ⟨d, hd⟩

theorem resumed_frame (at_ : Nat) (x : RPort) : ∃ b o, x.resumed at_ = { x with stopR14 := b, resumeAt := o } := by
  unfold RPort.resumed
  split
  · split
    · exact ⟨_, _, rfl⟩
    · exact ⟨x.stopR14, x.resumeAt, rfl⟩
  · exact ⟨x.stopR14, x.resumeAt, rfl⟩

/-- A frame on the air goes out, and of its port touches the stop of R14, the duty buckets and what is on the air. -/
theorem putOnAir_spec (p lane rate start : Nat) (needs : List (Nat × Nat)) (bytes : List Byte) (s : State) : ∃ b o d l,
    putOnAir p lane rate start needs bytes s =
      emit (.radio p (p * 64 + lane) rate start bytes)
        (updRport p (fun x => { x with stopR14 := b, resumeAt := o, duty := d, air := airOf lane rate start bytes :: l }) s) := by
  obtain ⟨b, o, hr⟩ := resumed_frame start (s.rport p)
  obtain ⟨d, hd⟩ := foldl_charge_frame s.nowNs needs ((s.rport p).resumed start)
  refine ⟨b, o, d, ((s.rport p).air.filter fun z => decide (s.nowNs < z.stop + 1000000000)), ?_⟩
  unfold putOnAir updRport
  dsimp only
  rw [hd, hr]

@[simp] theorem rport_emit (o : Out) (p : Nat) (s : State) : (emit o s).rport p = s.rport p := rfl

/-- A slot frame that may go out is sent, and its chain position moves to its end. -/
theorem launchSlot_sends {p lane at_ : Nat} {frame : List Byte} {sent : State → State} {s : State} {li : Nat} (hli : (s.rport p).desc.dl.getD lane 0 = li)
    (hm : s.mayTx p at_ = true) (hair : s.onAir p = []) (hn : 1 ≤ (s.rport p).desc.ntx)
    (hg : (s.rport p).desc.units (li / 8) = 10000) (hp : (s.rport p).desc.units 8 = 10000) :
    ∃ needs, launchSlot p lane at_ frame sent s = sent (updRport p (fun x => { x with chainEnd := x.chainEnd.ins lane (at_ + airNs 1 (48 + 8 * frame.length)) })
      (putOnAir p li 1 at_ needs (dnAir frame) s)) := by
  refine ⟨(s.rport p).needs li (at_ - rampNs) (at_ + airNs 1 (48 + 8 * frame.length) + rampNs), ?_⟩
  unfold launchSlot
  dsimp only
  rw [hli, hm, if_neg (by simp), hair, peak_nil, if_neg (by omega), fits_of_unlimited hg hp, if_neg Bool.false_ne_true]

/-- The frame that RLA_QUEUE puts into the queue of a port. -/
def queuedFrame (p mh : Nat) (fcnt : BitVec 32) (cmd : List Byte) (s : State) : DnFrame :=
  { ticket := (s.rport p).nextTicket, mh := mh, ma := (s.entry mh).ma, fcnt := fcnt, body := cmd, queuedAt := s.nowNs }

/-- What RLA_QUEUE answers when it takes the command, on the state `s` as it stood before the call. -/
def queuedRla (p mh : Nat) (fcnt : BitVec 32) (cmd : List Byte) (s v : State) : EngOut :=
  { st := updRport p (fun x => { x with queue := x.queue ++ [queuedFrame p mh fcnt cmd s], nextTicket := x.nextTicket + 1 }) v
    status := stOk, out := [(12, le 4 (s.rport p).nextTicket.toNat)] }

/-- Settles O29. -/
theorem radioCalls : Obligations.RadioCalls := by
  refine ⟨fun s t pi rt ra p i b h hb hz hf hok => ?_, fun s t pi rt ra p i b h hb hp hbad => ?_,
    fun s t pi rt ra p i b cmd q h hb hf hq hpois hcmd hbad hst hdn hlen => ?_, fun s t pi rt ra p i b f h hb hz hf => ?_,
    fun s t pi rt ra p i b h hb hz hf => ?_, fun s port lane at_ f frame x li hr hx ho hli hq hat hout hm hair hn hu hfr hmore hstop => ?_,
    fun s port lane at_ ticket ho => ?_⟩
  · obtain ⟨hp, hz5, hz62⟩ := hz
    obtain ⟨h1, h3⟩ := hf
    have heng : engRlaPortCfg t (s.load p 64) (calling t rt i s) = .ok (updRport (field b 0 1) (fun x => { x with next := some (rdescOf b, s.nowNs) }) (calling t rt i s)) := by
      unfold engRlaPortCfg
      dsimp only
      rw [hb, if_neg (by omega), if_neg (by simp [hz5, hz62, hok]; omega), nowNs_calling]
    refine answers_ecall h rfl heng ⟨⟨rfl, rfl, rfl⟩, ?_, ?_, fun q hq => ?_, rfl⟩
    · exact congrArg RPort.next (rport_updRport_self _ _ _)
    · rw [EngOut.ok, rport_updRport_self, rport_calling]
    · rw [EngOut.ok, rport_updRport_ne _ _ hq, rport_calling]
  · have heng : engRlaPortCfg t (s.load p 64) (calling t rt i s) = .fail (calling t rt i s) stBadDescriptor := by
      unfold engRlaPortCfg
      dsimp only
      rw [hb, if_neg (by omega), if_pos ?_]
      rcases hbad with hbad | hbad | hbad
      · simp [hbad]
      · simp [hbad]
      · simp [hbad]
    exact answers_ecall h rfl heng ⟨rfl, rfl, rfl, rfl⟩
  · obtain ⟨hp, h1, hlo, hhi, hz, hmh⟩ := hf
    have heng : engRlaQueue t (s.load p 24) (calling t rt i s) = queuedRla (field b 0 1) (field b 4 4) (BitVec.ofNat 32 (field b 8 4)) cmd s (calling t rt i s) := by
      unfold queuedRla engRlaQueue
      dsimp only
      rw [hb, if_neg (by simp [hz]; omega), readBuf_calling_ok hq hpois, hcmd]
      dsimp only
      rw [entryBad_calling, hbad, if_neg Bool.false_ne_true, entry_calling, if_neg hst, hdn.2]
      dsimp only
      rw [rport_calling, if_neg (by omega), nowNs_calling]
      rfl
    unfold queuedRla at heng
    refine answers_ecall h rfl heng ⟨⟨rfl, rfl, rfl⟩, ⟨queuedFrame (field b 0 1) (field b 4 4) (BitVec.ofNat 32 (field b 8 4)) cmd s, ?_, rfl, rfl, rfl, rfl, rfl, rfl⟩, ?_, fun q hq => ?_, rfl⟩
    · dsimp only
      rw [rport_updRport_self, rport_calling]
    · dsimp only
      rw [rport_updRport_self, rport_calling]
    · dsimp only
      rw [rport_updRport_ne _ _ hq, rport_calling]
  · obtain ⟨hp, hz1, hz8⟩ := hz
    obtain ⟨hmem, htk⟩ := hf
    have hany : (((calling t rt i s).rport (field b 0 1)).queue.any fun g => g.ticket == BitVec.ofNat 32 (field b 4 4)) = true := by
      rw [rport_calling]
      exact List.any_eq_true.mpr ⟨f, hmem, beq_iff_eq.mpr htk⟩
    have heng : engRlaWithdraw t (s.load p 16) (calling t rt i s) = .ok (unqueue (field b 0 1) (BitVec.ofNat 32 (field b 4 4)) (calling t rt i s)) := by
      unfold engRlaWithdraw
      dsimp only
      rw [hb, if_neg (by simp [hz1, hz8]; omega), if_pos hany]
    refine answers_ecall h rfl heng ⟨⟨rfl, rfl, rfl⟩, fun g => ?_, fun q hq => ?_, rfl⟩
    · simp [EngOut.ok, unqueue]
    · rw [EngOut.ok, unqueue, rport_updRport_ne _ _ hq, rport_calling]
  · obtain ⟨hp, hz1, hz8⟩ := hz
    have heng : engRlaWithdraw t (s.load p 16) (calling t rt i s) = .fail (calling t rt i s) stNotFound := by
      unfold engRlaWithdraw
      dsimp only
      rw [hb, if_neg (by simp [hz1, hz8]; omega), if_neg ?_]
      simpa using hf
    exact answers_ecall h rfl heng ⟨rfl, rfl, rfl, rfl⟩
  · subst hx
    obtain ⟨hqueue, hready⟩ := hq
    obtain ⟨hnext, hnow⟩ := hat
    have hlt : lane.val < (s.rport port).desc.dl.length := (List.getElem?_eq_some_iff.mp hli).1
    have hfound : firstWhere (fun g : DnFrame => g.ticket == f.ticket && s.slotReady port lane ((s.rport port).chainAt lane at_) g) (s.rport port).queue = some f := by
      rw [hqueue]
      exact firstWhere_singleton (by rw [hready, beq_self_eq_true, Bool.true_and])
    have hlane : (s.rport port).desc.dl.getD lane 0 = li := by rw [List.getD_eq_getElem?_getD, hli, Option.getD_some]
    obtain ⟨needs, hslot⟩ := launchSlot_sends (frame := frame) (sent := unqueue port f.ticket) hlane hm hair hn hu.1 hu.2
    obtain ⟨c, o, d, l, hair'⟩ := putOnAir_spec port li 1 at_ needs (dnAir frame) s
    have hrun : launchUnicast port lane ((s.rport port).chainAt lane at_) f s = launchSlot port lane at_ frame (unqueue port f.ticket) s := by
      unfold launchUnicast
      dsimp only
      rw [hmore, hfr]
      dsimp only
      rw [← hnext, if_neg (by omega)]
    refine does_clocked hr rfl ?_
    dsimp only
    rw [if_neg (by rw [ho, hout]; simp; omega), hfound]
    dsimp only
    rw [hrun, hslot, hair']
    refine ⟨rfl, ?_, fun q hq => ?_, ?_⟩
    · simp [unqueue, hqueue]
    · rw [unqueue, rport_updRport_ne _ _ hq, rport_updRport_ne _ _ hq, rport_emit, rport_updRport_ne _ _ hq]
    · apply state_eq <;> simp [unqueue]
  · refine stays_onClock rfl ?_
    dsimp only
    rw [if_pos (by simp [ho])]

end Sys2Proof.Machine

namespace Sys2Proof.Machine

/-! ## Line reception (R101 to R118, R125) -/

/-- A span of presence on the medium reaches to its end, and of its port touches the queue's back-offs besides. -/
theorem markBusy_lport {p from_ till : Nat} (s : State) (h : from_ < till) : ∃ q,
    (markBusy p from_ till s).lport p = { s.lport p with busyUntil := max (s.lport p).busyUntil till, queue := q } := by
  unfold markBusy
  dsimp only
  split
  · refine ⟨(s.lport p).queue, ?_⟩
    have : max (s.lport p).busyUntil till = (s.lport p).busyUntil := by omega
    rw [this]
  · refine ⟨(s.lport p).queue.map (LTx.freeze (s.lport p).busyUntil from_), ?_⟩
    have : max (s.lport p).busyUntil till = till := by omega
    rw [lport_countN, lport_updLport_self, this]

theorem markBusy_ne {p q from_ till : Nat} (s : State) (h : q ≠ p) : (markBusy p from_ till s).lport q = s.lport q := by
  unfold markBusy
  dsimp only
  split
  · rfl
  · rw [lport_countN, lport_updLport_ne _ _ h]

theorem counter_markBusy {p from_ till j : Nat} (s : State) (h : j ≠ kLm p 13) : (markBusy p from_ till s).counter j = s.counter j := by
  unfold markBusy
  dsimp only
  split
  · rfl
  · rw [counter_countN, if_neg h]
    rfl

theorem markBusy_frame (p from_ till : Nat) (s : State) :
    markBusy p from_ till s = { s with lm := (markBusy p from_ till s).lm, ctr := (markBusy p from_ till s).ctr } := by
  unfold markBusy
  dsimp only
  split
  · rfl
  · rfl

/-- The same frame around a state that differs from `s` in the Line Modem and the counters. -/
theorem markBusy_frame_of {p from_ till : Nat} {v s : State} (h : v = { s with lm := v.lm, ctr := v.ctr }) :
    markBusy p from_ till v = { s with lm := (markBusy p from_ till v).lm, ctr := (markBusy p from_ till v).ctr } := by
  rw [markBusy_frame, h]

theorem counter_updLport (p : Nat) (f : LPort → LPort) (s : State) (j : Nat) : (updLport p f s).counter j = s.counter j := rfl

/-- A line that receives stays so when a port changes in what is received alone. -/
theorem fc_failed {port : Fin 4} {pre : Nat} (s : State) :
    ((fcFail port pre s).lport port).rx = none ∧
    ((fcFail port pre s).lport port).busyUntil = max (s.lport port).busyUntil (pre + 1250000) ∧
    (fcFail port pre s).counter (kLm port 1) = s.counter (kLm port 1) + 1 ∧
    (∀ q, q ≠ port.val → (fcFail port pre s).lport q = s.lport q) ∧
    fcFail port pre s = { s with lm := (fcFail port pre s).lm, ctr := (fcFail port pre s).ctr } := by
  unfold fcFail
  obtain ⟨l, hl⟩ := markBusy_lport (p := port) (from_ := pre) (till := pre + 1250000)
    (count (kLm port 1) (updLport port (fun x => { x with rx := none }) s)) (by omega)
  rw [lport_count, lport_updLport_self] at hl
  refine ⟨?_, ?_, ?_, fun q hq => ?_, markBusy_frame_of rfl⟩
  · rw [hl]
  · rw [hl]
  · rw [counter_markBusy _ (by simp [kLm]), counter_count, if_pos rfl, counter_updLport]
  · rw [markBusy_ne _ hq, lport_count, lport_updLport_ne _ _ hq]

/-- The state in which a frame's symbols have been decoded and counted. -/
def lineTaken (p : Nat) (d : LDecode) (s : State) : State :=
  countN (kLm p 6) d.er.steps (countN (kLm p 5) d.er.erased (countN (kLm p 3) d.failed
    (updLport p (fun x => { x with rx := none, noise := d.er.floor }) s)))

/-- The state in which a good frame is worked on. -/
def lineGood (p : Nat) (d : LDecode) (v : Nat) (snr : List Int) (s : State) : State :=
  routeHeard p (fcSrc v) (count (kLm p 2) (updLport p (LPort.heardSnr (fcSrc v) snr) (lineTaken p d s)))

/-- The RESPONSE owed for a frame that does not go to ingest. -/
def lineOwed (p : Nat) (x : LRx) (d : LDecode) (v : Nat) (s : State) : LResp :=
  { code := 0, dst := fcSrc v, path := macPath d.mac
    tmi := if fcSrc v < 0x4000 then ((s.lport p).link (fcSrc v)).mode else if fcTmi v ≤ 2 then fcTmi v else 2
    link := fcSrc v, at_ := x.preAt + frameNs (fcNsym v) + 80000 }

/-- The work that a frame of another type than METER asks for. -/
def lineWork (p : Nat) (v : Nat) (m : List Byte) (s : State) : State :=
  if macType m = 2 then nbrReport p m s else if macType m = 4 then tmapReceive p (fcSrc v) m s else s

/-- The RESPONSE is owed when the frame asks for one of this part alone and the line may transmit. -/
def lineReply (p v : Nat) (r : LResp) (s : State) : State :=
  if fcRspreq v ∧ fcDst v = 0xFFFF ∧ s.lineTx p then updLport p (fun x => { x with resp := some r }) s else s

theorem fcSrc_lt (v : Nat) : fcSrc v < 65536 := by
  have : fcSrc v = v / 2 ^ 5 % 2 ^ 16 := by
    unfold fcSrc bits
    exact congrArg (· % 2 ^ 16) (Nat.shiftRight_eq_div_pow v 5)
  omega

/-- A good frame of another type than METER is worked on and answered. -/
theorem lineFrame_good {p v : Nat} {want : Nat → Bool} {syms : List LineSym} {snr : List Int} {x : LRx} {d : LDecode} {s : State}
    (hx : (s.lport p).rx = some x) (hv : x.fc.bind fcOpen = some v) (ht : fcType v = 0) (hr : s.lineRx p = true)
    (hd : s.lineDecode p syms = some d) (hf : d.failed = 0) (hok : fcsOk d.mac = true) (hlen : d.mac.length ≤ 144)
    (hw : want (macType d.mac) = true) (hn : macNhop d.mac ≠ 7) (h0 : macType d.mac ≠ 0) (h5 : macType d.mac < 5) :
    lineFrame p want syms snr s = lineReply p v (lineOwed p x d v s) (lineWork p v d.mac (lineGood p d v snr s)) := by
  have hsrc := fcSrc_lt v
  unfold lineFrame
  dsimp only
  rw [hx, hd]
  dsimp only
  rw [hv]
  dsimp only
  rw [if_neg (by simp [ht, hr]), if_neg (by simp [hw]), if_neg (by simp [hf]), if_neg (by simp [hf, hok, hlen]), if_neg (by omega)]
  have hmeter : ¬ (macType d.mac = 0 ∧ (!macDir d.mac) = true) := fun h => h0 h.1
  have hlink : ¬ 65536 ≤ fcSrc v := by omega
  unfold lineWork
  by_cases h2 : macType d.mac = 2
  · rw [if_neg hmeter, if_pos h2, if_pos h2]
    dsimp only
    rw [if_neg hlink]
    rfl
  · by_cases h4 : macType d.mac = 4
    · rw [if_neg hmeter, if_neg h2, if_pos h4, if_neg h2, if_pos h4]
      dsimp only
      rw [if_neg hlink]
      rfl
    · rw [if_neg hmeter, if_neg h2, if_neg h4, if_neg h2, if_neg h4]
      dsimp only
      rw [if_neg hlink]
      rfl

/-- What is changed of a port by a frame that was heard. -/
theorem heardSnr_frame (src : Nat) (snr : List Int) (x : LPort) : ∃ m, LPort.heardSnr src snr x = { x with snr := m } := by
  unfold LPort.heardSnr
  split
  · exact ⟨_, rfl⟩
  · exact ⟨x.snr, rfl⟩

theorem routeHeard_frame (p l : Nat) (s : State) : ∃ m, (routeHeard p l s).lport p = { s.lport p with routes := m } ∧
    (∀ q, q ≠ p → (routeHeard p l s).lport q = s.lport q) ∧ routeHeard p l s = { s with lm := (routeHeard p l s).lm } ∧
    (0x4000 ≤ l → m = (s.lport p).routes) ∧
    (∀ k, k ≠ l → m.get {} k = (s.lport p).route k) ∧
    ∃ st h, m.get {} l = { (s.lport p).route l with st := st, heard := h } ∧ (((s.lport p).route l).st ≠ 0 → st ≠ 0) := by
  unfold routeHeard
  dsimp only
  split
  · exact ⟨(s.lport p).routes, rfl, fun _ _ => rfl, rfl, fun _ => rfl, fun _ _ => rfl, _, _, rfl, id⟩
  · rename_i h
    refine ⟨_, lport_updLport_self _ _ _, fun q hq => lport_updLport_ne _ _ hq, rfl, fun hl => absurd (Or.inl hl) h,
      fun k hk => Map.get_put_ne _ _ _ hk, _, _, Map.get_put_self _ _ _ _, fun h0 => ?_⟩
    split
    · exact Nat.succ_ne_zero _
    · exact h0

/-- The port once a good frame has been heard. -/
theorem lineGood_spec (p : Nat) (d : LDecode) (v : Nat) (snr : List Int) (s : State) : ∃ m n,
    (lineGood p d v snr s).lport p = { s.lport p with rx := none, noise := d.er.floor, snr := n, routes := m } ∧
    (∀ q, q ≠ p → (lineGood p d v snr s).lport q = s.lport q) ∧
    lineGood p d v snr s = { s with lm := (lineGood p d v snr s).lm, ctr := (lineGood p d v snr s).ctr } ∧
    (lineGood p d v snr s).counter (kLm p 2) = s.counter (kLm p 2) + 1 ∧
    (0x4000 ≤ fcSrc v → m = (s.lport p).routes) ∧
    (∀ k, k ≠ fcSrc v → m.get {} k = (s.lport p).route k) ∧
    ∃ st h, m.get {} (fcSrc v) = { (s.lport p).route (fcSrc v) with st := st, heard := h } ∧ (((s.lport p).route (fcSrc v)).st ≠ 0 → st ≠ 0) := by
  obtain ⟨n, hn⟩ := heardSnr_frame (fcSrc v) snr ((lineTaken p d s).lport p)
  have hport : (count (kLm p 2) (updLport p (LPort.heardSnr (fcSrc v) snr) (lineTaken p d s))).lport p =
      { s.lport p with rx := none, noise := d.er.floor, snr := n } := by
    rw [lport_count, lport_updLport_self, hn, lineTaken, lport_countN, lport_countN, lport_countN, lport_updLport_self]
  obtain ⟨m, hself, hne, hframe, hhigh, hother, st, h, hroute, hst⟩ :=
    routeHeard_frame p (fcSrc v) (count (kLm p 2) (updLport p (LPort.heardSnr (fcSrc v) snr) (lineTaken p d s)))
  unfold LPort.route at hother hroute hst
  rw [hport] at hself hhigh hother hroute hst
  refine ⟨m, n, hself, fun q hq => ?_, ?_, ?_, hhigh, hother, st, h, hroute, hst⟩
  · rw [lineGood, hne q hq, lport_count, lport_updLport_ne _ _ hq, lineTaken, lport_countN, lport_countN, lport_countN, lport_updLport_ne _ _ hq]
  · rw [lineGood, hframe]
    rfl
  · rw [lineGood, hframe]
    refine Eq.trans (counter_count (kLm p 2) (kLm p 2) (updLport p (LPort.heardSnr (fcSrc v) snr) (lineTaken p d s))) ?_
    rw [if_pos rfl, counter_updLport, lineTaken, counter_countN, if_neg (by simp [kLm]), counter_countN, if_neg (by simp [kLm]), counter_countN,
      if_neg (by simp [kLm]), counter_updLport]

/-- A neighbour report moves a path ETT alone. -/
theorem nbrReport_spec (p : Nat) (m : List Byte) (s : State) : ∃ r,
    (nbrReport p m s).lport p = { s.lport p with routes := r } ∧
    (∀ l, { Map.get r {} l with ett := 0 } = { (s.lport p).route l with ett := 0 }) ∧
    (∀ q, q ≠ p → (nbrReport p m s).lport q = s.lport q) ∧
    nbrReport p m s = { s with lm := (nbrReport p m s).lm } := by
  have same : ∃ r, s.lport p = { s.lport p with routes := r } ∧ (∀ l, { Map.get r {} l with ett := 0 } = { (s.lport p).route l with ett := 0 }) ∧
      (∀ q, q ≠ p → s.lport q = s.lport q) ∧ s = { s with lm := s.lm } := ⟨_, rfl, fun _ => rfl, fun _ _ => rfl, rfl⟩
  unfold nbrReport
  dsimp only
  split
  · exact same
  · split
    · exact same
    · split
      · exact same
      · split
        · exact same
        · split
          · refine ⟨_, lport_updLport_self _ _ _, fun l => ?_, fun q hq => lport_updLport_ne _ _ hq, rfl⟩
            by_cases h : l = (s.lport p).lsaOf (BitVec.ofNat 64 (field (macBody m) 0 8))
            · rw [h, Map.get_put_self]
            · rw [Map.get_put_ne _ _ _ h]
              rfl
          · exact same

/-- What is left alone by a reply. -/
theorem lineReply_spec (p v : Nat) (r : LResp) (s : State) : ∃ o,
    (lineReply p v r s).lport p = { s.lport p with resp := o } ∧ (∀ q, q ≠ p → (lineReply p v r s).lport q = s.lport q) ∧
    lineReply p v r s = { s with lm := (lineReply p v r s).lm } := by
  unfold lineReply
  split
  · exact ⟨_, lport_updLport_self _ _ _, fun q hq => lport_updLport_ne _ _ hq, rfl⟩
  · exact ⟨(s.lport p).resp, rfl, fun _ _ => rfl, rfl⟩

theorem lineRx_congr {p : Nat} {s u : State} (hf : u = { s with lm := u.lm, ctr := u.ctr }) (hd : (u.lport p).desc = (s.lport p).desc)
    (hl : (u.lport p).rxlink = (s.lport p).rxlink) (hc : (u.lport p).calAt = (s.lport p).calAt) : u.lineRx p = s.lineRx p := by
  have hruns : u.lineRuns = s.lineRuns := by rw [hf]; rfl
  unfold State.lineRx
  rw [hruns, hd, hl, hc]

theorem lineTx_congr {p : Nat} {s u : State} (hf : u = { s with lm := u.lm, ctr := u.ctr }) (hd : (u.lport p).desc = (s.lport p).desc)
    (hl : (u.lport p).rxlink = (s.lport p).rxlink) (hc : (u.lport p).calAt = (s.lport p).calAt) (ht : (u.lport p).txlink = (s.lport p).txlink)
    (hs : (u.lport p).txstop = (s.lport p).txstop) (h14 : (u.lport p).stopR14 = (s.lport p).stopR14)
    (hres : (u.lport p).resumeAt = (s.lport p).resumeAt) : u.lineTx p = s.lineTx p := by
  have hw : u.withholds = s.withholds := by rw [hf]; rfl
  have ha : u.activeUnit = s.activeUnit := by rw [hf]; rfl
  have hg : u.glb = s.glb := by rw [hf]
  have hn : u.nowNs = s.nowNs := by rw [hf]; rfl
  unfold State.lineTx
  dsimp only
  rw [lineRx_congr hf hd hl hc, ht, hs, h14, hres, hw, ha, hg, hn]

/-- A tone map from a repeater that is known replaces the one in its route. -/
theorem tmapReceive_installs {p src : Nat} {m : List Byte} {s : State} (hhop : macNhop m = 0) (hlen : (macBody m).length = 11)
    (htmi : 3 ≤ field (macBody m) 0 1 ∧ field (macBody m) 0 1 ≤ 30) (hmap : mapValid (slice (macBody m) 1 10) = true) (hsrc : src < 0x4000)
    (hst : ((s.lport p).route src).st ≠ 0) : ∃ k,
    tmapReceive p src m s = updLport p (fun x => { x with
      routes := x.routes.put {} src { (s.lport p).route src with txmap := slice (macBody m) 1 10, txtmi := field (macBody m) 0 1 }, links := k }) s := by
  unfold tmapReceive
  dsimp only
  rw [if_neg (by simp only [hhop, hlen, hmap]; simp; omega)]
  exact ⟨_, rfl⟩

@[simp] theorem lport_countIf (b : Bool) (k p : Nat) (s : State) : (countIf b k s).lport p = s.lport p := by simp [State.lport]

/-- Settles O31. -/
theorem lineReception : Obligations.LineReception := by
  refine ⟨fun s port pre hr => ?_, fun s port soft x fc v hr hx hc ho hv hp => ?_, fun s port soft x fc hr hx hc ho => ?_,
    fun s port syms snr x v mac hx hv ht hr hd hok hm hs htx hq => ?_, fun s port syms snr x v mac n hx hv ht hr hd hbad => ?_,
    fun s port syms snr x v mac hx hv ht hr hd hok hm => ?_, fun s port syms snr x v mac hx hv ht hr hd hok hm htmi hmap hsrc => ?_⟩
  · refine does_next (congrArg Host.Outcome.next (if_neg (by simp [hr]))) ?_
    dsimp only
    obtain ⟨q, hl⟩ := markBusy_lport (p := port) (from_ := pre - (s.lport port).desc.rxlat) (till := pre - (s.lport port).desc.rxlat + respNs)
      (count (kLm port 0) (updLport port (fun x => { x with rx := some { preAt := pre - (s.lport port).desc.rxlat } }) s)) (by simp [respNs])
    rw [lport_count, lport_updLport_self] at hl
    refine ⟨?_, ?_, ?_, fun q hq => ?_, markBusy_frame_of rfl⟩
    · rw [hl]
    · rw [hl]
      rfl
    · exact (counter_markBusy _ (by simp [kLm])).trans ((counter_count _ _ _).trans (if_pos rfl))
    · rw [markBusy_ne _ hq, lport_count, lport_updLport_ne _ _ hq]
  · obtain ⟨hrx, hfc⟩ := hx
    obtain ⟨ht, hn, htmi⟩ := hv
    have hlt : x.preAt < x.preAt + frameNs (fcNsym v) + (if fcRspreq v then 182400 else 0) := by
      unfold frameNs
      omega
    obtain ⟨l, hl⟩ := markBusy_lport (p := port) (updLport port (fun x' => { x' with rx := some { x with fc := some fc } }) s) hlt
    rw [lport_updLport_self] at hl
    have hexec : exec (.lineFcReceive port soft) s =
        .next (markBusy port x.preAt (x.preAt + frameNs (fcNsym v) + (if fcRspreq v then 182400 else 0)) (updLport port (fun x' => { x' with rx := some { x with fc := some fc } }) s)) := by
      show execLineFcReceive port soft s = _
      unfold execLineFcReceive
      dsimp only
      rw [hrx]
      dsimp only
      rw [if_neg (by simp [hr, hfc]), hc, ho]
      dsimp only
      rw [if_neg (by omega), if_neg (by simp; omega), if_pos hp]
    refine does_next hexec ⟨?_, ?_, fun q hq => ?_, markBusy_frame_of rfl⟩
    · rw [hl]
    · rw [hl]
    · rw [markBusy_ne _ hq, lport_updLport_ne _ _ hq]
  · obtain ⟨hrx, hfc⟩ := hx
    have hexec : exec (.lineFcReceive port soft) s = .next (fcFail port x.preAt s) := by
      show execLineFcReceive port soft s = _
      unfold execLineFcReceive
      dsimp only
      rw [hrx]
      dsimp only
      rw [if_neg (by simp [hr, hfc]), hc, ho]
    exact does_next hexec (fc_failed s)
  · obtain ⟨hfcs, hlen, hn⟩ := hok
    obtain ⟨d, hdec, hdm⟩ := Option.map_eq_some_iff.mp hd
    obtain ⟨rfl, hf⟩ := Prod.mk.inj hdm
    obtain ⟨m, n, hself, hne, hframe, hcount, hhigh, -⟩ := lineGood_spec port d v snr s
    have hgood := lineFrame_good (want := fun t => t != 2 && t != 4) (snr := snr) hx hv ht hr hdec hf hfcs hlen (by rcases hm with h | h <;> rw [h] <;> rfl) hn (by omega) (by omega)
    have hreply : lineReply port v (lineOwed port x d v s) (lineWork port v d.mac (lineGood port d v snr s)) =
        updLport port (fun y => { y with resp := some (lineOwed port x d v s) }) (lineGood port d v snr s) := by
      unfold lineWork
      rw [if_neg (by omega), if_neg (by omega)]
      refine if_pos ⟨hq.1, hq.2, ?_⟩
      rw [lineTx_congr hframe (by rw [hself]) (by rw [hself]) (by rw [hself]) (by rw [hself]) (by rw [hself]) (by rw [hself]) (by rw [hself]), htx]
    refine does_next (congrArg Host.Outcome.next (hgood.trans hreply)) ⟨?_, ⟨lineOwed port x d v s, ?_, rfl, rfl, rfl, rfl, rfl⟩, hcount, ?_, ?_, fun q hq => ?_, ?_⟩
    · rw [lport_updLport_self, hself]
    · rw [lport_updLport_self]
    · rw [lport_updLport_self, hself]
      exact hhigh hs
    · rw [lport_updLport_self, hself]
    · rw [lport_updLport_ne _ _ hq, hne q hq]
    · rw [hframe]
      rfl
  · obtain ⟨d, hdec, hdm⟩ := Option.map_eq_some_iff.mp hd
    obtain ⟨rfl, rfl⟩ := Prod.mk.inj hdm
    obtain ⟨m, hm⟩ := heardSnr_frame (fcSrc v) snr ((lineTaken port d s).lport port)
    have htaken : (lineTaken port d s).lport port = { s.lport port with rx := none, noise := d.er.floor } := by
      rw [lineTaken, lport_countN, lport_countN, lport_countN, lport_updLport_self]
    have hother : ∀ q, q ≠ port.val → (lineTaken port d s).lport q = s.lport q := fun q hq => by
      rw [lineTaken, lport_countN, lport_countN, lport_countN, lport_updLport_ne _ _ hq]
    have hcount : ∀ j, j ≠ kLm port 6 → j ≠ kLm port 5 →
        (lineTaken port d s).counter j = if j = kLm port 3 then s.counter j + BitVec.ofNat 64 d.failed else s.counter j := fun j h6 h5 => by
      rw [lineTaken, counter_countN, if_neg h6, counter_countN, if_neg h5, counter_countN]
      rfl
    have hexec : exec (.lineFrameReceive port syms snr) s = .next (if d.failed ≠ 0 then lineTaken port d s else
        countIf (!fcsOk d.mac) (kIngCode (256 + port) 0x10) (count (kLm port 4) (updLport port (LPort.heardSnr (fcSrc v) snr) (lineTaken port d s)))) := by
      refine congrArg Host.Outcome.next ?_
      have hgood : (d.failed == 0 && decide (d.mac.length ≤ 144) && fcsOk d.mac) = false := by
        rcases hbad with h | h
        · simp [h]
        · simp [h]
      unfold lineFrame
      dsimp only
      rw [hx, hdec]
      dsimp only
      rw [hv]
      dsimp only
      rw [if_neg (by simp [ht, hr]), hgood, if_neg (by simp)]
      rfl
    refine does_next hexec ?_
    by_cases hn : d.failed = 0
    · rw [if_neg (by simp [hn])]
      have hport : (countIf (!fcsOk d.mac) (kIngCode (256 + port) 0x10) (count (kLm port 4) (updLport port (LPort.heardSnr (fcSrc v) snr) (lineTaken port d s)))).lport port =
          { s.lport port with rx := none, noise := d.er.floor, snr := m } := by
        rw [lport_countIf, lport_count, lport_updLport_self, hm, htaken]
      refine ⟨by rw [hport], by rw [hport], by rw [hport], ?_, ?_, fun q hq => ?_, ?_⟩
      · rw [← kLm, counter_countIf, if_neg (by simp [kLm, kIngCode]; omega), counter_count, if_neg (by simp [kLm]), counter_updLport,
          hcount _ (by simp [kLm]) (by simp [kLm]), if_pos rfl]
      · rw [← kLm, counter_countIf, if_neg (by simp [kLm, kIngCode]; omega), counter_count, if_pos rfl, counter_updLport,
          hcount _ (by simp [kLm]) (by simp [kLm]), if_neg (by simp [kLm]), if_pos hn]
      · rw [lport_countIf, lport_count, lport_updLport_ne _ _ hq, hother q hq]
      · rw [countIf_frame]
        rfl
    · rw [if_pos hn, if_neg hn]
      refine ⟨?_, ?_, ?_, ?_, ?_, hother, rfl⟩
      · rw [htaken]
      · rw [htaken]
      · rw [htaken]
      · rw [← kLm, hcount _ (by simp [kLm]) (by simp [kLm]), if_pos rfl]
      · rw [← kLm, hcount _ (by simp [kLm]) (by simp [kLm]), if_neg (by simp [kLm])]
        simp
  · obtain ⟨hfcs, hlen, hn⟩ := hok
    obtain ⟨d, hdec, hdm⟩ := Option.map_eq_some_iff.mp hd
    obtain ⟨rfl, hf⟩ := Prod.mk.inj hdm
    obtain ⟨m, n, hself, hne, hframe, hcount, -, hroutes, st, h, hsrc, -⟩ := lineGood_spec port d v snr s
    have hgood := lineFrame_good (want := (· == 2)) (snr := snr) hx hv ht hr hdec hf hfcs hlen (by rw [hm]; rfl) hn (by omega) (by omega)
    rw [lineWork, if_pos hm] at hgood
    obtain ⟨r, hwself, hwroutes, hwne, hwframe⟩ := nbrReport_spec port d.mac (lineGood port d v snr s)
    obtain ⟨o, hrself, hrne, hrframe⟩ := lineReply_spec port v (lineOwed port x d v s) (nbrReport port d.mac (lineGood port d v snr s))
    refine does_next (congrArg Host.Outcome.next hgood) ⟨?_, ?_, fun l => ?_, fun q hq => ?_, ?_⟩
    · rw [hrself, hwself, hself]
    · exact (counter_congr (by rw [hrframe, hwframe]) _).trans hcount
    · have hl := hwroutes l
      rw [hself] at hl
      rw [hrself, hwself]
      have hbase : { Map.get m {} l with ett := 0, st := 0, heard := 0 } = { (s.lport port).route l with ett := 0, st := 0, heard := 0 } := by
        by_cases hk : l = fcSrc v
        · rw [hk, hsrc]
        · rw [hroutes l hk]
      exact (congrArg (fun e : Route => { e with st := 0, heard := 0 }) hl).trans hbase
    · rw [hrne q hq, hwne q hq, hne q hq]
    · rw [hrframe, hwframe, hframe]
  · obtain ⟨hfcs, hlen, hn⟩ := hok
    obtain ⟨hm, hhop, hbody⟩ := hm
    obtain ⟨hsrc, hst⟩ := hsrc
    obtain ⟨d, hdec, hdm⟩ := Option.map_eq_some_iff.mp hd
    obtain ⟨rfl, hf⟩ := Prod.mk.inj hdm
    obtain ⟨m, n, hself, hne, hframe, hcount, -, hroutes, st, h, hroute, hst'⟩ := lineGood_spec port d v snr s
    have hgood := lineFrame_good (want := (· == 4)) (snr := snr) hx hv ht hr hdec hf hfcs hlen (by rw [hm]; rfl) hn (by omega) (by omega)
    rw [lineWork, if_neg (by omega), if_pos hm] at hgood
    obtain ⟨links, hmap'⟩ := tmapReceive_installs (p := port) (src := fcSrc v) (m := d.mac) (s := lineGood port d v snr s) hhop hbody htmi hmap hsrc
      (by rw [hself]; unfold LPort.route; rw [hroute]; exact hst' hst)
    rw [hmap'] at hgood
    obtain ⟨o, hrself, hrne, hrframe⟩ := lineReply_spec port v (lineOwed port x d v s) _
    refine does_next (congrArg Host.Outcome.next hgood) ⟨?_, ?_, ?_, ?_, fun l hl => ?_, ?_, fun q hq => ?_, ?_⟩
    · rw [hrself, lport_updLport_self, hself]
    · rw [hrself, lport_updLport_self]
      unfold LPort.route
      rw [Map.get_put_self]
    · rw [hrself, lport_updLport_self]
      unfold LPort.route
      rw [Map.get_put_self]
    · rw [hrself, lport_updLport_self, hself]
      unfold LPort.route
      rw [Map.get_put_self, hroute]
      rfl
    · rw [hrself, lport_updLport_self, hself]
      unfold LPort.route
      rw [Map.get_put_ne _ _ _ hl, hroutes l hl]
      rfl
    · exact (counter_congr (by rw [hrframe]; rfl) _).trans hcount
    · rw [hrne q hq, lport_updLport_ne _ _ hq, hne q hq]
    · rw [hrframe, hframe]
      rfl

end Sys2Proof.Machine

namespace Sys2Proof.Machine

/-! ## What HOLD-UP leaves of the line ports  -/

/-- A part in HOLD-UP, whose cores have stopped, with a tone map of a line port that may go. -/
def oldMapInHoldUp : State :=
  { State.reset with glb.mode := .holdup, lm.ports := [(0, { oldMaps := [3] })] }

/-- Refutes O32: in HOLD-UP the Line Modem stands still though the clocks run, so an old tone map is not freed. -/
theorem not_lineTransmission : ¬ Obligations.LineTransmission := by
  rintro ⟨-, -, -, -, -, -, -, -, -, free, -⟩
  obtain ⟨u, hu, -, hgone, -⟩ := free oldMapInHoldUp 0 3 (by decide) (by decide) (by decide)
  have hstays : exec (.tmapFree 0 3) oldMapInHoldUp = .next oldMapInHoldUp := congrArg Host.Outcome.next (if_neg (by decide))
  rw [hstays] at hu
  cases hu
  exact hgone (by decide)

end Sys2Proof.Machine

namespace Sys2Proof.Machine

/-! ## Calibration in HOLD-UP (R128) -/

/-- A part in HOLD-UP, whose cores have stopped, with a line port whose calibration has gone on for 2 ms. -/
def calibratingInHoldUp : State :=
  { State.reset with glb.mode := .holdup, tmu.sec := 1, lm.ports := [(0, { calAt := some 0 })] }

/-- Refutes O33: in HOLD-UP the Line Modem stands still though the clocks run, so a calibration does not end by its time. -/
theorem not_lineCalls : ¬ Obligations.LineCalls := by
  rintro ⟨-, -, -, -, -, -, -, -, -, -, -, timeout⟩
  obtain ⟨u, hu, hout, -⟩ := timeout calibratingInHoldUp 0 0 (by decide) (by decide)
  have hstays : exec (.calTimeout 0) calibratingInHoldUp = .next calibratingInHoldUp := congrArg Host.Outcome.next (if_neg (by decide))
  rw [hstays] at hu
  cases hu
  exact absurd (congrArg List.length hout) (by decide)

end Sys2Proof.Machine

namespace Sys2Proof.Machine

/-! ## The balance of a stack in HOLD-UP -/

/-- The master of a stack in HOLD-UP, whose cores have stopped, with a close whose partials are overdue. -/
def partialsLateInHoldUp : State :=
  { State.reset with
    glb.mode := .holdup, tmu.sec := 1, bal.stackE := some 0, bal.nodes := [(0, { cfg := 0x308 })], cas.ports := [(0, { role := 3, st := 2 })] }

/-- Refutes O40: in HOLD-UP the Balance Engine stands still though the clocks run, so the judgement of a late close does not end. -/
theorem not_balanceEvents : ¬ Obligations.BalanceEvents := by
  rintro ⟨-, -, -, -, -, -, timeout, -⟩
  obtain ⟨u, hu, -, hend, -⟩ := timeout partialsLateInHoldUp 0 (by decide) (by decide) (by decide) (by decide)
  have hstays : exec .balancePartialTimeout partialsLateInHoldUp = .next partialsLateInHoldUp := congrArg Host.Outcome.next (if_neg (by decide))
  rw [hstays] at hu
  cases hu
  exact absurd hend (by decide)

end Sys2Proof.Machine

namespace Sys2Proof.Machine

/-! ## The end of a pulse -/

/-- A part that is off, with a pulse whose end has come. -/
def pulseWhileOff : State :=
  { State.reset with glb.mode := .off, tmu.pulseEnd := [(0, (0, false))] }

/-- Refutes O42: without its clocks the Time Unit ends no pulse, which the clause of PULSE_END does not ask for. -/
theorem not_timeEvents : ¬ Obligations.TimeEvents := by
  rintro ⟨-, -, -, -, -, -, -, -, -, -, -, -, -, -, pulseEnd⟩
  obtain ⟨u, hu, -, hend, -⟩ := pulseEnd pulseWhileOff 0 0 false (by decide) (by decide)
  have hstays : exec (.pulseEnd 0) pulseWhileOff = .next pulseWhileOff := congrArg Host.Outcome.next (if_neg (by decide))
  rw [hstays] at hu
  cases hu
  exact absurd hend (by decide)

end Sys2Proof.Machine

namespace Sys2Proof.Machine

/-! ## An erase without the clocks -/

/-- A part that is off, with a block whose erase is under way. -/
def erasingWhileOff : State :=
  { State.reset with glb.mode := .off, lake.inited := true, lake.blocks := [(blockKey 0 0, { st := 5 })] }

/-- Refutes O45: without its clocks Lake Store takes no completion, so the block of a failed erase is not retired. -/
theorem not_lakeNand : ¬ Obligations.LakeNand := by
  rintro ⟨-, -, -, -, -, -, -, -, -, -, eraseFails, -⟩
  obtain ⟨u, hu, hretired, -⟩ := eraseFails erasingWhileOff 0 0 (by decide)
  have hstays : exec (.nandEraseComplete 0 0 false) erasingWhileOff = .next erasingWhileOff := congrArg Host.Outcome.next (if_neg (by decide))
  rw [hstays] at hu
  cases hu
  exact absurd hretired (by decide)

end Sys2Proof.Machine

namespace Sys2Proof.Machine

/-! ## Landing without the clocks -/

/-- A part that is off, with a write of the volume that has not landed. -/
def landingWhileOff : State :=
  { State.reset with glb.mode := .off, lake.inited := true, lake.volPend := [{ id := 0, chunks := [(0, [])], at_ := 0 }] }

/-- Refutes O46: without its clocks Lake Store lands nothing, so the write still waits after LANDING_DEADLINE. -/
theorem not_lakeBackground : ¬ Obligations.LakeBackground := by
  rintro ⟨-, -, -, -, -, land, -⟩
  obtain ⟨u, hu, -, -, hgone, -⟩ := land landingWhileOff 0 0 0 [] [] (by decide) rfl
  have hstays : exec (.landingDeadline 7) landingWhileOff = .next landingWhileOff := congrArg Host.Outcome.next (if_neg (by decide))
  rw [hstays] at hu
  cases hu
  exact hgone { id := 0, chunks := [(0, [])], at_ := 0 } List.mem_cons_self rfl

end Sys2Proof.Machine

namespace Sys2Proof.Machine

/-! ## Reading an entry corrects it (R19) -/

/-- A thread of level SYSTEM that may call, in a part where a bit of the first word of the directory has flipped. -/
def flippedEntry : State :=
  { State.reset with mcc.threads := [(0, { st := .run, level := .system })], glb.upsets := [(0, 1)] }

/-- Refutes O34: DIR_READ of an entry with a flipped bit corrects the word and counts it, so the call does change the state. -/
theorem not_directoryCalls : ¬ Obligations.DirectoryCalls := by
  rintro ⟨-, -, readFree, -⟩
  obtain ⟨⟨st, status, out, waits⟩, hr, hstatus, hout, hwaits, hst⟩ := readFree flippedEntry 0 0 0 0 (.dmem 0) 0 _ (by decide) rfl (by decide) (by decide) (by decide)
  subst hst hstatus hout hwaits
  have hcorrects : ∃ v, execDirRead 0 0 0 0 flippedEntry = .next v ∧ v.glb.upsets = [] := ⟨_, rfl, by decide⟩
  obtain ⟨v, hv, hup⟩ := hcorrects
  have hnext : exec (.dirRead 0 0 0 0) flippedEntry = execDirRead 0 0 0 0 flippedEntry := rfl
  rw [hnext, hv] at hr
  rw [Host.Outcome.next.injEq] at hr
  rw [hr] at hup
  exact absurd hup (by decide)

end Sys2Proof.Machine

namespace Sys2Proof.Machine

/-! ## A staged frame that waits for the replay (R156) -/

/-- A first reading of one register that is staged, and held until the replay of the directory's log. -/
def heldReading : Staged :=
  { mh := 0, src := 0, decided := 0, ftype := 0, fcnt := 0, kepoch := 0, unsync := true, held := true, payload := [0, 0, 0, 0, 0, 0, 1, 0] ++ zeroBytes 8 }

/-- A part in service whose Lake is ready while that frame still waits. -/
def heldFrameStaged : State :=
  { State.reset with glb.mode := .service, lake.ready := true, ing.staging := [heldReading] }

/-- Refutes O35: a staged frame that waits for the replay is not tested, so PLAUSIBILITY_CHECK leaves it in staging. -/
theorem not_ingestCommands : ¬ Obligations.IngestCommands := by
  rintro ⟨-, -, -, -, -, plausibility, -⟩
  obtain ⟨u, hu, hleft, -⟩ := plausibility heldFrameStaged heldReading [] rfl rfl rfl (by decide) (by decide) rfl (by decide) (by decide) (by decide) (by decide)
  have hstays : exec (.plausibilityCheck 0) heldFrameStaged = .next heldFrameStaged := rfl
  have hmh : heldReading.mh = 0 := rfl
  rw [hmh, hstays] at hu
  cases hu
  exact List.cons_ne_nil heldReading [] hleft

end Sys2Proof.Machine

namespace Sys2Proof.Machine

/-! ## Calls that wait behind the restore (R156, R181) -/

/-- A part in its restore, where a thread waits for the final close of a meter that has no open record. -/
def closeBehindRestore : State :=
  { State.reset with
    ing.restore := true, lake.ready := true, ldg.maint := [{ id := 0, mh := 0, at_ := 0, data := none }],
    mcc.threads := [(0, { slots := [(0, { pend := some (.call 0x42 0 [] stOk (some (.maint 0))) })] })] }

/-- Refutes O36: the end of the replay settles the maintenance that waited for earlier readings, and so the calls of the threads that wait on it. -/
theorem not_bootAndRestore : ¬ Obligations.BootAndRestore := by
  rintro ⟨-, -, -, -, replayDone⟩
  obtain ⟨u, hu, -, -, -, -, -, hmcc⟩ := replayDone closeBehindRestore (by decide)
  have hwakes : ∃ v, execRestoreReplayDone closeBehindRestore = .next v ∧ ((v.thr 0).slot 0).pend ≠ ((closeBehindRestore.thr 0).slot 0).pend :=
    ⟨_, rfl, by decide⟩
  obtain ⟨v, hv, hne⟩ := hwakes
  have hnext : exec .restoreReplayDone closeBehindRestore = execRestoreReplayDone closeBehindRestore := rfl
  rw [hnext, hv] at hu
  cases hu
  exact hne (by rw [State.thr, hmcc]; rfl)

end Sys2Proof.Machine

namespace Sys2Proof.Machine

/-! ## A booking behind a final close (R181) -/

/-- A reading that has passed, of a meter without a boundary in force. -/
def passedReading : PassFrame :=
  { mh := 5, cal := 0, node := 0xFFFF, cls := 0, m := 7, decided := 8000000000, unsync := false, recs := [{ kind := 0, tariff := 1, value := 9, delta := 0 }] }

/-- A part in which a final close of that meter, asked for before the reading was decided, has not been made. -/
def bookingBehindClose : State :=
  { State.reset with
    pass := [passedReading], ldg.live.meters := [(5, { opn := some { mh := 5 } })], ldg.maint := [{ id := 0, mh := 5, at_ := 0, data := none }] }

/-- Refutes O38: a reading decided after a final close was asked for waits for the close, so LEDGER_BOOKING leaves it in the pass. -/
theorem not_ledgerEvents : ¬ Obligations.LedgerEvents := by
  rintro ⟨booking, -⟩
  obtain ⟨u, hu, hpass, -⟩ := booking bookingBehindClose passedReading [] { kind := 0, tariff := 1, value := 9, delta := 0 } { mh := 5 }
    (by decide) (by decide) (by decide) (by decide) (by decide) (by decide) (by decide)
  have hstays : exec (.ledgerBooking 5) bookingBehindClose = .next bookingBehindClose := rfl
  have hmh : passedReading.mh = 5 := rfl
  rw [hmh, hstays] at hu
  cases hu
  exact List.cons_ne_nil passedReading [] hpass

end Sys2Proof.Machine

namespace Sys2Proof.Machine

/-! ## What a call touches besides its engine (R260, R261) -/

/-- What has to be settled of a thread lies in Madder and in the Host Port's pool. -/
theorem settle_frame (t : Nat) (s : State) : settle t s = { s with mcc := (settle t s).mcc, hp := (settle t s).hp, ctr := (settle t s).ctr } := by
  have park : parkThread t .idle s = { s with mcc := (parkThread t .idle s).mcc, hp := (parkThread t .idle s).hp, ctr := (parkThread t .idle s).ctr } := by
    unfold parkThread
    dsimp only
    cases (s.thr t).tookRef with
    | none => rfl
    | some r => rfl
  unfold settle
  dsimp only
  split
  · rfl
  · split
    · exact park
    · rfl

/-- A call that has been answered leaves the blocks other than Madder and the Host Port as its engine left them. -/
theorem called_frame (t fn a i : Nat) (r : EngOut) :
    called t fn a i r = { r.st with mcc := (called t fn a i r).mcc, hp := (called t fn a i r).hp, ctr := (called t fn a i r).ctr } := by
  unfold called retire
  rw [settle_frame]
  rfl

/-! ## The master's configuration goes to its stack (R192) -/

/-- The master of a stack, whose thread 0 may call BAL_CONFIG with BINT 5 and STREAK 1. -/
def configuringMaster : State :=
  { State.reset with
    mcc.threads := [(0, { st := .run, level := .system })], mcc.dmem := [(0, 5#8), (1, 1#8)], cas.chips := 2, cas.ports := [(0, { role := 3, st := 2 })] }

/-- Refutes O39: a master sends the balance configuration down its stack, so BAL_CONFIG changes more than the Balance Engine. -/
theorem not_balanceCalls : ¬ Obligations.BalanceCalls := by
  rintro ⟨-, -, -, config, -⟩
  obtain ⟨⟨st, status, out, waits⟩, hr, -, -, -, hst⟩ :=
    config configuringMaster 0 0 0 0 (.dmem 0) 0 _ (by decide) rfl (by decide) (by decide) (by decide) (by decide)
  have hsends : ∃ v, execBalConfig 0 0 0 0 configuringMaster = .next v ∧ v.cas.nextMid = 1 := ⟨_, rfl, by decide⟩
  obtain ⟨v, hv, hmid⟩ := hsends
  have hnext : exec (.balConfig 0 0 0 0) configuringMaster = execBalConfig 0 0 0 0 configuringMaster := rfl
  rw [hnext, hv, Host.Outcome.next.injEq] at hr
  have hcas : st.cas = configuringMaster.cas := (congrArg State.cas hst).trans (calling_cas _ _ _ _)
  rw [hr, called_frame] at hmid
  have hone : st.cas.nextMid = 1 := hmid
  rw [hcas] at hone
  exact absurd hone (by decide)

end Sys2Proof.Machine

namespace Sys2Proof.Machine

/-! ## The time latch -/

/-- A part that is off, whose time is 1 ns. -/
def timeWhileOff : State := { State.reset with glb.mode := .off, tmu.ns := 1 }

/-- Refutes O41: without its clocks the part latches nothing, which the clause of TIME_LATCH_READ does not except. -/
theorem not_timeCalls : ¬ Obligations.TimeCalls := by
  rintro ⟨-, -, -, -, -, -, -, latch⟩
  have hnext : exec .timeLatchRead timeWhileOff = .next timeWhileOff := congrArg Host.Outcome.next (if_neg (by decide))
  have hlatch := (latch timeWhileOff).symm.trans hnext
  rw [Host.Outcome.next.injEq] at hlatch
  exact absurd (congrArg (fun s : State => s.tmu.latNs) hlatch) (by decide)

end Sys2Proof.Machine

namespace Sys2Proof.Machine

/-! ## A source newly selected -/

/-- TIME_SOURCE of an Operator that selects a PTP parent. -/
def selectParent : Cmd := { raw := le 8 0x72 ++ le 8 1 ++ zeroBytes 32 ++ le 8 1 ++ zeroBytes 8, sqid := 0, stage := .delivered }

/-- A part that has the command to run, and has heard an Announce of the parent selected before. -/
def selectingAnew : State :=
  { State.reset with hp.cmds := [selectParent], hp.sessions := [(1, { open_ := true, role := 2 })], tmu.ptp := { announced := true } }

/-- Refutes O43: with a new parent the Time Unit forgets the messages of the one before, so TIME_SOURCE changes more than the selection. -/
theorem not_timeCommands : ¬ Obligations.TimeCommands := by
  rintro ⟨-, -, -, -, source, -⟩
  obtain ⟨u, hu, -, -, htmu, -⟩ := source selectingAnew 0 selectParent _ (by decide) (by decide) (by decide) rfl (by decide) (by decide)
  have hforgets : ∃ v, execTimeSource 0 selectingAnew = .next v ∧ v.tmu.ptp.announced = false := ⟨_, rfl, by decide⟩
  obtain ⟨v, hv, hforgot⟩ := hforgets
  have hnext : exec (.timeSource 0) selectingAnew = execTimeSource 0 selectingAnew := rfl
  rw [hnext, hv] at hu
  cases hu
  have hkept : u.tmu.ptp.announced = true := congrArg (fun x : Tmu => x.ptp.announced) htmu
  exact absurd (hforgot.symm.trans hkept) (by decide)

end Sys2Proof.Machine

namespace Sys2Proof.Machine

/-! ## What a format makes of retired blocks (R219) -/

/-- A part whose thread 0 may call LAKE_FORMAT, with a retired block that the factory's list names as bad. -/
def formattingBadBlock : State :=
  { State.reset with
    mcc.dmem := [(0, 1#8), (2, 1#8), (4, 77#8), (5, 82#8), (6, 79#8), (7, 70#8)], lake.inited := true, lake.blocks := [(3, { st := 7 })], lake.factoryBad := [3],
    lake.geom := { dg := 1, lunch := 2, planes := 4, bpc := 3, tmode := 5, pages := 1000, blocksPerLun := 512 } }

/-- Refutes O44: a format sets a retired block back to the state BAD when the factory marked it so. -/
theorem not_lakeCalls : ¬ Obligations.LakeCalls := by
  rintro ⟨-, -, -, -, -, -, -, -, -, -, format, -⟩
  obtain ⟨r, hr, -, -, -, -, -, -, -, -, -, -, -, hretired, -⟩ :=
    format formattingBadBlock 0 0 0 0 (.dmem 0) 0 _ (by decide) rfl (by decide) (by decide) (by decide) (by decide)
  have hbad : ∃ v, execLakeFormat 0 0 0 0 formattingBadBlock = .next v ∧ (v.lake.blocks.find 3).map (·.st) = some 0 := ⟨_, rfl, by decide +kernel⟩
  obtain ⟨v, hv, hzero⟩ := hbad
  have hnext : exec (.lakeFormat 0 0 0 0) formattingBadBlock = execLakeFormat 0 0 0 0 formattingBadBlock := rfl
  rw [hnext, hv, Host.Outcome.next.injEq] at hr
  rw [hr, called_frame] at hzero
  exact absurd ((hretired 3 (by decide)).symm.trans hzero) (by decide)

end Sys2Proof.Machine

namespace Sys2Proof.Machine

/-! ## Submission queues, doorbells and fetch (R288 to R296) -/

@[simp] theorem queue_updQueue_self (i : Nat) (f : QPair → QPair) (s : State) : (updQueue i f s).queue i = f (s.queue i) := Map.get_put_self _ _ _ _

theorem queue_updQueue_ne {i k : Nat} (f : QPair → QPair) (s : State) (h : k ≠ i) : (updQueue i f s).queue k = s.queue k := Map.get_put_ne _ _ _ h

@[simp] theorem queue_postNotice (k code cls : Nat) (args : List Byte) (s : State) : (postNotice code cls args s).queue k = s.queue k := by
  rw [State.queue, postNotice_hp]
  rfl

theorem queue_congr {s u : State} (h : u.hp.queues = s.hp.queues) (k : Nat) : u.queue k = s.queue k := by
  unfold State.queue
  rw [h]

/-- A queue's error stops it alone and posts its notice. -/
theorem queueError_spec (i err : Nat) (s : State) :
    (queueError i err s).queue i = { s.queue i with err := err, stopped := true } ∧ (∀ k, k ≠ i → (queueError i err s).queue k = s.queue k) ∧
    Posts 0x0F01 0 (le 1 i ++ le 1 err) s (queueError i err s) ∧ (queueError i err s).hp.cmds = s.hp.cmds ∧
    queueError i err s = { s with hp := (queueError i err s).hp, glb := (queueError i err s).glb, ctr := (queueError i err s).ctr } := by
  unfold queueError
  refine ⟨?_, fun k hk => ?_, (posts_postNotice _ _ _ _).congr_left rfl rfl, ?_, ?_⟩
  · rw [queue_postNotice, queue_updQueue_self]
  · rw [queue_postNotice, queue_updQueue_ne _ _ hk]
  · rw [postNotice_hp]
    rfl
  · rw [postNotice_frame]
    rfl

/-- The fields of HP_Q_CTL that an enable latches are those of the word written. -/
theorem bits_of_ctl {v : BitVec 32} {lo w : Nat} (hw : ∀ i < w, (0x9FFFFF00#32).getLsbD (lo + i) = true ∧ (0x80000000#32).getLsbD (lo + i) = false) :
    ((v ||| 0x80000000#32) &&& 0x9FFFFF00#32).toNat >>> lo % 2 ^ w = v.toNat >>> lo % 2 ^ w := by
  apply Nat.eq_of_testBit_eq
  intro i
  rw [Nat.testBit_mod_two_pow, Nat.testBit_mod_two_pow, Nat.testBit_shiftRight, Nat.testBit_shiftRight]
  by_cases hi : i < w
  · obtain ⟨hm, hs⟩ := hw i hi
    have : ((v ||| 0x80000000#32) &&& 0x9FFFFF00#32).getLsbD (lo + i) = v.getLsbD (lo + i) := by
      rw [BitVec.getLsbD_and, BitVec.getLsbD_or, hm, hs, Bool.or_false, Bool.and_true]
    rw [BitVec.testBit_toNat, BitVec.testBit_toNat, this]
  · simp [hi]

theorem fit_eq {n : Nat} {l : List Byte} (h : l.length = n) : fit n l = l := by
  unfold fit
  rw [List.take_of_length_le (by omega), h, Nat.sub_self]
  exact List.append_nil l

theorem mem_slice_of_mem_slice {l : List Byte} {off len at_ n : Nat} (hlo : off ≤ at_) (hhi : at_ + n ≤ off + len) {x : Byte} (h : x ∈ slice l at_ n) :
    x ∈ slice l off len := by
  obtain ⟨d, rfl⟩ := Nat.exists_eq_add_of_le hlo
  unfold slice at h ⊢
  rw [← List.drop_drop, List.take_drop] at h
  exact (List.take_sublist_take_left (by omega)).subset (List.mem_of_mem_drop h)

/-- A part of a run of zeros. -/
theorem zeros_mono {l : List Byte} {off len at_ n : Nat} (h : zeros l off len = true) (hlo : off ≤ at_) (hhi : at_ + n ≤ off + len) : zeros l at_ n = true :=
  List.all_eq_true.mpr fun x hx => List.all_eq_true.mp h x (mem_slice_of_mem_slice hlo hhi hx)

theorem ofLe_eq_zero {l : List Byte} (h : ∀ x ∈ l, x = 0#8) : ofLe l = 0 := by
  induction l with
  | nil => rfl
  | cons x l ih =>
    have hx : x = 0#8 := h x List.mem_cons_self
    rw [ofLe, ih fun y hy => h y (List.mem_cons_of_mem _ hy), hx]
    rfl

/-- A field within a run of zeros is 0. -/
theorem field_eq_zero {l : List Byte} {off len at_ n : Nat} (h : zeros l off len = true) (hlo : off ≤ at_) (hhi : at_ + n ≤ off + len) : field l at_ n = 0 :=
  ofLe_eq_zero fun x hx => by simpa using List.all_eq_true.mp h x (mem_slice_of_mem_slice hlo hhi hx)

/-- A command without a session whose checks pass joins those in flight. -/
theorem judge_noSession {c : Cmd} {short last : Bool} {s : State} (hsid : c.sid = 0) (hok : c.refusal none short last s = stOk) :
    judge c true short last s = { s with hp.cmds := s.hp.cmds ++ [{ c with no := s.hp.fetched }], hp.fetched := s.hp.fetched + 1 } := by
  unfold judge
  dsimp only
  rw [if_pos hsid, if_neg (by simp), if_pos hok]

/-- A command under a session that there is not is refused before any other check of it. -/
theorem judge_sessionUnknown {c : Cmd} {dma short last : Bool} {s : State} (hsid : c.sid ≠ 0) (hno : s.session c.sid = none) :
    judge c dma short last s = registerCmd s.hp.fetched hpAuthNoSession 0 none
      { s with hp.cmds := s.hp.cmds ++ [{ c with no := s.hp.fetched }], hp.fetched := s.hp.fetched + 1 } := by
  unfold judge
  dsimp only
  rw [if_neg hsid, hno]

/-- A command registered, in the flight of a state. -/
theorem registerCmd_frame (no status : Nat) (result : BitVec 64) (resp : Option (List Byte)) (s : State) :
    registerCmd no status result resp s = { s with
      hp.cmds := s.hp.cmds.map (fun c => if c.no = no then c.done s.hp.regs status result resp else c), hp.regs := s.hp.regs + 1,
      ctr := (registerCmd no status result resp s).ctr } := by
  unfold registerCmd
  rw [countStatus_frame]

/-- A TIMEOUT is counted. -/
theorem counter_registerCmd_timeout (no : Nat) (result : BitVec 64) (resp : Option (List Byte)) (s : State) :
    (registerCmd no hpTimeout result resp s).counter 0x310009 = s.counter 0x310009 + 1 := (counter_count _ _ _).trans (if_pos rfl)

/-- An event for a queue that has room. -/
theorem postEvent_room {src t : Nat} {ref rtag : Word} {body : List Byte} {s : State} (h : (s.mcc.queues.get [] (evKey src t)).length < evCap src) :
    postEvent src t ref rtag body s = { s with
      mcc.queues := s.mcc.queues.put [] (evKey src t) (s.mcc.queues.get [] (evKey src t) ++ [{ seq := s.mcc.seqs.get 0 (evKey src t), ref := ref, body := body, rtag := rtag }])
      mcc.seqs := s.mcc.seqs.put 0 (evKey src t) (s.mcc.seqs.get 0 (evKey src t) + 1) } := if_pos h

/-- The event queues of the commands, and what they hold (Table 9-12). -/
theorem commandEvents (q : Fin 18) : evKey (if q.val < 16 then 0 else 1) 0 = (if q.val < 16 then 0 else 1) ∧
    evCap (if q.val < 16 then 0 else 1) = if q.val < 16 then 2 ^ 16 else 256 := by
  by_cases h : q.val < 16
  · simp [h, evKey, evCap]
  · simp [h, evKey, evCap]

/-- The state once an entry of queue `i` has been fetched, before it is judged. -/
def entryFetched (i : Nat) (s : State) : State :=
  count (kHp 0) (updQueue i (fun q => { q with sqHead := (q.sqHead + 1) % 128 }) { s with hp.turn := i })

/-- An entry without data, as COMMAND_FETCH takes it from a queue. -/
theorem execCommandFetch_takes {i : Fin 16} {raw data : List Byte} {dataOk : Bool} {s : State} (hnext : s.nextQueue = some i.val) (hd3 : s.hp.d3hot = false)
    (hr : s.hostRuns = true) (hdrain : s.cpm.drain = .none) (hlen : raw.length = 64) (hdata : bitAt (field raw 2 1) 6 = false) :
    exec (.commandFetch i raw data true dataOk) s =
      .next (judge { raw := raw, sqid := i } true false true (entryFetched i s)) := by
  have hhas : ({ raw := fit 64 raw, sqid := i } : Cmd).hasData = false := by
    rw [fit_eq hlen]
    exact hdata
  show execCommandFetch i raw data true dataOk s = _
  unfold execCommandFetch
  dsimp only
  rw [if_neg (by simp [hnext, hd3, hr, hdrain]), if_neg (by simp), hhas, fit_eq hlen]
  simp [entryFetched]

/-- A free unit is always found for a command without data or response. -/
theorem poolRoom_zero (s : State) : s.poolRoom 0 = some 0 := rfl

/-- A bit of a number that leaves no remainder by a higher power of two. -/
theorem bitAt_low {x i n : Nat} (h : x % 2 ^ n = 0) (hi : i < n) : bitAt x i = false := by
  have := Nat.testBit_mod_two_pow x n i
  rw [h, Nat.zero_testBit, decide_eq_true hi, Bool.true_and] at this
  rw [bitAt_testBit, ← this]

/-- A session command with every reserved field zero passes the checks that need no session. -/
theorem refusal_sessionCommand {raw : List Byte} {i : Nat} {s : State} (heno : field raw 0 2 ∈ [0xFF00, 0xFF01, 0xFF02, 0xFF03])
    (hflags : field raw 2 1 % 2 ^ 7 = 0) (hz3 : zeros raw 3 1 = true) (hz36 : zeros raw 36 8 = true) (hz44 : zeros raw 44 20 = true) :
    Cmd.refusal { raw := raw, sqid := i } none false true s = stOk := by
  have hdlen : field raw 44 2 = 0 := field_eq_zero hz44 (by omega) (by omega)
  have hrlen : field raw 46 2 = 0 := field_eq_zero hz44 (by omega) (by omega)
  have hbuf : field raw 36 8 = 0 := field_eq_zero hz36 (by omega) (by omega)
  have h50 : zeros raw 50 2 = true := zeros_mono hz44 (by omega) (by omega)
  have h52 : zeros raw 52 12 = true := zeros_mono hz44 (by omega) (by omega)
  have hlow : bits (field raw 2 1) 4 0 = 0 := by
    unfold bits
    rw [Nat.shiftRight_zero]
    omega
  have h5 : bitAt (field raw 2 1) 5 = false := bitAt_low (n := 7) hflags (by omega)
  have h6 : bitAt (field raw 2 1) 6 = false := bitAt_low (n := 7) hflags (by omega)
  have hb : 0xFF00 ≤ field raw 0 2 ∧ field raw 0 2 ≤ 0xFF03 := by
    simp only [List.mem_cons, List.not_mem_nil, or_false] at heno
    omega
  have hbuiltin : builtin (field raw 0 2) = true := decide_eq_true (by omega)
  unfold Cmd.refusal
  simp only [Cmd.dlen8, Cmd.rlen8, Cmd.buf, Cmd.hasData, Cmd.rbuf, Cmd.eno, Cmd.sid, hdlen, hrlen, hbuf, h50, h52, hlow, h5, h6, hz3, hbuiltin, hb]
  simp

/-- The pool units of a command whose thread still holds them when it times out. -/
def staleWith (c : Cmd) (l : List (Word × Nat × Nat)) : List (Word × Nat × Nat) :=
  match c.pool with
  | some u => (c.ref, u.1, u.2) :: l
  | none => l

theorem staleWith_mem {c : Cmd} {l : List (Word × Nat × Nat)} {p : Nat × Nat} (h : c.pool = some p) : (c.ref, p.1, p.2) ∈ staleWith c l := by
  unfold staleWith
  rw [h]
  exact List.mem_cons_self

/-- A command that has run past its queue's time is registered with TIMEOUT. -/
theorem execCommandTimeout_late {q : Fin 16} {c : Cmd} {s : State} (hr : s.clocked = true) (ht : 0 < (s.queue q).tmo)
    (hf : firstWhere (fun d : Cmd => d.sqid == q.val && decide (d.stage = .delivered) && !d.discard && decide (d.deliveredAt + (s.queue q).tmo * 100000000 ≤ s.nowNs)) s.hp.cmds = some c) :
    exec (.commandTimeout q) s = .next (registerCmd c.no hpTimeout 0 none
      { s with hp.stale := staleWith c s.hp.stale, hp.cmds := s.hp.cmds.map fun d => if d.no = c.no then { d with pool := none } else d }) := by
  show execCommandTimeout q s = _
  unfold execCommandTimeout onClock
  dsimp only
  rw [if_pos hr, if_neg (by omega), hf]
  dsimp only
  unfold staleWith
  cases c.pool with
  | none => rfl
  | some u => rfl

/-- Settles O47. -/
theorem hostQueues : Obligations.HostQueues := by
  refine ⟨fun s i v hq hv hr => ?_, fun s i v hq hv hr => ?_, fun s i v hq hr => ?_, fun s i v hq hr => ?_, fun s v hq hr => ?_, fun s v hq hr => ?_,
    fun s v hr => ?_, fun s i raw data dataOk hn hg hlen hz => ?_, fun s i raw data dataOk hn hg hlen hsid hno => ?_, fun s i raw data dataOk hn hg => ?_,
    fun s q c hc hs hl hcap hr => ?_, fun s q c hc hs ht hr => ?_, fun s q ht => ?_⟩
  · obtain ⟨hen, hst⟩ := hq
    refine does_clocked hr rfl ?_
    dsimp only
    rw [if_neg (by simp [hen, hst]), if_neg (by omega)]
    exact ⟨queue_updQueue_self _ _ _, fun k hk => queue_updQueue_ne _ _ hk, rfl⟩
  · obtain ⟨hen, hst⟩ := hq
    refine does_clocked hr rfl ?_
    dsimp only
    rw [if_neg (by simp [hen, hst]), if_pos hv]
    exact queueError_spec i 1 s
  · refine does_clocked hr rfl ?_
    dsimp only
    rw [if_pos (by simpa using hq)]
    exact ⟨(counter_count _ _ _).trans (if_pos rfl), rfl⟩
  · refine does_clocked hr rfl ?_
    rw [if_pos hq]
    exact ⟨queue_updQueue_self _ _ _, fun k hk => queue_updQueue_ne _ _ hk, rfl⟩
  · have hentries : 2 * s.hp.nq.entries = 2 ^ (s.hp.nq.size + 7) := (Nat.pow_succ' (m := 2) (n := s.hp.nq.size + 6)).symm
    show Host.Outcome.next _ = _
    rw [if_pos hr, if_pos hq, hentries]
  · obtain ⟨hen, hwait, hdrain⟩ := hq
    refine does_clocked hr rfl ?_
    have hbit : bitAt (v ||| 0x80000000).toNat 31 = true := by
      rw [bitAt_testBit, BitVec.testBit_toNat]
      simp
    have hvec : bits ((v ||| 0x80000000) &&& qCtlMask).toNat 28 24 = bits v.toNat 28 24 := bits_of_ctl (w := 5) (by decide)
    have htmo : bits ((v ||| 0x80000000) &&& qCtlMask).toNat 15 8 = bits v.toNat 15 8 := bits_of_ctl (w := 8) (by decide)
    unfold queueCtl
    dsimp only
    rw [hbit, if_neg (by simp), if_neg (by simp [hen, hwait]), hdrain, if_neg (by simp)]
    unfold enableQueue
    refine ⟨⟨?_, ?_⟩, fun k hk => ?_, rfl⟩
    · rw [queue_updQueue_self, queue_updQueue_self]
      dsimp only
      split
      · rfl
      · rfl
    · rw [queue_updQueue_self, queue_updQueue_self]
      dsimp only
      rw [hvec, htmo]
      by_cases hbig : 17 < bits v.toNat 28 24
      · rw [if_pos hbig, if_pos hbig]
        exact ⟨rfl, rfl⟩
      · rw [if_neg hbig, if_neg hbig]
        exact ⟨rfl, rfl, rfl, rfl, rfl, rfl, rfl, rfl, rfl, rfl, rfl⟩
    · rw [queue_updQueue_ne _ _ hk, queue_updQueue_ne _ _ hk]
  · refine does_clocked hr rfl ?_
    have hbit : bitAt (v &&& 0x7FFFFFFF).toNat 31 = false := by
      rw [bitAt_testBit, BitVec.testBit_toNat]
      simp
    have hmask : v &&& 0x7FFFFFFF &&& qCtlMask = v &&& 0x1FFFFF00 := BitVec.and_assoc ..
    rw [← hmask]
    generalize v &&& 0x7FFFFFFF = w at hbit ⊢
    generalize hm : qCtlMask = m
    unfold queueCtl
    dsimp only
    rw [hbit, if_pos (by simp), hm]
    refine ⟨?_, ?_, fun k hk => ?_, rfl, rfl⟩
    · simp [State.queue, updQueue]
    · simp [State.queue, updQueue]
    · simp [State.queue, updQueue, Map.get_put_ne _ _ _ hk]
  · obtain ⟨hd3, hruns, hdrain⟩ := hg
    obtain ⟨heno, hflags, hz3, hz36, hz44⟩ := hz
    have hbit6 : bitAt (field raw 2 1) 6 = false := bitAt_low (n := 7) hflags (by omega)
    have hok : Cmd.refusal { raw := raw, sqid := i } none false true (entryFetched i s) = stOk :=
      refusal_sessionCommand heno hflags hz3 hz36 hz44
    refine does_next (execCommandFetch_takes hn hd3 hruns hdrain hlen hbit6) ?_
    rw [judge_noSession (field_eq_zero hz44 (by omega) (by omega)) hok]
    refine ⟨?_, fun k hk => ?_, rfl, rfl, rfl⟩
    · simp [State.queue, entryFetched, updQueue]
    · simp [State.queue, entryFetched, updQueue, Map.get_put_ne _ _ _ hk]
  · obtain ⟨hd3, hruns, hdrain⟩ := hg
    refine does_next (execCommandFetch_takes hn hd3 hruns hdrain hlen hsid.2) ?_
    rw [judge_sessionUnknown (c := { raw := raw, sqid := i }) (s := entryFetched i s) hsid.1 hno]
    rw [registerCmd_frame]
    refine ⟨?_, fun k hk => ?_, ?_, ⟨?_, fun d hd hne => ?_⟩, rfl, rfl, rfl, rfl⟩
    · simp [State.queue, entryFetched, updQueue]
    · simp [State.queue, entryFetched, updQueue, Map.get_put_ne _ _ _ hk]
    · exact List.mem_map.mpr ⟨{ raw := raw, sqid := i, no := s.hp.fetched }, List.mem_append_right _ List.mem_cons_self, if_pos rfl⟩
    · exact (List.length_map ..).trans (List.length_append ..)
    · exact List.mem_map.mpr ⟨d, List.mem_append_left _ hd, if_neg hne⟩
  · obtain ⟨hd3, hruns, hdrain⟩ := hg
    refine does_next (congrArg Host.Outcome.next ((if_neg (by simp [hn, hd3, hruns, hdrain])).trans (if_pos (by simp)))) ?_
    obtain ⟨hself, hne, hposts, hcmds, -⟩ := queueError_spec i 2 { s with hp.turn := i }
    exact ⟨hself, hne, hcmds, hposts.congr_left rfl rfl⟩
  · obtain ⟨hq, hstage, hstd⟩ := hs
    obtain ⟨hd, hrl, hdata⟩ := hl
    have hunits : c.units = 0 := by
      unfold Cmd.units
      rw [hd, hrl]
      rfl
    have hbuiltin : builtin c.eno = false := by
      unfold builtin
      exact decide_eq_false (by omega)
    have hfence : s.fenceOk c = true := by
      unfold State.fenceOk
      rw [hc]
      simp
    have hready : firstWhere (fun d : Cmd => d.sqid == q.val && decide (d.stage = .judged) && !builtin d.eno && s.fenceOk d && (s.poolRoom d.units).isSome) s.hp.cmds = some c := by
      rw [hc]
      refine firstWhere_singleton ?_
      rw [hunits, poolRoom_zero, hbuiltin, hfence]
      simp [hq, hstage]
    refine does_onCores hr rfl ?_
    dsimp only
    rw [hready]
    dsimp only
    rw [hunits, hdata, poolRoom_zero, hc]
    obtain ⟨hkey, hroom⟩ := commandEvents q
    have hcap' : (s.mcc.queues.get [] (evKey (if q.val < 16 then 0 else 1) 0)).length < evCap (if q.val < 16 then 0 else 1) := by
      rw [hkey, hroom]
      exact hcap
    generalize (if q.val < 16 then 0 else 1) = k at hcap' hkey ⊢
    rw [postEvent_room (by exact hcap'), hkey]
    refine ⟨?_, ⟨{ seq := s.mcc.seqs.get 0 k, ref := c.ref, body := c.raw ++ zeroBytes 48, rtag := s.cmdRtag c }, ?_, rfl, rfl, rfl⟩, fun j hj => ?_, rfl, ?_, rfl, rfl, rfl⟩
    · simp [hdata]
    · simp
      rfl
    · simp [Map.get_put_ne _ _ _ hj]
    · simp [writeBytes]
  · obtain ⟨hq, hstage, hdis⟩ := hs
    obtain ⟨hpos, hlate⟩ := ht
    have hfound : firstWhere (fun d : Cmd => d.sqid == q.val && decide (d.stage = .delivered) && !d.discard && decide (d.deliveredAt + (s.queue q).tmo * 100000000 ≤ s.nowNs)) s.hp.cmds = some c := by
      rw [hc]
      exact firstWhere_singleton (by simp [hq, hstage, hdis, hlate])
    refine does_next (execCommandTimeout_late hr hpos hfound) ?_
    rw [registerCmd_frame, hc]
    refine ⟨⟨⟨_, List.mem_cons_self, ?_⟩, fun d hd hne => ?_, ?_, rfl⟩, fun p hp => ?_, ?_, rfl⟩
    · simp [Cmd.done, hpTimeout]
    · simp only [List.map_cons, List.map_nil, if_true, List.mem_singleton] at hd
      exact absurd (by rw [hd]; rfl) hne
    · rw [hc]
      rfl
    · exact staleWith_mem hp
    · exact counter_registerCmd_timeout _ _ _ _
  · refine stays_onClock rfl ?_
    dsimp only
    rw [if_pos ht]

end Sys2Proof.Machine

namespace Sys2Proof.Machine

/-! ## The PCIe power state without the clocks -/

/-- A part that is off, which the host put into D3hot before. -/
def d3hotWhileOff : State := { State.reset with glb.mode := .off, hp.d3hot := true }

/-- Refutes O48: without its clocks the Host Port takes no power state, which the clause of a return to D0 does not except. -/
theorem not_hostAnswers : ¬ Obligations.HostAnswers := by
  rintro ⟨-, -, -, -, -, -, -, -, -, -, -, -, -, -, wakes, -⟩
  have hnext : exec (.pciePowerState false) d3hotWhileOff = .next d3hotWhileOff := congrArg Host.Outcome.next (if_neg (by decide))
  have hwakes := (wakes d3hotWhileOff (by decide)).symm.trans hnext
  rw [Host.Outcome.next.injEq] at hwakes
  exact absurd (congrArg (fun s : State => s.hp.d3hot) hwakes) (by decide)

end Sys2Proof.Machine

namespace Sys2Proof.Machine

/-! ## STATUS with a response buffer -/

/-- A STATUS command that names a response buffer (RBUF). -/
def statusWithBuffer : Cmd := { raw := bytesOf [0x01, 0xFF, 0x20] ++ zeroBytes 61, sqid := 0, stage := .judged }

/-- A part to which a host has sent that command. -/
def statusAsked : State := { State.reset with hp.cmds := [statusWithBuffer] }

/-- Refutes O49: STATUS of a command with RBUF set registers an empty response, where its clause has no response at all. -/
theorem not_builtinCommands : ¬ Obligations.BuiltinCommands := by
  rintro ⟨-, status, -⟩
  obtain ⟨u, hu, ⟨⟨d, hd, -, -, -, -, -, -, hresp⟩, -⟩, -⟩ := status statusAsked 0 statusWithBuffer (by decide) (by decide)
  have hrun : ∃ v, execStatus 0 statusAsked = .next v ∧ ∀ d ∈ v.hp.cmds, d.resp = some [] := ⟨_, rfl, by decide⟩
  obtain ⟨v, hv, hempty⟩ := hrun
  have hnext : exec (.status 0) statusAsked = execStatus 0 statusAsked := rfl
  rw [hnext, hv] at hu; cases hu
  exact absurd ((hempty d hd).symm.trans hresp) (by decide)

end Sys2Proof.Machine

namespace Sys2Proof.Machine

/-! ## A host's reading of an entry corrects it too (R19) -/

/-- DIR_READ of the entry 0 by an Operator. -/
def readEntryZero : Cmd := { raw := le 8 0x22 ++ zeroBytes 40 ++ le 8 1 ++ zeroBytes 8, sqid := 0, stage := .delivered }

/-- A part that has the command to run, in whose directory a bit of the first word of that entry has flipped. -/
def readingFlippedEntry : State :=
  { State.reset with
    hp.cmds := [readEntryZero], hp.sessions := [(1, { open_ := true, role := 2 })],
    ing.dir := [(0, { st := .active, ma := 9 })], glb.upsets := [(0, 1)] }

/-- Refutes O50: DIR_READ of an entry with a flipped bit corrects the word, which is no change of the Host Port alone. -/
theorem not_standardCommands : ¬ Obligations.StandardCommands := by
  rintro ⟨-, -, -, -, -, -, -, dirRead, -⟩
  obtain ⟨u, hu, -, honly⟩ := dirRead readingFlippedEntry 0 readEntryZero (by decide) (by decide) (by decide) (by decide) (by decide)
  have hcorrects : ∃ v, execHostDirRead 0 readingFlippedEntry = .next v ∧ v.glb.upsets = [] := ⟨_, rfl, by decide⟩
  obtain ⟨v, hv, hup⟩ := hcorrects
  have hnext : exec (.hostDirRead 0) readingFlippedEntry = execHostDirRead 0 readingFlippedEntry := rfl
  rw [hnext, hv] at hu; cases hu
  have hkept : u.glb.upsets = [(0, 1)] := congrArg (fun s : State => s.glb.upsets) honly
  exact absurd (hup.symm.trans hkept) (by decide)

end Sys2Proof.Machine

namespace Sys2Proof.Machine

/-! ## An Announce that finds no posted buffer -/

/-- An Announce of PTP version 2 in an Ethernet frame, with PTP timescale set, of the clock and port 0. -/
def announceFrame : List Byte := zeroBytes 12 ++ be 2 0x88F7 ++ bytesOf [0x0B, 2, 0, 0, 0, 0, 0, 8] ++ zeroBytes 40

/-- A part whose MAC 1 is up without a posted buffer, and whose selected parent is heard there. -/
def hearingParent : State :=
  { State.reset with
    macs := [(1, { cfg := some { promisc := true, enable := true }, cfgok := true, link := true, blockLock := true })], tmu.sel := { kind := 2 } }

/-- Refutes O59: a frame without a posted buffer is still read by the Time Unit, so an Announce changes more than the MACs. -/
theorem not_macsAndPower : ¬ Obligations.MacsAndPower := by
  rintro ⟨-, -, -, -, -, -, -, -, -, -, -, unposted, -⟩
  obtain ⟨u, hu, -, -, hframe⟩ :=
    unposted hearingParent 1 announceFrame true 0 _ ⟨rfl, by decide⟩ (by decide) (by decide) (by decide) (by decide) (by decide)
  have hhears : ∃ v, execMacFrameReceive 1 announceFrame true 0 hearingParent = .next v ∧ v.tmu.ptp.announced = true := ⟨_, rfl, by decide⟩
  obtain ⟨v, hv, hheard⟩ := hhears
  have hnext : exec (.macFrameReceive 1 announceFrame true 0) hearingParent = execMacFrameReceive 1 announceFrame true 0 hearingParent := rfl
  rw [hnext, hv] at hu; cases hu
  have hkept : u.tmu.ptp.announced = false := congrArg (fun s : State => s.tmu.ptp.announced) hframe
  exact absurd (hheard.symm.trans hkept) (by decide)

end Sys2Proof.Machine

namespace Sys2Proof.Machine

/-! ## Chunks asked of the twin, when the notice queue is full -/

/-- A held notice of some loss. -/
def heldNotice : Notice := { code := 0x0704, cls := 0, nseq := 0, timeInv := true, tai := 0, args := zeroBytes 16, held := true }

/-- A paired unit that has heard no HELLO in time, waits for a chunk of the twin's, and holds all the notices it can. -/
def lonelyWithFullQueue : State :=
  { State.reset with
    glb.mode := .service, cas.paired := true, tmu.sec := 1, lake.fetch := [(0, [])], hp.nq.waiting := List.replicate 1024 heldNotice }

/-- Refutes O58: when a unit alone becomes active it posts the loss of the chunk it waited for; that notice is dropped, and NQ_OVF is set. -/
theorem not_cascadePairs : ¬ Obligations.CascadePairs := by
  rintro ⟨-, -, -, -, -, -, -, -, -, -, -, -, -, -, -, -, -, -, -, -, -, -, -, -, -, -, -, -, -, -, -, -, -, -, -, -, -, -, -, -, -, -, -, -, -, -, -, -, alone, -⟩
  obtain ⟨u, hu, -, -, -, hglb, -⟩ := alone lonelyWithFullQueue (by decide) (by decide)
  have hdrops : ∃ v, execMirrorHelloTimeout lonelyWithFullQueue = .next v ∧ v.glb.nqOvf = true := ⟨_, rfl, by decide +kernel⟩
  obtain ⟨v, hv, hovf⟩ := hdrops
  have hnext : exec .mirrorHelloTimeout lonelyWithFullQueue = execMirrorHelloTimeout lonelyWithFullQueue := rfl
  rw [hnext, hv] at hu; cases hu
  exact absurd (hovf.symm.trans (congrArg (fun g : Glb => g.nqOvf) hglb)) (by decide)

end Sys2Proof.Machine

namespace Sys2Proof.Machine

/-! ## What a notice and a scrub leave alone -/

/-- A counter that a count does not name. -/
theorem counter_count_ne {j k : Nat} (h : j ≠ k) (s : State) : (count k s).counter j = s.counter j := (counter_count k j s).trans (if_neg h)

/-- A dropped notice moves the counters of the notices dropped and posted. -/
theorem counter_dropNotice {j : Nat} (h11 : j ≠ kHp 11) (h13 : j ≠ kHp 13) (n : Notice) (s : State) : (dropNotice n s).counter j = s.counter j := by
  have hdrop : (count (kHp 13) { s with glb.nqOvf := true, hp.nq.lostDue := true }).counter j = s.counter j := counter_count_ne h13 _
  unfold dropNotice
  dsimp only
  split
  · exact hdrop
  · rw [counter_count_ne h11]
    exact hdrop

/-- The counters that posting may move are those of the notices posted, held, dropped and suppressed. -/
theorem counter_postNotice {j : Nat} (h : ∀ i ∈ [11, 12, 13, 14], j ≠ kHp i) (code cls : Nat) (args : List Byte) (s : State) :
    (postNotice code cls args s).counter j = s.counter j := by
  have h11 := h 11 (by simp)
  have hposted : ∀ n, (count (kHp 11) (routeNotice n { s with hp.nq.nseq := s.hp.nq.nseq + 1 })).counter j = s.counter j := fun n => counter_count_ne h11 _
  unfold postNotice
  split
  · exact counter_count_ne (h 14 (by simp)) s
  · dsimp only
    split
    · exact hposted _
    · split
      · rw [counter_count_ne (h 12 (by simp))]
        exact hposted _
      · rw [counter_dropNotice h11 (h 13 (by simp))]
        exact hposted _

/-- A scrub takes the doomed operations out of Woad's queue; the slots, the epochs and every other block but the cores and the receiver stay. -/
theorem scrub_frame (d : Nat → Option Nat → Bool) (s : State) : ∃ (mcc : Mcc) (rla : Rla) (m : BitVec 32) (f : Nat) (ctr : Map (BitVec 64)),
    (scrub d s).2 = { s with mcc := mcc, rla := rla, free := f, ctr := ctr,
                             woad.queued := s.woad.queued.keep fun _ op => !op.doomed d, woad.scrubMax := m } := by
  exact ⟨_, _, _, _, _, rfl⟩

/-- A scrub moves the counters of the operations failed and of the time it took. -/
theorem counter_scrub {j : Nat} (d : Nat → Option Nat → Bool) (s : State) (h4 : j ≠ kWkv 4) (h5 : j ≠ kWkv 5) :
    (scrub d s).2.counter j = s.counter j := by
  unfold scrub
  exact (counter_countN _ _ _ _).trans ((if_neg h4).trans ((counter_countN _ _ _ _).trans (if_neg h5)))

/-- An entry kept by a predicate on the entries fulfils it. -/
theorem find_keep_holds {α : Type} (m : Map α) (p : Nat → α → Bool) {k : Nat} {v : α} (h : (m.keep p).find k = some v) : p k v = true := by
  unfold Map.keep at h
  induction m with
  | nil => simp at h
  | cons e m ih =>
    obtain ⟨j, w⟩ := e
    rw [List.filter_cons] at h
    split at h
    · next hp =>
      unfold Map.find at h
      split at h
      · next hk => rw [Option.some.injEq] at h; rw [hk, ← h]; exact hp
      · exact ih h
    · exact ih h

/-! ## The commit of an invalidation (R317) -/

/-- An orphaned record keeps its key and its identity. -/
theorem orphan_key (i : Nat) (k : KeySlot) : (k.orphan i).key = k.key ∧ (k.orphan i).keyid = k.keyid := by
  unfold KeySlot.orphan
  split <;> exact ⟨rfl, rfl⟩

theorem orphan_st (i : Nat) (k : KeySlot) :
    (k.orphan i).st = if k.st = .active ∧ k.amask.getLsbD i = true then .orphaned else k.st := by
  unfold KeySlot.orphan
  split <;> rfl

/-- A commit is due once the tombstone is durable and acknowledged. -/
theorem execInvalidationCommit_due {n : Fin 64} {s : State} (ht : (s.keySlot n).tomb = true)
    (hd : (s.woad.durSlots.get {} n).tomb = true) (ha : s.mackAwaited n = false) :
    exec (.invalidationCommit n) s = .next (commitTomb n s) := by
  change Host.Outcome.next _ = _
  dsimp only
  rw [if_neg (by simp [ht]), if_pos (Or.inr ⟨hd, by simp [ha]⟩)]

/-- What the commit of an invalidation of slot `n` does: the slots under it are orphaned, the broadcast epoch on one of them ends. -/
theorem commitTomb_woad (n : Nat) (s : State) :
    (commitTomb n s).woad.slots = orphanSlots n s.woad.slots ∧
    (commitTomb n s).woad.bcast = (if s.woad.bcast.valid ∧ s.under n s.woad.bcast.slot then { s.woad.bcast with valid := false } else s.woad.bcast) ∧
    (commitTomb n s).ldg = s.ldg ∧ (commitTomb n s).ing = s.ing ∧ (commitTomb n s).otp = s.otp := by
  obtain ⟨mcc, rla, m, f, ctr, hs⟩ := scrub_frame (fun j _ => s.under n j) s
  unfold commitTomb
  dsimp only
  rw [wake_frame]
  dsimp only
  rw [postNotice_frame, hs]
  exact ⟨rfl, rfl, rfl, rfl, rfl⟩

/-- The state that the commit of an invalidation of slot `n` announces. -/
def tombed (n : Nat) (s : State) : State :=
  let t := (scrub (fun j _ => s.under n j) s).2
  { t with
    woad.slots := orphanSlots n t.woad.slots
    woad.bcast := if t.woad.bcast.valid ∧ s.under n t.woad.bcast.slot then { t.woad.bcast with valid := false } else t.woad.bcast }

theorem tombed_nq (n : Nat) (s : State) : (tombed n s).hp.nq = s.hp.nq ∧ (tombed n s).hp.mask = s.hp.mask := ⟨rfl, rfl⟩

theorem counter_tombed (n : Nat) (s : State) : (tombed n s).counter 0x320003 = s.counter 0x320003 :=
  (counter_congr (s := (scrub (fun j _ => s.under n j) s).2) rfl _).trans (counter_scrub _ _ (by decide) (by decide))

theorem commitTomb_eq (n : Nat) (s : State) : commitTomb n s =
    wake (.tomb n) (some stOk) (some [(8, le 4 (scrub (fun j _ => s.under n j) s).1)])
      (postNotice 0x0801 1 (le 1 n ++ zeroBytes 3 ++ le 4 (scrub (fun j _ => s.under n j) s).1) (count (kWkv 3) (tombed n s))) := rfl

theorem nq_wake (w : Wait) (st : Option Nat) (o : Option (List (Nat × List Byte))) (s : State) : (wake w st o s).hp.nq = s.hp.nq := rfl

/-- The notice of a commit names the slot and, when nothing was queued, no failed operation. -/
theorem commitTomb_posts (n : Nat) (s : State) (hq : s.woad.queued = []) :
    Posts 0x0801 1 (le 1 n ++ zeroBytes 3 ++ le 4 0) s (commitTomb n s) := by
  have hnone : (scrub (fun j _ => s.under n j) s).1 = 0 := by
    change (s.woad.queued.filter _).length = 0
    rw [hq]
    rfl
  obtain ⟨hnq, hmask⟩ := tombed_nq n s
  rw [commitTomb_eq, hnone]
  generalize tombed n s = t at hnq hmask
  exact ((posts_postNotice 0x0801 1 _ (count (kWkv 3) t)).congr_left hnq.symm hmask.symm).congr (by rw [nq_wake]) (by rw [nq_wake])

/-- A commit counts once among the invalidations. -/
theorem counter_commitTomb (n : Nat) (s : State) : (commitTomb n s).counter 0x320003 = s.counter 0x320003 + 1 := by
  rw [commitTomb_eq, counter_congr (wake_ctr _ _ _ _), counter_postNotice (by decide), counter_count, if_pos (by decide), counter_tombed]

theorem keySlot_orphaned {u s : State} {n : Nat} (h : u.woad.slots = orphanSlots n s.woad.slots) (j : Nat) : u.keySlot j = (s.keySlot j).orphan n := by
  have hempty : KeySlot.orphan n {} = {} := by simp [KeySlot.orphan]
  unfold State.keySlot
  rw [h, ← Map.get_mapVals (KeySlot.orphan n), hempty]
  rfl

/-! ## The commit of a raised EPMIN (R314) -/

theorem execEpminCommit_due {n : Fin 64} {e : Nat} {s : State} (he : (s.keySlot n).epminNext = some e)
    (hd : (s.woad.durSlots.get {} n).epminNext = some e) (ha : s.mackAwaited (64 + n) = false) :
    exec (.epminCommit n) s = .next (commitEpmin n e s) := by
  change Host.Outcome.next _ = _
  dsimp only
  rw [he]
  dsimp only
  rw [if_pos (Or.inr ⟨hd, by simp [ha]⟩)]

/-- The keys that a new EPMIN `e` of slot `i` dooms. -/
def epminDooms (i e j : Nat) (ep : Option Nat) : Bool := j == i && (match ep with | some k => decide (k < e) | none => false)

theorem commitEpmin_eq (i e : Nat) (s : State) : commitEpmin i e s = wake (.epmin i) none none
    { (scrub (epminDooms i e) s).2 with
      woad.slots := (scrub (epminDooms i e) s).2.woad.slots.put {} i { (scrub (epminDooms i e) s).2.keySlot i with epmin := e, epminNext := none } } := rfl

/-- What the commit of an EPMIN does: the record's EPMIN rises, and no operation under a lower epoch of the slot stays queued. -/
theorem commitEpmin_woad (i e : Nat) (s : State) :
    (commitEpmin i e s).woad.slots = s.woad.slots.put {} i { s.keySlot i with epmin := e, epminNext := none } ∧
    (commitEpmin i e s).woad.queued = s.woad.queued.keep (fun _ op => !op.doomed (epminDooms i e)) ∧
    (commitEpmin i e s).ldg = s.ldg ∧ (commitEpmin i e s).ing = s.ing ∧ (commitEpmin i e s).otp = s.otp := by
  obtain ⟨mcc, rla, m, f, ctr, hs⟩ := scrub_frame (epminDooms i e) s
  rw [commitEpmin_eq, wake_frame, hs]
  exact ⟨rfl, rfl, rfl, rfl, rfl⟩

/-- An operation that the commit of an EPMIN lets stand has no epoch below it. -/
theorem le_of_not_doomed {i e f : Nat} {op : KeyOp} (hs : op.slot = i) (hf : op.epoch = some f) (h : (!op.doomed (epminDooms i e)) = true) : e ≤ f := by
  simpa [KeyOp.doomed, epminDooms, hs, hf] using h

/-! ## The key table (R320) -/

/-- Once the key table is durable no command waits for it. -/
theorem landKeyTable_waits (s : State) : ∀ d ∈ (landKeyTable s).hp.cmds, d.waits ≠ some .keyTable := by
  intro d hd
  change d ∈ s.hp.cmds.map _ at hd
  obtain ⟨c, -, rfl⟩ := List.mem_map.1 hd
  dsimp only
  split
  · exact nofun
  · next h => exact h

/-- Settles O56: the commits read their durable records first, scrub the queue, and wake what waited. -/
theorem woadCommits : Obligations.WoadCommits := by
  refine ⟨?_, ?_, ?_, ?_, ?_, ?_⟩
  · rintro s n ht ⟨hd, ha⟩ hq
    obtain ⟨hslots, hbcast, hldg, hing, hotp⟩ := commitTomb_woad n s
    refine ⟨_, execInvalidationCommit_due ht hd ha, fun j => ?_, fun j => ?_, ?_, commitTomb_posts _ s hq, counter_commitTomb _ s, hldg, hing, hotp⟩
    · rw [keySlot_orphaned hslots, orphan_st]
    · rw [keySlot_orphaned hslots]
      exact orphan_key _ _
    · rw [hbcast]
      split
      · exact nofun
      · next h =>
        intro hv
        have hunder : s.under n s.woad.bcast.slot = false := by simpa [hv] using h
        by_cases hst : (s.keySlot s.woad.bcast.slot).st = .active
        · exact Or.inl (by simpa [State.under, hst] using hunder)
        · exact Or.inr hst
  · intro s n ht
    change Host.Outcome.next _ = _
    dsimp only
    rw [if_pos (by simp [ht])]
  · rintro s n e he ⟨hd, ha⟩
    obtain ⟨hslots, hqueued, hldg, hing, hotp⟩ := commitEpmin_woad n e s
    refine ⟨_, execEpminCommit_due he hd ha, ?_, fun k hk => ?_, fun k op f hop hs hf => ?_, hldg, hing, hotp⟩
    · exact (congrArg (Map.get · {} n.val) hslots).trans (Map.get_put_self _ _ _ _)
    · exact (congrArg (Map.get · {} k) hslots).trans (Map.get_put_ne _ _ _ hk)
    · rw [hqueued] at hop
      exact le_of_not_doomed hs hf (find_keep_holds _ _ hop)
  · rintro s ⟨hp, hr, hdbg⟩ hc
    have hlands : exec .keyTableDurable s = onClock s (landKeyTable s) := by
      change onClock s _ = _
      rw [if_neg (by simp [hp, hr, hdbg])]
    exact does_clocked hc hlands ⟨by simp [landKeyTable], landKeyTable_waits s, by simp [landKeyTable], by simp [landKeyTable], by simp [landKeyTable]⟩
  · intro s hp
    exact stays_onClock rfl (if_pos (by simp [hp]))
  · intro s e k till hprev hc
    change onClock s _ = _
    rw [onClock, if_pos hc, hprev]

end Sys2Proof.Machine

namespace Sys2Proof.Machine

/-! ## The answer of a standard command (R298) -/

/-- An answer touches the Host Port's commands and pool and the counters of what has been answered. -/
theorem answerCmd_frame (c : Cmd) (a : HostAns) : answerCmd c a =
    { a.st with hp.cmds := (answerCmd c a).hp.cmds, hp.regs := (answerCmd c a).hp.regs, hp.poolUsed := (answerCmd c a).hp.poolUsed,
                hp.stale := (answerCmd c a).hp.stale, ctr := (answerCmd c a).ctr } := by
  unfold answerCmd
  dsimp only
  cases a.waits with
  | none =>
    dsimp only
    unfold registerCmd
    rw [countStatus_frame]
    rfl
  | some w => rfl

/-- A command whose answer waits stays in flight with its answer kept. -/
theorem awaits_answerCmd {c : Cmd} {a : HostAns} {s : State} {w : Wait} (hc : c ∈ s.hp.cmds) (ha : a.st.hp.cmds = s.hp.cmds)
    (hn : a.st.hp.regs = s.hp.regs) (hw : a.waits = some w) : Awaits c w a.status s (answerCmd c a) := by
  unfold answerCmd
  dsimp only
  rw [hw]
  dsimp only
  have hl : (releasePool c.ref a.st).hp.cmds = s.hp.cmds.map fun d => if d.ref = c.ref then { d with pool := none } else d := by
    rw [releasePool_cmds, ha]
  rw [hl]
  refine ⟨⟨_, List.mem_map.2 ⟨_, List.mem_map.2 ⟨c, hc, if_pos rfl⟩, if_pos rfl⟩, rfl, rfl, rfl, rfl, rfl⟩, ?_, by simp, hn⟩
  intro d hd hne
  obtain ⟨x, hx, rfl⟩ := List.mem_map.1 hd
  obtain ⟨e, he, hex⟩ := List.mem_map.1 hx
  have hxe : x = { e with pool := x.pool } := by
    rw [← hex]
    split <;> rfl
  by_cases h : x.no = c.no
  · rw [if_pos h] at hne
    exact absurd h hne
  · rw [if_neg h]
    exact ⟨e, he, hxe⟩

/-- A granted standard command answers what it does on the state without its event. -/
theorem does_granted {i : Instr} {q eno : Nat} {roles : Cmd → List Nat} {f : Cmd → State → HostAns} {s : State} {c : Cmd} {P : State → Prop}
    (h : s.standardFront q eno = some c) (hr : s.coresRun = true ∧ s.glb.mode ≠ .standby) (hg : (roles c).contains (s.cmdRole c) = true)
    (hi : exec i s = .next (runStandard q eno roles f s)) (hP : P (answerCmd c (f c (takeEvent c s)))) : Does i s P :=
  ⟨_, by rw [hi, runStandard_granted q eno roles f s c h hr.1 hr.2 hg], hP⟩

/-- An answer that changes nothing but what every answer does. -/
theorem hostOnly_answerCmd {c : Cmd} {a : HostAns} {s : State} (ha : a.st = takeEvent c s) : HostOnly s (answerCmd c a) := by
  unfold HostOnly
  rw [answerCmd_frame, ha, takeEvent_frame]

/-- A command of a role not granted is answered ACCESS_DENIED, with nothing changed. -/
theorem does_denied {i : Instr} {q eno : Nat} {roles : Cmd → List Nat} {f : Cmd → State → HostAns} {s : State} {c : Cmd}
    (h : s.standardFront q eno = some c) (hr : s.coresRun = true ∧ s.glb.mode ≠ .standby) (hg : (roles c).contains (s.cmdRole c) = false)
    (hi : exec i s = .next (runStandard q eno roles f s)) :
    Does i s fun u => (Registers c stAccessDenied 0 (if c.rbuf then some [] else none) s u) ∧ HostOnly s u :=
  ⟨_, by rw [hi, runStandard_denied q eno roles f s c h hr.1 hr.2 hg],
    registers_answerCmd c (.fail (takeEvent c s) stAccessDenied) s (standardFront_mem _ _ _ _ h) (congrArg Hp.cmds (takeEvent_hp c s))
      (congrArg Hp.regs (takeEvent_hp c s)) rfl,
    hostOnly_answerCmd rfl⟩

/-- A command that reads is answered, and changes nothing. -/
theorem does_reads {i : Instr} {q eno : Nat} {roles : Cmd → List Nat} {f : Cmd → State → HostAns} {s : State} {c : Cmd} {l : List Byte}
    (h : s.standardFront q eno = some c) (hr : s.coresRun = true ∧ s.glb.mode ≠ .standby) (hg : (roles c).contains (s.cmdRole c) = true)
    (hi : exec i s = .next (runStandard q eno roles f s)) (hf : f c (takeEvent c s) = { st := takeEvent c s, resp := some l }) :
    Does i s fun u => (Registers c stOk 0 (if c.rbuf then some l else none) s u) ∧ HostOnly s u := by
  refine does_granted h hr hg hi ?_
  rw [hf]
  exact ⟨registers_answerCmd c _ s (standardFront_mem _ _ _ _ h) (congrArg Hp.cmds (takeEvent_hp c s)) (congrArg Hp.regs (takeEvent_hp c s)) rfl,
    hostOnly_answerCmd rfl⟩

/-! ## PARAM as an engine block -/

/-- A block is the parameter's bytes and zeros after them. -/
theorem fit_slice (raw : List Byte) {o m n : Nat} (h : m ≤ n) : ∃ r, fit n (slice raw o m) = slice raw o m ++ zeroBytes r := by
  refine ⟨n - (slice raw o m).length, ?_⟩
  unfold fit
  rw [List.take_of_length_le (by unfold slice; rw [List.length_take]; omega)]

theorem zeros_zeroBytes (r : Nat) : ∀ x ∈ zeroBytes r, x = 0#8 := by
  intro x hx
  exact List.eq_of_mem_replicate hx

/-- Bytes of a block that lie in the parameter, with what zeros may follow where the parameter ends early. -/
theorem slice_block (raw : List Byte) {o m n k j : Nat} (h : m ≤ n) (hk : k + j ≤ m) :
    ∃ r, slice (fit n (slice raw o m)) k j = slice raw (o + k) j ++ zeroBytes r := by
  obtain ⟨r, hr⟩ := fit_slice raw (o := o) h
  rw [hr]
  unfold slice
  rw [List.drop_append, List.take_append, List.drop_take, List.drop_drop, List.take_take, Nat.min_eq_left (by omega)]
  unfold zeroBytes
  rw [List.drop_replicate, List.take_replicate]
  exact ⟨_, rfl⟩

theorem ofLe_append_zeros (l : List Byte) (r : Nat) : ofLe (l ++ zeroBytes r) = ofLe l := by
  induction l with
  | nil => exact ofLe_eq_zero (zeros_zeroBytes r)
  | cons x l ih => simp only [List.cons_append, ofLe, ih]

/-- A field of the block is the field of the command. -/
theorem field_block (raw : List Byte) {o m n k j : Nat} (h : m ≤ n) (hk : k + j ≤ m) : field (fit n (slice raw o m)) k j = field raw (o + k) j := by
  obtain ⟨r, hr⟩ := slice_block raw h hk
  unfold field
  rw [hr, ofLe_append_zeros]

/-- Reserved bytes of the block are zero when those of the command are. -/
theorem zeros_block {raw : List Byte} {o m n k j : Nat} (h : m ≤ n) (hk : k + j ≤ m) (hz : zeros raw (o + k) j = true) :
    zeros (fit n (slice raw o m)) k j = true := by
  obtain ⟨r, hr⟩ := slice_block raw h hk
  unfold zeros
  rw [hr, List.all_append, Bool.and_eq_true]
  refine ⟨hz, List.all_eq_true.mpr fun x hx => ?_⟩
  rw [zeros_zeroBytes r x hx]
  rfl

/-- All the block from byte `k` on is zero when the rest of the parameter is. -/
theorem zeros_block_end {raw : List Byte} {o m n k j : Nat} (h : m ≤ n) (hz : zeros raw (o + k) (m - k) = true) :
    zeros (fit n (slice raw o m)) k j = true := by
  obtain ⟨r, hr⟩ := fit_slice raw (o := o) h
  refine List.all_eq_true.mpr fun x hx => ?_
  have hx' : x ∈ List.drop k (slice raw o m ++ zeroBytes r) := by
    rw [← hr]
    exact List.mem_of_mem_take hx
  rw [List.drop_append, List.mem_append] at hx'
  rcases hx' with hparam | hpad
  · refine List.all_eq_true.mp hz x ?_
    unfold slice at hparam ⊢
    rwa [List.drop_take, List.drop_drop] at hparam
  · rw [zeros_zeroBytes r x (List.mem_of_mem_drop hpad)]
    rfl

end Sys2Proof.Machine

namespace Sys2Proof.Machine

/-! ## Changes of the key table (R320) -/

/-- A unit without a twin mirrors nothing. -/
theorem mirror_alone {r : MirRec} {j t : Option Nat} {s : State} (h : s.cas.pair = 0) : mirror r j t s = s := by
  unfold mirror
  rw [if_neg (by omega)]

/-- A change of the key table waits for its durable copy. -/
theorem keyChanged_eq {i : Nat} {s : State} (h : s.woad.debugSub = false) :
    keyChanged i s = { s with woad.pending := { kind := 0, slot := i, thread := none } :: s.woad.pending } := by
  unfold keyChanged
  rw [if_neg (by simp [h])]

theorem putKeySlot_alone {i : Nat} {k : KeySlot} {s : State} (hp : s.cas.pair = 0) (hd : s.woad.debugSub = false) : putKeySlot i k s =
    { s with woad.slots := s.woad.slots.put {} i k, woad.pending := { kind := 0, slot := i, thread := none } :: s.woad.pending } := by
  unfold putKeySlot
  rw [mirror_alone (by exact hp)]
  exact keyChanged_eq hd

/-- A slot record reads as it was put, and every other as before. -/
theorem keySlot_put_self {i : Nat} {k : KeySlot} {s u : State} (h : u.woad.slots = s.woad.slots.put {} i k) : u.keySlot i = k := by
  unfold State.keySlot
  rw [h]
  exact Map.get_put_self _ _ _ _

theorem keySlot_put_ne {i j : Nat} {k : KeySlot} {s u : State} (h : u.woad.slots = s.woad.slots.put {} i k) (hj : j ≠ i) : u.keySlot j = s.keySlot j := by
  unfold State.keySlot
  rw [h]
  exact Map.get_put_ne _ _ _ hj

theorem keyed_alone {s : State} (hd : s.woad.debugSub = false) : EngOut.keyed s = { st := s, status := stOk, waits := some .keyTable } := by
  unfold EngOut.keyed State.keyWait
  rw [if_neg (by simp [hd])]

/-- Out of HOLD-UP, after READY, and without a twin, no key call is refused for the moment. -/
theorem keyRefusal_none {s : State} (hm : s.glb.mode ≠ .holdup) (hr : s.lake.ready = true) (hp : s.cas.pair = 0) : s.keyRefusal = none := by
  simp [State.keyRefusal, State.keyNotNow, hm, hr, hp]

/-! ## Derivation, invalidation, epochs -/

/-- The record of a child in slot `i` of the slot record `par` in slot `p`. -/
def KeySlot.child (par : KeySlot) (p i typ lo hi keyid : Nat) : KeySlot :=
  { st := .active, typ := typ, keyid := BitVec.ofNat 32 keyid, parent := some p, depth := par.depth + 1,
    amask := par.amask ||| BitVec.ofNat 64 (2 ^ i), epmin := lo, epmax := hi,
    key := kdf par.key (label 0x5A 0x53 0x4C 0x54) (le 4 keyid ++ le 1 typ ++ zeroBytes 3) 256 }

/-- A child under an ACTIVE REGION slot of depth below 3. -/
theorem deriveSlot_ok {p i typ lo hi keyid : Nat} {s : State} (hl : s.woad.life = .owned) (ht : 1 ≤ typ ∧ typ < 5)
    (hpar : (s.keySlot p).st = .active ∧ (s.keySlot p).typ = 4 ∧ (s.keySlot p).depth < 3) (hfree : (s.keySlot i).st ≠ .active)
    (he : (typ = 1 → lo ≤ hi) ∧ (typ ≠ 1 → lo = 0 ∧ hi = 0)) : deriveSlot p i typ lo hi keyid s =
      .keyed (putKeySlot i ((s.keySlot p).child p i typ lo hi keyid) s) := by
  obtain ⟨hst, htyp, hdepth⟩ := hpar
  unfold deriveSlot
  dsimp only
  rw [if_neg (by simp [hl]), if_neg (by omega), if_neg (by simp [hst, hfree]), if_neg (by simp [htyp]), if_neg (by omega), if_neg]
  · rfl
  · rintro (⟨h1, hlt⟩ | ⟨hne, hno⟩)
    · exact absurd (he.1 h1) (by omega)
    · obtain ⟨hlo, hhi⟩ := he.2 hne
      exact hno.elim (· hlo) (· hhi)

theorem deriveFrom_ok {b : List Byte} {s : State} (hz : zeros b 5 3 = true) (hp : field b 0 1 < 64) (hi : field b 1 1 < 64) (hr : s.keyRefusal = none) :
    deriveFrom b s = deriveSlot (field b 0 1) (field b 1 1) (field b 2 1) (field b 3 1) (field b 4 1) (field b 8 4) s := by
  unfold deriveFrom
  rw [if_neg (by simp [hz]; omega), hr]

/-- An ACTIVE slot takes its tombstone, which must be durable. -/
theorem invalidateSlot_active {i : Nat} {s : State} (ha : (s.keySlot i).st = .active) (ht : (s.keySlot i).tomb = false) (hd : s.woad.debugSub = false)
    (hp : s.cas.pair = 0) : invalidateSlot i s =
      { st := { s with woad.slots := s.woad.slots.put {} i { s.keySlot i with tomb := true },
                       woad.pending := { kind := 0, slot := i, thread := none } :: s.woad.pending },
        status := stOk, waits := some (.tomb i) } := by
  unfold invalidateSlot
  dsimp only
  rw [ha]
  dsimp only
  rw [if_neg (by simp [hd]), if_neg (by simp [ht]), keyChanged_eq (by exact hd), mirror_alone (by exact hp)]

theorem invalidateFrom_ok {b : List Byte} {s : State} (hz : zeros b 2 6 = true) (hi : field b 0 1 < 64) (hm : field b 1 1 < 2) :
    invalidateFrom b s = if field b 1 1 = 0 then invalidateSlot (field b 0 1) s else clearSlot (field b 0 1) s := by
  unfold invalidateFrom
  rw [if_neg (by simp [hz]; omega)]

/-- An owned part takes a KEY_EPOCH by its TARGET. -/
theorem epochFrom_ok {b : List Byte} {s : State} (hz : zeros b 4 4 = true) (ht : field b 0 1 < 3) (hi : field b 1 1 < 64) (hr : s.keyRefusal = none)
    (hl : s.woad.life = .owned) : epochFrom b s =
      if field b 0 1 = 0 then epochDistrict (field b 1 1) (field b 2 1) (field b 3 1) s
      else if field b 0 1 = 1 then epochBcast (field b 1 1) (field b 2 1) (field b 8 8) s
      else roleFloor (field b 1 1) (BitVec.ofNat 32 (field b 16 4)) s := by
  unfold epochFrom
  dsimp only
  rw [if_neg (by simp [hz]; omega), hr]
  dsimp only
  rw [if_neg (by simp [hl])]

/-- The epoch that may follow the broadcast epoch in force: the next, or 0 on another slot after 255. -/
def State.bcastFollows (s : State) (i e : Nat) : Prop :=
  s.woad.bcast.valid = true ∧ ((s.woad.bcast.cur < 255 ∧ e = s.woad.bcast.cur + 1) ∨ (s.woad.bcast.cur = 255 ∧ e = 0 ∧ i ≠ s.woad.bcast.slot))

/-- A broadcast epoch that may follow is announced. -/
theorem epochBcast_ok {i e act : Nat} {s : State} (hs : (s.keySlot i).st = .active ∧ (s.keySlot i).typ = 2)
    (ht : s.nowNs + 2000000000 ≤ act * 1000000000) (he : s.bcastFollows i e) (hp : s.cas.pair = 0) (hd : s.woad.debugSub = false) :
    epochBcast i e act s =
      { st := { s with woad.bcast := { s.woad.bcast with next := some { e := e, slot := i, actT := act } },
                       woad.pending := { kind := 0, slot := 64, thread := none } :: s.woad.pending },
        status := stOk, waits := some .keyTable } := by
  obtain ⟨hv, hnext⟩ := he
  have hok : (decide (s.woad.bcast.cur < 255 ∧ e = s.woad.bcast.cur + 1) || decide (s.woad.bcast.cur = 255 ∧ e = 0 ∧ i ≠ s.woad.bcast.slot)) = true := by
    simpa only [Bool.or_eq_true, decide_eq_true_eq] using hnext
  unfold epochBcast
  dsimp only
  rw [if_neg (by simp [hs.1]), if_neg (by simp [hs.2]), if_neg (by omega), if_pos hv, hok, if_neg (by simp), mirror_alone (by exact hp),
    keyChanged_eq (by exact hd), keyed_alone (by exact hd)]

/-! ## The statement in hand (R323) -/

/-- A statement whose flags still hold is not built again. -/
theorem attStatement_kept {s : State} {st : List Byte} (hs : s.woad.statement = some st) (hf : field st 6 1 = s.attFlags) : attStatement s = (st, s) := by
  unfold attStatement
  dsimp only
  rw [hs]
  dsimp only
  rw [if_pos hf]

/-- Attestation with the statement in hand: it and one signature. -/
theorem attest_kept {s : State} {st nonce : List Byte} (hs : s.woad.statement = some st) (hf : field st 6 1 = s.attFlags) :
    attest nonce s = (st ++ ecdsaSign s.dAk (sha384 (st ++ nonce)) (Config.random s.free), count (kWkv 9) { s with free := s.free + 1 }) := by
  unfold attest
  rw [attStatement_kept hs hf]
  rfl

end Sys2Proof.Machine

namespace Sys2Proof.Machine

/-! ## OTP fields (R306) -/

/-- Each byte programmed gains the bits of the data; the others stay. -/
theorem get_otpProgram (l : List Byte) : ∀ (m : Map Byte) (k a : Nat),
    (otpProgram m k l).get 0 a = if k ≤ a ∧ a < k + l.length then m.get 0 a ||| l.getD (a - k) 0 else m.get 0 a := by
  induction l with
  | nil => intro m k a; rw [if_neg (by simp)]; rfl
  | cons b l ih =>
    intro m k a
    unfold otpProgram
    rw [ih]
    by_cases hk : a = k
    · subst hk
      have hlen : (b :: l).length = l.length + 1 := List.length_cons
      rw [if_neg (by omega), if_pos (by omega), Map.get_put_self, Nat.sub_self, List.getD_cons_zero]
    · rw [Map.get_put_ne _ _ _ hk]
      by_cases ha : k ≤ a ∧ a < k + (b :: l).length
      · have hlen : (b :: l).length = l.length + 1 := List.length_cons
        obtain ⟨d, hd⟩ : ∃ d, a - k = d + 1 := ⟨a - k - 1, by omega⟩
        rw [if_pos (by omega), if_pos ha, hd, List.getD_cons_succ, show a - (k + 1) = d by omega]
      · have hlen : (b :: l).length = l.length + 1 := List.length_cons
        rw [if_neg (by omega), if_neg ha]

/-- FIELD 3, the mask of image keys, is four bytes at 0x450; its write leaves no Sepia record. -/
theorem loadField_keyMask {d : List Byte} {bad : Option Nat} {s : State} (hd : s.woad.debugSub = false) :
    loadField 3 d bad s = { st := (programOtp 0x450 d bad { s with woad.otpBusy := true }).1,
                            status := if (programOtp 0x450 d bad { s with woad.otpBusy := true }).2 then stOk else wkOtpFail } := by
  unfold loadField
  rw [if_neg (by simp [hd]), if_neg (by simp)]
  rfl

/-- KEY_LOAD of the mask of image keys by an Operator. -/
theorem doKeyLoad_keyMask {c : Cmd} {s : State} (hr : s.keyRefusal = none) (hd : s.woad.debugSub = false)
    (hc : field c.raw 8 1 = 1 ∧ field c.raw 9 1 = 3 ∧ 4 ≤ c.data.length) : doKeyLoad none c s =
      { st := countN (kWkv 13) ((c.data.take 4).length / 4) { s with otp := otpProgram s.otp 0x450 (c.data.take 4) } } := by
  obtain ⟨htarget, hfield, hlen⟩ := hc
  unfold doKeyLoad
  rw [htarget, hfield]
  change (if c.data.length < 4 then _ else _) = _
  rw [if_neg (by omega), hr]
  dsimp only
  unfold keyLoad
  rw [if_neg (by decide)]
  rw [show loadField 3 (c.data.take (fieldLen 3)) none s = _ from loadField_keyMask hd]
  rfl

/-! ## Key commands -/

/-- Without its event a command's state has other event queues, and nothing else. -/
theorem takeEvent_eq (c : Cmd) (s : State) : ∃ Q, takeEvent c s = { s with mcc.queues := Q } := ⟨_, takeEvent_frame c s⟩

/-- The roles of KEY_LOAD are 2 and 4. -/
theorem loadRoles_denies {life : Life} {c : Cmd} {role : Nat} (h : role ≠ 2 ∧ role ≠ 4) : (loadRoles life c).contains role = false := by
  unfold loadRoles
  split <;> simp [h]

theorem ofEng_eq (a : EngOut) (off : Nat) (h : a.out = []) : ofEng a off = { st := a.st, status := a.status, waits := a.waits } := by
  unfold ofEng
  rw [h]
  rfl

/-- KEY_DERIVE by PARAM. -/
theorem doKeyDerive_ok {c : Cmd} {s : State} (hz : zeros c.raw 13 3 = true ∧ zeros c.raw 20 16 = true) (hp : field c.raw 8 1 < 64) (hi : field c.raw 9 1 < 64)
    (hr : s.keyRefusal = none) : engKeyDerive 0 c.block s =
      deriveSlot (field c.raw 8 1) (field c.raw 9 1) (field c.raw 10 1) (field c.raw 11 1) (field c.raw 12 1) (field c.raw 16 4) s := by
  have hf : ∀ k j, k + j ≤ 28 → field c.block k j = field c.raw (8 + k) j := fun k j h => field_block c.raw (by omega) h
  unfold engKeyDerive
  rw [if_neg (by simp [Cmd.block, zeros_block_end (raw := c.raw) (o := 8) (m := 28) (n := 64) (k := 12) (j := 52) (by omega) hz.2])]
  rw [deriveFrom_ok (b := c.block) (zeros_block (by omega) (by omega) hz.1) (by rw [hf _ _ (by omega)]; exact hp) (by rw [hf _ _ (by omega)]; exact hi) hr]
  rw [hf _ _ (by omega), hf _ _ (by omega), hf _ _ (by omega), hf _ _ (by omega), hf _ _ (by omega), hf _ _ (by omega)]

/-- KEY_INVALIDATE by PARAM, MODE 0. -/
theorem doKeyInvalidate_ok {c : Cmd} {s : State} (hz : zeros c.raw 10 6 = true ∧ zeros c.raw 20 16 = true) (hi : field c.raw 8 1 < 64)
    (hm : field c.raw 9 1 = 0) : engKeyInvalidate 0 c.block s = invalidateSlot (field c.raw 8 1) s := by
  have hf : ∀ k j, k + j ≤ 28 → field c.block k j = field c.raw (8 + k) j := fun k j h => field_block c.raw (by omega) h
  have h0 : field c.block 0 1 = field c.raw 8 1 := hf 0 1 (by omega)
  have h1 : field c.block 1 1 = 0 := (hf 1 1 (by omega)).trans hm
  unfold engKeyInvalidate
  rw [if_neg (by simp [Cmd.block, zeros_block_end (raw := c.raw) (o := 8) (m := 28) (n := 64) (k := 12) (j := 52) (by omega) hz.2])]
  rw [invalidateFrom_ok (b := c.block) (zeros_block (by omega) (by omega) hz.1) (by omega) (by omega), if_pos h1, h0]

/-- KEY_EPOCH by PARAM, TARGET 1. -/
theorem doKeyEpoch_broadcast {c : Cmd} {s : State} (hz : zeros c.raw 12 4 = true ∧ zeros c.raw 28 8 = true) (ht : field c.raw 8 1 = 1)
    (hi : field c.raw 9 1 < 64) (hr : s.keyRefusal = none) (hl : s.woad.life = .owned) :
    engKeyEpoch 0 c.block s = epochBcast (field c.raw 9 1) (field c.raw 10 1) (field c.raw 16 8) s := by
  have hf : ∀ k j, k + j ≤ 28 → field c.block k j = field c.raw (8 + k) j := fun k j h => field_block c.raw (by omega) h
  have h0 : field c.block 0 1 = 1 := (hf 0 1 (by omega)).trans ht
  have h1 : field c.block 1 1 = field c.raw 9 1 := hf 1 1 (by omega)
  unfold engKeyEpoch
  rw [if_neg (by simp [Cmd.block, zeros_block_end (raw := c.raw) (o := 8) (m := 28) (n := 64) (k := 20) (j := 44) (by omega) hz.2])]
  rw [epochFrom_ok (b := c.block) (zeros_block (by omega) (by omega) hz.1) (by omega) (by omega) hr hl, if_neg (by omega), if_pos h0, h1, hf 2 1 (by omega), hf 8 8 (by omega)]

/-- A field that is zero has zero bytes. -/
theorem zeros_of_field {l : List Byte} {off len : Nat} (h : field l off len = 0) : zeros l off len = true := by
  unfold field at h
  unfold zeros
  revert h
  induction slice l off len with
  | nil => exact fun _ => rfl
  | cons x r ih =>
    intro h
    simp only [ofLe] at h
    have hx : x = 0#8 := BitVec.eq_of_toNat_eq (by simp; omega)
    rw [List.all_cons, ih (by omega), hx]
    rfl

theorem keySlot_answerCmd (c : Cmd) (a : HostAns) (k : Nat) : (answerCmd c a).keySlot k = a.st.keySlot k := by
  unfold State.keySlot
  rw [answerCmd_frame]

/-- A command answered OK moves no counter of its own. -/
theorem counter_answerCmd {c : Cmd} {a : HostAns} {j : Nat} (hs : a.status = stOk) (hw : a.waits = none) :
    (answerCmd c a).counter j = a.st.counter j := by
  unfold answerCmd
  dsimp only
  rw [hw, hs]
  rfl

/-- Settles O51: each command carries out its engine call on the state without its event, and is answered or waits. -/
theorem keyCommands : Obligations.KeyCommands := by
  refine ⟨?_, ?_, ?_, ?_, ?_, ?_, ?_, ?_, ?_, ?_, ?_⟩
  · rintro s q c hfront hruns hrole ⟨hmode, hready, hpair, hdbg⟩ ⟨hop, hlife⟩ hc
    have hgranted : (loadRoles s.woad.life c).contains (s.cmdRole c) = true := by
      simp [loadRoles, hlife, hc.2.1, hop]
    refine does_granted hfront hruns hgranted rfl ?_
    obtain ⟨Q, hQ⟩ := takeEvent_eq c s
    rw [hQ, doKeyLoad_keyMask (s := { s with mcc.queues := Q }) (keyRefusal_none hmode hready hpair) hdbg hc]
    have hlen : (c.data.take 4).length = 4 := by rw [List.length_take]; omega
    refine ⟨registers_answerCmd c _ s (standardFront_mem _ _ _ _ hfront) rfl rfl rfl, fun k => ?_, ?_⟩
    · rw [answerCmd_frame]
      refine (get_otpProgram _ _ _ _).trans ?_
      rw [hlen]
      split
      · next hk => simp [List.getD_eq_getElem?_getD, show k - 0x450 < 4 by omega]
      · rfl
    · rw [answerCmd_frame]
      exact ⟨rfl, rfl, rfl⟩
  · intro s q c hfront hruns _ hother
    exact does_denied hfront hruns (loadRoles_denies hother) rfl
  · rintro s q c par hfront hruns hrole ⟨hmode, hready, hpair, hdbg⟩ hlife ⟨hz13, hz20, hp, hi, htlo, hthi, hep⟩ ⟨rfl, hst, htyp, hdepth⟩ hfree
    refine does_granted hfront hruns hrole rfl ?_
    obtain ⟨Q, hQ⟩ := takeEvent_eq c s
    have hlo : field c.raw 11 1 = 0 := field_eq_zero (zeros_of_field hep) (by omega) (by omega)
    have hhi : field c.raw 12 1 = 0 := field_eq_zero (zeros_of_field hep) (by omega) (by omega)
    rw [hQ, doKeyDerive_ok (s := { s with mcc.queues := Q }) ⟨hz13, hz20⟩ hp hi (keyRefusal_none hmode hready hpair),
      deriveSlot_ok (s := { s with mcc.queues := Q }) hlife ⟨by omega, by omega⟩ ⟨hst, htyp, hdepth⟩ hfree ⟨fun h => by omega, fun _ => ⟨hlo, hhi⟩⟩,
      putKeySlot_alone (s := { s with mcc.queues := Q }) hpair hdbg, keyed_alone (by exact hdbg), ofEng_eq _ _ rfl, hlo, hhi]
    refine ⟨awaits_answerCmd (standardFront_mem _ _ _ _ hfront) rfl rfl rfl, ?_, fun k hk => ?_, ?_⟩
    · rw [keySlot_answerCmd]
      exact keySlot_put_self (s := s) rfl
    · rw [keySlot_answerCmd]
      exact keySlot_put_ne (s := s) (k := (s.keySlot (field c.raw 8 1)).child (field c.raw 8 1) (field c.raw 9 1) (field c.raw 10 1) 0 0 (field c.raw 16 4)) rfl hk
    · rw [answerCmd_frame]
      exact ⟨rfl, rfl⟩
  · intro s q c hfront hruns hrole
    exact does_denied hfront hruns hrole rfl
  · rintro s q c hfront hruns hrole ⟨hz10, hz20, hi, hm⟩ ⟨hst, htomb, hpair, hdbg⟩
    refine does_granted hfront hruns hrole rfl ?_
    obtain ⟨Q, hQ⟩ := takeEvent_eq c s
    rw [hQ, doKeyInvalidate_ok ⟨hz10, hz20⟩ hi hm, invalidateSlot_active (s := { s with mcc.queues := Q }) hst htomb hdbg hpair, ofEng_eq _ _ rfl]
    refine ⟨awaits_answerCmd (standardFront_mem _ _ _ _ hfront) rfl rfl rfl, ?_, fun k hk => ?_, ?_⟩
    · rw [keySlot_answerCmd]
      exact keySlot_put_self (s := s) rfl
    · rw [keySlot_answerCmd]
      exact keySlot_put_ne (s := s) rfl hk
    · rw [answerCmd_frame]
      exact ⟨rfl, rfl⟩
  · intro s q c hfront hruns hrole
    exact does_denied hfront hruns hrole rfl
  · rintro s q c hfront hruns hrole ⟨hmode, hready, hpair, hdbg⟩ hlife ⟨hz12, hz28, ht, hi⟩ hslot htime ⟨hv, hcur, he⟩
    refine does_granted hfront hruns hrole rfl ?_
    obtain ⟨Q, hQ⟩ := takeEvent_eq c s
    rw [hQ, doKeyEpoch_broadcast (s := { s with mcc.queues := Q }) ⟨hz12, hz28⟩ ht hi (keyRefusal_none hmode hready hpair) hlife,
      epochBcast_ok (s := { s with mcc.queues := Q }) hslot htime ⟨hv, Or.inl ⟨hcur, he⟩⟩ hpair hdbg, ofEng_eq _ _ rfl]
    refine ⟨awaits_answerCmd (standardFront_mem _ _ _ _ hfront) rfl rfl rfl, ?_⟩
    rw [answerCmd_frame]
    exact ⟨rfl, rfl, rfl⟩
  · intro s q c hfront hruns hrole
    exact does_denied hfront hruns hrole rfl
  · intro s q c hfront hruns hrole
    refine does_reads hfront hruns hrole rfl ?_
    rw [takeEvent_frame]
    rfl
  · intro s q c hfront hruns hrole
    refine does_reads hfront hruns hrole rfl ?_
    rw [takeEvent_frame]
    rfl
  · intro s q c st hfront hruns hrole hstmt hflags
    refine does_granted hfront hruns hrole rfl ?_
    obtain ⟨Q, hQ⟩ := takeEvent_eq c s
    rw [hQ]
    dsimp only
    rw [attest_kept (s := { s with mcc.queues := Q }) hstmt hflags]
    refine ⟨⟨_, registers_answerCmd c _ s (standardFront_mem _ _ _ _ hfront) rfl rfl rfl⟩, ?_, ?_, ?_⟩
    · rw [answerCmd_frame]
      rfl
    · rw [counter_answerCmd rfl rfl, counter_count, if_pos (by decide)]
      rfl
    · rw [answerCmd_frame]
      exact ⟨rfl, rfl, rfl⟩

end Sys2Proof.Machine

namespace Sys2Proof.Machine

/-! ## CAMP_CTL by its OP (R436, Table 16-8) -/

/-- A record that changes STATE, on a unit without a twin: it is stored, and posted. -/
theorem campState_alone {id st : Nat} {c : Camp} {s : State} (hp : s.cas.pair = 0) : campState id st c s =
    postNotice 0x0E05 1 (le 2 id ++ le 1 st ++ zeroBytes 1 ++ le 4 ({ c with st := st, since := s.nowNs } : Camp).noticeCount)
      { s with upd.camps := s.upd.camps.ins id { c with st := st, since := s.nowNs } } := by
  unfold campState putCamp
  dsimp only
  rw [mirror_alone (by exact hp)]

/-- What a change of STATE does to the record, the other records, the notices and the rest of the state. -/
theorem campState_does {id st n : Nat} {c : Camp} {s v : State} (hp : s.cas.pair = 0)
    (hv : v.upd = s.upd ∧ v.cas = s.cas ∧ v.hp = s.hp ∧ v.tmu = s.tmu)
    (hn : ({ c with st := st, since := s.nowNs } : Camp).noticeCount = n) :
    (campState id st c v).upd.camps.find id = some { c with st := st, since := s.nowNs } ∧
    (∀ k, k ≠ id → (campState id st c v).upd.camps.find k = s.upd.camps.find k) ∧
    Posts 0x0E05 1 (le 2 id ++ le 1 st ++ zeroBytes 1 ++ le 4 n) s (campState id st c v) ∧
    campState id st c v = { v with upd.camps := (campState id st c v).upd.camps, hp := (campState id st c v).hp,
                                   glb := (campState id st c v).glb, ctr := (campState id st c v).ctr } := by
  obtain ⟨hupd, hcas, hhp, htmu⟩ := hv
  have hnow : v.nowNs = s.nowNs := by unfold State.nowNs; rw [htmu]
  rw [campState_alone (by rw [hcas]; exact hp), hnow, hn]
  refine ⟨?_, fun k hk => ?_, ?_, ?_⟩
  · rw [postNotice_frame]
    exact Map.find_ins_self _ _ _
  · rw [postNotice_frame]
    exact (Map.find_ins_ne _ _ hk).trans (by rw [hupd])
  · exact (posts_postNotice _ _ _ _).congr_left (congrArg Hp.nq hhp).symm (congrArg Hp.mask hhp).symm
  · rw [postNotice_frame]

theorem calling_rest (t rt i : Nat) (s : State) :
    (calling t rt i s).upd = s.upd ∧ (calling t rt i s).cas = s.cas ∧ (calling t rt i s).hp = s.hp ∧ (calling t rt i s).tmu = s.tmu :=
  ⟨calling_upd t rt i s, calling_cas t rt i s, calling_hp t rt i s, calling_tmu t rt i s⟩

/-- A CREATE with a group address, on a READY Lake. -/
theorem campCtl_create {b : List Byte} {s : State} (hb : campOp b = 0 ∧ zeros b 4 4 = true ∧ zeros b 28 4 = true) (hp : s.cas.pair = 0) :
    campCtl b s = campCreate b s := by
  obtain ⟨hop, h4, h28⟩ := hb
  unfold campCtl
  dsimp only
  rw [if_neg (by simp [campReserved, hop, h4, h28]), if_neg (by omega), if_pos hop]

/-- What CAMP_CTL does for a known campaign in a state that admits the OP. -/
def campOn (b : List Byte) (c : Camp) (s : State) : EngOut :=
  match campOp b with
  | 1 => campSend b (campId b) c s
  | 2 => campArm b (campId b) c s
  | 3 => campStop (campId b) c s
  | 4 => { st := s, status := stOk, out := [(64, c.bytes (campId b))] }
  | 5 => .ok (mirror (.camp (campId b) none) none none { s with upd.camps := s.upd.camps.del (campId b) })
  | _ => .ok (putCamp (campId b) { c with tally := (List.range 4).map fun i => field b (8 + 4 * i) 4 } s)

theorem campCtl_known {b : List Byte} {c : Camp} {s : State} (hr : campReserved b = true) (hop : 1 ≤ campOp b ∧ campOp b ≤ 6) (hp : s.cas.pair = 0)
    (hc : s.upd.camps.find (campId b) = some c) :
    campCtl b s = if !campAdmits (campOp b) c.st then campFail upSlotState s else campOn b c s := by
  unfold campCtl
  dsimp only
  rw [if_neg (by simp [hr]; omega), if_neg (by omega), if_neg (by omega), hc]
  rfl

/-- A call of CAMP_CTL other than READ answers what CAMP_CTL answers. -/
theorem answers_campCtl {t pi rt ra i : Nat} {p : Place} {c : Instr} {s : State} {b : List Byte} {r : EngOut} {P : EngOut → Prop}
    (h : s.callsAt t pi ra 0xD4 32 p i = true) (hb : s.load p 32 = b) (hop : campOp b ≠ 4)
    (hr : campCtl b (calling t rt i s) = r) (hout : r.out = []) (hP : P r)
    (hc : exec c s = .next (ecall t pi rt ra 0xD4 32 engCampCtl s)) : Answers c t 0xD4 ra i s P := by
  refine answers_ecall h hc ?_ hP
  rw [hb]
  unfold engCampCtl
  dsimp only
  rw [if_neg (fun hread => hop hread.1), hr, hout]
  rfl

/-- The same, for a campaign that exists. -/
theorem answers_campOn {t pi rt ra i : Nat} {p : Place} {c : Instr} {s : State} {b : List Byte} {x : Camp} {r : EngOut} {P : EngOut → Prop}
    (h : s.callsAt t pi ra 0xD4 32 p i = true) (hb : s.load p 32 = b) (hop : 1 ≤ campOp b ∧ campOp b ≤ 6 ∧ campOp b ≠ 4)
    (hz : campReserved b = true) (hx : s.cas.pair = 0 ∧ s.upd.camps.find (field b 2 2) = some x)
    (hr : (if !campAdmits (campOp b) x.st then campFail upSlotState (calling t rt i s) else campOn b x (calling t rt i s)) = r)
    (hout : r.out = []) (hP : P r)
    (hc : exec c s = .next (ecall t pi rt ra 0xD4 32 engCampCtl s)) : Answers c t 0xD4 ra i s P := by
  refine answers_campCtl h hb hop.2.2 ?_ hout hP hc
  rw [campCtl_known hz ⟨hop.1, hop.2.1⟩ (by rw [calling_cas]; exact hx.1) (by rw [calling_upd]; exact hx.2)]
  exact hr

theorem volBytes_calling (t rt i : Nat) (s : State) (o n : Nat) : (calling t rt i s).volBytes o n = s.volBytes o n := by
  unfold State.volBytes
  rw [calling_lake]

theorem campFrames_calling (t rt i : Nat) (s : State) (c : Camp) : (calling t rt i s).campFrames c = s.campFrames c := by
  rw [calling_frame]
  rfl

theorem campPlaces_calling (t rt i : Nat) (s : State) (c : Camp) : (calling t rt i s).campPlaces c = s.campPlaces c := by
  rw [calling_frame]
  rfl

/-- Every place of an aborted campaign has its 16 superframes. -/
theorem get_foldl_ins (l : List Nat) (v : Nat) : ∀ (m : Map Nat) (p : Nat), (p ∈ l ∨ m.get 0 p = v) → (l.foldl (fun m p => m.ins p v) m).get 0 p = v := by
  induction l with
  | nil => intro m p h; simpa using h
  | cons a l ih =>
    intro m p h
    refine ih _ _ ?_
    by_cases hp : p = a
    · right
      unfold Map.get
      rw [hp, Map.find_ins_self]
      rfl
    · refine h.imp (fun hmem => (List.mem_cons.mp hmem).resolve_left hp) fun hget => ?_
      unfold Map.get
      rw [Map.find_ins_ne _ _ hp]
      exact hget

theorem length_flatMap_le (l : List Nat) (n : Nat) : (l.flatMap (le n)).length = l.length * n := by
  induction l with
  | nil => simp
  | cons a l ih => rw [List.flatMap_cons, List.length_append, length_le, ih, List.length_cons, Nat.succ_mul, Nat.add_comm]

/-- A campaign record is 64 bytes (Table 16-7). -/
theorem Camp.length_bytes {c : Camp} (id : Nat) (h : c.tally.length = 4) : (c.bytes id).length = 64 := by
  unfold Camp.bytes
  simp only [List.length_append, length_le, length_zeroBytes, length_flatMap_le, h]

/-- READ of a known campaign writes its record to the destination. -/
theorem engCampCtl_read {t : Nat} {b : List Byte} {c : Camp} {s : State} (q : Place) (hb : campOp b = 4 ∧ campReserved b = true) (hp : s.cas.pair = 0)
    (hc : s.upd.camps.find (campId b) = some c) (hl : c.tally.length = 4) (hq : (s.thr t).bufPlace t (field b 8 8) 64 = some q) :
    engCampCtl t b s = .ok (storeAt q (c.bytes (campId b)) s) := by
  have hbuf : s.bufOk t (field b 8 8) 64 = true := by unfold State.bufOk; rw [hq]; rfl
  have hans : campCtl b s = { st := s, status := stOk, out := [(64, c.bytes (campId b))] } := by
    rw [campCtl_known hb.2 (by omega) hp hc, hb.1]
    unfold campOn
    rw [hb.1]
    rfl
  unfold engCampCtl
  dsimp only
  rw [if_neg (by simp [hbuf]), hans]
  change EngOut.ok (writeBuf t (field b 8 8) (c.bytes (campId b)) s) = _
  rw [writeBuf_at (by rw [Camp.length_bytes _ hl]; exact hq)]

end Sys2Proof.Machine

namespace Sys2Proof.Machine

/-! ## CAMP_CTL as a standard command -/

/-- A block cut short is the parameter cut short. -/
theorem fit_fit {m n : Nat} (l : List Byte) (h : m ≤ n) : fit m (fit n l) = fit m l := by
  unfold fit zeroBytes
  rw [List.take_append, List.take_take, List.take_replicate, Nat.min_eq_left h, List.append_assoc, List.replicate_append_replicate]
  simp only [List.length_append, List.length_take, List.length_replicate]
  congr 2
  omega

theorem zeros_padded {l : List Byte} {k : Nat} (r j : Nat) (h : l.length ≤ k) : zeros (l ++ zeroBytes r) k j = true := by
  refine List.all_eq_true.mpr fun x hx => ?_
  have hx' : x ∈ (l ++ zeroBytes r).drop k := List.mem_of_mem_take hx
  rw [List.drop_append, List.drop_eq_nil_of_le h, List.nil_append] at hx'
  rw [zeros_zeroBytes r x (List.mem_of_mem_drop hx')]
  rfl

theorem field_paddedTake (b : List Byte) {k j : Nat} (h : k + j ≤ 8) (hl : 8 ≤ b.length) : field (b.take 8 ++ zeroBytes 24) k j = field b k j := by
  have hpad : b.take 8 ++ zeroBytes 24 = fit 32 (slice b 0 8) := by
    unfold fit slice
    rw [List.drop_zero, List.take_take, List.length_take, Nat.min_eq_left hl]
    rfl
  rw [hpad, field_block b (by omega) h, Nat.zero_add]

theorem zeros_paddedTake {b : List Byte} {k j : Nat} (h : k + j ≤ 8) (hl : 8 ≤ b.length) (hz : zeros b k j = true) :
    zeros (b.take 8 ++ zeroBytes 24) k j = true := by
  have hpad : b.take 8 ++ zeroBytes 24 = fit 32 (slice b 0 8) := by
    unfold fit slice
    rw [List.drop_zero, List.take_take, List.length_take, Nat.min_eq_left hl]
    rfl
  rw [hpad]
  exact zeros_block (by omega) h (by rw [Nat.zero_add]; exact hz)

theorem length_fit (n : Nat) (l : List Byte) : (fit n l).length = n := by
  unfold fit
  rw [List.length_append, List.length_take, length_zeroBytes]
  omega

/-- The block of CAMP_CTL is the first 32 bytes of PARAM. -/
theorem campBlock_eq (c : Cmd) : fit 32 c.block = fit 32 (slice c.raw 8 28) := fit_fit _ (by omega)

theorem field_campBlock (c : Cmd) {k j : Nat} (h : k + j ≤ 28) : field (fit 32 c.block) k j = field c.raw (8 + k) j := by
  rw [campBlock_eq]
  exact field_block c.raw (by omega) h

theorem zeros_campBlock {c : Cmd} {k j : Nat} (h : k + j ≤ 28) (hz : zeros c.raw (8 + k) j = true) : zeros (fit 32 c.block) k j = true := by
  rw [campBlock_eq]
  exact zeros_block (by omega) h hz

/-- READ by PARAM: its destination is the response. -/
theorem doCampCtl_read {c : Cmd} {x : Camp} {s : State} (hop : field c.raw 8 1 = 4) (hz : zeros c.raw 12 4 = true) (hp : s.cas.pair = 0)
    (hx : s.upd.camps.find (field c.raw 10 2) = some x) : doCampCtl c s = { st := s, resp := some (x.bytes (field c.raw 10 2)) } := by
  have hlen : 8 ≤ (fit 32 c.block).length := by rw [length_fit]; omega
  have hop1 : campOp (fit 32 c.block) = 4 := (field_campBlock c (by omega)).trans hop
  have hop2 : campOp ((fit 32 c.block).take 8 ++ zeroBytes 24) = 4 := (field_paddedTake _ (by omega) hlen).trans hop1
  have hid : campId ((fit 32 c.block).take 8 ++ zeroBytes 24) = field c.raw 10 2 :=
    (field_paddedTake _ (by omega) hlen).trans (field_campBlock c (by omega))
  have hres : campReserved ((fit 32 c.block).take 8 ++ zeroBytes 24) = true := by
    unfold campReserved
    rw [zeros_paddedTake (by omega) hlen (zeros_campBlock (by omega) hz), hop2]
    exact zeros_padded _ _ (by rw [List.length_take]; omega)
  have hans : campCtl ((fit 32 c.block).take 8 ++ zeroBytes 24) s = { st := s, status := stOk, out := [(64, x.bytes (field c.raw 10 2))] } := by
    rw [campCtl_known hres (by omega) hp (by rw [hid]; exact hx), hop2]
    unfold campOn
    rw [hop2, hid]
    rfl
  unfold doCampCtl
  dsimp only
  rw [if_pos hop1, hans]
  rfl

/-- CLOSE by PARAM. -/
theorem doCampCtl_close {c : Cmd} {x : Camp} {s : State} (hop : field c.raw 8 1 = 5) (hz : zeros c.raw 12 24 = true) (hp : s.cas.pair = 0)
    (hx : s.upd.camps.find (field c.raw 10 2) = some x) (hst : x.st = 5 ∨ x.st = 6) :
    doCampCtl c s = { st := { s with upd.camps := s.upd.camps.del (field c.raw 10 2) } } := by
  have hop1 : campOp (fit 32 c.block) = 5 := (field_campBlock c (by omega)).trans hop
  have hid : campId (fit 32 c.block) = field c.raw 10 2 := field_campBlock c (by omega)
  have hz4 : zeros (fit 32 c.block) 4 4 = true := by
    rw [campBlock_eq]
    refine zeros_block (by omega) (by omega) ?_
    exact zeros_mono hz (by omega) (by omega)
  have hz8 : zeros (fit 32 c.block) 8 24 = true := by
    rw [campBlock_eq]
    refine zeros_block_end (by omega) ?_
    exact zeros_mono hz (by omega) (by omega)
  have hans : campCtl (fit 32 c.block) s = .ok { s with upd.camps := s.upd.camps.del (field c.raw 10 2) } := by
    rw [campCtl_known (by unfold campReserved; rw [hz4, hop1]; exact hz8) (by omega) hp (by rw [hid]; exact hx), hop1]
    rw [if_neg (by rcases hst with h | h <;> simp [campAdmits, h])]
    unfold campOn
    rw [hop1, hid]
    exact congrArg EngOut.ok (mirror_alone hp)
  unfold doCampCtl
  dsimp only
  rw [if_neg (by omega), hans]
  rfl

/-- CAMPAIGN_ACT_T of an ARMED campaign whose second has come. -/
theorem campaignActT_due {id : BitVec 16} {c : Camp} {s : State} (hc : s.upd.camps.find id.toNat = some c)
    (h : s.pumps = true ∧ c.st = 4 ∧ c.actT ≤ s.nowS) : exec (.campaignActT id) s = .next (campState id.toNat 5 c s) := by
  change Host.Outcome.next _ = _
  rw [hc]
  dsimp only
  rw [if_pos h]

theorem campaignActT_waits {id : BitVec 16} {c : Camp} {s : State} (hc : s.upd.camps.find id.toNat = some c)
    (h : c.st ≠ 4 ∨ s.nowS < c.actT) : exec (.campaignActT id) s = .next s := by
  change Host.Outcome.next _ = _
  rw [hc]
  dsimp only
  rw [if_neg]
  rintro ⟨-, h4, hle⟩
  exact h.elim (fun hne => hne h4) fun hlt => by omega

/-- Settles O54: each OP in a state that admits it stores the record it names and posts its STATE, and is refused in any other. -/
theorem campaigns : Obligations.Campaigns := by
  unfold Obligations.Campaigns
  refine ⟨?_, ?_, ?_, ?_, ?_, ?_, ?_, ?_, ?_, ?_, ?_, ?_, ?_, ?_⟩
  case refine_1 => -- CREATE
    rintro s t pi rt ra p i b h hb ⟨hop, h4, h28⟩ hgroup ⟨hready, hp⟩ ⟨hnone, hroom⟩ ⟨hpos, hmax, hin⟩ hcrc
    have hans : campCtl b (calling t rt i s) = .ok (campState (field b 2 2) 1 { st := 1, ports := BitVec.ofNat 8 (field b 1 1), imglen := field b 20 4, group := BitVec.ofNat 64 (field b 8 8), volofs := field b 16 4, imgcrc := field b 24 4 } (calling t rt i s)) := by
      rw [campCtl_create ⟨hop, h4, h28⟩ (by rw [calling_cas]; exact hp)]
      unfold campCreate campId
      dsimp only
      rw [volBytes_calling, calling_lake, calling_upd, hnone, hready, if_neg (by simp [hgroup]), if_neg (by decide), if_neg (by simp), if_neg (by omega),
        if_neg (by omega), if_neg (by simp [hcrc])]
      rfl
    obtain ⟨hself, hother, hpost, hframe⟩ := campState_does (id := field b 2 2) (st := 1) (n := 0)
      (c := { st := 1, ports := BitVec.ofNat 8 (field b 1 1), imglen := field b 20 4, group := BitVec.ofNat 64 (field b 8 8), volofs := field b 16 4, imgcrc := field b 24 4 })
      hp (calling_rest t rt i s) rfl
    exact answers_campCtl h hb (by unfold campOp; omega) hans rfl ⟨⟨rfl, rfl, rfl⟩, hself, hother, hpost, hframe⟩ rfl
  case refine_2 => -- CREATE of a campaign that exists
    rintro s t pi rt ra p i b h hb ⟨hop, h4, h28⟩ hgroup ⟨hready, hp⟩ hsome
    have hans : campCtl b (calling t rt i s) = campFail upCampExists (calling t rt i s) := by
      rw [campCtl_create ⟨hop, h4, h28⟩ (by rw [calling_cas]; exact hp)]
      unfold campCreate campId
      dsimp only
      rw [calling_lake, calling_upd, hready, if_neg (by simp [hgroup]), if_neg (by decide), if_pos hsome]
    exact answers_campCtl h hb (by unfold campOp; omega) hans rfl ⟨rfl, rfl, rfl⟩ rfl
  case refine_3 => -- SEND
    rintro s t pi rt ra p i b x h hb ⟨hop, h4, h8, h25⟩ hx hst ⟨hrep1, hrep8, hpos, hin⟩
    have hop' : campOp b = 1 := hop
    have hans : (if !campAdmits (campOp b) x.st then campFail upSlotState (calling t rt i s) else campOn b x (calling t rt i s)) =
        .ok (campState (field b 2 2) 2 { x with nextofs := field b 16 4, start := field b 16 4, sendend := field b 16 4 + field b 20 4, rep := field b 24 1, pass := 0, sentOn := [] } (calling t rt i s)) := by
      rw [if_neg (by simp [hop', campAdmits]; omega)]
      unfold campOn
      rw [hop']
      dsimp only
      unfold campSend
      dsimp only
      rw [if_neg (by omega), if_neg (by omega)]
      rfl
    obtain ⟨hself, hother, hpost, hframe⟩ := campState_does (id := field b 2 2) (st := 2) (n := 0)
      (c := { x with nextofs := field b 16 4, start := field b 16 4, sendend := field b 16 4 + field b 20 4, rep := field b 24 1, pass := 0, sentOn := [] })
      hx.1 (calling_rest t rt i s) rfl
    exact answers_campOn h hb (by omega) (by simp [campReserved, hop', h4, h8, h25]) hx hans rfl ⟨⟨rfl, rfl, rfl⟩, hself, hother, hpost, hframe⟩ rfl
  case refine_4 => -- SEND in a state where it is not allowed
    rintro s t pi rt ra p i b x h hb ⟨hop, h4, h8, h25⟩ hx hst
    have hop' : campOp b = 1 := hop
    exact answers_campOn h hb (by omega) (by simp [campReserved, hop', h4, h8, h25]) hx
      (if_pos (by simp [hop', campAdmits]; omega)) rfl ⟨rfl, rfl, rfl⟩ rfl
  case refine_5 => -- ACTIVATE
    rintro s t pi rt ra p i b x h hb ⟨hop, h4, h16⟩ hx hst hsoon
    have hop' : campOp b = 2 := hop
    have hnow : (calling t rt i s).nowNs = s.nowNs := by unfold State.nowNs; rw [calling_tmu]
    have hans : (if !campAdmits (campOp b) x.st then campFail upSlotState (calling t rt i s) else campOn b x (calling t rt i s)) =
        .ok (campState (field b 2 2) 4 { x with actT := field b 8 8 } (calling t rt i s)) := by
      rw [if_neg (by rcases hst with h | h <;> simp [hop', campAdmits, h])]
      unfold campOn
      rw [hop']
      dsimp only
      unfold campArm
      dsimp only
      rw [campFrames_calling, hnow, if_neg (by simp only [List.any_eq_true, decide_eq_true_eq, not_exists, not_and, Nat.not_lt]; exact hsoon)]
      rfl
    obtain ⟨hself, hother, hpost, hframe⟩ := campState_does (id := field b 2 2) (st := 4) (n := 0) (c := { x with actT := field b 8 8 })
      hx.1 (calling_rest t rt i s) rfl
    exact answers_campOn h hb (by omega) (by simp [campReserved, hop', h4, h16]) hx hans rfl ⟨⟨rfl, rfl, rfl⟩, hself, hother, hpost, hframe⟩ rfl
  case refine_6 => -- ABORT
    rintro s t pi rt ra p i b x h hb ⟨hop, h4, h8⟩ hx ⟨hlo, hhi⟩
    have hop' : campOp b = 3 := hop
    have hans : (if !campAdmits (campOp b) x.st then campFail upSlotState (calling t rt i s) else campOn b x (calling t rt i s)) =
        .ok (campState (field b 2 2) 6 { x with abortLeft := (s.campPlaces x).foldl (fun m p => m.ins p 16) [] } (calling t rt i s)) := by
      rw [if_neg (by simp [hop', campAdmits]; omega)]
      unfold campOn
      rw [hop']
      dsimp only
      unfold campStop
      rw [campPlaces_calling]
      rfl
    obtain ⟨hself, hother, hpost, hframe⟩ := campState_does (id := field b 2 2) (st := 6) (n := 0)
      (c := { x with abortLeft := (s.campPlaces x).foldl (fun m p => m.ins p 16) [] }) hx.1 (calling_rest t rt i s) rfl
    exact answers_campOn h hb (by omega) (by simp [campReserved, hop', h4, h8]) hx hans rfl
      ⟨⟨rfl, rfl, rfl⟩, ⟨_, hself, rfl, rfl, rfl, rfl, fun p hmem => get_foldl_ins _ _ _ _ (Or.inl hmem)⟩, hother, hpost, hframe⟩ rfl
  case refine_7 => -- READ
    rintro s t pi rt ra p i b x q h hb ⟨hop, h4, h16⟩ ⟨hp, hfind⟩ hlen hq
    have hop' : campOp b = 4 := hop
    refine answers_ecall h rfl ?_ ?_ (r := .ok (storeAt q (x.bytes (campId b)) (calling t rt i s)))
    · rw [hb]
      exact engCampCtl_read q ⟨hop', by simp [campReserved, hop', h4, h16]⟩ (by rw [calling_cas]; exact hp) (by rw [calling_upd]; exact hfind) hlen
        (by rw [bufPlace_calling]; exact hq)
    · exact ⟨⟨rfl, rfl, rfl⟩, rfl⟩
  case refine_8 => -- CLOSE
    rintro s t pi rt ra p i b x h hb ⟨hop, h4, h8⟩ hx hst
    have hop' : campOp b = 5 := hop
    have hans : (if !campAdmits (campOp b) x.st then campFail upSlotState (calling t rt i s) else campOn b x (calling t rt i s)) =
        .ok { calling t rt i s with upd.camps := s.upd.camps.del (field b 2 2) } := by
      rw [if_neg (by rcases hst with h | h <;> simp [hop', campAdmits, h])]
      unfold campOn
      rw [hop']
      dsimp only
      rw [mirror_alone (by exact (congrArg Cas.pair (calling_cas t rt i s)).trans hx.1), calling_upd]
      rfl
    exact answers_campOn h hb (by omega) (by simp [campReserved, hop', h4, h8]) hx hans rfl
      ⟨⟨rfl, rfl, rfl⟩, Map.find_del_self _ _, fun k hk => Map.find_del_ne _ hk, rfl⟩ rfl
  case refine_9 => -- TALLY
    rintro s t pi rt ra p i b x h hb ⟨hop, h4, h24⟩ hx ⟨hlo, hhi⟩
    have hop' : campOp b = 6 := hop
    have htally : ((List.range 4).map fun i => field b (8 + 4 * i) 4) = [field b 8 4, field b 12 4, field b 16 4, field b 20 4] := rfl
    have hans : (if !campAdmits (campOp b) x.st then campFail upSlotState (calling t rt i s) else campOn b x (calling t rt i s)) =
        .ok { calling t rt i s with upd.camps := s.upd.camps.ins (field b 2 2) { x with tally := [field b 8 4, field b 12 4, field b 16 4, field b 20 4] } } := by
      rw [if_neg (by simp [hop', campAdmits]; omega)]
      unfold campOn
      rw [hop']
      change EngOut.ok (putCamp _ _ _) = _
      unfold putCamp
      dsimp only
      rw [htally, mirror_alone (by exact (congrArg Cas.pair (calling_cas t rt i s)).trans hx.1), calling_upd]
      rfl
    exact answers_campOn h hb (by omega) (by simp [campReserved, hop', h4, h24]) hx hans rfl
      ⟨⟨rfl, rfl, rfl⟩, Map.find_ins_self _ _ _, fun k hk => Map.find_ins_ne _ _ hk, rfl⟩ rfl
  case refine_10 => -- CLOSE by the host
    rintro s q c x hfront hrun hrole ⟨hop, hz⟩ ⟨hp, hx⟩ hst
    have hop' : campOp c.block = 5 := (field_block c.raw (by omega) (by omega)).trans hop
    refine does_granted hfront hrun (by rw [if_neg (by omega)]; exact hrole) rfl ?_
    obtain ⟨Q, hQ⟩ := takeEvent_eq c s
    rw [hQ, doCampCtl_close (s := { s with mcc.queues := Q }) hop hz hp hx hst]
    refine ⟨registers_answerCmd c _ s (standardFront_mem _ _ _ _ hfront) rfl rfl rfl, ?_⟩
    rw [answerCmd_frame]
    exact ⟨Map.find_del_self _ _, fun k hk => Map.find_del_ne _ hk, rfl, rfl, rfl, rfl⟩
  case refine_11 => -- READ by the host
    rintro s q c x hfront hrun hrole ⟨hop, hz⟩ ⟨hp, hx⟩
    have hop' : campOp c.block = 4 := (field_block c.raw (by omega) (by omega)).trans hop
    refine does_reads hfront hrun (by rw [if_pos hop']; exact hrole) rfl ?_
    obtain ⟨Q, hQ⟩ := takeEvent_eq c s
    rw [hQ, doCampCtl_read (s := { s with mcc.queues := Q }) hop hz hp hx]
  case refine_12 => -- a role that is not granted
    intro s q c hfront hrun hrole hop
    have hop' : campOp c.block = field c.raw 8 1 := field_block c.raw (by omega) (by omega)
    exact does_denied hfront hrun (by rw [if_neg (by omega)]; exact hrole) rfl
  case refine_13 => -- the activation second
    rintro s id x hx ⟨hm, hst, hact, hp⟩
    exact does_next (campaignActT_due hx ⟨by simp [State.pumps, hm], hst, hact⟩) (campState_does hp ⟨rfl, rfl, rfl, rfl⟩ rfl)
  case refine_14 =>
    intro s id x hx h
    exact campaignActT_waits hx h

end Sys2Proof.Machine

namespace Sys2Proof.Machine

/-! ## What the anchor's update and the slots' NAND work leave alone (R421, R422) -/

/-- `u` is `s` but for Lake, what the chip sends, and counters; every block keeps its state. -/
def OnMedia (s u : State) : Prop :=
  u = { s with lake := u.lake, cas := u.cas, out := u.out, ctr := u.ctr } ∧ ∀ k, (u.lake.block k).st = (s.lake.block k).st

theorem OnMedia.refl (s : State) : OnMedia s s := ⟨rfl, fun _ => rfl⟩

theorem OnMedia.trans {s u v : State} (h : OnMedia s u) (h' : OnMedia u v) : OnMedia s v :=
  ⟨by rw [h'.1, h.1], fun k => (h'.2 k).trans (h.2 k)⟩

theorem OnMedia.ite {p : Prop} [Decidable p] {s u v : State} (hu : OnMedia s u) (hv : OnMedia s v) : OnMedia s (if p then u else v) := by
  split
  · exact hu
  · exact hv

theorem OnMedia.foldl {α : Type} {f : State → α → State} (hf : ∀ s x, OnMedia s (f s x)) (l : List α) : ∀ s, OnMedia s (l.foldl f s) := by
  induction l with
  | nil => exact OnMedia.refl
  | cons x l ih => exact fun s => (hf s x).trans (ih (f s x))

theorem onMedia_count (k : Nat) (s : State) : OnMedia s (count k s) := ⟨rfl, fun _ => rfl⟩

theorem onMedia_emit (e : Out) (s : State) : OnMedia s (emit e s) := ⟨rfl, fun _ => rfl⟩

theorem onMedia_nandLun (i : Nat) (cmd : List Nat) (block page col : Nat) (data : List Byte) (s : State) :
    OnMedia s (nandLun i cmd block page col data s) := by
  unfold nandLun nandTo
  exact (OnMedia.ite (onMedia_emit _ _) (OnMedia.refl _)).trans (onMedia_emit _ _)

theorem onMedia_nandEnter (i : Nat) (ops : List (List Nat × Nat × List Byte)) (s : State) : OnMedia s (nandEnter i ops s) :=
  OnMedia.foldl (fun _ _ => onMedia_nandLun _ _ _ _ _ _ _) _ _

theorem onMedia_nandOp (i block page : Nat) (pslc : Bool) (cmd : List Nat) (data : List Byte) (s : State) : OnMedia s (nandOp i block page pslc cmd data s) := by
  unfold nandOp
  dsimp only
  have hon : ∀ (b : Nat) (s : State), OnMedia s (if pslc then nandEnter i (featureOps (s.profileBytes b 12)) s else s) :=
    fun _ _ => OnMedia.ite (onMedia_nandEnter _ _ _) (OnMedia.refl _)
  exact (((hon 0 s).trans (onMedia_nandLun _ _ _ _ _ _ _)).trans (onMedia_nandLun _ _ _ _ _ _ _)).trans (hon 12 _)

theorem onMedia_sendOn (p d : Nat) (m : Flit) (s : State) : OnMedia s (sendOn p d m s) := by
  refine ⟨?_, fun k => by rw [sendOn_lake]⟩
  conv => lhs; rw [sendOn_frame]
  rw [sendOn_lake]

/-- A block whose count of erasures grows keeps its state. -/
theorem onMedia_setBlock (k pe : Nat) (s : State) : OnMedia s (setBlock k { s.lake.block k with pe := pe } s) := by
  have hst : ∀ l : Lake, l.blocks = s.lake.blocks.put {} k { s.lake.block k with pe := pe } → l.lunFailed = s.lake.lunFailed →
      ∀ j, (l.block j).st = (s.lake.block j).st := by
    intro l hblocks hfailed j
    unfold Lake.block
    dsimp only
    rw [hblocks, hfailed]
    split
    · rfl
    · next hlun =>
      by_cases hj : j = k
      · subst hj
        rw [Map.get_put_self]
        unfold Lake.block
        dsimp only
        rw [if_neg hlun]
      · rw [Map.get_put_ne _ _ _ hj]
  unfold setBlock
  dsimp only
  exact OnMedia.ite ⟨rfl, hst _ rfl rfl⟩ ⟨rfl, hst _ rfl rfl⟩

theorem onMedia_eraseSlot (k : Nat) (s : State) : OnMedia s (eraseSlot k s) := by
  unfold eraseSlot
  dsimp only
  exact OnMedia.foldl (fun s b => (onMedia_setBlock b _ s).trans (onMedia_nandOp _ _ _ _ _ _ _)) _ _

theorem onMedia_anchorUpdate (s : State) : OnMedia s (anchorUpdate s) := by
  unfold anchorUpdate
  dsimp only
  have hseq : ∀ (a w b p : Nat), OnMedia s (count (kLks 22) { s with lake.aseq := a, lake.wseq := w, lake.anchorBlk := b, lake.anchorPage := p }) :=
    fun _ _ _ _ => ⟨rfl, fun _ => rfl⟩
  refine OnMedia.ite ((hseq _ _ _ _).trans (OnMedia.foldl (fun u c => ?_) _ _)) (hseq _ _ _ _)
  split
  · exact OnMedia.refl _
  · exact (OnMedia.ite (onMedia_nandOp _ _ _ _ _ _ _) (OnMedia.refl _)).trans (onMedia_nandOp _ _ _ _ _ _ _)

theorem onMedia_tellTwin (s : State) : OnMedia s (tellTwin s) := by
  unfold tellTwin
  dsimp only
  refine OnMedia.ite (OnMedia.refl _) (OnMedia.trans ?_ (onMedia_count _ _))
  refine OnMedia.trans ?_ (OnMedia.foldl (fun _ _ => onMedia_sendOn _ _ _ _) _ _)
  exact OnMedia.ite (OnMedia.refl _) ⟨rfl, fun _ => rfl⟩

/-- The BOOT field takes its new value; beside it only Lake, the twin's message and counters change. -/
theorem onMedia_putBoot (u : Upd) (s : State) : OnMedia { s with upd := u } (putBoot u s) := (onMedia_anchorUpdate _).trans (onMedia_tellTwin _)

end Sys2Proof.Machine

namespace Sys2Proof.Machine

/-! ## The slots' states (R421) -/

theorem slotSt_withSlot_spare (u : Upd) (v : Nat) : (u.withSlot u.spare v).slotSt u.spare = v := by
  unfold Upd.slotSt Upd.withSlot
  split <;> rfl

theorem slotSt_withSlot_active (u : Upd) (v : Nat) : (u.withSlot u.spare v).slotSt u.active = u.slotSt u.active := by
  unfold Upd.slotSt Upd.withSlot Upd.spare
  by_cases h : u.active = 0
  · simp [h]
  · simp [h]

/-- A slot's state alone changes. -/
theorem withSlot_frame (u : Upd) (k v : Nat) : u.withSlot k v = { u with stA := (u.withSlot k v).stA, stB := (u.withSlot k v).stB } := by
  unfold Upd.withSlot
  split <;> rfl

theorem putBoot_eq (u : Upd) (s : State) : putBoot u s =
    { s with upd := u, lake := (putBoot u s).lake, cas := (putBoot u s).cas, out := (putBoot u s).out, ctr := (putBoot u s).ctr } := (onMedia_putBoot u s).1

/-- The BOOT field is written, and an answer registered, with nothing of the other units changed. -/
theorem registers_putBoot {c : Cmd} {a : HostAns} {s v : State} {u : Upd} (hc : c ∈ s.hp.cmds) (ha : a.st = putBoot u v) (hv : v.hp = s.hp) (hw : a.waits = none) :
    Registers c a.status a.result (if c.rbuf then some (a.resp.getD []) else none) s (answerCmd c a) := by
  have hhp : a.st.hp = s.hp := by rw [ha, putBoot_eq]; exact hv
  exact registers_answerCmd c a s hc (congrArg Hp.cmds hhp) (congrArg Hp.regs hhp) hw

/-! ## Image commands -/

/-- IMG_LOCK with a lock of 0 or 1. -/
theorem doImgLock_ok {c : Cmd} {s : State} (h : field c.raw 8 1 ≤ 1) : doImgLock c s = { st := putBoot { s.upd with lock := field c.raw 8 1 == 1 } s } := by
  have hf : field c.block 0 1 = field c.raw 8 1 := field_block c.raw (by omega) (by omega)
  unfold doImgLock
  dsimp only
  rw [hf, if_neg (by omega)]

/-- IMG_CONFIRM OP 0 of a trial, without RAISE. -/
theorem updConfirm_trial {s : State} (hr : s.lake.ready = true) (hp : s.cas.pair = 0) (ht : s.upd.slotSt s.upd.active = 4) :
    updConfirm 0 0 s = .ok (confirmTrial false s) := by
  unfold updConfirm
  dsimp only
  rw [if_neg (by omega), if_neg (by simp [hr]), if_neg (by omega), if_neg (by simp [ht]), if_neg (by simp), mirror_alone hp]
  unfold applyTrialEnd
  rw [if_neg (by simp [ht])]
  rfl

/-- The update record after a confirmed trial. -/
def Upd.confirmed (u : Upd) : Upd :=
  let a := u.withSlot u.active 5
  { (if a.slotSt a.spare = 6 then a.withSlot a.spare 7 else a) with gen := false, volGen := none, genck := 0, confirmBy := 0, tries := 0 }

theorem confirmTrial_eq (s : State) : confirmTrial false s = count (kUpd 7) (putBoot s.upd.confirmed s) := rfl

theorem confirmed_slot (u : Upd) : u.confirmed.slotSt u.active = 5 ∧ u.confirmed.active = u.active ∧ u.confirmed.gen = false ∧ u.confirmed.volGen = none := by
  have hact : (u.withSlot u.active 5).active = u.active := by rw [withSlot_frame]
  have hst : (u.withSlot u.active 5).slotSt u.active = 5 := by unfold Upd.withSlot Upd.slotSt; split <;> rfl
  unfold Upd.confirmed
  dsimp only
  split
  · have hother := slotSt_withSlot_active (u.withSlot u.active 5) 7
    rw [hact, hst] at hother
    exact ⟨hother, by rw [withSlot_frame]; exact hact, rfl, rfl⟩
  · exact ⟨hst, hact, rfl, rfl⟩

/-- An image that passes every check of R425 is verified. -/
theorem updVerify_ok {s : State} (hb : s.updBarred = none) (hr : s.lake.ready = true) (hst : s.upd.slotSt s.upd.spare = 1)
    (hall : (List.range (ceilDiv s.upd.imglen 4096)).all (fun u => (s.upd.units.find (s.upd.spare * 16384 + u)).isSome) = true)
    (hi : imageCheck (s.slotBytes s.upd.spare s.upd.imglen) s = none) (hl : s.ldg.sealed = false) :
    updVerify s = .ok (postNotice 0x0E01 1 (le 1 s.upd.spare ++ zeroBytes 3 ++ le 4 (imgSecver (s.slotBytes s.upd.spare s.upd.imglen)))
      (count (kUpd 3) (putBoot (s.upd.withSlot s.upd.spare 2) s))) := by
  unfold updVerify
  dsimp only
  rw [hb]
  dsimp only
  rw [if_neg (by simp [hr]), if_neg (by simp [hst]), if_neg (by rw [hall]; decide), hi]
  dsimp only
  rw [if_neg (by simp [State.legalAdmitted, hl])]
  rfl

theorem imageCheck_ok {im pk dg sg : List Byte} {so : Nat} {s : State} (hso : imgSigOff im = so) (hr : imageRules im = true) (hpk : slice im (so - 96) 96 = pk)
    (hk : s.imgKeyKnown (field im (so + 4) 4) pk = true) (hdg : sha384 (im.take so) = dg) (hsg : slice im (so + 8) 96 = sg) (hv : ecdsaVerify pk dg sg = true)
    (hs : s.secFloor ≤ imgSecver im ∧ imgSecver im ≤ 256) : imageCheck im s = none := by
  unfold imageCheck
  dsimp only
  rw [hso, hpk, hdg, hsg, if_neg (by simp [hr]), if_neg (by simp [hk]), if_neg (by simp [hv]), if_neg (by omega)]

/-- The row of an activation, for this chip alone. -/
def activationRow (s : State) (tS : Nat) : Row := { tS := tS, action := 5, flags := 5, arg := s.cas.chipId * 256 + 2, t0 := tS * 1000000000 }

/-- The update record once the spare slot is armed. -/
def Upd.armed (u : Upd) (tS window : Nat) : Upd := { ({ u with window := window } : Upd).withSlot u.spare 3 with actT := tS, window := window }

theorem armed_slots (u : Upd) (tS window : Nat) : (u.armed tS window).slotSt u.spare = 3 ∧ (u.armed tS window).actT = tS ∧ (u.armed tS window).window = window ∧
    (u.armed tS window).slotSt u.active = u.slotSt u.active ∧ (u.armed tS window).active = u.active := by
  refine ⟨slotSt_withSlot_spare { u with window := window } 3, rfl, rfl, slotSt_withSlot_active { u with window := window } 3, ?_⟩
  unfold Upd.armed
  rw [withSlot_frame]

/-- IMG_ACTIVATE of the verified image of a single chip arms it. -/
theorem updActivate_ok {tS window : Nat} {s : State} (hw : 1 ≤ window) (hb : s.updBarred = none) (hr : s.lake.ready = true)
    (hc : s.cas.pair = 0 ∧ s.cas.master = true ∧ s.cas.chips ≤ 1) (ht : s.nowNs + 10000000000 ≤ tS * 1000000000)
    (hst : s.upd.slotSt s.upd.spare = 2 ∨ s.upd.slotSt s.upd.spare = 3) : updActivate tS 0 window s =
      .ok (putBoot (s.upd.armed tS window)
        { s with upd.window := window, tmu.rows := s.tmu.rows.put {} 9 (activationRow s tS) }) := by
  obtain ⟨hpair, hmaster, hchips⟩ := hc
  unfold updActivate
  dsimp only
  rw [if_neg (by omega), if_neg (by omega), hb]
  dsimp only
  rw [if_neg (by simp [hr]), if_neg (by simp [hmaster]), if_neg (by omega), if_neg (by omega), if_pos rfl]
  unfold shareRow putRow
  dsimp only
  rw [if_pos hchips, mirror_alone (by exact hpair)]
  unfold armRow
  dsimp only
  rw [if_neg (by decide), if_pos ⟨hst, Or.inr (by omega)⟩]
  rfl

/-- What the parameter of IMG_ACTIVATE says, read from its block. -/
theorem doImgActivate_eq {c : Cmd} {s : State} (h : field c.raw 16 1 = 0 ∧ zeros c.raw 18 6 = true) :
    engUpdActivate 0 (fit 16 c.block) s = updActivate (field c.raw 8 8) 0 (field c.raw 17 1) s := by
  have hblock : fit 16 c.block = fit 16 (slice c.raw 8 28) := fit_fit _ (by omega)
  have hshort : fit 16 (slice c.raw 8 28) = fit 16 (slice c.raw 8 16) := by
    unfold fit slice
    rw [List.take_take, List.take_take, List.length_take, List.length_take]
    congr 2
    omega
  have hf : ∀ k j, k + j ≤ 16 → field (fit 16 c.block) k j = field c.raw (8 + k) j := by
    intro k j hk
    rw [hblock, hshort]
    exact field_block c.raw (by omega) hk
  have hz : zeros (fit 16 c.block) 10 6 = true := by
    rw [hblock, hshort]
    exact zeros_block (by omega) (by omega) h.2
  unfold engUpdActivate
  rw [hz, hf 0 8 (by omega), hf 8 1 (by omega), hf 9 1 (by omega), h.1]
  rfl

/-- What the parameter of IMG_CONFIRM says, read from its block. -/
theorem doImgConfirm_eq {c : Cmd} {s : State} (h : field c.raw 8 1 = 0 ∧ field c.raw 9 1 = 0 ∧ zeros c.raw 10 6 = true) :
    engUpdConfirm 0 (fit 8 c.block) s = updConfirm 0 0 s := by
  have hblock : fit 8 c.block = fit 8 (slice c.raw 8 28) := fit_fit _ (by omega)
  have hshort : fit 8 (slice c.raw 8 28) = fit 8 (slice c.raw 8 8) := by
    unfold fit slice
    rw [List.take_take, List.take_take, List.length_take, List.length_take]
    congr 2
    omega
  have hf : ∀ k j, k + j ≤ 8 → field (fit 8 c.block) k j = field c.raw (8 + k) j := by
    intro k j hk
    rw [hblock, hshort]
    exact field_block c.raw (by omega) hk
  have hz : zeros (fit 8 c.block) 2 6 = true := by
    rw [hblock, hshort]
    exact zeros_block (by omega) (by omega) h.2.2
  unfold engUpdConfirm
  rw [hz, hf 0 1 (by omega), hf 1 1 (by omega), h.1, h.2.1]
  rfl

/-! ## The first block of an image (R422) -/

/-- Blocks outside a slot change nothing when their program fails. -/
theorem foldl_slotBlockFailed {k : Nat} {s : State} (bad : List Nat) (h : bad.any (s.slotBlock k) = false) :
    bad.foldl (fun s bk => slotBlockFailed k bk s) s = s := by
  induction bad with
  | nil => rfl
  | cons b bad ih =>
    rw [List.any_cons, Bool.or_eq_false_iff] at h
    rw [List.foldl_cons]
    unfold slotBlockFailed at ih ⊢
    rw [if_neg (by simp [h.1])]
    exact ih h.2

theorem programUnits_ok {off total : Nat} {d : List Byte} {bad : List Nat} {s : State} (h : bad.any (s.slotBlock s.upd.spare) = false) :
    programUnits off total d bad s = .ok (writeUnits s.upd.spare off total d s) := by
  unfold programUnits
  dsimp only
  rw [h, foldl_slotBlockFailed bad h]
  rfl

/-- The units of a block that fits a slot are its own. -/
theorem find_writtenUnits {k off total : Nat} {d : List Byte} {s : State} (hoff : off = 0) (hlen : d.length ≤ 67108864) (j : Nat) (hj : j / 16384 ≠ k) :
    (writeUnits k off total d s).upd.units.find j = s.upd.units.find j := by
  have hfold : ∀ (l : List Nat), (∀ u ∈ l, u < 16384) → ∀ m : Map (List Byte),
      (l.foldl (fun m u => m.ins (k * 16384 + u) (unitOf off d u)) m).find j = m.find j := by
    intro l
    induction l with
    | nil => exact fun _ _ => rfl
    | cons u l ih =>
      intro hl m
      rw [List.foldl_cons, ih fun v hv => hl v (List.mem_cons_of_mem _ hv)]
      have hu := hl u List.mem_cons_self
      exact Map.find_ins_ne _ _ (by omega)
  refine hfold _ (fun u hu => ?_) _
  obtain ⟨i, hi, hsome⟩ := List.mem_filterMap.mp hu
  have hilt := List.mem_range.mp hi
  unfold ceilDiv at hilt
  dsimp only at hsome
  split at hsome
  · cases hsome
    subst hoff
    omega
  · cases hsome

/-- The update record for the first block of an image of `total` bytes. -/
def Upd.opened (u : Upd) (total : Nat) : Upd := { u with units := u.units.keep fun j _ => j / 16384 != u.spare, imglen := total }

/-- The state in which the first block of an image of `total` bytes finds the spare slot: erased, and RECEIVING. -/
def slotOpened (total : Nat) (s : State) : State :=
  spareTo 1 (eraseSlot s.upd.spare { s with upd := s.upd.opened total })

theorem slotOpened_eq (total : Nat) (s : State) : slotOpened total s =
    { s with upd := (s.upd.opened total).withSlot s.upd.spare 1,
             lake := (slotOpened total s).lake, cas := (slotOpened total s).cas, out := (slotOpened total s).out, ctr := (slotOpened total s).ctr } := by
  have herase := (onMedia_eraseSlot s.upd.spare { s with upd := s.upd.opened total }).1
  unfold slotOpened spareTo
  conv => lhs; rw [putBoot_eq]
  generalize eraseSlot s.upd.spare { s with upd := s.upd.opened total } = e at herase ⊢
  rw [herase]
  rfl

/-- Erasing a slot and opening it leaves every block a block of its slot. -/
theorem slotBlock_slotOpened (total k b : Nat) (s : State) : (slotOpened total s).slotBlock k b = s.slotBlock k b := by
  have hst : ((slotOpened total s).lake.block b).st = (s.lake.block b).st := by
    unfold slotOpened spareTo
    exact ((onMedia_putBoot _ _).2 b).trans ((onMedia_eraseSlot _ _).2 b)
  have hregion : (slotOpened total s).upd.region k = s.upd.region k := by
    rw [slotOpened_eq]
    dsimp only
    rw [withSlot_frame]
    rfl
  unfold State.slotBlock
  rw [hst, hregion]

/-- The first block of an image that passes R422's checks is programmed into the erased spare slot. -/
theorem beginBlock_ok {bad : List Nat} {crc : Nat} {d : List Byte} {s : State} (hb : s.updBarred = none) (hr : s.lake.ready = true)
    (hst : s.upd.slotSt s.upd.spare ≠ 3 ∧ s.upd.slotSt s.upd.spare ≠ 6) (hlen : 256 ≤ d.length) (hok : beginOk d = true)
    (hin : imgLen d ≤ 67108864 ∧ imgLen d ≤ s.slotCap s.upd.spare ∧ d.length ≤ imgLen d) (hcrc : crc32c d = crc)
    (hbad : bad.any (s.slotBlock s.upd.spare) = false) : beginBlock bad 0 d.length crc (.ok d) s =
      .ok (writeUnits s.upd.spare 0 (imgLen d) d (slotOpened (imgLen d) s)) := by
  have hspare : (slotOpened (imgLen d) s).upd.spare = s.upd.spare := by
    rw [slotOpened_eq]
    dsimp only
    rw [withSlot_frame]
    rfl
  have hclear : bad.any ((slotOpened (imgLen d) s).slotBlock (slotOpened (imgLen d) s).upd.spare) = false := by
    rw [hspare, ← hbad]
    congr 1
    exact funext fun b => slotBlock_slotOpened _ _ _ _
  have hprog := programUnits_ok (off := 0) (total := imgLen d) (d := d) hclear
  rw [hspare] at hprog
  unfold beginBlock
  dsimp only
  rw [hb]
  dsimp only
  rw [if_neg (by simp [hr]), if_neg (by simp [hst]), if_neg (by omega), if_neg (by simp [hok]), if_neg (by omega), if_neg (by simp [hcrc])]
  exact hprog

/-- IMG_BLOCK with BEGIN, by its parameter and data. -/
theorem doImgBlock_begin {bad : List Nat} {c : Cmd} {s : State}
    (h : field c.raw 28 1 = 1 ∧ zeros c.raw 29 3 = true ∧ field c.raw 8 4 = 0 ∧ zeros c.raw 12 12 = true) :
    doImgBlock bad c s = ofEng (beginBlock bad 0 c.data.length (field c.raw 24 4) (.ok c.data) s) 64 := by
  obtain ⟨hbegin, h29, hoff, h12⟩ := h
  have hf : ∀ k j, k + j ≤ 28 → field c.block k j = field c.raw (8 + k) j := fun k j h => field_block c.raw (by omega) h
  have hz4 : zeros c.block 4 12 = true := zeros_block (m := 28) (by omega) (by omega) h12
  have hz21 : zeros c.block 21 3 = true := zeros_block (m := 28) (by omega) (by omega) h29
  unfold doImgBlock
  dsimp only
  rw [hz4, hz21, hf 20 1 (by omega), hf 0 4 (by omega), hf 16 4 (by omega), hbegin, hoff, if_neg (by simp), if_pos rfl]

end Sys2Proof.Machine

namespace Sys2Proof.Machine

/-- A slot opened for an image is RECEIVING and empty; the other slot stays. -/
theorem opened_slots (u : Upd) (total : Nat) :
    ((u.opened total).withSlot u.spare 1).slotSt u.spare = 1 ∧ ((u.opened total).withSlot u.spare 1).imglen = total ∧
    ((u.opened total).withSlot u.spare 1).slotSt u.active = u.slotSt u.active ∧ ((u.opened total).withSlot u.spare 1).active = u.active ∧
    ∀ k, k / 16384 ≠ u.spare → ((u.opened total).withSlot u.spare 1).units.find k = u.units.find k := by
  refine ⟨slotSt_withSlot_spare (u.opened total) 1, ?_, slotSt_withSlot_active (u.opened total) 1, ?_, fun k hk => ?_⟩
  · rw [withSlot_frame]; rfl
  · rw [withSlot_frame]; rfl
  · rw [withSlot_frame]
    change (u.units.keep fun j _ => j / 16384 != u.spare).find k = _
    rw [find_keep _ fun j => j / 16384 != u.spare]
    exact if_pos (by simpa using hk)

/-- `v` holds `u` for the slots; of the commands in flight, ledger, directory, keys and OTP it is `s`. -/
def Slots (u : Upd) (s v : State) : Prop :=
  v.upd = u ∧ (v.hp.cmds = s.hp.cmds ∧ v.hp.regs = s.hp.regs) ∧ v.ldg = s.ldg ∧ v.ing = s.ing ∧ v.woad = s.woad ∧ v.otp = s.otp

/-- The BOOT field is written. -/
theorem slots_putBoot (u : Upd) {s v : State} (hv : v.hp = s.hp ∧ v.ldg = s.ldg ∧ v.ing = s.ing ∧ v.woad = s.woad ∧ v.otp = s.otp) : Slots u s (putBoot u v) := by
  obtain ⟨hhp, hldg, hing, hwoad, hotp⟩ := hv
  rw [putBoot_eq]
  exact ⟨rfl, ⟨congrArg Hp.cmds hhp, congrArg Hp.regs hhp⟩, hldg, hing, hwoad, hotp⟩

/-- A notice leaves them so. -/
theorem Slots.postNotice {u : Upd} {s v : State} (h : Slots u s v) (code cls : Nat) (args : List Byte) : Slots u s (postNotice code cls args v) := by
  obtain ⟨hupd, ⟨hcmds, hregs⟩, hldg, hing, hwoad, hotp⟩ := h
  refine ⟨?_, ⟨?_, ?_⟩, ?_, ?_, ?_, ?_⟩
  · rw [postNotice_upd, hupd]
  · rw [postNotice_hp, hcmds]
  · rw [postNotice_hp, hregs]
  · rw [postNotice_ldg, hldg]
  · rw [postNotice_ing, hing]
  · rw [postNotice_woad, hwoad]
  · rw [postNotice_otp, hotp]

/-- A command answered in such a state is registered, and leaves it so. -/
theorem slots_answerCmd {c : Cmd} {a : HostAns} {u : Upd} {s : State} (hc : c ∈ s.hp.cmds) (h : Slots u s a.st) (hw : a.waits = none) :
    (Registers c a.status a.result (if c.rbuf then some (a.resp.getD []) else none) s (answerCmd c a)) ∧
    (answerCmd c a).upd = u ∧ (answerCmd c a).tmu = a.st.tmu ∧ (answerCmd c a).otp = s.otp ∧
    (answerCmd c a).ldg = s.ldg ∧ (answerCmd c a).ing = s.ing ∧ (answerCmd c a).woad = s.woad := by
  obtain ⟨hupd, ⟨hcmds, hregs⟩, hldg, hing, hwoad, hotp⟩ := h
  refine ⟨registers_answerCmd c a s hc hcmds hregs hw, ?_⟩
  rw [answerCmd_frame]
  exact ⟨hupd, rfl, hotp, hldg, hing, hwoad⟩

/-- The first block of an image is written. -/
theorem slots_firstBlock {total : Nat} {d : List Byte} {s v : State} (hv : v.upd = s.upd ∧ v.hp = s.hp ∧ v.ldg = s.ldg ∧ v.ing = s.ing ∧ v.woad = s.woad ∧ v.otp = s.otp) :
    Slots { (s.upd.opened total).withSlot s.upd.spare 1 with units := (writeUnits v.upd.spare 0 total d (slotOpened total v)).upd.units } s
      (writeUnits v.upd.spare 0 total d (slotOpened total v)) := by
  obtain ⟨hupd, hhp, hldg, hing, hwoad, hotp⟩ := hv
  have hopened := slotOpened_eq total v
  rw [hupd] at hopened ⊢
  generalize slotOpened total v = o at hopened ⊢
  have hu : o.upd = (s.upd.opened total).withSlot s.upd.spare 1 := by rw [hopened]
  rw [← hu]
  refine ⟨rfl, ⟨?_, ?_⟩, ?_, ?_, ?_, ?_⟩
  · change o.hp.cmds = _; rw [hopened, hhp]
  · change o.hp.regs = _; rw [hopened, hhp]
  · change o.ldg = _; rw [hopened, hldg]
  · change o.ing = _; rw [hopened, hing]
  · change o.woad = _; rw [hopened, hwoad]
  · change o.otp = _; rw [hopened, hotp]

/-- The units of the first block are the spare slot's. -/
theorem find_firstBlock {total : Nat} {d : List Byte} {s v : State} (hv : v.upd = s.upd) (hlen : d.length ≤ 67108864) (k : Nat) (hk : k / 16384 ≠ s.upd.spare) :
    (writeUnits v.upd.spare 0 total d (slotOpened total v)).upd.units.find k = s.upd.units.find k := by
  rw [find_writtenUnits rfl hlen k (by rw [hv]; exact hk), slotOpened_eq, hv]
  exact (opened_slots s.upd total).2.2.2.2 k hk

end Sys2Proof.Machine

namespace Sys2Proof.Machine

/-- IMG_BLOCK with BEGIN. -/
theorem does_imgBlock {s : State} {q : Fin 18} {c : Cmd} {bad : List Nat} {P : State → Prop} (hfront : s.standardFront q 0x0060 = some c)
    (hrun : s.coresRun = true ∧ s.glb.mode ≠ .standby) (hrole : [2].contains (s.cmdRole c) = true)
    (hparam : field c.raw 28 1 = 1 ∧ zeros c.raw 29 3 = true ∧ field c.raw 8 4 = 0 ∧ zeros c.raw 12 12 = true)
    (hb : s.updBarred = none) (hr : s.lake.ready = true) (hst : s.upd.slotSt s.upd.spare ≠ 3 ∧ s.upd.slotSt s.upd.spare ≠ 6)
    (hlen : 256 ≤ c.data.length) (hok : beginOk c.data = true)
    (hin : imgLen c.data ≤ 67108864 ∧ imgLen c.data ≤ s.slotCap s.upd.spare ∧ c.data.length ≤ imgLen c.data)
    (hcrc : crc32c c.data = field c.raw 24 4) (hbad : bad.any (s.slotBlock s.upd.spare) = false)
    (hP : ∀ v : State, v.upd = s.upd ∧ v.hp = s.hp ∧ v.ldg = s.ldg ∧ v.ing = s.ing ∧ v.woad = s.woad ∧ v.otp = s.otp →
      P (answerCmd c { st := writeUnits v.upd.spare 0 (imgLen c.data) c.data (slotOpened (imgLen c.data) v) })) : Does (.imgBlock q bad) s P := by
  refine does_granted hfront hrun hrole rfl ?_
  obtain ⟨Q, hQ⟩ := takeEvent_eq c s
  rw [hQ, doImgBlock_begin hparam, beginBlock_ok (s := { s with mcc.queues := Q }) hb hr hst hlen hok hin hcrc hbad]
  exact hP { s with mcc.queues := Q } ⟨rfl, rfl, rfl, rfl, rfl, rfl⟩

/-- Settles O53: under their roles the image commands load, verify, arm, confirm and lock the slots as their calls do; other roles change nothing. -/
theorem imageCommands : Obligations.ImageCommands := by
  unfold Obligations.ImageCommands
  refine ⟨?_, ?_, ?_, ?_, ?_, ?_, ?_, ?_, ?_, ?_, ?_⟩
  case refine_1 => -- IMG_BLOCK with BEGIN
    rintro s q c bad hfront hrun hrole hparam ⟨hb, hr⟩ hst hlen hok hin hcrc hbad
    refine does_imgBlock hfront hrun hrole hparam hb hr hst hlen hok hin hcrc hbad fun v hv => ?_
    obtain ⟨hregs, hupd, -, -, hldg, hing, hwoad⟩ := slots_answerCmd
      (a := { st := writeUnits v.upd.spare 0 (imgLen c.data) c.data (slotOpened (imgLen c.data) v) }) (standardFront_mem _ _ _ _ hfront)
      (slots_firstBlock (total := imgLen c.data) (d := c.data) hv) rfl
    obtain ⟨hself, himg, hother, hact, -⟩ := opened_slots s.upd (imgLen c.data)
    refine ⟨hregs, ?_, ?_, ?_, ?_, ?_, hldg, hing, hwoad⟩
    · rw [hupd]; exact hself
    · rw [hupd]; exact himg
    · rw [hupd]; exact hother
    · rw [hupd]; exact hact
    · intro k hk
      rw [hupd]
      exact find_firstBlock hv.1 (by omega) k hk
  case refine_2 => -- IMG_VERIFY
    rintro s q c im so pk dg sg hfront hrun hrole ⟨hb, hr⟩ hst hall him hso hrules hpk hknown hdg hsg hver hsec hsealed
    refine does_granted hfront hrun hrole rfl ?_
    obtain ⟨Q, hQ⟩ := takeEvent_eq c s
    have hcheck : imageCheck (s.slotBytes s.upd.spare s.upd.imglen) { s with mcc.queues := Q } = none := by
      rw [him]
      exact imageCheck_ok hso hrules hpk hknown hdg hsg hver hsec
    rw [hQ, updVerify_ok (s := { s with mcc.queues := Q }) hb hr hst hall hcheck hsealed]
    have hslots : Slots (s.upd.withSlot s.upd.spare 2) s (count (kUpd 3) (putBoot (s.upd.withSlot s.upd.spare 2) { s with mcc.queues := Q })) :=
      slots_putBoot _ ⟨rfl, rfl, rfl, rfl, rfl⟩
    obtain ⟨hregs, hupd, -, -, hldg, hing, hwoad⟩ := slots_answerCmd (a := ofEng (.ok (postNotice 0x0E01 1
      (le 1 s.upd.spare ++ zeroBytes 3 ++ le 4 (imgSecver (s.slotBytes s.upd.spare s.upd.imglen)))
      (count (kUpd 3) (putBoot (s.upd.withSlot s.upd.spare 2) { s with mcc.queues := Q })))) 64) (standardFront_mem _ _ _ _ hfront) (hslots.postNotice _ _ _) rfl
    refine ⟨hregs, ?_, ?_, ?_, ?_, hldg, hing, hwoad⟩
    · exact (congrArg (·.slotSt s.upd.spare) hupd).trans (slotSt_withSlot_spare _ _)
    · exact (congrArg (·.slotSt s.upd.active) hupd).trans (slotSt_withSlot_active _ _)
    · exact (congrArg Upd.active hupd).trans (by rw [withSlot_frame])
    · exact (congrArg Upd.units hupd).trans (by rw [withSlot_frame])
  case refine_3 => -- IMG_ACTIVATE
    rintro s q c hfront hrun hrole ⟨hscope, hwindow, hz⟩ ⟨hb, hr⟩ hcas ht hst -
    refine does_granted hfront hrun hrole rfl ?_
    obtain ⟨Q, hQ⟩ := takeEvent_eq c s
    rw [hQ, doImgActivate_eq ⟨hscope, hz⟩, updActivate_ok (s := { s with mcc.queues := Q }) hwindow hb hr hcas ht hst]
    have hslots := slots_putBoot (s.upd.armed (field c.raw 8 8) (field c.raw 17 1)) (s := s)
      (v := { s with mcc.queues := Q, upd.window := field c.raw 17 1, tmu.rows := s.tmu.rows.put {} 9 (activationRow s (field c.raw 8 8)) }) ⟨rfl, rfl, rfl, rfl, rfl⟩
    obtain ⟨hregs, hupd, htmu, -, hldg, hing, hwoad⟩ := slots_answerCmd
      (a := ofEng (.ok (putBoot (s.upd.armed (field c.raw 8 8) (field c.raw 17 1))
        { s with mcc.queues := Q, upd.window := field c.raw 17 1, tmu.rows := s.tmu.rows.put {} 9 (activationRow s (field c.raw 8 8)) })) 64)
      (standardFront_mem _ _ _ _ hfront) hslots rfl
    obtain ⟨hspare, hact, hwin, hother, hactive⟩ := armed_slots s.upd (field c.raw 8 8) (field c.raw 17 1)
    have hrow := htmu.trans (congrArg State.tmu (putBoot_eq (s.upd.armed (field c.raw 8 8) (field c.raw 17 1))
      { s with mcc.queues := Q, upd.window := field c.raw 17 1, tmu.rows := s.tmu.rows.put {} 9 (activationRow s (field c.raw 8 8)) }))
    have hnine := (congrArg (fun t : Tmu => t.rows.get {} 9) hrow).trans (Map.get_put_self s.tmu.rows {} 9 (activationRow s (field c.raw 8 8)))
    exact ⟨hregs, congrArg Row.action hnine, congrArg Row.tS hnine, (congrArg (·.slotSt s.upd.spare) hupd).trans hspare,
      (congrArg Upd.actT hupd).trans hact, (congrArg Upd.window hupd).trans hwin, (congrArg (·.slotSt s.upd.active) hupd).trans hother,
      (congrArg Upd.active hupd).trans hactive, hldg, hing, hwoad⟩
  case refine_4 => -- IMG_CONFIRM
    rintro s q c hfront hrun hrole hparam ⟨hr, hp⟩ ⟨ht, -⟩
    refine does_granted hfront hrun hrole rfl ?_
    obtain ⟨Q, hQ⟩ := takeEvent_eq c s
    rw [hQ, doImgConfirm_eq hparam, updConfirm_trial (s := { s with mcc.queues := Q }) hr hp ht, confirmTrial_eq]
    have hslots : Slots s.upd.confirmed s (count (kUpd 7) (putBoot s.upd.confirmed { s with mcc.queues := Q })) := slots_putBoot _ ⟨rfl, rfl, rfl, rfl, rfl⟩
    obtain ⟨hregs, hupd, -, hotp, hldg, hing, hwoad⟩ := slots_answerCmd
      (a := ofEng (.ok (count (kUpd 7) (putBoot s.upd.confirmed { s with mcc.queues := Q }))) 64) (standardFront_mem _ _ _ _ hfront) hslots rfl
    obtain ⟨hslot, hact, hgen, hvol⟩ := confirmed_slot s.upd
    exact ⟨hregs, (congrArg (·.slotSt s.upd.active) hupd).trans hslot, (congrArg Upd.active hupd).trans hact, (congrArg Upd.gen hupd).trans hgen,
      (congrArg Upd.volGen hupd).trans hvol, hotp, hldg, hing, hwoad⟩
  case refine_5 => -- IMG_STATUS
    intro s q c hfront hrun hrole
    refine does_reads hfront hrun hrole rfl ?_
    obtain ⟨Q, hQ⟩ := takeEvent_eq c s
    rw [hQ]
    rfl
  case refine_6 => -- IMG_LOCK
    intro s q c hfront hrun hrole hle
    refine does_granted hfront hrun hrole rfl ?_
    obtain ⟨Q, hQ⟩ := takeEvent_eq c s
    rw [hQ, doImgLock_ok hle]
    obtain ⟨hregs, hupd, -, -, hrest⟩ := slots_answerCmd (a := { st := putBoot { s.upd with lock := field c.raw 8 1 == 1 } { s with mcc.queues := Q } })
      (standardFront_mem _ _ _ _ hfront) (slots_putBoot { s.upd with lock := field c.raw 8 1 == 1 } ⟨rfl, rfl, rfl, rfl, rfl⟩) rfl
    exact ⟨hregs, hupd, hrest⟩
  case refine_7 => exact fun s q c bad hfront hrun hrole => does_denied hfront hrun hrole rfl
  case refine_8 => exact fun s q c hfront hrun hrole => does_denied hfront hrun hrole rfl
  case refine_9 => exact fun s q c hfront hrun hrole => does_denied hfront hrun hrole rfl
  case refine_10 => exact fun s q c hfront hrun hrole => does_denied hfront hrun hrole rfl
  case refine_11 => exact fun s q c hfront hrun hrole => does_denied hfront hrun hrole rfl

end Sys2Proof.Machine

namespace Sys2Proof.Machine

/-! ## Event records (R441, R442) -/

/-- With Lake READY and nothing staged a record goes to the ring. -/
theorem recEventL_ready {typ : Nat} {legal : Bool} {d : List Byte} {s : State} (hr : s.lake.ready = true) (hs : s.evr.staged = []) :
    recEventL typ legal d s = ringAppend (evMake typ legal d s) { s with evr.eseq := s.evr.eseq + 1 } := by
  unfold recEventL
  dsimp only
  rw [if_pos ⟨hr, by rw [hs]; rfl⟩]

/-- Before that it waits in staging while there is room. -/
theorem recEventL_staged {typ : Nat} {legal : Bool} {d : List Byte} {s : State} (hr : s.lake.ready = false ∨ s.evr.staged ≠ [])
    (hroom : s.evr.stagedBytes + evLen d ≤ 65536) :
    recEventL typ legal d s = { s with evr.staged := s.evr.staged ++ [evMake typ legal d s], evr.eseq := s.evr.eseq + 1 } := by
  unfold recEventL
  dsimp only
  rw [if_neg, if_pos hroom]
  rintro ⟨hready, hempty⟩
  rcases hr with h | h
  · rw [h] at hready
    exact absurd hready (by decide)
  · exact h (List.isEmpty_iff.mp hempty)

/-- The newest record of the ring is the one appended, at its place. -/
theorem ringAppend_last (e : EvRec) (s : State) : ∃ g p, (ringAppend e s).evr.ring.getLast? = some { e with seg := g, pos := p } :=
  ⟨_, _, List.getLast?_concat⟩

/-- An append moves the counters of the records written and of those reclaimed. -/
theorem counter_ringAppend {j : Nat} (h0 : j ≠ kRec 0) (h2 : j ≠ kRec 2) (e : EvRec) (s : State) : (ringAppend e s).counter j = s.counter j := by
  unfold ringAppend
  exact (counter_countN _ _ _ _).trans ((if_neg h2).trans (counter_count_ne h0 _))

theorem counter_recEvent {j : Nat} (h : ∀ i ∈ [0, 2, 3], j ≠ kRec i) (typ : Nat) (d : List Byte) (s : State) : (recEvent typ d s).counter j = s.counter j := by
  unfold recEvent recEventL
  dsimp only
  split
  · exact counter_ringAppend (h 0 (by simp)) (h 2 (by simp)) _ _
  · split
    · rfl
    · exact counter_count_ne (h 3 (by simp)) _

theorem counter_calling {j : Nat} {t rt i : Nat} (h2 : j ≠ kMcc t 2) (h9 : j ≠ kMcc t 9) (s : State) : (calling t rt i s).counter j = s.counter j := by
  unfold calling
  dsimp only
  rw [counter_count_ne h2, counter_countIf]
  split
  · next hc => exact absurd hc.2 h9
  · rfl

/-- A record whose type, size and level R442 admits is written, and its ESEQ answered. -/
theorem engRecWrite_ok {t : Nat} {b d : List Byte} {s : State} (hz : zeros b 4 4 = true)
    (hb : 0x7000 ≤ field b 0 2 ∧ field b 2 2 ≤ 992 ∧ (field b 0 2 < 0x8000 → (s.thr t).level = .legal)) (hd : s.readBuf t (field b 8 8) (field b 2 2) = .ok d) :
    engRecWrite t b s = { st := count (kRec 1) (recEventL (field b 0 2) (decide ((s.thr t).level = .legal)) d s), status := stOk,
                          out := [(8, le 8 s.evr.eseq.toNat)] } := by
  obtain ⟨htyp, hlen, hlevel⟩ := hb
  unfold engRecWrite
  dsimp only
  rw [if_neg, hd]
  rintro (h | h | ⟨hlt, hno⟩ | h)
  · rw [hz] at h
    exact absurd h (by decide)
  · omega
  · rw [hlevel hlt] at hno
    exact absurd hno (by decide)
  · omega

theorem engRecWrite_refused {t : Nat} {b : List Byte} {s : State}
    (h : field b 0 2 < 0x7000 ∨ (field b 0 2 < 0x8000 ∧ (s.thr t).level ≠ .legal) ∨ 992 < field b 2 2) : engRecWrite t b s = .fail s stBadArg := by
  unfold engRecWrite
  dsimp only
  rw [if_pos]
  rcases h with h | ⟨hlt, hl⟩ | h
  · exact Or.inr (Or.inl h)
  · exact Or.inr (Or.inr (Or.inl ⟨hlt, by simp [hl]⟩))
  · exact Or.inr (Or.inr (Or.inr h))

/-! ## The drain of the staging area (R442, R446) -/

/-- Appending records to the ring leaves every other part of the recorder's work as it is. -/
theorem foldl_ringAppend (l : List EvRec) : ∀ s : State, ∃ (ring : List EvRec) (pos : Nat) (wrapped : Bool) (ctr : Map (BitVec 64)),
    l.foldl (fun s e => ringAppend e s) s = { s with evr.ring := ring, evr.pos := pos, evr.wrapped := wrapped, ctr := ctr } := by
  induction l with
  | nil => exact fun s => ⟨_, _, _, _, rfl⟩
  | cons e l ih =>
    intro s
    obtain ⟨ring, pos, wrapped, ctr, h⟩ := ih (ringAppend e s)
    exact ⟨ring, pos, wrapped, ctr, h⟩

/-- On a READY Lake with nothing staged a record leaves nothing staged, dropped or under way. -/
def Drained (s u : State) : Prop :=
  u.evr.staged = [] ∧ u.evr.clears = s.evr.clears ∧ u.evr.clearing = s.evr.clearing ∧ u.lake.ready = true ∧
  u.ldg = s.ldg ∧ u.ing = s.ing ∧ u.woad = s.woad

theorem Drained.recEvent {s u : State} (h : Drained s u) (typ : Nat) (d : List Byte) : Drained s (recEvent typ d u) := by
  obtain ⟨hstaged, hclears, hclearing, hready, hldg, hing, hwoad⟩ := h
  unfold Machine.recEvent
  rw [recEventL_ready hready hstaged]
  exact ⟨hstaged, hclears, hclearing, hready, hldg, hing, hwoad⟩

theorem dropped_recEvent {s u : State} (h : Drained s u) (typ : Nat) (d : List Byte) : (recEvent typ d u).evr.dropped = u.evr.dropped := by
  unfold recEvent
  rw [recEventL_ready h.2.2.2.1 h.1]
  rfl

/-- The state before the next clear: staging is in the ring, the drops and DEBUG_ENABLED are recorded. -/
def drainStaged (s : State) : State :=
  let s1 := s.evr.staged.foldl (fun s e => ringAppend e s) { s with evr.staged := [] }
  let s2 := if s1.evr.dropped = 0 then s1 else recEvent 0x000C (le 4 s1.evr.dropped ++ zeroBytes 4) { s1 with evr.dropped := 0 }
  if s2.stest.debugDue then recEvent 0x000D (zeroBytes 8) { s2 with stest.debugDue := false } else s2

theorem exec_eventStagingDrain {s : State} (hr : s.lake.ready = true) : exec .eventStagingDrain s = onClock s (nextClear (drainStaged s)) := by
  change onClock s (if !s.lake.ready then s else nextClear (drainStaged s)) = _
  rw [if_neg (by simp [hr])]

theorem drained_drainStaged {s : State} (hr : s.lake.ready = true) :
    Drained s (drainStaged s) ∧ (drainStaged s).evr.dropped = 0 ∧ (drainStaged s).stest.debugDue = false := by
  obtain ⟨ring, pos, wrapped, ctr, hfold⟩ := foldl_ringAppend s.evr.staged { s with evr.staged := [] }
  have h1 : Drained s (s.evr.staged.foldl (fun s e => ringAppend e s) { s with evr.staged := [] }) := by
    rw [hfold]
    exact ⟨rfl, rfl, rfl, hr, rfl, rfl, rfl⟩
  unfold drainStaged
  dsimp only
  generalize s.evr.staged.foldl (fun s e => ringAppend e s) { s with evr.staged := [] } = s1 at h1 ⊢
  have h2 : Drained s (if s1.evr.dropped = 0 then s1 else recEvent 0x000C (le 4 s1.evr.dropped ++ zeroBytes 4) { s1 with evr.dropped := 0 }) ∧
      (if s1.evr.dropped = 0 then s1 else recEvent 0x000C (le 4 s1.evr.dropped ++ zeroBytes 4) { s1 with evr.dropped := 0 }).evr.dropped = 0 := by
    have h0 : Drained s { s1 with evr.dropped := 0 } := h1
    split
    · next hd => exact ⟨h1, hd⟩
    · exact ⟨h0.recEvent _ _, dropped_recEvent h0 _ _⟩
  generalize (if s1.evr.dropped = 0 then s1 else recEvent 0x000C (le 4 s1.evr.dropped ++ zeroBytes 4) { s1 with evr.dropped := 0 }) = s2 at h2 ⊢
  have h0 : Drained s { s2 with stest.debugDue := false } := h2.1
  split
  · exact ⟨h0.recEvent _ _, (dropped_recEvent h0 _ _).trans h2.2, by rw [recEvent_stest]⟩
  · next hd => exact ⟨h2.1, h2.2, by simpa using hd⟩

theorem nextClear_waits {s : State} (h : s.evr.clears = [] ∨ s.evr.clearing.isSome = true) : nextClear s = s := by
  unfold nextClear
  split
  · rfl
  · next c l hc =>
    rw [if_neg]
    rintro ⟨-, -, hnone⟩
    rcases h with h | h
    · rw [h] at hc
      exact absurd hc (by simp)
    · rw [hnone] at h
      exact absurd h (by decide)

/-- The clear that waited longest begins, and leaves the recorder drained. -/
theorem nextClear_begins {s : State} {x : Nat × Nat × Nat} {l : List (Nat × Nat × Nat)} (hx : s.evr.clears = x :: l) (hc : s.evr.clearing = none)
    (hs : s.evr.staged = []) (hr : s.lake.ready = true) :
    (nextClear s).evr.staged = [] ∧ (nextClear s).evr.dropped = s.evr.dropped ∧ (nextClear s).evr.clears = l ∧
    (nextClear s).evr.clearing.map (·.no) = some x.1 ∧ (nextClear s).stest = s.stest ∧
    (nextClear s).ldg = s.ldg ∧ (nextClear s).ing = s.ing ∧ (nextClear s).woad = s.woad := by
  have hnext : nextClear s = clearBegin x.1 x.2.1 x.2.2 { s with evr.clears := l } := by
    unfold nextClear
    rw [hx]
    dsimp only
    rw [if_pos ⟨hr, hs, hc⟩]
  rw [hnext]
  unfold clearBegin recEvent
  dsimp only
  rw [sepWrite_frame, recEventL_ready (by exact hr) (by exact hs)]
  exact ⟨hs, rfl, rfl, rfl, rfl, rfl, rfl, rfl⟩

/-- One staged record, with nothing else due, moves to the ring. -/
theorem drainStaged_one {s : State} {e : EvRec} (hs : s.evr.staged = [e]) (hd : s.evr.dropped = 0) (hdbg : s.stest.debugDue = false) :
    drainStaged s = ringAppend e { s with evr.staged := [] } := by
  unfold drainStaged
  rw [hs]
  dsimp only [List.foldl]
  have hdropped : (ringAppend e { s with evr.staged := [] }).evr.dropped = 0 := hd
  have hdebug : (ringAppend e { s with evr.staged := [] }).stest.debugDue = false := hdbg
  generalize ringAppend e { s with evr.staged := [] } = a at hdropped hdebug ⊢
  rw [if_pos hdropped, hdebug, if_neg (by decide)]

end Sys2Proof.Machine

namespace Sys2Proof.Machine

/-! ## The online self-test (R452, R453) -/

/-- A record of the ring is its newest. -/
theorem sepWrite_head {typ : Nat} (h : 0x100 ≤ typ) (body : List Byte) (s : State) :
    ∃ r, (sepWrite typ body s).sepia.ring.head? = some r ∧ r.typ = typ ∧ r.body = body := by
  unfold sepWrite
  rw [if_neg (by omega), if_neg (by omega)]
  exact ⟨_, rfl, rfl, rfl⟩

theorem counter_sepWrite {j : Nat} (h : j ≠ kRec 5) (typ : Nat) (body : List Byte) (s : State) : (sepWrite typ body s).counter j = s.counter j := by
  unfold sepWrite
  split
  · split
    · exact counter_count_ne h _
    · exact counter_count_ne h _
  · split
    · exact counter_count_ne h _
    · exact counter_count_ne h _

/-- A failed item is in the mask, and Ochre's newest record names it. -/
theorem testFailed_frame (scope item : Nat) (s : State) : testFailed scope item s =
    { s with stest.failedNow := s.stest.failedNow ||| BitVec.ofNat 32 (2 ^ item), sepia := (testFailed scope item s).sepia, ctr := (testFailed scope item s).ctr } := by
  unfold testFailed
  dsimp only
  conv => lhs; rw [sepWrite_frame]
  rfl

theorem testFailed_head {item : Nat} (scope : Nat) (s : State) (h : item < 32) :
    ∃ r, (testFailed scope item s).sepia.ring.head? = some r ∧ r.typ = 0x010A ∧ r.body = le 1 scope ++ zeroBytes 3 ++ le 4 (2 ^ item) := by
  have hmask : (BitVec.ofNat 32 (2 ^ item)).toNat = 2 ^ item := by
    rw [BitVec.toNat_ofNat, Nat.mod_eq_of_lt (Nat.pow_lt_pow_right (by omega) h)]
  have hhead := sepWrite_head (typ := 0x010A) (by omega) (le 1 scope ++ zeroBytes 3 ++ le 4 (BitVec.ofNat 32 (2 ^ item)).toNat)
    { s with stest.failedNow := s.stest.failedNow ||| BitVec.ofNat 32 (2 ^ item) }
  rw [hmask] at hhead
  unfold testFailed
  dsimp only
  rw [hmask]
  exact hhead

/-- A reported result is in the registers and in a record, and posted. -/
theorem reportTest_frame (scope : Nat) (mask : BitVec 32) (s : State) : reportTest scope mask s =
    { s with stest := { s.stest with scope := scope == 1, result := mask != 0, failed := mask }, evr := (reportTest scope mask s).evr,
             hp := (reportTest scope mask s).hp, glb := (reportTest scope mask s).glb, ctr := (reportTest scope mask s).ctr } := by
  unfold reportTest
  dsimp only
  have hrec := recEvent_frame 0x000B (le 1 scope ++ le 1 (flag (mask != 0)) ++ zeroBytes 2 ++ le 4 mask.toNat)
    { s with stest := { s.stest with scope := scope == 1, result := mask != 0, failed := mask } }
  generalize recEvent 0x000B (le 1 scope ++ le 1 (flag (mask != 0)) ++ zeroBytes 2 ++ le 4 mask.toNat)
    { s with stest := { s.stest with scope := scope == 1, result := mask != 0, failed := mask } } = r at hrec ⊢
  conv => lhs; rw [postNotice_frame]
  rw [postNotice_evr, hrec]

/-- Of the GLB block a report leaves all but NQ_OVF. -/
theorem reportTest_glb (scope : Nat) (mask : BitVec 32) (s : State) :
    (reportTest scope mask s).glb = { s.glb with nqOvf := (reportTest scope mask s).glb.nqOvf } := by
  unfold reportTest
  dsimp only
  conv => lhs; rw [postNotice_glb, recEvent_glb]

theorem posts_reportTest (scope : Nat) (mask : BitVec 32) (s : State) :
    Posts 0x0D02 1 (le 1 scope ++ le 1 (flag (mask != 0)) ++ zeroBytes 2 ++ le 4 mask.toNat) s (reportTest scope mask s) := by
  unfold reportTest
  dsimp only
  exact (posts_postNotice _ _ _ _).congr_left (by rw [recEvent_hp]) (by rw [recEvent_hp])

theorem counter_reportTest {j : Nat} (hr : ∀ i ∈ [0, 2, 3], j ≠ kRec i) (hn : ∀ i ∈ [11, 12, 13, 14], j ≠ kHp i) (scope : Nat) (mask : BitVec 32) (s : State) :
    (reportTest scope mask s).counter j = s.counter j := by
  unfold reportTest
  dsimp only
  rw [counter_postNotice hn, counter_recEvent hr]
  rfl

theorem nextStep_ne {n : Nat} (h : n ≠ 94) (s : State) : nextStep n s = { s with stest.nextBank := if n = 95 then 0 else n + 1 } := by
  unfold nextStep
  rw [if_neg h]

theorem nextStep_last (s : State) : nextStep 94 s = reportTest 1 s.stest.failedNow { s with stest.nextBank := 95, stest.failedNow := 0 } := rfl

/-- What a step of the rotation leaves alone; but for its last one the mask and Ochre's records too. -/
theorem nextStep_leaves (n : Nat) (s : State) :
    (nextStep n s).stest.unitsOut = s.stest.unitsOut ∧ (nextStep n s).cpm = s.cpm ∧ (n ≠ 94 → (nextStep n s).sepia = s.sepia ∧ (nextStep n s).stest.failedNow = s.stest.failedNow) ∧
    (nextStep n s).ldg = s.ldg ∧ (nextStep n s).ing = s.ing ∧ (nextStep n s).lake = s.lake ∧ (nextStep n s).woad = s.woad := by
  by_cases h : n = 94
  · rw [h, nextStep_last, reportTest_frame]
    exact ⟨rfl, rfl, fun hne => absurd rfl hne, rfl, rfl, rfl, rfl⟩
  · rw [nextStep_ne h]
    exact ⟨rfl, rfl, fun _ => ⟨rfl, rfl⟩, rfl, rfl, rfl, rfl⟩

/-- The bank's part of a step: its relocation begins, or the rotation passes it by. -/
def bankStep (s : State) : State :=
  if !s.marchRuns then nextStep s.stest.nextBank s
  else if s.stest.nextBank = 95 then { s with stest.bank := 95 }
  else { s with stest.bank := s.stest.nextBank, glb.reloc := .copyOut }

theorem bankStep_leaves (s : State) :
    (bankStep s).stest.unitsOut = s.stest.unitsOut ∧ (bankStep s).cpm = s.cpm ∧
    (s.stest.nextBank ≠ 94 → (bankStep s).sepia = s.sepia ∧ (bankStep s).stest.failedNow = s.stest.failedNow) ∧
    (bankStep s).ldg = s.ldg ∧ (bankStep s).ing = s.ing ∧ (bankStep s).lake = s.lake ∧ (bankStep s).woad = s.woad := by
  unfold bankStep
  split
  · exact nextStep_leaves _ _
  · split
    · exact ⟨rfl, rfl, fun _ => ⟨rfl, rfl⟩, rfl, rfl, rfl, rfl⟩
    · exact ⟨rfl, rfl, fun _ => ⟨rfl, rfl⟩, rfl, rfl, rfl, rfl⟩

/-- A step is due: the mode, and 10 s since the last. -/
theorem exec_onlineTestStep {s : State} {item : Fin 6} (unit : Fin 256) (ok : Bool)
    (hs : (s.glb.mode = .service ∨ s.glb.mode = .standby) ∧ s.stest.frozen = false ∧ s.cpm.drain = .none ∧ s.stest.bank = 0x7F)
    (hd : 2 ≤ item.val ∧ (s.stest.running = true → s.stest.testAt + 10000000000 ≤ s.nowNs)) :
    exec (.onlineTestStep item unit ok) s = .next (bankStep (katStep item unit ok { s with stest.running := true, stest.testAt := s.nowNs })) := by
  obtain ⟨hmode, hfrozen, hdrain, hbank⟩ := hs
  obtain ⟨hitem, hdue⟩ := hd
  refine congrArg Host.Outcome.next (if_neg ?_)
  rintro (h | h | h | h | ⟨hrun, hlt⟩ | h)
  · rcases hmode with hm | hm <;> simp [hm] at h
  · rw [hfrozen] at h
    exact absurd h (by decide)
  · exact h hdrain
  · omega
  · have hle := hdue hrun
    omega
  · exact h hbank

theorem exec_onlineTestStep_stays {s : State} {item : Fin 6} (unit : Fin 256) (ok : Bool)
    (h : item.val < 2 ∨ s.stest.bank ≠ 0x7F ∨ s.stest.frozen = true ∨ (s.stest.running = true ∧ s.nowNs < s.stest.testAt + 10000000000)) :
    exec (.onlineTestStep item unit ok) s = .next s := by
  refine congrArg Host.Outcome.next (if_pos ?_)
  rcases h with h | h | h | h
  · exact Or.inr (Or.inr (Or.inr (Or.inl h)))
  · exact Or.inr (Or.inr (Or.inr (Or.inr (Or.inr h))))
  · exact Or.inr (Or.inl h)
  · exact Or.inr (Or.inr (Or.inr (Or.inr (Or.inl h))))

/-- A failed unit is out of service, recorded, and counted among the failed items. -/
def katFailed (item unit : Nat) (s : State) : State :=
  testFailed 1 item (recEvent 0x000E (le 1 item ++ le 1 unit ++ zeroBytes 6)
    { count (kRec 8) s with stest.unitsOut := s.stest.unitsOut.put false (item * 256 + unit) true })

theorem katStep_failed (item unit : Nat) (s : State) : katStep item unit false s =
    if (katFailed item unit s).kindGone item unit then { katFailed item unit s with cpm.resetDue := some 3 } else katFailed item unit s := rfl

theorem katFailed_does (item unit : Nat) (s : State) :
    (katFailed item unit s).stest = { s.stest with unitsOut := s.stest.unitsOut.put false (item * 256 + unit) true,
                                                   failedNow := s.stest.failedNow ||| BitVec.ofNat 32 (2 ^ item) } ∧
    (katFailed item unit s).ldg = s.ldg ∧ (katFailed item unit s).ing = s.ing ∧ (katFailed item unit s).lake = s.lake ∧ (katFailed item unit s).woad = s.woad := by
  unfold katFailed
  rw [testFailed_frame, recEvent_frame]
  exact ⟨rfl, rfl, rfl, rfl, rfl⟩

/-- What a KAT that fails does, whatever bank's turn it is. -/
theorem katStep_failed_does {item unit : Nat} (s : State) (h : item < 32) :
    (katStep item unit false s).stest = { s.stest with unitsOut := s.stest.unitsOut.put false (item * 256 + unit) true,
                                                       failedNow := s.stest.failedNow ||| BitVec.ofNat 32 (2 ^ item) } ∧
    (item = 4 → (katStep item unit false s).cpm.resetDue = some 3) ∧
    (∃ r, (katStep item unit false s).sepia.ring.head? = some r ∧ r.typ = 0x010A ∧ r.body = le 1 1 ++ zeroBytes 3 ++ le 4 (2 ^ item)) ∧
    (katStep item unit false s).ldg = s.ldg ∧ (katStep item unit false s).ing = s.ing ∧ (katStep item unit false s).lake = s.lake ∧
    (katStep item unit false s).woad = s.woad := by
  obtain ⟨hstest, hrest⟩ := katFailed_does item unit s
  have hhead : ∃ r, (katFailed item unit s).sepia.ring.head? = some r ∧ r.typ = 0x010A ∧ r.body = le 1 1 ++ zeroBytes 3 ++ le 4 (2 ^ item) := testFailed_head _ _ h
  rw [katStep_failed]
  split
  · exact ⟨hstest, fun _ => rfl, hhead, hrest⟩
  · next hgone =>
    refine ⟨hstest, fun h4 => absurd ?_ hgone, hhead, hrest⟩
    subst h4
    unfold State.kindGone
    dsimp only
    rw [if_neg (by omega), if_pos (by omega)]

end Sys2Proof.Machine

namespace Sys2Proof.Machine

/-! ## The march of a bank (R20, R452) -/

/-- The last bank of a rotation goes back, and the rotation is reported. -/
theorem bankCopyComplete_last {s : State} (hr : s.coresRun = true) (hb : s.glb.reloc = .copyBack) (hn : s.stest.bank = 94) :
    exec .bankCopyComplete s =
      .next (reportTest 1 s.stest.failedNow { s with glb.reloc := .none, glb.spareBank := 0x7F, stest.bank := 0x7F, stest.nextBank := 95, stest.failedNow := 0 }) := by
  change Host.Outcome.next _ = _
  rw [if_neg (by simp [hr]), hb, hn]
  rfl

theorem bankCopyComplete_back {s : State} (hr : s.coresRun = true) (hb : s.glb.reloc = .copyBack) (hn : s.stest.bank ≠ 94) :
    exec .bankCopyComplete s =
      .next { s with glb.reloc := .none, glb.spareBank := 0x7F, stest.bank := 0x7F, stest.nextBank := if s.stest.bank = 95 then 0 else s.stest.bank + 1 } := by
  change Host.Outcome.next _ = _
  rw [if_neg (by simp [hr]), hb]
  exact congrArg Host.Outcome.next (nextStep_ne hn _)

theorem bankCopyComplete_out {s : State} (hr : s.coresRun = true) (hb : s.glb.reloc = .copyOut) :
    exec .bankCopyComplete s = .next { s with glb.reloc := .active, glb.spareBank := s.stest.bank } := by
  change Host.Outcome.next _ = _
  rw [if_neg (by simp [hr]), hb]

theorem bankCopyComplete_stays {s : State} (h : s.coresRun = false ∨ s.glb.reloc = .none ∨ s.glb.reloc = .active) : exec .bankCopyComplete s = .next s := by
  refine congrArg Host.Outcome.next ?_
  rcases h with h | h | h
  · exact if_pos (by simp [h])
  · rw [h]
    exact ite_self s
  · rw [h]
    exact ite_self s

theorem bankTestComplete_back {s : State} (hr : s.coresRun = true) (hb : s.glb.reloc = .active) (hn : s.stest.bank ≠ 0x7F ∧ s.stest.bank ≠ 95) :
    exec (.bankTestComplete true) s = .next { count (kRec 7) s with glb.reloc := .copyBack } := by
  refine congrArg Host.Outcome.next ((if_neg ?_).trans ?_)
  · simp [hr, hb, hn]
  · dsimp only
    rw [if_pos rfl, if_neg (by simp [hn])]

theorem bankTestComplete_inPlace {s : State} (hr : s.coresRun = true) (hn : s.stest.bank = 95) :
    exec (.bankTestComplete true) s = .next { count (kRec 7) s with stest.bank := 0x7F, stest.nextBank := 0 } := by
  refine congrArg Host.Outcome.next ((if_neg ?_).trans ?_)
  · simp [hr, hn]
  · dsimp only
    rw [if_pos rfl, if_pos (by simp [hn]), nextStep_ne (by decide), if_pos rfl]

/-- The state in which the failure of a bank's march is reported. -/
def marchFailed (s : State) : State :=
  testFailed 1 9 { count (kRec 7) s with stest.bank := 0x7F, stest.sramStopped := true, glb.reloc := .none }

theorem bankTestComplete_failed {s : State} (hr : s.coresRun = true) (hb : s.glb.reloc = .active) (hn : s.stest.bank ≠ 0x7F ∧ s.stest.bank ≠ 95 ∧ s.stest.bank ≠ 94) :
    exec (.bankTestComplete false) s =
      .next { reportTest 1 (s.stest.failedNow ||| 0x200) (marchFailed s) with stest.nextBank := s.stest.bank + 1 } := by
  have hmask : (marchFailed s).stest.failedNow = s.stest.failedNow ||| 0x200 := by unfold marchFailed; rw [testFailed_frame]; rfl
  refine congrArg Host.Outcome.next ((if_neg ?_).trans ?_)
  · simp [hr, hb, hn]
  · dsimp only
    rw [if_neg (by decide)]
    change nextStep s.stest.bank (reportTest 1 (marchFailed s).stest.failedNow (marchFailed s)) = _
    rw [nextStep_ne hn.2.2, if_neg hn.2.1, hmask]

theorem marchFailed_frame (s : State) : marchFailed s =
    { s with stest := { s.stest with bank := 0x7F, sramStopped := true, failedNow := s.stest.failedNow ||| 0x200 }, glb.reloc := .none,
             sepia := (marchFailed s).sepia, ctr := (marchFailed s).ctr } := by
  unfold marchFailed
  conv => lhs; rw [testFailed_frame]
  rfl

theorem or_bit_ne_zero (m : BitVec 32) : ((m ||| 0x200) != 0) = true := by
  rw [bne_iff_ne]
  intro h
  have hbit := congrArg (fun v : BitVec 32 => v.getLsbD 9) h
  simp at hbit

theorem bankTestComplete_stays {s : State} (ok : Bool) (h : s.coresRun = false ∨ s.stest.bank = 0x7F) : exec (.bankTestComplete ok) s = .next s := by
  refine congrArg Host.Outcome.next (if_pos ?_)
  rcases h with h | h
  · exact Or.inl (by simp [h])
  · exact Or.inr (Or.inl h)

/-! ## Supply, minutes, temperature (R402, R417, R448, R480) -/

theorem vidStep_moves {s : State} {g : BitVec 4} (hm : s.glb.mode = .service ∨ s.glb.mode = .standby) (hf : s.stest.frozen = false)
    (hg : g ≠ s.cpm.vidCode ∧ s.cpm.vidAt + 100000 ≤ s.nowNs) : exec (.vidStep g) s =
      .next (count (kCpm 7) { s with cpm := { s.cpm with vidTarget := g, vidCode := if s.cpm.vidCode < g then s.cpm.vidCode + 1 else s.cpm.vidCode - 1, vidAt := s.nowNs } }) := by
  refine congrArg Host.Outcome.next ((if_neg ?_).trans (if_neg ?_))
  · rcases hm with h | h <;> simp [h, hf]
  · rintro (h | h)
    · exact hg.1 h
    · omega

theorem vidStep_waits {s : State} {g : BitVec 4} (hm : s.glb.mode = .service ∨ s.glb.mode = .standby) (hf : s.stest.frozen = false)
    (hg : g = s.cpm.vidCode ∨ s.nowNs < s.cpm.vidAt + 100000) : exec (.vidStep g) s = .next { s with cpm.vidTarget := g } := by
  refine congrArg Host.Outcome.next ((if_neg ?_).trans (if_pos hg))
  rcases hm with h | h <;> simp [h, hf]

theorem vidStep_stays {s : State} {g : BitVec 4} (h : (s.glb.mode ≠ .service ∧ s.glb.mode ≠ .standby) ∨ s.stest.frozen = true) : exec (.vidStep g) s = .next s := by
  refine congrArg Host.Outcome.next (if_pos ?_)
  rcases h with ⟨hservice, hstandby⟩ | hf
  · exact Or.inl (by simp [hservice, hstandby])
  · exact Or.inr hf

/-- The minutes after one more. -/
def Cpm.nextMinute (c : Cpm) : BitVec 32 := if c.opmin = 0xFFFFFFFF then c.opmin else c.opmin + 1

theorem exec_opminTick {s : State} (h : s.cpm.porstN = true) : exec .opminTick s = .next (satNotices (saveCounts { s with cpm.opmin := s.cpm.nextMinute })) :=
  congrArg Host.Outcome.next (if_neg (by simp [h]))

/-- `u` is `s` but for notices posted, and which saturations they told. -/
def Told (s u : State) : Prop :=
  u = { s with cpm := { s.cpm with opminPosted := u.cpm.opminPosted, pcyclePosted := u.cpm.pcyclePosted }, hp := u.hp, glb := u.glb, ctr := u.ctr }

theorem Told.trans {s u v : State} (h : Told s u) (h' : Told u v) : Told s v := by
  unfold Told at *
  rw [h', h]

/-- A saturation told by its notice. -/
theorem told_postNotice (code : Nat) (o p : Bool) (s : State) :
    Told s (postNotice code 1 [] { s with cpm.opminPosted := o, cpm.pcyclePosted := p }) := by
  unfold Told
  conv => lhs; rw [postNotice_frame]
  rw [postNotice_cpm]

/-- The notice of OPMIN, and that of PCYCLE after it. -/
def satMinutes (s : State) : State :=
  if s.cpm.opmin = 0xFFFFFFFF ∧ !s.cpm.opminPosted ∧ s.powered then postNotice 0x0D03 1 [] { s with cpm.opminPosted := true } else s

def satCycles (s : State) : State :=
  if s.cpm.pcycle = 0xFFFFFFFF ∧ !s.cpm.pcyclePosted ∧ s.powered then postNotice 0x0D04 1 [] { s with cpm.pcyclePosted := true } else s

theorem satNotices_eq (s : State) : satNotices s = satCycles (satMinutes s) := rfl

theorem told_satNotices (s : State) : Told s (satNotices s) := by
  have hm : Told s (satMinutes s) := by
    unfold satMinutes
    split
    · exact told_postNotice 0x0D03 true s.cpm.pcyclePosted s
    · rfl
  have hc : ∀ s : State, Told s (satCycles s) := by
    intro s
    unfold satCycles
    split
    · exact told_postNotice 0x0D04 s.cpm.opminPosted true s
    · rfl
  exact hm.trans (hc _)

/-- The copy with the lower number takes the counts, and the other stays. -/
theorem saveCounts_copies (s : State) :
    ((saveCounts s).sepia.copies.1.opmin = s.cpm.opmin ∧ (saveCounts s).sepia.copies.1.pcycle = s.cpm.pcycle ∧ (saveCounts s).sepia.copies.2 = s.sepia.copies.2) ∨
    ((saveCounts s).sepia.copies.2.opmin = s.cpm.opmin ∧ (saveCounts s).sepia.copies.2.pcycle = s.cpm.pcycle ∧ (saveCounts s).sepia.copies.1 = s.sepia.copies.1) := by
  unfold saveCounts
  dsimp only
  by_cases h : s.sepia.copies.1.cseq.ult s.sepia.copies.2.cseq
  · left
    rw [if_pos h, if_pos h]
    exact ⟨rfl, rfl, rfl⟩
  · right
    rw [if_neg h, if_neg h]
    exact ⟨rfl, rfl, rfl⟩

theorem saveCounts_frame (s : State) : saveCounts s = { s with sepia.copies := (saveCounts s).sepia.copies } := rfl

/-- The minute at which OPMIN saturates is told, while the Host Port can take it. -/
theorem satNotices_last {s : State} (h : s.cpm.opmin = 0xFFFFFFFF ∧ s.cpm.opminPosted = false ∧ s.powered = true) (hp : s.cpm.pcycle ≠ 0xFFFFFFFF) :
    satNotices s = postNotice 0x0D03 1 [] { s with cpm.opminPosted := true } := by
  obtain ⟨hmax, hposted, hpow⟩ := h
  have hm : satMinutes s = postNotice 0x0D03 1 [] { s with cpm.opminPosted := true } := if_pos ⟨hmax, by simp [hposted], hpow⟩
  rw [satNotices_eq, hm]
  unfold satCycles
  rw [if_neg]
  rw [postNotice_cpm]
  exact fun hc => hp hc.1

/-! ## Freeze (R454) -/

theorem exec_freeze {s : State} (hf : s.stest.frozen = false) (hm : s.glb.mode = .bringup ∨ s.glb.mode = .service ∨ s.glb.mode = .standby) :
    exec .freeze s = .next (count (kRec 10) (sepWrite 0x0108 (le 1 s.glb.mode.code ++ zeroBytes 7)
      { (if s.cas.paired && s.activeUnit then holdOutputs s else s) with stest := { s.stest with frozen := true } })) := by
  refine congrArg Host.Outcome.next ((if_neg ?_).trans ?_)
  · rcases hm with h | h | h <;> simp [h, hf]
  · by_cases hp : (s.cas.paired && s.activeUnit) = true
    · dsimp only
      rw [if_pos hp]
      rfl
    · dsimp only
      rw [if_neg hp]

theorem freeze_stays {s : State} (h : s.stest.frozen = true ∨ s.glb.mode = .off ∨ s.glb.mode = .holdup ∨ s.glb.mode = .vigil) : exec .freeze s = .next s := by
  refine congrArg Host.Outcome.next (if_pos ?_)
  rcases h with h | h | h | h
  · exact Or.inl h
  · exact Or.inr (by simp [h])
  · exact Or.inr (by simp [h])
  · exact Or.inr (by simp [h])

end Sys2Proof.Machine

namespace Sys2Proof.Machine

/-! ## JTAG instructions (R456, R460) -/

theorem loadIr_used {c : BitVec 6} (h : c ≠ 0x02 ∧ c ≠ 0x3F) (s : State) : loadIr c s = { s with stest.ir := c, stest.tapUsed := true } := by
  have hc : (c != 0x02 && c != 0x3F) = true := by simpa using h
  unfold loadIr
  rw [hc, Bool.or_true]

theorem loadIr_unused {c : BitVec 6} (h : c = 0x02 ∨ c = 0x3F) (s : State) : loadIr c s = { s with stest.ir := c } := by
  have hc : (c != 0x02 && c != 0x3F) = false := by rcases h with h | h <;> simp [h]
  unfold loadIr
  rw [hc, Bool.or_false]

/-- EXTEST while its gate lets it capture the cells, and when it acts as BYPASS. -/
theorem extest_captures {s : State} (h : s.cpm.porstN = false ∨ s.stest.frozen = true) :
    exec .extest s = .next (captureScan { s with stest.ir := 0x00, stest.tapUsed := true }) := by
  refine congrArg Host.Outcome.next ((if_pos ?_).trans (congrArg captureScan (loadIr_used (by decide) s)))
  exact h.imp (fun hp => by simp [hp]) id

theorem extest_bypasses {s : State} (h : s.cpm.porstN = true ∧ s.stest.frozen = false) :
    exec .extest s = .next (emit (.tap 0) { s with stest.ir := 0x00, stest.tapUsed := true }) := by
  refine congrArg Host.Outcome.next ((if_neg ?_).trans (congrArg (emit (.tap 0)) (loadIr_used (by decide) s)))
  simp [h]

/-! ## DDATA (R457, Table 17-9) -/

/-- The state once DDATA has captured status `st` and data `v`. -/
def captured (st v : Nat) (s : State) : State :=
  { s with stest.ir := 0x12, stest.tapUsed := true, stest.daddr := s.stest.daddr + 8, stest.ddata := BitVec.ofNat 66 (st * 2 ^ 64 + v % 2 ^ 64),
           out := .tap (BitVec.ofNat 66 (st * 2 ^ 64 + v % 2 ^ 64)).toNat :: s.out }

/-- A captured word fits its 66 bits. -/
theorem toNat_captured {st : Nat} (v : Nat) (h : st < 4) : (BitVec.ofNat 66 (st * 2 ^ 64 + v % 2 ^ 64)).toNat = st * 2 ^ 64 + v % 2 ^ 64 := by
  rw [BitVec.toNat_ofNat]
  have hv : v % 2 ^ 64 < 2 ^ 64 := Nat.mod_lt _ (by decide)
  exact Nat.mod_eq_of_lt (by omega)

/-- What DDATA does with the word its address names. -/
theorem exec_ddata_ok {s : State} {v : Nat} (h : s.probe (s.stest.daddr.toNat / 8 * 8) = .ok v) : exec .ddata s = .next (captured 0 v s) := by
  refine congrArg Host.Outcome.next ?_
  dsimp only
  rw [h, loadIr_used (by decide)]
  rfl

theorem exec_ddata_notFrozen {s : State} (h : s.probe (s.stest.daddr.toNat / 8 * 8) = .notFrozen) : exec .ddata s = .next (captured 2 0 s) := by
  refine congrArg Host.Outcome.next ?_
  dsimp only
  rw [h, loadIr_used (by decide)]
  rfl

theorem exec_ddata_poison {s : State} (h : s.probe (s.stest.daddr.toNat / 8 * 8) = .poison) : exec .ddata s = .next (captured 3 0 s) := by
  refine congrArg Host.Outcome.next ?_
  dsimp only
  rw [h, loadIr_used (by decide)]
  rfl

theorem exec_ddata_denied {s : State} (h : s.probe (s.stest.daddr.toNat / 8 * 8) = .denied) : exec .ddata s = .next (captured 1 0 (count (kRec 11) s)) := by
  refine congrArg Host.Outcome.next ?_
  dsimp only
  rw [h, loadIr_used (by decide)]
  rfl

/-- What an observer of DDATA sees when the word is answered, and when it is denied. -/
theorem captured_does {st : Nat} (v : Nat) (s : State) (h : st < 4) :
    (captured st v s).out = .tap (st * 2 ^ 64 + v % 2 ^ 64) :: s.out ∧
    (captured st v s).stest.daddr = s.stest.daddr + 8 ∧ (captured st v s).stest.ddata = BitVec.ofNat 66 (st * 2 ^ 64 + v % 2 ^ 64) ∧
    (captured st v s).stest.ir = 0x12 ∧ (captured st v s).stest.tapUsed = true ∧
    captured st v s = { s with stest.ir := (captured st v s).stest.ir, stest.tapUsed := (captured st v s).stest.tapUsed,
                               stest.daddr := (captured st v s).stest.daddr, stest.ddata := (captured st v s).stest.ddata, out := (captured st v s).out } :=
  ⟨congrArg (Out.tap · :: s.out) (toNat_captured v h), rfl, rfl, rfl, rfl, rfl⟩

/-- Registers of BAR0 may be read while the part is frozen. -/
theorem probe_bar0 {s : State} {a : Nat} (h0 : a / 2 ^ 32 = 0) (ha : a % 2 ^ 32 < 0x100000) : s.probe a =
    if s.stest.frozen then .ok (s.readReg (a % 2 ^ 32) + s.readReg (a % 2 ^ 32 + 4) * 2 ^ 32) else .notFrozen := by
  unfold State.probe
  dsimp only
  rw [h0]
  refine (if_neg (by omega)).trans ?_
  cases s.stest.frozen <;> rfl

/-- The cores' memories may be read with DEBUGSUB, while the part is frozen. -/
theorem probe_cores {s : State} {a : Nat} (h2 : a / 2 ^ 32 = 2) : s.probe a =
    if !s.woad.debugSub then .denied else if !s.stest.frozen then .notFrozen else s.probeCore (a % 2 ^ 32) := by
  unfold State.probe
  dsimp only
  rw [h2]
  rfl

theorem probeCore_imem {s : State} {o : Nat} (h : o < 0x800000) (hi : o % 0x20000 < 0x10000) : s.probeCore o =
    if s.mcc.poisonImem.get false ((o / 0x20000 * 0x10000 + o % 0x10000) / 8) then .poison
    else .ok (ofLe (readBytes s.mcc.imem (o / 0x20000 * 0x10000 + o % 0x10000) 8)) := by
  unfold State.probeCore
  dsimp only
  rw [if_neg (by omega), if_pos hi]

/-- A thread's PC is among what may be read without DEBUGSUB. -/
theorem probe_pc {s : State} {a : Nat} (h3 : a / 2 ^ 32 = 3) (ha : a % 2 ^ 32 < 0x40000) (hr : a % 2 ^ 32 % 0x400 = 0) (hf : s.stest.frozen = true) :
    s.probe a = .ok (s.thr (a % 2 ^ 32 / 0x400)).pc.toNat := by
  unfold State.probe
  dsimp only
  rw [h3]
  refine (if_neg (by omega)).trans ((if_neg (by simp [hf])).trans ?_)
  unfold State.probeThread
  dsimp only
  rw [if_neg (by omega), if_neg (by omega), hr]
  rfl

theorem probe_thread_denied {s : State} {a : Nat} (h3 : a / 2 ^ 32 = 3) (hr : 0x30 ≤ a % 2 ^ 32 % 0x400) (hd : s.woad.debugSub = false) : s.probe a = .denied := by
  unfold State.probe
  dsimp only
  rw [h3]
  exact if_pos ⟨by simp [hd], hr⟩

/-! ## Debug enablement (R309, R458) -/

/-- Closing a session changes the Host Port and a counter. -/
theorem closeSession_frame (i : Nat) (s : State) : closeSession i s = { s with hp := (closeSession i s).hp, ctr := (closeSession i s).ctr } := rfl

theorem session_closeSession (i k : Nat) (s : State) : (closeSession i s).session k = if k = i then none else s.session k := Map.find_del _ _ _

theorem foldl_closeSession_frame (l : List Nat) : ∀ s : State, ∃ (hp : Hp) (ctr : Map (BitVec 64)),
    l.foldl (fun s i => closeSession i s) s = { s with hp := hp, ctr := ctr } := by
  induction l with
  | nil => exact fun s => ⟨_, _, rfl⟩
  | cons i l ih =>
    intro s
    obtain ⟨hp, ctr, h⟩ := ih (closeSession i s)
    exact ⟨hp, ctr, h⟩

/-- Of the sessions in a list, none is left; every other is as it was. -/
theorem session_foldl_closeSession (l : List Nat) (k : Nat) : ∀ s : State,
    (l.foldl (fun s i => closeSession i s) s).session k = if k ∈ l then none else s.session k := by
  induction l with
  | nil => exact fun s => by simp
  | cons i l ih =>
    intro s
    rw [List.foldl_cons, ih, session_closeSession]
    by_cases hk : k = i
    · simp [hk]
    · simp [hk]

/-- A key that a map holds is among its entries. -/
theorem mem_of_find {α : Type} {m : Map α} {k : Nat} {v : α} (h : m.find k = some v) : (k, v) ∈ m := by
  induction m with
  | nil => cases h
  | cons e m ih =>
    obtain ⟨j, w⟩ := e
    unfold Map.find at h
    split at h
    · next hj =>
      cases h
      rw [hj]
      exact List.mem_cons_self
    · exact List.mem_cons_of_mem _ (ih h)

theorem closeSessions_frame (p : Session → Bool) (s : State) : ∃ (hp : Hp) (ctr : Map (BitVec 64)), closeSessions p s = { s with hp := hp, ctr := ctr } :=
  foldl_closeSession_frame _ s

/-- A session that is left was one before, and does not pass the test. -/
theorem session_closeSessions {p : Session → Bool} {s : State} {k : Nat} {x : Session} (h : (closeSessions p s).session k = some x) :
    s.session k = some x ∧ p x = false := by
  unfold closeSessions at h
  rw [session_foldl_closeSession] at h
  split at h
  · cases h
  · next hk =>
    refine ⟨h, ?_⟩
    refine Bool.eq_false_iff.mpr fun hp => ?_
    exact hk (List.mem_map.mpr ⟨(k, x), List.mem_filter.mpr ⟨mem_of_find h, by simpa using hp⟩, rfl⟩)

/-- DEBUG_ENABLE goes to the pinned area, or to the ring when it does not fit (R449). -/
theorem sepWrite_debugEnable (body : List Byte) (s : State) : ∃ r, ((sepWrite 0x0005 body s).sepia.pinned.head? = some r ∨
    (sepWrite 0x0005 body s).sepia.ring.head? = some r) ∧ r.typ = 0x0005 ∧ r.body = body := by
  unfold sepWrite
  rw [if_pos (by decide)]
  split
  · exact ⟨_, Or.inl rfl, rfl, rfl⟩
  · exact ⟨_, Or.inr rfl, rfl, rfl⟩

/-- The state in which DEBUG_ENABLE is recorded: the keys are substituted, what they did is ended, every session is closed. -/
def debugEntered (s : State) : State :=
  closeSessions (fun _ => true) (scrub (fun _ _ => true) { s with stest.ir := 0x13, stest.tapUsed := true, woad.debugSub := true, woad.pending := [] }).2

theorem exec_dbgen {s : State} {v : BitVec 32} (h : v = 0xDB6E0001 ∧ s.debugLock = false ∧ s.woad.debugSub = false ∧ s.cpm.porstN = true) :
    exec (.dbgen v) s = .next { sepWrite 0x0005 (zeroBytes 8) (debugEntered s) with stest.debugDue := true, cpm.resetDue := some 3 } := by
  obtain ⟨hv, hlock, hsub, hpor⟩ := h
  refine congrArg Host.Outcome.next ?_
  dsimp only
  rw [loadIr_used (by decide)]
  refine if_neg ?_
  rintro (h | h | h | h)
  · exact h hv
  · exact absurd (hlock.symm.trans h) (by decide)
  · exact absurd (hsub.symm.trans h) (by decide)
  · simp [hpor] at h

theorem exec_dbgen_ignored {s : State} {v : BitVec 32} (h : v ≠ 0xDB6E0001 ∨ s.debugLock = true ∨ s.woad.debugSub = true ∨ s.cpm.porstN = false) :
    exec (.dbgen v) s = .next { s with stest.ir := 0x13, stest.tapUsed := true } := by
  refine congrArg Host.Outcome.next ?_
  dsimp only
  rw [loadIr_used (by decide)]
  refine if_pos ?_
  rcases h with h | h | h | h
  · exact Or.inl h
  · exact Or.inr (Or.inl h)
  · exact Or.inr (Or.inr (Or.inl h))
  · exact Or.inr (Or.inr (Or.inr (by simp [h])))

/-- What the substitution ends, and what it leaves. -/
theorem debugEntered_does (s : State) :
    (debugEntered s).stest = { s.stest with ir := 0x13, tapUsed := true } ∧
    (debugEntered s).woad.debugSub = true ∧ (debugEntered s).woad.pending = [] ∧ (debugEntered s).woad.queued = [] ∧
    (∀ k x, (debugEntered s).session k = some x → x.open_ = false) ∧
    (debugEntered s).otp = s.otp ∧ (debugEntered s).ldg = s.ldg ∧ (debugEntered s).ing = s.ing ∧ (debugEntered s).lake = s.lake := by
  have hsession : ∀ k x, (debugEntered s).session k = some x → x.open_ = false := by
    intro k x hk
    have hno := (session_closeSessions hk).2
    exact absurd hno (by decide)
  refine ⟨?_, ?_, ?_, ?_, hsession, ?_, ?_, ?_, ?_⟩
  all_goals
    unfold debugEntered
    obtain ⟨hp, ctr, hclose⟩ := closeSessions_frame (fun _ => true) (scrub (fun _ _ => true) { s with stest.ir := 0x13, stest.tapUsed := true, woad.debugSub := true, woad.pending := [] }).2
    obtain ⟨mcc, rla, m, f, ctr', hscrub⟩ := scrub_frame (fun _ _ => true) { s with stest.ir := 0x13, stest.tapUsed := true, woad.debugSub := true, woad.pending := [] }
    rw [hclose, hscrub]
  exact List.filter_eq_nil_iff.mpr fun e _ => by simp [KeyOp.doomed]

end Sys2Proof.Machine

namespace Sys2Proof.Machine

/-- A call leaves its thread's level. -/
theorem level_calling (t rt i : Nat) (s : State) : ((calling t rt i s).thr t).level = (s.thr t).level := by
  rw [thr_calling_self]
  split
  · simp
  · simp

theorem kRec_ne_kMcc {i k : Nat} (t : Fin 256) (hi : i < 16 := by omega) (hk : k < 16 := by omega) : kRec i ≠ kMcc t k := by
  unfold kRec kMcc
  omega

/-- What REC_WRITE answers for a record that goes to the ring, in a state `v` whose recorder and counts are those of `s`. -/
theorem recWritten_ring {typ : Nat} {legal : Bool} {d : List Byte} {s v : State} (hevr : v.evr = s.evr) (hcpm : v.cpm = s.cpm)
    (hcount : v.counter (kRec 1) = s.counter (kRec 1)) (hr : v.lake.ready = true) (hs : s.evr.staged = []) :
    let r : EngOut := { st := count (kRec 1) (recEventL typ legal d v), status := stOk, out := [(8, le 8 v.evr.eseq.toNat)] }
    r.good [(8, le 8 s.evr.eseq.toNat)] ∧
    (∃ e, r.st.evr.ring.getLast? = some e ∧ e.typ = typ ∧ e.data = d ∧ e.eseq = s.evr.eseq ∧ e.opmin = s.cpm.opmin ∧ e.pcycle = s.cpm.pcycle) ∧
    r.st.evr.eseq = s.evr.eseq + 1 ∧ r.st.counter (kRec 1) = s.counter (kRec 1) + 1 ∧ r.st = { v with evr := r.st.evr, ctr := r.st.ctr } := by
  intro r
  have hst : r.st = count (kRec 1) (ringAppend (evMake typ legal d v) { v with evr.eseq := v.evr.eseq + 1 }) :=
    congrArg (count (kRec 1)) (recEventL_ready hr (by rw [hevr]; exact hs))
  obtain ⟨g, n, hlast⟩ := ringAppend_last (evMake typ legal d v) { v with evr.eseq := v.evr.eseq + 1 }
  rw [hst]
  refine ⟨⟨rfl, congrArg (fun e : Recorder => [(8, le 8 e.eseq.toNat)]) hevr, rfl⟩, ⟨_, hlast, rfl, rfl, ?_, ?_, ?_⟩,
    congrArg (fun e : Recorder => e.eseq + 1) hevr, ?_, rfl⟩
  · exact congrArg Recorder.eseq hevr
  · exact congrArg Cpm.opmin hcpm
  · exact congrArg Cpm.pcycle hcpm
  · rw [counter_count, if_pos rfl, counter_ringAppend (by decide) (by decide)]
    exact congrArg (· + 1) hcount

/-- The same for a record that waits in staging. -/
theorem recWritten_staged {typ : Nat} {legal : Bool} {d : List Byte} {s v : State} (hevr : v.evr = s.evr) (hcpm : v.cpm = s.cpm)
    (hr : v.lake.ready = false ∨ s.evr.staged ≠ []) (hroom : s.evr.stagedBytes + evLen d ≤ 65536) :
    let r : EngOut := { st := count (kRec 1) (recEventL typ legal d v), status := stOk, out := [(8, le 8 v.evr.eseq.toNat)] }
    r.good [(8, le 8 s.evr.eseq.toNat)] ∧
    (∃ e, r.st.evr.staged = s.evr.staged ++ [e] ∧ e.typ = typ ∧ e.data = d ∧ e.eseq = s.evr.eseq ∧ e.opmin = s.cpm.opmin ∧ e.pcycle = s.cpm.pcycle) ∧
    r.st.evr.eseq = s.evr.eseq + 1 ∧ r.st.evr.ring = s.evr.ring ∧ r.st = { v with evr := r.st.evr, ctr := r.st.ctr } := by
  intro r
  have hst : r.st = count (kRec 1) { v with evr.staged := v.evr.staged ++ [evMake typ legal d v], evr.eseq := v.evr.eseq + 1 } :=
    congrArg (count (kRec 1)) (recEventL_staged (by rw [hevr]; exact hr) (by rw [hevr]; exact hroom))
  rw [hst]
  refine ⟨⟨rfl, congrArg (fun e : Recorder => [(8, le 8 e.eseq.toNat)]) hevr, rfl⟩,
    ⟨_, congrArg (fun e : Recorder => e.staged ++ [evMake typ legal d v]) hevr, rfl, rfl, ?_, ?_, ?_⟩,
    congrArg (fun e : Recorder => e.eseq + 1) hevr, (congrArg Recorder.ring hevr : v.evr.ring = s.evr.ring), rfl⟩
  · exact congrArg Recorder.eseq hevr
  · exact congrArg Cpm.opmin hcpm
  · exact congrArg Cpm.pcycle hcpm

/-- After a KAT that passed, the bank whose turn it is begins its test. -/
theorem bankStep_passed {s : State} {item unit : Nat} (hstop : s.stest.sramStopped = false) (hspare : s.glb.spareBank = 0x7F) :
    bankStep (katStep item unit true { s with stest.running := true, stest.testAt := s.nowNs }) =
      if s.stest.nextBank = 95 then { count (kRec 8) s with stest.running := true, stest.testAt := s.nowNs, stest.bank := 95 }
      else { count (kRec 8) s with stest.running := true, stest.testAt := s.nowNs, stest.bank := s.stest.nextBank, glb.reloc := .copyOut } := by
  refine if_neg ?_
  change ¬ (!(!s.stest.sramStopped && (s.glb.spareBank == 0x7F || s.glb.reloc != .none))) = true
  rw [hstop, hspare]
  simp

/-- The failure of a march is counted. -/
theorem counter_marchFailed (s : State) : (marchFailed s).counter (kRec 9) = s.counter (kRec 9) + 1 := by
  unfold marchFailed testFailed
  dsimp only
  rw [counter_count, if_pos rfl, counter_sepWrite (by decide)]
  exact congrArg (· + 1) (counter_count_ne (by decide) s)

/-- Settles O60: each event of the recorder, the self-test, the supply, the freeze and the TAP, by what its instruction does in that case. -/
theorem recorderTestAndDebug : Obligations.RecorderTestAndDebug := by
  unfold Obligations.RecorderTestAndDebug
  refine ⟨?_, ?_, ?_, ?_, ?_, ?_, ?_, ?_, ?_, ?_, ?_, ?_, ?_, ?_, ?_, ?_, ?_, ?_, ?_, ?_, ?_, ?_, ?_, ?_, ?_, ?_, ?_, ?_, ?_, ?_, ?_, ?_, ?_, ?_, ?_, ?_, ?_, ?_, ?_, ?_, ?_, ?_, ?_, ?_, ?_, ?_, ?_, ?_, ?_, ?_, ?_⟩
  case refine_1 => -- REC_WRITE to the ring
    rintro s t pi rt ra p i b d q h hb ⟨hz, htyp, hlen, hlevel⟩ hq hpoison hd ⟨hready, hstaged⟩
    refine answers_ecall h rfl ((congrArg (engRecWrite t · _) hb).trans (engRecWrite_ok hz ⟨htyp, hlen, fun hlt => (level_calling t rt i s).trans (hlevel hlt)⟩
      ((readBuf_calling_ok hq hpoison).trans (congrArg Except.ok hd)))) ?_
    exact recWritten_ring (calling_evr t rt i s) (calling_cpm t rt i s) (counter_calling (kRec_ne_kMcc t) (kRec_ne_kMcc t) s)
      ((congrArg Lake.ready (calling_lake t rt i s)).trans hready) hstaged
  case refine_2 => -- REC_WRITE to staging
    rintro s t pi rt ra p i b d q h hb ⟨hz, htyp, hlen, hlevel⟩ hq hpoison hd ⟨hwait, hroom⟩
    refine answers_ecall h rfl ((congrArg (engRecWrite t · _) hb).trans (engRecWrite_ok hz ⟨htyp, hlen, fun hlt => (level_calling t rt i s).trans (hlevel hlt)⟩
      ((readBuf_calling_ok hq hpoison).trans (congrArg Except.ok hd)))) ?_
    exact recWritten_staged (calling_evr t rt i s) (calling_cpm t rt i s) (hwait.imp_left (congrArg Lake.ready (calling_lake t rt i s)).trans) hroom
  case refine_3 => -- REC_WRITE refused
    intro s t pi rt ra p i b h hb hbad
    refine answers_ecall h rfl ((congrArg (engRecWrite t · _) hb).trans (engRecWrite_refused ?_)) ⟨rfl, rfl, rfl, rfl⟩
    rw [level_calling]
    exact hbad
  case refine_4 => -- the drain, with a clear that waits
    rintro s x l hready ⟨hx, hnone⟩ hclk
    obtain ⟨⟨hstaged, hclears, hclearing, hr, hldg, hing, hwoad⟩, hdropped, hdebug⟩ := drained_drainStaged hready
    obtain ⟨hs, hd, hc, hno, hst, hl, hi, hw⟩ := nextClear_begins (hclears.trans hx) (hclearing.trans hnone) hstaged hr
    exact does_clocked hclk (exec_eventStagingDrain hready) ⟨hs, hd.trans hdropped, hc, hno, by rw [hst]; exact hdebug, hl.trans hldg, hi.trans hing, hw.trans hwoad⟩
  case refine_5 => -- the drain, with none
    intro s hready hwait hclk
    obtain ⟨⟨hstaged, hclears, hclearing, -, hrest⟩, hdropped, hdebug⟩ := drained_drainStaged hready
    refine does_clocked hclk (exec_eventStagingDrain hready) ?_
    rw [nextClear_waits (by rw [hclears, hclearing]; exact hwait)]
    exact ⟨hstaged, hdropped, hclears, hclearing, hdebug, hrest⟩
  case refine_6 => -- the drain of one record
    rintro s e ⟨hready, hstaged⟩ ⟨hdropped, hdebug, hclears⟩ hclk
    refine does_clocked hclk (exec_eventStagingDrain hready) ?_
    have hwait : nextClear (ringAppend e { s with evr.staged := [] }) = ringAppend e { s with evr.staged := [] } := nextClear_waits (Or.inl hclears)
    rw [drainStaged_one hstaged hdropped hdebug, hwait]
    obtain ⟨g, n, hlast⟩ := ringAppend_last e { s with evr.staged := [] }
    exact ⟨⟨_, hlast, rfl, rfl, rfl, rfl⟩, rfl, rfl⟩
  case refine_7 => -- the drain before READY
    intro s hready
    exact stays_onClock rfl (if_pos (by simp [hready]))
  case refine_8 => -- a KAT that passes, and a bank's relocation
    rintro s item unit hs hd ⟨hstop, hspare⟩ hnext
    refine does_next (exec_onlineTestStep unit true hs hd) ?_
    rw [bankStep_passed (s := s) hstop hspare, if_neg hnext]
    exact ⟨rfl, rfl, (counter_congr (s := count (kRec 8) s) rfl _).trans (by rw [counter_count, if_pos rfl]), rfl⟩
  case refine_9 => -- a KAT that passes, and SB95's turn
    rintro s item unit hs hd ⟨hstop, hspare⟩ hnext
    refine does_next (exec_onlineTestStep unit true hs hd) ?_
    rw [bankStep_passed (s := s) hstop hspare, if_pos hnext]
    exact ⟨rfl, (counter_congr (s := count (kRec 8) s) rfl _).trans (by rw [counter_count, if_pos rfl]), rfl⟩
  case refine_10 => -- a KAT that fails
    intro s item unit hs hd
    refine does_next (exec_onlineTestStep unit false hs hd) ?_
    obtain ⟨hstest, hreset, hhead, hl, hi, hk, hw⟩ := katStep_failed_does (item := item) (unit := unit) { s with stest.running := true, stest.testAt := s.nowNs } (by omega)
    obtain ⟨bunits, bcpm, bsepia, bl, bi, bk, bw⟩ := bankStep_leaves (katStep item unit false { s with stest.running := true, stest.testAt := s.nowNs })
    refine ⟨?_, fun h4 => ?_, fun hnext => ?_, bl.trans hl, bi.trans hi, bk.trans hk, bw.trans hw⟩
    · rw [bunits, hstest]
      exact Map.get_put_self s.stest.unitsOut false (item.val * 256 + unit.val) true
    · rw [bcpm]
      exact hreset h4
    · obtain ⟨hsepia, hfailed⟩ := bsepia (by rw [hstest]; exact hnext)
      rw [hsepia, hfailed, hstest]
      exact ⟨hhead, rfl⟩
  case refine_11 => -- no step is due
    intro s item unit ok h
    exact exec_onlineTestStep_stays unit ok h
  case refine_12 => -- BANK_COPY_COMPLETE
    rintro s ⟨hr, hb⟩
    exact bankCopyComplete_out hr hb
  case refine_13 =>
    rintro s ⟨hr, hb⟩ hn
    exact bankCopyComplete_back hr hb hn
  case refine_14 =>
    rintro s ⟨hr, hb⟩ hn
    refine does_next (bankCopyComplete_last hr hb hn) ?_
    have hpost := (posts_reportTest 1 s.stest.failedNow { s with glb.reloc := .none, glb.spareBank := 0x7F, stest.bank := 0x7F, stest.nextBank := 95, stest.failedNow := 0 }).congr_left (t := s) rfl rfl
    have hglb := reportTest_glb 1 s.stest.failedNow { s with glb.reloc := .none, glb.spareBank := 0x7F, stest.bank := 0x7F, stest.nextBank := 95, stest.failedNow := 0 }
    have hstest := congrArg State.stest (reportTest_frame 1 s.stest.failedNow { s with glb.reloc := .none, glb.spareBank := 0x7F, stest.bank := 0x7F, stest.nextBank := 95, stest.failedNow := 0 })
    rw [hglb, hstest]
    exact ⟨rfl, rfl, rfl, rfl, rfl, rfl, rfl, rfl, hpost⟩
  case refine_15 =>
    intro s h
    exact bankCopyComplete_stays h
  case refine_16 => -- BANK_TEST_COMPLETE
    rintro s ⟨hr, hb⟩ hn
    exact bankTestComplete_back hr hb hn
  case refine_17 =>
    rintro s ⟨hr, hn⟩
    exact bankTestComplete_inPlace hr hn
  case refine_18 => -- the march fails
    rintro s ⟨hr, hb⟩ hn
    refine does_next (bankTestComplete_failed hr hb hn) ?_
    have hpost := (posts_reportTest 1 (s.stest.failedNow ||| 0x200) (marchFailed s)).congr_left (t := s) (by rw [marchFailed_frame]) (by rw [marchFailed_frame])
    have hframe := reportTest_frame 1 (s.stest.failedNow ||| 0x200) (marchFailed s)
    have hglb := reportTest_glb 1 (s.stest.failedNow ||| 0x200) (marchFailed s)
    have hcount : (reportTest 1 (s.stest.failedNow ||| 0x200) (marchFailed s)).counter (kRec 9) = s.counter (kRec 9) + 1 := by
      rw [counter_reportTest (by decide) (by decide)]
      exact counter_marchFailed s
    have hhead : ∃ r, (marchFailed s).sepia.ring.head? = some r ∧ r.typ = 0x010A ∧ r.body = le 1 1 ++ zeroBytes 3 ++ le 4 0x200 := testFailed_head (item := 9) 1 _ (by omega)
    rw [or_bit_ne_zero] at hpost hframe
    have hmarch := marchFailed_frame s
    generalize marchFailed s = m at hpost hframe hglb hcount hhead hmarch ⊢
    generalize reportTest 1 (s.stest.failedNow ||| 0x200) m = u at hpost hframe hglb hcount ⊢
    have hmtest : m.stest = { s.stest with bank := 0x7F, sramStopped := true, failedNow := s.stest.failedNow ||| 0x200 } := by rw [hmarch]
    have hstest : u.stest = { s.stest with bank := 0x7F, sramStopped := true, failedNow := s.stest.failedNow ||| 0x200, scope := true, result := true,
                                           failed := s.stest.failedNow ||| 0x200 } := by
      rw [hframe, hmtest]
      rfl
    have hsepia : u.sepia = m.sepia := by rw [hframe]
    have hmglb : m.glb = { s.glb with reloc := .none } := by rw [hmarch]
    rw [hmglb] at hglb
    have hspare : u.glb.spareBank = s.glb.spareBank := by rw [hglb]
    have hreloc : u.glb.reloc = .none := by rw [hglb]
    refine ⟨congrArg SelfTest.sramStopped hstest, congrArg SelfTest.bank hstest, congrArg SelfTest.failedNow hstest,
      (congrArg SelfTest.failed hstest).trans (congrArg SelfTest.failedNow hstest).symm, congrArg SelfTest.result hstest,
      hspare, hreloc, ?_, hpost, hcount, ?_, ?_, ?_, ?_⟩
    · obtain ⟨r, hr, hrest⟩ := hhead
      exact ⟨r, (congrArg (fun p : Sepia => p.ring.head?) hsepia).trans hr, hrest⟩
    · have hm : m.ldg = s.ldg := by rw [hmarch]
      exact (congrArg State.ldg hframe).trans hm
    · have hm : m.ing = s.ing := by rw [hmarch]
      exact (congrArg State.ing hframe).trans hm
    · have hm : m.lake = s.lake := by rw [hmarch]
      exact (congrArg State.lake hframe).trans hm
    · have hm : m.woad = s.woad := by rw [hmarch]
      exact (congrArg State.woad hframe).trans hm
  case refine_19 =>
    intro s ok h
    exact bankTestComplete_stays ok h
  case refine_20 => -- FULLNEXT_SET
    intro s h
    exact congrArg Host.Outcome.next (if_pos h)
  case refine_21 =>
    intro s h
    exact congrArg Host.Outcome.next (if_neg (by simp [h]))
  case refine_22 => -- VID_STEP
    rintro s g ⟨hm, hf⟩ hg
    exact does_next (vidStep_moves hm hf hg) ⟨rfl, by rw [counter_count, if_pos rfl]; rfl, rfl⟩
  case refine_23 =>
    rintro s g ⟨hm, hf⟩ hg
    exact vidStep_waits hm hf hg
  case refine_24 =>
    intro s g h
    exact vidStep_stays h
  case refine_25 => -- OPMIN_TICK
    intro s h
    refine does_next (exec_opminTick h) ?_
    have htold := told_satNotices (saveCounts { s with cpm.opmin := s.cpm.nextMinute })
    generalize satNotices (saveCounts { s with cpm.opmin := s.cpm.nextMinute }) = u at htold ⊢
    unfold Told at htold
    have hmin : u.cpm.opmin = s.cpm.nextMinute := by rw [htold]; rfl
    have hsep : u.sepia = (saveCounts { s with cpm.opmin := s.cpm.nextMinute }).sepia := by rw [htold]
    refine ⟨hmin, ?_, ?_⟩
    · rw [hmin, hsep]
      exact saveCounts_copies { s with cpm.opmin := s.cpm.nextMinute }
    · rw [htold]
      rfl
  case refine_26 => -- the last minute
    rintro s ⟨hpor, hmin, hposted, hpow⟩ hcyc
    refine does_next (exec_opminTick hpor) ?_
    have hnext : s.cpm.nextMinute = 0xFFFFFFFF := by unfold Cpm.nextMinute; rw [hmin]; decide
    rw [satNotices_last (s := saveCounts { s with cpm.opmin := s.cpm.nextMinute }) ⟨hnext, hposted, hpow⟩ hcyc]
    exact ⟨(posts_postNotice _ _ _ _).congr_left rfl rfl, by rw [postNotice_cpm]⟩
  case refine_27 =>
    intro s h
    exact congrArg Host.Outcome.next (if_pos (by simp [h]))
  case refine_28 => -- THERMAL_SAMPLE
    intro s x h
    refine congrArg Host.Outcome.next ((if_neg (by simp [h])).trans ?_)
    simp only [Bool.not_eq_true']
  case refine_29 =>
    intro s x h
    exact congrArg Host.Outcome.next (if_pos (by simp [h]))
  case refine_30 => -- FREEZE
    intro s hf hm
    refine does_next (exec_freeze hf hm) ?_
    generalize hv : ({ (if s.cas.paired && s.activeUnit then holdOutputs s else s) with stest := { s.stest with frozen := true } } : State) = v
    have hheld : (if s.cas.paired && s.activeUnit then holdOutputs s else s) = { s with cas := { s.cas with holdB := v.cas.holdB } } := by
      rw [← hv]
      by_cases hp : (s.cas.paired && s.activeUnit) = true
      · rw [if_pos hp]; rfl
      · rw [if_neg hp]
    have hframe : v = { s with cas := { s.cas with holdB := v.cas.holdB }, stest := { s.stest with frozen := true } } := by
      rw [hheld] at hv
      exact hv.symm
    have hkept : s.cas.paired = false ∨ s.activeUnit = false → v.cas = s.cas := by
      intro hno
      rw [← hv, if_neg (by rcases hno with h | h <;> simp [h])]
    obtain ⟨r, hhead⟩ := sepWrite_head (typ := 0x0108) (by omega) (le 1 s.glb.mode.code ++ zeroBytes 7) v
    have hcount : (count (kRec 10) (sepWrite 0x0108 (le 1 s.glb.mode.code ++ zeroBytes 7) v)).counter (kRec 10) = s.counter (kRec 10) + 1 := by
      rw [counter_count, if_pos rfl, counter_sepWrite (by decide), counter_congr (s := s) (by rw [hframe])]
    have hsep := sepWrite_frame 0x0108 (le 1 s.glb.mode.code ++ zeroBytes 7) v
    generalize sepWrite 0x0108 (le 1 s.glb.mode.code ++ zeroBytes 7) v = w at hhead hcount hsep ⊢
    have hcas : w.cas = v.cas := by rw [hsep]
    have hstest : w.stest = { s.stest with frozen := true } := by rw [hsep, hframe]
    refine ⟨hstest, ?_, ⟨r, hhead⟩, hcount, ⟨?_, ?_⟩, ?_⟩
    · change (_ && !w.stest.frozen) = false
      rw [hstest]
      exact Bool.and_false _
    · change w.cas = { s.cas with holdB := w.cas.holdB }
      rw [hcas]
      exact congrArg State.cas hframe
    · exact fun hno => hcas.trans (hkept hno)
    · rw [hsep, hframe]
      rfl
  case refine_31 =>
    intro s h
    exact freeze_stays h
  case refine_32 => -- TAP_RESET
    intro s
    rfl
  case refine_33 => -- EXTEST
    intro s h
    exact does_next (extest_captures h) ⟨rfl, rfl, ⟨_, rfl⟩, rfl⟩
  case refine_34 =>
    intro s h
    exact does_next (extest_bypasses h) ⟨rfl, rfl, rfl, rfl⟩
  case refine_35 => -- SAMPLE/PRELOAD
    intro s
    refine does_next (u := captureScan { s with stest.ir := 0x01, stest.tapUsed := true }) ?_ ⟨rfl, rfl, ⟨_, rfl⟩, rfl⟩
    exact congrArg (fun s => Host.Outcome.next (captureScan s)) (loadIr_used (by decide) s)
  case refine_36 => -- IDCODE
    intro s
    refine does_next (u := emit (.tap 0x2810014F) { s with stest.ir := 0x02 }) ?_ ⟨rfl, rfl, rfl, rfl⟩
    exact congrArg (fun s => Host.Outcome.next (emit (.tap 0x2810014F) s)) (loadIr_unused (by decide) s)
  case refine_37 => -- DSTAT
    intro s
    refine does_next (u := emit (.tap s.dstat) { s with stest.ir := 0x10, stest.tapUsed := true }) ?_ ⟨rfl, rfl, rfl, rfl⟩
    exact congrArg (fun u => Host.Outcome.next (emit (.tap s.dstat) u)) (loadIr_used (by decide) s)
  case refine_38 => -- DADDR
    intro s v
    refine does_next (u := { s with stest.ir := 0x11, stest.tapUsed := true, stest.daddr := v }) ?_ ⟨rfl, rfl, rfl, rfl⟩
    exact congrArg Host.Outcome.next (loadIr_used (by decide) { s with stest.daddr := v })
  case refine_39 => -- DDATA
    rintro s a ha h0 ⟨hlt, hf⟩
    exact does_next (exec_ddata_ok (by rw [ha, probe_bar0 h0 hlt, if_pos hf])) (captured_does _ s (by decide))
  case refine_40 =>
    rintro s a ha h0 ⟨hlt, hf⟩
    exact does_next (exec_ddata_notFrozen (by rw [ha, probe_bar0 h0 hlt, if_neg (by simp [hf])])) (captured_does 0 s (by decide))
  case refine_41 =>
    intro s a ha h2 hd
    obtain ⟨hout, hrest⟩ := captured_does (st := 1) 0 (count (kRec 11) s) (by decide)
    refine does_next (exec_ddata_denied (by rw [ha, probe_cores h2, if_pos (by simp [hd])])) ⟨hout, rfl, rfl, rfl, rfl, ?_, rfl⟩
    exact (counter_congr (s := count (kRec 11) s) rfl _).trans (by rw [counter_count, if_pos rfl])
  case refine_42 =>
    rintro s a ha h2 ⟨hd, hf⟩
    exact does_next (exec_ddata_notFrozen (by rw [ha, probe_cores h2, if_neg (by simp [hd]), if_pos (by simp [hf])])) (captured_does 0 s (by decide))
  case refine_43 =>
    rintro s a k ha h2 ⟨hd, hf, hlt⟩ hi ⟨rfl, hp⟩
    refine does_next (exec_ddata_ok ?_) (captured_does _ s (by decide))
    rw [ha, probe_cores h2, if_neg (by simp [hd]), if_neg (by simp [hf]), probeCore_imem hlt hi, if_neg (by rw [hp]; decide)]
  case refine_44 =>
    rintro s a ha h2 ⟨hd, hf, hlt⟩ hi hp
    refine does_next (exec_ddata_poison ?_) (captured_does 0 s (by decide))
    rw [ha, probe_cores h2, if_neg (by simp [hd]), if_neg (by simp [hf]), probeCore_imem hlt hi, if_pos hp]
  case refine_45 =>
    rintro s a ha h3 ⟨hlt, hr, hf⟩
    exact does_next (exec_ddata_ok (by rw [ha, probe_pc h3 hlt hr hf])) (captured_does _ s (by decide))
  case refine_46 =>
    rintro s a ha h3 ⟨hr, hd⟩
    obtain ⟨hout, hrest⟩ := captured_does (st := 1) 0 (count (kRec 11) s) (by decide)
    refine does_next (exec_ddata_denied (by rw [ha, probe_thread_denied h3 hr hd])) ⟨hout, rfl, rfl, rfl, rfl, ?_, rfl⟩
    exact (counter_congr (s := count (kRec 11) s) rfl _).trans (by rw [counter_count, if_pos rfl])
  case refine_47 => -- DBGEN
    intro s v h
    refine does_next (exec_dbgen h) ?_
    obtain ⟨hstest, hsub, hpend, hqueue, hsess, hotp, hldg, hing, hlake⟩ := debugEntered_does s
    obtain ⟨r, hrec, htyp, hbody⟩ := sepWrite_debugEnable (zeroBytes 8) (debugEntered s)
    have hsep := sepWrite_frame 0x0005 (zeroBytes 8) (debugEntered s)
    generalize sepWrite 0x0005 (zeroBytes 8) (debugEntered s) = w at hrec hsep ⊢
    generalize debugEntered s = e at hstest hsub hpend hqueue hsess hotp hldg hing hlake hsep
    have hwoad : w.woad = e.woad := by rw [hsep]
    have htest : w.stest = e.stest := by rw [hsep]
    have hhp : w.hp = e.hp := by rw [hsep]
    refine ⟨?_, ?_, ?_, ?_, ?_, rfl, rfl, ⟨r, hrec, htyp, hbody⟩, ?_, ?_, ?_, ?_, ?_⟩
    · exact congrArg SelfTest.ir (htest.trans hstest)
    · exact congrArg SelfTest.tapUsed (htest.trans hstest)
    · exact (congrArg Woad.debugSub hwoad).trans hsub
    · exact (congrArg Woad.pending hwoad).trans hpend
    · exact (congrArg Woad.queued hwoad).trans hqueue
    · intro k x hk
      exact hsess k x ((congrArg (fun h : Hp => h.sessions.find k) hhp).symm.trans hk)
    · rw [hsep]; exact hotp
    · rw [hsep]; exact hldg
    · rw [hsep]; exact hing
    · rw [hsep]; exact hlake
  case refine_48 =>
    intro s v h
    exact does_next (exec_dbgen_ignored h) ⟨rfl, rfl, rfl⟩
  case refine_49 => -- FRZRST
    intro s v h
    refine does_next (u := { s with stest.ir := 0x14, stest.tapUsed := true, cpm.resetDue := some 3 }) ?_ ⟨rfl, rfl, rfl, rfl⟩
    refine congrArg Host.Outcome.next ?_
    dsimp only
    rw [loadIr_used (by decide)]
    exact if_pos h
  case refine_50 =>
    intro s v h
    refine does_next (u := { s with stest.ir := 0x14, stest.tapUsed := true }) ?_ ⟨rfl, rfl, rfl⟩
    refine congrArg Host.Outcome.next ?_
    dsimp only
    rw [loadIr_used (by decide)]
    exact if_neg fun hyes => h.elim (fun hne => hne hyes.1) fun hno => absurd (hno.symm.trans hyes.2) (by decide)
  case refine_51 => -- BYPASS
    intro s
    refine does_next (u := emit (.tap 0) { s with stest.ir := 0x3F }) ?_ ⟨rfl, rfl, rfl, rfl⟩
    exact congrArg (fun s => Host.Outcome.next (emit (.tap 0) s)) (loadIr_unused (by decide) s)

end Sys2Proof.Machine

namespace Sys2Proof.Machine

/-! ## Lengths of Woad's results (R310, R323) -/

theorem length_be (n v : Nat) : (be n v).length = n := by
  unfold be
  rw [List.length_reverse, length_le]

/-- A signature is two coordinates of 48 bytes. -/
theorem length_ecdsaSign (d : Nat) (digest : List Byte) (k : Nat) : (ecdsaSign d digest k).length = 96 := by
  unfold ecdsaSign
  rw [List.length_append, length_be, length_be]

theorem length_xorN (a : List Nat) : ∀ b : List Nat, (xorN a b).length = max a.length b.length := by
  induction a with
  | nil =>
    intro b
    cases b <;> simp [xorN]
  | cons x a ih =>
    intro b
    cases b with
    | nil => simp [xorN]
    | cons y b => rw [xorN, List.length_cons, ih, List.length_cons, List.length_cons]; omega

/-- Counter mode gives as many bytes as it is given. -/
theorem length_gcmCrypt (key nonce data : List Byte) : (gcmCrypt key nonce data).length = data.length := by
  unfold gcmCrypt xorB bytesOf nats
  rw [List.length_map, length_xorN, List.length_map, List.length_map, List.length_take]
  omega

theorem length_shaRound {v : List Nat} (kw : Nat) (h : v.length = 8) : (shaRound v kw).length = 8 := by
  unfold shaRound
  split
  · rfl
  · exact h

theorem length_shaBlock {v : List Nat} (blk : List Byte) (h : v.length = 8) : (shaBlock v blk).length = 8 := by
  have hfold : ∀ (l : List (Nat × Nat)) (v : List Nat), v.length = 8 → (l.foldl (fun v kw => shaRound v (kw.1 + kw.2)) v).length = 8 := by
    intro l
    induction l with
    | nil => exact fun _ h => h
    | cons x l ih => exact fun v h => ih _ (length_shaRound _ h)
  unfold shaBlock
  dsimp only
  rw [List.length_map, List.length_zip, hfold _ _ h, h]
  rfl

/-- A digest is 48 bytes. -/
theorem length_sha384 (m : List Byte) : (sha384 m).length = 48 := by
  have hfold : ∀ (l : List (List Byte)) (v : List Nat), v.length = 8 → (l.foldl shaBlock v).length = 8 := by
    intro l
    induction l with
    | nil => exact fun _ h => h
    | cons x l ih => exact fun v h => ih _ (length_shaBlock _ h)
  have hflat : ∀ v : List Nat, ((v.map (be 8)).flatten).length = 8 * v.length := by
    intro v
    induction v with
    | nil => rfl
    | cons x v ih => rw [List.map_cons, List.flatten_cons, List.length_append, length_be, ih, List.length_cons]; omega
  unfold sha384
  dsimp only
  rw [List.length_take, hflat, hfold _ _ (by rfl)]
  rfl

end Sys2Proof.Machine

namespace Sys2Proof.Machine

/-! ## Seals, opens, CMAC, digest, signature, attestation (R310, R323 to R328) -/

/-- The state an engine finds is the caller's, but for the threads and counters. -/
theorem calling_eq (t rt i : Nat) (s : State) : ∃ T C, calling t rt i s = { s with mcc.threads := T, ctr := C } := ⟨_, _, calling_frame t rt i s⟩

/-- The statement is built at its first need, from a free value. -/
theorem attStatement_frame (s : State) : ∃ (st : Option (List Byte)) (f : Nat) (ctr : Map (BitVec 64)),
    (attStatement s).2 = { s with woad.statement := st, free := f, ctr := ctr } := by
  unfold attStatement
  dsimp only
  split
  · split
    · exact ⟨_, _, _, rfl⟩
    · exact ⟨_, _, _, rfl⟩
  · exact ⟨_, _, _, rfl⟩

/-- A signature takes a free value and is counted. -/
theorem sign_frame (d : Nat) (dg : List Byte) (s : State) : ∃ (f : Nat) (ctr : Map (BitVec 64)), (sign d dg s).2 = { s with free := f, ctr := ctr } := ⟨_, _, rfl⟩

/-- A batch up to its tag: header, ciphertext, tag (Table 11-10). -/
def sealedBody (kind : Nat) (k : KeySlot) (n plen : Nat) (pt : List Byte) (s : State) : List Byte :=
  let h := batchHeader kind s.serial n k.keyid.toNat plen s.nowUs
  let ct := gcmCrypt (batchKey k.key s.serial n) (slice h 40 12) pt
  h ++ ct ++ gcmTag (batchKey k.key s.serial n) (slice h 40 12) h ct

/-- Below both high-water marks the next batch takes the next number, and waits for nothing. -/
theorem nextBseq_below {s : State} (h : s.woad.bseq.toNat + 1 ≤ s.woad.hw.toNat) :
    nextBseq s = (s.woad.bseq.toNat + 1, { s with woad.bseq := s.woad.bseq + 1 }) := by
  have hnext : (s.woad.bseq + 1).toNat = s.woad.bseq.toNat + 1 := by
    have hlt := s.woad.hw.isLt
    rw [BitVec.toNat_add, show (1 : BitVec 64).toNat = 1 from rfl, Nat.mod_eq_of_lt (by omega)]
  unfold nextBseq
  dsimp only
  rw [if_neg, hnext]
  rw [BitVec.ult, hnext, decide_eq_true_eq]
  omega

/-- A seal is numbered, and its output held under its slot. -/
theorem engGcmSeal_ok {t : Nat} {b pt : List Byte} {s : State}
    (hz : zeros b 1 1 = true ∧ zeros b 4 4 = true ∧ zeros b 28 4 = true ∧ zeros b 44 20 = true ∧ field b 0 1 < 64 ∧ field b 24 4 ≤ 2 ^ 24)
    (hn : s.glb.mode ≠ .holdup ∧ s.lake.ready = true) (hk : (s.keySlot (field b 0 1)).st = .active ∧ (s.keySlot (field b 0 1)).typ = 3)
    (hbuf : s.bufOk t (field b 16 8) (field b 24 4 + 528) = true) (hpt : s.readBuf t (field b 8 8) (field b 24 4) = .ok pt)
    (hseq : s.woad.bseq.toNat + 1 ≤ s.woad.hw.toNat ∧ s.woad.bseq.toNat + 1 ≤ s.woad.durHw.toNat) :
    ∃ (u : State) (k : Nat) (sg : List Byte) (queued : Map KeyOp) (st : Option (List Byte)) (f : Nat) (ctr : Map (BitVec 64)),
      engGcmSeal t b s = { st := u, status := stOk, out := [(32, le 8 (s.woad.bseq.toNat + 1)), (40, le 4 (field b 24 4 + 528))] } ∧
      u = { s with woad.bseq := s.woad.bseq + 1, woad.statement := st, free := f, ctr := ctr, woad.queued := queued } ∧
      queued.find k = some { slot := field b 0 1, epoch := none, dst := field b 16 8,
                             bytes := sealedBody (field b 2 2) (s.keySlot (field b 0 1)) (s.woad.bseq.toNat + 1) (field b 24 4) pt s ++ sg } := by
  obtain ⟨h1, h4, h28, h44, hi, hlen⟩ := hz
  obtain ⟨hst, htyp⟩ := hk
  have huse : (s.keySlot (field b 0 1)).usable 3 = none := by
    unfold KeySlot.usable
    rw [hst]
    exact if_pos htyp
  obtain ⟨st, f, ctr, hatt⟩ := attStatement_frame { s with woad.bseq := s.woad.bseq + 1 }
  unfold engGcmSeal
  dsimp only
  rw [if_neg (by simp [h1, h4, h28, h44]; omega), if_neg (by simp [State.keyNotNow, hn]), huse]
  dsimp only
  rw [if_neg (by simp [hbuf]), hpt]
  dsimp only
  rw [nextBseq_below hseq.1]
  dsimp only
  rw [if_neg (by omega)]
  generalize attStatement { s with woad.bseq := s.woad.bseq + 1 } = a at hatt ⊢
  obtain ⟨stmt, s2⟩ := a
  dsimp only at hatt ⊢
  have hsign := sign_frame s2.dAk (sha384 (sealedBody (field b 2 2) (s.keySlot (field b 0 1)) (s.woad.bseq.toNat + 1) (field b 24 4) pt s)) s2
  unfold sealedBody at hsign
  dsimp only at hsign
  obtain ⟨f', ctr', hsign⟩ := hsign
  generalize sign s2.dAk _ s2 = g at hsign ⊢
  obtain ⟨sg, s3⟩ := g
  dsimp only at hsign ⊢
  subst hsign
  subst hatt
  refine ⟨_, t * 16 + s.nextSlot t, stmt ++ sg, _, st, _, _, rfl, rfl, ?_⟩
  rw [← List.append_assoc]
  exact Map.find_ins_self _ _ _

theorem engGcmSeal_notNow {t : Nat} {b : List Byte} {s : State}
    (hz : zeros b 1 1 = true ∧ zeros b 4 4 = true ∧ zeros b 28 4 = true ∧ zeros b 44 20 = true ∧ field b 0 1 < 64 ∧ field b 24 4 ≤ 2 ^ 24)
    (hn : s.glb.mode = .holdup ∨ s.lake.ready = false) : engGcmSeal t b s = .fail s wkNotNow := by
  obtain ⟨h1, h4, h28, h44, hi, hlen⟩ := hz
  unfold engGcmSeal
  dsimp only
  rw [if_neg (by simp [h1, h4, h28, h44]; omega), if_pos (by rcases hn with h | h <;> simp [State.keyNotNow, h])]

/-- An open past its reserved bytes and its buffers answers what the checks of R326 say. -/
theorem engGcmOpen_checks {t : Nat} {b l cert : List Byte} {s : State}
    (hz : zeros b 1 7 = true ∧ zeros b 28 4 = true ∧ zeros b 36 4 = true ∧ zeros b 56 8 = true) (hn : s.glb.mode ≠ .holdup ∧ s.lake.ready = true)
    (hl : s.readBuf t (field b 8 8) (field b 24 4) = .ok l) (hcert : s.readBuf t (field b 48 8) 256 = .ok cert)
    (hbuf : ∀ k pt, openBatch l cert s = .ok (k, pt) → s.bufOk t (field b 16 8) pt.length = true) :
    engGcmOpen t b s = match openBatch l cert s with
      | .error e => .fail (count (kWkv 7) s) e
      | .ok (k, pt) => { st := holdOp t { slot := k, epoch := none, dst := field b 16 8, bytes := pt } s, status := stOk,
                         out := [(32, le 4 pt.length), (40, le 8 (field l 16 8))] } := by
  obtain ⟨h1, h28, h36, h56⟩ := hz
  unfold engGcmOpen
  dsimp only
  rw [if_neg (by simp [h1, h28, h36, h56]), if_neg (by simp [State.keyNotNow, hn]), hl, hcert]
  dsimp only
  cases ho : openBatch l cert s with
  | error e => rfl
  | ok x => exact if_neg (by simp [hbuf x.1 x.2 ho])

/-- The plaintext of a batch is shorter than the batch. -/
theorem length_openBatch {l cert pt : List Byte} {s : State} {k : Nat} (h : openBatch l cert s = .ok (k, pt)) : pt.length ≤ l.length := by
  unfold openBatch at h
  dsimp only at h
  split at h
  · cases h
  · split at h
    · cases h
    · split at h
      · cases h
      · split at h
        · cases h
        · split at h
          · cases h
          · cases h
            rw [length_gcmCrypt]
            unfold slice
            rw [List.length_take, List.length_drop]
            omega

/-- CRY_CMAC with the key in hand. -/
theorem engCryCmac_ok {t : Nat} {b key m : List Byte} {under : Option (Nat × Option Nat)} {s : State}
    (hz : zeros b 8 4 = true ∧ zeros b 36 4 = true ∧ zeros b 56 8 = true) (hsrc : 1 ≤ field b 0 1 ∧ field b 0 1 < 3)
    (hkey : cmacKey b s = .ok (key, under)) (hm : s.readBuf t (field b 24 8) (field b 32 4) = .ok m) :
    engCryCmac t b s = { st := match under with
                               | some (i, ep) => holdOp t { slot := i, epoch := ep, dst := 0, bytes := [] } (count (kWkv 8) s)
                               | none => count (kWkv 8) s,
                         status := stOk, out := [(40, cmac key m)] } := by
  obtain ⟨h8, h36, h56⟩ := hz
  have hnot : (field b 0 1 == 0) = false := beq_false_of_ne (by omega)
  unfold engCryCmac
  dsimp only
  rw [if_neg (by simp [h8, h36, h56]; omega)]
  split
  · next e he =>
    rw [hkey] at he
    cases he
  · next key' under' he =>
    rw [hkey] at he
    cases he
    rw [hm, hnot]
    cases under <;> rfl

theorem engCryCmac_noKey {t e : Nat} {b : List Byte} {s : State} (hz : zeros b 8 4 = true ∧ zeros b 36 4 = true ∧ zeros b 56 8 = true)
    (hsrc : field b 0 1 < 3) (hkey : cmacKey b s = .error e) : ∃ ctr, engCryCmac t b s = .fail { s with ctr := ctr } e := by
  obtain ⟨h8, h36, h56⟩ := hz
  unfold engCryCmac
  dsimp only
  rw [if_neg (by simp [h8, h36, h56]; omega), hkey]
  dsimp only
  split
  · exact ⟨_, rfl⟩
  · split
    · exact ⟨_, rfl⟩
    · exact ⟨_, rfl⟩

/-- The key of KSRC 1 is the session's. -/
theorem cmacKey_session {b : List Byte} {x : Session} {s : State} (hsrc : field b 0 1 = 1) (hx : s.session (field b 2 2) = some x) (ho : x.open_ = true) :
    cmacKey b s = .ok (x.ks, none) := by
  unfold cmacKey
  dsimp only
  rw [hsrc]
  rw [hx]
  exact if_pos ho

/-- The key of KSRC 2 is derived from an ACTIVE slot. -/
theorem cmacKey_slot {b : List Byte} {s : State} (hsrc : field b 0 1 = 2) (hi : field b 1 1 < 64) : cmacKey b s =
    match (s.keySlot (field b 1 1)).st with
    | .empty => .error stKeyAbsent
    | .orphaned => .error stKeyOrphaned
    | .active => .ok (kdf (s.keySlot (field b 1 1)).key (slice b 12 4) (slice b 16 8) (if Config.cmacWide then 256 else 128), some (field b 1 1, none)) := by
  unfold cmacKey
  dsimp only
  rw [hsrc]
  exact if_neg (by omega)

theorem engCrySha384_ok {t : Nat} {b m : List Byte} {s : State} {q : Place} (hz : zeros b 0 8 = true ∧ zeros b 20 4 = true ∧ zeros b 32 32 = true)
    (hm : s.readBuf t (field b 8 8) (field b 16 4) = .ok m) (hq : (s.thr t).bufPlace t (field b 24 8) 48 = some q) :
    engCrySha384 t b s = .ok (storeAt q (sha384 m) s) := by
  obtain ⟨h0, h20, h32⟩ := hz
  have hbuf : s.bufOk t (field b 24 8) 48 = true := by unfold State.bufOk; rw [hq]; rfl
  unfold engCrySha384
  rw [if_neg (by simp [h0, h20, h32]), if_neg (by simp [hbuf]), hm]
  exact congrArg EngOut.ok (writeBuf_at (by rw [length_sha384]; exact hq))

theorem engEcdsaVerify_ok {t : Nat} {b dg pk sg : List Byte} {s : State} (hz : zeros b 0 8 = true ∧ zeros b 32 32 = true)
    (hdg : s.readBuf t (field b 8 8) 48 = .ok dg) (hpk : s.readBuf t (field b 16 8) 96 = .ok pk) (hsg : s.readBuf t (field b 24 8) 96 = .ok sg)
    (hv : ecdsaVerify pk dg sg = true) : engEcdsaVerify t b s = .ok s := by
  obtain ⟨h0, h32⟩ := hz
  unfold engEcdsaVerify
  rw [if_neg (by simp [h0, h32]), hdg, hpk, hsg]
  exact if_pos hv

/-- Attestation with the statement in hand writes it and one signature. -/
theorem engCryAttest_ok {t : Nat} {b nonce st : List Byte} {s : State} {q : Place} (hz : zeros b 0 8 = true ∧ zeros b 24 40 = true)
    (hn : s.readBuf t (field b 8 8) 32 = .ok nonce) (hq : (s.thr t).bufPlace t (field b 16 8) 448 = some q)
    (hs : s.woad.statement = some st) (hf : field st 6 1 = s.attFlags) (hlen : st.length = 352) :
    engCryAttest t b s = .ok (storeAt q (st ++ ecdsaSign s.dAk (sha384 (st ++ nonce)) (Config.random s.free)) (count (kWkv 9) { s with free := s.free + 1 })) := by
  obtain ⟨h0, h24⟩ := hz
  have hbuf : s.bufOk t (field b 16 8) 448 = true := by unfold State.bufOk; rw [hq]; rfl
  unfold engCryAttest
  dsimp only
  rw [if_neg (by simp [h0, h24]), if_neg (by simp [hbuf]), hn]
  dsimp only
  rw [attest_kept hs hf]
  exact congrArg EngOut.ok (writeBuf_at (by rw [List.length_append, length_ecdsaSign, hlen]; exact hq))

end Sys2Proof.Machine

namespace Sys2Proof.Machine

/-! ## Key calls (R306, R312 to R322) -/

theorem ofLe_lt (l : List Byte) : ofLe l < 256 ^ l.length := by
  induction l with
  | nil => decide
  | cons x l ih =>
    have hx : x.toNat < 256 := x.isLt
    rw [ofLe, List.length_cons, Nat.pow_succ]
    omega

/-- A field of `n` bytes is below 256 ^ n. -/
theorem field_lt (l : List Byte) (o n : Nat) : field l o n < 256 ^ n := by
  refine Nat.lt_of_lt_of_le (ofLe_lt _) (Nat.pow_le_pow_right (by omega) ?_)
  unfold slice
  rw [List.length_take]
  omega

/-- The slot record that a key blob of TYPE 1 gives (Table 11-6). -/
def blobSlot (i : Nat) (d : List Byte) (s : State) : KeySlot :=
  { st := .active, typ := 1, keyid := BitVec.ofNat 32 (field d 8 4), parent := none, depth := 1, amask := BitVec.ofNat 64 (2 ^ i),
    epmin := field d 6 1, epmax := field d 7 1, key := gcmCrypt s.kw (slice d 16 12) (slice d 28 32) }

theorem loadBlob_ok {i : Nat} {d : List Byte} {s : State} (hl : s.woad.life = .owned) (hi : (s.keySlot i).st ≠ .active)
    (hd : field d 0 4 = 0x424B5A57 ∧ field d 5 1 = i ∧ zeros d 12 4 = true ∧ zeros d 76 4 = true ∧ field d 4 1 = 1 ∧ field d 6 1 ≤ field d 7 1)
    (htag : gcmTag s.kw (slice d 16 12) (d.take 16) (slice d 28 32) = slice d 60 16) : loadBlob i d s = .keyed (putKeySlot i (blobSlot i d s) s) := by
  obtain ⟨hmagic, hslot, h12, h76, htyp, hep⟩ := hd
  unfold loadBlob
  dsimp only
  rw [if_neg (by simp [hl]), if_neg hi, if_neg (by simp [hmagic, htag]), if_neg (by simp [hslot, h12, h76]), if_neg (by omega), if_neg (by omega), htyp]
  rfl

theorem loadBlob_unwrapFail {i : Nat} {d : List Byte} {s : State} (hl : s.woad.life = .owned) (hi : (s.keySlot i).st ≠ .active)
    (hd : field d 0 4 ≠ 0x424B5A57) : loadBlob i d s = .fail (count (kWkv 14) s) wkUnwrapFail := by
  unfold loadBlob
  dsimp only
  rw [if_neg (by simp [hl]), if_neg hi, if_pos (Or.inl hd)]

/-- KEY_LOAD reads as many bytes as its target holds. -/
theorem engKeyLoad_ok {bad : Option Nat} {t : Nat} {b d : List Byte} {s : State} (hz : zeros b 4 4 = true ∧ zeros b 16 48 = true)
    (hlen : loadLen (field b 0 1) (field b 1 1) = some (field b 2 2)) (hr : s.keyRefusal = none) (hd : s.readBuf t (field b 8 8) (field b 2 2) = .ok d) :
    engKeyLoad bad t b s = keyLoad (field b 0 1) (field b 1 1) d bad s := by
  obtain ⟨h4, h16⟩ := hz
  unfold engKeyLoad
  dsimp only
  rw [if_neg (by simp [h4, h16, hlen]), hr]
  dsimp only
  rw [hd]

/-- The mask of image keys after a KEY_LOAD: bits are set and none cleared, all of them when no word fails. -/
theorem programOtp_word {off : Nat} {d : List Byte} (bad : Option Nat) (s : State) (hd : d.length = 4) :
    ∃ (otp : Map Byte) (f : Nat) (ctr : Map (BitVec 64)) (fail : Bool),
      programOtp off d bad s = ({ s with otp := otp, free := f, ctr := ctr, woad.otpFail := fail }, decide (bad ≠ some 0)) ∧
      (∀ a j, bitAt (s.otp.get 0 a).toNat j = true → bitAt (otp.get 0 a).toNat j = true) ∧
      (∀ a, a < off ∨ off + 4 ≤ a → otp.get 0 a = s.otp.get 0 a) ∧
      (bad = none → ∀ k < 4, otp.get 0 (off + k) = s.otp.get 0 (off + k) ||| d.getD k 0) := by
  have hgood : ∀ k < 4, (otpProgram s.otp off d).get 0 (off + k) = s.otp.get 0 (off + k) ||| d.getD k 0 := by
    intro k hk
    rw [get_otpProgram, if_pos (by omega), show off + k - off = k by omega]
  have hout : ∀ a, a < off ∨ off + 4 ≤ a → (otpProgram s.otp off d).get 0 a = s.otp.get 0 a := fun a ha => otpProgram_out _ _ _ _ (by rw [hd]; exact ha)
  unfold programOtp
  dsimp only
  rw [hd]
  cases bad with
  | none => exact ⟨_, _, _, _, rfl, fun a j h => otpProgram_keeps _ _ _ _ _ h, hout, fun _ => hgood⟩
  | some k =>
    dsimp only
    by_cases hk : k = 0
    · subst hk
      rw [if_pos (by decide)]
      refine ⟨_, _, _, _, rfl, fun a j h => otpProgram_keeps _ _ _ _ _ h, fun a ha => otpProgram_out _ _ _ _ ?_, fun h => absurd h (by decide)⟩
      unfold bytesOf
      rw [List.length_append, List.length_map, List.length_map, length_le, List.length_take]
      omega
    · rw [if_neg (by omega), show decide (some k ≠ some 0) = true by simpa using hk]
      exact ⟨_, _, _, _, rfl, fun a j h => otpProgram_keeps _ _ _ _ _ h, hout, fun h => absurd h (by simp)⟩

/-- An ORPHANED slot without ACTIVE descendants becomes EMPTY. -/
theorem clearSlot_ok {i : Nat} {s : State} (ho : (s.keySlot i).st = .orphaned) (hd : ∀ x ∈ s.woad.slots, x.2.st = .active → x.2.amask.getLsbD i = false) :
    clearSlot i s = { EngOut.keyed (putKeySlot i {} s) with out := [(8, le 4 0)] } := by
  unfold clearSlot
  rw [ho]
  refine if_neg ?_
  rw [List.any_eq_true]
  rintro ⟨x, hx, hbad⟩
  rw [Bool.and_eq_true, decide_eq_true_eq] at hbad
  rw [hd x hx hbad.1] at hbad
  exact absurd hbad.2 (by decide)

/-- The notice of a district slot's last epochs. -/
def lastEpochs (i : Nat) (last : Prop) [Decidable last] (s : State) : State := if last then postNotice 0x0802 1 (le 1 i) s else s

theorem lastEpochs_frame (i : Nat) (last : Prop) [Decidable last] (s : State) : lastEpochs i last s =
    { s with hp := (lastEpochs i last s).hp, ctr := (lastEpochs i last s).ctr, glb := (lastEpochs i last s).glb } := by
  unfold lastEpochs
  split
  · exact postNotice_frame _ _ _ _
  · rfl

/-- Two states with the same keys, stack, ledger, ingest and fuses: a notice makes no more difference. -/
def SameKeys (u s : State) : Prop := u.woad = s.woad ∧ u.cas = s.cas ∧ u.ldg = s.ldg ∧ u.ing = s.ing ∧ u.otp = s.otp

theorem sameKeys_lastEpochs (i : Nat) (last : Prop) [Decidable last] (s : State) : SameKeys (lastEpochs i last s) s := by
  rw [lastEpochs_frame]
  exact ⟨rfl, rfl, rfl, rfl, rfl⟩

/-- EPMAX of a district slot rises, EPMIN stays. -/
theorem epochDistrict_max {i lo hi : Nat} {s : State} (hk : (s.keySlot i).st = .active ∧ (s.keySlot i).typ = 1 ∧ (s.keySlot i).epminNext = none)
    (he : lo = (s.keySlot i).epmin ∧ (s.keySlot i).epmax < hi ∧ lo ≤ hi ∧ hi ≤ 255) :
    ∃ u, SameKeys u (putKeySlot i { s.keySlot i with epmax := hi } s) ∧ epochDistrict i lo hi s = .keyed u := by
  obtain ⟨hst, htyp, hnone⟩ := hk
  refine ⟨_, sameKeys_lastEpochs i ((s.keySlot i).epmax < 255 ∧ hi = 255) _, ?_⟩
  unfold epochDistrict
  dsimp only
  rw [hnone]
  change (if _ then _ else if _ then _ else if lo < (s.keySlot i).epmin ∨ _ then _ else if lo = (s.keySlot i).epmin ∧ _ then _ else _) = _
  rw [if_neg (by simp [hst]), if_neg (by simp [htyp]), if_neg (by omega), if_neg (by omega)]
  change (if lo = (s.keySlot i).epmin then _ else _) = _
  rw [if_pos he.1]
  change EngOut.keyed (lastEpochs i ((s.keySlot i).epmax < 255 ∧ hi = 255)
    (putKeySlot i { s.keySlot i with epmax := hi, epminNext := if (s.keySlot i).epmin < lo then some lo else none } s)) = _
  rw [if_neg (by omega), ← hnone]

/-- EPMIN of a district slot rises, once its record is durable. -/
theorem epochDistrict_min {i lo hi : Nat} {s : State} (hk : (s.keySlot i).st = .active ∧ (s.keySlot i).typ = 1 ∧ (s.keySlot i).epminNext = none)
    (he : (s.keySlot i).epmin < lo ∧ (s.keySlot i).epmax ≤ hi ∧ lo ≤ hi ∧ hi ≤ 255) (hd : s.woad.debugSub = false) :
    ∃ u m, SameKeys u (putKeySlot i { s.keySlot i with epmax := hi, epminNext := some lo } s) ∧
      epochDistrict i lo hi s = { st := mirror m none (some (64 + i)) u, status := stOk, waits := some (.epmin i) } := by
  obtain ⟨hst, htyp, hnone⟩ := hk
  refine ⟨_, .key i { s.keySlot i with epmax := hi, epmin := lo, epminNext := none }, sameKeys_lastEpochs i ((s.keySlot i).epmax < 255 ∧ hi = 255) _, ?_⟩
  unfold epochDistrict
  dsimp only
  rw [hnone]
  change (if _ then _ else if _ then _ else if lo < (s.keySlot i).epmin ∨ _ then _ else if lo = (s.keySlot i).epmin ∧ _ then _ else _) = _
  rw [if_neg (by simp [hst]), if_neg (by simp [htyp]), if_neg (by omega), if_neg (by omega)]
  change (if lo = (s.keySlot i).epmin then _ else if s.woad.debugSub then _ else _) = _
  rw [if_neg (by omega), hd, if_neg (by decide)]
  change ({ st := mirror _ none (some (64 + i)) (lastEpochs i ((s.keySlot i).epmax < 255 ∧ hi = 255)
    (putKeySlot i { s.keySlot i with epmax := hi, epminNext := if (s.keySlot i).epmin < lo then some lo else none } s)), status := stOk, waits := some (.epmin i) } : EngOut) = _
  rw [if_pos he.1]

/-- The floor of a role rises, and its sessions below it close. -/
theorem roleFloor_ok {role : Nat} {v : BitVec 32} {s : State} (hr : 1 ≤ role ∧ role ≤ 6) (hv : (s.cfloor role).toNat < v.toNat) (hp : s.cas.pair = 0)
    (hd : s.woad.debugSub = false) : ∃ (hp : Hp) (ctr : Map (BitVec 64)),
      roleFloor role v s = { st := { s with hp := hp, ctr := ctr, woad.cfloor := s.woad.cfloor.put 0 role v,
                                            woad.pending := { kind := 0, slot := 65, thread := none } :: s.woad.pending },
                             status := stOk, waits := some .keyTable } ∧
      ∀ k x, hp.sessions.find k = some x → x.open_ = true → x.role = role → v.toNat ≤ x.cred := by
  obtain ⟨hp', ctr, hclose⟩ := closeSessions_frame (fun x => x.open_ && x.role == role && decide (x.cred < v.toNat))
    { s with woad.cfloor := s.woad.cfloor.put 0 role v }
  refine ⟨hp', ctr, ?_, fun k x hx hopen hrole => ?_⟩
  · have hlt : ¬ v.ult (s.cfloor role) = true := by
      rw [BitVec.ult, decide_eq_true_eq]
      omega
    unfold roleFloor
    dsimp only
    rw [if_neg (by omega), if_neg hlt, if_neg (by rintro rfl; omega), mirror_alone (by exact hp), hclose, keyChanged_eq (by exact hd), keyed_alone (by exact hd)]
  · have hleft : (closeSessions (fun x => x.open_ && x.role == role && decide (x.cred < v.toNat)) { s with woad.cfloor := s.woad.cfloor.put 0 role v }).session k = some x := by
      rw [hclose]
      exact hx
    have hkeep := (session_closeSessions hleft).2
    rw [hopen, hrole, beq_self_eq_true] at hkeep
    simpa using hkeep

/-! ## KEY_INVALIDATE and KEY_EPOCH by their blocks -/

theorem engKeyInvalidate_eq {t : Nat} {b : List Byte} (s : State) (hz : zeros b 2 62 = true) (hi : field b 0 1 < 64) (hm : field b 1 1 < 2) :
    engKeyInvalidate t b s = if field b 1 1 = 0 then invalidateSlot (field b 0 1) s else clearSlot (field b 0 1) s := by
  unfold engKeyInvalidate
  rw [if_neg (by simp [zeros_mono (at_ := 12) (n := 52) hz (by omega) (by omega)]), invalidateFrom_ok (zeros_mono hz (by omega) (by omega)) hi hm]

/-- A slot whose tombstone waits already waits for it again. -/
theorem invalidateSlot_tombed {i : Nat} {s : State} (ha : (s.keySlot i).st = .active) (ht : (s.keySlot i).tomb = true) (hd : s.woad.debugSub = false) :
    invalidateSlot i s = { st := s, status := stOk, waits := some (.tomb i) } := by
  unfold invalidateSlot
  dsimp only
  rw [ha]
  dsimp only
  rw [if_neg (by simp [hd]), if_pos ht]

theorem invalidateSlot_empty {i : Nat} {s : State} (h : (s.keySlot i).st = .empty) : invalidateSlot i s = .fail s wkSlotState := by
  unfold invalidateSlot
  dsimp only
  rw [h]

theorem clearSlot_active {i : Nat} {s : State} (h : (s.keySlot i).st = .active) : clearSlot i s = .fail s wkSlotState := by
  unfold clearSlot
  rw [h]

theorem engKeyEpoch_ok {t : Nat} {b : List Byte} {s : State} (hz : zeros b 4 4 = true ∧ zeros b 20 44 = true) (ht : field b 0 1 < 3) (hi : field b 1 1 < 64)
    (hr : s.keyRefusal = none) (hl : s.woad.life = .owned) : engKeyEpoch t b s =
      if field b 0 1 = 0 then epochDistrict (field b 1 1) (field b 2 1) (field b 3 1) s
      else if field b 0 1 = 1 then epochBcast (field b 1 1) (field b 2 1) (field b 8 8) s
      else roleFloor (field b 1 1) (BitVec.ofNat 32 (field b 16 4)) s := by
  unfold engKeyEpoch
  rw [if_neg (by simp [hz]), epochFrom_ok hz.1 ht hi hr hl]

end Sys2Proof.Machine

namespace Sys2Proof.Machine

/-- A call answers what its engine answers on its block, in the state it finds. -/
theorem answers_on {t pi rt ra fn len i : Nat} {p : Place} {c : Instr} {s v : State} {b : List Byte} {eng : Nat → List Byte → State → EngOut} {r : EngOut}
    {P : EngOut → Prop} (h : s.callsAt t pi ra fn len p i = true) (hc : exec c s = .next (ecall t pi rt ra fn len eng s)) (hb : s.load p len = b)
    (hv : calling t rt i s = v) (hr : eng t b v = r) (hP : P r) : Answers c t fn ra i s P :=
  answers_ecall h hc ((congr (congrArg (eng t) hb) hv).trans hr) hP

/-- Buffers are where they were for the caller. -/
theorem bufOk_calling (t rt i : Nat) (s : State) (a n : Nat) : (calling t rt i s).bufOk t a n = ((s.thr t).bufPlace t a n).isSome := by
  unfold State.bufOk
  rw [bufPlace_calling]

theorem readBuf_caller {t rt i addr len : Nat} {s v : State} {p : Place} {l : List Byte} (hv : calling t rt i s = v)
    (hp : (s.thr t).bufPlace t addr len = some p) (hn : s.poisoned p len = false) (hl : s.load p len = l) : v.readBuf t addr len = .ok l := by
  rw [← hv, readBuf_calling_ok hp hn, hl]

/-- Opening depends on the keys alone, not on threads and counters. -/
theorem openBatch_found (l cert : List Byte) (s : State) (T : Map Thread) (C : Map (BitVec 64)) :
    openBatch l cert { s with mcc.threads := T, ctr := C } = openBatch l cert s := rfl

/-- A key-table change that is answered once durable: the record, the other records, and what stays. -/
theorem keyed_putKeySlot {i : Nat} {k : KeySlot} {s : State} (hp : s.cas.pair = 0) (hd : s.woad.debugSub = false) : EngOut.keyed (putKeySlot i k s) =
    { st := { s with woad.slots := s.woad.slots.put {} i k, woad.pending := { kind := 0, slot := i, thread := none } :: s.woad.pending },
      status := stOk, waits := some .keyTable } := by
  rw [putKeySlot_alone hp hd]
  exact keyed_alone hd

/-- Settles O55, call by call: what each engine answers on its block, in the state the call finds. -/
theorem woadCalls : Obligations.WoadCalls := by
  unfold Obligations.WoadCalls
  refine ⟨?_, ?_, ?_, ?_, ?_, ?_, ?_, ?_, ?_, ?_, ?_, ?_, ?_, ?_, ?_, ?_, ?_, ?_, ?_, ?_, ?_⟩
  case refine_1 => -- CRY_GCM_SEAL
    intro s t pi rt ra p i b pt q h hb hz hn hk hout hq hpoison hload hseq
    obtain ⟨T, C, hv⟩ := calling_eq t rt i s
    have hbuf := (bufOk_calling t rt i s (field b 16 8) (field b 24 4 + 528)).trans hout
    rw [hv] at hbuf
    obtain ⟨u, k, sg, queued, st, f, ctr, hr, hu, hfind⟩ := engGcmSeal_ok (s := { s with mcc.threads := T, ctr := C }) hz hn hk hbuf
      (readBuf_caller hv hq hpoison hload) hseq
    refine answers_on h rfl hb hv hr ?_
    subst hu
    exact ⟨⟨rfl, rfl, rfl⟩, rfl, rfl, rfl, ⟨k, _, sg, hfind, rfl, rfl, rfl⟩, rfl, rfl, rfl⟩
  case refine_2 => -- a seal out of its time
    intro s t pi rt ra p i b h hb hz hn
    obtain ⟨T, C, hv⟩ := calling_eq t rt i s
    exact answers_on h rfl hb hv (engGcmSeal_notNow hz hn) ⟨rfl, rfl, rfl, hv.symm⟩
  case refine_3 => -- CRY_GCM_OPEN
    intro s t pi rt ra p i b l cert q p2 h hb hz hn hq hpoison hload hq2 hpoison2 hcert hdst
    obtain ⟨T, C, hv⟩ := calling_eq t rt i s
    have hlen : l.length = field b 24 4 := by rw [← hload, length_load]
    have hbuf : ∀ k pt, openBatch l cert { s with mcc.threads := T, ctr := C } = .ok (k, pt) →
        ({ s with mcc.threads := T, ctr := C } : State).bufOk t (field b 16 8) pt.length = true := by
      intro k pt ho
      have hshort := length_openBatch ho
      rw [← hv, bufOk_calling]
      exact hdst _ (by omega)
    have hr := engGcmOpen_checks (s := { s with mcc.threads := T, ctr := C }) hz hn (readBuf_caller hv hq hpoison hload) (readBuf_caller hv hq2 hpoison2 hcert) hbuf
    rw [openBatch_found] at hr
    cases ho : openBatch l cert s with
    | error e =>
      rw [ho] at hr
      refine answers_on h rfl hb hv hr ?_
      rw [hv]
      exact ⟨rfl, rfl, rfl⟩
    | ok x =>
      rw [ho] at hr
      refine answers_on h rfl hb hv hr ?_
      rw [hv]
      exact ⟨⟨rfl, rfl, rfl⟩, ⟨_, _, Map.find_ins_self _ _ _, rfl, rfl, rfl⟩, rfl⟩
  case refine_4 => -- CRY_CMAC under a session
    rintro s t pi rt ra p i b x m q h hb ⟨hsrc, hz⟩ ⟨hx, hopen⟩ hq hpoison hload
    obtain ⟨T, C, hv⟩ := calling_eq t rt i s
    refine answers_on h rfl hb hv (engCryCmac_ok hz (by omega) (cmacKey_session (s := { s with mcc.threads := T, ctr := C }) hsrc hx hopen)
      (readBuf_caller hv hq hpoison hload)) ?_
    rw [hv]
    exact ⟨⟨rfl, rfl, rfl⟩, rfl⟩
  case refine_5 => -- CRY_CMAC under a slot
    rintro s t pi rt ra p i b m q h hb ⟨hsrc, hi, hz⟩ hst hq hpoison hload
    obtain ⟨T, C, hv⟩ := calling_eq t rt i s
    have hactive : (({ s with mcc.threads := T, ctr := C } : State).keySlot (field b 1 1)).st = .active := hst
    have hkey := cmacKey_slot (s := { s with mcc.threads := T, ctr := C }) hsrc hi
    rw [hactive] at hkey
    refine answers_on h rfl hb hv (engCryCmac_ok hz (by omega) hkey (readBuf_caller hv hq hpoison hload)) ?_
    rw [hv]
    exact ⟨⟨rfl, rfl, rfl⟩, ⟨_, _, Map.find_ins_self _ _ _, rfl, rfl⟩, rfl⟩
  case refine_6 => -- CRY_CMAC under a slot that is not ACTIVE
    rintro s t pi rt ra p i b h hb ⟨hsrc, hi, hz⟩ hst
    obtain ⟨T, C, hv⟩ := calling_eq t rt i s
    have hkey : cmacKey b { s with mcc.threads := T, ctr := C } = .error (if (s.keySlot (field b 1 1)).st = .empty then stKeyAbsent else stKeyOrphaned) := by
      refine (cmacKey_slot hsrc hi).trans ?_
      change (match (s.keySlot (field b 1 1)).st with | .empty => _ | .orphaned => _ | .active => _) = _
      cases hs : (s.keySlot (field b 1 1)).st with
      | empty => rfl
      | orphaned => rfl
      | active => exact absurd hs hst
    obtain ⟨ctr, hr⟩ := engCryCmac_noKey (t := t) hz (by omega) hkey
    refine answers_on h rfl hb hv hr ?_
    rw [hv]
    exact ⟨rfl, rfl, rfl⟩
  case refine_7 => -- CRY_SHA384
    intro s t pi rt ra p i b m q p2 h hb hz hq hpoison hload hq2
    refine answers_on h rfl hb rfl (engCrySha384_ok hz (readBuf_caller rfl hq hpoison hload) ((bufPlace_calling t rt i s _ _).trans hq2)) ?_
    exact ⟨⟨rfl, rfl, rfl⟩, rfl⟩
  case refine_8 => -- CRY_ECDSA_VERIFY
    intro s t pi rt ra p i b dg pk sg q1 q2 q3 h hb hz hq1 hn1 hdg hq2 hn2 hpk hq3 hn3 hsg hver
    refine answers_on h rfl hb rfl (engEcdsaVerify_ok hz (readBuf_caller rfl hq1 hn1 hdg) (readBuf_caller rfl hq2 hn2 hpk) (readBuf_caller rfl hq3 hn3 hsg) hver) ?_
    exact ⟨⟨rfl, rfl, rfl⟩, rfl⟩
  case refine_9 => -- CRY_ATTEST
    rintro s t pi rt ra p i b nonce st q p2 h hb hz hq2 hn2 hnonce hq ⟨hst, hflags, hlen⟩
    obtain ⟨T, C, hv⟩ := calling_eq t rt i s
    have hdst := (bufPlace_calling t rt i s (field b 16 8) 448).trans hq
    rw [hv] at hdst
    refine answers_on h rfl hb hv (engCryAttest_ok (s := { s with mcc.threads := T, ctr := C }) hz (readBuf_caller hv hq2 hn2 hnonce) hdst hst hflags hlen) ?_
    rw [hv]
    refine ⟨⟨rfl, rfl, rfl⟩, _, length_ecdsaSign s.dAk (sha384 (st ++ nonce)) (Config.random s.free), ?_⟩
    cases q <;> rfl
  case refine_10 => -- KEY_LOAD of a blob
    rintro s t pi rt ra p i b d q h hb ⟨htarget, hi, hn, hz4, hz16⟩ ⟨hm, hready, hpair, hdbg, hlife⟩ hq hpoison hload hfree hblob htag
    obtain ⟨T, C, hv⟩ := calling_eq t rt i s
    have hr : engKeyLoad none t b { s with mcc.threads := T, ctr := C } =
        .keyed (putKeySlot (field b 1 1) (blobSlot (field b 1 1) d s) { s with mcc.threads := T, ctr := C }) := by
      rw [engKeyLoad_ok (s := { s with mcc.threads := T, ctr := C }) ⟨hz4, hz16⟩ (by rw [htarget, hn]; exact if_pos ⟨rfl, hi⟩) (keyRefusal_none (s := { s with mcc.threads := T, ctr := C }) hm hready hpair) (by rw [hn]; exact readBuf_caller hv hq hpoison hload), htarget]
      exact loadBlob_ok (s := { s with mcc.threads := T, ctr := C }) hlife hfree hblob htag
    refine answers_on h rfl hb hv (hr.trans (keyed_putKeySlot (by exact hpair) (by exact hdbg))) ?_
    exact ⟨rfl, rfl, rfl, keySlot_put_self (s := s) rfl, fun k hk => keySlot_put_ne (s := s) (k := blobSlot (field b 1 1) d s) rfl hk, rfl, rfl, rfl⟩
  case refine_11 => -- KEY_LOAD of what is no blob
    rintro s t pi rt ra p i b d q h hb ⟨htarget, hi, hn, hz4, hz16⟩ ⟨hm, hready, hpair, hdbg, hlife⟩ hq hpoison hload hfree hmagic
    obtain ⟨T, C, hv⟩ := calling_eq t rt i s
    have hr : engKeyLoad none t b { s with mcc.threads := T, ctr := C } = .fail (count (kWkv 14) { s with mcc.threads := T, ctr := C }) wkUnwrapFail := by
      rw [engKeyLoad_ok (s := { s with mcc.threads := T, ctr := C }) ⟨hz4, hz16⟩ (by rw [htarget, hn]; exact if_pos ⟨rfl, hi⟩) (keyRefusal_none (s := { s with mcc.threads := T, ctr := C }) hm hready hpair) (by rw [hn]; exact readBuf_caller hv hq hpoison hload), htarget]
      exact loadBlob_unwrapFail (s := { s with mcc.threads := T, ctr := C }) hlife hfree hmagic
    refine answers_on h rfl hb hv hr ?_
    rw [hv]
    exact ⟨rfl, rfl, rfl⟩
  case refine_12 => -- KEY_LOAD of the mask of image keys
    rintro s t pi rt ra p i b bad d q h hb ⟨htarget, hfield, hn, hz4, hz16⟩ ⟨hm, hready, hpair, hdbg⟩ hq hpoison hload
    obtain ⟨T, C, hv⟩ := calling_eq t rt i s
    have hlen : d.length = 4 := by rw [← hload, length_load]
    obtain ⟨otp, f, ctr, fail, hprog, hkeep, hout, hall⟩ := programOtp_word (off := 0x450) bad { s with mcc.threads := T, ctr := C, woad.otpBusy := true } hlen
    have hr : engKeyLoad bad t b { s with mcc.threads := T, ctr := C } =
        { st := { s with mcc.threads := T, ctr := ctr, woad.otpBusy := true, woad.otpFail := fail, otp := otp, free := f },
          status := if decide (bad ≠ some 0) then stOk else wkOtpFail } := by
      rw [engKeyLoad_ok (s := { s with mcc.threads := T, ctr := C }) ⟨hz4, hz16⟩ (by rw [htarget, hfield, hn]; rfl) (keyRefusal_none (s := { s with mcc.threads := T, ctr := C }) hm hready hpair) (by rw [hn]; exact readBuf_caller hv hq hpoison hload), htarget, hfield]
      refine (loadField_keyMask (s := { s with mcc.threads := T, ctr := C }) hdbg).trans ?_
      rw [hprog]
    refine answers_on h rfl hb hv hr ⟨?_, rfl, rfl, hkeep, hout, hall, rfl, rfl⟩
    by_cases hbad : bad = some 0
    · simp [hbad]
    · simp [hbad]
  case refine_13 => -- KEY_DERIVE
    rintro s t pi rt ra p i b par h hb ⟨hz5, hz12, hp, hi, htyp, hep⟩ ⟨hm, hready, hpair, hdbg, hlife⟩ ⟨hpar, hst, hptyp, hdepth⟩ hfree
    obtain ⟨T, C, hv⟩ := calling_eq t rt i s
    subst hpar
    have hr : engKeyDerive t b { s with mcc.threads := T, ctr := C } =
        .keyed (putKeySlot (field b 1 1) ((s.keySlot (field b 0 1)).child (field b 0 1) (field b 1 1) 1 (field b 3 1) (field b 4 1) (field b 8 4))
          { s with mcc.threads := T, ctr := C }) := by
      unfold engKeyDerive
      rw [if_neg (by simp [hz12]), deriveFrom_ok (s := { s with mcc.threads := T, ctr := C }) hz5 hp hi (keyRefusal_none (s := { s with mcc.threads := T, ctr := C }) hm hready hpair), htyp]
      exact deriveSlot_ok (s := { s with mcc.threads := T, ctr := C }) hlife (by omega) ⟨hst, hptyp, hdepth⟩ hfree ⟨fun _ => hep, fun hne => absurd rfl hne⟩
    refine answers_on h rfl hb hv (hr.trans (keyed_putKeySlot (by exact hpair) (by exact hdbg))) ?_
    exact ⟨rfl, rfl, rfl, keySlot_put_self (s := s) rfl, fun k hk => keySlot_put_ne (s := s) (k := (s.keySlot (field b 0 1)).child (field b 0 1) (field b 1 1) 1 (field b 3 1) (field b 4 1) (field b 8 4)) rfl hk, rfl, rfl, rfl⟩
  case refine_14 => -- KEY_INVALIDATE of an ACTIVE slot
    rintro s t pi rt ra p i b h hb ⟨hz, hi, hmode⟩ ⟨hpair, hdbg⟩ hst
    obtain ⟨T, C, hv⟩ := calling_eq t rt i s
    have hr := engKeyInvalidate_eq (t := t) (b := b) { s with mcc.threads := T, ctr := C } hz hi (by omega)
    rw [if_pos hmode] at hr
    cases htomb : (s.keySlot (field b 0 1)).tomb with
    | true =>
      have hkept : ({ s.keySlot (field b 0 1) with tomb := true } : KeySlot) = s.keySlot (field b 0 1) := by rw [← htomb]
      refine answers_on h rfl hb hv (hr.trans (invalidateSlot_tombed (s := { s with mcc.threads := T, ctr := C }) hst htomb hdbg)) ?_
      exact ⟨rfl, rfl, rfl, hkept.symm, fun _ _ => rfl, rfl, rfl, rfl⟩
    | false =>
      refine answers_on h rfl hb hv (hr.trans (invalidateSlot_active (s := { s with mcc.threads := T, ctr := C }) hst htomb hdbg hpair)) ?_
      exact ⟨rfl, rfl, rfl, keySlot_put_self (s := s) rfl, fun k hk => keySlot_put_ne (s := s) rfl hk, rfl, rfl, rfl⟩
  case refine_15 => -- KEY_INVALIDATE of an EMPTY slot
    rintro s t pi rt ra p i b h hb ⟨hz, hi, hmode⟩ hst
    obtain ⟨T, C, hv⟩ := calling_eq t rt i s
    have hr := engKeyInvalidate_eq (t := t) (b := b) { s with mcc.threads := T, ctr := C } hz hi (by omega)
    rw [if_pos hmode] at hr
    exact answers_on h rfl hb hv (hr.trans (invalidateSlot_empty (s := { s with mcc.threads := T, ctr := C }) hst)) ⟨rfl, rfl, rfl, hv.symm⟩
  case refine_16 => -- KEY_CLEAR
    rintro s t pi rt ra p i b h hb ⟨hz, hi, hmode⟩ ⟨hpair, hdbg⟩ ⟨hst, hdesc⟩
    obtain ⟨T, C, hv⟩ := calling_eq t rt i s
    have hr := engKeyInvalidate_eq (t := t) (b := b) { s with mcc.threads := T, ctr := C } hz hi (by omega)
    rw [if_neg (by omega), clearSlot_ok (s := { s with mcc.threads := T, ctr := C }) hst hdesc, keyed_putKeySlot (by exact hpair) (by exact hdbg)] at hr
    refine answers_on h rfl hb hv hr ?_
    exact ⟨rfl, rfl, rfl, keySlot_put_self (s := s) rfl, fun k hk => keySlot_put_ne (s := s) (k := {}) rfl hk, rfl, rfl, rfl⟩
  case refine_17 => -- KEY_CLEAR of an ACTIVE slot
    rintro s t pi rt ra p i b h hb ⟨hz, hi, hmode⟩ hst
    obtain ⟨T, C, hv⟩ := calling_eq t rt i s
    have hr := engKeyInvalidate_eq (t := t) (b := b) { s with mcc.threads := T, ctr := C } hz hi (by omega)
    rw [if_neg (by omega)] at hr
    exact answers_on h rfl hb hv (hr.trans (clearSlot_active (s := { s with mcc.threads := T, ctr := C }) hst)) ⟨rfl, rfl, rfl, hv.symm⟩
  case refine_18 => -- KEY_EPOCH of a district slot: EPMAX
    rintro s t pi rt ra p i b h hb ⟨htarget, hi, hz4, hz20⟩ ⟨hm, hready, hpair, hdbg, hlife⟩ hk ⟨hlo, hhi, hle⟩
    obtain ⟨T, C, hv⟩ := calling_eq t rt i s
    have hbyte := field_lt b 3 1
    have hr := engKeyEpoch_ok (t := t) (b := b) (s := { s with mcc.threads := T, ctr := C }) ⟨hz4, hz20⟩ (by omega) hi
      (keyRefusal_none (s := { s with mcc.threads := T, ctr := C }) hm hready hpair) hlife
    obtain ⟨u, hsame, hmax⟩ := epochDistrict_max (s := { s with mcc.threads := T, ctr := C }) hk ⟨hlo, hhi, hle, by omega⟩
    rw [putKeySlot_alone (by exact hpair) (by exact hdbg)] at hsame
    obtain ⟨hwoad, -, hldg, hing, hotp⟩ := hsame
    rw [if_pos htarget, hmax, keyed_alone (by rw [hwoad]; exact hdbg)] at hr
    have hslots : u.woad.slots = s.woad.slots.put {} (field b 1 1) { s.keySlot (field b 1 1) with epmax := field b 3 1 } := by rw [hwoad]; rfl
    exact answers_on h rfl hb hv hr ⟨rfl, rfl, rfl, keySlot_put_self hslots, fun k hk => keySlot_put_ne hslots hk, hldg, hing, hotp⟩
  case refine_19 => -- KEY_EPOCH of a district slot: EPMIN
    rintro s t pi rt ra p i b h hb ⟨htarget, hi, hz4, hz20⟩ ⟨hm, hready, hpair, hdbg, hlife⟩ hk ⟨hlo, hhi, hle⟩
    obtain ⟨T, C, hv⟩ := calling_eq t rt i s
    have hbyte := field_lt b 3 1
    have hr := engKeyEpoch_ok (t := t) (b := b) (s := { s with mcc.threads := T, ctr := C }) ⟨hz4, hz20⟩ (by omega) hi
      (keyRefusal_none (s := { s with mcc.threads := T, ctr := C }) hm hready hpair) hlife
    obtain ⟨u, m, hsame, hmin⟩ := epochDistrict_min (s := { s with mcc.threads := T, ctr := C }) hk ⟨hlo, hhi, hle, by omega⟩ hdbg
    rw [putKeySlot_alone (by exact hpair) (by exact hdbg)] at hsame
    obtain ⟨hwoad, hcas, hldg, hing, hotp⟩ := hsame
    rw [if_pos htarget, hmin, mirror_alone (by rw [hcas]; exact hpair)] at hr
    have hslots : u.woad.slots = s.woad.slots.put {} (field b 1 1) { s.keySlot (field b 1 1) with epmax := field b 3 1, epminNext := some (field b 2 1) } := by
      rw [hwoad]
      rfl
    exact answers_on h rfl hb hv hr ⟨rfl, rfl, rfl, keySlot_put_self hslots, fun k hk => keySlot_put_ne hslots hk, hldg, hing, hotp⟩
  case refine_20 => -- KEY_EPOCH of the broadcast epoch
    rintro s t pi rt ra p i b h hb ⟨htarget, hi, hz4, hz20⟩ ⟨hm, hready, hpair, hdbg, hlife⟩ hk hact ⟨hvalid, hcur, he, hslot⟩
    obtain ⟨T, C, hv⟩ := calling_eq t rt i s
    have hr := engKeyEpoch_ok (t := t) (b := b) (s := { s with mcc.threads := T, ctr := C }) ⟨hz4, hz20⟩ (by omega) hi (keyRefusal_none (s := { s with mcc.threads := T, ctr := C }) hm hready hpair) hlife
    rw [if_neg (by omega), if_pos htarget, epochBcast_ok (s := { s with mcc.threads := T, ctr := C }) hk hact ⟨hvalid, Or.inr ⟨hcur, he, hslot⟩⟩ hpair hdbg, he] at hr
    exact answers_on h rfl hb hv hr ⟨rfl, rfl, rfl, rfl, rfl, rfl, rfl, rfl⟩
  case refine_21 => -- KEY_EPOCH of a role's floor
    rintro s t pi rt ra p i b h hb ⟨htarget, hlo, hhi, hz4, hz20⟩ ⟨hm, hready, hpair, hdbg, hlife⟩ hfloor
    obtain ⟨T, C, hv⟩ := calling_eq t rt i s
    have hword : (BitVec.ofNat 32 (field b 16 4)).toNat = field b 16 4 := by
      rw [BitVec.toNat_ofNat]
      exact Nat.mod_eq_of_lt (field_lt b 16 4)
    have hr := engKeyEpoch_ok (t := t) (b := b) (s := { s with mcc.threads := T, ctr := C }) ⟨hz4, hz20⟩ (by omega) (by omega) (keyRefusal_none (s := { s with mcc.threads := T, ctr := C }) hm hready hpair) hlife
    obtain ⟨hp, ctr, hrole, hleft⟩ := roleFloor_ok (v := BitVec.ofNat 32 (field b 16 4)) (s := { s with mcc.threads := T, ctr := C }) ⟨hlo, hhi⟩
      (by rw [hword]; exact hfloor) hpair hdbg
    rw [if_neg (by omega), if_neg (by omega), hrole] at hr
    rw [hword] at hleft
    exact answers_on h rfl hb hv hr ⟨rfl, rfl, rfl, Map.get_put_self s.woad.cfloor 0 (field b 1 1) (BitVec.ofNat 32 (field b 16 4)), fun k hk => Map.get_put_ne _ _ _ hk, hleft, rfl, rfl, rfl, rfl⟩

end Sys2Proof.Machine
